-- ==== Sys2Proof/Word.lean ====
section
/-!
DEFINITION. The word types of the panel (00_scope R6, R8): 64-bit registers at 8-byte offsets, 32-bit
thread registers, bytes. All multi-byte values are little-endian.
-/

namespace Sys2Proof

/-- A register or quadword (R6). -/
abbrev W64 := BitVec 64
/-- A thread-engine register (R119). -/
abbrev W32 := BitVec 32
/-- A byte. -/
abbrev W8 := BitVec 8
/-- A run of bytes, lowest address first. -/
abbrev Bytes := List (BitVec 8)
/-- A 256-byte flit of a mesh lane group (R313) or of a ring port (R339). -/
abbrev Flit := BitVec 2048
/-- The 16-byte Quanyx header (R344). -/
abbrev QHdr := BitVec 128
/-- The 32-byte Nimette header (R352). -/
abbrev NHdr := BitVec 256
/-- A 176-byte REDUCE packet (R327). -/
abbrev RedPkt := BitVec 1408
/-- A 128-byte descriptor (R176). -/
abbrev Desc := BitVec 1024

end Sys2Proof
end

