-- ==== Sys2Proof/Syntax.lean ====
section
/-!
DEFINITION. The commands of the panel: one constructor of `Instr` for each row of
spec/opcode_table.json, with the operands a command carries. A Folio instruction carries the group
that runs it and its raw words (R121); flits, packets and descriptors are raw bits; a coherence
message (R263), whose bits the spec does not lay out, is the structure `CMsg`.
-/

namespace Sys2Proof

/-- A queue: logical core, engine index (R167: 0-3 ME, 4 TE, 5-6 MV) and queue 0-3. -/
structure QRef where
  core : Nat
  eng : Nat
  q : Nat
  deriving DecidableEq, Repr, Inhabited

/-- A group slot of a core's thread engine (R85). -/
structure GRef where
  core : Nat
  slot : Nat
  deriving DecidableEq, Repr, Inhabited

/-- A lane group of an edge block: site, edge (0 N, 1 E, 2 S, 3 W), group 0-15 (R311). -/
structure LinkRef where
  site : Nat
  d : Nat
  g : Nat
  deriving DecidableEq, Repr, Inhabited

/-- The committed states of a line (R258). T is no state of the committed copy. -/
inductive LState where
  | I | S | E | O | M
  deriving DecidableEq, Repr, Inhabited

/-- A memory-side operation (R149, R238): its SUB code, size in bytes, local physical address,
operand and, for a compare-exchange, the comparand. -/
structure AtomOp where
  sub : Nat
  size : Nat
  addr : Nat
  val : W64
  cmp : W64
  deriving DecidableEq, Repr, Inhabited

/-- Where the answer of a memory-side operation goes (R149): nowhere, to the run of a pinned launch's
MOPN, to the lane of a MOPR, to another panel, or to the clerk operation whose add it is (R365). -/
inductive AtomDest where
  | none
  | mopn (run : Nat)
  | lane (core slot lane reg run : Nat)
  | remote (die dev flow psn : Nat)
  | host (port : Nat)
  | clerk (p k submit : Nat)
  deriving DecidableEq, Repr, Inhabited

/-- A coherence message (R263). `line` is the line's local address divided by 512. `sectors` is the
mask of sectors wanted or carried, `wr` the sectors the requester will write, `hint` the Archive hint (R233), `count` the number of
ACK_INV to expect, `run` the commit identifier (0: none). `ack` is the target of the acknowledgement of an
INV. In a DATA with state M, `wr` is the mask of the dirty sectors that come with it and `mask` that of their dirty bytes;
in a WB, a PRE_WB, an RCL_DATA and a CMT, `mask` is the byte mask of the sectors carried, and `tag` the partition in the
line's tag (R243). `alt` tells the
INV and ACK_INV of a transaction of the home from those of a requester, the FWD_ACK that answers a FLUSH
from an owner's, and the CMT_ACK that answers a LOG from a CMT's. `data` holds the bytes of a write that
comes from a host or another panel. `seq` is the header's sequence number among the messages of its two sites on its
virtual channel (R317). In an operation of a REDUCE packet, `ack` is the mask of the sites that its MOPN_ACK goes to. -/
structure CMsg where
  line : Nat
  req : Nat
  src : Nat
  dst : Nat
  part : Nat := 0
  cid : Nat := 0
  sectors : Nat := 0
  wr : Nat := 0
  hint : Nat := 0
  poison : Nat := 0
  granted : LState := .I
  count : Nat := 0
  dirty : Bool := false
  run : Nat := 0
  op : AtomOp := { sub := 0, size := 4, addr := 0, val := 0, cmp := 0 }
  opPoison : Bool := false
  dest : AtomDest := .none
  old : W64 := 0
  status : Nat := 0
  ack : Nat := 0
  alt : Bool := false
  data : List (Nat × BitVec 8) := []
  mask : BitVec 512 := 0#512
  tag : Nat := 0
  seq : Nat := 0
  deriving DecidableEq, Repr, Inhabited

/-- An event record on its way to its slot's home (R182). -/
structure EvtOp where
  addr : Nat
  isSet : Bool
  val : W64
  deriving DecidableEq, Repr, Inhabited

/-- A request through a local-store window (R227). `slot` is site times 6 plus slot; `host` is the
ring port of a host request, or none for a command of partition `part` and context `cid`, which names
the virtual address `va`. -/
structure WinReq where
  slot : Nat
  off : Nat
  isWrite : Bool
  len : Nat
  data : Bytes
  host : Option Nat
  tag : Nat
  q : QRef
  part : Nat
  cid : Nat
  va : Nat := 0
  deriving DecidableEq, Repr, Inhabited

/-- What a start finds failing (R407, R448): a stack that fails training, lanes that fail training in the direction
that a lane group of an edge block receives, a ring port that fails training, and the C-die of a site that fails its
self-test in a slot. -/
inductive StartFail where
  | stack (site ctl : Nat)
  | lanes (l : LinkRef) (lanes : List Nat)
  | port (k : Nat)
  | die (site slot : Nat)
  deriving DecidableEq, Repr, Inhabited

/-- A parity error past replay (R325). -/
inductive PastErr where
  | headerOne
  | headerBoth
  | runPayload (run : Nat)
  | commitPayload (run line sectors : Nat)
  | logPayload (run addr : Nat)
  | otherPayload (line sectors : Nat)
  | reduceMopn (addr mask : Nat)
  deriving DecidableEq, Repr, Inhabited

/-- An incident report (R436). `site` is the subject and `reporter` the reporting site. -/
structure Report where
  cls : Nat
  site : Nat
  unit : Nat
  status : Nat
  sev : Nat
  reporter : Nat
  part : Option Nat := none
  cid : Nat := 0
  addr : W64 := 0
  aux : W64 := 0
  tag : Nat := 0
  eng : Nat := 0
  q : Nat := 0
  time : W64 := 0
  deriving DecidableEq, Repr, Inhabited

/-- Why PWR_GOOD falls (R420). -/
inductive PowerCause where
  | pwrEnFall | inputOut | railFail
  deriving DecidableEq, Repr, Inhabited

/-- A temperature sensor of R433, R434. -/
inductive Sensor where
  | cdie (site half : Nat)
  | bdie (site : Nat)
  | ringDie (r : Nat)
  | stack (site ctl : Nat)
  deriving DecidableEq, Repr, Inhabited

/-- Whose CR_HEAD a write raises (R197, R361). -/
inductive CrTarget where
  | que (q : QRef)
  | svc (p k : Nat)
  deriving DecidableEq, Repr, Inhabited

/-- The commands: one constructor for each row of spec/opcode_table.json. -/
inductive Instr where
  /-- REGISTER_WRITE (R10): A write to a register that has no row of its own takes effect under its field access codes, or is ignored for unassigned or inactive addresses. -/
  | registerWrite (pa : Nat) (len : Nat) (v : W64)
  /-- CDIE_FATAL_ERROR (R445): A fatal C-die error (rail out of regulation, divider fault, bond-port parity) makes the C-die lost and starts a substitution. -/
  | cdieFatalError (site : Nat)
  /-- CDIE_HEARTBEAT_TIMEOUT (R445): A C-die heartbeat missing for 1 ms makes the C-die lost and starts a substitution. -/
  | cdieHeartbeatTimeout (site : Nat)
  /-- SUBSTITUTION_DONE (R26): Once the riser C-die is powered, tested and loaded, the entries become ACTIVE at the riser, GEN goes even, queues resume and an incident is logged. -/
  | substitutionDone (row : Nat)
  /-- RISER_FAILURE (R29): The riser fails during substitution or while in use, so the moved entries and their queues become LOST and the riser UNAVAILABLE. -/
  | riserFailure (row : Nat)
  /-- MATMUL (R73): A MATMUL descriptor starts, is checked, and its operand reads and tile accumulation begin. -/
  | matmul (q : QRef)
  /-- GANG_WINDOW_CLOSE (R67): The gang formation window closes after 256 cycles or when all four engines have joined, and the gang begins its shared operand reads. -/
  | gangWindowClose (core : Nat) (gang : Nat)
  /-- MATRIX_DETECTION (R81): A checksum, residue or parity detection kills the matrix command, which is re-run on the same engine, then on the partner engine, and finally the C-die is lost. -/
  | matrixDetection (core : Nat) (eng : Nat) (kind : Nat)
  /-- LS_PARITY_ERROR (R82): A local-store parity error on an operand read completes the command with DATA_POISON and halts its queue. -/
  | lsParityError (core : Nat) (eng : Nat) (off : Nat)
  /-- ENGINE_STOPPED (R83): A killed run's engine has stopped, discarded its banks and logged atomics, and is free for its next command. -/
  | engineStopped (core : Nat) (eng : Nat)
  /-- MEX_CLR_FLASH (R84): Writing MEX_CTRL.CLR_FLASH zeroes the matrix engine's four flash counters. -/
  | mexClrFlash (core : Nat) (me : Nat)
  /-- MEX_CLR_DET (R81): Writing MEX_CTRL.CLR_DET zeroes MEX_DET. -/
  | mexClrDet (core : Nat) (me : Nat)
  /-- MEX_CLR_PERF (R68): Writing MEX_CTRL.CLR_PERF zeroes the matrix engine's performance counters. -/
  | mexClrPerf (core : Nat) (me : Nat)
  /-- LAUNCH (R89): A LAUNCH descriptor starts, is checked, sets the pool split if asked, invalidates L0 and Carrel and reads its arguments. -/
  | launch (q : QRef)
  /-- BLOCK_DISPATCH (R90): A block is dispatched once its slot, registers and local-store allocation are free, and its groups are placed on pipes. -/
  | blockDispatch (core : Nat)
  /-- BLOCK_RETIRE (R93): A block retires when all its groups have exited and its copies have completed, and its resources are freed 8 cycles later. -/
  | blockRetire (core : Nat) (blk : Nat)
  /-- MEET_COMPLETE (R101): A barrier generation completes when every live thread of the block has arrived, and the waiting paths resume in address order. -/
  | meetComplete (core : Nat) (blk : Nat)
  /-- BARRIER_TIMEOUT (R103): A barrier generation not completed within the barrier timeout kills the context with BARRIER_TIMEOUT. -/
  | barrierTimeout (core : Nat) (blk : Nat)
  /-- WAITC_TIMEOUT (R105): An arrival-counter wait not ended within the barrier timeout kills the context with BARRIER_TIMEOUT. -/
  | waitcTimeout (g : GRef)
  /-- COPY_COMPLETE (R104): An asynchronous copy has written all its bytes, its arrival counter rises by 1 and satisfied waits end. -/
  | copyComplete (core : Nat) (blk : Nat) (idx : Nat)
  /-- TE_DETECTION (R113): A residue, parity or checksum detection in the thread engine re-runs a repeatable launch or completes a pinned one with DATA_POISON. -/
  | teDetection (core : Nat) (kind : Nat)
  /-- L0_PARITY_ERROR (R114): A parity error in L0 or the Carrel is refetched and logged CORRECTED. -/
  | l0ParityError (core : Nat) (unit : Nat)
  /-- TEX_CLR_FLASH (R118): Writing TEX_CTRL.CLR_FLASH zeroes the thread engine's flash counters. -/
  | texClrFlash (core : Nat)
  /-- TEX_CLR_FAULT (R116): Writing TEX_CTRL.CLR_FAULT clears TEX_FAULT, TEX_FAULT_PC and TEX_FAULT_ADDR. -/
  | texClrFault (core : Nat)
  /-- TEX_CLR_PERF (R93): Writing TEX_CTRL.CLR_PERF zeroes the thread engine's performance counters. -/
  | texClrPerf (core : Nat)
  /-- FOLIO_NOP (R136): The Folio NOP instruction does nothing. -/
  | folioNop (g : GRef) (w : W64) (w1 : W64)
  /-- QUIT (R100): Each taking-part thread exits, and the group exits with its last thread. -/
  | quit (g : GRef) (w : W64) (w1 : W64)
  /-- JUMP (R99): Taking-part threads branch, and a divergent branch pushes a reconvergence entry. -/
  | jump (g : GRef) (w : W64) (w1 : W64)
  /-- CALL (R137): Pushes the return address on the group call stack and branches. -/
  | call (g : GRef) (w : W64) (w1 : W64)
  /-- RET (R137): Pops the call stack and continues there. -/
  | ret (g : GRef) (w : W64) (w1 : W64)
  /-- MEET (R153): Taking-part threads arrive at the block barrier and wait. -/
  | meet (g : GRef) (w : W64) (w1 : W64)
  /-- TALLY (R154): Raises an arrival counter by 1 for the issuing group. -/
  | tally (g : GRef) (w : W64) (w1 : W64)
  /-- SPECR (R138): Reads a special register such as the cycle counter, site, pipe or lane. -/
  | specr (g : GRef) (w : W64) (w1 : W64)
  /-- CINV (R152): Invalidates the whole Carrel of the core. -/
  | cinv (g : GRef) (w : W64) (w1 : W64)
  /-- FENCE (R151): Performs a release, acquire or both at its scope without touching an address. -/
  | fence (g : GRef) (w : W64) (w1 : W64)
  /-- CPY (R156): Issues one asynchronous copy from global memory into the block's local store. -/
  | cpy (g : GRef) (w : W64) (w1 : W64)
  /-- WAITC (R155): Makes taking-part threads wait until an arrival counter reaches a value. -/
  | waitc (g : GRef) (w : W64) (w1 : W64)
  /-- RDC (R155): Writes an arrival counter into a uniform register. -/
  | rdc (g : GRef) (w : W64) (w1 : W64)
  /-- ADDW (R129): 32-bit integer add. -/
  | addw (g : GRef) (w : W64) (w1 : W64)
  /-- SUBW (R129): 32-bit integer subtract. -/
  | subw (g : GRef) (w : W64) (w1 : W64)
  /-- MULW (R129): Low 32 bits of an integer product. -/
  | mulw (g : GRef) (w : W64) (w1 : W64)
  /-- MULWH (R129): High 32 bits of an integer product. -/
  | mulwh (g : GRef) (w : W64) (w1 : W64)
  /-- MADW (R129): Integer multiply-add, low 32 bits. -/
  | madw (g : GRef) (w : W64) (w1 : W64)
  /-- MINW (R129): Integer minimum. -/
  | minw (g : GRef) (w : W64) (w1 : W64)
  /-- MAXW (R129): Integer maximum. -/
  | maxw (g : GRef) (w : W64) (w1 : W64)
  /-- ANDW (R129): Bitwise and. -/
  | andw (g : GRef) (w : W64) (w1 : W64)
  /-- ORW (R129): Bitwise or. -/
  | orw (g : GRef) (w : W64) (w1 : W64)
  /-- XORW (R129): Bitwise xor. -/
  | xorw (g : GRef) (w : W64) (w1 : W64)
  /-- SHLW (R129): Shift left. -/
  | shlw (g : GRef) (w : W64) (w1 : W64)
  /-- SHRW (R129): Logical or arithmetic shift right. -/
  | shrw (g : GRef) (w : W64) (w1 : W64)
  /-- ONES (R129): Population count. -/
  | ones (g : GRef) (w : W64) (w1 : W64)
  /-- LZERO (R129): Leading zero count. -/
  | lzero (g : GRef) (w : W64) (w1 : W64)
  /-- FIELD (R129): Extracts a bit field. -/
  | field (g : GRef) (w : W64) (w1 : W64)
  /-- PLACE (R129): Inserts a bit field. -/
  | place (g : GRef) (w : W64) (w1 : W64)
  /-- CHOOSE (R129): Selects A or B by a predicate. -/
  | choose (g : GRef) (w : W64) (w1 : W64)
  /-- SETR (R129): Register move. -/
  | setr (g : GRef) (w : W64) (w1 : W64)
  /-- TESTW (R130): Integer compare into a predicate. -/
  | testw (g : GRef) (w : W64) (w1 : W64)
  /-- TESTF (R130): FP32 compare into a predicate. -/
  | testf (g : GRef) (w : W64) (w1 : W64)
  /-- PCOMB (R129): Combines two predicates. -/
  | pcomb (g : GRef) (w : W64) (w1 : W64)
  /-- LANEX (R132): Reads a register of another lane chosen by mode. -/
  | lanex (g : GRef) (w : W64) (w1 : W64)
  /-- POLL (R132): Group vote on a predicate: MASK, SOME or EVERY. -/
  | poll (g : GRef) (w : W64) (w1 : W64)
  /-- LANEU (R129): Copies a vector register of one lane into a uniform register. -/
  | laneu (g : GRef) (w : W64) (w1 : W64)
  /-- ADDF (R129): FP32 add. -/
  | addf (g : GRef) (w : W64) (w1 : W64)
  /-- MULF (R129): FP32 multiply. -/
  | mulf (g : GRef) (w : W64) (w1 : W64)
  /-- MADF (R129): FP32 fused multiply-add. -/
  | madf (g : GRef) (w : W64) (w1 : W64)
  /-- MINF (R130): FP32 minimum. -/
  | minf (g : GRef) (w : W64) (w1 : W64)
  /-- MAXF (R130): FP32 maximum. -/
  | maxf (g : GRef) (w : W64) (w1 : W64)
  /-- ADDB2 (R129): BF16 pair add. -/
  | addb2 (g : GRef) (w : W64) (w1 : W64)
  /-- MULB2 (R129): BF16 pair multiply. -/
  | mulb2 (g : GRef) (w : W64) (w1 : W64)
  /-- MADB2 (R129): BF16 pair fused multiply-add. -/
  | madb2 (g : GRef) (w : W64) (w1 : W64)
  /-- RECIP (R131): Reciprocal. -/
  | recip (g : GRef) (w : W64) (w1 : W64)
  /-- RROOT (R131): Reciprocal square root. -/
  | rroot (g : GRef) (w : W64) (w1 : W64)
  /-- POW2 (R131): Base-2 exponential. -/
  | pow2 (g : GRef) (w : W64) (w1 : W64)
  /-- LOG2 (R131): Base-2 logarithm. -/
  | log2 (g : GRef) (w : W64) (w1 : W64)
  /-- WTOF (R133): Integer to FP32 conversion. -/
  | wtof (g : GRef) (w : W64) (w1 : W64)
  /-- FTOW (R133): FP32 to integer conversion with saturation. -/
  | ftow (g : GRef) (w : W64) (w1 : W64)
  /-- FTOB (R133): Two FP32 values to a BF16 pair. -/
  | ftob (g : GRef) (w : W64) (w1 : W64)
  /-- BTOF (R133): One BF16 half to FP32. -/
  | btof (g : GRef) (w : W64) (w1 : W64)
  /-- CVTE (R133): Converts one value into a narrow element code. -/
  | cvte (g : GRef) (w : W64) (w1 : W64)
  /-- DCDE (R133): Decodes a narrow element code to FP32. -/
  | dcde (g : GRef) (w : W64) (w1 : W64)
  /-- QBLK (R134): Quantises each half of the group as one block. -/
  | qblk (g : GRef) (w : W64) (w1 : W64)
  /-- DQBLK (R135): Decodes a block to effective FP32 values. -/
  | dqblk (g : GRef) (w : W64) (w1 : W64)
  /-- LDM (R139): Global load. -/
  | ldm (g : GRef) (w : W64) (w1 : W64)
  /-- LDRO (R139): Read-only global load through the Carrel. -/
  | ldro (g : GRef) (w : W64) (w1 : W64)
  /-- LDLS (R139): Local-store load. -/
  | ldls (g : GRef) (w : W64) (w1 : W64)
  /-- STM (R146): Global store, tentative or performed by launch class. -/
  | stm (g : GRef) (w : W64) (w1 : W64)
  /-- STLS (R139): Local-store store. -/
  | stls (g : GRef) (w : W64) (w1 : W64)
  /-- MOPN (R149): Memory operation without returned value, logged or applied by launch class. -/
  | mopn (g : GRef) (w : W64) (w1 : W64)
  /-- MOPR (R149): Memory operation with returned value, pinned launches only. -/
  | mopr (g : GRef) (w : W64) (w1 : W64)
  /-- LOPR (R150): Local-store atomic with returned value. -/
  | lopr (g : GRef) (w : W64) (w1 : W64)
  /-- GMAC (R162): Group-matrix multiply-accumulate into a handle. -/
  | gmac (g : GRef) (w : W64) (w1 : W64)
  /-- GMCLR (R159): Clears a group-matrix handle. -/
  | gmclr (g : GRef) (w : W64) (w1 : W64)
  /-- GMGET (R163): Reads a handle into vector registers. -/
  | gmget (g : GRef) (w : W64) (w1 : W64)
  /-- GMPUT (R163): Writes vector registers into a handle. -/
  | gmput (g : GRef) (w : W64) (w1 : W64)
  /-- QUE_TAIL_DOORBELL (R172): A QUE_TAIL write posts submission entries, or is ignored and counted. -/
  | queTailDoorbell (q : QRef) (v : W64)
  /-- QUE_SOP15_DOORBELL (R175): A QUE_SOP15 write copies the single-op window into the FIFO, or is dropped. -/
  | queSop15Doorbell (q : QRef) (v : W64)
  /-- BCAST_TAIL (R194): A broadcast tail write is delivered to the QUE_TAIL of every buffer-mode member. -/
  | bcastTail (p : Nat) (grp : Nat) (v : W64)
  /-- BCAST_SOP15 (R194): A broadcast SOP15 write copies the group window into every single-op member's FIFO. -/
  | bcastSop15 (p : Nat) (grp : Nat) (v : W64)
  /-- QUE_CFG_WRITE (R472): A QUE_CFG write enables or disables the queue and takes held fields only while ENABLE was 0. -/
  | queCfgWrite (q : QRef) (v : W64)
  /-- QUE_BCAST_WRITE (R195): A QUE_BCAST write joins or leaves a broadcast group, or is ignored when it would add a 257th member. -/
  | queBcastWrite (q : QRef) (v : W64)
  /-- QUE_RESUME (R198): Continues a HALTED queue or retries the held record of a BLOCKED queue. -/
  | queResume (q : QRef)
  /-- QUE_RESUME_SKIP (R198): Resumes a HALTED buffer-mode queue at the next submission entry. -/
  | queResumeSkip (q : QRef)
  /-- QUE_ABORT (R220): Requests the abort of one command, held pending when not yet fetched. -/
  | queAbort (q : QRef) (submit : Nat) (index : Nat)
  /-- QUE_ABORT_ALL (R220): Requests the abort of every accepted command not yet completed. -/
  | queAbortAll (q : QRef)
  /-- ABORT_REACHES_ENGINE (R220): An abort reaches the engine and the command's outcome is judged against its commit point. -/
  | abortReachesEngine (q : QRef)
  /-- SUBMISSION_ENTRY_RETURN (R173): A fetched submission entry returns and HEAD rises. -/
  | submissionEntryReturn (q : QRef)
  /-- DESCRIPTOR_BLOCK_RETURN (R173): A descriptor block of a command buffer returns to the fetch unit. -/
  | descriptorBlockReturn (q : QRef)
  /-- COMMAND_READY (R170): The head command passes its checks and gates and starts, pre-empting a best-effort run if needed. -/
  | commandReady (q : QRef)
  /-- WAIT_TIMEOUT (R170): A wait before start expires, so the command completes with WAIT_TIMEOUT and halts its queue. -/
  | waitTimeout (q : QRef)
  /-- INDIRECT_READ_RETURN (R181): The indirect slot reads of a command return, and the opcode's checks run. -/
  | indirectReadReturn (q : QRef)
  /-- EVENT_RECORD (R182): A command's event record reaches the slot's home and is applied as an INT64 ADD or SET, and wakes leave. -/
  | eventRecord (e : EvtOp)
  /-- EVENT_WAKE (R183): A wake reaches a waiting queue and its head's wait is judged again. -/
  | eventWake (q : QRef)
  /-- ARM_DELIVERY (R186): A chain arm sets the pending-arm bit of the target queue, or is lost and counted. -/
  | armDelivery (q : QRef) (id : Nat)
  /-- NOP (R177): The NOP descriptor completes once it is ready. -/
  | nop (q : QRef)
  /-- SPAWN (R189): A SPAWN descriptor starts and reserves room in its targets. -/
  | spawn (q : QRef)
  /-- SPAWN_ROOM_GRANTED (R189): Room is held in every target, checks and reads pass, and the SPAWN commits and posts its work. -/
  | spawnRoomGranted (q : QRef)
  /-- SPAWN_ROOM_TIMEOUT (R189): The SPAWN room wait expires, so it completes with WAIT_TIMEOUT, posts nothing and halts. -/
  | spawnRoomTimeout (q : QRef)
  /-- CALL_PATTERN (R191): A pour raises LIVE by compare-exchange and reads the pattern header and CRC table. -/
  | callPattern (q : QRef)
  /-- POUR_BLOCK_RETURN (R192): A pattern block returns with the header and is checked, or the pour is killed with GRAPH_TORN. -/
  | pourBlockReturn (q : QRef)
  /-- POUR_LOCK_TIMEOUT (R191): A pour's LOCK wait expires and CALL_PATTERN completes with WAIT_TIMEOUT. -/
  | pourLockTimeout (q : QRef)
  /-- PATCH (R193): A PATCH takes LOCK, waits for LIVE = 0, rewrites descriptors, CRCs and GEN, then clears LOCK. -/
  | patch (q : QRef)
  /-- PATCH_LIVE_DRAINED (R193): LIVE reaches 0 while a PATCH waits, and the patch writes proceed. -/
  | patchLiveDrained (q : QRef)
  /-- PATCH_WAIT_TIMEOUT (R193): A PATCH LOCK or LIVE wait expires, so it clears LOCK and completes with WAIT_TIMEOUT. -/
  | patchWaitTimeout (q : QRef)
  /-- NOTIFY_HOLDOFF_EXPIRY (R199): The notification holdoff ends and one merged notification is sent. -/
  | notifyHoldoffExpiry (t : CrTarget)
  /-- RUN_COMMIT_POINT (R210): A run reaches its commit point, is marked committed, and its commit order passes to the writer's slice. -/
  | runCommitPoint (q : QRef)
  /-- DISCARD_COMPLETE (R213): The slice finishes discarding a killed run's tentative lines and releases its reservation. -/
  | discardComplete (run : Nat)
  /-- RESERVATION_GRANTED (R206): Tentative space frees up and a waiting command's FOOTPRINT is reserved. -/
  | reservationGranted (q : QRef)
  /-- TENTATIVE_SET_WAIT_EXPIRY (R207): A 10 µs wait for a tentative way kills the run and re-queues it. -/
  | tentativeSetWaitExpiry (q : QRef)
  /-- TENTATIVE_PARITY_ERROR (R208): Parity error in a tentative line or log entry kills the run before commit, or poisons during commit. -/
  | tentativeParityError (run : Nat) (addr : Nat) (isLog : Bool)
  /-- PINNED_OVERRUN (R215): The pinned budget expires and the command completes with PINNED_OVERRUN, killing the context. -/
  | pinnedOverrun (q : QRef)
  /-- CALENDAR_WINDOW_BOUNDARY (R219): A Calendar window ends and runs the new window does not carryOut are killed and re-queued. -/
  | calendarWindowBoundary (core : Nat)
  /-- MAINT_BEGIN (R219): A released maintenance window begins MAINT once the engines hold no running command. -/
  | maintBegin (core : Nat)
  /-- COMMAND_WATCHDOG (R221): The command watchdog expires, and the run is killed and completes ABORTED, or a collective run EXPIRED. -/
  | commandWatchdog (q : QRef)
  /-- COLLECTIVE_ARRIVAL (R223): A member's arrival reaches the coordinator, which opens, reopens, joins or answers the instance. -/
  | collectiveArrival (q : QRef)
  /-- COLLECTIVE_PREPARED (R223): A PREPARED reaches the coordinator, and at MEMBERS the group commit point is set. -/
  | collectivePrepared (q : QRef)
  /-- COLLECTIVE_KILL (R224): A KILL reaches the coordinator, which sets KILLED and kills every member of the run. -/
  | collectiveKill (q : QRef)
  /-- WINDOW_REQUEST (R227): A request through a local-store window is judged and performed, refused or dropped. -/
  | windowRequest (r : WinReq)
  /-- WCB_AGE_EXPIRY (R237): A write-combining entry ages out after 2,048 slice cycles and is flushed. -/
  | wcbAgeExpiry (site : Nat) (idx : Nat)
  /-- WCB_PARITY_ERROR (R237): Parity error in a write-combining entry re-runs the repeatable run or poisons the pinned launch. -/
  | wcbParityError (site : Nat) (idx : Nat)
  /-- ARCHIVE_PARITY_ERROR (R247): Archive parity error refetches a clean sector or poisons a dirty one. -/
  | archiveParityError (site : Nat) (sector : Nat)
  /-- HBM_TEMP_POLL (R245): A stack temperature poll sets the refresh band and the steady throttle. -/
  | hbmTempPoll (site : Nat) (ctl : Nat) (temp : Nat)
  /-- SCRUB_READ (R251): A scrub read checks a line, re-reads, repairs from a mirror or poisons it. -/
  | scrubRead (line : Nat) (fails : Nat) (otherFails : Nat)
  /-- COPY (R254): Move-engine row copy. -/
  | copy (q : QRef)
  /-- FILL (R254): Move-engine fill with an 8-byte pattern. -/
  | fill (q : QRef)
  /-- GATHER (R254): Move-engine gather of rows by an index list. -/
  | gather (q : QRef)
  /-- SCATTER (R254): Move-engine scatter of rows by an index list. -/
  | scatter (q : QRef)
  /-- PREFETCH (R254): Brings rows into the core's site slice with a hint. -/
  | prefetch (q : QRef)
  /-- FLUSH_RANGE (R274): Cleans panel HBM lines and writes back and invalidates host and remote lines over a range. -/
  | flushRange (q : QRef)
  /-- ALLREDUCE (R255): Collective all-reduce within the panel. -/
  | allreduce (q : QRef)
  /-- REDUCE_SCATTER (R255): Collective reduce-scatter within the panel. -/
  | reduceScatter (q : QRef)
  /-- ALLGATHER (R255): Collective all-gather within the panel. -/
  | allgather (q : QRef)
  /-- ALLTOALL (R255): Collective all-to-all within the panel. -/
  | alltoall (q : QRef)
  /-- RD_S (R265): Read-copy request reaches the home. -/
  | rdS (m : CMsg)
  /-- OWN (R265): Obtain-M request reaches the home. -/
  | own (m : CMsg)
  /-- UPGR (R265): Upgrade request from an S holder reaches the home. -/
  | upgr (m : CMsg)
  /-- ATOM (R238): Memory-side atomic reaches the home and is applied once the home is sole. -/
  | atom (m : CMsg)
  /-- FLUSH (R265): Clean request from a move engine's slice reaches the home. -/
  | flush (m : CMsg)
  /-- WB (R265): Eviction write-back reaches the home. -/
  | wb (m : CMsg)
  /-- PRE_WB (R267): Pre-image write-back reaches the home. -/
  | preWb (m : CMsg)
  /-- CMT (R269): Commit merge reaches the home and is merged once the line is sole. -/
  | cmt (m : CMsg)
  /-- LOG (R269): Logged operation reaches the home and is applied at commit. -/
  | log (m : CMsg)
  /-- MIR (R249): Mirror forward reaches the B home, which writes the line and acknowledges. -/
  | mir (m : CMsg)
  /-- SNP_S (R264): Snoop for a shared copy reaches the owner. -/
  | snpS (m : CMsg)
  /-- SNP_X (R264): Snoop for ownership reaches the owner. -/
  | snpX (m : CMsg)
  /-- INV (R264): Invalidation reaches a sharer. -/
  | inv (m : CMsg)
  /-- RECALL (R264): Recall reaches the owner. -/
  | recall (m : CMsg)
  /-- CLEAN (R264): Clean request reaches the owner. -/
  | clean (m : CMsg)
  /-- DATA (R264): Data grant reaches the requester. -/
  | data (m : CMsg)
  /-- GRANT (R264): Grant without data reaches the requester. -/
  | grant (m : CMsg)
  /-- ACK_INV (R264): Invalidation acknowledgement reaches its target. -/
  | ackInv (m : CMsg)
  /-- MISS (R261): A stale holder's MISS reaches the home, which serves from HBM. -/
  | miss (m : CMsg)
  /-- FWD_ACK (R265): Owner's snoop-served acknowledgement reaches the home. -/
  | fwdAck (m : CMsg)
  /-- RCL_DATA (R265): Answer to RECALL or CLEAN reaches the home. -/
  | rclData (m : CMsg)
  /-- WB_ACK (R267): Write-back acknowledgement reaches the sender. -/
  | wbAck (m : CMsg)
  /-- CMT_ACK (R269): Commit acknowledgement reaches the writer's slice, which drops its T line. -/
  | cmtAck (m : CMsg)
  /-- MIR_ACK (R249): Mirror acknowledgement reaches the A home, which then acknowledges. -/
  | mirAck (m : CMsg)
  /-- ATOM_RSP (R263): Atomic response reaches the requester. -/
  | atomRsp (m : CMsg)
  /-- DIR_PROBE (R259): A write to ARC_DIR_PROBE.LINE probes the line's directory entry into the data registers. -/
  | dirProbe (site : Nat) (v : W64)
  /-- TLBI_RANGE (R307): Invalidates a VA range of one CID. -/
  | tlbiRange (p : Nat) (cid : Nat)
  /-- TLBI_CONTEXT (R307): Invalidates everything of one CID. -/
  | tlbiContext (p : Nat) (cid : Nat)
  /-- TLBI_PARTITION (R307): Invalidates everything of every CID of the partition. -/
  | tlbiPartition (p : Nat)
  /-- TLBI_COMPLETE (R307): An invalidation completes once no cache holds a dropped translation and no run uses one, and DONE rises. -/
  | tlbiComplete (p : Nat)
  /-- CORE_CTX_BASE_WRITE (R306): A CORE_CTX_BASE write is taken, or ignored while any queue of the partition is enabled. -/
  | coreCtxBaseWrite (p : Nat) (v : W64)
  /-- MESH_FLIT (R320): A MSG flit arrives on a mesh lane group and is checked, accepted, or discarded with NAK and replay. -/
  | meshFlit (l : LinkRef) (flit : Flit)
  /-- IDLE_FLIT (R321): An IDLE flit arrives, its PRBS charges lanes, and calibration adjusts. -/
  | idleFlit (l : LinkRef) (flit : Flit)
  /-- IDLE_INSERT (R321): A group that sent no IDLE flit for 1 ms sends one. -/
  | idleInsert (l : LinkRef)
  /-- LANEMAP (R322): A LANEMAP flit moves a failing lane to a spare at both ends. -/
  | lanemap (l : LinkRef) (lane : Nat)
  /-- GROUP_TEST_DONE (R323): TEST flits on a suspect group end, so the lane is spared or the group goes OUT and CTRL may move. -/
  | groupTestDone (l : LinkRef) (failing : (List Nat))
  /-- PAST_REPLAY_ERROR (R325): A parity error in a router buffer past replay is corrected, poisons, re-runs or is PANEL_FATAL. -/
  | pastReplayError (l : LinkRef) (e : PastErr)
  /-- REDUCE_PACKET (R328): A REDUCE packet reaches a router output and combines, takes an entry, or is forwarded. -/
  | reducePacket (site : Nat) (out : Nat) (pkt : RedPkt)
  /-- COMBINE_WINDOW_EXPIRY (R328): A combining entry's window ends and it leaves. -/
  | combineWindowExpiry (site : Nat) (out : Nat) (idx : Nat)
  /-- MOPN_ACK (R330): A MOPN acknowledgement reaches a source site and frees held accesses to the sector. -/
  | mopnAck (site : Nat) (sector : Nat)
  /-- RING_MSG_FLIT (R340): A ring MSG flit arrives and is checked and replayed. -/
  | ringMsgFlit (port : Nat) (flit : Flit)
  /-- RING_LINK_FLIT (R342): A LINK flit advertises role, device and credits. -/
  | ringLinkFlit (port : Nat) (flit : Flit)
  /-- RING_IDLE_FLIT (R447): A ring IDLE flit drives calibration, lane charging and clock difference absorption. -/
  | ringIdleFlit (port : Nat) (flit : Flit)
  /-- MRD (R347): A host Quanyx read is judged by region and port and answered. -/
  | mrd (port : Nat) (h : QHdr)
  /-- MWR (R347): A host Quanyx write is judged by region and port and performed or dropped. -/
  | mwr (port : Nat) (h : QHdr) (d : Bytes)
  /-- MSG (R345): A Quanyx MSG from the host is dropped and counted. -/
  | msg (port : Nat) (h : QHdr) (d : Bytes)
  /-- CPL (R346): A completion from the host answers a panel read or acknowledges a panel write. -/
  | cpl (port : Nat) (h : QHdr) (d : Bytes)
  /-- REGISTER_READ_DEADLINE (R348): A Librarian-backed register read not ready in time is answered RETRY. -/
  | registerReadDeadline (port : Nat) (tag : Nat)
  /-- MEMORY_READ_DEADLINE (R348): A host memory read not ready within 10 µs is answered RETRY. -/
  | memoryReadDeadline (port : Nat) (tag : Nat)
  /-- HOST_ACCESS_TIMEOUT (R346): A panel access to a host without an OK CPL within 100 µs has failed. -/
  | hostAccessTimeout (port : Nat) (tag : Nat)
  /-- OPEN (R356): A Nimette OPEN creates or replaces a receiver context. -/
  | openFlow (die : Nat) (h : NHdr) (d : Bytes) (crc : W32)
  /-- OPEN_ACK (R356): OPEN_ACK makes a sender flow OPEN. -/
  | openAck (die : Nat) (h : NHdr) (d : Bytes) (crc : W32)
  /-- ACK (R356): A cumulative acknowledgement frees acknowledged packets. -/
  | ack (die : Nat) (h : NHdr) (d : Bytes) (crc : W32)
  /-- CLOSE (R356): A flow is closed and its context freed. -/
  | close (die : Nat) (h : NHdr) (d : Bytes) (crc : W32)
  /-- RD (R355): A remote read is admitted, checked and answered with committed sectors. -/
  | rd (die : Nat) (h : NHdr) (d : Bytes) (crc : W32)
  /-- WR (R355): A remote write is admitted, checked and merged at the home. -/
  | wr (die : Nat) (h : NHdr) (d : Bytes) (crc : W32)
  /-- AT (R355): A remote atomic is admitted and performed at the home. -/
  | atOp (die : Nat) (h : NHdr) (d : Bytes) (crc : W32)
  /-- RD_RSP (R359): A remote read answer delivers sectors or a status. -/
  | rdRsp (die : Nat) (h : NHdr) (d : Bytes) (crc : W32)
  /-- WR_DONE (R353): A remote write is acknowledged. -/
  | wrDone (die : Nat) (h : NHdr) (d : Bytes) (crc : W32)
  /-- AT_RSP (R359): A remote atomic answer returns the old value or a status. -/
  | atRsp (die : Nat) (h : NHdr) (d : Bytes) (crc : W32)
  /-- OBJ_GET (R360): An object read request asks an endpoint to write an object range into the panel. -/
  | objGet (die : Nat) (h : NHdr) (d : Bytes) (crc : W32)
  /-- OBJ_PUT (R360): An object write request announces object data from the panel. -/
  | objPut (die : Nat) (h : NHdr) (d : Bytes) (crc : W32)
  /-- OBJ_DATA (R360): Object bytes arrive, are checked against an outstanding GET and merged. -/
  | objData (die : Nat) (h : NHdr) (d : Bytes) (crc : W32)
  /-- OBJ_END (R360): An object transfer ends with its status. -/
  | objEnd (die : Nat) (h : NHdr) (d : Bytes) (crc : W32)
  /-- RETRANSMIT_TIMER (R357): Unacknowledged packets or OPEN are re-sent after the retransmit interval. -/
  | retransmitTimer (die : Nat) (flow : Nat)
  /-- FLOW_GIVEUP (R358): A flow without progress for the give-up time fails and its requests take their outcomes. -/
  | flowGiveup (die : Nat) (flow : Nat)
  /-- ACK_DELAY_EXPIRY (R356): An ACK is sent 2 µs after the last unacknowledged accepted packet. -/
  | ackDelayExpiry (die : Nat) (dev : Nat) (flow : Nat)
  /-- FLOW_IDLE_EXPIRY (R356): An idle OPEN flow sends CLOSE after 10 ms. -/
  | flowIdleExpiry (die : Nat) (flow : Nat)
  /-- SVC_TAIL (R361): A service ring doorbell posts requests. -/
  | svcTail (p : Nat) (k : Nat) (v : W64)
  /-- SVC_CFG_WRITE (R361): A SVC_CFG write enables the ring and takes held fields only while disabled. -/
  | svcCfgWrite (p : Nat) (k : Nat) (v : W64)
  /-- SVC_RESUME (R367): Resumes a halted or blocked service ring. -/
  | svcResume (p : Nat) (k : Nat)
  /-- SVC_ABORT (R366): Aborts one service request. -/
  | svcAbort (p : Nat) (k : Nat) (submit : Nat)
  /-- SVC_ABORT_ALL (R366): Aborts every accepted service request. -/
  | svcAbortAll (p : Nat) (k : Nat)
  /-- SVC_WAIT_TIMEOUT (R362): A service request's wait expires and it completes WAIT_TIMEOUT. -/
  | svcWaitTimeout (p : Nat) (k : Nat)
  /-- F_ALLREDUCE (R370): Fabric all-reduce run by clerks. -/
  | fAllreduce (p : Nat) (k : Nat)
  /-- F_REDUCE_SCATTER (R370): Fabric reduce-scatter run by clerks. -/
  | fReduceScatter (p : Nat) (k : Nat)
  /-- F_ALLGATHER (R370): Fabric all-gather run by clerks. -/
  | fAllgather (p : Nat) (k : Nat)
  /-- F_ALLTOALL (R370): Fabric all-to-all run by clerks. -/
  | fAlltoall (p : Nat) (k : Nat)
  /-- CHECKPOINT (R372): Copies a list of ranges, optionally via a snapshot, into a storage object. -/
  | checkpoint (p : Nat) (k : Nat)
  /-- STAGE (R375): Fills a ring of slots from a list of object batches. -/
  | stage (p : Nat) (k : Nat)
  /-- STAGE_BATCH_START (R375): A batch starts once FREED allows and fewer than 4 are in flight. -/
  | stageBatchStart (p : Nat) (k : Nat) (submit : Nat)
  /-- STAGE_BATCH_LANDED (R375): A batch lands and FILLED advances over contiguous landed batches. -/
  | stageBatchLanded (p : Nat) (k : Nat) (submit : Nat) (batch : Nat)
  /-- PART_CREATE (R385): Creates a partition with its host and sites. -/
  | partCreate (slot : Nat)
  /-- PART_GROW (R385): Adds sites to an ACTIVE partition. -/
  | partGrow (slot : Nat)
  /-- PART_SET_HOST (R387): Gives the partition to another host port. -/
  | partSetHost (slot : Nat)
  /-- FRAME_ASSIGN (R385): Tags frames for an ACTIVE partition. -/
  | frameAssign (slot : Nat)
  /-- PART_REGULATE (R385): Sets a partition's HBM regulators on a site. -/
  | partRegulate (slot : Nat)
  /-- PART_STOP (R387): Makes the partition's queues and rings ignore doorbells. -/
  | partStop (slot : Nat)
  /-- PART_DRAIN (R388): Drains or kills the partition's work toward DRAINED. -/
  | partDrain (slot : Nat)
  /-- PART_DRAIN_TIMEOUT (R388): The drain timeout expires and every command of the partition is aborted. -/
  | partDrainTimeout (p : Nat)
  /-- PART_DRAINED (R388): The partition holds no running work and becomes DRAINED. -/
  | partDrained (p : Nat)
  /-- PART_FLUSH (R389): Writes back and drops the partition's cached lines and becomes FLUSHED. -/
  | partFlush (slot : Nat)
  /-- PART_RELEASE (R390): Frees the partition's frames and begins scrubbing. -/
  | partRelease (slot : Nat)
  /-- PART_SCRUB_DONE (R390): The scrub of freed frames ends and the partition becomes FREE. -/
  | partScrubDone (p : Nat)
  /-- PART_RESUME (R385): Returns a stopped partition to ACTIVE. -/
  | partResume (slot : Nat)
  /-- PING (R410): Mailbox command with no effect. -/
  | ping (slot : Nat)
  /-- ROLLBACK_ADVANCE (R402): Raises the anti-rollback floor by blowing fuse bits. -/
  | rollbackAdvance (slot : Nat)
  /-- ATTEST (R414): Writes a signed attestation report. -/
  | attest (slot : Nat)
  /-- S2_ROOT_SET (R410): Sets a partition's stage-2 root and invalidates stage 2. -/
  | s2RootSet (slot : Nat)
  /-- S2_INVALIDATE (R307): Stage-2 invalidation for a partition. -/
  | s2Invalidate (slot : Nat)
  /-- ROUTE_SET (R410): Writes a fabric route mask in every ring die. -/
  | routeSet (slot : Nat)
  /-- ADMIT_SET (R410): Writes a fabric admission entry in every ring die. -/
  | admitSet (slot : Nat)
  /-- MAILBOX_BAD_CODE (R410): A mailbox slot with an unknown code or non-zero reserved field returns BAD_CODE. -/
  | mailboxBadCode (slot : Nat)
  /-- LOAD_WINDOW_WRITE (R398): A write to the load window is taken, fixes the boot port, or is refused or dropped. -/
  | loadWindowWrite (port : Nat) (off : Nat) (d : Bytes)
  /-- LOAD_LIB (R399): Copies and verifies a Librarian image, or is ignored with BAD_ORDER. -/
  | loadLib (port : Nat)
  /-- LOAD_MOULD (R399): Copies and verifies a Mould image, or is ignored with BAD_ORDER. -/
  | loadMould (port : Nat)
  /-- IMAGE_VERIFIED (R401): Verification of a loaded image ends with acceptance or a refusal code. -/
  | imageVerified
  /-- START_READY (R406): Applying the Mould image completes and the panel reaches READY. -/
  | startReady (fails : List StartFail)
  /-- SUPERVISOR_RESTART (R412): A missed Librarian heartbeat resets the cluster and restarts it or enters RELOAD. -/
  | supervisorRestart
  /-- LIB_RESTART_DONE (R413): The Librarian restart completes and queued work and held incidents proceed. -/
  | libRestartDone
  /-- INCIDENT_REPORT (R437): A report reaches the Librarian and is merged or logged as an entry with notifications. -/
  | incidentReport (r : Report)
  /-- ECHO_WINDOW_END (R437): A site agent's 1 ms coalescing window ends and it sends the echo count. -/
  | echoWindowEnd (site : Nat) (r : Report)
  /-- PWR_EN_RISE (R419): PWR_EN rises and the power-up sequence runs. -/
  | pwrEnRise
  /-- INPUT_ENTERS_RANGE (R419): The input enters its operating range and a pending power-up continues. -/
  | inputEntersRange
  /-- POWER_DOWN (R420): PWR_EN falls, input leaves range or a rail fails, so PWR_GOOD falls and the panel powers down. -/
  | powerDown (cause : PowerCause)
  /-- PANEL_RESET_RISE (R406): PANEL_RESET_N rises and a start begins. -/
  | panelResetRise (fails : List StartFail)
  /-- PANEL_RESET_FALL (R420): PANEL_RESET_N falls, stopping all work and gating every C-die. -/
  | panelResetFall
  /-- REFCLK_LOSS (R423): A reference clock loss is detected and every site PLL holds. -/
  | refclkLoss
  /-- REFCLK_RETURN (R423): The reference returns within 10 µs and the panel rides through. -/
  | refclkReturn
  /-- REFCLK_LOSS_TIMEOUT (R423): A reference loss longer than 10 µs is PANEL_FATAL. -/
  | refclkLossTimeout
  /-- PLL_LOCK_LOSS (R423): A site PLL loses lock and its site is lost. -/
  | pllLockLoss (site : Nat)
  /-- TAB_CHECK (R418): The 1 s tab current average moves tabs in or out of service and changes the envelope. -/
  | tabCheck (currents : (List Nat))
  /-- CKG_HALF_WRITE (R425): A CKG_HALF.REQ write requests a step and may change the effective step. -/
  | ckgHalfWrite (site : Nat) (half : Nat) (v : W64)
  /-- STEP_CHANGE_DONE (R426): A clock step change completes and any queued change starts. -/
  | stepChangeDone (site : Nat) (half : Nat)
  /-- ENVELOPE_TICK (R432): The 1 ms input power average lowers or raises the envelope cap. -/
  | envelopeTick (watts : Nat)
  /-- THERMAL_POLL (R433): A sensor read lowers or raises a half's thermal cap. -/
  | thermalPoll (site : Nat) (half : Nat) (readings : (List Nat))
  /-- THERMAL_TRIP (R434): A sensor reaches its trip threshold, the trip latches and the panel powers down. -/
  | thermalTrip (sensor : Sensor) (temp : Nat)
  /-- LEDGER_FRAME_BOUNDARY (R431): A Ledger frame ends, USED is carried and deferred heads are judged again. -/
  | ledgerFrameBoundary (site : Nat) (p : Nat)
  /-- SITE_HEARTBEAT_TIMEOUT (R442): A neighbour's heartbeats stop within SITE_HB, so contact is lost and reported. -/
  | siteHeartbeatTimeout (site : Nat) (d : Nat)
  /-- LOSS_REPORT (R442): A loss report reaches a site agent, which may declare a site lost. -/
  | lossReport (agent : Nat) (reporter : Nat) (subject : Nat)
  /-- B_DIE_FATAL_ERROR (R442): A site's agent reports a fatal B-die error and the site is declared lost. -/
  | bDieFatalError (site : Nat)
  /-- SITE_LOSS_REROUTE (R443): The Librarian rewrites routes, makes owning partitions fatal and moves the site's cores. -/
  | siteLossReroute (site : Nat)
  /-- CORE_SELFTEST_REQ (R446): Writing CORE_SELFTEST.REQ requests a self-test or joins a pending one. -/
  | coreSelftestReq (core : Nat)
  /-- SELFTEST_PART_DONE (R446): A self-test part ends, passing on or making the C-die lost. -/
  | selftestPartDone (core : Nat) (pass : Bool)
  /-- PRESENCE_OPEN (R458): A presence contact opens and the flask controller drives PWR_EN low. -/
  | presenceOpen (which : Nat)
  /-- STANDBY_UP (R465): The standby supply comes up and the address straps are read. -/
  | standbyUp (sel1 : Bool) (sel0 : Bool)
  /-- SMBUS_WRITE (R465): An SMBus write is checked for PEC and performed or NACKed. -/
  | smbusWrite (cmd : Nat) (data : W8) (pec : (Option W8))
  /-- TRIP_CLR (R467): Writing TRIP_CLR clears a latched trip when every sensor is cool enough. -/
  | tripClr
  /-- SMBUS_SCL_TIMEOUT (R465): SMB_SCL low for more than 35 ms releases the bus and resets the interface. -/
  | smbusSclTimeout
  /-- IDCODE (R468): JTAG IDCODE instruction returns the device code. -/
  | idcode
  /-- BYPASS (R468): JTAG BYPASS instruction. -/
  | bypass
  /-- EXTEST (R468): JTAG EXTEST on the management connector boundary when unlocked. -/
  | extest
  /-- SAMPLE_PRELOAD (R468): JTAG SAMPLE/PRELOAD when unlocked. -/
  | samplePreload
  /-- TRST (R468): TRST_N low holds the test port in Test-Logic-Reset. -/
  | trst (low : Bool)
  /-- QUE_CR_HEAD_WRITE (R197): Host software raises QUE_CR_HEAD (or SVC_CR_HEAD), freeing completion-ring entries so that a FULL queue or ring can start its head command again. -/
  | queCrHeadWrite (t : CrTarget) (v : W64)
  /-- LIB_MB_TAIL_WRITE (R409): A write to LIB_MB_TAIL posts mailbox slots to the Librarian, or is ignored and counted in MB_IGNORED when it would overrun DONE by more than 256. -/
  | libMbTailWrite (v : W64)
  /-- LIB_INC_HEAD_WRITE (R439): The manager raises LIB_INC_HEAD, consuming incident entries and deasserting ALERT_N once no entry of severity SITE_LOST or above remains between HEAD and TAIL. -/
  | libIncHeadWrite (v : W64)
  /-- SITE_HEARTBEAT (R442): A neighbour's site heartbeat arrives on the INT channel, restarting the SITE_HB timer and holding ERR_HB.CONTACT for that edge. -/
  | siteHeartbeat (site : Nat) (d : Nat)
  /-- CDIE_HEARTBEAT (R441): A C-die heartbeat reaches its site agent, restarting the 1 ms heartbeat timeout and holding ERR_HB.CDIE_OK. -/
  | cdieHeartbeat (site : Nat)
  /-- LIBRARIAN_HEARTBEAT (R412): The Librarian's heartbeat reaches the hardware supervisor and restarts the LIB_HB_MS timeout. -/
  | librarianHeartbeat
  /-- STANDBY_LOSS (R419): The input leaves its standby range, the standby supply stops, and V3P3_STBY, the SMBus registers and every output go to high impedance. -/
  | standbyLoss
  /-- PINNED_WRITES_DONE (R182): A pinned move-engine or PATCH command performs its last write, so it completes, sends its event record and arm, and writes its completion record. -/
  | pinnedWritesDone (q : QRef)
  deriving DecidableEq, Repr

end Sys2Proof
end

