-- ==== Sys2Proof/Decode.lean ====
section
/-!
DEFINITION. From bits to commands. No row of spec/opcode_table.json gives bits, so no word spells a
command of the table.
-/

namespace Sys2Proof

/-- The command that a word spells by the table's bits: no row gives any. -/
def decodeTableWord (_nbits _w : Nat) : Option Instr := none

end Sys2Proof
end

