-- ==== Sys2Proof/Machine/Bits.lean ====
section
/-!
DEFINITION. Bit fields, sign extension, bytes and CRC-32C, as the register and packet tables of the
spec use them (00_scope R8, 06_submission R190), and the tables that State is made of.
-/

namespace Sys2Proof.Machine

/-- The field of `w` bits at bit `lo` of a number. -/
def nbits (n lo w : Nat) : Nat := (n >>> lo) % 2 ^ w

/-- Bit `i` of a number. -/
def nbit (n i : Nat) : Bool := n.testBit i

/-- The number `n` with the field of `w` bits at `lo` replaced by the low `w` bits of `v`. -/
def nput (n lo w v : Nat) : Nat :=
  (n >>> (lo + w)) <<< (lo + w) ||| (v % 2 ^ w) <<< lo ||| n % 2 ^ lo

/-- The field of `w` bits at bit `lo` of a word. -/
def fldOf (x : BitVec n) (lo w : Nat) : Nat := nbits x.toNat lo w

/-- A word with a field replaced. -/
def putFld (x : BitVec n) (lo w v : Nat) : BitVec n := BitVec.ofNat n (nput x.toNat lo w v)

/-- One bit as a number. -/
def b2n (b : Bool) : Nat := if b then 1 else 0

/-- A word with the bits of `mask` taken from `v`. -/
def merge (old v mask : W64) : W64 := (old &&& ~~~mask) ||| (v &&& mask)

/-- Two's complement reading of the low `w` bits. -/
def sext (n w : Nat) : Int := if nbit n (w - 1) then (n % 2 ^ w : Nat) - (2 ^ w : Nat) else (n % 2 ^ w : Nat)

/-- An integer modulo 2^w. -/
def wrap (w : Nat) (z : Int) : Nat := (z % ((2 : Int) ^ w)).toNat

/-- The little-endian bytes of a number (R8). -/
def toBytes : Nat → Nat → Bytes
  | 0, _ => []
  | k + 1, n => BitVec.ofNat 8 n :: toBytes k (n >>> 8)

/-- The number of some little-endian bytes (R8). -/
def ofBytes : Bytes → Nat
  | [] => 0
  | b :: r => b.toNat + 256 * ofBytes r

/-- Little-endian words of 4 bytes. -/
def words4 : Nat → Bytes → List Nat
  | 0, _ => []
  | n + 1, bs => ofBytes (bs.take 4) :: words4 n (bs.drop 4)

/-- Number of one bits among the low `w` bits. -/
def popcount : Nat → Nat → Nat
  | 0, _ => 0
  | w + 1, n => n % 2 + popcount w (n / 2)

/-- The lowest one bit among the low `w` bits. -/
def lowBit (w n : Nat) : Option Nat := (List.range w).find? (fun i => n.testBit i)

/-- The difference of two wrapping 32-bit counts. -/
def wsub (a b : Nat) : Nat := (2 ^ 32 + a - b) % 2 ^ 32

/-- Rounds down to a multiple. -/
def alignDown (n a : Nat) : Nat := n / a * a

/-- Division rounded up. -/
def ceilDiv (a b : Nat) : Nat := (a + b - 1) / b

/-- One step of CRC-32C, bit-reflected (R190: polynomial 0x1EDC_6F41, reflected 0x82F6_3B78). -/
def crcBit (c : Nat) : Nat := if c % 2 = 1 then (c >>> 1) ^^^ 0x82F63B78 else c >>> 1

/-- One byte of CRC-32C. -/
def crcByte (c b : Nat) : Nat :=
  crcBit (crcBit (crcBit (crcBit (crcBit (crcBit (crcBit (crcBit (c ^^^ b))))))))

/-- CRC-32C of a run of bytes, with initial value and final XOR of all ones (R190). -/
def crc32c (bs : Bytes) : Nat := (bs.foldl (fun c b => crcByte c b.toNat) 0xFFFFFFFF) ^^^ 0xFFFFFFFF

/-! ### Tables -/

/-- The entry of a table, or the default. -/
def tget (d : α) : List (Nat × α) → Nat → α
  | [], _ => d
  | (k', v) :: r, k => if k' = k then v else tget d r k

/-- A table without an entry for `k`. -/
def terase : List (Nat × α) → Nat → List (Nat × α)
  | [], _ => []
  | (k', v) :: r, k => if k' = k then terase r k else (k', v) :: terase r k

/-- A table with an entry put in its place. -/
def tinsert : List (Nat × α) → Nat → α → List (Nat × α)
  | [], k, v => [(k, v)]
  | (k', v') :: r, k, v => if k < k' then (k, v) :: (k', v') :: r else (k', v') :: tinsert r k v

/-- A table with the value at `k` replaced; a default value leaves no entry. -/
def tset [DecidableEq α] (d : α) (t : List (Nat × α)) (k : Nat) (v : α) : List (Nat × α) :=
  if v = d then terase t k else tinsert (terase t k) k v

/-- The canonical form of a table: keys strictly rising, no entry equal to the default. -/
def twf [DecidableEq α] (d : α) : List (Nat × α) → Bool
  | [] => true
  | [(_, v)] => decide (v ≠ d)
  | (k, v) :: (k', v') :: r => decide (v ≠ d) && decide (k < k') && twf d ((k', v') :: r)

/-- A list with its `i`-th entry changed by `f`. -/
def lmodify (l : List α) (i : Nat) (f : α → α) : List α :=
  match l, i with
  | [], _ => []
  | x :: r, 0 => f x :: r
  | x :: r, i + 1 => x :: lmodify r i f

/-- A list without the first entry that satisfies `p`. -/
def eraseFirst (p : α → Bool) : List α → List α
  | [] => []
  | x :: r => if p x then r else x :: eraseFirst p r

end Sys2Proof.Machine
end

