-- ==== Sys2Proof/Machine/Numeric.lean ====
section
/-!
DEFINITION. The number formats of 02_narrow_formats: exact values, one rounding function, FP32, BF16
and FP16 arithmetic, the element formats, block scales, inclusions and block conversion.
-/

namespace Sys2Proof.Machine

/-! ### Exact values -/

/-- A magnitude, n / d × 2^e, with d positive. -/
structure Mag where
  n : Nat
  d : Nat := 1
  e : Int := 0
  deriving DecidableEq, Repr, Inhabited

/-- An operand or an exact result: a NaN, an infinity or a finite value with its sign. -/
inductive Num where
  | nan
  | inf (neg : Bool)
  | fin (neg : Bool) (m : Mag)
  deriving DecidableEq, Repr, Inhabited

/-- m / 2^q as a fraction. -/
def Mag.over (m : Mag) (q : Int) : Nat × Nat :=
  if m.e ≥ q then (m.n * 2 ^ (m.e - q).toNat, m.d) else (m.n, m.d * 2 ^ (q - m.e).toNat)

/-- The greatest k with 2^k ≤ m, for m positive. -/
def Mag.log2 (m : Mag) : Int :=
  let l : Int := (Nat.log2 m.n : Int) - (Nat.log2 m.d : Int)
  let f := Mag.over { m with e := 0 } l
  (if f.1 ≥ f.2 then l else l - 1) + m.e

/-- The common numerators of two magnitudes over one denominator and one power of two. -/
def Mag.align (a b : Mag) : Nat × Nat × Nat × Int :=
  let e := min a.e b.e
  (a.n * 2 ^ (a.e - e).toNat * b.d, b.n * 2 ^ (b.e - e).toNat * a.d, a.d * b.d, e)

/-- a < b. -/
def Mag.lt (a b : Mag) : Bool := let x := Mag.align a b; decide (x.1 < x.2.1)

def Mag.mul (a b : Mag) : Mag := { n := a.n * b.n, d := a.d * b.d, e := a.e + b.e }

/-- a / b, for b positive. -/
def Mag.div (a b : Mag) : Mag := { n := a.n * b.d, d := a.d * b.n, e := a.e - b.e }

def Num.zero : Num := .fin false { n := 0 }
def Num.ofInt (z : Int) : Num := .fin (decide (z < 0)) { n := z.natAbs }

def Num.isNan : Num → Bool
  | .nan => true
  | _ => false

def Num.isZero : Num → Bool
  | .fin _ m => decide (m.n = 0)
  | _ => false

/-- Exact negation. -/
def Num.neg : Num → Num
  | .nan => .nan
  | .inf s => .inf !s
  | .fin s m => .fin (!s) m

/-- Exact sum; a sum of zero is -0 only when both terms are -0 (RNE, R58). -/
def Num.add : Num → Num → Num
  | .nan, _ => .nan
  | _, .nan => .nan
  | .inf a, .inf b => if a = b then .inf a else .nan
  | .inf a, _ => .inf a
  | _, .inf b => .inf b
  | .fin a x, .fin b y =>
    let r := Mag.align x y
    let p : Int := if a then -(r.1 : Int) else r.1
    let q : Int := if b then -(r.2.1 : Int) else r.2.1
    let t := p + q
    if t = 0 then .fin (a && b) { n := 0 } else .fin (decide (t < 0)) { n := t.natAbs, d := r.2.2.1, e := r.2.2.2 }

/-- Exact product; inf × 0 is a NaN (R56). -/
def Num.mul : Num → Num → Num
  | .nan, _ => .nan
  | _, .nan => .nan
  | .inf a, .inf b => .inf (a != b)
  | .inf a, .fin b y => if y.n = 0 then .nan else .inf (a != b)
  | .fin a x, .inf b => if x.n = 0 then .nan else .inf (a != b)
  | .fin a x, .fin b y => .fin (a != b) (Mag.mul x y)

/-- Numerical order of two values that are not NaN; -0 and +0 are equal. -/
def Num.lt : Num → Num → Bool
  | .nan, _ => false
  | _, .nan => false
  | .inf a, .inf b => a && !b
  | .inf a, _ => a
  | _, .inf b => !b
  | .fin a x, .fin b y =>
    if x.n = 0 ∧ y.n = 0 then false
    else if a && !b then true
    else if b && !a then false
    else if a then Mag.lt y x else Mag.lt x y

/-- Sum of a list of exact values. An exact sum of zero is +0, also where every term is −0 (DESIGN CHOICE, log entry 95). -/
def Num.sum (l : List Num) : Num := l.foldl Num.add Num.zero

/-! ### Rounding (R46, R47) -/

/-- A rounding mode; `sr` carries the 16-bit draw, `up` rounds magnitudes up (round_up_s8). -/
inductive RMode where
  | rne | rtz | up
  | sr (d : Nat)
  deriving DecidableEq, Repr

/-- The fraction a / b, b positive, rounded to an integer. -/
def roundFrac (mode : RMode) (a b : Nat) : Nat :=
  let k := a / b
  let r := a % b
  match mode with
  | .rtz => k
  | .up => if r = 0 then k else k + 1
  | .rne => if 2 * r > b ∨ (2 * r = b ∧ k % 2 = 1) then k + 1 else k
  | .sr d => if r = 0 then k else if d < r * 65536 / b then k + 1 else k

/-- A positive magnitude rounded to `mb` bits beside the leading one, with the last place not below
2^emin: the integer significand and the exponent of its last place. -/
def roundMag (mode : RMode) (mb : Nat) (emin : Int) (m : Mag) : Nat × Int :=
  let q := max emin (m.log2 - mb)
  let f := m.over q
  (roundFrac mode f.1 f.2, q)

/-- Significand bits and bias of a format (R34). -/
structure FFmt where
  mb : Nat
  eb : Nat
  bias : Nat
  deriving DecidableEq, Repr

/-- The exponent of the last place of a format's smallest numbers. -/
def FFmt.emin (f : FFmt) : Int := 1 - (f.bias : Int) - f.mb

/-- The magnitude code of a rounded magnitude, as if exponent fields went on for ever (R34). -/
def FFmt.code (f : FFmt) (mode : RMode) (m : Mag) : Nat :=
  if m.n = 0 then 0
  else
    let r := roundMag mode f.mb f.emin m
    if r.1 = 0 then 0 else (r.2 - f.emin).toNat * 2 ^ f.mb + r.1

/-- The magnitude of a magnitude code without special codes (R34). -/
def FFmt.mag (f : FFmt) (c : Nat) : Mag :=
  let e := c / 2 ^ f.mb
  let m := c % 2 ^ f.mb
  if e = 0 then { n := m, e := f.emin } else { n := 2 ^ f.mb + m, e := f.emin + (e - 1) }

def fF32 : FFmt := { mb := 23, eb := 8, bias := 127 }
def fB16 : FFmt := { mb := 7, eb := 8, bias := 127 }
def fF16 : FFmt := { mb := 10, eb := 5, bias := 15 }
def fE4M3 : FFmt := { mb := 3, eb := 4, bias := 7 }
def fE5M2 : FFmt := { mb := 2, eb := 5, bias := 15 }
def fE3M2 : FFmt := { mb := 2, eb := 3, bias := 3 }
def fE2M3 : FFmt := { mb := 3, eb := 2, bias := 1 }
def fE2M1 : FFmt := { mb := 1, eb := 2, bias := 1 }
def fS8 : FFmt := { mb := 3, eb := 5, bias := 15 }

/-! ### FP32, BF16, FP16 (R58) -/

/-- The value of an IEEE code of format `f` with its subnormals. -/
def ieeeVal (f : FFmt) (c : Nat) : Num :=
  let neg := nbit c (f.mb + f.eb)
  let m := nbits c 0 (f.mb + f.eb)
  let top := (2 ^ f.eb - 1) * 2 ^ f.mb
  if m > top then .nan else if m = top then .inf neg else .fin neg (f.mag m)

/-- The value of an IEEE code whose subnormals read as zero with their sign (R58). -/
def flushVal (f : FFmt) (c : Nat) : Num :=
  if nbits c f.mb f.eb = 0 then .fin (nbit c (f.mb + f.eb)) { n := 0 } else ieeeVal f c

/-- An FP32 value. -/
def f32 (c : W32) : Num := ieeeVal fF32 c.toNat
/-- A BF16 value: subnormal operands read as zero (R58). -/
def bf16 (c : Nat) : Num := flushVal fB16 c
/-- An FP16 value: R149 gives it the departures of BF16, so subnormal operands read as zero. DEDUCED (log entry 6). -/
def f16 (c : Nat) : Num := flushVal fF16 c

/-- The FP32 code of an exact value; NaN results are 0x7FC0_0000 (R58). -/
def toF32 (mode : RMode) : Num → W32
  | .nan => 0x7FC00000#32
  | .inf s => BitVec.ofNat 32 (b2n s * 2 ^ 31 + 0x7F800000)
  | .fin s m =>
    let c := fF32.code mode m
    let c := if c ≥ 0x7F800000 then (if mode = .rtz then 0x7F7FFFFF else 0x7F800000) else c
    BitVec.ofNat 32 (b2n s * 2 ^ 31 + c)

/-- A 16-bit result judged after rounding with an unbounded exponent: the code, and whether it was
flushed (R58). -/
def toHalf (f : FFmt) (nanCode : Nat) (mode : RMode) (x : Num) : Nat × Bool :=
  let top := (2 ^ f.eb - 1) * 2 ^ f.mb
  match x with
  | .nan => (nanCode, false)
  | .inf s => (b2n s * 2 ^ 15 + top, false)
  | .fin s m =>
    if m.n = 0 then (b2n s * 2 ^ 15, false)
    else
      let r := roundMag mode f.mb (m.log2 - f.mb) m
      if { n := r.1, e := r.2 : Mag }.lt { n := 1, e := 1 - (f.bias : Int) } then (b2n s * 2 ^ 15, true)
      else
        let c := f.code mode m
        let c := if c ≥ top then (if mode = .rtz then top - 1 else top) else c
        (b2n s * 2 ^ 15 + c, false)

/-- Conversion into BF16 (R58). -/
def toBf16 (mode : RMode) (x : Num) : Nat × Bool := toHalf fB16 0x7FC0 mode x
/-- Conversion into an FP16 half (R58, R149). -/
def toF16 (mode : RMode) (x : Num) : Nat × Bool := toHalf fF16 0x7E00 mode x

def f32add (a b : W32) : W32 := toF32 .rne ((f32 a).add (f32 b))
def f32mul (a b : W32) : W32 := toF32 .rne ((f32 a).mul (f32 b))
def f32fma (a b c : W32) : W32 := toF32 .rne (((f32 a).mul (f32 b)).add (f32 c))
/-- A positive normal FP32 value (R38). -/
def f32posNormal (t : W32) : Bool := decide (0x00800000 ≤ t.toNat) && decide (t.toNat < 0x7F800000)

/-! ### Stochastic rounding (R48) -/

/-- One advance of a generator and its 16 bits. -/
def drawSr (x : W64) : W64 × Nat :=
  let x := x ^^^ (x <<< 13)
  let x := x ^^^ (x >>> 7)
  let x := x ^^^ (x <<< 17)
  (x, nbits x.toNat 48 16)

/-- `k` draws, first first. -/
def drawsSr : Nat → W64 → W64 × List Nat
  | 0, x => (x, [])
  | k + 1, x => let a := drawSr x; let b := drawsSr k a.1; (b.1, a.2 :: b.2)

/-- The seed of engine `e` of slot `k` of site `s`. -/
def seedSr (seed : W64) (s k e : Nat) : W64 :=
  let x := seed ^^^ (BitVec.ofNat 64 ((s <<< 8) ||| (k <<< 4) ||| e) * 0x9E3779B97F4A7C15#64)
  if x = 0#64 then 1#64 else x

/-- A rounding mode code (R46) with its draw; none where the code is reserved. -/
def rmodeOf (code draw : Nat) : Option RMode :=
  match code with
  | 0 => some .rne
  | 1 => some .rtz
  | 2 => some (.sr draw)
  | _ => none

/-! ### Element formats (R31-R36) -/

/-- Bits per element of a format code. -/
def fmtBits (fmt : Nat) : Nat :=
  match fmt with
  | 0 => 16 | 1 => 8 | 2 => 8 | 3 => 6 | 4 => 6 | 5 => 4 | 6 => 4 | 7 => 2 | 8 => 2 | 9 => 32
  | _ => 0

/-- A block-scaled format code (R31). -/
def fmtBlock (fmt : Nat) : Bool := decide (1 ≤ fmt) && decide (fmt ≤ 8)

/-- Vmax as a magnitude code of the format's grid (R31). -/
def vmaxCode (fmt : Nat) : Nat :=
  match fmt with
  | 1 => 0x7E | 2 => 0x7B | 3 => 0x1F | 4 => 0x1F | 5 => 0x7 | 6 => 7 | _ => 1

/-- Fields of a floating element format. -/
def elemF (fmt : Nat) : Option FFmt :=
  match fmt with
  | 1 => some fE4M3 | 2 => some fE5M2 | 3 => some fE3M2 | 4 => some fE2M3 | 5 => some fE2M1
  | _ => none

/-- Vmax (R31). -/
def vmaxOf (fmt : Nat) : Mag :=
  match elemF fmt with
  | some f => f.mag (vmaxCode fmt)
  | none => { n := vmaxCode fmt }

/-- The value of an element code; a negative zero reads as zero (R35). A T2 code 0b10, which makes its
block invalid (R33), reads as a NaN here. -/
def elemVal (fmt c : Nat) : Num :=
  match fmt with
  | 0 => bf16 c
  | 1 => if c % 128 = 127 then .nan else
      let m := fE4M3.mag (c % 128); if m.n = 0 then Num.zero else .fin (nbit c 7) m
  | 2 => match ieeeVal fE5M2 c with
      | .fin s m => if m.n = 0 then Num.zero else .fin s m
      | x => x
  | 3 => let m := fE3M2.mag (c % 32); if m.n = 0 then Num.zero else .fin (nbit c 5) m
  | 4 => let m := fE2M3.mag (c % 32); if m.n = 0 then Num.zero else .fin (nbit c 5) m
  | 5 => let m := fE2M1.mag (c % 8); if m.n = 0 then Num.zero else .fin (nbit c 3) m
  | 6 => Num.ofInt (sext c 4)
  | 7 => Num.ofInt (sext c 2)
  | 8 => if c % 4 = 2 then .nan else Num.ofInt (sext c 2)
  | _ => f32 (BitVec.ofNat 32 c)

/-- The value of an S8 code other than 0xFF (R36). -/
def s8Val (c : Nat) : Num := .fin false (fS8.mag c)

/-- The smallest S8 code whose value is at least v (R50). -/
def roundUpS8 : Num → Nat
  | .fin _ m => min 0xFE (fS8.code .up m)
  | _ => 0xFE

/-- The code of sign and magnitude code in a format of `fmtBits` bits, or two's complement. -/
def elemCode (fmt : Nat) (neg : Bool) (c : Nat) : Nat :=
  if c = 0 then 0
  else match elemF fmt with
    | some f => b2n neg * 2 ^ (f.mb + f.eb) + c
    | none => if neg then 2 ^ fmtBits fmt - c else c

/-- round_fmt of R50: an element code, clamped to Vmax (R53). NaN never reaches it. -/
def roundElem (fmt : Nat) (mode : RMode) : Num → Nat
  | .nan => 0
  | .inf s => elemCode fmt s (vmaxCode fmt)
  | .fin s m =>
    let c := match elemF fmt with
      | some f => f.code mode m
      | none => if m.n = 0 then 0 else let f := m.over 0; roundFrac mode f.1 f.2
    elemCode fmt s (min c (vmaxCode fmt))

/-! ### Inclusions and blocks (R39, R40, R55) -/

/-- The correction of element `i` by an inclusion word (R39, R40). -/
def inclOf (word i : Nat) : Num :=
  let c := nbits word 0 2
  let a := if c ≥ 1 ∧ nbits word 2 5 = i then elemVal 1 (nbits word 7 8) else Num.zero
  let b := if c ≥ 2 ∧ nbits word 15 5 = i then elemVal 1 (nbits word 20 8) else Num.zero
  a.add b

/-- A block read as an operand: its element values with inclusions, before S and T, its scale, and
whether it is invalid. -/
structure OpBlk where
  vals : List Num
  s : Num
  invalid : Bool
  deriving DecidableEq, Repr, Inhabited

/-- A block from its element codes (fewer than 32 where padding is left out), S8 code, inclusion word
and the validity of its tile scale (R38-R40, R55). -/
def readBlock (fmt : Nat) (codes : List Nat) (sc incl : Nat) (tOk : Bool) : OpBlk :=
  let inv := sc = 0xFF || !tOk || (fmt = 8 && codes.any fun c => c % 4 = 2)
  let vals := codes.mapIdx fun i c =>
    if inv then .nan else if sc = 0 then Num.zero else (elemVal fmt c).add (inclOf incl i)
  { vals := vals, s := if inv then Num.ofInt 1 else s8Val sc, invalid := inv }

/-- The contribution of a pair of blocks to an accumulator (R59). -/
def pairContrib (a b : OpBlk) (tab : W32) : W32 :=
  let prod := Num.sum (a.vals.zipWith Num.mul b.vals)
  toF32 .rne (((prod.mul a.s).mul b.s).mul (f32 tab))

/-- Element `i` of the bytes of a block, little-endian (R44). -/
def elemAt (fmt blkBits i : Nat) : Nat := nbits blkBits (i * fmtBits fmt) (fmtBits fmt)

/-- The bytes of a block of element codes as one little-endian value (R44). -/
def packElems (fmt : Nat) (codes : List Nat) : Nat :=
  (codes.mapIdx fun i c => c <<< (i * fmtBits fmt)).foldl (· ||| ·) 0

/-! ### Block conversion (R50-R54) -/

/-- What a conversion writes and counts (R50, R57). -/
structure QRes where
  codes : List Nat
  sc : Nat
  incl : Nat
  sat : Nat := 0
  flushed : Nat := 0
  inclOvf : Nat := 0
  invalid : Nat := 0
  deriving DecidableEq, Repr, Inhabited

/-- An invalid block (R55). -/
def invalidBlock : QRes := { codes := List.replicate 32 0, sc := 0xFF, incl := 0, invalid := 1 }

/-- |x|, NaN and infinity kept. -/
def Num.abs : Num → Num
  | .nan => .nan
  | .inf _ => .inf false
  | .fin _ m => .fin false m

/-- x / s for a positive finite s. -/
def Num.quot (x : Num) (s : Mag) : Num :=
  match x with
  | .fin n m => .fin n (Mag.div m s)
  | y => y

/-- Inserts an index into a list ordered by |y| descending, after those that are not smaller. -/
def insertByMag (y : List Num) (i : Nat) : List Nat → List Nat
  | [] => [i]
  | j :: r =>
    if Num.lt (y.getD j .nan).abs (y.getD i .nan).abs then i :: j :: r else j :: insertByMag y i r

/-- The order of R50: |y| descending, ties by lower index. -/
def magOrder (y : List Num) : List Nat :=
  (List.range y.length).foldl (fun acc i => insertByMag y i acc) []

/-- The elements of a block in the order of R50, with the pairs appended so far. -/
def quantLoop (fmt : Nat) (y : List Num) (s : Mag) (mode : Nat → RMode) (inclOn : Bool) :
    List Nat → List (Nat × Nat) → QRes → QRes × List (Nat × Nat)
  | [], pairs, r => (r, pairs)
  | i :: rest, pairs, r =>
    let yi := y.getD i .nan
    if s.n = 0 then
      quantLoop fmt y s mode inclOn rest pairs { r with flushed := r.flushed + b2n (!yi.isZero) }
    else
      let q := yi.quot s
      let e := roundElem fmt (mode i) q
      let codes := r.codes.set i e
      if Num.lt (.fin false (vmaxOf fmt)) q.abs then
        if inclOn && decide (pairs.length < 2) then
          let d := q.add (elemVal fmt e).neg
          let past := match d with
            | .fin _ m => decide (fE4M3.code .rne m > 0x7E)
            | _ => true
          quantLoop fmt y s mode inclOn rest (pairs ++ [(i, roundElem 1 .rne d)])
            { r with codes := codes, sat := r.sat + b2n past }
        else
          quantLoop fmt y s mode inclOn rest pairs
            { r with codes := codes, sat := r.sat + 1, inclOvf := if inclOn then 1 else r.inclOvf }
      else
        quantLoop fmt y s mode inclOn rest pairs
          { r with codes := codes, flushed := r.flushed + b2n (e = 0 && !yi.isZero) }

/-- The inclusion word of a list of pairs (R51). -/
def inclWord (pairs : List (Nat × Nat)) (ovf : Bool) : Nat :=
  let c := if ovf then 3 else pairs.length
  let p0 := pairs.getD 0 (0, 0)
  let p1 := pairs.getD 1 (0, 0)
  c ||| (p0.1 <<< 2) ||| (p0.2 <<< 7) ||| (p1.1 <<< 15) ||| (p1.2 <<< 20)

/-- quantise_block of R50. `mode i` is the rounding mode with the draw of element `i`; `fixed` is the
S8 code of a FIXED scale. -/
def quantiseBlock (x : List W32) (t : W32) (fmt : Nat) (mode : Nat → RMode) (fixed : Option Nat)
    (inclOn : Bool) : QRes :=
  match f32 t with
  | .fin _ tm =>
    if !f32posNormal t then invalidBlock
    else
      let rt := toF32 .rne (.fin false (Mag.div { n := 1 } tm))
      let y := x.map fun v => f32 (f32mul v rt)
      if y.any Num.isNan || fixed = some 0xFF then invalidBlock
      else
        let order := magOrder y
        let at_ (k : Nat) : Num := (y.getD (order.getD k 0) Num.zero).abs
        let vm := vmaxOf fmt
        let sc := match fixed with
          | some c => c
          | none =>
            if inclOn then
              let wide := match (Num.fin false vm).add (Num.ofInt 448) with
                | .fin _ m => m
                | _ => vm
              max (roundUpS8 ((at_ 2).quot vm)) (roundUpS8 ((at_ 0).quot wide))
            else roundUpS8 ((at_ 0).quot vm)
        let r := quantLoop fmt y (fS8.mag sc) mode inclOn order [] { codes := List.replicate 32 0, sc := sc, incl := 0 }
        { r.1 with incl := inclWord r.2 (r.1.inclOvf = 1) }
  | _ => invalidBlock

/-- Conversion of one value into a block-scaled element format (R52): s = 1, t = 1. -/
def quantiseOne (x : W32) (fmt : Nat) (mode : RMode) : QRes :=
  match f32 x with
  | .nan =>
    if fmt = 1 ∨ fmt = 2 then { codes := [0x7F], sc := 0x78, incl := 0 }
    else { codes := [0], sc := 0x78, incl := 0, invalid := 1 }
  | q =>
    let e := roundElem fmt mode q
    { codes := [e], sc := 0x78, incl := 0,
      sat := b2n (Num.lt (.fin false (vmaxOf fmt)) q.abs),
      flushed := b2n (e = 0 && !q.isZero) }

end Sys2Proof.Machine
end

