-- ==== Sys2Proof/Machine/Elementary.lean ====
section
/-!
DEFINITION. RECIP, RROOT, POW2 and LOG2 (05_folio_instructions R131): the results within 1 unit in the
last place, among which a free value chooses, and the fixed special cases.
-/

namespace Sys2Proof.Machine

/-- Bits of an integer square root, from bit `k` down. -/
def isqrtFrom : Nat → Nat → Nat → Nat
  | 0, _, r => r
  | k + 1, n, r => let t := r + 2 ^ k; if t * t ≤ n then isqrtFrom k n t else isqrtFrom k n r

/-- The integer square root. -/
def isqrt (n : Nat) : Nat := isqrtFrom (Nat.log2 n / 2 + 1) n 0

/-- The FP32 codes that a result may take: `lo` is the code of the exact magnitude rounded down and
`exact` says that nothing was cut off (R131). -/
def ulpSet (lo : Nat) (exact : Bool) : List Nat :=
  let up := if lo < 0x7F7FFFFF then [lo + 1] else []
  let down := if exact && decide (lo > 0) then [lo - 1] else []
  lo :: (up ++ down)

/-- One of the allowed codes with its sign, chosen by a free number. -/
def ulpPick (pick : Nat) (neg : Bool) (lo : Nat) (exact : Bool) : W32 :=
  let l := ulpSet lo exact
  BitVec.ofNat 32 (b2n neg * 2 ^ 31 + l.getD (pick % l.length) lo)

/-- The allowed results for an exact magnitude; one beyond the largest finite value is infinite. -/
def magPick (pick : Nat) (neg : Bool) (m : Mag) (exact : Bool) : W32 :=
  let lo := fF32.code .rtz m
  if lo ≥ 0x7F800000 then BitVec.ofNat 32 (b2n neg * 2 ^ 31 + 0x7F800000)
  else
    let same := match f32 (BitVec.ofNat 32 lo) with
      | .fin _ v => !(v.lt m) && !(m.lt v)
      | _ => false
    ulpPick pick neg lo (exact && same)

def nan32 : W32 := 0x7FC00000#32
def inf32 (neg : Bool) : W32 := if neg then 0xFF800000#32 else 0x7F800000#32
def zero32 (neg : Bool) : W32 := if neg then 0x80000000#32 else 0#32

/-- RECIP (R131). -/
def recip32 (pick : Nat) (a : W32) : W32 :=
  match f32 a with
  | .nan => nan32
  | .inf s => zero32 s
  | .fin s m => if m.n = 0 then inf32 s else magPick pick s (Mag.div { n := 1 } m) true

/-- RROOT (R131). -/
def rroot32 (pick : Nat) (a : W32) : W32 :=
  match f32 a with
  | .nan => nan32
  | .inf s => if s then nan32 else zero32 false
  | .fin s m =>
    if m.n = 0 then inf32 s
    else if s then nan32
    else
      -- the square root of d / n × 2^(-e), with 200 places behind the point
      let f := Mag.over { n := m.d, d := m.n, e := -m.e } (-400)
      let q := f.1 / f.2
      let r := isqrt q
      magPick pick false { n := r, e := -200 } (decide (r * r = q) && decide (f.1 % f.2 = 0))

/-- The product of the roots 2^(2^-i) over the set bits of a fraction; 128 places. -/
def pow2Loop : Nat → Nat → Nat → Nat → Nat
  | 0, _, _, r => r
  | k + 1, c, fr, r =>
    let c' := isqrt (c * 2 ^ 128)
    pow2Loop k c' (fr * 2 % 2 ^ 80) (if fr * 2 ≥ 2 ^ 80 then r * c' / 2 ^ 128 else r)

/-- POW2 (R131). -/
def pow232 (pick : Nat) (a : W32) : W32 :=
  match f32 a with
  | .nan => nan32
  | .inf s => if s then zero32 false else inf32 false
  | .fin s m =>
    let big : Bool := !(m.lt { n := 256 })
    if big then (if s then ulpPick pick false 0 false else inf32 false)
    else
      let f := m.over (-200)
      let x : Int := if s then -(f.1 : Int) else f.1
      let ip := x / (2 ^ 200 : Nat)
      let fr := (x % (2 ^ 200 : Nat)).toNat
      let r := pow2Loop 80 (2 * 2 ^ 128) (fr / 2 ^ 120) (2 ^ 128)
      magPick pick false { n := r, e := ip - 128 } (decide (fr = 0))

/-- The binary digits of log2 of a number from 1 to 2; 240 places. -/
def log2Loop : Nat → Nat → Nat → Nat
  | 0, _, r => r
  | k + 1, y, r =>
    let y' := y * y / 2 ^ 240
    if y' ≥ 2 * 2 ^ 240 then log2Loop k (y' / 2) (2 * r + 1) else log2Loop k y' (2 * r)

/-- LOG2 (R131). -/
def log232 (pick : Nat) (a : W32) : W32 :=
  match f32 a with
  | .nan => nan32
  | .inf s => if s then nan32 else inf32 false
  | .fin s m =>
    if m.n = 0 then inf32 true
    else if s then nan32
    else
      let e := m.log2
      let f := m.over (e - 240)
      let y := f.1 / f.2
      let fr := log2Loop 100 y 0
      let exact : Bool := decide (y = 2 ^ 240)
      let t : Int := e * (2 ^ 100 : Nat) + fr
      if t = 0 ∧ exact then ulpPick pick false 0 true
      else if t ≥ 0 then magPick pick false { n := t.natAbs, e := -100 } exact
      -- the digits are cut downwards, so a negative result lies nearer zero by less than one digit
      else magPick pick true { n := if exact then t.natAbs else t.natAbs - 1, e := -100 } exact

end Sys2Proof.Machine
end

