-- ==== Sys2Proof/Config.lean ====
section
/-!
DEFINITION. What an implementation or a part fixes: the counts of the panel, the fused values, the
cryptographic functions that the spec takes from other standards, and the free values, which are
opaque so that no proof can see one.
-/

namespace Sys2Proof.Config

/-- Sites of the panel (R14). -/
def sites : Nat := 72
/-- Logical cores (R18). -/
def cores : Nat := 256
/-- Ring dies (R17). -/
def ringDies : Nat := 24
/-- Ring ports (R335). -/
def ports : Nat := 48
/-- Partitions (R376). -/
def partitions : Nat := 16

/-- FUS_PART_ID (R2): VARIANT 64S, REV A0, 40 kW, divider 8. DESIGN CHOICE (log entry 2). -/
def fusPartId : W64 := 0x00000008_0028_A0_01#64
/-- FUS_RISER_COL (R16): column 4 in each row. DESIGN CHOICE (log entry 2). -/
def fusRiserCol : W64 := 0x44444444#64
/-- FUS_SEC (R396): port 0 may manage, 16 partitions, DEBUG_LOCK 1 (R468), cluster 0. DESIGN CHOICE
(log entry 2). -/
def fusSec : W64 := 0x0030_0000_0000_0001#64

/-- A fresh free value: nothing constrains it. Applied to the state's counter `free`. -/
opaque freeWord : Nat → W64
/-- A fresh free choice between the outcomes that a rule allows. -/
opaque freeBool : Nat → Bool
/-- A fresh free number (an activity energy m of R428, for instance). -/
opaque freeNat : Nat → Nat
/-- The free choice among the results that R131 allows: it depends on the operation (its opcode) and on the operand
alone, so that a command gives the same bits on the same inputs (R60). -/
opaque elementary : Nat → W32 → Nat
/-- What a tile-scale entry of C holds where R76 calls the derived scale invalid: a value that the spec does not
give, by TSV, the format and the margin (R60). -/
opaque invalidTileScale : W32 → Nat → Int → W32
/-- The set of a line in its home's directory (R260): a hash the spec does not give. -/
opaque dirHash : Nat → Nat
/-- The set of a line in a Carrel (R229): a hash the spec does not give. -/
opaque carrelHash : Nat → Nat
/-- The units of 16 bytes that the header of a coherence message takes, less one, and its bytes: a layout the spec does not
give (R263, R314). The argument lists what the header names. -/
opaque headerUnits : Nat → Nat
opaque headerByte : List Nat → Nat → BitVec 8
/-- The units that a message takes, less one, by the role and channel of its flits and its first 16 bytes. -/
opaque messageUnits : Nat → Nat → Nat → Nat
/-- Room of a router's buffer, in units beyond one largest message, by role and channel (R317); the credits that a
lane group's sender starts with, by channel (R313). The spec gives no sizes. -/
opaque routerUnits : Nat → Nat → Nat
opaque meshCredits : Nat → Nat
/-- Where the PRBS-31 generator of a lane starts (R313, R339): by link and lane. -/
opaque prbsSeed : Nat → Nat → Nat
/-- The payload of a LANEMAP flit for a lane and a spare (R313): its layout is not given. -/
opaque lanemapPayload : Nat → Nat → BitVec 1920
/-- What a LINK flit says of credits that are unlimited (R342): the spec gives no coding. -/
opaque unlimitedCredits : Nat
/-- The offset of a site's cycle counter (R424), fixed from start. -/
opaque counterOffset : Nat → W64
/-- SHA-384 (R397, R401), as a byte function. -/
opaque sha384 : Bytes → Bytes
/-- Ed25519 verification of RFC 8032 (R401 step 4): key, message, signature. -/
opaque ed25519Verify : Bytes → Bytes → Bytes → Bool
/-- ML-DSA-65 verification of FIPS 204 (R401 step 5): key, message, signature. -/
opaque mldsaVerify : Bytes → Bytes → Bytes → Bool
/-- The identity Ed25519 public key (R397). -/
opaque identityEdKey : Bytes
/-- The identity ML-DSA-65 public key (R397). -/
opaque identityMlKey : Bytes
/-- The identity Ed25519 signature of a digest (R414). -/
opaque identityEdSign : Bytes → Bytes
/-- The identity ML-DSA-65 signature of a digest (R414). -/
opaque identityMlSign : Bytes → Bytes

end Sys2Proof.Config
end

