-- ==== Sys2Proof/Machine/State.lean ====
section
/-!
DEFINITION. The state of the panel as plain data. `regs` holds every register of the spec's register
tables under its canonical address (Machine/Regs.lean); the other fields hold what the spec gives the
panel beside its registers. A table is a list of number and value pairs, rising, without an entry
equal to what an unlisted number reads as.
-/

namespace Sys2Proof.Machine

/-- Why a command stops without a next state. Raised by `carryOut` of Machine/Ops.lean: safe. -/
inductive Fault where
  /-- The command is no command of the panel: it names a unit the panel does not have (a core above
  255, a site above 71, and so on), or it is a Folio row with the word of another opcode. Safe. -/
  | noSuchCommand
  deriving DecidableEq, Repr

/-- Why a command is refused. -/
inductive Refusal where
  /-- A row of the table that has no meaning yet; raised by exec's arms alone. Safe. -/
  | notModelled (mnemonic : String)
  deriving DecidableEq, Repr

/-- Where a command of a queue stands between acceptance and its record (R170, R181, R209). -/
inductive Phase where
  | queued | started | checked | waiting | running | committed
  deriving DecidableEq, Repr, Inhabited

/-- A descriptor accepted by a queue (R172, R175). `eff` is the descriptor with its indirect fields
replaced by the values read (R180), `held` the energy it holds in the Ledger (R430), `silent` says
that it writes no record, its context having been killed (R198), `detections` counts its runs killed by a detection, and `handed`
says that it runs next on the partner engine (R81). -/
structure Cmd where
  raw : Desc
  eff : Desc := 0
  submit : Nat := 0
  index : Nat := 0
  pour : Bool := false
  poisoned : Bool := false
  phase : Phase := .queued
  atHead : Bool := false
  gates : Bool := false
  armTaken : Bool := false
  reruns : Nat := 0
  fences : List Nat := []
  abortSeen : Bool := false
  recPa : Nat := 0
  run : Nat := 0
  held : Option Nat := none
  silent : Bool := false
  deferred : Bool := false
  detections : Nat := 0
  handed : Bool := false
  deriving DecidableEq, Repr, Inhabited

/-- A submission entry that has been fetched and whose descriptors are still being read (R173). -/
structure Ent where
  submit : Nat
  buf : Nat
  count : Nat
  next : Nat
  deriving DecidableEq, Repr, Inhabited

/-- A pour in progress (R191): the pattern's address, the captured generation, header CRC and table,
and how far it has been read. -/
structure Pour where
  pat : Nat
  expect : Nat
  gen : Nat := 0
  hcrc : Nat := 0
  count : Nat := 0
  table : List Nat := []
  nextBlock : Nat := 0
  locked : Bool := false
  live : Bool := false
  deriving DecidableEq, Repr, Inhabited

/-- A completion record on its way into a host window (R197, R346): its virtual address, its bytes,
whether a notification follows it, and whether its first dword has been sent. -/
structure HostRec where
  va : Nat
  bits : BitVec 256
  note : Bool
  last : Bool := false
  deriving DecidableEq, Repr, Inhabited

/-- What the completion ring of a queue or of a service ring holds beside its registers (R197-R199):
the records on their way to a host, the records held in BLOCKED with the address that could not be
written, and the notification holdoff; `die` is the ring die whose clerk wrote the last record. -/
structure RecX where
  out : List HostRec := []
  held : List (BitVec 256 × Bool) := []
  failAddr : Nat := 0
  holdoff : Bool := false
  notifyDue : Bool := false
  die : Nat := 0
  deriving DecidableEq, Repr, Inhabited

/-- What a queue holds beside its registers. `sop` is the single-op window, `pend` the pending aborts and
`allBelow` the entry count below which every descriptor is aborted (QUE_ABORT), `aborts` the aborts on
their way to the engine (R220), `haltSubmit` the entry whose descriptor halted the queue, and `room` the
room that a SPAWN of the queue holds in its targets (R189), `before` the state and cause of a HALTED or BLOCKED queue
that stands SUSPENDED, which it takes again (R26), and `heldDb` the doorbells held since it is SUSPENDED (R29). -/
structure QueX where
  cmds : List Cmd := []
  ents : List Ent := []
  sop : Desc := 0
  pend : List (Nat × Nat) := []
  aborts : List (Nat × Nat) := []
  allBelow : Option Nat := none
  ring : RecX := {}
  pour : Option Pour := none
  haltSubmit : Nat := 0
  room : List (QRef × Nat) := []
  before : Option (Nat × Nat) := none
  heldDb : Nat := 0
  deriving DecidableEq, Repr, Inhabited

/-- Where a run stands (R203, R210). -/
inductive RunPhase where
  | reserving | running | workDone | committed | discarding
  deriving DecidableEq, Repr, Inhabited

/-- A log entry of a run (R203). -/
structure LogE where
  op : AtomOp
  poison : Bool := false
  remote : Bool := false
  deriving DecidableEq, Repr, Inhabited

/-- A run of a command, under its commit identifier (R203). `tent` holds its tentative bytes by
physical address, `logs` its log entries, `unackedLines` and `unackedLogs` what its commit waits for,
`marks` the sectors its LAST reads marked (R235), `pages` the pages whose translation it used (R307), and
`tlines` are the tentative lines it has in its slice, those of its write-combining entries among them (R203, R206),
`preimages` those whose committed value it has had written back, `preWait` those whose WB_ACK it awaits (R205, R267),
`refused` says that another panel refused a log entry (R359), `amaxTodo` are the TILES words still to be stored (R77), `dstTodo` is the result that a collective member has still to store, `coll` the chunks of its result that it reduces or
awaits (R255: number, contributions so far, bytes), and `coord`, `inst`, `collRun` the coordination record, instance and RUN of a collective member (R223). -/
structure Run where
  q : QRef
  onEng : Nat
  cls : Nat
  part : Nat
  cid : Nat
  site : Nat
  phase : RunPhase := .running
  tent : List (Nat × BitVec 8) := []
  tlines : List Nat := []
  logs : List LogE := []
  unackedLines : List Nat := []
  unackedLogs : Nat := 0
  preimages : List Nat := []
  preWait : List Nat := []
  hints : List (Nat × Nat) := []
  res : Nat := 0
  marks : List Nat := []
  pages : List Nat := []
  sat : Nat := 0
  flushed : Nat := 0
  inclOvf : Nat := 0
  invalid : Nat := 0
  amax : W32 := 0
  amaxTodo : List (Nat × Nat) := []
  dstTodo : Option Bytes := none
  held : Nat := 0
  poisoned : Bool := false
  siteLost : Bool := false
  refused : Bool := false
  time : W64 := 0
  timeSite : Nat := 0
  coord : Nat := 0
  inst : Nat := 0
  collRun : Nat := 0
  arrived : Bool := false
  prepared : Bool := false
  coll : List (Nat × Nat × Bytes) := []
  deriving DecidableEq, Repr, Inhabited

/-- What an engine holds beside its registers: the run it runs, and whether that run has been killed
and the engine has yet to stop (R83, R117). -/
structure EngX where
  run : Nat := 0
  stopping : Bool := false
  deriving DecidableEq, Repr, Inhabited

/-- A gang of a core's matrix engines (R67). -/
structure Gang where
  core : Nat
  gang : Nat
  members : List Nat
  m : Nat
  k : Nat
  n : Nat
  share : Nat
  opA : BitVec 192
  opB : BitVec 192
  formed : Bool
  deriving DecidableEq, Repr, Inhabited

/-- A reconvergence entry (R99): its number, the entry it lies under (0: none), the reconvergence
address, the target path still to run, and the mask that continues at the reconvergence address. -/
structure Recon where
  id : Nat
  parent : Nat
  rcv : W64
  tgt : W64
  tgtMask : BitVec 64
  joined : BitVec 64
  deriving DecidableEq, Repr, Inhabited

/-- A path of a group that waits at a MEET, or resumes after it (R101): the address of the MEET, its
mask, and the reconvergence entry it runs under (0: none). -/
structure MeetPath where
  pc : W64
  mask : BitVec 64
  under : Nat
  deriving DecidableEq, Repr, Inhabited

/-- A group resident in a group slot (R86, R119). Register tables are indexed: `v` by register times
64 plus lane, `u` by register, `p` by predicate (a mask of lanes), `acc` by handle times 256 plus row
times 16 plus column. `await` counts the answers of memory operations that the group waits for, `acq` is
the scope of the acquire that follows them, `relWait` says that a SYSTEM release has sent its write-backs,
`waitc` is the counter, value, mask and next address of a WAITC that waits, `calls` holds each return address with the
number that the next reconvergence entry had at the CALL, and `nextId` is that number now (R99, R137). -/
structure Group where
  blk : Nat
  idx : Nat
  pipe : Nat
  pc : W64
  active : BitVec 64
  exited : BitVec 64 := 0
  v : List (Nat × W32) := []
  u : List (Nat × W32) := []
  p : List (Nat × W64) := []
  acc : List (Nat × W32) := []
  under : Nat := 0
  recon : List Recon := []
  calls : List (W64 × Nat) := []
  nextId : Nat := 1
  meets : List MeetPath := []
  resume : List MeetPath := []
  cycHi : W32 := 0
  waitc : Option (Nat × W32 × BitVec 64 × W64) := none
  await : Nat := 0
  acq : Nat := 0
  relWait : Bool := false
  deriving DecidableEq, Repr, Inhabited

/-- An asynchronous copy in flight (R104): source, destination, rows, counter and what the reads are
made with. `issued` is the last write before the issue (TeX.now), `l0` and `own` are what the L0 of its pipe held and the
pipe's own writes then, `pieces` the checked addresses of each row, found at the issue, and `fault` the code and the address
of the first fault (R106). -/
structure Copy where
  src : Nat
  dst : Nat
  rowBytes : Nat
  rows : Nat
  srcPitch : Nat
  dstPitch : Nat
  ctr : Nat
  hint : Nat
  lane : Nat
  slot : Nat
  pc : W64
  issued : Nat
  l0 : List (Nat × Nat) := []
  own : List (Nat × Nat) := []
  pieces : List (List (Nat × Nat)) := []
  fault : Option (Nat × Nat) := none
  deriving DecidableEq, Repr, Inhabited

/-- A block in a block slot (R90): its coordinates, arena slot, counters and copies. `races` are the offsets of the local
store that its groups have written since their last release, with the pipe: by an STLS, with the value before, or by a LOPR
(R150). -/
structure Block where
  x : Nat
  y : Nat
  z : Nat
  arena : Nat
  ctrs : List (Nat × W32) := []
  copies : List Copy := []
  races : List (Nat × Nat × Option (BitVec 8)) := []
  gen : Nat := 0
  deriving DecidableEq, Repr, Inhabited

/-- The launch a thread engine runs (R88). -/
structure Launch where
  run : Nat
  q : QRef
  prog : Nat
  gridX : Nat
  gridY : Nat
  gridZ : Nat
  groups : Nat
  vregs : Nat
  lsBlock : Nat
  arenaBase : Nat
  arenaSize : Nat
  maxBlocks : Nat
  args : List W32
  rank : Nat
  next : Nat := 0
  retired : Nat := 0
  deriving DecidableEq, Repr, Inhabited

/-- What a thread engine holds beside its registers. `hist` holds, oldest first, the former values of the
bytes of global memory that have been written since the launch began, each with the number of its write, of which `now`
is the last (R112): a byte had that value up to that write. `l0` are the lines that the L0 of a pipe holds (line × 8 +
pipe) with the last write that the version held may have seen, `l0Own` a pipe's own last write of a byte (R110, byte × 8
+ pipe), and `carrel` the sectors that the Carrel holds (R111, R229), most recently filled first, with the last write
before the fill. -/
structure TeX where
  launch : Option Launch := none
  blocks : List (Nat × Option Block) := []
  groups : List (Nat × Option Group) := []
  now : Nat := 0
  hist : List (Nat × Nat × BitVec 8) := []
  l0 : List (Nat × Nat) := []
  l0Own : List (Nat × Nat) := []
  carrel : List (Nat × Nat) := []
  deriving DecidableEq, Repr, Inhabited

/-- A translation held by an engine's TLB (R305): the page of 2^lg bytes at `va` maps to `ipa` and to `pa`. -/
structure TlbE where
  eng : Nat
  part : Nat
  cid : Nat
  lg : Nat
  va : Nat
  pa : Nat
  rights : Nat
  rights2 : Nat
  ipa : Nat := 0
  deriving DecidableEq, Repr, Inhabited

/-- A table entry held by a core's walker, or an IPA translation: stage 3, the page's first IPA plus the logarithm of its
size, and the page's PA (R305). -/
structure WalkE where
  stage : Nat
  part : Nat
  cid : Nat
  key : Nat
  val : Nat
  rights : Nat := 0
  deriving DecidableEq, Repr, Inhabited

/-- What a logical core holds beside its registers: its translation caches (the engines' TLBs, the walk cache and the IPA
cache), whether it waits to enter MAINT in
its maintenance window and whether it is in MAINT for one (R96, R219), the times of the DETECT incidents on it that the Librarian counts (R446), and the doorbells of
its queues that were ignored or discarded since it is LOST (R30). -/
structure CoreX where
  tlb : List TlbE := []
  walk : List WalkE := []
  ipas : List WalkE := []
  maintWanted : Bool := false
  inWindow : Bool := false
  detects : List Nat := []
  dropped : Nat := 0
  deriving DecidableEq, Repr, Inhabited

/-- A line held by a slice: of the panel's HBM, or of a host window or another panel's memory, by its address divided by
512 (R231, R258, R273). `valid` are the sectors it holds whole, `dirty` those with bytes written, `mask` the bytes
written, `poison` the poisoned sectors, `fresh` the bytes written since a PRE_WB of the line left (R267). `hint` is
0 NORMAL, 1 KEEP, 2 STREAM, and 3 for what a LAST access has fetched, which takes no way (R233). The list of lines is
kept most recently used first. -/
structure ALine where
  site : Nat
  line : Nat
  st : LState
  valid : Nat
  dirty : Nat
  hint : Nat
  part : Nat
  mask : BitVec 512 := 0#512
  poison : Nat := 0
  fresh : BitVec 512 := 0#512
  deriving DecidableEq, Repr, Inhabited

/-- A directory entry (R259). -/
structure DirE where
  sharers : BitVec 72
  owner : Option Nat
  deriving DecidableEq, Repr, Inhabited

/-- The coherence messages (R263). -/
inductive MsgTy where
  | rdS | own | upgr | atom | flush | wb | preWb | cmt | log | mir | snpS | snpX | inv | recall | clean
  | data | grant | ackInv | miss | fwdAck | rclData | wbAck | cmtAck | mirAck | atomRsp
  deriving DecidableEq, Repr, Inhabited

/-- What a home transaction does when the answers it waits for have come (R265). -/
inductive TxKind where
  | read | own | sole | flush | evict | mirror
  deriving DecidableEq, Repr, Inhabited

/-- A home transaction in progress (R265): the request, the number of answers still awaited, and the mask of the dirty
bytes that have come back for it, with the sectors poisoned among them. -/
structure Txn where
  line : Nat
  kind : TxKind
  ty : MsgTy
  m : CMsg
  need : Nat
  back : BitVec 512 := 0#512
  backPoison : Nat := 0
  deriving DecidableEq, Repr, Inhabited

/-- A request of a slice that waits for a grant (R264, R266): the sectors it asked for and those wanted since, the bytes
written meanwhile, the grant and the acknowledgements that have come, the snoops held until the access has been
performed, and whether an INV has come, so that a shared copy granted is used once and not kept. -/
structure Mshr where
  site : Nat
  line : Nat
  asked : Nat := 0
  later : Nat := 0
  wmask : BitVec 512 := 0#512
  part : Nat
  hint : Nat := 0
  grant : Option CMsg := none
  got : Nat := 0
  inval : Bool := false
  held : List (MsgTy × CMsg) := []
  deriving DecidableEq, Repr, Inhabited

/-- A write-combining entry (R236): a sector of a site's slice, its bytes, and its owner: a run, or 0
and the launch's queue for a pinned launch. -/
structure Wcb where
  site : Nat
  sector : Nat
  run : Nat
  pinned : Bool
  part : Nat
  cid : Nat
  bytes : List (Nat × BitVec 8)
  hint : Nat := 0
  deriving DecidableEq, Repr, Inhabited

/-- A mirror pair (R249): local PAs of the A and B copies and the size in bytes. -/
structure Mirror where
  a : Nat
  b : Nat
  size : Nat
  deriving DecidableEq, Repr, Inhabited

/-- The memories and the Archive (08, 09). `mem` is the coherent image of the panel's HBM, `hbm` what the stacks hold,
`checks` the stored checks of the stacks' lines that do not match their bytes, `marks` the poisoned sectors of each line
in the stacks' base dies (R241, R248), and `tokens` the regulators' tokens: the slice cycle of the count and twentieths
of a token (R243). `lines` are the lines that the slices hold and `evict` those in their eviction buffers. `wcache` holds
the bytes of the lines outside the panel, by site times 2^60 plus the address (R273), and `wbad` the sectors of them that
came back with a status other than OK, with the completion status they give. `dir` holds the homes' directories, most
recently used first, and `dirWait` the requests that wait for an entry of a full set, each with the line evicted for it
(R260). `tags` are the owner tags that the slices cache: the site, the frame of the panel and its tag (R303). -/
structure Archive where
  mem : List (Nat × BitVec 8) := []
  hbm : List (Nat × BitVec 8) := []
  ls : List (Nat × BitVec 8) := []
  checks : List (Nat × Option Nat) := []
  marks : List (Nat × Nat) := []
  tokens : List (Nat × Nat × Nat) := []
  lines : List ALine := []
  dir : List (Nat × DirE) := []
  dirWait : List (MsgTy × CMsg × Nat) := []
  txns : List Txn := []
  waitq : List (MsgTy × CMsg) := []
  mshrs : List Mshr := []
  wcb : List Wcb := []
  wcache : List (Nat × BitVec 8) := []
  wbad : List (Nat × Nat) := []
  evict : List ALine := []
  tags : List (Nat × Nat × BitVec 64) := []
  mirrors : List Mirror := []
  deriving DecidableEq, Repr, Inhabited

/-- A message handed to the sender of a lane group, or a packet to that of a ring port (R314, R339): the role and the channel
(the credit class of a packet), the destination site, its bytes padded to units of 16, and how many of them have been
packed into flits. -/
structure TxMsg where
  role : Nat := 0
  vc : Nat
  dst : Nat := 0
  d : Bytes
  sent : Nat := 0
  deriving DecidableEq, Repr, Inhabited

/-- A MSG flit of a sender (R313, R320, R339): FSEQ, channel, FIRST, payload bytes, and the messages it carries bytes of. -/
structure TxFlit where
  seq : Nat
  vc : Nat
  first : Nat
  d : Bytes
  msgs : List TxMsg
  deriving DecidableEq, Repr, Inhabited

/-- One end of a mesh lane group or of a ring port (R313, R314, R320-R324, R339-R342). As a receiver: the sequence number it
expects, whether it has sent NAK, the discarded copy and the replays that failed, the errors charged to lanes with their
times, the lanes it has asked to spare, the generators of the lanes' PRBS with the bits they have been loaded with, whether
the group is suspect and the lanes that its TEST flits found wrong, the unfinished message of each channel, the messages or
packets it has taken out of the payloads with their channel, and the credits it has yet to return (class, units or headers,
data). As a sender: the number of the next flit, the flits that the far end has not acknowledged with the number of them
still to be sent again, the flits taken over from a group of its role, the messages waiting, the credits it holds and has
spent, whether an acknowledgement is due, the PRBS registers of its lanes, and the flit it has last sent. `acked` and
`peerNak` are the far end's last acknowledgement and NAK; `peer` is the role and device that the far end of a ring port has
advertised. -/
structure LinkX where
  rxSeq : Nat := 0
  acked : Nat := 0
  peerNak : Bool := false
  nakSent : Bool := false
  badFlit : Option Flit := none
  fails : Nat := 0
  charges : List (Nat × Nat) := []
  asked : List Nat := []
  prbs : List (Nat × Nat × Nat) := []
  suspect : Bool := false
  testBad : List Nat := []
  parts : List (Nat × Bytes) := []
  rx : List (Nat × Bytes) := []
  owed : List (Nat × Nat × Nat) := []
  txSeq : Nat := 0
  replay : List TxFlit := []
  resend : Nat := 0
  redo : List TxFlit := []
  txq : List TxMsg := []
  credits : List (Nat × Nat) := []
  dataCredits : List (Nat × Nat) := []
  spent : List (Nat × Nat) := []
  ackDue : Bool := false
  txPrbs : List Nat := []
  out : Option Flit := none
  idlesSent : Nat := 0
  calibrations : Nat := 0
  peer : Nat := 0
  deriving DecidableEq, Repr, Inhabited

/-- An entry of a combining buffer (R328). `out` is the router output: an edge 0-3, or 4 for the
router's own site. -/
structure Comb where
  site : Nat
  out : Nat
  pkt : RedPkt
  deriving DecidableEq, Repr, Inhabited

/-- The mesh (12): links by (site × 4 + edge) × 16 + group, and ring ports at 8192 + port; the route
tables' entries that are not XY, by site × 128 + destination; combining buffers; REDUCE packets not yet
acknowledged, by source site and sector, the packets on their way to a router output and the
MOPN_ACKs on their way to a site; the sites declared lost; the loss reports broadcast (reporter, subject), and
those that each agent holds (agent, reporter, subject); the edges that are down, by site × 4 + edge at both
ends; and the live role changes that the Librarian has not recorded yet (site × 4 + edge, failed group, new
CTRL group); and the repair candidates of lanes and groups that failed training, by site × 64 + edge × 16 + group,
that the Librarian has not recorded yet; and the lanes spared since (R322), by the same key: lane plus 64 times the spare. -/
structure Mesh where
  links : List (Nat × LinkX) := []
  routes : List (Nat × Nat) := []
  comb : List Comb := []
  mopn : List (Nat × Nat) := []
  redOut : List (Nat × Nat × RedPkt) := []
  acks : List (Nat × Nat) := []
  lost : List Nat := []
  broadcast : List (Nat × Nat) := []
  reports : List (Nat × Nat × Nat) := []
  edgeDown : List Nat := []
  roleChg : List (Nat × Nat × Nat) := []
  trains : List (Nat × Nat) := []
  spares : List (Nat × Nat) := []
  deriving DecidableEq, Repr, Inhabited

/-- The header or the sectors of a message on their way (R316, R317): the role and the virtual channel they travel on, source,
destination and sequence number, the router where they stand, the buffer class that they wait in there (0 XY, 1 YX, 2
detour), and the units of 16 bytes they take. -/
structure Parcel where
  pay : Bool
  role : Nat
  vc : Nat
  src : Nat
  dst : Nat
  seq : Nat
  at_ : Nat
  cls : Nat := 0
  units : Nat
  deriving DecidableEq, Repr, Inhabited

/-- Messages in flight inside the panel, with the next sequence number by channel and pair of sites, and their headers and
sectors where they stand (R317). `kills` are the KILLs of collective members: the member's
queue, the coordination record, the instance and its RUN (R224). -/
structure Net where
  msgs : List (MsgTy × CMsg) := []
  seqs : List (Nat × Nat) := []
  parcels : List Parcel := []
  evts : List EvtOp := []
  wakes : List QRef := []
  arms : List (QRef × Nat) := []
  watches : List (Nat × QRef) := []
  reports : List Report := []
  kills : List (QRef × Nat × Nat × Nat) := []
  deriving DecidableEq, Repr, Inhabited

/-- What a panel access to a host is for (R346). -/
inductive HostUse where
  | readLine (site pa part hint : Nat)
  | record (t : CrTarget) (va : Nat)
  | notify
  | writeBack (site pa part : Nat)
  | release (q : QRef) (site : Nat)
  deriving DecidableEq, Repr, Inhabited

/-- A packet to a host (R344): port, header, payload. -/
structure QPkt where
  port : Nat
  h : QHdr
  d : Bytes
  deriving DecidableEq, Repr, Inhabited

/-- A packet on the fabric (R352): the ring port it leaves by, header, payload. -/
structure NPkt where
  port : Nat
  h : NHdr
  d : Bytes
  deriving DecidableEq, Repr, Inhabited

/-- The host link (13): accesses without a CPL yet, host reads without an answer yet, the packets sent, and the requests of
hosts that wait for an earlier one of their port (R285), oldest first. -/
structure HostLink where
  out : List QPkt := []
  pend : List (Nat × Nat × HostUse) := []
  reads : List QPkt := []
  hold : List QPkt := []
  nextTag : Nat := 0
  deriving DecidableEq, Repr, Inhabited

/-- The states of a sender flow (R356). -/
inductive FlowState where
  | closed | opening | opened | failed
  deriving DecidableEq, Repr, Inhabited

/-- What a request of a flow is for (R358). The answer of a `lost` one has been delivered as poison already (R325). -/
inductive FabUse where
  | readLine (site pa part hint : Nat)
  | writeBack (site pa part : Nat)
  | release (q : QRef) (site : Nat)
  | mopn (run : Nat) (rel : Bool) (addr : Nat)
  | mopr (dest : AtomDest)
  | log (run : Nat)
  | clerk (p k submit : Nat)
  | objPut (p k submit : Nat)
  | objGet (p k submit batch pa : Nat)
  | lost
  | response
  deriving DecidableEq, Repr, Inhabited

/-- A sender flow (R356), kept by a ring die. `sites` are the sites whose requests belong to it since it opened (R354). -/
structure Flow where
  dev : Nat
  sites : List Nat := []
  state : FlowState
  epoch : Nat
  keeper : Nat
  psn : Nat := 0
  unacked : List (NPkt × FabUse) := []
  waiting : List (NPkt × FabUse) := []
  answers : List (Nat × FabUse) := []
  deriving DecidableEq, Repr, Inhabited

/-- A receiver context (R356). -/
structure Recv where
  epoch : Nat
  next : Nat
  unacked : Nat
  deriving DecidableEq, Repr, Inhabited

/-- An object read in progress (R360): `got` are the ranges of it that have come, as address and length. -/
structure ObjGet where
  dev : Nat
  obj : Nat
  offset : Nat
  length : Nat
  pa : Nat
  part : Nat
  cid : Nat
  got : List (Nat × Nat) := []
  p : Nat
  k : Nat
  submit : Nat
  batch : Nat
  deriving DecidableEq, Repr, Inhabited

/-- The fabric (13): flows by ring die × 65536 + flow, receivers by (die × 65536 + device) × 65536 +
flow, object reads, packets sent; `backlog` holds the requests that wait for a context, by site × 32 + ring die and
device; `orphans` are the requests (device, PSN) that a flow since closed had acknowledged and
that have no answer yet. -/
structure Fabric where
  flows : List (Nat × Option Flow) := []
  recvs : List (Nat × Option Recv) := []
  epochs : List (Nat × Nat) := []
  gets : List ObjGet := []
  orphans : List (Nat × Nat × FabUse) := []
  backlog : List (Nat × Nat × NPkt × FabUse) := []
  out : List NPkt := []
  deriving DecidableEq, Repr, Inhabited

/-- The steps of a clerk operation (R370, R372, R375). -/
inductive ClerkStep where
  | sum | credit | data | receive | added | stream | batches | finish
  deriving DecidableEq, Repr, Inhabited

/-- A clerk operation (R363): its request, ring, lead and helpers, and how far it has come. `writes` and `puts`
count the answers it waits for, `adds` the answers to its adds (R365), `list` is its member table (device, WORK) or its ranges (VA, bytes, object
offset), `pages` are the pages whose translation it used (R364), `next`, `started`,
`landed`, `filled` and `bad` are the batches of a STAGE: the next one, those in flight, those that landed ahead,
the count in FILLED, and the first that failed. -/
structure ClerkOp where
  p : Nat
  k : Nat
  submit : Nat
  req : Desc
  step : ClerkStep
  lead : Nat := 0
  clerk : Nat := 0
  helpers : List (Nat × Nat) := []
  recPa : Nat := 0
  list : List (Nat × Nat × Nat) := []
  stage : Nat := 0
  writes : Nat := 0
  lastInst : Nat := 0
  pages : List Nat := []
  next : Nat := 0
  started : List Nat := []
  landed : List Nat := []
  filled : Nat := 0
  bad : Option Nat := none
  code : Nat := 0
  abortSeen : Bool := false
  silent : Bool := false
  puts : Nat := 0
  adds : Nat := 0
  deriving DecidableEq, Repr, Inhabited

/-- What a service ring holds beside its registers (R361): the request fetched and not started, with its count,
its poison or its fault, the pending aborts, and the count below which every request is aborted. -/
structure SvcX where
  reqs : List (Nat × Desc) := []
  aborts : List Nat := []
  allBelow : Option Nat := none
  ring : RecX := {}
  deriving DecidableEq, Repr, Inhabited

/-- The clerks (14): rings by partition × 4 + k, and the operations running. -/
structure Clerks where
  rings : List (Nat × SvcX) := []
  ops : List ClerkOp := []
  deriving DecidableEq, Repr, Inhabited

/-- A partition's quiesce in progress (R387), its broadcast groups' windows (R194), and its invalidations in
progress: for each, the pinned runs that it waits for (R307). `drain` is the mailbox count of the PART_DRAIN in
progress and `kill` says that it aborts everything, `release` is that of the PART_RELEASE whose scrub of the
frames `freed` runs, and `s2` that of the command that waits for a stage-2 invalidation. -/
structure PartX where
  drain : Option Nat := none
  kill : Bool := false
  flush : Option Nat := none
  release : Option Nat := none
  freed : List Nat := []
  s2 : Option (Nat × List Nat) := none
  sops : List (Nat × Desc) := []
  tlbis : List (List Nat) := []
  deriving DecidableEq, Repr, Inhabited

/-- The parts of the Mould image that act after start (R404) and no register shows: `repair` are the CORE_SLOT
entries that applied, `times` the fields of the TIME section in table order (R416), `scrubH` the hours of SCRUB_H. -/
structure Mould where
  srSeed : W64 := 0
  repair : List (BitVec 128) := []
  qmode : BitVec 28 := 0
  manager : Nat := 0
  scrubH : Nat := 24
  times : List Nat := [1000, 2000, 100, 10, 50, 20, 5, 64]
  deriving DecidableEq, Repr, Inhabited

/-- A C-die that has been gated off and whose loss the Librarian has not settled yet (R26, R413): the site,
the cause of R445 with its slot, the affected queues of its cores with what they were running, and whether a pinned
command was in flight. `moved` says that step 3 of R26 has been taken and that step 5 logs the incident. -/
structure DieLoss where
  site : Nat
  cause : Nat
  slot : Nat
  running : List (QRef × Option Cmd)
  pinned : Bool
  moved : Bool := false
  deriving DecidableEq, Repr, Inhabited

/-- The boot ROM, the Librarian and its supervisor beside their registers (16). `mbx` holds the bytes
of the mailbox block that are no registers: slots, report, repair candidates, log, load window. `image` is the
copy under verification, by offset, and `from_` the STATE it was loaded in; `lib` is the Librarian image retained,
`libDigest` and `mouldDigest` are the digests of the two images. `retrying` says that reads are answered
RETRY for the backlog (R411), `restarts` are the times of the supervisor's restarts, and
`openEntries` the entries of the incident log that still take echoes, by their count and first report. `doneAhead` are the
mailbox counts that have completed ahead of an earlier one, `queuedWrites` the writes of Librarian-backed registers
that wait while the Librarian is absent, and `lostEntries` the log entry of each site's CORE_LOST incident. -/
structure Boot where
  mbx : List (Nat × BitVec 8) := []
  image : List (Nat × BitVec 8) := []
  from_ : Nat := 0
  lib : List (Nat × BitVec 8) := []
  libDigest : Bytes := []
  mouldDigest : Bytes := []
  mould : Mould := {}
  absent : Bool := false
  retrying : Bool := false
  restarts : List Nat := []
  queuedWrites : List (Nat × Nat × W64) := []
  openEntries : List (Nat × Report) := []
  doneAhead : List Nat := []
  losses : List DieLoss := []
  lostEntries : List (Nat × Nat) := []
  deriving DecidableEq, Repr, Inhabited

/-- Power, clocks and pins (17, 19). `pending` says that PWR_EN is high and the input outside its range,
`envLow` counts the milliseconds below 95 % of the envelope, `therm` the polls of a half (site × 2 + half) at or
above 105 °C and at or below 100 °C, `steps` the step that a half runs at or changes to, and `temps` the last
reading of each sensor. -/
structure Power where
  standby : Bool := false
  inRange : Bool := false
  pwrEn : Bool := false
  pwrGood : Bool := false
  pending : Bool := false
  resetN : Bool := false
  refPresent : Bool := true
  refHeld : Bool := false
  tabs : BitVec 12 := 0xFFF
  envCap : Nat := 0
  envLow : Nat := 0
  therm : List (Nat × Nat × Nat) := []
  pllLocked : Bool := false
  fatal : Bool := false
  steps : List (Nat × Nat) := []
  temps : List (Nat × Nat) := []
  jtagIr : Nat := 1
  jtagReset : Bool := true
  tdo : W32 := 0
  boundary : BitVec 48 := 0
  smbNack : Bool := false
  gatedDies : List Nat := []
  lostDies : List Nat := []
  deriving DecidableEq, Repr, Inhabited

/-- The panel's state. `errs` holds the signatures that the site agents have sent in their 1 ms windows,
with their echo counts, `errWait` the reports that wait for the rate limit (R437); `subUnits` what counters kept in coarser units have not shown yet. -/
structure State where
  regs : List (Nat × BitVec 64) := []
  arc : Archive := {}
  queues : List (Nat × QueX) := []
  engs : List (Nat × EngX) := []
  tes : List (Nat × TeX) := []
  cores : List (Nat × CoreX) := []
  runs : List (Nat × Option Run) := []
  nextRun : Nat := 1
  gangs : List Gang := []
  mesh : Mesh := {}
  net : Net := {}
  host : HostLink := {}
  fab : Fabric := {}
  svc : Clerks := {}
  parts : List (Nat × PartX) := []
  boot : Boot := {}
  pwr : Power := {}
  errs : List (Nat × Report × Nat) := []
  errWait : List Report := []
  subUnits : List (Nat × Nat) := []
  cyc : Nat := 0
  free : Nat := 0
  pending : List Instr := []
  deriving DecidableEq, Repr

/-- The panel before its first power-up: every register at its reset value (an unlisted register reads
that value), every memory empty, every queue empty, the power off (R419, R406). -/
def State.reset : State := {}

end Sys2Proof.Machine
end

