-- ==== Sys2Proof/Machine/Operands.lean ====
section
/-!
DEFINITION. The Folio instruction word (05_folio_instructions R121-R127): its fields, its operand
kinds, which words are legal (R165), who takes part, and how the register files are read and written.
-/

namespace Sys2Proof.Machine

/-! ### Fields (R121) -/

def fOpc (w : W64) : Nat := fldOf w 0 8
def fGen (w : W64) : Bool := nbit w.toNat 8
def fGp (w : W64) : Nat := fldOf w 9 3
def fGneg (w : W64) : Bool := nbit w.toNat 12
def fU (w : W64) : Bool := nbit w.toNat 13
def fL (w : W64) : Bool := nbit w.toNat 14
def fRsv (w : W64) : Bool := nbit w.toNat 15
def fD (w : W64) : Nat := fldOf w 16 8
def fA (w : W64) : Nat := fldOf w 24 8
def fB (w : W64) : Nat := fldOf w 32 8
def fC (w : W64) : Nat := fldOf w 40 8
def fKA (w : W64) : Nat := fldOf w 48 2
def fKB (w : W64) : Nat := fldOf w 50 2
def fKC (w : W64) : Nat := fldOf w 52 2
def fMod (w : W64) : Nat := fldOf w 54 10
def fOff (w : W64) : Nat := fldOf w 24 8
def fBase (w : W64) : Nat := fldOf w 32 6
def fNoOff (w : W64) : Bool := nbit w.toNat 38
def fOsx (w : W64) : Bool := nbit w.toNat 39
def fHint (w : W64) : Nat := fldOf w 40 2
def fScope (w : W64) : Nat := fldOf w 42 3
def fOrd (w : W64) : Nat := fldOf w 45 2
def fSize (w : W64) : Nat := fldOf w 47 3
def fSub (w : W64) : Nat := fldOf w 50 4
def fImm (w : W64) : Nat := fldOf w 54 10
def fTgt (w : W64) : Nat := fldOf w 16 24
def fRcv (w : W64) : Nat := fldOf w 40 24

/-- Bytes of the instruction (R125, R128). -/
def fLen (w : W64) : W64 := if fL w then 16#64 else 8#64

/-- A code address moved by a signed count of 8-byte units (R121, layout C). -/
def pcPlus (pc : W64) (units : Nat) : W64 := pc + BitVec.ofInt 64 (8 * sext units 24)

/-! ### Status codes (R11) -/

def stOk : Nat := 0x00
def stAborted : Nat := 0x01
def stAlreadyCommitted : Nat := 0x02
def stDeferred : Nat := 0x03
def stDataPoison : Nat := 0x10
def stRecomputed : Nat := 0x11
def stTranslation : Nat := 0x20
def stProtection : Nat := 0x21
def stMatrixDivergent : Nat := 0x22
def stBarrierTimeout : Nat := 0x23
def stIllegal : Nat := 0x24
def stGraphTorn : Nat := 0x25
def stOversize : Nat := 0x26
def stWaitTimeout : Nat := 0x27
def stPinnedOverrun : Nat := 0x28
def stCoreLost : Nat := 0x30
def stSiteLost : Nat := 0x31
def stCompletionBlocked : Nat := 0x32

/-! ### Lanes and register files (R119) -/

/-- The lanes of a mask, lowest first. -/
def lanesOf (m : W64) : List Nat := (List.range 64).filter fun l => m.getLsbD l

/-- The lowest lane of a mask, 0 for an empty one. -/
def firstLane (m : W64) : Nat := ((List.range 64).find? fun l => m.getLsbD l).getD 0

/-- A mask from a test of each lane. -/
def maskOf (f : Nat → Bool) : W64 :=
  BitVec.ofNat 64 ((List.range 64).foldl (fun a l => a + b2n (f l) * 2 ^ l) 0)

def Group.rdV (g : Group) (r lane : Nat) : W32 := tget 0#32 g.v (r * 64 + lane)
def Group.wrV (g : Group) (r lane : Nat) (x : W32) : Group := { g with v := tset 0#32 g.v (r * 64 + lane) x }
def Group.rdU (g : Group) (r : Nat) : W32 := tget 0#32 g.u r
def Group.wrU (g : Group) (r : Nat) (x : W32) : Group := { g with u := tset 0#32 g.u r x }
def Group.rdP (g : Group) (p : Nat) : W64 := tget 0#64 g.p p
def Group.wrP (g : Group) (p : Nat) (x : W64) : Group := { g with p := tset 0#64 g.p p x }
/-- Element (r, c) of a handle. -/
def Group.rdAcc (g : Group) (h r c : Nat) : W32 := tget 0#32 g.acc (h * 256 + r * 16 + c)
def Group.wrAcc (g : Group) (h r c : Nat) (x : W32) : Group := { g with acc := tset 0#32 g.acc (h * 256 + r * 16 + c) x }

/-- Writes a vector register in the lanes of a mask. -/
def Group.wrLanes (g : Group) (r : Nat) (m : W64) (f : Nat → W32) : Group :=
  (lanesOf m).foldl (fun g l => g.wrV r l (f l)) g

/-- Writes a predicate in the lanes of a mask. -/
def Group.wrPred (g : Group) (p : Nat) (m : W64) (v : W64) : Group :=
  g.wrP p ((g.rdP p &&& ~~~m) ||| (v &&& m))

/-- The lanes whose guard holds (R127). -/
def Group.guard (g : Group) (w : W64) : W64 :=
  if fGen w then (if fGneg w then ~~~(g.rdP (fGp w)) else g.rdP (fGp w)) else BitVec.allOnes 64

/-- The threads that take part: active, with the guard true. -/
def Group.takes (g : Group) (w : W64) : W64 := g.active &&& g.guard w

/-- Under U = 1 the guard is evaluated in the lowest-numbered active thread (R126). -/
def Group.takesU (g : Group) (w : W64) : Bool := (g.guard w).getLsbD (firstLane g.active)

/-! ### Sources (R122, R123, R125) -/

/-- How an immediate B is made (R123). -/
inductive ImmTy where
  | int | f32 | b2
  deriving DecidableEq, Repr

/-- The immediate B of a word. -/
def immB (ty : ImmTy) (w w1 : W64) : W32 :=
  if fL w then BitVec.ofNat 32 (fldOf w1 0 32)
  else
    let z := sext (fB w) 8
    match ty with
    | .int => BitVec.ofInt 32 z
    | .f32 => toF32 .rne (Num.ofInt z)
    | .b2 => let h := (toBf16 .rne (Num.ofInt z)).1; BitVec.ofNat 32 (h * 65536 + h)

/-- A source of a kind in a lane. -/
def Group.src (g : Group) (k r lane : Nat) : W32 := if k = 1 then g.rdU r else g.rdV r lane
def Group.srcA (g : Group) (w : W64) (lane : Nat) : W32 := g.src (fKA w) (fA w) lane
def Group.srcB (g : Group) (ty : ImmTy) (w w1 : W64) (lane : Nat) : W32 :=
  if fKB w = 2 then immB ty w w1 else g.src (fKB w) (fB w) lane
def Group.srcC (g : Group) (w : W64) (lane : Nat) : W32 := g.src (fKC w) (fC w) lane

/-! ### Which words are legal (R120-R127, R165) -/

/-- What an opcode does with a source field. -/
inductive SrcUse where
  | unused
  | reg            -- vector or uniform register
  | regImm         -- vector, uniform or immediate
  | num (n : Nat)  -- a number below n
  | vec (n : Nat)  -- n vector registers, the first a multiple of n
  | uni (n : Nat)  -- uniform registers, the first a multiple of n
  | uniImm         -- uniform or immediate
  deriving DecidableEq, Repr

/-- What an opcode does with the D field. -/
inductive DstUse where
  | unused
  | reg            -- a vector register, or a uniform one under U = 1
  | vec (n : Nat)  -- n vector registers, the first a multiple of n
  | uni (n : Nat)  -- uniform registers, the first a multiple of n
  | num (n : Nat)  -- a number below n: a predicate, counter or handle
  deriving DecidableEq, Repr

/-- An opcode of layout R: whether it accepts U (0 no, 1 yes, 2 required), its fields, its legal MOD
values, and whether GEN may be set. -/
structure RSpec where
  u : Nat := 0
  d : DstUse := .reg
  a : SrcUse := .unused
  b : SrcUse := .unused
  c : SrcUse := .unused
  mods : Nat → Bool := fun m => decide (m = 0)
  gen : Bool := true

/-- A source field and its kind are legal. -/
def SrcUse.okFor (x : SrcUse) (u : Bool) (vregs k r : Nat) : Bool :=
  match x with
  | .unused => decide (k = 0 ∧ r = 0)
  | .num n => decide (k = 0 ∧ r < n)
  | .reg => if k = 0 then !u && decide (r < vregs) else decide (k = 1 ∧ r < 64)
  | .regImm => if k = 0 then !u && decide (r < vregs) else if k = 1 then decide (r < 64) else decide (k = 2)
  | .vec n => decide (k = 0 ∧ r + n ≤ vregs ∧ r % n = 0)
  | .uni n => decide (k = 1 ∧ r + n ≤ 64 ∧ r % n = 0)
  | .uniImm => if k = 1 then decide (r < 64) else decide (k = 2)

/-- The D field is legal. -/
def DstUse.okFor (x : DstUse) (u : Bool) (vregs r : Nat) : Bool :=
  match x with
  | .unused => decide (r = 0)
  | .reg => if u then decide (r < 64) else decide (r < vregs)
  | .vec n => decide (r + n ≤ vregs ∧ r % n = 0)
  | .uni n => decide (r + n ≤ 64 ∧ r % n = 0)
  | .num n => decide (r < n)

/-- The common fields are legal: bit 15, the guard without GEN, and U (R121, R126, R127). -/
def commonOk (u : Nat) (w : W64) : Bool :=
  !fRsv w && (fGen w || (decide (fGp w = 0) && !fGneg w)) && (if fU w then decide (u ≠ 0) else decide (u ≠ 2))

/-- The word is legal for an opcode of layout R (R165). -/
def RSpec.legal (p : RSpec) (vregs : Nat) (w w1 : W64) : Bool :=
  commonOk p.u w
    && (p.gen || !fGen w)
    && p.d.okFor (fU w) vregs (fD w)
    && p.a.okFor (fU w) vregs (fKA w) (fA w)
    && p.b.okFor (fU w) vregs (fKB w) (fB w)
    && p.c.okFor (fU w) vregs (fKC w) (fC w)
    && p.mods (fMod w)
    && (!fL w || (decide (fKB w = 2) && decide (fB w = 0) && decide (fldOf w1 32 32 = 0)))

/-- The word is legal for an opcode of layout C: JUMP and CALL (R121, R125, R136). -/
def legalC (gen : Bool) (w : W64) : Bool :=
  commonOk 0 w && !fL w && (gen || !fGen w) && (fGen w || decide (fRcv w = 0))

/-- Bytes of an access (R121, SIZE). -/
def szBytes (w : W64) : Nat := 2 ^ fSize w
/-- Data registers of an access (R120, R142). -/
def szRegs (w : W64) : Nat := if fSize w ≤ 2 then 1 else if fSize w = 3 then 2 else 4

/-- What an opcode of layout M accepts: whether U, whether the address is global, its orderings, its
SUB and SIZE pairs, and how many data registers it names. -/
structure MSpec where
  u : Bool := false
  global : Bool := true
  ords : List Nat
  sub : Nat → Nat → Bool
  regs : W64 → Nat := szRegs

/-- The word is legal for an opcode of layout M (R120, R125, R140, R142, R144, R165). -/
def MSpec.legal (p : MSpec) (vregs : Nat) (w w1 : W64) : Bool :=
  commonOk (if p.u then 1 else 0) w
    && decide (fSize w ≤ 4)
    && p.sub (fSub w) (fSize w)
    && p.ords.contains (fOrd w)
    && decide (fScope w ≤ 4) && (decide (fOrd w ≠ 0) || decide (fScope w = 0))
    && (!p.global || decide (fBase w % 2 = 0))
    && (if fU w then fNoOff w else true)
    && (if fNoOff w then decide (fOff w = 0) else decide (fOff w < vregs))
    && decide (fD w % p.regs w = 0)
    && (if fU w then decide (fD w + p.regs w ≤ 64) else decide (fD w + p.regs w ≤ vregs))
    && (!fL w || (decide (fImm w = 0) && decide (fldOf w1 32 32 = 0)))

/-- The byte offset of an access of layout M in a lane: offset register and immediate. -/
def Group.offOf (g : Group) (w w1 : W64) (lane : Nat) : Int :=
  let imm := if fL w then sext (fldOf w1 0 32) 32 else sext (fImm w) 10
  let off : Int := if fNoOff w then 0
    else if fOsx w then sext (g.rdV (fOff w) lane).toNat 32 else ((g.rdV (fOff w) lane).toNat : Int)
  imm + off

/-- The global address of a lane: a 64-bit sum (R140). -/
def Group.gaddr (g : Group) (w w1 : W64) (lane : Nat) : Nat :=
  let base : Int := ((g.rdU (fBase w)).toNat + (g.rdU (fBase w + 1)).toNat * 2 ^ 32 : Nat)
  wrap 64 (base + g.offOf w w1 lane)

/-- The local-store offset of a lane: a 32-bit sum (R140). -/
def Group.laddr (g : Group) (w w1 : W64) (lane : Nat) : Nat :=
  wrap 32 (((g.rdU (fBase w)).toNat : Int) + g.offOf w w1 lane)

/-! ### What an instruction without memory access works on -/

/-- The group, the vector registers per thread, the engine's stochastic-rounding generator, the
counter of free values, and the events counted for the launch (R57, R118). -/
structure FX where
  g : Group
  vregs : Nat
  sr : W64
  free : Nat
  sat : Nat := 0
  flushed : Nat := 0
  inclOvf : Nat := 0
  invalid : Nat := 0
  deriving DecidableEq, Repr, Inhabited

/-- Draws for the converted values of one instruction, in any order of assignment (R48): each value in
turn takes one of the draws not yet taken, by a free choice. -/
def dealDraws : Nat → Nat → List Nat → List Nat
  | 0, _, _ => []
  | k + 1, free, ds =>
    let i := Config.freeNat free % ds.length
    ds.getD i 0 :: dealDraws k (free + 1) (ds.eraseIdx i)

/-- Takes `k` draws when the rounding mode is SR: the context after it and the draw of value `i`. -/
def FX.draws (x : FX) (rm k : Nat) : FX × (Nat → Nat) :=
  if rm = 2 then
    let r := drawsSr k x.sr
    let l := dealDraws k x.free r.2
    ({ x with sr := r.1, free := x.free + k }, fun i => l.getD i 0)
  else (x, fun _ => 0)

/-- The mode of a legal rounding code (R46). -/
def modeOf (rm draw : Nat) : RMode := (rmodeOf rm draw).getD .rne

/-- An instruction whose destination is a register: `f lane` is its value in a lane. Under U = 1 it is
executed once, with uniform or immediate sources, and written to a uniform register (R126); a predicate that it reads is that
of the lowest active lane (DESIGN CHOICE, log entry 112). -/
def FX.putReg (x : FX) (w : W64) (f : Nat → W32) : FX :=
  if fU w then
    (if x.g.takesU w then { x with g := x.g.wrU (fD w) (f (firstLane x.g.active)) } else x)
  else { x with g := x.g.wrLanes (fD w) (x.g.takes w) f }

/-- An instruction whose destination is a predicate (R124, R126). -/
def FX.putPred (x : FX) (w : W64) (f : Nat → Bool) : FX :=
  if fU w then
    (if x.g.takesU w then
      { x with g := x.g.wrPred (fD w) x.g.active (if f (firstLane x.g.active) then BitVec.allOnes 64 else 0#64) }
    else x)
  else { x with g := x.g.wrPred (fD w) (x.g.takes w) (maskOf f) }

/-- An instruction of layout R without memory access: the context after it, or the status code of the
fault it raises. -/
abbrev FExec := W64 → W64 → FX → Except Nat FX

/-- Checks the word, then runs. -/
def RSpec.run (p : RSpec) (f : W64 → W64 → FX → FX) : FExec := fun w w1 x =>
  if p.legal x.vregs w w1 then .ok (f w w1 x) else .error stIllegal

/-- The MOD values with only bits of a mask. -/
def modMask (m : Nat) : Nat → Bool := fun x => decide (x &&& m = x)

/-- One operand, a register result. -/
def alu1 (u : Nat) (mods : Nat → Bool) (f : Nat → W32 → W32) : FExec :=
  RSpec.run { u := u, a := .reg, mods := mods } fun w _ x =>
    x.putReg w fun l => f (fMod w) (x.g.srcA w l)

/-- Two operands, a register result. -/
def alu2 (u : Nat) (ty : ImmTy) (mods : Nat → Bool) (f : Nat → W32 → W32 → W32) : FExec :=
  RSpec.run { u := u, a := .reg, b := .regImm, mods := mods } fun w w1 x =>
    x.putReg w fun l => f (fMod w) (x.g.srcA w l) (x.g.srcB ty w w1 l)

/-- Three operands, a register result. -/
def alu3 (u : Nat) (ty : ImmTy) (mods : Nat → Bool) (f : Nat → W32 → W32 → W32 → W32) : FExec :=
  RSpec.run { u := u, a := .reg, b := .regImm, c := .reg, mods := mods } fun w w1 x =>
    x.putReg w fun l => f (fMod w) (x.g.srcA w l) (x.g.srcB ty w w1 l) (x.g.srcC w l)

/-- Two operands, a predicate result. -/
def test2 (u : Nat) (ty : ImmTy) (mods : Nat → Bool) (f : Nat → W32 → W32 → Bool) : FExec :=
  RSpec.run { u := u, d := .num 8, a := .reg, b := .regImm, mods := mods } fun w w1 x =>
    x.putPred w fun l => f (fMod w) (x.g.srcA w l) (x.g.srcB ty w w1 l)

end Sys2Proof.Machine
end

