-- ==== Sys2Proof/Machine/Regs.lean ====
section
/-!
DEFINITION. The register region (00_scope R3-R7): where each register stands, its reset value, how its
fields are read and written, and which address of the region reaches which register (R4, R5, R21,
R167, R382, R383). The registers of a core are kept under the logical core's number, so that they do
not change place when a core moves (R21); a site block reaches them by physical slot.
-/

namespace Sys2Proof.Machine

/-! ### Bases (R3, R4, R5) -/

/-- Base of the register region. -/
def regBase : Nat := 0x1800_0000_0000
/-- Site block of site `s` (R3). -/
def siteB (s : Nat) : Nat := 0x1800_0000_0000 + s * 0x0100_0000
/-- Ring die block of ring die `r` (R3). -/
def ringB (r : Nat) : Nat := 0x1800_4800_0000 + r * 0x0010_0000
/-- Librarian mailbox block (R3). -/
def libB : Nat := 0x1800_4C00_0000
/-- Fuse block (R3). -/
def fusB : Nat := 0x1800_4D00_0000
/-- Aperture of partition `p` (R3). -/
def partB (p : Nat) : Nat := 0x1800_5000_0000 + p * 0x0100_0000
/-- Where the registers of logical core `c` are kept: the layout of a core slot (R5) at an address of
its own, beyond the register region. -/
def coreB (c : Nat) : Nat := 0x1900_0000_0000 + c * 0x0020_0000
/-- Where the SMBus register of a command code is kept (R466). -/
def mgmtB (cmd : Nat) : Nat := 0x1A00_0000_0000 + cmd * 8

/-- Number of a queue among the queues of the panel (R167). -/
def qKey (q : QRef) : Nat := q.core * 28 + q.eng * 4 + q.q
/-- Number of an engine. -/
def engKey (core eng : Nat) : Nat := core * 7 + eng

/-! ### Registers by name -/

/-- QUE_ page of a queue (R5, R167). -/
def queB (q : QRef) : Nat := coreB q.core + 0x80000 + (4 * q.eng + q.q) * 0x1000
def queCfg (q : QRef) : Nat := queB q
def queRingBase (q : QRef) : Nat := queB q + 0x008
def queTableBase (q : QRef) : Nat := queB q + 0x010
def queCrBase (q : QRef) : Nat := queB q + 0x018
def queTail (q : QRef) : Nat := queB q + 0x020
def queHead (q : QRef) : Nat := queB q + 0x028
def queDone (q : QRef) : Nat := queB q + 0x030
def queCrTail (q : QRef) : Nat := queB q + 0x038
def queCrHead (q : QRef) : Nat := queB q + 0x040
def queStatus (q : QRef) : Nat := queB q + 0x048
def queNotifyAddr (q : QRef) : Nat := queB q + 0x060
def queNotifyCtrl (q : QRef) : Nat := queB q + 0x068
def queBcast (q : QRef) : Nat := queB q + 0x070
def queOvf (q : QRef) (j : Nat) : Nat := queB q + 0x100 + j * 8
def queArm (q : QRef) (j : Nat) : Nat := queB q + 0x120 + j * 8
/-- MEX_ block of matrix engine `n` (R5). -/
def mexB (c n : Nat) : Nat := coreB c + 0x10000 + n * 0x10000
/-- TEX_ block (R5). -/
def texB (c : Nat) : Nat := coreB c + 0x50000
/-- MOV_ block of move engine `m` (R5). -/
def movB (c m : Nat) : Nat := coreB c + 0x60000 + m * 0x10000
/-- CAL_ block (R5). -/
def calB (c : Nat) : Nat := coreB c + 0xC0000
def calWin (c i : Nat) : Nat := calB c + 0x1000 + i * 8
def coreLsStat (c : Nat) : Nat := coreB c + 0x100
def coreXlatFault (c : Nat) : Nat := coreB c + 0x200
def coreSelftest (c : Nat) : Nat := coreB c + 0x300
/-- Sub-blocks of a site block (R4). -/
def siteReg (s : Nat) : Nat := siteB s
def errB (s : Nat) : Nat := siteB s + 0x10000
def pwrB (s : Nat) : Nat := siteB s + 0x20000
def ckgB (s : Nat) : Nat := siteB s + 0x30000
def ldgB (s : Nat) : Nat := siteB s + 0x40000
def arcB (s : Nat) : Nat := siteB s + 0x100000
def hbmB (s c : Nat) : Nat := siteB s + 0x200000 + c * 0x8000
def lnkB (s d : Nat) : Nat := siteB s + 0x300000 + d * 0x1000
def lnkGrp (l : LinkRef) : Nat := lnkB l.site l.d + 0x100 + l.g * 8
def arcTent (s p : Nat) : Nat := arcB s + 0x800 + p * 8
def arcTentStat (s : Nat) : Nat := arcB s + 0x880
def arcKeep (s p : Nat) : Nat := arcB s + 0x100 + p * 8
def arcKeepDemote (s : Nat) : Nat := arcB s + 0x200
def arcWcbStat (s : Nat) : Nat := arcB s + 0x208
def arcErrStat (s : Nat) : Nat := arcB s + 0x210
def arcDirStat (s : Nat) : Nat := arcB s + 0x300
def arcDirProbe (s : Nat) : Nat := arcB s + 0x308
def arcDirData (s i : Nat) : Nat := arcB s + 0x310 + i * 8
def arcFrame (s f : Nat) : Nat := arcB s + 0x80000 + f * 8
def sitePanelId (s : Nat) : Nat := siteB s + 0x800
def hbmStack (s c : Nat) : Nat := hbmB s c
def hbmErr (s c : Nat) : Nat := hbmB s c + 0x10
def hbmReg (s c p : Nat) : Nat := hbmB s c + 0x100 + p * 8
def ckgHalf (s h : Nat) : Nat := ckgB s + h * 8
def ckgStat (s : Nat) : Nat := ckgB s + 0x10
def ckgCycle (s : Nat) : Nat := ckgB s + 0x18
def ldgAcct (s p : Nat) : Nat := ldgB s + 0x200 + p * 16
def ldgFactor (s p : Nat) : Nat := ldgB s + 0x208 + p * 16
def ldgCfg (s p : Nat) : Nat := ldgB s + 0x400 + p * 8
def rngPort (port : Nat) : Nat := ringB (port / 2) + (port % 2) * 8
def qhlStat (port : Nat) : Nat := ringB (port / 2) + 0x10000 + (port % 2) * 8
def nfbStat (r : Nat) : Nat := ringB r + 0x20000
def nfbFlows (r : Nat) : Nat := ringB r + 0x20008
def nfbAdmit (r i : Nat) : Nat := ringB r + 0x20100 + i * 8
def nfbRoute (r d : Nat) : Nat := ringB r + 0x80000 + d * 8
def clkClerk (r i : Nat) : Nat := ringB r + 0x30000 + i * 8
def fusPartId : Nat := fusB
def fusRiserCol : Nat := fusB + 0x8
def fusSec : Nat := fusB + 0x10
def fusRollback : Nat := fusB + 0x18
def fusSerial : Nat := fusB + 0x20
def fusKeyEd (j : Nat) : Nat := fusB + 0x40 + j * 8
def fusKeyMl (j : Nat) : Nat := fusB + 0x70 + j * 8
def fusRepair (s : Nat) : Nat := fusB + 0x100 + s * 8
def libBootStatus : Nat := libB
def libHealth : Nat := libB + 0x18
def libMbTail : Nat := libB + 0x100
def libMbHead : Nat := libB + 0x108
def libMbDone : Nat := libB + 0x110
def libIncTail : Nat := libB + 0x200
def libIncHead : Nat := libB + 0x208
def libRepairCount : Nat := libB + 0x210
def libIncStat : Nat := libB + 0x218
def libIncNotify (i : Nat) : Nat := libB + 0x300 + i * 8
def libCoreMapGen : Nat := libB + 0x8000
def libRiserState : Nat := libB + 0x8008
def libPartState (p : Nat) : Nat := libB + 0x9000 + p * 0x10
def libPartSites (p : Nat) : Nat := libB + 0x9008 + p * 0x10
def libCoreMap (n : Nat) : Nat := libB + 0x10000 + n * 8
/-- Registers of broadcast group `g` (R194). -/
def bcastB (p g : Nat) : Nat := partB p + 0x400000 + g * 0x1000
def coreCtxBase (p : Nat) : Nat := partB p + 0x500000
def coreS2Root (p : Nat) : Nat := partB p + 0x500008
def coreTlbiVa (p : Nat) : Nat := partB p + 0x500010
def coreTlbiStatus (p : Nat) : Nat := partB p + 0x500020
/-- Registers of service ring `k` (R361). -/
def svcB (p k : Nat) : Nat := partB p + 0x600000 + k * 0x100

/-! Registers that a queue and a service ring both have (R361), by their completion ring. -/

def ctB : CrTarget → Nat
  | .que q => queB q
  | .svc p k => svcB p k
def ctOff (t : CrTarget) (que svc : Nat) : Nat :=
  match t with
  | .que q => queB q + que
  | .svc p k => svcB p k + svc
def ctRingBase (t : CrTarget) : Nat := ctB t + 0x8
def ctCrBase (t : CrTarget) : Nat := ctOff t 0x18 0x10
def ctTail (t : CrTarget) : Nat := ctB t + 0x20
def ctHead (t : CrTarget) : Nat := ctB t + 0x28
def ctDone (t : CrTarget) : Nat := ctB t + 0x30
def ctCrTail (t : CrTarget) : Nat := ctB t + 0x38
def ctCrHead (t : CrTarget) : Nat := ctB t + 0x40
def ctStatus (t : CrTarget) : Nat := ctB t + 0x48
def ctNotifyAddr (t : CrTarget) : Nat := ctOff t 0x60 0x18
def ctNotifyCtrl (t : CrTarget) : Nat := ctOff t 0x68 0x60
def ctOvf (t : CrTarget) (j : Nat) : Nat := ctOff t (0x100 + j * 8) (0x68 + j * 8)

/-! ### Reset values -/

/-- A divider of the 12 GHz site root as a step code (R421). -/
def divStep (d : Nat) : Nat := match d with | 8 => 0 | 10 => 1 | 12 => 2 | _ => 3

/-- The reset value of the register kept at `k`: the Reset columns of the register tables. -/
def regReset (k : Nat) : W64 :=
  if coreB 0 ≤ k ∧ k < coreB 256 then
    let off := (k - coreB 0) % 0x200000
    if off = 0x50000 then 0x8000#64
    else if off = 0x50030 then 0x101#64
    else if 0x80000 ≤ off ∧ off < 0x9C000 ∧ off % 0x1000 = 0 then 0x40400#64
    else 0#64
  else if siteB 0 ≤ k ∧ k < siteB 72 then
    let off := (k - siteB 0) % 0x1000000
    if 0x40200 ≤ off ∧ off < 0x40300 ∧ off % 16 = 8 then 0x0000_0100_0100_0100#64
    else if off = 0x30000 ∨ off = 0x30008 then BitVec.ofNat 64 (divStep (nbits Config.fusPartId.toNat 32 8) * 65)
    else 0#64
  else if partB 0 ≤ k ∧ k < partB 16 then
    let off := (k - partB 0) % 0x1000000
    if off = 0x600000 ∨ off = 0x600100 ∨ off = 0x600200 ∨ off = 0x600300 then 0x40400#64 else 0#64
  else if k = fusPartId then Config.fusPartId
  else if k = fusRiserCol then Config.fusRiserCol
  else if k = fusSec then Config.fusSec
  else if k = mgmtB 0 then BitVec.ofNat 64 (nbits Config.fusPartId.toNat 0 8)
  else if k = mgmtB 1 then BitVec.ofNat 64 (nbits Config.fusPartId.toNat 8 8)
  else if k = mgmtB 2 then 0x11#64
  else 0#64

/-! ### Reading and writing fields -/

/-- The register kept at `k`. -/
def State.reg (s : State) (k : Nat) : W64 := tget (regReset k) s.regs k

/-- The register kept at `k` replaced. -/
def State.setReg (s : State) (k : Nat) (v : W64) : State :=
  { s with regs := tset (regReset k) s.regs k v }

/-- A field of a register. -/
def State.fld (s : State) (k lo w : Nat) : Nat := fldOf (s.reg k) lo w

/-- A one-bit field of a register. -/
def State.bit (s : State) (k lo : Nat) : Bool := s.fld k lo 1 = 1

/-- The fused ceiling of CK_CORE as a step code (R1, R2, R421). -/
def State.ceilStep (s : State) : Nat := divStep (s.fld fusPartId 32 8)

/-- A field of a register replaced; the value is taken modulo the field's width. -/
def State.setFld (s : State) (k lo w v : Nat) : State := s.setReg k (putFld (s.reg k) lo w v)

/-- A counter field raised by `n`, holding at its maximum. -/
def State.sat (s : State) (k lo w n : Nat) : State :=
  s.setFld k lo w (min (2 ^ w - 1) (s.fld k lo w + n))

/-- A counter field raised by `n`, wrapping. -/
def State.bump (s : State) (k lo w n : Nat) : State := s.setFld k lo w (s.fld k lo w + n)

/-! ### Sites, rows, cores (R14-R18) -/

/-- Row of a site (R14). -/
def siteRow (s : Nat) : Nat := s / 9
/-- Column of a site (R14). -/
def siteCol (s : Nat) : Nat := s % 9

/-- |a - b|. -/
def natDist (a b : Nat) : Nat := (a - b) + (b - a)

/-- Hop distance of two sites (01_panel, Cost of distance). -/
def hops (a b : Nat) : Nat := natDist (siteRow a) (siteRow b) + natDist (siteCol a) (siteCol b)

/-- Column of the riser of a row (R16). -/
def State.riserCol (s : State) (row : Nat) : Nat := s.fld fusRiserCol (4 * row) 4
/-- Site of the riser of a row (R16). -/
def State.riserSite (s : State) (row : Nat) : Nat := row * 9 + s.riserCol row

/-- Site at the compute position of logical core `c` (R18). -/
def State.posSite (s : State) (c : Nat) : Nat :=
  let row := c / 32
  let j := c / 4 % 8
  row * 9 + (if j < s.riserCol row then j else j + 1)

/-- Current site of a logical core (R19). -/
def State.coreSite (s : State) (c : Nat) : Nat := s.fld (libCoreMap c) 0 7
/-- Current slot of a logical core (R19). -/
def State.coreSlot (s : State) (c : Nat) : Nat := s.fld (libCoreMap c) 8 3
/-- State of a logical core: 0 ACTIVE, 1 MOVING, 2 LOST (R19). -/
def State.coreState (s : State) (c : Nat) : Nat := s.fld (libCoreMap c) 12 4
/-- The map has been built (R19). -/
def State.mapBuilt (s : State) : Bool := decide (s.fld libCoreMapGen 0 32 ≠ 0)

/-- The logical core that stands in a physical slot, if the slot is active. -/
def State.slotCore (s : State) (site slot : Nat) : Option Nat :=
  if s.mapBuilt then
    (List.range 256).find? fun c => s.coreSite c = site && s.coreSlot c = slot && s.coreState c = 0
  else none

/-- Slot number of a logical core among the 432 slots: its place in the window range (R22). -/
def State.coreSlotIx (s : State) (c : Nat) : Nat := s.coreSite c * 6 + s.coreSlot c

/-- Half of a slot: 0 west (slots 0, 1, 3), 1 east (2, 4, 5) (R15). -/
def slotHalf (k : Nat) : Nat := if k = 0 ∨ k = 1 ∨ k = 3 then 0 else 1

/-! ### Partitions (R376, R377, R384) -/

/-- STATE of a partition: 0 FREE, 1 ACTIVE, 2 STOPPED, 3 DRAINED, 4 FLUSHED, 5 SCRUBBING. -/
def State.partState (s : State) (p : Nat) : Nat := s.fld (libPartState p) 0 3
/-- The partition is PARTITION_FATAL (R392). -/
def State.partFatal (s : State) (p : Nat) : Bool := s.bit (libPartState p) 3
/-- Host number that owns a partition. -/
def State.partHost (s : State) (p : Nat) : Nat := s.fld (libPartState p) 4 3

/-- Partition `p` owns site `x`. -/
def State.ownsSite (s : State) (p x : Nat) : Bool :=
  s.partState p ≠ 0 &&
    (if x < 64 then s.bit (libPartSites p) x else s.bit (libPartState p) (8 + (x - 64)))

/-- The partition that owns a site. -/
def State.siteOwner (s : State) (x : Nat) : Option Nat :=
  (List.range 16).find? fun p => s.ownsSite p x

/-- The partition of a logical core (R377). -/
def State.corePart (s : State) (c : Nat) : Option Nat := s.siteOwner (s.posSite c)

/-- The logical cores of a partition (R377). -/
def State.partCores (s : State) (p : Nat) : List Nat :=
  (List.range 256).filter fun c => s.corePart c = some p

/-- The 28 queues of a core. -/
def coreQueues (c : Nat) : List QRef :=
  (List.range 28).map fun i => { core := c, eng := i / 4, q := i % 4 }

/-- The queues of a partition. -/
def State.partQueues (s : State) (p : Nat) : List QRef := (s.partCores p).flatMap coreQueues

/-- ENABLE of a queue. -/
def State.qEnabled (s : State) (q : QRef) : Bool := s.bit (queCfg q) 1
/-- STATE of a queue (QUE_STATUS). -/
def State.qState (s : State) (q : QRef) : Nat := s.fld (queStatus q) 0 4
/-- CID of a queue. -/
def State.qCid (s : State) (q : QRef) : Nat := s.fld (queCfg q) 32 16
/-- The queue runs in single-op mode. -/
def State.qSop (s : State) (q : QRef) : Bool := s.bit (queCfg q) 0

/-- Members of a broadcast group (R194). -/
def State.bcastMembers (s : State) (p g : Nat) : List QRef :=
  (s.partQueues p).filter fun q => s.bit (queBcast q) 0 && s.fld (queBcast q) 1 4 = g

/-- DONE_MIN of a broadcast group (R194): the least DONE among members not LOST, compared as the
signed difference to the BCAST_TAIL last written. -/
def State.doneMin (s : State) (p g : Nat) : Nat :=
  let last := s.fld (bcastB p g) 0 32
  let ds := ((s.bcastMembers p g).filter fun q => s.qState q ≠ 9).map fun q => s.fld (queDone q) 0 32
  let key (d : Nat) : Int := sext (wrap 32 ((d : Int) - last)) 32
  match ds with
  | [] => last
  | d :: r => r.foldl (fun a b => if key b < key a then b else a) d

/-! ### Reading a register -/

/-- Bits of a register that no read shows: fields that only hold a value for the panel's own use. -/
def wcbOpen (s : State) (x : Nat) : Nat := (s.arc.wcb.filter fun w => w.site = x).length

/-- Registers whose value is taken from other state at the read. -/
def State.readReg (s : State) (k : Nat) : W64 :=
  if partB 0 ≤ k ∧ k < partB 16 ∧ 0x400000 ≤ (k - partB 0) % 0x1000000 ∧ (k - partB 0) % 0x1000000 < 0x410000 then
    let p := (k - partB 0) / 0x1000000
    let off := (k - partB 0) % 0x1000000
    let g := (off - 0x400000) / 0x1000
    if off % 0x1000 = 0x8 then BitVec.ofNat 64 (s.doneMin p g)
    else if off % 0x1000 = 0x10 then
      let m := s.bcastMembers p g
      BitVec.ofNat 64 (m.length + ((m.filter fun q => s.qState q = 9).length <<< 16))
    else 0#64
  else if siteB 0 ≤ k ∧ k < siteB 72 then
    let x := (k - siteB 0) / 0x1000000
    let off := (k - siteB 0) % 0x1000000
    if off = 0x30018 then
      if s.pwr.pllLocked then BitVec.ofNat 64 s.cyc + Config.counterOffset x else 0#64
    else if off = 0x20000 then
      putFld (putFld (s.reg k) 24 8 (s.fld (hbmStack x 0) 0 8)) 32 8 (s.fld (hbmStack x 1) 0 8)
    else if off = 0x100208 then putFld (s.reg k) 0 7 (wcbOpen s x)
    else if 0x100100 ≤ off ∧ off < 0x100180 then
      putFld (s.reg k) 8 24
        (s.arc.lines.filter fun l => l.site = x && l.hint = 1 && l.part = (off - 0x100100) / 8).length
    else s.reg k
  else if ringB 0 ≤ k ∧ k < ringB 24 ∧ (k - ringB 0) % 0x100000 = 0x20008 then
    let r := (k - ringB 0) / 0x100000
    BitVec.ofNat 64
      ((s.fab.flows.filter fun e => e.1 / 65536 = r && (match e.2 with | some f => f.state != .closed | none => false)).length
        + ((s.fab.recvs.filter fun e => e.1 / 0x100000000 = r).length <<< 16))
  else s.reg k

/-! ### From an address of the register region to a register -/

/-- A core's own register at offset `off` of its slot. -/
def coreOff (s : State) (p c off : Nat) : Option Nat :=
  if s.corePart c = some p ∧ s.partState p ≠ 0 then some (coreB c + off) else none

/-- The register that an offset of the aperture of partition `p` reaches (R382, R383). -/
def apertureKey (s : State) (p off : Nat) : Option Nat :=
  if off < 0x400000 then
    let c := off / 0x4000
    let w := off % 0x4000
    if w / 0x200 < 28 ∧ w % 0x200 < 0x140 then coreOff s p c (0x80000 + w / 0x200 * 0x1000 + w % 0x200) else none
  else if off < 0x410000 then some (partB p + off)
  else if 0x500000 ≤ off ∧ off < 0x500028 then some (partB p + off)
  else if off = 0x501000 then some (libPartState p)
  else if off = 0x501008 then some (libPartSites p)
  else if 0x600000 ≤ off ∧ off < 0x600400 then some (partB p + off)
  else if 0x700000 ≤ off ∧ off < 0x700000 + 256 * 0x9000 then
    let c := (off - 0x700000) / 0x9000
    let w := (off - 0x700000) % 0x9000
    if w < 0x400 then coreOff s p c w
    else if w < 0x800 then coreOff s p c (0x10000 + (w - 0x400) / 0x100 * 0x10000 + w % 0x100)
    else if w < 0x900 then coreOff s p c (0x50000 + w % 0x100)
    else if w < 0xB00 then coreOff s p c (0x60000 + (w - 0x900) / 0x100 * 0x10000 + w % 0x100)
    else if 0xE00 ≤ w ∧ w < 0xF00 then coreOff s p c (0xC0000 + w % 0x100)
    else if 0x1000 ≤ w then coreOff s p c (0xC1000 + (w - 0x1000))
    else none
  else none

/-- The register that a local physical address of the register region reaches, with the byte offset
cut to its eight bytes; none where no register stands (R3-R5, R7). -/
def regKey (s : State) (pa : Nat) : Option Nat :=
  let a := alignDown pa 8
  if siteB 0 ≤ a ∧ a < siteB 72 then
    let x := (a - siteB 0) / 0x1000000
    let off := (a - siteB 0) % 0x1000000
    if 0x400000 ≤ off ∧ off < 0x1000000 then
      (s.slotCore x ((off - 0x400000) / 0x200000)).map fun c => coreB c + (off - 0x400000) % 0x200000
    else some a
  else if ringB 0 ≤ a ∧ a < ringB 24 then some a
  else if libB ≤ a ∧ a < libB + 0x1000000 then some a
  else if fusB ≤ a ∧ a < fusB + 0x100000 then some a
  else if partB 0 ≤ a ∧ a < partB 16 then apertureKey s ((a - partB 0) / 0x1000000) ((a - partB 0) % 0x1000000)
  else none

end Sys2Proof.Machine
end

