-- ==== Sys2Proof/WellFormed.lean ====
section
/-!
DEFINITION. Which commands name units the panel has: cores, engines, queues, sites, ports, ring dies,
partitions, service rings, mailbox slots (00_scope R3-R5, 01_panel R14, 06_submission R167,
13_ring_links R335, 14_clerk_services R361, 15_partitions R376, 16_mould_and_start R409).
-/

namespace Sys2Proof

/-- A queue of the panel (R167). -/
def QRef.ok (q : QRef) : Bool := decide (q.core < Config.cores) && decide (q.eng < 7) && decide (q.q < 4)

/-- A group slot of the panel (R86). -/
def GRef.ok (g : GRef) : Bool := decide (g.core < Config.cores) && decide (g.slot < 64)

/-- A lane group of the mesh (R311). -/
def LinkRef.ok (l : LinkRef) : Bool := decide (l.site < Config.sites) && decide (l.d < 4) && decide (l.g < 16)

/-- The completion status codes (R11): the panel writes no other. -/
def statusCodes : List Nat :=
  [0x00, 0x01, 0x02, 0x03, 0x10, 0x11, 0x20, 0x21, 0x22, 0x23, 0x24, 0x25, 0x26, 0x27, 0x28, 0x30, 0x31, 0x32]

/-- A coherence message between sites of the panel about a line of HBM (R257, R263). -/
def CMsg.ok (m : CMsg) : Bool :=
  decide (m.req < Config.sites) && decide (m.src < Config.sites) && decide (m.dst < Config.sites)
    && decide (m.part < Config.partitions) && decide (m.line * 512 < 0x0900_0000_0000) && statusCodes.contains m.status
    && decide (m.seq < 256)

/-- An event record for an address of HBM (R182). -/
def EvtOp.ok (e : EvtOp) : Bool := decide (e.addr < 0x0900_0000_0000)

/-- A window request for a window of one of the 432 core slots (R22, R227). -/
def WinReq.ok (r : WinReq) : Bool :=
  decide (r.slot < 432) && decide (r.part < Config.partitions) && decide (r.len ≤ 512)
    && (match r.host with | some p => decide (p < Config.ports) | none => r.q.ok)

/-- A report about sites of the panel, or about the panel as a whole (R436). -/
def Report.ok (r : Report) : Bool :=
  decide (r.cls < 256) && decide (r.sev < 7) && decide (r.site < 128) && decide (r.reporter < 128)

/-- A failure at start of a unit of the panel (R448). -/
def StartFail.ok : StartFail → Bool
  | .stack site ctl => decide (site < Config.sites) && decide (ctl < 2)
  | .lanes l ks => l.ok && ks.all fun k => decide (k < 64)
  | .port k => decide (k < Config.ports)
  | .die site slot => decide (site < Config.sites) && decide (slot < 6)

/-- The queue or the service ring of a CR_HEAD (R197, R361). -/
def CrTarget.ok : CrTarget → Bool
  | .que q => q.ok
  | .svc p k => decide (p < Config.partitions) && decide (k < 4)

/-- A sensor of the panel (R433). -/
def Sensor.ok : Sensor → Bool
  | .cdie site half => decide (site < Config.sites) && decide (half < 2)
  | .bdie site => decide (site < Config.sites)
  | .ringDie r => decide (r < Config.ringDies)
  | .stack site ctl => decide (site < Config.sites) && decide (ctl < 2)

/-- The Folio opcodes (R129, R132-R136, R138, R139, R151-R156, R159). -/
def folioOpcodes : List Nat :=
  [0x00, 0x01, 0x02, 0x03, 0x04, 0x05, 0x08, 0x09, 0x0A, 0x0B, 0x0C, 0x0E, 0x0F, 0x10, 0x11, 0x12,
   0x13, 0x14, 0x15, 0x16, 0x17, 0x18, 0x19, 0x1A, 0x1B, 0x1C, 0x1D, 0x1E, 0x1F, 0x20, 0x21, 0x22,
   0x23, 0x24, 0x25, 0x26, 0x27, 0x28, 0x29, 0x2A, 0x2B, 0x2C, 0x30, 0x31, 0x32, 0x38, 0x39, 0x3A,
   0x3B, 0x40, 0x41, 0x42, 0x43, 0x44, 0x45, 0x46, 0x47, 0x50, 0x51, 0x52, 0x53, 0x54, 0x55, 0x56,
   0x57, 0x60, 0x61, 0x62, 0x63]

/-- The word is one of an opcode, or one of a reserved opcode, which any Folio row may meet (R165). -/
def opcodeOk (w : W64) (opc : Nat) : Bool :=
  decide (w.toNat % 256 = opc) || !folioOpcodes.contains (w.toNat % 256)

/-- The command names units the panel has. -/
def Instr.wf : Instr → Bool
  | .registerWrite _ _ _ => true
  | .cdieFatalError site => decide (site < Config.sites)
  | .cdieHeartbeatTimeout site => decide (site < Config.sites)
  | .substitutionDone row => decide (row < 8)
  | .riserFailure row => decide (row < 8)
  | .matmul q => q.ok
  | .gangWindowClose core gang => decide (core < Config.cores) && decide (gang < 32)
  | .matrixDetection core eng kind => decide (core < Config.cores) && decide (eng < 4) && decide (kind < 3)
  | .lsParityError core eng _ => decide (core < Config.cores) && decide (eng < 5)
  | .engineStopped core eng => decide (core < Config.cores) && decide (eng < 7)
  | .mexClrFlash core me => decide (core < Config.cores) && decide (me < 4)
  | .mexClrDet core me => decide (core < Config.cores) && decide (me < 4)
  | .mexClrPerf core me => decide (core < Config.cores) && decide (me < 4)
  | .launch q => q.ok
  | .blockDispatch core => decide (core < Config.cores)
  | .blockRetire core blk => decide (core < Config.cores) && decide (blk < 16)
  | .meetComplete core blk => decide (core < Config.cores) && decide (blk < 16)
  | .barrierTimeout core blk => decide (core < Config.cores) && decide (blk < 16)
  | .waitcTimeout g => g.ok
  | .copyComplete core blk _ => decide (core < Config.cores) && decide (blk < 16)
  | .teDetection core kind => decide (core < Config.cores) && decide (kind < 3)
  | .l0ParityError core unit => decide (core < Config.cores) && decide (unit < 9)
  | .texClrFlash core => decide (core < Config.cores)
  | .texClrFault core => decide (core < Config.cores)
  | .texClrPerf core => decide (core < Config.cores)
  | .folioNop g w _ => g.ok && opcodeOk w 0x00
  | .quit g w _ => g.ok && opcodeOk w 0x01
  | .jump g w _ => g.ok && opcodeOk w 0x02
  | .call g w _ => g.ok && opcodeOk w 0x03
  | .ret g w _ => g.ok && opcodeOk w 0x04
  | .meet g w _ => g.ok && opcodeOk w 0x05
  | .tally g w _ => g.ok && opcodeOk w 0x08
  | .specr g w _ => g.ok && opcodeOk w 0x09
  | .cinv g w _ => g.ok && opcodeOk w 0x0A
  | .fence g w _ => g.ok && opcodeOk w 0x0B
  | .cpy g w _ => g.ok && opcodeOk w 0x0C
  | .waitc g w _ => g.ok && opcodeOk w 0x0E
  | .rdc g w _ => g.ok && opcodeOk w 0x0F
  | .addw g w _ => g.ok && opcodeOk w 0x10
  | .subw g w _ => g.ok && opcodeOk w 0x11
  | .mulw g w _ => g.ok && opcodeOk w 0x12
  | .mulwh g w _ => g.ok && opcodeOk w 0x13
  | .madw g w _ => g.ok && opcodeOk w 0x14
  | .minw g w _ => g.ok && opcodeOk w 0x15
  | .maxw g w _ => g.ok && opcodeOk w 0x16
  | .andw g w _ => g.ok && opcodeOk w 0x17
  | .orw g w _ => g.ok && opcodeOk w 0x18
  | .xorw g w _ => g.ok && opcodeOk w 0x19
  | .shlw g w _ => g.ok && opcodeOk w 0x1A
  | .shrw g w _ => g.ok && opcodeOk w 0x1B
  | .ones g w _ => g.ok && opcodeOk w 0x1C
  | .lzero g w _ => g.ok && opcodeOk w 0x1D
  | .field g w _ => g.ok && opcodeOk w 0x1E
  | .place g w _ => g.ok && opcodeOk w 0x1F
  | .choose g w _ => g.ok && opcodeOk w 0x20
  | .setr g w _ => g.ok && opcodeOk w 0x21
  | .testw g w _ => g.ok && opcodeOk w 0x22
  | .testf g w _ => g.ok && opcodeOk w 0x23
  | .pcomb g w _ => g.ok && opcodeOk w 0x24
  | .lanex g w _ => g.ok && opcodeOk w 0x25
  | .poll g w _ => g.ok && opcodeOk w 0x26
  | .laneu g w _ => g.ok && opcodeOk w 0x27
  | .addf g w _ => g.ok && opcodeOk w 0x28
  | .mulf g w _ => g.ok && opcodeOk w 0x29
  | .madf g w _ => g.ok && opcodeOk w 0x2A
  | .minf g w _ => g.ok && opcodeOk w 0x2B
  | .maxf g w _ => g.ok && opcodeOk w 0x2C
  | .addb2 g w _ => g.ok && opcodeOk w 0x30
  | .mulb2 g w _ => g.ok && opcodeOk w 0x31
  | .madb2 g w _ => g.ok && opcodeOk w 0x32
  | .recip g w _ => g.ok && opcodeOk w 0x38
  | .rroot g w _ => g.ok && opcodeOk w 0x39
  | .pow2 g w _ => g.ok && opcodeOk w 0x3A
  | .log2 g w _ => g.ok && opcodeOk w 0x3B
  | .wtof g w _ => g.ok && opcodeOk w 0x40
  | .ftow g w _ => g.ok && opcodeOk w 0x41
  | .ftob g w _ => g.ok && opcodeOk w 0x42
  | .btof g w _ => g.ok && opcodeOk w 0x43
  | .cvte g w _ => g.ok && opcodeOk w 0x44
  | .dcde g w _ => g.ok && opcodeOk w 0x45
  | .qblk g w _ => g.ok && opcodeOk w 0x46
  | .dqblk g w _ => g.ok && opcodeOk w 0x47
  | .ldm g w _ => g.ok && opcodeOk w 0x50
  | .ldro g w _ => g.ok && opcodeOk w 0x51
  | .ldls g w _ => g.ok && opcodeOk w 0x52
  | .stm g w _ => g.ok && opcodeOk w 0x53
  | .stls g w _ => g.ok && opcodeOk w 0x54
  | .mopn g w _ => g.ok && opcodeOk w 0x55
  | .mopr g w _ => g.ok && opcodeOk w 0x56
  | .lopr g w _ => g.ok && opcodeOk w 0x57
  | .gmac g w _ => g.ok && opcodeOk w 0x60
  | .gmclr g w _ => g.ok && opcodeOk w 0x61
  | .gmget g w _ => g.ok && opcodeOk w 0x62
  | .gmput g w _ => g.ok && opcodeOk w 0x63
  | .queTailDoorbell q _ => q.ok
  | .queSop15Doorbell q _ => q.ok
  | .bcastTail p grp _ => decide (p < Config.partitions) && decide (grp < 16)
  | .bcastSop15 p grp _ => decide (p < Config.partitions) && decide (grp < 16)
  | .queCfgWrite q _ => q.ok
  | .queBcastWrite q _ => q.ok
  | .queResume q => q.ok
  | .queResumeSkip q => q.ok
  | .queAbort q submit index => q.ok && decide (submit < 2 ^ 32) && decide (index < 2 ^ 16)
  | .queAbortAll q => q.ok
  | .abortReachesEngine q => q.ok
  | .submissionEntryReturn q => q.ok
  | .descriptorBlockReturn q => q.ok
  | .commandReady q => q.ok
  | .waitTimeout q => q.ok
  | .indirectReadReturn q => q.ok
  | .eventRecord e => e.ok
  | .eventWake q => q.ok
  | .armDelivery q id => q.ok && decide (id < 256)
  | .nop q => q.ok
  | .spawn q => q.ok
  | .spawnRoomGranted q => q.ok
  | .spawnRoomTimeout q => q.ok
  | .callPattern q => q.ok
  | .pourBlockReturn q => q.ok
  | .pourLockTimeout q => q.ok
  | .patch q => q.ok
  | .patchLiveDrained q => q.ok
  | .patchWaitTimeout q => q.ok
  | .notifyHoldoffExpiry t => t.ok
  | .runCommitPoint q => q.ok
  | .discardComplete _ => true
  | .reservationGranted q => q.ok
  | .tentativeSetWaitExpiry q => q.ok
  | .tentativeParityError _ _ _ => true
  | .pinnedOverrun q => q.ok
  | .calendarWindowBoundary core => decide (core < Config.cores)
  | .maintBegin core => decide (core < Config.cores)
  | .commandWatchdog q => q.ok
  | .collectiveArrival q => q.ok
  | .collectivePrepared q => q.ok
  | .collectiveKill q => q.ok
  | .windowRequest r => r.ok
  | .wcbAgeExpiry site _ => decide (site < Config.sites)
  | .wcbParityError site _ => decide (site < Config.sites)
  | .archiveParityError site _ => decide (site < Config.sites)
  | .hbmTempPoll site ctl _ => decide (site < Config.sites) && decide (ctl < 2)
  | .scrubRead _ _ _ => true
  | .copy q => q.ok
  | .fill q => q.ok
  | .gather q => q.ok
  | .scatter q => q.ok
  | .prefetch q => q.ok
  | .flushRange q => q.ok
  | .allreduce q => q.ok
  | .reduceScatter q => q.ok
  | .allgather q => q.ok
  | .alltoall q => q.ok
  | .rdS m => m.ok
  | .own m => m.ok
  | .upgr m => m.ok
  | .atom m => m.ok
  | .flush m => m.ok
  | .wb m => m.ok
  | .preWb m => m.ok
  | .cmt m => m.ok
  | .log m => m.ok
  | .mir m => m.ok
  | .snpS m => m.ok
  | .snpX m => m.ok
  | .inv m => m.ok
  | .recall m => m.ok
  | .clean m => m.ok
  | .data m => m.ok
  | .grant m => m.ok
  | .ackInv m => m.ok
  | .miss m => m.ok
  | .fwdAck m => m.ok
  | .rclData m => m.ok
  | .wbAck m => m.ok
  | .cmtAck m => m.ok
  | .mirAck m => m.ok
  | .atomRsp m => m.ok
  | .dirProbe site _ => decide (site < Config.sites)
  | .tlbiRange p cid => decide (p < Config.partitions) && decide (cid < 2 ^ 16)
  | .tlbiContext p cid => decide (p < Config.partitions) && decide (cid < 2 ^ 16)
  | .tlbiPartition p => decide (p < Config.partitions)
  | .tlbiComplete p => decide (p < Config.partitions)
  | .coreCtxBaseWrite p _ => decide (p < Config.partitions)
  | .meshFlit l _ => l.ok
  | .idleFlit l _ => l.ok
  | .idleInsert l => l.ok
  | .lanemap l lane => l.ok && decide (lane < 64)
  | .groupTestDone l _ => l.ok
  | .pastReplayError l _ => l.ok
  | .reducePacket site out _ => decide (site < Config.sites) && decide (out < 5)
  | .combineWindowExpiry site out _ => decide (site < Config.sites) && decide (out < 5)
  | .mopnAck site _ => decide (site < Config.sites)
  | .ringMsgFlit port _ => decide (port < Config.ports)
  | .ringLinkFlit port _ => decide (port < Config.ports)
  | .ringIdleFlit port _ => decide (port < Config.ports)
  | .mrd port _ => decide (port < Config.ports)
  | .mwr port _ _ => decide (port < Config.ports)
  | .msg port _ _ => decide (port < Config.ports)
  | .cpl port _ _ => decide (port < Config.ports)
  | .registerReadDeadline port _ => decide (port < Config.ports)
  | .memoryReadDeadline port _ => decide (port < Config.ports)
  | .hostAccessTimeout port _ => decide (port < Config.ports)
  | .openFlow die _ _ _ => decide (die < Config.ringDies)
  | .openAck die _ _ _ => decide (die < Config.ringDies)
  | .ack die _ _ _ => decide (die < Config.ringDies)
  | .close die _ _ _ => decide (die < Config.ringDies)
  | .rd die _ _ _ => decide (die < Config.ringDies)
  | .wr die _ _ _ => decide (die < Config.ringDies)
  | .atOp die _ _ _ => decide (die < Config.ringDies)
  | .rdRsp die _ _ _ => decide (die < Config.ringDies)
  | .wrDone die _ _ _ => decide (die < Config.ringDies)
  | .atRsp die _ _ _ => decide (die < Config.ringDies)
  | .objGet die _ _ _ => decide (die < Config.ringDies)
  | .objPut die _ _ _ => decide (die < Config.ringDies)
  | .objData die _ _ _ => decide (die < Config.ringDies)
  | .objEnd die _ _ _ => decide (die < Config.ringDies)
  | .retransmitTimer die _ => decide (die < Config.ringDies)
  | .flowGiveup die _ => decide (die < Config.ringDies)
  | .ackDelayExpiry die _ _ => decide (die < Config.ringDies)
  | .flowIdleExpiry die _ => decide (die < Config.ringDies)
  | .svcTail p k _ => decide (p < Config.partitions) && decide (k < 4)
  | .svcCfgWrite p k _ => decide (p < Config.partitions) && decide (k < 4)
  | .svcResume p k => decide (p < Config.partitions) && decide (k < 4)
  | .svcAbort p k submit => decide (p < Config.partitions) && decide (k < 4) && decide (submit < 2 ^ 32)
  | .svcAbortAll p k => decide (p < Config.partitions) && decide (k < 4)
  | .svcWaitTimeout p k => decide (p < Config.partitions) && decide (k < 4)
  | .fAllreduce p k => decide (p < Config.partitions) && decide (k < 4)
  | .fReduceScatter p k => decide (p < Config.partitions) && decide (k < 4)
  | .fAllgather p k => decide (p < Config.partitions) && decide (k < 4)
  | .fAlltoall p k => decide (p < Config.partitions) && decide (k < 4)
  | .checkpoint p k => decide (p < Config.partitions) && decide (k < 4)
  | .stage p k => decide (p < Config.partitions) && decide (k < 4)
  | .stageBatchStart p k submit => decide (p < Config.partitions) && decide (k < 4) && decide (submit < 2 ^ 32)
  | .stageBatchLanded p k submit _ => decide (p < Config.partitions) && decide (k < 4) && decide (submit < 2 ^ 32)
  | .partCreate slot => decide (slot < 256)
  | .partGrow slot => decide (slot < 256)
  | .partSetHost slot => decide (slot < 256)
  | .frameAssign slot => decide (slot < 256)
  | .partRegulate slot => decide (slot < 256)
  | .partStop slot => decide (slot < 256)
  | .partDrain slot => decide (slot < 256)
  | .partDrainTimeout p => decide (p < Config.partitions)
  | .partDrained p => decide (p < Config.partitions)
  | .partFlush slot => decide (slot < 256)
  | .partRelease slot => decide (slot < 256)
  | .partScrubDone p => decide (p < Config.partitions)
  | .partResume slot => decide (slot < 256)
  | .ping slot => decide (slot < 256)
  | .rollbackAdvance slot => decide (slot < 256)
  | .attest slot => decide (slot < 256)
  | .s2RootSet slot => decide (slot < 256)
  | .s2Invalidate slot => decide (slot < 256)
  | .routeSet slot => decide (slot < 256)
  | .admitSet slot => decide (slot < 256)
  | .mailboxBadCode slot => decide (slot < 256)
  | .loadWindowWrite port _ _ => decide (port < Config.ports)
  | .loadLib port => decide (port < Config.ports)
  | .loadMould port => decide (port < Config.ports)
  | .imageVerified => true
  | .startReady fails => fails.all StartFail.ok
  | .supervisorRestart => true
  | .libRestartDone => true
  | .incidentReport r => r.ok
  | .echoWindowEnd site r => decide (site < Config.sites) && r.ok
  | .pwrEnRise => true
  | .inputEntersRange => true
  | .powerDown _ => true
  | .panelResetRise fails => fails.all StartFail.ok
  | .panelResetFall => true
  | .refclkLoss => true
  | .refclkReturn => true
  | .refclkLossTimeout => true
  | .pllLockLoss site => decide (site < Config.sites)
  | .tabCheck currents => decide (currents.length = 12)
  | .ckgHalfWrite site half _ => decide (site < Config.sites) && decide (half < 2)
  | .stepChangeDone site half => decide (site < Config.sites) && decide (half < 2)
  | .envelopeTick _ => true
  | .thermalPoll site half readings => decide (site < Config.sites) && decide (half < 2) && decide (readings.length = 8)
  | .thermalTrip sensor _ => sensor.ok
  | .ledgerFrameBoundary site p => decide (site < Config.sites) && decide (p < Config.partitions)
  | .siteHeartbeatTimeout site d => decide (site < Config.sites) && decide (d < 4)
  | .lossReport agent reporter subject => decide (agent < Config.sites) && decide (reporter < Config.sites) && decide (subject < Config.sites)
  | .bDieFatalError site => decide (site < Config.sites)
  | .siteLossReroute site => decide (site < Config.sites)
  | .coreSelftestReq core => decide (core < Config.cores)
  | .selftestPartDone core _ => decide (core < Config.cores)
  | .presenceOpen which => decide (which < 2)
  | .standbyUp _ _ => true
  | .smbusWrite cmd _ _ => decide (cmd < 256)
  | .tripClr => true
  | .smbusSclTimeout => true
  | .idcode => true
  | .bypass => true
  | .extest => true
  | .samplePreload => true
  | .trst _ => true
  | .queCrHeadWrite t _ => t.ok
  | .libMbTailWrite _ => true
  | .libIncHeadWrite _ => true
  | .siteHeartbeat site d => decide (site < Config.sites) && decide (d < 4)
  | .cdieHeartbeat site => decide (site < Config.sites)
  | .librarianHeartbeat => true
  | .standbyLoss => true
  | .pinnedWritesDone q => q.ok

end Sys2Proof
end

