-- ==== Sys2Proof/Machine/Ops.lean ====
section
/-!
DEFINITION. The operations that the meanings share: the parts of State, incidents (18_faults_and_recovery
R436, R437), memory and its poison (08_archive_and_memory R248), the lines a slice holds (09_coherence
R258), packets to hosts (13_ring_links R344) and notifications (06_submission R199).
-/

namespace Sys2Proof.Machine

/-- A command that names units the panel has takes effect; another stops. -/
def carryOut (ok : Bool) (t : State) : Host.Outcome State Fault Refusal :=
  if ok then .next t else .fault .noSuchCommand

/-! ### Parts of State -/

def State.q (s : State) (q : QRef) : QueX := tget {} s.queues (qKey q)
def State.setQ (s : State) (q : QRef) (x : QueX) : State := { s with queues := tset {} s.queues (qKey q) x }
def State.modQ (s : State) (q : QRef) (f : QueX → QueX) : State := s.setQ q (f (s.q q))
def State.eng (s : State) (c e : Nat) : EngX := tget {} s.engs (engKey c e)
def State.setEng (s : State) (c e : Nat) (x : EngX) : State := { s with engs := tset {} s.engs (engKey c e) x }
def State.te (s : State) (c : Nat) : TeX := tget {} s.tes c
def State.setTe (s : State) (c : Nat) (x : TeX) : State := { s with tes := tset {} s.tes c x }
def State.coreX (s : State) (c : Nat) : CoreX := tget {} s.cores c
def State.setCoreX (s : State) (c : Nat) (x : CoreX) : State := { s with cores := tset {} s.cores c x }
def State.run? (s : State) (id : Nat) : Option Run := tget none s.runs id
def State.setRun (s : State) (id : Nat) (r : Option Run) : State := { s with runs := tset none s.runs id r }
def State.modRun (s : State) (id : Nat) (f : Run → Run) : State :=
  match s.run? id with
  | some r => s.setRun id (some (f r))
  | none => s
def State.part (s : State) (p : Nat) : PartX := tget {} s.parts p
def State.setPart (s : State) (p : Nat) (x : PartX) : State := { s with parts := tset {} s.parts p x }
def State.svcX (s : State) (p k : Nat) : SvcX := tget {} s.svc.rings (p * 4 + k)
def State.setSvcX (s : State) (p k : Nat) (x : SvcX) : State :=
  { s with svc := { s.svc with rings := tset {} s.svc.rings (p * 4 + k) x } }
def State.link (s : State) (k : Nat) : LinkX := tget {} s.mesh.links k
def State.setLink (s : State) (k : Nat) (x : LinkX) : State :=
  { s with mesh := { s.mesh with links := tset {} s.mesh.links k x } }
def State.withArc (s : State) (f : Archive → Archive) : State := { s with arc := f s.arc }

/-! ### Messages on the mesh (R262, R263, R316, R317) -/

/-- The channel of a message (R262, R263): 0 RSP, 1 FWD, 2 MIRROR, 3 WBK, 4 REQ. -/
def chanOf (t : MsgTy) : Nat :=
  match t with
  | .rdS => 4 | .own => 4 | .upgr => 4 | .atom => 4 | .flush => 4
  | .wb => 3 | .preWb => 3 | .cmt => 3 | .log => 3
  | .mir => 2
  | .snpS => 1 | .snpX => 1 | .inv => 1 | .recall => 1 | .clean => 1
  | .data => 0 | .grant => 0 | .ackInv => 0 | .miss => 0 | .fwdAck => 0 | .rclData => 0 | .wbAck => 0 | .cmtAck => 0 | .mirAck => 0
  | .atomRsp => 0

/-- The messages with sectors (R316). -/
def MsgTy.carries (t : MsgTy) : Bool := [MsgTy.data, .wb, .preWb, .cmt, .rclData, .mir].contains t

/-- The kinds of traffic on the mesh (R316): a message or request on a channel with or without sectors or data, an
interrupt, debug, and a REDUCE packet. -/
inductive Traffic where
  | message (vc : Nat) (data : Bool)
  | interrupt
  | debug
  | reduce
  deriving DecidableEq, Repr

/-- The roles of a lane group, as LNK_ROLE codes them (R315). -/
def roleBulk : Nat := 0
def roleReduce : Nat := 1
def roleCtrl : Nat := 2

/-- The role and the virtual channel that a header travels on (R316). -/
def Traffic.header : Traffic → Nat × Nat
  | .message vc _ => (roleCtrl, vc)
  | .interrupt => (roleCtrl, 5)
  | .debug => (roleCtrl, 6)
  | .reduce => (roleReduce, 7)
/-- The role and the virtual channel that its payload travels on. -/
def Traffic.payload : Traffic → Option (Nat × Nat)
  | .message vc true => some (roleBulk, vc)
  | .reduce => some (roleReduce, 7)
  | _ => none

/-- The traffic that a coherence message is. -/
def msgTraffic (t : MsgTy) (m : CMsg) : Traffic := .message (chanOf t) (t.carries && decide (m.sectors ≠ 0))

/-- The header and the sectors of a message, where it leaves (R317). -/
def msgParcels (t : MsgTy) (m : CMsg) : List Parcel :=
  let p (pay : Bool) (r : Nat × Nat) (n : Nat) : Parcel :=
    { pay := pay, role := r.1, vc := r.2, src := m.src, dst := m.dst, seq := m.seq, at_ := m.src, units := n }
  p false (msgTraffic t m).header (Config.headerUnits (chanOf t) + 1)
    :: ((msgTraffic t m).payload.map fun r => p true r (8 * popcount 4 m.sectors)).toList
/-- A parcel is the header or the sectors of a message. -/
def Parcel.isOf (p : Parcel) (t : MsgTy) (m : CMsg) : Bool :=
  p.vc == chanOf t && p.src == m.src && p.dst == m.dst && p.seq == m.seq % 256

/-- Key of the sequence numbers of a channel from one site to another. -/
def seqKey (vc src dst : Nat) : Nat := (src * 128 + dst) * 8 + vc

/-- Sends a message, under the next sequence number of its channel and sites. -/
def State.send (s : State) (t : MsgTy) (m : CMsg) : State :=
  let k := seqKey (chanOf t) m.src m.dst
  let m := { m with seq := tget 0 s.net.seqs k }
  { s with net := { s.net with
      msgs := s.net.msgs ++ [(t, m)]
      seqs := tset 0 s.net.seqs k ((m.seq + 1) % 256)
      parcels := s.net.parcels ++ msgParcels t m } }

/-- A free choice; the counter of free values moves on. -/
def State.freeBit (s : State) : State × Bool := ({ s with free := s.free + 1 }, Config.freeBool s.free)
/-- A free number. -/
def State.freeNum (s : State) : State × Nat := ({ s with free := s.free + 1 }, Config.freeNat s.free)

/-- A field that changes to 1. -/
def State.setBit (s : State) (k lo : Nat) (b : Bool) : State := s.setFld k lo 1 (b2n b)

/-- The site's cycle count (R9, R424). -/
def State.siteCycle (s : State) (x : Nat) : W64 := s.readReg (ckgCycle x)

/-- The last reading of a sensor, in the standby domain (R434, R467). -/
def sensorKey : Sensor → Nat
  | .cdie site half => 2 * site + half
  | .bdie site => 200 + site
  | .ringDie r => 300 + r
  | .stack site ctl => 400 + 2 * site + ctl
def State.setTemp (s : State) (k t : Nat) : State := { s with pwr := { s.pwr with temps := tset 0 s.pwr.temps k t } }

/-- A site has been lost (R442). -/
def State.isLost (s : State) (x : Nat) : Bool := s.mesh.lost.contains x

/-! ### Incidents (R436, R437) -/

/-- Two reports carry the same signature. -/
def sameSig (a b : Report) : Bool :=
  a.cls == b.cls && a.site == b.site && a.unit == b.unit && a.status == b.status

/-- Windows that a site agent has open: each stands for a first report it has sent within the last 1 ms. -/
def State.errOpen (s : State) (x : Nat) : Nat := (s.errs.filter fun e => e.1 == x).length

/-- A site agent sends a first report. -/
def State.sendReport (s : State) (r : Report) : State :=
  let s := s.sat (errB r.reporter) 0 24 1
  { s with errs := s.errs ++ [(r.reporter, r, 0)], net := { s.net with reports := s.net.reports ++ [r] } }

/-- A site agent's handling of an event of the class table: a signature it sent less than 1 ms ago
raises that signature's echo count, another report is sent to the Librarian. With 256 windows open a
CORRECTED report is dropped and another waits. -/
def State.report (s : State) (r : Report) : State :=
  let r := { r with time := s.siteCycle r.reporter }
  match s.errs.find? fun e => e.1 == r.reporter && sameSig e.2.1 r with
  | some _ =>
    let s := s.sat (errB r.reporter) 24 24 1
    { s with errs := s.errs.map fun e =>
        if e.1 == r.reporter && sameSig e.2.1 r then (e.1, e.2.1, e.2.2 + 1) else e }
  | none =>
    if s.errOpen r.reporter < 256 then s.sendReport r
    else if r.sev = 0 then s.sat (errB r.reporter) 48 16 1
    else { s with errWait := s.errWait ++ [r] }

/-- Severities (R12). -/
def sevCorrected : Nat := 0
def sevRecomputed : Nat := 1
def sevPoison : Nat := 2
def sevContext : Nat := 3
def sevPartition : Nat := 4
def sevSite : Nat := 5
def sevPanel : Nat := 6

/-! ### Memory -/

/-- A table of `n` places for the entries that `p` picks takes one more: in place of the `k`-th of them where it is full
(DESIGN CHOICE, log entry 123: `k` is free). -/
def capAdd [BEq α] (n k : Nat) (p : α → Bool) (l : List α) (x : α) : List α :=
  let mine := l.filter p
  (if mine.length < n then l
   else match mine[k % n]? with
     | some v => l.erase v
     | none => l) ++ [x]

/-- Panel HBM (R257, R294). -/
def isHbm (pa : Nat) : Bool := decide (pa < 0x0900_0000_0000)
/-- A local-store window (R22, R294). -/
def isWin (pa : Nat) : Bool := decide (0x1000_0000_0000 ≤ pa) && decide (pa < 0x1003_6000_0000)
/-- The register region (R294). -/
def isRegion (pa : Nat) : Bool := decide (0x1800_0000_0000 ≤ pa) && decide (pa < 0x1900_0000_0000)
/-- A host window (R294). -/
def isHostWin (pa : Nat) : Bool := decide (0x2000_0000_0000 ≤ pa) && decide (pa < 0x4000_0000_0000)
/-- Host of a host-window address. -/
def winHost (pa : Nat) : Nat := (pa - 0x2000_0000_0000) / 0x0400_0000_0000
/-- Home site of an HBM address (R23). -/
def homeOf (pa : Nat) : Nat := pa / 0x20_0000_0000
/-- Stack of an HBM address (R240). -/
def stackOf (pa : Nat) : Nat := pa / 0x10_0000_0000 % 2
/-- The bytes of an address range. -/
def addrs (pa n : Nat) : List Nat := (List.range n).map (pa + ·)

/-- A byte of memory's coherent image; reset leaves 0 in every byte (R406). -/
def Archive.rd (a : Archive) (pa : Nat) : W8 := tget 0#8 a.mem pa
def Archive.wr (a : Archive) (pa : Nat) (b : W8) : Archive := { a with mem := tset 0#8 a.mem pa b }
def Archive.rdHbm (a : Archive) (pa : Nat) : W8 := tget 0#8 a.hbm pa
def Archive.wrHbm (a : Archive) (pa : Nat) (b : W8) : Archive := { a with hbm := tset 0#8 a.hbm pa b }
def Archive.rdLs (a : Archive) (k : Nat) : W8 := tget 0#8 a.ls k
def Archive.wrLs (a : Archive) (k : Nat) (b : W8) : Archive := { a with ls := tset 0#8 a.ls k b }

/-- The canonical form of the byte memories. -/
def Archive.wf (a : Archive) : Bool := twf 0#8 a.mem && twf 0#8 a.hbm && twf 0#8 a.ls

def State.rdMem (s : State) (pa n : Nat) : Bytes := (addrs pa n).map s.arc.rd
/-- A little-endian number in memory (R8). -/
def State.rdNum (s : State) (pa n : Nat) : Nat := ofBytes (s.rdMem pa n)

/-- Writes bytes from an address up. -/
def Archive.wrList (a : Archive) : Nat → Bytes → Archive
  | _, [] => a
  | pa, b :: r => Archive.wrList (a.wr pa b) (pa + 1) r
def Archive.wrLsList (a : Archive) : Nat → Bytes → Archive
  | _, [] => a
  | k, b :: r => Archive.wrLsList (a.wrLs k b) (k + 1) r

/-- Key of a byte of a core slot's pool. -/
def lsKey (slotIx off : Nat) : Nat := slotIx * 0x200_0000 + off

/-- Sectors that a byte range overlaps. -/
def sectorsOf (pa n : Nat) : List Nat :=
  if n = 0 then [] else (List.range ((pa + n - 1) / 128 - pa / 128 + 1)).map (pa / 128 + ·)
/-- Sectors that a byte range covers whole. -/
def fullSectors (pa n : Nat) : List Nat := (sectorsOf pa n).filter fun x => decide (pa ≤ x * 128) && decide (x * 128 + 128 ≤ pa + n)
/-- Lines that a byte range overlaps. -/
def linesOf (pa n : Nat) : List Nat :=
  if n = 0 then [] else (List.range ((pa + n - 1) / 512 - pa / 512 + 1)).map (pa / 512 + ·)
/-- The mask of the sectors of a line that a byte range overlaps. -/
def secMask (line pa n : Nat) : Nat :=
  ((sectorsOf pa n).filter fun x => x / 4 = line).foldl (fun a x => a ||| (1 <<< (x % 4))) 0

/-- The mask of the bytes of a line that a byte range covers. -/
def byteMask (line pa n : Nat) : BitVec 512 :=
  let lo := max (line * 512) pa - line * 512
  let hi := min (line * 512 + 512) (pa + n) - line * 512
  if pa + n ≤ line * 512 then 0#512 else BitVec.ofNat 512 ((1 <<< (hi - lo) - 1) <<< lo)
/-- The mask of the bytes of some sectors of a line. -/
def secBits (sectors : Nat) : BitVec 512 :=
  BitVec.ofNat 512 ((List.range 4).foldl (fun a k => if nbit sectors k then a ||| ((1 <<< 128 - 1) <<< (128 * k)) else a) 0)
/-- The sectors that hold a byte of a mask. -/
def secsOf (m : BitVec 512) : Nat :=
  (List.range 4).foldl (fun a k => if fldOf m (128 * k) 128 = 0 then a else a ||| (1 <<< k)) 0
/-- The sectors that a mask covers whole. -/
def fullSecs (m : BitVec 512) : Nat :=
  (List.range 4).foldl (fun a k => if fldOf m (128 * k) 128 = 2 ^ 128 - 1 then a ||| (1 <<< k) else a) 0

/-- Sends the wakes of watches whose event word a write touched (R183). -/
def State.wakeWatches (s : State) (pa n : Nat) : State :=
  let hit := s.net.watches.filter fun w => decide (w.1 < pa + n) && decide (pa < w.1 + 8)
  { s with net := { s.net with wakes := s.net.wakes ++ (hit.map (·.2)).filter fun q => !s.net.wakes.contains q } }

/-! ### Former values of a launch (R110-R112) -/

/-- The former values of some bytes are kept while a launch runs: those of one write. -/
def TeX.note (t : TeX) (old : List (Nat × W8)) : TeX :=
  if t.launch.isSome then { t with now := t.now + 1, hist := t.hist ++ old.map fun e => (t.now + 1, e.1, e.2) } else t
/-- The value that a byte had after a write. -/
def TeX.valueAt (t : TeX) (time pa : Nat) (now : W8) : W8 :=
  ((t.hist.find? fun e => e.2.1 = pa && decide (time < e.1)).map (·.2.2)).getD now
/-- The Carrel holds nothing any more. -/
def TeX.dropCarrel (t : TeX) : TeX := { t with carrel := [] }
/-- The L0 of a pipe holds nothing any more. -/
def TeX.dropL0 (t : TeX) (pipe : Nat) : TeX := { t with l0 := t.l0.filter fun e => e.1 % 8 ≠ pipe }

/-- The former values of the bytes of one write are kept by every running launch that `p` picks. -/
def State.noteOld (s : State) (p : Nat → Bool) (old : List (Nat × W8)) : State :=
  { s with tes := s.tes.map fun e => if p e.1 && e.2.launch.isSome then (e.1, e.2.note old) else e }

/-- The bytes of a list as a table from an address up. -/
def tableOf (pa : Nat) (bs : Bytes) : List (Nat × W8) := bs.zipIdx.map fun e => (pa + e.2, e.1)

/-- Bytes merged into the coherent image of panel HBM; watches of the words written send their wakes (R183). -/
def State.mergeBytes (s : State) (pa : Nat) (bs : Bytes) : State :=
  let s := s.noteOld (fun _ => true) (tableOf pa (s.rdMem pa bs.length))
  let s := s.withArc fun a => a.wrList pa bs
  s.wakeWatches pa bs.length

/-! ### Lines of a slice, and poison (R231, R241, R248, R258) -/

/-- The line a slice holds, if any. -/
def State.line? (s : State) (site line : Nat) : Option ALine :=
  s.arc.lines.find? fun l => l.site == site && l.line == line

/-- The poisoned sectors of a line in its stack's base die (DEDUCED, log entry 13). -/
def State.baseMarks (s : State) (line : Nat) : Nat := tget 0 s.arc.marks line
def State.setMarks (s : State) (line m : Nat) : State := s.withArc fun a => { a with marks := tset 0 a.marks line m }

/-- A sector of which a slice holds bytes is poisoned: by its own bit, and by the base die's mark while it is not
held whole. -/
def ALine.poisoned (l : ALine) (marks k : Nat) : Bool := nbit l.poison k || (!nbit l.valid k && nbit marks k)

/-- The committed value of a sector is poisoned: at the slice or in the eviction buffer that holds it dirty, or in the
stacks. -/
def State.ownPoison (s : State) (line k : Nat) : Bool :=
  let dirty (l : ALine) : Bool := l.line == line && nbit l.dirty k && (l.st == .M || l.st == .O)
  match (s.arc.lines ++ s.arc.evict).find? dirty with
  | some l => l.poisoned (s.baseMarks line) k
  | none => nbit (s.baseMarks line) k

/-- A sector is poisoned for a reader at a site: in its slice's tags where the slice holds it (R248). -/
def State.secPoison (s : State) (site sec : Nat) : Bool :=
  match s.line? site (sec / 4) with
  | some l => if nbit (l.valid ||| l.dirty) (sec % 4) then l.poisoned (s.baseMarks (sec / 4)) (sec % 4) else s.ownPoison (sec / 4) (sec % 4)
  | none => s.ownPoison (sec / 4) (sec % 4)

/-- The mask of the poisoned sectors of a line, as its home grants it. -/
def State.poisonMask (s : State) (line : Nat) : Nat :=
  ((List.range 4).filter fun k => s.ownPoison line k).foldl (fun a k => a ||| (1 <<< k)) 0

/-- Changes a held line in place. -/
def Archive.modLine (a : Archive) (site line : Nat) (f : ALine → ALine) : Archive :=
  { a with lines := a.lines.map fun l => if l.site == site && l.line == line then f l else l }

/-- Poisons a sector in the tags of a slice, and counts it there (R248). -/
def State.poisonTag (s : State) (site sec : Nat) : State :=
  match s.line? site (sec / 4) with
  | some l =>
    if nbit l.poison (sec % 4) then s
    else (s.withArc fun a => a.modLine site (sec / 4) fun l => { l with poison := l.poison ||| (1 <<< (sec % 4)) }).sat (arcErrStat site) 16 16 1
  | none => s

/-- Poisons a sector in the base die of its stack, and counts it at its home (R247, R248). -/
def State.poisonMark (s : State) (sec : Nat) : State :=
  if nbit (s.baseMarks (sec / 4)) (sec % 4) then s
  else (s.setMarks (sec / 4) (s.baseMarks (sec / 4) ||| (1 <<< (sec % 4)))).sat (arcErrStat (homeOf (sec * 128))) 16 16 1

/-- Poisons the committed value of a sector at its home: in the home's copy, or in the base die (R248). -/
def State.poisonSector (s : State) (sec : Nat) : State :=
  match s.line? (homeOf (sec * 128)) (sec / 4) with
  | some l => if nbit (l.valid ||| l.dirty) (sec % 4) then s.poisonTag (homeOf (sec * 128)) sec else s.poisonMark sec
  | none => s.poisonMark sec

/-- The lines without one of them. -/
def Archive.dropLine (a : Archive) (site line : Nat) : Archive :=
  { a with lines := a.lines.filter fun l => !(l.site == site && l.line == line) }

/-- A held line put back as the most recently used. -/
def Archive.putLine (a : Archive) (l : ALine) : Archive :=
  { Archive.dropLine a l.site l.line with lines := l :: (Archive.dropLine a l.site l.line).lines }

/-- Bytes of a mask written into a line: a sector covered whole is held and loses its poison, one written in part keeps
it (R232, R248). `marks` are the base die's marks of the line. -/
def ALine.wrote (l : ALine) (m : BitVec 512) (marks part : Nat) : ALine :=
  let inherit := marks &&& secsOf m &&& (15 - l.valid % 16)
  { l with mask := l.mask ||| m, fresh := l.fresh ||| m, valid := l.valid ||| fullSecs (l.mask ||| m), dirty := l.dirty ||| secsOf m
           poison := (l.poison ||| inherit) &&& (15 - fullSecs m), part := part }

/-- The bytes of a mask are no longer dirty: a sector held by its written bytes alone is held no more. -/
def ALine.cleaned (l : ALine) (m : BitVec 512) : ALine :=
  let k := l.mask &&& ~~~m
  { l with mask := k, dirty := secsOf k, poison := l.poison &&& (l.valid ||| secsOf k) }

/-- The sectors of a line that a read of the bytes of a mask finds neither whole nor written. -/
def ALine.lacks (l : ALine) (need : BitVec 512) : Nat := secsOf (need &&& ~~~l.mask) &&& (15 - l.valid % 16)

/-! ### The stacks (R241, R243, R247, R250) -/

/-- The check of a line's bytes in the stacks: CRC-32C over them and address bits [36:9] (R241). -/
def Archive.checkOf (a : Archive) (line : Nat) : Nat :=
  crc32c ((addrs (line * 512) 512).map a.rdHbm ++ toBytes 4 (line % 2 ^ 28))
/-- The check that the base die has stored for a line. -/
def Archive.stored (a : Archive) (line : Nat) : Nat := (tget none a.checks line).getD (a.checkOf line)
/-- A line passes its check. -/
def Archive.lineOk (a : Archive) (line : Nat) : Bool := match tget none a.checks line with
  | none => true
  | some c => c == a.checkOf line

/-- Copies the bytes of a mask from the coherent image to the stacks: what a write-back does. The check is recomputed. -/
def Archive.writeBack (a : Archive) (line : Nat) (mask : BitVec 512) : Archive :=
  let a := ((List.range 512).filter fun i => mask.getLsbD i).foldl (fun a i => a.wrHbm (line * 512 + i) (a.rd (line * 512 + i))) a
  { a with checks := tset none a.checks line none }

/-- A counter kept in units of `unit`: raised as whole units come together. -/
def State.coarse (s : State) (k lo w unit n : Nat) (hold : Bool) : State :=
  let t := tget 0 s.subUnits k + n
  let s := { s with subUnits := tset 0 s.subUnits k (t % unit) }
  if hold then s.sat k lo w (t / unit) else s.bump k lo w (t / unit)

/-- The tokens of a regulator, in twentieths: at RATE = 256 it fills with 12.8 sectors in a slice cycle, and it holds at
most BURST (R243). -/
def State.tokensOf (s : State) (k : Nat) : Nat :=
  let t := tget (0, 0) s.arc.tokens k
  min (20 * s.fld k 16 16) (t.2 + s.fld k 0 9 * (s.cyc - t.1))

/-- A stack serves sectors to a partition: each takes a token where there is one, and HBM_REG.SECTORS counts them in
units of 2^16 (R243). -/
def State.countSectors (s : State) (pa part n : Nat) : State :=
  let k := hbmReg (homeOf pa) (stackOf pa) part
  let t := s.tokensOf k
  let s := s.withArc fun a => { a with tokens := tset (0, 0) a.tokens k (s.cyc, t - min n (t / 20) * 20) }
  s.coarse k 32 32 65536 n false

/-- Dirty bytes reach the stacks: they are charged to the partition in the line's tag, and the base die takes the poison
of the sectors (R241, R243, R248). -/
def State.stackWrite (s : State) (line : Nat) (mask : BitVec 512) (poison tag : Nat) : State :=
  let n := popcount 4 (secsOf mask)
  if n = 0 then s
  else
    let old := s.baseMarks line
    let s := s.withArc fun a => a.writeBack line mask
    let s := s.setMarks line ((old &&& (15 - fullSecs mask)) ||| (poison &&& secsOf mask))
    s.countSectors (line * 512) tag n

/-- The line of the other copy of a mirror pair (R249). -/
def State.otherCopy (s : State) (line : Nat) : Option Nat :=
  match s.arc.mirrors.find? fun m => decide (m.a ≤ line * 512) && decide (line * 512 < m.a + m.size) with
  | some m => some ((m.b + (line * 512 - m.a)) / 512)
  | none => (s.arc.mirrors.find? fun m => decide (m.b ≤ line * 512) && decide (line * 512 < m.b + m.size)).map fun m =>
      (m.a + (line * 512 - m.b)) / 512

/-- The owner tag of the frame of an HBM address (R301). -/
def State.frame (s : State) (pa : Nat) : W64 := s.reg (arcFrame (homeOf pa) (pa / 0x20_0000 % 65536))
/-- The owner tag with which the slice of a site judges: the one it caches, or the one it fetches (R303). -/
def State.frameAt (s : State) (site pa : Nat) : W64 :=
  match s.arc.tags.find? fun e => e.1 = site && e.2.1 = pa / 0x20_0000 with
  | some e => e.2.2
  | none => s.frame pa
/-- A slice fetches an owner tag that it does not cache: it holds 4,096 (R303). -/
def State.fetchTag (s : State) (site pa : Nat) : State :=
  if !isHbm pa || s.arc.tags.any (fun e => e.1 = site && e.2.1 = pa / 0x20_0000) then s
  else
    let mine := s.arc.tags.filter fun e => e.1 = site
    s.withArc fun a => { a with tags := (if mine.length < 4096 then a.tags else eraseFirst (fun e => e.1 = site) a.tags)
                                          ++ [(site, pa / 0x20_0000, s.frame pa)] }
/-- The Librarian changes an owner tag: every slice drops its cached copy and acknowledges (R301, R303; log entry 102). -/
def State.setFrame (s : State) (site frame : Nat) (v : W64) : State :=
  (s.setReg (arcFrame site frame) v).withArc fun a => { a with tags := a.tags.filter fun e => e.2.1 ≠ site * 65536 + frame }

/-- The report of a data error of a stack (R247, R436). -/
def State.hbmReport (s : State) (line sev aux : Nat) : State :=
  let x := homeOf (line * 512)
  let f := s.frame (line * 512)
  s.report { cls := 0x04, site := x, unit := stackOf (line * 512), status := 0, sev := sev, reporter := x
             part := if fldOf f 0 2 = 1 ∨ fldOf f 0 2 = 2 then some (fldOf f 2 4) else none
             addr := BitVec.ofNat 64 (line * 512), aux := BitVec.ofNat 64 aux }

/-- All four sectors of a line are poisoned in the base die of its stack (R247). -/
def State.poisonLine (s : State) (line : Nat) : State :=
  (List.range 4).foldl (fun s k => s.poisonMark (line * 4 + k)) s

/-- What follows the reads of a line of which `fails` fail the check, and `otherFails` of its mirror copy: up to two
re-reads, then the mirror copy, then poison (R247, R250). -/
def State.stackCheck (s : State) (line fails otherFails : Nat) : State :=
  let pa := line * 512
  let k := hbmErr (homeOf pa) (stackOf pa)
  if fails = 0 then s
  else if fails < 3 then (s.sat k 0 16 fails).hbmReport line sevCorrected (fails + 8)
  else
    let s := s.sat k 16 16 1
    match s.otherCopy line with
    | none => (s.poisonLine line).hbmReport line sevPoison 11
    | some o =>
      let ko := hbmErr (homeOf (o * 512)) (stackOf (o * 512))
      if otherFails < 3 then
        let s := if otherFails = 0 then s else s.sat ko 0 16 otherFails
        let s := s.withArc fun a => (List.range 512).foldl (fun a i => a.wrHbm (pa + i) (a.rdHbm (o * 512 + i))) a
        let s := s.withArc fun a => { a with checks := tset none a.checks line none }
        (s.sat (arcErrStat (homeOf pa)) 32 16 1).hbmReport line sevCorrected 15
      else
        let s := s.sat ko 16 16 1
        ((s.poisonLine line).poisonLine o).hbmReport line sevPoison 11

/-- The failing reads of a line: all three where the stored check is not that of its bytes, none otherwise. -/
def State.failsOf (s : State) (line : Nat) : Nat := if s.arc.lineOk line then 0 else 3

/-- A read of sectors of a line from its stack, charged to a partition (R241, R243, R247). -/
def State.stackRead (s : State) (line sectors part : Nat) : State :=
  if sectors % 16 = 0 then s
  else
    let s := s.countSectors (line * 512) part (popcount 4 sectors)
    s.stackCheck line (s.failsOf line) (((s.otherCopy line).map s.failsOf).getD 0)

/-! ### The mailbox block and its log (R408, R438) -/

/-- A byte of the mailbox block that is no register. -/
def State.mbxRd (s : State) (off n : Nat) : Bytes := (addrs off n).map fun k => tget 0#8 s.boot.mbx k
def State.mbxNum (s : State) (off n : Nat) : Nat := ofBytes (s.mbxRd off n)
def mbxPut : List (Nat × W8) → Nat → Bytes → List (Nat × W8)
  | t, _, [] => t
  | t, off, b :: r => mbxPut (tset 0#8 t off b) (off + 1) r
def State.mbxWr (s : State) (off : Nat) (bs : Bytes) : State := { s with boot := { s.boot with mbx := mbxPut s.boot.mbx off bs } }

/-- Where an entry of the log stands. -/
def incOff (i : Nat) : Nat := 0x40000 + 64 * (i % 1024)

/-- Raises ECHO of the log entry of count `i`, where the log still holds it (R438). -/
def State.raiseEcho (s : State) (i n : Nat) : State :=
  if 1024 < wsub (s.fld libIncTail 0 32) (i % 2 ^ 32) then s
  else s.mbxWr (incOff i + 0x0C) (toBytes 4 (min (2 ^ 32 - 1) (s.mbxNum (incOff i + 0x0C) 4 + n)))

/-- Doorbells of a LOST core's queue that are ignored or discarded are counted in the core's CORE_LOST incident (R30):
in its ECHO (DEDUCED, log entry 91). -/
def State.lostDoorbells (s : State) (core n : Nat) : State :=
  if n = 0 then s
  else
    let s := s.setCoreX core { s.coreX core with dropped := (s.coreX core).dropped + n }
    match s.boot.lostEntries.find? fun e => e.1 = s.coreSite core with
    | some e => s.raiseEcho e.2 n
    | none => s

/-! ### Packets to hosts (R344-R346) -/

/-- The Quanyx header of a packet from the panel. -/
def qHdr (ty tag len : Nat) (masked : Bool) (status fn addr : Nat) : QHdr :=
  BitVec.ofNat 128 (ty + tag * 2 ^ 4 + len * 2 ^ 16 + b2n masked * 2 ^ 26 + status * 2 ^ 27 + fn * 2 ^ 32 + addr * 2 ^ 64)

def qTy (h : QHdr) : Nat := fldOf h 0 4
def qTag (h : QHdr) : Nat := fldOf h 4 12
def qLen (h : QHdr) : Nat := fldOf h 16 10
def qMasked (h : QHdr) : Bool := nbit h.toNat 26
def qStatus (h : QHdr) : Nat := fldOf h 27 3
def qFn (h : QHdr) : Nat := fldOf h 32 8
def qAddr (h : QHdr) : Nat := fldOf h 64 46

/-- The port through which the panel reaches host `h`: the lowest HOST port with that number (R343). -/
def State.hostPort (s : State) (h : Nat) : Option Nat :=
  (List.range 48).find? fun p => s.fld (rngPort p) 0 2 = 1 && s.fld (rngPort p) 2 3 = h

/-- Sends a request of the panel to a host (R346); `masked` when its payload is masked sectors. -/
def State.hostReqM (s : State) (masked : Bool) (h ty off : Nat) (len : Nat) (d : Bytes) (use : HostUse) : State :=
  match s.hostPort h with
  | none => s
  | some port =>
    let tag := s.host.nextTag % 4096
    { s with host := { s.host with
        nextTag := tag + 1
        pend := s.host.pend ++ [(port, tag, use)]
        out := s.host.out ++ [{ port := port, h := qHdr ty tag len masked 0 0 off, d := d }] } }

def State.hostReq (s : State) (h ty off : Nat) (len : Nat) (d : Bytes) (use : HostUse) : State :=
  s.hostReqM false h ty off len d use

/-- An address of a host window as host number and offset. -/
def winOff (pa : Nat) : Nat := (pa - 0x2000_0000_0000) % 0x0400_0000_0000

/-! ### Completion rings and notifications (R197, R199) -/

def State.recX (s : State) : CrTarget → RecX
  | .que q => (s.q q).ring
  | .svc p k => (s.svcX p k).ring
def State.setRecX (s : State) (t : CrTarget) (r : RecX) : State :=
  match t with
  | .que q => s.modQ q fun x => { x with ring := r }
  | .svc p k => s.setSvcX p k { s.svcX p k with ring := r }
/-- The partition of a queue or a service ring. -/
def State.ctPart (s : State) : CrTarget → Nat
  | .que q => (s.corePart q.core).getD 0
  | .svc p _ => p

/-- Sends a notification, or sets NOTIFY_ERR when NOTIFY_ADDR lies outside the window of the
partition's host. -/
def State.sendNotify (s : State) (t : CrTarget) : State :=
  let pa := s.fld (ctNotifyAddr t) 0 55
  if isHostWin pa && decide (winHost pa = s.partHost (s.ctPart t)) then
    let s := s.hostReq (winHost pa) 2 (winOff pa) 4 (toBytes 4 (s.fld (ctNotifyCtrl t) 0 32)) .notify
    if s.fld (ctNotifyCtrl t) 32 16 = 0 then s else s.setRecX t { s.recX t with holdoff := true }
  else s.setBit (ctStatus t) 17 true

/-- A request for a notification of a queue or a service ring (R361): sent at once, or merged during HOLDOFF (R199). -/
def State.notify (s : State) (t : CrTarget) : State :=
  if s.bit (ctB t) 3 then
    if (s.recX t).holdoff then s.setRecX t { s.recX t with notifyDue := true } else s.sendNotify t
  else s

/-- A notification that follows what its ring has on its way: it is sent with the last record, once that has been
acknowledged (R199). -/
def State.notifyAfter (s : State) (t : CrTarget) : State :=
  let r := s.recX t
  match r.out.getLast? with
  | some e => s.setRecX t { r with out := r.out.dropLast ++ [{ e with note := true }] }
  | none => s.notify t

/-- Counts a doorbell, abort, arm or note that was dropped (QUE_STATUS.DROPS). -/
def State.drop (s : State) (t : CrTarget) : State := s.sat (ctStatus t) 32 16 1
/-- Sets DB_ERR and counts. -/
def State.dbErr (s : State) (t : CrTarget) : State := (s.setBit (ctStatus t) 16 true).drop t

end Sys2Proof.Machine
end

