-- ==== Sys2Proof/Machine/Xlat.lean ====
section
/-!
DEFINITION. Translation and protection (11_translation): table entries, the walk of R299 with its
caches, the ranges of the physical map, the frame owner check and the record of a core's first fault.
-/

namespace Sys2Proof.Machine

/-- Who makes an access: a queue or launch on an engine of a core (R300), the site it issues from, the
run it belongs to (0: no tentative run) and whether it is pinned. `id` is the run of a pinned command too (R307). -/
structure Who where
  q : QRef
  part : Nat
  cid : Nat
  site : Nat
  run : Nat := 0
  pinned : Bool := false
  id : Nat := 0
  deriving DecidableEq, Repr, Inhabited

/-- The accesses that a queue makes for itself (R168). -/
def State.who (s : State) (q : QRef) : Who :=
  { q := q, part := (s.corePart q.core).getD 0, cid := s.qCid q, site := s.coreSite q.core }

/-- Access kinds with the rights they need (R296): read, write, atomic, instruction fetch. -/
inductive Acc where
  | read | write | atomic | fetch
  deriving DecidableEq, Repr, Inhabited

/-- The bit of the right in entry bits [4:2]. -/
def Acc.right : Acc → Nat
  | .read => 0 | .fetch => 0 | .write => 1 | .atomic => 2
/-- CORE_XLAT_FAULT.ACCESS. -/
def Acc.code : Acc → Nat
  | .read => 0 | .write => 1 | .atomic => 2 | .fetch => 3

/-- A fault of an access: its status code, what CORE_XLAT_FAULT records (R310), and the table reads made before it. -/
structure XErr where
  code : Nat
  kind : Nat := 0
  stage : Nat := 0
  level : Nat := 0
  ipa : Option Nat := none
  walk : Bool := false
  reads : List WalkE := []
  deriving DecidableEq, Repr, Inhabited

/-! ### Entries (R295-R297) -/

def lvlIndex (a level : Nat) : Nat := nbits a (if level = 1 then 42 else if level = 2 then 29 else 16) 13
def eV (e : Nat) : Bool := nbit e 0
def eLeaf (e : Nat) : Bool := nbit e 1
def eRights (e : Nat) : Nat := nbits e 2 3
def eContig (e : Nat) : Bool := nbit e 5
def eAddr (e : Nat) : Nat := nbits e 16 42 * 65536

/-- check(e, level) of R299: the KIND of the TRANSLATION_FAULT, if any. -/
def entryBad (e level stage : Nat) : Option Nat :=
  if !eV e then some 0
  else if nbits e 6 10 ≠ 0 ∨ nbits e 58 6 ≠ 0 then some 1
  else if (level = 1 ∧ eLeaf e) ∨ (level = 3 ∧ !eLeaf e) then some 1
  else if eContig e ∧ !(level = 3 ∧ eLeaf e) then some 1
  else if stage = 1 ∧ nbits e 55 3 ≠ 0 then some 2
  else if level = 2 ∧ eLeaf e ∧ nbits e 16 13 ≠ 0 then some 1
  else none

/-! ### The frame owner check (R302) -/

/-- A request of a command, or a stage-1 walk, passes the frame's check in the slice of its site. -/
def State.frameOk (s : State) (site pa part cid rights2 need : Nat) : Bool :=
  let f := s.frameAt site pa
  match fldOf f 0 2 with
  | 1 => decide (fldOf f 2 4 = part) && (nbit f.toNat 22 || decide (fldOf f 6 16 = cid))
  | 2 => nbit rights2 need
  | _ => false

/-- A stage-2 walk passes: an S2TABLE frame of the partition being translated. -/
def State.frameS2 (s : State) (site pa part : Nat) : Bool :=
  decide (fldOf (s.frameAt site pa) 0 2 = 3) && decide (fldOf (s.frameAt site pa) 2 4 = part)

/-- A host port passes (R302, host column). `owns p` says that the port owns partition p. -/
def State.frameHost (s : State) (pa : Nat) (isWrite mgr : Bool) (owns : Nat → Bool) : Bool :=
  let f := s.frame pa
  let p := fldOf f 2 4
  match fldOf f 0 2 with
  | 1 => owns p
  | 2 => if isWrite then owns p || mgr else (List.range 16).any owns
  | 3 => mgr
  | _ => false

/-! ### The walk (R299) -/

/-- What a walk leaves: an address, rights, the size of the page, and the reads it made (for the walk cache and the IPA
cache). -/
structure WOk where
  pa : Nat
  rights : Nat
  lg : Nat := 16
  reads : List WalkE := []
  deriving DecidableEq, Repr, Inhabited

/-- The value a table read returns: the walk cache may still hold the entry's former value until an
invalidation has completed (R305). Choice number `i` of the walk decides. -/
def State.tableVal (s : State) (core part cid stage pa i : Nat) : Nat :=
  let now := s.rdNum pa 8
  match (s.coreX core).walk.find? fun w => w.stage = stage && w.part = part && (stage = 2 || w.cid = cid) && w.key = pa with
  | some w => if w.val = now then now else if Config.freeBool (s.free + i) then w.val else now
  | none => now

/-- The local part of a 58-bit address, when its panel number is this panel's (R293). -/
def State.localPa (s : State) (w : Who) (pa : Nat) : Option Nat :=
  if pa / 2 ^ 46 = s.fld (sitePanelId w.site) 0 12 then some (pa % 2 ^ 46) else none

/-- A table's address, of 58 bits, lies in the panel's own HBM (R298). -/
def State.tablePa (s : State) (w : Who) (pa : Nat) : Option Nat := (s.localPa w pa).filter isHbm

/-- read_phys for a table of a stage at a local address: checked by its frame, through the Archive, and neither poisoned
nor at a lost home (R248, R299). -/
def State.tableRead (s : State) (w : Who) (stage pa rights2 i : Nat) : Except XErr Nat :=
  if stage = 2 ∧ !s.frameS2 w.site pa w.part then .error { code := stProtection, kind := 4, walk := true }
  else if stage = 1 ∧ !s.frameOk w.site pa w.part w.cid rights2 0 then .error { code := stProtection, kind := 4, walk := true }
  else if s.isLost (homeOf pa) then .error { code := stSiteLost, walk := true }
  else if s.secPoison w.site (pa / 128) then .error { code := stDataPoison, walk := true }
  else .ok (s.tableVal w.q.core w.part w.cid stage pa i)

/-- What is wrong with entry 0 of a CONTIG run (R297): the KIND of the TRANSLATION_FAULT, if any. -/
def contigBad (e0 : Nat) : Option Nat :=
  if !eV e0 then some 0
  else if eLeaf e0 && eContig e0 && decide (eAddr e0 % 0x20_0000 = 0) then none
  else some 1

/-- The leaf found at a level: the output address, its rights and the size of its page. -/
def leafOut (a e level : Nat) : WOk :=
  if level = 2 then { pa := eAddr e + a % 2 ^ 29, rights := eRights e, lg := 29 }
  else if eContig e then { pa := eAddr e + a % 2 ^ 21, rights := eRights e, lg := 21 }
  else { pa := eAddr e + a % 2 ^ 16, rights := eRights e, lg := 16 }

/-- A fault of a walk with the reads made before it. -/
def XErr.after (x : XErr) (rs : List WalkE) : XErr := { x with reads := rs ++ x.reads }

/-- A stage-2 table read: the table's 58-bit address must lie in the panel's own HBM (R298). -/
def State.read2 (s : State) (w : Who) (p level i : Nat) : Except XErr (Nat × WalkE) :=
  match s.tablePa w p with
  | none => .error { code := stTranslation, kind := 2, stage := 2, level := level, walk := true }
  | some pa => match s.tableRead w 2 pa 0 i with
    | .error x => .error x
    | .ok e => .ok (e, { stage := 2, part := w.part, cid := 0, key := pa, val := e })

/-- walk(a, t, 2) from a level down, `fuel` levels at most. -/
def State.walk2 (s : State) (w : Who) (a i : Nat) : Nat → Nat → Nat → List WalkE → Except XErr WOk
  | 0, _, _, rs => .error { code := stTranslation, kind := 1, stage := 2, level := 3, walk := true, reads := rs }
  | fuel + 1, level, t, rs =>
    match s.read2 w (t + 8 * lvlIndex a level) level (i + level) with
    | .error x => .error (x.after rs)
    | .ok (e, r) =>
      let rs := rs ++ [r]
      match entryBad e level 2 with
      | some k => .error { code := stTranslation, kind := k, stage := 2, level := level, reads := rs }
      | none =>
        if eLeaf e then
          if level = 3 ∧ eContig e then
            match s.read2 w (t + 8 * (lvlIndex a 3 / 32 * 32)) 3 (i + 4) with
            | .error x => .error (x.after rs)
            | .ok (e0, r0) =>
              match contigBad e0 with
              | none => .ok { leafOut a e0 3 with reads := rs ++ [r0] }
              | some k => .error { code := stTranslation, kind := k, stage := 2, level := 3, reads := rs ++ [r0] }
          else .ok { leafOut a e level with reads := rs }
        else s.walk2 w a i fuel (level + 1) (eAddr e) rs

/-- The IPA translation that a core's IPA cache holds for an address (R305). -/
def State.ipaHit (s : State) (w : Who) (ipa : Nat) : Option WOk :=
  ((s.coreX w.q.core).ipas.find? fun e => e.part = w.part && e.key = ipa / 2 ^ (e.key % 64) * 2 ^ (e.key % 64) + e.key % 64).map fun e =>
    { pa := e.val + ipa % 2 ^ (e.key % 64), rights := e.rights, lg := e.key % 64 }

/-- stage2(ipa): from the partition's stage-2 root, a local address (R298), or the translation that the IPA cache still
holds; where the two differ a free choice decides (R305). -/
def State.stage2 (s : State) (w : Who) (ipa i : Nat) : Except XErr WOk :=
  if ipa ≥ 2 ^ 55 then .error { code := stTranslation, kind := 2, stage := 2, level := 1 }
  else
    let root := s.fld (sitePanelId w.site) 0 12 * 2 ^ 46 + (s.reg (coreS2Root w.part)).toNat % 2 ^ 46 / 65536 * 65536
    let now := match s.walk2 w ipa i 3 1 root [] with
      | .ok o => .ok { o with reads := o.reads ++ [{ stage := 3, part := w.part, cid := 0, key := ipa / 2 ^ o.lg * 2 ^ o.lg + o.lg,
                                                     val := o.pa - ipa % 2 ^ o.lg, rights := o.rights }] }
      | x => x
    match s.ipaHit w ipa with
    | none => now
    | some old => match now with
      | .ok o => if o.pa = old.pa ∧ o.rights = old.rights then now else if Config.freeBool (s.free + i + 6) then .ok old else now
      | .error _ => if Config.freeBool (s.free + i + 6) then .ok old else now

/-- A table read of stage 1: its address is translated by stage 2, must lie in the panel's own HBM, and needs the R right
of its stage-2 leaf; a TRANSLATION_FAULT comes first (R298, R299, R308). -/
def State.read1 (s : State) (w : Who) (ipa level i : Nat) : Except XErr (Nat × List WalkE) :=
  match s.stage2 w ipa i with
  | .error x => .error { x with walk := true }
  | .ok o =>
    match s.tablePa w o.pa with
    | none => .error { code := stTranslation, kind := 2, stage := 1, level := level, walk := true, reads := o.reads }
    | some pa =>
      if !nbit o.rights 0 then .error { code := stProtection, kind := 3, stage := 2, level := level, walk := true, reads := o.reads }
      else match s.tableRead w 1 pa o.rights (i + 5) with
        | .error x => .error (x.after o.reads)
        | .ok e => .ok (e, o.reads ++ [{ stage := 1, part := w.part, cid := w.cid, key := pa, val := e }])

/-- walk(a, t, 1) from a level down. -/
def State.walk1 (s : State) (w : Who) (a i : Nat) : Nat → Nat → Nat → List WalkE → Except XErr WOk
  | 0, _, _, rs => .error { code := stTranslation, kind := 1, stage := 1, level := 3, reads := rs }
  | fuel + 1, level, t, rs =>
    match s.read1 w (t + 8 * lvlIndex a level) level (i + 8 * level) with
    | .error x => .error (x.after rs)
    | .ok (e, r1) =>
      let rs := rs ++ r1
      match entryBad e level 1 with
      | some k => .error { code := stTranslation, kind := k, stage := 1, level := level, reads := rs }
      | none =>
        if eLeaf e then
          if level = 3 ∧ eContig e then
            match s.read1 w (t + 8 * (lvlIndex a 3 / 32 * 32)) 3 (i + 32) with
            | .error x => .error (x.after rs)
            | .ok (e0, r0) =>
              match contigBad e0 with
              | none => .ok { leafOut a e0 3 with reads := rs ++ r0 }
              | some k => .error { code := stTranslation, kind := k, stage := 1, level := 3, reads := rs ++ r0 }
          else .ok { leafOut a e level with reads := rs }
        else s.walk1 w a i fuel (level + 1) (eAddr e) rs

/-- A combined translation (R299): the 58-bit address, both rights, the rights of stage 2, the size of
the smaller page. -/
structure XOk where
  pa : Nat
  rights1 : Nat
  rights2 : Nat
  lg : Nat
  ipa : Nat
  reads : List WalkE
  deriving DecidableEq, Repr, Inhabited

/-- translate(va, cid, part) of R299, with both stages walked. -/
def State.walkFull (s : State) (w : Who) (va : Nat) : Except XErr XOk :=
  if va ≥ 2 ^ 55 then .error { code := stTranslation, kind := 2, stage := 1, level := 0 }
  else
    let ctx := (s.reg (coreCtxBase w.part)).toNat % 2 ^ 55 / 65536 * 65536
    match s.read1 w (ctx + 8 * w.cid) 0 0 with
    | .error x => .error x
    | .ok (c, r0) =>
      if !nbit c 0 then .error { code := stTranslation, kind := 0, stage := 1, level := 0, reads := r0 }
      else if nbits c 1 15 ≠ 0 ∨ nbits c 55 9 ≠ 0 then .error { code := stTranslation, kind := 1, stage := 1, level := 0, reads := r0 }
      else
        match s.walk1 w va 0 3 1 (nbits c 16 39 * 65536) r0 with
        | .error x => .error x
        | .ok o1 =>
          match s.stage2 w o1.pa 40 with
          | .error x => .error { x.after o1.reads with ipa := some o1.pa }
          | .ok o2 =>
            .ok { pa := o2.pa, rights1 := o1.rights, rights2 := o2.rights, lg := min o1.lg o2.lg, ipa := o1.pa,
                  reads := o1.reads ++ o2.reads }

/-- The TLB entry that holds a page (R305). -/
def State.tlbHit (s : State) (w : Who) (va : Nat) : Option TlbE :=
  (s.coreX w.q.core).tlb.find? fun e =>
    e.eng = w.q.eng && e.part = w.part && e.cid = w.cid && e.va = va / 2 ^ e.lg * 2 ^ e.lg

/-- The translation in force for an access: the tables', or an entry that an engine's TLB still holds;
where the two differ a free choice decides (R305). -/
def State.lookup (s : State) (w : Who) (va : Nat) : Except XErr XOk :=
  let now := s.walkFull w va
  match s.tlbHit w va with
  | none => now
  | some e =>
    let old : XOk := { pa := e.pa + va % 2 ^ e.lg, rights1 := e.rights, rights2 := e.rights2, lg := e.lg, ipa := e.ipa + va % 2 ^ e.lg, reads := [] }
    match now with
    | .ok o => if o.pa = old.pa ∧ o.rights1 = old.rights1 ∧ o.rights2 = old.rights2 then now
               else if Config.freeBool (s.free + 60) then .ok old else now
    | .error _ => if Config.freeBool (s.free + 60) then .ok old else now

/-- The ranges of the physical map that a translated request may reach (R294, R304). -/
def State.rangeOk (s : State) (w : Who) (pa : Nat) : Bool :=
  match s.localPa w pa with
  | none => isHbm (pa % 2 ^ 46)
  | some l =>
    isHbm l || isWin l || (isHostWin l && decide (winHost l = s.partHost w.part))

/-- A translated and checked address: a local physical address, or 2^58 plus the 58-bit address of
another panel's memory. -/
structure XAddr where
  pa : Nat
  pa58 : Nat
  remote : Bool := false
  rights1 : Nat := 7
  rights2 : Nat := 7
  lg : Nat := 16
  ipa : Nat := 0
  reads : List WalkE := []
  deriving DecidableEq, Repr, Inhabited

/-- Translation, rights, range and frame of one access (R299, R294, R296, R302). -/
def State.translate (s : State) (w : Who) (k : Acc) (va : Nat) : Except XErr XAddr :=
  match s.lookup w va with
  | .error x => .error x
  | .ok o =>
    if !nbit o.rights1 k.right then .error { code := stProtection, kind := 3, stage := 1, ipa := some o.ipa }
    else if !nbit o.rights2 k.right then .error { code := stProtection, kind := 3, stage := 2, ipa := some o.ipa }
    else if !s.rangeOk w o.pa then .error { code := stProtection, kind := 5, ipa := some o.ipa }
    else
      match s.localPa w o.pa with
      | none => .ok { pa := 2 ^ 58 + o.pa, pa58 := o.pa, remote := true, rights1 := o.rights1, rights2 := o.rights2, lg := o.lg, ipa := o.ipa, reads := o.reads }
      | some l =>
        if isHbm l && !s.frameOk w.site l w.part w.cid o.rights2 k.right then
          .error { code := stProtection, kind := 4, ipa := some o.ipa }
        else .ok { pa := l, pa58 := o.pa, rights1 := o.rights1, rights2 := o.rights2, lg := o.lg, ipa := o.ipa, reads := o.reads }

/-- What the walker's caches keep of the reads of a walk: 256 table entries and 1,024 IPA translations, none twice
(R305). -/
def CoreX.learn (c : CoreX) (free : Nat) (reads : List WalkE) : CoreX :=
  reads.zipIdx.foldl (fun (c : CoreX) e =>
    let r := e.1
    let same (x : WalkE) : Bool := x.stage == r.stage && x.part == r.part && x.cid == r.cid && x.key == r.key
    if r.stage = 3 then (if c.ipas.any same then c else { c with ipas := capAdd 1024 (Config.freeNat (free + e.2)) (fun _ => true) c.ipas r })
    else if c.walk.any same then c
    else { c with walk := capAdd 256 (Config.freeNat (free + e.2)) (fun _ => true) c.walk r }) c

/-- The caches after a walk that faulted: no cache holds an invalid entry (R305). -/
def State.cacheWalk (s : State) (w : Who) (reads : List WalkE) : State :=
  let ok (r : WalkE) : Bool := r.stage == 3 || eV r.val
  let s := s.setCoreX w.q.core ((s.coreX w.q.core).learn s.free (reads.filter ok))
  { s with free := s.free + 64 }

/-- What the caches hold after a translation that succeeded (R305), the owner tag of its frame among them (R303), and the
pages the run has used (R307): each as its first address times 64 plus the logarithm of its size. -/
def State.cacheXlat (s : State) (w : Who) (va : Nat) (o : XAddr) : State :=
  let c := (s.coreX w.q.core).learn s.free o.reads
  let page := va / 2 ^ o.lg * 2 ^ o.lg
  let e : TlbE := { eng := w.q.eng, part := w.part, cid := w.cid, lg := o.lg, va := page, pa := o.pa58 - va % 2 ^ o.lg,
                    rights := o.rights1, rights2 := o.rights2, ipa := o.ipa - va % 2 ^ o.lg }
  let tlb := match s.tlbHit w va with
    | some _ => c.tlb
    | none => capAdd 512 (Config.freeNat (s.free + 62)) (fun x => x.eng == w.q.eng) c.tlb e
  let s := s.setCoreX w.q.core { c with tlb := tlb }
  let s := ({ s with free := s.free + 64 } : State).fetchTag w.site o.pa
  s.modRun w.id fun r => if r.pages.contains (page * 64 + o.lg) then r else { r with pages := r.pages ++ [page * 64 + o.lg] }

/-- Records a translation or protection fault in the core's registers (R310). A clerk (core number 256
and above) belongs to no core. -/
def State.recordXlat (s : State) (w : Who) (k : Acc) (va : Nat) (x : XErr) : State :=
  let key := coreXlatFault w.q.core
  if w.q.core ≥ 256 then s
  else if s.bit key 0 then s.sat key 48 16 1
  else
    let v := 1 + w.q.eng * 2 + x.kind * 2 ^ 4 + x.stage * 2 ^ 8 + x.level * 2 ^ 10 + (if x.walk then 3 else k.code) * 2 ^ 12
      + w.cid * 2 ^ 16 + w.part * 2 ^ 32
    let s := s.setReg key (BitVec.ofNat 64 v)
    let s := s.setReg (key + 8) (BitVec.ofNat 64 (va % 2 ^ 55 + 2 ^ 63))
    match x.ipa with
    | some ipa => s.setReg (key + 16) (BitVec.ofNat 64 (ipa % 2 ^ 55 + 2 ^ 63))
    | none => s.setReg (key + 16) 0#64

end Sys2Proof.Machine
end

