-- ==== Sys2Proof/Machine/Fabric.lean ====
section
/-!
DEFINITION. Requests of the panel on the fabric (13_ring_links R352-R356): the packet header, the
keeper of a flow, and how a flow takes a request.
-/

namespace Sys2Proof.Machine

/-- Site attached to a ring die (R17). -/
def ringSite (r : Nat) : Nat :=
  [0, 2, 3, 5, 6, 8, 17, 26, 35, 44, 53, 62, 71, 69, 68, 66, 65, 63, 54, 45, 36, 27, 18, 9].getD r 0

/-- The fields of a Nimette header (R352). -/
structure NF where
  dst : Nat := 0
  src : Nat := 0
  ty : Nat := 0
  tc : Nat := 0
  keeper : Nat := 0
  flow : Nat := 0
  psn : Nat := 0
  epoch : Nat := 0
  status : Nat := 0
  len : Nat := 0
  addr : Nat := 0
  part : Nat := 0
  sub : Nat := 0
  cid : Nat := 0
  ref : Nat := 0
  deriving DecidableEq, Repr, Inhabited

def NF.enc (f : NF) : NHdr :=
  BitVec.ofNat 256
    (f.dst % 2 ^ 16 + (f.src % 2 ^ 16) * 2 ^ 16 + (f.ty % 256) * 2 ^ 32 + (f.tc % 4) * 2 ^ 40 + (f.keeper % 32) * 2 ^ 42
      + (f.flow % 2 ^ 16) * 2 ^ 48 + (f.psn % 2 ^ 32) * 2 ^ 64 + (f.epoch % 2 ^ 16) * 2 ^ 96 + (f.status % 16) * 2 ^ 112
      + (f.len % 4096) * 2 ^ 116 + (f.addr % 2 ^ 46) * 2 ^ 128 + (f.part % 16) * 2 ^ 192 + (f.sub % 16) * 2 ^ 196
      + (f.cid % 2 ^ 16) * 2 ^ 208 + (f.ref % 2 ^ 32) * 2 ^ 224)

def nfOf (h : NHdr) : NF :=
  { dst := fldOf h 0 16, src := fldOf h 16 16, ty := fldOf h 32 8, tc := fldOf h 40 2, keeper := fldOf h 42 5,
    flow := fldOf h 48 16, psn := fldOf h 64 32, epoch := fldOf h 96 16, status := fldOf h 112 4, len := fldOf h 116 12,
    addr := fldOf h 128 46, part := fldOf h 192 4, sub := fldOf h 196 4, cid := fldOf h 208 16, ref := fldOf h 224 32 }

/-- This panel's number in the fabric (R293): the same in every site. -/
def State.panelNo (s : State) : Nat := s.fld (sitePanelId 0) 0 12

/-- A ring port is up. -/
def State.portUp (s : State) (p : Nat) : Bool := s.bit (rngPort p) 6

/-- Ring die `r` has a FABRIC port in the route mask of a device that is up (R354). -/
def State.dieServes (s : State) (r dev : Nat) : Bool :=
  [0, 1].any fun j => s.bit (nfbRoute r dev) (2 * r + j) && s.portUp (2 * r + j) && decide (s.fld (rngPort (2 * r + j)) 0 2 = 2)

/-- The ring die nearest a site among some; ties go to the lower number (R354). -/
def nearestDie (site : Nat) (rs : List Nat) : Option Nat :=
  rs.foldl (fun best r => match best with
    | none => some r
    | some b => if hops site (ringSite r) < hops site (ringSite b) then some r else some b) none

/-- The ports of the route mask of a device that are up: with none, a request to it is refused (R354). -/
def State.routed (s : State) (dev : Nat) : Bool := (List.range 24).any fun r => s.dieServes r dev

/-- The keeper of a flow from a site to a device: that of the flow that its requests belong to, else the nearest ring die
with a port in the mask that is up; none where the mask holds no port that is up (R354). -/
def State.keeperFor (s : State) (site dev : Nat) : Option Nat :=
  if !s.routed dev then none
  else match s.fab.flows.find? fun e => match e.2 with
      | some f => f.dev = dev && f.sites.contains site
      | none => false with
    | some e => some (e.1 / 65536)
    | none => nearestDie site ((List.range 24).filter fun r => s.dieServes r dev)

/-- The port by which the packets of a keeper leave for a device: its own port in the mask, the lower one where both are up,
else a port of the nearest other ring die that has one (R354; DESIGN CHOICE, log entry 124: which of them). -/
def State.exitPort (s : State) (keeper dev : Nat) : Option Nat :=
  let up (r : Nat) : Option Nat := ([2 * r, 2 * r + 1] : List Nat).find? fun p =>
    s.bit (nfbRoute r dev) p && s.portUp p && decide (s.fld (rngPort p) 0 2 = 2)
  match up keeper with
  | some p => some p
  | none => (nearestDie (ringSite keeper) ((List.range 24).filter fun r => s.dieServes r dev)).bind up

/-- A packet leaves the panel for its device by the port of its keeper's route; with none up nothing is sent. -/
def State.nOut (s : State) (keeper : Nat) (p : NPkt) : State :=
  match s.exitPort keeper (fldOf p.h 0 16) with
  | some port => { s with fab := { s.fab with out := s.fab.out ++ [{ p with port := port }] } }
  | none => s

/-- A packet of a ring die leaves the panel. -/
def State.nSend (s : State) (die : Nat) (f : NF) (d : Bytes) : State := s.nOut die { port := 0, h := f.enc, d := d }

/-- The bytes of a packet on a port: header, payload and the end-to-end CRC over both (R352). -/
def NPkt.wire (p : NPkt) : Bytes :=
  toBytes 32 p.h.toNat ++ p.d ++ toBytes 4 (crc32c (toBytes 32 p.h.toNat ++ p.d))

def flowKey (die flow : Nat) : Nat := die * 65536 + flow
def State.flow? (s : State) (k : Nat) : Option Flow := tget none s.fab.flows k
def State.setFlow (s : State) (k : Nat) (f : Option Flow) : State :=
  { s with fab := { s.fab with flows := tset none s.fab.flows k f } }

/-- The uses of the requests to other panels and devices that have no answer yet. -/
def State.fabUses (s : State) : List FabUse :=
  (s.fab.flows.filterMap (·.2)).flatMap (fun f => f.waiting.map (·.2) ++ f.answers.map (·.2))
    ++ s.fab.backlog.map (·.2.2.2) ++ s.fab.orphans.map (·.2.2)

/-- A flow ends: those of its requests that were acknowledged keep their answers to come (R356, R358). -/
def State.closeFlow (s : State) (k : Nat) (f : Flow) : State :=
  let late := f.answers.filter fun a => !f.unacked.any fun u => decide (fldOf u.1.h 64 32 = a.1)
  let s := s.setFlow k none
  { s with fab := { s.fab with orphans := s.fab.orphans ++ late.map fun a => (f.dev, a.1, a.2) } }

/-- The flow of a keeper to a device that is not closed, or a number that no flow of the panel has (R356:
8,192 sender contexts). -/
def State.flowTo (s : State) (die dev : Nat) : Option Nat :=
  match s.fab.flows.find? fun e => e.1 / 65536 = die && (match e.2 with | some f => f.dev = dev | none => false) with
  | some e => some (e.1 % 65536)
  | none =>
    if 8192 ≤ (s.fab.flows.filter fun e => e.1 / 65536 = die).length then none
    else
      let used := s.fab.flows.map fun e => e.1 % 65536
      (List.range 65536).find? fun n => !used.contains n

/-- A sequenced packet of an OPEN flow: its PSN and receiver are filled in, and it is kept until it is
acknowledged (R356, R357). -/
def State.flowPush (s : State) (die fl : Nat) (f : Flow) (pkt : NF) (d : Bytes) (use : FabUse) : State :=
  let h := { pkt with flow := fl, epoch := f.epoch, keeper := f.keeper, psn := f.psn, dst := f.dev, src := s.panelNo }
  let s := s.setFlow (flowKey die fl) (some { f with
    psn := (f.psn + 1) % 2 ^ 32
    unacked := f.unacked ++ [({ port := 0, h := h.enc, d := d }, use)]
    answers := if [0x10, 0x11, 0x12, 0x20, 0x23].contains pkt.ty && use != .response then f.answers ++ [(f.psn, use)] else f.answers })
  s.nSend die h d

/-- Gives a site's packet to a keeper's flow to a device: the first request of a closed flow sends OPEN with
the flow's next EPOCH (R356). With every context in use the packet waits in no flow and is kept. -/
def State.flowGive (s : State) (site die dev : Nat) (pkt : NF) (d : Bytes) (use : FabUse) : State :=
  match s.flowTo die dev with
  | none => { s with fab := { s.fab with backlog := s.fab.backlog ++ [(site * 32 + die, dev, { port := 0, h := pkt.enc, d := d }, use)] } }
  | some fl =>
    let k := flowKey die fl
    match s.flow? k with
    | some f =>
      let f := if f.sites.contains site then f else { f with sites := f.sites ++ [site] }
      if f.state = .opened then s.flowPush die fl f pkt d use
      else s.setFlow k (some { f with waiting := f.waiting ++ [({ port := 0, h := pkt.enc, d := d }, use)] })
    | none =>
      let ep := (tget 0 s.fab.epochs k + 1) % 65536
      let s := { s with fab := { s.fab with epochs := tset 0 s.fab.epochs k ep } }
      let s := s.setFlow k (some { dev := dev, sites := [site], state := .opening, epoch := ep, keeper := 31
                                   waiting := [({ port := 0, h := pkt.enc, d := d }, use)] })
      s.nSend die { dst := dev, src := s.panelNo, ty := 1, keeper := 31, flow := fl, epoch := ep } []

/-- A request from a site to another panel's memory or to a device; false where no route is up. -/
def State.fabRequest (s : State) (site dev : Nat) (pkt : NF) (d : Bytes) (use : FabUse) : State × Bool :=
  match s.keeperFor site dev with
  | some die => (s.flowGive site die dev pkt d use, true)
  | none => (s, false)

/-! ### Routes of the mesh (R318) -/

/-- The edge of an XY route: 0 N, 1 E, 2 S, 3 W; 4 is the site itself. -/
def xyNext (x d : Nat) : Nat :=
  if siteCol x < siteCol d then 1 else if siteCol d < siteCol x then 3
  else if siteRow x < siteRow d then 2 else if siteRow d < siteRow x then 0 else 4

/-- The edge of a YX route. -/
def yxNext (x d : Nat) : Nat :=
  if siteRow x < siteRow d then 2 else if siteRow d < siteRow x then 0
  else if siteCol x < siteCol d then 1 else if siteCol d < siteCol x then 3 else 4

/-- The route table of site `x` for destination `d`. -/
def State.nextHop (s : State) (x d : Nat) : Nat := tget (xyNext x d) s.mesh.routes (x * 128 + d)

/-- The site beyond an edge. -/
def neighbour (x e : Nat) : Option Nat :=
  match e with
  | 0 => if 9 ≤ x then some (x - 9) else none
  | 1 => if siteCol x < 8 then some (x + 1) else none
  | 2 => if x + 9 < 72 then some (x + 9) else none
  | 3 => if 0 < siteCol x then some (x - 1) else none
  | _ => none

def edgeKey (x d : Nat) : Nat := x * 4 + d
/-- The other end of an edge. -/
def farEnd (x d : Nat) : Option (Nat × Nat) := (neighbour x d).map fun y => (y, (d + 2) % 4)
/-- The edge carries traffic: it is up, and both its sites are in service. -/
def State.edgeLive (s : State) (x d : Nat) : Bool :=
  match neighbour x d with
  | some y => !s.isLost x && !s.isLost y && !s.mesh.edgeDown.contains (edgeKey x d)
  | none => false

def linkKey (l : LinkRef) : Nat := (l.site * 4 + l.d) * 16 + l.g
def State.role (s : State) (x d g : Nat) : Nat := s.fld (lnkB x d + 8) (2 * g) 2
/-- Groups of an edge in a role. -/
def State.groupsIn (s : State) (x d r : Nat) : List Nat := (List.range 16).filter fun g => s.role x d g = r
/-- A group is suspect, in either direction (R323). -/
def State.suspectAt (s : State) (x d g : Nat) : Bool :=
  (s.link (linkKey { site := x, d := d, g := g })).suspect
    || (farEnd x d).any fun f => (s.link (linkKey { site := f.1, d := f.2, g := g })).suspect
/-- The groups by which an edge carries a role now: an edge with no REDUCE group carries REDUCE packets on BULK (R324). -/
def State.groupsFor (s : State) (x d r : Nat) : List Nat :=
  let r := if r = roleReduce && (s.groupsIn x d r).isEmpty then roleBulk else r
  (s.groupsIn x d r).filter fun g => !s.suspectAt x d g
/-- The edge holds the traffic of a role: every group of it is suspect (R323, R324). -/
def State.edgeHeld (s : State) (x d r : Nat) : Bool := !(s.groupsIn x d r).isEmpty && (s.groupsFor x d r).isEmpty

/-- The way that the route tables give from a router to a site is open for a role: every edge of it is up and holds none of
that role's traffic (R318, R324, R443). -/
def State.wayOpen (s : State) (r : Nat) : Nat → Nat → Nat → Bool
  | 0, x, d => x == d
  | fuel + 1, x, d =>
    if x = d then true
    else s.edgeLive x (s.nextHop x d) && !s.edgeHeld x (s.nextHop x d) r && (match neighbour x (s.nextHop x d) with
      | some y => s.wayOpen r fuel y d
      | none => false)

/-- A payload of masked sectors (R344): for each sector of the mask, 16 bytes of byte mask and 128
bytes. `f` gives a byte with its presence by its place in the line. -/
def maskedSectors (mask : Nat) (f : Nat → Option W8) : Bytes :=
  ((List.range 4).filter fun k => nbit mask k).flatMap fun k =>
    let bs := (List.range 128).map fun i => f (128 * k + i)
    let m := (bs.zipIdx.filter fun e => e.1.isSome).foldl (fun a e => a + 2 ^ e.2) 0
    toBytes 16 m ++ bs.map fun b => b.getD 0#8

end Sys2Proof.Machine
end

