-- ==== Sys2Proof/Machine/Mem.lean ====
section
/-!
DEFINITION. Reads and writes of memory by a command or a thread (07_commit_and_rerun R203-R205,
08_archive_and_memory R227, R232, R235-R237, R248, 09_coherence R264, R273): panel HBM with the run's own
tentative bytes laid over it, local-store windows, host windows and other panels' memory.
-/

namespace Sys2Proof.Machine

/-- What an access comes to: a value, a completion status with the faulting address (`ls` says that it
is a local-store offset), or a wait for a host or another panel. -/
inductive MRes (α : Type) where
  | ok (x : α)
  | err (code addr : Nat) (ls : Bool)
  | wait
  deriving Repr

/-! ### Local stores and windows (R226, R227) -/

/-- Current local-store size of a core in bytes (TEX_POOL.LS_MIB). -/
def State.lsSize (s : State) (c : Nat) : Nat := s.fld (texB c + 0x30) 4 5 * 0x10_0000
/-- The core is in MAINT (R96). -/
def State.maint (s : State) (c : Nat) : Bool := s.bit (texB c) 15

/-- Reads the local store of a core slot. -/
def State.rdLs (s : State) (slotIx off n : Nat) : Bytes := (addrs (lsKey slotIx off) n).map s.arc.rdLs
/-- Writes the local store of a core slot. -/
def State.wrLs (s : State) (slotIx off : Nat) (bs : Bytes) : State := s.withArc fun a => a.wrLsList (lsKey slotIx off) bs

/-- The rows of R227 for a request of a command: the status it is refused with, if any. -/
def State.winRefuse (s : State) (part cid slotIx off n : Nat) : Option Nat :=
  match s.slotCore (slotIx / 6) (slotIx % 6) with
  | none => some stCoreLost
  | some c =>
    if s.corePart c ≠ some part then some stProtection
    else if !((coreQueues c).any fun q => s.qEnabled q && s.qCid q = cid) then some stProtection
    else if s.maint c then some stProtection
    else if off + n > s.lsSize c then some stProtection
    else none

def winSlot (pa : Nat) : Nat := (pa - 0x1000_0000_0000) / 0x200_0000
def winOffset (pa : Nat) : Nat := (pa - 0x1000_0000_0000) % 0x200_0000

/-! ### Lines outside coherence (R273) -/

/-- Memory of another panel. -/
def isRemote (pa : Nat) : Bool := decide (2 ^ 58 ≤ pa)
/-- Memory outside the panel: a host window or another panel's memory. -/
def isOut (pa : Nat) : Bool := isRemote pa || isHostWin pa
def wKey (site pa : Nat) : Nat := site * 2 ^ 60 + pa
/-- A byte of a slice's copy of a line outside the panel. -/
def State.wByte (s : State) (site pa : Nat) : W8 := tget 0#8 s.arc.wcache (wKey site pa)
def Archive.wrOut (a : Archive) (site : Nat) : Nat → Bytes → Archive
  | _, [] => a
  | pa, b :: r => Archive.wrOut { a with wcache := tset 0#8 a.wcache (wKey site pa) b } site (pa + 1) r

/-- The bytes of a sector come where its line has not been written (R273). -/
def Archive.fillOut (a : Archive) (site pa : Nat) (mask : BitVec 512) (bs : Bytes) : Archive :=
  (bs.zipIdx.filter fun e => !mask.getLsbD (pa % 512 + e.2)).foldl (fun a e => a.wrOut site (pa + e.2) [e.1]) a

/-- A byte of a line is held: in a whole sector, or as a byte written. -/
def ALine.holds (l : ALine) (i : Nat) : Bool := nbit l.valid (i / 128) || l.mask.getLsbD i
/-- A slice holds a byte of a line outside the panel. -/
def State.outHeld (s : State) (site pa : Nat) : Bool := (s.line? site (pa / 512)).any fun l => l.holds (pa % 512)

/-- The launches of a site keep the values that its copy of a line outside the panel had (R112). -/
def State.noteOut (s : State) (site line : Nat) : State :=
  match s.line? site line with
  | some l =>
    if isOut (line * 512) && s.tes.any fun e => e.2.launch.isSome then
      s.noteOld (fun c => s.coreSite c = site) (((List.range 512).filter l.holds).map fun i => (line * 512 + i, s.wByte site (line * 512 + i)))
    else s
  | none => s

/-- A line leaves a slice, with its bytes where it is a line outside the panel. -/
def State.dropLine (s : State) (site line : Nat) : State :=
  let s := s.noteOut site line
  let s := s.withArc fun a => a.dropLine site line
  if isOut (line * 512) then s.withArc fun a => { a with wcache := a.wcache.filter fun e => e.1 / 512 ≠ wKey site (line * 512) / 512 } else s

/-- Writes back the dirty bytes of one sector of a slice's copy of a line outside the panel; they become clean. False:
no port can carry the request, which is the failure of the write-back (R273, R346, R354). -/
def State.wbSector (s : State) (site pa : Nat) (q : Option QRef) : State × Bool :=
  match s.line? site (pa / 512) with
  | none => (s, true)
  | some l =>
    let k := pa / 128 % 4
    let base := pa / 128 * 128
    if !nbit l.dirty k then (s, true)
    else
      let f := fun i => if l.mask.getLsbD (128 * k + i % 128) then some (s.wByte site (base + i % 128)) else none
      let clean := s.withArc fun a => a.modLine site l.line fun x =>
        let y := x.cleaned (secBits (1 <<< k))
        { y with st := if y.dirty = 0 then .S else .M }
      if isRemote pa then
        let p := base - 2 ^ 58
        let d := maskedSectors (1 <<< (p / 128 % 4)) f
        clean.fabRequest site (p / 2 ^ 46)
          { ty := 0x11, tc := 0, addr := p % 2 ^ 46 / 512 * 512, part := l.part, sub := 1 <<< (p / 128 % 4), len := d.length } d
          (match q with | some q => .release q site | none => .writeBack site base l.part)
      else
        let d := maskedSectors 1 f
        match s.hostPort (winHost pa) with
        | none => (clean, false)
        | some _ => (clean.hostReqM true (winHost pa) 1 (winOff base) 128 d
            (match q with | some q => .release q site | none => .writeBack site base l.part), true)

/-- The dirty bytes of an evicted line are lost: no port carries them (R346, R354). -/
def State.evictLost (s : State) (site pa part : Nat) : State :=
  s.report { cls := if isRemote pa then 0x0A else 0x0B, site := site, unit := if isRemote pa then 0 else winHost pa, status := 0, sev := sevPoison
             reporter := site, part := some part, addr := BitVec.ofNat 64 (if isRemote pa then pa - 2 ^ 58 else winOff pa)
             aux := BitVec.ofNat 64 (if isRemote pa then (pa - 2 ^ 58) / 2 ^ 46 % 65536 else 0) }

/-- An evicted line leaves the slice (R234, R261, R273): a dirty one of panel HBM sends WB, which names the partition in
its tag and no CID (R300), and stays in the eviction buffer until WB_ACK; one of memory outside the panel writes its
masked sectors back; a clean one leaves silently. -/
def State.evictLine (s : State) (l : ALine) : State :=
  if isOut (l.line * 512) then
    ((List.range 4).foldl (fun s k =>
      let r := s.wbSector l.site (l.line * 512 + 128 * k) none
      if r.2 then r.1 else r.1.evictLost l.site (l.line * 512 + 128 * k) l.part) s).dropLine l.site l.line
  else
    let s := s.dropLine l.site l.line
    if l.dirty = 0 then s
    else
      let s := s.withArc fun a => { a with evict := a.evict ++ [l] }
      s.send .wb { line := l.line, req := l.site, src := l.site, dst := homeOf (l.line * 512), part := l.part, sectors := l.dirty
                   mask := l.mask, poison := l.poison &&& l.dirty, tag := l.part }

/-! ### Lines of a slice (R207, R231-R234) -/

/-- The set of a line: the hash of R207 gives any 24,576 neighbouring lines different sets (DEDUCED, log entry 101). -/
def setOf (line : Nat) : Nat := line % 24576

/-- Lines of a slice in the set of `line`, most recently used first. -/
def State.setLines (s : State) (site line : Nat) : List ALine :=
  s.arc.lines.filter fun l => l.site == site && l.hint != 3 && setOf l.line == setOf line

/-- Tentative lines that the runs of a site hold, with their runs. -/
def State.tentLines (s : State) (site : Nat) : List (Nat × Nat) :=
  s.runs.flatMap fun e => match e.2 with
    | some r => if r.site = site then r.tlines.map fun l => (e.1, l) else []
    | none => []

/-- The tentative lines of a slice in the set of `line`. -/
def State.setTent (s : State) (site line : Nat) : List (Nat × Nat) :=
  (s.tentLines site).filter fun l => setOf l.2 == setOf line

/-- Chooses the victim of a set (R234): the STREAM line, the least recently used NORMAL line, the least
recently used KEEP line. `set` is most recently used first. -/
def victimOf (set : List ALine) : Option ALine :=
  match set.reverse.find? fun l => l.hint = 2 with
  | some l => some l
  | none => match set.reverse.find? fun l => l.hint = 0 with
    | some l => some l
    | none => set.getLast?

/-- The class that an access with a hint gives a line that is not held (R233). -/
def State.newClass (s : State) (site line part hint : Nat) : Nat :=
  if hint = 1 then
    let keep := (s.setLines site line).filter fun l => l.hint = 1
    let mine := keep.filter fun l => l.part = part
    if mine.length < s.fld (arcKeep site part) 0 4 ∧ keep.length + (s.setTent site line).length < 12 then 1 else 0
  else if hint = 2 then 2 else 0

/-- A way of a set is freed where all 16 are taken (R234). -/
def State.freeWay (s : State) (site line : Nat) : State :=
  let set := s.setLines site line
  if set.length + (s.setTent site line).length < 16 then s
  else match victimOf set with
    | some v => s.evictLine v
    | none => s

/-- A line taken into a slice, with its victim evicted (R233, R234). What a LAST access fetches takes no way. -/
def State.allocLine (s : State) (l : ALine) (hint : Nat) : State :=
  if hint = 3 then s.withArc fun a => a.putLine { l with hint := 3 }
  else
    let cls := s.newClass l.site l.line l.part hint
    let s := if hint = 1 ∧ cls = 0 then s.sat (arcKeepDemote l.site) 0 48 1 else s
    let s := match (if hint = 2 then (s.setLines l.site l.line).find? fun x => x.hint = 2 else none) with
      | some v => s.evictLine v
      | none => s.freeWay l.site l.line
    s.withArc fun a => a.putLine { l with hint := cls }

/-- A held line touched by an access with a hint (R233): STREAM leaves its place as it is. -/
def State.touchLine (s : State) (l : ALine) (hint : Nat) : State :=
  if l.hint = 3 then (if hint = 3 then s else s.allocLine l hint)
  else if hint = 2 then s
  else
    let up := decide (hint = 1) && decide (l.hint ≠ 1)
    let cls := if up then s.newClass l.site l.line l.part 1 else l.hint
    let s := if up && decide (cls ≠ 1) then s.sat (arcKeepDemote l.site) 0 48 1 else s
    s.withArc fun a => a.putLine { l with hint := if up && decide (cls = 1) then 1 else l.hint }

/-- A slice's request of its own is in progress for a line. -/
def State.mshr? (s : State) (site line : Nat) : Option Mshr :=
  s.arc.mshrs.find? fun m => m.site == site && m.line == line

/-- A slice asks a line's home for it (R264). While a request for the line is in progress, what it lacks is asked for
when that one is complete. -/
def State.request (s : State) (t : MsgTy) (site line part cid sectors : Nat) (wmask : BitVec 512) (hint : Nat) : State :=
  match s.mshr? site line with
  | some _ =>
    s.withArc fun a => { a with mshrs := a.mshrs.map fun x =>
      if x.site == site && x.line == line then
        { x with wmask := x.wmask ||| wmask, later := x.later ||| (sectors &&& (15 - x.asked % 16)) }
      else x }
  | none =>
    let s := s.withArc fun a => { a with mshrs := a.mshrs ++
      [{ site := site, line := line, asked := sectors, wmask := wmask, part := part, hint := hint }] }
    s.send t { line := line, req := site, src := site, dst := homeOf (line * 512), part := part, cid := cid,
               sectors := sectors, hint := hint }

/-- The state of the line after a local read of the bytes of a mask: a hit, or RD_S for the sectors that it lacks (R232,
R264). -/
def State.readTouch (s : State) (site line part cid : Nat) (need : BitVec 512) (hint : Nat) : State :=
  match s.line? site line with
  | some l =>
    let s := s.touchLine l hint
    if l.lacks need = 0 then s else s.request .rdS site line part cid (l.lacks need) 0#512 hint
  | none => s.request .rdS site line part cid (secsOf need) 0#512 hint

/-- The state of the line after a local write of the bytes of a mask, without waiting for its sectors (R232, R264): M and
E write silently, S and O ask for UPGR, I for OWN. -/
def State.writeTouch (s : State) (site line part cid : Nat) (m : BitVec 512) (hint : Nat) : State :=
  match s.line? site line with
  | some l =>
    let s := s.touchLine l hint
    match l.st with
    | .M => s.withArc fun a => a.modLine site line fun x => x.wrote m (s.baseMarks line) part
    | .E => s.withArc fun a => a.modLine site line fun x => { x.wrote m (s.baseMarks line) part with st := .M }
    | .S => s.request .upgr site line part cid 0 m hint
    | .O => s.request .upgr site line part cid 0 m hint
    | .I => s.request .own site line part cid 0 m hint
  | none => s.request .own site line part cid 0 m hint

/-! ### Reads outside the panel -/

/-- A read of a sector outside the panel is already on its way for a site. -/
def State.readInFlight (s : State) (site sec : Nat) : Bool :=
  (s.host.pend.any fun e => match e.2.2 with
    | .readLine x p _ _ => x = site && p / 128 = sec
    | _ => false)
  || (s.fabUses.any fun u => match u with
    | .readLine x p _ _ => x = site && p / 128 = sec
    | _ => false)

/-- Asks for a sector of a host window (R346) or of another panel (R353). -/
def State.fetchOut (s : State) (w : Who) (sec hint : Nat) : State :=
  let pa := sec * 128
  if s.readInFlight w.site sec then s
  else if isRemote pa then
    let p := pa - 2 ^ 58
    let pkt : NF := { ty := 0x10, tc := 0, addr := p % 2 ^ 46 / 512 * 512, part := w.part, sub := 1 <<< (p / 128 % 4), cid := w.cid }
    let r := s.fabRequest w.site (p / 2 ^ 46) pkt [] (.readLine w.site pa w.part hint)
    if r.2 then r.1 else s.withArc fun a => { a with wbad := a.wbad ++ [(wKey w.site pa / 128, stProtection)] }
  else s.hostReq (winHost pa) 0 (winOff pa) 128 [] (.readLine w.site pa w.part hint)

/-- Lays bytes of a table over bytes read from `pa` up; an earlier entry wins. -/
def overlay (t : List (Nat × W8)) (pa : Nat) (bs : Bytes) : Bytes :=
  bs.mapIdx fun i b => ((t.find? fun e => e.1 = pa + i).map (·.2)).getD b

/-- The bytes of write-combining entries that the accessor's launch reads over a line (R237). -/
def State.wcbBytes (s : State) (w : Who) : List (Nat × W8) :=
  (s.arc.wcb.filter fun e => e.site = w.site && (if w.pinned then e.pinned && e.part = w.part && e.cid = w.cid else !e.pinned && w.run ≠ 0 && e.run = w.run)).flatMap (·.bytes)

/-- The tentative bytes of the accessor's run (R204). -/
def State.tentOf (s : State) (w : Who) : List (Nat × W8) :=
  match s.run? w.run with
  | some r => if w.run = 0 then [] else r.tent
  | none => []

/-- What the accessor's launch reads over the committed bytes: its write-combining entries, then its tentative lines,
which are older (R204, R236, R237). -/
def State.ownBytes (s : State) (w : Who) : List (Nat × W8) := s.wcbBytes w ++ s.tentOf w

/-- The sectors outside the panel that a read needs and the slice does not hold. -/
def State.outMissing (s : State) (w : Who) (pa n : Nat) : List Nat :=
  let own := s.ownBytes w
  (sectorsOf pa n).filter fun x => (addrs (x * 128) 128).any fun a =>
    decide (pa ≤ a) && decide (a < pa + n) && !s.outHeld w.site a && !own.any fun e => e.1 = a

/-- A sector outside the panel leaves a slice, its dirty bytes discarded (R235). -/
def State.dropOutSector (s : State) (site sec : Nat) : State :=
  match s.line? site (sec / 4) with
  | none => s
  | some l =>
    let bit := 1 <<< (sec % 4)
    let y := { l.cleaned (secBits bit) with valid := l.valid &&& (15 - bit), dirty := l.dirty &&& (15 - bit), poison := l.poison &&& (15 - bit) }
    if y.valid = 0 && y.dirty = 0 then s.dropLine site l.line
    else (s.noteOut site l.line).withArc fun a => { a.modLine site l.line (fun _ => { y with st := if y.dirty = 0 then .S else .M }) with
      wcache := a.wcache.filter fun e => e.1 / 128 ≠ wKey site (sec * 128) / 128 }

/-! ### LAST (R235) -/

/-- A LAST access drops a sector from a slice: its dirty bytes are discarded (R235), so that each byte
reads its former value or the one in the stacks, by a free choice (R291). -/
def State.dropSector (s : State) (site sec : Nat) : State :=
  if isOut (sec * 128) then s.dropOutSector site sec
  else match s.line? site (sec / 4) with
  | none => s
  | some l =>
    let bit := 1 <<< (sec % 4)
    let s := ((List.range 128).filter fun i => l.mask.getLsbD (sec % 4 * 128 + i)).foldl (fun s i =>
        let r := s.freeBit
        if r.2 then r.1 else r.1.withArc fun a => a.wr (sec * 128 + i) (a.rdHbm (sec * 128 + i))) s
    let y := { l.cleaned (secBits bit) with valid := l.valid &&& (15 - bit), dirty := l.dirty &&& (15 - bit), poison := l.poison &&& (15 - bit) }
    if y.valid = 0 && y.dirty = 0 then s.dropLine site l.line else s.withArc fun a => a.modLine site l.line fun _ => y

/-- A run of a site without its mark on a sector. -/
def unmark (site sec : Nat) (e : Nat × Option Run) : Nat × Option Run :=
  match e.2 with
  | some r => if r.site = site then (e.1, some { r with marks := r.marks.filter (· != sec) }) else e
  | none => e

/-- A sector is dropped from the requester's slice and from its home's. -/
def State.dropBoth (s : State) (site sec : Nat) : State :=
  let s := s.dropSector site sec
  if isHbm (sec * 128) && homeOf (sec * 128) != site then s.dropSector (homeOf (sec * 128)) sec else s

/-- A LAST access has read a sector: dropped at once in a pinned command, else marked with the run
(R235). A later mark of the slice replaces an earlier one. -/
def State.lastSector (s : State) (w : Who) (sec : Nat) : State :=
  if w.run = 0 then s.dropBoth w.site sec
  else
    let s := { s with runs := s.runs.map (unmark w.site sec) }
    s.modRun w.run fun r => { r with marks := r.marks ++ [sec] }

/-! ### Reads -/

/-- Poison or a lost home found by a reader (R248). -/
def State.poisonRead (s : State) (w : Who) (pa n : Nat) : State × Option Nat :=
  let lost := s.isLost (homeOf pa)
  if lost || (sectorsOf pa n).any fun x => s.secPoison w.site x then
    let st := if lost then stSiteLost else stDataPoison
    let s := s.sat (arcErrStat (homeOf pa)) 48 16 1
    (s.report { cls := 0x05, site := homeOf pa, unit := 0, status := st, sev := sevPoison, reporter := w.site,
                part := some w.part, cid := w.cid, addr := BitVec.ofNat 64 pa }, some st)
  else (s, none)

/-- The lines of an access take its hint and what it lacks is asked for; after a LAST access its sectors are dropped. -/
def State.readLines (s : State) (w : Who) (pa n hint : Nat) : State :=
  let s := (linesOf pa n).foldl (fun s l =>
    if isOut pa then (match s.line? w.site l with
      | some x => s.touchLine x hint
      | none => s)
    else s.readTouch w.site l w.part w.cid (byteMask l pa n) hint) s
  if hint = 3 then (sectorsOf pa n).foldl (fun s x => s.lastSector w x) s else s

/-- A read outside the panel: from the slice's copies where it holds the bytes, else the missing
sectors are asked for. -/
def State.readOut (s : State) (w : Who) (pa n hint : Nat) : State × MRes Bytes :=
  match s.arc.wbad.find? fun e => (sectorsOf (wKey w.site pa) n).contains e.1 with
  | some e => (s.withArc fun a => { a with wbad := a.wbad.filter (· != e) }, .err e.2 pa false)
  | none =>
    let need := s.outMissing w pa n
    if !need.isEmpty then (need.foldl (fun s x => s.fetchOut w x hint) s, .wait)
    else if (sectorsOf pa n).any fun x => (s.line? w.site (x / 4)).any fun l => nbit l.poison (x % 4) then (s, .err stDataPoison pa false)
    else (s.readLines w pa n hint, .ok (overlay (s.ownBytes w) pa ((addrs pa n).map (s.wByte w.site))))

/-- A read at a checked address (not across a page). -/
def State.readPa (s : State) (w : Who) (pa n hint : Nat) : State × MRes Bytes :=
  if isOut pa then s.readOut w pa n hint
  else if isWin pa then
    match s.winRefuse w.part w.cid (winSlot pa) (winOffset pa) n with
    | some code => (s, .err code (winOffset pa) false)
    | none => (s, .ok (s.rdLs (winSlot pa) (winOffset pa) n))
  else
    let p := s.poisonRead w pa n
    match p.2 with
    | some code => (p.1, .err code 0 false)
    | none => (s.readLines w pa n hint, .ok (overlay (s.ownBytes w) pa (s.rdMem pa n)))

/-- The byte that the accessor reads at a checked address, without touching any cache. -/
def State.byteAt (s : State) (w : Who) (pa : Nat) : W8 :=
  let b := if isOut pa then s.wByte w.site pa else if isWin pa then s.arc.rdLs (lsKey (winSlot pa) (winOffset pa)) else s.arc.rd pa
  (((s.ownBytes w).find? fun e => e.1 = pa).map (·.2)).getD b

/-! ### Writes -/

/-- An address of the B copy of a mirror pair (R249). -/
def State.mirrorB (s : State) (pa : Nat) : Bool :=
  s.arc.mirrors.any fun m => decide (m.b ≤ pa) && decide (pa < m.b + m.size)
/-- The B address of an address of an A copy. -/
def State.mirrorOf (s : State) (pa : Nat) : Option Nat :=
  (s.arc.mirrors.find? fun m => decide (m.a ≤ pa) && decide (pa < m.a + m.size)).map fun m => m.b + (pa - m.a)

/-- A write outside the panel into the slice's copy, which becomes M (R273). -/
def State.writeOut (s : State) (site part pa : Nat) (bs : Bytes) (hint : Nat) : State :=
  let s := s.noteOld (fun c => s.coreSite c = site) ((tableOf pa bs).map fun e => (e.1, s.wByte site e.1))
  let s := (linesOf pa bs.length).foldl (fun s l =>
    let m := byteMask l pa bs.length
    match s.line? site l with
    | some x => (s.touchLine x hint).withArc fun a => a.modLine site l fun x => { x.wrote m 0 part with st := .M }
    | none => s.allocLine (({ site := site, line := l, st := .M, valid := 0, dirty := 0, hint := 0, part := part } : ALine).wrote m 0 part) hint) s
  s.withArc fun a => a.wrOut site pa bs

/-- A write that is performed at a checked address (pinned commands, records, ring entries). -/
def State.writePa (s : State) (w : Who) (pa : Nat) (bs : Bytes) (hint0 : Nat) : State × MRes Unit :=
  let hint := if hint0 = 3 then 0 else hint0
  if isOut pa then (s.writeOut w.site w.part pa bs hint, .ok ())
  else if isWin pa then
    match s.winRefuse w.part w.cid (winSlot pa) (winOffset pa) bs.length with
    | some code => (s, .err code (winOffset pa) false)
    | none => (s.wrLs (winSlot pa) (winOffset pa) bs, .ok ())
  else if s.mirrorB pa then (s, .err stProtection pa false)
  else if s.isLost (homeOf pa) then (s, .err stSiteLost 0 false)
  else
    let s := s.mergeBytes pa bs
    ((linesOf pa bs.length).foldl (fun s l => s.writeTouch w.site l w.part w.cid (byteMask l pa bs.length) hint) s, .ok ())

/-! ### Tentative writes (R203-R207, R267) -/

/-- Space of a run in bytes (R206): 512 for a tentative line, 16 for a log entry. -/
def Run.space (r : Run) : Nat := 512 * r.tlines.length + 16 * r.logs.length

/-- The slice holds a line dirty whose committed value must be home before a run writes it (R205, R267); a line outside the
panel's HBM has no home (DEDUCED, log entry 125). -/
def State.needsPreWb (s : State) (site line : Nat) (r : Run) : Bool :=
  isHbm (line * 512) && !r.preimages.contains line && (s.line? site line).any fun l => l.st == .M || l.st == .O

/-- PRE_WB of a line (R205, R267): the writer waits for its WB_ACK. It names the run's partition and CID, and is charged to
the partition in the line's tag (R243). -/
def State.sendPreWb (s : State) (w : Who) (line : Nat) : State :=
  match s.line? w.site line, s.run? w.run with
  | some l, some r =>
    if r.preWait.contains line then s
    else
      let s := s.coarse (arcTentStat w.site) 32 16 256 1 true
      let s := s.modRun w.run fun r => { r with preWait := r.preWait ++ [line] }
      let s := s.withArc fun a => a.modLine w.site line fun x => { x with fresh := 0#512 }
      s.send .preWb { line := line, req := w.site, src := w.site, dst := homeOf (line * 512), part := w.part, cid := w.cid, run := w.run
                      sectors := l.dirty, mask := l.mask, poison := l.poison &&& l.dirty, tag := l.part }
  | _, _ => s

/-- A way of a set for a tentative line: a KEEP line gives it up where 12 ways are taken by the two, another victim where
all 16 are (R207, R234). -/
def State.tentWay (s : State) (site line : Nat) : State :=
  let keep := (s.setLines site line).filter fun l => l.hint = 1
  if 12 ≤ keep.length + (s.setTent site line).length then (match keep.getLast? with
    | some v => s.evictLine v
    | none => s)
  else s.freeWay site line

/-- A run's tentative line in its slice: there already, or taken now. Beyond the FOOTPRINT, or with 12 tentative lines of
its own in the set, the run is OVERSIZE (R206, R207); it waits for a way that other runs hold, and for the WB_ACK of the
committed value (R205). -/
def State.tentLine (s : State) (w : Who) (line : Nat) : State × MRes Unit :=
  match s.run? w.run with
  | none => (s, .ok ())
  | some r =>
    if r.tlines.contains line then (s, .ok ())
    else if r.space + 512 > r.res * 65536 then (s, .err stOversize 0 false)
    else
      let set := s.setTent w.site line
      if 12 ≤ set.length then (s, if set.all fun e => e.1 = w.run then .err stOversize 0 false else .wait)
      else if s.needsPreWb w.site line r then (s.sendPreWb w line, .wait)
      else ((s.tentWay w.site line).modRun w.run fun r => { r with tlines := r.tlines ++ [line] }, .ok ())

/-- The tentative lines of a write: what it waits for is asked for line by line. -/
def State.tentRoom (s : State) (w : Who) (ls : List Nat) : State × MRes Unit :=
  ls.foldl (fun (acc : State × MRes Unit) l =>
    match acc.2 with
    | .err _ _ _ => acc
    | .wait => let r := acc.1.tentLine w l
               (r.1, match r.2 with | .ok _ => .wait | x => x)
    | .ok _ => acc.1.tentLine w l) (s, .ok ())

/-- A tentative write of a run (R203): the bytes join the run's tentative bytes. -/
def State.writeTent (s : State) (w : Who) (pa : Nat) (bs : Bytes) (hint : Nat) : State × MRes Unit :=
  if isHbm pa && s.mirrorB pa then (s, .err stProtection pa false)
  else
    let t := s.tentRoom w (linesOf pa bs.length)
    match t.2 with
    | .ok _ =>
      let s := t.1.noteOld (fun c => c = w.q.core) ((tableOf pa bs).map fun e => (e.1, t.1.byteAt w e.1))
      (s.modRun w.run fun r => { r with
        tent := (tableOf pa bs).foldl (fun t e => tinsert (terase t e.1) e.1 e.2) r.tent
        hints := (linesOf pa bs.length).foldl (fun h l => tinsert (terase h l) l (if hint = 3 then 0 else hint)) r.hints }, .ok ())
    | x => (t.1, x)

/-- Logs an operation of a run (R203). -/
def State.logOp (s : State) (w : Who) (op : AtomOp) (remote : Bool) : State × MRes Unit :=
  match s.run? w.run with
  | none => (s, .ok ())
  | some r =>
    let r' := { r with logs := r.logs ++ [{ op := op, remote := remote }] }
    if r'.space > r.res * 65536 then (s, .err stOversize 0 false) else (s.setRun w.run (some r'), .ok ())

/-! ### Virtual addresses -/

/-- The piece of an access that lies in one 64 KiB page. -/
def pieceLen (va n : Nat) : Nat := min n (65536 - va % 65536)

/-- The table reads of a walk that the walk cache misses go through the Archive with hint NORMAL (R299, R305). -/
def State.tableTouch (s : State) (w : Who) (reads : List WalkE) : State :=
  let c := s.coreX w.q.core
  (reads.filter fun r => r.stage != 3 && !c.walk.any fun x => x.stage == r.stage && x.part == r.part && x.cid == r.cid && x.key == r.key).foldl
    (fun s r => s.readTouch w.site (r.key / 512) w.part w.cid (byteMask (r.key / 512) r.key 8) 0) s

/-- Translates an access, records a fault (R310) and keeps what the caches learn. -/
def State.xlat (s : State) (w : Who) (k : Acc) (va : Nat) : State × Except XErr XAddr :=
  match s.translate w k va with
  | .ok x => ((if (s.tlbHit w va).isSome then s else s.tableTouch w x.reads).cacheXlat w va x, .ok x)
  | .error e =>
    let s := (s.tableTouch w e.reads).cacheWalk w e.reads
    (if e.code = stTranslation ∨ e.code = stProtection then s.recordXlat w k va e else s, .error e)

/-- A PROTECTION_FAULT of an access whose translation has passed: recorded as a forbidden range, or as the refusal of
another panel (R310; DEDUCED, log entry 103). -/
def State.refuse (s : State) (w : Who) (k : Acc) (va code : Nat) (x : XAddr) : State :=
  if code = stProtection then s.recordXlat w k va { code := code, kind := if isRemote x.pa then 6 else 5, ipa := some x.ipa } else s

/-- Key of the REDUCE packets that a site's slice has sent for a sector. -/
def mopnKey (site sec : Nat) : Nat := site * 2 ^ 50 + sec

/-- The MOPNs of a launch on their way to their homes: as ATOM messages, at a home, or to another panel. -/
def State.atomsOf (s : State) (run : Nat) : List Nat :=
  let f (t : MsgTy) (m : CMsg) : Option Nat := if t == .atom && m.dest == .mopn run && !m.alt then some m.op.addr else none
  (s.net.msgs ++ s.arc.waitq).filterMap (fun e => f e.1 e.2)
    ++ s.arc.dirWait.filterMap (fun e => f e.1 e.2.1)
    ++ (s.arc.txns.filter fun t => t.kind == .sole).filterMap (fun t => f t.ty t.m)
    ++ s.fabUses.filterMap (fun u => match u with
      | .mopn r _ a => if r = run then some a else none
      | _ => none)

/-- An access to a sector is held while the site has REDUCE packets for it that are not acknowledged (R330). -/
def State.reduceHeld (s : State) (w : Who) (pa n : Nat) : Bool :=
  isHbm pa && (sectorsOf pa n).any fun x => tget 0 s.mesh.mopn (mopnKey w.site x) ≠ 0

/-- An access to a sector is held by the REDUCE packets of its site, and by an earlier MOPN of its own launch that has not
been performed: accesses of a thread to one address take effect in program order (R145). -/
def State.mopnHeld (s : State) (w : Who) (pa n : Nat) : Bool :=
  s.reduceHeld w pa n || (w.pinned && (s.atomsOf w.id).any fun a => (sectorsOf pa n).contains (a / 128))

/-- Reads a range of virtual addresses, page by page. -/
def State.readVaN (s : State) (w : Who) (k : Acc) (hint : Nat) : Nat → Nat → Nat → Bytes → State × MRes Bytes
  | 0, _, _, acc => (s, .ok acc)
  | fuel + 1, va, n, acc =>
    if n = 0 then (s, .ok acc)
    else
      let m := pieceLen va n
      let t := s.xlat w k va
      match t.2 with
      | .error e => (t.1, .err e.code va false)
      | .ok x =>
        let r := if t.1.mopnHeld w x.pa m then (t.1, .wait) else t.1.readPa w x.pa m hint
        match r.2 with
        | .ok bs => r.1.readVaN w k hint fuel (va + m) (n - m) (acc ++ bs)
        | .err c a l => (r.1.refuse w k va c x, .err c (if c = stProtection then va else a) l)
        | .wait => (r.1, .wait)

def State.readVa (s : State) (w : Who) (k : Acc) (va n hint : Nat) : State × MRes Bytes :=
  s.readVaN w k hint (n / 65536 + 2) va n []

/-- What a checked address of a command is refused with before it is accessed: a window request by the rows of R227, then
a repeatable or collective command's write to another core's window (R22, R201), a write to a B copy (R249). -/
def State.pageRefuse (s : State) (w : Who) (k : Acc) (pa n : Nat) : Option Nat :=
  if isWin pa then
    match s.winRefuse w.part w.cid (winSlot pa) (winOffset pa) n with
    | some c => some c
    | none => if k = .write ∧ w.run ≠ 0 ∧ winSlot pa ≠ s.coreSlotIx w.q.core then some stProtection else none
  else if k = .write ∧ isHbm pa ∧ s.mirrorB pa then some stProtection
  else none

/-- Translates every page of a range without accessing it: the first fault and its address. Pages of local-store windows
are not judged for a flush, which skips them (R274). -/
def State.checkVaN (s : State) (w : Who) (k : Acc) (flush : Bool) : Nat → Nat → Nat → State × Option (XErr × Nat)
  | 0, _, _ => (s, none)
  | fuel + 1, va, n =>
    if n = 0 then (s, none)
    else
      let t := s.xlat w k va
      match t.2 with
      | .error e => (t.1, some (e, va))
      | .ok x =>
        match (if flush then none else t.1.pageRefuse w k x.pa (pieceLen va n)) with
        | some c => (t.1.refuse w k va c x, some ({ code := c }, va))
        | none => t.1.checkVaN w k flush fuel (va + pieceLen va n) (n - pieceLen va n)

def State.checkVa (s : State) (w : Who) (k : Acc) (flush : Bool) (va n : Nat) : State × Option (XErr × Nat) :=
  s.checkVaN w k flush (n / 65536 + 2) va n

/-- Writes a range of virtual addresses, page by page: tentative for a run, performed otherwise. A
repeatable run that writes another core's local-store window is refused (R201). -/
def State.writeVaN (s : State) (w : Who) (hint : Nat) : Nat → Nat → Bytes → State × MRes Unit
  | 0, _, _ => (s, .ok ())
  | fuel + 1, va, bs =>
    if bs.isEmpty then (s, .ok ())
    else
      let m := pieceLen va bs.length
      let t := s.xlat w .write va
      match t.2 with
      | .error e => (t.1, .err e.code va false)
      | .ok x =>
        let r := match t.1.pageRefuse w .write x.pa m with
          | some c => (t.1, MRes.err c va false)
          | none =>
            if t.1.mopnHeld w x.pa m then (t.1, .wait)
            else if w.run ≠ 0 && !isWin x.pa then t.1.writeTent w x.pa (bs.take m) hint
            else t.1.writePa w x.pa (bs.take m) hint
        match r.2 with
        | .ok _ => r.1.writeVaN w hint fuel (va + m) (bs.drop m)
        | .err c a l => (r.1.refuse w .write va c x, .err c (if c = stProtection then va else a) l)
        | .wait => (r.1, .wait)

def State.writeVa (s : State) (w : Who) (va : Nat) (bs : Bytes) (hint : Nat) : State × MRes Unit :=
  s.writeVaN w hint (bs.length / 65536 + 2) va bs

/-- The tentative lines of a range of virtual addresses that a run will write: what they wait for is asked for, so that
the write can then be made at once (R205, R207). -/
def State.tentVaN (s : State) (w : Who) : Nat → Nat → Nat → State × MRes Unit
  | 0, _, _ => (s, .ok ())
  | fuel + 1, va, n =>
    if n = 0 || w.run = 0 then (s, .ok ())
    else
      let m := pieceLen va n
      let r : State × MRes Unit := match s.translate w .write va with
        | .ok x => if isWin x.pa then (s, .ok ()) else s.tentRoom w (linesOf x.pa m)
        | .error _ => (s, .ok ())
      match r.2 with
      | .err c a l => (r.1, .err c a l)
      | x =>
        let t := r.1.tentVaN w fuel (va + m) (n - m)
        (t.1, (match t.2 with
          | .ok _ => x
          | y => y))
def State.tentVa (s : State) (w : Who) (va n : Nat) : State × MRes Unit := s.tentVaN w (n / 65536 + 2) va n

/-! ### Memory-side operations (R238) -/

/-- The value that an operation leaves, given the old one (R149, R238). -/
def atomValue (o : AtomOp) (old : Nat) : Nat :=
  let w := 8 * o.size
  let v := o.val.toNat % 2 ^ w
  let sOld := sext old w
  let sV := sext v w
  match o.sub with
  | 0x0 => (old + v) % 2 ^ w
  | 0x1 => if sV < sOld then v else old
  | 0x2 => if sOld < sV then v else old
  | 0x3 => min old v
  | 0x4 => max old v
  | 0x5 => old &&& v
  | 0x6 => old ||| v
  | 0x7 => old ^^^ v
  | 0x8 => v
  | 0x9 => if old = o.cmp.toNat % 2 ^ w then v else old
  | 0xA => (f32add (BitVec.ofNat 32 old) (BitVec.ofNat 32 v)).toNat
  | 0xB =>
    let h (k : Nat) := (toBf16 .rne ((bf16 (nbits old (16 * k) 16)).add (bf16 (nbits v (16 * k) 16)))).1
    h 0 + h 1 * 65536
  | 0xC =>
    let h (k : Nat) := (toF16 .rne ((f16 (nbits old (16 * k) 16)).add (f16 (nbits v (16 * k) 16)))).1
    h 0 + h 1 * 65536
  | _ => old

/-- A SUB and SIZE that R149 allows: `mopn`, `mopr` and `lopr` say for which opcode. -/
def subOk (mopn mopr lopr : Bool) (sub sizeCode : Nat) : Bool :=
  let sz4 := decide (sizeCode = 2)
  let sz48 := decide (sizeCode = 2) || decide (sizeCode = 3)
  if sub ≤ 7 then sz48
  else if sub ≤ 9 then sz48 && (mopr || lopr)
  else if sub = 0xA then sz4
  else if sub ≤ 0xC then sz4 && mopn
  else false

/-- Sends a memory-side operation to the home of its address (R238). -/
def State.sendAtom (s : State) (w : Who) (op : AtomOp) (dest : AtomDest) : State :=
  s.send .atom { line := op.addr / 512, req := w.site, src := w.site, dst := homeOf op.addr, part := w.part, cid := w.cid,
                 op := op, dest := dest, run := 0 }

end Sys2Proof.Machine
end

