-- ==== Sys2Proof/Machine/Desc.lean ====
section
/-!
DEFINITION. Descriptors (06_submission R176-R181, R188, R191, R193, 03_matrix_engines R69-R71,
04_thread_engine R88, 08_archive_and_memory R253, R255): the fields of the common header, the reserved
bits and the indirect fields of each opcode, and the checks of R178.
-/

namespace Sys2Proof.Machine

/-- The field of `w` bits at bit `lo` of byte `off` of a descriptor. -/
def dF (d : Desc) (off lo w : Nat) : Nat := fldOf d (off * 8 + lo) w

/-! ### The common header (R176) -/

def hOpc (d : Desc) : Nat := dF d 0x00 0 8
def hClass (d : Desc) : Nat := dF d 0x01 0 2
def hFence (d : Desc) : Nat := dF d 0x01 2 2
def hCr (d : Desc) : Bool := nbit d.toNat 12
def hNotify (d : Desc) : Bool := nbit d.toNat 13
def hArmed (d : Desc) : Bool := nbit d.toNat 14
def hInd (d : Desc) : Nat := dF d 0x02 0 16
def hTag (d : Desc) : Nat := dF d 0x04 0 32
def hWaitSlot (d : Desc) : Nat := dF d 0x08 0 16
def hRecSlot (d : Desc) : Nat := dF d 0x0A 0 16
def hWaitValue (d : Desc) : Nat := dF d 0x0C 0 32
def hRecValue (d : Desc) : Nat := dF d 0x10 0 32
def hWaitEn (d : Desc) : Bool := nbit d.toNat 160
def hRecEn (d : Desc) : Bool := nbit d.toNat 161
def hRecSet (d : Desc) : Bool := nbit d.toNat 162
def hRsInd (d : Desc) : Bool := nbit d.toNat 168
def hRsEvt (d : Desc) : Bool := nbit d.toNat 169
def hChainEn (d : Desc) : Bool := nbit d.toNat 176
def hChainEng (d : Desc) : Nat := dF d 0x16 1 3
def hChainQ (d : Desc) : Nat := dF d 0x16 4 2
def hChainId (d : Desc) : Nat := dF d 0x16 8 8
def hEnergy (d : Desc) : Nat := dF d 0x18 0 32
def hFoot (d : Desc) : Nat := dF d 0x1C 0 16
def hArmId (d : Desc) : Nat := dF d 0x1E 0 8

/-! ### Opcodes (R177, R252) -/

def opNop : Nat := 0x00
def opSpawn : Nat := 0x02
def opCall : Nat := 0x03
def opPatch : Nat := 0x04
def opMatmul : Nat := 0x20
def opLaunch : Nat := 0x30
/-- COPY, FILL, GATHER, SCATTER, PREFETCH, FLUSH_RANGE. -/
def isXfer (op : Nat) : Bool := [0x40, 0x41, 0x42, 0x43, 0x48, 0x49].contains op
/-- ALLREDUCE, REDUCE_SCATTER, ALLGATHER, ALLTOALL. -/
def isColl (op : Nat) : Bool := [0x50, 0x51, 0x52, 0x53].contains op
/-- Queue operations, which the fetch unit runs and which do not occupy the engine (R169). -/
def isQueueOp (op : Nat) : Bool := [0x00, 0x02, 0x03, 0x04].contains op

/-- The opcode is accepted by an engine (R177). -/
def opAccepted (op eng : Nat) : Bool :=
  isQueueOp op || (op = opMatmul && decide (eng < 4)) || (op = opLaunch && decide (eng = 4))
    || ((isXfer op || isColl op) && decide (5 ≤ eng))

/-- The class is allowed for the opcode (R177, R252). -/
def classAllowed (op cls : Nat) : Bool :=
  if op = 0x00 ∨ op = opLaunch ∨ (0x40 ≤ op ∧ op ≤ 0x43) then decide (cls ≤ 1)
  else if op = opPatch then decide (cls = 1)
  else if isColl op then decide (cls = 2)
  else decide (cls = 0)

/-- The fields of an opcode that may be indirect, in table order: first bit and width (R179, R188,
R191, R193, R69, R88, R253, R255). -/
def indFields (op : Nat) : List (Nat × Nat) :=
  if op = opSpawn then [(0x20 * 8, 55), (0x28 * 8, 16)]
  else if op = opCall then [(0x20 * 8, 55)]
  else if op = opPatch then [(0x28 * 8, 55), (0x30 * 8, 16), (0x32 * 8, 16), (0x34 * 8, 16)]
  else if op = opMatmul then [(0x68 * 8, 16), (0x6A * 8, 16), (0x6C * 8, 16), (0x70 * 8, 32), (0x74 * 8, 8), (0x78 * 8, 55)]
  else if op = opLaunch then [(0x28 * 8, 55), (0x30 * 8, 32), (0x34 * 8, 16), (0x36 * 8, 16)]
  else if isXfer op then [(0x20 * 8, 55), (0x28 * 8, 55), (0x30 * 8, 32), (0x34 * 8, 32), (0x48 * 8, 64)]
  else if isColl op then [(0x38 * 8, 32), (0x3C * 8, 16), (0x48 * 8, 55)]
  else []

/-- Reserved bits beyond the common header: byte, first bit, width. -/
def rsvFields (op : Nat) : List (Nat × Nat × Nat) :=
  if op = opNop then [(0x20, 0, 768)]
  else if op = opSpawn then [(0x20, 55, 9), (0x2B, 6, 2), (0x2C, 0, 672)]
  else if op = opCall then [(0x20, 55, 9), (0x2C, 0, 672)]
  else if op = opPatch then [(0x20, 55, 9), (0x28, 55, 9), (0x36, 0, 592)]
  else if op = opMatmul then
    ([0x20, 0x38, 0x50].flatMap fun o => [(o + 0x14, 4, 4), (o + 0x15, 1, 7), (o + 0x16, 0, 16)])
      ++ [(0x6E, 12, 4), (0x76, 0, 16), (0x78, 55, 9)]
  else if op = opLaunch then [(0x20, 55, 9), (0x28, 55, 9), (0x44, 6, 2), (0x45, 4, 4), (0x48, 0, 448)]
  else if isXfer op then [(0x20, 55, 9), (0x28, 55, 9), (0x40, 6, 10), (0x42, 0, 48), (0x50, 0, 384)]
  else if isColl op then [(0x20, 55, 9), (0x2E, 0, 16), (0x3E, 4, 12), (0x40, 55, 9), (0x48, 55, 9), (0x50, 0, 384)]
  else []

/-- Reserved bits of the common header. -/
def hdrRsv : List (Nat × Nat × Nat) := [(0x01, 7, 1), (0x14, 10, 6), (0x16, 6, 2), (0x1F, 0, 8)]

/-- A head descriptor that the fetch unit refuses with ILLEGAL_INSTRUCTION (R178); inside a pour also
CALL_PATTERN and PATCH (R192). -/
def hdrBad (eng : Nat) (pour : Bool) (d : Desc) : Bool :=
  !opAccepted (hOpc d) eng
    || decide (hClass d = 3) || !classAllowed (hOpc d) (hClass d)
    || decide (hInd d ≥ 2 ^ (indFields (hOpc d)).length)
    || (hdrRsv ++ rsvFields (hOpc d)).any (fun f => decide (dF d f.1 f.2.1 f.2.2 ≠ 0))
    || (!hArmed d && decide (hArmId d ≠ 0))
    || (!hChainEn d && decide (dF d 0x16 1 15 ≠ 0))
    || decide (hChainEng d = 7)
    || (pour && (decide (hOpc d = opCall) || decide (hOpc d = opPatch)))

/-! ### Failures -/

/-- How a command fails: its status, the address or local-store offset of DETAIL, and the index of a record that
names another descriptor than the command's own (GRAPH_TORN, R192). -/
structure Fail where
  code : Nat
  detail : Option (Nat × Bool) := none
  index : Option Nat := none
  deriving DecidableEq, Repr, Inhabited

/-- The failure of an access to memory: translation and protection faults carry the address (R197). -/
def failOf (code addr : Nat) (ls : Bool) : Fail :=
  { code := code, detail := if code = stTranslation ∨ code = stProtection then some (addr, ls) else none }

end Sys2Proof.Machine
end

