-- ==== Sys2Proof/Machine/QueOps.lean ====
section
/-!
DEFINITION. Queues and runs (06_submission R169-R171, R197-R199, 07_commit_and_rerun R203-R215,
17_power_and_clocks R430, R431): the head command, the Ledger, completion records, what a queue does
after each status, kill, commit, and what follows a completed commit.
-/

namespace Sys2Proof.Machine

/-! ### Commands of a queue -/

def Cmd.same (a b : Cmd) : Bool := a.submit == b.submit && a.index == b.index && a.pour == b.pour

/-- The head command: the first that has not reached its commit point (R169). -/
def headOf (x : QueX) : Option Cmd := x.cmds.find? fun c => c.phase != .committed

def State.head (s : State) (q : QRef) : Option Cmd := headOf (s.q q)
def State.modCmd (s : State) (q : QRef) (c : Cmd) (f : Cmd → Cmd) : State :=
  s.modQ q fun x => { x with cmds := x.cmds.map fun e => if e.same c then f e else e }
def State.cmd? (s : State) (q : QRef) (c : Cmd) : Option Cmd := (s.q q).cmds.find? (·.same c)
def State.dropCmd (s : State) (q : QRef) (c : Cmd) : State :=
  s.modQ q fun x => { x with cmds := x.cmds.filter fun e => !e.same c }

/-- The command of a run, with its queue. -/
def State.cmdOfRun (s : State) (id : Nat) : Option (QRef × Cmd) :=
  match s.run? id with
  | none => none
  | some r => ((s.q r.q).cmds.find? fun c => c.run = id).map fun c => (r.q, c)

/-- The partner of a matrix engine (R81). -/
def partnerOf (e : Nat) : Nat := if e % 2 = 0 then e + 1 else e - 1

/-- First register of an engine's block. -/
def engB (c e : Nat) : Nat := if e < 4 then mexB c e else if e = 4 then texB c else movB c (e - 5)

def State.setQState (s : State) (q : QRef) (st : Nat) : State := s.setFld (queStatus q) 0 4 st

/-- States that a command does not change: HALTED, BLOCKED, SUSPENDED, KILLED, LOST. -/
def stuckState (st : Nat) : Bool := decide (5 ≤ st)

/-- Free entries of the completion ring (R197): those neither written and unread nor kept. -/
def State.crFree (s : State) (q : QRef) : Nat :=
  let l := 2 ^ s.fld (queCfg q) 16 5
  let used := wsub (s.fld (queCrTail q) 0 32) (s.fld (queCrHead q) 0 32)
  let kept := ((s.q q).cmds.filter fun c => c.phase != .queued).length
  l - used - kept - (s.q q).ring.out.length

/-- Runs of a core (or of one of its engines) past their commit point and not completed: those that commit, and the
pinned ones, whose commit point is their start (R209). -/
def State.committing (s : State) (core : Nat) (eng : Option Nat) : List Nat :=
  (s.runs.filter fun e => match e.2 with
    | some r => (r.phase == .committed || (r.cls == 1 && (r.phase == .running || r.phase == .workDone))) && r.q.core == core && (match eng with | some x => r.q.eng == x | none => true)
    | none => false).map (·.1)

/-- A command reaches the head: what its FENCE waits for is fixed (R184). -/
def State.headUpdate (s : State) (q : QRef) : State :=
  match s.head q with
  | none => s
  | some c =>
    if c.atHead then s
    else
      let f := if hFence c.raw = 2 then s.committing q.core (some q.eng)
        else if hFence c.raw = 3 then s.committing q.core none else []
      s.modCmd q c fun c => { c with atHead := true, fences := f }

/-- STATE of a queue after a change. -/
def State.refreshQ (s : State) (q : QRef) : State :=
  let s := s.headUpdate q
  let st := s.qState q
  if stuckState st then s
  else
    let active := (s.q q).cmds.any fun c => c.phase != .queued
    if !s.qEnabled q && !active then s.setQState q 0
    else match s.head q with
      | some c =>
        if c.phase == .queued then s.setQState q (if st = 4 && s.crFree q = 0 then 4 else 2) else s.setQState q 3
      | none => s.setQState q (if active then 3 else 1)

/-- The engine's registers while a command runs (MEX_STATUS, TEX_STATUS, MOV_STATUS). -/
def State.setBusy (s : State) (q : QRef) (op : Nat) : State :=
  let k := engB q.core q.eng
  let s := (s.setFld k 0 1 1).setFld k 1 2 q.q
  if 5 ≤ q.eng then s.setFld k 8 8 op else s
def State.clearBusy (s : State) (core eng : Nat) : State :=
  let s := s.setFld (engB core eng) 0 1 0
  if eng < 4 then
    let s := if s.bit (engB core eng) 4 then s.setFld (engB core (partnerOf eng)) 5 1 0 else s
    (s.setFld (engB core eng) 3 1 0).setFld (engB core eng) 4 1 0
  else s

/-! ### Incidents about a command (R436) -/

def State.qReport (s : State) (q : QRef) (cls status sev aux : Nat) (tag : Nat) : State :=
  let x := s.coreSite q.core
  s.report { cls := cls, site := x, unit := s.coreSlot q.core * 8 + q.eng, status := status, sev := sev, reporter := x,
             part := s.corePart q.core, cid := s.qCid q, tag := tag, eng := q.eng, q := q.q, aux := BitVec.ofNat 64 aux }

/-! ### The Ledger (R429-R431) -/

def engType (e : Nat) : Nat := if e < 4 then 0 else if e = 4 then 1 else 2

/-- The energy that a command holds when the Ledger admits it; none when it is deferred. -/
def State.ledgerAdmit (s : State) (q : QRef) (energy : Nat) : Option Nat :=
  let x := s.coreSite q.core
  let p := (s.corePart q.core).getD 0
  let c := ceilDiv (energy * s.fld (ldgFactor x p) (16 * engType q.eng) 16) 256
  let budget := s.fld (ldgCfg x p) 0 32
  let held := s.fld (ldgAcct x p) 0 32 + s.fld (ldgAcct x p) 32 32
  if budget = 0 ∨ c = 0 then some 0
  else
    let limit := if q.q < 2 then budget else budget * (100 - s.fld (ldgCfg x p) 48 7) / 100
    if held + c ≤ limit ∨ held = 0 then some c else none

/-- F + (m / ENERGY - F) / 16 in 8.8, rounded to nearest (a tie by a free choice), held in 0.25-4.0. -/
def factorNext (f m energy : Nat) (up : Bool) : Nat :=
  let num := 15 * f * energy + 256 * m
  let den := 16 * energy
  let r := 2 * (num % den)
  let v := num / den + (if den < r then 1 else if r = den then b2n up else 0)
  max 64 (min 1024 v)

/-- A run ends (R430, R431): what it held is given back, the energy it took is counted. -/
def State.ledgerEnd (s : State) (q : QRef) (c : Cmd) : State :=
  match c.held with
  | none => s
  | some h =>
    let x := s.coreSite q.core
    let p := (s.corePart q.core).getD 0
    let s := s.setFld (ldgAcct x p) 32 32 (s.fld (ldgAcct x p) 32 32 - h)
    let m := s.freeNum
    let s := m.1.sat (ldgAcct x p) 0 32 m.2
    let e := hEnergy c.raw
    let s := if e = 0 then s else
      let u := s.freeBit
      let lo := 16 * engType q.eng
      u.1.setFld (ldgFactor x p) lo 16 (factorNext (u.1.fld (ldgFactor x p) lo 16) m.2 e u.2)
    s.modCmd q c fun c => { c with held := none }

/-! ### Completion records (R197, R198) -/

/-- The bytes of a record; PHASE is filled in when it is written. -/
def recBits (op core eng queue : Nat) (pour : Bool) (tag index reruns site submit : Nat) (time : W64) (f : Fail) : BitVec 256 :=
  let det := match f.detail with
    | some (a, ls) => a % 2 ^ 55 + b2n ls * 2 ^ 62 + 2 ^ 63
    | none => 0
  BitVec.ofNat 256
    (f.code + op * 2 ^ 8 + core * 2 ^ 16 + (eng + queue * 8 + b2n pour * 32) * 2 ^ 24 + tag * 2 ^ 32
      + index * 2 ^ 64 + min reruns 255 * 2 ^ 80 + site * 2 ^ 88 + submit * 2 ^ 96 + time.toNat * 2 ^ 128 + det * 2 ^ 192)

/-- CR_LOG2 of a queue or a service ring. -/
def State.crLog (s : State) (t : CrTarget) : Nat := s.fld (ctB t) 16 5

/-- Who writes the records of a queue or a service ring. A clerk stands at number 256 + partition, and
accesses memory from the site of its ring die. -/
def State.ctWho (s : State) : CrTarget → Who
  | .que q => s.who q
  | .svc p k =>
    { q := { core := 256 + p, eng := 0, q := k }, part := p, cid := s.fld (svcB p k) 32 16
      site := ringSite (s.recX (.svc p k)).die }

/-- QUE_OVF0-3 show the first record that is held (R198). -/
def State.showHeld (s : State) (t : CrTarget) : State :=
  match (s.recX t).held with
  | (b, _) :: _ => (List.range 4).foldl (fun (s : State) j => s.setReg (ctOvf t j) (BitVec.ofNat 64 (fldOf b (64 * j) 64))) s
  | [] => s

/-- Enters BLOCKED with a record that could not be written (R198). -/
def State.block (s : State) (t : CrTarget) (recs : List (BitVec 256 × Bool)) (addr : Nat) : State :=
  let r := s.recX t
  let s := s.setRecX t { r with held := recs ++ r.held, failAddr := addr }
  let s := if stuckState (s.fld (ctStatus t) 0 4) && s.fld (ctStatus t) 0 4 ≠ 5 then s
    else (s.setFld (ctStatus t) 0 4 6).setFld (ctStatus t) 8 8 stCompletionBlocked
  (s.showHeld t).notify t

/-- A record that has been written raises CR_TAIL; the notification it asks for follows. -/
def State.recordDone (s : State) (t : CrTarget) (note : Bool) : State :=
  let s := s.bump (ctCrTail t) 0 32 1
  if note then s.notify t else s

/-- Writes a record: into HBM or a window at once; into a host window bytes 4 to 31 first, then, once
they are acknowledged, the dword at 0. -/
def State.emitRecord (s : State) (t : CrTarget) (b : BitVec 256) (note : Bool) : State :=
  let r := s.recX t
  if !r.held.isEmpty then s.setRecX t { r with held := r.held ++ [(b, note)] }
  else
    let i := (s.fld (ctCrTail t) 0 32 + r.out.length) % 2 ^ 32
    let l := s.crLog t
    let b := putFld b 31 1 (b2n (!nbit i l))
    let va := (s.fld (ctCrBase t) 0 55) + 32 * (i % 2 ^ l)
    let w := s.ctWho t
    let x := s.xlat w .write va
    match x.2 with
    | .error _ => x.1.block t [(b, note)] va
    | .ok a =>
      if isHostWin a.pa then
        match x.1.hostPort (winHost a.pa) with
        | none => x.1.block t [(b, note)] va
        | some _ =>
          let s := x.1.setRecX t { r with out := r.out ++ [{ va := va, bits := b, note := note }] }
          s.hostReq (winHost a.pa) 1 (winOff a.pa + 4) 28 (toBytes 28 (b.toNat / 2 ^ 32)) (.record t va)
      else
        let y := x.1.writePa w a.pa (toBytes 32 b.toNat) 0
        match y.2 with
        | .ok _ => y.1.recordDone t note
        | _ => y.1.block t [(b, note)] va

/-- A host acknowledges a part of the oldest record on its way (R346). -/
def State.recordAck (s : State) (t : CrTarget) (va : Nat) : State :=
  let r := s.recX t
  match r.out.find? fun e => e.va = va with
  | none => s
  | some e =>
    if e.last then (s.setRecX t { r with out := eraseFirst (fun x => x.va = va) r.out }).recordDone t e.note
    else
      let x := s.xlat (s.ctWho t) .write va
      match x.2 with
      | .error _ => (x.1.setRecX t { r with out := eraseFirst (fun x => x.va = va) r.out }).block t [(e.bits, e.note)] va
      | .ok a =>
        let s := x.1.setRecX t { r with out := r.out.map fun y => if y.va = va then { y with last := true } else y }
        s.hostReq (winHost a.pa) 1 (winOff a.pa) 4 (toBytes 4 (e.bits.toNat % 2 ^ 32)) (.record t va)

/-- A record write failed at the host (R346): the records from it on are held. -/
def State.recordFail (s : State) (t : CrTarget) (va : Nat) : State :=
  let r := s.recX t
  let after := r.out.dropWhile fun e => e.va != va
  let s := s.setRecX t { r with out := r.out.takeWhile fun e => e.va != va }
  s.block t ((after.map fun e => (e.bits, e.note)).filter fun e => fldOf e.1 0 8 ≠ stCompletionBlocked) va

/-! ### Runs (R203, R206) -/

/-- Space reserved in a slice by all partitions, in units of 64 KiB. -/
def State.reservedIn (s : State) (x : Nat) : Nat :=
  (List.range 16).foldl (fun a p => a + s.fld (arcTent x p) 16 16) 0

/-- Room for a reservation in the partition's quota and in the slice (R206). -/
def State.roomFor (s : State) (x p n : Nat) : Bool :=
  decide (s.fld (arcTent x p) 16 16 + n ≤ s.fld (arcTent x p) 0 16) && decide (s.reservedIn x + n ≤ 1536)

def State.reserve (s : State) (x p n : Nat) : State :=
  let v := s.fld (arcTent x p) 16 16 + n
  let s := s.setFld (arcTent x p) 16 16 v
  if s.fld (arcTent x p) 32 16 < v then s.setFld (arcTent x p) 32 16 v else s

def State.releaseRes (s : State) (x p n : Nat) : State :=
  s.setFld (arcTent x p) 16 16 (s.fld (arcTent x p) 16 16 - n)

/-- The run ends: its reservation is released and its number is free. -/
def State.endRun (s : State) (id : Nat) : State :=
  match s.run? id with
  | none => s
  | some r => (s.releaseRes r.site r.part r.res).setRun id none

/-- A fresh commit identifier for the head command on an engine (R203); 7 stands for no engine, where
the fetch unit runs the command. -/
def State.newRun (s : State) (q : QRef) (cls eng : Nat) : State × Nat :=
  let id := s.nextRun
  let s := { s with nextRun := id + 1 }
  let s := s.setRun id (some { q := q, onEng := eng, cls := cls, part := (s.corePart q.core).getD 0, cid := s.qCid q,
                               site := s.coreSite q.core, phase := .reserving })
  (if eng = 7 then s else s.setEng q.core eng { s.eng q.core eng with run := id }, id)

/-- The accesses of a run (R201): tentative unless the command is pinned. -/
def State.runWho (s : State) (q : QRef) (id : Nat) : Who :=
  match s.run? id with
  | some r => { s.who q with run := if r.cls = 1 then 0 else id, pinned := decide (r.cls = 1), id := id }
  | none => s.who q

/-- A member leaves its gang (R67). -/
def State.leaveGang (s : State) (core eng : Nat) : State :=
  { s with gangs := (s.gangs.map fun g => if g.core = core then { g with members := g.members.filter (· != eng) } else g).filter fun g => !g.members.isEmpty }

/-- An engine is free again once it has stopped (R83, R117): its gang membership, blocks and groups are
discarded. -/
def State.stopEngine (s : State) (core eng : Nat) : State :=
  let s := s.setEng core eng { s.eng core eng with run := 0, stopping := true }
  let s := s.clearBusy core eng
  if eng < 4 then s.leaveGang core eng
  else if eng = 4 then
    let t := s.te core
    let s := s.setTe core { t with launch := none, blocks := [], groups := [] }
    (s.setFld (texB core) 3 5 0).setFld (texB core) 8 7 0
  else s

/-- An engine is free: its command has committed or ended. -/
def State.freeEngine (s : State) (r : Run) (id : Nat) : State :=
  if (s.eng r.q.core r.onEng).run = id then
    let s := if r.onEng < 4 then s.leaveGang r.q.core r.onEng else s
    (s.setEng r.q.core r.onEng { s.eng r.q.core r.onEng with run := 0 }).clearBusy r.q.core r.onEng
  else s

/-- A run is discarded before its commit point (R213): the slice discards its tentative lines
and log entries, and its write-combining entries and LAST marks go. A run that has not begun its work
holds only its reservation. -/
def State.discardRun (s : State) (id : Nat) : State :=
  match s.run? id with
  | none => s
  | some r =>
    if r.phase == .reserving then (s.freeEngine r id).endRun id
    else
    let s := s.withArc fun a => { a with wcb := a.wcb.filter fun e => e.pinned || e.run ≠ id }
    let s := if (s.eng r.q.core r.onEng).run = id then s.stopEngine r.q.core r.onEng else s
    if r.cls = 1 then s.setRun id none
    else
      let s := if r.tlines.isEmpty then s else s.sat (arcTentStat r.site) 48 16 1
      s.setRun id (some { r with phase := .discarding, tent := [], tlines := [], logs := [], marks := [], hints := [], preWait := [] })

/-- A collective member that has arrived sends KILL (R224). -/
def State.sendKill (s : State) (r : Run) : State :=
  let k := (r.q, r.coord, r.inst, r.collRun)
  if r.arrived && !s.net.kills.contains k then { s with net := { s.net with kills := s.net.kills ++ [k] } } else s

/-- Kills the run of a command before its commit point (R213). A member that has sent PREPARED keeps its lines
until the coordinator has taken the KILL: where the last PREPARED arrives first, the group commits (R224). -/
def State.killRun (s : State) (id : Nat) : State :=
  match s.run? id with
  | none => s
  | some r => if r.arrived && r.prepared then s.sendKill r else (s.sendKill r).discardRun id

/-- The run of a command that ends here: it is killed and not re-run. -/
def State.dropRun (s : State) (id : Nat) : State :=
  match s.run? id with
  | none => s
  | some r => (s.sendKill r).discardRun id

/-- The kill of a prepared member is on its way, so that its run stands (R224). -/
def State.killWaits (s : State) (id : Nat) : Bool := (s.run? id).any fun r => r.arrived && r.prepared && r.phase == .workDone

/-- A killed command goes back to the head of its queue (R171, R214). -/
def State.requeue (s : State) (q : QRef) (c : Cmd) : State :=
  if ((s.cmd? q c).any fun c => s.killWaits c.run) then s else
  let s := match s.cmd? q c with
    | some c => s.ledgerEnd q c
    | none => s
  s.modCmd q c fun c => { c with phase := .queued, eff := 0, run := 0, reruns := c.reruns + 1, recPa := 0 }

/-! ### Contexts (R198, R393) -/

/-- Lowers LIVE of the pattern that a pour holds (R191, R192). -/
def State.lowerLive (s : State) (q : QRef) : State :=
  match (s.q q).pour with
  | some p =>
    let s := if p.live then
        let x := s.xlat (s.who q) .atomic (p.pat + 0x18)
        match x.2 with
        | .ok a => (x.1.writePa (s.who q) a.pa (toBytes 8 (ofBytes (x.1.rdMem a.pa 8) + 2 ^ 64 - 1)) 0).1
        | .error _ => x.1
      else s
    s.modQ q fun x => { x with pour := none }
  | none => s

/-- A queue becomes KILLED: its uncommitted commands are discarded, a pinned one stops with its writes
in place, and commands that commit write no record when `silent` is set (R198, R393). -/
def State.killQueue (s : State) (q : QRef) (cause : Nat) (silent : Bool) : State :=
  let s := (s.q q).cmds.foldl (fun s c =>
    if c.phase == .committed && ((s.run? c.run).map (·.cls)).getD 1 ≠ 1 then (if silent then s.modCmd q c fun c => { c with silent := true } else s)
    else
      let s := s.ledgerEnd q c
      let s := if c.run = 0 then s else s.dropRun c.run
      s.dropCmd q c) s
  let s := s.lowerLive q
  let s := s.modQ q fun x => { x with ents := [], room := [] }
  let s := (s.setQState q 8).setFld (queStatus q) 8 8 cause
  s.notifyAfter (.que q)

/-- Kills a context: every queue and service ring that serves its CID becomes KILLED, a disabled queue whose last
command still runs among them. -/
def State.killContext (s : State) (p cid cause : Nat) (self : Option CrTarget) : State :=
  let s := (s.partQueues p).foldl (fun s q =>
    if (s.qEnabled q || (s.q q).cmds.any fun c => c.phase != .queued) && s.qCid q = cid && s.qState q ≠ 8 && s.qState q ≠ 9 then s.killQueue q cause (self ≠ some (.que q)) else s) s
  (List.range 4).foldl (fun s k =>
    if s.bit (svcB p k) 0 && s.fld (svcB p k) 32 16 = cid && s.fld (svcB p k + 0x48) 0 4 ≠ 8 then
      let s := (s.setFld (svcB p k + 0x48) 0 4 8).setFld (svcB p k + 0x48) 8 8 cause
      let s := s.setSvcX p k { s.svcX p k with reqs := [], aborts := [], allBelow := none }
      let s : State := { s with svc := { s.svc with ops := s.svc.ops.map fun o => if o.p = p ∧ o.k = k then { o with silent := true } else o } }
      s.notifyAfter (.svc p k)
    else s) s

/-- Codes that kill the context, and codes that halt the queue (R198). -/
def killsContext (st : Nat) : Bool := [0x20, 0x21, 0x22, 0x23, 0x24, 0x28].contains st
def haltsQueue (st : Nat) : Bool := [0x10, 0x25, 0x26, 0x27, 0x31].contains st

/-- What a queue does after a status (R198). A command killed under R22 on a core that is not being
substituted halts its queue with CORE_LOST. -/
def State.afterStatus (s : State) (q : QRef) (c : Cmd) (st : Nat) : State :=
  if killsContext st then
    let s := s.qReport q 0x0E st sevContext 0 (hTag c.raw)
    let s := s.killContext ((s.corePart q.core).getD 0) (s.qCid q) st (some (.que q))
    if s.qState q = 8 || s.qState q = 9 then s else s.killQueue q st false
  else if haltsQueue st || (st = stCoreLost && s.coreState q.core = 0) then
    if stuckState (s.qState q) then s
    else ((s.setQState q 5).setFld (queStatus q) 8 8 st).modQ q fun x => { x with haltSubmit := c.submit }
  else s

/-! ### Completion -/

/-- A command aborted by a quiesce in a FULL or BLOCKED queue or ring writes no record: it is counted in DROPS
(R388). -/
def State.dropsRecord (s : State) (t : CrTarget) (code : Nat) : Bool :=
  decide (code = stAborted) && (s.part (s.ctPart t)).kill && decide (s.fld (ctStatus t) 0 4 = 4 ∨ s.fld (ctStatus t) 0 4 = 6)

/-- The completion ring has an entry for the record of the head command, or the command writes none (R197, R388). -/
def State.mayRecord (s : State) (q : QRef) : Bool := decide (s.crFree q ≠ 0) || (s.part (s.ctPart (.que q))).kill

/-- A command leaves its queue: DONE counts it and its record is written. `time` is the site cycle count of the
record. A SPAWN gives up the room that it holds (R189). -/
def State.leaveAt (s : State) (q : QRef) (c : Cmd) (f : Fail) (site : Nat) (time : W64) : State :=
  let s := s.ledgerEnd q c
  let s := match s.run? c.run with
    | some r => if r.phase == RunPhase.discarding then s else (s.freeEngine r c.run).endRun c.run
    | none => s
  let s := s.dropCmd q c
  let s := if hOpc c.raw = opSpawn then s.modQ q fun x => { x with room := [] } else s
  let x := s.q q
  let doneNow := !c.pour && (s.qSop q || !(x.cmds.any (fun e => e.submit = c.submit) || x.ents.any fun e => e.submit = c.submit))
  let s := if doneNow then s.bump (queDone q) 0 32 1 else s
  let note := hNotify c.raw || decide (f.code ≥ 0x10)
  let write := !c.silent && (hCr c.raw || decide (f.code ≠ stOk ∧ f.code ≠ stRecomputed))
  let s := if f.code = stOversize then s.sat (arcTentStat (s.coreSite q.core)) 0 16 1 else s
  if s.dropsRecord (.que q) f.code then s.drop (.que q)
  else if write then
    s.emitRecord (.que q) (recBits (hOpc c.raw) q.core q.eng q.q c.pour (hTag c.raw) (f.index.getD c.index) c.reruns site c.submit time f) note
  else s

/-- A command completes: it leaves its queue, and the queue acts on its status. -/
def State.completeAt (s : State) (q : QRef) (c0 : Cmd) (f : Fail) (site : Nat) (time : W64) : State :=
  match s.cmd? q c0 with
  | none => s
  | some c =>
    let s := s.leaveAt q c f site time
    if c.silent then s else s.afterStatus q c f.code

/-- A command that has not committed, or a pinned one, completes with a failure: TIME is now, or the
commit point of a pinned command. -/
def State.completeNow (s : State) (q : QRef) (c : Cmd) (f : Fail) : State :=
  let now := (s.coreSite q.core, s.siteCycle (s.coreSite q.core))
  let t := match s.cmd? q c with
    | some c' => if c'.phase == Phase.committed then ((s.run? c'.run).map fun (r : Run) => (r.timeSite, r.time)).getD now else now
    | none => now
  let s := match s.cmd? q c with
    | some c' => if c'.run = 0 then s else s.dropRun c'.run
    | none => s
  s.completeAt q c f t.1 t.2

/-- The event record of a committed command leaves for its slot's home (R182), and its arm for the
target queue (R186). -/
def State.sendEvents (s : State) (q : QRef) (c : Cmd) : State :=
  let s := if hRecEn c.raw then
      { s with net := { s.net with evts := s.net.evts ++ [{ addr := c.recPa, isSet := hRecSet c.raw, val := BitVec.ofNat 64 (hRecValue c.raw) }] } }
    else s
  if hChainEn c.raw then
    { s with net := { s.net with arms := s.net.arms ++ [({ core := q.core, eng := hChainEng c.raw, q := hChainQ c.raw }, hChainId c.raw)] } }
  else s

/-- The status of a committed command (R197, R214, R220). -/
def okStatus (c : Cmd) : Nat :=
  if c.abortSeen then stAlreadyCommitted else if c.reruns > 0 then stRecomputed else stOk

/-- CALL_PATTERN completes once the last descriptor of its pour has completed (R191 step 5). -/
def State.pourDone (s : State) (q : QRef) : State :=
  match (s.q q).pour, s.head q with
  | some p, some c =>
    if hOpc c.raw = opCall && c.phase == .running && !((s.q q).cmds.any (·.pour)) && decide (p.nextBlock * 16 ≥ p.count) && decide (p.count ≠ 0) then
      let s := s.lowerLive q
      let s := s.sendEvents q c
      s.completeAt q c { code := okStatus c } (s.coreSite q.core) (s.siteCycle (s.coreSite q.core))
    else s
  | _, _ => s

/-- After a command has left: the next command reaches the head. -/
def State.advance (s : State) (q : QRef) : State := (s.pourDone q).refreshQ q

/-- A command fails before its commit point. -/
def State.fail (s : State) (q : QRef) (c : Cmd) (f : Fail) : State := (s.completeNow q c f).advance q

/-! ### Commit (R209, R210) -/

/-- Sends a memory-side operation to another panel (R238, R353): its operand, and the comparand of a
compare-exchange. -/
def State.sendRemoteAtom (s : State) (site part cid : Nat) (op : AtomOp) (use : FabUse) : State × Bool :=
  let p := op.addr - 2 ^ 58
  let d := toBytes 8 op.val.toNat ++ (if op.sub = 9 then toBytes 8 op.cmp.toNat else [])
  s.fabRequest site (p / 2 ^ 46) { ty := 0x12, tc := 0, addr := p % 2 ^ 46, part := part, sub := op.sub, cid := cid, len := d.length } d use

/-- Write-combining entries become tentative bytes of their run (R237). -/
def State.wcbOfRun (s : State) (id : Nat) : State :=
  let es := s.arc.wcb.filter fun e => e.run = id && !e.pinned
  let s := s.withArc fun a => { a with wcb := a.wcb.filter fun e => !(e.run = id && !e.pinned) }
  s.modRun id fun r => { r with tent := (es.flatMap (·.bytes)).foldl (fun t e => tinsert (terase t e.1) e.1 e.2) r.tent
                                hints := es.foldl (fun h e => tinsert (terase h (e.sector / 4)) (e.sector / 4) e.hint) r.hints }

/-- Step 5 of R210: the commit completes. -/
def State.commitDone (s : State) (id : Nat) : State :=
  match s.cmdOfRun id, s.run? id with
  | some (q, c), some r =>
    let st := if r.refused then stProtection else if r.poisoned then stDataPoison else if r.siteLost then stSiteLost else okStatus c
    let s := if r.poisoned && decide (hOpc c.raw ≠ 0x49) then s.qReport q 0x01 st sevPoison 3 (hTag c.raw) else s
    let s := s.sendEvents q c
    (s.completeAt q c { code := st } r.timeSite r.time).advance q
  | _, _ => s

/-- Completes the commit when no acknowledgement is awaited any more. -/
def State.commitCheck (s : State) (id : Nat) : State :=
  match s.run? id with
  | some r => if r.phase == .committed && r.unackedLines.isEmpty && r.unackedLogs = 0 then s.commitDone id else s
  | none => s

/-- Step 3 of R210: the slice sends the run's lines and operations. Bytes of host windows and of other
panels merge into the slice's own copy (R273). Lines of a lost site are dropped (R443). -/
def State.commitSend (s : State) (id : Nat) : State :=
  let s := s.wcbOfRun id
  match s.run? id with
  | none => s
  | some r =>
    let out := r.tent.filter fun e => isOut e.1
    let s := s.modRun id fun r => { r with tlines := r.tlines.filter fun l => !isOut (l * 512) }
    let s := out.foldl (fun s e => s.writeOut r.site r.part e.1 [e.2] (tget 0 r.hints (e.1 / 512))) s
    let bytes := fun l => r.tent.filter fun e => e.1 / 512 = l
    let lines := ((r.tent.map fun e => e.1 / 512).eraseDups).filter fun l => isHbm (l * 512)
    let live := lines.filter fun l => !s.isLost (homeOf (l * 512))
    let lost := decide (live.length < lines.length) || r.logs.any fun l => !l.remote && s.isLost (homeOf l.op.addr)
    let s := live.foldl (fun s l =>
      s.send .cmt { line := l, req := r.site, src := r.site, dst := homeOf (l * 512), part := r.part, cid := r.cid, run := id,
                    sectors := (bytes l).foldl (fun a e => a ||| (1 <<< (e.1 / 128 % 4))) 0
                    mask := (bytes l).foldl (fun a e => a ||| (1#512 <<< (e.1 % 512))) 0#512
                    hint := tget 0 r.hints l }) s
    let logs := r.logs.filter fun l => l.remote || !s.isLost (homeOf l.op.addr)
    let s := logs.foldl (fun s l =>
      if l.remote then (s.sendRemoteAtom r.site r.part r.cid l.op (.log id)).1
      else s.send .log { line := l.op.addr / 512, req := r.site, src := r.site, dst := homeOf l.op.addr, part := r.part, cid := r.cid,
                         run := id, op := l.op, opPoison := l.poison }) s
    s.modRun id fun r => { r with unackedLines := live, unackedLogs := logs.length, siteLost := r.siteLost || lost }

/-- Steps 1 to 3 of R210 for the head command of a queue: it is past its commit point, and the engine is
free. The marks of its LAST reads take effect (R235). -/
def State.commitRun (s : State) (q : QRef) (c : Cmd) : State :=
  let x := s.coreSite q.core
  let t := s.siteCycle x
  let s := s.ledgerEnd q c
  let s := s.modCmd q c fun c => { c with phase := .committed }
  let s := s.modRun c.run fun r => { r with phase := .committed, time := t, timeSite := x }
  match s.run? c.run with
  | none => s
  | some r =>
    let s := s.freeEngine r c.run
    let s := r.marks.foldl (fun s x => s.dropBoth r.site x) s
    let s := s.commitSend c.run
    (s.commitCheck c.run).refreshQ q

end Sys2Proof.Machine
end

