-- ==== Sys2Proof/Machine/Coherence.lean ====
section
/-!
DEFINITION. Coherence among the slices (09_coherence R257-R272, 08_archive_and_memory R238, R249): the
directory, the transactions of a home, the answers of a holder, grants, and the probe of an entry. The
bytes themselves are those of the coherent image (`Archive.mem`) and of the stacks (`Archive.hbm`);
messages move states, masks and operations.
-/

namespace Sys2Proof.Machine

/-! ### The directory (R259, R260) -/

def State.dir? (s : State) (line : Nat) : Option DirE := (s.arc.dir.find? fun e => e.1 = line).map (·.2)

/-- An entry put first, or taken away when it names no slice. -/
def State.setDir (s : State) (line : Nat) (e : DirE) : State :=
  let rest := s.arc.dir.filter fun x => x.1 ≠ line
  s.withArc fun a => { a with dir := if e.owner.isNone && e.sharers == 0#72 then rest else (line, e) :: rest }

/-- A line has a transaction in progress at its home (R265); a mirror forward keeps no line busy. -/
def State.lineBusy (s : State) (line : Nat) : Bool := s.arc.txns.any fun t => t.line == line && t.kind != .mirror

/-- Requests for a line wait: it is busy, or an earlier one waits for an entry of the directory. -/
def State.lineHeld (s : State) (line : Nat) : Bool := s.lineBusy line || s.arc.dirWait.any fun e => e.2.1.line == line

/-- Slices that an entry names as sharers, without one of them and without lost ones (R272). -/
def State.sharersOf (s : State) (e : DirE) (but : Nat) : List Nat :=
  (List.range 72).filter fun x => e.sharers.getLsbD x && x ≠ but && !s.isLost x

def addSharer (e : DirE) (x : Nat) : DirE := { e with sharers := e.sharers ||| (1#72 <<< x) }

def homeL (m : CMsg) : Nat := homeOf (m.line * 512)

/-- INV to some slices: acknowledged to the home (`alt`) or to a requester. -/
def State.sendInvs (s : State) (m : CMsg) (xs : List Nat) (ack : Nat) (alt : Bool) : State :=
  xs.foldl (fun s x => s.send .inv { line := m.line, req := m.req, src := homeL m, dst := x, part := m.part, cid := m.cid, ack := ack, alt := alt }) s

/-- Evicts an entry for a request: INV to its sharers, RECALL to its owner (R260, R263). -/
def State.evictDir (s : State) (r : CMsg) (line : Nat) (e : DirE) : State :=
  let h := homeOf (line * 512)
  let m : CMsg := { line := line, req := h, src := h, dst := h, part := r.part, cid := r.cid }
  let s := s.sat (arcDirStat h) 32 32 1
  let xs := s.sharersOf e 72
  let s := s.sendInvs m xs h true
  let s := match e.owner with
    | some o => s.send .recall { m with dst := o }
    | none => s
  let need := xs.length + b2n e.owner.isSome
  if need = 0 then s.setDir line { sharers := 0#72, owner := none }
  else s.withArc fun a => { a with txns := a.txns ++ [{ line := line, kind := .evict, ty := .recall, m := m, need := need }] }

/-- The entries of the set of a line, most recently used first (R260). -/
def State.dirSet (s : State) (line : Nat) : List (Nat × DirE) :=
  let mine := s.arc.dir.filter fun x => homeOf (x.1 * 512) = homeOf (line * 512)
  if mine.length < 16 then [] else mine.filter fun x => Config.dirHash x.1 % 65536 = Config.dirHash line % 65536
/-- A new entry for a line finds its set full. -/
def State.dirFull (s : State) (line : Nat) : Bool := decide (16 ≤ (s.dirSet line).length)

/-! ### Grants -/

/-- The home grants a line from its copy or its stacks: with the sectors wanted, or without any. -/
def State.grantLine (s : State) (m : CMsg) (st : LState) (count : Nat) : State :=
  let held := ((s.line? (homeL m) m.line).map (·.valid)).getD 0
  let s := s.stackRead m.line (m.sectors &&& (15 - held % 16)) m.part
  let g := { m with src := homeL m, dst := m.req, granted := st, count := count, wr := 0, poison := s.poisonMask m.line &&& m.sectors }
  s.send (if m.sectors = 0 then .grant else .data) g

def State.addTxn (s : State) (k : TxKind) (t : MsgTy) (m : CMsg) (need : Nat) : State :=
  s.withArc fun a => { a with txns := a.txns ++ [{ line := m.line, kind := k, ty := t, m := m, need := need }] }

/-- RD_S. The recorded owner itself may ask for sectors it lacks. -/
def State.homeRead (s : State) (m : CMsg) : State :=
  match s.dir? m.line with
  | none => (s.setDir m.line { sharers := 0#72, owner := some m.req }).grantLine m .E 0
  | some e => match e.owner with
    | none => (s.setDir m.line (addSharer e m.req)).grantLine m .S 0
    | some o =>
      if o = m.req then s.grantLine m (if e.sharers == 0#72 then .E else .S) 0
      else (s.send .snpS { m with src := homeL m, dst := o }).addTxn .read .rdS m 1

/-- OWN and UPGR: the requester of an UPGR gets no INV. An UPGR from a slice that the directory does not name is an OWN
with every sector wanted (R266). -/
def State.homeOwn (s : State) (up : Bool) (m0 : CMsg) : State :=
  let e := (s.dir? m0.line).getD { sharers := 0#72, owner := none }
  let named := e.sharers.getLsbD m0.req || e.owner = some m0.req
  let m := if up && !named then { m0 with sectors := 15 } else m0
  let xs := s.sharersOf e (if up then m.req else 72)
  let s := s.sendInvs m xs m.req false
  match e.owner with
  | some o =>
    if o = m.req then (s.setDir m.line { sharers := 0#72, owner := some m.req }).grantLine m .M xs.length
    else (s.send .snpX { m with src := homeL m, dst := o, count := xs.length }).addTxn .own .own { m with count := xs.length } 1
  | none => (s.setDir m.line { sharers := 0#72, owner := some m.req }).grantLine m .M xs.length

/-! ### Operations and merges at a sole home (R238, R249, R269) -/

def homeWho (m : CMsg) : Who :=
  { q := { core := 0, eng := 0, q := 0 }, part := m.part, cid := m.cid, site := homeL m }

/-- The home holds the line in M: with the dirty bytes that came back to it, then the bytes it writes (R265, R269). The
request's hint applies where the home allocates the line, and to the line it holds (R233). -/
def State.homeHolds (s : State) (m : CMsg) (mask back : BitVec 512) (backPoison : Nat) : State :=
  let h := homeL m
  let s := s.setDir m.line { sharers := 0#72, owner := some h }
  let f (l : ALine) : ALine :=
    let l := l.wrote back 0 l.part
    { ({ l with poison := l.poison ||| backPoison } : ALine).wrote mask (s.baseMarks m.line) m.part with st := .M }
  match s.line? h m.line with
  | some l => (s.touchLine l m.hint).withArc fun a => a.modLine h m.line f
  | none => s.allocLine (f { site := h, line := m.line, st := .M, valid := 0, dirty := 0, hint := 0, part := m.part }) m.hint

/-- The home fetches the sector of an operation where its copy lacks it (R232, R238). -/
def State.homeFetch (s : State) (m : CMsg) : State :=
  let k := 1 <<< (m.op.addr / 128 % 4)
  let held := ((s.line? (homeL m) m.line).map (·.valid)).getD 0
  s.stackRead m.line (k &&& (15 - held % 16)) m.part

/-- The home serves a read of committed bytes by a host or another panel: what neither its copy nor an owner holds comes
from the stacks (R241, R243). -/
def State.homeServe (s : State) (pa n part : Nat) : State :=
  let held := ((s.line? (homeOf pa) (pa / 512)).map (·.valid)).getD 0
  if ((s.dir? (pa / 512)).bind (·.owner)).any fun o => o ≠ homeOf pa then s
  else s.stackRead (pa / 512) (secMask (pa / 512) pa n &&& (15 - held % 16)) part

/-- Applies a memory-side operation: the old value and a status. -/
def State.applyOp (s : State) (m : CMsg) : State × W64 × Nat :=
  let o := m.op
  let p := s.poisonRead (homeWho m) o.addr o.size
  match p.2 with
  | some code => (p.1, 0#64, code)
  | none =>
    let old := s.rdNum o.addr o.size
    (s.mergeBytes o.addr (toBytes o.size (atomValue o old)), BitVec.ofNat 64 old, 0)

/-- The sector of an operation is held by the home. -/
def State.holdSector (s : State) (m : CMsg) : State :=
  s.withArc fun a => a.modLine (homeL m) m.line fun l => { l with valid := l.valid ||| (1 <<< (m.op.addr / 128 % 4)) }

/-- The bytes of a CMT: those of its run's tentative line, or those of a host or another panel. -/
def State.cmtBytes (s : State) (m : CMsg) : List (Nat × W8) :=
  if m.run = 0 then m.data
  else match s.run? m.run with
    | some r => r.tent.filter fun e => e.1 / 512 = m.line
    | none => []

/-- The byte mask of a line for the bytes of a table. -/
def lineMask (line : Nat) (t : List (Nat × W8)) : BitVec 512 :=
  t.foldl (fun a e => if e.1 / 512 = line then a ||| (1#512 <<< (e.1 % 512)) else a) 0#512

/-- Merges masked bytes, as one write. -/
def State.mergeTable (s : State) (t : List (Nat × W8)) : State :=
  let s := s.noteOld (fun _ => true) (t.map fun e => (e.1, s.arc.rd e.1))
  let s := t.foldl (fun (s : State) e => s.withArc fun a => a.wr e.1 e.2) s
  t.foldl (fun s e => s.wakeWatches e.1 1) s

/-- The line of an A copy for a line of its B copy. -/
def State.mirrorBack (s : State) (pa : Nat) : Nat :=
  ((s.arc.mirrors.find? fun m => decide (m.b ≤ pa) && decide (pa < m.b + m.size)).map fun m => m.a + (pa - m.b)).getD pa

/-- Sends an answer to another panel's request (R353). -/
def State.fabAnswer (s : State) (site dev part cid ty status ref : Nat) (d : Bytes) : State :=
  (s.fabRequest site dev { ty := ty, tc := 1, status := status, part := part, cid := cid, ref := ref, len := d.length } d .response).1

/-- The STATUS of a Nimette answer for a completion status. -/
def nfStatus (code : Nat) : Nat :=
  if code = 0 then 0 else if code = stDataPoison then 2 else if code = stSiteLost then 3 else 1

/-- MOPN_ACK leaves for each site of a mask (R330). -/
def State.ackMopn (s : State) (pa sites : Nat) : State :=
  { s with mesh := { s.mesh with acks := s.mesh.acks ++ ((List.range 72).filter fun x => nbit sites x).map fun x => (x, pa / 128) } }

/-- The home acknowledges a request that it has served. -/
def State.homeAck (s : State) (t : MsgTy) (m : CMsg) : State :=
  let h := homeL m
  match t with
  | .cmt =>
    if m.run ≠ 0 then s.send .cmtAck { m with src := h, dst := m.src, data := [] }
    else match m.dest with
      | .remote _ dev _ psn => s.fabAnswer h dev m.part m.cid 0x19 0 psn []
      | _ => s
  | .log => s.send .cmtAck { m with src := h, dst := m.src, alt := true }
  | .atom => if m.alt then s.ackMopn m.op.addr m.ack else s.send .atomRsp { m with src := h, dst := m.src }
  | .mir => s.send .mirAck { m with line := s.mirrorBack (m.line * 512) / 512, src := h, dst := m.req, data := [] }
  | .flush => s.send .fwdAck { m with src := h, dst := m.req, alt := true }
  | .wb => s.send .wbAck { m with src := h, dst := m.src }
  | .preWb => s.send .wbAck { m with src := h, dst := m.src }
  | _ => s

/-- The A home of a mirrored line forwards the bytes of a mask before it acknowledges (R249). -/
def State.mirrorThenAck (s : State) (t : MsgTy) (m : CMsg) (mask : BitVec 512) : State :=
  match (if t == .mir || mask == 0#512 then none else s.mirrorOf (m.line * 512)) with
  | some b =>
    let h := homeL m
    let bs := ((List.range 512).filter fun i => mask.getLsbD i).map fun i => (b / 512 * 512 + i, s.arc.rd (m.line * 512 + i))
    (s.send .mir { line := b / 512, req := h, src := h, dst := homeOf b, part := m.part, cid := m.cid, sectors := secsOf mask, mask := mask
                   poison := s.poisonMask m.line &&& secsOf mask, data := bs }).addTxn .mirror t m 1
  | none => s.homeAck t m

/-- The home poisons sectors of a line it holds. -/
def State.homePoison (s : State) (m : CMsg) (sectors : Nat) : State :=
  ((List.range 4).filter fun k => nbit sectors k).foldl (fun s k => s.poisonSector (m.line * 4 + k)) s

/-- The home, the line's only holder, applies the request, over the dirty bytes that came back to it. -/
def State.applySole (s : State) (t : MsgTy) (m : CMsg) (back : BitVec 512) (backPoison : Nat) : State :=
  match t with
  | .cmt =>
    let bs := s.cmtBytes m
    let mask := if m.run = 0 then m.mask else lineMask m.line bs
    (((s.mergeTable bs).homeHolds m mask back backPoison).homePoison m m.poison).mirrorThenAck .cmt m (mask ||| back)
  | .log =>
    let mask := byteMask m.line m.op.addr m.op.size
    if m.opPoison then
      ((s.homeHolds m 0#512 back backPoison).poisonSector (m.op.addr / 128)).mirrorThenAck .log { m with status := stDataPoison }
        (back ||| secBits (1 <<< (m.op.addr / 128 % 4)))
    else
      let r := ((s.homeHolds m 0#512 back backPoison).homeFetch m).applyOp m
      let u := if r.2.2 = 0 then (r.1.homeHolds m mask 0#512 0).holdSector m else r.1
      u.mirrorThenAck .log { m with status := r.2.2 } (mask ||| back)
  | .atom =>
    let mask := byteMask m.line m.op.addr m.op.size
    let r := ((s.homeHolds m 0#512 back backPoison).homeFetch m).applyOp m
    let u := if r.2.2 = 0 then (r.1.homeHolds m mask 0#512 0).holdSector m else r.1
    u.mirrorThenAck .atom { m with old := r.2.1, status := r.2.2 } (mask ||| back)
  | .mir => (((s.mergeTable m.data).homeHolds m m.mask back backPoison).homePoison m m.poison).homeAck .mir m
  | _ => s

/-- The home makes itself the only holder, then applies (R265). -/
def State.homeSole (s : State) (t : MsgTy) (m : CMsg) : State :=
  let h := homeL m
  let e := (s.dir? m.line).getD { sharers := 0#72, owner := none }
  let xs := s.sharersOf e h
  let s := s.sendInvs m xs h true
  let o := match e.owner with
    | some o => if o = h then none else some o
    | none => none
  let s := match o with
    | some o => s.send .recall { line := m.line, req := m.req, src := h, dst := o, part := m.part, cid := m.cid }
    | none => s
  let need := xs.length + b2n o.isSome
  if need = 0 then s.applySole t m 0#512 0 else s.addTxn .sole t m need

/-- FLUSH: clean at once, or CLEAN to the owner (R265, R274). -/
def State.homeFlush (s : State) (m : CMsg) : State :=
  match (s.dir? m.line).bind (·.owner) with
  | some o => (s.send .clean { m with src := homeL m, dst := o }).addTxn .flush .flush m 1
  | none => s.send .fwdAck { m with src := homeL m, dst := m.req, alt := true }

/-- An eviction of a directory entry that has waited for its line: nothing is left to do where the entry has gone. -/
def State.evictWaited (s : State) (m : CMsg) : State :=
  match s.dir? m.line with
  | some e => s.evictDir m m.line e
  | none => s

/-- The home begins a request, or an eviction that has waited. A request of a lost slice for a copy is dropped (R443). -/
def State.startHome (s : State) (t : MsgTy) (m : CMsg) : State :=
  if s.isLost m.req && ([MsgTy.rdS, .own, .upgr].contains t) then s
  else match t with
  | .recall => s.evictWaited m
  | .rdS => s.homeRead m
  | .own => s.homeOwn false m
  | .upgr => s.homeOwn true m
  | .flush => s.homeFlush m
  | .atom => s.homeSole .atom m
  | .cmt => s.homeSole .cmt m
  | .log => s.homeSole .log m
  | .mir => s.homeSole .mir m
  | _ => s

/-- The requests that need an entry of the directory. -/
def MsgTy.takesEntry (t : MsgTy) : Bool := [MsgTy.rdS, .own, .upgr, .atom, .cmt, .log, .mir].contains t

/-- A request that finds its set full waits for the least recently used entry to be evicted; the eviction waits where that
line is busy (R260, R265). -/
def State.awaitEntry (s : State) (t : MsgTy) (m : CMsg) : State :=
  let v := (s.dirSet m.line).reverse.find? fun x => !s.arc.dirWait.any fun e => e.2.2 == x.1
  match v with
  | none => s.withArc fun a => { a with dirWait := a.dirWait ++ [(t, m, m.line)] }
  | some v =>
    let s := s.withArc fun a => { a with dirWait := a.dirWait ++ [(t, m, v.1)] }
    if s.lineHeld v.1 then s.withArc fun a => { a with waitq := a.waitq ++ [(.recall, { m with line := v.1 })] }
    else s.evictDir m v.1 v.2

/-- The home takes up a request for a line that nothing holds. -/
def State.beginHome (s : State) (t : MsgTy) (m : CMsg) : State :=
  if t.takesEntry && (s.dir? m.line).isNone && s.dirFull m.line then s.awaitEntry t m else s.startHome t m

/-- Requests that waited for a line begin, the higher channel first, in arrival order within a channel,
until one keeps the line busy. -/
def State.drainLine (s : State) (line : Nat) : Nat → State
  | 0 => s
  | fuel + 1 =>
    if s.lineHeld line then s
    else
      let ws := s.arc.waitq.filter fun e => e.2.line = line
      match [1, 2, 3, 4].findSome? fun c => ws.find? fun e => chanOf e.1 = c with
      | none => s
      | some e => ((s.withArc fun a => { a with waitq := eraseFirst (fun x => x == e) a.waitq }).beginHome e.1 e.2).drainLine line fuel

/-- The oldest request that waited for an entry of a set that now has room begins (R260). -/
def State.drainDir (s : State) : State :=
  match s.arc.dirWait.find? fun e => !s.dirFull e.2.1.line with
  | none => s
  | some e =>
    ((s.withArc fun a => { a with dirWait := eraseFirst (fun x => x == e) a.dirWait }).startHome e.1 e.2.1).drainLine e.2.1.line (s.arc.waitq.length + 1)

/-- A transaction is over. -/
def State.endTxn (s : State) (t : Txn) : State :=
  let s := s.withArc fun a => { a with txns := eraseFirst (fun x => x == t) a.txns }
  s.drainDir.drainLine t.line (s.arc.waitq.length + 1)

/-- A message leaves the mesh, with its header and its sectors. -/
def State.unsend (s : State) (t : MsgTy) (m : CMsg) : State :=
  { s with net := { s.net with msgs := s.net.msgs.erase (t, m), parcels := s.net.parcels.filter fun p => !p.isOf t m } }

/-- A message can arrive: it is the oldest of those on their way between its two sites on its channel, and from where its
header and its sectors stand the way to the destination is open (R262, R317, R324). -/
def State.arrives (s : State) (t : MsgTy) (m : CMsg) : Bool :=
  ((s.net.msgs.find? fun e => chanOf e.1 == chanOf t && e.2.src == m.src && e.2.dst == m.dst) == some (t, m))
    && ((s.net.parcels.filter fun p => p.isOf t m).all fun p => s.wayOpen p.role 72 p.at_ m.dst)

/-- What a message does where it arrives; a message that cannot arrive changes nothing (log entry 36). -/
def State.onArrival (s : State) (t : MsgTy) (m : CMsg) (f : State → State) : State :=
  if s.arrives t m then f (s.unsend t m) else s

/-- A request reaches its line's home: it begins, or it waits (R265). -/
def State.homeMsg (s : State) (t : MsgTy) (m : CMsg) : State :=
  if s.isLost (homeL m) then s
  else if s.lineHeld m.line then s.withArc fun a => { a with waitq := a.waitq ++ [(t, m)] }
  else s.beginHome t m

/-- Bytes that a host, a clerk or another panel writes to one line: merged at the home (R269, R286). -/
def State.homeWrite (s : State) (site part cid : Nat) (dest : AtomDest) (t : List (Nat × W8)) : State :=
  match t with
  | [] => s
  | (pa, _) :: _ =>
    let l := pa / 512
    s.homeMsg .cmt { line := l, req := site, src := site, dst := homeOf pa, part := part, cid := cid, data := t, dest := dest
                     mask := lineMask l t, sectors := secsOf (lineMask l t) }

/-- Bytes that a home merges for a service of its own, at once in the coherent image: the line follows as a merge without
data, which makes the home its only holder and forwards a mirrored range (R249, R269). -/
def State.homeMerge (s : State) (pa part : Nat) (bs : Bytes) : State :=
  let s := s.mergeBytes pa bs
  (linesOf pa bs.length).foldl (fun s l =>
    s.homeMsg .cmt { line := l, req := homeOf pa, src := homeOf pa, dst := homeOf pa, part := part
                     mask := byteMask l pa bs.length, sectors := secsOf (byteMask l pa bs.length) }) s

/-! ### Requests (R265) -/

def effRdS (m : CMsg) (s : State) : State := s.onArrival .rdS m fun s => s.homeMsg .rdS m
def execRdS (m : CMsg) (s : State) : Host.Outcome State Fault Refusal := carryOut (m.ok) (effRdS m s)

def effOwn (m : CMsg) (s : State) : State := s.onArrival .own m fun s => s.homeMsg .own m
def execOwn (m : CMsg) (s : State) : Host.Outcome State Fault Refusal := carryOut (m.ok) (effOwn m s)

def effUpgr (m : CMsg) (s : State) : State := s.onArrival .upgr m fun s => s.homeMsg .upgr m
def execUpgr (m : CMsg) (s : State) : Host.Outcome State Fault Refusal := carryOut (m.ok) (effUpgr m s)

def effAtom (m : CMsg) (s : State) : State := s.onArrival .atom m fun s => s.homeMsg .atom m
def execAtom (m : CMsg) (s : State) : Host.Outcome State Fault Refusal := carryOut (m.ok) (effAtom m s)

def effFlush (m : CMsg) (s : State) : State := s.onArrival .flush m fun s => s.homeMsg .flush m
def execFlush (m : CMsg) (s : State) : Host.Outcome State Fault Refusal := carryOut (m.ok) (effFlush m s)

def effCmt (m : CMsg) (s : State) : State := s.onArrival .cmt m fun s => s.homeMsg .cmt m
def execCmt (m : CMsg) (s : State) : Host.Outcome State Fault Refusal := carryOut (m.ok) (effCmt m s)

def effLog (m : CMsg) (s : State) : State := s.onArrival .log m fun s => s.homeMsg .log m
def execLog (m : CMsg) (s : State) : Host.Outcome State Fault Refusal := carryOut (m.ok) (effLog m s)

def effMir (m : CMsg) (s : State) : State := s.onArrival .mir m fun s => s.homeMsg .mir m
def execMir (m : CMsg) (s : State) : Host.Outcome State Fault Refusal := carryOut (m.ok) (effMir m s)

/-- A write-back of the recorded owner reaches its home, even on a busy line: its dirty bytes go to the stacks, and
`after` is the entry; the data of a sender that is no longer the owner are discarded. It is acknowledged once a mirrored
range's copy has been (R249, R265, R266). -/
def State.homeWb (s : State) (t : MsgTy) (m : CMsg) (after : DirE → DirE) : State :=
  if s.isLost (homeL m) then s
  else match s.dir? m.line with
    | some e =>
      if e.owner = some m.src then
        ((s.stackWrite m.line m.mask m.poison m.tag).setDir m.line (after e)).mirrorThenAck t m m.mask
      else s.homeAck t m
    | none => s.homeAck t m

/-- WB (R265, R266): the sender holds the line no more. -/
def effWb (m : CMsg) (s : State) : State :=
  s.onArrival .wb m fun s => (s.homeWb .wb m fun e => { e with owner := none }).drainDir

def execWb (m : CMsg) (s : State) : Host.Outcome State Fault Refusal := carryOut (m.ok) (effWb m s)

/-- PRE_WB (R265, R267): the owner keeps a clean copy: E, or S among the sharers. -/
def effPreWb (m : CMsg) (s : State) : State :=
  s.onArrival .preWb m fun s => s.homeWb .preWb m fun e => if e.sharers == 0#72 then e else addSharer { e with owner := none } m.src

def execPreWb (m : CMsg) (s : State) : Host.Outcome State Fault Refusal := carryOut (m.ok) (effPreWb m s)

/-! ### Snoops (R264, R266) -/

/-- The eviction buffer of a slice holds the line. -/
def State.evicting? (s : State) (site line : Nat) : Option ALine :=
  s.arc.evict.find? fun l => l.site == site && l.line == line

/-- The owner sends the sectors asked for to the requester. Dirty bytes go with ownership. -/
def State.ownerData (s : State) (m : CMsg) (st : LState) (l : ALine) : State :=
  let d := if st == .M then l.dirty else 0
  s.send .data { m with src := m.dst, dst := m.req, granted := st, sectors := m.sectors ||| d, wr := d
                        mask := if st == .M then l.mask else 0#512, tag := l.part, poison := s.poisonMask m.line &&& (m.sectors ||| d) }

/-- An answer of a holder to the home: with the line's dirty bytes, or without. -/
def State.toHome (s : State) (t : MsgTy) (m : CMsg) (l : Option ALine) (st : LState) (dirty : Bool) : State :=
  let x : CMsg := { m with src := m.dst, dst := homeL m, granted := st, dirty := dirty, alt := false }
  s.send t (match l with
    | some l => { x with sectors := l.dirty, mask := l.mask, poison := l.poison &&& l.dirty, tag := l.part }
    | none => { x with sectors := 0, mask := 0#512, poison := 0 })

/-- A holder answers a snoop from a copy: the line after it. To send whole sectors it fetches and merges what it lacks of
them (R232). -/
def State.answerSnoop (s : State) (t : MsgTy) (m : CMsg) (l : ALine) : State × ALine :=
  let isDirty := l.st = .M || l.st = .O
  match t with
  | .snpS => ((s.ownerData m .S l).toHome .fwdAck m none .S isDirty, { l with st := if isDirty then .O else .S, valid := l.valid ||| m.sectors })
  | .snpX => ((s.ownerData m .M l).toHome .fwdAck m none .M isDirty, { l with st := .I })
  | .recall => (s.toHome .rclData m (some l) .I isDirty, { l with st := .I })
  | _ =>
    let after := if l.st = .M || l.st = .E then LState.E else LState.S
    (s.toHome .rclData m (some l) after isDirty, { l.cleaned l.mask with st := after })

/-- A slice awaits a DATA or a GRANT of a line that its home has sent, or acknowledgements for it (R266; DEDUCED, log
entry 100). -/
def State.awaitsGrant (s : State) (site line : Nat) : Bool :=
  (s.mshr? site line).any fun r =>
    r.grant.isSome || s.net.msgs.any fun e => (e.1 == .data || e.1 == .grant) && e.2.dst == site && e.2.line == line

/-- A snoop reaches a slice: it answers from its eviction buffer, holds the snoop while a grant is on its way, answers
from its copy, or holds nothing (R264, R266). -/
def State.snoop (s : State) (t : MsgTy) (m : CMsg) : State :=
  let x := m.dst
  match s.evicting? x m.line with
  | some l => (s.answerSnoop t m { l with st := .M }).1
  | none =>
    if s.awaitsGrant x m.line then s.withArc fun a => { a with mshrs := a.mshrs.map fun y =>
          if y.site == x && y.line == m.line then { y with held := y.held ++ [(t, m)] } else y }
    else match s.line? x m.line with
      | some l =>
        let r := s.answerSnoop t m l
        if r.2.st = .I || (r.2.valid = 0 && r.2.dirty = 0) then r.1.dropLine x m.line
        else r.1.withArc fun a => a.modLine x m.line fun _ => r.2
      | none => s.toHome .miss m none .I false

def effSnpS (m : CMsg) (s : State) : State := s.onArrival .snpS m fun s => s.snoop .snpS m
def execSnpS (m : CMsg) (s : State) : Host.Outcome State Fault Refusal := carryOut (m.ok) (effSnpS m s)

def effSnpX (m : CMsg) (s : State) : State := s.onArrival .snpX m fun s => s.snoop .snpX m
def execSnpX (m : CMsg) (s : State) : Host.Outcome State Fault Refusal := carryOut (m.ok) (effSnpX m s)

def effRecall (m : CMsg) (s : State) : State := s.onArrival .recall m fun s => s.snoop .recall m
def execRecall (m : CMsg) (s : State) : Host.Outcome State Fault Refusal := carryOut (m.ok) (effRecall m s)

def effClean (m : CMsg) (s : State) : State := s.onArrival .clean m fun s => s.snoop .clean m
def execClean (m : CMsg) (s : State) : Host.Outcome State Fault Refusal := carryOut (m.ok) (effClean m s)

/-- INV (R261, R264): the committed copy is dropped and ACK_INV sent. A shared copy still on its way is
used once and not kept. -/
def effInv (m : CMsg) (s : State) : State :=
  s.onArrival .inv m fun s =>
    let s := (s.dropLine m.dst m.line).withArc fun a => { a with
      mshrs := a.mshrs.map fun y => if y.site == m.dst && y.line == m.line then { y with inval := true } else y }
    s.send .ackInv { m with src := m.dst, dst := m.ack }

def execInv (m : CMsg) (s : State) : Host.Outcome State Fault Refusal := carryOut (m.ok) (effInv m s)

/-! ### Grants reach their requester (R264) -/

/-- The line after a grant: the sectors granted, the dirty bytes that come with ownership, and the writes that waited for
it. Bytes already written win over those that come (R232, R264). -/
def Mshr.lineOf (r : Mshr) (g : CMsg) (marks : Nat) (old : Option ALine) : ALine :=
  let l := old.getD { site := r.site, line := r.line, st := .I, valid := 0, dirty := 0, hint := 0, part := r.part }
  let new := g.sectors &&& (15 - l.valid % 16)
  let st : LState := if g.granted = .M then .M else if l.st = .M || l.st = .O then l.st else g.granted
  let l := { l with st := st, valid := l.valid ||| g.sectors, poison := l.poison ||| (g.poison &&& new) }
  let l := if g.granted = .M && g.wr ≠ 0 then { l with dirty := l.dirty ||| g.wr, mask := l.mask ||| g.mask, part := g.tag } else l
  if r.wmask == 0#512 || st = .S || st = .O then l else { l.wrote r.wmask marks r.part with st := .M }

/-- A grant is complete: the line is held, except a shared copy that an INV has passed, or what a LAST access alone has
asked for, which are used once. The snoops held are answered; what the slice has wanted since is then asked for. -/
def State.finishGrant (s : State) (r : Mshr) (g : CMsg) : State :=
  let s := s.withArc fun a => { a with mshrs := eraseFirst (fun y => y == r) a.mshrs }
  let old := s.line? r.site r.line
  let l := r.lineOf g (s.baseMarks r.line) old
  let s := match old with
    | some _ => s.withArc fun a => a.modLine r.site r.line fun _ => l
    | none => if (r.inval && l.st = .S) || (r.hint = 3 && l.dirty = 0) then s else s.allocLine l (if r.hint = 3 then 0 else r.hint)
  let s := r.held.foldl (fun s e => s.snoop e.1 e.2) s
  let s := if r.wmask != 0#512 && l.st != .M then s.writeTouch r.site r.line r.part g.cid r.wmask r.hint else s
  if r.later = 0 then s else s.readTouch r.site r.line r.part g.cid (secBits r.later) r.hint

/-- A requester's progress: it completes a grant once all acknowledgements have come. -/
def State.tryGrant (s : State) (site line : Nat) : State :=
  match s.mshr? site line with
  | some r => match r.grant with
    | some g => if g.count ≤ r.got then s.finishGrant r g else s
    | none => s
  | none => s

def State.takeGrant (s : State) (m : CMsg) : State :=
  (s.withArc fun a => { a with mshrs := a.mshrs.map fun y =>
    if y.site == m.dst && y.line == m.line then { y with grant := some m } else y }).tryGrant m.dst m.line

def effData (m : CMsg) (s : State) : State := s.onArrival .data m fun s => s.takeGrant m
def execData (m : CMsg) (s : State) : Host.Outcome State Fault Refusal := carryOut (m.ok) (effData m s)

def effGrant (m : CMsg) (s : State) : State := s.onArrival .grant m fun s => s.takeGrant { m with sectors := 0, wr := 0 }
def execGrant (m : CMsg) (s : State) : Host.Outcome State Fault Refusal := carryOut (m.ok) (effGrant m s)

/-! ### Answers reach the home (R265) -/

/-- The transaction of a line, other than a mirror forward. -/
def State.txn? (s : State) (line : Nat) : Option Txn := s.arc.txns.find? fun t => t.line = line && t.kind != .mirror

/-- One more answer of those a transaction waits for, with the dirty bytes that come with it: kept for a sole home, written
to the stacks, and to a mirror copy, by an eviction (R249, R260). -/
def State.answered (s : State) (t : Txn) (m : CMsg) : State :=
  let t' := { t with need := t.need - 1, back := t.back ||| m.mask, backPoison := t.backPoison ||| m.poison }
  let s := if t.kind == .evict && m.mask != 0#512 then (s.stackWrite t.line m.mask m.poison m.tag).mirrorThenAck .recall t.m m.mask else s
  let s := s.withArc fun a => { a with txns := a.txns.map fun x => if x == t then t' else x }
  if t'.need ≠ 0 then s
  else if t.kind == .sole then
    let s := s.withArc fun a => { a with txns := eraseFirst (fun x => x == t') a.txns }
    let s := s.applySole t.ty t'.m t'.back t'.backPoison
    s.drainLine t.line (s.arc.waitq.length + 1)
  else (s.setDir t.line { sharers := 0#72, owner := none }).endTxn t'

/-- An answer without data. -/
def bare (m : CMsg) : CMsg := { m with mask := 0#512, poison := 0, sectors := 0 }

/-- An ACK_INV is taken: by a home's transaction, or by a requester. -/
def State.takeAckInv (s : State) (m : CMsg) : State :=
  if m.alt then
    match s.txn? m.line with
    | some t => if t.kind == .sole || t.kind == .evict then s.answered t (bare m) else s
    | none => s
  else
    (s.withArc fun a => { a with mshrs := a.mshrs.map fun y =>
      if y.site == m.dst && y.line == m.line then { y with got := y.got + 1 } else y }).tryGrant m.dst m.line

/-- ACK_INV. -/
def effAckInv (m : CMsg) (s : State) : State := s.onArrival .ackInv m fun s => s.takeAckInv m

def execAckInv (m : CMsg) (s : State) : Host.Outcome State Fault Refusal := carryOut (m.ok) (effAckInv m s)

/-- The entry of a line without its owner. -/
def State.dropOwner (s : State) (line : Nat) : State :=
  match s.dir? line with
  | some e => s.setDir line { e with owner := none }
  | none => s

/-- The home serves a transaction whose owner does not hold the line: from HBM, without the stale name (R261, R266). -/
def State.serveMissed (s : State) (t : Txn) (m : CMsg) : State :=
  match t.kind with
  | .read => ((s.dropOwner t.line).homeRead t.m).endTxn t
  | .own => ((s.setDir t.line { sharers := 0#72, owner := some t.m.req }).grantLine t.m .M t.m.count).endTxn t
  | .flush => ((s.dropOwner t.line).send .fwdAck { t.m with src := homeL t.m, dst := t.m.req, alt := true }).endTxn t
  | .sole => s.answered t (bare m)
  | .evict => s.answered t (bare m)
  | .mirror => s

/-- A MISS is taken: the home counts it (R261). -/
def State.takeMiss (s : State) (m : CMsg) : State :=
  match s.txn? m.line with
  | none => s
  | some t => (s.sat (arcDirStat (homeL m)) 0 32 1).serveMissed t m

/-- MISS. -/
def effMiss (m : CMsg) (s : State) : State := s.onArrival .miss m fun s => s.takeMiss m

def execMiss (m : CMsg) (s : State) : Host.Outcome State Fault Refusal := carryOut (m.ok) (effMiss m s)

/-- A line whose owner is lost: its sectors are poisoned at the home, and the line is logged (R272). -/
def State.poisonOwnedLine (s : State) (line : Nat) : State :=
  let h := homeOf (line * 512)
  let s := (List.range 4).foldl (fun s k => s.poisonSector (line * 4 + k)) s
  s.report { cls := 0x03, site := h, unit := 0, status := 0, sev := sevPoison, reporter := h, addr := BitVec.ofNat 64 (line * 512) }

/-- FWD_ACK: of an owner to the home, or of a home to the slice of a FLUSH. -/
def effFwdAck (m : CMsg) (s : State) : State :=
  s.onArrival .fwdAck m fun s =>
    if m.alt then s.modRun m.run fun r => { r with unackedLines := r.unackedLines.filter (· != m.line) }
    else
      match s.txn? m.line with
      | none => s
      | some t =>
        let e := (s.dir? m.line).getD { sharers := 0#72, owner := none }
        match t.kind with
        | .read =>
          let e := addSharer e t.m.req
          (s.setDir m.line (if m.dirty then e else addSharer { e with owner := none } m.src)).endTxn t
        | .own =>
          (if s.isLost t.m.req then (s.setDir m.line { sharers := 0#72, owner := none }).poisonOwnedLine m.line
           else s.setDir m.line { sharers := 0#72, owner := some t.m.req }).endTxn t
        | _ => s

def execFwdAck (m : CMsg) (s : State) : Host.Outcome State Fault Refusal := carryOut (m.ok) (effFwdAck m s)

/-- The owner's answer to CLEAN: its dirty bytes go to the stacks, and the FLUSH is acknowledged once a mirrored range's
copy has been (R249, R265, R274). -/
def State.homeCleaned (s : State) (t : Txn) (m : CMsg) : State :=
  let s := s.stackWrite m.line m.mask m.poison m.tag
  let s := match m.granted, s.dir? m.line with
    | .S, some e => s.setDir m.line (addSharer { e with owner := none } m.src)
    | .I, some e => s.setDir m.line { e with owner := none }
    | _, _ => s
  (s.mirrorThenAck .flush t.m m.mask).endTxn t

/-- RCL_DATA: the answer to RECALL or CLEAN. -/
def effRclData (m : CMsg) (s : State) : State :=
  s.onArrival .rclData m fun s =>
    match s.txn? m.line with
    | none => s
    | some t =>
      match t.kind with
      | .flush => s.homeCleaned t m
      | .sole => s.answered t m
      | .evict => s.answered t m
      | _ => s

def execRclData (m : CMsg) (s : State) : Host.Outcome State Fault Refusal := carryOut (m.ok) (effRclData m s)

/-! ### Acknowledgements of the home -/

/-- The copy after the WB_ACK of a PRE_WB: clean but for the bytes written since (R267). -/
def ALine.afterPreWb (l : ALine) (m : BitVec 512) : ALine :=
  let y := l.cleaned (m &&& ~~~l.fresh)
  { y with st := if y.dirty ≠ 0 then l.st else match l.st with
    | .M => .E
    | .O => .S
    | x => x }

/-- WB_ACK: the eviction buffer is free; after a PRE_WB the copy is clean, and the run's tentative write goes on (R205,
R267). -/
def effWbAck (m : CMsg) (s : State) : State :=
  s.onArrival .wbAck m fun s =>
    if m.run = 0 then s.withArc fun a => { a with evict := eraseFirst (fun l => l.site == m.dst && l.line == m.line) a.evict }
    else
      let s := s.modRun m.run fun r => { r with preWait := r.preWait.filter (· != m.line), preimages := r.preimages ++ [m.line] }
      match s.line? m.dst m.line with
      | some l =>
        let y := l.afterPreWb m.mask
        if y.valid = 0 && y.dirty = 0 then s.dropLine m.dst m.line else s.withArc fun a => a.modLine m.dst m.line fun _ => y
      | none => s

def execWbAck (m : CMsg) (s : State) : Host.Outcome State Fault Refusal := carryOut (m.ok) (effWbAck m s)

/-- CMT_ACK: the writer's slice drops its T line; the last one completes the commit (R210, R269). -/
def effCmtAck (m : CMsg) (s : State) : State :=
  s.onArrival .cmtAck m fun s =>
    match s.run? m.run with
    | none => s
    | some r =>
      if r.phase != .committed then s
      else
        let r := if m.alt then { r with unackedLogs := r.unackedLogs - 1 }
          else { r with unackedLines := r.unackedLines.filter (· != m.line), tent := r.tent.filter fun e => e.1 / 512 ≠ m.line
                        tlines := r.tlines.filter (· != m.line) }
        let r := { r with poisoned := r.poisoned || m.status = stDataPoison, siteLost := r.siteLost || m.status = stSiteLost }
        (s.setRun m.run (some r)).commitCheck m.run

def execCmtAck (m : CMsg) (s : State) : Host.Outcome State Fault Refusal := carryOut (m.ok) (effCmtAck m s)

/-- MIR_ACK: the A home acknowledges (R249). -/
def effMirAck (m : CMsg) (s : State) : State :=
  s.onArrival .mirAck m fun s =>
    match s.arc.txns.find? fun t => t.line = m.line && t.kind == .mirror with
    | some t => (s.homeAck t.ty t.m).endTxn t
    | none => s

def execMirAck (m : CMsg) (s : State) : Host.Outcome State Fault Refusal := carryOut (m.ok) (effMirAck m s)

/-! ### ARC_DIR_PROBE (R259) -/

/-- The bits of an entry. -/
def dirBits (e : DirE) : Nat :=
  e.sharers.toNat + (match e.owner with | some o => o % 128 * 2 ^ 72 + 2 ^ 79 | none => 0)

/-- DIR_PROBE: the entry as it stands, busy or not. -/
def effDirProbe (site : Nat) (v : W64) (s : State) : State :=
  let line := fldOf v 9 37
  let s := s.setReg (arcDirProbe site) (putFld (putFld 0#64 9 37 line) 63 1 1)
  match (if homeOf (line * 512) = site then s.dir? line else none) with
  | some e => (s.setReg (arcDirData site 0) (BitVec.ofNat 64 (dirBits e))).setReg (arcDirData site 1) (BitVec.ofNat 64 (dirBits e / 2 ^ 64 + 2 ^ 32))
  | none => (s.setReg (arcDirData site 0) 0#64).setReg (arcDirData site 1) 0#64

def execDirProbe (site : Nat) (v : W64) (s : State) : Host.Outcome State Fault Refusal :=
  carryOut (decide (site < Config.sites)) (effDirProbe site v s)

end Sys2Proof.Machine
end

