-- ==== Sys2Proof/Machine/Panel.lean ====
section
/-!
DEFINITION. The panel as 72 sites (01_panel R18-R30, 15_partitions R392, 18_faults_and_recovery R442-R445,
R450): active slots, the core map, the loss of a C-die, substitution, and fatal partitions.
-/

namespace Sys2Proof.Machine

/-! ### Slots and the core map -/

/-- The slot repaired in a slot row of a site: by fuse, else by the first REPAIR entry that applies
(R15, R450, R451). -/
def State.rowRepair (s : State) (x row : Nat) : Option Nat :=
  match s.fld (fusRepair x) (2 * row) 2 with
  | 1 => some (if row = 0 then 0 else 3)
  | 2 => some (if row = 0 then 2 else 5)
  | _ =>
    (s.boot.mould.repair.find? fun e => fldOf e 0 8 = 1 && fldOf e 8 7 = x &&
      (if row = 0 then fldOf e 48 3 = 0 || fldOf e 48 3 = 2 else fldOf e 48 3 = 3 || fldOf e 48 3 = 5)).map fun e => fldOf e 48 3

/-- The active slots of a site, in increasing order (R15). -/
def State.activeSlots (s : State) (x : Nat) : List Nat :=
  (match s.rowRepair x 0 with
    | some 0 => [1, 2] | some _ => [0, 1] | none => [0, 2])
  ++ (match s.rowRepair x 1 with
    | some 3 => [4, 5] | some _ => [3, 4] | none => [3, 5])

/-- GEN is set odd before the map or the riser states change (R20). -/
def State.genOdd (s : State) : State := s.setFld libCoreMapGen 0 32 (s.fld libCoreMapGen 0 32 / 2 * 2 + 1)
/-- GEN takes the next even value after the last change (R20): not while entries of another substitution are still
MOVING (DEDUCED, log entry 92). -/
def State.genEven (s : State) : State :=
  if (List.range 256).any fun c => s.coreState c = 1 then s
  else s.setFld libCoreMapGen 0 32 (s.fld libCoreMapGen 0 32 / 2 * 2 + 2)

def State.riserState (s : State) (row : Nat) : Nat := s.fld libRiserState (4 * row) 4
def State.setRiser (s : State) (row st : Nat) : State := s.setFld libRiserState (4 * row) 4 st

/-- The entry of a logical core in the map. -/
def State.setCoreEntry (s : State) (c site slot : Nat) : State :=
  ((s.setFld (libCoreMap c) 0 7 site).setFld (libCoreMap c) 8 3 slot).setFld (libCoreMap c) 11 1 (slotHalf slot)

/-- Logical cores whose entry names a site and is ACTIVE. -/
def State.coresAt (s : State) (x : Nat) : List Nat :=
  (List.range 256).filter fun c => s.coreSite c = x && s.coreState c = 0

/-! ### Fatal partitions (R392) -/

/-- A partition becomes PARTITION_FATAL: every context is killed and it is STOPPED at once. CAUSE of its queues is
SITE_LOST where it owns a lost site (DEDUCED); for the other causes the spec names no code, and it is a free one of the
codes of R11 (log entry 8). -/
def State.partFatalize (s : State) (p aux site : Nat) : State :=
  if s.partFatal p || s.partState p = 0 then s
  else
    let s := s.setBit (libPartState p) 3 true
    let s := s.setFld (libPartState p) 0 3 2
    let f := s.freeNum
    let code := if aux = 0 then stSiteLost else statusCodes.getD (f.2 % 18) 0
    let s := if aux = 0 then s else f.1
    let s := (s.partQueues p).foldl (fun s q =>
      if s.qEnabled q && s.qState q ≠ 8 && s.qState q ≠ 9 then s.killQueue q code true else s) s
    let s := (List.range 4).foldl (fun s k => s.killContext p (s.fld (svcB p k) 32 16) code none) s
    s.report { cls := 0x0F, site := site, unit := 0, status := 0, sev := sevPartition, reporter := site, part := some p,
               aux := BitVec.ofNat 64 aux }

/-! ### The pool and MAINT (R96-R98) -/

/-- The split of the pool: `n` units of Carrel. The Carrel is invalidated when it changes, and the bytes
beyond the new size are lost (R97): where the store grows again they read 0 (DESIGN CHOICE, log entry 105). -/
def State.setPool (s : State) (core n : Nat) : State :=
  let k := texB core + 0x30
  if s.fld k 0 4 = n then s
  else
    let ix := s.coreSlotIx core
    let size := (18 - 2 * n) * 0x10_0000
    let s := (s.setFld k 0 4 n).setFld k 4 5 (18 - 2 * n)
    let s := s.setTe core (s.te core).dropCarrel
    s.withArc fun a => { a with ls := a.ls.filter fun e => !(e.1 / 0x200_0000 = ix && decide (size ≤ e.1 % 0x200_0000)) }

/-- A core leaves MAINT (R98). -/
def State.leaveMaint (s : State) (core : Nat) : State :=
  let ix := s.coreSlotIx core
  let k := texB core + 0x30
  let s := s.setBit (texB core) 15 false
  let s := (s.setFld k 0 4 1).setFld k 4 5 16
  let s := s.setTe core (s.te core).dropCarrel
  let s := s.withArc fun a => { a with ls := a.ls.filter fun e => e.1 / 0x200_0000 ≠ ix }
  let s := s.setCoreX core { s.coreX core with inWindow := false }
  (coreQueues core).foldl (fun s q => s.refreshQ q) s

/-! ### Loss of a C-die (R26-R30, R445) -/

/-- The uncommitted work of a queue is killed: repeatable and collective runs go back to the head, and a
pinned command in flight makes its context fatal (R27). Answers whether there was one. -/
def State.interruptQueue (s : State) (q : QRef) : State × Bool :=
  let pinned := (s.q q).cmds.any fun c => match s.run? c.run with
    | some r => r.cls == 1 && r.phase != .reserving
    | none => false
  if pinned then (s.killContext ((s.corePart q.core).getD 0) (s.qCid q) stCoreLost none, true)
  else
    ((s.q q).cmds.foldl (fun s c =>
      if c.phase == .queued || c.phase == .committed || hOpc c.raw = opCall then s
      else (if c.run = 0 then s else s.killRun c.run).requeue q c) s, false)

/-- The CORE_LOST record of an affected queue names the command it was running, if any (R26). -/
def State.coreLostRecord (s : State) (q : QRef) (c : Option Cmd) : State :=
  let x := s.coreSite q.core
  let b := match c with
    | some c => recBits (hOpc c.raw) q.core q.eng q.q c.pour (hTag c.raw) c.index c.reruns x c.submit (s.siteCycle x) { code := stCoreLost }
    | none => recBits 0 q.core q.eng q.q false 0 0 0 x 0 (s.siteCycle x) { code := stCoreLost }
  s.emitRecord (.que q) b true

/-- A queue becomes LOST (R30): it starts nothing more. Commands past their commit point finish their commit (R26 step
2, R29), the others are gone, and so is the room that a SPAWN held; the doorbells held for it are counted in the incident. -/
def State.loseQueue (s : State) (q : QRef) : State :=
  let s := s.lowerLive q
  let s := (s.q q).cmds.foldl (fun s c =>
    if c.phase == .committed then s
    else
      let s := s.ledgerEnd q c
      let s := if c.run = 0 then s else s.dropRun c.run
      s.dropCmd q c) s
  let held := (s.q q).heldDb
  let s := s.modQ q fun x => { x with ents := [], room := [], before := none, heldDb := 0 }
  let s := s.lostDoorbells q.core held
  ((s.setQState q 9).setFld (queStatus q) 8 8 stCoreLost).notify (.que q)

/-- Queues that a loss affects: those that are enabled and not already KILLED or LOST. -/
def State.affected (s : State) (q : QRef) : Bool := s.qEnabled q && s.qState q ≠ 8 && s.qState q ≠ 9

/-- An affected queue suspends (R26 step 3). A context that the loss has killed stays KILLED; a HALTED or BLOCKED queue
takes its state again when it resumes. -/
def State.suspendQueue (s : State) (q : QRef) : State :=
  let st := s.qState q
  if st = 8 ∨ st = 9 then s
  else
    let s := if st = 5 ∨ st = 6 then s.modQ q fun x => { x with before := some (st, s.fld (queStatus q) 8 8) } else s
    (s.setQState q 7).setFld (queStatus q) 8 8 stCoreLost

/-- A suspended queue resumes (R26 step 5): where it stood HALTED or BLOCKED it stands so again and waits for
QUE_RESUME, and a record that could not be written meanwhile blocks it (R198). -/
def State.resumeQueue (s : State) (q : QRef) : State :=
  if s.qState q ≠ 7 then s
  else
    let x := s.q q
    let s := s.modQ q fun x => { x with before := none, heldDb := 0 }
    match x.before with
    | some (st, cause) => (s.setQState q st).setFld (queStatus q) 8 8 cause
    | none =>
      if x.ring.held.isEmpty then (s.setFld (queStatus q) 0 16 0).refreshQ q
      else (s.setQState q 6).setFld (queStatus q) 8 8 stCompletionBlocked

/-- Kills the work of a core and answers its affected queues with the commands that they were running. -/
def State.interruptCore (s0 : State) (c : Nat) : State × List (QRef × Option Cmd) × Bool :=
  (coreQueues c).foldl (fun (acc : State × List (QRef × Option Cmd) × Bool) q =>
    let s := acc.1
    let running := match s.head q with
      | some h => if h.phase == .queued then none else some h
      | none => none
    let r := s.interruptQueue q
    (r.1, acc.2.1 ++ (if s0.affected q then [(q, running)] else []), acc.2.2 || r.2)) (s0, [], false)

/-- A die is gated off and never comes back before the next start (R445). -/
def State.gateOff (s : State) (x : Nat) : State :=
  { s with pwr := { s.pwr with gatedDies := if s.pwr.gatedDies.contains x then s.pwr.gatedDies else s.pwr.gatedDies ++ [x]
                               lostDies := if s.pwr.lostDies.contains x then s.pwr.lostDies else s.pwr.lostDies ++ [x] } }

/-- Gates a C-die and kills its work; the engines on it hold nothing more. -/
def State.gateDie (s : State) (x : Nat) (cores : List Nat) : State × List (QRef × Option Cmd) × Bool :=
  let s := s.gateOff x
  let s := s.setBit (errB x + 8) 4 false
  let r := cores.foldl (fun (acc : State × List (QRef × Option Cmd) × Bool) c =>
    let i := acc.1.interruptCore c
    let s := (List.range 7).foldl (fun s e => s.setEng c e { s.eng c e with run := 0, stopping := false }) i.1
    (s, acc.2.1 ++ i.2.1, acc.2.2 || i.2.2)) (s, [], false)
  r

/-- Cores become LOST with all their queues (R29, R30); each queue of `runs` writes its CORE_LOST record first. -/
def State.loseCores (s : State) (cores : List Nat) (runs : List (QRef × Option Cmd)) : State :=
  let s := s.genOdd
  let s := cores.foldl (fun s c => s.setFld (libCoreMap c) 12 4 2) s
  let s := s.genEven
  let s := runs.foldl (fun s e => s.coreLostRecord e.1 e.2) s
  cores.foldl (fun s c => (coreQueues c).foldl (fun s q => s.loseQueue q) s) s

/-- The CORE_LOST incident of a C-die (R26, R445). -/
def State.reportLoss (s : State) (l : DieLoss) (part : Option Nat) (lost : Bool) : State :=
  s.report { cls := 0x0C, site := l.site, unit := l.slot * 8, status := 0, sev := if l.pinned then sevContext else sevRecomputed
             reporter := l.site, part := part
             aux := BitVec.ofNat 64 (l.cause + b2n lost * 4 + (if lost then 0 else s.riserSite (siteRow l.site) * 16)) }

/-- Steps 1 and 2 of R26 for the C-die of a site: it is gated off and its work is killed. -/
def State.dieGate (s : State) (x cause slot : Nat) : State :=
  if s.pwr.lostDies.contains x then s
  else
    let g := s.gateDie x (s.coresAt x)
    { g.1 with boot := { g.1.boot with losses := g.1.boot.losses ++ [{ site := x, cause := cause, slot := slot, running := g.2.1, pinned := g.2.2 }] } }

/-- Step 3 of R26: the cores move to the riser of their row if it is FREE, and are in MAINT until the Librarian has
brought it into service (R96), else they become LOST (R29) and the incident is logged at once. -/
def State.dieSettle (s : State) (l : DieLoss) : State :=
  if l.moved then s
  else
    let x := l.site
    let cores := s.coresAt x
    let row := siteRow x
    let isRiser := decide (x = s.riserSite row)
    let move := !isRiser && s.riserState row = 0 && !cores.isEmpty && !s.isLost (s.riserSite row)
    let s := { s with boot := { s.boot with losses := s.boot.losses.erase l } }
    if move then
      let s : State := { s with boot := { s.boot with losses := s.boot.losses ++ [{ l with moved := true }] } }
      let s := s.genOdd
      let s := s.setRiser row 1
      let s := cores.foldl (fun s c => (s.setFld (libCoreMap c) 12 4 1).setBit (texB c) 15 true) s
      l.running.foldl (fun s e => (s.coreLostRecord e.1 e.2).suspendQueue e.1) s
    else
      let s := s.reportLoss l (cores.head?.bind fun c => s.corePart c) true
      let s := if isRiser && !cores.isEmpty then s.genOdd.setRiser row 2 else s
      s.loseCores cores l.running

/-- The losses of C-dies that wait for the Librarian are settled. -/
def State.settleLosses (s : State) : State := s.boot.losses.foldl (fun s l => s.dieSettle l) s

/-- The C-die of a site is lost, with a cause of R445 and the slot it is charged to; while the Librarian is
absent only steps 1 and 2 of R26 proceed (R413). -/
def State.cdieLost (s : State) (x cause slot : Nat) : State :=
  let s := s.dieGate x cause slot
  if s.boot.absent then s else s.settleLosses

/-- The substitution of a row ends: its incident is logged (R26 step 5, R29). -/
def State.endSubst (s : State) (row : Nat) (part : Option Nat) (lost : Bool) : State :=
  match s.boot.losses.find? fun l => l.moved && siteRow l.site = row with
  | some l =>
    let s : State := { s with boot := { s.boot with losses := s.boot.losses.erase l } }
    s.reportLoss l part lost
  | none => s

/-- Steps 4 and 5 of R26 (R28): the riser's C-die is no longer gated, the four moved cores of a row become ACTIVE at
the riser, and their queues resume. -/
def State.finishMove (s : State) (row : Nat) : State :=
  let x := s.riserSite row
  let cores := (List.range 256).filter fun c => c / 32 = row && s.coreState c = 1
  if cores.isEmpty then s
  else
    let slots := s.activeSlots x
    let s : State := { s with pwr := { s.pwr with gatedDies := s.pwr.gatedDies.filter (· ≠ x) } }
    let s := s.genOdd
    let s := (cores.zip slots).foldl (fun s (c, k) =>
      let s := s.setCoreEntry c x k
      let s := s.setFld (libCoreMap c) 12 4 0
      let s := s.bump (libCoreMap c) 16 16 1
      let s := s.setReg (calB c + 0x8) 0#64
      let s := s.setCoreX c { s.coreX c with tlb := [], walk := [], ipas := [], inWindow := false }
      let s := s.setTe c {}
      let s := [0, 1, 2, 3].foldl (fun s e => s.setReg (mexB c e + 0x40) (seedSr s.boot.mould.srSeed x k e)) s
      let s := s.setReg (texB c + 0x50) (seedSr s.boot.mould.srSeed x k 4)
      let s := s.withArc fun a => { a with ls := a.ls.filter fun e => e.1 / 0x200_0000 ≠ x * 6 + k }
      if (s.corePart c).any fun p => decide (s.partState p ≠ 0) && decide (s.partState p ≠ 5) then s.leaveMaint c else s) s
    let s := s.genEven
    let s := cores.foldl (fun s c => (coreQueues c).foldl (fun s q => s.resumeQueue q) s) s
    s.endSubst row (cores.head?.bind fun c => s.corePart c) false

/-- The riser fails while cores move onto it, or while it is in use (R29). -/
def State.riserLost (s : State) (row cause : Nat) : State :=
  let moving := (List.range 256).filter fun c => c / 32 = row && s.coreState c = 1
  let x := s.riserSite row
  if s.riserState row = 1 ∧ !moving.isEmpty then
    let s := s.genOdd
    let s := s.setRiser row 2
    let s := moving.foldl (fun s c => s.setFld (libCoreMap c) 12 4 2) s
    let s := s.genEven
    let s := s.gateOff x
    let s := moving.foldl (fun s c => (coreQueues c).foldl (fun s q => s.loseQueue q) s) s
    s.endSubst row (moving.head?.bind fun c => s.corePart c) true
  else if s.riserState row = 1 then s.cdieLost x cause 0
  else s

end Sys2Proof.Machine
end

