-- ==== Sys2Proof/Machine/MoveCore.lean ====
section
/-!
DEFINITION. What a move engine does (08_archive_and_memory R252-R256, 09_coherence R273, R274): the walk
over the rows of a transfer, its checks, the copy, prefetch and flush, and the write-back of copies of
host and remote memory.
-/

namespace Sys2Proof.Machine

/-! ### The transfer layout (R253) -/

def xSrc (d : Desc) : Nat := dF d 0x20 0 55
def xDst (d : Desc) : Nat := dF d 0x28 0 55
def xRowBytes (d : Desc) : Nat := dF d 0x30 0 32
def xRows (d : Desc) : Nat := dF d 0x34 0 32
def xSrcPitch (d : Desc) : Nat := dF d 0x38 0 32
def xDstPitch (d : Desc) : Nat := dF d 0x3C 0 32
def xSrcLs (d : Desc) : Bool := decide (dF d 0x40 0 1 = 1)
def xDstLs (d : Desc) : Bool := decide (dF d 0x40 1 1 = 1)
def xSrcHint (d : Desc) : Nat := dF d 0x40 2 2
def xDstHint (d : Desc) : Nat := dF d 0x40 4 2
def xAux (d : Desc) : Nat := dF d 0x48 0 64
/-- The index list, its low two bits ignored. -/
def xIdx (d : Desc) : Nat := alignDown (xAux d) 4

/-- The conditions of R254 that refuse a command with ILLEGAL_INSTRUCTION. -/
def xferIllegal (d : Desc) : Bool :=
  let op := hOpc d
  decide (2 ^ 36 < xRowBytes d * xRows d)
    || (decide (op = 0x49) && decide (xRows d ≠ 1))
    || (decide (op = 0x48 ∨ op = 0x49) && (xSrcLs d || xDstLs d))
    || (decide (op = 0x48) && decide (xDst d ≠ 0))
    || (decide (op = 0x40 ∨ op = 0x48 ∨ op = 0x49) && decide (xAux d ≠ 0))

/-- Source and destination of row `j`, with its index for GATHER and SCATTER (R254). -/
def xRowSrc (d : Desc) (j idx : Nat) : Nat := xSrc d + (if hOpc d = 0x42 then idx else j) * xSrcPitch d
def xRowDst (d : Desc) (j idx : Nat) : Nat := xDst d + (if hOpc d = 0x43 then idx else j) * xDstPitch d

def xHasIdx (d : Desc) : Bool := decide (hOpc d = 0x42) || decide (hOpc d = 0x43)
def xHasSrc (d : Desc) : Bool := decide (hOpc d ≠ 0x41)
def xHasDst (d : Desc) : Bool := decide (hOpc d < 0x48)

/-! ### Reading without effects -/

/-- The bytes that the command would read at a virtual address, without touching any cache. -/
def State.peek (s : State) (w : Who) (va n : Nat) : Bytes :=
  (addrs va n).map fun a =>
    match s.translate w .read a with
    | .error _ => 0#8
    | .ok x => s.byteAt w x.pa

/-- Sectors of host windows and other panels that a range needs and its slice does not hold are asked
for; true when none is missing. -/
def State.probeN (s : State) (w : Who) (hint : Nat) : Nat → Nat → Nat → State × Bool
  | 0, _, _ => (s, true)
  | fuel + 1, va, n =>
    if n = 0 then (s, true)
    else
      let m := min n (128 - va % 128)
      let r := match s.translate w .read va with
        | .error _ => (s, true)
        | .ok x =>
          if isOut x.pa then
            if (s.outMissing w x.pa m).isEmpty || s.arc.wbad.any (fun e => e.1 = wKey w.site x.pa / 128) then (s, true)
            else (s.fetchOut w (x.pa / 128) hint, false)
          else (s, true)
      let t := r.1.probeN w hint fuel (va + m) (n - m)
      (t.1, r.2 && t.2)

def State.probe (s : State) (w : Who) (hint va n : Nat) : State × Bool := s.probeN w hint (n / 128 + 2) va n

/-- Asks for everything outside the panel that the rows of a transfer will read; `ix` are the indices of its rows. -/
def State.probeXfer (s : State) (w : Who) (d : Desc) (ix : List Nat) : State × Bool :=
  if !xHasSrc d || xSrcLs d || hOpc d ≥ 0x48 then (s, true)
  else (List.range (xRows d)).foldl (fun (acc : State × Bool) j =>
    let r := acc.1.probe w (xSrcHint d) (xRowSrc d j (ix.getD j 0)) (xRowBytes d)
    (r.1, acc.2 && r.2)) (s, true)

/-! ### Checks in walk order (R254, R309) -/

/-- A local-store side beyond the current size: its first byte beyond. -/
def State.lsBeyond (s : State) (core off n : Nat) : Option Nat :=
  if n = 0 ∨ off + n ≤ s.lsSize core then none else some (max off (s.lsSize core))

def State.checkSide (s : State) (w : Who) (k : Acc) (flush ls : Bool) (a n : Nat) : State × Option Fail :=
  if ls then (s, (s.lsBeyond w.q.core a n).map fun x => { code := stProtection, detail := some (x, true) })
  else
    let r := s.checkVa w k flush a n
    (r.1, r.2.map fun e => failOf e.1.code e.2 false)

/-- Row after row, the source before the destination, and a repeatable command's window writes refused
(R201): the first failure. -/
def State.walkRows (s : State) (w : Who) (d : Desc) (ix : List Nat) : Nat → Nat → State × Option Fail
  | 0, _ => (s, none)
  | fuel + 1, j =>
    let i := ix.getD j 0
    let a := if xHasSrc d then s.checkSide w .read (decide (hOpc d = 0x49)) (xSrcLs d) (xRowSrc d j i) (xRowBytes d) else (s, none)
    match a.2 with
    | some f => (a.1, some f)
    | none =>
      let b := if xHasDst d then a.1.checkSide w .write false (xDstLs d) (xRowDst d j i) (xRowBytes d) else a
      match b.2 with
      | some f => (b.1, some f)
      | none => b.1.walkRows w d ix fuel (j + 1)

/-- The walk over the rows. -/
def State.xferWalk (s : State) (w : Who) (d : Desc) (ix : List Nat) : State × Option Fail :=
  if xRowBytes d = 0 then (s, none) else s.walkRows w d ix (xRows d) 0

/-- The index list of GATHER and SCATTER, which comes first in walk order: its checks, what it needs from outside the
panel, and its words, read once with SRC_HINT (R254, R309). -/
def State.readIdx (s : State) (w : Who) (d : Desc) : State × MRes (List Nat) :=
  if !xHasIdx d then (s, .ok [])
  else
    let k := s.checkSide w .read false false (xIdx d) (4 * xRows d)
    match k.2 with
    | some f => (k.1, .err f.code (xIdx d) false)
    | none =>
      let p := k.1.probe w (xSrcHint d) (xIdx d) (4 * xRows d)
      if !p.2 then (p.1, .wait)
      else
        let r := p.1.readVa w .read (xIdx d) (4 * xRows d) (xSrcHint d)
        (r.1, match r.2 with
          | .ok bs => .ok (words4 (xRows d) bs)
          | .err c a l => .err c a l
          | .wait => .wait)

/-! ### The copy (R254) -/

/-- Bytes read on one side. -/
def State.readSide (s : State) (w : Who) (ls : Bool) (a n hint : Nat) : State × MRes Bytes :=
  if ls then (s, .ok (s.rdLs (s.coreSlotIx w.q.core) a n)) else s.readVa w .read a n hint

def State.writeSide (s : State) (w : Who) (ls : Bool) (a : Nat) (bs : Bytes) (hint : Nat) : State × MRes Unit :=
  if ls then (s.wrLs (s.coreSlotIx w.q.core) a bs, .ok ()) else s.writeVa w a bs hint

/-- Bytes for a destination that earlier rows of the command may have written: each such byte takes the
new value or keeps the old one by a free choice (R254). -/
def State.mixRow (s : State) (w : Who) (d : Desc) (dst : Nat) (earlier : List Nat) (bs : Bytes) : State × Bytes :=
  let n := xRowBytes d
  if earlier.all fun e => decide (e + n ≤ dst) || decide (dst + bs.length ≤ e) then (s, bs)
  else
    bs.zipIdx.foldl (fun (acc : State × Bytes) (b, i) =>
      let a := dst + i
      if earlier.any fun e => decide (e ≤ a) && decide (a < e + n) then
        let f := acc.1.freeBit
        let old := if xDstLs d then f.1.arc.rdLs (lsKey (f.1.coreSlotIx w.q.core) a) else ((f.1.peek w a 1).head?).getD b
        (f.1, acc.2 ++ [if f.2 then b else old])
      else (acc.1, acc.2 ++ [b])) (s, [])

/-- One row, cut at the sectors of its source, so that a copy stops before writing any byte of a
poisoned sector (R248). -/
def State.copyRow (s : State) (w : Who) (d : Desc) (earlier : List Nat) : Nat → Nat → Nat → Nat → State × MRes Unit
  | 0, _, _, _ => (s, .ok ())
  | fuel + 1, src, dst, n =>
    if n = 0 then (s, .ok ())
    else
      let m := min n (128 - src % 128)
      let r := s.readSide w (xSrcLs d) src m (xSrcHint d)
      match r.2 with
      | .ok bs =>
        let x := r.1.mixRow w d dst earlier bs
        let y := x.1.writeSide w (xDstLs d) dst x.2 (xDstHint d)
        (match y.2 with
        | .ok _ => y.1.copyRow w d earlier fuel (src + m) (dst + m) (n - m)
        | z => (y.1, z))
      | .err c a l => (r.1, .err c a l)
      | .wait => (r.1, .wait)

/-- Rows `j` up. -/
def State.copyRows (s : State) (w : Who) (d : Desc) (ix : List Nat) : Nat → Nat → List Nat → State × MRes Unit
  | 0, _, _ => (s, .ok ())
  | fuel + 1, j, earlier =>
    let i := ix.getD j 0
    let dst := xRowDst d j i
    let n := xRowBytes d
    let r := if hOpc d = 0x41 then
        let pat := toBytes 8 (xAux d)
        let bs := (List.range n).map fun b => pat.getD (b % 8) 0#8
        let x := s.mixRow w d dst earlier bs
        x.1.writeSide w (xDstLs d) dst x.2 (xDstHint d)
      else s.copyRow w d earlier (n / 128 + 2) (xRowSrc d j i) dst n
    match r.2 with
    | .ok _ => r.1.copyRows w d ix fuel (j + 1) (dst :: earlier)
    | z => (r.1, z)

/-- The rows of a transfer. -/
def State.copyWork (s : State) (w : Who) (d : Desc) (ix : List Nat) : State × MRes Unit :=
  if xRowBytes d = 0 then (s, .ok ()) else s.copyRows w d ix (xRows d) 0 []

/-- The tentative lines that a transfer will write: what they wait for is asked for (R205, R207). -/
def State.tentXfer (s : State) (w : Who) (d : Desc) (ix : List Nat) : State × MRes Unit :=
  if w.run = 0 || !xHasDst d || xDstLs d || decide (xRowBytes d = 0) then (s, .ok ())
  else (List.range (xRows d)).foldl (fun (acc : State × MRes Unit) j =>
    match acc.2 with
    | .err _ _ _ => acc
    | x =>
      let r := acc.1.tentVa w (xRowDst d j (ix.getD j 0)) (xRowBytes d)
      (r.1, match r.2 with
        | .ok _ => x
        | y => y)) (s, .ok ())

/-- PREFETCH of a range into the slice of the core's site: LAST counts as NORMAL (R254). -/
def State.prefetchN (s : State) (w : Who) (hint : Nat) : Nat → Nat → Nat → State
  | 0, _, _ => s
  | fuel + 1, va, n =>
    if n = 0 then s
    else
      let m := min n (128 - va % 128)
      let t := s.xlat w .read va
      let s := match t.2 with
        | .error _ => t.1
        | .ok x =>
          if isOut x.pa then (if (t.1.outMissing w x.pa m).isEmpty then t.1 else t.1.fetchOut w (x.pa / 128) hint)
          else if isWin x.pa then t.1
          else t.1.readTouch w.site (x.pa / 512) w.part w.cid (byteMask (x.pa / 512) x.pa m) hint
      s.prefetchN w hint fuel (va + m) (n - m)

def State.prefetchWork (s : State) (w : Who) (d : Desc) : State :=
  let h := if xSrcHint d = 3 then 0 else xSrcHint d
  (List.range (xRows d)).foldl (fun s j => s.prefetchN w h (xRowBytes d / 128 + 2) (xRowSrc d j 0) (xRowBytes d)) s

/-! ### Write-back of copies outside coherence (R273, R274) -/

/-- A write-back for a queue's FLUSH_RANGE or release is on its way, or a MOPN of its launch with a SYSTEM release to
another panel (R288). -/
def State.releasePending (s : State) (q : QRef) : Bool :=
  let mopn (id : Nat) : Bool := (s.run? id).any fun r => r.q == q
  (s.host.pend.any fun e => match e.2.2 with
    | .release q' _ => q' == q
    | _ => false)
  || s.fabUses.any fun u => match u with
    | .release q' _ => q' == q
    | .mopn r true _ => mopn r
    | _ => false

/-- A write-back of a site's slice is on its way: until then the lines it cleaned are not acknowledged (R145). -/
def State.siteWritesBack (s : State) (site : Nat) : Bool :=
  (s.host.pend.any fun e => match e.2.2 with
    | .release _ x => x == site
    | .writeBack x _ _ => x == site
    | _ => false)
  || s.fabUses.any fun u => match u with
    | .release _ x => x == site
    | .writeBack x _ _ => x == site
    | _ => false

/-- Writes back the dirty sectors of a slice's copy of a line outside the panel: true where every one could be sent. -/
def State.wbLine (s : State) (site line : Nat) (q : Option QRef) : State × Bool :=
  (List.range 4).foldl (fun (acc : State × Bool) k =>
    let r := acc.1.wbSector site (line * 512 + 128 * k) q
    (r.1, acc.2 && r.2)) (s, true)

/-- Flush of one line of a range: of the panel's HBM by FLUSH to the home, of host and remote memory in all 72 slices; a
line of a local-store window needs nothing (R274). A write-back that no port can carry fails the command: with
PROTECTION_FAULT to another panel, with DATA_POISON to a host (R346, R354). -/
def State.flushLine (s : State) (w : Who) (id line : Nat) : State :=
  let pa := line * 512
  if isWin pa then s
  else if isOut pa then
    (List.range 72).foldl (fun s x =>
      let r := s.wbLine x line (some w.q)
      if r.2 then r.1 else r.1.modRun id fun r => if isRemote pa then { r with refused := true } else { r with poisoned := true }) s
  else
    match s.run? id with
    | none => s
    | some r =>
      if r.unackedLines.contains line || r.preimages.contains line then s
      else if s.isLost (homeOf pa) then s
      else
        let s := s.modRun id fun r => { r with unackedLines := r.unackedLines ++ [line], preimages := r.preimages ++ [line] }
        s.send .flush { line := line, req := w.site, src := w.site, dst := homeOf pa, part := w.part, cid := w.cid, run := id }

/-- FLUSH_RANGE over the lines of a range of virtual addresses. -/
def State.flushN (s : State) (w : Who) (id : Nat) : Nat → Nat → Nat → State
  | 0, _, _ => s
  | fuel + 1, va, n =>
    if n = 0 then s
    else
      let m := min n (512 - va % 512)
      let s := match s.translate w .read va with
        | .ok x => s.flushLine w id (x.pa / 512)
        | .error _ => s
      s.flushN w id fuel (va + m) (n - m)

/-- Every slice's copy of a line outside the panel is invalidated but for the bytes written since its write-back. -/
def State.dropOutLine (s : State) (line : Nat) : State :=
  (s.arc.lines.filter fun l => l.line == line).foldl (fun s l =>
    if l.dirty = 0 then s.dropLine l.site line
    else s.withArc fun a => a.modLine l.site line fun x => { x with valid := x.valid &&& fullSecs x.mask }) s

/-- Invalidates the copies of host and remote memory of a range in every slice (R274). -/
def State.dropOutN (s : State) (w : Who) : Nat → Nat → Nat → State
  | 0, _, _ => s
  | fuel + 1, va, n =>
    if n = 0 then s
    else
      let m := min n (512 - va % 512)
      let s := match s.translate w .read va with
        | .ok x => if isOut x.pa then s.dropOutLine (x.pa / 512) else s
        | .error _ => s
      s.dropOutN w fuel (va + m) (n - m)

end Sys2Proof.Machine
end

