-- ==== Sys2Proof/Machine/Coll.lean ====
section
/-!
DEFINITION. Collectives within the panel (07_commit_and_rerun R222-R225, 08_archive_and_memory R255,
R256): the collective block, the coordination record, the checks of a member and the exchange of data.
-/

namespace Sys2Proof.Machine

/-! ### The collective layout (R222, R255) -/

/-- COORD_ADDR; its low six bits are taken as 0 (DESIGN CHOICE, log entry 9). -/
def lCoord (d : Desc) : Nat := alignDown (dF d 0x20 0 55) 64
def lInst (d : Desc) : Nat := dF d 0x28 0 32
def lMembers (d : Desc) : Nat := dF d 0x2C 0 16
def lSrc (d : Desc) : Nat := dF d 0x30 0 32
def lRecv (d : Desc) : Nat := dF d 0x34 0 32
def lBytes (d : Desc) : Nat := dF d 0x38 0 32
def lRank (d : Desc) : Nat := dF d 0x3C 0 16
def lDtype (d : Desc) : Nat := dF d 0x3E 0 4
def lTab (d : Desc) : Nat := dF d 0x40 0 55
def lDst (d : Desc) : Nat := dF d 0x48 0 55

/-- Bytes of the result (R255). -/
def lResult (d : Desc) : Nat :=
  match hOpc d with
  | 0x51 => lBytes d / lMembers d
  | 0x52 => lMembers d * lBytes d
  | _ => lBytes d

/-- The conditions that refuse a member with ILLEGAL_INSTRUCTION before its table is read (R222, R255,
R256). -/
def collIllegal (d : Desc) : Bool :=
  let op := hOpc d
  decide (lInst d = 0) || decide (lMembers d < 2) || decide (512 < lMembers d)
    || (decide (op = 0x50 ∨ op = 0x51) && decide (2 < lDtype d))
    || decide (lBytes d % 16 ≠ 0)
    || (decide (op = 0x51 ∨ op = 0x53) && decide (lBytes d % (16 * max 1 (lMembers d)) ≠ 0))
    || decide (lMembers d ≤ lRank d)

/-- The checks of a member: its regions, its table and its coordination record. -/
def State.collCheck (s : State) (w : Who) (d : Desc) : State × Option Fail :=
  if collIllegal d then (s, some { code := stIllegal })
  else
    match s.lsBeyond w.q.core (lSrc d) (lBytes d) with
    | some x => (s, some { code := stProtection, detail := some (x, true) })
    | none =>
      match s.lsBeyond w.q.core (lRecv d) (lResult d) with
      | some x => (s, some { code := stProtection, detail := some (x, true) })
      | none =>
        let c := s.xlat w .write (lCoord d)
        match c.2 with
        | .error e => (c.1, some (failOf e.code (lCoord d) false))
        | .ok x =>
          if !isHbm x.pa then (c.1, some (failOf stProtection (lCoord d) false))
          else
            let t := c.1.readVa w .read (lTab d + 2 * lRank d) 2 0
            match t.2 with
            | .err e a l => (t.1, some (failOf e a l))
            | .wait => (t.1, none)
            | .ok bs =>
              let me := ofBytes bs
              if me = w.q.core + (w.q.eng - 5) * 256 then
                if lDst d = 0 then (t.1, none)
                else
                  let u := t.1.checkVa w .write false (lDst d) (lResult d)
                  (u.1, u.2.map fun e => failOf e.1.code e.2 false)
              else (t.1, some { code := stIllegal })

/-! ### The coordination record (R222) -/

def recInst (s : State) (pa : Nat) : Nat := s.rdNum pa 4
def recMembers (s : State) (pa : Nat) : Nat := s.rdNum (pa + 4) 2
def recPrepared (s : State) (pa : Nat) : Nat := s.rdNum (pa + 6) 2
def recState (s : State) (pa : Nat) : Nat := s.rdNum (pa + 8) 1
def recRun (s : State) (pa : Nat) : Nat := s.rdNum (pa + 9) 1

/-- The coordinator writes a field of the record. -/
def State.putRec (s : State) (pa off n v : Nat) : State := s.homeMerge (pa + off) (fldOf (s.frame pa) 2 4) (toBytes n v)

/-- Opens a run of an instance (R223). -/
def State.openRec (s : State) (pa inst members run : Nat) : State :=
  let x := homeOf pa
  let s := s.putRec pa 0 4 inst
  let s := s.putRec pa 4 2 members
  let s := s.putRec pa 6 2 0
  let s := s.putRec pa 8 1 1
  let s := s.putRec pa 9 1 (min 255 run)
  let s := s.putRec pa 0xA 1 (x % 128)
  s.putRec pa 0x10 8 (s.siteCycle x).toNat

/-- The members of an instance that have arrived: the run's number, its queue and command. -/
def State.membersOf (s : State) (pa inst : Nat) : List (Nat × QRef × Cmd) :=
  s.runs.filterMap fun e => match e.2 with
    | some r => if r.arrived && r.coord = pa && r.inst = inst && r.phase != .discarding then (s.cmdOfRun e.1).map fun c => (e.1, c.1, c.2) else none
    | none => none

/-- Ends every arrived member of an instance with a failure: each of them completes with the code before the queues
act on it, so that a code that kills the context leaves a record of every member (R223). -/
def State.endMembers (s : State) (pa inst : Nat) (f : Fail) : State :=
  let ms := s.membersOf pa inst
  let s := ms.foldl (fun s m =>
    let x := s.coreSite m.2.1.core
    ((s.modRun m.1 fun r => { r with arrived := false }).dropRun m.1).leaveAt m.2.1 m.2.2 f x (s.siteCycle x)) s
  ms.foldl (fun s m => (s.afterStatus m.2.1 m.2.2 f.code).advance m.2.1) s

/-- Kills every member of the run and re-queues it (R224). -/
def State.killMembers (s : State) (pa inst : Nat) : State :=
  (s.membersOf pa inst).foldl (fun s m =>
    let s := s.modRun m.1 fun r => { r with arrived := false }
    ((s.killRun m.1).requeue m.2.1 m.2.2).refreshQ m.2.1) s

/-- A KILL taken by the coordinator (R224): it acts on the run that is open. -/
def State.coordKill (s : State) (pa inst run : Nat) : State :=
  if recInst s pa = inst ∧ recState s pa = 1 ∧ recRun s pa = min 255 run then
    (s.putRec pa 8 1 3).killMembers pa inst
  else s

/-- An abort taken by the coordinator before the group commit point (R225): every member that has arrived completes
ABORTED, and one that arrives later finds ABORTED. An abort that comes before the first arrival opens the record for
its instance, unless another instance is OPEN or KILLED (DEDUCED, log entry 97). -/
def State.coordAbort (s : State) (pa inst members : Nat) : State :=
  let st := recState s pa
  if recInst s pa = inst ∧ st ≠ 0 then
    (if st = 1 ∨ st = 3 then (s.putRec pa 8 1 4).endMembers pa inst { code := stAborted } else s)
  else if st = 1 ∨ st = 3 then s
  else (s.openRec pa inst members 0).putRec pa 8 1 4

/-! ### Sums (R255, R256) -/

/-- The element-wise sum of two operands of 16 bits or 32 bits (R255, DTYPE). -/
def addElem (dtype a b : Nat) : Nat :=
  match dtype with
  | 0 => (f32add (BitVec.ofNat 32 a) (BitVec.ofNat 32 b)).toNat
  | 1 => (toBf16 .rne ((bf16 a).add (bf16 b))).1
  | _ => (a + b) % 2 ^ 32

/-- Element-wise sum of two runs of bytes (R255). -/
def addBytes (dtype : Nat) (a b : Bytes) : Bytes :=
  let w := if dtype = 1 then 2 else 4
  (List.range (a.length / w)).flatMap fun i =>
    toBytes w (addElem dtype (ofBytes ((a.drop (w * i)).take w)) (ofBytes ((b.drop (w * i)).take w)))

/-! ### The exchange (R255, R256) -/

/-- The result of the member of a rank of an ALLGATHER or an ALLTOALL (R255). -/
def collResult (op p rank n : Nat) (ins : List Bytes) : Bytes :=
  if op = 0x52 then ins.flatten else ins.flatMap fun b => (b.drop (rank * (n / p))).take (n / p)

/-- A member stores its result at DST, tentatively. Where it must wait for a tentative way it keeps the result, and
COLLECTIVE_PREPARED tries it again (R207); else it has done its work. -/
def State.collStore (s : State) (q : QRef) (id : Nat) (d : Desc) (r : Bytes) : State × Option Fail :=
  let x := if lDst d = 0 then (s, MRes.ok ()) else s.writeVa (s.runWho q id) (lDst d) r 0
  match x.2 with
  | .ok _ => (x.1.modRun id fun r => { r with phase := .workDone, dstTodo := none }, none)
  | .err c a l => (x.1, some (failOf c a l))
  | .wait => (x.1.modRun id fun y => { y with dstTodo := some r }, none)

/-- A member's input. -/
def State.collInput (s : State) (m : Nat × QRef × Cmd) : Bytes := s.rdLs (s.coreSlotIx m.2.1.core) (lSrc m.2.2.eff) (lBytes m.2.2.eff)

/-- All members of an ALLGATHER or an ALLTOALL have arrived: each takes its result into its receive region, and at DST
tentatively. -/
def State.exchange (s : State) (ms : List (Nat × QRef × Cmd)) : State × List (QRef × Cmd × Fail) :=
  let p := ms.length
  let ins := (List.range p).map fun r => match ms.find? fun m => lRank m.2.2.eff = r with
    | some m => s.collInput m
    | none => []
  ms.foldl (fun (acc : State × List (QRef × Cmd × Fail)) m =>
    let d := m.2.2.eff
    let r := collResult (hOpc d) p (lRank d) (lBytes d) ins
    let s := acc.1.wrLs (acc.1.coreSlotIx m.2.1.core) (lRecv d) r
    let x := s.collStore m.2.1 m.1 d r
    (x.1, acc.2 ++ (x.2.map fun f => (m.2.1, m.2.2, f)).toList)) (s, [])

/-! ### Reductions on the mesh (R255, R326-R330)

A result is cut into chunks of 128 bytes, each of which one member reduces: in an ALLREDUCE the member of rank k mod P for
chunk k, which then sends the sum to the others, so that all receive the same bits; in a REDUCE_SCATTER each member its own
chunks (DESIGN CHOICE, log entry 26). Every other member sends it one REDUCE packet for the chunk. -/

/-- The member of a rank that reduces a chunk of the result of a member of rank `rank`. -/
def reducerOf (d : Desc) (rank k : Nat) : Nat := if hOpc d = 0x50 then k % lMembers d else rank
/-- A member's contribution to a chunk of the result of rank `rank`. -/
def contribution (d : Desc) (rank k : Nat) (input : Bytes) : Bytes :=
  let n := lResult d
  (input.drop ((if hOpc d = 0x50 then 0 else rank * n) + 128 * k)).take (min 128 (n - 128 * k))
def chunkCount (d : Desc) : Nat := (lResult d + 127) / 128

/-- The address of a chunk of a member's receive region, through its window (R22, R327). -/
def State.chunkAddr (s : State) (q : QRef) (d : Desc) (k : Nat) : Nat :=
  (0x1000_0000_0000 + lsKey (s.coreSlotIx q.core) (lRecv d)) / 128 * 128 + 128 * k

/-- A REDUCE packet of a collective (R327). -/
def collPkt (src dest part dtype inst run seq addr : Nat) (bs : Bytes) : RedPkt :=
  BitVec.ofNat 1408
    (dest + 2 ^ 7 + part * 2 ^ 8 + dtype * 2 ^ 12 + 1 * 2 ^ 16 + inst * 2 ^ 32 + run * 2 ^ 64 + seq * 2 ^ 80
      + (2 ^ (bs.length / 4) - 1) * 2 ^ 96 + addr * 2 ^ 128 + 2 ^ src * 2 ^ 256 + ofBytes bs * 2 ^ 384)

/-- A member sends bytes of a chunk to another member; `sum` says that they are the sum. -/
def State.sendChunk (s : State) (frm tgt : Nat × QRef × Cmd) (k : Nat) (sum : Bool) (bs : Bytes) : State :=
  let d := tgt.2.2.eff
  let src := s.coreSite frm.2.1.core
  let dst := s.coreSite tgt.2.1.core
  let r := (s.run? frm.1).getD { q := frm.2.1, onEng := 0, cls := 2, part := 0, cid := 0, site := src }
  let p := collPkt src dst r.part (lDtype d) (lInst d) r.collRun (k % 2 ^ 15 + b2n sum * 2 ^ 15) (s.chunkAddr tgt.2.1 d k) bs
  { s with mesh := { s.mesh with redOut := s.mesh.redOut ++ [(src, s.nextHop src dst, p)] } }

/-- The chunks of a member's result as they stand when the reduction begins: its own contribution to those it reduces. -/
def State.ownChunks (s : State) (m : Nat × QRef × Cmd) : List (Nat × Nat × Bytes) :=
  let d := m.2.2.eff
  (List.range (chunkCount d)).map fun k =>
    if reducerOf d (lRank d) k = lRank d then (k, 1, contribution d (lRank d) k (s.collInput m)) else (k, 0, [])

/-- All members of an ALLREDUCE or a REDUCE_SCATTER have arrived: each sends its contributions. -/
def State.reduceBegin (s : State) (ms : List (Nat × QRef × Cmd)) : State :=
  let s := ms.foldl (fun (s : State) m => s.modRun m.1 fun r => { r with coll := s.ownChunks m }) s
  ms.foldl (fun (s : State) m => ms.foldl (fun (s : State) t =>
    if t.1 = m.1 then s
    else ((List.range (chunkCount t.2.2.eff)).filter fun k => reducerOf t.2.2.eff (lRank t.2.2.eff) k = lRank t.2.2.eff).foldl
      (fun s k => s.sendChunk m t k false (contribution m.2.2.eff (lRank t.2.2.eff) k (s.collInput m))) s) s) s

/-- A collective packet as its destination reads it (R327). -/
structure CollPkt where
  site : Nat
  part : Nat
  dtype : Nat
  count : Nat
  inst : Nat
  run : Nat
  seq : Nat
  mask : Nat
  addr : Nat
  deriving DecidableEq, Repr

/-- The member at a site that a packet is for: of its instance and current run, with the packet's chunk of its receive
region (R224, R330). -/
def State.collTarget (s : State) (p : CollPkt) : Option (Nat × Run × QRef × Cmd × Nat) :=
  s.runs.findSome? fun e => match e.2 with
    | some r =>
      if r.arrived && r.phase == .running && r.inst = p.inst && r.collRun = p.run && r.part = p.part && s.coreSite r.q.core = p.site then
        (s.cmdOfRun e.1).bind fun c =>
          let base := s.chunkAddr c.1 c.2.eff 0
          let k := (p.addr - base) / 128
          if base ≤ p.addr ∧ k < chunkCount c.2.eff then some (e.1, r, c.1, c.2, k) else none
      else none
    | none => none

/-- A chunk of a member's result is complete: it stands in the receive region, and the member that has reduced a chunk of an
ALLREDUCE sends the sum to the others. -/
def State.chunkDone (s : State) (id : Nat) (q : QRef) (c : Cmd) (k : Nat) (sum : Bool) (bs : Bytes) : State :=
  let d := c.eff
  let s := s.wrLs (s.coreSlotIx q.core) (lRecv d + 128 * k) bs
  if sum || hOpc d ≠ 0x50 then s
  else
    let ms := s.membersOf ((s.run? id).map (·.coord) |>.getD 0) (lInst d)
    (ms.filter fun m => m.1 ≠ id).foldl (fun s m => s.sendChunk (id, q, c) m k true bs) s

/-- A collective packet is delivered: its contributions are added to its chunk, whose completion COUNT tells. The member
whose last chunk is complete has its result. A packet of no current run is dropped (R224, R330). -/
def State.collPacket (s : State) (p : CollPkt) (words : List Nat) : State :=
  match s.collTarget p with
  | none => s
  | some (id, r, q, c, k) =>
    match r.coll.find? fun e => e.1 = k with
    | none => s
    | some e =>
      let n := min 128 (lResult c.eff - 128 * k)
      let bs := (words.flatMap (toBytes 4)).take n
      let sum := decide (2 ^ 15 ≤ p.seq)
      let full := lMembers c.eff
      if full ≤ e.2.1 then s
      else
        let v := if sum then (k, full, bs) else (k, e.2.1 + p.count, addBytes p.dtype e.2.2 bs)
        let s := s.modRun id fun r => { r with coll := r.coll.map fun x => if x.1 = k then v else x }
        if v.2.1 < full then s
        else
          let s := s.chunkDone id q c k sum v.2.2
          let all := ((s.run? id).map (·.coll)).getD []
          if all.any fun x => decide (x.2.1 < full) then s
          else
            let x := s.collStore q id c.eff (all.flatMap (·.2.2))
            match x.2 with
            | some f => x.1.fail q c f
            | none => x.1

end Sys2Proof.Machine
end

