-- ==== Sys2Proof/Machine/MatCore.lean ====
section
/-!
DEFINITION. The matrix product (03_matrix_engines R61-R77, 02_narrow_formats R41-R45, R49-R59): operand
regions, the checks of R73, the accumulators, the output conversion and the amax.
-/

namespace Sys2Proof.Machine

/-! ### Operands and regions (R42-R44, R70, R72) -/

/-- An operand with its bases and pitches in bytes, the bits below their alignment ignored (R43). -/
structure MOp where
  fmt : Nat
  data : Nat
  scale : Nat
  incl : Nat
  ts : Nat
  dp : Nat
  sp : Nat
  ip : Nat
  share : Bool
  raw : BitVec 192
  deriving DecidableEq, Repr, Inhabited

/-- The operand field at byte `off` of a matrix descriptor. -/
def mOp (d : Desc) (off : Nat) : MOp :=
  let fmt := dF d (off + 0x14) 0 4
  let blk := fmtBlock fmt
  { fmt := fmt
    data := alignDown (dF d off 0 32) (if blk then 512 else 128)
    scale := alignDown (dF d (off + 4) 0 32) 128
    incl := if blk then alignDown (dF d (off + 8) 0 32) 128 else 0
    ts := if blk then alignDown (dF d (off + 12) 0 32) 64 else 0
    dp := alignDown (dF d (off + 16) 0 16 * 16) (if blk then 128 else 16)
    sp := dF d (off + 18) 0 8 * 16
    ip := dF d (off + 19) 0 8 * 64
    share := decide (dF d (off + 21) 0 1 = 1)
    raw := BitVec.ofNat 192 (dF d off 0 192) }

def mA (d : Desc) : MOp := mOp d 0x20
def mB (d : Desc) : MOp := mOp d 0x38
def mC (d : Desc) : MOp := mOp d 0x50
def mM (d : Desc) : Nat := dF d 0x68 0 16
def mN (d : Desc) : Nat := dF d 0x6A 0 16
def mK (d : Desc) : Nat := dF d 0x6C 0 16
def mCtl (d : Desc) (lo w : Nat) : Nat := dF d 0x6E lo w
def mInit (d : Desc) : Nat := mCtl d 0 2
def mRmode (d : Desc) : Nat := mCtl d 2 2
def mFixed (d : Desc) : Bool := decide (mCtl d 4 1 = 1)
def mTsSrc (d : Desc) : Nat := mCtl d 5 2
def mAmax (d : Desc) : Nat := mCtl d 7 2
def mGang (d : Desc) : Nat := mCtl d 9 3
def mTsv (d : Desc) : W32 := BitVec.ofNat 32 (dF d 0x70 0 32)
def mS8 (d : Desc) : Nat := dF d 0x74 0 8
def mMargin (d : Desc) : Int := sext (dF d 0x75 0 8) 8
def mAmaxAddr (d : Desc) : Nat := dF d 0x78 0 55
/-- C_IN (R72). -/
def mCinBase (d : Desc) : Nat := alignDown (dF d 0x54 0 32) 128
def mCinPitch (d : Desc) : Nat := (dF d 0x62 0 8 + dF d 0x63 0 8 * 256) * 16

/-- Blocks of a row of `cols` columns. -/
def nbOf (cols : Nat) : Nat := ceilDiv cols 32
/-- Bytes of a block of a format. -/
def blkBytes (fmt : Nat) : Nat := 4 * fmtBits fmt

/-- A region from its base to the last byte of its last row; an empty one occupies nothing. -/
def spanOf (base rows pitch rowBytes : Nat) : Nat × Nat :=
  if rows = 0 ∨ rowBytes = 0 then (base, 0) else (base, (rows - 1) * pitch + rowBytes)

/-- The regions of a tensor (R42, R73), in the order data, scales, inclusions, tile scales. -/
def regionsOf (o : MOp) (rows cols : Nat) : List (Nat × Nat) :=
  if fmtBlock o.fmt then
    let nb := nbOf cols
    [spanOf o.data rows o.dp (nb * blkBytes o.fmt), spanOf o.scale rows o.sp nb]
      ++ (if o.incl = 0 then [] else [spanOf o.incl rows o.ip (4 * nb)])
      ++ (if o.ts = 0 then [] else [(o.ts, 4 * ceilDiv rows 256 * ceilDiv (32 * nb) 256)])
  else [spanOf o.data rows o.dp (cols * fmtBits o.fmt / 8)]

def cinRegion (d : Desc) : List (Nat × Nat) :=
  if mInit d = 1 then [spanOf (mCinBase d) (mM d) (mCinPitch d) (mN d * 4)] else []

def overlaps (a b : Nat × Nat) : Bool := decide (a.1 < b.1 + b.2) && decide (b.1 < a.1 + a.2) && decide (0 < a.2) && decide (0 < b.2)

/-- The conditions of R73 that refuse a command with ILLEGAL_INSTRUCTION. -/
def matIllegal (d : Desc) : Bool :=
  let a := mA d
  let b := mB d
  let c := mC d
  decide (8 < a.fmt) || decide (8 < b.fmt) || decide (9 < c.fmt) || (decide (a.fmt = 0) != decide (b.fmt = 0))
    || c.share || decide (mInit d > 1) || decide (mRmode d = 3) || decide (mTsSrc d > 1) || decide (mAmax d = 3)
    || (decide (mInit d = 1) && fmtBlock c.fmt)
    || decide (mMargin d < -16) || decide (16 < mMargin d)
    || (decide (mAmax d ≠ 0) && decide (mAmaxAddr d % 4 ≠ 0))
    || (regionsOf c (mM d) (mN d)).any fun r =>
        (regionsOf a (mM d) (mK d) ++ regionsOf b (mN d) (mK d) ++ cinRegion d).any fun x => overlaps r x

/-- The regions in the order of the descriptor's fields. -/
def matRegions (d : Desc) : List (Nat × Nat) :=
  regionsOf (mA d) (mM d) (mK d) ++ regionsOf (mB d) (mN d) (mK d)
    ++ (if mInit d = 1 then (regionsOf (mC d) (mM d) (mN d)).take 1 ++ cinRegion d else regionsOf (mC d) (mM d) (mN d))

/-- Words of the amax destination (R77). -/
def amaxWords (d : Desc) : Nat :=
  if mAmax d = 0 then 0
  else if mAmax d = 1 then 1
  else ceilDiv (mM d) 256 * ceilDiv (mN d) 256

/-- The destination of R77 page by page: its first TRANSLATION_FAULT, and the first refusal of another kind. -/
def State.amaxPages (s : State) (w : Who) : Nat → Nat → Nat → Option (XErr × Nat) → State × Option (XErr × Nat)
  | 0, _, _, bad => (s, bad)
  | fuel + 1, va, n, bad =>
    if n = 0 then (s, bad)
    else
      let t := s.xlat w .atomic va
      match t.2 with
      | .error e =>
        if e.code = stTranslation then (t.1, some (e, va))
        else t.1.amaxPages w fuel (va + pieceLen va n) (n - pieceLen va n) (bad.or (some (e, va)))
      | .ok x =>
        let out := !isHbm x.pa || t.1.mirrorB x.pa
        t.1.amaxPages w fuel (va + pieceLen va n) (n - pieceLen va n) (bad.or (if out then some ({ code := stProtection }, va) else none))

/-- The checks of R73, in their order: in the destination of the amax a TRANSLATION_FAULT of any page comes before
a PROTECTION_FAULT. -/
def State.matCheck (s : State) (w : Who) (d : Desc) : State × Option Fail :=
  if matIllegal d then (s, some { code := stIllegal })
  else
    match (matRegions d).find? fun r => decide (0 < r.2) && decide (s.lsSize w.q.core < r.1 + r.2) with
    | some r => (s, some { code := stProtection, detail := some (r.1, true) })
    | none =>
      let n := 4 * amaxWords d
      let r := s.amaxPages w (n / 65536 + 2) (mAmaxAddr d) n none
      (r.1, r.2.map fun e => failOf e.1.code e.2 false)

/-! ### The product (R59, R61-R65) -/

/-- Bytes of the core's local store. -/
def State.lsNum (s : State) (ix off n : Nat) : Nat := ofBytes (s.rdLs ix off n)

/-- Block `b` of row `r` of a block-scaled operand whose contracted length is `k`: elements at and above
`k` read as zero and inclusions that name them are ignored (R64). -/
def State.matBlock (s : State) (ix : Nat) (o : MOp) (k ncT r b : Nat) : OpBlk :=
  let bits := s.lsNum ix (o.data + r * o.dp + b * blkBytes o.fmt) (blkBytes o.fmt)
  let codes := (List.range (min 32 (k - 32 * b))).map fun i => elemAt o.fmt bits i
  let sc := s.lsNum ix (o.scale + r * o.sp + b) 1
  let incl := if o.incl = 0 then 0 else s.lsNum ix (o.incl + r * o.ip + 4 * b) 4
  let t := if o.ts = 0 then 0x3F800000 else s.lsNum ix (o.ts + 4 * (r / 256 * ncT + b / 8)) 4
  readBlock o.fmt codes sc incl (f32posNormal (BitVec.ofNat 32 t))

/-- The tile scale of a block of an operand. -/
def State.matTile (s : State) (ix : Nat) (o : MOp) (ncT r b : Nat) : W32 :=
  if o.ts = 0 then 0x3F800000#32 else BitVec.ofNat 32 (s.lsNum ix (o.ts + 4 * (r / 256 * ncT + b / 8)) 4)

/-- Groups of 32 K positions of BF16 operands (R64). -/
def State.bfGroup (s : State) (ix : Nat) (o : MOp) (k r b : Nat) : List Num :=
  (List.range (min 32 (k - 32 * b))).map fun i => elemVal 0 (s.lsNum ix (o.data + r * o.dp + 2 * (32 * b + i)) 2)

/-- An FP32 input: the payload and the sign of a NaN are not kept (R58). -/
def quiet32 (x : W32) : W32 := if (f32 x).isNan then nan32 else x

/-- The accumulator of element (r, c) at the end of K (R59). -/
def State.matAcc (s : State) (ix : Nat) (d : Desc) (r c : Nat) : W32 :=
  let a := mA d
  let b := mB d
  let k := mK d
  let nc := ceilDiv (32 * nbOf k) 256
  let i0 := if mInit d = 1 then quiet32 (BitVec.ofNat 32 (s.lsNum ix (mCinBase d + r * mCinPitch d + 4 * c) 4)) else 0#32
  (List.range (nbOf k)).foldl (fun acc j =>
    if a.fmt = 0 then
      f32add acc (toF32 .rne (Num.sum ((s.bfGroup ix a k r j).zipWith Num.mul (s.bfGroup ix b k c j))))
    else
      let tab := f32mul (s.matTile ix a nc r j) (s.matTile ix b nc c j)
      f32add acc (pairContrib (s.matBlock ix a k nc r j) (s.matBlock ix b k nc c j) tab)) i0

/-- Invalid operand blocks, counted once for each output tile that uses them (R84). -/
def State.matInvalid (s : State) (ix : Nat) (d : Desc) : Nat :=
  let k := mK d
  let nc := ceilDiv (32 * nbOf k) 256
  let count (o : MOp) (rows : Nat) : Nat :=
    if fmtBlock o.fmt then
      ((List.range rows).flatMap fun r => (List.range (nbOf k)).map fun b => b2n (s.matBlock ix o k nc r b).invalid).sum
    else 0
  count (mA d) (mM d) * ceilDiv (mN d) 256 + count (mB d) (mN d) * ceilDiv (mM d) 256

/-! ### Output conversion (R75, R76) -/

/-- The tile scale of C (R76); none where it is invalid. -/
def deriveT (d : Desc) : Option W32 :=
  let c := mC d
  if !fmtBlock c.fmt || decide (c.ts = 0) then some 0x3F800000#32
  else if mTsSrc d = 0 then some (mTsv d)
  else
    match f32 (mTsv d) with
    | .nan => none
    | .inf _ => none
    | .fin _ m =>
      if nbit (mTsv d).toNat 31 then none
      else
        let q := toF32 .rne (.fin false (Mag.div m (vmaxOf c.fmt)))
        let t := match f32 q with
          | .fin _ x => toF32 .rne (.fin false { x with e := x.e + mMargin d })
          | _ => q
        some (if t.ult 0x00800000#32 then 0x00800000#32 else t)

/-- The greatest magnitude of some FP32 values, as bits; NaN ranks above all (R77). -/
def amaxOf (xs : List W32) : W32 :=
  xs.foldl (fun a x =>
    let m := x &&& 0x7FFFFFFF#32
    let m := if (f32 x).isNan then nan32 else m
    if a.toNat < m.toNat then m else a) 0#32

/-- What a command leaves in the local store and counts. -/
structure MOut where
  s : State
  sat : Nat := 0
  flushed : Nat := 0
  inclOvf : Nat := 0
  invalid : Nat := 0
  deriving Repr

/-- Writes a number to the local store. -/
def State.putLs (s : State) (ix off n v : Nat) : State := s.wrLs ix off (toBytes n v)

/-- Converts and writes the `n` columns from `c0` up (a multiple of 32) of row `r` of C (R75). `x c` is the
accumulator of column c, `draw c` its draw. -/
def matRow (d : Desc) (ix : Nat) (t : W32) (r c0 n : Nat) (x : Nat → W32) (draw : Nat → Nat) (o : MOut) : MOut :=
  let c := mC d
  let cols := (List.range n).map (c0 + ·)
  if c.fmt = 9 then
    { o with s := cols.foldl (fun s j => s.putLs ix (c.data + r * c.dp + 4 * j) 4 (x j).toNat) o.s }
  else if c.fmt = 0 then
    cols.foldl (fun o j =>
      let v := toBf16 (modeOf (mRmode d) (draw j)) (f32 (x j))
      { o with s := o.s.putLs ix (c.data + r * c.dp + 2 * j) 2 v.1, flushed := o.flushed + b2n v.2 }) o
  else
    ((List.range (nbOf n)).map (c0 / 32 + ·)).foldl (fun o b =>
      let xs := (List.range 32).map fun i => if 32 * b + i < c0 + n then x (32 * b + i) else 0#32
      let q := quantiseBlock xs t c.fmt (fun i => modeOf (mRmode d) (draw (32 * b + i)))
        (if mFixed d then some (mS8 d) else none) (c.incl ≠ 0)
      let s := o.s.putLs ix (c.data + r * c.dp + b * blkBytes c.fmt) (blkBytes c.fmt) (packElems c.fmt q.codes)
      let s := s.putLs ix (c.scale + r * c.sp + b) 1 q.sc
      let s := if c.incl = 0 then s else s.putLs ix (c.incl + r * c.ip + 4 * b) 4 q.incl
      { s := s, sat := o.sat + q.sat, flushed := o.flushed + q.flushed, inclOvf := o.inclOvf + q.inclOvf,
        invalid := o.invalid + q.invalid }) o

/-- The drain of output tile (mi, ni) (R62, R75): its rows, then the tile-scale entry of C that coincides with it.
Within a block the data is written first, then the scale, then the inclusions (DESIGN CHOICE, log entry 94). -/
def matTileOut (d : Desc) (ix : Nat) (t : W32) (tBits mi ni : Nat) (acc : Nat → Nat → W32) (draw : Nat → Nat → Nat) (o : MOut) : MOut :=
  let rows := (List.range (min 256 (mM d - 256 * mi))).map (256 * mi + ·)
  let o := rows.foldl (fun o r => matRow d ix t r (256 * ni) (min 256 (mN d - 256 * ni)) (acc r) (draw r) o) o
  if (mC d).ts = 0 then o
  else { o with s := o.s.putLs ix ((mC d).ts + 4 * (mi * ceilDiv (mN d) 256 + ni)) 4 tBits }

/-- The TILES words of a run that are not written yet are stored one after another (R77); one that must wait for a
tentative way stays with those after it, and the MATMUL row tries it again. -/
def State.amaxStore (s : State) (w : Who) (id : Nat) : List (Nat × Nat) → State × MRes Unit
  | [] => (s.modRun id fun r => { r with amaxTodo := [] }, .ok ())
  | (va, v) :: rest =>
    let x := s.xlat w .atomic va
    match x.2 with
    | .error e => (x.1, .err e.code va false)
    | .ok o =>
      let y := x.1.writeTent w o.pa (toBytes 4 v) 0
      match y.2 with
      | .ok _ => y.1.amaxStore w id rest
      | .err c a l => (y.1, .err c a l)
      | .wait => (y.1.modRun id fun r => { r with amaxTodo := (va, v) :: rest }, .ok ())

/-- The whole command (R61, R75-R77): operand reads, accumulation, conversion and the amax, of the run
`id` on engine `e`. A tile scale of C that R76 calls invalid has no value: a free one is written. -/
def State.matWork (s : State) (q : QRef) (id e : Nat) (d : Desc) : State × MRes Unit :=
  let ix := s.coreSlotIx q.core
  let m := mM d
  let n := mN d
  let w := s.runWho q id
  if m = 0 ∨ n = 0 then (s.modRun id fun r => { r with amax := 0#32 }, .ok ())
  else
    let acc := fun r c => s.matAcc ix d r c
    let inv := s.matInvalid ix d
    let conv := (mC d).fmt ≠ 9
    let srKey := mexB q.core e + 0x40
    let drawn := if conv && mRmode d = 2 then drawsSr (m * n) (s.reg srKey) else (s.reg srKey, [])
    let deal := dealDraws drawn.2.length s.free drawn.2
    let s1 := { (s.setReg srKey drawn.1) with free := s.free + drawn.2.length + 1 }
    let t := (deriveT d).getD nan32
    let tBits := match deriveT d with
      | some v => v.toNat
      | none => (Config.invalidTileScale (mTsv d) (mC d).fmt (mMargin d)).toNat
    let tn := ceilDiv n 256
    let o := (List.range (ceilDiv m 256 * tn)).foldl (fun o i =>
      matTileOut d ix t tBits (i / tn) (i % tn) acc (fun r c => deal.getD (r * n + c) 0) o) { s := s1 }
    let s2 := o.s
    let rows (f : Nat → Nat → Bool) : List W32 :=
      (List.range m).flatMap fun r => ((List.range n).filter fun c => f r c).map fun c => acc r c
    let am := amaxOf (rows fun _ _ => true)
    let s3 := s2.modRun id fun r => { r with amax := am, sat := r.sat + o.sat, flushed := r.flushed + o.flushed
                                             inclOvf := r.inclOvf + o.inclOvf, invalid := r.invalid + o.invalid + inv }
    if mAmax d = 1 then
      let x := s3.xlat w .atomic (mAmaxAddr d)
      match x.2 with
      | .ok o => x.1.logOp w { sub := 2, size := 4, addr := o.pa, val := BitVec.ofNat 64 am.toNat, cmp := 0 } false
      | .error e => (x.1, .err e.code (mAmaxAddr d) false)
    else if mAmax d = 2 then
      s3.amaxStore w id ((List.range (ceilDiv m 256 * tn)).map fun i =>
        (mAmaxAddr d + 4 * i, (amaxOf (rows fun r c => r / 256 = i / tn && c / 256 = i % tn)).toNat))
    else (s3, .ok ())

/-- Adds a committed run's totals to its engine's counters (R84, R118). -/
def State.addFlash (s : State) (k : Nat) (r : Run) : State :=
  (((s.sat (k + 0x10) 0 48 r.sat).sat (k + 0x18) 0 48 r.flushed).sat (k + 0x20) 0 48 r.inclOvf).sat (k + 0x28) 0 48 r.invalid

end Sys2Proof.Machine
end

