-- ==== Sys2Proof/Machine/Start.lean ====
section
/-!
DEFINITION. How a command starts (06_submission R169-R171, R179-R186, R196, 07_commit_and_rerun R206,
R216, R218, 04_thread_engine R89): the gates of the head command, the slot table, the indirect reads, the
opcode's checks and the reservation.
-/

namespace Sys2Proof.Machine

/-! ### Slots (R179, R196) -/

/-- Rank substitution of a slot index. -/
def State.substSlot (s : State) (q : QRef) (on : Bool) (k : Nat) : Nat :=
  if on then (k + s.fld (queBcast q) 8 8 * s.fld (queBcast q) 16 16) % 65536 else k

/-- The virtual address of a slot. -/
def State.slotVa (s : State) (q : QRef) (k : Nat) : Nat := s.fld (queTableBase q) 0 55 + 8 * k

/-- The physical address of a slot; outside the panel's HBM it is a protection fault. -/
def State.slotPa (s : State) (q : QRef) (k : Nat) (a : Acc) : State × Except Fail Nat :=
  let va := s.slotVa q k
  let x := s.xlat (s.who q) a va
  match x.2 with
  | .error e => (x.1, .error (failOf e.code va false))
  | .ok o => if isHbm o.pa then (x.1, .ok o.pa) else (x.1, .error (failOf stProtection va false))

/-- The value of a slot, read as a PANEL-scope acquire (R181). -/
def State.slotRead (s : State) (q : QRef) (k : Nat) : State × Except Fail (Nat × Nat) :=
  let x := s.slotPa q k .read
  match x.2 with
  | .error f => (x.1, .error f)
  | .ok pa =>
    let p := x.1.poisonRead (s.who q) pa 8
    match p.2 with
    | some c => (p.1, .error { code := c })
    | none => (p.1, .ok (p.1.rdNum pa 8, pa))

/-! ### Gates (R170) -/

/-- What the steps 2 to 4 say of a head command. -/
inductive Gate where
  | pass | wait
  | fail (f : Fail)
  deriving DecidableEq, Repr

/-- FENCE (R184). -/
def State.fenceOk (s : State) (q : QRef) (c : Cmd) : Bool :=
  match hFence c.raw with
  | 0 => true
  | 1 => ((s.q q).cmds.takeWhile fun e => !e.same c).isEmpty
  | _ => c.fences.all fun id => (s.run? id).isNone

/-- The pending arm of the command (R186). -/
def State.armKey (q : QRef) (id : Nat) : Nat := queArm q (id / 64)

/-- Steps 2 to 4 in order; an arm is consumed when it is passed, and an unsatisfied event leaves a watch
at its slot (R183, R186). -/
def State.gates (s : State) (q : QRef) (c : Cmd) : State × Gate :=
  if c.gates then (s, .pass)
  else if !s.fenceOk q c then (s, .wait)
  else
    let id := hArmId c.raw
    let armed := !hArmed c.raw || c.armTaken || s.bit (State.armKey q id) (id % 64)
    if !armed then (s, .wait)
    else
      let s := if hArmed c.raw && !c.armTaken then
          (s.setBit (State.armKey q id) (id % 64) false).modCmd q c fun c => { c with armTaken := true } else s
      if hWaitEn c.raw then
        let r := s.slotRead q (s.substSlot q (hRsEvt c.raw) (hWaitSlot c.raw))
        match r.2 with
        | .error f => (r.1, .fail f)
        | .ok (v, pa) =>
          if hWaitValue c.raw ≤ v then (r.1.modCmd q c fun c => { c with gates := true }, .pass)
          else
            let s := r.1
            (if s.net.watches.contains (pa, q) then s else { s with net := { s.net with watches := s.net.watches ++ [(pa, q)] } }, .wait)
      else (s.modCmd q c fun c => { c with gates := true }, .pass)

/-- The Calendar admits the command's class (R218). -/
def State.calAdmits (s : State) (q : QRef) : Bool :=
  let k := calB q.core
  if !s.bit k 16 then true
  else
    let e := calWin q.core (s.fld (k + 0x8) 0 12)
    if some (s.fld e 0 4) ≠ s.corePart q.core then false
    else if s.bit e 6 then !s.bit (k + 0x10) 0
    else s.bit e (if q.q < 2 then 4 else 5)

/-- The queue may start a command at all: enabled, not stopped, its core ACTIVE on a C-die that is not gated off and not in
MAINT (R96). -/
def State.mayStart (s : State) (q : QRef) : Bool :=
  s.qEnabled q && !stuckState (s.qState q) && !s.maint q.core && decide (s.coreState q.core = 0) && !s.pwr.gatedDies.contains (s.coreSite q.core) && s.mapBuilt
    && !s.pwr.fatal

/-- The head of a queue is ready (R169, R170). -/
def State.headReady (s : State) (q : QRef) : Bool :=
  match s.head q with
  | none => false
  | some c =>
    c.phase == .queued && s.mayStart q && !hdrBad q.eng c.pour c.raw && (s.gates q c).2 == .pass && decide (0 < s.crFree q)
      && (s.ledgerAdmit q (hEnergy c.raw)).isSome && s.calAdmits q

/-- The run that a ready head may pre-empt on an engine (R216). -/
def State.preemptible (s : State) (q : QRef) (id : Nat) : Option (QRef × Cmd) :=
  match s.run? id, s.cmdOfRun id with
  | some r, some (q', c) =>
    if q.q < 2 && decide (2 ≤ q'.q) && c.phase != .committed && (r.cls == 0 || (r.cls == 2 && r.collRun == 0)) then some (q', c) else none
  | _, _ => none

/-- A deferral is noted once a frame (R431, R197). -/
def State.noteDeferral (s : State) (q : QRef) (c : Cmd) : State :=
  if c.deferred then s
  else
    let s := s.modCmd q c fun c => { c with deferred := true }
    let s := s.sat (ldgFactor (s.coreSite q.core) ((s.corePart q.core).getD 0)) 48 16 1
    if !s.bit (queCfg q) 2 then s
    else if s.crFree q < 2 then (s.setBit (queStatus q) 18 true).drop (.que q)
    else
      let x := s.coreSite q.core
      s.emitRecord (.que q) (recBits (hOpc c.raw) q.core q.eng q.q c.pour (hTag c.raw) c.index c.reruns x c.submit (s.siteCycle x)
        { code := stDeferred }) (hNotify c.raw)

/-- The command starts under a fresh commit identifier: the Ledger holds its energy, and an engine command takes its
engine. -/
def State.startCmd (s : State) (q : QRef) (c : Cmd) (cost eng : Nat) : State :=
  let x := s.coreSite q.core
  let p := (s.corePart q.core).getD 0
  let s := s.sat (ldgAcct x p) 32 32 cost
  let op := hOpc c.raw
  let r := s.newRun q (hClass c.raw) (if isQueueOp op then 7 else eng)
  let s := if isQueueOp op then r.1 else
    let s := r.1.setBusy { q with eng := eng } op
    if eng = q.eng then s else (s.setFld (engB q.core eng) 4 1 1).setFld (engB q.core q.eng) 5 1 1
  (s.modCmd q c fun c => { c with phase := .started, held := some cost, run := r.2 }).refreshQ q

/-- A head that is ready and stands among the heads of engine `e`: one of the engine's own queues, or one handed to it
by its partner (R81). -/
def State.standsFor (s : State) (q : QRef) (handed : Bool) : Bool :=
  s.headReady q && (match s.head q with
    | some h => !isQueueOp (hOpc h.raw) && h.handed == handed
    | none => false)

/-- Another head goes before this one on engine `e` (R169): a head of the engine's own queues at a higher priority, or
one handed to it (R81), which takes the place of the engine's queues at its own queue's priority. -/
def State.outranked (s : State) (q : QRef) (handed : Bool) (e : Nat) : Bool :=
  ((List.range q.q).any fun k => s.standsFor { q with eng := e, q := k } false)
    || (decide (e < 4) && (List.range (if handed then q.q else q.q + 1)).any fun k => s.standsFor { q with eng := partnerOf e, q := k } true)

/-- COMMAND_READY (R169-R171, R216). -/
def effCommandReady (q : QRef) (s0 : State) : State :=
  let s := s0.headUpdate q
  match s.head q with
  | none => s0
  | some c =>
    if c.phase != .queued || !s.mayStart q then s0
    else if (c.abortSeen || c.poisoned || hdrBad q.eng c.pour c.raw) && !s.mayRecord q then s.setQState q 4
    else if c.abortSeen then s.fail q c { code := stAborted }
    else if c.poisoned then s.fail q c { code := stDataPoison }
    else if hdrBad q.eng c.pour c.raw then s.fail q c { code := stIllegal }
    else
      let g := s.gates q c
      match g.2 with
      | .fail f => if s.mayRecord q then g.1.fail q c f else s.setQState q 4
      | .wait => g.1.refreshQ q
      | .pass =>
        let s := g.1
        if s.crFree q = 0 then s.setQState q 4
        else
          match s.ledgerAdmit q (hEnergy c.raw) with
          | none => (s.noteDeferral q c).refreshQ q
          | some cost =>
            if !s.calAdmits q then s.refreshQ q
            else if isQueueOp (hOpc c.raw) then s.startCmd q c cost q.eng
            else
              let e := if c.handed then partnerOf q.eng else q.eng
              let x := s.eng q.core e
              if x.run ≠ 0 then
                match s.preemptible q x.run with
                | some (q', c') =>
                  let s := (s.killRun x.run).requeue q' c'
                  (s.sat (calB q.core + 0x18) 0 16 1).refreshQ q'
                | none => s.refreshQ q
              else if x.stopping then s.refreshQ q
              else if s.outranked q c.handed e then s.refreshQ q
              else s.startCmd q c cost e

def execCommandReady (q : QRef) (s : State) : Host.Outcome State Fault Refusal :=
  carryOut (q.ok) (effCommandReady q s)

/-- WAIT_TIMEOUT (R170): the wait before start of a head with WAIT_EN or ARMED expires. -/
def effWaitTimeout (q : QRef) (s : State) : State :=
  match s.head q with
  | some c =>
    if c.phase == .queued && c.atHead && !c.gates && (hWaitEn c.raw || hArmed c.raw) && s.mayStart q && s.mayRecord q then
      s.fail q c { code := stWaitTimeout }
    else s
  | none => s

def execWaitTimeout (q : QRef) (s : State) : Host.Outcome State Fault Refusal :=
  carryOut (q.ok) (effWaitTimeout q s)

/-! ### The launch descriptor (R88, R89) -/

def tProg (d : Desc) : Nat := dF d 0x20 0 55
def tArg (d : Desc) : Nat := dF d 0x28 0 55
def tGridX (d : Desc) : Nat := dF d 0x30 0 32
def tGridY (d : Desc) : Nat := dF d 0x34 0 16
def tGridZ (d : Desc) : Nat := dF d 0x36 0 16
def tGroups (d : Desc) : Nat := dF d 0x38 0 8
def tVregs (d : Desc) : Nat := dF d 0x39 0 8
def tLsBlock (d : Desc) : Nat := dF d 0x3A 0 16
def tArenaBase (d : Desc) : Nat := dF d 0x3C 0 32
def tArenaSize (d : Desc) : Nat := dF d 0x40 0 32
def tArgWords (d : Desc) : Nat := dF d 0x44 0 6
def tPool (d : Desc) : Nat := dF d 0x45 0 4
def tMaxBlocks (d : Desc) : Nat := dF d 0x46 0 16

/-- The checks of R89. An arena of no bytes lies nowhere beyond the end of the local store (DESIGN CHOICE, log entry 111). -/
def State.launchCheck (s : State) (core : Nat) (d : Desc) : Option Fail :=
  if tGroups d = 0 ∨ 16 < tGroups d ∨ tVregs d = 0 ∨ 32 < tArgWords d ∨ tArenaBase d % 4096 ≠ 0 ∨ tArenaSize d % 4096 ≠ 0
      ∨ tProg d % 8 ≠ 0 ∨ (tArgWords d ≠ 0 ∧ tArg d % 128 ≠ 0) ∨ 4608 < tLsBlock d
      ∨ (tLsBlock d ≠ 0 ∧ tArenaSize d < tLsBlock d * 4096) ∨ 9 < tPool d ∨ (tPool d ≠ 0 ∧ !s.maint core) then
    some { code := stIllegal }
  else if tArenaSize d ≠ 0 ∧ s.lsSize core < tArenaBase d + tArenaSize d then
    some { code := stProtection, detail := some (tArenaBase d, true) }
  else none

/-! ### Indirect reads and the opcode's checks (R180, R181) -/

/-- The fields of IND_MASK replaced by their slots' values. -/
def State.indirect (s : State) (q : QRef) (raw : Desc) : List ((Nat × Nat) × Nat) → Desc → State × Except Fail Desc
  | [], d => (s, .ok d)
  | ((lo, w), j) :: r, d =>
    if !nbit (hInd raw) j then s.indirect q raw r d
    else
      let f := fldOf raw lo w
      let ix := if w = 8 then f else f % 65536
      if f ≠ ix then (s, .error { code := stIllegal })
      else
        let x := s.slotRead q (s.substSlot q (hRsInd raw) ix)
        match x.2 with
        | .error e => (x.1, .error e)
        | .ok (v, _) => if v < 2 ^ w then x.1.indirect q raw r (putFld d lo w v) else (x.1, .error { code := stIllegal })

/-- The targets of a SPAWN (R188, R189). -/
def State.spawnTargets (s : State) (q : QRef) (d : Desc) : List QRef :=
  let t := dF d 0x2A 0 8
  if dF d 0x2B 5 1 = 1 then s.bcastMembers ((s.corePart q.core).getD 0) (t % 16)
  else [{ core := t, eng := dF d 0x2B 0 3, q := dF d 0x2B 3 2 }]
def spCount (d : Desc) : Nat := dF d 0x28 0 16
def spSrc (d : Desc) : Nat := alignDown (dF d 0x20 0 55) 128

/-- The refusals of SPAWN (R189). -/
def State.spawnCheck (s : State) (q : QRef) (d : Desc) : Option Fail :=
  let ts := s.spawnTargets q d
  if dF d 0x2B 0 3 = 7 ∨ (dF d 0x2B 5 1 = 1 ∧ dF d 0x2A 4 4 ≠ 0) then some { code := stIllegal }
  else if ts.any fun t => s.corePart t.core ≠ s.corePart q.core || s.qCid t ≠ s.qCid q then some { code := stProtection }
  else if (ts.any fun t => s.qSop t) && decide (8 < spCount d) then some { code := stIllegal }
  else none

/-- The checks of the opcode, after the indirect reads. -/
def State.opCheck (s : State) (q : QRef) (w : Who) (d : Desc) : State × Option Fail :=
  let op := hOpc d
  if op = opSpawn then (s, s.spawnCheck q d)
  else if op = opPatch then (s, if dF d 0x32 0 16 = 0 ∨ 4096 < dF d 0x32 0 16 then some { code := stIllegal } else none)
  else if op = opMatmul then s.matCheck w d
  else if op = opLaunch then (s, s.launchCheck q.core d)
  else if isXfer op then (s, if xferIllegal d then some { code := stIllegal } else none)
  else if isColl op then s.collCheck w d
  else (s, none)

/-- FOOTPRINT is reserved, or the command waits for space, or it can never have it (R206). -/
def State.reserveFor (s : State) (q : QRef) (c : Cmd) (id : Nat) : State :=
  let x := s.coreSite q.core
  let p := (s.corePart q.core).getD 0
  let n := hFoot c.raw
  if s.fld (arcTent x p) 0 16 < n ∨ 1536 < n then s.fail q c { code := stOversize }
  else if s.roomFor x p n then
    ((s.reserve x p n).modRun id fun r => { r with res := n }).modCmd q c fun c => { c with phase := .checked }
  else s.modCmd q c fun c => { c with phase := .waiting }

/-- INDIRECT_READ_RETURN (R181, R182, R206). -/
def effIndirectReadReturn (q : QRef) (s : State) : State :=
  match s.head q with
  | none => s
  | some c =>
    if c.phase != .started then s
    else
      let x := s.indirect q c.raw (indFields (hOpc c.raw)).zipIdx c.raw
      match x.2 with
      | .error f => x.1.fail q c f
      | .ok d =>
        let e := if hRecEn c.raw then
            let y := x.1.slotPa q (x.1.substSlot q (hRsEvt c.raw) (hRecSlot c.raw)) .atomic
            match y.2 with
            | .ok pa => if y.1.mirrorB pa then (y.1, Except.error (failOf stProtection (y.1.slotVa q (y.1.substSlot q (hRsEvt c.raw) (hRecSlot c.raw))) false)) else (y.1, .ok pa)
            | .error f => (y.1, .error f)
          else (x.1, .ok 0)
        match e.2 with
        | .error f => e.1.fail q c f
        | .ok pa =>
          let s := e.1.modCmd q c fun c => { c with eff := d, recPa := pa }
          let k := s.opCheck q (s.runWho q c.run) d
          match k.2 with
          | some f => k.1.fail q c f
          | none =>
            let s := k.1
            if hClass c.raw = 1 then s.modCmd q c fun c => { c with phase := .checked }
            else s.reserveFor q c c.run

def execIndirectReadReturn (q : QRef) (s : State) : Host.Outcome State Fault Refusal :=
  carryOut (q.ok) (effIndirectReadReturn q s)

/-- RESERVATION_GRANTED (R206). -/
def effReservationGranted (q : QRef) (s : State) : State :=
  match s.head q with
  | some c =>
    if c.phase == .waiting && s.roomFor (s.coreSite q.core) ((s.corePart q.core).getD 0) (hFoot c.raw) then s.reserveFor q c c.run else s
  | none => s

def execReservationGranted (q : QRef) (s : State) : Host.Outcome State Fault Refusal :=
  carryOut (q.ok) (effReservationGranted q s)

/-- The head command, started and checked, when it has the opcode. -/
def State.ready (s : State) (q : QRef) (op : Nat) : Option Cmd :=
  match s.head q with
  | some c => if c.phase == .checked && hOpc c.raw = op then some c else none
  | none => none

/-- NOP (R177, R209): its start is its commit point, and its commit completes at once. -/
def effNop (q : QRef) (s : State) : State :=
  match s.ready q opNop with
  | none => s
  | some c =>
    let x := s.coreSite q.core
    ((s.sendEvents q c).completeAt q c { code := okStatus c } x (s.siteCycle x)).advance q

def execNop (q : QRef) (s : State) : Host.Outcome State Fault Refusal := carryOut (q.ok) (effNop q s)

/-! ### Beginning and ending an engine's work -/

/-- An engine command begins its work: a pinned one is at its commit point (R209). -/
def State.beginWork (s : State) (q : QRef) (c : Cmd) : State :=
  let x := s.coreSite q.core
  let t := s.siteCycle x
  let s := s.modRun c.run fun r => { r with phase := .running, time := t, timeSite := x }
  let s := s.modCmd q c fun c => { c with phase := if hClass c.raw = 1 then .committed else .running }
  if hClass c.raw = 1 then s.refreshQ q else s

/-- What an access of an engine command comes to: it goes on, it fails, or it waits and is tried again. -/
def State.afterWork (s0 : State) (q : QRef) (c : Cmd) (r : State × MRes Unit) (ok : State → State) : State :=
  match r.2 with
  | .ok _ => ok r.1
  | .err code a l => r.1.fail q c (failOf code a l)
  | .wait => s0

/-- The commands of a queue that run, past their checks, with the opcode. -/
def State.active (s : State) (q : QRef) (p : Cmd → Bool) : Option Cmd :=
  (s.q q).cmds.find? fun c => c.phase != .queued && p c

end Sys2Proof.Machine
end

