-- ==== Sys2Proof/Machine/QueCmds.lean ====
section
/-!
DEFINITION. The commands of the queues (06_submission R167-R199, R220, R472): doorbells, configuration,
resume, abort, fetch, events, arms, SPAWN, patterns and PATCH, and notifications.
-/

namespace Sys2Proof.Machine

/-! ### Doorbells (R172, R175, R194, R387) -/

/-- The partition of a queue takes doorbells. -/
def State.partActive (s : State) (q : QRef) : Bool :=
  match s.corePart q.core with
  | some p => s.partState p = 1
  | none => false

/-- A doorbell accepted by a SUSPENDED queue is held (R29). -/
def State.holdDb (s : State) (q : QRef) : State :=
  if s.qState q = 7 then s.modQ q fun x => { x with heldDb := x.heldDb + 1 } else s

/-- A TAIL write that reaches a queue (R172). One that reaches a LOST queue is ignored and counted (R30). In single-op
mode TAIL rings no doorbell: the value is stored without being judged (DESIGN CHOICE, log entry 93). -/
def State.tailWrite (s : State) (q : QRef) (v : W64) : State :=
  let new := fldOf v 0 32
  let tail := s.fld (queTail q) 0 32
  let head := s.fld (queHead q) 0 32
  if s.qState q = 9 then s.lostDoorbells q.core 1
  else if s.qSop q then s.setFld (queTail q) 0 32 new
  else if !s.qEnabled q || !s.partActive q || decide (2 ^ s.fld (queCfg q) 8 5 < wsub new head)
      || decide (2 ^ 31 ≤ wsub new tail) then s.dbErr (.que q)
  else ((s.setFld (queTail q) 0 32 new).holdDb q).refreshQ q

/-- Room that SPAWNs hold in a target. -/
def State.roomIn (s : State) (t : QRef) : Nat :=
  (s.queues.flatMap fun e => e.2.room).foldl (fun a r => if r.1 = t then a + r.2 else a) 0

/-- A doorbell of a single-op queue with a descriptor (R175). A place that a SPAWN holds is not free (R189). -/
def State.sopPush (s : State) (q : QRef) (d : Desc) : State :=
  let head := s.fld (queHead q) 0 32
  let used := wsub head (s.fld (queDone q) 0 32)
  if s.qState q = 9 then s.lostDoorbells q.core 1
  else if !s.qEnabled q || !s.partActive q || decide (8 ≤ used + s.roomIn q) then s.dbErr (.que q)
  else
    let s := s.modQ q fun x => { x with cmds := x.cmds ++ [{ raw := d, submit := head }] }
    ((s.bump (queHead q) 0 32 1).holdDb q).refreshQ q

/-- A qword of a single-op window. -/
def setQword (d : Desc) (j : Nat) (v : W64) : Desc := putFld d (64 * j) 64 v.toNat

def execQueTailDoorbell (q : QRef) (v : W64) (s : State) : Host.Outcome State Fault Refusal :=
  carryOut (q.ok) (s.tailWrite q v)

/-- QUE_SOP15_DOORBELL: the last qword joins the window, which is copied into the FIFO. A buffer-mode
queue has no FIFO: the window alone is written. -/
def effQueSop15Doorbell (q : QRef) (v : W64) (s : State) : State :=
  let s := s.modQ q fun x => { x with sop := setQword x.sop 15 v }
  if s.qSop q then s.sopPush q (s.q q).sop else s

def execQueSop15Doorbell (q : QRef) (v : W64) (s : State) : Host.Outcome State Fault Refusal :=
  carryOut (q.ok) (effQueSop15Doorbell q v s)

/-- BCAST_TAIL (R194): written to the QUE_TAIL of every buffer-mode member. -/
def effBcastTail (p grp : Nat) (v : W64) (s : State) : State :=
  let s := s.setFld (bcastB p grp) 0 32 (fldOf v 0 32)
  ((s.bcastMembers p grp).filter fun q => !s.qSop q).foldl (fun s q => s.tailWrite q v) s

def execBcastTail (p grp : Nat) (v : W64) (s : State) : Host.Outcome State Fault Refusal :=
  carryOut (decide (p < Config.partitions) && decide (grp < 16)) (effBcastTail p grp v s)

/-- The single-op window of a broadcast group. -/
def State.groupSop (s : State) (p grp : Nat) : Desc := tget 0#1024 (s.part p).sops grp
def State.setGroupSop (s : State) (p grp : Nat) (d : Desc) : State :=
  s.setPart p { s.part p with sops := tset 0#1024 (s.part p).sops grp d }

/-- BCAST_SOP15 (R194): the group window is copied into the FIFO of every single-op member. -/
def effBcastSop15 (p grp : Nat) (v : W64) (s : State) : State :=
  let d := setQword (s.groupSop p grp) 15 v
  let s := s.setGroupSop p grp d
  ((s.bcastMembers p grp).filter fun q => s.qSop q).foldl (fun s q => s.sopPush q d) s

def execBcastSop15 (p grp : Nat) (v : W64) (s : State) : Host.Outcome State Fault Refusal :=
  carryOut (decide (p < Config.partitions) && decide (grp < 16)) (effBcastSop15 p grp v s)

/-! ### Configuration (R472, R195) -/

/-- A ring size outside its range is stored as the nearer limit. -/
def clampLog (hi v : Nat) : Nat := max 4 (min hi v)

/-- QUE_CFG_WRITE: held fields are taken only while ENABLE was 0; a KILLED queue is left by ENABLE = 0
(R393). -/
def effQueCfgWrite (q : QRef) (v : W64) (s : State) : State :=
  let k := queCfg q
  let was := s.qEnabled q
  let s := if was then s else
    ((s.setFld k 8 5 (clampLog 16 (fldOf v 8 5))).setFld k 16 5 (clampLog 16 (fldOf v 16 5))).setFld k 32 16 (fldOf v 32 16)
  let s := s.setFld k 1 3 (fldOf v 1 3)
  let s := if !s.qEnabled q && s.qState q = 8 then s.setQState q 0 else s
  s.refreshQ q

def execQueCfgWrite (q : QRef) (v : W64) (s : State) : Host.Outcome State Fault Refusal :=
  carryOut (q.ok) (effQueCfgWrite q v s)

/-- QUE_BCAST_WRITE (R195): ignored while ENABLE = 1, and where it would add a 257th member. -/
def effQueBcastWrite (q : QRef) (v : W64) (s : State) : State :=
  if s.qEnabled q then s
  else
    let p := (s.corePart q.core).getD 0
    let others := (s.bcastMembers p (fldOf v 1 4)).filter fun x => x ≠ q
    if fldOf v 0 1 = 1 ∧ 256 ≤ others.length then s.dbErr (.que q)
    else ((s.setFld (queBcast q) 0 5 (fldOf v 0 5)).setFld (queBcast q) 8 8 (fldOf v 8 8)).setFld (queBcast q) 16 16 (fldOf v 16 16)

def execQueBcastWrite (q : QRef) (v : W64) (s : State) : Host.Outcome State Fault Refusal :=
  carryOut (q.ok) (effQueBcastWrite q v s)

/-- QUE_CR_HEAD or SVC_CR_HEAD is raised (R197): a FULL queue may start its head again. -/
def effQueCrHeadWrite (t : CrTarget) (v : W64) (s : State) : State :=
  let s := s.setFld (ctCrHead t) 0 32 (fldOf v 0 32)
  match t with
  | .que q => s.refreshQ q
  | .svc p k => if s.fld (svcB p k + 0x48) 0 4 = 4 then s.setFld (svcB p k + 0x48) 0 4 2 else s

def execQueCrHeadWrite (t : CrTarget) (v : W64) (s : State) : Host.Outcome State Fault Refusal :=
  carryOut (t.ok) (effQueCrHeadWrite t v s)

/-! ### Resume (R198) -/

/-- A BLOCKED ring first writes a record with status COMPLETION_BLOCKED that names the failed address,
then the held records; where a held record's status halts the queue, it is HALTED afterwards. -/
def State.retryRecords (s : State) (t : CrTarget) : State :=
  let r := s.recX t
  match r.held with
  | [] => s.setFld (ctStatus t) 0 4 1
  | (b, _) :: _ =>
    let first := putFld (putFld b 0 8 stCompletionBlocked) 192 64 (r.failAddr % 2 ^ 55 + 2 ^ 63)
    let s := (s.setRecX t { r with held := [] }).setFld (ctStatus t) 0 4 1
    let s := s.emitRecord t first true
    if s.fld (ctStatus t) 0 4 = 6 then (s.setRecX t { s.recX t with held := r.held }).showHeld t
    else
      let s := r.held.foldl (fun s e => s.emitRecord t e.1 e.2) s
      match r.held.find? fun e => haltsQueue (fldOf e.1 0 8) with
      | some e => if s.fld (ctStatus t) 0 4 = 6 then s else (s.setFld (ctStatus t) 0 4 5).setFld (ctStatus t) 8 8 (fldOf e.1 0 8)
      | none => s

/-- QUE_RESUME: a HALTED queue continues, a BLOCKED one retries, any other is unchanged. -/
def State.resumeQ (s : State) (q : QRef) : State :=
  if s.qState q = 5 then ((s.setQState q 1).setFld (queStatus q) 8 8 0).advance q
  else if s.qState q = 6 then (s.retryRecords (.que q)).refreshQ q
  else s

def execQueResume (q : QRef) (s : State) : Host.Outcome State Fault Refusal := carryOut (q.ok) (s.resumeQ q)

/-- The rest of the entry that halted a queue is not run, and DONE counts it. -/
def State.skipEntry (s : State) (q : QRef) : State :=
  let x := s.q q
  let n := x.haltSubmit
  let rest := (x.cmds.any fun c => c.submit = n) || x.ents.any fun e => e.submit = n
  let s := if x.cmds.any fun c => c.pour && c.submit = n then s.lowerLive q else s
  let s := s.modQ q fun x => { x with cmds := x.cmds.filter fun c => !(c.submit = n && c.phase != .committed)
                                      ents := x.ents.filter fun e => e.submit ≠ n }
  if rest && !((s.q q).cmds.any fun c => c.submit = n) then s.bump (queDone q) 0 32 1 else s

/-- QUE_RESUME_SKIP: in buffer mode a HALTED queue goes on at the next submission entry. -/
def effQueResumeSkip (q : QRef) (s : State) : State :=
  if s.qState q = 5 ∧ !s.qSop q then (s.skipEntry q).resumeQ q else s.resumeQ q

def execQueResumeSkip (q : QRef) (s : State) : Host.Outcome State Fault Refusal :=
  carryOut (q.ok) (effQueResumeSkip q s)

/-! ### Abort (QUE_ABORT, R220, R225) -/

/-- The entry count lies between two counts, modulo 2^32. -/
def between (lo hi n : Nat) : Bool := decide (wsub n lo < wsub hi lo)

/-- QUE_ABORT: an abort of a fetched command leaves for the engine; of one that is accepted but not
fetched it is held, up to 16. -/
def effQueAbort (q : QRef) (submit index : Nat) (s : State) : State :=
  let x := s.q q
  if x.cmds.any fun c => !c.pour && c.submit = submit && c.index = index then
    s.modQ q fun x => { x with aborts := x.aborts ++ [(submit, index)] }
  else
    let unfetched := !s.qSop q && (between (s.fld (queHead q) 0 32) (s.fld (queTail q) 0 32) submit
      || x.ents.any fun e => e.submit = submit && decide (e.next ≤ index) && decide (index < e.count))
    if !unfetched then s
    else if 16 ≤ x.pend.length then s.dbErr (.que q)
    else s.modQ q fun x => { x with pend := x.pend ++ [(submit, index)] }

def execQueAbort (q : QRef) (submit index : Nat) (s : State) : Host.Outcome State Fault Refusal :=
  carryOut (q.ok && decide (submit < 2 ^ 32) && decide (index < 2 ^ 16)) (effQueAbort q submit index s)

/-- QUE_ABORT with ALL: every descriptor accepted now, fetched or not. -/
def State.abortAll (s : State) (q : QRef) : State :=
  s.modQ q fun x =>
    { x with aborts := x.aborts ++ ((x.cmds.filter fun c => !c.pour).map fun c => (c.submit, c.index))
             allBelow := if s.qSop q then x.allBelow else some (s.fld (queTail q) 0 32) }

def execQueAbortAll (q : QRef) (s : State) : Host.Outcome State Fault Refusal := carryOut (q.ok) (s.abortAll q)

/-- Room that a SPAWN holds is released. -/
def State.dropRoom (s : State) (q : QRef) : State := s.modQ q fun x => { x with room := [] }

/-- A pour ends before its last descriptor: the uncommitted commands of the pour are gone, and LIVE is
lowered (R192, R220). -/
def State.endPour (s : State) (q : QRef) : State :=
  let s := (s.q q).cmds.foldl (fun s c =>
    if c.pour && c.phase != .committed then
      let s := s.ledgerEnd q c
      let s := (if c.run = 0 then s else s.dropRun c.run).dropCmd q c
      if hOpc c.raw = opSpawn then s.dropRoom q else s
    else s) s
  s.lowerLive q

/-- The outcome of an abort when it reaches the engine, of a command that is no pour in progress (R220). -/
def State.judgeOne (s : State) (q : QRef) (c : Cmd) : State :=
  let aborted : Fail := { code := stAborted }
  if c.phase == .queued then
    (if s.mayRecord q then s.fail q c aborted else s.modCmd q c fun c => { c with abortSeen := true })
  else if c.phase == .committed || hClass c.raw = 1 then s.modCmd q c fun c => { c with abortSeen := true }
  else if hClass c.raw = 2 then
    match s.run? c.run with
    | some r =>
      if r.arrived then s.coordAbort r.coord r.inst (lMembers c.raw)
      else
        -- a member on its way to the coordinator: the instance is aborted with it (R225)
        let x := s.xlat (s.who q) .write (lCoord c.raw)
        match x.2 with
        | .error e => x.1.fail q c (failOf e.code (lCoord c.raw) false)
        | .ok a => (x.1.coordAbort a.pa (lInst c.raw) (lMembers c.raw)).fail q c aborted
    | none => s.fail q c aborted
  else s.fail q c aborted

/-- The outcome of an abort when it reaches the engine (R220). For a CALL_PATTERN during its pour, the descriptors of
the pour that have started are judged, and the rest of the pour is not run. -/
def State.judgeAbort (s : State) (q : QRef) (c : Cmd) : State :=
  if hOpc c.raw = opCall && c.phase != .queued then
    let s := ((s.q q).cmds.filter fun e => e.pour && e.phase != .queued).foldl (fun s e => s.judgeOne q e) s
    (s.endPour q).fail q c { code := stAborted }
  else s.judgeOne q c

/-- ABORT_REACHES_ENGINE: the oldest abort on its way is judged. -/
def effAbortReachesEngine (q : QRef) (s : State) : State :=
  match (s.q q).aborts with
  | [] => s
  | (n, i) :: r =>
    let s := s.modQ q fun x => { x with aborts := r }
    match (s.q q).cmds.find? fun c => !c.pour && c.submit = n && c.index = i with
    | some c => s.judgeAbort q c
    | none => s

def execAbortReachesEngine (q : QRef) (s : State) : Host.Outcome State Fault Refusal :=
  carryOut (q.ok) (effAbortReachesEngine q s)

/-! ### Fetch (R172-R174, R308) -/

/-- The queue fetches: enabled and in a state that runs. -/
def State.fetches (s : State) (q : QRef) : Bool :=
  s.qEnabled q && !s.qSop q && !stuckState (s.qState q) && s.mapBuilt

/-- A fetch fault completes the command at the head with its code; with no command in the queue it stands
for the one that was to be fetched (R308). The ILLEGAL_INSTRUCTION of a bad submission entry names the head command
likewise (DESIGN CHOICE, log entry 96). -/
def State.fetchFault (s : State) (q : QRef) (submit index : Nat) (f : Fail) : State :=
  match s.head q with
  | some c => s.fail q c f
  | none =>
    let c : Cmd := { raw := 0, submit := submit, index := index }
    (s.modQ q fun x => { x with cmds := x.cmds ++ [c] }).fail q c f

/-- SUBMISSION_ENTRY_RETURN (R173): entry HEAD is read and HEAD rises. -/
def effSubmissionEntryReturn (q : QRef) (s : State) : State :=
  let head := s.fld (queHead q) 0 32
  if !s.fetches q || head = s.fld (queTail q) 0 32 then s
  else
    let va := s.fld (queRingBase q) 0 55 + 16 * (head % 2 ^ s.fld (queCfg q) 8 5)
    let r := s.readVa (s.who q) .read va 16 0
    match r.2 with
    | .wait => r.1
    | .err c a l =>
      if c = stDataPoison ∨ c = stSiteLost then
        let s := r.1.modQ q fun x => { x with cmds := x.cmds ++ [{ raw := 0, submit := head, poisoned := true }] }
        (s.bump (queHead q) 0 32 1).refreshQ q
      else r.1.fetchFault q head 0 (failOf c a l)
    | .ok bs =>
      let e := ofBytes bs
      let s := r.1.bump (queHead q) 0 32 1
      if nbits e 55 9 ≠ 0 ∨ nbits e 80 48 ≠ 0 then s.fetchFault q head 0 { code := stIllegal }
      else
        let count := nbits e 64 16
        let s := s.modQ q fun x => { x with pend := x.pend.filter fun a => !(a.1 = head && decide (count ≤ a.2)) }
        if count = 0 then (s.bump (queDone q) 0 32 1).refreshQ q
        else (s.modQ q fun x => { x with ents := x.ents ++ [{ submit := head, buf := alignDown (nbits e 0 55) 128, count := count, next := 0 }] }).refreshQ q

def execSubmissionEntryReturn (q : QRef) (s : State) : Host.Outcome State Fault Refusal :=
  carryOut (q.ok) (effSubmissionEntryReturn q s)

/-- The descriptors of some bytes. -/
def descsOf (n : Nat) (bs : Bytes) : List Desc :=
  (List.range n).map fun i => BitVec.ofNat 1024 (ofBytes ((bs.drop (128 * i)).take 128))

/-- Whether a descriptor's 128 bytes are poisoned, as the read of them says. -/
def State.descRead (s : State) (q : QRef) (va : Nat) : State × MRes Desc :=
  let r := s.readVa (s.who q) .read va 128 0
  (r.1, match r.2 with
    | .ok bs => .ok (BitVec.ofNat 1024 (ofBytes bs))
    | .err c a l => .err c a l
    | .wait => .wait)

/-- Reads descriptors one after another: each with its poison, or the fault that ends the block. -/
def State.readDescs (s : State) (q : QRef) : Nat → Nat → List (Desc × Bool) → State × MRes (List (Desc × Bool))
  | 0, _, acc => (s, .ok acc)
  | n + 1, va, acc =>
    let r := s.descRead q va
    match r.2 with
    | .ok d => r.1.readDescs q n (va + 128) (acc ++ [(d, false)])
    | .err c a l =>
      if c = stDataPoison ∨ c = stSiteLost then r.1.readDescs q n (va + 128) (acc ++ [(0, true)]) else (r.1, .err c a l)
    | .wait => (r.1, .wait)

/-- The descriptor block of a command: its entry and the number of its block. -/
def Cmd.block (c : Cmd) : Nat × Nat := (c.submit, c.index / 16)

/-- The blocks of a buffer, or of a pour, that are kept ahead of the head command (R173). -/
def State.blocksAhead (s : State) (q : QRef) (pour : Bool) : List (Nat × Nat) :=
  let own := match s.head q with
    | some h => if h.pour == pour then some h.block else none
    | none => none
  (((s.q q).cmds.filter fun c => c.pour == pour && c.phase == .queued && some c.block ≠ own).map Cmd.block).eraseDups

/-- Two blocks are kept ahead of the head command. -/
def State.aheadFull (s : State) (q : QRef) (pour : Bool) : Bool := decide (2 ≤ (s.blocksAhead q pour).length)

/-- A fetched descriptor, with the abort that waits for it (QUE_ABORT). -/
def mkCmd (x : QueX) (submit index : Nat) (pour : Bool) (d : Desc × Bool) : Cmd :=
  { raw := d.1, submit := submit, index := index, pour := pour, poisoned := d.2
    abortSeen := !pour && (x.pend.contains (submit, index) || (match x.allBelow with
      | some n => decide (0 < wsub n submit) && decide (wsub n submit < 2 ^ 31)
      | none => false)) }

/-- DESCRIPTOR_BLOCK_RETURN (R173): a block of up to 16 descriptors of the oldest entry being read. -/
def effDescriptorBlockReturn (q : QRef) (s : State) : State :=
  if !s.fetches q || s.aheadFull q false then s
  else
    match (s.q q).ents with
    | [] => s
    | e :: rest =>
      let n := min 16 (e.count - e.next)
      let r := s.readDescs q n (e.buf + 128 * e.next) []
      match r.2 with
      | .wait => r.1
      | .err c a l => r.1.fetchFault q e.submit e.next (failOf c a l)
      | .ok ds =>
        let s := r.1.modQ q fun x =>
          { x with
            cmds := x.cmds ++ ds.mapIdx fun i d => mkCmd x e.submit (e.next + i) false d
            pend := x.pend.filter fun a => !(a.1 = e.submit && decide (e.next ≤ a.2) && decide (a.2 < e.next + n))
            ents := if e.next + n < e.count then { e with next := e.next + n } :: rest else rest }
        s.refreshQ q

def execDescriptorBlockReturn (q : QRef) (s : State) : Host.Outcome State Fault Refusal :=
  carryOut (q.ok) (effDescriptorBlockReturn q s)

/-! ### Events and arms (R182, R183, R186) -/

/-- EVENT_RECORD: the record is an INT64 ADD or SET that its slot's home applies once it is the line's only
holder; wakes leave then. A poisoned word, and one of a lost site, takes no operation (R238, R443). -/
def effEventRecord (e : EvtOp) (s : State) : State :=
  let s := { s with net := { s.net with evts := s.net.evts.erase e } }
  let h := homeOf e.addr
  s.homeMsg .atom { line := e.addr / 512, req := h, src := h, dst := h, alt := true
                    op := { sub := if e.isSet then 8 else 0, size := 8, addr := e.addr, val := e.val, cmp := 0#64 } }

def execEventRecord (e : EvtOp) (s : State) : Host.Outcome State Fault Refusal := carryOut (e.ok) (effEventRecord e s)

/-- EVENT_WAKE: a wake reaches its queue, and its head's wait is judged again. -/
def effEventWake (q : QRef) (s : State) : State :=
  if !s.net.wakes.contains q then s
  else
    let s := { s with net := { s.net with wakes := s.net.wakes.erase q, watches := s.net.watches.filter fun w => w.2 ≠ q } }
    match s.head q with
    | some c =>
      if c.phase == .queued && s.mayStart q then
        let g := s.gates q c
        match g.2 with
        | .fail f => g.1.fail q c f
        | _ => g.1.refreshQ q
      else s
    | none => s

def execEventWake (q : QRef) (s : State) : Host.Outcome State Fault Refusal := carryOut (q.ok) (effEventWake q s)

/-- ARM_DELIVERY: the arm sets its bit, or it is lost and counted. -/
def effArmDelivery (q : QRef) (id : Nat) (s : State) : State :=
  if !s.net.arms.contains (q, id) then s
  else
    let s := { s with net := { s.net with arms := s.net.arms.erase (q, id) } }
    if s.bit (State.armKey q id) (id % 64) || s.qState q = 9 || !s.qEnabled q then s.drop (.que q)
    else s.setBit (State.armKey q id) (id % 64) true

def execArmDelivery (q : QRef) (id : Nat) (s : State) : Host.Outcome State Fault Refusal :=
  carryOut (q.ok && decide (id < 256)) (effArmDelivery q id s)

/-! ### SPAWN (R188, R189) -/

/-- A target has room beside what is held: one ring entry, or COUNT places of its FIFO. -/
def State.hasRoom (s : State) (t : QRef) (count : Nat) : Bool :=
  let head := s.fld (queHead t) 0 32
  if s.qSop t then decide (wsub head (s.fld (queDone t) 0 32) + s.roomIn t + count ≤ 8)
  else decide (wsub (s.fld (queTail t) 0 32) head + s.roomIn t + 1 ≤ 2 ^ s.fld (queCfg t) 8 5)

/-- Takes the room that is free in the targets that hold none yet. -/
def State.takeRoom (s : State) (q : QRef) (d : Desc) : State :=
  if spCount d = 0 then s
  else (s.spawnTargets q d).foldl (fun s t =>
    if (s.q q).room.any fun r => r.1 = t then s
    else if s.hasRoom t (spCount d) then
      s.modQ q fun x => { x with room := x.room ++ [(t, if s.qSop t then spCount d else 1)] }
    else s) s

def State.roomAll (s : State) (q : QRef) (d : Desc) : Bool :=
  decide (spCount d = 0) || (s.spawnTargets q d).all fun t => (s.q q).room.any fun r => r.1 = t

/-- SPAWN starts and takes the room that is free. -/
def effSpawn (q : QRef) (s : State) : State :=
  match s.ready q opSpawn with
  | none => s
  | some c => (s.modCmd q c fun c => { c with phase := .running }).takeRoom q c.eff

def execSpawn (q : QRef) (s : State) : Host.Outcome State Fault Refusal := carryOut (q.ok) (effSpawn q s)

/-- The ring entry that a SPAWN writes in a buffer-mode target. -/
def State.spawnVa (s : State) (t : QRef) : Nat :=
  s.fld (queRingBase t) 0 55 + 16 * (s.fld (queTail t) 0 32 % 2 ^ s.fld (queCfg t) 8 5)

/-- The first target whose ring entry cannot be written (R189). -/
def State.spawnEntryFault (s : State) (q : QRef) (ts : List QRef) : State × Option Fail :=
  ts.foldl (fun (acc : State × Option Fail) t =>
    if acc.2.isSome || acc.1.qSop t then acc
    else
      let r := acc.1.checkVa (acc.1.who q) .write false (acc.1.spawnVa t) 16
      (r.1, r.2.map fun e => failOf e.1.code e.2 false)) (s, none)

/-- What a SPAWN posts at its commit: an entry and a TAIL advance, or COUNT doorbells. In a partition
that takes no doorbells it posts nothing, and each target counts it (R387). -/
def State.spawnPost (s : State) (q : QRef) (d : Desc) (ds : List (Desc × Bool)) (t : QRef) : State :=
  if !s.partActive t then s.drop (.que t)
  else if s.qSop t then ds.foldl (fun s e => s.sopPush t e.1) s
  else
    let e := spSrc d + spCount d * 2 ^ 64
    let r := s.writeVa (s.who q) (s.spawnVa t) (toBytes 16 e) 0
    r.1.tailWrite t (BitVec.ofNat 64 ((r.1.fld (queTail t) 0 32 + 1) % 2 ^ 32))

/-- SPAWN_ROOM_GRANTED: with room in every target the checks and reads follow, and the SPAWN commits. -/
def effSpawnRoomGranted (q : QRef) (s : State) : State :=
  match s.head q with
  | none => s
  | some c =>
    if c.phase != .running || hOpc c.raw ≠ opSpawn then s
    else
      let d := c.eff
      let s := s.takeRoom q d
      if !s.roomAll q d then s
      else
        let ts := if spCount d = 0 then [] else s.spawnTargets q d
        let f := s.spawnEntryFault q ts
        match f.2 with
        | some f' => f.1.fail q c f'
        | none =>
          let r := if ts.any fun t => f.1.qSop t then f.1.readDescs q (spCount d) (spSrc d) [] else (f.1, .ok [])
          match r.2 with
          | .wait => r.1
          | .err e a l => r.1.fail q c (failOf e a l)
          | .ok ds =>
            if ds.any (·.2) then r.1.fail q c { code := stDataPoison }
            else
              let s := r.1.dropRoom q
              let s := ts.foldl (fun s t => s.spawnPost q d ds t) s
              let x := s.coreSite q.core
              ((s.sendEvents q c).completeAt q c { code := okStatus c } x (s.siteCycle x)).advance q

def execSpawnRoomGranted (q : QRef) (s : State) : Host.Outcome State Fault Refusal :=
  carryOut (q.ok) (effSpawnRoomGranted q s)

/-- SPAWN_ROOM_TIMEOUT: posts nothing, releases the room it holds, and halts the queue. -/
def effSpawnRoomTimeout (q : QRef) (s : State) : State :=
  match s.head q with
  | some c =>
    if c.phase == .running && hOpc c.raw = opSpawn && !s.roomAll q c.eff then s.fail q c { code := stWaitTimeout } else s
  | none => s

def execSpawnRoomTimeout (q : QRef) (s : State) : Host.Outcome State Fault Refusal :=
  carryOut (q.ok) (effSpawnRoomTimeout q s)

/-! ### Notifications (R199) -/

/-- NOTIFY_HOLDOFF_EXPIRY: one merged notification is sent, if any arose. -/
def effNotifyHoldoffExpiry (t : CrTarget) (s : State) : State :=
  let r := s.recX t
  if !r.holdoff then s
  else
    let s := s.setRecX t { r with holdoff := false, notifyDue := false }
    if r.notifyDue then s.sendNotify t else s

def execNotifyHoldoffExpiry (t : CrTarget) (s : State) : Host.Outcome State Fault Refusal :=
  carryOut (t.ok) (effNotifyHoldoffExpiry t s)

end Sys2Proof.Machine
end

