-- ==== Sys2Proof/Machine/Patterns.lean ====
section
/-!
DEFINITION. Patterns (06_submission R190-R193): the pour of CALL_PATTERN, PATCH, and the end of a pinned
command that writes (07_commit_and_rerun R209, R215).
-/

namespace Sys2Proof.Machine

/-! ### The pattern (R190) -/

/-- PAT_ADDR of CALL_PATTERN and of PATCH; its low twelve bits are taken as 0 (DESIGN CHOICE, log entry
9). -/
def patAddr (d : Desc) : Nat := alignDown (dF d 0x20 0 55) 4096
def patExpect (d : Desc) : Nat := dF d 0x28 0 32
def patSrc (d : Desc) : Nat := alignDown (dF d 0x28 0 55) 128
def patFirst (d : Desc) : Nat := dF d 0x30 0 16
def patNum (d : Desc) : Nat := dF d 0x32 0 16
def patNewCount (d : Desc) : Nat := dF d 0x34 0 16

/-- The word of a pattern that holds LIVE and LOCK: its address and value (R191 step 1, R193). -/
def State.patWord (s : State) (q : QRef) (pat : Nat) : State × Except Fail (Nat × Nat) :=
  let va := pat + 0x18
  let x := s.xlat (s.who q) .atomic va
  match x.2 with
  | .error e => (x.1, .error (failOf e.code va false))
  | .ok o =>
    if !isHbm o.pa || x.1.mirrorB o.pa then (x.1, .error (failOf stProtection va false))
    else
      let p := x.1.poisonRead (s.who q) o.pa 8
      match p.2 with
      | some c => (p.1, .error { code := c })
      | none => (p.1, .ok (o.pa, p.1.rdNum o.pa 8))

/-- LOCK of the word. -/
def patLocked (v : Nat) : Bool := nbit v 32
/-- LIVE of the word. -/
def patLive (v : Nat) : Nat := nbits v 0 32

/-- The CRC of a header's first 16 bytes and a table of `n` entries. -/
def patHcrc (hdr : Bytes) (table : List Nat) : Nat := crc32c (hdr.take 16 ++ table.flatMap (toBytes 4))

/-- Blocks of `count` descriptors. -/
def patBlocks (count : Nat) : Nat := ceilDiv count 16
/-- Descriptors of block `j`. -/
def patBlockLen (count j : Nat) : Nat := min 16 (count - 16 * j)

/-! ### The pour (R191, R192) -/

/-- CALL_PATTERN of a queue while its pour runs. -/
def State.callCmd (s : State) (q : QRef) : Option Cmd :=
  (s.q q).cmds.find? fun c => hOpc c.raw = opCall && c.phase == .running

/-- The index of the first descriptor of the pour that has not run. -/
def firstNotRun (x : QueX) : Nat :=
  match x.cmds.find? fun c => c.pour && c.phase != .committed with
  | some c => c.index
  | none => match x.pour with
    | some p => p.nextBlock * 16
    | none => 0

/-- A pour is killed with GRAPH_TORN (R192). -/
def State.tearPour (s : State) (q : QRef) : State :=
  match s.callCmd q with
  | none => s
  | some c =>
    let i := firstNotRun (s.q q)
    (s.endPour q).fail q c { code := stGraphTorn, index := some i }

/-- A pour ends with a fault of an access of its own. -/
def State.failPour (s : State) (q : QRef) (f : Fail) : State :=
  match s.callCmd q with
  | none => s
  | some c => (s.endPour q).fail q c f

/-- Step 2: the header and the table are read and checked. -/
def State.pourHeader (s : State) (q : QRef) (p : Pour) : State :=
  let r := s.readVa (s.who q) .read p.pat 64 0
  match r.2 with
  | .wait => r.1
  | .err c a l => r.1.failPour q (failOf c a l)
  | .ok h =>
    let count := ofBytes ((h.drop 8).take 2)
    if ofBytes (h.take 4) ≠ 0x50544E52 ∨ count = 0 ∨ 4096 < count then r.1.tearPour q
    else
      let n := patBlocks count
      let t := r.1.readVa (s.who q) .read (p.pat + 0x40) (4 * n) 0
      match t.2 with
      | .wait => t.1
      | .err c a l => t.1.failPour q (failOf c a l)
      | .ok tb =>
        let table := words4 n tb
        let gen := ofBytes ((h.drop 4).take 4)
        let hcrc := ofBytes ((h.drop 16).take 4)
        if patHcrc h table ≠ hcrc ∨ (p.expect ≠ 0 ∧ p.expect ≠ gen) then t.1.tearPour q
        else t.1.modQ q fun x => { x with pour := some { p with gen := gen, hcrc := hcrc, count := count, table := table, live := true, locked := false } }

/-- CALL_PATTERN (R191 steps 1 and 2): while LOCK is set the pour waits, and the row is tried again. -/
def effCallPattern (q : QRef) (s : State) : State :=
  match s.ready q opCall with
  | none => s
  | some c =>
    let p : Pour := { pat := patAddr c.eff, expect := patExpect c.eff }
    let w := s.patWord q p.pat
    match w.2 with
    | .error f => w.1.fail q c f
    | .ok (pa, v) =>
      if patLocked v then w.1.modQ q fun x => { x with pour := some { p with locked := true } }
      else
        let s := (w.1.writePa (w.1.who q) pa (toBytes 8 ((v + 1) % 2 ^ 64)) 0).1
        let s := s.modCmd q c fun c => { c with phase := .running }
        let s := s.modQ q fun x => { x with pour := some { p with live := true } }
        s.pourHeader q { p with live := true }

def execCallPattern (q : QRef) (s : State) : Host.Outcome State Fault Refusal :=
  carryOut (q.ok) (effCallPattern q s)

/-- Commands put before the CALL_PATTERN that pours them. -/
def insertBefore (c : Cmd) (new : List Cmd) : List Cmd → List Cmd
  | [] => new
  | e :: r => if e.same c then new ++ e :: r else e :: insertBefore c new r

/-- POUR_BLOCK_RETURN (R191 step 3): the header and a block; at most two blocks wait to be started. -/
def effPourBlockReturn (q : QRef) (s : State) : State :=
  match (s.q q).pour, s.callCmd q with
  | some p, some c =>
    if !p.live then s
    else if p.count = 0 then s.pourHeader q p
    else if p.count ≤ 16 * p.nextBlock ∨ s.aheadFull q true then s
    else
      let h := s.readVa (s.who q) .read p.pat 64 0
      match h.2 with
      | .wait => h.1
      | .err e a l => h.1.failPour q (failOf e a l)
      | .ok hb =>
        let n := patBlockLen p.count p.nextBlock
        let b := h.1.readVa (s.who q) .read (p.pat + 0x800 + 2048 * p.nextBlock) (128 * n) 0
        match b.2 with
        | .wait => b.1
        | .err e a l => b.1.failPour q (failOf e a l)
        | .ok bs =>
          if ofBytes ((hb.drop 4).take 4) ≠ p.gen ∨ ofBytes ((hb.drop 16).take 4) ≠ p.hcrc ∨ crc32c bs ≠ p.table.getD p.nextBlock 0 then
            b.1.tearPour q
          else
            let new := (descsOf n bs).mapIdx fun i d => mkCmd {} c.submit (16 * p.nextBlock + i) true (d, false)
            (b.1.modQ q fun x => { x with cmds := insertBefore c new x.cmds, pour := some { p with nextBlock := p.nextBlock + 1 } }).refreshQ q
  | _, _ => s

def execPourBlockReturn (q : QRef) (s : State) : Host.Outcome State Fault Refusal :=
  carryOut (q.ok) (effPourBlockReturn q s)

/-- POUR_LOCK_TIMEOUT (R191 step 1): LIVE is unchanged and no descriptor runs. -/
def effPourLockTimeout (q : QRef) (s : State) : State :=
  match s.ready q opCall, (s.q q).pour with
  | some c, some p =>
    if p.locked then (s.modQ q fun x => { x with pour := none }).fail q c { code := stWaitTimeout } else s
  | _, _ => s

def execPourLockTimeout (q : QRef) (s : State) : Host.Outcome State Fault Refusal :=
  carryOut (q.ok) (effPourLockTimeout q s)

/-! ### PATCH (R193) -/

/-- LOCK is cleared (R193 steps 2 and 5). -/
def State.patUnlock (s : State) (q : QRef) (pat : Nat) : State :=
  let w := s.patWord q pat
  match w.2 with
  | .error _ => w.1
  | .ok (pa, v) => (w.1.writePa (w.1.who q) pa (toBytes 8 (nput v 32 1 0)) 0).1

/-- A PATCH that holds LOCK ends with a code. -/
def State.failPatch (s : State) (q : QRef) (c : Cmd) (f : Fail) : State := (s.patUnlock q (patAddr c.eff)).fail q c f

/-- The table entries of the blocks that a PATCH changes, read back. -/
def State.patTable (s : State) (w : Who) (pat first num old new : Nat) (table : List Nat) : State × List Nat :=
  (List.range (patBlocks new)).foldl (fun (acc : State × List Nat) j =>
    let changed := (decide (first < 16 * j + 16) && decide (16 * j < first + num)) || patBlockLen old j ≠ patBlockLen new j
    if changed then
      let r := acc.1.readVa w .read (pat + 0x800 + 2048 * j) (128 * patBlockLen new j) 0
      match r.2 with
      | .ok bs => (r.1, acc.2 ++ [crc32c bs])
      | _ => (r.1, acc.2 ++ [table.getD j 0])
    else (acc.1, acc.2 ++ [table.getD j 0])) (s, [])

/-- GEN + 1, skipping 0. -/
def nextGen (g : Nat) : Nat := if (g + 1) % 2 ^ 32 = 0 then 1 else (g + 1) % 2 ^ 32

/-- Steps 3 and 4, with LOCK held and LIVE 0. -/
def State.patchWrites (s : State) (q : QRef) (c : Cmd) : State :=
  let d := c.eff
  let p := patAddr d
  let w := s.who q
  let h := s.readVa w .read p 0x440 0
  match h.2 with
  | .wait => h.1
  | .err e a l => h.1.failPatch q c (failOf e a l)
  | .ok hb =>
    let old := ofBytes ((hb.drop 8).take 2)
    let new := if patNewCount d = 0 then old else patNewCount d
    if new < patFirst d + patNum d ∨ 4096 < patFirst d + patNum d then h.1.failPatch q c { code := stIllegal }
    else
      let r := h.1.readVa w .read (patSrc d) (128 * patNum d) 0
      match r.2 with
      | .wait => r.1
      | .err e a l => r.1.failPatch q c (failOf e a l)
      | .ok src =>
        let k := r.1.checkVa w .write false (p + 0x800 + 128 * patFirst d) (128 * patNum d)
        match k.2 with
        | some e => k.1.failPatch q c (failOf e.1.code e.2 false)
        | none =>
          let k2 := k.1.checkVa w .write false p 0x800
          match k2.2 with
          | some e => k2.1.failPatch q c (failOf e.1.code e.2 false)
          | none =>
            let s := (k2.1.writeVa w (p + 0x800 + 128 * patFirst d) src 0).1
            let t := s.patTable w p (patFirst d) (patNum d) old new (words4 256 (hb.drop 0x40))
            let gen := nextGen (ofBytes ((hb.drop 4).take 4))
            let hdr := hb.take 4 ++ toBytes 4 gen ++ toBytes 2 new ++ (hb.drop 10).take 6
            let s := (t.1.writeVa w (p + 0x40) (t.2.flatMap (toBytes 4)) 0).1
            let s := (s.writeVa w p (hdr ++ toBytes 4 (patHcrc hdr t.2)) 0).1
            s.modRun c.run fun r => { r with phase := .workDone }

/-- PATCH (R193 steps 1 to 4): while LOCK is set it waits, and the row is tried again. -/
def effPatch (q : QRef) (s : State) : State :=
  match s.ready q opPatch with
  | none => s
  | some c =>
    let w := s.patWord q (patAddr c.eff)
    match w.2 with
    | .error f => w.1.fail q c f
    | .ok (pa, v) =>
      if patLocked v then w.1
      else
        let s := (w.1.writePa (w.1.who q) pa (toBytes 8 (nput v 32 1 1)) 0).1
        let s := s.beginWork q c
        if patLive v = 0 then s.patchWrites q c else s

def execPatch (q : QRef) (s : State) : Host.Outcome State Fault Refusal := carryOut (q.ok) (effPatch q s)

/-- The PATCH of a queue that holds LOCK and has not written. -/
def State.patchHeld (s : State) (q : QRef) : Option Cmd :=
  s.active q fun c => hOpc c.raw = opPatch && c.phase == .committed && (match s.run? c.run with | some r => r.phase == .running | none => false)

/-- PATCH_LIVE_DRAINED (R193 step 2). -/
def effPatchLiveDrained (q : QRef) (s : State) : State :=
  match s.patchHeld q with
  | none => s
  | some c =>
    let w := s.patWord q (patAddr c.eff)
    match w.2 with
    | .error f => w.1.fail q c f
    | .ok (_, v) => if patLive v = 0 then w.1.patchWrites q c else w.1

def execPatchLiveDrained (q : QRef) (s : State) : Host.Outcome State Fault Refusal :=
  carryOut (q.ok) (effPatchLiveDrained q s)

/-- PATCH_WAIT_TIMEOUT (R193 step 2): LOCK is cleared if the PATCH set it. -/
def effPatchWaitTimeout (q : QRef) (s : State) : State :=
  match s.patchHeld q with
  | some c =>
    let w := s.patWord q (patAddr c.eff)
    (match w.2 with
    | .ok (_, v) => if patLive v = 0 then w.1 else w.1.failPatch q c { code := stWaitTimeout }
    | .error f => w.1.fail q c f)
  | none =>
    match s.ready q opPatch with
    | none => s
    | some c =>
      let w := s.patWord q (patAddr c.eff)
      match w.2 with
      | .ok (_, v) => if patLocked v then w.1.fail q c { code := stWaitTimeout } else w.1
      | .error f => w.1.fail q c f

def execPatchWaitTimeout (q : QRef) (s : State) : Host.Outcome State Fault Refusal :=
  carryOut (q.ok) (effPatchWaitTimeout q s)

/-! ### The end of a pinned command that writes (R182, R209, R215) -/

/-- Bytes that a committed move-engine command has written (MOV_STATUS.BYTES). -/
def movedBytes (d : Desc) : Nat :=
  if hOpc d < 0x48 then xRowBytes d * xRows d
  else if isColl (hOpc d) then lResult d * (if lDst d = 0 then 1 else 2)
  else 0

/-- MOV_STATUS.BYTES, in units of 4 KiB. -/
def State.countMoved (s : State) (q : QRef) (c : Cmd) : State :=
  if q.eng < 5 then s else s.coarse (engB q.core q.eng) 16 48 4096 (movedBytes c.eff) false

/-- PINNED_WRITES_DONE: the last write of a pinned move-engine command or PATCH is performed and visible
at PANEL scope; PATCH clears LOCK (R193 step 5), the event record and the arm leave, and the record is
written. -/
def effPinnedWritesDone (q : QRef) (s : State) : State :=
  let done := s.active q fun c => hOpc c.raw ≠ opLaunch && hClass c.raw = 1 && c.phase == .committed &&
    (match s.run? c.run with | some r => r.phase == .workDone | none => false)
  match done with
  | none => s
  | some c =>
    match s.run? c.run with
    | none => s
    | some r =>
      let s := if hOpc c.raw = opPatch then s.patUnlock q (patAddr c.eff) else s.countMoved q c
      let st := if r.poisoned then stDataPoison else if r.siteLost then stSiteLost else okStatus c
      ((s.sendEvents q c).completeAt q c { code := st } r.timeSite r.time).advance q

def execPinnedWritesDone (q : QRef) (s : State) : Host.Outcome State Fault Refusal :=
  carryOut (q.ok) (effPinnedWritesDone q s)

end Sys2Proof.Machine
end

