-- ==== Sys2Proof/Machine/Matrix.lean ====
section
/-!
DEFINITION. The commands of the matrix engines (03_matrix_engines R67, R68, R73, R81-R84): MATMUL, gangs,
detections, local-store parity errors, and the clears of MEX_CTRL.
-/

namespace Sys2Proof.Machine

/-- The engine of a run, with the run's number, its queue and its command. -/
def State.engCmd (s : State) (core eng : Nat) : Option (Nat × QRef × Cmd) :=
  let id := (s.eng core eng).run
  (s.cmdOfRun id).map fun x => (id, x.1, x.2)

/-! ### MATMUL and gangs (R67, R68) -/

/-- The work of a matrix command ends once no TILES word waits. -/
def State.matEnd (s : State) (q : QRef) (c : Cmd) (r : State × MRes Unit) : State :=
  s.afterWork q c r fun s => s.modRun c.run fun r => if r.amaxTodo.isEmpty then { r with phase := .workDone } else r

/-- The whole work of a matrix command on its engine; its commit point follows. -/
def State.matRun (s : State) (q : QRef) (c : Cmd) : State :=
  match s.run? c.run with
  | none => s
  | some r => s.matEnd q c (s.matWork q c.run r.onEng c.eff)

/-- The TILES words that waited for a tentative way are tried again (R77, R207). -/
def State.matAgain (s : State) (q : QRef) : State :=
  match s.head q with
  | none => s
  | some c =>
    match s.run? c.run with
    | none => s
    | some r =>
      if c.phase == .running && decide (hOpc c.raw = opMatmul) && !r.amaxTodo.isEmpty then
        s.matEnd q c (s.amaxStore (s.runWho q c.run) c.run r.amaxTodo)
      else s

/-- The set of shared operands: 1 A, 2 B, 3 both. -/
def mShareSet (d : Desc) : Nat := b2n (mA d).share + 2 * b2n (mB d).share

/-- A command matches the first of its gang (R67). -/
def Gang.matches (g : Gang) (d : Desc) : Bool :=
  decide (mM d = g.m) && decide (mK d = g.k) && decide (mShareSet d ≠ 0) && decide (mShareSet d = g.share)
    && (!nbit g.share 0 || (mA d).raw == g.opA) && (!nbit g.share 1 || (mB d).raw == g.opB)
    && (decide (g.share ≠ 3) || decide (mN d = g.n))

/-- The gang begins its shared operand reads: every member that waits does its work. -/
def State.runGang (s : State) (core gang : Nat) : State :=
  match s.gangs.find? fun g => g.core = core && g.gang = gang with
  | none => s
  | some g =>
    let s := { s with gangs := s.gangs.map fun x => if x.core = core && x.gang = gang then { x with formed := true } else x }
    g.members.foldl (fun s e =>
      match s.engCmd core e with
      | some (id, q, c) => if (s.run? id).any (fun r => r.phase == .running) then s.matRun q c else s
      | none => s) s

/-- MATMUL: its checks have passed; with a GANG value it opens or joins a formation window, else it works
at its own pace. One whose TILES words wait tries them again. -/
def effMatmul (q : QRef) (s : State) : State :=
  match s.ready q opMatmul with
  | none => s.matAgain q
  | some c =>
    match s.run? c.run with
    | none => s
    | some r =>
      let d := c.eff
      let s := s.beginWork q c
      if mGang d = 0 ∨ c.reruns ≠ 0 then s.matRun q c
      else
        match s.gangs.find? fun g => g.core = q.core && g.gang = mGang d with
        | none =>
          let g : Gang := { core := q.core, gang := mGang d, members := [r.onEng], m := mM d, k := mK d, n := mN d, share := mShareSet d
                            opA := (mA d).raw, opB := (mB d).raw, formed := false }
          ({ s with gangs := s.gangs ++ [g] }).setFld (mexB q.core r.onEng) 3 1 1
        | some g =>
          if !g.formed && g.matches d then
            let s := { s with gangs := s.gangs.map fun (x : Gang) =>
                                if x.core = q.core && x.gang = mGang d then { x with members := x.members ++ [r.onEng] } else x }
            let s := s.setFld (mexB q.core r.onEng) 3 1 1
            if g.members.length = 3 then s.runGang q.core (mGang d) else s
          else s.matRun q c

def execMatmul (q : QRef) (s : State) : Host.Outcome State Fault Refusal := carryOut (q.ok) (effMatmul q s)

/-- GANG_WINDOW_CLOSE: 256 cycles have passed since the window opened. -/
def effGangWindowClose (core gang : Nat) (s : State) : State := s.runGang core gang

def execGangWindowClose (core gang : Nat) (s : State) : Host.Outcome State Fault Refusal :=
  carryOut (decide (core < Config.cores) && decide (gang < 32)) (effGangWindowClose core gang s)

/-! ### Detection and parity (R81, R82, R114) -/

/-- MATRIX_DETECTION: the run is killed and the command re-run on the same engine, then on the partner;
on the partner the C-die is lost. `kind` is 0 checksum, 1 residue, 2 parity. -/
def effMatrixDetection (core eng kind : Nat) (s : State) : State :=
  match s.engCmd core eng with
  | none => s
  | some (id, q, c) =>
    if c.phase == .committed then s
    else
      let s := s.sat (mexB core eng + 0x38) (16 * kind) 16 1
      let x := s.coreSite core
      let s := s.report { cls := 0x01, site := x, unit := s.coreSlot core * 8 + eng, status := stRecomputed, sev := sevRecomputed
                          reporter := x, part := s.corePart core, cid := s.qCid q, tag := hTag c.raw, eng := q.eng, q := q.q
                          aux := BitVec.ofNat 64 kind }
      let s := (s.killRun id).requeue q c
      if c.handed then s.cdieLost x 2 (s.coreSlot core)
      else if c.detections = 0 then (s.modCmd q c fun c => { c with detections := 1 }).refreshQ q
      else
        let s := s.sat (mexB core eng + 0x38) 48 16 1
        (s.modCmd q c fun c => { c with detections := c.detections + 1, handed := true }).refreshQ q

def execMatrixDetection (core eng kind : Nat) (s : State) : Host.Outcome State Fault Refusal :=
  carryOut (decide (core < Config.cores) && decide (eng < 4) && decide (kind < 3)) (effMatrixDetection core eng kind s)

/-- LS_PARITY_ERROR: the command completes with DATA_POISON and its queue halts; it is not re-run. -/
def effLsParityError (core eng off : Nat) (s : State) : State :=
  match s.engCmd core eng with
  | none => s
  | some (_, q, c) =>
    if c.phase == .committed && hClass c.raw ≠ 1 then s
    else
      let x := s.coreSite core
      let s := s.report { cls := 0x02, site := x, unit := s.coreSlot core * 8 + eng, status := stDataPoison, sev := sevPoison
                          reporter := x, part := s.corePart core, cid := s.qCid q, tag := hTag c.raw, eng := q.eng, q := q.q
                          addr := BitVec.ofNat 64 off }
      s.fail q c { code := stDataPoison }

def execLsParityError (core eng off : Nat) (s : State) : Host.Outcome State Fault Refusal :=
  carryOut (decide (core < Config.cores) && decide (eng < 5)) (effLsParityError core eng off s)

/-- ENGINE_STOPPED (R83, R117): the engine has stopped and is free for its next command. -/
def effEngineStopped (core eng : Nat) (s : State) : State :=
  if (s.eng core eng).stopping then
    (coreQueues core).foldl (fun s q => s.refreshQ q) (s.setEng core eng { s.eng core eng with stopping := false })
  else s

def execEngineStopped (core eng : Nat) (s : State) : Host.Outcome State Fault Refusal :=
  carryOut (decide (core < Config.cores) && decide (eng < 7)) (effEngineStopped core eng s)

/-! ### MEX_CTRL -/

/-- CLR_FLASH. -/
def effMexClrFlash (core me : Nat) (s : State) : State :=
  [0x10, 0x18, 0x20, 0x28].foldl (fun s o => s.setReg (mexB core me + o) 0#64) s

def execMexClrFlash (core me : Nat) (s : State) : Host.Outcome State Fault Refusal :=
  carryOut (decide (core < Config.cores) && decide (me < 4)) (effMexClrFlash core me s)

/-- CLR_DET. -/
def effMexClrDet (core me : Nat) (s : State) : State := s.setReg (mexB core me + 0x38) 0#64

def execMexClrDet (core me : Nat) (s : State) : Host.Outcome State Fault Refusal :=
  carryOut (decide (core < Config.cores) && decide (me < 4)) (effMexClrDet core me s)

/-- CLR_PERF. -/
def effMexClrPerf (core me : Nat) (s : State) : State :=
  (s.setReg (mexB core me + 0x48) 0#64).setReg (mexB core me + 0x50) 0#64

def execMexClrPerf (core me : Nat) (s : State) : Host.Outcome State Fault Refusal :=
  carryOut (decide (core < Config.cores) && decide (me < 4)) (effMexClrPerf core me s)

end Sys2Proof.Machine
end

