-- ==== Sys2Proof/Machine/Commit.lean ====
section
/-!
DEFINITION. Commit points, kills, the Calendar, the watchdog and collectives (07_commit_and_rerun
R206-R225, 04_thread_engine R96-R98).
-/

namespace Sys2Proof.Machine

/-! ### The commit point (R209, R210) -/

/-- What a run waits for before its commit point beside its own work: FLUSH_RANGE waits for every
acknowledgement (R274). -/
def State.flushWaits (s : State) (q : QRef) (c : Cmd) (r : Run) : Bool :=
  decide (hOpc c.raw = 0x49) && (!r.unackedLines.isEmpty || s.releasePending q)

/-- RUN_COMMIT_POINT: the head command of the queue has done its work. -/
def effRunCommitPoint (q : QRef) (s : State) : State :=
  match s.head q with
  | none => s
  | some c =>
    match s.run? c.run with
    | none => s
    | some r =>
      if c.phase != .running || r.phase != .workDone || r.cls != 0 || s.flushWaits q c r then s
      else
        let s := if hOpc c.raw = 0x49 then s.dropOutN (s.runWho q c.run) (xRowBytes c.eff / 512 + 2) (xSrc c.eff) (xRowBytes c.eff) else s
        let k := engB q.core r.onEng
        let s := if r.onEng < 5 then s.addFlash k r else s
        let s := if r.onEng < 4 then s.setFld (k + 0x30) 0 32 r.amax.toNat else s
        (s.countMoved q c).commitRun q c

def execRunCommitPoint (q : QRef) (s : State) : Host.Outcome State Fault Refusal :=
  carryOut (q.ok) (effRunCommitPoint q s)

/-- DISCARD_COMPLETE (R213): the reservation is released. -/
def effDiscardComplete (run : Nat) (s : State) : State :=
  match s.run? run with
  | some r => if r.phase == .discarding then s.endRun run else s
  | none => s

def execDiscardComplete (run : Nat) (s : State) : Host.Outcome State Fault Refusal :=
  carryOut true (effDiscardComplete run s)

/-! ### Kills (R207, R208, R215) -/

/-- Some set of a slice holds 12 tentative lines. -/
def State.setFull (s : State) (x : Nat) : Bool := (s.tentLines x).any fun e => decide (12 ≤ (s.setTent x e.2).length)

/-- TENTATIVE_SET_WAIT_EXPIRY (R207). -/
def effTentativeSetWaitExpiry (q : QRef) (s : State) : State :=
  match s.head q with
  | none => s
  | some c =>
    if (c.phase == .running || c.phase == .checked) && c.run ≠ 0 && !isQueueOp (hOpc c.raw) && hClass c.raw ≠ 1 && s.setFull (s.coreSite q.core) then
      (((s.killRun c.run).requeue q c).sat (arcTentStat (s.coreSite q.core)) 16 16 1).refreshQ q
    else s

def execTentativeSetWaitExpiry (q : QRef) (s : State) : Host.Outcome State Fault Refusal :=
  carryOut (q.ok) (effTentativeSetWaitExpiry q s)

/-- A CMT of the run for the line of the address, still on its way, takes the sector poisoned; a LOG of
the run for the address takes its operand poisoned (R208). -/
def poisonMsg (run addr : Nat) (isLog : Bool) (e : MsgTy × CMsg) : MsgTy × CMsg :=
  if isLog && e.1 == .log && e.2.run = run && e.2.op.addr = addr then (e.1, { e.2 with opPoison := true })
  else if !isLog && e.1 == .cmt && e.2.run = run && e.2.line = addr / 512 then
    (e.1, { e.2 with poison := e.2.poison ||| (e.2.sectors &&& (1 <<< (addr / 128 % 4))) })
  else e

/-- TENTATIVE_PARITY_ERROR (R208): a detection before the commit point; poison during the commit. -/
def effTentativeParityError (run addr : Nat) (isLog : Bool) (s : State) : State :=
  match s.run? run, s.cmdOfRun run with
  | some r, some (q, c) =>
    let holds := if isLog then r.logs.any fun l => l.op.addr = addr else r.tlines.contains (addr / 512)
    if !holds then s
    else if r.phase == .running || r.phase == .workDone then
      let s := s.qReport q 0x01 stRecomputed sevRecomputed 3 (hTag c.raw)
      ((s.killRun run).requeue q c).refreshQ q
    else if r.phase == .committed then
      let msgs := s.net.msgs.map (poisonMsg run addr isLog)
      if msgs = s.net.msgs then s
      else ({ s with net := { s.net with msgs := msgs } } : State).modRun run fun r => { r with poisoned := true }
    else s
  | _, _ => s

def execTentativeParityError (run addr : Nat) (isLog : Bool) (s : State) : Host.Outcome State Fault Refusal :=
  carryOut true (effTentativeParityError run addr isLog s)

/-! ### The Calendar (R218, R219) -/

/-- The window entry of a core is a maintenance window of its own that its partition releases. -/
def State.inReleased (s : State) (core : Nat) : Bool :=
  let e := calWin core (s.fld (calB core + 0x8) 0 12)
  decide (some (s.fld e 0 4) = s.corePart core) && s.bit e 6 && s.bit (calB core + 0x10) 0

/-- A run that runs on a core's engine, with its command, before its commit point. -/
def State.runsOf (s : State) (core : Nat) : List (Nat × QRef × Cmd) :=
  (List.range 7).filterMap fun e =>
    let id := (s.eng core e).run
    (s.cmdOfRun id).map fun x => (id, x.1, x.2)

/-- The kill of a window boundary: a repeatable best-effort run, or a collective one with RUN = 0. -/
def State.windowKills (s : State) (m : Nat × QRef × Cmd) : Bool :=
  match s.run? m.1 with
  | some r => decide (2 ≤ m.2.1.q) && m.2.2.phase != .committed && (r.cls == 0 || (r.cls == 2 && r.collRun == 0))
  | none => false

/-- CALENDAR_WINDOW_BOUNDARY (R219). -/
def effCalendarWindowBoundary (core : Nat) (s : State) : State :=
  let k := calB core
  let len := s.fld k 0 13
  if !s.bit k 16 || len = 0 then s
  else
    let x := s.coreX core
    let s := if x.maintWanted then (s.sat (k + 0x18) 48 16 1).setCoreX core { x with maintWanted := false } else s
    let s := if x.inWindow then s.leaveMaint core else s
    let w := s.fld (k + 0x8) 0 12 + 1
    let s := if len ≤ w then (s.setFld (k + 0x8) 0 12 0).bump (k + 0x8) 16 32 1 else s.setFld (k + 0x8) 0 12 w
    let late := (s.runsOf core).filter fun m => !s.calAdmits m.2.1
    let kills := late.filter s.windowKills
    let stay := late.filter fun m => !s.windowKills m
    let s := kills.foldl (fun s m => (((s.killRun m.1).requeue m.2.1 m.2.2).sat (k + 0x18) 16 16 1).refreshQ m.2.1) s
    let s := if stay.isEmpty then s else s.sat (k + 0x18) 32 16 1
    let s := if s.inReleased core then s.setCoreX core { s.coreX core with maintWanted := true } else s
    (coreQueues core).foldl (fun s q => s.refreshQ q) s

def execCalendarWindowBoundary (core : Nat) (s : State) : Host.Outcome State Fault Refusal :=
  carryOut (decide (core < Config.cores)) (effCalendarWindowBoundary core s)

/-- A self-test part begins in the window of a core that a test waits for, unless the Librarian is absent
(R446, R413). The Librarian posts its maintenance launches, which march the pool under a split of their choice (R96, R97;
DESIGN CHOICE, log entry 104): their POOL takes effect, and their programs, which the spec does not give, stay out. -/
def State.beginTest (s : State) (core : Nat) : State :=
  if s.bit (coreSelftest core) 1 && !s.boot.absent then
    let f := ((s.setBit (coreSelftest core) 1 false).setBit (coreSelftest core) 2 true).freeNum
    f.1.setPool core (f.2 % 9)
  else s

/-- MAINT_BEGIN (R219): the engines hold no running command. -/
def effMaintBegin (core : Nat) (s : State) : State :=
  if (s.coreX core).maintWanted && (List.range 7).all fun e => (s.eng core e).run = 0 then
    ((s.setCoreX core { s.coreX core with maintWanted := false, inWindow := true }).setBit (texB core) 15 true).beginTest core
  else s

def execMaintBegin (core : Nat) (s : State) : Host.Outcome State Fault Refusal :=
  carryOut (decide (core < Config.cores)) (effMaintBegin core s)

/-! ### The watchdog (R221, R225) -/

/-- The command whose watchdog expires: the head, or a CALL_PATTERN whose pour stands before it; where both run, a free
choice says which (log entry 98). -/
def State.watched (s : State) (q : QRef) : State × Option Cmd :=
  match s.head q, s.callCmd q with
  | some h, some c => if h.phase == .queued then (s, some c) else let b := s.freeBit; (b.1, some (if b.2 then c else h))
  | some h, none => (s, some h)
  | none, c => (s, c)

/-- COMMAND_WATCHDOG: a run that has not committed completes ABORTED, as if aborted; the open run of a collective
instance becomes EXPIRED, and its members complete with WAIT_TIMEOUT. -/
def effCommandWatchdog (q : QRef) (s0 : State) : State :=
  let w := s0.watched q
  let s := w.1
  match w.2 with
  | none => s
  | some c =>
    match s.run? c.run with
    | none => s
    | some r =>
      if r.cls = 1 || c.phase == .queued then s
      else if r.cls = 2 && r.arrived then
        if recInst s r.coord = r.inst ∧ recState s r.coord = 1 ∧ recPrepared s r.coord < recMembers s r.coord then
          let s := s.qReport q 0x10 stWaitTimeout sevCorrected 0 (hTag c.raw)
          (s.putRec r.coord 8 1 5).endMembers r.coord r.inst { code := stWaitTimeout }
        else s
      else (s.qReport q 0x10 stAborted sevCorrected 0 (hTag c.raw)).judgeAbort q c

def execCommandWatchdog (q : QRef) (s : State) : Host.Outcome State Fault Refusal :=
  carryOut (q.ok) (effCommandWatchdog q s)

/-! ### Collectives (R222-R225, R255) -/

/-- A member starts: its arrival leaves for the coordinator. -/
def State.collStart (s : State) (q : QRef) (op : Nat) : State :=
  match s.ready q op with
  | none => s
  | some c =>
    let x := s.xlat (s.who q) .write (lCoord c.eff)
    match x.2 with
    | .error e => x.1.fail q c (failOf e.code (lCoord c.eff) false)
    | .ok a => (x.1.beginWork q c).modRun c.run fun r => { r with coord := a.pa, inst := lInst c.eff }

def effAllreduce (q : QRef) (s : State) : State := s.collStart q 0x50
def execAllreduce (q : QRef) (s : State) : Host.Outcome State Fault Refusal := carryOut (q.ok) (effAllreduce q s)

def effReduceScatter (q : QRef) (s : State) : State := s.collStart q 0x51
def execReduceScatter (q : QRef) (s : State) : Host.Outcome State Fault Refusal :=
  carryOut (q.ok) (effReduceScatter q s)

def effAllgather (q : QRef) (s : State) : State := s.collStart q 0x52
def execAllgather (q : QRef) (s : State) : Host.Outcome State Fault Refusal := carryOut (q.ok) (effAllgather q s)

def effAlltoall (q : QRef) (s : State) : State := s.collStart q 0x53
def execAlltoall (q : QRef) (s : State) : Host.Outcome State Fault Refusal := carryOut (q.ok) (effAlltoall q s)

/-- The head of a queue as a collective member before the group commit point. -/
def State.collHead (s : State) (q : QRef) : Option (Cmd × Run) :=
  match s.head q with
  | some c => if c.phase == .running && isColl (hOpc c.raw) then (s.run? c.run).map fun r => (c, r) else none
  | none => none

/-- The last member has arrived: a reduction begins on the mesh; of the other collectives the data is exchanged, and each
member has done its work. -/
def State.collRun (s : State) (pa inst : Nat) : State :=
  let ms := s.membersOf pa inst
  if ms.any fun m => (hOpc m.2.2.eff = 0x50 || hOpc m.2.2.eff = 0x51) && 0 < lBytes m.2.2.eff then s.reduceBegin ms
  else
  let x := s.exchange ms
  x.2.foldl (fun s e => s.fail e.1 e.2.1 e.2.2) x.1

/-- The member joins the open run; the last one starts the exchange. -/
def State.collJoin (s : State) (c : Cmd) (pa inst : Nat) : State :=
  let s := s.modRun c.run fun r => { r with arrived := true, collRun := recRun s pa }
  if (s.membersOf pa inst).length = recMembers s pa then s.collRun pa inst else s

/-- COLLECTIVE_ARRIVAL (R223): the coordinator acts on its record. -/
def effCollectiveArrival (q : QRef) (s : State) : State :=
  match s.collHead q with
  | none => s
  | some (c, r) =>
    if r.arrived || r.inst = 0 then s
    else
      let pa := r.coord
      let st := recState s pa
      let members := lMembers c.eff
      if s.isLost (homeOf pa) then s.fail q c { code := stSiteLost }
      else if recInst s pa ≠ r.inst ∨ st = 0 then
        if st = 1 ∨ st = 3 then s else (s.openRec pa r.inst members 0).collJoin c pa r.inst
      else if st = 3 then (s.openRec pa r.inst members (recRun s pa + 1)).collJoin c pa r.inst
      else if st = 1 then
        if recMembers s pa ≠ members then
          let s := s.modRun c.run fun r => { r with arrived := true }
          s.endMembers pa r.inst { code := stIllegal }
        else s.collJoin c pa r.inst
      else if st = 2 then s.fail q c { code := stAlreadyCommitted }
      else if st = 4 then s.fail q c { code := stAborted }
      else s.fail q c { code := stWaitTimeout }

def execCollectiveArrival (q : QRef) (s : State) : Host.Outcome State Fault Refusal :=
  carryOut (q.ok) (effCollectiveArrival q s)

/-- A member whose result waits for a tentative way tries it again. -/
def State.collAgain (s : State) (q : QRef) : State :=
  match s.collHead q with
  | some (c, r) =>
    match r.dstTodo with
    | some b =>
      let x := s.collStore q c.run c.eff b
      match x.2 with
      | some f => x.1.fail q c f
      | none => x.1
    | none => s
  | none => s

/-- COLLECTIVE_PREPARED (R223): at MEMBERS the group commit point is set, and every member commits. -/
def effCollectivePrepared (q : QRef) (s0 : State) : State :=
  let s := s0.collAgain q
  match s.collHead q with
  | none => s
  | some (c, r) =>
    if r.phase != .workDone || r.prepared || !r.arrived || recInst s r.coord ≠ r.inst || recState s r.coord ≠ 1 then s
    else
      let n := recPrepared s r.coord + 1
      let s := s.modRun c.run fun r => { r with prepared := true }
      let s := s.putRec r.coord 6 2 n
      if n < recMembers s r.coord then s
      else
        let ms := s.membersOf r.coord r.inst
        let s := s.putRec r.coord 8 1 2
        ms.foldl (fun s m => (s.countMoved m.2.1 m.2.2).commitRun m.2.1 m.2.2) s

def execCollectivePrepared (q : QRef) (s : State) : Host.Outcome State Fault Refusal :=
  carryOut (q.ok) (effCollectivePrepared q s)

/-- COLLECTIVE_KILL (R224): the oldest KILL of the queue's member reaches the coordinator. -/
def effCollectiveKill (q : QRef) (s : State) : State :=
  match s.net.kills.find? fun k => k.1 = q with
  | none => s
  | some k =>
    let s := { s with net := { s.net with kills := s.net.kills.erase k } }
    s.coordKill k.2.1 k.2.2.1 k.2.2.2

def execCollectiveKill (q : QRef) (s : State) : Host.Outcome State Fault Refusal :=
  carryOut (q.ok) (effCollectiveKill q s)

end Sys2Proof.Machine
end

