-- ==== Sys2Proof/Machine/Move.lean ====
section
/-!
DEFINITION. The commands of the move engines, the write-combining buffer, and the checks of the Archive
and the stacks (08_archive_and_memory R236, R237, R245-R254, 09_coherence R274).
-/

namespace Sys2Proof.Machine

/-! ### Transfers (R252-R254) -/

/-- COPY, FILL, GATHER and SCATTER: the index list is read, everything that the rows need from outside the panel is asked
for, the whole walk is checked and the tentative lines are taken before any byte is written, and the copy follows. -/
def State.transfer (s : State) (q : QRef) (op : Nat) : State :=
  match s.ready q op with
  | none => s
  | some c =>
    let w := s.runWho q c.run
    let i := s.readIdx w c.eff
    match i.2 with
    | .wait => i.1
    | .err code a ls => i.1.fail q c (failOf code a ls)
    | .ok ix =>
      let k := i.1.xferWalk w c.eff ix
      match k.2 with
      | some f => k.1.fail q c f
      | none =>
        let p := k.1.probeXfer w c.eff ix
        if !p.2 then p.1
        else
          let t := p.1.tentXfer w c.eff ix
          match t.2 with
          | .wait => t.1
          | .err code a ls => t.1.fail q c (failOf code a ls)
          | .ok _ =>
            let s1 := t.1.beginWork q c
            t.1.afterWork q c (s1.copyWork w c.eff ix) fun s => s.modRun c.run fun r => { r with phase := .workDone }

def effCopy (q : QRef) (s : State) : State := s.transfer q 0x40
def execCopy (q : QRef) (s : State) : Host.Outcome State Fault Refusal := carryOut (q.ok) (effCopy q s)

def effFill (q : QRef) (s : State) : State := s.transfer q 0x41
def execFill (q : QRef) (s : State) : Host.Outcome State Fault Refusal := carryOut (q.ok) (effFill q s)

def effGather (q : QRef) (s : State) : State := s.transfer q 0x42
def execGather (q : QRef) (s : State) : Host.Outcome State Fault Refusal := carryOut (q.ok) (effGather q s)

def effScatter (q : QRef) (s : State) : State := s.transfer q 0x43
def execScatter (q : QRef) (s : State) : Host.Outcome State Fault Refusal := carryOut (q.ok) (effScatter q s)

/-- PREFETCH: its start is its commit point (R252). -/
def effPrefetch (q : QRef) (s : State) : State :=
  match s.ready q 0x48 with
  | none => s
  | some c =>
    let w := s.runWho q c.run
    let k := s.xferWalk w c.eff []
    match k.2 with
    | some f => k.1.fail q c f
    | none => ((k.1.beginWork q c).prefetchWork w c.eff).commitRun q c

def execPrefetch (q : QRef) (s : State) : Host.Outcome State Fault Refusal := carryOut (q.ok) (effPrefetch q s)

/-- FLUSH_RANGE (R274): every flush and write-back leaves; the acknowledgements are awaited. -/
def effFlushRange (q : QRef) (s : State) : State :=
  match s.ready q 0x49 with
  | none => s
  | some c =>
    let w := s.runWho q c.run
    let k := s.xferWalk w c.eff []
    match k.2 with
    | some f => k.1.fail q c f
    | none =>
      let s := (k.1.beginWork q c).flushN w c.run (xRowBytes c.eff / 512 + 2) (xSrc c.eff) (xRowBytes c.eff)
      s.modRun c.run fun r => { r with phase := .workDone }

def execFlushRange (q : QRef) (s : State) : Host.Outcome State Fault Refusal := carryOut (q.ok) (effFlushRange q s)

/-! ### Write combining (R236, R237) -/

/-- Bytes of a table, rising, as runs of neighbouring bytes. -/
def segments : List (Nat × W8) → List (Nat × Bytes)
  | [] => []
  | (a, b) :: r =>
    match segments r with
    | (a', bs) :: t => if a' = a + 1 then (a, b :: bs) :: t else (a, [b]) :: (a', bs) :: t
    | [] => [(a, [b])]

/-- The accesses of an entry's owner. -/
def State.wcbWho (s : State) (e : Wcb) : Who :=
  match s.run? e.run with
  | some r => { s.who r.q with run := if e.pinned then 0 else e.run, pinned := e.pinned, id := e.run }
  | none => { q := { core := 0, eng := 4, q := 0 }, part := e.part, cid := e.cid, site := e.site, pinned := e.pinned }

/-- Flushes an entry with its hint: into the tentative line that its run has taken for it, or as a performed write (R233,
R237). -/
def State.flushWcb (s0 : State) (e : Wcb) : State :=
  let w := s0.wcbWho e
  let s := s0.withArc fun a => { a with wcb := eraseFirst (fun x => x == e) a.wcb }
  let r := (segments e.bytes).foldl (fun (acc : State × MRes Unit) g =>
    match acc.2 with
    | .ok _ => if e.pinned then acc.1.writePa w g.1 g.2 e.hint else acc.1.writeTent w g.1 g.2 e.hint
    | _ => acc) (s, .ok ())
  match r.2 with
  | .ok _ => r.1
  | .wait => s0
  | .err code a _ =>
    match r.1.cmdOfRun e.run with
    | some (q, c) => r.1.fail q c (failOf code a false)
    | none => r.1

/-- The `idx`-th open entry of a site's buffer. -/
def State.wcbAt (s : State) (site idx : Nat) : Option Wcb := (s.arc.wcb.filter fun e => e.site = site)[idx]?

/-- WCB_AGE_EXPIRY: 2,048 slice cycles after the first store. -/
def effWcbAgeExpiry (site idx : Nat) (s : State) : State :=
  match s.wcbAt site idx with
  | some e => (s.sat (arcWcbStat site) 32 32 1).flushWcb e
  | none => s

def execWcbAgeExpiry (site idx : Nat) (s : State) : Host.Outcome State Fault Refusal :=
  carryOut (decide (site < Config.sites)) (effWcbAgeExpiry site idx s)

/-- WCB_PARITY_ERROR: a detection. A repeatable run is killed and re-run; a pinned launch completes with
DATA_POISON. -/
def effWcbParityError (site idx : Nat) (s : State) : State :=
  match s.wcbAt site idx with
  | none => s
  | some e =>
    let s := s.withArc fun a => { a with wcb := eraseFirst (fun x => x == e) a.wcb }
    match s.cmdOfRun e.run with
    | none => s
    | some (q, c) =>
      if e.pinned then (s.qReport q 0x01 stDataPoison sevPoison 3 (hTag c.raw)).fail q c { code := stDataPoison }
      else
        let s := s.qReport q 0x01 stRecomputed sevRecomputed 3 (hTag c.raw)
        ((s.killRun e.run).requeue q c).refreshQ q

def execWcbParityError (site idx : Nat) (s : State) : Host.Outcome State Fault Refusal :=
  carryOut (decide (site < Config.sites)) (effWcbParityError site idx s)

/-! ### Archive parity (R247) -/

def State.archiveReport (s : State) (site sector sev : Nat) (part : Nat) : State :=
  s.report { cls := 0x03, site := site, unit := 0, status := 0, sev := sev, reporter := site, part := some part
             addr := BitVec.ofNat 64 (sector * 128) }

/-- ARCHIVE_PARITY_ERROR: a clean sector is invalidated and fetched again, a dirty one poisoned. A clean sector of a line
outside the panel is fetched again by its next reader. -/
def effArchiveParityError (site sector : Nat) (s : State) : State :=
  let bit := 1 <<< (sector % 4)
  match s.line? site (sector / 4) with
  | none => s
  | some l =>
    if (l.valid ||| l.dirty) &&& bit = 0 then s
    else if l.dirty &&& bit = 0 then
      let y := { l with valid := l.valid &&& (15 - bit), poison := l.poison &&& (15 - bit) }
      let s := if y.valid = 0 && y.dirty = 0 then s.dropLine site l.line else s.withArc fun a => a.modLine site l.line fun _ => y
      let s := (s.sat (arcErrStat site) 0 16 1).archiveReport site sector sevCorrected l.part
      if isOut (sector * 128) then s else s.request .rdS site l.line l.part 0 bit 0#512 l.hint
    else (s.poisonTag site sector).archiveReport site sector sevPoison l.part

def execArchiveParityError (site sector : Nat) (s : State) : Host.Outcome State Fault Refusal :=
  carryOut (decide (site < Config.sites)) (effArchiveParityError site sector s)

/-! ### The stacks (R245, R246, R250, R251) -/

/-- The refresh band at a temperature: it rises at 85 and 95 degrees, and falls 2 degrees below. -/
def refreshBand (old t : Nat) : Nat :=
  if 95 ≤ t then 2
  else if 85 ≤ t then (if old = 2 ∧ 93 < t then 2 else 1)
  else if 83 < t then (if 1 ≤ old then 1 else 0)
  else 0

/-- HBM_TEMP_POLL. -/
def effHbmTempPoll (site ctl temp : Nat) (s : State) : State :=
  let k := hbmStack site ctl
  let s := (s.setFld k 0 8 (min 255 temp)).setTemp (sensorKey (.stack site ctl)) temp
  if s.bit k 10 then
    let s := s.setFld k 8 2 (if 95 ≤ temp then refreshBand (s.fld k 8 2) temp else 0)
    if 85 ≤ temp then s.setBit k 11 true else if temp < 83 then s.setBit k 11 false else s
  else s.setFld k 8 2 (refreshBand (s.fld k 8 2) temp)

def execHbmTempPoll (site ctl temp : Nat) (s : State) : Host.Outcome State Fault Refusal :=
  carryOut (decide (site < Config.sites) && decide (ctl < 2)) (effHbmTempPoll site ctl temp s)

/-- SCRUB_READ: a line is read, up to three times (R247, R250, R251): `fails` reads of it fail, and `otherFails` reads of
its mirror copy, all three where the stored check does not match. What has failed three times does not match its check
any more; which bits are wrong the spec leaves open. -/
def effScrubRead (line fails otherFails : Nat) (s : State) : State :=
  let pa := line * 512
  if !isHbm pa then s
  else
    let k := hbmErr (homeOf pa) (stackOf pa)
    let s := if (pa + 512) % 2 ^ 36 = 0 then s.sat k 32 16 1 else s
    let fails := max (min 3 fails) (s.failsOf line)
    let otherFails := max (min 3 otherFails) (((s.otherCopy line).map s.failsOf).getD 0)
    let s := if fails < 3 || !s.arc.lineOk line then s
      else
        let f := s.freeNum
        f.1.withArc fun a => { a with checks := tset none a.checks line (some ((a.checkOf line + 1 + f.2 % (2 ^ 32 - 1)) % 2 ^ 32)) }
    s.stackCheck line fails otherFails

def execScrubRead (line fails otherFails : Nat) (s : State) : Host.Outcome State Fault Refusal :=
  carryOut true (effScrubRead line fails otherFails s)

end Sys2Proof.Machine
end

