-- ==== Sys2Proof/Machine/Threads.lean ====
section
/-!
DEFINITION. The thread engine (04_thread_engine R85-R118): launches, blocks and groups, divergence and
reconvergence, barriers, waits, faults, and how an instruction issues.
-/

namespace Sys2Proof.Machine

def State.grp? (s : State) (g : GRef) : Option Group := tget none (s.te g.core).groups g.slot
def State.setGrp (s : State) (g : GRef) (x : Option Group) : State :=
  s.setTe g.core { s.te g.core with groups := tset none (s.te g.core).groups g.slot x }
def State.blk? (s : State) (core b : Nat) : Option Block := tget none (s.te core).blocks b
def State.setBlk (s : State) (core b : Nat) (x : Option Block) : State :=
  s.setTe core { s.te core with blocks := tset none (s.te core).blocks b x }

/-- The groups of a block: their slots and what stands there. -/
def State.groupsOf (s : State) (core blk : Nat) : List (Nat × Group) :=
  (s.te core).groups.filterMap fun e => match e.2 with
    | some g => if g.blk = blk then some (e.1, g) else none
    | none => none

/-- Threads that have not exited. -/
def Group.live (g : Group) : BitVec 64 := ~~~g.exited

/-! ### Reconvergence (R99, R101) -/

def Group.entry (g : Group) (id : Nat) : Option Recon := g.recon.find? fun e => e.id = id

/-- The entry of a number and the entries it lies under, innermost first. -/
def Group.chainN (g : Group) : Nat → Nat → List Recon
  | 0, _ => []
  | n + 1, id => match g.entry id with
    | some e => e :: g.chainN n e.parent
    | none => []
def Group.chain (g : Group) (id : Nat) : List Recon := g.chainN 33 id

def Group.modEntry (g : Group) (id : Nat) (f : Recon → Recon) : Group :=
  { g with recon := g.recon.map fun e => if e.id = id then f e else e }

/-- A path of an entry still waits at a MEET, is still to be resumed, or runs under a deeper entry. -/
def Group.pendingUnder (g : Group) (id : Nat) : Bool :=
  ((g.meets ++ g.resume).any fun p => p.mask &&& g.live != 0#64 && (g.chain p.under).any fun e => e.id = id)
    || g.recon.any fun f => f.id ≠ id && (g.chain f.parent).any fun e => e.id = id

/-- The target path of an entry runs next. -/
def Group.runTarget (g : Group) (e : Recon) : Group :=
  { g.modEntry e.id (fun e => { e with tgtMask := 0#64 }) with active := e.tgtMask &&& g.live, pc := e.tgt, under := e.id }

/-- The next path to resume after a barrier. -/
def Group.nextResume (g : Group) : Option Group :=
  match g.resume.dropWhile fun p => p.mask &&& g.live == 0#64 with
  | [] => none
  | p :: r => some { g with active := p.mask &&& g.live, pc := p.pc, under := p.under, resume := r }

/-- What a group with no running path does next: the target path of the innermost entry, the continuation
at its reconvergence address once nothing of it is pending, the target path of an outer entry whose
fall-through threads all wait, or a path to resume. None: it waits, or it has exited. -/
def Group.nextPath (g : Group) : Option Group :=
  let c := g.chain g.under
  match c.find? fun e => e.tgtMask &&& g.live != 0#64, c.head? with
  | some e, some h =>
    if e.id = h.id then some (g.runTarget e)
    else if g.pendingUnder h.id then some (g.runTarget e)
    else some { g with active := h.joined &&& g.live, pc := h.rcv, under := h.parent, recon := g.recon.filter fun x => x.id ≠ h.id }
  | none, some h =>
    if g.pendingUnder h.id then g.nextResume
    else some { g with active := h.joined &&& g.live, pc := h.rcv, under := h.parent, recon := g.recon.filter fun x => x.id ≠ h.id }
  | _, none => g.nextResume

/-- Carries the group on to a path that can issue. -/
def Group.settleN : Nat → Group → Group
  | 0, g => g
  | n + 1, g =>
    if g.active != 0#64 then
      match g.entry g.under with
      | some e =>
        if g.pc = e.rcv then
          ({ g.modEntry e.id (fun e => { e with joined := e.joined ||| g.active }) with active := 0#64 } : Group).settleN n
        else g
      | none => g
    else if g.live == 0#64 then { g with recon := [], meets := [], resume := [] }
    else match g.nextPath with
      | some g => g.settleN n
      | none => g
def Group.settle (g : Group) : Group := g.settleN 200

/-! ### Faults (R115, R116, R165, R166) -/

/-- The launch of a core's thread engine fails with a code. -/
def State.failLaunch (s : State) (core : Nat) (f : Fail) : State :=
  match (s.te core).launch with
  | none => s
  | some l => match s.cmdOfRun l.run with
    | some (q, c) => s.fail q c f
    | none => s

/-- A thread's fault: TEX_FAULT records the first, the launch fails, and its record carries the code. A
code that is no thread fault (poison, a lost site, a footprint) is not recorded. -/
def State.threadFault (s : State) (core slot blk : Nat) (pc : W64) (lane code : Nat) (addr : Option (Nat × Bool)) : State :=
  let k := texB core + 0x38
  let s := if !killsContext code then s
    else if s.bit k 8 then s.sat k 32 16 1
    else
      let s := s.setReg k (BitVec.ofNat 64 (code + 2 ^ 8 + slot % 64 * 2 ^ 9 + lane % 64 * 2 ^ 15 + blk % 16 * 2 ^ 21))
      let s := s.setReg (k + 8) (BitVec.ofNat 64 (pc.toNat % 2 ^ 55))
      match addr with
      | some (a, _) => s.setReg (k + 16) (BitVec.ofNat 64 (a % 2 ^ 55 + 2 ^ 63))
      | none => s.setReg (k + 16) 0#64
  s.failLaunch core { code := code, detail := addr }

/-- A fault of the instruction that a group issues. -/
def State.instrFault (s : State) (g : GRef) (grp : Group) (lane code : Nat) (addr : Option (Nat × Bool)) : State :=
  s.threadFault g.core g.slot grp.blk grp.pc lane code addr

/-- A fault found at decode, recorded at the lowest-numbered active lane (R166). -/
def State.decodeFault (s : State) (g : GRef) (grp : Group) (code : Nat) : State :=
  s.instrFault g grp (firstLane grp.active) code none

/-- An access fault of a lane: poison and a lost site end the launch, the others are thread faults. -/
def State.accessFault (s : State) (g : GRef) (grp : Group) (f : Nat × Nat × Option Nat) (ls : Bool) : State :=
  if killsContext f.2.1 then s.instrFault g grp f.1 f.2.1 (f.2.2.map fun a => (a, ls)) else s.failLaunch g.core { code := f.2.1 }

/-! ### Checks of a global access (R126, R141, R166, R308) -/

/-- First byte of the local-store allocation of a block, and its size. -/
def allocOf (l : Launch) (b : Block) : Nat × Nat := (l.arenaBase + b.arena * l.lsBlock * 4096, l.lsBlock * 4096)

/-- Offsets of the local store lie wholly within the block's allocation (R141). -/
def inAlloc (l : Launch) (b : Block) (off n : Nat) : Bool :=
  decide (l.lsBlock ≠ 0) && decide ((allocOf l b).1 ≤ off) && decide (off + n ≤ (allocOf l b).1 + (allocOf l b).2)

/-- A piece of an access: a checked physical address and a length. -/
abbrev Piece := Nat × Nat

/-- The check of one piece after translation (R141, R201, R227, R238, R249). A request to another core's window is judged
by the rows of R227 first: an inactive slot is CORE_LOST, whatever the access (R22). -/
def State.pieceOk (s : State) (w : Who) (l : Launch) (b : Block) (k : Acc) (pa n : Nat) : Option Nat :=
  if isWin pa then
    if winSlot pa = s.coreSlotIx w.q.core then
      (if k = .atomic then some stProtection else if inAlloc l b (winOffset pa) n then none else some stProtection)
    else match s.winRefuse w.part w.cid (winSlot pa) (winOffset pa) n with
      | some c => some c
      | none => if k = .atomic ∨ (k = .write ∧ w.run ≠ 0) then some stProtection else none
  else if k = .atomic ∧ isHostWin pa then some stProtection
  else if (k = .atomic ∨ k = .write) ∧ isHbm pa ∧ s.mirrorB pa then some stProtection
  else none

/-- The first address of an access whose page raises TRANSLATION_FAULT: it comes before a PROTECTION_FAULT of an earlier
page (R141, R166, R308). -/
def State.unmapped (s : State) (w : Who) (k : Acc) : Nat → Nat → Nat → Option Nat
  | 0, _, _ => none
  | fuel + 1, va, n =>
    if n = 0 then none
    else match s.translate w k va with
      | .error e => if e.code = stTranslation then some va else s.unmapped w k fuel (va + pieceLen va n) (n - pieceLen va n)
      | .ok _ => s.unmapped w k fuel (va + pieceLen va n) (n - pieceLen va n)

/-- Translates and checks the pages of an access in turn: its pieces, or the code and address of the first fault. -/
def State.pagesOk (s : State) (w : Who) (l : Launch) (b : Block) (k : Acc) : Nat → Nat → Nat → List Piece → State × Except (Nat × Nat) (List Piece)
  | 0, _, _, acc => (s, .ok acc)
  | fuel + 1, va, n, acc =>
    if n = 0 then (s, .ok acc)
    else
      let m := pieceLen va n
      let t := s.xlat w k va
      match t.2 with
      | .error e => (t.1, .error (e.code, va % 2 ^ 55))
      | .ok x =>
        match t.1.pieceOk w l b k x.pa m with
        | some c => (t.1.refuse w k va c x, .error (c, va % 2 ^ 55))
        | none => t.1.pagesOk w l b k fuel (va + m) (n - m) (acc ++ [(x.pa, m)])

/-- Translates and checks a global access: its pieces, or the code and address of the first fault. -/
def State.gpieces (s : State) (w : Who) (l : Launch) (b : Block) (k : Acc) (va n : Nat) : State × Except (Nat × Nat) (List Piece) :=
  match s.unmapped w k (n / 65536 + 2) va n with
  | some a => ((s.xlat w k a).1, .error (stTranslation, a % 2 ^ 55))
  | none => s.pagesOk w l b k (n / 65536 + 2) va n []

/-! ### Issue (R87, R93, R106) -/

/-- The 8 bytes of an instruction at an address are translated and checked as a fetch (R128, R141, R166): the code of their
fault, if any, or of the poison or the lost home that they meet. -/
def State.fetchAt (s : State) (w : Who) (l : Launch) (b : Block) (va : Nat) : State × Option Nat :=
  let p := s.gpieces w l b .fetch va 8
  match p.2 with
  | .error f => (p.1, some f.1)
  | .ok ps => ps.foldl (fun (acc : State × Option Nat) x =>
    if acc.2.isSome || !isHbm x.1 then acc else acc.1.poisonRead w x.1 x.2) (p.1, none)

/-- The words of an instruction are fetched, both of a 16-byte one of the table (R128). -/
def State.fetchWords (s : State) (k : Who) (l : Launch) (b : Block) (va : Nat) (w : W64) : State × Option Nat :=
  let x := s.fetchAt k l b va
  if x.2.isNone && fL w && folioOpcodes.contains (fOpc w) then x.1.fetchAt k l b (va + 8) else x

/-- An instruction issues in a group that has a running path and waits for nothing. Its words come with the command; their
addresses are fetched, and a fault or poison there stops the launch. -/
def State.issue (s : State) (g : GRef) (w : W64) (k : State → Launch → Block → Group → State) : State :=
  match (s.te g.core).launch, s.grp? g with
  | some l, some grp =>
    match s.blk? g.core grp.blk with
    | none => s
    | some b =>
      if grp.active == 0#64 || grp.waitc.isSome || decide (grp.await ≠ 0) then s
      else
        let y := s.fetchWords (s.runWho l.q l.run) l b grp.pc.toNat w
        match y.2 with
        | some code => y.1.accessFault g grp (firstLane grp.active, code, some grp.pc.toNat) false
        | none =>
          let s := y.1.bump (texB g.core + 0x60) 0 48 1
          if !folioOpcodes.contains (fOpc w) then s.decodeFault g grp stIllegal else k s l b grp
  | _, _ => s

/-- The group after an instruction, with its next path. -/
def State.putGrp (s : State) (g : GRef) (grp : Group) : State := s.setGrp g (some grp.settle)

/-- The group goes on at the next instruction. -/
def State.nextPc (s : State) (g : GRef) (grp : Group) (w : W64) : State := s.putGrp g { grp with pc := grp.pc + fLen w }

/-- An instruction that works on registers alone. -/
def State.alu (s : State) (g : GRef) (w w1 : W64) (f : FExec) : State :=
  s.issue g w fun s l _ grp =>
    match f w w1 { g := grp, vregs := l.vregs, sr := s.reg (texB g.core + 0x50), free := s.free } with
    | .error code => s.decodeFault g grp code
    | .ok y =>
      let s := ({ s with free := y.free } : State).setReg (texB g.core + 0x50) y.sr
      let s := s.modRun l.run fun r => { r with sat := r.sat + y.sat, flushed := r.flushed + y.flushed
                                                inclOvf := r.inclOvf + y.inclOvf, invalid := r.invalid + y.invalid }
      s.nextPc g y.g w

/-- An instruction whose word must be legal. -/
def State.ctl (s : State) (g : GRef) (w : W64) (ok : Nat → Bool) (k : State → Launch → Block → Group → State) : State :=
  s.issue g w fun s l b grp => if ok l.vregs then k s l b grp else s.decodeFault g grp stIllegal

/-! ### LAUNCH (R89-R91, R93, R97) -/

/-- Resident blocks and groups, in TEX_STATUS. -/
def State.countResident (s : State) (core : Nat) : State :=
  let t := s.te core
  (s.setFld (texB core) 3 5 t.blocks.length).setFld (texB core) 8 7 t.groups.length

/-- The write-combining entries of a launch are flushed (R237). -/
def State.flushLaunch (s : State) (core : Nat) (l : Launch) : State :=
  let x := s.coreSite core
  let pinned := (s.run? l.run).any fun r => r.cls == 1
  let p := (s.corePart core).getD 0
  let mine := s.arc.wcb.filter fun e => e.site = x &&
    (if pinned then e.pinned && e.part = p && e.cid = s.qCid l.q else !e.pinned && e.run = l.run)
  mine.foldl (fun s e => s.flushWcb e) s

/-- The launch ends: L0 and Carrel are invalidated; a repeatable one has done its work, a pinned one
completes (R93, R110, R111, R118, R182). -/
def State.launchDone (s : State) (core : Nat) (l : Launch) : State :=
  let s := s.setTe core {}
  let s := s.countResident core
  match s.run? l.run, s.cmdOfRun l.run with
  | some r, some (q, c) =>
    if r.cls = 1 then
      let s := (s.flushLaunch core l).addFlash (texB core) r
      let st := if r.poisoned then stDataPoison else if r.siteLost then stSiteLost else okStatus c
      ((s.sendEvents q c).completeAt q c { code := st } r.timeSite r.time).advance q
    else s.modRun l.run fun r => { r with phase := .workDone }
  | _, _ => s

/-- LAUNCH. -/
def effLaunch (q : QRef) (s : State) : State :=
  match s.ready q opLaunch with
  | none => s
  | some c =>
    let d := c.eff
    let core := q.core
    let s := if tPool d = 0 then s else s.setPool core (tPool d - 1)
    let a := if tArgWords d = 0 then (s, .ok []) else s.readVa (s.runWho q c.run) .read (tArg d) (4 * tArgWords d) 0
    match a.2 with
    | .wait => a.1
    | .err code x ls => a.1.fail q c (failOf code x ls)
    | .ok bs =>
      let s := a.1.beginWork q c
      let l : Launch := { run := c.run, q := q, prog := tProg d, gridX := tGridX d, gridY := tGridY d, gridZ := tGridZ d
                          groups := tGroups d, vregs := tVregs d, lsBlock := tLsBlock d, arenaBase := tArenaBase d
                          arenaSize := tArenaSize d, maxBlocks := tMaxBlocks d
                          args := (words4 (tArgWords d) bs).map (BitVec.ofNat 32), rank := s.fld (queBcast q) 8 8 }
      let s := s.setTe core { launch := some l }
      if l.gridX * l.gridY * l.gridZ = 0 then s.launchDone core l else s

def execLaunch (q : QRef) (s : State) : Host.Outcome State Fault Refusal := carryOut (q.ok) (effLaunch q s)

/-! ### Blocks (R90-R95) -/

/-- Registers allocated per thread. -/
def Launch.rg (l : Launch) : Nat := 8 * ceilDiv l.vregs 8
def Launch.gpp (l : Launch) : Nat := min 8 (1024 / l.rg)
/-- Blocks resident at once (R94). -/
def Launch.maxResident (l : Launch) : Nat :=
  let b := min 16 (8 * l.gpp / l.groups)
  let b := if l.lsBlock = 0 then b else min b (l.arenaSize / (l.lsBlock * 4096))
  if l.maxBlocks = 0 then b else min b l.maxBlocks
def Launch.total (l : Launch) : Nat := l.gridX * l.gridY * l.gridZ

/-- The lowest number that a list does not hold. -/
def lowestFree (used : List Nat) : Nat := ((List.range (used.length + 1)).find? fun i => !used.contains i).getD 0

/-- Group slots that are taken on a pipe: slot 8 times pipe and up (DESIGN CHOICE, log entry 10). -/
def usedOn (taken : List Nat) (pipe : Nat) : List Nat := (taken.filter fun s => s / 8 = pipe).map (· % 8)

/-- Places the groups of a block one after another: each on the pipe with the most free positions (R95). -/
def placeGroups (gpp : Nat) : Nat → List Nat → List Nat
  | 0, taken => taken
  | n + 1, taken =>
    let best := (List.range 8).foldl (fun (b : Nat) p =>
      if (usedOn taken p).length < (usedOn taken b).length then p else b) 0
    if gpp ≤ (usedOn taken best).length then taken
    else placeGroups gpp n (taken ++ [best * 8 + lowestFree (usedOn taken best)])

/-- A group at its start (R91). -/
def startGroup (l : Launch) (core blk idx slot x y z : Nat) (lsOff : Nat) : Group :=
  let g : Group := { blk := blk, idx := idx, pipe := slot / 8, pc := BitVec.ofNat 64 l.prog, active := BitVec.allOnes 64 }
  let g := (List.range 64).foldl (fun (g : Group) t => g.wrV 0 t (BitVec.ofNat 32 (64 * idx + t))) g
  let us := [x, y, z, idx, l.rank, core, lsOff, 0].map (BitVec.ofNat 32) ++ l.args
  us.zipIdx.foldl (fun (g : Group) e => g.wrU e.2 e.1) g

/-- BLOCK_DISPATCH. -/
def effBlockDispatch (core : Nat) (s : State) : State :=
  let t := s.te core
  match t.launch with
  | none => s
  | some l =>
    if l.total ≤ l.next ∨ l.maxResident ≤ t.blocks.length then s
    else
      let taken := t.groups.map (·.1)
      let placed := (placeGroups l.gpp l.groups taken).drop taken.length
      if placed.length < l.groups then s
      else
        let b := lowestFree (t.blocks.map (·.1))
        let j := if l.lsBlock = 0 then 0 else lowestFree (t.blocks.filterMap fun e => e.2.map (·.arena))
        let x := l.next % l.gridX
        let y := l.next / l.gridX % l.gridY
        let z := l.next / l.gridX / l.gridY
        let s := s.setTe core { t with launch := some { l with next := l.next + 1 } }
        let s := s.setBlk core b (some { x := x, y := y, z := z, arena := j })
        let s := placed.zipIdx.foldl (fun (s : State) (slot, idx) =>
          s.setGrp { core := core, slot := slot } (some (startGroup l core b idx slot x y z (l.arenaBase + j * l.lsBlock * 4096)))) s
        s.countResident core

def execBlockDispatch (core : Nat) (s : State) : Host.Outcome State Fault Refusal :=
  carryOut (decide (core < Config.cores)) (effBlockDispatch core s)

/-- Writes of a pinned launch that are not performed yet: its MOPNs on their way, the REDUCE packets of its site that are
not acknowledged, and bytes of its partition that its slice does not hold writable (R93, R102, R145). -/
def State.writesPending (s : State) (core : Nat) (l : Launch) : Bool :=
  let x := s.coreSite core
  (s.run? l.run).any (fun r => r.cls == 1)
    && (!(s.atomsOf l.run).isEmpty || s.mesh.mopn.any (fun e => e.1 / 2 ^ 50 = x)
      || s.arc.mshrs.any fun m => m.site == x && m.wmask != 0#512 && m.part == (s.corePart core).getD 0)

/-- BLOCK_RETIRE: all groups have exited and all copies have completed. The last block of a pinned launch stays until the
launch's writes are performed, its write-combining entries flushed among them: the launch completes with it (R93; DESIGN
CHOICE, log entry 107). -/
def effBlockRetire (core blk : Nat) (s : State) : State :=
  match (s.te core).launch, s.blk? core blk with
  | some l, some b =>
    let gs := s.groupsOf core blk
    let f := s.flushLaunch core l
    if !b.copies.isEmpty || gs.any fun g => g.2.live != 0#64 then s
    else if l.retired + 1 = l.total ∧ (s.run? l.run).any (fun r => r.cls == 1) ∧ (f.te core).launch.isNone then f
    else if l.retired + 1 = l.total ∧ f.writesPending core l then f
    else
      let s := gs.foldl (fun (s : State) g => s.setGrp { core := core, slot := g.1 } none) s
      let s := s.setBlk core blk none
      let l := { l with retired := l.retired + 1 }
      let s := (s.setTe core { s.te core with launch := some l }).countResident core
      if l.retired = l.total then s.launchDone core l else s
  | _, _ => s

def execBlockRetire (core blk : Nat) (s : State) : Host.Outcome State Fault Refusal :=
  carryOut (decide (core < Config.cores) && decide (blk < 16)) (effBlockRetire core blk s)

/-! ### Barriers and waits (R101-R105) -/

/-- Threads of a group that wait at a MEET. -/
def Group.arrived (g : Group) : BitVec 64 := g.meets.foldl (fun a p => a ||| p.mask) 0#64

/-- Paths in increasing order of their addresses. -/
def insertPath (p : MeetPath) : List MeetPath → List MeetPath
  | [] => [p]
  | q :: r => if p.pc.toNat < q.pc.toNat then p :: q :: r else q :: insertPath p r

/-- MEET_COMPLETE: every live thread of the block has arrived, and what a pinned launch wrote before the barrier is
performed (R102). -/
def effMeetComplete (core blk : Nat) (s : State) : State :=
  match s.blk? core blk, (s.te core).launch with
  | some b, some l =>
    let gs := s.groupsOf core blk
    if s.writesPending core l then s
    else if gs.all (fun g => g.2.live &&& ~~~g.2.arrived == 0#64) && gs.any (fun g => g.2.arrived != 0#64) then
      let s := s.setBlk core blk (some { b with gen := b.gen + 1, races := [] })
      gs.foldl (fun (s : State) (slot, g) =>
        let sorted := g.meets.foldl (fun l p => insertPath p l) []
        let g := { g with resume := sorted.map (fun p => { p with pc := p.pc + 8#64 }), meets := [] }
        let s := s.putGrp { core := core, slot := slot } g
        s.setTe core ((s.te core).dropL0 g.pipe)) s
    else s
  | _, _ => s

def execMeetComplete (core blk : Nat) (s : State) : Host.Outcome State Fault Refusal :=
  carryOut (decide (core < Config.cores) && decide (blk < 16)) (effMeetComplete core blk s)

/-- The address that a live thread would issue next. -/
def Group.pcOf (g : Group) (lane : Nat) : W64 :=
  if g.active.getLsbD lane then g.pc
  else match g.resume.find? fun p => p.mask.getLsbD lane with
    | some p => p.pc
    | none => match g.recon.find? fun e => e.tgtMask.getLsbD lane with
      | some e => e.tgt
      | none => match g.recon.find? fun e => e.joined.getLsbD lane with
        | some e => e.rcv
        | none => g.pc

/-- BARRIER_TIMEOUT: names the lowest live thread that has not arrived. -/
def effBarrierTimeout (core blk : Nat) (s : State) : State :=
  let gs := s.groupsOf core blk
  if gs.any fun g => g.2.arrived != 0#64 then
    match gs.find? fun g => g.2.live &&& ~~~g.2.arrived != 0#64 with
    | some (slot, g) =>
      let lane := firstLane (g.live &&& ~~~g.arrived)
      s.threadFault core slot blk (g.pcOf lane) lane stBarrierTimeout none
    | none => s
  else s

def execBarrierTimeout (core blk : Nat) (s : State) : Host.Outcome State Fault Refusal :=
  carryOut (decide (core < Config.cores) && decide (blk < 16)) (effBarrierTimeout core blk s)

/-- WAITC_TIMEOUT. -/
def effWaitcTimeout (g : GRef) (s : State) : State :=
  match s.grp? g with
  | some grp => match grp.waitc with
    | some (_, _, m, _) => s.threadFault g.core g.slot grp.blk grp.pc (firstLane m) stBarrierTimeout none
    | none => s
  | none => s

def execWaitcTimeout (g : GRef) (s : State) : Host.Outcome State Fault Refusal :=
  carryOut (g.ok) (effWaitcTimeout g s)

/-- The wait for a value of a counter has ended (R105). -/
def waitOver (ctr value : W32) : Bool := !(ctr - value).msb

def Block.ctr (b : Block) (k : Nat) : W32 := tget 0#32 b.ctrs k

/-- Waits of a block that its counters now satisfy end. -/
def State.endWaits (s : State) (core blk : Nat) : State :=
  match s.blk? core blk with
  | none => s
  | some b =>
    (s.groupsOf core blk).foldl (fun (s : State) (slot, g) => match g.waitc with
      | some (k, v, _, pc) =>
        if waitOver (b.ctr k) v then s.putGrp { core := core, slot := slot } { g with waitc := none, pc := pc } else s
      | none => s) s

/-- A counter rises by 1. -/
def State.raiseCtr (s : State) (core blk k : Nat) : State :=
  match s.blk? core blk with
  | none => s
  | some b => (s.setBlk core blk (some { b with ctrs := tset 0#32 b.ctrs k (b.ctr k + 1#32) })).endWaits core blk

/-- A pinned launch runs beyond its budget: a thread fault of every thread at once, recorded for the lowest resident group
slot and its lowest live lane (R115, R116); with no group resident it is recorded at the launch's PROG, slot 0 and lane 0
(DESIGN CHOICE, log entry 106). -/
def State.launchOverrun (s : State) (core : Nat) (l : Launch) : State :=
  match (s.te core).groups.findSome? fun e => e.2.map fun g => (e.1, g) with
  | some (slot, g) => s.threadFault core slot g.blk (g.pcOf (firstLane g.live)) (firstLane g.live) stPinnedOverrun none
  | none => s.threadFault core 0 0 (BitVec.ofNat 64 l.prog) 0 stPinnedOverrun none

/-- PINNED_OVERRUN (R215): the budget of a PATCH runs from its writes on (R193). -/
def effPinnedOverrun (q : QRef) (s : State) : State :=
  let prior := s.active q fun c => hClass c.raw = 1 && c.phase == .committed && (match s.run? c.run with
    | some r => r.cls == 1 && (r.phase == .workDone || (r.phase == .running && decide (hOpc c.raw ≠ opPatch)))
    | none => false)
  match prior with
  | some c => match (s.te q.core).launch with
    | some l => if l.run = c.run then s.launchOverrun q.core l else s.fail q c { code := stPinnedOverrun }
    | none => s.fail q c { code := stPinnedOverrun }
  | none => s

def execPinnedOverrun (q : QRef) (s : State) : Host.Outcome State Fault Refusal :=
  carryOut (q.ok) (effPinnedOverrun q s)

/-! ### Detection and parity (R113, R114) -/

/-- TE_DETECTION: a repeatable launch is re-run, and a second detection loses the C-die; a pinned one
completes with DATA_POISON. -/
def effTeDetection (core kind : Nat) (s : State) : State :=
  match s.engCmd core 4 with
  | none => s
  | some (id, q, c) =>
    let x := s.coreSite core
    let rep (st sev : Nat) (s : State) : State :=
      s.report { cls := 0x01, site := x, unit := s.coreSlot core * 8 + 4, status := st, sev := sev, reporter := x
                 part := s.corePart core, cid := s.qCid q, tag := hTag c.raw, eng := 4, q := q.q, aux := BitVec.ofNat 64 kind }
    if hClass c.raw = 1 then (rep stDataPoison sevPoison s).fail q c { code := stDataPoison }
    else if c.phase == .committed then s
    else
      let s := rep stRecomputed sevRecomputed s
      let s := (s.killRun id).requeue q c
      if c.detections = 0 then (s.modCmd q c fun c => { c with detections := 1 }).refreshQ q
      else s.cdieLost x 2 (s.coreSlot core)

def execTeDetection (core kind : Nat) (s : State) : Host.Outcome State Fault Refusal :=
  carryOut (decide (core < Config.cores) && decide (kind < 3)) (effTeDetection core kind s)

/-- L0_PARITY_ERROR: unit 0-7 is the L0 of a pipe, 8 the Carrel: refetched and logged CORRECTED. -/
def effL0ParityError (core unit : Nat) (s : State) : State :=
  let x := s.coreSite core
  let s := s.setTe core (if unit < 8 then (s.te core).dropL0 unit else (s.te core).dropCarrel)
  s.report { cls := 0x02, site := x, unit := s.coreSlot core * 8 + 4, status := 0, sev := sevCorrected, reporter := x
             part := s.corePart core }

def execL0ParityError (core unit : Nat) (s : State) : Host.Outcome State Fault Refusal :=
  carryOut (decide (core < Config.cores) && decide (unit < 9)) (effL0ParityError core unit s)

/-! ### TEX_CTRL -/

/-- CLR_FLASH. -/
def effTexClrFlash (core : Nat) (s : State) : State :=
  [0x10, 0x18, 0x20, 0x28].foldl (fun s o => s.setReg (texB core + o) 0#64) s

def execTexClrFlash (core : Nat) (s : State) : Host.Outcome State Fault Refusal :=
  carryOut (decide (core < Config.cores)) (effTexClrFlash core s)

/-- CLR_FAULT. -/
def effTexClrFault (core : Nat) (s : State) : State :=
  [0x38, 0x40, 0x48].foldl (fun s o => s.setReg (texB core + o) 0#64) s

def execTexClrFault (core : Nat) (s : State) : Host.Outcome State Fault Refusal :=
  carryOut (decide (core < Config.cores)) (effTexClrFault core s)

/-- CLR_PERF. -/
def effTexClrPerf (core : Nat) (s : State) : State :=
  (s.setReg (texB core + 0x58) 0#64).setReg (texB core + 0x60) 0#64

def execTexClrPerf (core : Nat) (s : State) : Host.Outcome State Fault Refusal :=
  carryOut (decide (core < Config.cores)) (effTexClrPerf core s)

end Sys2Proof.Machine
end

