-- ==== Sys2Proof/Machine/FolioMem.lean ====
section
/-!
DEFINITION. The Folio instructions that access memory (05_folio_instructions R139-R152): addresses and
checks of each lane, loads through L0 and Carrel, stores and write combining, atomics, ordering.
-/

namespace Sys2Proof.Machine

/-! ### Lanes and checks (R126, R140-R142, R148, R166) -/

/-- The lanes for which an access is made: those that take part, or the lowest active one under U. -/
def Group.accLanes (g : Group) (w : W64) : List Nat :=
  if fU w then (if g.takesU w then [firstLane g.active] else []) else lanesOf (g.takes w)

/-- The global accesses of an instruction, lane by lane: each with its pieces, or the first fault. `mis`
says that an address must be aligned to the size (R142). -/
def State.glanes (s : State) (w : Who) (l : Launch) (b : Block) (k : Acc) (mis : Bool) (n : Nat) :
    List (Nat × Nat) → List (Nat × List Piece) → State × Except (Nat × Nat × Option Nat) (List (Nat × List Piece))
  | [], acc => (s, .ok acc)
  | (lane, va) :: r, acc =>
    if mis && decide (va % n ≠ 0) then (s, .error (lane, stIllegal, none))
    else
      let t := s.gpieces w l b k va n
      match t.2 with
      | .error (c, a) => (t.1, .error (lane, c, some a))
      | .ok ps => t.1.glanes w l b k mis n r (acc ++ [(lane, ps)])

/-- The local-store accesses of an instruction: the first fault, if any. -/
def lsFault (l : Launch) (b : Block) (mis : Bool) (n : Nat) (as : List (Nat × Nat)) : Option (Nat × Nat × Option Nat) :=
  (as.find? fun a => (mis && decide (a.2 % n ≠ 0)) || !inAlloc l b a.2 n).map fun a =>
    if mis && decide (a.2 % n ≠ 0) then (a.1, stIllegal, none) else (a.1, stProtection, some a.2)

/-! ### L0 and Carrel (R110-R112, R229, R230, R283) -/

/-- A byte that a load returns: its value, or one of some former ones by a free choice. -/
def State.pickByte (s : State) (cands : List W8) (b : W8) : State × W8 :=
  if cands.isEmpty then (s, b)
  else
    let f := s.freeNum
    (f.1, (cands ++ [b]).getD (f.2 % (cands.length + 1)) b)

def ownKey (pipe pa : Nat) : Nat := pa * 8 + pipe

/-- An entry of a table of L0 lines or of Carrel sectors. -/
def stampAt (t : List (Nat × Nat)) (k : Nat) : Option Nat := (t.find? fun e => e.1 = k).map (·.2)

/-- The L0 of a pipe holds a line in a version that has seen a write. -/
def State.putL0 (s : State) (core pipe line time : Nat) : State :=
  let x := s.te core
  s.setTe core { x with l0 := tinsert (terase x.l0 (ownKey pipe line)) (ownKey pipe line) time }

/-- A version of a line held since a write: one up to the last write, by a free choice (R112). Where the slice holds a
line outside the panel no more, what was held since that write is read. -/
def State.pickTime (s : State) (w : Who) (since pa n : Nat) : State × Nat :=
  if isOut pa && (addrs pa n).any fun a => !s.outHeld w.site a then (s, since)
  else
    let f := s.freeNum
    (f.1, since + f.2 % ((s.te w.q.core).now - since + 1))

/-- A held line of L0 or sector of the Carrel can serve some bytes: of a line outside the panel, those that the slice
still holds or has held since. -/
def State.serves (s : State) (w : Who) (since pa n : Nat) : Bool :=
  !isOut pa || (addrs pa n).all fun a => s.outHeld w.site a || (s.te w.q.core).hist.any fun e => e.2.1 = a && decide (since < e.1)

/-- The bytes of one version. A byte that the pipe has stored since is its own (R110). -/
def State.versionOf (s : State) (w : Who) (own : Nat → Nat) (time pa n : Nat) : Bytes :=
  (addrs pa n).map fun a => (s.te w.q.core).valueAt (max time (own a)) a (s.byteAt w a)

/-- The pipe's own last write of a byte. -/
def TeX.ownAt (t : TeX) (pipe a : Nat) : Nat := tget 0 t.l0Own (ownKey pipe a)

/-- The bytes of one line for a load through the L0 of a pipe: a line not held is read through the slice; one held gives
all its bytes in one version, so that no unit is torn (R142, R283), or has been replaced and is read again. -/
def State.readL0 (s : State) (w : Who) (pipe hint pa n : Nat) : State × MRes Bytes :=
  let core := w.q.core
  let line := pa / 512
  match stampAt (s.te core).l0 (ownKey pipe line) with
  | none =>
    let r := s.readPa w pa n hint
    (match r.2 with
      | .ok _ => r.1.putL0 core pipe line (r.1.te core).now
      | _ => r.1, r.2)
  | some since =>
    let f := s.freeBit
    if f.2 && s.serves w since pa n then
      let t := f.1.pickTime w since pa n
      (t.1.putL0 core pipe line t.2, .ok (t.1.versionOf w ((t.1.te core).ownAt pipe) t.2 pa n))
    else
      let r := f.1.readPa w pa n hint
      (match r.2 with
        | .ok _ => r.1.putL0 core pipe line (r.1.te core).now
        | _ => r.1, r.2)

/-- The sets of a core's Carrel: 8 ways of 512-byte lines (R97, R229). -/
def State.carrelSets (s : State) (core : Nat) : Nat := 512 * s.fld (texB core + 0x30) 0 4

/-- The Carrel takes a sector, one line of a full set making room by a free choice. -/
def State.putCarrel (s : State) (core sec time : Nat) : State :=
  let x := s.te core
  let set (l : Nat) : Nat := Config.carrelHash l % s.carrelSets core
  let held := ((x.carrel.map fun e => e.1 / 4).eraseDups).filter fun l => set l = set (sec / 4)
  let f := s.freeNum
  let out := if held.contains (sec / 4) || decide (held.length < 8) then none else held[f.2 % 8]?
  f.1.setTe core { x with carrel := (sec, time) :: x.carrel.filter fun e => e.1 ≠ sec && some (e.1 / 4) ≠ out }

/-- The bytes of one sector for a load through the Carrel: one that hits leaves the slice alone, one that misses reads the
sector through it (R229). A Carrel of size 0 is bypassed, and the L0 with it (R230). -/
def State.readCarrel (s : State) (w : Who) (hint pa n : Nat) : State × MRes Bytes :=
  let core := w.q.core
  let sec := pa / 128
  if s.carrelSets core = 0 then s.readPa w pa n hint
  else
    match (stampAt (s.te core).carrel sec).filter fun t => s.serves w t pa n with
    | some since =>
      let t := s.pickTime w since pa n
      (t.1, .ok (t.1.versionOf w (fun _ => 0) t.2 pa n))
    | none =>
      let r := s.readPa w (sec * 128) 128 hint
      match r.2 with
      | .ok bs => (r.1.putCarrel core sec (r.1.te core).now, .ok ((bs.drop (pa % 128)).take n))
      | x => (r.1, x)

/-- A piece of an access cut at the multiples of a size. -/
def cutAt (unit : Nat) : Nat → Nat → Nat → List Piece
  | 0, _, _ => []
  | fuel + 1, pa, n => if n = 0 then [] else
    let m := min n (unit - pa % unit)
    (pa, m) :: cutAt unit fuel (pa + m) (n - m)

/-- Bytes outside the panel that are held neither above the slice, by the stamps of L0 or Carrel, nor by the slice are asked
for; true when nothing is missing. -/
def State.fetchMissing (s : State) (w : Who) (hint : Nat) (stamp : Nat → Option Nat) (whole : Bool) (ps : List Piece) : State × Bool :=
  (ps.flatMap fun p => if isOut p.1 then cutAt 128 (p.2 / 128 + 2) p.1 p.2 else []).foldl (fun (acc : State × Bool) p =>
    let x := if whole then (p.1 / 128 * 128, 128) else p
    if (stamp p.1).any (fun since => s.serves w since p.1 p.2) || (s.outMissing w x.1 x.2).isEmpty
        || s.arc.wbad.any (fun e => e.1 = wKey w.site p.1 / 128) then acc
    else (acc.1.fetchOut w (p.1 / 128) hint, false)) (s, true)

/-- What a load reads and nothing holds is asked for. -/
def State.fetchPieces (s : State) (w : Who) (pipe hint : Nat) (ro : Bool) (ps : List Piece) : State × Bool :=
  let t := s.te w.q.core
  s.fetchMissing w hint (fun pa =>
    if ro then (if s.carrelSets w.q.core = 0 then none else stampAt t.carrel (pa / 128)) else stampAt t.l0 (ownKey pipe (pa / 512)))
    (ro && decide (s.carrelSets w.q.core ≠ 0)) ps

/-! ### The local store under copies (R158) -/

/-- The source addresses of a byte that a copy in flight will write in the local store: one for each of its rows that
writes it. -/
def copySrcsOf (c : Copy) (off : Nat) : List Nat :=
  c.pieces.zipIdx.filterMap fun (ps, j) =>
    let at0 := c.dst + j * c.dstPitch
    if off < at0 ∨ at0 + c.rowBytes ≤ off then none
    else (ps.flatMap fun p => addrs p.1 p.2)[off - at0]?

/-- The earliest version of a byte that a copy may read: the one of its pipe's L0 at the issue, or that of the issue
itself; not one before the pipe's own write. -/
def Copy.from_ (c : Copy) (a : Nat) : Nat :=
  max ((stampAt c.l0 (ownKey (c.slot / 8) (a / 512))).getD c.issued) (tget 0 c.own (ownKey (c.slot / 8) a))

/-- A byte read from the local store: where a copy that is not yet counted writes it, its old value or
the new one (R158). -/
def State.lsByte (s : State) (w : Who) (b : Block) (off : Nat) : State × W8 :=
  let old := s.arc.rdLs (lsKey (s.coreSlotIx w.q.core) off)
  s.pickByte (b.copies.flatMap fun c => (copySrcsOf c off).flatMap fun a =>
    s.byteAt w a :: ((s.te w.q.core).hist.filter fun e => e.2.1 = a && decide (c.from_ a < e.1)).map (·.2.2)) old

/-- Bytes of the local store read by a thread of a block. -/
def State.lsBytes (s : State) (w : Who) (b : Block) (off n : Nat) : State × Bytes :=
  (addrs off n).foldl (fun (acc : State × Bytes) a => let r := acc.1.lsByte w b a; (r.1, acc.2 ++ [r.2])) (s, [])

/-- Every earlier local-store write of a group is done (R145): a LOPR of another pipe no longer races with it. -/
def State.lsDone (s : State) (core blk pipe : Nat) : State :=
  match s.blk? core blk with
  | some b => if b.races.isEmpty then s else s.setBlk core blk (some { b with races := b.races.filter fun e => e.2.1 ≠ pipe })
  | none => s

/-- A pipe has written bytes of the local store. -/
def Block.raced (b : Block) (pipe : Nat) (t : List (Nat × Option W8)) : Block :=
  { b with races := b.races.filter (fun e => !t.any fun x => x.1 = e.1) ++ t.map fun x => (x.1, pipe, x.2) }

/-- The bytes that a LOPR reads: a STLS of another pipe that overlaps them may fall between its read and its write, by a
free choice, and is then lost (R150). -/
def State.loprBytes (s : State) (w : Who) (b : Block) (pipe off n : Nat) : State × Bytes :=
  let r := s.lsBytes w b off n
  let old (a : Nat) : Option W8 := (b.races.find? fun e => e.1 = a && decide (e.2.1 ≠ pipe)).bind (·.2.2)
  if (addrs off n).any fun a => (old a).isSome then
    let f := r.1.freeBit
    (f.1, if f.2 then r.2.mapIdx fun i x => (old (off + i)).getD x else r.2)
  else r

/-! ### Ordering (R144, R145, R151, R237, R288) -/

def relOf (w : W64) : Bool := decide (2 ≤ fOrd w)
def acqOf (w : W64) : Bool := decide (fOrd w % 2 = 1)

/-- The clean copies of host and remote memory in a slice are dropped. -/
def State.dropCleanOut (s : State) (site : Nat) : State :=
  (s.arc.lines.filter fun l => l.site == site && isOut (l.line * 512)).foldl (fun s l =>
    (List.range 4).foldl (fun s k => if nbit l.valid k && !nbit l.dirty k then s.dropOutSector site (l.line * 4 + k) else s) s) s

/-- The cache action of an acquire at a scope. -/
def State.acquire (s : State) (core pipe scope : Nat) : State :=
  if scope = 0 then s
  else
    let s := s.setTe core ((s.te core).dropL0 pipe)
    if scope = 4 then s.dropCleanOut (s.coreSite core) else s

/-- The lines of host and remote memory that a slice holds dirty. -/
def State.dirtyOut (s : State) (site : Nat) : List Nat :=
  (s.arc.lines.filter fun l => l.site == site && isOut (l.line * 512) && decide (l.dirty ≠ 0)).map (·.line)

/-- Some lines are written back for a launch (R145); a line that no port can carry fails: its status (R346, R354). -/
def State.wbLines (s : State) (site : Nat) (q : QRef) (lines : List Nat) : State × Option Nat :=
  lines.foldl (fun (acc : State × Option Nat) x =>
    let r := acc.1.wbLine site x (some q)
    (r.1, if r.2 then acc.2 else some (if isRemote (x * 512) then stProtection else stDataPoison))) (s, none)

/-- An instruction whose release or write-through meets no port: a thread fault, or the launch's poison. -/
def State.portFault (s : State) (g : GRef) (grp : Group) (lane code : Nat) : State := s.accessFault g grp (lane, code, none) false

/-- Before an access with release: the launch's write-combining entries are flushed, and what a pinned launch has written
is held writable by its slice; at SYSTEM the slice's dirty lines outside the panel are then written back, and every
write-back of the slice is acknowledged (R145, R237, R287). None: the instruction goes on; otherwise the state in which it
waits, or in which the launch has ended. -/
def State.releaseGate (s0 s : State) (g : GRef) (l : Launch) (grp : Group) (w : W64) : State × Option State :=
  if !relOf w || fScope w = 0 then (s, none)
  else
    let s := (s.flushLaunch g.core l).lsDone g.core grp.blk grp.pipe
    if (s.te g.core).launch.isNone then (s, some s)
    else if !((s.run? l.run).any fun r => r.cls == 1) then (s, none)
    else
      let site := s.coreSite g.core
      let w0 := s0.flushLaunch g.core l
      if s.writesPending g.core l then (s, some w0)
      else if fScope w ≠ 4 then (s, none)
      else if grp.relWait then (if s.siteWritesBack site then (s, some w0) else (s, none))
      else if (s.dirtyOut site).isEmpty && !s.siteWritesBack site then (s, none)
      else
        let r := w0.wbLines site l.q (s.dirtyOut site)
        match r.2 with
        | none => (s, some (r.1.setGrp g (some { grp with relWait := true })))
        | some code => (s, some (r.1.portFault g grp (firstLane grp.active) code))

/-- A SYSTEM acquire waits for what a SYSTEM release of the launch has sent (R288). -/
def State.acquireWaits (s : State) (l : Launch) (w : W64) : Bool := acqOf w && decide (fScope w = 4) && s.releasePending l.q

/-! ### Loads (R139, R142) -/

/-- The registers of a loaded value. -/
def loadWords (w : W64) (bs : Bytes) : List W32 :=
  let n := szBytes w
  if n ≤ 2 then
    [if fSub w = 1 then BitVec.ofInt 32 (sext (ofBytes bs) (8 * n)) else BitVec.ofNat 32 (ofBytes bs)]
  else (words4 (n / 4) bs).map (BitVec.ofNat 32)

/-- Writes the registers of a lane. -/
def Group.putWords (g : Group) (w : W64) (lane : Nat) (ws : List W32) : Group :=
  ws.zipIdx.foldl (fun (g : Group) e => if fU w then g.wrU (fD w + e.2) e.1 else g.wrV (fD w + e.2) lane e.1) g

def loadSub (sub size : Nat) : Bool := decide (sub = 0) || (decide (sub = 1) && decide (size ≤ 1))

/-- Reads one piece of a lane: of the own window in the local store, of another core's window there, else through L0 or
Carrel. -/
def State.readPiece (s : State) (who : Who) (b : Block) (pipe hint : Nat) (ro : Bool) (p : Piece) : State × MRes Bytes :=
  if isWin p.1 then
    if winSlot p.1 = s.coreSlotIx who.q.core then
      let r := s.lsBytes who b (winOffset p.1) p.2
      (r.1, .ok r.2)
    else s.readPa who p.1 p.2 hint
  else
    (cutAt (if ro then 128 else 512) (p.2 / 128 + 2) p.1 p.2).foldl (fun (acc : State × MRes Bytes) c =>
      match acc.2 with
      | .ok bs =>
        let r := if ro then acc.1.readCarrel who hint c.1 c.2 else acc.1.readL0 who pipe hint c.1 c.2
        (r.1, match r.2 with
          | .ok x => .ok (bs ++ x)
          | z => z)
      | _ => acc) (s, .ok [])

/-- Reads the pieces of a lane. -/
def State.readPieces (s : State) (who : Who) (b : Block) (pipe hint : Nat) (ro : Bool) (ps : List Piece) : State × MRes Bytes :=
  ps.foldl (fun (acc : State × MRes Bytes) p =>
    match acc.2 with
    | .ok bs =>
      let r := acc.1.readPiece who b pipe hint ro p
      (r.1, match r.2 with
        | .ok x => .ok (bs ++ x)
        | z => z)
    | _ => acc) (s, .ok [])

/-- LDM and LDRO. -/
def State.gload (s0 : State) (g : GRef) (w w1 : W64) (ro : Bool) : State :=
  let spec : MSpec := { u := true, ords := if ro then [0] else [0, 1], sub := loadSub }
  s0.ctl g w (fun v => spec.legal v w w1) fun s l b grp =>
    let who := s.runWho l.q l.run
    let n := szBytes w
    let as := (grp.accLanes w).map fun x => (x, grp.gaddr w w1 x)
    if s.acquireWaits l w then s0
    else
      let k := s.glanes who l b .read false n as []
      match k.2 with
      | .error f => k.1.accessFault g grp f false
      | .ok ps =>
        if ps.any fun e => e.2.any fun p => s.mopnHeld who p.1 p.2 then s0
        else
          let pr := s0.fetchPieces who grp.pipe (fHint w) ro (ps.flatMap (·.2))
          if !pr.2 then pr.1
          else
            let r := ps.foldl (fun (acc : State × Group × Option Nat) e =>
              if acc.2.2.isSome then acc
              else
                let x := acc.1.readPieces who b grp.pipe (fHint w) ro e.2
                match x.2 with
                | .ok bs => (x.1, acc.2.1.putWords w e.1 (loadWords w bs), none)
                | .err c _ _ => (x.1, acc.2.1, some c)
                | .wait => (x.1, acc.2.1, some 0)) (k.1, grp, none)
            match r.2.2 with
            | some 0 => s0
            | some c => r.1.failLaunch g.core { code := c }
            | none => (r.1.acquire g.core grp.pipe (if acqOf w then fScope w else 0)).nextPc g r.2.1 w

/-- LDLS. -/
def State.lload (s0 : State) (g : GRef) (w w1 : W64) : State :=
  let spec : MSpec := { u := true, global := false, ords := [0, 1], sub := loadSub }
  s0.ctl g w (fun v => spec.legal v w w1) fun s l b grp =>
    let who := s.runWho l.q l.run
    let n := szBytes w
    let as := (grp.accLanes w).map fun x => (x, grp.laddr w w1 x)
    if s.acquireWaits l w then s0
    else
      match lsFault l b false n as with
      | some f => s.accessFault g grp f true
      | none =>
        let r := as.foldl (fun (acc : State × Group) a =>
          let x := acc.1.lsBytes who b a.2 n
          (x.1, acc.2.putWords w a.1 (loadWords w x.2))) (s, grp)
        (r.1.acquire g.core grp.pipe (if acqOf w then fScope w else 0)).nextPc g r.2 w

/-! ### Stores (R146, R147, R236) -/

/-- The bytes that a lane stores. -/
def Group.storeBytes (g : Group) (w : W64) (lane : Nat) : Bytes :=
  ((List.range (szRegs w)).flatMap fun i => toBytes 4 (g.rdV (fD w + i) lane).toNat).take (szBytes w)

/-- Joins the bytes of a lane to those of earlier lanes: where they overlap, each aligned unit of 8 bytes
keeps the earlier value or takes the later one, by a free choice (R147). -/
def joinStore (free : Nat) (t : List (Nat × W8)) (pa : Nat) (bs : Bytes) : List (Nat × W8) :=
  bs.zipIdx.foldl (fun (acc : List (Nat × W8)) e =>
    let a := pa + e.2
    let u := a / 8
    let clash := (addrs pa bs.length).any fun x => x / 8 = u && t.any fun y => y.1 = x
    if clash && Config.freeBool (free + u % 4) && t.any (fun y => y.1 = a) then acc
    else tinsert (terase acc a) a e.1) t

/-- Cuts a byte list into the pieces of an access. -/
def cutPieces : List Piece → Bytes → List (Nat × Bytes)
  | [], _ => []
  | (pa, n) :: r, bs => (pa, bs.take n) :: cutPieces r (bs.drop n)

/-- All bytes that an instruction stores, rising by address. -/
def State.storeTable (s : State) (data : List (List Piece × Bytes)) : State × List (Nat × W8) :=
  data.foldl (fun (acc : State × List (Nat × W8)) e =>
    (cutPieces e.1 e.2).foldl (fun (acc : State × List (Nat × W8)) p =>
      ({ acc.1 with free := acc.1.free + 4 }, joinStore acc.1.free acc.2 p.1 p.2)) acc) (s, [])

/-- Bytes of a table by sector. -/
def bySector (t : List (Nat × W8)) : List (Nat × List (Nat × W8)) :=
  ((t.map fun e => e.1 / 128).eraseDups).map fun x => (x, t.filter fun e => e.1 / 128 = x)

/-- The owner of a write-combining entry matches an accessor. -/
def Wcb.mine (e : Wcb) (w : Who) (run sec : Nat) : Bool :=
  e.site == w.site && e.sector == sec && (if w.pinned then e.pinned && e.part == w.part && e.cid == w.cid else !e.pinned && e.run == run)

/-- Writes bytes of one sector past the write-combining buffer. -/
def State.writeSector (s : State) (w : Who) (t : List (Nat × W8)) (hint : Nat) : State × MRes Unit :=
  (segments t).foldl (fun (acc : State × MRes Unit) g =>
    match acc.2 with
    | .ok _ => if w.run = 0 then acc.1.writePa w g.1 g.2 hint else acc.1.writeTent w g.1 g.2 hint
    | _ => acc) (s, .ok ())

/-- The launches that can see a store keep the values of the bytes before it: those of the core for bytes of an entry
(R112). -/
def State.noteStore (s : State) (w : Who) (t : List (Nat × W8)) : State :=
  s.noteOld (fun c => c = w.q.core) (t.map fun e => (e.1, s.byteAt w e.1))

/-- Where a slice holds 64 entries, its oldest one is flushed for a new one. -/
def State.wcbRoom (s : State) (site : Nat) : State :=
  let open_ := s.arc.wcb.filter fun e => e.site = site
  match open_ with
  | e :: _ => if 64 ≤ open_.length then (s.sat (arcWcbStat site) 8 24 1).flushWcb e else s
  | [] => s

/-- Stores the bytes of one sector (R236, R237): into the open entry of the launch, past the buffer where they cover the
sector, or into a new entry, the oldest one making room. An entry has the hint of the last store (DESIGN CHOICE, log
entry 118). -/
def State.storeSector (s : State) (w : Who) (run sec : Nat) (t : List (Nat × W8)) (hint : Nat) (through : Bool) : State × MRes Unit :=
  if isWin (sec * 128) then (segments t).foldl (fun (acc : State × MRes Unit) g =>
    match acc.2 with
    | .ok _ => acc.1.writePa w g.1 g.2 hint
    | _ => acc) (s, .ok ())
  else
    match s.arc.wcb.find? fun e => e.mine w run sec with
    | some e =>
      let s := s.noteStore w t
      let e' := { e with bytes := t.foldl (fun b x => tinsert (terase b x.1) x.1 x.2) e.bytes, hint := hint }
      let s := s.withArc fun a => { a with wcb := a.wcb.map fun x => if x == e then e' else x }
      if e'.bytes.length = 128 || through then (s.flushWcb e', .ok ()) else (s, .ok ())
    | none =>
      if t.length = 128 || through then s.writeSector w t hint
      else
        let s' := s.wcbRoom w.site
        if 64 ≤ (s'.arc.wcb.filter fun e => e.site = w.site).length then (s', .wait)
        else
          let s' := s'.noteStore w t
          (s'.withArc fun a => { a with wcb := a.wcb ++ [{ site := w.site, sector := sec, run := run, pinned := w.pinned, part := w.part
                                                           cid := w.cid, bytes := t, hint := hint }] }, .ok ())

/-- Stores all sectors of an instruction. -/
def State.storeAll (s : State) (w : Who) (run : Nat) (t : List (Nat × W8)) (hint : Nat) (sys : Bool) : State × MRes Unit :=
  (bySector t).foldl (fun (acc : State × MRes Unit) e =>
    match acc.2 with
    | .ok _ => acc.1.storeSector w run e.1 e.2 hint (sys && isOut (e.1 * 128))
    | _ => acc) (s, .ok ())

/-- The tentative lines that a store of a run needs, those of its write-combining entries among them (DESIGN CHOICE, log
entry 99): the store itself then never waits. -/
def State.storeRoom (s : State) (w : Who) (ps : List Piece) : State × MRes Unit :=
  if w.run = 0 then (s, .ok ())
  else s.tentRoom w ((ps.filter fun p => !isWin p.1).flatMap fun p => linesOf p.1 p.2).eraseDups

/-- The pipe's L0 takes what its threads store. -/
def State.ownStore (s : State) (core pipe : Nat) (t : List (Nat × W8)) : State :=
  let x := s.te core
  s.setTe core { x with l0Own := t.foldl (fun o e => tset 0 o (ownKey pipe e.1) x.now) x.l0Own }

/-- The sectors outside the panel that a store with release at SYSTEM writes through: a port carries each of them, or the
status of the first that none carries (R288, R346, R354). -/
def State.throughFault (s : State) (w : Who) (ps : List Piece) : Option Nat :=
  (ps.find? fun p => isOut p.1 && (if isRemote p.1 then (s.keeperFor w.site ((p.1 - 2 ^ 58) / 2 ^ 46)).isNone
    else (s.hostPort (winHost p.1)).isNone)).map fun p => if isRemote p.1 then stProtection else stDataPoison

/-- STM. -/
def State.gstore (s0 : State) (g : GRef) (w w1 : W64) : State :=
  let spec : MSpec := { ords := [0, 2], sub := fun sub _ => decide (sub = 0) }
  s0.ctl g w (fun v => spec.legal v w w1) fun s l b grp =>
    let who := s.runWho l.q l.run
    let n := szBytes w
    let as := (grp.accLanes w).map fun x => (x, grp.gaddr w w1 x)
    let k := s.glanes who l b .write false n as []
    match k.2 with
    | .error f => k.1.accessFault g grp f false
    | .ok ps =>
      let rg := State.releaseGate s0 k.1 g l grp w
      match rg.2 with
      | some t => t
      | none =>
        let all := ps.flatMap (·.2)
        let sys := who.pinned && relOf w && decide (fScope w = 4)
        if all.any fun p => rg.1.mopnHeld who p.1 p.2 then s0
        else match (if sys then rg.1.throughFault who all else none) with
        | some code => rg.1.portFault g grp ((grp.accLanes w).headD 0) code
        | none =>
          let room := rg.1.storeRoom who all
          match room.2 with
          | .wait => (s0.storeRoom who all).1
          | .err c _ _ => room.1.failLaunch g.core { code := c }
          | .ok _ =>
            let tb := room.1.storeTable (ps.map fun e => (e.2, grp.storeBytes w e.1))
            let hint := if fHint w = 3 then 0 else fHint w
            let r := tb.1.storeAll who l.run tb.2 hint sys
            match r.2 with
            | .wait => s0
            | .err c _ _ => r.1.failLaunch g.core { code := c }
            | .ok _ =>
              if (r.1.te g.core).launch.isNone then r.1
              else
                let s := r.1.ownStore g.core grp.pipe tb.2
                let out := if sys then ((tb.2.map fun e => e.1 / 128).eraseDups).filter fun x => isOut (x * 128) else []
                (out.foldl (fun s x => (s.wbSector who.site (x * 128) (some l.q)).1) s).nextPc g { grp with relWait := false } w

/-- STLS. A LOPR of another pipe that overlaps it may write after it, by a free choice (R150). -/
def State.lstore (s0 : State) (g : GRef) (w w1 : W64) : State :=
  let spec : MSpec := { global := false, ords := [0, 2], sub := fun sub _ => decide (sub = 0) }
  s0.ctl g w (fun v => spec.legal v w w1) fun s l b grp =>
    let n := szBytes w
    let as := (grp.accLanes w).map fun x => (x, grp.laddr w w1 x)
    match lsFault l b false n as with
    | some f => s.accessFault g grp f true
    | none =>
      let rg := State.releaseGate s0 s g l grp w
      match rg.2 with
      | some t => t
      | none =>
        let tb := rg.1.storeTable (as.map fun a => ([(a.2, n)], grp.storeBytes w a.1))
        let ix := tb.1.coreSlotIx g.core
        let b := ((tb.1.blk? g.core grp.blk).getD b)
        let late (a : Nat) : Bool := b.races.any fun e => e.1 = a && decide (e.2.1 ≠ grp.pipe) && e.2.2.isNone
        let f := if tb.2.any fun e => late e.1 then tb.1.freeBit else (tb.1, false)
        let put := if f.2 then tb.2.filter fun e => !late e.1 else tb.2
        let olds := put.map fun e => (e.1, some (f.1.arc.rdLs (lsKey ix e.1)))
        let s := (segments put).foldl (fun (s : State) e => s.wrLs ix e.1 e.2) f.1
        (s.setBlk g.core grp.blk (some (b.raced grp.pipe olds))).nextPc g { grp with relWait := false } w

/-! ### Atomics (R149, R150, R326) -/

/-- Data registers of a memory operation: a compare-exchange names two operands. -/
def atomRegs (w : W64) : Nat := (szRegs w) * (if fSub w = 9 then 2 else 1)

/-- The operation of a lane at an address. -/
def Group.atomOf (g : Group) (w : W64) (lane addr : Nat) : AtomOp :=
  let n := szRegs w
  let val (i : Nat) : Nat := ((List.range n).map fun j => (g.rdV (fD w + i * n + j) lane).toNat * 2 ^ (32 * j)).sum
  let cas := decide (fSub w = 9)
  { sub := fSub w, size := szBytes w, addr := addr, val := BitVec.ofNat 64 (val (if cas then 1 else 0))
    cmp := if cas then BitVec.ofNat 64 (val 0) else 0#64 }

/-- The REDUCE packet of additions to the words of a mask of a sector: `data` holds the words in their places (R327). -/
def addPkt (site part cid dtype sector mask data : Nat) : RedPkt :=
  BitVec.ofNat 1408
    (homeOf (sector * 128) + part * 2 ^ 8 + dtype * 2 ^ 12 + 1 * 2 ^ 16 + cid * 2 ^ 32
      + mask * 2 ^ 96 + (sector * 128) * 2 ^ 128 + 2 ^ site * 2 ^ 256 + data * 2 ^ 384)

/-- The REDUCE packet of one MOPN (R326, R327). -/
def mopnPkt (site part cid : Nat) (op : AtomOp) : RedPkt :=
  let wd := op.addr / 4 % 32
  addPkt site part cid (if op.sub = 0xB then 1 else 0) (op.addr / 128) (2 ^ wd) ((op.val.toNat % 2 ^ 32) * 2 ^ (32 * wd))

/-- A REDUCE packet of additions leaves its site, whose slice counts it until it is acknowledged (R330). -/
def State.sendReduce (s : State) (site sector : Nat) (p : RedPkt) : State :=
  let k := mopnKey site sector
  { s with mesh := { s.mesh with
      mopn := tset 0 s.mesh.mopn k (tget 0 s.mesh.mopn k + 1)
      redOut := s.mesh.redOut ++ [(site, s.nextHop site (homeOf (sector * 128)), p)] } }

/-- A pinned MOPN leaves: as a REDUCE packet, to another panel, or to its home. `rel` says that it releases at SYSTEM. -/
def State.sendMopn (s : State) (who : Who) (run : Nat) (rel : Bool) (op : AtomOp) : State × Bool :=
  if isRemote op.addr then s.sendRemoteAtom who.site who.part who.cid op (.mopn run rel op.addr)
  else if op.sub = 0xA ∨ op.sub = 0xB then
    (s.sendReduce who.site (op.addr / 128) (mopnPkt who.site who.part who.cid op), true)
  else (s.sendAtom who op (.mopn run), true)

/-- The physical address of a lane's operation. -/
def pieceAddr (ps : List Piece) : Nat := (ps.headD (0, 0)).1

/-- An operation on an address is held by what its launch or its site has on the way to it: REDUCE packets not acknowledged
(R330), bytes of the launch in a write-combining entry, and, for an operation that does not take the same channel, its own
earlier MOPNs, since accesses of a thread to one address take effect in program order (R145). -/
def State.atomicHeld (s : State) (who : Who) (reduce : Bool) (op : AtomOp) : Bool :=
  s.reduceHeld who op.addr op.size
    || (who.pinned && (s.wcbBytes who).any fun e => decide (op.addr ≤ e.1) && decide (e.1 < op.addr + op.size))
    || (reduce && s.mopnHeld who op.addr op.size)

/-- An operation to another panel meets no route: no lane of its instruction is sent (R148, R354). -/
def State.unrouted (s : State) (who : Who) (op : AtomOp) : Bool :=
  isRemote op.addr && (s.keeperFor who.site ((op.addr - 2 ^ 58) / 2 ^ 46)).isNone

/-- MOPN. -/
def State.gmopn (s0 : State) (g : GRef) (w w1 : W64) : State :=
  let spec : MSpec := { ords := [0, 2], sub := subOk true false false, regs := atomRegs }
  s0.ctl g w (fun v => spec.legal v w w1) fun s l b grp =>
    let who := s.runWho l.q l.run
    let n := szBytes w
    let k := s.glanes who l b .atomic true n ((grp.accLanes w).map fun x => (x, grp.gaddr w w1 x)) []
    match k.2 with
    | .error f => k.1.accessFault g grp f false
    | .ok ps =>
      let rg := State.releaseGate s0 k.1 g l grp w
      match rg.2 with
      | some t => t
      | none =>
        let ops := ps.map fun e => (e.1, grp.atomOf w e.1 (pieceAddr e.2))
        if who.run ≠ 0 then
          let r := ops.foldl (fun (acc : State × Option Nat) op =>
            if acc.2.isSome then acc
            else
              let x := acc.1.logOp who op.2 (isRemote op.2.addr)
              (x.1, match x.2 with
                | .err c _ _ => some c
                | _ => none)) (rg.1, none)
          match r.2 with
          | some c => rg.1.accessFault g grp ((grp.accLanes w).headD 0, c, none) false
          | none => r.1.nextPc g { grp with relWait := false } w
        else
          match ops.find? fun op => rg.1.unrouted who op.2 with
          | some op => rg.1.portFault g grp op.1 stProtection
          | none =>
            if ops.any fun op => rg.1.atomicHeld who (decide (op.2.sub = 0xA ∨ op.2.sub = 0xB) && !isRemote op.2.addr) op.2 then s0
            else
              let rel := relOf w && decide (fScope w = 4)
              (ops.foldl (fun s op => (s.sendMopn who l.run rel op.2).1) rg.1).nextPc g { grp with relWait := false } w

/-- MOPR: the group goes on when every old value has come. -/
def State.gmopr (s0 : State) (g : GRef) (w w1 : W64) : State :=
  let spec : MSpec := { ords := [0, 1, 2, 3], sub := subOk false true false, regs := atomRegs }
  s0.ctl g w (fun v => spec.legal v w w1) fun s l b grp =>
    let who := s.runWho l.q l.run
    if !who.pinned then s.decodeFault g grp stIllegal
    else if s.acquireWaits l w then s0
    else
      let n := szBytes w
      let k := s.glanes who l b .atomic true n ((grp.accLanes w).map fun x => (x, grp.gaddr w w1 x)) []
      match k.2 with
      | .error f => k.1.accessFault g grp f false
      | .ok ps =>
        let rg := State.releaseGate s0 k.1 g l grp w
        match rg.2 with
        | some t => t
        | none =>
          let ops := ps.map fun e => (e.1, grp.atomOf w e.1 (pieceAddr e.2))
          match ops.find? fun op => rg.1.unrouted who op.2 with
          | some op => rg.1.portFault g grp op.1 stProtection
          | none =>
            if ops.any fun op => rg.1.atomicHeld who false op.2 then s0
            else
              let s := ops.foldl (fun s op =>
                let dest := AtomDest.lane g.core g.slot op.1 (fD w) l.run
                if isRemote op.2.addr then (s.sendRemoteAtom who.site who.part who.cid op.2 (.mopr dest)).1
                else s.sendAtom who op.2 dest) rg.1
              let acq := if acqOf w then fScope w else 0
              let s := if ps.isEmpty then s.acquire g.core grp.pipe acq else s
              s.nextPc g { grp with relWait := false, await := ps.length, acq := if ps.isEmpty then 0 else acq } w

/-- An old value reaches the lane that waits for it; an answer for a launch that has ended is dropped
(R117). A status other than OK ends the launch. -/
def State.deliverLane (s : State) (core slot lane reg run size : Nat) (old : W64) (code : Nat) : State :=
  let g : GRef := { core := core, slot := slot }
  match (s.te core).launch, s.grp? g with
  | some l, some grp =>
    if l.run ≠ run ∨ grp.await = 0 then s
    else if code ≠ 0 then s.failLaunch core { code := code }
    else
      let grp := grp.wrV reg lane (BitVec.ofNat 32 old.toNat)
      let grp := if size = 8 then grp.wrV (reg + 1) lane (BitVec.ofNat 32 (old.toNat / 2 ^ 32)) else grp
      let n := grp.await - 1
      let s := s.setGrp g (some { grp with await := n, acq := if n = 0 then 0 else grp.acq })
      if n = 0 then s.acquire core grp.pipe grp.acq else s
  | _, _ => s

/-- An order of some lanes, by free choices. -/
def State.anyOrder (s : State) (as : List (Nat × Nat)) : State × List (Nat × Nat) :=
  let ix := dealDraws as.length s.free (List.range as.length)
  ({ s with free := s.free + as.length }, ix.map fun i => as.getD i (0, 0))

/-- LOPR: the lanes' operations one at a time, in any order. -/
def State.llopr (s0 : State) (g : GRef) (w w1 : W64) : State :=
  let spec : MSpec := { global := false, ords := [0, 1, 2, 3], sub := subOk false false true, regs := atomRegs }
  s0.ctl g w (fun v => spec.legal v w w1) fun s l b grp =>
    let n := szBytes w
    let as := (grp.accLanes w).map fun x => (x, grp.laddr w w1 x)
    if s.acquireWaits l w then s0
    else
      match lsFault l b true n as with
      | some f => s.accessFault g grp f true
      | none =>
        let rg := State.releaseGate s0 s g l grp w
        match rg.2 with
        | some t => t
        | none =>
          let ix := rg.1.coreSlotIx g.core
          let o := rg.1.anyOrder as
          let who := s.runWho l.q l.run
          let r := o.2.foldl (fun (acc : State × Group) a =>
            let b := ((acc.1.blk? g.core grp.blk).getD b)
            let x := acc.1.loprBytes who b grp.pipe a.2 n
            let old := ofBytes x.2
            let s := x.1.wrLs ix a.2 (toBytes n (atomValue (grp.atomOf w a.1 a.2) old))
            let s := s.setBlk g.core grp.blk (some (b.raced grp.pipe ((addrs a.2 n).map fun o => (o, none))))
            (s, acc.2.putWords w a.1 ((words4 (szRegs w) (toBytes n old)).map (BitVec.ofNat 32)))) (o.1, grp)
          (r.1.acquire g.core grp.pipe (if acqOf w then fScope w else 0)).nextPc g { r.2 with relWait := false } w

/-! ### FENCE (R151) -/

/-- The word of a FENCE: only SCOPE and ORD beside the common fields. -/
def fenceLegal (w : W64) : Bool :=
  commonOk 0 w && !fL w && decide (fOrd w ≠ 0) && decide (fScope w ≤ 4)
    && decide (fldOf w 16 26 = 0) && decide (fldOf w 47 17 = 0)

def State.gfence (s0 : State) (g : GRef) (w : W64) : State :=
  s0.ctl g w (fun _ => fenceLegal w) fun s l _ grp =>
    if (grp.accLanes w).isEmpty then s.nextPc g grp w
    else
      let rg := State.releaseGate s0 s g l grp w
      match rg.2 with
      | some t => t
      | none =>
        if rg.1.acquireWaits l w then s0
        else (rg.1.acquire g.core grp.pipe (if acqOf w then fScope w else 0)).nextPc g { grp with relWait := false } w

end Sys2Proof.Machine
end

