-- ==== Sys2Proof/Machine/HostOps.lean ====
section
/-!
DEFINITION. The panel's accesses to hosts and the local-store windows (13_ring_links R340-R346,
08_archive_and_memory R227): the outcomes of an access, the loss of a port, and the rows of a completion,
of a host message and of a window request.
-/

namespace Sys2Proof.Machine

/-! ### Outcomes of an access to a host or to another panel (R346, R358) -/

/-- A write-back that a FLUSH_RANGE or a SYSTEM release waits for has failed: its command completes with
DATA_POISON. -/
def State.releaseFailed (s : State) (q : QRef) : State :=
  match (s.te q.core).launch with
  | some l =>
    if l.q = q then s.failLaunch q.core { code := stDataPoison }
    else s
  | none =>
    { s with runs := s.runs.map fun e => match e.2 with
        | some r => (e.1, if r.q = q && (r.phase == .running || r.phase == .workDone) then some { r with poisoned := true } else some r)
        | none => e }

/-- A sector of a slice's copies comes back with a completion status in place of its bytes. -/
def State.badSector (s : State) (site pa code : Nat) : State :=
  s.withArc fun a => { a with wbad := a.wbad ++ [(wKey site pa / 128, code)] }

/-- Bytes of a sector outside the panel come back and fill the slice's copy, with the hint of the access: bytes already
written win (R232, R233, R273). -/
def State.fillSector (s : State) (site pa part hint : Nat) (bs : Bytes) : State :=
  let line := pa / 512
  let bit := 1 <<< (pa / 128 % 4)
  if bs.length ≠ 128 then s
  else
    let s := match s.line? site line with
      | some _ => s.withArc fun a => a.modLine site line fun l => { l with valid := l.valid ||| bit }
      | none => s.allocLine { site := site, line := line, st := .S, valid := bit, dirty := 0, hint := 0, part := part } hint
    let mask := ((s.line? site line).map (·.mask)).getD 0#512
    s.withArc fun a => a.fillOut site pa mask bs

/-- An access to a host has succeeded. -/
def State.hostOk (s : State) (u : HostUse) (d : Bytes) : State :=
  match u with
  | .readLine site pa part hint => s.fillSector site pa part hint d
  | .record t va => s.recordAck t va
  | _ => s

/-- An access to a host has failed. -/
def State.hostFail (s : State) (u : HostUse) : State :=
  match u with
  | .readLine site pa _ _ => s.badSector site pa stDataPoison
  | .record t va => s.recordFail t va
  | .notify => s
  | .writeBack site pa part => s.evictLost site pa part
  | .release q _ => s.releaseFailed q

/-- The oldest access of a port with a tag. -/
def State.hostPend (s : State) (port tag : Nat) : Option (Nat × Nat × HostUse) :=
  s.host.pend.find? fun e => e.1 = port && e.2.1 = tag

def State.dropPend (s : State) (e : Nat × Nat × HostUse) : State :=
  { s with host := { s.host with pend := eraseFirst (fun x => x == e) s.host.pend } }

/-! ### Ring ports (R340, R341) -/

/-- The port leaves every route mask. -/
def State.unroute (s : State) (port : Nat) : State :=
  (s.regs.filterMap fun e =>
    if ringB 0 ≤ e.1 ∧ e.1 < ringB 24 ∧ 0x80000 ≤ (e.1 - ringB 0) % 0x100000 then some e.1 else none).foldl
    (fun s k => s.setBit k port false) s

/-- A port goes down with a cause: 0 the attached site is lost, 1 lane, 2 replay limit, 3 training. -/
def State.portDown (s : State) (port cause : Nat) : State :=
  if !s.bit (rngPort port) 6 then s
  else
    let role := s.fld (rngPort port) 0 2
    let s := (s.setBit (rngPort port) 6 false).setFld (rngPort port) 32 2 cause
    let site := ringSite (port / 2)
    let s := if cause = 0 then s
      else s.report { cls := 0x09, site := site, unit := port, status := 0, sev := sevCorrected, reporter := site, aux := BitVec.ofNat 64 cause }
    if role = 2 then s.unroute port
    else
      let mine := s.host.pend.filter fun e => e.1 = port
      mine.foldl (fun s e => (s.dropPend e).hostFail e.2.2) s

/-! ### Packets of a host (R344, R345) -/

/-- Reserved fields of a Quanyx header are 0. -/
def qRsvOk (h : QHdr) : Bool := decide (fldOf h 30 2 = 0) && decide (fldOf h 40 24 = 0) && decide (fldOf h 110 18 = 0)

/-- Counts a request that is refused or dropped. -/
def State.refused (s : State) (port : Nat) : State := s.sat (qhlStat port) 16 16 1

/-- Answers a request of a host. -/
def State.cplSend (s : State) (port : Nat) (h : QHdr) (status : Nat) (d : Bytes) : State :=
  { s with host := { s.host with out := s.host.out ++ [{ port := port, h := qHdr 3 (qTag h) d.length false status (qFn h) (qAddr h), d := d }] } }

/-- CPL (R346). -/
def effCpl (port : Nat) (h : QHdr) (d : Bytes) (s : State) : State :=
  if !qRsvOk h || decide (6 ≤ qStatus h) then s.refused port
  else match s.hostPend port (qTag h) with
    | none => s
    | some e => if qStatus h = 0 then (s.dropPend e).hostOk e.2.2 d else (s.dropPend e).hostFail e.2.2

def execCpl (port : Nat) (h : QHdr) (d : Bytes) (s : State) : Host.Outcome State Fault Refusal :=
  carryOut (decide (port < Config.ports)) (effCpl port h d s)

/-- HOST_ACCESS_TIMEOUT (R346). -/
def effHostAccessTimeout (port tag : Nat) (s : State) : State :=
  match s.hostPend port tag with
  | none => s
  | some e => (s.dropPend e).hostFail e.2.2

def execHostAccessTimeout (port tag : Nat) (s : State) : Host.Outcome State Fault Refusal :=
  carryOut (decide (port < Config.ports)) (effHostAccessTimeout port tag s)

/-- MSG: a host's message is dropped and counted (R345). -/
def effMsg (port : Nat) (s : State) : State := s.refused port

def execMsg (port : Nat) (_h : QHdr) (_d : Bytes) (s : State) : Host.Outcome State Fault Refusal :=
  carryOut (decide (port < Config.ports)) (effMsg port s)

/-! ### Local-store windows (R227) -/

/-- The port owns a partition: the partition's host is the port's (R347). -/
def State.portOwns (s : State) (port p : Nat) : Bool :=
  decide (s.partState p ≠ 0) && decide (s.fld (rngPort port) 0 2 = 1) && decide (s.partHost p = s.fld (rngPort port) 2 3)

/-- What a host's request of a window meets: refused, answered as a register hole (R7), counted in MAINT or
BEYOND, or performed. -/
inductive WinJudge where
  | hole | refused | maint (core : Nat) | beyond (core : Nat) | done
  deriving DecidableEq, Repr

def State.winJudge (s : State) (port slotIx off n : Nat) : WinJudge :=
  match s.slotCore (slotIx / 6) (slotIx % 6) with
  | none => .hole
  | some c =>
    if !((s.corePart c).any fun p => s.portOwns port p) then .refused
    else if s.maint c then .maint c
    else if s.lsSize c < off + n then .beyond c
    else .done

/-- The counter of a window request that is not performed. -/
def State.winCount (s : State) (j : WinJudge) : State :=
  match j with
  | .maint c => s.sat (coreLsStat c) 16 16 1
  | .beyond c => s.sat (coreLsStat c) 0 16 1
  | _ => s

/-- A host's read: none is refused. -/
def State.winRead (s : State) (port slotIx off n : Nat) : State × Option Bytes :=
  match s.winJudge port slotIx off n with
  | .refused => (s, none)
  | .done => (s, some (s.rdLs slotIx off n))
  | j => (s.winCount j, some (toBytes n 0))

/-- A host's write, of the bytes at some offsets; false is refused. -/
def State.winWrite (s : State) (port slotIx off n : Nat) (t : List (Nat × W8)) : State × Bool :=
  match s.winJudge port slotIx off n with
  | .refused => (s, false)
  | .done => (t.foldl (fun s e => s.wrLs slotIx e.1 [e.2]) s, true)
  | j => (s.winCount j, true)

/-- WINDOW_REQUEST: of a host port, or of the command that a queue runs. -/
def effWindowRequest (r : WinReq) (s : State) : State :=
  match r.host with
  | some port =>
    let h : QHdr := qHdr 0 r.tag r.len false 0 0 0
    if r.isWrite then
      let x := s.winWrite port r.slot r.off r.len (((addrs r.off r.len).zip r.data))
      if x.2 then x.1 else x.1.refused port
    else
      let x := s.winRead port r.slot r.off r.len
      match x.2 with
      | some d => x.1.cplSend port h 0 d
      | none => (x.1.refused port).cplSend port h 3 []
  | none =>
    match s.winRefuse r.part r.cid r.slot r.off r.len with
    | none => if r.isWrite then s.wrLs r.slot r.off (r.data.take r.len) else s
    | some code =>
      match s.active r.q fun c => c.phase != .committed || hClass c.raw = 1 with
      | some c => s.fail r.q c (failOf code r.va false)
      | none => s

def execWindowRequest (r : WinReq) (s : State) : Host.Outcome State Fault Refusal := carryOut (r.ok) (effWindowRequest r s)

end Sys2Proof.Machine
end

