-- ==== Sys2Proof/Machine/Nimette.lean ====
section
/-!
DEFINITION. The Nimette fabric (13_ring_links R351-R360): what arrives at a ring die, flows and their
timers, requests of other panels, answers and object transfers.
-/

namespace Sys2Proof.Machine

/-! ### Packets and flows (R351, R352, R356) -/

/-- Counts a packet dropped for its destination or its CRC. -/
def State.dropDev (s : State) (die : Nat) : State := s.sat (nfbStat die) 32 16 1
/-- Counts a request refused or object data dropped. -/
def State.dropAdmit (s : State) (die : Nat) : State := s.sat (nfbStat die) 48 16 1

/-- A packet arrives: it is dropped when its end-to-end CRC fails or when it is not for this panel. -/
def State.nTake (s : State) (die : Nat) (h : NHdr) (d : Bytes) (crc : W32) (k : NF → State) : State :=
  if crc.toNat ≠ crc32c (toBytes 32 h.toNat ++ d) then s.dropDev die
  else if (nfOf h).dst ≠ s.panelNo then s.dropDev die
  else k (nfOf h)

/-- The difference of two counts modulo 2^w as a signed number. -/
def cntDiff (w a b : Nat) : Int := sext (wrap w ((a : Int) - b)) w

def recvKey (die dev flow : Nat) : Nat := (die * 65536 + dev) * 65536 + flow
def State.recv? (s : State) (k : Nat) : Option Recv := tget none s.fab.recvs k
def State.setRecv (s : State) (k : Nat) (r : Option Recv) : State :=
  { s with fab := { s.fab with recvs := tset none s.fab.recvs k r } }

/-- Sends the cumulative acknowledgement of a receiver context. -/
def State.sendAck (s : State) (die dev flow : Nat) : State :=
  match s.recv? (recvKey die dev flow) with
  | none => s
  | some r =>
    let s := s.setRecv (recvKey die dev flow) (some { r with unacked := 0 })
    s.nSend die { dst := dev, src := s.panelNo, ty := 3, flow := flow, epoch := r.epoch, psn := wsub r.next 1 } []

/-- A sequenced packet reaches the ring die that keeps its flow's receiver state: the next PSN in order is
accepted, any other dropped. -/
def State.nSeq (s : State) (die : Nat) (f : NF) (k : State → Nat → State) : State :=
  let at_ := if f.keeper < 24 then f.keeper else die
  let key := recvKey at_ f.src f.flow
  match s.recv? key with
  | none => s
  | some r =>
    if r.epoch ≠ f.epoch then s
    else if r.next = f.psn then
      let r := { r with next := (r.next + 1) % 2 ^ 32, unacked := r.unacked + 1 }
      let s := s.setRecv key (some r)
      let s := if 16 ≤ r.unacked then s.sendAck at_ f.src f.flow else s
      k s at_
    else if cntDiff 32 f.psn r.next < 0 then s.sendAck at_ f.src f.flow
    else s

/-- The sender flow of a number to a device. -/
def State.myFlow (s : State) (flow dev : Nat) : Option (Nat × Flow) :=
  s.fab.flows.findSome? fun e => match e.2 with
    | some f => if e.1 % 65536 = flow ∧ f.dev = dev then some (e.1, f) else none
    | none => none

/-- Requests that wait for a free context of a ring die are given again once a flow has closed. -/
def State.flowFreed (s : State) (die : Nat) : State :=
  let mine := s.fab.backlog.filter fun e => e.1 % 32 = die
  let s := { s with fab := { s.fab with backlog := s.fab.backlog.filter fun e => e.1 % 32 ≠ die } }
  mine.foldl (fun s e => s.flowGive (e.1 / 32) die e.2.1 (nfOf e.2.2.1.h) e.2.2.1.d e.2.2.2) s

/-! ### Requests of clerks -/

def State.modOp (s : State) (p k submit : Nat) (f : ClerkOp → ClerkOp) : State :=
  { s with svc := { s.svc with ops := s.svc.ops.map fun o => if o.p = p ∧ o.k = k ∧ o.submit = submit then f o else o } }

/-- A failure of an operation: the first code stays. -/
def ClerkOp.fail (o : ClerkOp) (code : Nat) : ClerkOp := if o.code = 0 then { o with code := code } else o

/-! ### Outcomes (R358, R359) -/

/-- A logged operation of a commit has been answered. -/
def State.logAnswered (s : State) (run : Nat) (f : Run → Run) : State :=
  match s.run? run with
  | some r =>
    if r.phase == .committed then (s.setRun run (some (f { r with unackedLogs := r.unackedLogs - 1 }))).commitCheck run else s
  | none => s

/-- The launch of a run fails, if it still runs. -/
def State.failRunLaunch (s : State) (run code : Nat) : State :=
  match s.cmdOfRun run with
  | some (q, _) => match (s.te q.core).launch with
    | some l => if l.run = run then s.failLaunch q.core { code := code } else s
    | none => s
  | none => s

/-- An incident about a flow (class 0x0A). -/
def State.flowReport (s : State) (die dev flow sev : Nat) (part : Option Nat) (addr : Nat) : State :=
  s.report { cls := 0x0A, site := ringSite die, unit := die, status := 0, sev := sev, reporter := ringSite die, part := part
             addr := BitVec.ofNat 64 addr, aux := BitVec.ofNat 64 (dev + flow * 65536) }

/-- The sectors of a GET's range of which a byte has not come. -/
def ObjGet.missing (g : ObjGet) : List Nat :=
  (sectorsOf g.pa g.length).filter fun x => (addrs (128 * x) 128).any fun a =>
    decide (g.pa ≤ a) && decide (a < g.pa + g.length) && !g.got.any fun e => decide (e.1 ≤ a) && decide (a < e.1 + e.2)

/-- A GET of a batch has ended. Missing sectors of a failed one are poisoned (R375). -/
def State.endGet (s : State) (p k submit batch pa ok : Nat) : State :=
  match s.fab.gets.find? fun g => g.p = p && g.k = k && g.submit = submit && g.batch = batch && g.pa = pa with
  | none => s
  | some g =>
    let s := { s with fab := { s.fab with gets := eraseFirst (fun x => x == g) s.fab.gets } }
    if ok = 0 then s
    else
      let s := g.missing.foldl State.poisonSector s
      s.modOp p k submit fun o => { o with bad := some (match o.bad with | some b => min b batch | none => batch) }

/-- A request of a failed flow (R358). -/
def State.requestLost (s : State) (u : FabUse) : State :=
  match u with
  | .readLine site pa _ _ => s.badSector site pa stDataPoison
  | .mopr (.lane core slot lane reg run) => s.deliverLane core slot lane reg run 8 0#64 stDataPoison
  | .release q _ => s.releaseFailed q
  | .writeBack site pa part => s.evictLost site pa part
  | .log run =>
    match s.run? run with
    | some r => s.partFatalize r.part 2 r.site
    | none => s
  | .clerk p k submit => s.modOp p k submit fun o => { o.fail stDataPoison with writes := o.writes - 1 }
  | .objPut p k submit => s.modOp p k submit fun o => { o.fail stDataPoison with puts := o.puts - 1 }
  | .objGet p k submit batch pa => s.endGet p k submit batch pa stDataPoison
  | _ => s

/-- The completion code of an answer's status. -/
def nfCode (st : Nat) : Nat := if st = 0 then 0 else if st = 2 then stDataPoison else if st = 3 then stSiteLost else stProtection

/-- An answer to a request of the panel (R353, R359). -/
def State.answerUse (s : State) (f : NF) (d : Bytes) (u : FabUse) : State :=
  let code := nfCode f.status
  match u with
  | .readLine site pa part hint => if code = 0 then s.fillSector site pa part hint d else s.badSector site pa code
  | .mopr (.lane core slot lane reg run) => s.deliverLane core slot lane reg run 8 (BitVec.ofNat 64 (ofBytes (d.take 8))) code
  | .mopn run _ _ => if code = 0 then s else if code = stProtection then s.failRunLaunch run code
    else s.modRun run fun r => if code = stSiteLost then { r with siteLost := true } else { r with poisoned := true }
  | .log run => s.logAnswered run fun r =>
      { r with poisoned := r.poisoned || code = stDataPoison, siteLost := r.siteLost || code = stSiteLost, refused := r.refused || code = stProtection }
  | .release q _ => if code = 0 then s else if code = stProtection then
      (match (s.te q.core).launch with
      | some l => if l.q = q then s.failLaunch q.core { code := code } else s
      | none => { s with runs := s.runs.map fun e => match e.2 with
          | some r => (e.1, if r.q = q && (r.phase == .running || r.phase == .workDone) then some { r with refused := true } else some r)
          | none => e })
    else s.releaseFailed q
  | .writeBack site pa part => if code = 0 then s else s.evictLost site pa part
  | .clerk p k submit => s.modOp p k submit fun o => { (if code = 0 then o else o.fail code) with writes := o.writes - 1 }
  | .objPut p k submit => s.modOp p k submit fun o => { (if f.status = 0 then o else o.fail stDataPoison) with puts := o.puts - 1 }
  | _ => s

/-- An answer arrives: it is matched with the oldest request to that device that has its PSN, first with those whose flow
has closed since. -/
def State.takeAnswer (s : State) (f : NF) (p : FabUse → Bool) (k : State → FabUse → State) : State :=
  match s.fab.orphans.find? fun a => a.1 = f.src && a.2.1 = f.ref && p a.2.2 with
  | some a => k { s with fab := { s.fab with orphans := eraseFirst (fun x => x == a) s.fab.orphans } } a.2.2
  | none =>
  match s.fab.flows.findSome? fun e => match e.2 with
    | some fl => if fl.dev = f.src then (fl.answers.find? fun a => a.1 = f.ref && p a.2).map fun a => (e.1, fl, a) else none
    | none => none with
  | some (key, fl, a) => k (s.setFlow key (some { fl with answers := eraseFirst (fun x => x == a) fl.answers })) a.2
  | none => s

/-! ### Rows of the flow layer -/

/-- OPEN (R356). -/
def effOpenFlow (die : Nat) (h : NHdr) (d : Bytes) (crc : W32) (s : State) : State :=
  s.nTake die h d crc fun f =>
    let key := recvKey die f.src f.flow
    let ack (s : State) : State := s.nSend die { dst := f.src, src := s.panelNo, ty := 2, keeper := die, flow := f.flow, epoch := f.epoch } []
    match s.recv? key with
    | some r =>
      let n := cntDiff 16 f.epoch r.epoch
      if n < 0 then s else if n = 0 then ack s else ack (s.setRecv key (some { epoch := f.epoch, next := 0, unacked := 0 }))
    | none =>
      if 8192 ≤ (s.fab.recvs.filter fun e => e.1 / 0x100000000 = die).length then s
      else ack (s.setRecv key (some { epoch := f.epoch, next := 0, unacked := 0 }))

def execOpenFlow (die : Nat) (h : NHdr) (d : Bytes) (crc : W32) (s : State) : Host.Outcome State Fault Refusal :=
  carryOut (decide (die < Config.ringDies)) (effOpenFlow die h d crc s)

/-- OPEN_ACK: the flow is open and its waiting packets go out from PSN 0. -/
def effOpenAck (die : Nat) (h : NHdr) (d : Bytes) (crc : W32) (s : State) : State :=
  s.nTake die h d crc fun f =>
    match s.myFlow f.flow f.src with
    | some (key, fl) =>
      if fl.state = .opening ∧ fl.epoch = f.epoch then
        let s := s.setFlow key (some { fl with state := .opened, keeper := f.keeper, psn := 0, waiting := [] })
        fl.waiting.foldl (fun (s : State) w => match s.flow? key with
          | some x => s.flowPush (key / 65536) f.flow x (nfOf w.1.h) w.1.d w.2
          | none => s) s
      else s
    | none => s

def execOpenAck (die : Nat) (h : NHdr) (d : Bytes) (crc : W32) (s : State) : Host.Outcome State Fault Refusal :=
  carryOut (decide (die < Config.ringDies)) (effOpenAck die h d crc s)

/-- ACK: every packet up to the PSN is acknowledged. -/
def effAck (die : Nat) (h : NHdr) (d : Bytes) (crc : W32) (s : State) : State :=
  s.nTake die h d crc fun f =>
    match s.myFlow f.flow f.src with
    | some (key, fl) =>
      if fl.epoch = f.epoch then
        s.setFlow key (some { fl with unacked := fl.unacked.filter fun u => decide (0 < cntDiff 32 (nfOf u.1.h).psn f.psn) })
      else s
    | none => s

def execAck (die : Nat) (h : NHdr) (d : Bytes) (crc : W32) (s : State) : Host.Outcome State Fault Refusal :=
  carryOut (decide (die < Config.ringDies)) (effAck die h d crc s)

/-- CLOSE: the receiver context is freed. -/
def effClose (die : Nat) (h : NHdr) (d : Bytes) (crc : W32) (s : State) : State :=
  s.nTake die h d crc fun f =>
    let key := recvKey (if f.keeper < 24 then f.keeper else die) f.src f.flow
    match s.recv? key with
    | some r => if r.epoch = f.epoch then s.setRecv key none else s
    | none => s

def execClose (die : Nat) (h : NHdr) (d : Bytes) (crc : W32) (s : State) : Host.Outcome State Fault Refusal :=
  carryOut (decide (die < Config.ringDies)) (effClose die h d crc s)

/-- RETRANSMIT_TIMER (R357): the unacknowledged packets in PSN order, or the OPEN, are sent again. -/
def effRetransmitTimer (die flow : Nat) (s : State) : State :=
  match s.flow? (flowKey die flow) with
  | none => s
  | some f =>
    if f.state = .opening then
      (s.sat (nfbStat die) 0 16 1).nSend die { dst := f.dev, src := s.panelNo, ty := 1, keeper := 31, flow := flow, epoch := f.epoch } []
    else if f.unacked.isEmpty then s
    else
      let s := s.sat (nfbStat die) 0 16 1
      f.unacked.foldl (fun s u => s.nOut die u.1) s

def execRetransmitTimer (die flow : Nat) (s : State) : Host.Outcome State Fault Refusal :=
  carryOut (decide (die < Config.ringDies)) (effRetransmitTimer die flow s)

/-- FLOW_GIVEUP (R357, R358): the flow fails, its unacknowledged requests take their outcomes, and it is
closed. An object transfer ends with its failure; answers to other panels are lost with the flow. -/
def effFlowGiveup (die flow : Nat) (s : State) : State :=
  match s.flow? (flowKey die flow) with
  | none => s
  | some f =>
    if f.unacked.isEmpty && f.state != .opening then s
    else
      let us := (f.unacked ++ f.waiting).map (·.2)
      let s := (s.closeFlow (flowKey die flow) f).sat (nfbStat die) 16 16 1
      let torn := us.any fun u => match u with | .log _ => true | _ => false
      let wb := us.findSome? fun u => match u with | .writeBack _ pa _ => some (pa - 2 ^ 58) | _ => none
      let s := s.flowReport die f.dev flow (if torn then sevPartition else sevPoison) none (wb.getD 0)
      (us.foldl State.requestLost s).flowFreed die

def execFlowGiveup (die flow : Nat) (s : State) : Host.Outcome State Fault Refusal :=
  carryOut (decide (die < Config.ringDies)) (effFlowGiveup die flow s)

/-- ACK_DELAY_EXPIRY (R356). -/
def effAckDelayExpiry (die dev flow : Nat) (s : State) : State :=
  match s.recv? (recvKey die dev flow) with
  | some r => if r.unacked = 0 then s else s.sendAck die dev flow
  | none => s

def execAckDelayExpiry (die dev flow : Nat) (s : State) : Host.Outcome State Fault Refusal :=
  carryOut (decide (die < Config.ringDies)) (effAckDelayExpiry die dev flow s)

/-- FLOW_IDLE_EXPIRY (R356): an idle flow with nothing unacknowledged sends CLOSE and its context is free. -/
def effFlowIdleExpiry (die flow : Nat) (s : State) : State :=
  match s.flow? (flowKey die flow) with
  | some f =>
    if f.state = .opened && f.unacked.isEmpty && f.waiting.isEmpty then
      let s := s.nSend die { dst := f.dev, src := s.panelNo, ty := 4, keeper := f.keeper, flow := flow, epoch := f.epoch } []
      (s.closeFlow (flowKey die flow) f).flowFreed die
    else s
  | none => s

def execFlowIdleExpiry (die flow : Nat) (s : State) : Host.Outcome State Fault Refusal :=
  carryOut (decide (die < Config.ringDies)) (effFlowIdleExpiry die flow s)

/-! ### Requests of other panels (R304, R355) -/

/-- NFB_ADMIT admits a source panel and partition to a local partition. -/
def State.nAdmits (s : State) (die dev part toPart : Nat) : Bool :=
  (List.range 64).any fun i =>
    let e := s.reg (nfbAdmit die i)
    nbit e.toNat 0 && decide (fldOf e 1 4 = toPart) && nbit e.toNat (5 + part) && decide (fldOf e 21 12 ≤ dev) && decide (dev ≤ fldOf e 33 12)

/-- The checks of a remote request, at the ring die that serves it (DESIGN CHOICE, log entry 129): right 0 R, 1 W, 2 A. The
status it is answered with. What would change a B copy is REFUSED (R249; DEDUCED, log entry 130). -/
def State.nJudge (s : State) (die : Nat) (f : NF) (right n : Nat) : Nat :=
  let pa := f.addr
  if !isHbm pa || decide (pa / 512 ≠ (pa + n - 1) / 512) then 4
  else
    let fr := s.frame pa
    if !s.nAdmits die f.src f.part (fldOf fr 2 4) then 1
    else if !((fldOf fr 0 2 = 1 ∨ fldOf fr 0 2 = 2) && nbit fr.toNat (23 + right)) then 1
    else if right ≠ 0 ∧ s.mirrorB pa = true then 1
    else if s.isLost (homeOf pa) then 3
    else 0

/-- Answers a request from the home of its address. -/
def State.nAnswer (s : State) (f : NF) (ty status : Nat) (d : Bytes) : State :=
  s.fabAnswer (if isHbm f.addr then homeOf f.addr else 0) f.src f.part f.cid ty status f.psn d

/-- A refused request is counted. -/
def State.nRefuse (s : State) (die : Nat) (f : NF) (ty st : Nat) : State :=
  (if st = 1 then s.dropAdmit die else s).nAnswer f ty st []

/-- Sectors of a mask. -/
def maskSecs (m : Nat) : List Nat := (List.range 4).filter fun k => nbit m k

/-- RD: committed sectors, never tentative bytes; poison answers with a status. -/
def effRd (die : Nat) (h : NHdr) (d : Bytes) (crc : W32) (s : State) : State :=
  s.nTake die h d crc fun f => s.nSeq die f fun s at_ =>
    let st := if f.addr % 512 ≠ 0 then 4 else s.nJudge at_ f 0 512
    if st ≠ 0 then s.nRefuse at_ f 0x18 st
    else
      let secs := maskSecs f.sub
      let s := secs.foldl (fun s k => s.homeServe (f.addr + 128 * k) 128 f.part) s
      let r := secs.foldl (fun (a : State × Option Nat) k => match a.2 with
        | some c => (a.1, some c)
        | none => a.1.poisonRead { q := { core := 0, eng := 0, q := 0 }, part := f.part, cid := f.cid, site := homeOf f.addr } (f.addr + 128 * k) 128) (s, none)
      match r.2 with
      | some c => r.1.nAnswer f 0x18 (nfStatus c) []
      | none => r.1.nAnswer f 0x18 0 (secs.flatMap fun k => r.1.rdMem (f.addr + 128 * k) 128)

def execRd (die : Nat) (h : NHdr) (d : Bytes) (crc : W32) (s : State) : Host.Outcome State Fault Refusal :=
  carryOut (decide (die < Config.ringDies)) (effRd die h d crc s)

/-- The bytes of masked sectors (R344): `secs` are their numbers in the line. -/
def unmask (pa : Nat) : List Nat → Bytes → List (Nat × W8)
  | [], _ => []
  | k :: r, d =>
    let m := ofBytes (d.take 16)
    let bs := (d.drop 16).take 128
    ((bs.zipIdx.filter fun e => nbit m e.2).map fun e => (pa + 128 * k + e.2, e.1)) ++ unmask pa r (d.drop 144)

/-- WR: masked sectors, merged at the home; WR_DONE follows. -/
def effWr (die : Nat) (h : NHdr) (d : Bytes) (crc : W32) (s : State) : State :=
  s.nTake die h d crc fun f => s.nSeq die f fun s at_ =>
    let secs := maskSecs f.sub
    let st := if f.addr % 512 ≠ 0 ∨ d.length ≠ 144 * secs.length then 4 else s.nJudge at_ f 1 512
    if st ≠ 0 then s.nRefuse at_ f 0x19 st
    else
      let t := unmask f.addr secs d
      if t.isEmpty then s.nAnswer f 0x19 0 []
      else s.homeWrite (ringSite at_) f.part f.cid (.remote at_ f.src f.flow f.psn) t

def execWr (die : Nat) (h : NHdr) (d : Bytes) (crc : W32) (s : State) : Host.Outcome State Fault Refusal :=
  carryOut (decide (die < Config.ringDies)) (effWr die h d crc s)

/-- The size of a remote operation: the header carries none; 4 bytes for the FP adds and at an address
that is no multiple of 8, else 8 (DESIGN CHOICE, log entry 17). -/
def remoteSize (sub addr : Nat) : Nat := if 10 ≤ sub ∨ addr % 8 ≠ 0 then 4 else 8

/-- AT: performed at the home; AT_RSP follows. -/
def effAtOp (die : Nat) (h : NHdr) (d : Bytes) (crc : W32) (s : State) : State :=
  s.nTake die h d crc fun f => s.nSeq die f fun s at_ =>
    let n := remoteSize f.sub f.addr
    let st := if 12 < f.sub ∨ f.addr % 4 ≠ 0 ∨ d.length ≠ (if f.sub = 9 then 16 else 8) then 4 else s.nJudge at_ f 2 n
    if st ≠ 0 then s.nRefuse at_ f 0x1A st
    else s.homeMsg .atom { line := f.addr / 512, req := ringSite at_, src := ringSite at_, dst := homeOf f.addr, part := f.part, cid := f.cid
                           op := { sub := f.sub, size := n, addr := f.addr, val := BitVec.ofNat 64 (ofBytes (d.take 8))
                                   cmp := BitVec.ofNat 64 (ofBytes ((d.drop 8).take 8)) }
                           dest := .remote at_ f.src f.flow f.psn }

def execAtOp (die : Nat) (h : NHdr) (d : Bytes) (crc : W32) (s : State) : Host.Outcome State Fault Refusal :=
  carryOut (decide (die < Config.ringDies)) (effAtOp die h d crc s)

/-- ATOM_RSP (R263): the old value goes to its lane or to another panel; a failure marks its run, or
its clerk operation (R365). -/
def effAtomRsp (m : CMsg) (s : State) : State :=
  s.onArrival .atomRsp m fun s => match m.dest with
  | .lane core slot lane reg run => s.deliverLane core slot lane reg run m.op.size m.old m.status
  | .mopn run =>
    if m.status = 0 then s
    else s.modRun run fun r => if m.status = stSiteLost then { r with siteLost := true } else { r with poisoned := true }
  | .remote _ dev _ psn =>
    s.fabAnswer (homeL m) dev m.part m.cid 0x1A (nfStatus m.status) psn (if m.status = 0 then toBytes 8 m.old.toNat else [])
  | .clerk p k submit => s.modOp p k submit fun o =>
    let o := { o with adds := o.adds - 1 }
    if m.status = 0 then o else o.fail m.status
  | .host _ => s
  | .none => s

def execAtomRsp (m : CMsg) (s : State) : Host.Outcome State Fault Refusal := carryOut (m.ok) (effAtomRsp m s)

/-! ### Answers (R353, R359) -/

def isRead (u : FabUse) : Bool := match u with | .readLine _ _ _ _ => true | .lost => true | _ => false
def isAtUse (u : FabUse) : Bool := match u with
  | .mopr _ => true | .mopn _ _ _ => true | .log _ => true | .clerk _ _ _ => true | _ => false
def isWrUse (u : FabUse) : Bool := match u with
  | .release _ _ => true | .writeBack _ _ _ => true | .clerk _ _ _ => true | _ => false
def isObjUse (u : FabUse) : Bool := match u with | .objPut _ _ _ => true | .objGet _ _ _ _ _ => true | _ => false

/-- RD_RSP. -/
def effRdRsp (die : Nat) (h : NHdr) (d : Bytes) (crc : W32) (s : State) : State :=
  s.nTake die h d crc fun f => s.nSeq die f fun s _ => s.takeAnswer f isRead fun s u => s.answerUse f d u

def execRdRsp (die : Nat) (h : NHdr) (d : Bytes) (crc : W32) (s : State) : Host.Outcome State Fault Refusal :=
  carryOut (decide (die < Config.ringDies)) (effRdRsp die h d crc s)

/-- WR_DONE. -/
def effWrDone (die : Nat) (h : NHdr) (d : Bytes) (crc : W32) (s : State) : State :=
  s.nTake die h d crc fun f => s.nSeq die f fun s _ => s.takeAnswer f isWrUse fun s u => s.answerUse f d u

def execWrDone (die : Nat) (h : NHdr) (d : Bytes) (crc : W32) (s : State) : Host.Outcome State Fault Refusal :=
  carryOut (decide (die < Config.ringDies)) (effWrDone die h d crc s)

/-- AT_RSP. -/
def effAtRsp (die : Nat) (h : NHdr) (d : Bytes) (crc : W32) (s : State) : State :=
  s.nTake die h d crc fun f => s.nSeq die f fun s _ => s.takeAnswer f isAtUse fun s u => s.answerUse f d u

def execAtRsp (die : Nat) (h : NHdr) (d : Bytes) (crc : W32) (s : State) : Host.Outcome State Fault Refusal :=
  carryOut (decide (die < Config.ringDies)) (effAtRsp die h d crc s)

/-! ### Objects (R360) -/

/-- OBJ_GET and OBJ_PUT: a panel holds no objects, so one that arrives is UNSUPPORTED. -/
def effObjGet (die : Nat) (h : NHdr) (d : Bytes) (crc : W32) (s : State) : State :=
  s.nTake die h d crc fun f => s.nSeq die f fun s at_ => s.fabAnswer (ringSite at_) f.src f.part f.cid 0x23 4 f.psn []

def execObjGet (die : Nat) (h : NHdr) (d : Bytes) (crc : W32) (s : State) : Host.Outcome State Fault Refusal :=
  carryOut (decide (die < Config.ringDies)) (effObjGet die h d crc s)

def effObjPut (die : Nat) (h : NHdr) (d : Bytes) (crc : W32) (s : State) : State :=
  s.nTake die h d crc fun f => s.nSeq die f fun s at_ => s.fabAnswer (ringSite at_) f.src f.part f.cid 0x23 4 f.psn []

def execObjPut (die : Nat) (h : NHdr) (d : Bytes) (crc : W32) (s : State) : Host.Outcome State Fault Refusal :=
  carryOut (decide (die < Config.ringDies)) (effObjPut die h d crc s)

/-- The outstanding GET whose range holds some bytes. -/
def State.getFor (s : State) (f : NF) (n : Nat) : Option ObjGet :=
  s.fab.gets.find? fun g => g.dev = f.src && decide (g.pa ≤ f.addr) && decide (f.addr + n ≤ g.pa + g.length)

/-- OBJ_DATA: bytes of an outstanding GET, checked and merged at the home. -/
def effObjData (die : Nat) (h : NHdr) (d : Bytes) (crc : W32) (s : State) : State :=
  s.nTake die h d crc fun f => s.nSeq die f fun s at_ =>
    match s.getFor f d.length with
    | none => s.dropAdmit at_
    | some g =>
      if d.isEmpty || decide (512 < d.length) || !isHbm f.addr || !s.frameOk (homeOf f.addr) f.addr g.part g.cid 2 1 || s.mirrorB f.addr then s.dropAdmit at_
      else
        let s := { s with fab := { s.fab with gets := s.fab.gets.map fun x => if x == g then { x with got := x.got ++ [(f.addr, d.length)] } else x } }
        let t := (addrs f.addr d.length).zip d
        ((linesOf f.addr d.length)).foldl (fun s l => s.homeWrite (ringSite at_) g.part g.cid .none (t.filter fun e => e.1 / 512 = l)) s

def execObjData (die : Nat) (h : NHdr) (d : Bytes) (crc : W32) (s : State) : Host.Outcome State Fault Refusal :=
  carryOut (decide (die < Config.ringDies)) (effObjData die h d crc s)

/-- OBJ_END. -/
def effObjEnd (die : Nat) (h : NHdr) (d : Bytes) (crc : W32) (s : State) : State :=
  s.nTake die h d crc fun f => s.nSeq die f fun s _ => s.takeAnswer f isObjUse fun s u =>
    match u with
    | .objGet p k submit batch pa => s.endGet p k submit batch pa f.status
    | u => s.answerUse f d u

def execObjEnd (die : Nat) (h : NHdr) (d : Bytes) (crc : W32) (s : State) : Host.Outcome State Fault Refusal :=
  carryOut (decide (die < Config.ringDies)) (effObjEnd die h d crc s)

end Sys2Proof.Machine
end

