-- ==== Sys2Proof/Machine/Tlbi.lean ====
section
/-!
DEFINITION. Invalidation of translations (11_translation R305-R307): CORE_TLBI_CMD, completion, and
CORE_CTX_BASE.
-/

namespace Sys2Proof.Machine

/-- What an invalidation drops: a range of VAs (first address and length) of a CID, everything of a CID, or
everything of the partition. -/
structure InvReq where
  part : Nat
  cid : Option Nat
  range : Option (Nat × Nat)
  stage2 : Bool := false
  deriving DecidableEq, Repr, Inhabited

/-- A page of 2^lg bytes of a CID is dropped. -/
def InvReq.hits (r : InvReq) (part cid va lg : Nat) : Bool :=
  part == r.part && (match r.cid with | some c => c == cid | none => true)
    && (match r.range with | some (a, n) => decide (va < a + n) && decide (a < va + 2 ^ lg) && decide (n ≠ 0) | none => true)

/-- The caches of a core after an invalidation. -/
def CoreX.drop (c : CoreX) (r : InvReq) : CoreX :=
  { c with
    tlb := c.tlb.filter fun e => !r.hits e.part e.cid e.va e.lg
    walk := c.walk.filter fun e =>
      !(e.part = r.part && (if r.stage2 then e.stage = 2
        else e.stage = 1 && (match r.cid with | some x => e.cid = x | none => true)
          && (match r.range with | some (_, n) => decide (n ≠ 0) | none => true)))
    ipas := if r.stage2 then c.ipas.filter fun e => e.part ≠ r.part else c.ipas }

/-- A run has used a dropped translation (R307). -/
def Run.uses (x : Run) (r : InvReq) : Bool := x.pages.any fun p => r.hits x.part x.cid (p / 64) (p % 64)

/-- Runs that are still running and have used a dropped translation, of the pinned class or not. -/
def State.runsUsing (s : State) (r : InvReq) (pinned : Bool) : List Nat :=
  s.runs.filterMap fun e => match e.2 with
    | some x => if x.phase != .committed && x.phase != .discarding && decide (x.cls = 1) == pinned && x.uses r then some e.1 else none
    | none => none

/-- Running clerk operations that have used a dropped translation (R364), each as 2^64 plus its number. -/
def opId (o : ClerkOp) : Nat := 2 ^ 64 + (o.p * 4 + o.k) * 2 ^ 32 + o.submit
def State.opsUsing (s : State) (r : InvReq) : List Nat :=
  (s.svc.ops.filter fun o => o.pages.any fun p => r.hits o.p (s.fld (svcB o.p o.k) 32 16) (p / 64) (p % 64)).map opId

/-- Drops the translations and kills the repeatable and collective runs that used one; answers the pinned
runs and the clerk operations to wait for. -/
def State.invalidate (s : State) (r : InvReq) : State × List Nat :=
  let f (e : Nat × CoreX) : Nat × CoreX :=
    (e.1, if s.corePart e.1 = some r.part ∨ e.1 = 256 + r.part then e.2.drop r else e.2)
  let s := { s with cores := s.cores.map f }
  let s := (s.runsUsing r false).foldl (fun s id =>
    match s.cmdOfRun id with
    | some (q, c) => ((s.killRun id).requeue q c).refreshQ q
    | none => s) s
  (s, s.runsUsing r true ++ s.opsUsing r)

/-- An invalidation that CORE_TLBI_CMD asks for: ignored while 16 are pending. -/
def State.tlbi (s : State) (p : Nat) (r : InvReq) : State :=
  if 16 ≤ (s.part p).tlbis.length then s
  else
    let x := s.invalidate r
    let s := x.1.bump (coreTlbiStatus p) 0 32 1
    s.setPart p { s.part p with tlbis := (s.part p).tlbis ++ [x.2] }

/-- TLBI_RANGE: the VA range of CORE_TLBI_VA. -/
def effTlbiRange (p cid : Nat) (s : State) : State :=
  let v := s.reg (coreTlbiVa p)
  s.tlbi p { part := p, cid := some cid, range := some (fldOf v 16 39 * 65536, fldOf v 0 16 * 65536) }
def execTlbiRange (p cid : Nat) (s : State) : Host.Outcome State Fault Refusal := carryOut (decide (p < Config.partitions) && decide (cid < 2 ^ 16)) (effTlbiRange p cid s)

/-- TLBI_CONTEXT. -/
def effTlbiContext (p cid : Nat) (s : State) : State := s.tlbi p { part := p, cid := some cid, range := none }
def execTlbiContext (p cid : Nat) (s : State) : Host.Outcome State Fault Refusal := carryOut (decide (p < Config.partitions) && decide (cid < 2 ^ 16)) (effTlbiContext p cid s)

/-- TLBI_PARTITION. -/
def effTlbiPartition (p : Nat) (s : State) : State := s.tlbi p { part := p, cid := none, range := none }
def execTlbiPartition (p : Nat) (s : State) : Host.Outcome State Fault Refusal := carryOut (decide (p < Config.partitions)) (effTlbiPartition p s)

/-- A run or a clerk operation that an invalidation waits for is still running. -/
def State.stillRuns (s : State) (id : Nat) : Bool :=
  ((s.run? id).any fun r => r.phase != .committed) || s.svc.ops.any fun o => opId o = id

/-- TLBI_COMPLETE: the oldest invalidation completes once the pinned runs it waits for have ended. -/
def effTlbiComplete (p : Nat) (s : State) : State :=
  match (s.part p).tlbis with
  | [] => s
  | ids :: r =>
    if ids.any s.stillRuns then s
    else (s.setPart p { s.part p with tlbis := r }).bump (coreTlbiStatus p) 32 32 1
def execTlbiComplete (p : Nat) (s : State) : Host.Outcome State Fault Refusal := carryOut (decide (p < Config.partitions)) (effTlbiComplete p s)

/-- CORE_CTX_BASE: ignored while a queue of the partition is enabled (R306). -/
def effCoreCtxBaseWrite (p : Nat) (v : W64) (s : State) : State :=
  if (s.partQueues p).any s.qEnabled then s else s.setFld (coreCtxBase p) 16 39 (fldOf v 16 39)
def execCoreCtxBaseWrite (p : Nat) (v : W64) (s : State) : Host.Outcome State Fault Refusal :=
  carryOut (decide (p < Config.partitions)) (effCoreCtxBaseWrite p v s)

end Sys2Proof.Machine
end

