-- ==== Sys2Proof/Machine/Faults.lean ====
section
/-!
DEFINITION. Faults of the panel and of its sites (18_faults_and_recovery R442-R445, 12_site_mesh R318,
17_power_and_clocks R420, 00_scope R12): PANEL_FATAL, edges, routes, contact and the loss of a site.
-/

namespace Sys2Proof.Machine

/-! ### All work stops (R12, R420) -/

/-- Engines, links and clerks stop: nothing that was in progress is left. -/
def State.stopWork (s : State) : State :=
  { s with
    queues := [], engs := [], tes := [], gangs := [], runs := [], parts := []
    net := { reports := s.net.reports }
    mesh := { s.mesh with comb := [], mopn := [], redOut := [], acks := [],
                            links := s.mesh.links.map fun e => (e.1, { e.2 with replay := [], resend := 0, redo := [], txq := [] }) }
    host := { out := s.host.out, nextTag := s.host.nextTag }
    fab := { out := s.fab.out, epochs := s.fab.epochs }
    svc := {}
    arc := { s.arc with txns := [], waitq := [], mshrs := [], wcb := [], evict := [], dirWait := [] } }

/-- PANEL_FATAL: 0 header, 1 reference lost, 2 Librarian cut off (R436). -/
def State.panelFatal (s : State) (aux site : Nat) : State :=
  if s.pwr.fatal then s
  else
    let s := s.report { cls := 0x15, site := site, unit := 0, status := 0, sev := sevPanel, reporter := site, aux := BitVec.ofNat 64 aux }
    let s := s.stopWork
    { s with pwr := { s.pwr with fatal := true } }

/-! ### Edges and routes (R311, R318, R324) -/

/-- The mesh neighbours of a site. -/
def neighbours (x : Nat) : List Nat := (List.range 4).filterMap (neighbour x)

def State.edgeUp (s : State) (x d : Nat) : Bool := s.bit (lnkB x d) 9
/-- One more layer of the sites reached from `d`. -/
def State.layer (s : State) (seen : List (Nat × Nat)) (n : Nat) : List (Nat × Nat) :=
  seen ++ ((List.range 72).filter fun x => !(seen.any fun e => e.1 = x) &&
    (List.range 4).any fun e => s.edgeLive x e && (match neighbour x e with
      | some y => seen.any fun z => z.1 = y && z.2 = n
      | none => false)).map fun x => (x, n + 1)

/-- Distances to `d` over live edges. -/
def State.distances (s : State) (d : Nat) : List (Nat × Nat) :=
  (List.range 72).foldl (fun seen n => s.layer seen n) [(d, 0)]

/-- A path that follows a rule of next edges is live. -/
def State.pathLive (s : State) (next : Nat → Nat → Nat) (d : Nat) : Nat → Nat → Bool
  | 0, _ => false
  | fuel + 1, x =>
    if x = d then true
    else s.edgeLive x (next x d) && (match neighbour x (next x d) with
      | some y => s.pathLive next d fuel y
      | none => false)

/-- The first edge of a shortest live path; XY's edge, then YX's, are taken where they are on one. -/
def State.shortNext (s : State) (depths : List (Nat × Nat)) (x d : Nat) : Nat :=
  match depths.find? fun e => e.1 = x with
  | none => xyNext x d
  | some e =>
    let good (k : Nat) : Bool := s.edgeLive x k && (match neighbour x k with
      | some y => depths.any fun z => z.1 = y && z.2 + 1 = e.2
      | none => false)
    (([xyNext x d, yxNext x d, 0, 1, 2, 3]).find? good).getD (xyNext x d)

/-- Sites and edges out of service. -/
def State.outCount (s : State) : Nat :=
  s.mesh.lost.length + (s.mesh.edgeDown.filter fun k => decide (k % 4 = 1 ∨ k % 4 = 2) &&
    !s.isLost (k / 4) && !((neighbour (k / 4) (k % 4)).any s.isLost)).length

/-- The Librarian rewrites the route tables (R318). -/
def State.reroute (s : State) : State :=
  let n := s.outCount
  if n = 0 then { s with mesh := { s.mesh with routes := [] } }
  else
  let f (t : List (Nat × Nat)) (d : Nat) : List (Nat × Nat) :=
    let depths := s.distances d
    (List.range 72).foldl (fun t x =>
      let e := if x = d then 4
        else if s.pathLive xyNext d 16 x && decide (n < 2) then xyNext x d
        else if s.pathLive yxNext d 16 x && decide (n < 2) then yxNext x d
        else s.shortNext depths x d
      if e = xyNext x d then t else t ++ [(x * 128 + d, e)]) t
  let all := (List.range 72).foldl f []
  { s with mesh := { s.mesh with routes := all.foldl (fun t e => tinsert t e.1 e.2) [] } }

/-! ### Contact (R442) -/

def State.contact (s : State) (x d : Nat) : Bool := s.bit (errB x + 8) d

/-- A site agent loses contact across an edge: it holds its own report and broadcasts it. -/
def State.loseContact (s : State) (x d : Nat) : State :=
  if !s.contact x d then s
  else
    let s := s.setBit (errB x + 8) d false
    match neighbour x d with
    | none => s
    | some y => { s with mesh := { s.mesh with
        broadcast := if s.mesh.broadcast.contains (x, y) then s.mesh.broadcast else s.mesh.broadcast ++ [(x, y)]
        reports := if s.mesh.reports.contains (x, x, y) then s.mesh.reports else s.mesh.reports ++ [(x, x, y)] } }

/-- An edge is out of service at both ends. -/
def State.downEnd (s : State) (x d : Nat) : State :=
  let s := s.setBit (lnkB x d) 9 false
  let s := { s with mesh := { s.mesh with edgeDown := if s.mesh.edgeDown.contains (edgeKey x d) then s.mesh.edgeDown else s.mesh.edgeDown ++ [edgeKey x d] } }
  s.loseContact x d

def State.edgeOff (s : State) (x d : Nat) : State :=
  match farEnd x d with
  | some f => (s.downEnd x d).downEnd f.1 f.2
  | none => s.downEnd x d

/-! ### Loss of a site (R443, R272) -/

/-- Answers in place of a lost slice: MISS to a snoop, ACK_INV to an INV. -/
def State.answerLost (s : State) (z : Nat) (e : MsgTy × CMsg) : State :=
  match e.1 with
  | .inv => s.takeAckInv { e.2 with src := z, dst := e.2.ack }
  | _ => s.takeMiss { e.2 with src := z, dst := homeL e.2, alt := false }

def isSnoop (t : MsgTy) : Bool := [MsgTy.snpS, .snpX, .recall, .clean, .inv].contains t

/-- The transactions of live homes that wait on the lost slice complete. -/
def State.freeHomes (s : State) (z : Nat) : State :=
  let mine := s.net.msgs.filter fun e => isSnoop e.1 && e.2.dst = z
  let held := (s.arc.mshrs.filter fun m => m.site = z).flatMap (·.held)
  let s := { s with net := { s.net with msgs := s.net.msgs.filter fun e => !(isSnoop e.1 && e.2.dst = z) } }
  let s := (mine ++ held).foldl (fun s e => if s.isLost (homeL e.2) then s else s.answerLost z e) s
  let waits := s.arc.txns.filter fun t => t.kind == .mirror && homeL t.m ≠ z &&
    (match s.mirrorOf (t.line * 512) with | some b => homeOf b = z | none => false)
  waits.foldl (fun s t => (s.homeAck t.ty t.m).endTxn t) s

/-- A line whose directory names the lost slice as its owner is poisoned at its home (R272). -/
def State.poisonOwned (s : State) (z : Nat) : State :=
  let mine := s.arc.dir.filter fun e => e.2.owner = some z && homeOf (e.1 * 512) ≠ z
  mine.foldl (fun s e => (s.poisonOwnedLine e.1).dropOwner e.1) s

/-- Requests and writes addressed to the lost home are dropped: ATOMs and FLUSHes are answered, and the
commits that lose a line or an operation go on without it. -/
def State.dropHome (s : State) (z : Nat) : State :=
  let toZ : MsgTy × CMsg → Bool := fun e => [MsgTy.rdS, .own, .upgr, .atom, .flush, .cmt, .log, .mir, .wb, .preWb].contains e.1 && decide (homeL e.2 = z)
  let lost : List (MsgTy × CMsg) := s.net.msgs.filter toZ ++ s.arc.waitq.filter toZ ++ ((s.arc.dirWait.map fun e => (e.1, e.2.1)).filter toZ) ++ (s.arc.txns.filter fun t => decide (homeOf (t.line * 512) = z)).map fun t => (t.ty, t.m)
  let s := { s with net := { s.net with msgs := s.net.msgs.filter fun e => !toZ e } }
  let s := s.withArc fun a => { a with
    waitq := a.waitq.filter fun e => !toZ e
    dirWait := a.dirWait.filter fun e => !toZ (e.1, e.2.1)
    txns := a.txns.filter fun t => !decide (homeOf (t.line * 512) = z)
    dir := a.dir.filter fun e => !decide (homeOf (e.1 * 512) = z)
    mshrs := a.mshrs.filter fun m => !decide (m.site = z) && !decide (homeOf (m.line * 512) = z)
    lines := a.lines.filter fun l => l.site ≠ z
    evict := a.evict.filter fun l => l.site ≠ z
    tags := a.tags.filter fun e => e.1 ≠ z
    wcache := a.wcache.filter fun e => e.1 / 2 ^ 60 ≠ z
    wcb := a.wcb.filter fun w => w.site ≠ z }
  let s : State := lost.foldl (fun (s : State) (e : MsgTy × CMsg) => match e.1 with
    | .atom => if e.2.alt then s else s.send .atomRsp { e.2 with src := z, dst := e.2.src, status := stSiteLost }
    | .flush => s.send .fwdAck { e.2 with src := z, dst := e.2.req, alt := true }
    | .cmt => (match e.2.dest with
      | .remote at_ dev _ psn => if e.2.run = 0 then s.fabAnswer (ringSite at_) dev e.2.part e.2.cid 0x19 (nfStatus stSiteLost) psn [] else s
      | _ => s)
    | _ => s) s
  let pre (r : Run) : Run := { r with preWait := r.preWait.filter fun l => homeOf (l * 512) ≠ z }
  let s : State := { s with runs := s.runs.map fun (e : Nat × Option Run) => (e.1, e.2.map pre) }
  let hit (r : Run) : Bool := r.phase == .committed && ((r.unackedLines.any fun l => homeOf (l * 512) = z) || lost.any fun e => e.1 == .log && (s.run? e.2.run) == some r)
  let ids := (s.runs.filter fun e => match e.2 with | some r => hit r | none => false).map (·.1)
  ids.foldl (fun s id =>
    let n := (lost.filter fun e => e.1 == .log && e.2.run = id).length
    (s.modRun id fun r => { r with siteLost := true, unackedLines := r.unackedLines.filter fun l => homeOf (l * 512) ≠ z
                                   unackedLogs := r.unackedLogs - n }).commitCheck id) s

/-- The writer's B-die is lost while commits of its slice go on (R212). How many of a run's commit messages in flight
had left the slice is a free number (log entry 1); the others are lost, the rest of the commit completes, and the
partition becomes PARTITION_FATAL. -/
def State.tearCommit (s : State) (z id : Nat) (r : Run) : State :=
  let mine := s.net.msgs.filter fun e => (e.1 == .cmt || e.1 == .log) && e.2.run = id
  let f := s.freeNum
  let torn := mine.drop (f.2 % (mine.length + 1))
  let s := { f.1 with net := { f.1.net with msgs := f.1.net.msgs.filter fun e => !torn.contains e } }
  let n := (torn.filter fun e => e.1 == .log).length
  let s := (s.modRun id fun r => { r with unackedLines := r.unackedLines.filter fun l => !(torn.any fun e => e.1 == .cmt && e.2.line = l)
                                          unackedLogs := r.unackedLogs - n }).commitCheck id
  s.partFatalize r.part 1 z

def State.tearCommits (s : State) (z : Nat) : State :=
  s.runs.foldl (fun s e => match e.2 with
    | some r => if r.phase == .committed && decide (r.site = z) then s.tearCommit z e.1 r else s
    | none => s) s

/-- A ring die whose attached site is lost (R444). -/
def State.ringDieLost (s : State) (r : Nat) : State :=
  let s := (s.portDown (2 * r) 0).portDown (2 * r + 1) 0
  if r = (if s.bit fusSec 54 then 12 else 0) then s.panelFatal 2 (ringSite r) else s

/-- Steps 1 and 2 of a declaration, with its cause: 0 contact lost, 1 B-die fatal error, 2 PLL lock,
3 training. The agents that find it report it: every live neighbour for a lost contact, else its own. -/
def State.declareOne (s : State) (z cause : Nat) : State :=
  if s.isLost z then s
  else
    let s := { s with mesh := { s.mesh with lost := s.mesh.lost ++ [z] } }
    let who := if cause = 0 then (neighbours z).filter fun y => !s.isLost y else [z]
    let s := who.foldl (fun s y => s.report { cls := 0x0D, site := z, unit := 0, status := 0, sev := sevSite, reporter := y, aux := BitVec.ofNat 64 cause }) s
    let s := (List.range 4).foldl (fun s d => if (neighbour z d).isSome then s.edgeOff z d else s) s
    let s := s.poisonOwned z
    let s := s.freeHomes z
    let s := (s.dropHome z).tearCommits z
    let s := { s with mesh := { s.mesh with
      mopn := s.mesh.mopn.filter fun e => e.1 / 2 ^ 50 ≠ z && homeOf (e.1 % 2 ^ 50 * 128) ≠ z
      acks := s.mesh.acks.filter fun e => e.1 ≠ z
      comb := s.mesh.comb.filter fun e => e.site ≠ z
      redOut := s.mesh.redOut.filter fun e => e.1 ≠ z } }
    let s := if (s.coresAt z).isEmpty then s else s.dieGate z 0 0
    (List.range 24).foldl (fun s r => if ringSite r = z then s.ringDieLost r else s) s

/-- An agent holds a report, or the neighbour is itself lost, for every neighbour of a site. -/
def State.agentDeclares (s : State) (a z : Nat) : Bool :=
  (neighbours z).all fun n => s.isLost n || s.mesh.reports.contains (a, n, z)

/-- Declarations that the reports held make due, one after another. -/
def State.judgeSites (s : State) : Nat → State
  | 0 => s
  | fuel + 1 =>
    let subjects := ((s.mesh.reports.map fun e => e.2.2) ++ s.mesh.lost.flatMap neighbours).eraseDups
    match subjects.find? fun z => !s.isLost z && (List.range 72).any fun a => a ≠ z && !s.isLost a && s.agentDeclares a z with
    | some z => (s.declareOne z 0).judgeSites fuel
    | none => s

/-- A site is declared lost by its own agent's report. -/
def State.declareLost (s : State) (z cause : Nat) : State := (s.declareOne z cause).judgeSites 72

/-- An edge goes down (R324): its routes are rewritten, at once unless the Librarian is absent. -/
def State.edgeFail (s : State) (x d : Nat) : State :=
  let s := (s.edgeOff x d).judgeSites 72
  if s.boot.absent then s else s.reroute

end Sys2Proof.Machine
end

