-- ==== Sys2Proof/Machine/Lanes.lean ====
section
/-!
DEFINITION. The lane groups of the mesh and the ring ports at their two ends (12_site_mesh R311-R324, 13_ring_links
R338-R342): flits as they are checked and as they are built, the packing of messages, replay, lane sparing, and the loss of
a group.
-/

namespace Sys2Proof.Machine

/-! ### Flits (R313, R339) -/

def ringKey (port : Nat) : Nat := 8192 + port
/-- A field of a flit, by byte offset, first bit and width. -/
def fF (f : Flit) (off lo w : Nat) : Nat := fldOf f (8 * off + lo) w
/-- The CRC of a flit is good. -/
def flitGood (f : Flit) : Bool := decide (fF f 0xFC 0 32 = crc32c (toBytes 252 f.toNat))
def flitPayload (f : Flit) : BitVec 1920 := BitVec.ofNat 1920 (fldOf f 96 1920)
/-- The places in which two flits differ. -/
def flitDiff (a b : Flit) : List Nat := (List.range 2048).filter fun j => a.getLsbD j != b.getLsbD j
/-- Lane of a bit of a mesh flit, and of a ring flit. -/
def meshLane (j : Nat) : Nat := j % 64
def ringLane (j : Nat) : Nat := j / 8 % 8

/-- The receiver's progress with a MSG flit under R320: the link afterwards, whether the flit is
accepted, and whether a replay has succeeded. `m` is the modulus of FSEQ. -/
def LinkX.take (x : LinkX) (f : Flit) (seq m : Nat) (good : Bool) : LinkX × Bool × Bool :=
  if !good then
    if !x.nakSent then ({ x with nakSent := true, badFlit := some f, fails := 0 }, false, false)
    else if seq = x.rxSeq then ({ x with fails := x.fails + 1 }, false, false)
    else (x, false, false)
  else if seq = x.rxSeq then
    ({ x with rxSeq := (x.rxSeq + 1) % m, nakSent := false, badFlit := none, fails := 0 }, true, x.nakSent)
  else if !x.nakSent then ({ x with nakSent := true, badFlit := none, fails := 0 }, false, false)
  else (x, false, false)

/-! ### Messages taken out of payloads (R313, R314, R339) -/

/-- The messages that stand whole at the start of a stream of units, and what is left of it. `len` tells a message's bytes
from its first unit; a unit of zeros where a message would start is filler (DESIGN CHOICE, log entry 35). -/
def unpackStream (len : Bytes → Nat) : Nat → Bytes → List Bytes × Bytes
  | 0, bs => ([], bs)
  | fuel + 1, bs =>
    if bs.length < 16 then ([], [])
    else if (bs.take 16).all (· == 0#8) then unpackStream len fuel (bs.drop 16)
    else
      let n := (len (bs.take 16) + 15) / 16 * 16
      if bs.length < n then ([], bs)
      else
        let r := unpackStream len fuel (bs.drop n)
        (bs.take n :: r.1, r.2)

/-- The stream that a payload continues: the unfinished message of its channel, or the first message that starts in it. -/
def streamOf (part : Bytes) (first : Nat) (payload : Bytes) : Bytes :=
  if part.isEmpty then (if first = 0xFF then [] else payload.drop (16 * first)) else part ++ payload

/-- An accepted payload of a channel: its messages are taken out and `owe` gives the credits that each of them returns. -/
def LinkX.accept (x : LinkX) (vc first : Nat) (payload part : Bytes) (len : Bytes → Nat) (owe : Bytes → List (Nat × Nat × Nat)) : LinkX :=
  let bs := streamOf part first payload
  let r := unpackStream len (bs.length / 16 + 1) bs
  { x with parts := tset [] x.parts vc r.2, rx := x.rx ++ r.1.map (fun m => (vc, m)), owed := x.owed ++ r.1.flatMap owe, ackDue := true }

/-! ### What a sender packs and sends (R313, R314, R320, R339) -/

/-- The result of packing: payload bytes, FIRST, the messages that have bytes in it, and what still waits. -/
structure Packed where
  d : Bytes := []
  first : Nat := 0xFF
  msgs : List TxMsg := []
  rest : List TxMsg := []
  deriving DecidableEq, Repr

/-- Packs the messages that `p` picks back to back into the room of a payload; one that does not fit goes on in the next
flit. -/
def packMsgs (p : TxMsg → Bool) : List TxMsg → Nat → Nat → Packed
  | [], _, _ => {}
  | m :: r, room, off =>
    if room = 0 then { rest := m :: r }
    else if !p m then
      let y := packMsgs p r room off
      { y with rest := m :: y.rest }
    else
      let n := min room (m.d.length - m.sent)
      let y := packMsgs p r (room - n) (off + n)
      { d := (m.d.drop m.sent).take n ++ y.d, first := if m.sent = 0 then off / 16 else y.first, msgs := { m with sent := 0 } :: y.msgs
        rest := if m.d.length ≤ m.sent + n then y.rest else { m with sent := m.sent + n } :: y.rest }

/-- The channel that sends next: the highest that has a message and the credits for a payload. -/
def LinkX.nextVc (x : LinkX) : Option Nat :=
  (List.range 8).find? fun v => (x.txq.any fun m => m.vc == v) && decide (tget 0 x.spent v + 15 ≤ Config.meshCredits v + tget 0 x.credits v)

/-- The next MSG flit of a sender: one of those to be replayed; else, while fewer than `win` are unacknowledged, one taken
over from another group, or one packed from the messages waiting. `m` is the modulus of FSEQ; a ring port packs all its
packets into one stream, a lane group one channel at a time. -/
def LinkX.nextFlit (x : LinkX) (win m : Nat) (ring : Bool) : LinkX × Option TxFlit :=
  if 0 < x.resend then ({ x with resend := x.resend - 1 }, x.replay[x.replay.length - x.resend]?)
  else if win ≤ x.replay.length then (x, none)
  else
    let send (x : LinkX) (f : TxFlit) : LinkX × Option TxFlit :=
      let f := { f with seq := x.txSeq }
      ({ x with txSeq := (x.txSeq + 1) % m, replay := x.replay ++ [f] }, some f)
    match x.redo.find? fun f => !x.txq.any fun t => t.vc == f.vc && decide (0 < t.sent) with
    | some f => send { x with redo := eraseFirst (fun y => y == f) x.redo } f
    | none =>
      match (if ring then (x.txq.head?.map (·.vc)) else x.nextVc) with
      | none => (x, none)
      | some v =>
        let y := packMsgs (fun t => ring || t.vc == v) x.txq 240 0
        send { x with txq := y.rest, spent := if ring then x.spent else tset 0 x.spent v (tget 0 x.spent v + y.d.length / 16) }
          { seq := 0, vc := if ring then 0 else v, first := y.first, d := y.d, msgs := y.msgs }

/-- The acknowledgement that the far end has sent: what it covers leaves the replay buffer; NAK has the rest sent again
(R320). -/
def LinkX.heedAck (x : LinkX) (ack : Nat) (nak : Bool) : LinkX :=
  let r := if x.replay.any fun f => f.seq == ack then (x.replay.dropWhile fun f => f.seq != ack).drop 1 else x.replay
  { x with acked := ack, peerNak := nak, replay := r
           resend := if nak && (!x.peerNak || x.resend == 0) then r.length else min x.resend r.length }

/-- A flit with its CRC over bytes 0x00-0xFB. -/
def sealFlit (n : Nat) : Flit := BitVec.ofNat 2048 (n % 2 ^ 2016 + crc32c (toBytes 252 n) * 2 ^ 2016)

/-- A flit of a lane group (R313): type, FSEQ, channel, FIRST and payload, with what its end has to acknowledge and to
return. -/
def meshBits (x : LinkX) (ty seq vc first : Nat) (payload : BitVec 1920) : Flit :=
  let c := x.owed.headD (0, 0, 0)
  sealFlit (seq % 1024 + ty * 2 ^ 10 + vc % 8 * 2 ^ 12 + (x.rxSeq + 1023) % 1024 * 2 ^ 16 + b2n x.nakSent * 2 ^ 26 + c.1 % 16 * 2 ^ 32
    + c.2.1 % 1024 * 2 ^ 36 + first % 256 * 2 ^ 64 + payload.toNat * 2 ^ 96)

/-- A flit of a ring port (R339). -/
def ringBits (x : LinkX) (ty seq first : Nat) (payload : BitVec 1920) : Flit :=
  let c := x.owed.headD (0xF, 0, 0)
  sealFlit (seq % 65536 + (x.rxSeq + 65535) % 65536 * 2 ^ 16 + ty * 2 ^ 32 + b2n x.nakSent * 2 ^ 34 + first % 256 * 2 ^ 40 + c.1 % 16 * 2 ^ 48
    + c.2.1 % 4096 * 2 ^ 52 + c.2.2 % 65536 * 2 ^ 64 + payload.toNat * 2 ^ 96)

/-- The payload of an IDLE or a TEST flit: the next bits of each lane's PRBS-31 (x^31 + x^28 + 1), and the registers
afterwards. -/
def prbsPayload (lanes : Nat) (lane : Nat → Nat) (regs : List Nat) : BitVec 1920 × List Nat :=
  let r := (List.range 1920).foldl (fun (a : Nat × List Nat) j =>
    let k := lane (96 + j) % lanes
    let g := a.2.getD k 0
    let b := b2n (nbit g 27 != nbit g 30)
    (a.1 + b * 2 ^ j, a.2.set k ((g * 2 + b) % 2 ^ 31))) (0, regs)
  (BitVec.ofNat 1920 r.1, r.2)

/-- The registers of an end's lanes; a lane starts at its own seed. -/
def LinkX.prbsRegs (x : LinkX) (key lanes : Nat) : List Nat :=
  if x.txPrbs.isEmpty then (List.range lanes).map fun k => Config.prbsSeed key k % (2 ^ 31 - 1) + 1 else x.txPrbs

/-- An end sends a flit: what it carried of credits and of an acknowledgement is done. -/
def LinkX.sends (x : LinkX) (f : Flit) : LinkX := { x with owed := x.owed.drop 1, ackDue := false, out := some f }

/-- An end of a lane group sends an IDLE flit, or a TEST flit (type 3). -/
def LinkX.sendPrbs (x : LinkX) (key ty : Nat) : LinkX :=
  let p := prbsPayload 64 meshLane (x.prbsRegs key 64)
  ({ x with txPrbs := p.2 } : LinkX).sends (meshBits x ty x.txSeq 0 0xFF p.1)
/-- A ring port sends an IDLE flit, or a TEST flit. -/
def LinkX.sendRingPrbs (x : LinkX) (key ty : Nat) : LinkX :=
  let p := prbsPayload 8 ringLane (x.prbsRegs key 8)
  ({ x with txPrbs := p.2 } : LinkX).sends (ringBits x ty x.txSeq 0xFF p.1)

/-- The flit that an end of a lane group sends in a cycle, if any: a MSG flit, or an IDLE flit for an acknowledgement that
is due (DESIGN CHOICE, log entry 127); a TEST flit while the group is suspect. -/
def LinkX.transmit (x : LinkX) (key : Nat) (suspect : Bool) : LinkX :=
  if suspect then x.sendPrbs key 3
  else
    let r := x.nextFlit 512 1024 false
    match r.2 with
    | some f => r.1.sends (meshBits x 0 f.seq f.vc f.first (BitVec.ofNat 1920 (ofBytes f.d)))
    | none => if x.ackDue || !x.owed.isEmpty then x.sendPrbs key 1 else { x with out := none }

/-- The flit that a ring port sends in a cycle. -/
def LinkX.transmitRing (x : LinkX) (key : Nat) : LinkX :=
  let r := x.nextFlit 16384 65536 true
  match r.2 with
  | some f => r.1.sends (ringBits x 0 f.seq f.first (BitVec.ofNat 1920 (ofBytes f.d)))
  | none => if x.ackDue || !x.owed.isEmpty then x.sendRingPrbs key 1 else { x with out := none }

/-! ### Traffic of a group that leaves service (R323, R324) -/

/-- The unsent bytes of a message as flits of one channel. -/
def restFlits (m : TxMsg) : Nat → Bytes → List TxFlit
  | 0, _ => []
  | fuel + 1, bs =>
    if bs.isEmpty then [] else { seq := 0, vc := m.vc, first := 0xFF, d := bs.take 240, msgs := [{ m with sent := 0 }] } :: restFlits m fuel (bs.drop 240)

/-- The sender of a group at one end gives its unacknowledged flits, in FSEQ order, and its waiting messages to another
group of a role, ahead of that one's new traffic; without one it holds them. What the far end has accepted is not sent
again. -/
def State.resendFrom (s : State) (l : LinkRef) (r : Nat) : State :=
  match ((s.groupsFor l.site l.d r).filter fun g => g ≠ l.g), farEnd l.site l.d with
  | g :: _, some f =>
    let a := s.link (linkKey l)
    let next := (s.link (linkKey { site := f.1, d := f.2, g := l.g })).rxSeq
    let begun := a.txq.filter fun m => decide (0 < m.sent)
    let again := (a.replay.dropWhile fun x => x.seq != next) ++ a.redo ++ begun.flatMap fun m => restFlits m (m.d.length / 16 + 1) (m.d.drop m.sent)
    let s := s.setLink (linkKey l) { a with replay := [], resend := 0, redo := [], txq := [], txSeq := if a.replay.isEmpty then a.txSeq else next }
    let b := s.link (linkKey { l with g := g })
    s.setLink (linkKey { l with g := g }) { b with redo := b.redo ++ again, txq := (a.txq.filter fun m => decide (m.sent = 0)) ++ b.txq }
  | _, _ => s

/-- Both ends of a group. -/
def linkEnds (l : LinkRef) : List LinkRef :=
  l :: (match farEnd l.site l.d with
    | some f => [{ site := f.1, d := f.2, g := l.g }]
    | none => [])

/-- The traffic of both directions of a group goes on by other groups of a role. -/
def State.resendBoth (s : State) (l : LinkRef) (r : Nat) : State := (linkEnds l).foldl (fun s e => s.resendFrom e r) s

/-- A message crosses an edge on a role: it is handed to one of the groups that carry it (DESIGN CHOICE,
log entry 121). -/
def State.handOver (s : State) (x d pick : Nat) (m : TxMsg) : State :=
  let gs := s.groupsFor x d m.role
  match gs[pick % gs.length]? with
  | none => s
  | some g =>
    let k := linkKey { site := x, d := d, g := g }
    s.setLink k { s.link k with txq := (s.link k).txq ++ [m] }

/-! ### Lanes (R321, R322) -/

/-- 1 ms in slice cycles. -/
def msCycles : Nat := 1500000

/-- Errors of the last 1 ms with `n` more of a lane, and whether the lane is failing. -/
def LinkX.chargeLane (x : LinkX) (now lane n : Nat) : LinkX × Bool :=
  let cs := (x.charges.filter fun c => now ≤ c.2 + msCycles) ++ List.replicate n (lane, now)
  if 8 ≤ (cs.filter fun c => c.1 = lane).length then ({ x with charges := cs.filter fun c => c.1 ≠ lane }, true)
  else ({ x with charges := cs }, false)

/-- A PRBS-31 checker: the first 31 bits of a lane load its generator (x^31 + x^28 + 1), and each later
bit is compared with the generator's next one. The result is the new state (bits seen, register) and the
number of wrong bits. -/
def prbsRun (st : Nat × Nat) (bits : List Bool) : (Nat × Nat) × Nat :=
  bits.foldl (fun acc b =>
    let n := acc.1.1
    let r := acc.1.2
    if n < 31 then ((n + 1, (r * 2 + b2n b) % 2 ^ 31), acc.2)
    else
      let e := nbit r 27 != nbit r 30
      ((n, (r * 2 + b2n e) % 2 ^ 31), acc.2 + b2n (b != e))) (st, 0)

/-- The lanes of an IDLE flit with their wrong bits; `lane` tells the lane of a bit of the flit. -/
def LinkX.prbsCheck (x : LinkX) (f : Flit) (lanes : Nat) (lane : Nat → Nat) : LinkX × List (Nat × Nat) :=
  (List.range lanes).foldl (fun acc k =>
    let bits := ((List.range 1920).filter fun j => lane (96 + j) = k).map fun j => f.getLsbD (96 + j)
    let r := prbsRun (tget (0, 0) acc.1.prbs k) bits
    ({ acc.1 with prbs := tset (0, 0) acc.1.prbs k r.1 }, if r.2 = 0 then acc.2 else acc.2 ++ [(k, r.2)])) (x, [])

/-- Number of times each lane stands in a list. -/
def laneCounts (ls : List Nat) : List (Nat × Nat) := ls.eraseDups.map fun k => (k, (ls.filter (· == k)).length)

/-! ### Groups (R315, R322-R324) -/

def State.setRole (s : State) (x d g r : Nat) : State := s.setFld (lnkB x d + 8) (2 * g) 2 r
/-- The block is part of an edge that is up, and the group is in service. -/
def State.groupLive (s : State) (l : LinkRef) : Bool := s.edgeUp l.site l.d && !s.bit (lnkGrp l) 14
def groupUnit (l : LinkRef) : Nat := l.d * 16 + l.g

/-- A group becomes suspect (R323): its senders go on with the other groups of the role. -/
def State.suspect (s : State) (l : LinkRef) : State :=
  let x := s.link (linkKey l)
  if x.suspect then s
  else ((s.setLink (linkKey l) { x with suspect := true }).sat (lnkB l.site l.d + 0x10) 0 16 1).resendBoth l (s.role l.site l.d l.g)

/-- A lane is replaced by the next spare (R322). -/
def State.spareLane (s : State) (l : LinkRef) (lane : Nat) : State :=
  let k := lnkGrp l
  let u := s.fld k 0 2
  let s := (s.setFld k (2 + 6 * u) 6 lane).setFld k 0 2 (u + 1)
  let x := s.link (linkKey l)
  let s := s.setLink (linkKey l) { x with asked := x.asked.filter (· != lane), charges := x.charges.filter fun c => c.1 ≠ lane
                                          prbs := x.prbs.filter fun p => p.1 ≠ lane }
  let s : State := { s with mesh := { s.mesh with spares := s.mesh.spares ++ [(l.site * 64 + groupUnit l, lane + u * 64)] } }
  s.report { cls := 0x06, site := l.site, unit := groupUnit l, status := 0, sev := sevCorrected, reporter := l.site, aux := BitVec.ofNat 64 (lane + u * 64) }

/-- A failing lane: its receiver sends LANEMAP when a spare is free, else the group is suspect. -/
def State.laneFails (s : State) (l : LinkRef) (lane : Nat) : State :=
  let x := s.link (linkKey l)
  if x.asked.contains lane then s
  else if s.fld (lnkGrp l) 0 2 + x.asked.length < 2 then
    s.setLink (linkKey l) { x with asked := x.asked ++ [lane], out := some (meshBits x 2 0 0 0xFF (Config.lanemapPayload lane (s.fld (lnkGrp l) 0 2))) }
  else s.suspect l

/-- Errors are charged to lanes of a mesh group (R321). -/
def State.chargeMesh (s : State) (l : LinkRef) (errs : List (Nat × Nat)) : State :=
  errs.foldl (fun s e =>
    let s := s.sat (lnkGrp l) 32 16 e.2
    let r := (s.link (linkKey l)).chargeLane s.cyc e.1 e.2
    let s := s.setLink (linkKey l) r.1
    if r.2 then s.laneFails l e.1 else s) s

/-- A group is OUT in both directions (R323), and CTRL moves when it was the edge's only CTRL group
(R324). -/
def State.groupOut (s : State) (l : LinkRef) : State :=
  let was := s.role l.site l.d l.g
  let ends := linkEnds l
  let s := ends.foldl (fun (s : State) (e : LinkRef) =>
    let s := (s.setBit (lnkGrp e) 14 true).setRole e.site e.d e.g 3
    let x := s.link (linkKey e)
    s.setLink (linkKey e) { x with suspect := false, nakSent := false, badFlit := none, fails := 0, asked := [] }) s
  let move := decide (was = 2) && (s.groupsIn l.site l.d 2).isEmpty
  let pick := if move then (s.groupsIn l.site l.d 0).getLast? else none
  let s := match pick with
    | some g =>
      let s := (s.setRole l.site l.d g 3).resendBoth { l with g := g } roleBulk
      let s := ends.foldl (fun (s : State) (e : LinkRef) => (s.setRole e.site e.d g 2).sat (lnkB e.site e.d + 0x10) 16 16 1) s
      { s with mesh := { s.mesh with roleChg := s.mesh.roleChg ++ [(edgeKey l.site l.d, l.g, g)] } }
    | none => s
  let s := s.resendBoth l was
  let s := s.report { cls := 0x07, site := l.site, unit := groupUnit l, status := 0, sev := sevCorrected, reporter := l.site
                      aux := BitVec.ofNat 64 (s.fld (lnkB l.site l.d + 8) 0 32) }
  if (move && pick.isNone) || (s.groupsIn l.site l.d 0).isEmpty then s.edgeFail l.site l.d else s

/-! ### A ring port comes up (R339, R342) -/

/-- The credits that the panel advertises: headers and units of data, by class; those of CPLs are unlimited. -/
def advertised (host : Bool) (c : Nat) : Nat :=
  if host then (match c with
    | 0 => 512 + 32768 * 4096
    | 1 => 512
    | 2 => Config.unlimitedCredits % 2 ^ 32
    | _ => 0)
  else if c < 4 then 1024 + 65536 * 4096 else 0

/-- The payload of a LINK flit (R339). -/
def linkPayload (role dev : Nat) : BitVec 1920 :=
  BitVec.ofNat 1920 ((List.range 8).foldl (fun n c => n + advertised (role == 1) c * 2 ^ (32 + 32 * c)) (role + dev * 2 ^ 16))

/-- A port that has come up sends its LINK flit. -/
def State.linkUp (s : State) (port : Nat) : State :=
  if s.portUp port then
    let x := s.link (ringKey port)
    let role := s.fld (rngPort port) 0 2
    s.setLink (ringKey port) { x with out := some (ringBits x 2 x.txSeq 0xFF (linkPayload role (if role = 1 then 0 else s.panelNo))) }
  else s

end Sys2Proof.Machine
end

