-- ==== Sys2Proof/Machine/Mesh.lean ====
section
/-!
DEFINITION. Flits of the mesh and of the ring ports, lane sparing, group loss, and the reduction in the
network (12_site_mesh R313-R330, 13_ring_links R338-R342, 18_faults_and_recovery R447).
-/

namespace Sys2Proof.Machine

/-! ### The rows of a mesh group -/

/-- What the header of a good flit tells the sender at this end: the acknowledgement, NAK and credits. -/
def LinkX.heed (x : LinkX) (f : Flit) : LinkX :=
  let c := fF f 4 0 4
  let x := x.heedAck (fF f 2 0 10) (nbit f.toNat 26)
  { x with credits := if c < 8 then tset 0 x.credits c (tget 0 x.credits c + fF f 4 4 10) else x.credits }

/-- The channels that a group carries (R316, R324): CTRL headers, interrupts and debug, BULK payloads, REDUCE channel 7,
and BULK channel 7 where the edge has no REDUCE group in service. -/
def State.carriesVc (s : State) (l : LinkRef) (vc : Nat) : Bool :=
  let r := s.role l.site l.d l.g
  if r = roleCtrl then decide (vc < 7)
  else if r = roleReduce then vc == 7
  else decide (vc < 5) || (vc == 7 && (s.groupsIn l.site l.d roleReduce).isEmpty)

/-- The bytes of a message on the mesh, from its first unit: a REDUCE packet has 176 (R327); of the others the spec gives no
layout. -/
def meshLen (role vc : Nat) (u : Bytes) : Nat := if vc = 7 then 176 else 16 * (Config.messageUnits role vc (ofBytes u) + 1)

/-- The unfinished message of a channel that a payload goes on with: that of its group, else that of a group of the edge that
is suspect or OUT, whose flits have come over (R323). -/
def State.partOf (s : State) (l : LinkRef) (vc first : Nat) : Bytes :=
  let own := tget [] (s.link (linkKey l)).parts vc
  if !own.isEmpty || first = 0 then own
  else ((List.range 16).findSome? fun g =>
    let k : LinkRef := { l with g := g }
    let x := tget [] (s.link (linkKey k)).parts vc
    if !x.isEmpty && ((s.link (linkKey k)).suspect || s.bit (lnkGrp k) 14) then some x else none).getD []

/-- A payload that a group has accepted: its units return as credits of its channel. -/
def State.acceptMesh (s : State) (l : LinkRef) (f : Flit) : State :=
  let vc := fF f 0 12 3
  let x := s.link (linkKey l)
  let y := x.accept vc (fF f 8 0 8) (toBytes 240 (flitPayload f).toNat) (s.partOf l vc (fF f 8 0 8)) (meshLen (s.role l.site l.d l.g) vc) fun _ => []
  s.setLink (linkKey l) { y with owed := y.owed ++ [(vc, 15, 0)] }

/-- IDLE_FLIT (R321, R447), or a TEST flit of a suspect group, which charges no lane: its wrong lanes are kept for the
end of the test (R323). -/
def effIdleFlit (l : LinkRef) (f : Flit) (s : State) : State :=
  if !s.groupLive l then s
  else if fF f 0 10 2 = 3 && (s.link (linkKey l)).suspect then
    let r := (s.link (linkKey l)).prbsCheck f 64 meshLane
    s.setLink (linkKey l) { r.1 with testBad := (r.1.testBad ++ r.2.map (·.1)).eraseDups }
  else if fF f 0 10 2 ≠ 1 then s
  else
    let x := s.link (linkKey l)
    let x := if flitGood f then x.heed f else x
    let r := ({ x with calibrations := x.calibrations + 1 } : LinkX).prbsCheck f 64 meshLane
    (s.setLink (linkKey l) r.1).chargeMesh l r.2

def execIdleFlit (l : LinkRef) (f : Flit) (s : State) : Host.Outcome State Fault Refusal := carryOut (l.ok) (effIdleFlit l f s)

/-- MESH_FLIT (R316, R320, R321, R323): a MSG flit. A suspect group carries none, and a group none of a channel that its
role does not carry. -/
def effMeshFlit (l : LinkRef) (f : Flit) (s : State) : State :=
  let x := s.link (linkKey l)
  if !s.groupLive l || x.suspect || fF f 0 10 2 ≠ 0 || (flitGood f && !s.carriesVc l (fF f 0 12 3)) then s
  else
    let good := flitGood f
    let t := x.take f (fF f 0 0 10) 1024 good
    let y := if good then t.1.heed f else { t.1 with ackDue := true }
    let s := s.setLink (linkKey l) y
    let s := if t.2.1 then s.acceptMesh l f else s
    if t.2.2 then
      let s := s.sat (lnkGrp l) 16 16 1
      match x.badFlit with
      | some b => s.chargeMesh l (laneCounts ((flitDiff b f).map meshLane))
      | none => s
    else if 8 ≤ y.fails then s.suspect l
    else s

def execMeshFlit (l : LinkRef) (f : Flit) (s : State) : Host.Outcome State Fault Refusal := carryOut (l.ok) (effMeshFlit l f s)

/-- IDLE_INSERT (R321): the sender of a group inserts an IDLE flit. -/
def effIdleInsert (l : LinkRef) (s : State) : State :=
  if s.groupLive l then
    let x := (s.link (linkKey l)).sendPrbs (linkKey l) 1
    s.setLink (linkKey l) { x with idlesSent := x.idlesSent + 1 }
  else s

def execIdleInsert (l : LinkRef) (s : State) : Host.Outcome State Fault Refusal := carryOut (l.ok) (effIdleInsert l s)

/-- LANEMAP (R322). -/
def effLanemap (l : LinkRef) (lane : Nat) (s : State) : State :=
  if s.groupLive l && decide (s.fld (lnkGrp l) 0 2 < 2) then s.spareLane l lane else s

def execLanemap (l : LinkRef) (lane : Nat) (s : State) : Host.Outcome State Fault Refusal :=
  carryOut (l.ok && decide (lane < 64)) (effLanemap l lane s)

/-- GROUP_TEST_DONE (R323, R324). -/
def effGroupTestDone (l : LinkRef) (failing : List Nat) (s : State) : State :=
  let x := s.link (linkKey l)
  if !x.suspect || !s.groupLive l then s
  else match failing with
    | [lane] =>
      if decide (lane < 64) && decide (s.fld (lnkGrp l) 0 2 < 2) then
        let s := s.spareLane l lane
        s.setLink (linkKey l) { s.link (linkKey l) with suspect := false, nakSent := false, badFlit := none, fails := 0 }
      else s.groupOut l
    | _ => s.groupOut l

def execGroupTestDone (l : LinkRef) (failing : List Nat) (s : State) : Host.Outcome State Fault Refusal :=
  carryOut (l.ok) (effGroupTestDone l failing s)

/-! ### Errors past replay (R325) -/

def State.pastReport (s : State) (l : LinkRef) (sev : Nat) : State :=
  s.report { cls := 0x08, site := l.site, unit := groupUnit l, status := 0, sev := sev, reporter := l.site }

/-- A write of a run past its commit point arrives poisoned. -/
def poisonWrite (run line sectors : Nat) (e : MsgTy × CMsg) : MsgTy × CMsg :=
  if e.1 == .cmt && e.2.run = run && e.2.line = line then (e.1, { e.2 with poison := e.2.poison ||| (e.2.sectors &&& sectors) }) else e

/-- A run's writes in flight are changed; its command completes with DATA_POISON. -/
def State.poisonFlight (s : State) (run : Nat) (f : MsgTy × CMsg → MsgTy × CMsg) : State :=
  ({ s with net := { s.net with msgs := s.net.msgs.map f } } : State).modRun run fun r => { r with poisoned := true }

/-- A read of a sector outside the panel whose answer is on its way brings poison; where none is, the copies of the slices
that hold the sector take it (R248, R325; DEDUCED, log entry 126). -/
def State.poisonOut (s : State) (sec : Nat) : State :=
  let hp := s.host.pend.filter fun e => match e.2.2 with
    | .readLine _ pa _ _ => pa / 128 = sec
    | _ => false
  let fp := s.fabUses.filter fun u => match u with
    | .readLine _ pa _ _ => pa / 128 = sec
    | _ => false
  if hp.isEmpty && fp.isEmpty then (List.range 72).foldl (fun s x => s.poisonTag x sec) s
  else
    let s := hp.foldl (fun s e => (s.dropPend e).hostFail e.2.2) s
    let f (e : Nat × Option Flow) : Nat × Option Flow :=
      (e.1, e.2.map fun x => { x with answers := x.answers.map fun a => if fp.contains a.2 then (a.1, .lost) else a })
    let s : State := { s with fab := { s.fab with flows := s.fab.flows.map f } }
    fp.foldl (fun s u => s.requestLost u) s

/-- PAST_REPLAY_ERROR (R325). -/
def effPastReplayError (l : LinkRef) (e : PastErr) (s : State) : State :=
  let s := s.sat (lnkB l.site l.d + 0x10) 32 16 1
  match e with
  | .headerOne => s.pastReport l sevCorrected
  | .headerBoth => (s.pastReport l sevPanel).panelFatal 0 l.site
  | .runPayload run =>
    match s.run? run, s.cmdOfRun run with
    | some r, some (q, c) =>
      if r.cls ≠ 1 && (r.phase == .running || r.phase == .workDone) then
        (((s.pastReport l sevRecomputed).killRun run).requeue q c).refreshQ q
      else s
    | _, _ => s
  | .commitPayload run line sectors =>
    if s.net.msgs.any fun m => m.1 == .cmt && m.2.run = run && m.2.line = line then
      (s.pastReport l sevPoison).poisonFlight run (poisonWrite run line sectors)
    else s
  | .logPayload run addr =>
    if s.net.msgs.any fun m => m.1 == .log && m.2.run = run && m.2.op.addr = addr then
      (s.pastReport l sevPoison).poisonFlight run (poisonMsg run addr true)
    else s
  | .otherPayload line sectors =>
    if isHbm (line * 512) then
      ((List.range 4).filter fun k => nbit sectors k).foldl (fun s k => s.poisonSector (line * 4 + k)) (s.pastReport l sevPoison)
    else ((List.range 4).filter fun k => nbit sectors k).foldl (fun s k => s.poisonOut (line * 4 + k)) (s.pastReport l sevPoison)
  | .reduceMopn addr mask =>
    if isHbm addr && decide (mask % 2 ^ 32 ≠ 0) then (s.pastReport l sevPoison).poisonSector (addr / 128) else s.pastReport l sevPoison

def execPastReplayError (l : LinkRef) (e : PastErr) (s : State) : Host.Outcome State Fault Refusal :=
  carryOut (l.ok) (effPastReplayError l e s)

/-! ### REDUCE packets (R326-R330) -/

def rF (p : RedPkt) (off lo w : Nat) : Nat := fldOf p (8 * off + lo) w
def rDest (p : RedPkt) : Nat := rF p 0 0 7
def rKind (p : RedPkt) : Nat := rF p 0 7 1
def rPart (p : RedPkt) : Nat := rF p 1 0 4
def rDtype (p : RedPkt) : Nat := rF p 1 4 2
def rCount (p : RedPkt) : Nat := rF p 2 0 10
def rTag (p : RedPkt) : Nat := rF p 4 0 32
def rRun (p : RedPkt) : Nat := rF p 8 0 8
def rSeq (p : RedPkt) : Nat := rF p 0xA 0 16
def rMask (p : RedPkt) : Nat := rF p 0xC 0 32
def rAddr (p : RedPkt) : Nat := rF p 0x10 0 46
def rPmask (p : RedPkt) : Nat := rF p 0x18 0 32
def rSrc (p : RedPkt) : Nat := rF p 0x20 0 72
def rWord (p : RedPkt) (w : Nat) : Nat := rF p (0x30 + 4 * w) 0 32

/-- The conditions of R328; a sum of contributions that COUNT cannot hold is none. -/
def redMeet (a b : RedPkt) : Bool :=
  decide (rDest a = rDest b) && decide (rKind a = rKind b) && decide (rPart a = rPart b) && decide (rDtype a = rDtype b)
    && decide (rTag a = rTag b) && decide (rRun a = rRun b) && decide (rSeq a = rSeq b) && decide (rAddr a = rAddr b)
    && decide (rSrc a &&& rSrc b = 0) && decide (rDtype a ≠ 2) && decide (rCount a + rCount b < 1024)

/-- The operation that adds words of a DTYPE (R329): the operation of a MOPN with SUB 0xA or 0xB. -/
def redOp (dtype addr : Nat) (v : Nat) : AtomOp :=
  { sub := if dtype = 0 then 0xA else 0xB, size := 4, addr := addr, val := BitVec.ofNat 64 v, cmp := 0#64 }

/-- One word of a combination; the value of a poisoned word is free. -/
def redWord (free : Nat) (a b : RedPkt) (w : Nat) : Nat :=
  if nbit (rPmask a) w || nbit (rPmask b) w then (Config.freeWord (free + w)).toNat % 2 ^ 32
  else if nbit (rMask a) w && nbit (rMask b) w then atomValue (redOp (rDtype a) 0 (rWord b w)) (rWord a w)
  else if nbit (rMask b) w then rWord b w
  else rWord a w

/-- Two packets combined (R329). -/
def redCombine (free : Nat) (a b : RedPkt) : RedPkt :=
  let p := putFld a 16 10 (rCount a + rCount b)
  let p := putFld p 96 32 (rMask a ||| rMask b)
  let p := putFld p 192 32 (rPmask a ||| rPmask b)
  let p := putFld p 256 72 (rSrc a ||| rSrc b)
  (List.range 32).foldl (fun p w => putFld p (384 + 32 * w) 32 (redWord free a b w)) p

/-- A packet reaches its home: each present word is one operation, a poisoned one poisons the sector, and each source is
acknowledged once the last of them has been applied (R330). A collective packet is delivered to its member's engine. -/
def State.redDeliver (s : State) (site : Nat) (p : RedPkt) : State :=
  let a := rAddr p / 128 * 128
  if rKind p = 1 then
    s.collPacket { site := site, part := rPart p, dtype := rDtype p, count := rCount p, inst := rTag p, run := rRun p, seq := rSeq p, mask := rMask p, addr := rAddr p }
      ((List.range 32).map fun w => rWord p w)
  else if !isHbm a || homeOf a ≠ site then s
  else
    let words := (List.range 32).filter fun w => nbit (rMask p) w
    let s := (words.filter fun w => nbit (rPmask p) w).foldl (fun s _ => s.poisonSector (a / 128)) s
    let ops := words.filter fun w => !nbit (rPmask p) w
    let s := ops.foldl (fun s w => s.homeMsg .atom
      { line := a / 512, req := site, src := site, dst := site, part := rPart p, cid := rTag p % 2 ^ 16, sectors := 1 <<< (a / 128 % 4), alt := true
        op := redOp (rDtype p) (a + 4 * w) (rWord p w), ack := if some w = ops.getLast? then rSrc p else 0 }) s
    if ops.isEmpty then s.ackMopn a (rSrc p) else s

/-- A packet leaves a router output: to its own site, or to the next router, on a REDUCE group or, on an edge without one, on
a BULK group (R316, R324). At an edge that is down it takes the new route, or waits for one (R318). -/
def State.redLeave (s : State) (site out : Nat) (p : RedPkt) : State :=
  match neighbour site out with
  | none => s.redDeliver site p
  | some y =>
    if s.edgeLive site out then
      let s := s.handOver site out (rSrc p) { role := roleReduce, vc := 7, dst := rDest p, d := toBytes 176 p.toNat }
      { s with mesh := { s.mesh with redOut := s.mesh.redOut ++ [(y, s.nextHop y (rDest p), p)] } }
    else { s with mesh := { s.mesh with redOut := s.mesh.redOut ++ [(site, s.nextHop site (rDest p), p)] } }

/-- The window of an output: an edge's own, or the default at the delivery to the site; 0 where the edge has
no REDUCE group in service (R324, R328). -/
def State.redWindow (s : State) (site out : Nat) : Nat :=
  if out = 4 then 32
  else if (s.groupsIn site out 1).isEmpty then 0
  else s.fld (lnkB site out) 10 8

/-- REDUCE_PACKET (R328). -/
def effReducePacket (site out : Nat) (p : RedPkt) (s : State) : State :=
  let s := { s with mesh := { s.mesh with redOut := s.mesh.redOut.erase (site, out, p) } }
  if s.redWindow site out = 0 || (decide (out < 4) && !s.edgeLive site out) then s.redLeave site out p
  else
    let mine (e : Comb) : Bool := e.site = site && e.out = out
    match s.mesh.comb.find? fun e => mine e && redMeet e.pkt p with
    | some e =>
      let n := redCombine s.free e.pkt p
      let f (x : Comb) : Comb := if x == e then { x with pkt := n } else x
      let s := { s with free := s.free + 32, mesh := { s.mesh with comb := s.mesh.comb.map f } }
      if out < 4 then s.sat (lnkB site out + 0x18) 0 48 1 else s
    | none =>
      if (s.mesh.comb.filter mine).length < 64 then
        { s with mesh := { s.mesh with comb := s.mesh.comb ++ [{ site := site, out := out, pkt := p }] } }
      else s.redLeave site out p

def execReducePacket (site out : Nat) (p : RedPkt) (s : State) : Host.Outcome State Fault Refusal :=
  carryOut (decide (site < Config.sites) && decide (out < 5)) (effReducePacket site out p s)

/-- COMBINE_WINDOW_EXPIRY (R328): the `idx`-th entry of the output leaves. -/
def effCombineWindowExpiry (site out idx : Nat) (s : State) : State :=
  match (s.mesh.comb.filter fun e => e.site = site && e.out = out)[idx]? with
  | none => s
  | some e => ({ s with mesh := { s.mesh with comb := s.mesh.comb.erase e } } : State).redLeave site out e.pkt

def execCombineWindowExpiry (site out idx : Nat) (s : State) : Host.Outcome State Fault Refusal :=
  carryOut (decide (site < Config.sites) && decide (out < 5)) (effCombineWindowExpiry site out idx s)

/-- MOPN_ACK (R330). -/
def effMopnAck (site sector : Nat) (s : State) : State :=
  let k := mopnKey site sector
  { s with mesh := { s.mesh with
      acks := s.mesh.acks.erase (site, sector)
      mopn := tset 0 s.mesh.mopn k (tget 0 s.mesh.mopn k - 1) } }

def execMopnAck (site sector : Nat) (s : State) : Host.Outcome State Fault Refusal :=
  carryOut (decide (site < Config.sites)) (effMopnAck site sector s)

/-! ### Ring flits (R339-R342) -/

/-- Errors are charged to the lanes of a port; a failing lane takes the port down (R340). -/
def State.chargeRing (s : State) (port : Nat) (errs : List (Nat × Nat)) : State :=
  errs.foldl (fun s e =>
    let r := (s.link (ringKey port)).chargeLane s.cyc e.1 e.2
    let s := s.setLink (ringKey port) r.1
    if r.2 && s.portUp port then (s.setBit (rngPort port) (8 + e.1) true).portDown port 1 else s) s

/-- The acknowledgement, NAK and credits in the header of a good ring flit. -/
def LinkX.heedRing (x : LinkX) (f : Flit) : LinkX :=
  let c := fF f 6 0 4
  let x := x.heedAck (fF f 2 0 16) (nbit f.toNat 34)
  { x with credits := if c < 8 then tset 0 x.credits c (tget 0 x.credits c + fF f 6 4 12) else x.credits
           dataCredits := if c < 8 then tset 0 x.dataCredits c (tget 0 x.dataCredits c + fF f 8 0 16) else x.dataCredits }

/-- The bytes of a packet on a port, from its first unit (R344, R352): its header, its payload, and on a FABRIC port the
end-to-end CRC. -/
def packetLen (host : Bool) (u : Bytes) : Nat :=
  let n := ofBytes u
  if host then
    let h : QHdr := BitVec.ofNat 128 n
    16 + (match qTy h with
      | 1 => if qMasked h then qLen h / 128 * 144 else qLen h
      | 2 => 4
      | 3 => qLen h
      | _ => 0)
  else 36 + nbits n 116 12

/-- The credit class of a packet (R342) and the credits that its buffer returns: of a CPL none, since they are unlimited. -/
def packetOwes (host : Bool) (p : Bytes) : List (Nat × Nat × Nat) :=
  let n := ofBytes (p.take 32)
  if host then
    let h : QHdr := BitVec.ofNat 128 n
    let data := (packetLen true (p.take 16) - 16 + 15) / 16
    match qTy h with
    | 0 => [(1, 1, 0)]
    | 3 => []
    | _ => [(0, 1, data)]
  else [(nbits n 40 2, 1, (nbits n 116 12 + 15) / 16)]

/-- A payload that a port has accepted: whole packets are taken out of it (R339). A packet acts by its own row. -/
def State.acceptRing (s : State) (port : Nat) (f : Flit) : State :=
  let host := decide (s.fld (rngPort port) 0 2 = 1)
  let x := s.link (ringKey port)
  s.setLink (ringKey port) (x.accept 0 (fF f 5 0 8) (toBytes 240 (flitPayload f).toNat) (tget [] x.parts 0) (packetLen host) (packetOwes host))

/-- RING_MSG_FLIT (R340). -/
def effRingMsgFlit (port : Nat) (f : Flit) (s : State) : State :=
  if !s.portUp port || fF f 4 0 2 ≠ 0 then s
  else
    let x := s.link (ringKey port)
    let good := flitGood f
    let t := x.take f (fF f 0 0 16) 65536 good
    let y := if good then t.1.heedRing f else { t.1 with ackDue := true }
    let s := s.setLink (ringKey port) y
    let s := if t.2.1 then s.acceptRing port f else s
    if t.2.2 then
      let s := s.sat (rngPort port) 16 16 1
      match x.badFlit with
      | some b => s.chargeRing port (laneCounts ((flitDiff b f).map ringLane))
      | none => s
    else if 16 ≤ y.fails then s.portDown port 2
    else s

def execRingMsgFlit (port : Nat) (f : Flit) (s : State) : Host.Outcome State Fault Refusal :=
  carryOut (decide (port < Config.ports)) (effRingMsgFlit port f s)

/-- RING_LINK_FLIT (R339, R342): the far end's role and device, and the credits that it advertises. -/
def effRingLinkFlit (port : Nat) (f : Flit) (s : State) : State :=
  if !s.portUp port || fF f 4 0 2 ≠ 2 || !flitGood f then s
  else
    let x := (s.link (ringKey port)).heedRing f
    let x := { x with peer := fF f 12 0 8 + fF f 14 0 16 * 256 }
    s.setLink (ringKey port) ((List.range 8).foldl (fun x c =>
      { x with credits := tset 0 x.credits c (fF f (16 + 4 * c) 0 12), dataCredits := tset 0 x.dataCredits c (fF f (16 + 4 * c) 12 20) }) x)

def execRingLinkFlit (port : Nat) (f : Flit) (s : State) : Host.Outcome State Fault Refusal :=
  carryOut (decide (port < Config.ports)) (effRingLinkFlit port f s)

/-- RING_IDLE_FLIT (R338, R340, R447). A TEST flit of the far end has the lanes' generators follow its PRBS; it charges no
lane. -/
def effRingIdleFlit (port : Nat) (f : Flit) (s : State) : State :=
  if s.portUp port && fF f 4 0 2 = 3 then
    s.setLink (ringKey port) ((s.link (ringKey port)).prbsCheck f 8 ringLane).1
  else if !s.portUp port || fF f 4 0 2 ≠ 1 then s
  else
    let x := s.link (ringKey port)
    let x := if flitGood f then x.heedRing f else x
    let r := ({ x with calibrations := x.calibrations + 1 } : LinkX).prbsCheck f 8 ringLane
    (s.setLink (ringKey port) r.1).chargeRing port r.2

def execRingIdleFlit (port : Nat) (f : Flit) (s : State) : Host.Outcome State Fault Refusal :=
  carryOut (decide (port < Config.ports)) (effRingIdleFlit port f s)

end Sys2Proof.Machine
end

