-- ==== Sys2Proof/Machine/Loss.lean ====
section
/-!
DEFINITION. Heartbeats, the loss of C-dies and of sites, and the self-test of a core (01_panel R26-R30,
18_faults_and_recovery R441-R446).
-/

namespace Sys2Proof.Machine

/-! ### C-dies (R26, R29, R441, R445) -/

/-- A C-die that runs cores. -/
def State.dieOn (s : State) (x : Nat) : Bool := s.mapBuilt && !s.isLost x && !(s.coresAt x).isEmpty && !s.pwr.lostDies.contains x

/-- CDIE_HEARTBEAT (R441). -/
def effCdieHeartbeat (site : Nat) (s : State) : State := if s.dieOn site then s.setBit (errB site + 8) 4 true else s
def execCdieHeartbeat (site : Nat) (s : State) : Host.Outcome State Fault Refusal :=
  carryOut (decide (site < Config.sites)) (effCdieHeartbeat site s)

/-- CDIE_FATAL_ERROR (R445). -/
def effCdieFatalError (site : Nat) (s : State) : State := if s.dieOn site then s.cdieLost site 0 0 else s
def execCdieFatalError (site : Nat) (s : State) : Host.Outcome State Fault Refusal :=
  carryOut (decide (site < Config.sites)) (effCdieFatalError site s)

/-- CDIE_HEARTBEAT_TIMEOUT (R445). -/
def effCdieHeartbeatTimeout (site : Nat) (s : State) : State := if s.dieOn site then s.cdieLost site 1 0 else s
def execCdieHeartbeatTimeout (site : Nat) (s : State) : Host.Outcome State Fault Refusal :=
  carryOut (decide (site < Config.sites)) (effCdieHeartbeatTimeout site s)

/-- SUBSTITUTION_DONE (R26 steps 4 and 5): the Librarian's work, which waits while it is absent (R413). -/
def effSubstitutionDone (row : Nat) (s : State) : State :=
  if s.boot.absent || s.isLost (s.riserSite row) then s else s.finishMove row
def execSubstitutionDone (row : Nat) (s : State) : Host.Outcome State Fault Refusal :=
  carryOut (decide (row < 8)) (effSubstitutionDone row s)

/-- RISER_FAILURE (R29). -/
def effRiserFailure (row : Nat) (s : State) : State := s.riserLost row 0
def execRiserFailure (row : Nat) (s : State) : Host.Outcome State Fault Refusal :=
  carryOut (decide (row < 8)) (effRiserFailure row s)

/-! ### Sites (R442, R443) -/

/-- SITE_HEARTBEAT: contact across an edge that is up. -/
def effSiteHeartbeat (site d : Nat) (s : State) : State :=
  if s.edgeUp site d && s.edgeLive site d then s.setBit (errB site + 8) d true else s
def execSiteHeartbeat (site d : Nat) (s : State) : Host.Outcome State Fault Refusal :=
  carryOut (decide (site < Config.sites) && decide (d < 4)) (effSiteHeartbeat site d s)

/-- SITE_HEARTBEAT_TIMEOUT: contact is lost and reported. -/
def effSiteHeartbeatTimeout (site d : Nat) (s : State) : State :=
  if s.isLost site then s else (s.loseContact site d).judgeSites 72
def execSiteHeartbeatTimeout (site d : Nat) (s : State) : Host.Outcome State Fault Refusal :=
  carryOut (decide (site < Config.sites) && decide (d < 4)) (effSiteHeartbeatTimeout site d s)

/-- LOSS_REPORT: a broadcast report reaches an agent. -/
def effLossReport (agent reporter subject : Nat) (s : State) : State :=
  if !s.mesh.broadcast.contains (reporter, subject) || s.isLost agent || s.mesh.reports.contains (agent, reporter, subject) then s
  else ({ s with mesh := { s.mesh with reports := s.mesh.reports ++ [(agent, reporter, subject)] } } : State).judgeSites 72
def execLossReport (agent reporter subject : Nat) (s : State) : Host.Outcome State Fault Refusal :=
  carryOut (decide (agent < Config.sites) && decide (reporter < Config.sites) && decide (subject < Config.sites))
    (effLossReport agent reporter subject s)

/-- B_DIE_FATAL_ERROR (R442). -/
def effBDieFatalError (site : Nat) (s : State) : State := s.declareLost site 1
def execBDieFatalError (site : Nat) (s : State) : Host.Outcome State Fault Refusal :=
  carryOut (decide (site < Config.sites)) (effBDieFatalError site s)

/-- The riser of a lost site (R29): UNAVAILABLE, and the cores moving onto it or moved onto it LOST. -/
def State.riserSiteLost (s : State) (z : Nat) : State :=
  let row := siteRow z
  if z ≠ s.riserSite row ∨ s.riserState row = 2 then s
  else if s.riserState row = 1 then s.riserLost row 0
  else (s.genOdd.setRiser row 2).genEven

/-- SITE_LOSS_REROUTE (R443 steps 3 and 4): they wait while the Librarian is absent. -/
def effSiteLossReroute (site : Nat) (s : State) : State :=
  if !s.isLost site || s.boot.absent then s
  else
    let s := s.reroute
    let s := (List.range 16).foldl (fun s p => if s.ownsSite p site then s.partFatalize p 0 site else s) s
    let s := s.settleLosses
    s.riserSiteLost site
def execSiteLossReroute (site : Nat) (s : State) : Host.Outcome State Fault Refusal :=
  carryOut (decide (site < Config.sites)) (effSiteLossReroute site s)

/-! ### Self-test (R446) -/

/-- A test is requested, or joins the one pending or running. -/
def State.askTest (s : State) (core : Nat) : State :=
  let k := coreSelftest core
  if s.bit k 1 || s.bit k 2 then s.setBit k 0 true
  else ((s.setBit k 0 true).setBit k 1 true).setFld k 8 7 0

/-- CORE_SELFTEST_REQ: the write of 1 to REQ. -/
def effCoreSelftestReq (core : Nat) (s : State) : State := s.askTest core
def execCoreSelftestReq (core : Nat) (s : State) : Host.Outcome State Fault Refusal :=
  carryOut (decide (core < Config.cores)) (effCoreSelftestReq core s)

/-- SELFTEST_PART_DONE: the next part waits for another window, the last one ends the test, and a failed one
loses the C-die. -/
def effSelftestPartDone (core : Nat) (pass : Bool) (s : State) : State :=
  let k := coreSelftest core
  if !s.bit k 2 then s
  else if pass then
    let s := s.setBit k 2 false
    let n := s.fld k 8 7 + 1
    let s := s.setFld k 8 7 n
    if n < 64 then s.setBit k 1 true else (s.setBit k 0 false).sat k 16 16 1
  else (s.setBit k 2 false).cdieLost (s.coreSite core) 3 (s.coreSlot core)
def execSelftestPartDone (core : Nat) (pass : Bool) (s : State) : Host.Outcome State Fault Refusal :=
  carryOut (decide (core < Config.cores)) (effSelftestPartDone core pass s)

end Sys2Proof.Machine
end

