-- ==== Sys2Proof/Machine/Incidents.lean ====
section
/-!
DEFINITION. The Librarian's mailbox block, its backlog, and the incident log (16_mould_and_start R408-R411,
18_faults_and_recovery R437-R440, R446, R452).
-/

namespace Sys2Proof.Machine

/-! ### Backlog and shedding (R411) -/

/-- Items that wait for the Librarian: reports, mailbox commands, Librarian-backed reads and writes. -/
def State.backlog (s : State) : Nat :=
  s.net.reports.length + wsub (s.fld libMbTail 0 32) (s.fld libMbDone 0 32)
    + (s.host.reads.filter fun p => isRegion (qAddr p.h)).length + s.boot.queuedWrites.length

/-- A level is reached above its threshold and lifts below half of it. -/
def levelNext (on : Bool) (n threshold : Nat) : Bool := if threshold < n then true else if 2 * n < threshold then false else on

/-- The levels after a change of the backlog. -/
def State.shed (s : State) : State :=
  let n := s.backlog
  let t := s.boot.mould.times.getD 7 64
  let old := s.fld libHealth 16 2
  let two := levelNext (decide (2 ≤ old)) n (4 * t)
  let one := levelNext (decide (1 ≤ old)) n (2 * t) || two
  let s := (s.setFld libHealth 0 16 (min n 0xFFFF)).setFld libHealth 16 2 (if two then 2 else b2n one)
  { s with boot := { s.boot with retrying := levelNext s.boot.retrying n t } }

/-! ### The log (R438) -/

/-- The bytes of an entry; without detail under shedding (R437). -/
def incBits (seq : Nat) (detail : Bool) (r : Report) : Nat :=
  let base := seq % 2 ^ 32 + r.sev % 8 * 2 ^ 32 + b2n detail * 2 ^ 35 + r.cls % 256 * 2 ^ 40 + r.site % 128 * 2 ^ 48 + r.unit % 256 * 2 ^ 56
    + r.status % 256 * 2 ^ 64
  if !detail then base
  else
    base + r.part.getD 0 % 16 * 2 ^ 72 + b2n r.part.isSome * 2 ^ 76 + r.cid % 2 ^ 16 * 2 ^ 80
      + r.time.toNat * 2 ^ 128 + r.reporter % 128 * 2 ^ 192 + r.addr.toNat * 2 ^ 256 + r.aux.toNat * 2 ^ 320
      + r.tag % 2 ^ 32 * 2 ^ 384 + r.eng % 8 * 2 ^ 416 + r.q % 4 * 2 ^ 419

/-- Sends the notifications of a new entry (R439); one without detail has PART_V 0, and concerns the manager alone. -/
def State.incNotify (s : State) (seq : Nat) (r : Report) : State :=
  (List.range 17).foldl (fun s i =>
    let k := libIncNotify i
    let host := if i = 16 then some s.boot.mould.manager
      else if r.part = some i && decide (s.partState i ≠ 0) then some (s.partHost i) else none
    match host with
    | some h => if s.bit k 45 && decide (s.fld k 42 3 ≤ r.sev) then s.hostReq h 2 (s.fld k 0 42) 4 (toBytes 4 seq) .notify else s
    | none => s) s

/-! ### Repair candidates (R449, R452) -/

def repairBits (kind site edge group lane spare role slot source : Nat) : Nat :=
  kind + site * 2 ^ 8 + edge * 2 ^ 16 + group * 2 ^ 24 + lane * 2 ^ 32 + spare * 2 ^ 40 + role * 2 ^ 41 + slot * 2 ^ 48 + source * 2 ^ 64

/-- Adds a candidate, unless it is held already or 256 are held. -/
def State.addRepair (s : State) (e : Nat) : State :=
  let n := s.fld libRepairCount 0 9
  if 256 ≤ n || (List.range n).any fun i => s.mbxNum (0x30000 + 16 * i) 8 = e % 2 ^ 64 then s
  else (s.mbxWr (0x30000 + 16 * n) (toBytes 16 e)).setFld libRepairCount 0 9 (n + 1)

/-- The candidates of the lanes of a group that have been spared (R322): some, and those not recorded yet. -/
def State.spareRepairs (s : State) (seq : Nat) (r : Report) (first : List Nat) : State :=
  let mine := (s.mesh.spares.filter fun e => e.1 = r.site * 64 + r.unit).map (·.2)
  let s : State := { s with mesh := { s.mesh with spares := s.mesh.spares.filter fun e => e.1 ≠ r.site * 64 + r.unit } }
  (first ++ mine).eraseDups.foldl (fun s n => s.addRepair (repairBits 3 r.site (r.unit / 16) (r.unit % 16) (n % 64) (n / 64) 0 0 seq)) s

/-- The candidates that an incident gives. -/
def State.repairsOf (s : State) (seq : Nat) (r : Report) : State :=
  let edge := r.unit / 16
  let g := r.unit % 16
  if r.cls = 0x06 then s.spareRepairs seq r [fldOf r.aux 0 7]
  else if r.cls = 0x07 then
    match s.mesh.roleChg.find? fun c => c.1 = edgeKey r.site edge && c.2.1 = g with
    | some c =>
      let s := { s with mesh := { s.mesh with roleChg := s.mesh.roleChg.erase c } }
      (s.addRepair (repairBits 5 r.site edge c.2.2 0 0 2 0 seq)).addRepair (repairBits 4 r.site edge g 0 0 0 0 seq)
    | none => s
  else if r.cls = 0x0C then
    let slot := r.unit / 8
    let charged := decide (2 ≤ fldOf r.aux 0 2)
    if charged && (s.rowRepair r.site (slot / 3)).isNone then s.addRepair (repairBits 1 r.site 0 0 0 0 0 slot seq)
    else s.addRepair (repairBits 2 r.site 0 0 0 0 0 0 seq)
  else if r.cls = 0x14 then
    let mine := s.mesh.trains.filter fun e => e.1 = r.site * 64 + r.unit
    let s := { s with mesh := { s.mesh with trains := s.mesh.trains.filter fun e => e.1 ≠ r.site * 64 + r.unit } }
    mine.foldl (fun s e => s.addRepair (e.2 + seq * 2 ^ 64)) s
  else s

/-- 1 s in slice cycles. -/
def secCycles : Nat := 1500000000

/-- Four DETECT incidents on one core within 1 s make the Librarian ask for a self-test (R446). -/
def State.countDetect (s : State) (r : Report) : State :=
  if r.cls ≠ 0x01 then s
  else match s.slotCore r.site (r.unit / 8) with
    | none => s
    | some c =>
      let ts := ((s.coreX c).detects.filter fun t => s.cyc ≤ t + secCycles) ++ [s.cyc]
      if 4 ≤ ts.length then (s.setCoreX c { s.coreX c with detects := [] }).askTest c
      else s.setCoreX c { s.coreX c with detects := ts }

/-- The entry of a CORE_LOST incident: the doorbells that its cores have dropped so far are counted in it (R30). -/
def State.noteLost (s : State) (i site : Nat) : State :=
  let n := (((List.range 256).filter fun c => s.coreSite c = site && s.coreState c = 2).map fun c => (s.coreX c).dropped).sum
  (({ s with boot := { s.boot with lostEntries := s.boot.lostEntries.filter (fun e => e.1 ≠ site) ++ [(site, i)] } } : State)).raiseEcho i n

/-- The Librarian's handling of a report: merged into the open entry of its signature, or written as a new
entry, which overwrites the oldest when the log is full. -/
def State.logReport (s : State) (r : Report) : State :=
  match s.boot.openEntries.find? fun e => sameSig e.2 r with
  | some e =>
    let off := incOff e.1
    if 1024 < wsub (s.fld libIncTail 0 32) (e.1 % 2 ^ 32) then s
    else
      let s := s.mbxWr (off + 0x0C) (toBytes 4 (min (2 ^ 32 - 1) (s.mbxNum (off + 0x0C) 4 + 1)))
      let f := s.mbxNum (off + 4) 1
      s.mbxWr (off + 4) (toBytes 1 (nput f 0 3 (max (nbits f 0 3) r.sev)))
  | none =>
    let i := s.fld libIncTail 0 32
    let s := if 1024 ≤ wsub i (s.fld libIncHead 0 32) then (s.bump libIncHead 0 32 1).sat libIncStat 0 32 1 else s
    let detail := decide (s.fld libHealth 16 2 < 2)
    let s := if detail then s else s.sat libIncStat 32 32 1
    let s := s.mbxWr (incOff i) (toBytes 64 (incBits (i + 1) detail r))
    let s := s.setFld libIncTail 0 32 (i + 1)
    let s := { s with boot := { s.boot with openEntries := s.boot.openEntries ++ [(i, r)] } }
    let s := if r.cls = 0x0C then s.noteLost i r.site else s
    let s := s.repairsOf ((i + 1) % 2 ^ 32) r
    (s.incNotify (i + 1) (if detail then r else { r with part := none })).countDetect r

/-- INCIDENT_REPORT (R437): a report reaches the Librarian. While it is absent, reports are held (R413). -/
def effIncidentReport (r : Report) (s : State) : State :=
  if s.boot.absent || !s.net.reports.contains r then s
  else
    let s := s.shed
    let s := { s with net := { s.net with reports := s.net.reports.erase r } }
    (s.logReport r).shed
def execIncidentReport (r : Report) (s : State) : Host.Outcome State Fault Refusal := carryOut (r.ok) (effIncidentReport r s)

/-- The open entry of a signature takes an echo count. -/
def State.addEcho (s : State) (r : Report) (n : Nat) : State :=
  match s.boot.openEntries.find? fun e => sameSig e.2 r with
  | some e =>
    let s := s.raiseEcho e.1 n
    if r.cls = 0x06 then s.spareRepairs ((e.1 + 1) % 2 ^ 32) r [] else s
  | none => s

/-- ECHO_WINDOW_END (R437): the site agent sends the signature's echo count, which follows its first report;
a report that waited is sent. The entry takes echoes until the last window of its signature ends. -/
def effEchoWindowEnd (site : Nat) (r : Report) (s : State) : State :=
  match s.errs.find? fun e => e.1 = site && sameSig e.2.1 r with
  | none => s
  | some e =>
    if s.boot.absent then s
    else
      let s := if s.net.reports.contains e.2.1 then effIncidentReport e.2.1 s else s
      let s := { s with errs := s.errs.erase e }
      let s := if e.2.2 = 0 then s else s.addEcho r e.2.2
      let s := if s.errs.any fun x => sameSig x.2.1 r then s
        else { s with boot := { s.boot with openEntries := s.boot.openEntries.filter fun x => !sameSig x.2 r } }
      match s.errWait.find? fun w => w.reporter = site with
      | some w => ({ s with errWait := s.errWait.erase w } : State).sendReport w
      | none => s
def execEchoWindowEnd (site : Nat) (r : Report) (s : State) : Host.Outcome State Fault Refusal :=
  carryOut (decide (site < Config.sites) && r.ok) (effEchoWindowEnd site r s)

/-- A write of a Librarian-backed register waits while the Librarian is absent (R413). -/
def State.backedWrite (s : State) (k len : Nat) (v : W64) (f : State → State) : State :=
  if s.boot.absent then { s with boot := { s.boot with queuedWrites := s.boot.queuedWrites ++ [(k, len, v)] } } else f s

/-- LIB_INC_HEAD_WRITE (R438, R439). -/
def effLibIncHeadWrite (v : W64) (s : State) : State :=
  s.backedWrite libIncHead 8 v fun s => s.setReg libIncHead (BitVec.ofNat 64 (fldOf v 0 32))
def execLibIncHeadWrite (v : W64) (s : State) : Host.Outcome State Fault Refusal := carryOut true (effLibIncHeadWrite v s)

/-- An entry between HEAD and TAIL has severity SITE_LOST or above (R439). -/
def State.incAlert (s : State) : Bool :=
  let h := s.fld libIncHead 0 32
  let n := wsub (s.fld libIncTail 0 32) h
  (List.range (min n 1024)).any fun i => decide (5 ≤ nbits (s.mbxNum (incOff (h + i) + 4) 1) 0 3)

end Sys2Proof.Machine
end

