-- ==== Sys2Proof/Machine/Clerks.lean ====
section
/-!
DEFINITION. Clerk services (14_clerk_services R361-R375): service rings, what a clerk operation translates at its
start, and its records.
-/

namespace Sys2Proof.Machine

/-! ### Requests (R362, R368, R371, R374) -/

def vCr (d : Desc) : Bool := nbit d.toNat 8
def vNotify (d : Desc) : Bool := nbit d.toNat 9
def vWaitEn (d : Desc) : Bool := nbit d.toNat 10
def vRecEn (d : Desc) : Bool := nbit d.toNat 11
def vRecSet (d : Desc) : Bool := nbit d.toNat 12
def vTag (d : Desc) : Nat := dF d 0x04 0 32
def vWaitAddr (d : Desc) : Nat := dF d 0x08 0 55
def vWaitValue (d : Desc) : Nat := dF d 0x10 0 64
def vRecAddr (d : Desc) : Nat := dF d 0x18 0 55
def vRecValue (d : Desc) : Nat := dF d 0x20 0 64

def fSrc (d : Desc) : Nat := dF d 0x28 0 55
def fDst (d : Desc) : Nat := dF d 0x30 0 55
def fWork (d : Desc) : Nat := dF d 0x38 0 55
def fBytes (d : Desc) : Nat := dF d 0x40 0 40
def fTab (d : Desc) : Nat := dF d 0x48 0 55
def fInst (d : Desc) : Nat := dF d 0x50 0 32
def fMembers (d : Desc) : Nat := dF d 0x54 0 16
def fRank (d : Desc) : Nat := dF d 0x56 0 16
def fDtype (d : Desc) : Nat := dF d 0x58 0 4
def fNsrc (d : Desc) : Nat := dF d 0x59 0 8
def fStride (d : Desc) : Nat := dF d 0x60 0 64

def ckDev (d : Desc) : Nat := dF d 0x28 0 16
def ckObj (d : Desc) : Nat := dF d 0x30 0 64
def ckList (d : Desc) : Nat := dF d 0x38 0 55
def ckRanges (d : Desc) : Nat := dF d 0x40 0 16
def ckSnap (d : Desc) : Nat := dF d 0x48 0 55
def ckSnapAddr (d : Desc) : Nat := dF d 0x50 0 55
def ckSnapValue (d : Desc) : Nat := dF d 0x58 0 64

def sgList (d : Desc) : Nat := dF d 0x30 0 55
def sgBatches (d : Desc) : Nat := dF d 0x38 0 32
def sgSlots (d : Desc) : Nat := dF d 0x3C 0 16
def sgRing (d : Desc) : Nat := dF d 0x40 0 55
def sgSlotBytes (d : Desc) : Nat := dF d 0x48 0 40
def sgFilled (d : Desc) : Nat := dF d 0x50 0 55
def sgFreed (d : Desc) : Nat := dF d 0x58 0 55

def isFabColl (op : Nat) : Bool := decide (0x70 ≤ op) && decide (op ≤ 0x73)

/-- Reserved bits of a request: byte, first bit, width. -/
def svcRsv (op : Nat) : List (Nat × Nat × Nat) :=
  [(0x01, 5, 3), (0x02, 5, 11), (0x08, 55, 9), (0x18, 55, 9)] ++
  (if isFabColl op then
    [(0x28, 55, 9), (0x30, 55, 9), (0x38, 55, 9), (0x40, 40, 24), (0x48, 55, 9), (0x58, 4, 4), (0x5A, 0, 48), (0x68, 0, 192)]
  else if op = 0x78 then [(0x2A, 0, 48), (0x38, 55, 9), (0x42, 0, 48), (0x48, 55, 9), (0x50, 55, 9), (0x60, 0, 256)]
  else [(0x2A, 0, 48), (0x30, 55, 9), (0x3E, 0, 16), (0x40, 55, 9), (0x48, 40, 24), (0x50, 55, 9), (0x58, 55, 9), (0x60, 0, 256)])

/-- A storage endpoint's device number. -/
def devOk (dev : Nat) : Bool := decide (0x1000 ≤ dev) && decide (dev ≤ 0xFFFE)

/-- A request that completes with ILLEGAL_INSTRUCTION: a reserved opcode or bit; a field outside the range that its
table gives ends it in the same way, and so does a word that is to be added or exchanged and is not aligned (R142; DEDUCED,
log entry 18). -/
def svcBad (d : Desc) : Bool :=
  let op := hOpc d
  !(isFabColl op || decide (op = 0x78) || decide (op = 0x7A))
    || (svcRsv op).any (fun f => decide (dF d f.1 f.2.1 f.2.2 ≠ 0))
    || (isFabColl op && (decide (fInst d = 0) || decide (fMembers d < 2) || decide (4096 < fMembers d) || decide (fMembers d ≤ fRank d)
        || decide (fNsrc d = 0) || (decide (0x72 ≤ op) && decide (fNsrc d ≠ 1)) || (decide (op ≤ 0x71) && decide (2 < fDtype d))
        || decide (fBytes d % (512 * (if op = 0x72 then 1 else max 1 (fMembers d))) ≠ 0)
        || decide (fWork d % 8 ≠ 0) || (decide (op ≤ 0x71) && decide (1 < fNsrc d) && decide (fSrc d % 4 ≠ 0 ∨ fStride d % 4 ≠ 0))))
    || (decide (op = 0x78) && (!devOk (ckDev d) || decide (ckRanges d = 0)))
    || (decide (op = 0x7A) && (!devOk (ckDev d) || decide (sgSlots d = 0) || decide (sgSlotBytes d % 512 ≠ 0)))

/-! ### Rings (R361, R363, R366, R367) -/

def svcStatus (p k : Nat) : Nat := svcB p k + 0x48
def State.svcState (s : State) (p k : Nat) : Nat := s.fld (svcStatus p k) 0 4
def State.svcEnabled (s : State) (p k : Nat) : Bool := s.bit (svcB p k) 0
/-- Running operations of a ring. -/
def State.svcOps (s : State) (p k : Nat) : List ClerkOp := s.svc.ops.filter fun o => o.p = p && o.k = k

/-- Free entries of a service ring's completion ring: those of running requests are kept (R197). -/
def State.svcFree (s : State) (p k : Nat) : Nat :=
  let l := 2 ^ s.fld (svcB p k) 16 5
  let used := wsub (s.fld (svcB p k + 0x38) 0 32) (s.fld (svcB p k + 0x40) 0 32)
  l - used - (s.svcOps p k).length - (s.svcX p k).ring.out.length

/-- An entry for the record of a request that does not start, or no record is written (R388). -/
def State.svcMayRecord (s : State) (p k : Nat) : Bool := decide (s.svcFree p k ≠ 0) || (s.part p).kill

/-- STATE of a ring after a change. -/
def State.refreshSvc (s : State) (p k : Nat) : State :=
  let st := s.svcState p k
  if stuckState st then s
  else
    let run := !(s.svcOps p k).isEmpty
    let held := !(s.svcX p k).reqs.isEmpty
    let set (v : Nat) : State := s.setFld (svcStatus p k) 0 4 v
    if run then set 3
    else if !s.svcEnabled p k then set 0
    else if held then set (if st = 4 && s.svcFree p k = 0 then 4 else 2)
    else set (if st = 4 && s.svcFree p k = 0 then 4 else 1)

/-- What a ring does after a status (R367). -/
def State.afterSvc (s : State) (p k st lead : Nat) : State :=
  if killsContext st then
    let x := ringSite lead
    let cid := s.fld (svcB p k) 32 16
    let s := s.report { cls := 0x0E, site := x, unit := 7, status := st, sev := sevContext, reporter := x, part := some p, cid := cid, eng := 7, q := k }
    let s := s.killContext p cid st (some (.svc p k))
    if s.svcState p k = 8 then s else (s.setFld (svcStatus p k) 0 4 8).setFld (svcStatus p k) 8 8 st
  else if haltsQueue st && !stuckState (s.svcState p k) then (s.setFld (svcStatus p k) 0 4 5).setFld (svcStatus p k) 8 8 st
  else s

/-- A clerk is free again. -/
def State.freeClerk (s : State) (c : Nat × Nat) : State := s.setFld (clkClerk c.1 c.2) 0 22 0

/-- A request completes: DONE counts it, its record is written, and the ring acts on its status. Its event is
recorded when it completes OK or ALREADY_COMMITTED (DEDUCED from R372, log entry 19). -/
def State.svcComplete (s : State) (p k n : Nat) (d : Desc) (o : Option ClerkOp) (f : Fail) (index : Nat) : State :=
  let lead := (o.map (·.lead)).getD 0
  let silent := (o.map (·.silent)).getD false
  let s : State := match o with
    | some o =>
      let s : State := (o.helpers).foldl State.freeClerk (s.freeClerk (o.lead, o.clerk))
      { s with svc := { s.svc with ops := s.svc.ops.filter fun x => !(x.p = p && x.k = k && x.submit = n) } }
    | none => s
  let s := s.bump (svcB p k + 0x30) 0 32 1
  let s : State := match o with
    | some o => if vRecEn d && decide (f.code = stOk ∨ f.code = stAlreadyCommitted) then
        { s with net := { s.net with evts := s.net.evts ++ [{ addr := o.recPa, isSet := vRecSet d, val := BitVec.ofNat 64 (vRecValue d) }] } }
      else s
    | none => s
  let s := s.setRecX (.svc p k) { s.recX (.svc p k) with die := lead }
  let s := if silent then s
    else if s.dropsRecord (.svc p k) f.code then s.drop (.svc p k)
    else if vCr d || decide (f.code ≠ stOk) then
      s.emitRecord (.svc p k) (recBits (hOpc d) 0 7 k false (vTag d) index 0 (ringSite lead) n (s.siteCycle (ringSite lead)) f)
        (vNotify d || decide (f.code ≥ 0x10))
    else s
  let s := if silent then s else s.afterSvc p k f.code lead
  s.refreshSvc p k

/-- The request of count `n` is to be aborted when it reaches the head. -/
def SvcX.aborted (x : SvcX) (n : Nat) : Bool :=
  x.aborts.contains n || (match x.allBelow with
    | some t => decide (0 < wsub t n) && decide (wsub t n < 2 ^ 31)
    | none => false)

/-- A ring fetches the next request when it holds none: one that cannot start completes at once. -/
def State.svcPump (s : State) (p k : Nat) : Nat → State
  | 0 => s
  | fuel + 1 =>
    let n := s.fld (svcB p k + 0x28) 0 32
    let x := s.svcX p k
    if !s.svcEnabled p k || stuckState (s.svcState p k) || !x.reqs.isEmpty || decide (n = s.fld (svcB p k + 0x20) 0 32) || s.pwr.fatal then s
    else if !s.svcMayRecord p k then s.setFld (svcStatus p k) 0 4 4
    else
      let r := s.readVa (s.ctWho (.svc p k)) .read (s.fld (svcB p k + 0x8) 0 55 + 128 * (n % 2 ^ s.fld (svcB p k) 8 5)) 128 0
      let next (s : State) : State := s.bump (svcB p k + 0x28) 0 32 1
      match r.2 with
      | .wait => r.1
      | .err c a l => ((next r.1).svcComplete p k n 0 none (failOf c a l) 0).svcPump p k fuel
      | .ok bs =>
        let d : Desc := BitVec.ofNat 1024 (ofBytes bs)
        let s := next r.1
        let s := s.setSvcX p k { s.svcX p k with aborts := x.aborts.filter (· != n) }
        if x.aborted n then (s.svcComplete p k n d none { code := stAborted } 0).svcPump p k fuel
        else if svcBad d then (s.svcComplete p k n d none { code := stIllegal } 0).svcPump p k fuel
        else (s.setSvcX p k { s.svcX p k with reqs := [(n, d)] }).refreshSvc p k

/-- Fetches as far as the ring goes. -/
def State.svcFetch (s : State) (p k : Nat) : State := (s.svcPump p k 4097).refreshSvc p k

def svcOk (p k : Nat) : Bool := decide (p < Config.partitions) && decide (k < 4)

/-- SVC_TAIL (R361, R172, R387). -/
def effSvcTail (p k : Nat) (v : W64) (s : State) : State :=
  let new := fldOf v 0 32
  let tail := s.fld (svcB p k + 0x20) 0 32
  let head := s.fld (svcB p k + 0x28) 0 32
  if !s.svcEnabled p k || decide (s.partState p ≠ 1) || decide (2 ^ s.fld (svcB p k) 8 5 < wsub new head)
      || decide (2 ^ 31 ≤ wsub new tail) then s.dbErr (.svc p k)
  else (s.setFld (svcB p k + 0x20) 0 32 new).svcFetch p k

def execSvcTail (p k : Nat) (v : W64) (s : State) : Host.Outcome State Fault Refusal := carryOut (svcOk p k) (effSvcTail p k v s)

/-- SVC_CFG_WRITE (R361, R472): held fields are taken only while ENABLE was 0; a KILLED ring is left by ENABLE = 0. -/
def effSvcCfgWrite (p k : Nat) (v : W64) (s : State) : State :=
  let b := svcB p k
  let clamp (hi x : Nat) : Nat := max 4 (min hi x)
  let s := if s.svcEnabled p k then s else
    ((s.setFld b 8 5 (clamp 12 (fldOf v 8 5))).setFld b 16 5 (clamp 16 (fldOf v 16 5))).setFld b 32 16 (fldOf v 32 16)
  let s := (s.setFld b 0 1 (fldOf v 0 1)).setFld b 3 1 (fldOf v 3 1)
  let s := if !s.svcEnabled p k && s.svcState p k = 8 then s.setFld (svcStatus p k) 0 4 0 else s
  s.svcFetch p k

def execSvcCfgWrite (p k : Nat) (v : W64) (s : State) : Host.Outcome State Fault Refusal := carryOut (svcOk p k) (effSvcCfgWrite p k v s)

/-- SVC_RESUME (R367, R198): a HALTED ring continues, a BLOCKED one retries, any other is unchanged. -/
def effSvcResume (p k : Nat) (s : State) : State :=
  if s.svcState p k = 5 then ((s.setFld (svcStatus p k) 0 4 1).setFld (svcStatus p k) 8 8 0).svcFetch p k
  else if s.svcState p k = 6 then (s.retryRecords (.svc p k)).svcFetch p k
  else s

def execSvcResume (p k : Nat) (s : State) : Host.Outcome State Fault Refusal := carryOut (svcOk p k) (effSvcResume p k s)

/-- The request fetched and not started completes ABORTED. -/
def State.abortHeld (s : State) (p k : Nat) : State :=
  match (s.svcX p k).reqs with
  | [] => s
  | (n, d) :: _ =>
    if s.svcMayRecord p k then
      ((s.setSvcX p k { s.svcX p k with reqs := [] }).svcComplete p k n d none { code := stAborted } 0).svcFetch p k
    else s.setSvcX p k { s.svcX p k with aborts := n :: (s.svcX p k).aborts }

/-- Running operations learn of an abort. -/
def State.abortOps (s : State) (p k : Nat) (f : Nat → Bool) : State :=
  { s with svc := { s.svc with ops := s.svc.ops.map fun o => if o.p = p ∧ o.k = k ∧ f o.submit = true then { o with abortSeen := true } else o } }

/-- SVC_ABORT (R366). -/
def effSvcAbort (p k n : Nat) (s : State) : State :=
  let x := s.svcX p k
  if (s.svcOps p k).any fun o => o.submit = n then s.abortOps p k fun m => m = n
  else if x.reqs.any fun r => r.1 = n then s.abortHeld p k
  else if !between (s.fld (svcB p k + 0x28) 0 32) (s.fld (svcB p k + 0x20) 0 32) n then s
  else if 16 ≤ x.aborts.length then s.dbErr (.svc p k)
  else s.setSvcX p k { x with aborts := x.aborts ++ [n] }

def execSvcAbort (p k submit : Nat) (s : State) : Host.Outcome State Fault Refusal :=
  carryOut (svcOk p k && decide (submit < 2 ^ 32)) (effSvcAbort p k submit s)

/-- Aborts every accepted request of a ring (R366). -/
def State.svcAbortAll (s : State) (p k : Nat) : State :=
  let s := s.abortOps p k fun _ => true
  let s := s.setSvcX p k { s.svcX p k with allBelow := some (s.fld (svcB p k + 0x20) 0 32) }
  (s.abortHeld p k).svcFetch p k

def execSvcAbortAll (p k : Nat) (s : State) : Host.Outcome State Fault Refusal := carryOut (svcOk p k) (s.svcAbortAll p k)

/-! ### Clerks and their accesses (R363-R365) -/

def State.svcCid (s : State) (p k : Nat) : Nat := s.fld (svcB p k) 32 16

/-- Who makes the accesses of a clerk on a ring die: they are performed as issued. -/
def State.clerkWho (s : State) (p k die : Nat) : Who :=
  { q := { core := 256 + p, eng := 0, q := k }, part := p, cid := s.svcCid p k, site := ringSite die, pinned := true }

def State.clerkIdle (s : State) (r i : Nat) : Bool := decide (s.fld (clkClerk r i) 0 2 = 0)
/-- The free clerk of a ring die, the lowest (DESIGN CHOICE, log entry 20). -/
def State.freeOn (s : State) (r : Nat) : Option Nat :=
  if s.isLost (ringSite r) then none else (List.range 8).find? fun i => s.clerkIdle r i
/-- The lead of an operation, the lowest free clerk (DESIGN CHOICE, log entry 20). -/
def State.findLead (s : State) : Option (Nat × Nat) :=
  (List.range 24).findSome? fun r => (s.freeOn r).map fun i => (r, i)
/-- Its helpers: a free clerk on each other ring die that serves a device of the operation. -/
def State.findHelpers (s : State) (lead : Nat) (devs : List Nat) : List (Nat × Nat) :=
  (List.range 24).filterMap fun r => if r ≠ lead ∧ devs.any (s.dieServes r) = true then (s.freeOn r).map fun i => (r, i) else none

/-- A clerk is taken: state 1 LEAD, 2 HELPER. -/
def State.takeClerk (s : State) (c : Nat × Nat) (st op p k : Nat) : State :=
  s.setFld (clkClerk c.1 c.2) 0 22 (st + op * 2 ^ 8 + p * 2 ^ 16 + k * 2 ^ 20)

/-- The ring die that carries item `i` of `n`: contiguous equal shares. -/
def ClerkOp.dieOf (o : ClerkOp) (i n : Nat) : Nat :=
  let dies := o.lead :: o.helpers.map (·.1)
  dies.getD (i * dies.length / n) o.lead

/-- Translates a range for an access; `hbm` says that it must lie in the panel's own HBM. -/
def State.clerkRange (s : State) (w : Who) (k : Acc) (hbm : Bool) : Nat → Nat → Nat → State × Option Fail
  | 0, _, _ => (s, none)
  | fuel + 1, va, n =>
    if n = 0 then (s, none)
    else
      let m := pieceLen va n
      let t := s.xlat w k va
      match t.2 with
      | .error e => (t.1, some (failOf e.code va false))
      | .ok x =>
        if (hbm && !isHbm x.pa) || (decide (k = .atomic) && (isWin x.pa || isHostWin x.pa)) then (t.1, some (failOf stProtection va false))
        else if decide (k ≠ .read) && isHbm x.pa && t.1.mirrorB x.pa then (t.1, some (failOf stProtection va false))
        else if isWin x.pa then
          match t.1.winRefuse w.part w.cid (winSlot x.pa) (winOffset x.pa) m with
          | some c => (t.1, some (failOf c va false))
          | none => t.1.clerkRange w k hbm fuel (va + m) (n - m)
        else t.1.clerkRange w k hbm fuel (va + m) (n - m)

/-- A range of an operation: the access, whether it must lie in HBM, its first address and its length. -/
abbrev OpRange := Acc × Bool × Nat × Nat

/-- Translates the ranges of an operation in order: the first fault ends it. -/
def State.clerkRanges (s : State) (w : Who) : List OpRange → State × Option Fail
  | [] => (s, none)
  | (k, hbm, va, n) :: r =>
    let x := s.clerkRange w k hbm (n / 65536 + 2) va n
    match x.2 with
    | some f => (x.1, some f)
    | none => x.1.clerkRanges w r

/-- The pages of some ranges that the clerks' translations hold (R307, R364). -/
def State.opPages (s : State) (w : Who) (rs : List OpRange) : List Nat :=
  ((s.coreX w.q.core).tlb.filter fun e => e.cid = w.cid && rs.any fun r => decide (r.2.2.1 < e.va + 2 ^ e.lg) && decide (e.va < r.2.2.1 + r.2.2.2)).map
    fun e => e.va * 64 + e.lg

/-- Reads a number; failures and waits are passed on. -/
def State.readNum (s : State) (w : Who) (va n : Nat) : State × MRes Nat :=
  let r := s.readVa w .read va n 0
  (r.1, match r.2 with
    | .ok bs => .ok (ofBytes bs)
    | .err c a l => .err c a l
    | .wait => .wait)

/-- The ranges of the header. -/
def hdrRanges (d : Desc) : List OpRange :=
  (if vWaitEn d then [(.read, true, vWaitAddr d, 8)] else []) ++ (if vRecEn d then [(.atomic, true, vRecAddr d, 8)] else [])

/-- The runs of physically contiguous bytes of a range. -/
def State.physRuns (s : State) (w : Who) (k : Acc) : Nat → Nat → Nat → List (Nat × Nat) → State × Except Fail (List (Nat × Nat))
  | 0, _, _, acc => (s, .ok acc)
  | fuel + 1, va, n, acc =>
    if n = 0 then (s, .ok acc)
    else
      let m := pieceLen va n
      let t := s.xlat w k va
      match t.2 with
      | .error e => (t.1, .error (failOf e.code va false))
      | .ok x =>
        if !isHbm x.pa then (t.1, .error (failOf stProtection va false))
        else
          let acc := match acc.getLast? with
            | some (a, l) => if a + l = x.pa then acc.dropLast ++ [(a, l + m)] else acc ++ [(x.pa, m)]
            | none => [(x.pa, m)]
          t.1.physRuns w k fuel (va + m) (n - m) acc

/-! ### Starting (R362-R364) -/

/-- What the wait of a request comes to. -/
inductive SvcWait where
  | ready | wait
  | fail (f : Fail)
  deriving DecidableEq, Repr

/-- The request's wait (R362): an event word of panel HBM, read as a PANEL-scope acquire. -/
def State.svcWait (s : State) (w : Who) (d : Desc) : State × SvcWait :=
  if !vWaitEn d then (s, .ready)
  else
    let c := s.clerkRanges w [(.read, true, vWaitAddr d, 8)]
    match c.2 with
    | some f => (c.1, .fail f)
    | none =>
      let r := c.1.readNum w (vWaitAddr d) 8
      match r.2 with
      | .ok v => (r.1, if vWaitValue d ≤ v then .ready else .wait)
      | .err c a l => (r.1, .fail (failOf c a l))
      | .wait => (r.1, .wait)

/-- An operation takes its clerks and runs; a failure of its start completes it. -/
def State.svcBegin (s : State) (p k n : Nat) (d : Desc) (lead : Nat × Nat) (devs : List Nat) (rs : List OpRange) (step : ClerkStep)
    (recPa : Nat) (list : List (Nat × Nat × Nat)) (last : Nat) : State × ClerkOp :=
  let w := s.clerkWho p k lead.1
  let hs := s.findHelpers lead.1 devs
  let s := s.takeClerk lead 1 (hOpc d) p k
  let s := s.bump (clkClerk lead.1 lead.2) 32 32 1
  let s := hs.foldl (fun s h => s.takeClerk h 2 (hOpc d) p k) s
  let o : ClerkOp := { p := p, k := k, submit := n, req := d, step := step, lead := lead.1, clerk := lead.2, helpers := hs, recPa := recPa
                       list := list, lastInst := last, pages := s.opPages w rs }
  let s := s.setSvcX p k { s.svcX p k with reqs := [] }
  (({ s with svc := { s.svc with ops := s.svc.ops ++ [o] } } : State).refreshSvc p k, o)

/-- The physical address of the request's event. -/
def State.recPaOf (s : State) (w : Who) (d : Desc) : Nat :=
  if vRecEn d then
    match s.translate w .atomic (vRecAddr d) with
    | .ok x => x.pa
    | .error _ => 0
  else 0

/-- An operation completes, with ALREADY_COMMITTED where an abort reached it after its start. -/
def State.opDone (s : State) (o : ClerkOp) (code index : Nat) : State :=
  s.svcComplete o.p o.k o.submit o.req (some o) { code := if code = stOk ∧ o.abortSeen = true then stAlreadyCommitted else code } index

/-- An operation's access has failed. -/
def State.opFail (s : State) (o : ClerkOp) (code addr : Nat) (ls : Bool) (index : Nat) : State :=
  s.svcComplete o.p o.k o.submit o.req (some o) (failOf code addr ls) index

/-- A request whose start finds a fault: its lead completes it. -/
def State.svcRefuse (s : State) (p k n : Nat) (d : Desc) (lead : Nat × Nat) (rs : List OpRange) (f : Fail) : State :=
  let b := s.svcBegin p k n d lead [] rs .finish 0 [] 0
  b.1.svcComplete p k n d (some b.2) f 0

/-- The latest form of an operation. -/
def State.op? (s : State) (o : ClerkOp) : Option ClerkOp := s.svc.ops.find? fun x => x.p = o.p && x.k = o.k && x.submit = o.submit

/-- The ring may start its request now: it runs, fewer than four requests run, its record has an entry, and a
clerk is free. -/
def State.svcMayStart (s : State) (p k : Nat) : Bool :=
  s.svcEnabled p k && !stuckState (s.svcState p k) && decide ((s.svcOps p k).length < 4) && decide (s.svcFree p k ≠ 0) && !s.pwr.fatal

/-- The held request, when it has the opcode. -/
def State.svcHeld (s : State) (p k op : Nat) : Option (Nat × Desc) :=
  match (s.svcX p k).reqs with
  | (n, d) :: _ => if hOpc d = op then some (n, d) else none
  | [] => none

/-- The held request does not start: it completes. -/
def State.svcReject (s : State) (p k n : Nat) (d : Desc) (f : Fail) : State :=
  ((s.setSvcX p k { s.svcX p k with reqs := [] }).svcComplete p k n d none f 0).svcFetch p k

/-- Starts the held request of an opcode by `start`, once its wait has ended and a clerk is free; answers whether
anything has been done. -/
def State.svcTry (s0 : State) (p k op : Nat) (start : State → Nat → Desc → Nat × Nat → State) : State × Bool :=
  let s := s0.svcFetch p k
  match s.svcHeld p k op with
  | none => (s, false)
  | some (n, d) =>
    if !s.svcMayStart p k then
      ((if s.svcFree p k = 0 ∧ stuckState (s.svcState p k) = false then s.setFld (svcStatus p k) 0 4 4 else s), false)
    else match s.findLead with
      | none => (s, false)
      | some lead =>
        let x := s.svcWait (s.clerkWho p k lead.1) d
        match x.2 with
        | .wait => (x.1, false)
        | .fail f => (x.1.svcReject p k n d f, true)
        | .ready => ((start x.1 n d lead).svcFetch p k, true)

/-- A service row: the held request starts, else every running operation of the opcode goes a step on. -/
def State.clerkRow (s : State) (p k op : Nat) (start : State → Nat → Desc → Nat × Nat → State) (go : State → ClerkOp → State) : State :=
  let t := s.svcTry p k op start
  if t.2 then t.1
  else
    let s := (t.1.svcOps p k).foldl (fun s o => if hOpc o.req = op then (match s.op? o with
      | some o => go s o
      | none => s) else s) t.1
    s.svcFetch p k

/-- SVC_WAIT_TIMEOUT (R362, R370): the wait of the request before its start, or of a running collective, expires. -/
def effSvcWaitTimeout (p k : Nat) (s : State) : State :=
  match (s.svcX p k).reqs.find? fun r => vWaitEn r.2 with
  | some (n, d) =>
    if s.svcEnabled p k && !stuckState (s.svcState p k) && s.svcMayRecord p k then s.svcReject p k n d { code := stWaitTimeout } else s
  | none =>
    match (s.svcOps p k).find? fun o => isFabColl (hOpc o.req) && (o.step == .credit || o.step == .receive) with
    | some o => (s.opDone o stWaitTimeout 0).svcFetch p k
    | none => s

def execSvcWaitTimeout (p k : Nat) (s : State) : Host.Outcome State Fault Refusal := carryOut (svcOk p k) (effSvcWaitTimeout p k s)

end Sys2Proof.Machine
end

