-- ==== Sys2Proof/Machine/Services.lean ====
section
/-!
DEFINITION. The operations of the clerks (14_clerk_services R365, R368-R375): fabric collectives, CHECKPOINT and
STAGE.
-/

namespace Sys2Proof.Machine

/-! ### Fabric collectives (R368-R370) -/

/-- A chunk, or a block of F_ALLGATHER. -/
def fChunk (d : Desc) : Nat := if hOpc d = 0x72 then fBytes d else fBytes d / max 1 (fMembers d)
def fStages (d : Desc) : Nat := if hOpc d = 0x70 then 2 * fMembers d - 2 else fMembers d - 1
/-- Slots of the work region. -/
def fSlots (d : Desc) : Nat := if hOpc d = 0x73 then fMembers d - 1 else 2
/-- The slot of a stage, its use, and the tag. -/
def fSlot (d : Desc) (st : Nat) : Nat := if hOpc d = 0x73 then st else st % 2
def fUse (d : Desc) (st : Nat) : Nat := if hOpc d = 0x73 then 1 else st / 2 + 1
def fTag (inst use : Nat) : Nat := inst * 2 ^ 32 + use
/-- The rank that a member sends to in a stage, and the one it receives from. -/
def fTo (d : Desc) (st : Nat) : Nat := (fRank d + (if hOpc d = 0x73 then st + 1 else 1)) % fMembers d
def fFrom (d : Desc) (st : Nat) : Nat := (fRank d + fMembers d - (if hOpc d = 0x73 then st + 1 else 1)) % fMembers d
/-- The member is in the reduce phase. -/
def fReduces (d : Desc) (st : Nat) : Bool := decide (hOpc d = 0x71) || (decide (hOpc d = 0x70) && decide (st + 1 < fMembers d))
/-- The send of a stage forwards the slot received in the stage before. -/
def fForwards (d : Desc) (st : Nat) : Bool :=
  decide (hOpc d ≠ 0x73) && decide (0 < st) && !(decide (hOpc d = 0x70) && decide (st + 1 = fMembers d))
/-- Uses of a slot in one operation. -/
def fUses (d : Desc) (slot : Nat) : Nat := if hOpc d = 0x73 then 1 else (fStages d + 1 - slot) / 2

/-- The tag of the previous use of the slot of a stage; none where there is nothing to wait for. -/
def ClerkOp.prevTag (o : ClerkOp) : Option Nat :=
  let d := o.req
  let u := fUse d o.stage
  if 1 < u then some (fTag (fInst d) (u - 1))
  else if o.lastInst = 0 then none
  else some (fTag o.lastInst (fUses d (fSlot d o.stage)))

def fArrived (d : Desc) (slot : Nat) : Nat := fWork d + 0x1000 + 8 * slot
def fCredit (d : Desc) (slot : Nat) : Nat := fWork d + 0x10000 + 8 * slot
def fSlotVa (d : Desc) (slot : Nat) : Nat := fWork d + 0x20000 + slot * fChunk d

/-- What a member sends in a stage. -/
def fSendFrom (d : Desc) (st : Nat) : Nat :=
  let p := fMembers d
  let r := fRank d
  if hOpc d = 0x73 then fSrc d + (r + st + 1) % p * fChunk d
  else if fForwards d st then fSlotVa d (fSlot d (st - 1))
  else if st = 0 then (if hOpc d = 0x72 then fSrc d else fSrc d + (r + p - 1) % p * fChunk d)
  else fDst d + r * fChunk d

/-- Where a member puts what it receives in a stage that does not reduce. -/
def fPutAt (d : Desc) (st : Nat) : Nat :=
  let p := fMembers d
  let r := fRank d
  if hOpc d = 0x70 then fDst d + (r + 3 * p - st - 2) % p * fChunk d
  else fDst d + (r + p - st - 1) % p * fChunk d

/-- The ranges of a collective in the order of R364. -/
def collRanges (d : Desc) : List OpRange :=
  let adds := decide (hOpc d ≤ 0x71)
  let res := if hOpc d = 0x71 then fChunk d else if hOpc d = 0x72 then fMembers d * fBytes d else fBytes d
  let work := 0x20000 + fSlots d * fChunk d
  hdrRanges d
    ++ (if 1 < fNsrc d then [(.atomic, false, fSrc d, fBytes d)] else [])
    ++ ((List.range (fNsrc d)).map fun i => (.read, false, fSrc d + i * fStride d, fBytes d))
    ++ [(.write, false, fDst d, res), (.write, true, fWork d, work), (.read, true, fWork d, work)]
    ++ (if adds then [(.atomic, true, fSlotVa d 0, fSlots d * fChunk d)] else [])
    ++ [(.read, false, fTab d, 16 * fMembers d)]

/-- The entries of a member table; none where a reserved bit is set. -/
def tabEntries (bs : Bytes) (n : Nat) : Option (List (Nat × Nat × Nat)) :=
  (List.range n).mapM fun i =>
    let lo := ofBytes ((bs.drop (16 * i)).take 8)
    let hi := ofBytes ((bs.drop (16 * i + 8)).take 8)
    if lo < 2 ^ 16 ∧ hi < 2 ^ 46 then some (lo, hi, 0) else none

/-- Reads some ranges. -/
def State.readAll (s : State) (w : Who) : List (Nat × Nat) → List Bytes → State × MRes (List Bytes)
  | [], acc => (s, .ok acc)
  | (va, n) :: r, acc =>
    let x := s.readVa w .read va n 0
    match x.2 with
    | .ok bs => x.1.readAll w r (acc ++ [bs])
    | .err c a l => (x.1, .err c a l)
    | .wait => (x.1, .wait)

/-- Writes some ranges, as issued. -/
def State.writeAll (s : State) (w : Who) : List (Nat × Bytes) → State × MRes Unit
  | [] => (s, .ok ())
  | (va, bs) :: r =>
    let x := s.writeVa w va bs 0
    match x.2 with
    | .ok _ => x.1.writeAll w r
    | e => (x.1, e)

/-! #### Adds (R365) -/

/-- Words added at physical addresses of panel HBM: FP32 and BF16 words travel in one REDUCE packet for each sector, INT32
words as ATOM messages. -/
def State.addHbm (s : State) (o : ClerkOp) (w : Who) (pa : Nat) (bs : Bytes) : State :=
  let dt := fDtype o.req
  if dt ≤ 1 then
    (sectorsOf pa bs.length).foldl (fun s x =>
      let lo := max pa (128 * x)
      let d := (bs.drop (lo - pa)).take (128 * (x + 1) - lo)
      s.sendReduce w.site x (addPkt w.site w.part w.cid dt x ((2 ^ (d.length / 4) - 1) * 2 ^ (lo % 128 / 4)) (ofBytes d * 2 ^ (8 * (lo % 128))))) s
  else
    let s := (List.range (bs.length / 4)).foldl (fun s i => s.sendAtom w
      { sub := 0, size := 4, addr := pa + 4 * i, val := BitVec.ofNat 64 (ofBytes ((bs.drop (4 * i)).take 4)), cmp := 0#64 } (.clerk o.p o.k o.submit)) s
    s.modOp o.p o.k o.submit fun x => { x with adds := x.adds + bs.length / 4 }

/-- Words added to another panel's memory travel as AT exchanges (R289). -/
def State.addRemote (s : State) (o : ClerkOp) (w : Who) (pa : Nat) (bs : Bytes) : State :=
  let sub := if fDtype o.req = 0 then 0xA else if fDtype o.req = 1 then 0xB else 0
  (List.range (bs.length / 4)).foldl (fun s i =>
    let r := s.sendRemoteAtom w.site w.part w.cid
      { sub := sub, size := 4, addr := pa + 4 * i, val := BitVec.ofNat 64 (ofBytes ((bs.drop (4 * i)).take 4)), cmp := 0#64 } (.clerk o.p o.k o.submit)
    r.1.modOp o.p o.k o.submit fun x => if r.2 then { x with writes := x.writes + 1 } else x.fail stProtection) s

/-- A clerk adds a run of words to those at an address, as pinned MOPN reductions (R365), from the lead's ring die (DESIGN
CHOICE, log entry 131). -/
def State.clerkAddN (s : State) (o : ClerkOp) (w : Who) : Nat → Nat → Bytes → State × MRes Unit
  | 0, _, _ => (s, .ok ())
  | fuel + 1, va, bs =>
    if bs.isEmpty then (s, .ok ())
    else
      let m := pieceLen va bs.length
      let t := s.xlat w .atomic va
      match t.2 with
      | .error e => (t.1, .err e.code va false)
      | .ok x =>
        if isRemote x.pa then (t.1.addRemote o w x.pa (bs.take m)).clerkAddN o w fuel (va + m) (bs.drop m)
        else if !isHbm x.pa || t.1.mirrorB x.pa then (t.1, .err stProtection va false)
        else if t.1.isLost (homeOf x.pa) then (t.1, .err stSiteLost x.pa false)
        else (t.1.addHbm o w x.pa (bs.take m)).clerkAddN o w fuel (va + m) (bs.drop m)

def State.clerkAdd (s : State) (o : ClerkOp) (w : Who) (va : Nat) (bs : Bytes) : State × MRes Unit :=
  s.clerkAddN o w (bs.length / 65536 + 2) va bs

/-- Adds several runs to the same words. -/
def State.clerkAdds (s : State) (o : ClerkOp) (w : Who) (va : Nat) : List Bytes → State × MRes Unit
  | [] => (s, .ok ())
  | bs :: r =>
    let x := s.clerkAdd o w va bs
    match x.2 with
    | .ok _ => x.1.clerkAdds o w va r
    | e => (x.1, e)

/-! #### The start -/

/-- The collective reduces. -/
def fAdds (d : Desc) : Bool := decide (hOpc d ≤ 0x71)
/-- The inputs that the start reads: those added into input 0, or the one that is sent. -/
def fInputs (d : Desc) : List Nat := if fAdds d then (List.range (fNsrc d)).drop 1 else List.range (fNsrc d)

/-- What the start of a collective writes: the member's own block or chunk into DST, and LAST_INSTANCE (DEDUCED: kept
from the start of an operation, log entry 21). -/
def collStartWrites (d : Desc) (ins : List Bytes) : List (Nat × Bytes) :=
  let own := if hOpc d = 0x72 then [(fDst d + fRank d * fBytes d, ins.headD [])]
    else if hOpc d = 0x73 then [(fDst d + fRank d * fChunk d, ((ins.headD []).drop (fRank d * fChunk d)).take (fChunk d))] else []
  own ++ [(fWork d, toBytes 8 (fInst d))]

/-- A collective starts: inputs 1 to NSRC - 1 are added into input 0 before stage 0 (R368). -/
def State.startColl (p k : Nat) (s : State) (n : Nat) (d : Desc) (lead : Nat × Nat) : State :=
  let w := s.clerkWho p k lead.1
  let rs := collRanges d
  let c := s.clerkRanges w rs
  match c.2 with
  | some f => c.1.svcRefuse p k n d lead rs f
  | none =>
    let t := c.1.readAll w ((fTab d, 16 * fMembers d) :: (fWork d, 8) :: ((fInputs d).map fun i => (fSrc d + i * fStride d, fBytes d))) []
    match t.2 with
    | .wait => t.1
    | .err e a l => t.1.svcRefuse p k n d lead rs (failOf e a l)
    | .ok (tb :: last :: ins) =>
      match tabEntries tb (fMembers d) with
      | none => t.1.svcRefuse p k n d lead rs { code := stIllegal }
      | some es =>
        if (es.getD (fRank d) (0, 0, 0)).1 ≠ s.panelNo then t.1.svcRefuse p k n d lead rs { code := stIllegal }
        else
          let x := t.1.writeAll w (collStartWrites d ins)
          match x.2 with
          | .wait => s
          | .err e a l => x.1.svcRefuse p k n d lead rs (failOf e a l)
          | .ok _ =>
            let devs := (es.map (·.1)).filter (· ≠ s.panelNo)
            let step : ClerkStep := if 1 < fNsrc d then .sum else .credit
            let b := x.1.svcBegin p k n d lead devs rs step (x.1.recPaOf w d) es (ofBytes (last.take 4))
            let r := b.1.clerkAdds b.2 w (fSrc d) (if fAdds d then ins else [])
            match r.2 with
            | .err e a l => r.1.opFail b.2 e a l 0
            | _ => r.1
    | .ok _ => t.1

/-- A request of an operation to another panel. -/
def State.opSend (s : State) (o : ClerkOp) (die dev : Nat) (pkt : NF) (d : Bytes) (use : FabUse) (sent : ClerkOp → ClerkOp) : State :=
  let r := s.fabRequest (ringSite die) dev { pkt with part := o.p, cid := s.svcCid o.p o.k, len := d.length } d use
  r.1.modOp o.p o.k o.submit (if r.2 then sent else fun o => o.fail stProtection)

/-- Sets a word of another member's work region to a tag by an AT exchange. -/
def State.sendTag (s : State) (o : ClerkOp) (rank off tag : Nat) : State :=
  let e := o.list.getD rank (0, 0, 0)
  s.opSend o o.lead e.1 { ty := 0x12, addr := e.2.1 + off, sub := 8 } (toBytes 8 tag) (.clerk o.p o.k o.submit) fun o => { o with writes := o.writes + 1 }

/-- Writes a slot of another member by WR packets, one for each line, shared among the clerks. -/
def State.sendSlot (s : State) (o : ClerkOp) (rank slot : Nat) (bs : Bytes) : State :=
  let e := o.list.getD rank (0, 0, 0)
  let n := bs.length / 512
  let pa := e.2.1 + 0x20000 + slot * fChunk o.req
  (List.range n).foldl (fun s i =>
    let ln := (bs.drop (512 * i)).take 512
    s.opSend o (o.dieOf i n) e.1 { ty := 0x11, addr := pa + 512 * i, sub := 15 } (maskedSectors 15 fun j => ln[j]?) (.clerk o.p o.k o.submit)
      fun o => { o with writes := o.writes + 1 }) s

def State.setOp (s : State) (o : ClerkOp) : State := s.modOp o.p o.k o.submit fun x => { x with stage := o.stage, step := o.step }

/-- Step 1 and 2 of a transfer: once the credit has come, the slot is written; a slot that is forwarded is then
consumed. -/
def State.collSend (s : State) (o : ClerkOp) : State :=
  let d := o.req
  let w := s.clerkWho o.p o.k o.lead
  let slot := fSlot d o.stage
  let c := s.readNum w (fCredit d slot) 8
  match c.2 with
  | .wait => c.1
  | .err e a l => c.1.opFail o e a l 0
  | .ok v =>
    if o.prevTag.any fun t => t ≠ v then c.1
    else
      let r := c.1.readVa w .read (fSendFrom d o.stage) (fChunk d) 0
      match r.2 with
      | .wait => r.1
      | .err e a l => r.1.opFail o e a l 0
      | .ok bs =>
        let s := r.1.sendSlot o (fTo d o.stage) slot bs
        let s := if fForwards d o.stage then
            s.sendTag o (fFrom d (o.stage - 1)) (0x10000 + 8 * fSlot d (o.stage - 1)) (fTag (fInst d) (fUse d (o.stage - 1)))
          else s
        s.setOp { o with step := .data }

/-- The receiver has acted on the slot of a stage: it gives the slot back, unless the next stage forwards it. -/
def State.collNext (s : State) (o : ClerkOp) : State :=
  let d := o.req
  let last := decide (o.stage + 1 = fStages d)
  let s := if !last && fForwards d (o.stage + 1) then s
    else s.sendTag o (fFrom d o.stage) (0x10000 + 8 * fSlot d o.stage) (fTag (fInst d) (fUse d o.stage))
  s.setOp { o with stage := o.stage + 1, step := if last then .finish else .credit }

/-- The receiver copies the slot of a stage to DST. -/
def State.collCopy (s : State) (o : ClerkOp) (dst : Nat) : State :=
  let d := o.req
  let w := s.clerkWho o.p o.k o.lead
  let r := s.readVa w .read (fSlotVa d (fSlot d o.stage)) (fChunk d) 0
  match r.2 with
  | .wait => r.1
  | .err e a l => r.1.opFail o e a l 0
  | .ok bs =>
    let x := r.1.writeVa w dst bs 0
    match x.2 with
    | .wait => s
    | .err e a l => x.1.opFail o e a l 0
    | .ok _ => x.1.collNext o

/-- Step 4 of a transfer: once the slot has arrived, the member adds its input-0 chunk to it, or copies it. -/
def State.collReceive (s : State) (o : ClerkOp) : State :=
  let d := o.req
  let w := s.clerkWho o.p o.k o.lead
  let slot := fSlot d o.stage
  let c := s.readNum w (fArrived d slot) 8
  match c.2 with
  | .wait => c.1
  | .err e a l => c.1.opFail o e a l 0
  | .ok v =>
    if v ≠ fTag (fInst d) (fUse d o.stage) then c.1
    else if fReduces d o.stage then
      let r := c.1.readVa w .read (fSrc d + (fRank d + 2 * fMembers d - o.stage - 2) % fMembers d * fChunk d) (fChunk d) 0
      match r.2 with
      | .wait => r.1
      | .err e a l => r.1.opFail o e a l 0
      | .ok bs =>
        let x := r.1.clerkAdd o w (fSlotVa d slot) bs
        match x.2 with
        | .err e a l => x.1.opFail o e a l 0
        | _ => x.1.setOp { o with step := .added }
    else c.1.collCopy o (fPutAt d o.stage)

/-- The adds of a stage are on their way: a slot is read once every one has been acknowledged (R330, R365). The last stage of
a reduction writes the sum to DST. -/
def State.collAdded (s : State) (o : ClerkOp) : State :=
  if o.adds ≠ 0 then s
  else if o.stage + 2 = fMembers o.req then s.collCopy o (if hOpc o.req = 0x71 then fDst o.req else fDst o.req + fRank o.req * fChunk o.req)
  else s.collNext o

/-- A running collective goes a step on. -/
def State.collGo (s : State) (o : ClerkOp) : State :=
  if o.code ≠ 0 then s.opDone o o.code 0
  else match o.step with
    | .sum => if o.adds = 0 ∧ o.writes = 0 then s.setOp { o with step := .credit } else s
    | .credit => s.collSend o
    | .data =>
      if o.writes ≠ 0 then s
      else (s.sendTag o (fTo o.req o.stage) (0x1000 + 8 * fSlot o.req o.stage) (fTag (fInst o.req) (fUse o.req o.stage))).setOp { o with step := .receive }
    | .receive => s.collReceive o
    | .added => s.collAdded o
    | _ => if o.writes = 0 then s.opDone o stOk 0 else s

/-- F_ALLREDUCE. -/
def effFAllreduce (p k : Nat) (s : State) : State := s.clerkRow p k 0x70 (State.startColl p k) State.collGo
def execFAllreduce (p k : Nat) (s : State) : Host.Outcome State Fault Refusal := carryOut (svcOk p k) (effFAllreduce p k s)

/-- F_REDUCE_SCATTER. -/
def effFReduceScatter (p k : Nat) (s : State) : State := s.clerkRow p k 0x71 (State.startColl p k) State.collGo
def execFReduceScatter (p k : Nat) (s : State) : Host.Outcome State Fault Refusal := carryOut (svcOk p k) (effFReduceScatter p k s)

/-- F_ALLGATHER. -/
def effFAllgather (p k : Nat) (s : State) : State := s.clerkRow p k 0x72 (State.startColl p k) State.collGo
def execFAllgather (p k : Nat) (s : State) : Host.Outcome State Fault Refusal := carryOut (svcOk p k) (effFAllgather p k s)

/-- F_ALLTOALL. -/
def effFAlltoall (p k : Nat) (s : State) : State := s.clerkRow p k 0x73 (State.startColl p k) State.collGo
def execFAlltoall (p k : Nat) (s : State) : Host.Outcome State Fault Refusal := carryOut (svcOk p k) (effFAlltoall p k s)

/-! ### CHECKPOINT (R371-R373) -/

/-- The ranges of a list of a CHECKPOINT; none where an entry is not as R371 has it. -/
def ckEntries (bs : Bytes) (n : Nat) : Option (List (Nat × Nat × Nat)) :=
  (List.range n).mapM fun i =>
    let q (j : Nat) : Nat := ofBytes ((bs.drop (32 * i + 8 * j)).take 8)
    if q 0 < 2 ^ 55 ∧ q 1 < 2 ^ 40 ∧ q 3 = 0 ∧ q 0 % 512 = 0 ∧ q 1 % 512 = 0 ∧ q 2 % 512 = 0 then some (q 0, q 1, q 2) else none

/-- The same ranges as they stand back to back in the snapshot. -/
def snapList : Nat → List (Nat × Nat × Nat) → List (Nat × Nat × Nat)
  | _, [] => []
  | va, (_, n, off) :: r => (va, n, off) :: snapList (va + n) r

def ckRangesOf (d : Desc) (es : List (Nat × Nat × Nat)) : List OpRange :=
  let total := (es.map fun e => e.2.1).foldl (· + ·) 0
  hdrRanges d ++ [(.read, false, ckList d, 32 * ckRanges d)]
    ++ (if ckSnap d = 0 then [] else
        [(.write, true, ckSnap d, total), (.read, true, ckSnap d, total)] ++ (if ckSnapAddr d = 0 then [] else [(.atomic, true, ckSnapAddr d, 8)]))
    ++ es.map fun e => (.read, decide (ckSnap d = 0), e.1, e.2.1)

/-- A CHECKPOINT starts: its snapshot is taken, and SNAP_ADDR is set. -/
def State.startCheckpoint (p k : Nat) (s : State) (n : Nat) (d : Desc) (lead : Nat × Nat) : State :=
  let w := s.clerkWho p k lead.1
  let pre := hdrRanges d ++ [(.read, false, ckList d, 32 * ckRanges d)]
  let c := s.clerkRanges w pre
  match c.2 with
  | some f => c.1.svcRefuse p k n d lead pre f
  | none =>
    let t := c.1.readVa w .read (ckList d) (32 * ckRanges d) 0
    match t.2 with
    | .wait => t.1
    | .err e a l => t.1.svcRefuse p k n d lead pre (failOf e a l)
    | .ok bs =>
      match ckEntries bs (ckRanges d) with
      | none => t.1.svcRefuse p k n d lead pre { code := stIllegal }
      | some es =>
        let rs := ckRangesOf d es
        let c := t.1.clerkRanges w rs
        match c.2 with
        | some f => c.1.svcRefuse p k n d lead rs f
        | none =>
          let r := if ckSnap d = 0 then (c.1, MRes.ok []) else c.1.readAll w (es.map fun e => (e.1, e.2.1)) []
          match r.2 with
          | .wait => r.1
          | .err e a l => r.1.svcRefuse p k n d lead rs (failOf e a l)
          | .ok ins =>
            let ws := if ckSnap d = 0 then [] else
              [(ckSnap d, ins.flatten)] ++ (if ckSnapAddr d = 0 then [] else [(ckSnapAddr d, toBytes 8 (ckSnapValue d))])
            let x := r.1.writeAll w ws
            match x.2 with
            | .wait => s
            | .err e a l => x.1.svcRefuse p k n d lead rs (failOf e a l)
            | .ok _ =>
              (x.1.svcBegin p k n d lead [ckDev d] rs .stream (x.1.recPaOf w d) (if ckSnap d = 0 then es else snapList (ckSnap d) es) 0).1

/-- The 32 bytes of an object request (R360). -/
def objReq (obj off len pa : Nat) : Bytes := toBytes 8 obj ++ toBytes 8 off ++ toBytes 8 len ++ toBytes 8 pa

/-- Sends one run of physically contiguous bytes as an OBJ_PUT: its data in packets of up to 512 bytes, then OBJ_END. -/
def State.putRun (s : State) (o : ClerkOp) (die : Nat) (pa off : Nat) (bs : Bytes) : State :=
  let dev := ckDev o.req
  let keep (o : ClerkOp) : ClerkOp := o
  let s := s.opSend o die dev { ty := 0x21 } (objReq (ckObj o.req) off bs.length pa) .response keep
  let s := (List.range (ceilDiv bs.length 512)).foldl (fun s i =>
    s.opSend o die dev { ty := 0x22, tc := 2, addr := off + 512 * i } ((bs.drop (512 * i)).take 512) .response keep) s
  s.opSend o die dev { ty := 0x23, tc := 2 } [] (.objPut o.p o.k o.submit) fun o => { o with puts := o.puts + 1 }

/-- The runs of a CHECKPOINT: physical address, object offset and bytes. -/
def State.ckRuns (s : State) (w : Who) : List (Nat × Nat × Nat) → List (Nat × Nat × Bytes) → State × MRes (List (Nat × Nat × Bytes))
  | [], acc => (s, .ok acc)
  | (va, n, off) :: r, acc =>
    let x := s.physRuns w .read (n / 65536 + 2) va n []
    match x.2 with
    | .error f => (x.1, .err f.code va false)
    | .ok runs =>
      let y := x.1.readVa w .read va n 2
      match y.2 with
      | .err e a l => (y.1, .err e a l)
      | .wait => (y.1, .wait)
      | .ok bs =>
        let add := runs.foldl (fun (a : List (Nat × Nat × Bytes) × Nat) e => (a.1 ++ [(e.1, off + a.2, (bs.drop a.2).take e.2)], a.2 + e.2)) ([], 0)
        y.1.ckRuns w r (acc ++ add.1)

/-- A running CHECKPOINT goes a step on. -/
def State.checkpointGo (s : State) (o : ClerkOp) : State :=
  if o.code ≠ 0 then s.opDone o o.code 0
  else if o.step == .stream then
    let r := s.ckRuns (s.clerkWho o.p o.k o.lead) o.list []
    match r.2 with
    | .wait => r.1
    | .err e a l => r.1.opFail o e a l 0
    | .ok runs =>
      let s := runs.zipIdx.foldl (fun (s : State) e => s.putRun o (o.dieOf e.2 runs.length) e.1.1 e.1.2.1 e.1.2.2) r.1
      s.setOp { o with step := .finish }
  else if o.puts = 0 then s.opDone o stOk 0
  else s

/-- CHECKPOINT. -/
def effCheckpoint (p k : Nat) (s : State) : State := s.clerkRow p k 0x78 (State.startCheckpoint p k) State.checkpointGo
def execCheckpoint (p k : Nat) (s : State) : Host.Outcome State Fault Refusal := carryOut (svcOk p k) (effCheckpoint p k s)

/-! ### STAGE (R374, R375) -/

def stageRanges (d : Desc) : List OpRange :=
  hdrRanges d ++ [(.read, false, sgList d, 32 * sgBatches d), (.write, true, sgRing d, sgSlots d * sgSlotBytes d),
    (.atomic, true, sgFilled d, 8), (.read, true, sgFreed d, 8)]

/-- A STAGE starts. -/
def State.startStage (p k : Nat) (s : State) (n : Nat) (d : Desc) (lead : Nat × Nat) : State :=
  let w := s.clerkWho p k lead.1
  let rs := stageRanges d
  let c := s.clerkRanges w rs
  match c.2 with
  | some f => c.1.svcRefuse p k n d lead rs f
  | none => (c.1.svcBegin p k n d lead [ckDev d] rs .batches (c.1.recPaOf w d) [] 0).1

/-- No further batch starts: an abort has come, a batch has failed, or the operation fails. -/
def ClerkOp.stopped (o : ClerkOp) : Bool := o.abortSeen || o.bad.isSome || decide (o.code ≠ 0)

/-- A STAGE completes once nothing is in flight and no batch is to start. -/
def State.stageGo (s : State) (o : ClerkOp) : State :=
  if !o.started.isEmpty then s
  else if o.code ≠ 0 then s.opDone o o.code o.filled
  else match o.bad with
    | some b => s.svcComplete o.p o.k o.submit o.req (some o) { code := stDataPoison } (b + 1)
    | none =>
      if o.abortSeen then s.svcComplete o.p o.k o.submit o.req (some o) { code := stAborted } o.filled
      else if o.next = sgBatches o.req then s.opDone o stOk o.filled
      else s

/-- STAGE. -/
def effStage (p k : Nat) (s : State) : State := s.clerkRow p k 0x7A (State.startStage p k) State.stageGo
def execStage (p k : Nat) (s : State) : Host.Outcome State Fault Refusal := carryOut (svcOk p k) (effStage p k s)

/-- A running STAGE. -/
def State.stageOp (s : State) (p k n : Nat) : Option ClerkOp := (s.svcOps p k).find? fun o => o.submit = n && hOpc o.req = 0x7A

/-- Sends the OBJ_GETs of a batch, one for each run of physically contiguous bytes. -/
def State.sendGets (s : State) (o : ClerkOp) (b obj off : Nat) (runs : List (Nat × Nat)) : State :=
  (runs.foldl (fun (a : State × Nat) e =>
    let dev := ckDev o.req
    let g : ObjGet := { dev := dev, obj := obj, offset := off + a.2, length := e.2, pa := e.1, part := o.p, cid := a.1.svcCid o.p o.k
                        p := o.p, k := o.k, submit := o.submit, batch := b }
    let s : State := { a.1 with fab := { a.1.fab with gets := a.1.fab.gets ++ [g] } }
    (s.opSend o (o.dieOf b (sgBatches o.req)) dev { ty := 0x20 } (objReq obj (off + a.2) e.2 e.1) (.objGet o.p o.k o.submit b e.1) fun o => o, a.2 + e.2))
    (s, 0)).1

/-- STAGE_BATCH_START (R375): batch n starts once FREED is at least n - SLOTS + 1, with fewer than four in flight; its
list entry is read now. -/
def effStageBatchStart (p k n : Nat) (s : State) : State :=
  match s.stageOp p k n with
  | none => s
  | some o =>
    let d := o.req
    let w := s.clerkWho p k o.lead
    let b := o.next
    if o.stopped || decide (sgBatches d ≤ b) || decide (4 ≤ o.started.length) then s
    else
      let f := s.readNum w (sgFreed d) 8
      match f.2 with
      | .wait => f.1
      | .err e _ _ => f.1.modOp p k n fun o => o.fail e
      | .ok freed =>
        if freed + sgSlots d < b + 1 then f.1
        else
          let r := f.1.readVa w .read (sgList d + 32 * b) 32 0
          match r.2 with
          | .wait => r.1
          | .err e _ _ => r.1.modOp p k n fun o => o.fail e
          | .ok bs =>
            let q (j : Nat) : Nat := ofBytes ((bs.drop (8 * j)).take 8)
            if sgSlotBytes d < q 2 ∨ q 3 ≠ 0 then r.1.modOp p k n fun o => o.fail stIllegal
            else if (r.1.keeperFor (ringSite (o.dieOf b (sgBatches d))) (ckDev d)).isNone then r.1.modOp p k n fun o => o.fail stProtection
            else
              let x := r.1.physRuns w .write (q 2 / 65536 + 2) (sgRing d + b % sgSlots d * sgSlotBytes d) (q 2) []
              match x.2 with
              | .error e => x.1.modOp p k n fun o => o.fail e.code
              | .ok runs =>
                let s := x.1.modOp p k n fun o => { o with next := b + 1, started := o.started ++ [b] }
                s.sendGets o b (q 0) (q 1) runs

def execStageBatchStart (p k submit : Nat) (s : State) : Host.Outcome State Fault Refusal :=
  carryOut (svcOk p k && decide (submit < 2 ^ 32)) (effStageBatchStart p k submit s)

/-- FILLED goes over the batches that have landed without a gap. -/
def ClerkOp.fill (o : ClerkOp) : Nat → ClerkOp
  | 0 => o
  | fuel + 1 => if o.landed.contains o.filled then ClerkOp.fill { o with filled := o.filled + 1, landed := o.landed.erase o.filled } fuel else o

/-- STAGE_BATCH_LANDED (R375): a batch whose GETs have ended lands, and FILLED is set. -/
def effStageBatchLanded (p k n batch : Nat) (s : State) : State :=
  match s.stageOp p k n with
  | none => s
  | some o =>
    if !o.started.contains batch || s.fab.gets.any fun g => g.p = p && g.k = k && g.submit = n && g.batch = batch then s
    else
      let o' := ClerkOp.fill { o with started := o.started.erase batch, landed := o.landed ++ [batch] } (o.landed.length + 2)
      let x := if o'.filled = o.filled then (s, MRes.ok ()) else s.writeVa (s.clerkWho p k o.lead) (sgFilled o.req) (toBytes 8 o'.filled) 0
      match x.2 with
      | .wait => s
      | r =>
        let o'' := match r with | .err e _ _ => o'.fail e | _ => o'
        let s := x.1.modOp p k n fun _ => o''
        (s.stageGo o'').svcFetch p k

def execStageBatchLanded (p k submit batch : Nat) (s : State) : Host.Outcome State Fault Refusal :=
  carryOut (svcOk p k && decide (submit < 2 ^ 32)) (effStageBatchLanded p k submit batch s)

end Sys2Proof.Machine
end

