-- ==== Sys2Proof/Machine/Parts.lean ====
section
/-!
DEFINITION. The Librarian's mailbox and its commands (16_mould_and_start R402, R409, R410, R414) and the partition
commands (15_partitions R385-R392, 11_translation R307).
-/

namespace Sys2Proof.Machine

/-! ### The mailbox (R409) -/

/-- STATE of LIB_BOOT_STATUS. -/
def State.bootState (s : State) : Nat := s.fld libBootStatus 0 4
/-- The Librarian works. -/
def State.libWorks (s : State) : Bool := decide (s.bootState = 6) && !s.boot.absent && !s.pwr.fatal

def mbSlot (n : Nat) : Nat := 0x4000 + 64 * (n % 256)
def State.mbCode (s : State) (n : Nat) : Nat := s.mbxNum (mbSlot n) 2
/-- An argument, as the slot stands now (DESIGN CHOICE for a slot that the host rewrites, log entry 133). -/
def State.mbArg (s : State) (n i : Nat) : Nat := s.mbxNum (mbSlot n + 8 + 8 * i) 8
/-- The reserved fields of a slot are 0. -/
def State.mbRsvOk (s : State) (n : Nat) : Bool := decide (s.mbxNum (mbSlot n + 2) 2 = 0) && decide (s.mbxNum (mbSlot n + 0x29) 7 = 0)

/-- Commands that name a partition. -/
def mbNames : List Nat := [0x30, 0x31, 0x100, 0x101, 0x102, 0x108, 0x110, 0x118, 0x119, 0x11A, 0x11B, 0x11C]
/-- Every command code (R385, R410). -/
def mbCodes : List Nat := [0x01, 0x10, 0x20, 0x40, 0x41] ++ mbNames

/-- The partition that the command of count `n` names. -/
def State.mbPart (s : State) (n : Nat) : Option Nat :=
  if s.mbRsvOk n && mbNames.contains (s.mbCode n) then some (s.mbArg n 0 % 16) else none

def State.mbDoneCount (s : State) : Nat := s.fld libMbDone 0 32

/-- The posted count that stands in a slot and has not completed. -/
def State.mbAt (s : State) (slot : Nat) : Option Nat :=
  let d := s.mbDoneCount
  let off := (slot % 256 + 256 - d % 256) % 256
  let n := (d + off) % 2 ^ 32
  if off < wsub (s.fld libMbTail 0 32) d ∧ s.boot.doneAhead.contains n = false then some n else none

/-- The command of a count is in progress: it waits for an event. -/
def State.mbBusy (s : State) (n : Nat) : Bool :=
  s.parts.any fun e => e.2.drain = some n || e.2.flush = some n || e.2.release = some n || (e.2.s2.map (·.1)) = some n

/-- Every earlier command has completed, or it and this one name different partitions (R386). -/
def State.mbFree (s : State) (n : Nat) : Bool :=
  let d := s.mbDoneCount
  (List.range (wsub n d)).all fun j =>
    let m := (d + j) % 2 ^ 32
    s.boot.doneAhead.contains m || (match s.mbPart m, s.mbPart n with
      | some a, some b => decide (a ≠ b)
      | _, _ => false)

/-- The command that the Librarian may run now from a slot. -/
def State.mbNext (s : State) (slot : Nat) (ok : Nat → Bool) : Option Nat :=
  if !s.libWorks then none
  else match s.mbAt slot with
    | some n => if !s.mbBusy n && s.mbFree n && ok n then some n else none
    | none => none

/-- The Librarian takes the slots up to a count: RESULT is PENDING and HEAD rises. -/
def State.mbTake (s : State) (n : Nat) : State :=
  let h := s.fld libMbHead 0 32
  let k := wsub (n + 1) h
  if 256 < k then s
  else ((List.range k).foldl (fun s j => s.mbxWr (mbSlot (h + j) + 0x28) [0xFF#8]) s).setFld libMbHead 0 32 (n + 1)

/-- DONE passes the completed slots. -/
def State.mbPass (s : State) : Nat → State
  | 0 => s
  | fuel + 1 =>
    let d := s.mbDoneCount
    if s.boot.doneAhead.contains d then
      (({ s with boot := { s.boot with doneAhead := s.boot.doneAhead.erase d } } : State).setFld libMbDone 0 32 (d + 1)).mbPass fuel
    else s

def mbOk : Nat := 0
def mbBadArg : Nat := 1
def mbBadState : Nat := 2
def mbBadSum : Nat := 3
def mbBadCode : Nat := 4

/-- A command completes: its data, then its result, are written. -/
def State.mbDone (s : State) (n result data : Nat) : State :=
  let part := s.mbPart n
  let s := s.mbxWr (mbSlot n + 0x30) (toBytes 8 data ++ toBytes 8 0)
  let s := s.mbxWr (mbSlot n + 0x28) (toBytes 1 result)
  let s := match part with
    | some p => s.bump (libPartState p) 16 16 1
    | none => s
  let s : State := { s with boot := { s.boot with doneAhead := s.boot.doneAhead ++ [n] } }
  (s.mbPass 257).shed

/-- Runs the command of a slot that has a code: `f` answers its result and data, or that it goes on. -/
def State.mbRun (s : State) (slot code : Nat) (f : State → Nat → State × Option (Nat × Nat)) : State :=
  match s.mbNext slot fun n => s.mbCode n = code && s.mbRsvOk n with
  | none => s
  | some n =>
    let r := f (s.mbTake n) n
    match r.2 with
    | some (res, data) => r.1.mbDone n res data
    | none => r.1

def slotOk (slot : Nat) : Bool := decide (slot < 256)

/-- LIB_MB_TAIL_WRITE (R409). -/
def effLibMbTailWrite (v : W64) (s : State) : State :=
  if 256 < wsub (fldOf v 0 32) s.mbDoneCount then s.sat libHealth 32 16 1
  else (s.setFld libMbTail 0 32 (fldOf v 0 32)).shed
def execLibMbTailWrite (v : W64) (s : State) : Host.Outcome State Fault Refusal := carryOut true (effLibMbTailWrite v s)

/-! ### Panel commands (R410) -/

/-- MAILBOX_BAD_CODE. -/
def effMailboxBadCode (slot : Nat) (s : State) : State :=
  match s.mbNext slot fun n => !mbCodes.contains (s.mbCode n) || !s.mbRsvOk n with
  | some n => (s.mbTake n).mbDone n mbBadCode 0
  | none => s
def execMailboxBadCode (slot : Nat) (s : State) : Host.Outcome State Fault Refusal := carryOut (slotOk slot) (effMailboxBadCode slot s)

/-- PING. -/
def effPing (slot : Nat) (s : State) : State := s.mbRun slot 0x01 fun s _ => (s, some (mbOk, 0))
def execPing (slot : Nat) (s : State) : Host.Outcome State Fault Refusal := carryOut (slotOk slot) (effPing slot s)

def State.libSvn (s : State) : Nat := s.fld libBootStatus 24 7
def State.mouldSvn (s : State) : Nat := s.fld libBootStatus 32 7

/-- The anti-rollback floor of a thermometer (R396). -/
def floorOf (thermo : W64) : Nat := ((List.range 64).filter fun i => nbit thermo.toNat i).foldl (fun _ i => i + 1) 0
def State.floor (s : State) : Nat := floorOf (s.reg fusRollback)

/-- ROLLBACK_ADVANCE (R402); its bits are blown in one step (DESIGN CHOICE, log entry 132). -/
def effRollbackAdvance (slot : Nat) (s : State) : State :=
  s.mbRun slot 0x10 fun s m =>
    let n := s.mbArg m 1 % 128
    if 64 < n ∨ s.libSvn < n ∨ s.mouldSvn < n then (s, some (mbBadArg, 0))
    else if n ≤ s.floor then (s, some (mbOk, s.floor))
    else ((s.setReg fusRollback (s.reg fusRollback ||| BitVec.ofNat 64 (2 ^ n - 1))).setFld libBootStatus 40 7 n, some (mbOk, n))
def execRollbackAdvance (slot : Nat) (s : State) : Host.Outcome State Fault Refusal := carryOut (slotOk slot) (effRollbackAdvance slot s)

/-- A run of bytes cut or filled to a length. -/
def fit (n : Nat) (bs : Bytes) : Bytes := (bs ++ List.replicate n 0#8).take n

/-- The site attached to the ring die of the Librarian's cluster. -/
def State.libSite (s : State) : Nat := if s.bit fusSec 54 then 71 else 0

/-- Bytes 0x000 to 0x86F of an attestation report (R414). -/
def State.attestBody (s : State) (nonce : Bytes) : Bytes :=
  toBytes 4 0x53545441 ++ toBytes 4 5533 ++ toBytes 8 (s.reg fusPartId).toNat ++ toBytes 8 (s.reg fusSerial).toNat
    ++ toBytes 1 s.floor ++ toBytes 1 s.libSvn ++ toBytes 1 s.mouldSvn ++ toBytes 1 (s.fld fusSec 53 1 + s.fld fusSec 54 1 * 2)
    ++ toBytes 4 (s.fld libHealth 24 8) ++ fit 32 nonce ++ fit 48 s.boot.libDigest ++ fit 48 s.boot.mouldDigest
    ++ toBytes 8 (s.siteCycle s.libSite).toNat ++ toBytes 8 s.libSite ++ fit 32 Config.identityEdKey ++ fit 1952 Config.identityMlKey

/-- ATTEST. -/
def effAttest (slot : Nat) (s : State) : State :=
  s.mbRun slot 0x20 fun s n =>
    let body := s.attestBody (s.mbxRd (mbSlot n + 8) 32)
    let d := Config.sha384 body
    (s.mbxWr 0x20000 (body ++ fit 64 (Config.identityEdSign d) ++ fit 3309 (Config.identityMlSign d)), some (mbOk, 5533))
def execAttest (slot : Nat) (s : State) : Host.Outcome State Fault Refusal := carryOut (slotOk slot) (effAttest slot s)

/-- A stage-2 invalidation (R307): the command completes at once when no pinned run is to be waited for. -/
def State.s2Inval (s : State) (n p : Nat) : State × Option (Nat × Nat) :=
  let x := s.invalidate { part := p, cid := none, range := none, stage2 := true }
  if x.2.isEmpty then (x.1, some (mbOk, 0)) else (x.1.setPart p { x.1.part p with s2 := some (n, x.2) }, none)

/-- A command of a slot that waits for an invalidation completes once the runs it waits for have ended. -/
def State.s2Check (s : State) (slot code : Nat) : State :=
  match s.mbAt slot with
  | none => s
  | some n =>
    if s.mbCode n ≠ code || !s.libWorks then s
    else match s.mbPart n with
      | none => s
      | some p =>
        match (s.part p).s2 with
        | some (m, ids) => if m = n ∧ ids.any s.stillRuns = false then (s.setPart p { s.part p with s2 := none }).mbDone n mbOk 0 else s
        | none => s

/-- S2_ROOT_SET. -/
def effS2RootSet (slot : Nat) (s : State) : State :=
  (s.s2Check slot 0x30).mbRun slot 0x30 fun s n =>
    let p := s.mbArg n 0 % 16
    let pa := nbits (s.mbArg n 1) 16 30 * 65536
    if s.partState p ≠ 1 then (s, some (mbBadState, 0))
    else if !isHbm pa || !s.frameS2 (homeOf pa) pa p then (s, some (mbBadArg, 0))
    else (s.setFld (coreS2Root p) 16 30 (pa / 65536)).s2Inval n p
def execS2RootSet (slot : Nat) (s : State) : Host.Outcome State Fault Refusal := carryOut (slotOk slot) (effS2RootSet slot s)

/-- S2_INVALIDATE. -/
def effS2Invalidate (slot : Nat) (s : State) : State :=
  (s.s2Check slot 0x31).mbRun slot 0x31 fun s n =>
    let p := s.mbArg n 0 % 16
    if s.partState p = 0 then (s, some (mbBadState, 0)) else s.s2Inval n p
def execS2Invalidate (slot : Nat) (s : State) : Host.Outcome State Fault Refusal := carryOut (slotOk slot) (effS2Invalidate slot s)

/-- A ring port with the FABRIC role. -/
def State.isFabric (s : State) (port : Nat) : Bool := decide (s.fld (rngPort port) 0 2 = 2)
/-- Writes a route mask in every ring die. -/
def State.setRoute (s : State) (dev ports : Nat) : State := (List.range 24).foldl (fun s r => s.setFld (nfbRoute r dev) 0 48 ports) s
/-- Every port of a mask is a FABRIC port. -/
def State.maskFabric (s : State) (ports : Nat) : Bool := (List.range 48).all fun k => !nbit ports k || s.isFabric k

/-- ROUTE_SET. -/
def effRouteSet (slot : Nat) (s : State) : State :=
  s.mbRun slot 0x40 fun s n =>
    let dev := s.mbArg n 1 % 65536
    let ports := s.mbArg n 2 % 2 ^ 48
    if dev = 0xFFFF ∨ s.maskFabric ports = false then (s, some (mbBadArg, 0)) else (s.setRoute dev ports, some (mbOk, 0))
def execRouteSet (slot : Nat) (s : State) : Host.Outcome State Fault Refusal := carryOut (slotOk slot) (effRouteSet slot s)

/-- Writes an admission entry in every ring die. -/
def State.setAdmit (s : State) (i v : Nat) : State := (List.range 24).foldl (fun s r => s.setReg (nfbAdmit r i) (BitVec.ofNat 64 v)) s

/-- ADMIT_SET. -/
def effAdmitSet (slot : Nat) (s : State) : State :=
  s.mbRun slot 0x41 fun s n =>
    let v := s.mbArg n 2
    if 2 ^ 45 ≤ v then (s, some (mbBadArg, 0)) else (s.setAdmit (s.mbArg n 1 % 64) v, some (mbOk, 0))
def execAdmitSet (slot : Nat) (s : State) : Host.Outcome State Fault Refusal := carryOut (slotOk slot) (effAdmitSet slot s)

/-! ### Partition commands (R385) -/

/-- The sites that A1 and A2 name. -/
def State.argSites (s : State) (n : Nat) : List Nat :=
  (List.range 72).filter fun x => if x < 64 then nbit (s.mbArg n 1) x else nbit (s.mbArg n 2) (x - 64)

/-- The sites may be given: there is one, and none is owned, SCRUBBING or lost (R391). -/
def State.sitesFree (s : State) (xs : List Nat) : Bool := !xs.isEmpty && xs.all fun x => (s.siteOwner x).isNone && !s.isLost x

/-- Sites join a partition, and their cores leave MAINT. -/
def State.giveSites (s : State) (p : Nat) (xs : List Nat) : State :=
  let s := xs.foldl (fun s x => if x < 64 then s.setBit (libPartSites p) x true else s.setBit (libPartState p) (8 + (x - 64)) true) s
  ((s.partCores p).filter fun c => s.maint c && xs.contains (s.posSite c)).foldl (fun s c => s.leaveMaint c) s

/-- A queue or a ring is DISABLED. -/
def State.disableAll (s : State) (p : Nat) : State :=
  let s := (s.partQueues p).foldl (fun s q => if s.qState q = 9 then s else (s.setBit (queCfg q) 1 false).setQState q 0) s
  (List.range 4).foldl (fun s k => (s.setBit (svcB p k) 0 false).setFld (svcStatus p k) 0 4 0) s

/-- The partition becomes ACTIVE with a host and sites, as PART_CREATE does. -/
def State.createPart (s : State) (p host : Nat) (xs : List Nat) : State :=
  let s := ((s.setFld (libPartState p) 0 3 1).setBit (libPartState p) 3 false).setFld (libPartState p) 4 3 host
  (s.giveSites p xs).disableAll p

/-- PART_CREATE. -/
def effPartCreate (slot : Nat) (s : State) : State :=
  s.mbRun slot 0x100 fun s n =>
    let p := s.mbArg n 0 % 16
    let host := nbits (s.mbArg n 0) 4 3
    let xs := s.argSites n
    if s.partState p ≠ 0 then (s, some (mbBadState, 0))
    else if s.fld fusSec 48 5 ≤ p || !s.sitesFree xs || (s.hostPort host).isNone then (s, some (mbBadArg, 0))
    else (s.createPart p host xs, some (mbOk, 0))
def execPartCreate (slot : Nat) (s : State) : Host.Outcome State Fault Refusal := carryOut (slotOk slot) (effPartCreate slot s)

/-- PART_GROW. -/
def effPartGrow (slot : Nat) (s : State) : State :=
  s.mbRun slot 0x101 fun s n =>
    let p := s.mbArg n 0 % 16
    let xs := s.argSites n
    if s.partState p ≠ 1 then (s, some (mbBadState, 0))
    else if !s.sitesFree xs then (s, some (mbBadArg, 0))
    else (s.giveSites p xs, some (mbOk, 0))
def execPartGrow (slot : Nat) (s : State) : Host.Outcome State Fault Refusal := carryOut (slotOk slot) (effPartGrow slot s)

/-- PART_SET_HOST (R387). -/
def effPartSetHost (slot : Nat) (s : State) : State :=
  s.mbRun slot 0x102 fun s n =>
    let p := s.mbArg n 0 % 16
    let host := nbits (s.mbArg n 0) 4 3
    if s.partState p = 0 then (s, some (mbBadState, 0))
    else if (s.hostPort host).isNone then (s, some (mbBadArg, 0))
    else (s.setFld (libPartState p) 4 3 host, some (mbOk, 0))
def execPartSetHost (slot : Nat) (s : State) : Host.Outcome State Fault Refusal := carryOut (slotOk slot) (effPartSetHost slot s)

/-- The frames of a range: site and frame number. -/
def framesOf (pa n : Nat) : List (Nat × Nat) := (List.range n).map fun i => ((pa / 0x20_0000 + i) / 65536, (pa / 0x20_0000 + i) % 65536)

/-- FRAME_ASSIGN. -/
def effFrameAssign (slot : Nat) (s : State) : State :=
  s.mbRun slot 0x108 fun s n =>
    let p := s.mbArg n 0 % 16
    let pa := s.mbArg n 1
    let count := s.mbArg n 2
    let tag := s.mbArg n 3
    if s.partState p ≠ 1 then (s, some (mbBadState, 0))
    else if count = 0 ∨ pa % 0x20_0000 ≠ 0 ∨ 0x0900_0000_0000 < pa + count * 0x20_0000 ∨ tag % 4 = 0 ∨ nbits tag 2 4 ≠ p ∨ 2 ^ 26 ≤ tag then
      (s, some (mbBadArg, 0))
    else
      let fs := framesOf pa count
      if fs.any fun f => s.fld (arcFrame f.1 f.2) 0 2 ≠ 0 || !s.ownsSite p f.1 then (s, some (mbBadArg, 0))
      else ((fs.foldl (fun s f => s.setFrame f.1 f.2 (BitVec.ofNat 64 tag)) s).bump (libPartState p) 32 32 count, some (mbOk, 0))
def execFrameAssign (slot : Nat) (s : State) : Host.Outcome State Fault Refusal := carryOut (slotOk slot) (effFrameAssign slot s)

/-- Sum of RATE over a controller's regulators, with one partition's replaced. -/
def State.rateSum (s : State) (x c p rate : Nat) : Nat :=
  (List.range 16).foldl (fun a q => a + (if q = p then rate else s.fld (hbmReg x c q) 0 9)) 0

/-- A regulator. -/
def State.setRegulator (s : State) (x c p rate burst : Nat) : State :=
  (s.setFld (hbmReg x c p) 0 9 rate).setFld (hbmReg x c p) 16 16 burst

/-- PART_REGULATE (R244). -/
def effPartRegulate (slot : Nat) (s : State) : State :=
  s.mbRun slot 0x110 fun s n =>
    let p := s.mbArg n 0 % 16
    let x := nbits (s.mbArg n 1) 0 7
    let cs := (List.range 2).filter fun c => nbit (s.mbArg n 1) (8 + c)
    let rate := nbits (s.mbArg n 2) 0 9
    if s.partState p ≠ 1 then (s, some (mbBadState, 0))
    else if 72 ≤ x || !s.ownsSite p x then (s, some (mbBadArg, 0))
    else if cs.any fun c => decide (256 < s.rateSum x c p rate) then (s, some (mbBadSum, 0))
    else (cs.foldl (fun s c => s.setRegulator x c p rate (nbits (s.mbArg n 2) 16 16)) s, some (mbOk, 0))
def execPartRegulate (slot : Nat) (s : State) : Host.Outcome State Fault Refusal := carryOut (slotOk slot) (effPartRegulate slot s)

/-! ### Quiesce and release (R387-R391) -/

/-- PART_STOP. -/
def effPartStop (slot : Nat) (s : State) : State :=
  s.mbRun slot 0x118 fun s n =>
    let p := s.mbArg n 0 % 16
    if s.partState p ≠ 1 then (s, some (mbBadState, 0)) else (s.setFld (libPartState p) 0 3 2, some (mbOk, 0))
def execPartStop (slot : Nat) (s : State) : Host.Outcome State Fault Refusal := carryOut (slotOk slot) (effPartStop slot s)

/-- The drain aborts every command of every queue and service ring; held records are discarded. -/
def State.drainKill (s : State) (p : Nat) : State :=
  let s := s.setPart p { s.part p with kill := true }
  let discard (s : State) (t : CrTarget) : State := s.setRecX t { s.recX t with held := [] }
  let s := (s.partQueues p).foldl (fun s q => (discard s (.que q)).abortAll q) s
  (List.range 4).foldl (fun s k => (discard s (.svc p k)).svcAbortAll p k) s

/-- PART_DRAIN. -/
def effPartDrain (slot : Nat) (s : State) : State :=
  s.mbRun slot 0x119 fun s n =>
    let p := s.mbArg n 0 % 16
    if s.partState p ≠ 2 then (s, some (mbBadState, 0))
    else
      let s := s.setPart p { s.part p with drain := some n, kill := false }
      (if nbit (s.mbArg n 1) 0 then s.drainKill p else s, none)
def execPartDrain (slot : Nat) (s : State) : Host.Outcome State Fault Refusal := carryOut (slotOk slot) (effPartDrain slot s)

/-- PART_DRAIN_TIMEOUT. -/
def effPartDrainTimeout (p : Nat) (s : State) : State :=
  if (s.part p).drain.isSome && !(s.part p).kill && s.libWorks then s.drainKill p else s
def execPartDrainTimeout (p : Nat) (s : State) : Host.Outcome State Fault Refusal :=
  carryOut (decide (p < Config.partitions)) (effPartDrainTimeout p s)

/-- The partition holds no running work (R388), and no core of it is being moved (R391). -/
def State.drained (s : State) (p : Nat) : Bool :=
  (s.partQueues p).all (fun q => (s.q q).cmds.all fun c => c.phase == .queued)
    && s.runs.all (fun e => match e.2 with | some r => decide (r.part ≠ p) | none => true)
    && (List.range 72).all (fun x => decide (s.fld (arcTent x p) 16 16 = 0))
    && s.arc.wcb.all (fun w => decide (w.part ≠ p))
    && s.svc.ops.all (fun o => decide (o.p ≠ p))
    && (s.partCores p).all fun c => decide (s.coreState c ≠ 1)

/-- PART_DRAINED. -/
def effPartDrained (p : Nat) (s : State) : State :=
  match (s.part p).drain with
  | some n =>
    if s.drained p && s.libWorks then
      ((s.setPart p { s.part p with drain := none, kill := false }).setFld (libPartState p) 0 3 3).mbDone n mbOk 0
    else s
  | none => s
def execPartDrained (p : Nat) (s : State) : Host.Outcome State Fault Refusal :=
  carryOut (decide (p < Config.partitions)) (effPartDrained p s)

/-- A line lies in a frame tagged for a partition. -/
def State.lineOf (s : State) (p line : Nat) : Bool :=
  isHbm (line * 512) && decide (fldOf (s.frame (line * 512)) 0 2 ≠ 0) && decide (fldOf (s.frame (line * 512)) 2 4 = p)

/-- The lines of host windows and of other panels' memory whose tag names a partition. -/
def State.outLines (s : State) (p : Nat) : List ALine := s.arc.lines.filter fun l => isOut (l.line * 512) && decide (l.part = p)

/-- Writes back and drops the lines of a partition (R389). A write-back of a line outside the panel that fails is logged;
the stacks take the dirty bytes of HBM, and the other copy of a mirrored range with them (R249). -/
def State.flushPart (s : State) (p : Nat) : State :=
  let s := (s.outLines p).foldl (fun s l => s.evictLine l) s
  let mine := s.arc.lines.filter fun l => s.lineOf p l.line
  let s := mine.foldl (fun s l =>
    let s := s.stackWrite l.line l.mask l.poison l.part
    let s := if l.dirty = 0 then s else match s.mirrorOf (l.line * 512) with
      | some b =>
        let is := (List.range 512).filter fun i => l.mask.getLsbD i
        (s.mergeTable (is.map fun i => (b / 512 * 512 + i, s.arc.rd (l.line * 512 + i)))).withArc fun a => a.writeBack (b / 512) l.mask
      | none => s
    s.dropLine l.site l.line) s
  let gone := (s.arc.dir.map (·.1)).filter (s.lineOf p)
  let s := s.withArc fun a => { a with dir := a.dir.filter fun e => !gone.contains e.1 }
  (s.partCores p).foldl (fun s c => s.setTe c ((List.range 4).foldl TeX.dropL0 (s.te c).dropCarrel)) s

/-- A write-back of a line outside the panel for a partition is on its way. -/
def State.partWritesBack (s : State) (p : Nat) : Bool :=
  (s.host.pend.any fun e => match e.2.2 with
    | .writeBack _ _ q => q == p
    | _ => false)
  || s.fabUses.any fun u => match u with
    | .writeBack _ _ q => q == p
    | _ => false

/-- The partition is FLUSHED, and its PART_FLUSH completes. -/
def State.flushed (s : State) (p n : Nat) : State :=
  ((s.setPart p { s.part p with flush := none }).setFld (libPartState p) 0 3 4).mbDone n mbOk 0

/-- A PART_FLUSH of a slot that waits completes once every write-back has been acknowledged (R387, R389). -/
def State.flushCheck (s : State) (slot : Nat) : State :=
  match s.mbAt slot with
  | none => s
  | some n =>
    let p := s.mbArg n 0 % 16
    if s.libWorks && decide ((s.part p).flush = some n) && !s.partWritesBack p then s.flushed p n else s

/-- PART_FLUSH: the scan is one step (DESIGN CHOICE, log entry 22). -/
def effPartFlush (slot : Nat) (s : State) : State :=
  (s.flushCheck slot).mbRun slot 0x11A fun s n =>
    let p := s.mbArg n 0 % 16
    if s.partState p ≠ 3 then (s, some (mbBadState, 0))
    else
      let s := s.flushPart p
      if s.partWritesBack p then (s.setPart p { s.part p with flush := some n }, none)
      else (s.setFld (libPartState p) 0 3 4, some (mbOk, 0))
def execPartFlush (slot : Nat) (s : State) : Host.Outcome State Fault Refusal := carryOut (slotOk slot) (effPartFlush slot s)

/-- QUE_CFG.MODE of a queue, as QMODE of the PARTS section has it (R404). -/
def State.setMode (s : State) (q : QRef) : State := s.setBit (queCfg q) 0 (nbit s.boot.mould.qmode.toNat (4 * q.eng + q.q))

/-- The registers of a core's queues return to their reset values. -/
def State.resetQueues (s : State) (c : Nat) : State :=
  let lo := coreB c + 0x80000
  let s : State := { s with regs := s.regs.filter fun e => !(decide (lo ≤ e.1) && decide (e.1 < lo + 0x1C000)) }
  (coreQueues c).foldl (fun s q => (s.setQ q {}).setMode q) s

/-- Frames tagged for a partition, as site times 65536 plus frame. -/
def State.taggedFrames (s : State) (p : Nat) : List Nat :=
  (s.regs.filterMap fun e =>
    if siteB 0 ≤ e.1 ∧ e.1 < siteB 72 then
      let x := (e.1 - siteB 0) / 0x1000000
      let off := (e.1 - siteB 0) % 0x1000000
      if 0x180000 ≤ off ∧ off < 0x200000 ∧ fldOf e.2 0 2 ≠ 0 ∧ fldOf e.2 2 4 = p then some (x * 65536 + (off - 0x180000) / 8) else none
    else none)

/-- PART_RELEASE (R390). -/
def effPartRelease (slot : Nat) (s : State) : State :=
  s.mbRun slot 0x11B fun s n =>
    let p := s.mbArg n 0 % 16
    if s.partState p ≠ 4 then (s, some (mbBadState, 0))
    else
      let cores := s.partCores p
      let s := cores.foldl (fun s c =>
        let s := (s.setBit (texB c) 15 true).setCoreX c { s.coreX c with maintWanted := false, inWindow := false }
        let ix := s.coreSlotIx c
        (s.withArc fun a => { a with ls := a.ls.filter fun e => e.1 / 0x200_0000 ≠ ix }).resetQueues c) s
      let fs := s.taggedFrames p
      let s := fs.foldl (fun s f => s.setFrame (f / 65536) (f % 65536) 0#64) s
      let s := cores.foldl (fun s c => s.setCoreX c { s.coreX c with tlb := [], walk := [], ipas := [] }) s
      let s := s.setCoreX (256 + p) {}
      let s := (List.range 72).foldl (fun s x => (List.range 2).foldl (fun s c => s.setRegulator x c p 0 0) s) s
      let f (l : ALine) : ALine := if l.part = p ∧ l.hint = 1 then { l with hint := 0 } else l
      let s := s.withArc fun a => { a with lines := a.lines.map f }
      let s := (s.setFld (libPartState p) 0 3 5).setFld (libPartState p) 32 32 0
      (s.setPart p { s.part p with release := some n, freed := fs, sops := [] }, none)
def execPartRelease (slot : Nat) (s : State) : Host.Outcome State Fault Refusal := carryOut (slotOk slot) (effPartRelease slot s)

/-- The scrub writes zeros into the freed frames of live sites and clears their poison. -/
def State.scrubFrames (s : State) (fs : List Nat) : State :=
  let live := fs.filter fun f => !s.isLost (f / 65536)
  s.withArc fun a => { a with
    mem := a.mem.filter fun e => !live.contains (e.1 / 0x20_0000)
    hbm := a.hbm.filter fun e => !live.contains (e.1 / 0x20_0000)
    marks := a.marks.filter fun e => !live.contains (e.1 * 512 / 0x20_0000)
    checks := a.checks.filter fun e => !live.contains (e.1 * 512 / 0x20_0000) }

/-- PART_SCRUB_DONE. -/
def effPartScrubDone (p : Nat) (s : State) : State :=
  match (s.part p).release with
  | some n =>
    if !s.libWorks then s
    else
      let s := s.scrubFrames (s.part p).freed
      let s := s.setPart p { s.part p with release := none, freed := [] }
      let s := (s.setFld (libPartState p) 0 16 0).setReg (libPartSites p) 0#64
      s.mbDone n mbOk 0
  | none => s
def execPartScrubDone (p : Nat) (s : State) : Host.Outcome State Fault Refusal :=
  carryOut (decide (p < Config.partitions)) (effPartScrubDone p s)

/-- PART_RESUME. -/
def effPartResume (slot : Nat) (s : State) : State :=
  s.mbRun slot 0x11C fun s n =>
    let p := s.mbArg n 0 % 16
    let st := s.partState p
    if (st = 2 ∨ st = 3 ∨ st = 4) ∧ s.partFatal p = false then (s.setFld (libPartState p) 0 3 1, some (mbOk, 0))
    else (s, some (mbBadState, 0))
def execPartResume (slot : Nat) (s : State) : Host.Outcome State Fault Refusal := carryOut (slotOk slot) (effPartResume slot s)

end Sys2Proof.Machine
end

