-- ==== Sys2Proof/Machine/Boot.lean ====
section
/-!
DEFINITION. The boot ROM, images and start (16_mould_and_start R398-R407, R412, R413, R415, R416, 12_site_mesh R315,
18_faults_and_recovery R449-R451, 17_power_and_clocks R429).
-/

namespace Sys2Proof.Machine

/-! ### Images (R400) -/

abbrev Image := List (Nat × W8)

def imgRd (t : Image) (off n : Nat) : Bytes := (addrs off n).map (tget 0#8 t)
def imgNum (t : Image) (off n : Nat) : Nat := ofBytes (imgRd t off n)

def imgSvn (t : Image) : Nat := imgNum t 0x05 1
def imgLength (t : Image) : Nat := imgNum t 0x08 4
def imgSigs (t : Image) : Nat := imgNum t 0x0C 4
/-- The bytes that are signed. -/
def imgSigned (t : Image) : Bytes := imgRd t 0 (imgSigs t)
/-- D of R401. -/
def imgDigest (t : Image) : Bytes := Config.sha384 (imgSigned t)

/-- The reserved bytes of an image are 0. -/
def imgRsvOk (t : Image) : Bool :=
  decide (imgNum t 0x12 6 = 0) && decide (imgNum t 0x1C 36 = 0) && decide (imgNum t (imgSigs t + 0x14ED) 19 = 0)

/-- Step 1 of R401; an SVN above 64 breaks the header too (DEDUCED, log entry 23). -/
def headerOk (t : Image) (kind : Nat) : Bool :=
  decide (imgNum t 0 4 = if kind = 1 then 0x5242494C else 0x444C4F4D) && decide (imgNum t 0x04 1 = kind) && decide (imgNum t 0x06 2 = 1)
    && decide (imgLength t ≤ 0x80_0000) && decide (imgSigs t % 64 = 0) && decide (imgLength t = imgSigs t + 5376) && decide (imgSvn t ≤ 64)
    && imgRsvOk t

/-- Step 2. -/
def State.targetOk (s : State) (t : Image) : Bool :=
  nbit (imgNum t 0x10 1) (s.fld fusPartId 0 8) && decide (imgNum t 0x11 1 = s.fld fusPartId 8 8)

/-- A digest held in six fuse registers. -/
def State.fusedHash (s : State) (key : Nat → Nat) : Bytes := (List.range 6).flatMap fun j => toBytes 8 (s.reg (key j)).toNat

/-- Step 3. -/
def State.keysOk (s : State) (t : Image) : Bool :=
  let o := imgSigs t
  decide (Config.sha384 (imgRd t o 32) = s.fusedHash fusKeyEd) && decide (Config.sha384 (imgRd t (o + 0x60) 1952) = s.fusedHash fusKeyMl)

/-- Steps 4 and 5. -/
def edOk (t : Image) : Bool := Config.ed25519Verify (imgRd t (imgSigs t) 32) (imgDigest t) (imgRd t (imgSigs t + 0x20) 64)
def mlOk (t : Image) : Bool := Config.mldsaVerify (imgRd t (imgSigs t + 0x60) 1952) (imgDigest t) (imgRd t (imgSigs t + 0x800) 3309)

/-! ### Sections (R403, R404) -/

def secOff (t : Image) (id : Nat) : Nat := imgNum t (0x40 + 16 * (id - 1) + 4) 4
def secLen (t : Image) (id : Nat) : Nat := imgNum t (0x40 + 16 * (id - 1) + 8) 4
def secCrc (t : Image) (id : Nat) : Nat := imgNum t (0x40 + 16 * (id - 1) + 12) 4
/-- A number in a section. -/
def secNum (t : Image) (id off n : Nat) : Nat := imgNum t (secOff t id + off) n
/-- The section selects its defaults. -/
def secNone (t : Image) (id : Nat) : Bool := decide (secLen t id = 0)

/-- Steady stacks of the MEM section. -/
def steadyList (t : Image) : List Nat :=
  if secNone t 5 then [] else
    ((List.range ((secLen t 5 - 256) / 2)).map fun i => secNum t 5 (256 + 2 * i) 2).takeWhile (· ≠ 0xFFFF)
/-- Where THROTTLE_PCT stands in MEM. -/
def throttleOff (t : Image) : Nat := 256 + 2 * ((steadyList t).length + 1)
def throttlePct (t : Image) : Nat := if secNone t 5 then 50 else secNum t 5 (throttleOff t) 1
def scrubHours (t : Image) : Nat := if secNone t 5 then 24 else secNum t 5 (throttleOff t + 1) 2
/-- The mirror pairs: the addresses of A and B and the size in units of 2 MiB. -/
def mirrorList (t : Image) : List (Nat × Nat × Nat) :=
  if secNone t 5 then [] else
    (List.range ((secLen t 5 - (throttleOff t + 3)) / 24)).map fun i =>
      let o := throttleOff t + 3 + 24 * i
      (secNum t 5 o 8, secNum t 5 (o + 8) 8, secNum t 5 (o + 16) 8)

/-- The records of PARTS: partition, host, sites, and whether the reserved bits are 0. -/
structure PartRec where
  part : Nat
  host : Nat
  sites : List Nat
  rsvOk : Bool
  deriving DecidableEq, Repr, Inhabited

def partRecs (t : Image) : List PartRec :=
  if secNone t 6 then [] else
    (List.range ((secLen t 6 - 5) / 24)).map fun i =>
      let v := secNum t 6 (5 + 24 * i) 24
      { part := nbits v 0 4, host := nbits v 4 3, sites := (List.range 72).filter fun x => nbit v (64 + x)
        rsvOk := decide (nbits v 7 57 = 0) && decide (nbits v 136 56 = 0) }
def managerHost (t : Image) : Nat := if secNone t 6 then 0 else secNum t 6 0 1
def qmodeOf (t : Image) : Nat := if secNone t 6 then 0 else secNum t 6 1 4

/-- The MEM record of a partition: QUOTA, KEEP, RATE, BURST. -/
def memQuota (t : Image) (p : Nat) : Nat := if secNone t 5 then 768 else nbits (secNum t 5 (16 * p) 16) 0 16
def memKeep (t : Image) (p : Nat) : Nat := if secNone t 5 then 12 else nbits (secNum t 5 (16 * p) 16) 16 4
def memRate (t : Image) (p : Nat) : Nat :=
  if secNone t 5 then
    (let n := (partRecs t).length
     if n = 0 then 16 else if (partRecs t).any fun r => r.part = p then 256 / n else 0)
  else nbits (secNum t 5 (16 * p) 16) 32 9
def memBurst (t : Image) (p : Nat) : Nat := if secNone t 5 then 4096 else nbits (secNum t 5 (16 * p) 16) 48 16

/-- The default roles of a mesh edge: groups 0-11 BULK, 12-14 REDUCE, 15 CTRL. -/
def defaultRoles : Nat := 0x9500_0000
/-- The roles and the combining window of a mesh edge. -/
def laneRoles (t : Image) (e : Nat) : Nat := if secNone t 3 then defaultRoles else secNum t 3 (8 * e) 4
def laneWindow (t : Image) (e : Nat) : Nat := if secNone t 3 then 32 else secNum t 3 (8 * e + 4) 1

/-- RNG_PORT[4:0] of a port: the defaults of R336 give host h to port 6h. -/
def ringRec (t : Image) (port : Nat) : Nat := if secNone t 4 then (if port % 6 = 0 then 1 + port / 6 * 4 else 2) else secNum t 4 port 1
def ringRole (t : Image) (port : Nat) : Nat := nbits (ringRec t port) 0 2
def ringHost (t : Image) (port : Nat) : Nat := nbits (ringRec t port) 2 3

/-- Where the Calendar tables of CAL stand, as offset and FRAME_LEN, and where the map begins. -/
def calTables (t : Image) : Nat → Nat → List (Nat × Nat) × Nat
  | 0, off => ([], off)
  | fuel + 1, off =>
    if secLen t 7 ≤ off + 256 then ([], off)
    else
      let n := secNum t 7 off 2
      let r := calTables t fuel (off + 2 + n)
      ((off + 2, n) :: r.1, r.2)
def calAll (t : Image) : List (Nat × Nat) × Nat := calTables t 65 0

def fabPanel (t : Image) : Nat := if secNone t 9 then 0 else secNum t 9 0 2 % 4096
def fabRoutes (t : Image) : List (Nat × Nat) :=
  if secNone t 9 then [] else (List.range (secNum t 9 2 4)).map fun i => (secNum t 9 (6 + 8 * i) 2, secNum t 9 (8 + 8 * i) 6)
def fabAdmitOff (t : Image) : Nat := 6 + 8 * secNum t 9 2 4
def fabAdmits (t : Image) : List Nat :=
  if secNone t 9 then [] else (List.range (secNum t 9 (fabAdmitOff t) 1)).map fun i => secNum t 9 (fabAdmitOff t + 1 + 8 * i) 8

/-- The TIME fields: offset, bytes, default, least, greatest (R416). -/
def timeFields : List (Nat × Nat × Nat × Nat × Nat) :=
  [(0x00, 4, 1000, 1, 60000), (0x04, 4, 2000, 100, 100000), (0x08, 4, 100, 1, 10000), (0x0C, 2, 10, 1, 100),
   (0x0E, 2, 50, 10, 1000), (0x10, 4, 20, 5, 1000), (0x14, 4, 5, 1, 1000), (0x18, 2, 64, 1, 4096)]
/-- A TIME field, with its default in place of 0. -/
def timeVal (t : Image) (f : Nat × Nat × Nat × Nat × Nat) : Nat :=
  let v := if secNone t 10 then 0 else secNum t 10 f.1 f.2.1
  if v = 0 then f.2.2.1 else v

/-- The length of a section fits its records (DESIGN CHOICE, log entry 24: a length that does not is BAD_SECTION). -/
def sectionFits (t : Image) (id : Nat) : Bool :=
  let n := secLen t id
  if n = 0 then decide (id ≠ 11)
  else match id with
    | 1 => decide (n = 24)
    | 2 => decide (n % 16 = 0) && decide (n ≤ 16384)
    | 3 => decide (n = 127 * 8)
    | 4 => decide (n = 48)
    | 5 => decide (throttleOff t + 3 ≤ n) && decide ((n - (throttleOff t + 3)) % 24 = 0) && decide ((n - (throttleOff t + 3)) / 24 ≤ 64)
    | 6 => decide (5 ≤ n) && decide ((n - 5) % 24 = 0) && decide ((n - 5) / 24 ≤ 16)
    | 7 => decide ((calAll t).2 + 256 = n) && decide ((calAll t).1.length ≤ 64)
    | 8 => decide (n = 128)
    | 9 => decide (fabAdmitOff t + 1 + 8 * (fabAdmits t).length = n) && decide ((fabAdmits t).length ≤ 64)
    | 10 => decide (n = 26)
    | _ => decide (n = 5376)

/-- A section's entry of the directory obeys R403. `stop` is where the one before it ends. -/
def sectionOk (t : Image) (id stop : Nat) : Bool :=
  decide (imgNum t (0x40 + 16 * (id - 1)) 4 = id)
    && (secNone t id || (decide (secOff t id % 64 = 0) && decide (stop ≤ secOff t id)
      && decide (secOff t id + secLen t id ≤ if id = 11 then imgLength t else imgSigs t)))
    && (decide (id ≠ 11) || decide (secOff t id = imgSigs t))
    && decide (crc32c (imgRd t (secOff t id) (secLen t id)) = secCrc t id) && sectionFits t id

/-- Step 7: the first section that is not as it must be. -/
def badSection (t : Image) : Nat → Nat → Option Nat
  | 0, _ => none
  | fuel + 1, stop =>
    let id := 11 - fuel
    if sectionOk t id stop then badSection t fuel (if secNone t id then stop else secOff t id + secLen t id) else some id

/-! ### Content (R405) -/

/-- The sites that DISABLED names. -/
def disabledSites (t : Image) : List Nat := if secNone t 1 then [] else (List.range 72).filter fun x => nbit (secNum t 1 8 16) x

/-- The roles of an edge obey R315: a BULK and a CTRL group, and none OUT. -/
def rolesOk (r : Nat) : Bool :=
  let g := (List.range 16).map fun g => nbits r (2 * g) 2
  g.contains 0 && g.contains 2 && !g.contains 3

/-- The RING section obeys R335, and the boot port is a HOST port. -/
def ringOk (t : Image) (boot : Nat) : Bool :=
  let hosts := ((List.range 48).filter fun k => ringRole t k = 1).map (ringHost t)
  (List.range 48).all (fun k => decide (ringRole t k ≠ 3)) && decide hosts.Nodup && decide (ringRole t boot = 1)

/-- A HOST port with a number. -/
def portOfHost (t : Image) (h : Nat) : Option Nat := (List.range 48).find? fun k => ringRole t k = 1 && ringHost t k = h

/-- The site of an address of a mirror copy, when the copy lies in one site. -/
def copySite (pa n : Nat) : Option Nat :=
  if pa % 0x20_0000 = 0 ∧ n ≠ 0 ∧ pa + n * 0x20_0000 ≤ 0x0900_0000_0000 ∧ homeOf pa = homeOf (pa + n * 0x20_0000 - 1) then some (homeOf pa) else none

/-- A mirror pair obeys R249, and its copies lie on sites of one partition (R378). -/
def mirrorOk (t : Image) (m : Nat × Nat × Nat) : Bool :=
  match copySite m.1 m.2.2, copySite m.2.1 m.2.2 with
  | some a, some b =>
    let own (x : Nat) : Option Nat := ((partRecs t).find? fun r => r.sites.contains x).map (·.part)
    decide (a ≠ b) && decide (own a = own b)
  | _, _ => false

/-- The content rules of a section. -/
def State.contentOk (s : State) (t : Image) (id : Nat) : Bool :=
  match id with
  | 1 => (disabledSites t).all fun x => decide (x ≠ s.riserSite (siteRow x))
  | 3 => (List.range 127).all fun e => rolesOk (laneRoles t e)
  | 4 => ringOk t (s.fld libBootStatus 16 6)
  | 5 =>
    secNone t 5 || (decide (((List.range 16).map (memRate t)).foldl (· + ·) 0 ≤ 256) && decide ((steadyList t).length ≤ 16)
      && decide (1 ≤ throttlePct t) && decide (throttlePct t ≤ 100) && decide (1 ≤ scrubHours t) && decide (scrubHours t ≤ 720)
      && (mirrorList t).all (mirrorOk t) && (List.range 16).all fun p => decide (memKeep t p ≤ 12))
  | 6 =>
    let rs := partRecs t
    rs.all (fun r => r.rsvOk && decide (r.part < s.fld fusSec 48 5) && (portOfHost t r.host).isSome)
      && decide (rs.flatMap (·.sites)).Nodup
      && (match portOfHost t (managerHost t) with
        | some k => s.bit fusSec k
        | none => false)
  | 7 =>
    secNone t 7 || ((calAll t).1.all (fun e => decide (1 ≤ e.2) && decide (e.2 ≤ 4096))
      && (List.range 256).all fun c =>
        let m := secNum t 7 ((calAll t).2 + c) 1
        decide (m = 0xFF) || decide (m < (calAll t).1.length))
  | 8 =>
    secNone t 8 || (List.range 16).all fun p =>
      let v := secNum t 8 (8 * p) 8
      decide (1 ≤ nbits v 32 13) && decide (nbits v 32 13 ≤ 4096) && decide (nbits v 48 7 ≤ 100)
  | 9 => (fabRoutes t).all fun r => decide (r.1 ≠ 0xFFFF) && (List.range 48).all fun k => !nbit r.2 k || decide (ringRole t k = 2)
  | 10 => timeFields.all fun f => decide (f.2.2.2.1 ≤ timeVal t f) && decide (timeVal t f ≤ f.2.2.2.2)
  | _ => true

/-- R401: the ERROR and ERR_SECTION of a refusal, or none. -/
def State.verify (s : State) (t : Image) (kind : Nat) : Option (Nat × Nat) :=
  if !headerOk t kind then some (1, 0)
  else if !s.targetOk t then some (2, 0)
  else if !s.keysOk t then some (3, 0)
  else if !edOk t then some (4, 0)
  else if !mlOk t then some (5, 0)
  else if imgSvn t < s.floor then some (6, 0)
  else if kind = 1 then none
  else match badSection t 11 0xF0 with
    | some id => some (7, id)
    | none =>
      match (List.range 11).find? fun i => !s.contentOk t (i + 1) with
      | some i => some (8, i + 1)
      | none => if portOfHost t (managerHost t) = some (s.fld libBootStatus 16 6) then none else some (9, 0)

/-! ### Loading (R398, R399) -/

/-- A port may write the load window and LIB_BOOT_CMD: the boot port, or the first of the MGR_PORTS ports, which
becomes the boot port. -/
def State.bootPort (s : State) (port : Nat) : Option State :=
  if s.bit libBootStatus 22 then (if s.fld libBootStatus 16 6 = port then some s else none)
  else if s.bit fusSec port && s.portUp port then some ((s.setFld libBootStatus 16 6 port).setBit libBootStatus 22 true)
  else none

/-- LOAD_WINDOW_WRITE: bytes at an offset of the load window. -/
def effLoadWindowWrite (port off : Nat) (d : Bytes) (s : State) : State :=
  if s.bootState = 0 then s
  else match s.bootPort port with
    | none => s.refused port
    | some s =>
      if s.bootState = 2 ∨ s.bootState = 4 then s.refused port
      else s.mbxWr (0x80_0000 + off) (d.take (0x80_0000 - off))
def execLoadWindowWrite (port off : Nat) (d : Bytes) (s : State) : Host.Outcome State Fault Refusal :=
  carryOut (decide (port < Config.ports)) (effLoadWindowWrite port off d s)

/-- The copy that an accepted LOAD makes of the load window. -/
def State.windowCopy (s : State) : Image := s.boot.mbx.filterMap fun e => if 0x80_0000 ≤ e.1 then some (e.1 - 0x80_0000, e.2) else none

/-- A LOAD write: accepted in some states, else ignored with BAD_ORDER. -/
def State.loadCmd (s : State) (port next : Nat) (states : List Nat) : State :=
  if s.bootState = 0 then s
  else match s.bootPort port with
    | none => s.refused port
    | some s =>
      if states.contains s.bootState then
        ({ s with boot := { s.boot with image := s.windowCopy, from_ := s.bootState } } : State).setFld libBootStatus 0 4 next
      else s.setFld libBootStatus 4 4 10

/-- LOAD_LIB. -/
def effLoadLib (port : Nat) (s : State) : State := s.loadCmd port 2 [1, 7]
def execLoadLib (port : Nat) (s : State) : Host.Outcome State Fault Refusal := carryOut (decide (port < Config.ports)) (effLoadLib port s)

/-- LOAD_MOULD. -/
def effLoadMould (port : Nat) (s : State) : State := s.loadCmd port 4 [3]
def execLoadMould (port : Nat) (s : State) : Host.Outcome State Fault Refusal := carryOut (decide (port < Config.ports)) (effLoadMould port s)

/-- A refused image. -/
def State.refuseImage (s : State) (e : Nat × Nat) : State :=
  ((({ s with boot := { s.boot with image := [] } } : State).setFld libBootStatus 0 4 s.boot.from_).setFld libBootStatus 4 8 (e.1 + e.2 * 16)).sat
    libBootStatus 48 8 1

/-- IMAGE_VERIFIED (R401). After RELOAD the Mould image is not loaded again (R412). -/
def effImageVerified (s : State) : State :=
  let t := s.boot.image
  if s.bootState = 2 then
    match s.verify t 1 with
    | some e => s.refuseImage e
    | none =>
      let s : State := { s with boot := { s.boot with image := [], lib := t, libDigest := imgDigest t } }
      (s.setFld libBootStatus 24 7 (imgSvn t)).setFld libBootStatus 0 4 (if s.boot.from_ = 7 ∧ s.mapBuilt = true then 6 else 3)
  else if s.bootState = 4 then
    match s.verify t 2 with
    | some e => s.refuseImage e
    | none =>
      let s : State := { s with boot := { s.boot with mouldDigest := imgDigest t } }
      (s.setFld libBootStatus 32 7 (imgSvn t)).setFld libBootStatus 0 4 5
  else s
def execImageVerified (s : State) : Host.Outcome State Fault Refusal := carryOut true (effImageVerified s)

/-! ### Applying the Mould image (R406 steps 6 to 10) -/

/-- The edge of a ring die's attachment (R17). -/
def ringEdge (r : Nat) : Nat := r / 6
/-- ATTACH and PEER of an edge block. -/
def attachOf (x d : Nat) : Nat × Nat :=
  match neighbour x d with
  | some y => (0, y)
  | none => match (List.range 24).find? fun r => ringSite r = x && ringEdge r = d with
    | some r => (1, r)
    | none => (2, 0)

/-- The ends of a mesh edge of the LANES section (R404). -/
def meshEdge (e : Nat) : Nat × Nat × Nat :=
  if e < 64 then (9 * (e / 8) + e % 8, 1, 9 * (e / 8) + e % 8 + 1) else (e - 64, 2, e - 64 + 9)

/-- Sets the roles at an end of an edge: now and at start. -/
def State.setRoles (s : State) (x d r : Nat) : State := s.setReg (lnkB x d + 8) (BitVec.ofNat 64 (r % 2 ^ 32 * (2 ^ 32 + 1)))

/-! ### Training (R324, R340, R448) -/

/-- A TRAIN incident. -/
def State.trainReport (s : State) (site unit sev : Nat) : State :=
  s.report { cls := 0x14, site := site, unit := unit, status := 0, sev := sev, reporter := site }

/-- A repair candidate of a group, for the Librarian. -/
def State.trainRepair (s : State) (l : LinkRef) (e : Nat) : State :=
  { s with mesh := { s.mesh with trains := s.mesh.trains ++ [(l.site * 64 + groupUnit l, e)] } }

/-- The roles that an edge starts with beside groups that are OUT: as R324 has it, an edge without a CTRL group in
service gives that role to its highest BULK group, and goes down where that leaves no BULK or no CTRL group. -/
def State.startRoles (s : State) (x d : Nat) : State :=
  let ends := (x, d) :: (farEnd x d).toList
  let pick := if (s.groupsIn x d 2).isEmpty then (s.groupsIn x d 0).getLast? else none
  let s := match pick with
    | some g => ends.foldl (fun s e => s.setRole e.1 e.2 g 2) s
    | none => s
  let s := ends.foldl (fun s e => s.setRoles e.1 e.2 (s.fld (lnkB e.1 e.2 + 8) 0 32)) s
  if (s.groupsIn x d 0).isEmpty || (s.groupsIn x d 2).isEmpty then s.edgeFail x d else s

/-- A group starts OUT in both directions. -/
def State.startOut (s : State) (l : LinkRef) : State :=
  ((linkEnds l).foldl (fun s e => (s.setBit (lnkGrp e) 14 true).setRole e.site e.d e.g 3) s).startRoles l.site l.d

/-- A lane that fails training is spared. -/
def State.startSpare (s : State) (l : LinkRef) (lane : Nat) : State :=
  let k := lnkGrp l
  let u := s.fld k 0 2
  ((s.setFld k (2 + 6 * u) 6 lane).setFld k 0 2 (u + 1)).trainRepair l (repairBits 3 l.site l.d l.g lane u 0 0 0)

/-- Lanes of a direction fail training: they are spared, or their group starts OUT. -/
def State.trainLanes (s : State) (l : LinkRef) (lanes : List Nat) : State :=
  let ls := lanes.eraseDups
  if ls.isEmpty || (farEnd l.site l.d).isNone || !s.groupLive l then s
  else
    let s := s.trainReport l.site (groupUnit l) sevCorrected
    if s.fld (lnkGrp l) 0 2 + ls.length ≤ 2 then ls.foldl (fun s k => s.startSpare l k) s
    else (s.trainRepair l (repairBits 4 l.site l.d l.g 0 0 0 0 0)).startOut l

/-- A ring port that is up fails training. -/
def State.trainPort (s : State) (k : Nat) : State :=
  if s.portUp k then (s.trainReport (ringSite (k / 2)) k sevCorrected).portDown k 3 else s

/-- A stack fails training: its site is declared lost. -/
def State.trainStack (s : State) (x c : Nat) : State :=
  if s.isLost x then s else (s.trainReport x c sevSite).declareLost x 3

/-- Step 3 of R406: the mesh edges and the ports of MGR_PORTS train. -/
def State.trainFirst (s : State) (fails : List StartFail) : State :=
  let s := fails.foldl (fun s f => match f with
    | .lanes l lanes => s.trainLanes l lanes
    | .port k => s.trainPort k
    | _ => s) s
  (List.range 48).foldl (fun s k => s.linkUp k) s

/-- Step 6 of R406: the ports but the boot port train. -/
def State.trainPorts (s : State) (fails : List StartFail) : State :=
  let s := fails.foldl (fun s f => match f with
    | .port k => if k = s.fld libBootStatus 16 6 then s else s.trainPort k
    | _ => s) s
  (List.range 48).foldl (fun s k => if k = s.fld libBootStatus 16 6 then s else s.linkUp k) s

/-- Step 7 of R406: the stacks train. -/
def State.trainStacks (s : State) (fails : List StartFail) : State :=
  fails.foldl (fun s f => match f with
    | .stack x c => s.trainStack x c
    | _ => s) s

/-- After step 6, a group that is OUT stays OUT. -/
def State.keepOut (s : State) : State :=
  (List.range 127).foldl (fun s e =>
    let m := meshEdge e
    let out := (List.range 16).filter fun g => s.bit (lnkGrp { site := m.1, d := m.2.1, g := g }) 14
    if out.isEmpty then s
    else (out.foldl (fun s g => (linkEnds { site := m.1, d := m.2.1, g := g }).foldl (fun s l => s.setRole l.site l.d l.g 3) s) s).startRoles m.1 m.2.1) s

/-- Step 6: the edges, from LANES. -/
def State.applyLanes (s : State) (t : Image) : State :=
  let s := (List.range 72).foldl (fun s x => (List.range 4).foldl (fun s d =>
    (s.setFld (lnkB x d) 0 2 (attachOf x d).1).setFld (lnkB x d) 2 7 (attachOf x d).2) s) s
  (List.range 127).foldl (fun s e =>
    let m := meshEdge e
    let s := (s.setRoles m.1 m.2.1 (laneRoles t e)).setFld (lnkB m.1 m.2.1) 10 8 (laneWindow t e)
    (s.setRoles m.2.2 ((m.2.1 + 2) % 4) (laneRoles t e)).setFld (lnkB m.2.2 ((m.2.1 + 2) % 4)) 10 8 (laneWindow t e)) s

/-- The fields of a REPAIR entry that its KIND does not use are 0, and its values are none reserved (R449, R451). -/
def repairFormOk (v : Nat) : Bool :=
  let kind := nbits v 0 8
  let z (lo w : Nat) : Bool := decide (nbits v lo w = 0)
  let edge := z 16 2
  let group := z 24 4
  let lane := z 32 6
  let spare := z 40 1
  let role := z 41 2
  let slot := z 48 3
  z 15 1 && z 18 6 && z 28 4 && z 38 2 && z 43 5 && z 51 5 && z 56 8 && decide (nbits v 8 7 < 72)
    && (match kind with
      | 0 => z 8 7 && edge && group && lane && spare && role && slot
      | 1 => edge && group && lane && spare && role && [0, 2, 3, 5].contains (nbits v 48 3)
      | 2 => edge && group && lane && spare && role && slot
      | 3 => role && slot
      | 4 => lane && spare && role && slot
      | 5 => lane && spare && slot && decide (nbits v 41 2 ≠ 3)
      | _ => false)

/-- Both ends of the mesh edge that an entry names. -/
def repairEnds (v : Nat) : Option ((Nat × Nat) × (Nat × Nat)) :=
  let x := nbits v 8 7
  let d := nbits v 16 2
  (farEnd x d).map fun f => ((x, d), f)

/-- Kinds 3 to 5 of a REPAIR entry; none where it cannot apply. -/
def State.applyLink (s : State) (v : Nat) : Option State :=
  let g := nbits v 24 4
  match repairEnds v with
  | none => none
  | some ((x, d), (y, e)) =>
    if nbits v 0 8 = 3 then
      let k := lnkB x d + 0x100 + g * 8
      if s.fld k 0 2 ≠ nbits v 40 1 then none
      else some ((s.setFld k (2 + 6 * nbits v 40 1) 6 (nbits v 32 6)).setFld k 0 2 (nbits v 40 1 + 1))
    else
      let r := nput (s.fld (lnkB x d + 8) 0 32) (2 * g) 2 (if nbits v 0 8 = 4 then 3 else nbits v 41 2)
      let left := (List.range 16).map fun g => nbits r (2 * g) 2
      if !left.contains 0 || !left.contains 2 then none
      else
        let s := (s.setRoles x d r).setRoles y e r
        some (if nbits v 0 8 = 4 then (s.setBit (lnkB x d + 0x100 + g * 8) 14 true).setBit (lnkB y e + 0x100 + g * 8) 14 true else s)

/-- The entries of REPAIR, each with its index. -/
def repairEntries (t : Image) : List (Nat × Nat) := (List.range (secLen t 2 / 16)).map fun i => (secNum t 2 (16 * i) 16, i)

/-- An entry that cannot apply is named by an incident. -/
def State.repairIgnored (s : State) (i : Nat) : State :=
  s.report { cls := 0x13, site := s.libSite, unit := 0, status := 0, sev := sevCorrected, reporter := s.libSite, aux := BitVec.ofNat 64 i }

/-- Step 6: kinds 3 to 5 in order, and every entry whose form is not as R449 has it. -/
def State.applyRepairLinks (s : State) (t : Image) : State :=
  (repairEntries t).foldl (fun s e =>
    let kind := nbits e.1 0 8
    if !repairFormOk e.1 then s.repairIgnored e.2
    else if kind < 3 then s
    else match s.applyLink e.1 with
      | some s => s
      | none => s.repairIgnored e.2) s

/-- Step 9: kinds 1 and 2 in order; answers the sites whose C-die is taken out of service. -/
def State.applyRepairDies (s : State) (t : Image) : State × List Nat :=
  (repairEntries t).foldl (fun (a : State × List Nat) e =>
    let kind := nbits e.1 0 8
    let x := nbits e.1 8 7
    if !repairFormOk e.1 then a
    else if kind = 2 then (a.1, a.2 ++ [x])
    else if kind = 1 then
      if (a.1.rowRepair x (nbits e.1 48 3 / 3)).isSome then (a.1.repairIgnored e.2, a.2)
      else ({ a.1 with boot := { a.1.boot with mould := { a.1.boot.mould with repair := a.1.boot.mould.repair ++ [BitVec.ofNat 128 e.1] } } }, a.2)
    else a) (s, [])

/-- Step 6: the ring ports take their roles and host numbers, and those that are not OFF come up. -/
def State.applyRing (s : State) (t : Image) : State :=
  let boot := s.fld libBootStatus 16 6
  let s := (List.range 48).foldl (fun s k =>
    let role := ringRole t k
    let mgr := decide (role = 1) && decide (ringHost t k = managerHost t)
    let up := decide (role ≠ 0) && !s.isLost (ringSite (k / 2)) && (decide (k ≠ boot) || s.portUp k)
    let s := s.setReg (rngPort k) (BitVec.ofNat 64 (role + (if role = 1 then ringHost t k * 4 else 0) + b2n mgr * 32 + b2n up * 64))
    if k = boot then s else s.setLink (8192 + k) {}) s
  let s := (List.range 72).foldl (fun s x => s.setFld (sitePanelId x) 0 12 (fabPanel t)) s
  let s := (fabRoutes t).foldl (fun s r => s.setRoute r.1 r.2) s
  (fabAdmits t).zipIdx.foldl (fun s e => s.setAdmit e.2 (e.1 % 2 ^ 45)) s

/-- Step 8: HBM holds zeros, no poison and no cached line. -/
def State.zeroHbm (s : State) (t : Image) : State :=
  { s with arc := { mirrors := (mirrorList t).map fun m => { a := m.1, b := m.2.1, size := m.2.2 * 0x20_0000 } } }

/-- The MEM section in every site and controller. -/
def State.applyMem (s : State) (t : Image) : State :=
  let st := steadyList t
  (List.range 72).foldl (fun s x =>
    let s := (List.range 16).foldl (fun s p =>
      let s := (s.setFld (arcTent x p) 0 16 (memQuota t p)).setFld (arcKeep x p) 0 4 (memKeep t p)
      (List.range 2).foldl (fun s c => s.setRegulator x c p (memRate t p) (memBurst t p)) s) s
    (List.range 2).foldl (fun s c => (s.setBit (hbmStack x c) 10 (st.contains (2 * x + c))).setFld (hbmStack x c) 16 7 (throttlePct t)) s) s

/-- The C-die of a compute site is out of service at start. -/
def State.outAtStart (s : State) (off : List Nat) (x : Nat) : Bool := off.contains x || s.isLost x

/-- Step 9: the core map (R18): a site out of service hands its four cores to the riser of its row while that is
free, else they are LOST. -/
def State.buildMap (s : State) (off : List Nat) : State :=
  let s := (List.range 8).foldl (fun s r => if s.outAtStart off (s.riserSite r) then s.setRiser r 2 else s.setRiser r 0) s
  let s := (List.range 64).foldl (fun s pos =>
    let x := s.posSite (4 * pos)
    let row := siteRow x
    let moved := s.outAtStart off x && decide (s.riserState row = 0)
    let lost := s.outAtStart off x && !moved
    let at_ := if moved then s.riserSite row else x
    let s := if moved then s.setRiser row 1 else s
    ((s.activeSlots at_).zipIdx).foldl (fun s e =>
      (s.setCoreEntry (4 * pos + e.2) at_ e.1).setFld (libCoreMap (4 * pos + e.2)) 12 4 (if lost then 2 else 0)) s) s
  s.setFld libCoreMapGen 0 32 2

/-- The generators of a core's engines (R48). -/
def State.seedCore (s : State) (c : Nat) : State :=
  let x := s.coreSite c
  let k := s.coreSlot c
  let s := [0, 1, 2, 3].foldl (fun s e => s.setReg (mexB c e + 0x40) (seedSr s.boot.mould.srSeed x k e)) s
  s.setReg (texB c + 0x50) (seedSr s.boot.mould.srSeed x k 4)

/-- Step 9: dies are powered, generators seeded and queues given their mode. -/
def State.startCores (s : State) : State :=
  let s := (List.range 256).foldl (fun s c =>
    let s := (coreQueues c).foldl (fun s q => s.setMode q) s
    if s.coreState c = 0 then s.seedCore c else (coreQueues c).foldl (fun s q => s.loseQueue q) s) s
  { s with pwr := { s.pwr with gatedDies := (List.range 72).filter fun x => (s.coresAt x).isEmpty } }

/-- Step 10: Calendars. -/
def State.applyCal (s : State) (t : Image) : State :=
  if secNone t 7 then s
  else
    let a := calAll t
    (List.range 256).foldl (fun s c =>
      match a.1[secNum t 7 (a.2 + c) 1]? with
      | some (off, n) =>
        let s := s.setReg (calB c) (BitVec.ofNat 64 (n + 2 ^ 16))
        (List.range n).foldl (fun s i => s.setReg (calWin c i) (BitVec.ofNat 64 (secNum t 7 (off + i) 1 % 128))) s
      | none => s) s

/-- Step 10: Ledger budgets. -/
def State.applyLedger (s : State) (t : Image) : State :=
  if secNone t 8 then s
  else (List.range 16).foldl (fun s p =>
    let v := secNum t 8 (8 * p) 8
    (List.range 72).foldl (fun s x => ((s.setFld (ldgCfg x p) 0 32 (nbits v 0 32)).setFld (ldgCfg x p) 32 13 (nbits v 32 13)).setFld
      (ldgCfg x p) 48 7 (nbits v 48 7)) s) s

/-- Step 10: the partitions; one that names a lost site is not created (R407). -/
def State.applyParts (s : State) (t : Image) : State :=
  (partRecs t).foldl (fun s r => if r.sites.any s.isLost then s else s.createPart r.part r.host r.sites) s

/-- What the Librarian keeps of the image. -/
def State.keepMould (s : State) (t : Image) : State :=
  { s with boot := { s.boot with
    image := []
    mould := { srSeed := BitVec.ofNat 64 (if secNone t 1 then 0 else secNum t 1 0 8), qmode := BitVec.ofNat 28 (qmodeOf t)
               manager := managerHost t, scrubH := scrubHours t, times := timeFields.map (timeVal t) } } }

/-- The sites whose C-die fails its self-test at start (R407). -/
def failedDies (fails : List StartFail) : List Nat :=
  fails.filterMap fun f => match f with
    | .die x _ => some x
    | _ => none

/-- A C-die that failed its self-test is reported, with cause 3, whether its cores are LOST, and the riser that holds
them (R407, R445). -/
def State.reportDies (s : State) (fails : List StartFail) : State :=
  fails.foldl (fun s f => match f with
    | .die x slot =>
      let mine := (List.range 256).filter fun c => s.posSite c = x
      let lost := mine.any fun c => s.coreState c = 2
      let riser := if mine.isEmpty || lost then 0 else s.riserSite (siteRow x)
      s.report { cls := 0x0C, site := x, unit := slot * 8, status := 0, sev := sevRecomputed, reporter := x
                 aux := BitVec.ofNat 64 (3 + b2n lost * 4 + riser * 16) }
    | _ => s) s

/-- START_READY: steps 6 to 10 are done, and STATE becomes READY. `fails` is what training and the self-tests find;
a loss that is PANEL_FATAL ends the start. -/
def effStartReady (fails : List StartFail) (s : State) : State :=
  if s.bootState ≠ 5 || s.boot.absent || s.pwr.fatal then s
  else
    let t := s.boot.image
    let s := s.keepMould t
    let s := ((((s.applyLanes t).applyRepairLinks t).keepOut).applyRing t).trainPorts fails
    let s := (s.trainStacks fails).reroute
    if s.pwr.fatal then s
    else
      let s := (s.zeroHbm t).applyMem t
      let d := s.applyRepairDies t
      let s := ((d.1.buildMap (disabledSites t ++ d.2 ++ failedDies fails)).reportDies fails).startCores
      let s := ((s.applyCal t).applyLedger t).applyParts t
      s.setFld libBootStatus 0 4 6
def execStartReady (fails : List StartFail) (s : State) : Host.Outcome State Fault Refusal :=
  carryOut (fails.all StartFail.ok) (effStartReady fails s)

/-! ### The supervisor (R412, R413) -/

/-- Three restarts came within the last 10 s (R412). -/
def State.restartsNear (s : State) : Bool :=
  match s.boot.restarts[s.boot.restarts.length - 3]? with
  | some a => decide (3 ≤ s.boot.restarts.length) && decide (s.cyc < a + 10 * secCycles)
  | none => false

/-- SUPERVISOR_RESTART. -/
def effSupervisorRestart (s : State) : State :=
  let st := s.bootState
  if st < 3 ∨ st = 7 then s
  else
    let near := s.restartsNear
    let s : State := { s with boot := { s.boot with absent := true } }
    if imgDigest s.boot.lib ≠ s.boot.libDigest ∨ near = true then s.setFld libBootStatus 0 4 7
    else
      let s := s.sat libHealth 24 8 1
      let s : State := { s with boot := { s.boot with restarts := s.boot.restarts ++ [s.cyc] } }
      s.report { cls := 0x12, site := s.libSite, unit := 0, status := 0, sev := sevCorrected, reporter := s.libSite, aux := BitVec.ofNat 64 (s.fld libHealth 24 8) }
def execSupervisorRestart (s : State) : Host.Outcome State Fault Refusal := carryOut true (effSupervisorRestart s)

/-- A write of a Librarian-backed register takes effect: the fields of LIB_INC_HEAD and LIB_INC_NOTIFY, or bytes of
the mailbox block. -/
def State.backedApply (s : State) (k len : Nat) (v : W64) : State :=
  if k = libIncHead then s.setReg k (BitVec.ofNat 64 (fldOf v 0 32))
  else if libIncNotify 0 ≤ k ∧ k < libIncNotify 17 then s.setReg k (BitVec.ofNat 64 (fldOf v 2 44 * 4))
  else s.mbxWr (k - libB) (toBytes len v.toNat)

/-- LIB_RESTART_DONE: queued writes take effect, losses that waited are settled, routes are rewritten. -/
def effLibRestartDone (s : State) : State :=
  if !s.boot.absent || decide (s.bootState < 3) || decide (s.bootState = 7) then s
  else
    let ws := s.boot.queuedWrites
    let s : State := { s with boot := { s.boot with absent := false, queuedWrites := [] } }
    let s := ws.foldl (fun s w => s.backedApply w.1 w.2.1 w.2.2) s
    (s.settleLosses.reroute).shed
def execLibRestartDone (s : State) : Host.Outcome State Fault Refusal := carryOut true (effLibRestartDone s)

/-- LIBRARIAN_HEARTBEAT: only the timeout restarts, which the commands drive. -/
def effLibrarianHeartbeat (s : State) : State := s
def execLibrarianHeartbeat (s : State) : Host.Outcome State Fault Refusal := carryOut true (effLibrarianHeartbeat s)

end Sys2Proof.Machine
end

