-- ==== Sys2Proof/Machine/Power.lean ====
section
/-!
DEFINITION. Power, reset, reference clock, core clock steps, envelope, thermal caps and trips, and the Ledger's
frames (16_mould_and_start R406, 17_power_and_clocks R417-R435).
-/

namespace Sys2Proof.Machine

/-! ### Power-up and power-down (R419, R420) -/

/-- Registers that keep their value through a reset: the fuses and those of the standby domain. -/
def keptReg (k : Nat) : Bool := decide (fusB ≤ k ∧ k < fusB + 0x10_0000) || decide (mgmtB 0 ≤ k ∧ k < mgmtB 256)

/-- Every work stops and nothing of it is kept: registers but the fuses and those of the standby domain stand at
their reset values, every C-die is gated (R406, R420). -/
def State.coldRegs (s : State) : State :=
  { regs := s.regs.filter fun e => keptReg e.1
    pwr := { s.pwr with fatal := false, refHeld := false, envCap := 0, envLow := 0, therm := [], steps := []
                        gatedDies := List.range 72, lostDies := [] }
    cyc := s.cyc, free := s.free, pending := s.pending }

/-- Every half of a C-die. -/
def allHalves : List (Nat × Nat) := (List.range 144).map fun i => (i / 2, i % 2)

/-- As `coldRegs`; the step codes of CKG_HALF reset to the part's fused ceiling (R1, R425). -/
def State.cold (s : State) : State :=
  let c := s.ceilStep
  allHalves.foldl (fun s e => (s.setFld (ckgHalf e.1 e.2) 0 2 c).setFld (ckgHalf e.1 e.2) 6 2 c) s.coldRegs

/-- PWR_GOOD falls; the rails go off. -/
def State.powerOff (s : State) : State :=
  if s.pwr.pwrGood then
    let s := s.cold
    { s with pwr := { s.pwr with pwrGood := false, pllLocked := false } }
  else s

/-- A thermal trip is latched (R467). -/
def State.tripped (s : State) : Bool := s.bit (mgmtB 2) 3

/-- Steps 2 to 4 of the power-up. -/
def State.powerUp (s : State) : State := { s with pwr := { s.pwr with pwrGood := true, pending := false } }

/-- PWR_EN_RISE: ignored while a trip is latched; the sequence waits for the input. -/
def effPwrEnRise (s : State) : State :=
  if !s.pwr.standby || s.pwr.pwrEn then s
  else
    let s : State := { s with pwr := { s.pwr with pwrEn := true } }
    if s.tripped then s
    else if s.pwr.inRange then s.powerUp
    else { s with pwr := { s.pwr with pending := true } }
def execPwrEnRise (s : State) : Host.Outcome State Fault Refusal := carryOut true (effPwrEnRise s)

/-- INPUT_ENTERS_RANGE. -/
def effInputEntersRange (s : State) : State :=
  if !s.pwr.standby then s
  else
    let s : State := { s with pwr := { s.pwr with inRange := true } }
    if s.pwr.pending then s.powerUp else s
def execInputEntersRange (s : State) : Host.Outcome State Fault Refusal := carryOut true (effInputEntersRange s)

/-- PWR_EN goes low. -/
def State.enableFalls (s : State) : State := ({ s with pwr := { s.pwr with pwrEn := false, pending := false } } : State).powerOff

/-- POWER_DOWN. -/
def effPowerDown (cause : PowerCause) (s : State) : State :=
  match cause with
  | .pwrEnFall => s.enableFalls
  | .inputOut => ({ s with pwr := { s.pwr with inRange := false } } : State).powerOff
  | .railFail => s.powerOff
def execPowerDown (cause : PowerCause) (s : State) : Host.Outcome State Fault Refusal := carryOut true (effPowerDown cause s)

/-! ### Reset (R406, R407) -/

/-- The roles of a ring-attachment block (R315): BULK in groups 0 to 14, CTRL in group 15. -/
def ringRoles : Nat := 0x8000_0000

/-- The edges of a site after the boot ROM's training with the default roles. -/
def State.trainSite (s : State) (x : Nat) : State :=
  (List.range 4).foldl (fun s d =>
    let a := attachOf x d
    let s := ((s.setFld (lnkB x d) 0 2 a.1).setFld (lnkB x d) 2 7 a.2).setBit (lnkB x d) 9 (decide (a.1 ≠ 2))
    if a.1 = 0 then s.setRoles x d defaultRoles else if a.1 = 1 then s.setRoles x d ringRoles else s) s

/-- PANEL_RESET_RISE: steps 1 to 3 of R406. `fails` is what the training of step 3 finds. -/
def effPanelResetRise (fails : List StartFail) (s : State) : State :=
  if s.pwr.resetN then s
  else
    let s : State := { s with pwr := { s.pwr with resetN := true } }
    if !s.pwr.pwrGood || !s.pwr.refPresent then s
    else
      let s := s.cold
      let s : State := { s with cyc := 0, pwr := { s.pwr with pllLocked := true } }
      let s := (List.range 72).foldl (fun s x => s.trainSite x) s
      let s := (List.range 48).foldl (fun s k => if s.bit fusSec k then (s.setFld (rngPort k) 0 2 1).setBit (rngPort k) 6 true else s) s
      ((s.setFld libBootStatus 0 4 1).setFld libBootStatus 40 7 s.floor).trainFirst fails
def execPanelResetRise (fails : List StartFail) (s : State) : Host.Outcome State Fault Refusal :=
  carryOut (fails.all StartFail.ok) (effPanelResetRise fails s)

/-- PANEL_RESET_FALL: all work stops, every C-die is gated, the start is abandoned; the rails stay up. -/
def effPanelResetFall (s : State) : State :=
  if !s.pwr.resetN then s
  else
    let s : State := { s with pwr := { s.pwr with resetN := false } }
    if s.pwr.pwrGood then s.cold else s
def execPanelResetFall (s : State) : Host.Outcome State Fault Refusal := carryOut true (effPanelResetFall s)

/-! ### The reference clock (R423) -/

/-- An incident of the class POWER, of site 0, where the panel input registers stand (R435). -/
def State.powerIncident (s : State) (aux : Nat) : State :=
  s.report { cls := 0x11, site := 0, unit := 0, status := 0, sev := sevCorrected, reporter := 0
             aux := BitVec.ofNat 64 (aux + s.pwr.tabs.toNat * 2 ^ 16) }

/-- REFCLK_LOSS: the PLLs hold their frequency. -/
def effRefclkLoss (s : State) : State :=
  if !s.pwr.refPresent then s else { s with pwr := { s.pwr with refPresent := false, refHeld := s.pwr.pllLocked } }
def execRefclkLoss (s : State) : Host.Outcome State Fault Refusal := carryOut true (effRefclkLoss s)

/-- REFCLK_RETURN: within 10 µs the panel rides through. -/
def effRefclkReturn (s : State) : State :=
  let held := s.pwr.refHeld
  let s : State := { s with pwr := { s.pwr with refPresent := true, refHeld := false } }
  if held then s.powerIncident 1 else s
def execRefclkReturn (s : State) : Host.Outcome State Fault Refusal := carryOut true (effRefclkReturn s)

/-- REFCLK_LOSS_TIMEOUT. -/
def effRefclkLossTimeout (s : State) : State :=
  if !s.pwr.refHeld then s else ({ s with pwr := { s.pwr with refHeld := false } } : State).panelFatal 1 0
def execRefclkLossTimeout (s : State) : Host.Outcome State Fault Refusal := carryOut true (effRefclkLossTimeout s)

/-- PLL_LOCK_LOSS. -/
def effPllLockLoss (site : Nat) (s : State) : State :=
  if s.pwr.pllLocked && s.pwr.refPresent then s.declareLost site 2 else s
def execPllLockLoss (site : Nat) (s : State) : Host.Outcome State Fault Refusal :=
  carryOut (decide (site < Config.sites)) (effPllLockLoss site s)

/-! ### Clock steps (R425, R426) -/

def halfKey (x h : Nat) : Nat := 2 * x + h

/-- The slowest of the four limits. -/
def State.effStep (s : State) (x h : Nat) : Nat :=
  let k := ckgHalf x h
  max (max (s.fld k 0 2) s.ceilStep) (max (s.fld k 2 2) (s.fld k 4 2))

/-- The step that a half runs at, or changes to. -/
def State.stepOf (s : State) (x h : Nat) : Nat := tget s.ceilStep s.pwr.steps (halfKey x h)
def State.setStep (s : State) (x h n : Nat) : State := { s with pwr := { s.pwr with steps := tset s.ceilStep s.pwr.steps (halfKey x h) n } }

/-- A change of a limit: EFF follows, and a change begins unless one is in progress. -/
def State.restep (s : State) (x h : Nat) : State :=
  let k := ckgHalf x h
  let n := s.effStep x h
  let s := s.setFld k 6 2 n
  if s.bit k 8 || s.stepOf x h = n then s else (s.setBit k 8 true).setStep x h n

/-- CKG_HALF_WRITE. -/
def effCkgHalfWrite (site half : Nat) (v : W64) (s : State) : State :=
  let n := fldOf v 0 2
  let s := s.setFld (ckgHalf site half) 0 2 n
  let s := if n < s.ceilStep then s.sat (ckgStat site) 0 16 1 else s
  s.restep site half
def execCkgHalfWrite (site half : Nat) (v : W64) (s : State) : Host.Outcome State Fault Refusal :=
  carryOut (decide (site < Config.sites) && decide (half < 2)) (effCkgHalfWrite site half v s)

/-- STEP_CHANGE_DONE: the change is counted, and one that waited begins. -/
def effStepChangeDone (site half : Nat) (s : State) : State :=
  let k := ckgHalf site half
  if !s.bit k 8 then s
  else (((s.setBit k 8 false).sat (ckgStat site) 48 16 1)).restep site half
def execStepChangeDone (site half : Nat) (s : State) : Host.Outcome State Fault Refusal :=
  carryOut (decide (site < Config.sites) && decide (half < 2)) (effStepChangeDone site half s)

/-! ### The envelope (R418, R432) -/

def pwrPanelIn : Nat := pwrB 0 + 0x800
def pwrPanelUj : Nat := pwrB 0 + 0x808

/-- ENVELOPE_KW (R2). -/
def State.envelopeKw (s : State) : Nat := s.fld fusPartId 16 16
/-- Twelve times the envelope in force, in watts. -/
def State.envelope12 (s : State) : Nat := s.envelopeKw * 1000 * popcount 12 s.pwr.tabs.toNat

/-- A tab's current lies within 20 % of the mean of all 12. -/
def inService (sum c : Nat) : Bool := decide (5 * natDist (12 * c) sum ≤ sum)
/-- The mask of the tabs in service. -/
def tabMask (cs : List Nat) : Nat := (cs.zipIdx.map fun e => if inService cs.sum e.1 then 2 ^ e.2 else 0).sum

/-- TAB_CHECK: the currents in units of 0.1 A. -/
def effTabCheck (currents : List Nat) (s : State) : State :=
  if !s.pwr.pwrGood then s
  else
    let old := popcount 12 s.pwr.tabs.toNat
    let m := tabMask currents
    let s : State := { s with pwr := { s.pwr with tabs := BitVec.ofNat 12 m } }
    let s := (s.setFld pwrPanelIn 48 12 m).setFld pwrPanelIn 16 16 (min currents.sum 0xFFFF)
    if popcount 12 s.pwr.tabs.toNat = old then s else s.powerIncident 0
def execTabCheck (currents : List Nat) (s : State) : Host.Outcome State Fault Refusal :=
  carryOut (decide (currents.length = 12)) (effTabCheck currents s)

/-- The envelope cap of every half takes a value. -/
def State.setEnvCap (s : State) (n : Nat) : State :=
  let s : State := { s with pwr := { s.pwr with envCap := n } }
  allHalves.foldl (fun s e => (s.setFld (ckgHalf e.1 e.2) 4 2 n).restep e.1 e.2) s

/-- The energy of a millisecond goes to the counters of a site (R427): a free amount of its B-die and stacks, and a
free amount of its C-die, which a riser's moved cores give to their partition. -/
def State.siteEnergy (s : State) (x : Nat) : State :=
  let a := s.freeNum
  let b := a.1.freeNum
  let s := b.1
  let k := ldgB x
  let s := s.setReg k (s.reg k + BitVec.ofNat 64 (a.2 + b.2))
  let give (s : State) (p : Option Nat) (n : Nat) : State :=
    match p with
    | some p => s.setReg (k + 0x100 + p * 8) (s.reg (k + 0x100 + p * 8) + BitVec.ofNat 64 n)
    | none => s
  let s := give s (s.siteOwner x) a.2
  let cp := if x = s.riserSite (siteRow x) then (s.coresAt x).head?.bind fun c => s.corePart c else s.siteOwner x
  give s cp b.2

/-- ENVELOPE_TICK: the 1 ms average of the input power, in watts. VIN, COOL_IN and COOL_OUT are measured too. -/
def effEnvelopeTick (watts : Nat) (s : State) : State :=
  if !s.pwr.standby then s
  else
    let a := s.freeNum
    let b := a.1.freeNum
    let c := b.1.freeNum
    let s := ((c.1.setReg (mgmtB 8) (BitVec.ofNat 64 (a.2 % 2 ^ 16))).setReg (mgmtB 6) (BitVec.ofNat 64 (b.2 % 2 ^ 8))).setReg
      (mgmtB 7) (BitVec.ofNat 64 (c.2 % 2 ^ 8))
    if !s.pwr.pwrGood then s
    else
      let s := (s.setFld pwrPanelIn 0 16 a.2).setFld pwrPanelIn 32 16 (min (watts / 10) 0xFFFF)
      let s := s.setReg pwrPanelUj (s.reg pwrPanelUj + BitVec.ofNat 64 (watts * 1000))
      let s := (List.range 72).foldl (fun s x => s.siteEnergy x) s
      let cap := s.pwr.envCap
      if s.envelope12 < 12 * watts then
        let s : State := { s with pwr := { s.pwr with envLow := 0 } }
        if 3 ≤ cap then s
        else
          let s := s.setEnvCap (cap + 1)
          let s := (List.range 72).foldl (fun s x => s.sat (ckgStat x) 32 16 2) s
          if cap = 0 then s.powerIncident 2 else s
      else if 12 * watts * 100 < 95 * s.envelope12 then
        if s.pwr.envLow + 1 < 10 then { s with pwr := { s.pwr with envLow := s.pwr.envLow + 1 } }
        else
          let s : State := { s with pwr := { s.pwr with envLow := 0 } }
          if cap = 0 then s else s.setEnvCap (cap - 1)
      else { s with pwr := { s.pwr with envLow := 0 } }
def execEnvelopeTick (watts : Nat) (s : State) : Host.Outcome State Fault Refusal := carryOut true (effEnvelopeTick watts s)

/-! ### Thermal caps and trips (R433, R434, R467) -/

/-- The thermal cap of a half takes a value. -/
def State.setThermCap (s : State) (x h n : Nat) : State := (s.setFld (ckgHalf x h) 2 2 n).restep x h

/-- The reading of the hottest sensor of a die is shown in PWR_TEMP. -/
def State.showTemp (s : State) (n : Sensor) (t : Nat) : State :=
  let s := s.setTemp (sensorKey n) t
  if !s.pwr.pwrGood then s
  else match n with
    | .cdie x h => s.setFld (pwrB x) (8 * h) 8 (min 255 t)
    | .bdie x => s.setFld (pwrB x) 16 8 (min 255 t)
    | .ringDie _ => s
    | .stack x c => s.setFld (hbmStack x c) 0 8 (min 255 t)

/-- THERMAL_POLL: the eight sensors of a half, every 100 µs. -/
def effThermalPoll (site half : Nat) (readings : List Nat) (s : State) : State :=
  let hot := readings.foldl max 0
  let k := halfKey site half
  if !s.pwr.standby then s
  else
    let s := s.showTemp (.cdie site half) hot
    let n := tget (0, 0) s.pwr.therm k
    let put (s : State) (v : Nat × Nat) : State := { s with pwr := { s.pwr with therm := tset (0, 0) s.pwr.therm k v } }
    let cap := s.fld (ckgHalf site half) 2 2
    if !s.pwr.pllLocked then s
    else if 105 ≤ hot then
      if n.1 + 1 < 10 then put s (n.1 + 1, 0)
      else
        let s := put s (0, 0)
        if 3 ≤ cap then s else (s.setThermCap site half (cap + 1)).sat (ckgStat site) 16 16 1
    else if hot ≤ 100 then
      if n.2 + 1 < 100 then put s (0, n.2 + 1)
      else
        let s := put s (0, 0)
        if cap = 0 then s else s.setThermCap site half (cap - 1)
    else put s (0, 0)
def execThermalPoll (site half : Nat) (readings : List Nat) (s : State) : Host.Outcome State Fault Refusal :=
  carryOut (decide (site < Config.sites) && decide (half < 2) && decide (readings.length = 8)) (effThermalPoll site half readings s)

/-- The trip threshold of a sensor. -/
def tripAt : Sensor → Nat
  | .cdie _ _ => 120
  | .bdie _ | .ringDie _ => 115
  | .stack _ _ => 105

/-- CAUSE and STACK, and UNIT and RING, of a trip. -/
def tripCause : Sensor → Nat
  | .cdie _ _ => 1
  | .bdie _ | .ringDie _ => 2
  | .stack _ c => 3 + 4 * c
def tripUnit : Sensor → Nat
  | .cdie x _ | .bdie x | .stack x _ => x
  | .ringDie r => 128 + r

/-- The first sensor to reach its threshold is latched. -/
def State.latchTrip (s : State) (n : Sensor) (t : Nat) : State :=
  if s.tripped then s
  else (((s.setBit (mgmtB 2) 3 true).setReg (mgmtB 3) (BitVec.ofNat 64 (tripCause n))).setReg (mgmtB 4) (BitVec.ofNat 64 (tripUnit n))).setReg
    (mgmtB 5) (BitVec.ofNat 64 (min 255 t))

/-- THERMAL_TRIP: a reading below the threshold trips nothing. -/
def effThermalTrip (sensor : Sensor) (temp : Nat) (s : State) : State :=
  if !s.pwr.standby then s
  else
    let s := s.showTemp sensor temp
    if temp < tripAt sensor then s else (s.latchTrip sensor temp).powerOff
def execThermalTrip (sensor : Sensor) (temp : Nat) (s : State) : Host.Outcome State Fault Refusal :=
  carryOut (sensor.ok) (effThermalTrip sensor temp s)

/-! ### The Ledger's frames (R431) -/

/-- A head that was deferred in the frame that ends is judged again. -/
def State.rejudge (s : State) (q : QRef) : State :=
  match s.head q with
  | some c =>
    if c.deferred then
      let s := s.modCmd q c fun c => { c with deferred := false }
      let s := if (s.ledgerAdmit q (hEnergy c.raw)).isNone then s.noteDeferral q { c with deferred := false } else s
      s.refreshQ q
    else s
  | none => s

/-- LEDGER_FRAME_BOUNDARY. -/
def effLedgerFrameBoundary (site p : Nat) (s : State) : State :=
  if !s.pwr.pllLocked then s
  else
    let k := ldgAcct site p
    let s := s.setFld k 0 32 (s.fld k 0 32 - s.fld (ldgCfg site p) 0 32)
    ((s.coresAt site).filter fun c => s.corePart c = some p).foldl (fun s c => (coreQueues c).foldl (fun s q => s.rejudge q) s) s
def execLedgerFrameBoundary (site p : Nat) (s : State) : Host.Outcome State Fault Refusal :=
  carryOut (decide (site < Config.sites) && decide (p < Config.partitions)) (effLedgerFrameBoundary site p s)

end Sys2Proof.Machine
end

