-- ==== Sys2Proof/Machine/Flask.lean ====
section
/-!
DEFINITION. The flask (19_flask R458-R468): presence, the standby supply, the pins of the management connector, the
I2C/SMBus registers and the test access port.
-/

namespace Sys2Proof.Machine

/-! ### Pins (R439, R462-R464, R467) -/

/-- ALERT_N is asserted: a cap is in force (R432, R433), or the incident log asks for it (R439). -/
def State.alert (s : State) : Bool :=
  decide (s.pwr.envCap ≠ 0) || allHalves.any (fun e => decide (s.fld (ckgHalf e.1 e.2) 2 2 ≠ 0)) || s.incAlert

/-- Debug access is locked (R396, R468). -/
def State.debugLocked (s : State) : Bool := s.bit fusSec 53

/-- The panel drives its outputs: the standby supply runs, and EXTEST does not drive them from the boundary register. -/
def State.drives (s : State) : Bool := s.pwr.standby && decide (s.pwr.jtagIr ≠ 0 ∨ s.pwr.jtagReset = true)

/-- Open-drain outputs: `some false` is pulled low, `none` is released or not driven by the panel. -/
def State.pinAlertN (s : State) : Option Bool := if s.drives && s.alert then some false else none
def State.pinThermTripN (s : State) : Option Bool := if s.drives && s.tripped then some false else none
def State.pinPwrGood (s : State) : Option Bool := if s.drives && !s.pwr.pwrGood then some false else none

/-! ### Presence and standby (R458, R463, R465) -/

/-- PRESENCE_OPEN: the flask controller drives PWR_EN low. -/
def effPresenceOpen (_which : Nat) (s : State) : State := s.enableFalls
def execPresenceOpen (which : Nat) (s : State) : Host.Outcome State Fault Refusal :=
  carryOut (decide (which < 2)) (effPresenceOpen which s)

/-- STANDBY_UP: the registers of the standby domain stand at their reset values, the straps are read. -/
def effStandbyUp (sel1 sel0 : Bool) (s : State) : State :=
  if s.pwr.standby then s
  else
    let s : State := { s with
      regs := s.regs.filter fun e => !decide (mgmtB 0 ≤ e.1 ∧ e.1 < mgmtB 256)
      pwr := { s.pwr with standby := true, smbNack := false, jtagIr := 1, jtagReset := true, tdo := 0 } }
    s.setFld (mgmtB 2) 6 2 (2 * b2n sel1 + b2n sel0)
def execStandbyUp (sel1 sel0 : Bool) (s : State) : Host.Outcome State Fault Refusal := carryOut true (effStandbyUp sel1 sel0 s)

/-- STANDBY_LOSS: the input has left the standby range, which holds the operating range. -/
def effStandbyLoss (s : State) : State :=
  let s := ({ s with pwr := { s.pwr with inRange := false, pending := false } } : State).powerOff
  { s with pwr := { s.pwr with standby := false, pwrEn := false, smbNack := false, jtagIr := 1, jtagReset := true, tdo := 0 } }
def execStandbyLoss (s : State) : Host.Outcome State Fault Refusal := carryOut true (effStandbyLoss s)

/-! ### I2C/SMBus (R465-R467) -/

/-- The 7-bit address. -/
def State.smbAddr (s : State) : Nat := 0x38 + s.fld (mgmtB 2) 6 2

/-- CRC-8 of SMBus, polynomial x^8 + x^2 + x + 1. -/
def pecBit (c : Nat) : Nat := if c.testBit 7 then (2 * c) % 256 ^^^ 7 else 2 * c
def pecByte (c b : Nat) : Nat := pecBit (pecBit (pecBit (pecBit (pecBit (pecBit (pecBit (pecBit (c ^^^ b))))))))
def pecOf (bs : List Nat) : Nat := bs.foldl pecByte 0

/-- What a read of a command code gives (R466). -/
def State.mgmtRead (s : State) (cmd : Nat) : W64 :=
  let v := if cmd = 0 then BitVec.ofNat 64 (s.fld fusPartId 0 8) else if cmd = 1 then BitVec.ofNat 64 (s.fld fusPartId 8 8) else s.reg (mgmtB cmd)
  match cmd with
  | 0x02 =>
    let v := putFld (putFld (putFld v 0 1 (b2n s.pwr.standby)) 1 1 (b2n s.pwr.pwrEn)) 2 1 (b2n s.pwr.pwrGood)
    putFld (putFld v 4 1 (b2n (!s.pwr.resetN))) 5 1 (b2n s.alert)
  | 0x0A => if s.pwr.pwrGood then BitVec.ofNat 64 (s.fld pwrPanelIn 32 16) else 0#64
  | 0x10 => s.reg fusSerial
  | _ => v

/-- Every sensor reads at least 10 °C below its threshold. -/
def State.coolEnough (s : State) : Bool :=
  let ok (n : Sensor) : Bool := decide (tget 0 s.pwr.temps (sensorKey n) + 10 ≤ tripAt n)
  allHalves.all (fun e => ok (.cdie e.1 e.2) && ok (.stack e.1 e.2)) && (List.range 72).all (fun x => ok (.bdie x))
    && (List.range 24).all (fun r => ok (.ringDie r))

/-- TRIP_CLR. -/
def effTripClr (s : State) : State :=
  if s.pwr.standby && s.coolEnough then s.setBit (mgmtB 2) 3 false else s
def execTripClr (s : State) : Host.Outcome State Fault Refusal := carryOut true (effTripClr s)

def State.setNack (s : State) (b : Bool) : State := { s with pwr := { s.pwr with smbNack := b } }

/-- SMBUS_WRITE: the PEC covers the address byte, the command code and the data. -/
def effSmbusWrite (cmd : Nat) (data : W8) (pec : Option W8) (s : State) : State :=
  if !s.pwr.standby then s
  else if s.bit (mgmtB 0x20) 1 && decide (pec.map (·.toNat) ≠ some (pecOf [2 * s.smbAddr, cmd, data.toNat])) then s.setNack true
  else
    let s := s.setNack false
    if cmd ≠ 0x20 then s
    else
      let s := s.setFld (mgmtB 0x20) 1 1 (fldOf data 1 1)
      if fldOf data 0 1 = 1 then effTripClr s else s
def execSmbusWrite (cmd : Nat) (data : W8) (pec : Option W8) (s : State) : Host.Outcome State Fault Refusal :=
  carryOut (decide (cmd < 256)) (effSmbusWrite cmd data pec s)

/-- SMBUS_SCL_TIMEOUT: the interface is reset. -/
def effSmbusSclTimeout (s : State) : State := s.setNack false
def execSmbusSclTimeout (s : State) : Host.Outcome State Fault Refusal := carryOut true (effSmbusSclTimeout s)

/-! ### JTAG (R468) -/

/-- The port takes instructions. -/
def State.tapRuns (s : State) : Bool := s.pwr.standby && !s.pwr.jtagReset
/-- An instruction is loaded, with what the data register it selects shifts out. -/
def State.tapLoad (s : State) (ir : Nat) (out : W32) : State := { s with pwr := { s.pwr with jtagIr := ir, tdo := out } }

/-- IDCODE. -/
def effIdcode (s : State) : State := if s.tapRuns then s.tapLoad 0x01 0xA724_856B#32 else s
def execIdcode (s : State) : Host.Outcome State Fault Refusal := carryOut true (effIdcode s)

/-- BYPASS: the bypass register captures 0. -/
def effBypass (s : State) : State := if s.tapRuns then s.tapLoad 0xFF 0#32 else s
def execBypass (s : State) : Host.Outcome State Fault Refusal := carryOut true (effBypass s)

/-- EXTEST: the pins of the management connector are driven from the boundary register. -/
def effExtest (s : State) : State :=
  if !s.tapRuns then s
  else if s.debugLocked then effBypass s
  else s.tapLoad 0x00 (s.pwr.boundary.setWidth 32)
def execExtest (s : State) : Host.Outcome State Fault Refusal := carryOut true (effExtest s)

/-- SAMPLE/PRELOAD: the boundary register captures the pins. The spec does not say which cell holds which pin: a
free value. -/
def effSamplePreload (s : State) : State :=
  if !s.tapRuns then s
  else if s.debugLocked then effBypass s
  else
    let v := (Config.freeWord s.free).setWidth 48
    let s : State := { s with free := s.free + 1, pwr := { s.pwr with boundary := v } }
    s.tapLoad 0x02 (v.setWidth 32)
def execSamplePreload (s : State) : Host.Outcome State Fault Refusal := carryOut true (effSamplePreload s)

/-- TRST: low holds the port in Test-Logic-Reset, where IDCODE is the instruction loaded. -/
def effTrst (low : Bool) (s : State) : State :=
  if !s.pwr.standby then s
  else if low then { s with pwr := { s.pwr with jtagReset := true, jtagIr := 1 } }
  else { s with pwr := { s.pwr with jtagReset := false } }
def execTrst (low : Bool) (s : State) : Host.Outcome State Fault Refusal := carryOut true (effTrst low s)

end Sys2Proof.Machine
end

