-- ==== Sys2Proof/Machine/Flags.lean ====
section
/-!
DEFINITION. What the panel has of flags: the predicates of a comparison (05_folio_instructions R130), a
combination of predicates (R129) and a vote (R132).
-/

namespace Sys2Proof.Machine

/-- The condition codes of TESTW and TESTF on an order: equal and less. -/
def condHolds (c : Nat) (eq lt : Bool) : Bool :=
  match c with
  | 0 => eq
  | 1 => !eq
  | 2 => lt
  | 3 => lt || eq
  | 4 => !lt && !eq
  | _ => !lt

/-- TESTW: condition MOD[2:0], signed when MOD[3] is 1. -/
def testInt (mod : Nat) (a b : W32) : Bool :=
  condHolds (mod % 8) (a == b) (if nbit mod 3 then a.slt b else a.ult b)

/-- TESTF: a comparison with NaN is false, except NE; -0 and +0 are equal. -/
def testF32 (mod : Nat) (a b : W32) : Bool :=
  let x := f32 a
  let y := f32 b
  if x.isNan || y.isNan then decide (mod % 8 = 1)
  else condHolds (mod % 8) (!(x.lt y) && !(y.lt x)) (x.lt y)

/-- PCOMB: 0 AND, 1 OR, 2 XOR, 3 Pa and not Pb. -/
def combPred (mod : Nat) (a b : Bool) : Bool :=
  match mod % 4 with
  | 0 => a && b
  | 1 => a || b
  | 2 => a != b
  | _ => a && !b

end Sys2Proof.Machine
end

