-- ==== Sys2Proof/Machine/FolioAlu.lean ====
section
/-!
DEFINITION. The Folio instructions that work on registers alone: arithmetic, comparison, data movement,
conversions and the group-matrix unit (05_folio_instructions R129-R135, R138, R159-R164).
-/

namespace Sys2Proof.Machine

/-! ### Integer arithmetic and data movement (R129) -/

/-- The high 32 bits of a product. -/
def mulHigh (signed : Bool) (a b : W32) : W32 :=
  if signed then BitVec.ofInt 32 (a.toInt * b.toInt / (2 ^ 32 : Nat)) else BitVec.ofNat 32 (a.toNat * b.toNat / 2 ^ 32)

def minW (signed : Bool) (a b : W32) : W32 := if (if signed then b.slt a else b.ult a) then b else a
def maxW (signed : Bool) (a b : W32) : W32 := if (if signed then a.slt b else a.ult b) then b else a

def countLeadingZeros (a : W32) : Nat := if a = 0#32 then 32 else 31 - Nat.log2 a.toNat

/-- FIELD: position C[4:0], width C[13:8], clipped at bit 31. -/
def fieldOp (mod : Nat) (a c : W32) : W32 :=
  let p := fldOf c 0 5
  let w := min (fldOf c 8 6) (32 - p)
  let x := fldOf a p w
  if w = 0 then 0#32 else if nbit mod 0 then BitVec.ofInt 32 (sext x w) else BitVec.ofNat 32 x

/-- PLACE: A with the bits from C[4:0], C[13:8] wide, replaced by the low bits of B. -/
def placeOp (a b c : W32) : W32 :=
  let p := fldOf c 0 5
  let w := min (fldOf c 8 6) (32 - p)
  BitVec.ofNat 32 (nput a.toNat p w b.toNat)

def fxAddw : FExec := alu2 1 .int (modMask 0) fun _ a b => a + b
def fxSubw : FExec := alu2 1 .int (modMask 0) fun _ a b => a - b
def fxMulw : FExec := alu2 1 .int (modMask 0) fun _ a b => a * b
def fxMulwh : FExec := alu2 1 .int (modMask 1) fun m a b => mulHigh (nbit m 0) a b
def fxMadw : FExec := alu3 1 .int (modMask 0) fun _ a b c => a * b + c
def fxMinw : FExec := alu2 1 .int (modMask 1) fun m a b => minW (nbit m 0) a b
def fxMaxw : FExec := alu2 1 .int (modMask 1) fun m a b => maxW (nbit m 0) a b
def fxAndw : FExec := alu2 1 .int (modMask 0) fun _ a b => a &&& b
def fxOrw : FExec := alu2 1 .int (modMask 0) fun _ a b => a ||| b
def fxXorw : FExec := alu2 1 .int (modMask 0) fun _ a b => a ^^^ b
def fxShlw : FExec := alu2 1 .int (modMask 0) fun _ a b => a <<< (b.toNat % 32)
def fxShrw : FExec := alu2 1 .int (modMask 1) fun m a b =>
  if nbit m 0 then a.sshiftRight (b.toNat % 32) else a >>> (b.toNat % 32)
def fxOnes : FExec := alu1 1 (modMask 0) fun _ a => BitVec.ofNat 32 (popcount 32 a.toNat)
def fxLzero : FExec := alu1 1 (modMask 0) fun _ a => BitVec.ofNat 32 (countLeadingZeros a)
def fxField : FExec := RSpec.run { u := 1, a := .reg, c := .reg, mods := modMask 1 } fun w _ x =>
  x.putReg w fun l => fieldOp (fMod w) (x.g.srcA w l) (x.g.srcC w l)
def fxPlace : FExec := alu3 1 .int (modMask 0) fun _ a b c => placeOp a b c
def fxChoose : FExec := RSpec.run { u := 1, a := .reg, b := .regImm, mods := modMask 15 } fun w w1 x =>
  x.putReg w fun l =>
    if (x.g.rdP (fMod w % 8)).getLsbD l != nbit (fMod w) 3 then x.g.srcA w l else x.g.srcB .int w w1 l
def fxSetr : FExec := alu1 1 (modMask 0) fun _ a => a
def fxTestw : FExec := test2 1 .int (fun m => decide (m < 16) && decide (m % 8 < 6)) testInt
def fxTestf : FExec := test2 1 .f32 (fun m => decide (m < 6)) testF32
def fxPcomb : FExec := RSpec.run { u := 1, d := .num 8, a := .num 8, b := .num 8, mods := modMask 3 } fun w _ x =>
  x.putPred w fun l => combPred (fMod w) ((x.g.rdP (fA w)).getLsbD l) ((x.g.rdP (fB w)).getLsbD l)

/-- The source lane of LANEX (R132). -/
def lanexFrom (mode l b : Nat) : Nat :=
  match mode with
  | 0 => b % 64
  | 1 => if b ≤ l then l - b else l
  | 2 => if l + b ≤ 63 then l + b else l
  | _ => l ^^^ (b % 64)

/-- LANEX (R132). In modes 1 and 2, B is an unsigned number (DESIGN CHOICE, log entry 113). -/
def fxLanex : FExec := RSpec.run { a := .reg, b := .regImm, mods := modMask 3 } fun w w1 x =>
  x.putReg w fun l => x.g.srcA w (lanexFrom (fMod w) l (x.g.srcB .int w w1 l).toNat)

/-- POLL (R132): MASK under U = 1 into u[D]:u[D+1]; SOME and EVERY into a predicate. MASK names the lanes whose own guard
holds (DESIGN CHOICE, log entry 114). -/
def fxPoll : FExec := fun w w1 x =>
  let t := x.g.takes w
  let p := x.g.rdP (fA w)
  if fU w then
    RSpec.run { u := 2, d := .uni 2, a := .num 8, mods := fun m => decide (m = 0) } (fun w _ x =>
      let m := t &&& p
      if x.g.takesU w then
        { x with g := (x.g.wrU (fD w) (BitVec.ofNat 32 m.toNat)).wrU (fD w + 1) (BitVec.ofNat 32 (m.toNat >>> 32)) }
      else x) w w1 x
  else
    RSpec.run { d := .num 8, a := .num 8, mods := fun m => decide (m = 1 ∨ m = 2) } (fun w _ x =>
      let b := if fMod w = 1 then (t &&& p) != 0#64 else (t &&& p) == t
      x.putPred w fun _ => b) w w1 x

def fxLaneu : FExec := RSpec.run { u := 2, a := .vec 1, b := .uniImm } fun w w1 x =>
  x.putReg w fun l => x.g.rdV (fA w) ((x.g.srcB .int w w1 l).toNat % 64)

/-! ### FP32 and BF16 arithmetic (R129, R130) -/

/-- The sign bits of one or two packed values changed: absolute value first, then negation (R130). -/
def signMod (signs : W32) (neg abs : Bool) (a : W32) : W32 :=
  let a := if abs then a &&& ~~~signs else a
  if neg then a ^^^ signs else a

def sgn32 : W32 := 0x80000000#32
def sgnB2 : W32 := 0x80008000#32

/-- The sources of an FP opcode under MOD (R130). -/
def modA (s : W32) (m : Nat) (a : W32) : W32 := signMod s (nbit m 0) (nbit m 1) a
def modB (s : W32) (m : Nat) (b : W32) : W32 := signMod s (nbit m 2) (nbit m 3) b
def modC (s : W32) (m : Nat) (c : W32) : W32 := signMod s (nbit m 4) false c

/-- MINF and MAXF: -0 below +0; a NaN gives the other source, two give 0x7FC0_0000 (R130). -/
def minMaxF (isMax : Bool) (a b : W32) : W32 :=
  let x := f32 a
  let y := f32 b
  if x.isNan && y.isNan then nan32
  else if x.isNan then b
  else if y.isNan then a
  else
    let less := if x.isZero && y.isZero then nbit a.toNat 31 && !(nbit b.toNat 31) else x.lt y
    if less != isMax then a else b

/-- An operation on each half of packed BF16 values. -/
def perHalf (f : Nat → Nat → Nat → Num) (a b c : W32) : W32 × Nat :=
  let h (k : Nat) := toBf16 .rne (f (fldOf a (16 * k) 16) (fldOf b (16 * k) 16) (fldOf c (16 * k) 16))
  (BitVec.ofNat 32 ((h 1).1 * 65536 + (h 0).1), b2n (h 0).2 + b2n (h 1).2)

def fxAddf : FExec := alu2 0 .f32 (modMask 15) fun m a b => f32add (modA sgn32 m a) (modB sgn32 m b)
def fxMulf : FExec := alu2 0 .f32 (modMask 15) fun m a b => f32mul (modA sgn32 m a) (modB sgn32 m b)
def fxMadf : FExec := alu3 0 .f32 (modMask 31) fun m a b c => f32fma (modA sgn32 m a) (modB sgn32 m b) (modC sgn32 m c)
def fxMinf : FExec := alu2 0 .f32 (modMask 15) fun m a b => minMaxF false (modA sgn32 m a) (modB sgn32 m b)
def fxMaxf : FExec := alu2 0 .f32 (modMask 15) fun m a b => minMaxF true (modA sgn32 m a) (modB sgn32 m b)

/-- A BF16-pair opcode. R133 counts conversions only, so these count no flush. -/
def fxAddb2 : FExec := alu2 0 .b2 (modMask 15) fun m a b =>
  (perHalf (fun x y _ => (bf16 x).add (bf16 y)) (modA sgnB2 m a) (modB sgnB2 m b) 0#32).1
def fxMulb2 : FExec := alu2 0 .b2 (modMask 15) fun m a b =>
  (perHalf (fun x y _ => (bf16 x).mul (bf16 y)) (modA sgnB2 m a) (modB sgnB2 m b) 0#32).1
def fxMadb2 : FExec := alu3 0 .b2 (modMask 31) fun m a b c =>
  (perHalf (fun x y z => ((bf16 x).mul (bf16 y)).add (bf16 z)) (modA sgnB2 m a) (modB sgnB2 m b) (modC sgnB2 m c)).1

/-- RECIP, RROOT, POW2 and LOG2: each lane's result by the free choice for its operand (R131, R60). -/
def special (op : Nat) (f : Nat → W32 → W32) : FExec := RSpec.run { a := .reg, mods := modMask 3 } fun w _ x =>
  x.putReg w fun l =>
    let a := modA sgn32 (fMod w) (x.g.srcA w l)
    f (Config.elementary op a) a

def fxRecip : FExec := special 0x38 recip32
def fxRroot : FExec := special 0x39 rroot32
def fxPow2 : FExec := special 0x3A pow232
def fxLog2 : FExec := special 0x3B log232

/-! ### Conversions (R133-R135) -/

/-- The position of a lane among the lanes of a mask. -/
def rankIn (m : W64) (l : Nat) : Nat := ((lanesOf m).takeWhile fun k => k < l).length

def rmOk (m : Nat) : Bool := decide (m < 3)

def fxWtof : FExec := RSpec.run { a := .reg, mods := fun m => decide (m < 8) && rmOk (nbits m 1 2) } fun w _ x =>
  let t := x.g.takes w
  let r := x.draws (nbits (fMod w) 1 2) (lanesOf t).length
  r.1.putReg w fun l =>
    let a := x.g.srcA w l
    toF32 (modeOf (nbits (fMod w) 1 2) (r.2 (rankIn t l))) (Num.ofInt (if nbit (fMod w) 0 then a.toInt else a.toNat))

/-- FP32 to a 32-bit integer: saturates, NaN gives 0 (R133). -/
def ftow (signed : Bool) (mode : RMode) (a : W32) : W32 :=
  let hi : Int := if signed then 2 ^ 31 - 1 else 2 ^ 32 - 1
  let lo : Int := if signed then -(2 ^ 31) else 0
  match f32 a with
  | .nan => 0#32
  | .inf s => BitVec.ofInt 32 (if s then lo else hi)
  | .fin s m =>
    let f := m.over 0
    let k : Int := roundFrac mode f.1 f.2
    let z := if s then -k else k
    BitVec.ofInt 32 (max lo (min hi z))

def fxFtow : FExec := RSpec.run { a := .reg, mods := fun m => decide (m < 8) && rmOk (nbits m 1 2) } fun w _ x =>
  let t := x.g.takes w
  let r := x.draws (nbits (fMod w) 1 2) (lanesOf t).length
  r.1.putReg w fun l => ftow (nbit (fMod w) 0) (modeOf (nbits (fMod w) 1 2) (r.2 (rankIn t l))) (x.g.srcA w l)

def fxFtob : FExec := RSpec.run { a := .reg, b := .regImm, mods := fun m => decide (m < 8) && !nbit m 0 && rmOk (nbits m 1 2) } fun w w1 x =>
  let t := x.g.takes w
  let rm := nbits (fMod w) 1 2
  let r := x.draws rm (2 * (lanesOf t).length)
  let half (l k : Nat) : Nat × Bool :=
    toBf16 (modeOf rm (r.2 (2 * rankIn t l + k))) (f32 (if k = 0 then x.g.srcA w l else x.g.srcB .f32 w w1 l))
  let n := (lanesOf t).foldl (fun a l => a + b2n (half l 0).2 + b2n (half l 1).2) 0
  { r.1.putReg w (fun l => BitVec.ofNat 32 ((half l 1).1 * 65536 + (half l 0).1)) with flushed := x.flushed + n }

def fxBtof : FExec := RSpec.run { a := .reg, mods := modMask 1 } fun w _ x =>
  x.putReg w fun l => toF32 .rne (bf16 (fldOf (x.g.srcA w l) (16 * (fMod w % 2)) 16))

/-- A block-scaled format code in MOD[3:0]. -/
def fmtOk (m : Nat) : Bool := fmtBlock (m % 16)

def fxCvte : FExec := RSpec.run { a := .reg, mods := fun m => decide (m < 64) && fmtOk m && rmOk (nbits m 4 2) } fun w _ x =>
  let t := x.g.takes w
  let rm := nbits (fMod w) 4 2
  let r := x.draws rm (lanesOf t).length
  let q (l : Nat) := quantiseOne (x.g.srcA w l) (fMod w % 16) (modeOf rm (r.2 (rankIn t l)))
  let y := r.1.putReg w fun l => BitVec.ofNat 32 ((q l).codes.headD 0)
  (lanesOf t).foldl (fun y l =>
    { y with sat := y.sat + (q l).sat, flushed := y.flushed + (q l).flushed, invalid := y.invalid + (q l).invalid }) y

def fxDcde : FExec := RSpec.run { a := .reg, mods := fun m => decide (m < 16) && fmtOk m } fun w _ x =>
  x.putReg w fun l => toF32 .rne (elemVal (fMod w) (fldOf (x.g.srcA w l) 0 (fmtBits (fMod w))))

/-- QBLK of one half (R134): `base` is its first lane, `draw` the draw of each element. -/
def qblkHalf (w w1 : W64) (t : W64) (g0 : Group) (base : Nat) (draw : Nat → Nat) (x : FX) : FX :=
  let m := fMod w
  let xs := (List.range 32).map fun i => if t.getLsbD (base + i) then g0.srcA w (base + i) else 0#32
  let fixed := if nbit m 6 then some (fldOf (g0.srcC w base) 0 8) else none
  let q := quantiseBlock xs (g0.srcB .f32 w w1 base) (m % 16) (fun i => modeOf (nbits m 4 2) (draw i)) fixed (nbit m 7)
  let mask := t &&& maskOf fun l => decide (base ≤ l) && decide (l < base + 32)
  let g := x.g.wrLanes (fD w) mask fun l => BitVec.ofNat 32 (q.codes.getD (l - base) 0)
  let g := (List.range 32).foldl (fun g i =>
    g.wrV (fD w + 1) (base + i) (BitVec.ofNat 32 (if i = 0 then q.sc else if i = 1 ∧ nbit m 7 then q.incl else 0))) g
  { x with g := g, sat := x.sat + q.sat, flushed := x.flushed + q.flushed, inclOvf := x.inclOvf + q.inclOvf,
           invalid := x.invalid + q.invalid }

/-- The halves of the group in which a lane takes part. -/
def halvesOf (t : W64) : List Nat := [0, 32].filter fun b => (List.range 32).any fun i => t.getLsbD (b + i)

def qblkC (w : W64) : SrcUse := if nbit (fMod w) 6 then .reg else .unused

def fxQblk : FExec := fun w w1 x =>
  RSpec.run { d := .vec 2, a := .reg, b := .regImm, c := qblkC w,
              mods := fun m => decide (m < 256) && fmtOk m && rmOk (nbits m 4 2) } (fun w w1 x =>
    let t := x.g.takes w
    let hs := halvesOf t
    let r := x.draws (nbits (fMod w) 4 2) (32 * hs.length)
    (hs.zipIdx.foldl (fun y (b, k) => qblkHalf w w1 t x.g b (fun i => r.2 (32 * k + i)) y) r.1)) w w1 x

/-- DQBLK of one half (R135). The code of a lane that does not take part reads as 0, and a half in which no lane takes part
counts no INVALID (DESIGN CHOICE, log entry 115). -/
def dqblkHalf (w : W64) (t : W64) (g0 : Group) (base : Nat) (x : FX) : FX :=
  let fmt := fMod w
  let codes := (List.range 32).map fun i =>
    if t.getLsbD (base + i) then fldOf (g0.srcA w (base + i)) 0 (fmtBits fmt) else 0
  let ts := g0.srcC w base
  let b := readBlock fmt codes (fldOf (g0.rdV (fB w) base) 0 8) (g0.rdV (fB w) (base + 1)).toNat (f32posNormal ts)
  let mask := t &&& maskOf fun l => decide (base ≤ l) && decide (l < base + 32)
  { x with
    g := x.g.wrLanes (fD w) mask fun l => toF32 .rne (((b.vals.getD (l - base) .nan).mul b.s).mul (f32 ts))
    invalid := x.invalid + b2n b.invalid }

def fxDqblk : FExec := RSpec.run { a := .reg, b := .vec 1, c := .reg, mods := fun m => decide (m < 16) && fmtOk m } fun w _ x =>
  let t := x.g.takes w
  (halvesOf t).foldl (fun y b => dqblkHalf w t x.g b y) x

/-! ### Group-matrix unit (R159-R164) -/

/-- K of a pair of formats, none where the pair is not accepted (R160). -/
def gmacK (fa fb : Nat) : Option Nat :=
  if fa = 0 ∧ fb = 0 then some 8
  else if 1 ≤ fa ∧ fa ≤ 6 ∧ 1 ≤ fb ∧ fb ≤ 6 then (if fa ≥ 5 ∧ fb ≥ 5 then some 64 else some 32)
  else none

/-- Row `r` of an operand image as a number, first byte lowest (R161). -/
def imageRow (g : Group) (x r : Nat) : Nat :=
  (List.range 4).foldl (fun a j =>
    a + ((g.rdV x (4 * r + j)).toNat + (g.rdV (x + 1) (4 * r + j)).toNat * 2 ^ 32) * 2 ^ (64 * j)) 0

/-- Block `b` of row `r` of an operand of a group-matrix instruction; `shift` is the place of its
S8 codes in the scale register. -/
def gmBlock (g : Group) (fmt x sreg shift r b : Nat) : OpBlk :=
  let row := imageRow g x r
  readBlock fmt ((List.range 32).map fun i => elemAt fmt row (32 * b + i))
    (fldOf (g.rdV sreg r) (shift + 8 * b) 8) 0 true

/-- Every thread of the group is active (R109, R164). -/
def Group.full (g : Group) : Bool := decide (g.active = BitVec.allOnes 64)

/-- A group-matrix instruction: the encoding first, then the mask (R164, R165). -/
def gmRun (p : RSpec) (f : W64 → FX → FX) : FExec := fun w w1 x =>
  if !(RSpec.legal { p with gen := false } x.vregs w w1) then .error stIllegal
  else if !x.g.full then .error stMatrixDivergent
  else .ok (f w x)

/-- The handle after GMAC (R162). -/
def gmacAcc (g : Group) (w : W64) (k r c : Nat) : W32 :=
  let fa := fMod w % 16
  let fb := nbits (fMod w) 4 4
  let acc0 := if nbit (fMod w) 8 then g.rdAcc (fD w) r c else 0#32
  if k = 8 then
    let ra := imageRow g (fA w) r
    let rb := imageRow g (fB w) c
    let prod := Num.sum ((List.range 8).map fun i => (elemVal 0 (elemAt 0 ra i)).mul (elemVal 0 (elemAt 0 rb i)))
    f32add acc0 (toF32 .rne prod)
  else
    (List.range (k / 32)).foldl (fun acc b =>
      f32add acc (pairContrib (gmBlock g fa (fA w) (fC w) 0 r b) (gmBlock g fb (fB w) (fC w) 16 c b) 0x3F800000#32)) acc0

/-- The invalid blocks that a GMAC reads. -/
def gmacInvalid (g : Group) (w : W64) (k : Nat) : Nat :=
  if k = 8 then 0
  else ((List.range 16).flatMap fun r => (List.range (k / 32)).map fun b =>
    b2n (gmBlock g (fMod w % 16) (fA w) (fC w) 0 r b).invalid
      + b2n (gmBlock g (nbits (fMod w) 4 4) (fB w) (fC w) 16 r b).invalid).sum

/-- Sets every element of a handle. -/
def Group.setAcc (g : Group) (h : Nat) (f : Nat → Nat → W32) : Group :=
  (List.range 256).foldl (fun g i => g.wrAcc h (i / 16) (i % 16) (f (i / 16) (i % 16))) g

def fxGmac : FExec := gmRun
  { d := .num 8, a := .vec 2, b := .vec 2, c := .vec 1,
    mods := fun m => decide (m < 512) && (gmacK (m % 16) (nbits m 4 4)).isSome } fun w x =>
  let k := (gmacK (fMod w % 16) (nbits (fMod w) 4 4)).getD 0
  { x with g := x.g.setAcc (fD w) (gmacAcc x.g w k), invalid := x.invalid + gmacInvalid x.g w k }

def fxGmclr : FExec := gmRun { d := .num 8 } fun w x => { x with g := x.g.setAcc (fD w) fun _ _ => 0#32 }

/-- GMGET: element (r, c) goes to lane 4r + c / 4 of register X + c mod 4 (R163). -/
def fxGmget : FExec := gmRun { d := .vec 4, a := .num 8 } fun w x =>
  { x with g := (List.range 256).foldl (fun g i =>
      g.wrV (fD w + i % 4) (4 * (i / 16) + i % 16 / 4) (x.g.rdAcc (fA w) (i / 16) (i % 16))) x.g }

def fxGmput : FExec := gmRun { d := .num 8, a := .vec 4 } fun w x =>
  { x with g := x.g.setAcc (fD w) fun r c => x.g.rdV (fA w + c % 4) (4 * r + c / 4) }

end Sys2Proof.Machine
end

