-- ==== Sys2Proof/Machine/FolioRows.lean ====
section
/-!
DEFINITION. The Folio rows of the command table: control, barriers, counters and copies
(05_folio_instructions R136-R138, R151-R158), and one meaning for each instruction (R129-R164).
-/

namespace Sys2Proof.Machine

/-! ### Control (R136-R138) -/

/-- NOP. -/
def effFolioNop (g : GRef) (w w1 : W64) (s : State) : State :=
  s.ctl g w (fun v => RSpec.legal { d := .unused } v w w1) fun s _ _ grp => s.nextPc g grp w

/-- QUIT. -/
def effQuit (g : GRef) (w w1 : W64) (s : State) : State :=
  s.ctl g w (fun v => RSpec.legal { d := .unused } v w w1) fun s _ _ grp =>
    let t := grp.takes w
    s.nextPc g { grp with exited := grp.exited ||| t, active := grp.active &&& ~~~t } w

/-- The group after a branch in which the threads of `t` take part (R99): a divergent one pushes an entry
and runs the fall-through path first. -/
def Group.branch (g : Group) (w : W64) (t : W64) : Group :=
  if t == 0#64 then { g with pc := g.pc + 8#64 }
  else if t == g.active then { g with pc := pcPlus g.pc (fTgt w) }
  else
    let e : Recon := { id := g.nextId, parent := g.under, rcv := pcPlus g.pc (fRcv w), tgt := pcPlus g.pc (fTgt w)
                       tgtMask := t, joined := 0#64 }
    { g with recon := g.recon ++ [e], nextId := g.nextId + 1, under := e.id, active := g.active &&& ~~~t, pc := g.pc + 8#64 }

/-- JUMP. -/
def effJump (g : GRef) (w _w1 : W64) (s : State) : State :=
  s.ctl g w (fun _ => legalC true w) fun s _ _ grp =>
    let t := grp.takes w
    if t != 0#64 && t != grp.active && decide (32 ≤ grp.recon.length) then s.instrFault g grp (firstLane grp.active) stIllegal none
    else s.putGrp g (grp.branch w t)

/-- CALL. -/
def effCall (g : GRef) (w _w1 : W64) (s : State) : State :=
  s.ctl g w (fun _ => legalC false w) fun s _ _ grp =>
    if 8 ≤ grp.calls.length then s.instrFault g grp (firstLane grp.active) stIllegal none
    else s.putGrp g { grp with calls := (grp.pc + 8#64, grp.nextId) :: grp.calls, pc := pcPlus grp.pc (fTgt w) }

/-- RET: with an entry held that was pushed since the matching CALL it faults (R137). -/
def effRet (g : GRef) (w w1 : W64) (s : State) : State :=
  s.ctl g w (fun v => RSpec.legal { d := .unused, gen := false } v w w1) fun s _ _ grp =>
    match grp.calls with
    | [] => s.instrFault g grp (firstLane grp.active) stIllegal none
    | (pc, n) :: r =>
      if grp.recon.any fun e => decide (n ≤ e.id) then s.instrFault g grp (firstLane grp.active) stIllegal none
      else s.putGrp g { grp with calls := r, pc := pc }

/-- A register read by SPECR (R138). CYC_HI reads 0 before the group has read CYC_LO (DESIGN CHOICE, log entry 116). -/
def State.special (s : State) (g : GRef) (grp : Group) (lane : Nat) : Nat → W32
  | 0 => BitVec.ofNat 32 (s.siteCycle (s.coreSite g.core)).toNat
  | 1 => grp.cycHi
  | 2 => BitVec.ofNat 32 (s.coreSite g.core)
  | 3 => BitVec.ofNat 32 grp.pipe
  | 4 => BitVec.ofNat 32 g.slot
  | 5 => BitVec.ofNat 32 grp.blk
  | _ => BitVec.ofNat 32 lane

/-- SPECR. -/
def effSpecr (g : GRef) (w w1 : W64) (s : State) : State :=
  s.ctl g w (fun v => RSpec.legal { u := if fA w = 6 then 0 else 2, a := .num 7 } v w w1) fun s _ _ grp =>
    if fU w then
      if grp.takesU w then
        let y := grp.wrU (fD w) (s.special g grp 0 (fA w))
        s.nextPc g (if fA w = 0 then { y with cycHi := BitVec.ofNat 32 ((s.siteCycle (s.coreSite g.core)).toNat / 2 ^ 32) } else y) w
      else s.nextPc g grp w
    else s.nextPc g (grp.wrLanes (fD w) (grp.takes w) fun l => s.special g grp l (fA w)) w

/-- CINV. -/
def effCinv (g : GRef) (w w1 : W64) (s : State) : State :=
  s.ctl g w (fun v => RSpec.legal { d := .unused } v w w1) fun s _ _ grp =>
    (if grp.takes w == 0#64 then s else s.setTe g.core (s.te g.core).dropCarrel).nextPc g grp w

/-! ### Barrier and counters (R153-R155) -/

/-- MEET: the threads that take part wait; for global memory it is a release at BLOCK scope (R102). -/
def effMeet (g : GRef) (w w1 : W64) (s : State) : State :=
  s.ctl g w (fun v => RSpec.legal { d := .unused } v w w1) fun s l _ grp =>
    let t := grp.takes w
    if t == 0#64 then s.nextPc g grp w
    else
      let s := (s.flushLaunch g.core l).lsDone g.core grp.blk grp.pipe
      if (s.te g.core).launch.isNone then s
      else s.nextPc g { grp with meets := grp.meets ++ [{ pc := grp.pc, mask := t, under := grp.under }]
                                 active := grp.active &&& ~~~t } w

/-- TALLY. -/
def effTally (g : GRef) (w w1 : W64) (s : State) : State :=
  s.ctl g w (fun v => RSpec.legal { d := .num 32 } v w w1) fun s _ _ grp =>
    let s := s.nextPc g grp w
    if grp.takes w == 0#64 then s else (s.lsDone g.core grp.blk grp.pipe).raiseCtr g.core grp.blk (fD w)

/-- WAITC: the group waits as one until the counter has come to the value. -/
def effWaitc (g : GRef) (w w1 : W64) (s : State) : State :=
  s.ctl g w (fun v => RSpec.legal { d := .num 32, b := .uniImm } v w w1) fun s _ b grp =>
    let v := grp.srcB .int w w1 0
    if grp.takes w == 0#64 || waitOver (b.ctr (fD w)) v then s.nextPc g grp w
    else s.setGrp g (some { grp with waitc := some (fD w, v, grp.takes w, grp.pc + fLen w) })

/-- RDC. -/
def effRdc (g : GRef) (w w1 : W64) (s : State) : State :=
  s.ctl g w (fun v => RSpec.legal { u := 2, a := .num 32 } v w w1) fun s _ b grp =>
    s.nextPc g (if grp.takesU w then grp.wrU (fD w) (b.ctr (fA w)) else grp) w

/-! ### Asynchronous copies (R104-R106, R156-R158) -/

/-- The word of a CPY. -/
def cpyLegal (v : Nat) (w w1 : W64) : Bool :=
  RSpec.legal { d := .num 32, a := .uni 2, b := .uni 1, c := .uni (if nbit (fMod w) 0 then 4 else 1), mods := fun m => decide (m < 8) } v w w1

/-- The copy that a CPY describes. -/
def State.copyOf (s : State) (g : GRef) (grp : Group) (w : W64) : Copy :=
  let u (i : Nat) : Nat := (grp.rdU i).toNat
  let rows := nbit (fMod w) 0
  { src := u (fA w) + u (fA w + 1) * 2 ^ 32, dst := u (fB w), rowBytes := u (fC w), rows := if rows then u (fC w + 1) else 1
    srcPitch := if rows then u (fC w + 2) else 0, dstPitch := if rows then u (fC w + 3) else 0, ctr := fD w
    hint := nbits (fMod w) 1 2, lane := firstLane (grp.takes w), slot := g.slot, pc := grp.pc
    issued := (s.te g.core).now, l0 := (s.te g.core).l0.filter fun e => e.1 % 8 = grp.pipe
    own := (s.te g.core).l0Own.filter fun e => e.1 % 8 = grp.pipe }

/-- The source rows of a copy are translated and checked as loads of its thread at its issue (R106): the pieces of the rows
before the first fault, and that fault. -/
def State.issueCopy (s : State) (who : Who) (l : Launch) (b : Block) (c : Copy) : State × Copy :=
  (List.range c.rows).foldl (fun (acc : State × Copy) j =>
    if acc.2.fault.isSome then acc
    else
      let k := acc.1.gpieces who l b .read (c.src + j * c.srcPitch) c.rowBytes
      (k.1, match k.2 with
        | .error f => { acc.2 with fault := some f }
        | .ok ps => { acc.2 with pieces := acc.2.pieces ++ [ps] })) (s, c)

/-- The parameters are within R157. -/
def Copy.ok (c : Copy) (rows : Bool) : Bool :=
  [c.src, c.dst, c.rowBytes, c.srcPitch, c.dstPitch].all (fun x => decide (x % 16 = 0))
    && (if rows then decide (c.rowBytes ≤ 65536) && decide (c.rows ≤ 65535) else decide (c.rowBytes ≤ 0x400000))

/-- Local-store offset of a row. -/
def Copy.dstOf (c : Copy) (j : Nat) : Nat := c.dst + j * c.dstPitch

/-- The first offset of a copy outside the allocation of its block. -/
def Copy.outside (c : Copy) (l : Launch) (b : Block) : Option Nat :=
  ((List.range c.rows).find? fun j => !inAlloc l b (c.dstOf j) c.rowBytes).map fun j =>
    if decide ((allocOf l b).1 ≤ c.dstOf j) && decide (l.lsBlock ≠ 0) then max (c.dstOf j) ((allocOf l b).1 + (allocOf l b).2) else c.dstOf j

/-- CPY. -/
def effCpy (g : GRef) (w w1 : W64) (s0 : State) : State :=
  s0.ctl g w (fun v => cpyLegal v w w1) fun s l b grp =>
    if grp.takes w == 0#64 then s.nextPc g grp w
    else
      let c := s.copyOf g grp w
      if !c.ok (nbit (fMod w) 0) then s.instrFault g grp c.lane stIllegal none
      else if c.rowBytes = 0 ∨ c.rows = 0 then (s.nextPc g grp w).raiseCtr g.core grp.blk c.ctr
      else match c.outside l b with
        | some a => s.instrFault g grp c.lane stProtection (some (a, true))
        | none =>
          if 64 ≤ b.copies.length then s0
          else
            let k := s.issueCopy (s.runWho l.q l.run) l b c
            (k.1.setBlk g.core grp.blk (some { b with copies := b.copies ++ [k.2] })).nextPc g grp w

/-- The bytes of a row of a copy, from the addresses checked at its issue, or the code and address of its fault; a wait
leaves the code 0. The bytes of a line come in one version, at the issue or later, or as the pipe's L0 held them then
(R106, R283). -/
def State.asyncRow (s : State) (who : Who) (b : Block) (c : Copy) (ps : List Piece) : State × Except (Nat × Nat) Bytes :=
  (ps.flatMap fun p => cutAt 512 (p.2 / 512 + 2) p.1 p.2).foldl (fun (acc : State × Except (Nat × Nat) Bytes) p =>
    match acc.2 with
    | .error f => (acc.1, .error f)
    | .ok bs =>
      if isWin p.1 && decide (winSlot p.1 = acc.1.coreSlotIx who.q.core) then
        let r := acc.1.lsBytes who b (winOffset p.1) p.2
        (r.1, .ok (bs ++ r.2))
      else
        let r := acc.1.readPa who p.1 p.2 c.hint
        match r.2 with
        | .ok x =>
          if isWin p.1 then (r.1, .ok (bs ++ x))
          else
            let t := r.1.pickTime who ((stampAt c.l0 (ownKey (c.slot / 8) (p.1 / 512))).getD c.issued) p.1 p.2
            (t.1, .ok (bs ++ t.1.versionOf who (fun a => tget 0 c.own (ownKey (c.slot / 8) a)) t.2 p.1 p.2))
        | .err code a _ => (r.1, .error (code, a))
        | .wait => (r.1, .error (0, 0))) (s, .ok [])

/-- Writes one row into the local store: a byte that an earlier row has written keeps that value or takes
this row's, by a free choice. -/
def State.asyncPut (s : State) (ix : Nat) (c : Copy) (j : Nat) (bs : Bytes) : State :=
  bs.zipIdx.foldl (fun s e =>
    let off := c.dstOf j + e.2
    if (List.range j).any fun i => decide (c.dstOf i ≤ off) && decide (off < c.dstOf i + c.rowBytes) then
      let r := s.freeBit
      if r.2 then r.1 else r.1.wrLs ix off [e.1]
    else s.wrLs ix off [e.1]) s

/-- All rows of a copy from row `j` on; the fault that ends it. -/
def State.asyncAll (s : State) (who : Who) (b : Block) (core : Nat) (c : Copy) : List (List Piece) → Nat → State × Option (Nat × Nat)
  | [], _ => (s, c.fault)
  | ps :: rest, j =>
    let r := s.asyncRow who b c ps
    match r.2 with
    | .error f => (r.1, some f)
    | .ok bs => (r.1.asyncPut (s.coreSlotIx core) c j bs).asyncAll who b core c rest (j + 1)

/-- COPY_COMPLETE: the copy's bytes are read and written, and its counter rises. -/
def effCopyComplete (core blk idx : Nat) (s : State) : State :=
  match (s.te core).launch, s.blk? core blk with
  | some l, some b =>
    match b.copies[idx]? with
    | none => s
    | some c =>
      let who := s.runWho l.q l.run
      let all := c.pieces.flatten
      let p := s.fetchMissing who c.hint (fun _ => none) false all
      if all.any fun p => s.mopnHeld who p.1 p.2 then s
      else if !p.2 then p.1
      else
        let r := s.asyncAll who b core c c.pieces 0
        match r.2 with
        | some (0, _) => s
        | some (code, a) =>
          if killsContext code then r.1.threadFault core c.slot blk c.pc c.lane code (some (a, false))
          else r.1.failLaunch core { code := code }
        | none => (r.1.setBlk core blk (some { b with copies := b.copies.eraseIdx idx })).raiseCtr core blk c.ctr
  | _, _ => s

def execCopyComplete (core blk idx : Nat) (s : State) : Host.Outcome State Fault Refusal :=
  carryOut (decide (core < Config.cores) && decide (blk < 16)) (effCopyComplete core blk idx s)

/-! ### The rows of control -/

def execFolioNop (g : GRef) (w w1 : W64) (s : State) : Host.Outcome State Fault Refusal :=
  carryOut (g.ok && opcodeOk w 0x00) (effFolioNop g w w1 s)
def execQuit (g : GRef) (w w1 : W64) (s : State) : Host.Outcome State Fault Refusal :=
  carryOut (g.ok && opcodeOk w 0x01) (effQuit g w w1 s)
def execJump (g : GRef) (w w1 : W64) (s : State) : Host.Outcome State Fault Refusal :=
  carryOut (g.ok && opcodeOk w 0x02) (effJump g w w1 s)
def execCall (g : GRef) (w w1 : W64) (s : State) : Host.Outcome State Fault Refusal :=
  carryOut (g.ok && opcodeOk w 0x03) (effCall g w w1 s)
def execRet (g : GRef) (w w1 : W64) (s : State) : Host.Outcome State Fault Refusal :=
  carryOut (g.ok && opcodeOk w 0x04) (effRet g w w1 s)
def execMeet (g : GRef) (w w1 : W64) (s : State) : Host.Outcome State Fault Refusal :=
  carryOut (g.ok && opcodeOk w 0x05) (effMeet g w w1 s)
def execTally (g : GRef) (w w1 : W64) (s : State) : Host.Outcome State Fault Refusal :=
  carryOut (g.ok && opcodeOk w 0x08) (effTally g w w1 s)
def execSpecr (g : GRef) (w w1 : W64) (s : State) : Host.Outcome State Fault Refusal :=
  carryOut (g.ok && opcodeOk w 0x09) (effSpecr g w w1 s)
def execCinv (g : GRef) (w w1 : W64) (s : State) : Host.Outcome State Fault Refusal :=
  carryOut (g.ok && opcodeOk w 0x0A) (effCinv g w w1 s)
def execCpy (g : GRef) (w w1 : W64) (s : State) : Host.Outcome State Fault Refusal :=
  carryOut (g.ok && opcodeOk w 0x0C) (effCpy g w w1 s)
def execWaitc (g : GRef) (w w1 : W64) (s : State) : Host.Outcome State Fault Refusal :=
  carryOut (g.ok && opcodeOk w 0x0E) (effWaitc g w w1 s)
def execRdc (g : GRef) (w w1 : W64) (s : State) : Host.Outcome State Fault Refusal :=
  carryOut (g.ok && opcodeOk w 0x0F) (effRdc g w w1 s)

/-! ### Memory (R139-R151) -/

/-- FENCE. -/
def execFence (g : GRef) (w _w1 : W64) (s : State) : Host.Outcome State Fault Refusal :=
  carryOut (g.ok && opcodeOk w 0x0B) (s.gfence g w)
/-- LDM. -/
def execLdm (g : GRef) (w w1 : W64) (s : State) : Host.Outcome State Fault Refusal :=
  carryOut (g.ok && opcodeOk w 0x50) (s.gload g w w1 false)
/-- LDRO. -/
def execLdro (g : GRef) (w w1 : W64) (s : State) : Host.Outcome State Fault Refusal :=
  carryOut (g.ok && opcodeOk w 0x51) (s.gload g w w1 true)
/-- LDLS. -/
def execLdls (g : GRef) (w w1 : W64) (s : State) : Host.Outcome State Fault Refusal :=
  carryOut (g.ok && opcodeOk w 0x52) (s.lload g w w1)
/-- STM. -/
def execStm (g : GRef) (w w1 : W64) (s : State) : Host.Outcome State Fault Refusal :=
  carryOut (g.ok && opcodeOk w 0x53) (s.gstore g w w1)
/-- STLS. -/
def execStls (g : GRef) (w w1 : W64) (s : State) : Host.Outcome State Fault Refusal :=
  carryOut (g.ok && opcodeOk w 0x54) (s.lstore g w w1)
/-- MOPN. -/
def execMopn (g : GRef) (w w1 : W64) (s : State) : Host.Outcome State Fault Refusal :=
  carryOut (g.ok && opcodeOk w 0x55) (s.gmopn g w w1)
/-- MOPR. -/
def execMopr (g : GRef) (w w1 : W64) (s : State) : Host.Outcome State Fault Refusal :=
  carryOut (g.ok && opcodeOk w 0x56) (s.gmopr g w w1)
/-- LOPR. -/
def execLopr (g : GRef) (w w1 : W64) (s : State) : Host.Outcome State Fault Refusal :=
  carryOut (g.ok && opcodeOk w 0x57) (s.llopr g w w1)

/-! ### Registers alone (R129-R135, R159-R164) -/

/-- ADDW. -/
def execAddw (g : GRef) (w w1 : W64) (s : State) : Host.Outcome State Fault Refusal :=
  carryOut (g.ok && opcodeOk w 0x10) (s.alu g w w1 fxAddw)
/-- SUBW. -/
def execSubw (g : GRef) (w w1 : W64) (s : State) : Host.Outcome State Fault Refusal :=
  carryOut (g.ok && opcodeOk w 0x11) (s.alu g w w1 fxSubw)
/-- MULW. -/
def execMulw (g : GRef) (w w1 : W64) (s : State) : Host.Outcome State Fault Refusal :=
  carryOut (g.ok && opcodeOk w 0x12) (s.alu g w w1 fxMulw)
/-- MULWH. -/
def execMulwh (g : GRef) (w w1 : W64) (s : State) : Host.Outcome State Fault Refusal :=
  carryOut (g.ok && opcodeOk w 0x13) (s.alu g w w1 fxMulwh)
/-- MADW. -/
def execMadw (g : GRef) (w w1 : W64) (s : State) : Host.Outcome State Fault Refusal :=
  carryOut (g.ok && opcodeOk w 0x14) (s.alu g w w1 fxMadw)
/-- MINW. -/
def execMinw (g : GRef) (w w1 : W64) (s : State) : Host.Outcome State Fault Refusal :=
  carryOut (g.ok && opcodeOk w 0x15) (s.alu g w w1 fxMinw)
/-- MAXW. -/
def execMaxw (g : GRef) (w w1 : W64) (s : State) : Host.Outcome State Fault Refusal :=
  carryOut (g.ok && opcodeOk w 0x16) (s.alu g w w1 fxMaxw)
/-- ANDW. -/
def execAndw (g : GRef) (w w1 : W64) (s : State) : Host.Outcome State Fault Refusal :=
  carryOut (g.ok && opcodeOk w 0x17) (s.alu g w w1 fxAndw)
/-- ORW. -/
def execOrw (g : GRef) (w w1 : W64) (s : State) : Host.Outcome State Fault Refusal :=
  carryOut (g.ok && opcodeOk w 0x18) (s.alu g w w1 fxOrw)
/-- XORW. -/
def execXorw (g : GRef) (w w1 : W64) (s : State) : Host.Outcome State Fault Refusal :=
  carryOut (g.ok && opcodeOk w 0x19) (s.alu g w w1 fxXorw)
/-- SHLW. -/
def execShlw (g : GRef) (w w1 : W64) (s : State) : Host.Outcome State Fault Refusal :=
  carryOut (g.ok && opcodeOk w 0x1A) (s.alu g w w1 fxShlw)
/-- SHRW. -/
def execShrw (g : GRef) (w w1 : W64) (s : State) : Host.Outcome State Fault Refusal :=
  carryOut (g.ok && opcodeOk w 0x1B) (s.alu g w w1 fxShrw)
/-- ONES. -/
def execOnes (g : GRef) (w w1 : W64) (s : State) : Host.Outcome State Fault Refusal :=
  carryOut (g.ok && opcodeOk w 0x1C) (s.alu g w w1 fxOnes)
/-- LZERO. -/
def execLzero (g : GRef) (w w1 : W64) (s : State) : Host.Outcome State Fault Refusal :=
  carryOut (g.ok && opcodeOk w 0x1D) (s.alu g w w1 fxLzero)
/-- FIELD. -/
def execField (g : GRef) (w w1 : W64) (s : State) : Host.Outcome State Fault Refusal :=
  carryOut (g.ok && opcodeOk w 0x1E) (s.alu g w w1 fxField)
/-- PLACE. -/
def execPlace (g : GRef) (w w1 : W64) (s : State) : Host.Outcome State Fault Refusal :=
  carryOut (g.ok && opcodeOk w 0x1F) (s.alu g w w1 fxPlace)
/-- CHOOSE. -/
def execChoose (g : GRef) (w w1 : W64) (s : State) : Host.Outcome State Fault Refusal :=
  carryOut (g.ok && opcodeOk w 0x20) (s.alu g w w1 fxChoose)
/-- SETR. -/
def execSetr (g : GRef) (w w1 : W64) (s : State) : Host.Outcome State Fault Refusal :=
  carryOut (g.ok && opcodeOk w 0x21) (s.alu g w w1 fxSetr)
/-- TESTW. -/
def execTestw (g : GRef) (w w1 : W64) (s : State) : Host.Outcome State Fault Refusal :=
  carryOut (g.ok && opcodeOk w 0x22) (s.alu g w w1 fxTestw)
/-- TESTF. -/
def execTestf (g : GRef) (w w1 : W64) (s : State) : Host.Outcome State Fault Refusal :=
  carryOut (g.ok && opcodeOk w 0x23) (s.alu g w w1 fxTestf)
/-- PCOMB. -/
def execPcomb (g : GRef) (w w1 : W64) (s : State) : Host.Outcome State Fault Refusal :=
  carryOut (g.ok && opcodeOk w 0x24) (s.alu g w w1 fxPcomb)
/-- LANEX. -/
def execLanex (g : GRef) (w w1 : W64) (s : State) : Host.Outcome State Fault Refusal :=
  carryOut (g.ok && opcodeOk w 0x25) (s.alu g w w1 fxLanex)
/-- POLL. -/
def execPoll (g : GRef) (w w1 : W64) (s : State) : Host.Outcome State Fault Refusal :=
  carryOut (g.ok && opcodeOk w 0x26) (s.alu g w w1 fxPoll)
/-- LANEU. -/
def execLaneu (g : GRef) (w w1 : W64) (s : State) : Host.Outcome State Fault Refusal :=
  carryOut (g.ok && opcodeOk w 0x27) (s.alu g w w1 fxLaneu)
/-- ADDF. -/
def execAddf (g : GRef) (w w1 : W64) (s : State) : Host.Outcome State Fault Refusal :=
  carryOut (g.ok && opcodeOk w 0x28) (s.alu g w w1 fxAddf)
/-- MULF. -/
def execMulf (g : GRef) (w w1 : W64) (s : State) : Host.Outcome State Fault Refusal :=
  carryOut (g.ok && opcodeOk w 0x29) (s.alu g w w1 fxMulf)
/-- MADF. -/
def execMadf (g : GRef) (w w1 : W64) (s : State) : Host.Outcome State Fault Refusal :=
  carryOut (g.ok && opcodeOk w 0x2A) (s.alu g w w1 fxMadf)
/-- MINF. -/
def execMinf (g : GRef) (w w1 : W64) (s : State) : Host.Outcome State Fault Refusal :=
  carryOut (g.ok && opcodeOk w 0x2B) (s.alu g w w1 fxMinf)
/-- MAXF. -/
def execMaxf (g : GRef) (w w1 : W64) (s : State) : Host.Outcome State Fault Refusal :=
  carryOut (g.ok && opcodeOk w 0x2C) (s.alu g w w1 fxMaxf)
/-- ADDB2. -/
def execAddb2 (g : GRef) (w w1 : W64) (s : State) : Host.Outcome State Fault Refusal :=
  carryOut (g.ok && opcodeOk w 0x30) (s.alu g w w1 fxAddb2)
/-- MULB2. -/
def execMulb2 (g : GRef) (w w1 : W64) (s : State) : Host.Outcome State Fault Refusal :=
  carryOut (g.ok && opcodeOk w 0x31) (s.alu g w w1 fxMulb2)
/-- MADB2. -/
def execMadb2 (g : GRef) (w w1 : W64) (s : State) : Host.Outcome State Fault Refusal :=
  carryOut (g.ok && opcodeOk w 0x32) (s.alu g w w1 fxMadb2)
/-- RECIP. -/
def execRecip (g : GRef) (w w1 : W64) (s : State) : Host.Outcome State Fault Refusal :=
  carryOut (g.ok && opcodeOk w 0x38) (s.alu g w w1 fxRecip)
/-- RROOT. -/
def execRroot (g : GRef) (w w1 : W64) (s : State) : Host.Outcome State Fault Refusal :=
  carryOut (g.ok && opcodeOk w 0x39) (s.alu g w w1 fxRroot)
/-- POW2. -/
def execPow2 (g : GRef) (w w1 : W64) (s : State) : Host.Outcome State Fault Refusal :=
  carryOut (g.ok && opcodeOk w 0x3A) (s.alu g w w1 fxPow2)
/-- LOG2. -/
def execLog2 (g : GRef) (w w1 : W64) (s : State) : Host.Outcome State Fault Refusal :=
  carryOut (g.ok && opcodeOk w 0x3B) (s.alu g w w1 fxLog2)
/-- WTOF. -/
def execWtof (g : GRef) (w w1 : W64) (s : State) : Host.Outcome State Fault Refusal :=
  carryOut (g.ok && opcodeOk w 0x40) (s.alu g w w1 fxWtof)
/-- FTOW. -/
def execFtow (g : GRef) (w w1 : W64) (s : State) : Host.Outcome State Fault Refusal :=
  carryOut (g.ok && opcodeOk w 0x41) (s.alu g w w1 fxFtow)
/-- FTOB. -/
def execFtob (g : GRef) (w w1 : W64) (s : State) : Host.Outcome State Fault Refusal :=
  carryOut (g.ok && opcodeOk w 0x42) (s.alu g w w1 fxFtob)
/-- BTOF. -/
def execBtof (g : GRef) (w w1 : W64) (s : State) : Host.Outcome State Fault Refusal :=
  carryOut (g.ok && opcodeOk w 0x43) (s.alu g w w1 fxBtof)
/-- CVTE. -/
def execCvte (g : GRef) (w w1 : W64) (s : State) : Host.Outcome State Fault Refusal :=
  carryOut (g.ok && opcodeOk w 0x44) (s.alu g w w1 fxCvte)
/-- DCDE. -/
def execDcde (g : GRef) (w w1 : W64) (s : State) : Host.Outcome State Fault Refusal :=
  carryOut (g.ok && opcodeOk w 0x45) (s.alu g w w1 fxDcde)
/-- QBLK. -/
def execQblk (g : GRef) (w w1 : W64) (s : State) : Host.Outcome State Fault Refusal :=
  carryOut (g.ok && opcodeOk w 0x46) (s.alu g w w1 fxQblk)
/-- DQBLK. -/
def execDqblk (g : GRef) (w w1 : W64) (s : State) : Host.Outcome State Fault Refusal :=
  carryOut (g.ok && opcodeOk w 0x47) (s.alu g w w1 fxDqblk)
/-- GMAC. -/
def execGmac (g : GRef) (w w1 : W64) (s : State) : Host.Outcome State Fault Refusal :=
  carryOut (g.ok && opcodeOk w 0x60) (s.alu g w w1 fxGmac)
/-- GMCLR. -/
def execGmclr (g : GRef) (w w1 : W64) (s : State) : Host.Outcome State Fault Refusal :=
  carryOut (g.ok && opcodeOk w 0x61) (s.alu g w w1 fxGmclr)
/-- GMGET. -/
def execGmget (g : GRef) (w w1 : W64) (s : State) : Host.Outcome State Fault Refusal :=
  carryOut (g.ok && opcodeOk w 0x62) (s.alu g w w1 fxGmget)
/-- GMPUT. -/
def execGmput (g : GRef) (w w1 : W64) (s : State) : Host.Outcome State Fault Refusal :=
  carryOut (g.ok && opcodeOk w 0x63) (s.alu g w w1 fxGmput)

end Sys2Proof.Machine
end

