-- ==== Sys2Proof/Machine/HostReqs.lean ====
section
/-!
DEFINITION. Requests of hosts (13_ring_links R344-R348, 15_partitions R382, R383, 16_mould_and_start R398, R408,
18_faults_and_recovery R440): what a write of each register does under its access codes (00_scope R6, R7, R10), and
the judging of reads and writes by region and port.
-/

namespace Sys2Proof.Machine

/-! ### Writes of registers (R10, R472) -/

/-- The value and the mask that an access of 4 or 8 bytes brings to a register (R6). -/
def laneVal (pa len x : Nat) : W64 := BitVec.ofNat 64 (x % 2 ^ (8 * len) * 2 ^ (8 * (pa % 8)))
def laneMask (pa len : Nat) : W64 := BitVec.ofNat 64 ((2 ^ (8 * len) - 1) * 2 ^ (8 * (pa % 8)))
/-- An access of registers has 4 or 8 bytes, naturally aligned (R6). -/
def regForm (pa len : Nat) : Bool := decide (len = 4 ∨ len = 8) && decide (pa % len = 0)

/-- The write reaches bits [31:0]. -/
def lowHalf (m : W64) : Bool := m.getLsbD 0

/-- A base register of a ring or a table: held while enabled, bits [11:0] read 0. -/
def State.writeBase (s : State) (on : Bool) (k : Nat) (n : W64) : State :=
  if on then s else s.setReg k (BitVec.ofNat 64 (fldOf n 12 43 * 4096))
/-- NOTIFY_ADDR: bits [1:0] read 0. -/
def State.writeNotifyAddr (s : State) (k : Nat) (n : W64) : State := s.setReg k (BitVec.ofNat 64 (fldOf n 2 53 * 4))
/-- The W1C bits of QUE_STATUS and SVC_STATUS. -/
def State.clearStatus (s : State) (k : Nat) (x : W64) : State := s.setReg k (s.reg k &&& ~~~(x &&& 0x7_0000#64))

/-- A queue's register at an offset of its page. -/
def State.queWrite (s : State) (q : QRef) (w : Nat) (v m : W64) : State :=
  let k := queB q + w
  let n := merge (s.reg k) v m
  let x := v &&& m
  if w = 0x00 then effQueCfgWrite q n s
  else if w = 0x08 ∨ w = 0x10 ∨ w = 0x18 then s.writeBase (s.qEnabled q) k n
  else if w = 0x20 then (if lowHalf m then s.tailWrite q v else s)
  else if w = 0x40 then (if lowHalf m then effQueCrHeadWrite (.que q) v s else s)
  else if w = 0x48 then s.clearStatus k x
  else if w = 0x50 then
    if fldOf x 0 1 = 0 then s else if fldOf x 1 1 = 1 then effQueResumeSkip q s else s.resumeQ q
  else if w = 0x58 then
    if fldOf x 63 1 = 1 then s.abortAll q else if lowHalf m then effQueAbort q (fldOf x 0 32) (fldOf x 32 16) s else s
  else if w = 0x60 then s.writeNotifyAddr k n
  else if w = 0x68 then s.setReg k (BitVec.ofNat 64 (fldOf n 0 48))
  else if w = 0x70 then effQueBcastWrite q n s
  else if 0x80 ≤ w ∧ w < 0x100 then
    let j := (w - 0x80) / 8
    let d := (s.q q).sop
    let y := merge (BitVec.ofNat 64 (fldOf d (64 * j) 64)) v m
    if j = 15 then effQueSop15Doorbell q y s else s.modQ q fun x => { x with sop := setQword d j y }
  else s

/-- A service ring's register (R361). -/
def State.svcWrite (s : State) (p k w : Nat) (v m : W64) : State :=
  let a := svcB p k + w
  let n := merge (s.reg a) v m
  let x := v &&& m
  if w = 0x00 then effSvcCfgWrite p k n s
  else if w = 0x08 ∨ w = 0x10 then s.writeBase (s.svcEnabled p k) a n
  else if w = 0x18 then s.writeNotifyAddr a n
  else if w = 0x20 then (if lowHalf m then effSvcTail p k v s else s)
  else if w = 0x40 then (if lowHalf m then effQueCrHeadWrite (.svc p k) v s else s)
  else if w = 0x48 then s.clearStatus a x
  else if w = 0x50 then (if fldOf x 0 1 = 1 then effSvcResume p k s else s)
  else if w = 0x58 then
    if fldOf x 63 1 = 1 then s.svcAbortAll p k else if lowHalf m then effSvcAbort p k (fldOf x 0 32) s else s
  else if w = 0x60 then s.setReg a (BitVec.ofNat 64 (fldOf n 0 48))
  else s

/-- MEX_CTRL of an engine. -/
def State.mexCtrl (s : State) (core me : Nat) (x : W64) : State :=
  let s := if fldOf x 0 1 = 1 then effMexClrFlash core me s else s
  let s := if fldOf x 1 1 = 1 then effMexClrDet core me s else s
  if fldOf x 2 1 = 1 then effMexClrPerf core me s else s
/-- TEX_CTRL. -/
def State.texCtrl (s : State) (core : Nat) (x : W64) : State :=
  let s := if fldOf x 0 1 = 1 then effTexClrFlash core s else s
  let s := if fldOf x 1 1 = 1 then effTexClrFault core s else s
  if fldOf x 2 1 = 1 then effTexClrPerf core s else s

/-- A register of a logical core, at an offset of its slot (R5). -/
def State.coreWrite (s : State) (c off : Nat) (v m : W64) : State :=
  let x := v &&& m
  if off = 0x200 then
    if fldOf x 0 1 = 1 then ((s.setReg (coreXlatFault c) 0#64).setReg (coreXlatFault c + 8) 0#64).setReg (coreXlatFault c + 0x10) 0#64 else s
  else if off = 0x300 then (if fldOf x 0 1 = 1 then effCoreSelftestReq c s else s)
  else if 0x10000 ≤ off ∧ off < 0x50000 ∧ off % 0x10000 = 8 then s.mexCtrl c (off / 0x10000 - 1) x
  else if off = 0x50008 then s.texCtrl c x
  else if 0x80000 ≤ off ∧ off < 0x9C000 then
    let i := (off - 0x80000) / 0x1000
    s.queWrite { core := c, eng := i / 4, q := i % 4 } (off % 0x1000) v m
  else if off = 0xC0010 then s.setFld (calB c + 0x10) 0 1 (fldOf (merge (s.reg (calB c + 0x10)) v m) 0 1)
  else s

/-- CORE_TLBI_CMD. -/
def State.tlbiCmd (s : State) (p : Nat) (x : W64) : State :=
  match fldOf x 0 2 with
  | 0 => effTlbiRange p (fldOf x 16 16) s
  | 1 => effTlbiContext p (fldOf x 16 16) s
  | 2 => effTlbiPartition p s
  | _ => s

/-- A register of a partition's aperture that is no core's (R382). Writes of SVC_ registers before READY are
ignored (R406). -/
def State.partWrite (s : State) (p off : Nat) (v m : W64) : State :=
  if 0x400000 ≤ off ∧ off < 0x410000 then
    let g := (off - 0x400000) / 0x1000
    let w := off % 0x1000
    if w = 0 then (if lowHalf m then effBcastTail p g v s else s)
    else if 0x80 ≤ w ∧ w < 0x100 then
      let j := (w - 0x80) / 8
      let d := s.groupSop p g
      let y := merge (BitVec.ofNat 64 (fldOf d (64 * j) 64)) v m
      if j = 15 then effBcastSop15 p g y s else s.setGroupSop p g (setQword d j y)
    else s
  else if off = 0x500000 then effCoreCtxBaseWrite p (merge (s.reg (coreCtxBase p)) v m) s
  else if off = 0x500010 then s.setReg (coreTlbiVa p) (BitVec.ofNat 64 (fldOf (merge (s.reg (coreTlbiVa p)) v m) 0 55))
  else if off = 0x500018 then (if lowHalf m then s.tlbiCmd p (v &&& m) else s)
  else if 0x600000 ≤ off ∧ off < 0x600400 ∧ s.mapBuilt = true then s.svcWrite p ((off - 0x600000) / 0x100) (off % 0x100) v m
  else s

/-- A register of a site block (R4). -/
def State.siteWrite (s : State) (x off : Nat) (v m : W64) : State :=
  if off = 0x30000 ∨ off = 0x30008 then (if lowHalf m then effCkgHalfWrite x ((off - 0x30000) / 8) v s else s)
  else if off = 0x100308 then effDirProbe x (merge (s.reg (arcDirProbe x)) v m) s
  else s

/-- A register of a site, a core or a partition; the registers of ring dies and fuses are read-only. -/
def State.regWrite (s : State) (k : Nat) (v m : W64) : State :=
  if coreB 0 ≤ k ∧ k < coreB 256 then s.coreWrite ((k - coreB 0) / 0x200000) ((k - coreB 0) % 0x200000) v m
  else if siteB 0 ≤ k ∧ k < siteB 72 then s.siteWrite ((k - siteB 0) / 0x1000000) ((k - siteB 0) % 0x1000000) v m
  else if partB 0 ≤ k ∧ k < partB 16 then s.partWrite ((k - partB 0) / 0x1000000) ((k - partB 0) % 0x1000000) v m
  else s

/-- An offset of the mailbox block that the Librarian backs and that may be written: the slots of the mailbox and
LIB_INC_NOTIFY. -/
def State.libWrite (s : State) (off len x : Nat) : State :=
  let a := alignDown off 8
  let v := laneVal off len x
  let m := laneMask off len
  let n := merge (s.reg (libB + a)) v m
  if a = 0x100 then (if lowHalf m then effLibMbTailWrite v s else s)
  else if a = 0x208 then (if lowHalf m then (effLibIncHeadWrite v s).shed else s)
  else if 0x300 ≤ a ∧ a < 0x388 then (s.backedWrite (libB + a) 8 n fun s => s.backedApply (libB + a) 8 n).shed
  else if 0x4000 ≤ off ∧ off < 0x8000 then
    (s.backedWrite (libB + off) len (BitVec.ofNat 64 x) fun s => s.backedApply (libB + off) len (BitVec.ofNat 64 x)).shed
  else s

/-- REGISTER_WRITE: a write that has been let through. The load window and LIB_BOOT_CMD have rows of their own, which
name the port. -/
def effRegisterWrite (pa len : Nat) (v : W64) (s : State) : State :=
  if !regForm pa len then s
  else if libB ≤ pa ∧ pa < libB + 0x100_0000 then s.libWrite (pa - libB) len v.toNat
  else match regKey s pa with
    | some k => s.regWrite k (laneVal pa len v.toNat) (laneMask pa len)
    | none => s
def execRegisterWrite (pa len : Nat) (v : W64) (s : State) : Host.Outcome State Fault Refusal := carryOut true (effRegisterWrite pa len v s)

/-! ### Ports (R337, R347, R398) -/

/-- The port is in service as a HOST port. -/
def State.hostUp (s : State) (port : Nat) : Bool := s.portUp port && decide (s.fld (rngPort port) 0 2 = 1)

/-- The port is the manager port: by the Mould image; before it applies, the boot port, or while there is none any port
that may act as manager. -/
def State.isManager (s : State) (port : Nat) : Bool :=
  if s.mapBuilt then s.bit (rngPort port) 5
  else if s.bit libBootStatus 22 then decide (s.fld libBootStatus 16 6 = port)
  else s.bit fusSec port

/-! ### Reads of registers (R347, R348, R408, R440) -/

/-- Registers of the mailbox block, as against its slots, report, candidates, log and load window. -/
def isLibReg (a : Nat) : Bool :=
  decide (a < 0x388) || [0x8000, 0x8008].contains a || decide (0x9000 ≤ a ∧ a < 0x9100) || decide (0x10000 ≤ a ∧ a < 0x10800)

/-- Offsets of the mailbox block that hardware answers. -/
def isHwLib (a : Nat) : Bool :=
  [0x0, 0x8, 0x18, 0x100, 0x108, 0x110, 0x8000, 0x8008].contains a || decide (0x9000 ≤ a ∧ a < 0x9100) || decide (0x10000 ≤ a ∧ a < 0x10800)

/-- The eight bytes at an aligned offset of the mailbox block. -/
def State.libWord (s : State) (a : Nat) : W64 :=
  if isLibReg a then s.readReg (libB + a) else BitVec.ofNat 64 (s.mbxNum a 8)

/-- Offsets that a HOST port other than the manager port may read. -/
def tenantLib (a : Nat) : Bool :=
  [0x8000, 0x8008, 0x200, 0x208].contains a || decide (0x10000 ≤ a ∧ a < 0x10800) || decide (0x40000 ≤ a ∧ a < 0x50000)

/-- The log as another HOST port sees it: an entry of a partition that it owns as written, of any other SEQ and
SEVERITY alone. -/
def State.tenantWord (s : State) (port a : Nat) : W64 :=
  if 0x40000 ≤ a ∧ a < 0x50000 then
    let e := alignDown a 64
    let w := s.mbxNum (e + 9) 1
    if nbit w 4 && s.portOwns port (nbits w 0 4) then s.libWord a
    else if a = e then BitVec.ofNat 64 (fldOf (s.libWord a) 0 35) else 0#64
  else s.libWord a

/-- What a read of a register comes to: refused, its eight bytes, those that the Librarian backs, or a hold of CTRL traffic
on its way. -/
inductive RegAns where
  | refused | hw (v : W64) | backed (v : W64) | held
  deriving DecidableEq, Repr

/-- The target site of a host's read of a register (R349): that of a site block, of a ring die, or of the Librarian's ring
die. -/
def State.regSite (s : State) (a : Nat) : Nat :=
  if siteB 0 ≤ a ∧ a < siteB 72 then (a - siteB 0) / 0x100_0000
  else if ringB 0 ≤ a ∧ a < ringB 24 then ringSite ((a - ringB 0) / 0x10_0000)
  else ringSite (if s.bit fusSec 54 then 12 else 0)
/-- A hold of CTRL traffic delays a host's read of a register (R324). -/
def State.ctrlHeld (s : State) (port a : Nat) : Bool := !s.wayOpen roleCtrl 72 (ringSite (port / 2)) (s.regSite a)

/-- The answer to a host's read of a register (R347, R348). An offset of the mailbox block that holds no register reads 0 as
one that the Librarian backs (DESIGN CHOICE, log entry 79). What hardware answers at its own site is never held. -/
def State.regAns (s : State) (port pa : Nat) : RegAns :=
  let a := alignDown pa 8
  let mgr := s.isManager port
  let here : RegAns := .hw (match regKey s a with | some k => s.readReg k | none => 0#64)
  if libB ≤ a ∧ a < libB + 0x100_0000 then
    let off := a - libB
    if !mgr && !tenantLib off then .refused
    else if isHwLib off then .hw (s.libWord off)
    else if s.ctrlHeld port a then .held
    else .backed (if mgr then s.libWord off else s.tenantWord port off)
  else if (siteB 0 ≤ a ∧ a < siteB 72) ∨ (ringB 0 ≤ a ∧ a < ringB 24) then
    (if !mgr then .refused else if s.ctrlHeld port a then .held else here)
  else if partB 0 ≤ a ∧ a < partB 16 then (if mgr || s.portOwns port ((a - partB 0) / 0x1000000) then here else .refused)
  else here

/-- A read answered RETRY (R348). -/
def State.retry (s : State) (port : Nat) (h : QHdr) : State := (s.sat (qhlStat port) 0 16 1).cplSend port h 1 []

/-- The bytes of an access in its register. -/
def laneBytes (pa len : Nat) (v : W64) : Bytes := toBytes len (v.toNat >>> (8 * (pa % 8)))

/-- A register read is answered with data; its time, in units of 4 ns and within 1 µs, is a free value. -/
def State.regData (s : State) (port : Nat) (h : QHdr) (v : W64) : State :=
  let r := s.freeNum
  let k := qhlStat port
  (r.1.setFld k 32 10 (max (r.1.fld k 32 10) (r.2 % 251))).cplSend port h 0 (laneBytes (qAddr h) (qLen h) v)

/-- The Librarian cannot answer reads: it has not started, it is absent, or its backlog is above the threshold. -/
def State.libBusy (s : State) : Bool := s.boot.absent || s.boot.retrying || decide (s.bootState < 3)

/-- A read waits for its answer. -/
def State.hold (s : State) (port : Nat) (h : QHdr) : State :=
  { s with host := { s.host with reads := s.host.reads ++ [{ port := port, h := h, d := [] }] } }

/-- A host's read of the register region. -/
def State.readRegion (s : State) (port : Nat) (h : QHdr) : State :=
  match s.regAns port (qAddr h) with
  | .held => s.retry port h
  | .refused => (s.refused port).cplSend port h 3 []
  | .hw v => s.regData port h v
  | .backed v =>
    if s.libBusy then s.retry port h
    else
      let r := s.freeBit
      if r.2 then r.1.regData port h v else (r.1.hold port h).shed

/-! ### Reads of memory (R302, R345, R347, R348) -/

/-- The frame check, host column (R302); a B copy takes no write (R249; DEDUCED, log entry 130). -/
def State.hostFrame (s : State) (port pa : Nat) (isWrite : Bool) : Bool :=
  s.frameHost pa isWrite (s.isManager port) (fun p => s.portOwns port p) && !(isWrite && s.mirrorB pa)

/-- A read of HBM that has passed the frame check is answered. -/
def State.readHbm (s : State) (port : Nat) (h : QHdr) : State :=
  let pa := qAddr h
  let w : Who := { q := { core := 0, eng := 0, q := 0 }, part := fldOf (s.frame pa) 2 4, cid := 0, site := homeOf pa }
  let r := (s.homeServe pa (qLen h) w.part).poisonRead w pa (qLen h)
  match r.2 with
  | some c => r.1.cplSend port h (if c = stSiteLost then 5 else 4) []
  | none => r.1.cplSend port h 0 (r.1.rdMem pa (qLen h))

/-- An access of memory lies within one 512-byte line. -/
def oneLine (pa n : Nat) : Bool := decide (0 < n) && decide (pa % 512 + n ≤ 512)

/-- A host's read of memory: one that finds its line in use at the home waits. -/
def State.readMemory (s : State) (port : Nat) (h : QHdr) : State :=
  let pa := qAddr h
  let n := qLen h
  if isHbm pa then
    if !s.hostFrame port pa false then (s.refused port).cplSend port h 3 []
    else if s.lineBusy (pa / 512) && !s.isLost (homeOf pa) then s.hold port h
    else s.readHbm port h
  else if isWin pa then
    let r := s.winRead port (winSlot pa) (winOffset pa) n
    match r.2 with
    | some d => r.1.cplSend port h 0 d
    | none => (r.1.refused port).cplSend port h 3 []
  else (s.refused port).cplSend port h 3 []

/-- A packet of another type, or with a reserved field that is not 0, is dropped and counted (R345). -/
def badPacket (h : QHdr) (ty : Nat) : Bool := !qRsvOk h || decide (qTy h ≠ ty)

/-- A read that its port's earlier requests let through. -/
def State.doMrd (s : State) (port : Nat) (h : QHdr) : State :=
  let pa := qAddr h
  if !s.hostUp port then s
  else if badPacket h 0 then (s.refused port).cplSend port h 2 []
  else if qMasked h then s.cplSend port h 2 []
  else if isRegion pa then (if regForm pa (qLen h) then s.readRegion port h else s.cplSend port h 2 [])
  else if (isHbm pa || isWin pa) && !oneLine pa (qLen h) then s.cplSend port h 2 []
  else s.readMemory port h

/-! ### Writes (R345, R347) -/

/-- The form of a write's payload: LEN bytes, or masked sectors (R344). -/
def payloadOk (h : QHdr) (d : Bytes) : Bool :=
  if qMasked h then decide (qLen h % 128 = 0) && decide (qAddr h % 128 = 0) && decide (d.length = 144 * (qLen h / 128))
  else decide (d.length = qLen h)

/-- The bytes that a write brings, by address. -/
def payload (h : QHdr) (d : Bytes) : List (Nat × W8) :=
  if qMasked h then unmask (qAddr h) (List.range (qLen h / 128)) d else (addrs (qAddr h) d.length).zip d

/-- A host's write of the mailbox block: the load window and LIB_BOOT_CMD judge the port themselves. -/
def State.writeLib (s : State) (port off len x : Nat) : State :=
  if 0x80_0000 ≤ off then effLoadWindowWrite port (off - 0x80_0000) (toBytes len x) s
  else if off = 0x8 then
    match x % 4 with
    | 1 => effLoadLib port s
    | 2 => effLoadMould port s
    | _ => if s.isManager port then s else s.refused port
  else if s.isManager port then s.libWrite off len x
  else s.refused port

/-- A host's write of the register region. -/
def State.writeRegion (s : State) (port pa len x : Nat) : State :=
  let mgr := s.isManager port
  if libB ≤ pa ∧ pa < libB + 0x100_0000 then s.writeLib port (pa - libB) len x
  else if fusB ≤ pa ∧ pa < fusB + 0x10_0000 then s.refused port
  else if ((siteB 0 ≤ pa ∧ pa < siteB 72) ∨ (ringB 0 ≤ pa ∧ pa < ringB 24)) ∧ mgr = false then s.refused port
  else if (partB 0 ≤ pa ∧ pa < partB 16) ∧ (mgr || s.portOwns port ((pa - partB 0) / 0x1000000)) = false then s.refused port
  else effRegisterWrite pa len (BitVec.ofNat 64 x) s

/-- A host's write of memory. -/
def State.writeMemory (s : State) (port pa n : Nat) (t : List (Nat × W8)) : State :=
  if isHbm pa then
    if !s.hostFrame port pa true then s.refused port
    else s.homeWrite (homeOf pa) (fldOf (s.frame pa) 2 4) 0 (.host port) t
  else if isWin pa then
    let f (e : Nat × W8) : Nat × W8 := (winOffset e.1, e.2)
    let r := s.winWrite port (winSlot pa) (winOffset pa) n (t.map f)
    if r.2 then r.1 else r.1.refused port
  else s.refused port

/-- A write that its port's earlier requests let through. -/
def State.doMwr (s : State) (port : Nat) (h : QHdr) (d : Bytes) : State :=
  let pa := qAddr h
  if !s.hostUp port then s
  else if badPacket h 1 || !payloadOk h d then s.refused port
  else if isRegion pa then
    if !qMasked h && regForm pa (qLen h) then s.writeRegion port pa (qLen h) (ofBytes d) else s.refused port
  else if (isHbm pa || isWin pa) && !oneLine pa (qLen h) then s.refused port
  else s.writeMemory port pa (qLen h) (payload h d)

/-! ### The order of a port's requests (R285) -/

/-- A write of a port waits at a line's home: it is not visible yet. -/
def State.hostWriting (s : State) (port : Nat) : Bool :=
  s.arc.waitq.any (fun e => e.2.dest == .host port) || s.arc.dirWait.any (fun e => e.2.1.dest == .host port)
    || s.arc.txns.any fun t => t.m.dest == .host port

/-- A request of a port waits for its earlier ones: a read and a write for a write that is not visible, a write also for a
read whose data has not been taken. -/
def State.hostWaits (s : State) (port : Nat) (isWrite : Bool) : Bool :=
  s.hostWriting port || (isWrite && s.host.reads.any fun p => p.port == port)

/-- The requests of a port that wait are performed in the order sent, as far as its earlier ones let them. -/
def State.drainPortN (s : State) (port : Nat) : Nat → State
  | 0 => s
  | fuel + 1 =>
    match s.host.hold.find? fun p => p.port == port with
    | none => s
    | some p =>
      let isWrite := decide (qTy p.h = 1)
      if s.hostWaits port isWrite then s
      else
        let s : State := { s with host := { s.host with hold := eraseFirst (fun x => x == p) s.host.hold } }
        (if isWrite then s.doMwr port p.h p.d else s.doMrd port p.h).drainPortN port fuel
def State.drainPort (s : State) (port : Nat) : State := s.drainPortN port s.host.hold.length

/-- The requests of all ports that wait. -/
def State.drainPorts (s : State) : State := ((s.host.hold.map (·.port)).eraseDups).foldl (fun s p => s.drainPort p) s

/-- A request of a host: performed, or held behind the earlier ones of its port. -/
def State.hostRequest (s : State) (port : Nat) (h : QHdr) (d : Bytes) (isWrite : Bool) : State :=
  let s := s.drainPort port
  if s.hostUp port && ((s.host.hold.any fun p => p.port == port) || s.hostWaits port isWrite) then
    { s with host := { s.host with hold := s.host.hold ++ [{ port := port, h := h, d := d }] } }
  else if isWrite then s.doMwr port h d else s.doMrd port h

/-- MRD. -/
def effMrd (port : Nat) (h : QHdr) (s : State) : State :=
  if badPacket h 0 then s.doMrd port h else s.hostRequest port h [] false
def execMrd (port : Nat) (h : QHdr) (s : State) : Host.Outcome State Fault Refusal :=
  carryOut (decide (port < Config.ports)) (effMrd port h s)

/-- MWR. -/
def effMwr (port : Nat) (h : QHdr) (d : Bytes) (s : State) : State :=
  if badPacket h 1 then s.doMwr port h d else s.hostRequest port h d true
def execMwr (port : Nat) (h : QHdr) (d : Bytes) (s : State) : Host.Outcome State Fault Refusal :=
  carryOut (decide (port < Config.ports)) (effMwr port h d s)

/-! ### Deadlines (R348) -/

/-- The read of a port that waits under a tag. -/
def State.heldRead (s : State) (port tag : Nat) (reg : Bool) : Option QPkt :=
  s.host.reads.find? fun p => decide (p.port = port) && decide (qTag p.h = tag) && (isRegion (qAddr p.h) == reg)
def State.unhold (s : State) (p : QPkt) : State := { s with host := { s.host with reads := s.host.reads.erase p } }
/-- A read of a port that waits behind its earlier requests. -/
def State.queuedRead (s : State) (port tag : Nat) (reg : Bool) : Option QPkt :=
  s.host.hold.find? fun p => decide (p.port = port) && decide (qTy p.h = 0) && decide (qTag p.h = tag) && (isRegion (qAddr p.h) == reg)
/-- Its deadline passes: RETRY. -/
def State.retryQueued (s : State) (port tag : Nat) (reg : Bool) : State :=
  match s.queuedRead port tag reg with
  | some p => (({ s with host := { s.host with hold := eraseFirst (fun x => x == p) s.host.hold } } : State).retry port p.h).drainPort port
  | none => s

/-- REGISTER_READ_DEADLINE. -/
def effRegisterReadDeadline (port tag : Nat) (s : State) : State :=
  let s := s.drainPort port
  match s.heldRead port tag true with
  | some p => (((s.unhold p).retry port p.h).shed).drainPort port
  | none => s.retryQueued port tag true
def execRegisterReadDeadline (port tag : Nat) (s : State) : Host.Outcome State Fault Refusal :=
  carryOut (decide (port < Config.ports)) (effRegisterReadDeadline port tag s)

/-- MEMORY_READ_DEADLINE: RETRY while the line is still in use, else the answer. -/
def effMemoryReadDeadline (port tag : Nat) (s : State) : State :=
  let s := s.drainPort port
  match s.heldRead port tag false with
  | some p =>
    let s := s.unhold p
    (if s.lineBusy (qAddr p.h / 512) && !s.isLost (homeOf (qAddr p.h)) then s.retry port p.h else s.readHbm port p.h).drainPort port
  | none => s.retryQueued port tag false
def execMemoryReadDeadline (port tag : Nat) (s : State) : Host.Outcome State Fault Refusal :=
  carryOut (decide (port < Config.ports)) (effMemoryReadDeadline port tag s)

end Sys2Proof.Machine
end

