-- ==== Sys2Proof/Machine/Dispatch.lean ====
section
/-!
DEFINITION. What each command does: one arm for each row of spec/opcode_table.json.
-/

namespace Sys2Proof.Machine

/-- The effect of a command on everything but the queue of waiting commands. -/
def exec (i : Instr) (s : State) : Host.Outcome State Fault Refusal :=
  match i with
  | .registerWrite pa len v => Sys2Proof.Machine.execRegisterWrite pa len v s
  | .cdieFatalError site => Sys2Proof.Machine.execCdieFatalError site s
  | .cdieHeartbeatTimeout site => Sys2Proof.Machine.execCdieHeartbeatTimeout site s
  | .substitutionDone row => Sys2Proof.Machine.execSubstitutionDone row s
  | .riserFailure row => Sys2Proof.Machine.execRiserFailure row s
  | .matmul q => Sys2Proof.Machine.execMatmul q s
  | .gangWindowClose core gang => Sys2Proof.Machine.execGangWindowClose core gang s
  | .matrixDetection core eng kind => Sys2Proof.Machine.execMatrixDetection core eng kind s
  | .lsParityError core eng off => Sys2Proof.Machine.execLsParityError core eng off s
  | .engineStopped core eng => Sys2Proof.Machine.execEngineStopped core eng s
  | .mexClrFlash core me => Sys2Proof.Machine.execMexClrFlash core me s
  | .mexClrDet core me => Sys2Proof.Machine.execMexClrDet core me s
  | .mexClrPerf core me => Sys2Proof.Machine.execMexClrPerf core me s
  | .launch q => Sys2Proof.Machine.execLaunch q s
  | .blockDispatch core => Sys2Proof.Machine.execBlockDispatch core s
  | .blockRetire core blk => Sys2Proof.Machine.execBlockRetire core blk s
  | .meetComplete core blk => Sys2Proof.Machine.execMeetComplete core blk s
  | .barrierTimeout core blk => Sys2Proof.Machine.execBarrierTimeout core blk s
  | .waitcTimeout g => Sys2Proof.Machine.execWaitcTimeout g s
  | .copyComplete core blk idx => Sys2Proof.Machine.execCopyComplete core blk idx s
  | .teDetection core kind => Sys2Proof.Machine.execTeDetection core kind s
  | .l0ParityError core unit => Sys2Proof.Machine.execL0ParityError core unit s
  | .texClrFlash core => Sys2Proof.Machine.execTexClrFlash core s
  | .texClrFault core => Sys2Proof.Machine.execTexClrFault core s
  | .texClrPerf core => Sys2Proof.Machine.execTexClrPerf core s
  | .folioNop g w w1 => Sys2Proof.Machine.execFolioNop g w w1 s
  | .quit g w w1 => Sys2Proof.Machine.execQuit g w w1 s
  | .jump g w w1 => Sys2Proof.Machine.execJump g w w1 s
  | .call g w w1 => Sys2Proof.Machine.execCall g w w1 s
  | .ret g w w1 => Sys2Proof.Machine.execRet g w w1 s
  | .meet g w w1 => Sys2Proof.Machine.execMeet g w w1 s
  | .tally g w w1 => Sys2Proof.Machine.execTally g w w1 s
  | .specr g w w1 => Sys2Proof.Machine.execSpecr g w w1 s
  | .cinv g w w1 => Sys2Proof.Machine.execCinv g w w1 s
  | .fence g w w1 => Sys2Proof.Machine.execFence g w w1 s
  | .cpy g w w1 => Sys2Proof.Machine.execCpy g w w1 s
  | .waitc g w w1 => Sys2Proof.Machine.execWaitc g w w1 s
  | .rdc g w w1 => Sys2Proof.Machine.execRdc g w w1 s
  | .addw g w w1 => Sys2Proof.Machine.execAddw g w w1 s
  | .subw g w w1 => Sys2Proof.Machine.execSubw g w w1 s
  | .mulw g w w1 => Sys2Proof.Machine.execMulw g w w1 s
  | .mulwh g w w1 => Sys2Proof.Machine.execMulwh g w w1 s
  | .madw g w w1 => Sys2Proof.Machine.execMadw g w w1 s
  | .minw g w w1 => Sys2Proof.Machine.execMinw g w w1 s
  | .maxw g w w1 => Sys2Proof.Machine.execMaxw g w w1 s
  | .andw g w w1 => Sys2Proof.Machine.execAndw g w w1 s
  | .orw g w w1 => Sys2Proof.Machine.execOrw g w w1 s
  | .xorw g w w1 => Sys2Proof.Machine.execXorw g w w1 s
  | .shlw g w w1 => Sys2Proof.Machine.execShlw g w w1 s
  | .shrw g w w1 => Sys2Proof.Machine.execShrw g w w1 s
  | .ones g w w1 => Sys2Proof.Machine.execOnes g w w1 s
  | .lzero g w w1 => Sys2Proof.Machine.execLzero g w w1 s
  | .field g w w1 => Sys2Proof.Machine.execField g w w1 s
  | .place g w w1 => Sys2Proof.Machine.execPlace g w w1 s
  | .choose g w w1 => Sys2Proof.Machine.execChoose g w w1 s
  | .setr g w w1 => Sys2Proof.Machine.execSetr g w w1 s
  | .testw g w w1 => Sys2Proof.Machine.execTestw g w w1 s
  | .testf g w w1 => Sys2Proof.Machine.execTestf g w w1 s
  | .pcomb g w w1 => Sys2Proof.Machine.execPcomb g w w1 s
  | .lanex g w w1 => Sys2Proof.Machine.execLanex g w w1 s
  | .poll g w w1 => Sys2Proof.Machine.execPoll g w w1 s
  | .laneu g w w1 => Sys2Proof.Machine.execLaneu g w w1 s
  | .addf g w w1 => Sys2Proof.Machine.execAddf g w w1 s
  | .mulf g w w1 => Sys2Proof.Machine.execMulf g w w1 s
  | .madf g w w1 => Sys2Proof.Machine.execMadf g w w1 s
  | .minf g w w1 => Sys2Proof.Machine.execMinf g w w1 s
  | .maxf g w w1 => Sys2Proof.Machine.execMaxf g w w1 s
  | .addb2 g w w1 => Sys2Proof.Machine.execAddb2 g w w1 s
  | .mulb2 g w w1 => Sys2Proof.Machine.execMulb2 g w w1 s
  | .madb2 g w w1 => Sys2Proof.Machine.execMadb2 g w w1 s
  | .recip g w w1 => Sys2Proof.Machine.execRecip g w w1 s
  | .rroot g w w1 => Sys2Proof.Machine.execRroot g w w1 s
  | .pow2 g w w1 => Sys2Proof.Machine.execPow2 g w w1 s
  | .log2 g w w1 => Sys2Proof.Machine.execLog2 g w w1 s
  | .wtof g w w1 => Sys2Proof.Machine.execWtof g w w1 s
  | .ftow g w w1 => Sys2Proof.Machine.execFtow g w w1 s
  | .ftob g w w1 => Sys2Proof.Machine.execFtob g w w1 s
  | .btof g w w1 => Sys2Proof.Machine.execBtof g w w1 s
  | .cvte g w w1 => Sys2Proof.Machine.execCvte g w w1 s
  | .dcde g w w1 => Sys2Proof.Machine.execDcde g w w1 s
  | .qblk g w w1 => Sys2Proof.Machine.execQblk g w w1 s
  | .dqblk g w w1 => Sys2Proof.Machine.execDqblk g w w1 s
  | .ldm g w w1 => Sys2Proof.Machine.execLdm g w w1 s
  | .ldro g w w1 => Sys2Proof.Machine.execLdro g w w1 s
  | .ldls g w w1 => Sys2Proof.Machine.execLdls g w w1 s
  | .stm g w w1 => Sys2Proof.Machine.execStm g w w1 s
  | .stls g w w1 => Sys2Proof.Machine.execStls g w w1 s
  | .mopn g w w1 => Sys2Proof.Machine.execMopn g w w1 s
  | .mopr g w w1 => Sys2Proof.Machine.execMopr g w w1 s
  | .lopr g w w1 => Sys2Proof.Machine.execLopr g w w1 s
  | .gmac g w w1 => Sys2Proof.Machine.execGmac g w w1 s
  | .gmclr g w w1 => Sys2Proof.Machine.execGmclr g w w1 s
  | .gmget g w w1 => Sys2Proof.Machine.execGmget g w w1 s
  | .gmput g w w1 => Sys2Proof.Machine.execGmput g w w1 s
  | .queTailDoorbell q v => Sys2Proof.Machine.execQueTailDoorbell q v s
  | .queSop15Doorbell q v => Sys2Proof.Machine.execQueSop15Doorbell q v s
  | .bcastTail p grp v => Sys2Proof.Machine.execBcastTail p grp v s
  | .bcastSop15 p grp v => Sys2Proof.Machine.execBcastSop15 p grp v s
  | .queCfgWrite q v => Sys2Proof.Machine.execQueCfgWrite q v s
  | .queBcastWrite q v => Sys2Proof.Machine.execQueBcastWrite q v s
  | .queResume q => Sys2Proof.Machine.execQueResume q s
  | .queResumeSkip q => Sys2Proof.Machine.execQueResumeSkip q s
  | .queAbort q submit index => Sys2Proof.Machine.execQueAbort q submit index s
  | .queAbortAll q => Sys2Proof.Machine.execQueAbortAll q s
  | .abortReachesEngine q => Sys2Proof.Machine.execAbortReachesEngine q s
  | .submissionEntryReturn q => Sys2Proof.Machine.execSubmissionEntryReturn q s
  | .descriptorBlockReturn q => Sys2Proof.Machine.execDescriptorBlockReturn q s
  | .commandReady q => Sys2Proof.Machine.execCommandReady q s
  | .waitTimeout q => Sys2Proof.Machine.execWaitTimeout q s
  | .indirectReadReturn q => Sys2Proof.Machine.execIndirectReadReturn q s
  | .eventRecord e => Sys2Proof.Machine.execEventRecord e s
  | .eventWake q => Sys2Proof.Machine.execEventWake q s
  | .armDelivery q id => Sys2Proof.Machine.execArmDelivery q id s
  | .nop q => Sys2Proof.Machine.execNop q s
  | .spawn q => Sys2Proof.Machine.execSpawn q s
  | .spawnRoomGranted q => Sys2Proof.Machine.execSpawnRoomGranted q s
  | .spawnRoomTimeout q => Sys2Proof.Machine.execSpawnRoomTimeout q s
  | .callPattern q => Sys2Proof.Machine.execCallPattern q s
  | .pourBlockReturn q => Sys2Proof.Machine.execPourBlockReturn q s
  | .pourLockTimeout q => Sys2Proof.Machine.execPourLockTimeout q s
  | .patch q => Sys2Proof.Machine.execPatch q s
  | .patchLiveDrained q => Sys2Proof.Machine.execPatchLiveDrained q s
  | .patchWaitTimeout q => Sys2Proof.Machine.execPatchWaitTimeout q s
  | .notifyHoldoffExpiry t => Sys2Proof.Machine.execNotifyHoldoffExpiry t s
  | .runCommitPoint q => Sys2Proof.Machine.execRunCommitPoint q s
  | .discardComplete run => Sys2Proof.Machine.execDiscardComplete run s
  | .reservationGranted q => Sys2Proof.Machine.execReservationGranted q s
  | .tentativeSetWaitExpiry q => Sys2Proof.Machine.execTentativeSetWaitExpiry q s
  | .tentativeParityError run addr isLog => Sys2Proof.Machine.execTentativeParityError run addr isLog s
  | .pinnedOverrun q => Sys2Proof.Machine.execPinnedOverrun q s
  | .calendarWindowBoundary core => Sys2Proof.Machine.execCalendarWindowBoundary core s
  | .maintBegin core => Sys2Proof.Machine.execMaintBegin core s
  | .commandWatchdog q => Sys2Proof.Machine.execCommandWatchdog q s
  | .collectiveArrival q => Sys2Proof.Machine.execCollectiveArrival q s
  | .collectivePrepared q => Sys2Proof.Machine.execCollectivePrepared q s
  | .collectiveKill q => Sys2Proof.Machine.execCollectiveKill q s
  | .windowRequest r => Sys2Proof.Machine.execWindowRequest r s
  | .wcbAgeExpiry site idx => Sys2Proof.Machine.execWcbAgeExpiry site idx s
  | .wcbParityError site idx => Sys2Proof.Machine.execWcbParityError site idx s
  | .archiveParityError site sector => Sys2Proof.Machine.execArchiveParityError site sector s
  | .hbmTempPoll site ctl temp => Sys2Proof.Machine.execHbmTempPoll site ctl temp s
  | .scrubRead line fails otherFails => Sys2Proof.Machine.execScrubRead line fails otherFails s
  | .copy q => Sys2Proof.Machine.execCopy q s
  | .fill q => Sys2Proof.Machine.execFill q s
  | .gather q => Sys2Proof.Machine.execGather q s
  | .scatter q => Sys2Proof.Machine.execScatter q s
  | .prefetch q => Sys2Proof.Machine.execPrefetch q s
  | .flushRange q => Sys2Proof.Machine.execFlushRange q s
  | .allreduce q => Sys2Proof.Machine.execAllreduce q s
  | .reduceScatter q => Sys2Proof.Machine.execReduceScatter q s
  | .allgather q => Sys2Proof.Machine.execAllgather q s
  | .alltoall q => Sys2Proof.Machine.execAlltoall q s
  | .rdS m => Sys2Proof.Machine.execRdS m s
  | .own m => Sys2Proof.Machine.execOwn m s
  | .upgr m => Sys2Proof.Machine.execUpgr m s
  | .atom m => Sys2Proof.Machine.execAtom m s
  | .flush m => Sys2Proof.Machine.execFlush m s
  | .wb m => Sys2Proof.Machine.execWb m s
  | .preWb m => Sys2Proof.Machine.execPreWb m s
  | .cmt m => Sys2Proof.Machine.execCmt m s
  | .log m => Sys2Proof.Machine.execLog m s
  | .mir m => Sys2Proof.Machine.execMir m s
  | .snpS m => Sys2Proof.Machine.execSnpS m s
  | .snpX m => Sys2Proof.Machine.execSnpX m s
  | .inv m => Sys2Proof.Machine.execInv m s
  | .recall m => Sys2Proof.Machine.execRecall m s
  | .clean m => Sys2Proof.Machine.execClean m s
  | .data m => Sys2Proof.Machine.execData m s
  | .grant m => Sys2Proof.Machine.execGrant m s
  | .ackInv m => Sys2Proof.Machine.execAckInv m s
  | .miss m => Sys2Proof.Machine.execMiss m s
  | .fwdAck m => Sys2Proof.Machine.execFwdAck m s
  | .rclData m => Sys2Proof.Machine.execRclData m s
  | .wbAck m => Sys2Proof.Machine.execWbAck m s
  | .cmtAck m => Sys2Proof.Machine.execCmtAck m s
  | .mirAck m => Sys2Proof.Machine.execMirAck m s
  | .atomRsp m => Sys2Proof.Machine.execAtomRsp m s
  | .dirProbe site v => Sys2Proof.Machine.execDirProbe site v s
  | .tlbiRange p cid => Sys2Proof.Machine.execTlbiRange p cid s
  | .tlbiContext p cid => Sys2Proof.Machine.execTlbiContext p cid s
  | .tlbiPartition p => Sys2Proof.Machine.execTlbiPartition p s
  | .tlbiComplete p => Sys2Proof.Machine.execTlbiComplete p s
  | .coreCtxBaseWrite p v => Sys2Proof.Machine.execCoreCtxBaseWrite p v s
  | .meshFlit l flit => Sys2Proof.Machine.execMeshFlit l flit s
  | .idleFlit l flit => Sys2Proof.Machine.execIdleFlit l flit s
  | .idleInsert l => Sys2Proof.Machine.execIdleInsert l s
  | .lanemap l lane => Sys2Proof.Machine.execLanemap l lane s
  | .groupTestDone l failing => Sys2Proof.Machine.execGroupTestDone l failing s
  | .pastReplayError l e => Sys2Proof.Machine.execPastReplayError l e s
  | .reducePacket site out pkt => Sys2Proof.Machine.execReducePacket site out pkt s
  | .combineWindowExpiry site out idx => Sys2Proof.Machine.execCombineWindowExpiry site out idx s
  | .mopnAck site sector => Sys2Proof.Machine.execMopnAck site sector s
  | .ringMsgFlit port flit => Sys2Proof.Machine.execRingMsgFlit port flit s
  | .ringLinkFlit port flit => Sys2Proof.Machine.execRingLinkFlit port flit s
  | .ringIdleFlit port flit => Sys2Proof.Machine.execRingIdleFlit port flit s
  | .mrd port h => Sys2Proof.Machine.execMrd port h s
  | .mwr port h d => Sys2Proof.Machine.execMwr port h d s
  | .msg port h d => Sys2Proof.Machine.execMsg port h d s
  | .cpl port h d => Sys2Proof.Machine.execCpl port h d s
  | .registerReadDeadline port tag => Sys2Proof.Machine.execRegisterReadDeadline port tag s
  | .memoryReadDeadline port tag => Sys2Proof.Machine.execMemoryReadDeadline port tag s
  | .hostAccessTimeout port tag => Sys2Proof.Machine.execHostAccessTimeout port tag s
  | .openFlow die h d crc => Sys2Proof.Machine.execOpenFlow die h d crc s
  | .openAck die h d crc => Sys2Proof.Machine.execOpenAck die h d crc s
  | .ack die h d crc => Sys2Proof.Machine.execAck die h d crc s
  | .close die h d crc => Sys2Proof.Machine.execClose die h d crc s
  | .rd die h d crc => Sys2Proof.Machine.execRd die h d crc s
  | .wr die h d crc => Sys2Proof.Machine.execWr die h d crc s
  | .atOp die h d crc => Sys2Proof.Machine.execAtOp die h d crc s
  | .rdRsp die h d crc => Sys2Proof.Machine.execRdRsp die h d crc s
  | .wrDone die h d crc => Sys2Proof.Machine.execWrDone die h d crc s
  | .atRsp die h d crc => Sys2Proof.Machine.execAtRsp die h d crc s
  | .objGet die h d crc => Sys2Proof.Machine.execObjGet die h d crc s
  | .objPut die h d crc => Sys2Proof.Machine.execObjPut die h d crc s
  | .objData die h d crc => Sys2Proof.Machine.execObjData die h d crc s
  | .objEnd die h d crc => Sys2Proof.Machine.execObjEnd die h d crc s
  | .retransmitTimer die flow => Sys2Proof.Machine.execRetransmitTimer die flow s
  | .flowGiveup die flow => Sys2Proof.Machine.execFlowGiveup die flow s
  | .ackDelayExpiry die dev flow => Sys2Proof.Machine.execAckDelayExpiry die dev flow s
  | .flowIdleExpiry die flow => Sys2Proof.Machine.execFlowIdleExpiry die flow s
  | .svcTail p k v => Sys2Proof.Machine.execSvcTail p k v s
  | .svcCfgWrite p k v => Sys2Proof.Machine.execSvcCfgWrite p k v s
  | .svcResume p k => Sys2Proof.Machine.execSvcResume p k s
  | .svcAbort p k submit => Sys2Proof.Machine.execSvcAbort p k submit s
  | .svcAbortAll p k => Sys2Proof.Machine.execSvcAbortAll p k s
  | .svcWaitTimeout p k => Sys2Proof.Machine.execSvcWaitTimeout p k s
  | .fAllreduce p k => Sys2Proof.Machine.execFAllreduce p k s
  | .fReduceScatter p k => Sys2Proof.Machine.execFReduceScatter p k s
  | .fAllgather p k => Sys2Proof.Machine.execFAllgather p k s
  | .fAlltoall p k => Sys2Proof.Machine.execFAlltoall p k s
  | .checkpoint p k => Sys2Proof.Machine.execCheckpoint p k s
  | .stage p k => Sys2Proof.Machine.execStage p k s
  | .stageBatchStart p k submit => Sys2Proof.Machine.execStageBatchStart p k submit s
  | .stageBatchLanded p k submit batch => Sys2Proof.Machine.execStageBatchLanded p k submit batch s
  | .partCreate slot => Sys2Proof.Machine.execPartCreate slot s
  | .partGrow slot => Sys2Proof.Machine.execPartGrow slot s
  | .partSetHost slot => Sys2Proof.Machine.execPartSetHost slot s
  | .frameAssign slot => Sys2Proof.Machine.execFrameAssign slot s
  | .partRegulate slot => Sys2Proof.Machine.execPartRegulate slot s
  | .partStop slot => Sys2Proof.Machine.execPartStop slot s
  | .partDrain slot => Sys2Proof.Machine.execPartDrain slot s
  | .partDrainTimeout p => Sys2Proof.Machine.execPartDrainTimeout p s
  | .partDrained p => Sys2Proof.Machine.execPartDrained p s
  | .partFlush slot => Sys2Proof.Machine.execPartFlush slot s
  | .partRelease slot => Sys2Proof.Machine.execPartRelease slot s
  | .partScrubDone p => Sys2Proof.Machine.execPartScrubDone p s
  | .partResume slot => Sys2Proof.Machine.execPartResume slot s
  | .ping slot => Sys2Proof.Machine.execPing slot s
  | .rollbackAdvance slot => Sys2Proof.Machine.execRollbackAdvance slot s
  | .attest slot => Sys2Proof.Machine.execAttest slot s
  | .s2RootSet slot => Sys2Proof.Machine.execS2RootSet slot s
  | .s2Invalidate slot => Sys2Proof.Machine.execS2Invalidate slot s
  | .routeSet slot => Sys2Proof.Machine.execRouteSet slot s
  | .admitSet slot => Sys2Proof.Machine.execAdmitSet slot s
  | .mailboxBadCode slot => Sys2Proof.Machine.execMailboxBadCode slot s
  | .loadWindowWrite port off d => Sys2Proof.Machine.execLoadWindowWrite port off d s
  | .loadLib port => Sys2Proof.Machine.execLoadLib port s
  | .loadMould port => Sys2Proof.Machine.execLoadMould port s
  | .imageVerified => Sys2Proof.Machine.execImageVerified s
  | .startReady fails => Sys2Proof.Machine.execStartReady fails s
  | .supervisorRestart => Sys2Proof.Machine.execSupervisorRestart s
  | .libRestartDone => Sys2Proof.Machine.execLibRestartDone s
  | .incidentReport r => Sys2Proof.Machine.execIncidentReport r s
  | .echoWindowEnd site r => Sys2Proof.Machine.execEchoWindowEnd site r s
  | .pwrEnRise => Sys2Proof.Machine.execPwrEnRise s
  | .inputEntersRange => Sys2Proof.Machine.execInputEntersRange s
  | .powerDown cause => Sys2Proof.Machine.execPowerDown cause s
  | .panelResetRise fails => Sys2Proof.Machine.execPanelResetRise fails s
  | .panelResetFall => Sys2Proof.Machine.execPanelResetFall s
  | .refclkLoss => Sys2Proof.Machine.execRefclkLoss s
  | .refclkReturn => Sys2Proof.Machine.execRefclkReturn s
  | .refclkLossTimeout => Sys2Proof.Machine.execRefclkLossTimeout s
  | .pllLockLoss site => Sys2Proof.Machine.execPllLockLoss site s
  | .tabCheck currents => Sys2Proof.Machine.execTabCheck currents s
  | .ckgHalfWrite site half v => Sys2Proof.Machine.execCkgHalfWrite site half v s
  | .stepChangeDone site half => Sys2Proof.Machine.execStepChangeDone site half s
  | .envelopeTick watts => Sys2Proof.Machine.execEnvelopeTick watts s
  | .thermalPoll site half readings => Sys2Proof.Machine.execThermalPoll site half readings s
  | .thermalTrip sensor temp => Sys2Proof.Machine.execThermalTrip sensor temp s
  | .ledgerFrameBoundary site p => Sys2Proof.Machine.execLedgerFrameBoundary site p s
  | .siteHeartbeatTimeout site d => Sys2Proof.Machine.execSiteHeartbeatTimeout site d s
  | .lossReport agent reporter subject => Sys2Proof.Machine.execLossReport agent reporter subject s
  | .bDieFatalError site => Sys2Proof.Machine.execBDieFatalError site s
  | .siteLossReroute site => Sys2Proof.Machine.execSiteLossReroute site s
  | .coreSelftestReq core => Sys2Proof.Machine.execCoreSelftestReq core s
  | .selftestPartDone core pass => Sys2Proof.Machine.execSelftestPartDone core pass s
  | .presenceOpen which => Sys2Proof.Machine.execPresenceOpen which s
  | .standbyUp sel1 sel0 => Sys2Proof.Machine.execStandbyUp sel1 sel0 s
  | .smbusWrite cmd data pec => Sys2Proof.Machine.execSmbusWrite cmd data pec s
  | .tripClr => Sys2Proof.Machine.execTripClr s
  | .smbusSclTimeout => Sys2Proof.Machine.execSmbusSclTimeout s
  | .idcode => Sys2Proof.Machine.execIdcode s
  | .bypass => Sys2Proof.Machine.execBypass s
  | .extest => Sys2Proof.Machine.execExtest s
  | .samplePreload => Sys2Proof.Machine.execSamplePreload s
  | .trst low => Sys2Proof.Machine.execTrst low s
  | .queCrHeadWrite t v => Sys2Proof.Machine.execQueCrHeadWrite t v s
  | .libMbTailWrite v => Sys2Proof.Machine.execLibMbTailWrite v s
  | .libIncHeadWrite v => Sys2Proof.Machine.execLibIncHeadWrite v s
  | .siteHeartbeat site d => Sys2Proof.Machine.execSiteHeartbeat site d s
  | .cdieHeartbeat site => Sys2Proof.Machine.execCdieHeartbeat site s
  | .librarianHeartbeat => Sys2Proof.Machine.execLibrarianHeartbeat s
  | .standbyLoss => Sys2Proof.Machine.execStandbyLoss s
  | .pinnedWritesDone q => Sys2Proof.Machine.execPinnedWritesDone q s

end Sys2Proof.Machine
end

