-- ==== Sys2Proof/Machine/Carry.lean ====
section
/-!
DEFINITION. What the mesh and the ring ports carry in one slice cycle (12_site_mesh R313-R324, 13_ring_links R338-R342):
headers and sectors go on from router to router, packets go to their ports against credits, and every end of a link sends
its next flit (DESIGN CHOICE, log entry 120: all of it in an idle step).
-/

namespace Sys2Proof.Machine

/-! ### From router to router (R317, R318) -/

/-- The buffer class of a hop (R318): XY, YX, or a detour. -/
def State.routeClass (s : State) (x d : Nat) : Nat :=
  if s.nextHop x d = xyNext x d then 0 else if s.nextHop x d = yxNext x d then 1 else 2

/-- The units that wait in a buffer of a router: of a role, a channel and a class (R317, R318). -/
def State.buffered (s : State) (x role vc cls : Nat) : Nat :=
  ((s.net.parcels.filter fun p => p.at_ == x && p.dst != x && p.role == role && p.vc == vc && p.cls == cls).map (·.units)).sum

/-- The buffer of the next router has room for a parcel: credits of the hop (R317). -/
def State.hopRoom (s : State) (y : Nat) (p : Parcel) : Bool :=
  y == p.dst || decide (s.buffered y p.role p.vc (s.routeClass y p.dst) + p.units ≤ Config.routerUnits p.role p.vc + 64)

/-- The bytes of a message's header, and of its sectors (R263: a layout the spec does not give). -/
def State.parcelBytes (s : State) (p : Parcel) : Bytes :=
  match s.net.msgs.find? fun e => p.isOf e.1 e.2 with
  | none => []
  | some e =>
    let m := e.2
    if p.pay then ((List.range 4).filter fun k => nbit m.sectors k).flatMap fun k => s.rdMem (m.line * 512 + 128 * k) 128
    else (List.range (16 * p.units)).map (Config.headerByte [m.line, m.req, m.src, m.dst, m.part, m.cid, m.sectors, m.run, m.seq])

/-- A parcel's next hop: over an edge that carries its role, into a buffer with room. -/
def State.hop (s : State) (p : Parcel) : State :=
  let e := s.nextHop p.at_ p.dst
  match neighbour p.at_ e with
  | none => s
  | some y =>
    if s.edgeLive p.at_ e && !s.edgeHeld p.at_ e p.role && s.hopRoom y p then
      let s := s.handOver p.at_ e (p.src + p.dst + p.seq) { role := p.role, vc := p.vc, dst := p.dst, d := s.parcelBytes p }
      let f (x : Parcel) : Parcel := if x == p then { p with at_ := y, cls := s.routeClass y p.dst } else x
      { s with net := { s.net with parcels := s.net.parcels.map f } }
    else s

/-- Every header and payload on its way takes one hop where it can; those of messages that are no longer on their way, since
a site was lost, are gone. -/
def State.hops (s : State) : State :=
  let s : State := { s with net := { s.net with parcels := s.net.parcels.filter fun p => s.net.msgs.any fun e => p.isOf e.1 e.2 } }
  (s.net.parcels.filter fun p => p.at_ != p.dst).foldl (fun s p => s.hop p) s

/-! ### Lane groups (R320, R323, R324) -/

/-- The traffic of a group on an edge that is down, which the far end has not accepted, leaves by the new routes (R324). -/
def State.strand (s : State) (l : LinkRef) : State :=
  let a := s.link (linkKey l)
  let next := match farEnd l.site l.d with
    | some f => (s.link (linkKey { site := f.1, d := f.2, g := l.g })).rxSeq
    | none => 0
  let kept : List TxFlit := (a.replay.dropWhile fun x => x.seq != next) ++ a.redo
  let unsent (m : TxMsg) : TxMsg := { m with sent := 0 }
  let ms := (kept.flatMap TxFlit.msgs ++ a.txq.map unsent).eraseDups
  let go := ms.filter fun m => s.edgeLive l.site (s.nextHop l.site m.dst) && !s.edgeHeld l.site (s.nextHop l.site m.dst) m.role
  if ms.isEmpty then s
  else
    let s := s.setLink (linkKey l) { a with replay := [], resend := 0, redo := [], txq := ms.filter fun m => !go.contains m }
    go.foldl (fun s m => s.handOver l.site (s.nextHop l.site m.dst) m.dst m) s

/-- One cycle of an end of a lane group. -/
def State.linkCycle (s : State) (k : Nat) : State :=
  let l : LinkRef := { site := k / 64, d := k / 16 % 4, g := k % 16 }
  if !s.edgeLive l.site l.d then s.strand l
  else if s.bit (lnkGrp l) 14 then s
  else s.setLink k ((s.link k).transmit k (s.suspectAt l.site l.d l.g))

/-! ### Ring ports (R339-R342) -/

/-- The credits that a packet takes are there: one header, and its payload in units of 16 bytes; CPLs need none. -/
def State.portCredits (s : State) (port cls data : Nat) : Bool :=
  let x := s.link (ringKey port)
  (s.fld (rngPort port) 0 2 == 1 && cls == 2) || (decide (0 < tget 0 x.credits cls) && decide (data ≤ tget 0 x.dataCredits cls))

/-- A packet is handed to the sender of its port, against its credits. -/
def State.givePort (s : State) (port cls data : Nat) (bs : Bytes) : State :=
  let x := s.link (ringKey port)
  let free := s.fld (rngPort port) 0 2 == 1 && cls == 2
  let pad := List.replicate ((16 - bs.length % 16) % 16) 0#8
  s.setLink (ringKey port) { x with
    txq := x.txq ++ [{ vc := cls, d := bs ++ pad }]
    credits := if free then x.credits else tset 0 x.credits cls (tget 0 x.credits cls - 1)
    dataCredits := if free then x.dataCredits else tset 0 x.dataCredits cls (tget 0 x.dataCredits cls - data) }

/-- The credit class of a Quanyx packet (R342, R345): P, NP, CPL. -/
def QPkt.cls (p : QPkt) : Nat := match qTy p.h with
  | 0 => 1
  | 3 => 2
  | _ => 0
/-- The bytes of a Quanyx packet on its port (R344). -/
def QPkt.wire (p : QPkt) : Bytes := toBytes 16 p.h.toNat ++ p.d

/-- The first packet of each class of a host port goes out against credits, one class never waiting for another (R342). -/
def State.feedHost (s : State) (port : Nat) : State :=
  [0, 1, 2].foldl (fun (s : State) c =>
    match s.host.out.find? fun p => p.port == port && p.cls == c with
    | none => s
    | some p =>
      let data := (p.d.length + 15) / 16
      if s.portCredits port c data then
        ({ s with host := { s.host with out := s.host.out.erase p } } : State).givePort port c data p.wire
      else s) s

/-- The first packet of each traffic class of a FABRIC port goes out against credits. -/
def State.feedFabric (s : State) (port : Nat) : State :=
  [0, 1, 2, 3].foldl (fun (s : State) c =>
    match s.fab.out.find? fun p => p.port == port && (nfOf p.h).tc == c with
    | none => s
    | some p =>
      let data := (p.d.length + 15) / 16
      if s.portCredits port c data then
        ({ s with fab := { s.fab with out := s.fab.out.erase p } } : State).givePort port c data p.wire
      else s) s

/-- One cycle of a ring port: packets come to its sender, and it sends a flit. -/
def State.portCycle (s : State) (port : Nat) : State :=
  if !s.portUp port then s
  else
    let s := if s.fld (rngPort port) 0 2 = 1 then s.feedHost port else s.feedFabric port
    let x := s.link (ringKey port)
    s.setLink (ringKey port) (x.transmitRing (ringKey port))

/-- What the mesh and the ring carry in one slice cycle. -/
def State.carry (s : State) : State :=
  let s := s.hops
  let s := s.mesh.links.foldl (fun (s : State) e => if e.1 < ringKey 0 then s.linkCycle e.1 else s) s
  let ports := ((s.mesh.links.filter fun e => decide (ringKey 0 ≤ e.1)).map (fun e => e.1 - ringKey 0) ++ s.host.out.map (·.port) ++ s.fab.out.map (·.port)).eraseDups
  ports.foldl (fun s p => s.portCycle p) s

end Sys2Proof.Machine
end

