-- ==== Sys2Proof/Machine/Tick.lean ====
section
/-!
DEFINITION. A slice cycle that passes while no command waits (DESIGN CHOICE, log entry 5): the site cycle counters
(17_power_and_clocks R424), the busy counters of the engines (03_matrix_engines, 04_thread_engine), the requests of
hosts that waited for an earlier one of their port (10_visibility R285), and what the mesh and the ring carry (12_site_mesh
R317, R320, 13_ring_links R342).
-/

namespace Sys2Proof.Machine

/-- An engine that runs a command counts a busy cycle; a matrix engine whose gang is still forming waits for a
partner. `off` is the offset of the busy counter in the engine's block. -/
def State.tickBusy (s : State) (b off : Nat) (stall : Bool) : State :=
  if s.bit b 0 then
    let s := s.bump (b + off) 0 48 1
    if stall then s.bump (b + off + 8) 0 48 1 else s
  else s

/-- The gang that a matrix engine belongs to is still forming (R67). -/
def State.formingOn (s : State) (c me : Nat) : Bool :=
  s.gangs.any fun g => g.core = c && g.members.contains me && !g.formed

/-- The engines of a core. -/
def State.tickCore (s : State) (c : Nat) : State :=
  let s := (List.range 4).foldl (fun s me => s.tickBusy (mexB c me) 0x48 (s.formingOn c me)) s
  s.tickBusy (texB c) 0x58 false

/-- One slice cycle; nothing passes until the site roots have locked. -/
def State.tick (s : State) : State :=
  let s := s.drainPorts
  if s.pwr.pllLocked then
    let s := (List.range 256).foldl (fun s c => s.tickCore c) s
    let s := if s.pwr.fatal then s else s.carry
    { s with cyc := s.cyc + 1 }
  else s

end Sys2Proof.Machine
end

