-- ==== Sys2Proof/Machine/Core.lean ====
section
/-!
DEFINITION. The panel as the host's machine.
-/

/-- The panel: its state, the reasons a command stops, one step, and the state after reset. -/
def Sys2Proof.core : Host.Core := { State := Sys2Proof.Machine.State, Fault := Sys2Proof.Machine.Fault, Refusal := Sys2Proof.Machine.Refusal, step := Sys2Proof.Machine.step, reset := Sys2Proof.Machine.State.reset }
end

