-- ==== Sys2Proof/Safety.lean ====
section
/-!
DEFINITION. What a safe run is: a run of commands that all name units the panel has never stops, and the tables of
registers and memories stay in their canonical form.
-/

namespace Sys2Proof.Machine

/-- The state takes a step. -/
def State.Steps (s : State) : Prop := ∃ t, step s = .next t

/-- The register table from key `lo` on: keys rising, no entry equal to its register's reset value. -/
def regsFrom (lo : Nat) : List (Nat × W64) → Bool
  | [] => true
  | (k, v) :: r => decide (lo ≤ k) && decide (v ≠ regReset k) && regsFrom (k + 1) r

/-- The byte memories and the register table are in canonical form. -/
def State.canon (s : State) : Bool := s.arc.wf && regsFrom 0 s.regs

/-- Every command that waits names units the panel has, and the tables are in canonical form. -/
def State.Sound (s : State) : Prop := (∀ c ∈ s.pending, c.wf = true) ∧ s.canon = true

/-! ### Words for what a Folio instruction does (04_thread_engine R87, 05_folio_instructions) -/

/-- An instruction with first word `w` can issue in group `g` (R87): the group runs a path and waits for nothing, and the
fetch of the instruction's words meets no fault and no poison (R128, R141). `s1` is the state in which the instruction then
works: the fetch has been made and TEX_ISSUE has counted. -/
structure Issues (s : State) (g : GRef) (w : W64) (s1 : State) (l : Launch) (b : Block) (grp : Group) : Prop where
  launch : (s.te g.core).launch = some l
  group : s.grp? g = some grp
  block : s.blk? g.core grp.blk = some b
  active : grp.active ≠ 0#64
  waits : grp.waitc = none
  await : grp.await = 0
  fetch : (s.fetchWords (s.runWho l.q l.run) l b grp.pc.toNat w).2 = none ∧
    s1 = (s.fetchWords (s.runWho l.q l.run) l b grp.pc.toNat w).1.bump (texB g.core + 0x60) 0 48 1

/-- From `s1` to `t` only group `g` changes: memory, registers, runs, the other groups and everything else stay.
The counter of free values may move on. -/
structure OnlyGroup (s1 t : State) (g : GRef) : Prop where
  rest : { t with tes := s1.tes, regs := s1.regs, runs := s1.runs, free := s1.free } = s1
  regs : ∀ k, t.reg k = s1.reg k
  runs : ∀ id, t.run? id = s1.run? id
  groups : ∀ h : GRef, h ≠ g → t.grp? h = s1.grp? h
  engine : ∀ c, { t.te c with groups := (s1.te c).groups } = s1.te c

/-- Group `g`, which stood at `grp`, has run an instruction to its end: it stands where `r` settles, `r` being `grp`
at the next instruction with other register files. -/
def RanTo (t : State) (g : GRef) (w : W64) (grp r : Group) : Prop :=
  t.grp? g = some r.settle ∧ r.pc = grp.pc + fLen w ∧
    { r with pc := grp.pc, v := grp.v, u := grp.u, p := grp.p, acc := grp.acc } = grp

/-- A register result (R119, R126): under U one uniform register, written once where the guard holds; else a
vector register in the lanes that take part. Nothing else of the register files changes. -/
def WritesReg (w : W64) (grp r : Group) (val : Nat → W32) : Prop :=
  r.p = grp.p ∧ r.acc = grp.acc ∧
  if fU w = true then
    r.v = grp.v ∧ ∀ k, r.rdU k = if k = fD w ∧ grp.takesU w = true then val (firstLane grp.active) else grp.rdU k
  else
    r.u = grp.u ∧ ∀ k lane, lane < 64 →
      r.rdV k lane = if k = fD w ∧ (grp.takes w).getLsbD lane = true then val lane else grp.rdV k lane

/-- A predicate result (R124, R126): under U the whole of the active lanes takes the one test; else each lane that takes
part takes its own. -/
def WritesPred (w : W64) (grp r : Group) (test : Nat → Bool) : Prop :=
  r.v = grp.v ∧ r.u = grp.u ∧ r.acc = grp.acc ∧ ∀ k lane, lane < 64 →
    (r.rdP k).getLsbD lane =
      if k = fD w ∧ (if fU w = true then grp.takesU w && grp.active.getLsbD lane else (grp.takes w).getLsbD lane) = true then
        (if fU w = true then test (firstLane grp.active) else test lane)
      else (grp.rdP k).getLsbD lane

/-- From `s1` to `t` the group `g` changes, the generator of its thread engine becomes `sr`, and run `run` counts
conversion events (R57, R118); nothing else changes but the counter of free values. -/
structure GroupAndRun (s1 t : State) (g : GRef) (run : Nat) (sr : W64) (sat flushed inclOvf invalid : Nat) : Prop where
  rest : { t with tes := s1.tes, regs := s1.regs, runs := s1.runs, free := s1.free } = s1
  regs : ∀ k, t.reg k = if k = texB g.core + 0x50 then sr else s1.reg k
  runs : ∀ id, t.run? id = if id = run then (s1.run? id).map fun r =>
      { r with sat := r.sat + sat, flushed := r.flushed + flushed, inclOvf := r.inclOvf + inclOvf, invalid := r.invalid + invalid }
    else s1.run? id
  groups : ∀ h : GRef, h ≠ g → t.grp? h = s1.grp? h
  engine : ∀ c, { t.te c with groups := (s1.te c).groups } = s1.te c

/-- A row of the Folio table (R129): the command, its opcode, the legal words, and what its result is in a lane. -/
structure FolioRow where
  cmd : GRef → W64 → W64 → Instr
  opcode : Nat
  spec : RSpec
  result : Group → W64 → W64 → Nat → W32

/-- Every row of a table, at every group that can issue it and for every legal word, runs to its end and writes its
result where D names it, in the lanes that take part; nothing else changes. -/
def FolioWritesReg (rows : List FolioRow) : Prop :=
  ∀ r ∈ rows, ∀ (s : State) (g : GRef) (w w1 : W64) (s1 : State) (l : Launch) (b : Block) (grp : Group),
    g.ok = true → fOpc w = r.opcode → Issues s g w s1 l b grp → r.spec.legal l.vregs w w1 = true →
    ∃ (t : State) (x : Group), exec (r.cmd g w w1) s = .next t ∧ OnlyGroup s1 t g ∧ RanTo t g w grp x ∧
      WritesReg w grp x (r.result grp w w1)

/-- The words of a row with sources A and B; of one with A, B and C; of one with A alone (R129). -/
def specAB (mods : Nat → Bool) : RSpec := { u := 1, a := .reg, b := .regImm, mods := mods }
def specABC (mods : Nat → Bool) : RSpec := { u := 1, a := .reg, b := .regImm, c := .reg, mods := mods }
def specA (mods : Nat → Bool) : RSpec := { u := 1, a := .reg, mods := mods }

end Sys2Proof.Machine
end

