-- ==== Sys2Proof/Certificates/Slice0/Obligations.lean ====
section
/-!
DEFINITION. The statements for the provers, and the words they are written in.
-/

namespace Sys2Proof.Machine

/-- The BF16 value in half `k` of a register, and a register from its two halves. -/
def half16 (k : Nat) (a : W32) : Num := bf16 (a.toNat / 2 ^ (16 * k) % 65536)

def halves (f : Nat → Nat) : W32 := BitVec.ofNat 32 (f 1 * 65536 + f 0)

/-- As `FolioRow`, with a predicate result. -/
structure FolioPredRow where
  cmd : GRef → W64 → W64 → Instr
  opcode : Nat
  spec : RSpec
  test : Group → W64 → W64 → Nat → Bool

/-- As `FolioWritesReg`, for rows that write a predicate (R124, R126). -/
def FolioWritesPred (rows : List FolioPredRow) : Prop :=
  ∀ r ∈ rows, ∀ (s : State) (g : GRef) (w w1 : W64) (s1 : State) (l : Launch) (b : Block) (grp : Group),
    g.ok = true → fOpc w = r.opcode → Issues s g w s1 l b grp → r.spec.legal l.vregs w w1 = true →
    ∃ (t : State) (x : Group), exec (r.cmd g w w1) s = .next t ∧ OnlyGroup s1 t g ∧ RanTo t g w grp x ∧
      WritesPred w grp x (r.test grp w w1)

/-- The generator after `n` draws, taken only under SR (R47, R48). -/
def srAfter (rm n : Nat) (sr : W64) : W64 := if rm = 2 then (drawsSr n sr).1 else sr

/-- Under SR, the draw of each lane is one of `n` draws of the generator (R48: the order among lanes is open). -/
def Drawn (rm n : Nat) (sr : W64) (lanes : List Nat) (draw : Nat → Nat) : Prop :=
  rm = 2 → ∀ l ∈ lanes, draw l ∈ (drawsSr n sr).2

/-- A command of group `g` takes effect, changes that group alone and leaves it standing where `x` settles. -/
def RunsGroup (c : Instr) (s s1 : State) (g : GRef) (x : Group) : Prop :=
  ∃ t, exec c s = .next t ∧ OnlyGroup s1 t g ∧ t.grp? g = some x.settle

/-- A thread of a launch raises a fault that kills the context (R115, R116): TEX_FAULT and the two registers after it
record it when they hold no fault yet, else only COUNT rises; then the launch fails with the code. -/
def FaultsWith (s1 t : State) (core slot blk lane : Nat) (pc : W64) (code : Nat) (addr : Option (Nat × Bool)) : Prop :=
  ∃ u : State, t = u.failLaunch core { code := code, detail := addr } ∧ { u with regs := s1.regs } = s1 ∧
    (∀ k, k ≠ texB core + 0x38 ∧ k ≠ texB core + 0x38 + 8 ∧ k ≠ texB core + 0x38 + 16 → u.reg k = s1.reg k) ∧
    if s1.bit (texB core + 0x38) 8 = true then
      u.reg (texB core + 0x38 + 8) = s1.reg (texB core + 0x38 + 8) ∧ u.reg (texB core + 0x38 + 16) = s1.reg (texB core + 0x38 + 16) ∧
      u.reg (texB core + 0x38) = putFld (s1.reg (texB core + 0x38)) 32 16 (min 0xFFFF (s1.fld (texB core + 0x38) 32 16 + 1))
    else
      u.fld (texB core + 0x38) 0 8 = code ∧ u.bit (texB core + 0x38) 8 = true ∧
      u.fld (texB core + 0x38) 9 6 = slot % 64 ∧ u.fld (texB core + 0x38) 15 6 = lane % 64 ∧
      u.fld (texB core + 0x38) 21 4 = blk % 16 ∧ u.fld (texB core + 0x38) 32 16 = 0 ∧
      u.fld (texB core + 0x38 + 8) 0 55 = pc.toNat % 2 ^ 55 ∧
      (match addr with
        | some a => u.fld (texB core + 0x38 + 16) 0 55 = a.1 % 2 ^ 55 ∧ u.bit (texB core + 0x38 + 16) 63 = true
        | none => u.reg (texB core + 0x38 + 16) = 0#64)

/-- From `s` to `t` only the state of one lane group's or ring port's end has changed: it is `z`. -/
structure LinkSet (s t : State) (k : Nat) (z : LinkX) : Prop where
  rest : { t with mesh := { t.mesh with links := s.mesh.links } } = s
  there : t.link k = z
  others : ∀ j, j ≠ k → t.link j = s.link j

/-- A command takes effect on one end of a lane group or ring port alone. -/
def SetsLink (c : Instr) (s : State) (k : Nat) (z : LinkX) : Prop := ∃ t, exec c s = .next t ∧ LinkSet s t k z

/-- From `s` to `t` only messages have been sent: those of a list join the messages on their way in order, each under the
sequence number that it takes. -/
structure Sends (s t : State) (ms : List (MsgTy × CMsg)) : Prop where
  rest : { t with net := s.net } = s
  net : { t.net with msgs := s.net.msgs, seqs := s.net.seqs, parcels := s.net.parcels } = s.net
  msgs : ∃ new, t.net.msgs = s.net.msgs ++ new ∧ (new.map fun e => (e.1, { e.2 with seq := 0 })) = ms

/-- The pieces of each lane of a load, read one lane after another from state `s` to state `t`, give the bytes of the
list. -/
inductive LanesRead (w : Who) (b : Block) (pipe hint : Nat) (ro : Bool) : State → List (Nat × List Piece) → State → List (Nat × Bytes) → Prop
  | nil (s : State) : LanesRead w b pipe hint ro s [] s []
  | cons (s u t : State) (lane : Nat) (ps : List Piece) (bs : Bytes) (r : List (Nat × List Piece)) (rs : List (Nat × Bytes)) :
      s.readPieces w b pipe hint ro ps = (u, .ok bs) → LanesRead w b pipe hint ro u r t rs →
      LanesRead w b pipe hint ro s ((lane, ps) :: r) t ((lane, bs) :: rs)

/-- The source rows of a copy are translated and checked from state `s` to state `t`, up to the first fault (R106). -/
inductive RowsChecked (w : Who) (l : Launch) (b : Block) (c : Copy) :
    State → List Nat → State → List (List Piece) → Option (Nat × Nat) → Prop
  | nil (s : State) : RowsChecked w l b c s [] s [] none
  | fault (s t : State) (j : Nat) (r : List Nat) (x : Nat × Nat) :
      s.gpieces w l b .read (c.src + j * c.srcPitch) c.rowBytes = (t, .error x) → RowsChecked w l b c s (j :: r) t [] (some x)
  | cons (s u t : State) (j : Nat) (r : List Nat) (ps : List Piece) (rest : List (List Piece)) (x : Option (Nat × Nat)) :
      s.gpieces w l b .read (c.src + j * c.srcPitch) c.rowBytes = (u, .ok ps) → RowsChecked w l b c u r t rest x →
      RowsChecked w l b c s (j :: r) t (ps :: rest) x

/-- The data registers of a group after each lane of a list has been given words: register D + j of a lane holds word j;
under U the register is uniform. Nothing else of the register files changes. -/
def LoadsInto (w : W64) (grp x : Group) (n : Nat) (words : List (Nat × List W32)) : Prop :=
  x.p = grp.p ∧ x.acc = grp.acc ∧
  if fU w = true then
    x.v = grp.v ∧ ∀ k, x.rdU k = match words with
      | [] => grp.rdU k
      | e :: _ => if fD w ≤ k ∧ k < fD w + n then e.2.getD (k - fD w) 0#32 else grp.rdU k
  else
    x.u = grp.u ∧ ∀ k lane, lane < 64 → x.rdV k lane = match words.find? fun e => e.1 = lane with
      | none => grp.rdV k lane
      | some e => if fD w ≤ k ∧ k < fD w + n then e.2.getD (k - fD w) 0#32 else grp.rdV k lane

/-- The words of a loaded value (R142): 1 and 2 bytes are extended to one register, with the sign under SUB = 1; 4, 8 and
16 bytes fill 1, 2 and 4 registers, little-endian. -/
def wordsOf (w : W64) (bs : Bytes) : List W32 :=
  if fSize w < 2 then
    [if fSub w = 1 then BitVec.ofInt 32 (sext (ofBytes bs) (8 * 2 ^ fSize w)) else BitVec.ofNat 32 (ofBytes bs)]
  else (List.range (szRegs w)).map fun j => BitVec.ofNat 32 (ofBytes ((bs.drop (4 * j)).take 4))

/-- An offset of the local store that no copy of a block in flight writes (R158), and no STLS of another pipe of the block
since its last release (R150). -/
def Quiet (b : Block) (pipe off : Nat) : Prop :=
  (∀ c ∈ b.copies, copySrcsOf c off = []) ∧ ∀ e ∈ b.races, e.1 = off → e.2.1 = pipe ∨ e.2.2 = none

/-- The operations of a LOPR on the local store of slot `ix`, one lane after another: each lane's old value, and the
state after all (R149). A byte that is not quiet may read as another value that R150 or R158 gives it. -/
inductive LocalOps (w w1 : W64) (grp : Group) (b : Block) (ix : Nat) : State → List Nat → State → List (Nat × Nat) → Prop
  | nil (s : State) : LocalOps w w1 grp b ix s [] s []
  | cons (s t : State) (lane : Nat) (bs : Bytes) (r : List Nat) (vals : List (Nat × Nat)) :
      bs.length = szBytes w →
      (∀ i, i < szBytes w → Quiet b grp.pipe (grp.laddr w w1 lane + i) →
        bs.getD i 0#8 = s.arc.rdLs (lsKey ix (grp.laddr w w1 lane + i))) →
      LocalOps w w1 grp b ix (s.wrLs ix (grp.laddr w w1 lane)
        (toBytes (szBytes w) (atomValue (grp.atomOf w lane (grp.laddr w w1 lane)) (ofBytes bs)))) r t vals →
      LocalOps w w1 grp b ix s (lane :: r) t ((lane, ofBytes bs) :: vals)

/-- A command takes effect on some registers alone: those of `ks` hold the values beside them. -/
def SetsRegs (c : Instr) (s : State) (ks : List (Nat × W64)) : Prop :=
  ∃ t, exec c s = .next t ∧ { t with regs := s.regs } = s ∧ (∀ e ∈ ks, t.reg e.1 = e.2) ∧
    ∀ k, k ∉ ks.map (·.1) → t.reg k = s.reg k

/-- A doorbell, abort or note of a queue is dropped: the bits of `err` are set in its status and DROPS rises. -/
def DropsDoorbell (c : Instr) (s : State) (q : QRef) : Prop :=
  SetsRegs c s [(queStatus q, putFld (putFld (s.reg (queStatus q)) 16 1 1) 32 16 (min 0xFFFF (s.fld (queStatus q) 32 16 + 1)))]

/-- A sequenced packet that reaches ring die `die` is taken (R356, R358): its CRC is good, it is for this panel, and it is
the next of its flow; `at_` keeps the flow's receiver state, and `u` is the state with the packet counted and, every
sixteenth, acknowledged. -/
structure Arrives (s : State) (die : Nat) (h : NHdr) (d : Bytes) (crc : W32) (u : State) (at_ : Nat) : Prop where
  crc : crc.toNat = crc32c (toBytes 32 h.toNat ++ d)
  dst : (nfOf h).dst = s.panelNo
  keeper : at_ = if (nfOf h).keeper < 24 then (nfOf h).keeper else die
  recv : ∃ r : Recv, s.recv? (recvKey at_ (nfOf h).src (nfOf h).flow) = some r ∧ r.epoch = (nfOf h).epoch ∧ r.next = (nfOf h).psn ∧
    u = (let v := s.setRecv (recvKey at_ (nfOf h).src (nfOf h).flow) (some { r with next := (r.next + 1) % 2 ^ 32, unacked := r.unacked + 1 })
         if 16 ≤ r.unacked + 1 then v.sendAck at_ (nfOf h).src (nfOf h).flow else v)

/-- The Librarian takes the command of count `n` from its mailbox slot (R386, R409): it works, the command is posted and
not in progress, no earlier one stands before it, its code and reserved fields are right. `u` is the state with its slot
taken. -/
structure Takes (s : State) (slot code n : Nat) (u : State) : Prop where
  inRange : slot < 256
  works : s.libWorks = true
  posted : s.mbAt slot = some n
  idle : s.mbBusy n = false
  mayTake : s.mbFree n = true
  codeOf : s.mbCode n = code
  rsv : s.mbRsvOk n = true
  taken : u = s.mbTake n

/-- The words that an instruction of the Folio table may have (R121-R127, R129-R165). -/
abbrev FolioLegal := Nat → W64 → W64 → Bool

def legalR (p : RSpec) : FolioLegal := fun v w w1 => p.legal v w w1

def legalM (p : MSpec) : FolioLegal := fun v w w1 => p.legal v w w1

/-- A format code, and a rounding code, that a conversion takes (R46, R133). -/
def takesFmt (m : Nat) : Bool := fmtBlock (m % 16)

def takesRm (m lo : Nat) : Bool := decide (m / 2 ^ lo % 4 < 3)

/-- The Folio commands, each with its opcode and its legal words: control and synchronisation, integer, floating point,
conversions, memory, group matrix. -/
def folioControlRows : List ((GRef → W64 → W64 → Instr) × Nat × FolioLegal) :=
  [(.folioNop, 0x00, legalR { d := .unused }), (.quit, 0x01, legalR { d := .unused }), (.jump, 0x02, fun _ w _ => legalC true w),
   (.call, 0x03, fun _ w _ => legalC false w), (.ret, 0x04, legalR { d := .unused, gen := false }), (.meet, 0x05, legalR { d := .unused }),
   (.tally, 0x08, legalR { d := .num 32 }), (.specr, 0x09, fun v w w1 => legalR { u := if fA w = 6 then 0 else 2, a := .num 7 } v w w1),
   (.cinv, 0x0A, legalR { d := .unused }),
   (.fence, 0x0B, fun _ w _ => commonOk 0 w && !fL w && decide (fOrd w ≠ 0) && decide (fScope w ≤ 4) && decide (fldOf w 16 26 = 0) &&
     decide (fldOf w 47 17 = 0)),
   (.cpy, 0x0C, fun v w w1 => legalR { d := .num 32, a := .uni 2, b := .uni 1, c := .uni (if fMod w % 2 = 1 then 4 else 1), mods := modMask 7 } v w w1),
   (.waitc, 0x0E, legalR { d := .num 32, b := .uniImm }), (.rdc, 0x0F, legalR { u := 2, a := .num 32 })]

def folioIntegerRows : List ((GRef → W64 → W64 → Instr) × Nat × FolioLegal) :=
  [(.addw, 0x10, legalR (specAB (modMask 0))), (.subw, 0x11, legalR (specAB (modMask 0))), (.mulw, 0x12, legalR (specAB (modMask 0))),
   (.mulwh, 0x13, legalR (specAB (modMask 1))), (.madw, 0x14, legalR (specABC (modMask 0))), (.minw, 0x15, legalR (specAB (modMask 1))),
   (.maxw, 0x16, legalR (specAB (modMask 1))), (.andw, 0x17, legalR (specAB (modMask 0))), (.orw, 0x18, legalR (specAB (modMask 0))),
   (.xorw, 0x19, legalR (specAB (modMask 0))), (.shlw, 0x1A, legalR (specAB (modMask 0))), (.shrw, 0x1B, legalR (specAB (modMask 1))),
   (.ones, 0x1C, legalR (specA (modMask 0))), (.lzero, 0x1D, legalR (specA (modMask 0))),
   (.field, 0x1E, legalR { u := 1, a := .reg, c := .reg, mods := modMask 1 }), (.place, 0x1F, legalR (specABC (modMask 0))),
   (.choose, 0x20, legalR (specAB (modMask 15))), (.setr, 0x21, legalR (specA (modMask 0))),
   (.testw, 0x22, legalR { u := 1, d := .num 8, a := .reg, b := .regImm, mods := fun m => decide (m < 16 ∧ m % 8 < 6) }),
   (.testf, 0x23, legalR { u := 1, d := .num 8, a := .reg, b := .regImm, mods := fun m => decide (m < 6) }),
   (.pcomb, 0x24, legalR { u := 1, d := .num 8, a := .num 8, b := .num 8, mods := modMask 3 }),
   (.lanex, 0x25, legalR { a := .reg, b := .regImm, mods := modMask 3 }),
   (.poll, 0x26, fun v w w1 => if fU w = true then legalR { u := 2, d := .uni 2, a := .num 8 } v w w1
     else legalR { d := .num 8, a := .num 8, mods := fun m => decide (m = 1 ∨ m = 2) } v w w1),
   (.laneu, 0x27, legalR { u := 2, a := .vec 1, b := .uniImm })]

def folioFloatRows : List ((GRef → W64 → W64 → Instr) × Nat × FolioLegal) :=
  let two := legalR { a := .reg, b := .regImm, mods := modMask 15 }
  let three := legalR { a := .reg, b := .regImm, c := .reg, mods := modMask 31 }
  let one := legalR { a := .reg, mods := modMask 3 }
  [(.addf, 0x28, two), (.mulf, 0x29, two), (.madf, 0x2A, three), (.minf, 0x2B, two), (.maxf, 0x2C, two), (.addb2, 0x30, two), (.mulb2, 0x31, two),
   (.madb2, 0x32, three), (.recip, 0x38, one), (.rroot, 0x39, one), (.pow2, 0x3A, one), (.log2, 0x3B, one),
   (.wtof, 0x40, legalR { a := .reg, mods := fun m => decide (m < 8) && takesRm m 1 }),
   (.ftow, 0x41, legalR { a := .reg, mods := fun m => decide (m < 8) && takesRm m 1 }),
   (.ftob, 0x42, legalR { a := .reg, b := .regImm, mods := fun m => decide (m < 8 ∧ m % 2 = 0) && takesRm m 1 }),
   (.btof, 0x43, legalR { a := .reg, mods := modMask 1 }),
   (.cvte, 0x44, legalR { a := .reg, mods := fun m => decide (m < 64) && takesFmt m && takesRm m 4 }),
   (.dcde, 0x45, legalR { a := .reg, mods := fun m => decide (m < 16) && takesFmt m }),
   (.qblk, 0x46, fun v w w1 => legalR { d := .vec 2, a := .reg, b := .regImm, c := if fMod w / 64 % 2 = 1 then .reg else .unused
                                        mods := fun m => decide (m < 256) && takesFmt m && takesRm m 4 } v w w1),
   (.dqblk, 0x47, legalR { a := .reg, b := .vec 1, c := .reg, mods := fun m => decide (m < 16) && takesFmt m })]

def folioMemoryRows : List ((GRef → W64 → W64 → Instr) × Nat × FolioLegal) :=
  let loads := fun sub size => decide (sub = 0 ∨ sub = 1 ∧ size ≤ 1)
  let stores := fun sub _ => decide (sub = 0)
  [(.ldm, 0x50, legalM { u := true, ords := [0, 1], sub := loads }), (.ldro, 0x51, legalM { u := true, ords := [0], sub := loads }),
   (.ldls, 0x52, legalM { u := true, global := false, ords := [0, 1], sub := loads }), (.stm, 0x53, legalM { ords := [0, 2], sub := stores }),
   (.stls, 0x54, legalM { global := false, ords := [0, 2], sub := stores }),
   (.mopn, 0x55, legalM { ords := [0, 2], sub := subOk true false false, regs := atomRegs }),
   (.mopr, 0x56, legalM { ords := [0, 1, 2, 3], sub := subOk false true false, regs := atomRegs }),
   (.lopr, 0x57, legalM { global := false, ords := [0, 1, 2, 3], sub := subOk false false true, regs := atomRegs }),
   (.gmac, 0x60, legalR { d := .num 8, a := .vec 2, b := .vec 2, c := .vec 1, gen := false
                          mods := fun m => decide (m < 512) && (gmacK (m % 16) (m / 16 % 16)).isSome }),
   (.gmclr, 0x61, legalR { d := .num 8, gen := false }), (.gmget, 0x62, legalR { d := .vec 4, a := .num 8, gen := false }),
   (.gmput, 0x63, legalR { d := .num 8, a := .vec 4, gen := false })]

def folioLegalRows : List ((GRef → W64 → W64 → Instr) × Nat × FolioLegal) :=
  folioControlRows ++ folioIntegerRows ++ folioFloatRows ++ folioMemoryRows

/-- Position and width that C gives FIELD and PLACE, the width clipped at bit 31 (R129). -/
def fieldPos (c : W32) : Nat := c.toNat % 32

def fieldWidth (c : W32) : Nat := min (c.toNat / 256 % 64) (32 - fieldPos c)

end Sys2Proof.Machine

open Sys2Proof Sys2Proof.Machine

/-- A step takes the command at the front of the queue: it is exec of that command on the state with the queue's
rest. -/
def Obligations.StepFront : Prop :=
  ∀ (c : Instr) (r : List Instr) (s : State), s.pending = c :: r → step s = exec c { s with pending := r }

/-- R424, and the model's choice of log entry 5: with no command waiting, and no host request held behind an earlier one
(R285), a step is one slice cycle. Before the site roots have locked nothing passes; after, the cycle count rises by one,
the busy counters of the engines that run a command count, and the mesh and the ring ports carry what stands at them;
nothing else changes, and with nothing at the links they stay as they are. -/
def Obligations.IdleStep : Prop :=
  ∀ s : State, s.pending = [] → s.host.hold = [] →
    (s.pwr.pllLocked = false → step s = .next s) ∧
    (s.pwr.pllLocked = true → ∃ t : State, step s = .next t ∧ t.cyc = s.cyc + 1 ∧
      { t with regs := s.regs, cyc := s.cyc, mesh := { t.mesh with links := s.mesh.links }, net := { t.net with parcels := s.net.parcels }
               host := { t.host with out := s.host.out }, fab := { t.fab with out := s.fab.out } } = s ∧
      (s.mesh.links = [] → s.net.parcels = [] → s.host.out = [] → s.fab.out = [] →
        t.mesh = s.mesh ∧ t.net = s.net ∧ t.host = s.host ∧ t.fab = s.fab) ∧
      (∀ c me, c < 256 → me < 4 → t.reg (mexB c me + 0x48) =
        if s.bit (mexB c me) 0 = true then putFld (s.reg (mexB c me + 0x48)) 0 48 (s.fld (mexB c me + 0x48) 0 48 + 1) else s.reg (mexB c me + 0x48)) ∧
      (∀ c, c < 256 → t.reg (texB c + 0x58) =
        if s.bit (texB c) 0 = true then putFld (s.reg (texB c + 0x58)) 0 48 (s.fld (texB c + 0x58) 0 48 + 1) else s.reg (texB c + 0x58)) ∧
      ∀ k, (∀ c me, c < 256 → me < 4 → k ≠ mexB c me + 0x48 ∧ k ≠ mexB c me + 0x50) → (∀ c, c < 256 → k ≠ texB c + 0x58) → t.reg k = s.reg k)

/-- What the spec gives at reset: the Ledger's factors stand at 1.0 (R431), the ring and completion ring sizes of
queues and service rings at 4 (R171, R361), STBY_OK and RESET at 1 (R466), the core map not built and STATE RESET
(R398); memory reads 0 without poison (R406), no queue holds a command, nothing runs, and no command waits. -/
def Obligations.ResetValues : Prop :=
  (∀ x p, x < 72 → p < 16 → State.reset.fld (ldgAcct x p + 8) 0 16 = 0x100 ∧ State.reset.fld (ldgAcct x p + 8) 16 16 = 0x100 ∧
    State.reset.fld (ldgAcct x p + 8) 32 16 = 0x100 ∧ State.reset.fld (ldgAcct x p + 8) 48 16 = 0) ∧
  (∀ q : QRef, q.ok = true → State.reset.fld (queB q) 8 5 = 4 ∧ State.reset.fld (queB q) 16 5 = 4 ∧ State.reset.bit (queB q) 1 = false ∧
    State.reset.fld (queB q + 0x48) 0 4 = 0 ∧ (State.reset.q q).cmds = []) ∧
  (∀ p k, p < 16 → k < 4 → State.reset.fld (svcB p k) 8 5 = 4 ∧ State.reset.fld (svcB p k) 16 5 = 4) ∧
  (∀ p, p < 16 → State.reset.partState p = 0) ∧
  State.reset.bit (mgmtB 2) 0 = true ∧ State.reset.bit (mgmtB 2) 4 = true ∧
  State.reset.mapBuilt = false ∧ State.reset.bootState = 0 ∧ (∀ pa, State.reset.arc.rd pa = 0#8 ∧ State.reset.arc.rdHbm pa = 0#8) ∧
  State.reset.arc.marks = [] ∧ State.reset.arc.lines = [] ∧ State.reset.runs = [] ∧ State.reset.svc.ops = [] ∧ State.reset.pending = []

/-- The machine at reset is sound: no command waits and the tables of registers and memories have their canonical
form. -/
def Obligations.ResetSound : Prop := State.reset.Sound

/-- Every step keeps the machine sound: the commands that wait name units the panel has, and the tables of registers
and memories keep their canonical form. -/
def Obligations.StepKeepsSound : Prop := ∀ s t : State, s.Sound → step s = .next t → t.Sound

/-- A command that names units the panel has is never stopped: it answers a next state, and leaves the queue of
waiting commands as it is. One that does not is a fault. So a sound machine always takes a step. -/
def Obligations.CommandsComplete : Prop :=
  (∀ (c : Instr) (s : State), c.wf = true → ∃ t, exec c s = .next t ∧ t.pending = s.pending) ∧
  (∀ (c : Instr) (s : State), c.wf = false → exec c s = .fault .noSuchCommand) ∧
  ∀ s : State, s.Sound → s.Steps

/-- R129: the integer instructions of two operands. A shift takes B[4:0]; MOD[0] = 1 makes MULWH, MINW and MAXW
signed and SHRW arithmetic. -/
def Obligations.FolioIntegerTwo : Prop := FolioWritesReg
  [ ⟨.addw, 0x10, specAB (modMask 0), fun g w w1 l => g.srcA w l + g.srcB .int w w1 l⟩,
    ⟨.subw, 0x11, specAB (modMask 0), fun g w w1 l => g.srcA w l - g.srcB .int w w1 l⟩,
    ⟨.mulw, 0x12, specAB (modMask 0), fun g w w1 l => g.srcA w l * g.srcB .int w w1 l⟩,
    ⟨.mulwh, 0x13, specAB (modMask 1), fun g w w1 l => if nbit (fMod w) 0
      then (((g.srcA w l).signExtend 64 * (g.srcB .int w w1 l).signExtend 64) >>> 32).setWidth 32
      else (((g.srcA w l).setWidth 64 * (g.srcB .int w w1 l).setWidth 64) >>> 32).setWidth 32⟩,
    ⟨.minw, 0x15, specAB (modMask 1), fun g w w1 l => if nbit (fMod w) 0
      then (if (g.srcB .int w w1 l).slt (g.srcA w l) then g.srcB .int w w1 l else g.srcA w l)
      else (if (g.srcB .int w w1 l).ult (g.srcA w l) then g.srcB .int w w1 l else g.srcA w l)⟩,
    ⟨.maxw, 0x16, specAB (modMask 1), fun g w w1 l => if nbit (fMod w) 0
      then (if (g.srcA w l).slt (g.srcB .int w w1 l) then g.srcB .int w w1 l else g.srcA w l)
      else (if (g.srcA w l).ult (g.srcB .int w w1 l) then g.srcB .int w w1 l else g.srcA w l)⟩,
    ⟨.andw, 0x17, specAB (modMask 0), fun g w w1 l => g.srcA w l &&& g.srcB .int w w1 l⟩,
    ⟨.orw, 0x18, specAB (modMask 0), fun g w w1 l => g.srcA w l ||| g.srcB .int w w1 l⟩,
    ⟨.xorw, 0x19, specAB (modMask 0), fun g w w1 l => g.srcA w l ^^^ g.srcB .int w w1 l⟩,
    ⟨.shlw, 0x1A, specAB (modMask 0), fun g w w1 l => g.srcA w l <<< ((g.srcB .int w w1 l).toNat % 32)⟩,
    ⟨.shrw, 0x1B, specAB (modMask 1), fun g w w1 l => if nbit (fMod w) 0
      then (g.srcA w l).sshiftRight ((g.srcB .int w w1 l).toNat % 32)
      else g.srcA w l >>> ((g.srcB .int w w1 l).toNat % 32)⟩ ]

/-- R129: the other integer instructions and the moves within a lane. FIELD shifts the field to the top of the word
and back, arithmetically when MOD[0] = 1; PLACE puts the low bits of B under a mask; CHOOSE takes A where predicate
MOD[2:0] xor MOD[3] holds. R132, R129: LANEX and LANEU read another lane's register, whether or not that lane takes
part; BTOF and DCDE convert exactly (R133). -/
def Obligations.FolioOneSource : Prop :=
  (FolioWritesReg
   [ ⟨.madw, 0x14, specABC (modMask 0), fun g w w1 l => g.srcA w l * g.srcB .int w w1 l + g.srcC w l⟩,
     ⟨.ones, 0x1C, specA (modMask 0), fun g w _ l => BitVec.ofNat 32 ((List.range 32).countP (g.srcA w l).getLsbD)⟩,
     ⟨.lzero, 0x1D, specA (modMask 0), fun g w _ l =>
       BitVec.ofNat 32 (((List.range 32).find? fun i => (g.srcA w l).getLsbD (31 - i)).getD 32)⟩,
     ⟨.field, 0x1E, { u := 1, a := .reg, c := .reg, mods := modMask 1 }, fun g w _ l =>
       let p := fieldPos (g.srcC w l)
       let n := fieldWidth (g.srcC w l)
       if nbit (fMod w) 0 then ((g.srcA w l >>> p) <<< (32 - n)).sshiftRight (32 - n)
       else ((g.srcA w l >>> p) <<< (32 - n)) >>> (32 - n)⟩,
     ⟨.place, 0x1F, specABC (modMask 0), fun g w w1 l =>
       let p := fieldPos (g.srcC w l)
       let m := (BitVec.allOnes 32 >>> (32 - fieldWidth (g.srcC w l))) <<< p
       (g.srcA w l &&& ~~~m) ||| ((g.srcB .int w w1 l <<< p) &&& m)⟩,
     ⟨.choose, 0x20, specAB (modMask 15), fun g w w1 l =>
       if (g.rdP (fMod w % 8)).getLsbD l != nbit (fMod w) 3 then g.srcA w l else g.srcB .int w w1 l⟩,
     ⟨.setr, 0x21, specA (modMask 0), fun g w _ l => g.srcA w l⟩ ]) ∧
  (FolioWritesReg
   [ ⟨.lanex, 0x25, { a := .reg, b := .regImm, mods := modMask 3 }, fun g w w1 l =>
       let b := (g.srcB .int w w1 l).toNat
       g.srcA w (if fMod w = 0 then b % 64 else if fMod w = 1 then (if b ≤ l then l - b else l)
         else if fMod w = 2 then (if l + b ≤ 63 then l + b else l) else l ^^^ (b % 64))⟩,
     ⟨.laneu, 0x27, { u := 2, a := .vec 1, b := .uniImm }, fun g w w1 l =>
       g.rdV (fA w) ((g.srcB .int w w1 l).toNat % 64)⟩,
     ⟨.btof, 0x43, { a := .reg, mods := modMask 1 }, fun g w _ l =>
       toF32 .rne (bf16 ((g.srcA w l).toNat / 2 ^ (16 * fMod w) % 65536))⟩,
     ⟨.dcde, 0x45, { a := .reg, mods := fun m => decide (m < 16) && fmtBlock m }, fun g w _ l =>
       toF32 .rne (elemVal (fMod w) ((g.srcA w l).toNat % 2 ^ fmtBits (fMod w)))⟩ ])

/-- R129, R130, R58: FP32 and BF16 arithmetic. The sign bits of the sources change first under MOD; the operation is
exact and rounded once, RNE; a BF16 pair rounds each half. -/
def Obligations.FolioFloat : Prop := FolioWritesReg
  [ ⟨.addf, 0x28, { a := .reg, b := .regImm, mods := modMask 15 }, fun g w w1 l =>
      toF32 .rne ((f32 (modA sgn32 (fMod w) (g.srcA w l))).add (f32 (modB sgn32 (fMod w) (g.srcB .f32 w w1 l))))⟩,
    ⟨.mulf, 0x29, { a := .reg, b := .regImm, mods := modMask 15 }, fun g w w1 l =>
      toF32 .rne ((f32 (modA sgn32 (fMod w) (g.srcA w l))).mul (f32 (modB sgn32 (fMod w) (g.srcB .f32 w w1 l))))⟩,
    ⟨.madf, 0x2A, { a := .reg, b := .regImm, c := .reg, mods := modMask 31 }, fun g w w1 l =>
      toF32 .rne (((f32 (modA sgn32 (fMod w) (g.srcA w l))).mul (f32 (modB sgn32 (fMod w) (g.srcB .f32 w w1 l)))).add
        (f32 (modC sgn32 (fMod w) (g.srcC w l))))⟩,
    ⟨.minf, 0x2B, { a := .reg, b := .regImm, mods := modMask 15 }, fun g w w1 l =>
      minMaxF false (modA sgn32 (fMod w) (g.srcA w l)) (modB sgn32 (fMod w) (g.srcB .f32 w w1 l))⟩,
    ⟨.maxf, 0x2C, { a := .reg, b := .regImm, mods := modMask 15 }, fun g w w1 l =>
      minMaxF true (modA sgn32 (fMod w) (g.srcA w l)) (modB sgn32 (fMod w) (g.srcB .f32 w w1 l))⟩,
    ⟨.addb2, 0x30, { a := .reg, b := .regImm, mods := modMask 15 }, fun g w w1 l =>
      halves fun k => (toBf16 .rne ((half16 k (modA sgnB2 (fMod w) (g.srcA w l))).add
        (half16 k (modB sgnB2 (fMod w) (g.srcB .b2 w w1 l))))).1⟩,
    ⟨.mulb2, 0x31, { a := .reg, b := .regImm, mods := modMask 15 }, fun g w w1 l =>
      halves fun k => (toBf16 .rne ((half16 k (modA sgnB2 (fMod w) (g.srcA w l))).mul
        (half16 k (modB sgnB2 (fMod w) (g.srcB .b2 w w1 l))))).1⟩,
    ⟨.madb2, 0x32, { a := .reg, b := .regImm, c := .reg, mods := modMask 31 }, fun g w w1 l =>
      halves fun k => (toBf16 .rne (((half16 k (modA sgnB2 (fMod w) (g.srcA w l))).mul
        (half16 k (modB sgnB2 (fMod w) (g.srcB .b2 w w1 l)))).add (half16 k (modC sgnB2 (fMod w) (g.srcC w l))))).1⟩ ]

/-- R129, R130, R126: comparisons and PCOMB write a predicate, per lane, or under U once for all active lanes. R132:
POLL MASK writes u[D]:u[D+1], bit l set when lane l takes part and its predicate holds. -/
def Obligations.FolioPredicates : Prop :=
  (FolioWritesPred
   [ ⟨.testw, 0x22, { u := 1, d := .num 8, a := .reg, b := .regImm, mods := fun m => decide (m < 16) && decide (m % 8 < 6) },
       fun g w w1 l => condHolds (fMod w % 8) (g.srcA w l == g.srcB .int w w1 l)
         (if 8 ≤ fMod w then (g.srcA w l).slt (g.srcB .int w w1 l) else (g.srcA w l).ult (g.srcB .int w w1 l))⟩,
     ⟨.testf, 0x23, { u := 1, d := .num 8, a := .reg, b := .regImm, mods := fun m => decide (m < 6) },
       fun g w w1 l =>
         let x := f32 (g.srcA w l)
         let y := f32 (g.srcB .f32 w w1 l)
         if x.isNan || y.isNan then decide (fMod w = 1) else condHolds (fMod w) (!(x.lt y) && !(y.lt x)) (x.lt y)⟩,
     ⟨.pcomb, 0x24, { u := 1, d := .num 8, a := .num 8, b := .num 8, mods := modMask 3 },
       fun g w _ l =>
         let a := (g.rdP (fA w)).getLsbD l
         let b := (g.rdP (fB w)).getLsbD l
         if fMod w = 0 then a && b else if fMod w = 1 then a || b else if fMod w = 2 then a != b else a && !b⟩,
     ⟨.poll, 0x26, { d := .num 8, a := .num 8, mods := fun m => decide (m = 1 ∨ m = 2) },
       fun g w _ _ => if fMod w = 1 then decide (g.takes w &&& g.rdP (fA w) ≠ 0#64)
         else decide (g.takes w &&& ~~~g.rdP (fA w) = 0#64)⟩ ]) ∧
  (∀ (s : State) (g : GRef) (w w1 : W64) (s1 : State) (l : Launch) (b : Block) (grp : Group),
     g.ok = true → fOpc w = 0x26 → Issues s g w s1 l b grp →
     RSpec.legal { u := 2, d := .uni 2, a := .num 8, mods := modMask 0 } l.vregs w w1 = true →
     ∃ (t : State) (x : Group), exec (.poll g w w1) s = .next t ∧ OnlyGroup s1 t g ∧ RanTo t g w grp x ∧
       x.v = grp.v ∧ x.p = grp.p ∧ x.acc = grp.acc ∧
       (∀ k, grp.takesU w = false ∨ (k ≠ fD w ∧ k ≠ fD w + 1) → x.rdU k = grp.rdU k) ∧
       (grp.takesU w = true → x.rdU (fD w + 1) ++ x.rdU (fD w) = grp.takes w &&& grp.rdP (fA w)))

/-- R131: RECIP, RROOT, POW2 and LOG2. Every lane's result is one that R131 allows, and the special cases are fixed:
the results for NaN, for infinities and for zeros, and for negative arguments of RROOT and LOG2. R60: the result is a
function of the operation and the operand alone, so the same inputs always give the same bits. -/
def Obligations.FolioSpecial : Prop :=
  ∀ r ∈ ([(.recip, 0x38, recip32, fun a v => match f32 a with
            | .nan => v = 0x7FC00000#32
            | .inf n => v = if n then 0x80000000#32 else 0#32
            | .fin n m => m.n = 0 → v = if n then 0xFF800000#32 else 0x7F800000#32),
          (.rroot, 0x39, rroot32, fun a v => match f32 a with
            | .nan => v = 0x7FC00000#32
            | .inf n => v = if n then 0x7FC00000#32 else 0#32
            | .fin n m => (m.n = 0 → v = if n then 0xFF800000#32 else 0x7F800000#32) ∧ (m.n ≠ 0 ∧ n = true → v = 0x7FC00000#32)),
          (.pow2, 0x3A, pow232, fun a v => match f32 a with
            | .nan => v = 0x7FC00000#32
            | .inf n => v = if n then 0#32 else 0x7F800000#32
            | .fin n m => n = false ∧ Mag.lt m { n := 256 } = false → v = 0x7F800000#32),
          (.log2, 0x3B, log232, fun a v => match f32 a with
            | .nan => v = 0x7FC00000#32
            | .inf n => v = if n then 0x7FC00000#32 else 0x7F800000#32
            | .fin n m => (m.n = 0 → v = 0xFF800000#32) ∧ (m.n ≠ 0 ∧ n = true → v = 0x7FC00000#32))] :
        List ((GRef → W64 → W64 → Instr) × Nat × (Nat → W32 → W32) × (W32 → W32 → Prop))),
    ∀ (s : State) (g : GRef) (w w1 : W64) (s1 : State) (l : Launch) (b : Block) (grp : Group),
      g.ok = true → fOpc w = r.2.1 → Issues s g w s1 l b grp →
      RSpec.legal { a := .reg, mods := modMask 3 } l.vregs w w1 = true →
      ∃ (t : State) (x : Group) (val : Nat → W32), exec (r.1 g w w1) s = .next t ∧ OnlyGroup s1 t g ∧ RanTo t g w grp x ∧
        WritesReg w grp x val ∧ ∀ lane, val lane = r.2.2.1 (Config.elementary r.2.1 (modA sgn32 (fMod w) (grp.srcA w lane)))
            (modA sgn32 (fMod w) (grp.srcA w lane)) ∧
          r.2.2.2 (modA sgn32 (fMod w) (grp.srcA w lane)) (val lane)

/-- R133, R47, R48: WTOF, FTOW and FTOB. MOD[2:1] is the rounding; under SR each value takes one draw of the engine's
generator, in any order among the lanes; FTOB counts the halves it flushes. R133, R52: CVTE converts each lane into
the format MOD[3:0] under the rounding MOD[5:4] and counts the events. -/
def Obligations.FolioConversions : Prop :=
  (∀ (s : State) (g : GRef) (w w1 : W64) (s1 : State) (l : Launch) (b : Block) (grp : Group),
     g.ok = true → Issues s g w s1 l b grp →
     let rm := fMod w / 2
     let n := (lanesOf (grp.takes w)).length
     let sr := s1.reg (texB g.core + 0x50)
     (fOpc w = 0x40 → RSpec.legal { a := .reg, mods := fun m => decide (m < 6) } l.vregs w w1 = true →
       ∃ (t : State) (x : Group) (draw : Nat → Nat), exec (.wtof g w w1) s = .next t ∧ Drawn rm n sr (lanesOf (grp.takes w)) draw ∧
         GroupAndRun s1 t g l.run (srAfter rm n sr) 0 0 0 0 ∧ RanTo t g w grp x ∧ WritesReg w grp x fun lane =>
           toF32 (modeOf rm (draw lane)) (Num.ofInt (if fMod w % 2 = 1 then (grp.srcA w lane).toInt else (grp.srcA w lane).toNat))) ∧
     (fOpc w = 0x41 → RSpec.legal { a := .reg, mods := fun m => decide (m < 6) } l.vregs w w1 = true →
       ∃ (t : State) (x : Group) (draw : Nat → Nat), exec (.ftow g w w1) s = .next t ∧ Drawn rm n sr (lanesOf (grp.takes w)) draw ∧
         GroupAndRun s1 t g l.run (srAfter rm n sr) 0 0 0 0 ∧ RanTo t g w grp x ∧ WritesReg w grp x fun lane =>
           ftow (decide (fMod w % 2 = 1)) (modeOf rm (draw lane)) (grp.srcA w lane)) ∧
     (fOpc w = 0x42 → RSpec.legal { a := .reg, b := .regImm, mods := fun m => decide (m < 6) && decide (m % 2 = 0) } l.vregs w w1 = true →
       ∃ (t : State) (x : Group) (d0 d1 : Nat → Nat), exec (.ftob g w w1) s = .next t ∧
         Drawn rm (2 * n) sr (lanesOf (grp.takes w)) d0 ∧ Drawn rm (2 * n) sr (lanesOf (grp.takes w)) d1 ∧
         (let lo := fun lane => toBf16 (modeOf rm (d0 lane)) (f32 (grp.srcA w lane))
          let hi := fun lane => toBf16 (modeOf rm (d1 lane)) (f32 (grp.srcB .f32 w w1 lane))
          GroupAndRun s1 t g l.run (srAfter rm (2 * n) sr) 0
            ((lanesOf (grp.takes w)).map fun lane => b2n (lo lane).2 + b2n (hi lane).2).sum 0 0 ∧ RanTo t g w grp x ∧
          WritesReg w grp x fun lane => BitVec.ofNat 32 ((hi lane).1 * 65536 + (lo lane).1)))) ∧
  (∀ (s : State) (g : GRef) (w w1 : W64) (s1 : State) (l : Launch) (b : Block) (grp : Group),
     g.ok = true → fOpc w = 0x44 → Issues s g w s1 l b grp →
     RSpec.legal { a := .reg, mods := fun m => decide (m < 48) && fmtBlock (m % 16) } l.vregs w w1 = true →
     let rm := fMod w / 16
     let ls := lanesOf (grp.takes w)
     let sr := s1.reg (texB g.core + 0x50)
     ∃ (t : State) (x : Group) (draw : Nat → Nat), exec (.cvte g w w1) s = .next t ∧ Drawn rm ls.length sr ls draw ∧
       (let q := fun lane => quantiseOne (grp.srcA w lane) (fMod w % 16) (modeOf rm (draw lane))
        GroupAndRun s1 t g l.run (srAfter rm ls.length sr) (ls.map fun lane => (q lane).sat).sum
          (ls.map fun lane => (q lane).flushed).sum 0 (ls.map fun lane => (q lane).invalid).sum ∧
        RanTo t g w grp x ∧ WritesReg w grp x fun lane => BitVec.ofNat 32 ((q lane).codes.headD 0)))

/-- R134: QBLK quantises each half in which a lane takes part: element codes into v[D], the S8 code and the inclusion
word into v[D+1] of lanes 0 and 1 of the half, 0 into its other lanes. R135: DQBLK decodes the block of each half and
rounds each effective value RNE; an invalid block counts once. -/
def Obligations.FolioBlocks : Prop :=
  (∀ (s : State) (g : GRef) (w w1 : W64) (s1 : State) (l : Launch) (b : Block) (grp : Group),
     g.ok = true → fOpc w = 0x46 → Issues s g w s1 l b grp →
     RSpec.legal { d := .vec 2, a := .reg, b := .regImm, c := if nbit (fMod w) 6 then .reg else .unused,
                   mods := fun m => decide (m < 256) && fmtBlock (m % 16) && decide (m / 16 % 4 < 3) } l.vregs w w1 = true →
     let rm := fMod w / 16 % 4
     let take := fun lane => (grp.takes w).getLsbD lane
     let hs := [0, 32].filter fun h => (List.range 32).any fun i => take (h + i)
     let sr := s1.reg (texB g.core + 0x50)
     ∃ (t : State) (x : Group) (draw : Nat → Nat), exec (.qblk g w w1) s = .next t ∧
       Drawn rm (32 * hs.length) sr (hs.flatMap fun h => (List.range 32).map (h + ·)) draw ∧
       (let q := fun h => quantiseBlock ((List.range 32).map fun i => if take (h + i) then grp.srcA w (h + i) else 0#32)
          (grp.srcB .f32 w w1 h) (fMod w % 16) (fun i => modeOf rm (draw (h + i)))
          (if nbit (fMod w) 6 then some ((grp.srcC w h).toNat % 256) else none) (nbit (fMod w) 7)
        GroupAndRun s1 t g l.run (srAfter rm (32 * hs.length) sr) (hs.map fun h => (q h).sat).sum
          (hs.map fun h => (q h).flushed).sum (hs.map fun h => (q h).inclOvf).sum (hs.map fun h => (q h).invalid).sum ∧
        RanTo t g w grp x ∧ x.u = grp.u ∧ x.p = grp.p ∧ x.acc = grp.acc ∧
        ∀ k lane, lane < 64 → x.rdV k lane =
          let h := lane / 32 * 32
          if h ∉ hs then grp.rdV k lane
          else if k = fD w then (if take lane then BitVec.ofNat 32 ((q h).codes.getD (lane % 32) 0) else grp.rdV k lane)
          else if k = fD w + 1 then
            BitVec.ofNat 32 (if lane % 32 = 0 then (q h).sc else if lane % 32 = 1 ∧ nbit (fMod w) 7 then (q h).incl else 0)
          else grp.rdV k lane)) ∧
  (∀ (s : State) (g : GRef) (w w1 : W64) (s1 : State) (l : Launch) (b : Block) (grp : Group),
     g.ok = true → fOpc w = 0x47 → Issues s g w s1 l b grp →
     RSpec.legal { a := .reg, b := .vec 1, c := .reg, mods := fun m => decide (m < 16) && fmtBlock m } l.vregs w w1 = true →
     let take := fun lane => (grp.takes w).getLsbD lane
     let hs := [0, 32].filter fun h => (List.range 32).any fun i => take (h + i)
     let blk := fun h => readBlock (fMod w)
       ((List.range 32).map fun i => if take (h + i) then (grp.srcA w (h + i)).toNat % 2 ^ fmtBits (fMod w) else 0)
       ((grp.rdV (fB w) h).toNat % 256) (grp.rdV (fB w) (h + 1)).toNat (f32posNormal (grp.srcC w h))
     ∃ (t : State) (x : Group), exec (.dqblk g w w1) s = .next t ∧
       GroupAndRun s1 t g l.run (s1.reg (texB g.core + 0x50)) 0 0 0 (hs.map fun h => b2n (blk h).invalid).sum ∧
       RanTo t g w grp x ∧ WritesReg w grp x fun lane =>
         let h := lane / 32 * 32
         toF32 .rne ((((blk h).vals.getD (lane % 32) .nan).mul (blk h).s).mul (f32 (grp.srcC w h))))

/-- R160-R164: the group-matrix instructions, with all 64 threads active. -/
def Obligations.FolioMatrix : Prop :=
  ∀ (s : State) (g : GRef) (w w1 : W64) (s1 : State) (l : Launch) (b : Block) (grp : Group),
    g.ok = true → Issues s g w s1 l b grp → grp.active = BitVec.allOnes 64 →
    (fOpc w = 0x60 →
      RSpec.legal { d := .num 8, a := .vec 2, b := .vec 2, c := .vec 1, gen := false, mods := fun m => decide (m < 512) && (gmacK (m % 16) (m / 16 % 16)).isSome } l.vregs w w1 = true →
      ∃ (t : State) (x : Group) (k : Nat), exec (.gmac g w w1) s = .next t ∧ gmacK (fMod w % 16) (fMod w / 16 % 16) = some k ∧
        GroupAndRun s1 t g l.run (s1.reg (texB g.core + 0x50)) 0 0 0 (gmacInvalid grp w k) ∧ RanTo t g w grp x ∧
        x.v = grp.v ∧ x.u = grp.u ∧ x.p = grp.p ∧ ∀ h r c, r < 16 → c < 16 →
          x.rdAcc h r c = if h = fD w then gmacAcc grp w k r c else grp.rdAcc h r c) ∧
    (fOpc w = 0x61 → RSpec.legal { d := .num 8, gen := false } l.vregs w w1 = true →
      ∃ (t : State) (x : Group), exec (.gmclr g w w1) s = .next t ∧ OnlyGroup s1 t g ∧ RanTo t g w grp x ∧
        x.v = grp.v ∧ x.u = grp.u ∧ x.p = grp.p ∧ ∀ h r c, r < 16 → c < 16 →
          x.rdAcc h r c = if h = fD w then 0#32 else grp.rdAcc h r c) ∧
    (fOpc w = 0x62 → RSpec.legal { d := .vec 4, a := .num 8, gen := false } l.vregs w w1 = true →
      ∃ (t : State) (x : Group), exec (.gmget g w w1) s = .next t ∧ OnlyGroup s1 t g ∧ RanTo t g w grp x ∧
        x.u = grp.u ∧ x.p = grp.p ∧ x.acc = grp.acc ∧
        (∀ r c, r < 16 → c < 16 → x.rdV (fD w + c % 4) (4 * r + c / 4) = grp.rdAcc (fA w) r c) ∧
        ∀ k lane, lane < 64 → k < fD w ∨ fD w + 4 ≤ k → x.rdV k lane = grp.rdV k lane) ∧
    (fOpc w = 0x63 → RSpec.legal { d := .num 8, a := .vec 4, gen := false } l.vregs w w1 = true →
      ∃ (t : State) (x : Group), exec (.gmput g w w1) s = .next t ∧ OnlyGroup s1 t g ∧ RanTo t g w grp x ∧
        x.v = grp.v ∧ x.u = grp.u ∧ x.p = grp.p ∧ ∀ h r c, r < 16 → c < 16 →
          x.rdAcc h r c = if h = fD w then grp.rdV (fA w + c % 4) (4 * r + c / 4) else grp.rdAcc h r c)

/-- R136, R137, R99, R100: NOP, QUIT, JUMP, CALL and RET. A JUMP that diverges pushes one reconvergence entry and
runs the fall-through path first. Entries are numbered as they are pushed, and a CALL keeps the number that the next one
takes. R99, R137, R165: where JUMP, CALL and RET raise ILLEGAL_INSTRUCTION: a divergent
JUMP with 32 entries, a CALL with 8, a RET with none or with reconvergence entries pushed since the CALL. -/
def Obligations.FolioControl : Prop :=
  (∀ (s : State) (g : GRef) (w w1 : W64) (s1 : State) (l : Launch) (b : Block) (grp : Group),
     g.ok = true → Issues s g w s1 l b grp →
     let t := grp.takes w
     let tgt := grp.pc + BitVec.ofInt 64 (8 * sext (fTgt w) 24)
     let rcv := grp.pc + BitVec.ofInt 64 (8 * sext (fRcv w) 24)
     (fOpc w = 0x00 → RSpec.legal { d := .unused } l.vregs w w1 = true →
       RunsGroup (.folioNop g w w1) s s1 g { grp with pc := grp.pc + 8#64 }) ∧
     (fOpc w = 0x01 → RSpec.legal { d := .unused } l.vregs w w1 = true →
       RunsGroup (.quit g w w1) s s1 g
         { grp with pc := grp.pc + 8#64, exited := grp.exited ||| t, active := grp.active &&& ~~~t }) ∧
     (fOpc w = 0x02 → legalC true w = true →
       (t = 0#64 → RunsGroup (.jump g w w1) s s1 g { grp with pc := grp.pc + 8#64 }) ∧
       (t = grp.active → RunsGroup (.jump g w w1) s s1 g { grp with pc := tgt }) ∧
       (t ≠ 0#64 → t ≠ grp.active → grp.recon.length < 32 →
         RunsGroup (.jump g w w1) s s1 g
           { grp with pc := grp.pc + 8#64, active := grp.active &&& ~~~t, under := grp.nextId, nextId := grp.nextId + 1, recon := grp.recon ++
             [{ id := grp.nextId, parent := grp.under, rcv := rcv, tgt := tgt, tgtMask := t, joined := 0#64 }] })) ∧
     (fOpc w = 0x03 → legalC false w = true → grp.calls.length < 8 →
       RunsGroup (.call g w w1) s s1 g { grp with pc := tgt, calls := (grp.pc + 8#64, grp.nextId) :: grp.calls }) ∧
     (fOpc w = 0x04 → RSpec.legal { d := .unused, gen := false } l.vregs w w1 = true →
       ∀ pc n r, grp.calls = (pc, n) :: r → (∀ e ∈ grp.recon, e.id < n) →
         RunsGroup (.ret g w w1) s s1 g { grp with pc := pc, calls := r })) ∧
  (∀ (s : State) (g : GRef) (w w1 : W64) (s1 : State) (l : Launch) (b : Block) (grp : Group),
     g.ok = true → Issues s g w s1 l b grp →
     ((fOpc w = 0x02 ∧ legalC true w = true ∧ grp.takes w ≠ 0#64 ∧ grp.takes w ≠ grp.active ∧ 32 ≤ grp.recon.length →
       ∃ t, exec (.jump g w w1) s = .next t ∧ FaultsWith s1 t g.core g.slot grp.blk (firstLane grp.active) grp.pc 0x24 none) ∧
     (fOpc w = 0x03 ∧ legalC false w = true ∧ 8 ≤ grp.calls.length →
       ∃ t, exec (.call g w w1) s = .next t ∧ FaultsWith s1 t g.core g.slot grp.blk (firstLane grp.active) grp.pc 0x24 none) ∧
     (fOpc w = 0x04 ∧ RSpec.legal { d := .unused, gen := false } l.vregs w w1 = true ∧
         (∀ c ∈ grp.calls.head?, ∃ e ∈ grp.recon, c.2 ≤ e.id) →
       ∃ t, exec (.ret g w w1) s = .next t ∧ FaultsWith s1 t g.core g.slot grp.blk (firstLane grp.active) grp.pc 0x24 none)))

/-- R92, R164-R166: a word that is not legal for its opcode (a vector register at or above VREGS among it), and every
word of a reserved opcode, raises ILLEGAL_INSTRUCTION, recorded at the lowest-numbered active lane. A group-matrix
instruction with an inactive thread raises MATRIX_DIVERGENT and writes nothing. -/
def Obligations.FolioFaults : Prop :=
  ∀ (s : State) (g : GRef) (w w1 : W64) (s1 : State) (l : Launch) (b : Block) (grp : Group),
    g.ok = true → Issues s g w s1 l b grp →
    (∀ c ∈ folioLegalRows,
      (fOpc w = c.2.1 ∧ c.2.2 l.vregs w w1 = false) ∨ (∀ d ∈ folioLegalRows, fOpc w ≠ d.2.1) →
      ∃ t, exec (c.1 g w w1) s = .next t ∧ FaultsWith s1 t g.core g.slot grp.blk (firstLane grp.active) grp.pc 0x24 none) ∧
    (∀ c ∈ folioLegalRows, 0x60 ≤ c.2.1 → fOpc w = c.2.1 → c.2.2 l.vregs w w1 = true → grp.active ≠ BitVec.allOnes 64 →
      ∃ t, exec (c.1 g w w1) s = .next t ∧ FaultsWith s1 t g.core g.slot grp.blk (firstLane grp.active) grp.pc 0x22 none)

/-- R101, R104, R105, R138, R152-R155: MEET waits, TALLY raises a counter, WAITC waits on one, RDC and SPECR read,
CINV empties the Carrel. -/
def Obligations.FolioSync : Prop :=
  ∀ (s : State) (g : GRef) (w w1 : W64) (s1 : State) (l : Launch) (b : Block) (grp : Group),
    g.ok = true → Issues s g w s1 l b grp →
    let t := grp.takes w
    let next : Group := { grp with pc := grp.pc + fLen w }
    (fOpc w = 0x05 → RSpec.legal { d := .unused } l.vregs w w1 = true →
      (t = 0#64 → RunsGroup (.meet g w w1) s s1 g next) ∧
      (t ≠ 0#64 → let u := (s1.flushLaunch g.core l).lsDone g.core grp.blk grp.pipe
        (u.te g.core).launch.isSome = true → RunsGroup (.meet g w w1) s u g
          { next with meets := grp.meets ++ [{ pc := grp.pc, mask := t, under := grp.under }], active := grp.active &&& ~~~t })) ∧
    (fOpc w = 0x08 → RSpec.legal { d := .num 32 } l.vregs w w1 = true →
      (t = 0#64 → RunsGroup (.tally g w w1) s s1 g next) ∧
      (t ≠ 0#64 → ∃ u, exec (.tally g w w1) s = .next u ∧ { u with tes := s1.tes } = s1 ∧
        u = ((s1.setGrp g (some next.settle)).setBlk g.core grp.blk
          (some { b with ctrs := tset 0#32 b.ctrs (fD w) (b.ctr (fD w) + 1#32), races := b.races.filter fun e => e.2.1 ≠ grp.pipe })).endWaits
            g.core grp.blk ∧
        ∃ b', u.blk? g.core grp.blk = some b' ∧ b'.ctr (fD w) = b.ctr (fD w) + 1#32 ∧ ∀ k, k ≠ fD w → b'.ctr k = b.ctr k)) ∧
    (fOpc w = 0x0E → RSpec.legal { d := .num 32, b := .uniImm } l.vregs w w1 = true →
      let v := grp.srcB .int w w1 0
      (t = 0#64 ∨ 0 ≤ (b.ctr (fD w) - v).toInt → RunsGroup (.waitc g w w1) s s1 g next) ∧
      (t ≠ 0#64 ∧ (b.ctr (fD w) - v).toInt < 0 → exec (.waitc g w w1) s =
        .next (s1.setGrp g (some { grp with waitc := some (fD w, v, t, grp.pc + fLen w) })))) ∧
    (fOpc w = 0x0F → RSpec.legal { u := 2, a := .num 32 } l.vregs w w1 = true →
      ∃ (u : State) (x : Group), exec (.rdc g w w1) s = .next u ∧ OnlyGroup s1 u g ∧ RanTo u g w grp x ∧
        WritesReg w grp x fun _ => b.ctr (fA w)) ∧
    (fOpc w = 0x09 → RSpec.legal { u := if fA w = 6 then 0 else 2, a := .num 7 } l.vregs w w1 = true →
      let cyc := (s1.siteCycle (s1.coreSite g.core)).toNat
      (fA w = 0 ∧ grp.takesU w = true → RunsGroup (.specr g w w1) s s1 g
        { next with u := tset 0#32 grp.u (fD w) (BitVec.ofNat 32 cyc), cycHi := BitVec.ofNat 32 (cyc / 2 ^ 32) }) ∧
      (fA w ≠ 0 ∨ grp.takesU w = false → ∃ (u : State) (x : Group),
        exec (.specr g w w1) s = .next u ∧ OnlyGroup s1 u g ∧ RanTo u g w grp x ∧ WritesReg w grp x fun lane =>
          if fA w = 1 then grp.cycHi else BitVec.ofNat 32 (if fA w = 2 then s1.coreSite g.core else if fA w = 3 then grp.pipe
            else if fA w = 4 then g.slot else if fA w = 5 then grp.blk else lane))) ∧
    (fOpc w = 0x0A → RSpec.legal { d := .unused } l.vregs w w1 = true →
      (t = 0#64 → RunsGroup (.cinv g w w1) s s1 g next) ∧
      (t ≠ 0#64 → exec (.cinv g w w1) s =
        .next ((s1.setTe g.core { s1.te g.core with carrel := [] }).setGrp g (some next.settle))))

/-- R104, R106, R156, R157, R158: CPY. Parameters outside R157 fault, and a row outside the block's allocation; a copy of
nothing raises its counter at once; any other has its source rows translated and checked, and joins those of its block. -/
def Obligations.FolioCpy : Prop :=
  ∀ (s : State) (g : GRef) (w w1 : W64) (s1 : State) (l : Launch) (b : Block) (grp : Group),
    g.ok = true → fOpc w = 0x0C → Issues s g w s1 l b grp → cpyLegal l.vregs w w1 = true →
    let u := fun i => (grp.rdU i).toNat
    let rows := fMod w % 2 = 1
    let src := u (fA w) + u (fA w + 1) * 2 ^ 32
    let n := if rows then u (fC w + 1) else 1
    let sp := if rows then u (fC w + 2) else 0
    let dp := if rows then u (fC w + 3) else 0
    let fits := src % 16 = 0 ∧ u (fB w) % 16 = 0 ∧ u (fC w) % 16 = 0 ∧ sp % 16 = 0 ∧ dp % 16 = 0 ∧
      if rows then u (fC w) ≤ 65536 ∧ n ≤ 65535 else u (fC w) ≤ 0x400000
    let next : Group := { grp with pc := grp.pc + fLen w }
    (grp.takes w = 0#64 → RunsGroup (.cpy g w w1) s s1 g next) ∧
    (grp.takes w ≠ 0#64 → ¬fits → ∃ t, exec (.cpy g w w1) s = .next t ∧
      FaultsWith s1 t g.core g.slot grp.blk (firstLane (grp.takes w)) grp.pc 0x24 none) ∧
    (grp.takes w ≠ 0#64 → fits → u (fC w) = 0 ∨ n = 0 → exec (.cpy g w w1) s =
      .next ((s1.setGrp g (some next.settle)).raiseCtr g.core grp.blk (fD w))) ∧
    (grp.takes w ≠ 0#64 → fits → u (fC w) ≠ 0 ∧ n ≠ 0 → (∃ j, j < n ∧ inAlloc l b (u (fB w) + j * dp) (u (fC w)) = false) →
      ∃ t a, exec (.cpy g w w1) s = .next t ∧ FaultsWith s1 t g.core g.slot grp.blk (firstLane (grp.takes w)) grp.pc 0x21 (some (a, true))) ∧
    (grp.takes w ≠ 0#64 → fits → u (fC w) ≠ 0 ∧ n ≠ 0 → b.copies.length < 64 →
      (∀ j, j < n → inAlloc l b (u (fB w) + j * dp) (u (fC w)) = true) →
      let c : Copy :=
        { src := src, dst := u (fB w), rowBytes := u (fC w), rows := n, srcPitch := sp, dstPitch := dp, ctr := fD w
          hint := fMod w / 2 % 4, lane := firstLane (grp.takes w), slot := g.slot, pc := grp.pc, issued := (s1.te g.core).now
          l0 := (s1.te g.core).l0.filter fun e => e.1 % 8 = grp.pipe, own := (s1.te g.core).l0Own.filter fun e => e.1 % 8 = grp.pipe }
      ∀ t pieces x, RowsChecked (s1.runWho l.q l.run) l b c s1 (List.range n) t pieces x →
        exec (.cpy g w w1) s = .next ((t.setBlk g.core grp.blk
          (some { b with copies := b.copies ++ [{ c with pieces := pieces, fault := x }] })).setGrp g (some next.settle)))

/-- R139, R142, R144, R145: LDM and LDRO. When every lane's address translates and every lane's bytes are there, the
data registers of those lanes take them; an acquire has its cache action. R139, R141, R142, R158: LDLS. Offsets
within the block's allocation read the local store (a byte that a copy in flight writes may be its old or its new
value), and an acquire has its cache action; an offset outside the allocation raises PROTECTION_FAULT. -/
def Obligations.FolioLoads : Prop :=
  (∀ c ∈ ([(.ldm, 0x50, false, [0, 1]), (.ldro, 0x51, true, [0])] : List ((GRef → W64 → W64 → Instr) × Nat × Bool × List Nat)),
   ∀ (s : State) (g : GRef) (w w1 : W64) (s1 : State) (l : Launch) (b : Block) (grp : Group)
     (k u : State) (ps : List (Nat × List Piece)) (vals : List (Nat × Bytes)),
     g.ok = true → fOpc w = c.2.1 → Issues s g w s1 l b grp →
     MSpec.legal { u := true, ords := c.2.2.2, sub := fun sub size => decide (sub = 0 ∨ sub = 1 ∧ size ≤ 1) } l.vregs w w1 = true →
     s1.acquireWaits l w = false →
     s1.glanes (s1.runWho l.q l.run) l b .read false (szBytes w) ((grp.accLanes w).map fun x => (x, grp.gaddr w w1 x)) [] = (k, .ok ps) →
     (∀ e ∈ ps, ∀ p ∈ e.2, s1.mopnHeld (s1.runWho l.q l.run) p.1 p.2 = false) →
     (s.fetchPieces (s1.runWho l.q l.run) grp.pipe (fHint w) c.2.2.1 (ps.flatMap fun e => e.2)).2 = true →
     LanesRead (s1.runWho l.q l.run) b grp.pipe (fHint w) c.2.2.1 k ps u vals →
     ∃ (t : State) (x : Group), exec (c.1 g w w1) s = .next t ∧
       OnlyGroup (u.acquire g.core grp.pipe (if fOrd w % 2 = 1 then fScope w else 0)) t g ∧ RanTo t g w grp x ∧
       LoadsInto w grp x (szRegs w) (vals.map fun e => (e.1, wordsOf w e.2))) ∧
  (∀ (s : State) (g : GRef) (w w1 : W64) (s1 : State) (l : Launch) (b : Block) (grp : Group),
     g.ok = true → fOpc w = 0x52 → Issues s g w s1 l b grp →
     MSpec.legal { u := true, global := false, ords := [0, 1], sub := fun sub size => decide (sub = 0 ∨ sub = 1 ∧ size ≤ 1) } l.vregs w w1 = true →
     s1.acquireWaits l w = false →
     ((∀ x ∈ grp.accLanes w, inAlloc l b (grp.laddr w w1 x) (szBytes w) = true) →
       ∃ (t : State) (x : Group) (bytes : Nat → Bytes), exec (.ldls g w w1) s = .next t ∧
         OnlyGroup (s1.acquire g.core grp.pipe (if fOrd w % 2 = 1 then fScope w else 0)) t g ∧ RanTo t g w grp x ∧
         LoadsInto w grp x (szRegs w) ((grp.accLanes w).map fun y => (y, wordsOf w (bytes y))) ∧
         ∀ y ∈ grp.accLanes w, (bytes y).length = szBytes w ∧ ∀ i, i < szBytes w →
           (∀ c ∈ b.copies, copySrcsOf c (grp.laddr w w1 y + i) = []) →
           (bytes y).getD i 0#8 = s1.arc.rdLs (lsKey (s1.coreSlotIx l.q.core) (grp.laddr w w1 y + i))) ∧
     (∀ y, (grp.accLanes w).find? (fun x => !inAlloc l b (grp.laddr w w1 x) (szBytes w)) = some y →
       ∃ t, exec (.ldls g w w1) s = .next t ∧
         FaultsWith s1 t g.core g.slot grp.blk y grp.pc 0x21 (some (grp.laddr w w1 y, true))))

/-- R139, R146, R236: STM. When every lane's address translates, what precedes a release is done and the sectors take
their bytes, the group goes on; under a SYSTEM release of a pinned launch the sectors outside the panel are written
back at once (R145). R236: a store that does not fill its sector gathers in the write-combining buffer: it joins the
entry of its launch, or opens one while fewer than 64 are open; memory does not change yet. R139, R141, R146, R147:
STLS writes each lane's bytes into the local store; bytes that no lane covers stay, and a lane's bytes that no other
lane covers, and that no LOPR of another pipe has written since the last release (R150), are its own. An offset outside
the allocation raises PROTECTION_FAULT. -/
def Obligations.FolioStores : Prop :=
  (∀ (s : State) (g : GRef) (w w1 : W64) (s1 : State) (l : Launch) (b : Block) (grp : Group)
     (k k2 k3 u : State) (ps : List (Nat × List Piece)),
     g.ok = true → fOpc w = 0x53 → Issues s g w s1 l b grp →
     MSpec.legal { ords := [0, 2], sub := fun sub _ => decide (sub = 0) } l.vregs w w1 = true →
     let who := s1.runWho l.q l.run
     let all := ps.flatMap fun e => e.2
     let sys := who.pinned && decide (2 ≤ fOrd w) && decide (fScope w = 4)
     let tb := k3.storeTable (ps.map fun e => (e.2, grp.storeBytes w e.1))
     s1.glanes who l b .write false (szBytes w) ((grp.accLanes w).map fun x => (x, grp.gaddr w w1 x)) [] = (k, .ok ps) →
     State.releaseGate s k g l grp w = (k2, none) →
     (∀ p ∈ all, k2.mopnHeld who p.1 p.2 = false) →
     (sys = true → k2.throughFault who all = none) →
     k2.storeRoom who all = (k3, .ok ()) →
     tb.1.storeAll who l.run tb.2 (if fHint w = 3 then 0 else fHint w) sys = (u, .ok ()) →
     (u.te g.core).launch.isSome = true →
     let out := if sys then ((tb.2.map fun e => e.1 / 128).eraseDups).filter fun x => !isHbm (x * 128) && !isWin (x * 128) else []
     RunsGroup (.stm g w w1) s (out.foldl (fun a x => (a.wbSector who.site (x * 128) (some l.q)).1) (u.ownStore g.core grp.pipe tb.2)) g
       { grp with pc := grp.pc + fLen w, relWait := false }) ∧
  (∀ (s : State) (w : Who) (run sec hint : Nat) (tb : List (Nat × W8)),
     isWin (sec * 128) = false → tb.length ≠ 128 →
     (s.arc.wcb.find? fun e => e.mine w run sec) = none → (s.arc.wcb.filter fun e => e.site = w.site).length < 64 →
     ∃ t, s.storeSector w run sec tb hint false = (t, .ok ()) ∧
       t.arc = { s.arc with wcb := s.arc.wcb ++ [{ site := w.site, sector := sec, run := run, pinned := w.pinned, part := w.part,
                                                   cid := w.cid, bytes := tb, hint := hint }] } ∧
       t.regs = s.regs ∧ t.runs = s.runs ∧ t.queues = s.queues ∧ t.net = s.net ∧
       ∀ c, (t.te c).groups = (s.te c).groups ∧ (t.te c).blocks = (s.te c).blocks) ∧
  (∀ (s : State) (g : GRef) (w w1 : W64) (s1 : State) (l : Launch) (b : Block) (grp : Group) (k2 : State),
     g.ok = true → fOpc w = 0x54 → Issues s g w s1 l b grp →
     MSpec.legal { global := false, ords := [0, 2], sub := fun sub _ => decide (sub = 0) } l.vregs w w1 = true →
     let n := szBytes w
     let at_ := fun x => grp.laddr w w1 x
     let key := fun off => lsKey (k2.coreSlotIx g.core) off
     ((∀ x ∈ grp.accLanes w, inAlloc l b (at_ x) n = true) → State.releaseGate s s1 g l grp w = (k2, none) →
       ∃ t, exec (.stls g w w1) s = .next t ∧ t.grp? g = some ({ grp with pc := grp.pc + fLen w, relWait := false } : Group).settle ∧
         { t with tes := k2.tes, arc := k2.arc, free := k2.free } = k2 ∧ { t.arc with ls := k2.arc.ls } = k2.arc ∧
         (∀ c j, (t.blk? c j).map (fun b => { b with races := [] }) = (k2.blk? c j).map fun b => { b with races := [] }) ∧
         (∀ h : GRef, h ≠ g → t.grp? h = k2.grp? h) ∧
         (∀ a, (∀ x ∈ grp.accLanes w, a < key (at_ x) ∨ key (at_ x) + n ≤ a) → t.arc.rdLs a = k2.arc.rdLs a) ∧
         ∀ x ∈ grp.accLanes w, ∀ i, i < n → (∀ y ∈ grp.accLanes w, y ≠ x → at_ x + i < at_ y ∨ at_ y + n ≤ at_ x + i) →
           (∀ e ∈ ((k2.blk? g.core grp.blk).getD b).races, e.1 = at_ x + i → e.2.1 = grp.pipe ∨ e.2.2 ≠ none) →
           t.arc.rdLs (key (at_ x + i)) = (grp.storeBytes w x).getD i 0#8) ∧
     (∀ y, (grp.accLanes w).find? (fun x => !inAlloc l b (at_ x) n) = some y →
       ∃ t, exec (.stls g w w1) s = .next t ∧ FaultsWith s1 t g.core g.slot grp.blk y grp.pc 0x21 (some (at_ y, true))))

/-- R139, R146, R149: MOPN. In a repeatable launch with room each lane's operation joins the run's log; in a pinned
one an integer operation on panel memory goes to the home of its address, and a pair add or FP32 add of panel memory
goes out as a REDUCE packet (R326). R139, R146, R149: MOPR. In a pinned launch each lane's operation goes to the home
of its address, and the group waits for as many old values; in a repeatable launch it is an illegal instruction.
R139, R149, R150: LOPR. The lanes' operations are performed one after another in some order: each old value goes into
the lane's data registers, and the local store takes the operation's value; bytes that a STLS of another pipe or a copy
writes meanwhile may read as their former value (R150, R158). -/
def Obligations.FolioAtomics : Prop :=
  (∀ (s : State) (g : GRef) (w w1 : W64) (s1 : State) (l : Launch) (b : Block) (grp : Group) (k k2 : State)
     (ps : List (Nat × List Piece)),
     g.ok = true → fOpc w = 0x55 → Issues s g w s1 l b grp →
     MSpec.legal { ords := [0, 2], sub := subOk true false false, regs := atomRegs } l.vregs w w1 = true →
     let who := s1.runWho l.q l.run
     let ops := ps.map fun e => grp.atomOf w e.1 (pieceAddr e.2)
     let next : Group := { grp with pc := grp.pc + fLen w, relWait := false }
     s1.glanes who l b .atomic true (szBytes w) ((grp.accLanes w).map fun x => (x, grp.gaddr w w1 x)) [] = (k, .ok ps) →
     State.releaseGate s k g l grp w = (k2, none) →
     (who.run ≠ 0 → ∀ r, k2.run? who.run = some r →
       Run.space { r with logs := r.logs ++ ops.map fun op => { op := op, remote := isRemote op.addr } } ≤ r.res * 65536 →
       ∃ t, exec (.mopn g w w1) s = .next t ∧ t.grp? g = some next.settle ∧ (∀ h : GRef, h ≠ g → t.grp? h = k2.grp? h) ∧
         { t with tes := k2.tes, runs := k2.runs } = k2 ∧
         t.run? who.run = some { r with logs := r.logs ++ ops.map fun op => { op := op, remote := isRemote op.addr } } ∧
         ∀ id, id ≠ who.run → t.run? id = k2.run? id) ∧
     (who.run = 0 → fSub w ≠ 0xA → fSub w ≠ 0xB → (∀ op ∈ ops, isRemote op.addr = false ∧ k2.atomicHeld who false op = false) →
       ∃ t v, exec (.mopn g w w1) s = .next t ∧ OnlyGroup v t g ∧ t.grp? g = some next.settle ∧
         Sends k2 v (ops.map fun op => (.atom,
           { line := op.addr / 512, req := who.site, src := who.site, dst := homeOf op.addr, part := who.part, cid := who.cid
             op := op, dest := .mopn l.run, run := 0 }))) ∧
     (who.run = 0 → fSub w = 0xA ∨ fSub w = 0xB → (∀ op ∈ ops, isRemote op.addr = false ∧ k2.atomicHeld who true op = false) →
       ∃ t, exec (.mopn g w w1) s = .next t ∧ t.grp? g = some next.settle ∧ (∀ h : GRef, h ≠ g → t.grp? h = k2.grp? h) ∧
         { t with tes := k2.tes, mesh := k2.mesh } = k2 ∧ { t.mesh with redOut := k2.mesh.redOut, mopn := k2.mesh.mopn } = k2.mesh ∧
         t.mesh.redOut = k2.mesh.redOut ++ ops.map fun op =>
           (who.site, k2.nextHop who.site (homeOf op.addr), mopnPkt who.site who.part who.cid op))) ∧
  (∀ (s : State) (g : GRef) (w w1 : W64) (s1 : State) (l : Launch) (b : Block) (grp : Group) (k k2 : State)
     (ps : List (Nat × List Piece)),
     g.ok = true → fOpc w = 0x56 → Issues s g w s1 l b grp →
     MSpec.legal { ords := [0, 1, 2, 3], sub := subOk false true false, regs := atomRegs } l.vregs w w1 = true →
     let who := s1.runWho l.q l.run
     let ops := ps.map fun e => (e.1, grp.atomOf w e.1 (pieceAddr e.2))
     (who.pinned = false → ∃ t, exec (.mopr g w w1) s = .next t ∧
       FaultsWith s1 t g.core g.slot grp.blk (firstLane grp.active) grp.pc 0x24 none) ∧
     (who.pinned = true → s1.acquireWaits l w = false →
       s1.glanes who l b .atomic true (szBytes w) ((grp.accLanes w).map fun x => (x, grp.gaddr w w1 x)) [] = (k, .ok ps) →
       State.releaseGate s k g l grp w = (k2, none) → ps ≠ [] →
       (∀ op ∈ ops, isRemote op.2.addr = false ∧ k2.atomicHeld who false op.2 = false) →
       ∃ t v, exec (.mopr g w w1) s = .next t ∧ OnlyGroup v t g ∧
         t.grp? g = some ({ grp with pc := grp.pc + fLen w, relWait := false, await := ps.length
                                     acq := if fOrd w % 2 = 1 then fScope w else 0 } : Group).settle ∧
         Sends k2 v (ops.map fun op => (.atom,
           { line := op.2.addr / 512, req := who.site, src := who.site, dst := homeOf op.2.addr, part := who.part, cid := who.cid
             op := op.2, dest := .lane g.core g.slot op.1 (fD w) l.run, run := 0 }))) ∧
     (who.pinned = true → s1.acquireWaits l w = false → grp.accLanes w = [] → State.releaseGate s s1 g l grp w = (k2, none) →
       RunsGroup (.mopr g w w1) s (k2.acquire g.core grp.pipe (if fOrd w % 2 = 1 then fScope w else 0)) g
         { grp with pc := grp.pc + fLen w, relWait := false, await := 0, acq := 0 })) ∧
  (∀ (s : State) (g : GRef) (w w1 : W64) (s1 : State) (l : Launch) (b : Block) (grp : Group) (k2 : State),
     g.ok = true → fOpc w = 0x57 → Issues s g w s1 l b grp →
     MSpec.legal { global := false, ords := [0, 1, 2, 3], sub := subOk false false true, regs := atomRegs } l.vregs w w1 = true →
     s1.acquireWaits l w = false →
     (∀ y ∈ grp.accLanes w, grp.laddr w w1 y % szBytes w = 0 ∧ inAlloc l b (grp.laddr w w1 y) (szBytes w) = true) →
     State.releaseGate s s1 g l grp w = (k2, none) →
     ∃ (t : State) (x : Group) (order : List Nat) (u : State) (vals : List (Nat × Nat)),
       exec (.lopr g w w1) s = .next t ∧ order.Perm (grp.accLanes w) ∧
       LocalOps w w1 grp ((k2.blk? g.core grp.blk).getD b) (k2.coreSlotIx g.core) k2 order u vals ∧
       (let v := u.acquire g.core grp.pipe (if fOrd w % 2 = 1 then fScope w else 0)
        { t with tes := v.tes, free := v.free } = v ∧ (∀ h : GRef, h ≠ g → t.grp? h = v.grp? h) ∧
        ∀ c j, (t.blk? c j).map (fun b => { b with races := [] }) = (v.blk? c j).map fun b => { b with races := [] }) ∧
       RanTo t g w { grp with relWait := false } x ∧
       LoadsInto w { grp with relWait := false } x (szRegs w)
         (vals.map fun e => (e.1, (List.range (szRegs w)).map fun j => BitVec.ofNat 32 (e.2 / 2 ^ (32 * j)))))

/-- R151, R145: FENCE. Once the release it may have is done, its acquire takes the cache action and the group goes
on. R145, R110: the cache action of an acquire: none at GROUP scope; from BLOCK scope on the issuing pipe's L0 holds
no line; at SYSTEM scope the slice drops its clean copies of memory outside the panel too, and nothing else. -/
def Obligations.FolioFences : Prop :=
  (∀ (s : State) (g : GRef) (w w1 : W64) (s1 : State) (l : Launch) (b : Block) (grp : Group) (k2 : State),
     g.ok = true → fOpc w = 0x0B → Issues s g w s1 l b grp → fenceLegal w = true →
     ((grp.accLanes w).isEmpty = true → RunsGroup (.fence g w w1) s s1 g { grp with pc := grp.pc + 8#64 }) ∧
     ((grp.accLanes w).isEmpty = false → State.releaseGate s s1 g l grp w = (k2, none) → k2.acquireWaits l w = false →
       RunsGroup (.fence g w w1) s (k2.acquire g.core grp.pipe (if fOrd w % 2 = 1 then fScope w else 0)) g
         { grp with pc := grp.pc + 8#64, relWait := false })) ∧
  (∀ (s : State) (core pipe scope : Nat),
     (scope = 0 → s.acquire core pipe scope = s) ∧
     (scope ≠ 0 → pipe < 8 → (∀ line, stampAt ((s.acquire core pipe scope).te core).l0 (ownKey pipe line) = none)) ∧
     (scope ≠ 0 → scope ≠ 4 → { s.acquire core pipe scope with tes := s.tes } = s) ∧
     (scope = 4 → { s.acquire core pipe scope with tes := s.tes, arc := s.arc } = s ∧
       { (s.acquire core pipe scope).arc with wcache := s.arc.wcache, lines := s.arc.lines } = s.arc ∧
       ∀ x ∈ (s.acquire core pipe scope).arc.lines, x.site = s.coreSite core → isOut (x.line * 512) = true →
         ∀ k, k < 4 → x.valid.testBit k = true → x.dirty.testBit k = true))

/-- R84, R118: a write of 1 to CLR_FLASH, CLR_DET, CLR_FAULT or CLR_PERF of MEX_CTRL or TEX_CTRL zeroes the registers
it names, and no other register. R114: an L0 or the Carrel with a parity error holds nothing of what was written
before, and the error is logged CORRECTED. R83, R117: an engine that has stopped is free again. R67: a gang's window
closes and its members begin. -/
def Obligations.EngineEvents : Prop :=
  (∀ (s : State) (core me : Nat), core < 256 → me < 4 →
     let z := fun ks : List Nat => ks.map fun k => (k, 0#64)
     SetsRegs (.mexClrFlash core me) s (z [mexB core me + 0x10, mexB core me + 0x18, mexB core me + 0x20, mexB core me + 0x28]) ∧
     SetsRegs (.mexClrDet core me) s (z [mexB core me + 0x38]) ∧
     SetsRegs (.mexClrPerf core me) s (z [mexB core me + 0x48, mexB core me + 0x50]) ∧
     SetsRegs (.texClrFlash core) s (z [texB core + 0x10, texB core + 0x18, texB core + 0x20, texB core + 0x28]) ∧
     SetsRegs (.texClrFault core) s (z [texB core + 0x38, texB core + 0x40, texB core + 0x48]) ∧
     SetsRegs (.texClrPerf core) s (z [texB core + 0x58, texB core + 0x60])) ∧
  (∀ (s : State) (core : Nat), core < 256 →
     (∀ unit, unit < 9 → exec (.l0ParityError core unit) s = .next ((s.setTe core
         (if unit < 8 then { s.te core with l0 := (s.te core).l0.filter fun e => e.1 % 8 ≠ unit }
           else { s.te core with carrel := [] })).report
         { cls := 2, site := s.coreSite core, unit := s.coreSlot core * 8 + 4, status := 0, sev := 0, reporter := s.coreSite core
           part := s.corePart core })) ∧
     (∀ eng, eng < 7 → (s.eng core eng).stopping = true → ∃ t, exec (.engineStopped core eng) s = .next t ∧
       t.eng core eng = { s.eng core eng with stopping := false } ∧ t.arc = s.arc ∧ t.runs = s.runs ∧ t.tes = s.tes ∧
       ∀ q, ((t.q q).cmds.map fun c => (c.raw, c.phase, c.run)) = ((s.q q).cmds.map fun c => (c.raw, c.phase, c.run))) ∧
     (∀ gang g, gang < 32 → s.gangs.find? (fun g => g.core = core && g.gang = gang) = some g →
       exec (.gangWindowClose core gang) s = .next (g.members.foldl (fun s e =>
         match s.engCmd core e with
         | some (id, q, c) => if (s.run? id).any (fun r => r.phase == .running) then s.matRun q c else s
         | none => s)
         { s with gangs := s.gangs.map fun x => if x.core = core && x.gang = gang then { x with formed := true } else x })))

/-- R113, R114, R81, R82, R116: what a detection or a parity error does to the command that its engine runs: the
report, then the re-run on the same engine, the re-run on the partner, the loss of the C-die, or DATA_POISON. -/
def Obligations.Detections : Prop :=
  ∀ (s : State) (core eng id : Nat) (q : QRef) (c : Cmd), core < 256 → s.engCmd core eng = some (id, q, c) → q.ok = true →
    let x := s.coreSite core
    let rep : Nat → Nat → Nat → Nat → Report := fun cls st sev aux =>
      { cls := cls, site := x, unit := s.coreSlot core * 8 + eng, status := st, sev := sev, reporter := x
        part := s.corePart core, cid := s.qCid q, tag := hTag c.raw, eng := q.eng, q := q.q, aux := BitVec.ofNat 64 aux }
    (eng < 4 → c.phase ≠ .committed → ∀ kind, kind < 3 →
      let u := (((s.sat (mexB core eng + 0x38) (16 * kind) 16 1).report (rep 1 0x11 1 kind)).killRun id).requeue q c
      exec (.matrixDetection core eng kind) s = .next (
        if c.handed then u.cdieLost x 2 (u.coreSlot core)
        else if c.detections = 0 then (u.modCmd q c fun c => { c with detections := 1 }).refreshQ q
        else ((u.sat (mexB core eng + 0x38) 48 16 1).modCmd q c fun c =>
          { c with detections := c.detections + 1, handed := true }).refreshQ q)) ∧
    (eng = 4 → q.eng = 4 → ∀ kind, kind < 3 →
      (hClass c.raw = 1 → exec (.teDetection core kind) s = .next ((s.report (rep 1 0x10 2 kind)).fail q c { code := 0x10 })) ∧
      (hClass c.raw ≠ 1 → c.phase ≠ .committed →
        let u := ((s.report (rep 1 0x11 1 kind)).killRun id).requeue q c
        exec (.teDetection core kind) s = .next (
          if c.detections = 0 then (u.modCmd q c fun c => { c with detections := 1 }).refreshQ q else u.cdieLost x 2 (u.coreSlot core)))) ∧
    (eng < 5 → c.phase ≠ .committed ∨ hClass c.raw = 1 → ∀ off,
      exec (.lsParityError core eng off) s =
        .next ((s.report { rep 2 0x10 2 0 with addr := BitVec.ofNat 64 off }).fail q c { code := 0x10 }))

/-- R88-R91, R95: LAUNCH captures its descriptor, its argument words and the queue's rank; BLOCK_DISPATCH takes the
next block in linear order and places its groups in free slots; at group start every register holds its preloaded
value, and those not listed read 0. -/
def Obligations.GroupStart : Prop :=
  (∀ (s u : State) (q : QRef) (c : Cmd) (bs : Bytes), q.ok = true → s.ready q 0x30 = some c →
    let d := c.eff
    let s' := if tPool d = 0 then s else s.setPool q.core (tPool d - 1)
    (if tArgWords d = 0 then u = s' ∧ bs = []
      else s'.readVa (s'.runWho q c.run) .read (tArg d) (4 * tArgWords d) 0 = (u, .ok bs)) →
    tGridX d * tGridY d * tGridZ d ≠ 0 →
    let l : Launch :=
      { run := c.run, q := q, prog := tProg d, gridX := tGridX d, gridY := tGridY d, gridZ := tGridZ d, groups := tGroups d
        vregs := tVregs d, lsBlock := tLsBlock d, arenaBase := tArenaBase d, arenaSize := tArenaSize d, maxBlocks := tMaxBlocks d
        args := (words4 (tArgWords d) bs).map (BitVec.ofNat 32), rank := (u.beginWork q c).fld (queBcast q) 8 8 }
    exec (.launch q) s = .next ((u.beginWork q c).setTe q.core { launch := some l })) ∧
  ∀ (s : State) (core : Nat) (l : Launch), core < 256 → (s.te core).launch = some l → l.next < l.total →
    (s.te core).blocks.length < l.maxResident →
    (placeGroups l.gpp l.groups ((s.te core).groups.map (·.1))).length = (s.te core).groups.length + l.groups →
    ∃ (t : State) (blk j : Nat) (slots : List Nat), exec (.blockDispatch core) s = .next t ∧
      { t with tes := s.tes, regs := s.regs } = s ∧ (∀ k, k ≠ texB core → t.reg k = s.reg k) ∧
      (t.te core).launch = some { l with next := l.next + 1 } ∧
      s.blk? core blk = none ∧
      t.blk? core blk = some { x := l.next % l.gridX, y := l.next / l.gridX % l.gridY, z := l.next / l.gridX / l.gridY, arena := j } ∧
      (∀ b, b ≠ blk → t.blk? core b = s.blk? core b) ∧
      slots.length = l.groups ∧ slots.Nodup ∧
      (∀ p ∈ slots, p < 64 ∧ s.grp? { core := core, slot := p } = none) ∧
      (∀ p, p ∉ slots → t.grp? { core := core, slot := p } = s.grp? { core := core, slot := p }) ∧
      ∀ i, i < l.groups → ∃ g, t.grp? { core := core, slot := slots.getD i 0 } = some g ∧ g.blk = blk ∧ g.idx = i ∧
        g.active = BitVec.allOnes 64 ∧ g.exited = 0#64 ∧ g.pc = BitVec.ofNat 64 l.prog ∧ g.pipe = slots.getD i 0 / 8 ∧
        (∀ lane, lane < 64 → g.rdV 0 lane = BitVec.ofNat 32 (64 * i + lane)) ∧
        (∀ k lane, k ≠ 0 → lane < 64 → g.rdV k lane = 0#32) ∧
        g.rdU 0 = BitVec.ofNat 32 (l.next % l.gridX) ∧ g.rdU 1 = BitVec.ofNat 32 (l.next / l.gridX % l.gridY) ∧
        g.rdU 2 = BitVec.ofNat 32 (l.next / l.gridX / l.gridY) ∧ g.rdU 3 = BitVec.ofNat 32 i ∧
        g.rdU 4 = BitVec.ofNat 32 l.rank ∧ g.rdU 5 = BitVec.ofNat 32 core ∧
        g.rdU 6 = BitVec.ofNat 32 (l.arenaBase + j * l.lsBlock * 4096) ∧ g.rdU 7 = 0#32 ∧
        (∀ k, g.rdU (8 + k) = l.args.getD k 0#32) ∧ (∀ k, g.rdP k = 0#64) ∧ ∀ h r c, g.rdAcc h r c = 0#32

/-- R93, R101, R90: BLOCK_RETIRE frees the block once its groups have exited and its copies have completed, and for a
pinned launch's last block its writes are performed; MEET_COMPLETE lets every path that waits go on at the instruction
after its MEET, lowest address first, and the generation advances. R103, R105, R116: a barrier or a counter wait past its time raises BARRIER_TIMEOUT, naming the
live thread that has not arrived, or the thread that waits. R104, R106: a copy whose rows have been read and written leaves
its block and raises its counter; one with a fault that kills the context raises it, at its thread. -/
def Obligations.BlockProgress : Prop :=
  (∀ (s : State) (core blk : Nat) (b : Block), core < 256 → blk < 16 → s.blk? core blk = some b →
     (∀ l, (s.te core).launch = some l → b.copies = [] → (∀ e ∈ s.groupsOf core blk, e.2.exited = BitVec.allOnes 64) →
       (l.retired + 1 = l.total → (s.flushLaunch core l).writesPending core l = false ∧
         ((s.run? l.run).any (fun r => r.cls == 1) = true → ((s.flushLaunch core l).te core).launch.isSome = true)) →
       ∃ u : State, exec (.blockRetire core blk) s =
           .next (if l.retired + 1 = l.total then u.launchDone core { l with retired := l.retired + 1 } else u) ∧
         { u with tes := s.tes, regs := s.regs } = s ∧ (∀ k, k ≠ texB core → u.reg k = s.reg k) ∧
         (u.te core).launch = some { l with retired := l.retired + 1 } ∧ u.blk? core blk = none ∧
         (∀ x, x ≠ blk → u.blk? core x = s.blk? core x) ∧
         ∀ slot g, s.grp? { core := core, slot := slot } = some g → g.blk = blk → u.grp? { core := core, slot := slot } = none) ∧
     ((∀ e ∈ s.groupsOf core blk, ~~~e.2.exited &&& ~~~e.2.arrived = 0#64) → (∃ e ∈ s.groupsOf core blk, e.2.arrived ≠ 0#64) →
       (∃ l, (s.te core).launch = some l ∧ s.writesPending core l = false) →
       ∃ t, exec (.meetComplete core blk) s = .next t ∧ { t with tes := s.tes } = s ∧
         t.blk? core blk = some { b with gen := b.gen + 1, races := [] } ∧
         ∀ e ∈ s.groupsOf core blk, ∃ (g : Group) (order : List MeetPath), (e.1, g) ∈ s.groupsOf core blk ∧ order.Perm g.meets ∧
           order.Pairwise (fun p q => p.pc.toNat ≤ q.pc.toNat) ∧
           t.grp? { core := core, slot := e.1 } = some ({ g with meets := [], resume := order.map fun p => { p with pc := p.pc + 8#64 } } : Group).settle ∧
           (g.pipe < 8 → ∀ line, stampAt (t.te core).l0 (ownKey g.pipe line) = none))) ∧
  (∀ (s : State) (core blk : Nat), core < 256 → blk < 16 →
     (∀ slot g, (∃ e ∈ s.groupsOf core blk, e.2.arrived ≠ 0#64) →
       (s.groupsOf core blk).find? (fun e => e.2.live &&& ~~~e.2.arrived != 0#64) = some (slot, g) →
       ∃ t, exec (.barrierTimeout core blk) s = .next t ∧
         FaultsWith s t core slot blk (firstLane (g.live &&& ~~~g.arrived)) (g.pcOf (firstLane (g.live &&& ~~~g.arrived))) 0x23 none) ∧
     (∀ (g : GRef) (grp : Group) (k : Nat) (v : W32) (m pc : W64), g.ok = true → s.grp? g = some grp → grp.waitc = some (k, v, m, pc) →
       ∃ t, exec (.waitcTimeout g) s = .next t ∧ FaultsWith s t g.core g.slot grp.blk (firstLane m) grp.pc 0x23 none) ∧
     ∀ (l : Launch) (b : Block) (idx : Nat) (c : Copy),
       (s.te core).launch = some l → s.blk? core blk = some b → b.copies[idx]? = some c →
       let who := s.runWho l.q l.run
       (∀ p ∈ c.pieces.flatten, s.mopnHeld who p.1 p.2 = false) →
       (s.fetchMissing who c.hint (fun _ => none) false c.pieces.flatten).2 = true →
       (∀ u, s.asyncAll who b core c c.pieces 0 = (u, none) → exec (.copyComplete core blk idx) s =
         .next ((u.setBlk core blk (some { b with copies := b.copies.eraseIdx idx })).raiseCtr core blk c.ctr)) ∧
       ∀ u code a, s.asyncAll who b core c c.pieces 0 = (u, some (code, a)) → killsContext code = true →
         ∃ t, exec (.copyComplete core blk idx) s = .next t ∧ FaultsWith u t core c.slot blk c.lane c.pc code (some (a, false)))

/-- R67, R73: MATMUL begins once its checks have passed. Without a GANG value, and in a re-run, it does its work at
its own pace; with one it opens a formation window or joins one that it matches. -/
def Obligations.MatmulBegins : Prop :=
  ∀ (s : State) (q : QRef) (c : Cmd) (r : Run), q.ok = true → s.ready q 0x20 = some c → s.run? c.run = some r →
    let u := s.beginWork q c
    (mGang c.eff = 0 ∨ c.reruns ≠ 0 → exec (.matmul q) s = .next (u.matRun q c)) ∧
    (mGang c.eff ≠ 0 → c.reruns = 0 → u.gangs.find? (fun g => g.core = q.core && g.gang = mGang c.eff) = none →
      let g : Gang :=
        { core := q.core, gang := mGang c.eff, members := [r.onEng], m := mM c.eff, k := mK c.eff, n := mN c.eff
          share := mShareSet c.eff, opA := (mA c.eff).raw, opB := (mB c.eff).raw, formed := false }
      exec (.matmul q) s = .next (({ u with gangs := u.gangs ++ [g] }).setFld (mexB q.core r.onEng) 3 1 1)) ∧
    (mGang c.eff ≠ 0 → c.reruns = 0 → ∀ g, u.gangs.find? (fun g => g.core = q.core && g.gang = mGang c.eff) = some g →
      (g.formed = true ∨ g.matches c.eff = false → exec (.matmul q) s = .next (u.matRun q c)) ∧
      (g.formed = false → g.matches c.eff = true →
        let join := fun x : Gang => if x.core = q.core && x.gang = mGang c.eff then { x with members := x.members ++ [r.onEng] } else x
        let v := ({ u with gangs := u.gangs.map join } : State).setFld (mexB q.core r.onEng) 3 1 1
        exec (.matmul q) s = .next (if g.members.length = 3 then v.runGang q.core (mGang c.eff) else v)))

/-- R172, R175, R194, R387: a doorbell of an enabled queue of an ACTIVE partition is taken when the ring or the FIFO
has room for it, and dropped and counted otherwise; one of a LOST queue is ignored and counted for its core; a broadcast rings the doorbell of every member of its group.
R472, R197, R195, R393: writes of QUE_CFG, QUE_BCAST and the CR_HEADs. The held fields of QUE_CFG are taken only
while ENABLE was 0, ring sizes outside 4 to 16 as the nearer limit, and ENABLE = 0 leaves KILLED. QUE_BCAST is
ignored while ENABLE = 1, and a 257th member is refused. -/
def Obligations.QueueDoorbells : Prop :=
  (∀ (s : State) (q : QRef) (v : W64), q.ok = true →
     let new := v.toNat % 2 ^ 32
     let head := s.fld (queHead q) 0 32
     let live := s.qEnabled q = true ∧ s.partActive q = true
     let fits := wsub new head ≤ 2 ^ s.fld (queCfg q) 8 5 ∧ wsub new (s.fld (queTail q) 0 32) < 2 ^ 31
     let lost := fun (c : Instr) (u : State) => ∃ t, exec c s = .next t ∧ { t with cores := u.cores, boot := u.boot } = u ∧
       (t.coreX q.core).dropped = (u.coreX q.core).dropped + 1
     let took := fun (u : State) => (if u.qState q = 7 then u.modQ q fun x => { x with heldDb := x.heldDb + 1 } else u).refreshQ q
     (s.qState q = 9 → lost (.queTailDoorbell q v) s) ∧
     (s.qState q ≠ 9 → s.qSop q = true → exec (.queTailDoorbell q v) s = .next (s.setFld (queTail q) 0 32 new)) ∧
     (s.qState q ≠ 9 → s.qSop q = false → live → fits →
       exec (.queTailDoorbell q v) s = .next (took (s.setFld (queTail q) 0 32 new))) ∧
     (s.qState q ≠ 9 → s.qSop q = false → ¬(live ∧ fits) → DropsDoorbell (.queTailDoorbell q v) s q) ∧
     (let d := putFld (s.q q).sop 960 64 v.toNat
      let u := s.modQ q fun x => { x with sop := d }
      let full := 8 ≤ wsub head (s.fld (queDone q) 0 32) + u.roomIn q
      (s.qSop q = false → exec (.queSop15Doorbell q v) s = .next u) ∧
      (s.qSop q = true → s.qState q = 9 → lost (.queSop15Doorbell q v) u) ∧
      (s.qSop q = true → s.qState q ≠ 9 → live → ¬full → exec (.queSop15Doorbell q v) s =
        .next (took ((u.modQ q fun x => { x with cmds := x.cmds ++ [{ raw := d, submit := head }] }).bump (queHead q) 0 32 1))) ∧
      (s.qSop q = true → s.qState q ≠ 9 → ¬(live ∧ ¬full) → exec (.queSop15Doorbell q v) s = .next (u.dbErr (.que q)))) ∧
     ∀ p grp, p < 16 → grp < 16 →
       exec (.bcastTail p grp v) s = .next (((s.bcastMembers p grp).filter fun q => !s.qSop q).foldl (fun s q => s.tailWrite q v)
         (s.setFld (bcastB p grp) 0 32 new)) ∧
       let d := putFld (s.groupSop p grp) 960 64 v.toNat
       exec (.bcastSop15 p grp v) s = .next (((s.bcastMembers p grp).filter fun q => s.qSop q).foldl (fun s q => s.sopPush q d)
         (s.setGroupSop p grp d))) ∧
  (∀ (s : State) (q : QRef) (v : W64), q.ok = true →
     let k := queCfg q
     let held := ((s.setFld k 8 5 (max 4 (min 16 (fldOf v 8 5)))).setFld k 16 5 (max 4 (min 16 (fldOf v 16 5)))).setFld k 32 16 (fldOf v 32 16)
     let u := (if s.qEnabled q then s else held).setFld k 1 3 (fldOf v 1 3)
     (exec (.queCfgWrite q v) s = .next ((if v.getLsbD 1 = false ∧ s.qState q = 8 then u.setQState q 0 else u).refreshQ q)) ∧
     (s.qEnabled q = true → exec (.queBcastWrite q v) s = .next s) ∧
     (s.qEnabled q = false →
       let others := (s.bcastMembers ((s.corePart q.core).getD 0) (fldOf v 1 4)).filter fun x => x ≠ q
       (v.getLsbD 0 = true ∧ 256 ≤ others.length → DropsDoorbell (.queBcastWrite q v) s q) ∧
       (v.getLsbD 0 = false ∨ others.length < 256 → SetsRegs (.queBcastWrite q v) s [(queBcast q,
         putFld (putFld (putFld (s.reg (queBcast q)) 0 5 v.toNat) 8 8 (v.toNat / 2 ^ 8)) 16 16 (v.toNat / 2 ^ 16))])) ∧
     exec (.queCrHeadWrite (.que q) v) s = .next ((s.setFld (queCrHead q) 0 32 v.toNat).refreshQ q) ∧
     ∀ p n, p < 16 → n < 4 →
       let u := s.setFld (svcB p n + 0x40) 0 32 v.toNat
       exec (.queCrHeadWrite (.svc p n) v) s =
         .next (if s.fld (svcB p n + 0x48) 0 4 = 4 then u.setFld (svcB p n + 0x48) 0 4 2 else u))

/-- R198, QUE_RESUME: a HALTED queue goes on, with SKIP in buffer mode after the rest of its entry has been dropped;
a BLOCKED one retries its records; any other state is unchanged. R220, QUE_ABORT: an abort of a fetched command
leaves for its engine, one of a descriptor accepted and not fetched is held, up to 16, and any other has no effect;
ALL names every descriptor accepted now. What an abort that reaches the engine does. -/
def Obligations.QueueResumes : Prop :=
  (∀ (s : State) (q : QRef), q.ok = true →
     (s.qState q ≠ 5 → s.qState q ≠ 6 → exec (.queResume q) s = .next s ∧ exec (.queResumeSkip q) s = .next s) ∧
     (s.qState q = 5 → exec (.queResume q) s = .next (((s.setQState q 1).setFld (queStatus q) 8 8 0).advance q) ∧
       (s.qSop q = true → exec (.queResumeSkip q) s = exec (.queResume q) s) ∧
       (s.qSop q = false → exec (.queResumeSkip q) s = .next ((s.skipEntry q).resumeQ q))) ∧
     (s.qState q = 6 → exec (.queResume q) s = .next ((s.retryRecords (.que q)).refreshQ q) ∧
       exec (.queResumeSkip q) s = exec (.queResume q) s)) ∧
  (∀ (s : State) (q : QRef), q.ok = true →
     (∀ n i, n < 2 ^ 32 → i < 2 ^ 16 →
       let fetched := (s.q q).cmds.any fun c => !c.pour && c.submit = n && c.index = i
       let posted := s.qSop q = false ∧ (between (s.fld (queHead q) 0 32) (s.fld (queTail q) 0 32) n = true ∨
         ∃ e ∈ (s.q q).ents, e.submit = n ∧ e.next ≤ i ∧ i < e.count)
       (fetched = true → exec (.queAbort q n i) s = .next (s.modQ q fun x => { x with aborts := x.aborts ++ [(n, i)] })) ∧
       (fetched = false → ¬posted → exec (.queAbort q n i) s = .next s) ∧
       (fetched = false → posted → (s.q q).pend.length < 16 →
         exec (.queAbort q n i) s = .next (s.modQ q fun x => { x with pend := x.pend ++ [(n, i)] })) ∧
       (fetched = false → posted → 16 ≤ (s.q q).pend.length → DropsDoorbell (.queAbort q n i) s q)) ∧
     exec (.queAbortAll q) s = .next (s.modQ q fun x =>
       { x with aborts := x.aborts ++ ((x.cmds.filter fun c => !c.pour).map fun c => (c.submit, c.index))
                allBelow := if s.qSop q then x.allBelow else some (s.fld (queTail q) 0 32) }) ∧
     ((s.q q).aborts = [] → exec (.abortReachesEngine q) s = .next s) ∧
     ∀ n i r, (s.q q).aborts = (n, i) :: r →
       let u := s.modQ q fun x => { x with aborts := r }
       ((u.q q).cmds.find? (fun c => !c.pour && c.submit = n && c.index = i) = none → exec (.abortReachesEngine q) s = .next u) ∧
       ∀ c, (u.q q).cmds.find? (fun c => !c.pour && c.submit = n && c.index = i) = some c →
         let did : State → Prop := fun t => exec (.abortReachesEngine q) s = .next t
         let seen : State := u.modCmd q c fun c => { c with abortSeen := true }
         let aborted := u.fail q c { code := 1 }
         (c.phase = .queued → did (if u.mayRecord q then aborted else seen)) ∧
         (c.phase ≠ .queued → hOpc c.raw = 3 →
           did (((((u.q q).cmds.filter fun e => e.pour && e.phase != .queued).foldl (fun s e => s.judgeOne q e) u).endPour q).fail q c
             { code := 1 })) ∧
         (c.phase ≠ .queued → hOpc c.raw ≠ 3 →
           (c.phase = .committed ∨ hClass c.raw = 1 → did seen) ∧
           (c.phase ≠ .committed → hClass c.raw ≠ 1 → hClass c.raw ≠ 2 ∨ u.run? c.run = none → did aborted) ∧
           (c.phase ≠ .committed → hClass c.raw = 2 → ∀ r, u.run? c.run = some r →
             (r.arrived = true → did (u.coordAbort r.coord r.inst (lMembers c.raw))) ∧
             (r.arrived = false → ∀ a k, u.xlat (u.who q) .write (lCoord c.raw) = (a, .ok k) →
               did ((a.coordAbort k.pa (lInst c.raw) (lMembers c.raw)).fail q c { code := 1 })))))

/-- R172, R173: an entry that has been read raises HEAD; one of COUNT 0 completes at its fetch, a non-zero reserved
field is an illegal entry, and any other joins the entries whose descriptors are read. A block of up to 16
descriptors joins the queue's commands. -/
def Obligations.QueueFetch : Prop :=
  ∀ (s u : State) (q : QRef), q.ok = true → s.fetches q = true →
    let head := s.fld (queHead q) 0 32
    (head ≠ s.fld (queTail q) 0 32 → ∀ bs,
      s.readVa (s.who q) .read (s.fld (queRingBase q) 0 55 + 16 * (head % 2 ^ s.fld (queCfg q) 8 5)) 16 0 = (u, .ok bs) →
      let e := ofBytes bs
      let count := e / 2 ^ 64 % 2 ^ 16
      let h := u.bump (queHead q) 0 32 1
      let k := h.modQ q fun x => { x with pend := x.pend.filter fun a => !(a.1 = head && decide (count ≤ a.2)) }
      (e / 2 ^ 55 % 2 ^ 9 ≠ 0 ∨ e / 2 ^ 80 % 2 ^ 48 ≠ 0 →
        exec (.submissionEntryReturn q) s = .next (h.fetchFault q head 0 { code := 0x24 })) ∧
      (e / 2 ^ 55 % 2 ^ 9 = 0 → e / 2 ^ 80 % 2 ^ 48 = 0 → count = 0 →
        exec (.submissionEntryReturn q) s = .next ((k.bump (queDone q) 0 32 1).refreshQ q)) ∧
      (e / 2 ^ 55 % 2 ^ 9 = 0 → e / 2 ^ 80 % 2 ^ 48 = 0 → count ≠ 0 → exec (.submissionEntryReturn q) s =
        .next ((k.modQ q fun x => { x with ents := x.ents ++
          [{ submit := head, buf := e % 2 ^ 55 / 128 * 128, count := count, next := 0 }] }).refreshQ q))) ∧
    (s.aheadFull q false = false → ∀ e rest ds, (s.q q).ents = e :: rest →
      s.readDescs q (min 16 (e.count - e.next)) (e.buf + 128 * e.next) [] = (u, .ok ds) →
      let n := min 16 (e.count - e.next)
      exec (.descriptorBlockReturn q) s = .next ((u.modQ q fun x =>
        { x with cmds := x.cmds ++ ds.mapIdx fun i d => mkCmd x e.submit (e.next + i) false d
                 pend := x.pend.filter fun a => !(a.1 = e.submit && decide (e.next ≤ a.2) && decide (a.2 < e.next + n))
                 ents := if e.next + n < e.count then { e with next := e.next + n } :: rest else rest }).refreshQ q))

/-- R170, R171, R180, R181, R206, R209, R431: a head command that has passed its gates, with an entry of its
completion ring free and admitted by Ledger and Calendar, starts: at once for a queue operation, on a free engine
else. Its indirect fields replace those of the descriptor, and its FOOTPRINT is reserved. NOP completes at its start;
a wait before start that runs out completes the command with WAIT_TIMEOUT. R182, R183, R186, R199: an event record
reaches its slot's home as an INT64 ADD or SET; a wake makes the queue judge its wait again; an arm sets its bit, or
is lost and counted where the bit is set or the queue is LOST or disabled; at the end of HOLDOFF one merged
notification leaves if one arose. -/
def Obligations.QueueStarts : Prop :=
  (∀ (s : State) (q : QRef) (c : Cmd), q.ok = true →
     let x := s.coreSite q.core
     let p := (s.corePart q.core).getD 0
     (∀ (g : State) (cost : Nat), (s.headUpdate q).head q = some c → c.phase = .queued → (s.headUpdate q).mayStart q = true →
       hdrBad q.eng c.pour c.raw = false → c.abortSeen = false → c.poisoned = false → (s.headUpdate q).gates q c = (g, .pass) →
       g.crFree q ≠ 0 → g.ledgerAdmit q (hEnergy c.raw) = some cost → g.calAdmits q = true →
       (isQueueOp (hOpc c.raw) = true → exec (.commandReady q) s = .next (g.startCmd q c cost q.eng)) ∧
       (isQueueOp (hOpc c.raw) = false →
         let e := if c.handed then (if q.eng % 2 = 0 then q.eng + 1 else q.eng - 1) else q.eng
         (g.eng q.core e).run = 0 → (g.eng q.core e).stopping = false →
         g.outranked q c.handed e = false →
         exec (.commandReady q) s = .next (g.startCmd q c cost e))) ∧
     (∀ (u v k : State) (d : Desc) (pa : Nat), s.head q = some c → c.phase = .started →
       s.indirect q c.raw (indFields (hOpc c.raw)).zipIdx c.raw = (u, .ok d) →
       (if hRecEn c.raw then u.slotPa q (u.substSlot q (hRsEvt c.raw) (hRecSlot c.raw)) .atomic = (v, .ok pa) ∧ v.mirrorB pa = false
         else v = u ∧ pa = 0) →
       let m := v.modCmd q c fun c => { c with eff := d, recPa := pa }
       m.opCheck q (m.runWho q c.run) d = (k, none) →
       (hClass c.raw = 1 →
         exec (.indirectReadReturn q) s = .next (k.modCmd q c fun c => { c with phase := .checked })) ∧
       (hClass c.raw ≠ 1 →
         let kx := k.coreSite q.core
         let kp := (k.corePart q.core).getD 0
         let n := hFoot c.raw
         exec (.indirectReadReturn q) s = .next (
           if k.fld (arcTent kx kp) 0 16 < n ∨ 1536 < n then k.fail q c { code := 0x26 }
           else if k.roomFor kx kp n = true then
             ((k.reserve kx kp n).modRun c.run fun r => { r with res := n }).modCmd q c fun c => { c with phase := .checked }
           else k.modCmd q c fun c => { c with phase := .waiting }))) ∧
     (s.head q = some c → c.phase = .waiting → s.roomFor x p (hFoot c.raw) = true →
       exec (.reservationGranted q) s = .next (((s.reserve x p (hFoot c.raw)).modRun c.run fun r => { r with res := hFoot c.raw }).modCmd q c
         fun c => { c with phase := .checked })) ∧
     (s.head q = some c → c.phase = .queued → c.atHead = true → c.gates = false → hWaitEn c.raw = true ∨ hArmed c.raw = true →
       s.mayStart q = true → s.mayRecord q = true → exec (.waitTimeout q) s = .next (s.fail q c { code := 0x27 })) ∧
     (s.ready q 0 = some c →
       exec (.nop q) s = .next (((s.sendEvents q c).completeAt q c { code := okStatus c } x (s.siteCycle x)).advance q))) ∧
  (∀ (s : State) (q : QRef), q.ok = true →
     (∀ e : EvtOp, e.ok = true →
       let u : State := { s with net := { s.net with evts := s.net.evts.erase e } }
       exec (.eventRecord e) s = .next (u.homeMsg .atom
         { line := e.addr / 512, req := homeOf e.addr, src := homeOf e.addr, dst := homeOf e.addr, alt := true
           op := { sub := if e.isSet then 8 else 0, size := 8, addr := e.addr, val := e.val, cmp := 0#64 } })) ∧
     (q ∈ s.net.wakes → ∀ c,
       let u : State := { s with net := { s.net with wakes := s.net.wakes.erase q, watches := s.net.watches.filter fun w => w.2 ≠ q } }
       (u.head q = none → exec (.eventWake q) s = .next u) ∧
       (u.head q = some c → c.phase = .queued → u.mayStart q = true →
         (∀ g f, u.gates q c = (g, .fail f) → exec (.eventWake q) s = .next (g.fail q c f)) ∧
         (∀ g, (u.gates q c = (g, .pass) ∨ u.gates q c = (g, .wait)) → exec (.eventWake q) s = .next (g.refreshQ q)))) ∧
     (∀ id, id < 256 → (q, id) ∈ s.net.arms →
       let key := queArm q (id / 64)
       let lost := s.bit key (id % 64) = true ∨ s.qState q = 9 ∨ s.qEnabled q = false
       ∃ t, exec (.armDelivery q id) s = .next t ∧ { t with regs := s.regs, net := { t.net with arms := s.net.arms } } = s ∧
         t.net.arms = s.net.arms.erase (q, id) ∧ (∀ k, k ≠ key → k ≠ queStatus q → t.reg k = s.reg k) ∧
         (lost → t.reg key = s.reg key ∧
           t.reg (queStatus q) = putFld (s.reg (queStatus q)) 32 16 (min 0xFFFF (s.fld (queStatus q) 32 16 + 1))) ∧
         (¬lost → t.reg (queStatus q) = s.reg (queStatus q) ∧
           ∀ j, j < 64 → (t.reg key).getLsbD j = (decide (j = id % 64) || (s.reg key).getLsbD j))) ∧
     ∀ c : CrTarget, c.ok = true →
     ((s.recX c).holdoff = false → exec (.notifyHoldoffExpiry c) s = .next s) ∧
     ((s.recX c).holdoff = true →
       let u := s.setRecX c { s.recX c with holdoff := false, notifyDue := false }
       exec (.notifyHoldoffExpiry c) s = .next (if (s.recX c).notifyDue = true then u.sendNotify c else u)))

/-- R188, R189, R209: SPAWN starts and takes what room there is. With room held in every target, the checks and reads
follow and it posts an entry, or its descriptors, into every target. When its wait runs out it posts nothing,
releases its room and completes with WAIT_TIMEOUT. -/
def Obligations.Spawns : Prop :=
  ∀ (s : State) (q : QRef) (c : Cmd), q.ok = true →
    (s.ready q 2 = some c → exec (.spawn q) s = .next ((s.modCmd q c fun c => { c with phase := .running }).takeRoom q c.eff)) ∧
    (s.head q = some c → c.phase = .running → hOpc c.raw = 2 →
      (s.roomAll q c.eff = false → exec (.spawnRoomTimeout q) s = .next (s.fail q c { code := 0x27 })) ∧
      (∀ (u v : State) (ds : List (Desc × Bool)), (s.takeRoom q c.eff).roomAll q c.eff = true →
        let h := s.takeRoom q c.eff
        let ts := if spCount c.eff = 0 then [] else h.spawnTargets q c.eff
        h.spawnEntryFault q ts = (u, none) →
        (if ∃ t ∈ ts, u.qSop t = true then u.readDescs q (spCount c.eff) (spSrc c.eff) [] = (v, .ok ds) else v = u ∧ ds = []) →
        (∀ d ∈ ds, d.2 = false) →
        let w := ts.foldl (fun s t => s.spawnPost q c.eff ds t) (v.modQ q fun x => { x with room := [] })
        exec (.spawnRoomGranted q) s = .next (((w.sendEvents q c).completeAt q c { code := okStatus c }
          (w.coreSite q.core) (w.siteCycle (w.coreSite q.core))).advance q)))

/-- R190-R192: CALL_PATTERN waits while LOCK is set, and raises LIVE and reads the header else; a block whose header,
or whose CRC, is not the captured one tears the pour, and any other joins the queue before its CALL_PATTERN; the wait
for LOCK that runs out completes it with WAIT_TIMEOUT and no descriptor runs. R193, R209, R215: PATCH sets LOCK and
goes on to its writes when LIVE is 0, else once it has drained; a wait that runs out clears the LOCK it has set and
completes it with WAIT_TIMEOUT. The last write of a pinned command done, PATCH clears LOCK, and the event record, the
arm and the record leave. -/
def Obligations.PatternCommands : Prop :=
  (∀ (s : State) (q : QRef) (c : Cmd), q.ok = true →
     (s.ready q 3 = some c → ∀ (u : State) (pa v : Nat), s.patWord q (patAddr c.eff) = (u, .ok (pa, v)) →
       let p : Pour := { pat := patAddr c.eff, expect := patExpect c.eff }
       (v / 2 ^ 32 % 2 = 1 → exec (.callPattern q) s = .next (u.modQ q fun x => { x with pour := some { p with locked := true } })) ∧
       (v / 2 ^ 32 % 2 = 0 → exec (.callPattern q) s = .next ((((u.writePa (u.who q) pa (toBytes 8 ((v + 1) % 2 ^ 64)) 0).1.modCmd q c
         fun c => { c with phase := .running }).modQ q fun x => { x with pour := some { p with live := true } }).pourHeader q { p with live := true }))) ∧
     (∀ p, (s.q q).pour = some p →
       (s.ready q 3 = some c → p.locked = true →
         exec (.pourLockTimeout q) s = .next ((s.modQ q fun x => { x with pour := none }).fail q c { code := 0x27 })) ∧
       (s.callCmd q = some c → p.live = true → p.count ≠ 0 → 16 * p.nextBlock < p.count →
         s.aheadFull q true = false → ∀ (u v : State) (hb bs : Bytes),
         let n := min 16 (p.count - 16 * p.nextBlock)
         s.readVa (s.who q) .read p.pat 64 0 = (u, .ok hb) →
         u.readVa (s.who q) .read (p.pat + 0x800 + 2048 * p.nextBlock) (128 * n) 0 = (v, .ok bs) →
         let same := ofBytes ((hb.drop 4).take 4) = p.gen ∧ ofBytes ((hb.drop 16).take 4) = p.hcrc ∧ crc32c bs = p.table.getD p.nextBlock 0
         (¬same → exec (.pourBlockReturn q) s = .next (v.tearPour q)) ∧
         (same → exec (.pourBlockReturn q) s = .next ((v.modQ q fun x =>
           { x with cmds := insertBefore c ((descsOf n bs).mapIdx fun i d => mkCmd {} c.submit (16 * p.nextBlock + i) true (d, false)) x.cmds
                    pour := some { p with nextBlock := p.nextBlock + 1 } }).refreshQ q))))) ∧
  (∀ (s u : State) (q : QRef) (c : Cmd) (pa v : Nat), q.ok = true →
     (s.ready q 4 = some c → s.patWord q (patAddr c.eff) = (u, .ok (pa, v)) →
       let w := (u.writePa (u.who q) pa (toBytes 8 (nput v 32 1 1)) 0).1.beginWork q c
       (v / 2 ^ 32 % 2 = 1 → exec (.patch q) s = .next u) ∧
       (v / 2 ^ 32 % 2 = 0 → exec (.patch q) s = .next (if v % 2 ^ 32 = 0 then w.patchWrites q c else w)) ∧
       (s.patchHeld q = none → v / 2 ^ 32 % 2 = 1 → exec (.patchWaitTimeout q) s = .next (u.fail q c { code := 0x27 }))) ∧
     (s.patchHeld q = some c → s.patWord q (patAddr c.eff) = (u, .ok (pa, v)) →
       exec (.patchLiveDrained q) s = .next (if v % 2 ^ 32 = 0 then u.patchWrites q c else u) ∧
       exec (.patchWaitTimeout q) s = .next (if v % 2 ^ 32 = 0 then u else (u.patUnlock q (patAddr c.eff)).fail q c { code := 0x27 })) ∧
     ∀ r, s.active q (fun c => hOpc c.raw ≠ 0x30 && hClass c.raw = 1 && c.phase == .committed && (match s.run? c.run with
         | some r => r.phase == .workDone
         | none => false)) = some c → s.run? c.run = some r →
       let w := if hOpc c.raw = 4 then s.patUnlock q (patAddr c.eff) else s.countMoved q c
       exec (.pinnedWritesDone q) s = .next (((w.sendEvents q c).completeAt q c
         { code := if r.poisoned then 0x10 else if r.siteLost then 0x31 else okStatus c } r.timeSite r.time).advance q))

/-- R206-R210, R213-R215, R221: a repeatable run that has done its work commits; a discarded run gives its
reservation back; a full tentative set, or a parity error before the commit point, kills and re-queues the run; a
parity error during the commit poisons what is still on its way; the watchdog aborts a run, a pour among them; the
budget of a pinned command ends it, and that of a launch is a fault of a thread of it (R116). -/
def Obligations.Commits : Prop :=
  ∀ (s : State) (q : QRef) (c : Cmd) (r : Run), q.ok = true →
    (s.head q = some c → s.run? c.run = some r →
      (c.phase = .running → r.phase = .workDone → r.cls = 0 → hOpc c.raw = 0x49 →
        r.unackedLines ≠ [] ∨ s.releasePending q = true → exec (.runCommitPoint q) s = .next s) ∧
      (c.phase = .running → r.phase = .workDone → r.cls = 0 → (hOpc c.raw = 0x49 → r.unackedLines = [] ∧ s.releasePending q = false) →
        let k := engB q.core r.onEng
        let d := if hOpc c.raw = 0x49 then
          s.dropOutN (s.runWho q c.run) (xRowBytes c.eff / 512 + 2) (xSrc c.eff) (xRowBytes c.eff) else s
        let u := if r.onEng < 5 then d.addFlash k r else d
        let v := if r.onEng < 4 then u.setFld (k + 0x30) 0 32 r.amax.toNat else u
        exec (.runCommitPoint q) s = .next ((v.countMoved q c).commitRun q c)) ∧
      (c.phase = .running ∨ c.phase = .checked → c.run ≠ 0 → isQueueOp (hOpc c.raw) = false → hClass c.raw ≠ 1 →
        s.setFull (s.coreSite q.core) = true →
        exec (.tentativeSetWaitExpiry q) s =
          .next ((((s.killRun c.run).requeue q c).sat (arcTentStat (s.coreSite q.core)) 16 16 1).refreshQ q)) ∧
      (r.cls = 0 → hClass c.raw = 0 → hOpc c.raw ≠ 3 → c.phase ≠ .queued → s.callCmd q = none → exec (.commandWatchdog q) s =
        .next ((s.qReport q 0x10 0x01 0 0 (hTag c.raw)).fail q c { code := 0x01 })) ∧
      (r.cls = 2 → r.arrived = true → c.phase ≠ .queued → s.callCmd q = none → recInst s r.coord = r.inst → recState s r.coord = 1 →
        recPrepared s r.coord < recMembers s r.coord → exec (.commandWatchdog q) s =
          .next (((s.qReport q 0x10 0x27 0 0 (hTag c.raw)).putRec r.coord 8 1 5).endMembers r.coord r.inst { code := 0x27 }))) ∧
    (s.callCmd q = some c → (∀ h, s.head q = some h → h.phase = .queued) → s.run? c.run = some r → r.cls = 0 →
      exec (.commandWatchdog q) s = .next ((s.qReport q 0x10 0x01 0 0 (hTag c.raw)).judgeAbort q c)) ∧
    (∀ id, s.run? id = some r → r.phase = .discarding → exec (.discardComplete id) s =
      .next ((s.setFld (arcTent r.site r.part) 16 16 (s.fld (arcTent r.site r.part) 16 16 - r.res)).setRun id none)) ∧
    (∀ id addr isLog, s.run? id = some r → s.cmdOfRun id = some (q, c) →
      (if isLog then ∃ l ∈ r.logs, l.op.addr = addr else addr / 512 ∈ r.tlines) →
      (r.phase = .running ∨ r.phase = .workDone → exec (.tentativeParityError id addr isLog) s =
        .next ((((s.qReport q 0x01 0x11 1 3 (hTag c.raw)).killRun id).requeue q c).refreshQ q)) ∧
      (r.phase = .committed → s.net.msgs.map (poisonMsg id addr isLog) ≠ s.net.msgs → exec (.tentativeParityError id addr isLog) s =
        .next (({ s with net := { s.net with msgs := s.net.msgs.map (poisonMsg id addr isLog) } } : State).modRun id
          fun r => { r with poisoned := true }))) ∧
    (s.active q (fun c => hClass c.raw = 1 && c.phase == .committed && (match s.run? c.run with
        | some r => r.cls == 1 && (r.phase == .workDone || (r.phase == .running && decide (hOpc c.raw ≠ 4)))
        | none => false)) = some c →
      ((∀ l, (s.te q.core).launch = some l → l.run ≠ c.run) → exec (.pinnedOverrun q) s = .next (s.fail q c { code := 0x28 })) ∧
      ∀ l, (s.te q.core).launch = some l → l.run = c.run →
        (∀ slot g, (s.te q.core).groups.findSome? (fun e => e.2.map fun g => (e.1, g)) = some (slot, g) →
          ∃ t, exec (.pinnedOverrun q) s = .next t ∧
            FaultsWith s t q.core slot g.blk (firstLane g.live) (g.pcOf (firstLane g.live)) 0x28 none) ∧
        ((s.te q.core).groups.findSome? (fun e => e.2.map fun g => (e.1, g)) = none →
          ∃ t, exec (.pinnedOverrun q) s = .next t ∧ FaultsWith s t q.core 0 0 0 (BitVec.ofNat 64 l.prog) 0x28 none))

/-- R218, R219, R96: at a window boundary the window number rises, and wraps at CAL_CFG.LEN with the frame count;
a core in a maintenance window leaves MAINT; with nothing to kill and no window of its own released, that is all but the
queues' states. A core that waits for MAINT enters it once its engines run nothing; where a self-test waits, its part
begins and may set the split of the pool (the choice of the split is the model's, log entry 104). R446: a request for a self-test starts one or joins it; a part that passes
lets the next wait for a window, the 64th ends the test, and a part that fails loses the C-die. -/
def Obligations.Calendars : Prop :=
  (∀ (s : State) (core : Nat), core < 256 →
     (s.bit (calB core) 16 = true → s.fld (calB core) 0 13 ≠ 0 → (s.coreX core).maintWanted = false →
       let k := calB core + 8
       let a := if (s.coreX core).inWindow then s.leaveMaint core else s
       let w := a.fld k 0 12 + 1
       let u := if s.fld (calB core) 0 13 ≤ w then (a.setFld k 0 12 0).bump k 16 32 1 else a.setFld k 0 12 w
       (∀ m ∈ u.runsOf core, u.calAdmits m.2.1 = true) → u.inReleased core = false →
       exec (.calendarWindowBoundary core) s = .next ((coreQueues core).foldl (fun s q => s.refreshQ q) u)) ∧
     ((s.coreX core).maintWanted = true → (∀ e, e < 7 → (s.eng core e).run = 0) →
       let u := (s.setCoreX core { s.coreX core with maintWanted := false, inWindow := true }).setBit (texB core) 15 true
       let v := (u.setBit (coreSelftest core) 1 false).setBit (coreSelftest core) 2 true
       (u.bit (coreSelftest core) 1 = false ∨ u.boot.absent = true → exec (.maintBegin core) s = .next u) ∧
       (u.bit (coreSelftest core) 1 = true → u.boot.absent = false → ∃ (a : State) (n : Nat), n < 9 ∧
         exec (.maintBegin core) s = .next (a.setPool core n) ∧ { a with free := v.free } = v))) ∧
  (∀ (s : State) (core : Nat), core < 256 →
     let k := coreSelftest core
     (∃ t, exec (.coreSelftestReq core) s = .next t ∧ { t with regs := s.regs } = s ∧ (∀ j, j ≠ k → t.reg j = s.reg j) ∧
       t.bit k 0 = true ∧ (t.bit k 1 = true ∨ t.bit k 2 = true) ∧ t.bit k 2 = s.bit k 2 ∧ t.fld k 16 16 = s.fld k 16 16 ∧
       (s.bit k 1 = true ∨ s.bit k 2 = true → t.bit k 1 = s.bit k 1 ∧ t.fld k 8 7 = s.fld k 8 7) ∧
       (s.bit k 1 = false → s.bit k 2 = false → t.fld k 8 7 = 0)) ∧
     (s.bit k 2 = true →
       exec (.selftestPartDone core false) s = .next ((s.setBit k 2 false).cdieLost (s.coreSite core) 3 (s.coreSlot core)) ∧
       ∃ t, exec (.selftestPartDone core true) s = .next t ∧ { t with regs := s.regs } = s ∧ (∀ j, j ≠ k → t.reg j = s.reg j) ∧
         t.bit k 2 = false ∧ t.fld k 8 7 = (s.fld k 8 7 + 1) % 128 ∧
         (s.fld k 8 7 + 1 < 64 → t.bit k 1 = true ∧ t.bit k 0 = s.bit k 0 ∧ t.fld k 16 16 = s.fld k 16 16) ∧
         (64 ≤ s.fld k 8 7 + 1 → t.bit k 0 = false ∧ t.bit k 1 = s.bit k 1 ∧ t.fld k 16 16 = min 0xFFFF (s.fld k 16 16 + 1))))

/-- R222-R225: a member of a collective begins and its arrival leaves for the coordinator; the record opens, takes it
in or turns it away by its STATE; PREPARED counts, and at MEMBERS the group commit point is set and every member
commits; a KILL acts on the open run. -/
def Obligations.Collectives : Prop :=
  (∀ (s u : State) (q : QRef) (c : Cmd) (a : XAddr), q.ok = true → s.xlat (s.who q) .write (lCoord c.eff) = (u, .ok a) →
    ∀ e ∈ [(Instr.allreduce q, 0x50), (.reduceScatter q, 0x51), (.allgather q, 0x52), (.alltoall q, 0x53)], s.ready q e.2 = some c →
      exec e.1 s = .next ((u.beginWork q c).modRun c.run fun r => { r with coord := a.pa, inst := lInst c.eff })) ∧
  ∀ (s : State) (q : QRef) (c : Cmd) (r : Run), q.ok = true →
    (s.collHead q = some (c, r) →
      let pa := r.coord
      let mem := lMembers c.eff
      (r.arrived = false → r.inst ≠ 0 → s.isLost (homeOf pa) = false →
        (recInst s pa ≠ r.inst ∨ recState s pa = 0 → recState s pa ≠ 1 → recState s pa ≠ 3 →
          exec (.collectiveArrival q) s = .next ((s.openRec pa r.inst mem 0).collJoin c pa r.inst)) ∧
        (recInst s pa = r.inst →
          (recState s pa = 1 → recMembers s pa ≠ mem → exec (.collectiveArrival q) s =
            .next ((s.modRun c.run fun r => { r with arrived := true }).endMembers pa r.inst { code := 0x24 })) ∧
          (recState s pa = 1 → recMembers s pa = mem → exec (.collectiveArrival q) s = .next (s.collJoin c pa r.inst)) ∧
          (recState s pa = 3 → exec (.collectiveArrival q) s = .next ((s.openRec pa r.inst mem (recRun s pa + 1)).collJoin c pa r.inst)) ∧
          (recState s pa = 2 → exec (.collectiveArrival q) s = .next (s.fail q c { code := 0x02 })) ∧
          (recState s pa = 4 → exec (.collectiveArrival q) s = .next (s.fail q c { code := 0x01 })) ∧
          (4 < recState s pa → exec (.collectiveArrival q) s = .next (s.fail q c { code := 0x27 })))) ∧
      (r.phase = .workDone → r.dstTodo = none → r.prepared = false → r.arrived = true → recInst s pa = r.inst → recState s pa = 1 →
        let n := recPrepared s pa + 1
        let u := (s.modRun c.run fun r => { r with prepared := true }).putRec pa 6 2 n
        exec (.collectivePrepared q) s = .next (
          if n < recMembers u pa then u
          else (u.membersOf pa r.inst).foldl (fun s m => (s.countMoved m.2.1 m.2.2).commitRun m.2.1 m.2.2) (u.putRec pa 8 1 2)))) ∧
    (∀ k, s.net.kills.find? (fun k => k.1 = q) = some k → exec (.collectiveKill q) s =
      .next (({ s with net := { s.net with kills := s.net.kills.erase k } } : State).coordKill k.2.1 k.2.2.1 k.2.2.2))

/-- R252-R254, R274, R309: a transfer reads its index list, checks its whole walk, has what it needs from outside the
panel and its tentative lines, then copies its rows and has done its work; a walk that finds a fault ends it before any
byte is written. PREFETCH asks for its lines and commits at its start; FLUSH_RANGE sends its flushes and has done its
work. -/
def Obligations.Moves : Prop :=
  ∀ (s : State) (q : QRef) (c : Cmd), q.ok = true →
    let w := s.runWho q c.run
    let d := c.eff
    let done := fun r : Run => { r with phase := .workDone }
    (∀ e ∈ [(Instr.copy q, 0x40), (.fill q, 0x41), (.gather q, 0x42), (.scatter q, 0x43)], s.ready q e.2 = some c →
      ∀ i ix, s.readIdx w d = (i, .ok ix) →
        (∀ k f, i.xferWalk w d ix = (k, some f) → exec e.1 s = .next (k.fail q c f)) ∧
        ∀ k p t r, i.xferWalk w d ix = (k, none) → k.probeXfer w d ix = (p, true) → p.tentXfer w d ix = (t, .ok ()) →
          (t.beginWork q c).copyWork w d ix = (r, .ok ()) → exec e.1 s = .next (r.modRun c.run done)) ∧
    (∀ v, s.xferWalk w d [] = (v, none) →
      (s.ready q 0x48 = some c → exec (.prefetch q) s = .next (((v.beginWork q c).prefetchWork w d).commitRun q c)) ∧
      (s.ready q 0x49 = some c → exec (.flushRange q) s =
        .next (((v.beginWork q c).flushN w c.run (xRowBytes d / 512 + 2) (xSrc d) (xRowBytes d)).modRun c.run done)))

/-- R258-R262, R265, R269, R272: a message acts when it is the oldest of its channel between its two sites and its way is
open. A request of a slice then reaches its line's home. At a lost home nothing happens, nor does a request of a lost slice for a copy; a busy line keeps it waiting,
and so does a full set of the directory, an entry of which is evicted. Else RD_S is granted E, S or sent on to the owner;
OWN and UPGR invalidate the sharers and are granted M or sent on; FLUSH is answered, or the owner is asked to clean;
ATOM, CMT, LOG and MIR are applied once the home is the line's only holder. -/
def Obligations.HomeRequests : Prop :=
  ∀ (s : State) (m : CMsg), m.ok = true →
    let h := homeOf (m.line * 512)
    let none0 : DirE := { sharers := 0#72, owner := none }
    let mine : DirE := { sharers := 0#72, owner := some m.req }
    let e := (s.dir? m.line).getD none0
    let all := [(Instr.rdS m, MsgTy.rdS), (.own m, .own), (.upgr m, .upgr), (.flush m, .flush), (.atom m, .atom), (.cmt m, .cmt),
      (.log m, .log), (.mir m, .mir)]
    (∀ r ∈ all,
      let u := s.unsend r.2 m
      (s.arrives r.2 m = false → exec r.1 s = .next s) ∧
      (s.arrives r.2 m = true → s.isLost h = true → exec r.1 s = .next u) ∧
      (s.arrives r.2 m = true → s.isLost h = false → s.lineHeld m.line = true →
        exec r.1 s = .next (u.withArc fun a => { a with waitq := a.waitq ++ [(r.2, m)] })) ∧
      (s.arrives r.2 m = true → s.isLost h = false → s.lineHeld m.line = false → s.dir? m.line = none → s.dirFull m.line = true →
        r.2 ≠ .flush → exec r.1 s = .next (u.awaitEntry r.2 m))) ∧
    (s.isLost h = false → s.lineHeld m.line = false → s.arrives .flush m = true →
      let u := s.unsend .flush m
      (e.owner = none → exec (.flush m) s = .next (u.send .fwdAck { m with src := h, dst := m.req, alt := true })) ∧
      ∀ o, e.owner = some o → exec (.flush m) s = .next ((u.send .clean { m with src := h, dst := o }).addTxn .flush .flush m 1)) ∧
    (s.isLost h = false → s.lineHeld m.line = false → s.dir? m.line ≠ none ∨ s.dirFull m.line = false →
      (s.isLost m.req = true → ∀ r ∈ [(Instr.rdS m, MsgTy.rdS), (.own m, .own), (.upgr m, .upgr)], s.arrives r.2 m = true →
        exec r.1 s = .next (s.unsend r.2 m)) ∧
      (s.isLost m.req = false → s.arrives .rdS m = true →
        let u := s.unsend .rdS m
        (s.dir? m.line = none → exec (.rdS m) s = .next ((u.setDir m.line mine).grantLine m .E 0)) ∧
        ∀ d, s.dir? m.line = some d →
          (d.owner = none → exec (.rdS m) s = .next ((u.setDir m.line { d with sharers := d.sharers ||| (1#72 <<< m.req) }).grantLine m .S 0)) ∧
          (d.owner = some m.req → exec (.rdS m) s = .next (u.grantLine m (if d.sharers = 0#72 then .E else .S) 0)) ∧
          ∀ o, d.owner = some o → o ≠ m.req →
            exec (.rdS m) s = .next ((u.send .snpS { m with src := h, dst := o }).addTxn .read .rdS m 1)) ∧
      (∀ r ∈ [(Instr.own m, MsgTy.own, m, 72),
          (.upgr m, .upgr, if e.sharers.getLsbD m.req = true ∨ e.owner = some m.req then m else { m with sectors := 15 }, m.req)],
        s.isLost m.req = false → s.arrives r.2.1 m = true →
        let xs := s.sharersOf e r.2.2.2
        let u := (s.unsend r.2.1 m).sendInvs r.2.2.1 xs m.req false
        (e.owner = none ∨ e.owner = some m.req → exec r.1 s = .next ((u.setDir m.line mine).grantLine r.2.2.1 .M xs.length)) ∧
        ∀ o, e.owner = some o → o ≠ m.req → exec r.1 s = .next ((u.send .snpX { r.2.2.1 with src := h, dst := o, count := xs.length }).addTxn
          .own .own { r.2.2.1 with count := xs.length } 1)) ∧
      ∀ r ∈ [(Instr.atom m, MsgTy.atom), (.cmt m, .cmt), (.log m, .log), (.mir m, .mir)], s.arrives r.2 m = true →
        let xs := s.sharersOf e h
        let u := (s.unsend r.2 m).sendInvs m xs h true
        (e.owner = none ∨ e.owner = some h →
          exec r.1 s = .next (if xs = [] then (s.unsend r.2 m).applySole r.2 m 0#512 0 else u.addTxn .sole r.2 m xs.length)) ∧
        ∀ o, e.owner = some o → o ≠ h →
          exec r.1 s = .next ((u.send .recall { line := m.line, req := m.req, src := h, dst := o, part := m.part, cid := m.cid }).addTxn .sole r.2 m
            (xs.length + 1)))

/-- What a slice that holds a line, dirty or not, sends in answer to each snoop, and the line that it then holds
(R264). -/
def snoopAnswers (s : State) (m : CMsg) (l : ALine) (dirty : Bool) : List (Instr × MsgTy × State × ALine) :=
  let up : CMsg := { m with src := m.dst, dst := homeOf (m.line * 512), dirty := dirty, alt := false }
  let bareUp : CMsg := { up with sectors := 0, mask := 0#512, poison := 0 }
  let fullUp : CMsg := { up with sectors := l.dirty, mask := l.mask, poison := l.poison &&& l.dirty, tag := l.part }
  let copy : CMsg := { m with src := m.dst, dst := m.req, tag := l.part }
  let p := s.poisonMask m.line
  let kept : LState := if l.st = .M ∨ l.st = .E then .E else .S
  [(.snpS m, .snpS, ((s.unsend .snpS m).send .data { copy with granted := .S, wr := 0, mask := 0#512, poison := p &&& m.sectors }).send .fwdAck
      { bareUp with granted := .S }, { l with st := if dirty then .O else .S, valid := l.valid ||| m.sectors }),
   (.snpX m, .snpX, ((s.unsend .snpX m).send .data { copy with granted := .M, sectors := m.sectors ||| l.dirty, wr := l.dirty, mask := l.mask, poison := p &&& (m.sectors ||| l.dirty) }).send .fwdAck
      { bareUp with granted := .M }, { l with st := .I }),
   (.recall m, .recall, (s.unsend .recall m).send .rclData { fullUp with granted := .I }, { l with st := .I }),
   (.clean m, .clean, (s.unsend .clean m).send .rclData { fullUp with granted := kept }, { l.cleaned l.mask with st := kept })]

/-- R263, R266, R267, R269, R210, R249: WB and PRE_WB of the owner bring its dirty bytes to the stacks, and of any other
slice are discarded; both are acknowledged, mirrored lines after their copy. WB_ACK frees the eviction buffer, or cleans
the copy and lets the run's write go on; CMT_ACK drops the T line or the log entry, and the last one completes the commit;
MIR_ACK lets the A home acknowledge. R261, R264, R265, R272: DATA, GRANT and ACK_INV bring a requester nearer its grant,
which it takes once every acknowledgement has come; MISS, FWD_ACK and RCL_DATA end or advance the transaction of their
home. R264, R266: what a slice answers to a snoop. From a copy or its eviction buffer, SNP_S leaves M and O in O and E
and S in S, SNP_X and RECALL take it away, CLEAN leaves M and E in E and O and S in S, with the dirty bytes sent along; a
slice with a grant on its way holds the snoop; one that holds nothing answers MISS. INV drops the copy and is
acknowledged. -/
def Obligations.SliceMessages : Prop :=
  (∀ (s : State) (m : CMsg), m.ok = true →
     let h := homeOf (m.line * 512)
     (∀ r ∈ [(Instr.wb m, MsgTy.wb), (.preWb m, .preWb), (.wbAck m, .wbAck), (.cmtAck m, .cmtAck), (.mirAck m, .mirAck), (.data m, .data),
         (.grant m, .grant), (.ackInv m, .ackInv), (.miss m, .miss), (.fwdAck m, .fwdAck), (.rclData m, .rclData), (.snpS m, .snpS),
         (.snpX m, .snpX), (.recall m, .recall), (.clean m, .clean), (.inv m, .inv)],
       s.arrives r.2 m = false → exec r.1 s = .next s) ∧
     (s.arrives .wb m = true →
       let u := s.unsend .wb m
       (s.isLost h = true → exec (.wb m) s = .next u.drainDir) ∧
       (s.isLost h = false → (∀ e, s.dir? m.line = some e → e.owner ≠ some m.src) →
         exec (.wb m) s = .next (u.send .wbAck { m with src := h, dst := m.src }).drainDir) ∧
       (s.isLost h = false → ∀ e, s.dir? m.line = some e → e.owner = some m.src →
         exec (.wb m) s = .next (((u.stackWrite m.line m.mask m.poison m.tag).setDir m.line { e with owner := none }).mirrorThenAck
           .wb m m.mask).drainDir)) ∧
     (s.arrives .preWb m = true →
       let u := s.unsend .preWb m
       (s.isLost h = true → exec (.preWb m) s = .next u) ∧
       (s.isLost h = false → (∀ e, s.dir? m.line = some e → e.owner ≠ some m.src) →
         exec (.preWb m) s = .next (u.send .wbAck { m with src := h, dst := m.src })) ∧
       (s.isLost h = false → ∀ e, s.dir? m.line = some e → e.owner = some m.src →
         exec (.preWb m) s = .next (((u.stackWrite m.line m.mask m.poison m.tag).setDir m.line
           (if e.sharers = 0#72 then e else { sharers := e.sharers ||| (1#72 <<< m.src), owner := none })).mirrorThenAck .preWb m m.mask))) ∧
     (s.arrives .wbAck m = true →
       let u := s.unsend .wbAck m
       (m.run = 0 → exec (.wbAck m) s = .next (u.withArc fun a =>
         { a with evict := eraseFirst (fun l => l.site == m.dst && l.line == m.line) a.evict })) ∧
       (m.run ≠ 0 →
         let v := u.modRun m.run fun r => { r with preWait := r.preWait.filter (· != m.line), preimages := r.preimages ++ [m.line] }
         (s.line? m.dst m.line = none → exec (.wbAck m) s = .next v) ∧
         ∀ l, s.line? m.dst m.line = some l →
           let y := l.afterPreWb m.mask
           exec (.wbAck m) s = .next (if y.valid = 0 ∧ y.dirty = 0 then v.dropLine m.dst m.line
             else v.withArc fun a => a.modLine m.dst m.line fun _ => y))) ∧
     (s.arrives .cmtAck m = true → ∀ r : Run, s.run? m.run = some r → r.phase = .committed →
       let v := if m.alt then { r with unackedLogs := r.unackedLogs - 1 }
         else { r with unackedLines := r.unackedLines.filter (· != m.line), tent := r.tent.filter fun e => e.1 / 512 ≠ m.line
                       tlines := r.tlines.filter (· != m.line) }
       exec (.cmtAck m) s = .next (((s.unsend .cmtAck m).setRun m.run (some
         { v with poisoned := v.poisoned || decide (m.status = 0x10), siteLost := v.siteLost || decide (m.status = 0x31) })).commitCheck m.run)) ∧
     (s.arrives .mirAck m = true → ∀ t, s.arc.txns.find? (fun t => t.line = m.line && t.kind == .mirror) = some t →
       exec (.mirAck m) s = .next (((s.unsend .mirAck m).homeAck t.ty t.m).endTxn t))) ∧
  (∀ (s : State) (m : CMsg), m.ok = true →
     let h := homeOf (m.line * 512)
     let mshr := fun (f : Mshr → Mshr) (u : State) => u.withArc fun a => { a with mshrs := a.mshrs.map fun y =>
       if y.site == m.dst && y.line == m.line then (f y) else y }
     (s.arrives .data m = true →
       exec (.data m) s = .next ((mshr (fun y => { y with grant := some m }) (s.unsend .data m)).tryGrant m.dst m.line)) ∧
     (s.arrives .grant m = true → exec (.grant m) s = .next ((mshr (fun y => { y with grant := some { m with sectors := 0, wr := 0 } })
       (s.unsend .grant m)).tryGrant m.dst m.line)) ∧
     (s.arrives .ackInv m = true → m.alt = false →
       exec (.ackInv m) s = .next ((mshr (fun y => { y with got := y.got + 1 }) (s.unsend .ackInv m)).tryGrant m.dst m.line)) ∧
     (s.arrives .fwdAck m = true → m.alt = true → exec (.fwdAck m) s =
       .next ((s.unsend .fwdAck m).modRun m.run fun r => { r with unackedLines := r.unackedLines.filter (· != m.line) })) ∧
     ∀ t, s.txn? m.line = some t →
       let e := (s.dir? m.line).getD { sharers := 0#72, owner := none }
       let mine : DirE := { sharers := 0#72, owner := some t.m.req }
       let noData : CMsg := { m with mask := 0#512, poison := 0, sectors := 0 }
       (s.arrives .miss m = true →
         let u := (s.unsend .miss m).sat (arcDirStat h) 0 32 1
         (t.kind = .read → exec (.miss m) s = .next (((u.dropOwner m.line).homeRead t.m).endTxn t)) ∧
         (t.kind = .own → exec (.miss m) s = .next (((u.setDir m.line mine).grantLine t.m .M t.m.count).endTxn t)) ∧
         (t.kind = .flush → exec (.miss m) s = .next (((u.dropOwner m.line).send .fwdAck
           { t.m with src := homeOf (t.m.line * 512), dst := t.m.req, alt := true }).endTxn t)) ∧
         (t.kind = .sole ∨ t.kind = .evict → exec (.miss m) s = .next (u.answered t noData))) ∧
       (s.arrives .fwdAck m = true → m.alt = false →
         (t.kind = .read → exec (.fwdAck m) s = .next (((s.unsend .fwdAck m).setDir m.line
           (if m.dirty then addSharer e t.m.req else addSharer { addSharer e t.m.req with owner := none } m.src)).endTxn t)) ∧
         (t.kind = .own → s.isLost t.m.req = false → exec (.fwdAck m) s = .next (((s.unsend .fwdAck m).setDir m.line mine).endTxn t)) ∧
         (t.kind = .own → s.isLost t.m.req = true → exec (.fwdAck m) s = .next ((((s.unsend .fwdAck m).setDir m.line
           { sharers := 0#72, owner := none }).poisonOwnedLine m.line).endTxn t))) ∧
       (s.arrives .rclData m = true →
         (t.kind = .flush →
           let v := (s.unsend .rclData m).stackWrite m.line m.mask m.poison m.tag
           exec (.rclData m) s = .next (((match m.granted, v.dir? m.line with
             | .S, some d => v.setDir m.line (addSharer { d with owner := none } m.src)
             | .I, some d => v.setDir m.line { d with owner := none }
             | _, _ => v).mirrorThenAck .flush t.m m.mask).endTxn t)) ∧
         (t.kind = .sole ∨ t.kind = .evict → exec (.rclData m) s = .next ((s.unsend .rclData m).answered t m))) ∧
       (s.arrives .ackInv m = true → m.alt = true → t.kind = .sole ∨ t.kind = .evict →
         exec (.ackInv m) s = .next ((s.unsend .ackInv m).answered t noData))) ∧
  (∀ (s : State) (m : CMsg), m.ok = true →
     let x := m.dst
     (∀ l, s.evicting? x m.line = some l → ∀ r ∈ snoopAnswers s m { l with st := .M } true, s.arrives r.2.1 m = true →
       exec r.1 s = .next r.2.2.1) ∧
     (s.evicting? x m.line = none →
       (s.awaitsGrant x m.line = true → ∀ r ∈ [(Instr.snpS m, MsgTy.snpS), (.snpX m, .snpX), (.recall m, .recall), (.clean m, .clean)],
         s.arrives r.2 m = true → exec r.1 s = .next ((s.unsend r.2 m).withArc fun a => { a with mshrs := a.mshrs.map fun y =>
           if y.site == x && y.line == m.line then { y with held := y.held ++ [(r.2, m)] } else y })) ∧
       (s.awaitsGrant x m.line = false →
         (∀ l, s.line? x m.line = some l → ∀ r ∈ snoopAnswers s m l (decide (l.st = .M ∨ l.st = .O)), s.arrives r.2.1 m = true →
           let y := r.2.2.2
           exec r.1 s = .next (if y.st = .I ∨ (y.valid = 0 ∧ y.dirty = 0) then r.2.2.1.dropLine x m.line
             else r.2.2.1.withArc fun a => a.modLine x m.line fun _ => y)) ∧
         (s.line? x m.line = none → ∀ r ∈ [(Instr.snpS m, MsgTy.snpS), (.snpX m, .snpX), (.recall m, .recall), (.clean m, .clean)],
           s.arrives r.2 m = true → exec r.1 s = .next ((s.unsend r.2 m).send .miss
             { m with src := x, dst := homeOf (m.line * 512), alt := false, sectors := 0, mask := 0#512, poison := 0, granted := .I
                      dirty := false })))) ∧
     (s.arrives .inv m = true → exec (.inv m) s = .next (((s.unsend .inv m).dropLine x m.line).withArc (fun a => { a with
       mshrs := a.mshrs.map fun y => if y.site == x && y.line == m.line then { y with inval := true } else y }) |>.send .ackInv
         { m with src := x, dst := m.ack })))

/-- R259, R305-R307: a write of ARC_DIR_PROBE latches the entry of a line of the site, or zeroes. CORE_TLBI_CMD drops
the translations it names, kills the repeatable and collective runs that used one, raises ISSUED and waits for the
pinned ones; the sixteenth pending is the last that is taken, and COMPLETED rises when the oldest ends. CORE_CTX_BASE
is held while a queue of the partition is enabled. -/
def Obligations.Translations : Prop :=
  (∀ (s : State) (site : Nat) (v : W64), site < 72 →
    let line := v.toNat / 2 ^ 9 % 2 ^ 37
    let data := fun lo hi : W64 => [(arcDirProbe site, BitVec.ofNat 64 (line * 2 ^ 9 + 2 ^ 63)), (arcDirData site 0, lo), (arcDirData site 1, hi)]
    (homeOf (line * 512) ≠ site ∨ s.dir? line = none → SetsRegs (.dirProbe site v) s (data 0 0)) ∧
    ∀ e, homeOf (line * 512) = site → s.dir? line = some e →
      let n := e.sharers.toNat + (match e.owner with | some o => o % 128 * 2 ^ 72 + 2 ^ 79 | none => 0)
      SetsRegs (.dirProbe site v) s (data (BitVec.ofNat 64 n) (BitVec.ofNat 64 (n / 2 ^ 64 + 2 ^ 32)))) ∧
  ∀ (s : State) (p cid : Nat) (v : W64), p < 16 → cid < 2 ^ 16 →
    let a := s.reg (coreTlbiVa p)
    (∀ r ∈ [(Instr.tlbiRange p cid, ({ part := p, cid := some cid, range := some (fldOf a 16 39 * 65536, fldOf a 0 16 * 65536) } : InvReq)),
        (.tlbiContext p cid, { part := p, cid := some cid, range := none }), (.tlbiPartition p, { part := p, cid := none, range := none })],
      (16 ≤ (s.part p).tlbis.length → exec r.1 s = .next s) ∧
      ((s.part p).tlbis.length < 16 →
        let u := (s.invalidate r.2).1.bump (coreTlbiStatus p) 0 32 1
        exec r.1 s = .next (u.setPart p { u.part p with tlbis := (u.part p).tlbis ++ [(s.invalidate r.2).2] }))) ∧
    (∀ ids rest, (s.part p).tlbis = ids :: rest →
      ((∃ id ∈ ids, s.stillRuns id = true) → exec (.tlbiComplete p) s = .next s) ∧
      ((∀ id ∈ ids, s.stillRuns id = false) →
        exec (.tlbiComplete p) s = .next ((s.setPart p { s.part p with tlbis := rest }).bump (coreTlbiStatus p) 32 32 1))) ∧
    ((∃ q ∈ s.partQueues p, s.qEnabled q = true) → exec (.coreCtxBaseWrite p v) s = .next s) ∧
    ((∀ q ∈ s.partQueues p, s.qEnabled q = false) →
      SetsRegs (.coreCtxBaseWrite p v) s [(coreCtxBase p, putFld (s.reg (coreCtxBase p)) 16 39 (v.toNat / 2 ^ 16))])

/-- R236, R237, R245-R251: an entry of the write-combining buffer leaves when its age runs out; a parity error of one
is a detection, or DATA_POISON of a pinned launch; a parity error of a sector the slice holds drops it or poisons it.
A temperature sets the refresh band, and a scrub read counts, repairs from the mirror or poisons: a read fails when it is
said to, and all three do where the stored check is not that of the line's bytes (what a line whose reads fail all three
times holds as its check is the model's choice, log entry 117). -/
def Obligations.MemoryEvents : Prop :=
  ∀ (s : State) (site : Nat), site < 72 →
    (∀ idx e, (s.arc.wcb.filter fun e => e.site = site)[idx]? = some e →
      exec (.wcbAgeExpiry site idx) s = .next ((s.sat (arcWcbStat site) 32 32 1).flushWcb e) ∧
      let u := s.withArc fun a => { a with wcb := eraseFirst (fun x => x == e) a.wcb }
      ∀ q c, u.cmdOfRun e.run = some (q, c) →
        (e.pinned = true → exec (.wcbParityError site idx) s =
          .next ((u.qReport q 0x01 0x10 2 3 (hTag c.raw)).fail q c { code := 0x10 })) ∧
        (e.pinned = false → exec (.wcbParityError site idx) s =
          .next ((((u.qReport q 0x01 0x11 1 3 (hTag c.raw)).killRun e.run).requeue q c).refreshQ q))) ∧
    (∀ sector l, s.line? site (sector / 4) = some l → (l.valid ||| l.dirty) &&& (1 <<< (sector % 4)) ≠ 0 →
      let bit := 1 <<< (sector % 4)
      (l.dirty &&& bit = 0 →
        let y := { l with valid := l.valid &&& (15 - bit), poison := l.poison &&& (15 - bit) }
        let u := ((if y.valid = 0 ∧ y.dirty = 0 then s.dropLine site l.line else s.withArc fun a => a.modLine site l.line fun _ => y).sat
          (arcErrStat site) 0 16 1).archiveReport site sector 0 l.part
        exec (.archiveParityError site sector) s = .next (if isOut (sector * 128) then u
          else u.request .rdS site l.line l.part 0 bit 0#512 l.hint)) ∧
      (l.dirty &&& bit ≠ 0 →
        let u := if l.poison.testBit (sector % 4) then s
          else (s.withArc fun a => a.modLine site (sector / 4) fun x => { x with poison := x.poison ||| bit }).sat (arcErrStat site) 16 16 1
        exec (.archiveParityError site sector) s = .next (u.archiveReport site sector 2 l.part))) ∧
    (∀ ctl temp, ctl < 2 → ∃ t, exec (.hbmTempPoll site ctl temp) s = .next t ∧
      let k := hbmStack site ctl
      { t with regs := s.regs, pwr := { t.pwr with temps := s.pwr.temps } } = s ∧ (∀ j, j ≠ k → t.reg j = s.reg j) ∧
      t.fld k 0 8 = min 255 temp ∧ (95 ≤ temp → t.fld k 8 2 = 2) ∧ (temp ≤ 83 → t.fld k 8 2 = 0) ∧
      (s.bit k 10 = false → t.fld k 8 2 = refreshBand (s.fld k 8 2) temp ∧ t.bit k 11 = s.bit k 11) ∧
      (s.bit k 10 = true → (85 ≤ temp → t.bit k 11 = true) ∧ (temp < 83 → t.bit k 11 = false) ∧
        (83 ≤ temp → temp < 85 → t.bit k 11 = s.bit k 11))) ∧
    ∀ line fails other, isHbm (line * 512) = true →
      let k := hbmErr (homeOf (line * 512)) (stackOf (line * 512))
      let u := if (line * 512 + 512) % 2 ^ 36 = 0 then s.sat k 32 16 1 else s
      let failed := fun (n : Nat) (l : Nat) => if s.arc.lineOk l then min 3 n else 3
      let n := failed fails line
      (n = 0 → exec (.scrubRead line fails other) s = .next u) ∧
      (0 < n → n < 3 → exec (.scrubRead line fails other) s = .next ((u.sat k 0 16 n).hbmReport line 0 (n + 8))) ∧
      (n = 3 → ∃ w : State, { w with free := u.free, arc := { w.arc with checks := u.arc.checks } } = u ∧ w.arc.lineOk line = false ∧
        (∀ l, l ≠ line → w.arc.lineOk l = u.arc.lineOk l) ∧
        let v := w.sat k 16 16 1
        (s.otherCopy line = none → exec (.scrubRead line fails other) s = .next ((v.poisonLine line).hbmReport line 2 11)) ∧
        ∀ o, s.otherCopy line = some o →
          let ko := hbmErr (homeOf (o * 512)) (stackOf (o * 512))
          let m := failed other o
          (m < 3 →
            let z := (if m = 0 then v else v.sat ko 0 16 m).withArc fun a => (List.range 512).foldl
              (fun a i => a.wrHbm (line * 512 + i) (a.rdHbm (o * 512 + i))) a
            exec (.scrubRead line fails other) s = .next (((z.withArc fun a => { a with checks := tset none a.checks line none }).sat
              (arcErrStat (homeOf (line * 512))) 32 16 1).hbmReport line 0 15)) ∧
          (m = 3 → exec (.scrubRead line fails other) s =
            .next ((((v.sat ko 16 16 1).poisonLine line).poisonLine o).hbmReport line 2 11)))

/-- R313, R314, R316, R320, R321, R339, R340: a MSG flit of a mesh group or of a ring port. With a good CRC and the FSEQ
expected its payload goes on with the messages of its channel, those that are whole are taken out, its units return as
credits and its header is heeded, and after a NAK the replay is counted and the errors charged; a bad one asks for a
replay, and the replays that fail are counted, up to the group's suspicion or the port's loss; a good one out of sequence
asks for a replay. A suspect group takes no MSG flit, and a group none of a channel that its role does not carry. (How
long a message of the mesh is, and what a filler unit looks like, is the model's choice, log entry 35.) R321-R324, R338,
R342, R447: IDLE flits calibrate and check the PRBS of every lane, TEST flits only follow it; an IDLE is inserted;
LANEMAP takes the next spare; a group test spares its one failing lane or takes the group out in both directions; a LINK
flit tells the far end's role, device and credits. R325: an error that replay cannot mend. One copy of a header bad is
corrected, both make PANEL_FATAL; a payload of a run before its commit point is a detection, of one in its commit poisons
what it carried, and any other payload poisons the sectors it was for. -/
def Obligations.MeshFlits : Prop :=
  (∀ (s : State) (f : Flit),
     let good := fldOf f 2016 32 = crc32c (toBytes 252 f.toNat)
     let next := fun (x : LinkX) (m : Nat) => ({ x with
       rxSeq := (x.rxSeq + 1) % m, nakSent := false, badFlit := none, fails := 0 } : LinkX)
     let payload := toBytes 240 (fldOf f 96 1920)
     (∀ l, l.ok = true → s.bit (lnkB l.site l.d) 9 = true → s.bit (lnkGrp l) 14 = false → fldOf f 10 2 = 0 →
       let k := linkKey l
       let x := s.link k
       let seq := fldOf f 0 10
       let vc := fldOf f 12 3
       let first := fldOf f 64 8
       let bs := streamOf (s.partOf l vc first) first payload
       let r := unpackStream (meshLen (s.role l.site l.d l.g) vc) (bs.length / 16 + 1) bs
       let y := (next x 1024).heed f
       let taken : LinkX := { y with parts := tset [] y.parts vc r.2, rx := y.rx ++ r.1.map fun m => (vc, m), owed := y.owed ++ [(vc, 15, 0)], ackDue := true }
       (x.suspect = true ∨ (good ∧ s.carriesVc l vc = false) → exec (.meshFlit l f) s = .next s) ∧
       (x.suspect = false → good → s.carriesVc l vc = true →
         (seq = x.rxSeq → x.nakSent = false → SetsLink (.meshFlit l f) s k taken) ∧
         (seq = x.rxSeq → x.nakSent = true → ∃ u, LinkSet s u k taken ∧
           exec (.meshFlit l f) s = .next (match x.badFlit with
             | some b => (u.sat (lnkGrp l) 16 16 1).chargeMesh l (laneCounts ((flitDiff b f).map meshLane))
             | none => u.sat (lnkGrp l) 16 16 1)) ∧
         (seq ≠ x.rxSeq → x.nakSent = false →
           SetsLink (.meshFlit l f) s k (({ x with nakSent := true, badFlit := none, fails := 0 } : LinkX).heed f)) ∧
         (seq ≠ x.rxSeq → x.nakSent = true → x.fails < 8 → SetsLink (.meshFlit l f) s k (x.heed f))) ∧
       (x.suspect = false → ¬good →
         (x.nakSent = false → SetsLink (.meshFlit l f) s k { x with nakSent := true, badFlit := some f, fails := 0, ackDue := true }) ∧
         (x.nakSent = true → seq = x.rxSeq → ∃ u, LinkSet s u k { x with fails := x.fails + 1, ackDue := true } ∧
           exec (.meshFlit l f) s = .next (if 8 ≤ x.fails + 1 then u.suspect l else u)) ∧
         (x.nakSent = true → seq ≠ x.rxSeq → x.fails < 8 → SetsLink (.meshFlit l f) s k { x with ackDue := true }))) ∧
     ∀ port, port < 48 → s.portUp port = true → fldOf f 32 2 = 0 →
       let k := ringKey port
       let x := s.link k
       let seq := fldOf f 0 16
       let host := decide (s.fld (rngPort port) 0 2 = 1)
       let y := (next x 65536).heedRing f
       let bs := streamOf (tget [] x.parts 0) (fldOf f 40 8) payload
       let r := unpackStream (packetLen host) (bs.length / 16 + 1) bs
       let taken : LinkX := { y with
         parts := tset [] y.parts 0 r.2, rx := y.rx ++ r.1.map fun m => (0, m), owed := y.owed ++ r.1.flatMap (packetOwes host), ackDue := true }
       (good →
         (seq = x.rxSeq → x.nakSent = false → SetsLink (.ringMsgFlit port f) s k taken) ∧
         (seq = x.rxSeq → x.nakSent = true → ∃ u, LinkSet s u k taken ∧
           exec (.ringMsgFlit port f) s = .next (match x.badFlit with
             | some b => (u.sat (rngPort port) 16 16 1).chargeRing port (laneCounts ((flitDiff b f).map ringLane))
             | none => u.sat (rngPort port) 16 16 1)) ∧
         (seq ≠ x.rxSeq → x.nakSent = false →
           SetsLink (.ringMsgFlit port f) s k (({ x with nakSent := true, badFlit := none, fails := 0 } : LinkX).heedRing f)) ∧
         (seq ≠ x.rxSeq → x.nakSent = true → x.fails < 16 → SetsLink (.ringMsgFlit port f) s k (x.heedRing f))) ∧
       (¬good →
         (x.nakSent = false → SetsLink (.ringMsgFlit port f) s k { x with nakSent := true, badFlit := some f, fails := 0, ackDue := true }) ∧
         (x.nakSent = true → seq = x.rxSeq → ∃ u, LinkSet s u k { x with fails := x.fails + 1, ackDue := true } ∧
           exec (.ringMsgFlit port f) s = .next (if 16 ≤ x.fails + 1 then u.portDown port 2 else u)) ∧
         (x.nakSent = true → seq ≠ x.rxSeq → x.fails < 16 → SetsLink (.ringMsgFlit port f) s k { x with ackDue := true }))) ∧
  ((∀ (s : State) (l : LinkRef) (f : Flit), l.ok = true → s.bit (lnkB l.site l.d) 9 = true → s.bit (lnkGrp l) 14 = false →
     let k := linkKey l
     let x := s.link k
     (fldOf f 10 2 = 1 →
       let y := if flitGood f = true then x.heed f else x
       let r := ({ y with calibrations := y.calibrations + 1 } : LinkX).prbsCheck f 64 fun j => j % 64
       ∃ u, LinkSet s u k r.1 ∧ exec (.idleFlit l f) s = .next (u.chargeMesh l r.2)) ∧
     (fldOf f 10 2 = 3 → x.suspect = true →
       let r := x.prbsCheck f 64 fun j => j % 64
       SetsLink (.idleFlit l f) s k { r.1 with testBad := (r.1.testBad ++ r.2.map (·.1)).eraseDups }) ∧
     (let p := prbsPayload 64 (fun j => j % 64) (x.prbsRegs k 64)
      SetsLink (.idleInsert l) s k { x with
        txPrbs := p.2, out := some (meshBits x 1 x.txSeq 0 0xFF p.1), owed := x.owed.drop 1, ackDue := false
        idlesSent := x.idlesSent + 1 }) ∧
     (∀ lane, lane < 64 → s.fld (lnkGrp l) 0 2 < 2 → exec (.lanemap l lane) s = .next (s.spareLane l lane)) ∧
     (x.suspect = true →
       (∀ failing, (∀ lane, failing = [lane] → 64 ≤ lane ∨ 2 ≤ s.fld (lnkGrp l) 0 2) → exec (.groupTestDone l failing) s = .next (s.groupOut l)) ∧
       ∀ lane, lane < 64 → s.fld (lnkGrp l) 0 2 < 2 →
         let u := s.spareLane l lane
         exec (.groupTestDone l [lane]) s = .next (u.setLink k
           { u.link k with suspect := false, nakSent := false, badFlit := none, fails := 0 }))) ∧
   ∀ (s : State) (port : Nat) (f : Flit), port < 48 → s.portUp port = true →
     let k := ringKey port
     let x := s.link k
     (fldOf f 32 2 = 1 →
       let y := if flitGood f = true then x.heedRing f else x
       let r := ({ y with calibrations := y.calibrations + 1 } : LinkX).prbsCheck f 8 fun j => j / 8 % 8
       ∃ u, LinkSet s u k r.1 ∧ exec (.ringIdleFlit port f) s = .next (u.chargeRing port r.2)) ∧
     (fldOf f 32 2 = 3 → SetsLink (.ringIdleFlit port f) s k (x.prbsCheck f 8 fun j => j / 8 % 8).1) ∧
     (fldOf f 32 2 = 2 → flitGood f = true → ∃ y, SetsLink (.ringLinkFlit port f) s k y ∧
       y.peer = fldOf f 96 8 + fldOf f 112 16 * 256 ∧
       { y with peer := x.peer, credits := x.credits, dataCredits := x.dataCredits } = x.heedAck (fldOf f 16 16) (f.getLsbD 34) ∧
       ∀ c, c < 8 → tget 0 y.credits c = fldOf f (128 + 32 * c) 12 ∧ tget 0 y.dataCredits c = fldOf f (140 + 32 * c) 20)) ∧
  (∀ (s : State) (l : LinkRef), l.ok = true →
     let u := s.sat (lnkB l.site l.d + 0x10) 32 16 1
     exec (.pastReplayError l .headerOne) s = .next (u.pastReport l 0) ∧
     exec (.pastReplayError l .headerBoth) s = .next ((u.pastReport l 6).panelFatal 0 l.site) ∧
     (∀ run r q c, s.run? run = some r → s.cmdOfRun run = some (q, c) → r.cls ≠ 1 → r.phase = .running ∨ r.phase = .workDone →
       exec (.pastReplayError l (.runPayload run)) s = .next ((((u.pastReport l 1).killRun run).requeue q c).refreshQ q)) ∧
     (∀ run line sectors, (∃ m, (MsgTy.cmt, m) ∈ s.net.msgs ∧ m.run = run ∧ m.line = line) →
       exec (.pastReplayError l (.commitPayload run line sectors)) s = .next ((u.pastReport l 2).poisonFlight run (poisonWrite run line sectors))) ∧
     (∀ run addr, (∃ m, (MsgTy.log, m) ∈ s.net.msgs ∧ m.run = run ∧ m.op.addr = addr) →
       exec (.pastReplayError l (.logPayload run addr)) s = .next ((u.pastReport l 2).poisonFlight run (poisonMsg run addr true))) ∧
     (∀ line sectors, exec (.pastReplayError l (.otherPayload line sectors)) s =
       .next (((List.range 4).filter fun k => nbit sectors k).foldl (fun s k =>
         if line * 512 < 0x0900_0000_0000 then s.poisonSector (line * 4 + k) else s.poisonOut (line * 4 + k)) (u.pastReport l 2))) ∧
     ∀ addr mask, exec (.pastReplayError l (.reduceMopn addr mask)) s =
       .next (if addr < 0x0900_0000_0000 ∧ mask % 2 ^ 32 ≠ 0 then (u.pastReport l 2).poisonSector (addr / 128) else u.pastReport l 2))

/-- R324, R326-R330: a REDUCE packet at a router output combines with one it meets, waits for one while fewer than 64
wait, and goes on at once where the window is 0, the buffer is full or the edge is down; it goes on when its window ends.
One that goes on over a live edge stands at the next router's output for its destination; at a dead edge it waits for the
route to change. MOPN_ACK lowers the sector's count. -/
def Obligations.Reductions : Prop :=
  ∀ (s : State) (site : Nat), site < 72 →
    (∀ out p, out < 5 →
      let u : State := { s with mesh := { s.mesh with redOut := s.mesh.redOut.erase (site, out, p) } }
      let here := fun e : Comb => e.site = site && e.out = out
      let waits := s.redWindow site out ≠ 0 ∧ (out < 4 → s.edgeLive site out = true)
      (¬waits → exec (.reducePacket site out p) s = .next (u.redLeave site out p)) ∧
      (¬waits → ∀ y, neighbour site out = some y → ∃ t, exec (.reducePacket site out p) s = .next t ∧ { t with mesh := s.mesh } = s ∧
        { t.mesh with redOut := s.mesh.redOut, links := s.mesh.links } = s.mesh ∧
        t.mesh.redOut = s.mesh.redOut.erase (site, out, p) ++
          [if s.edgeLive site out then (y, s.nextHop y (rDest p), p) else (site, s.nextHop site (rDest p), p)]) ∧
      (waits → s.mesh.comb.find? (fun e => here e && redMeet e.pkt p) = none →
        exec (.reducePacket site out p) s = .next (
          if (s.mesh.comb.filter here).length < 64 then
            { u with mesh := { u.mesh with comb := u.mesh.comb ++ [{ site := site, out := out, pkt := p }] } }
          else u.redLeave site out p)) ∧
      (waits → ∀ e, s.mesh.comb.find? (fun e => here e && redMeet e.pkt p) = some e →
        let v : State := { u with
          free := u.free + 32
          mesh := { u.mesh with comb := u.mesh.comb.map fun x => if x = e then { x with pkt := redCombine s.free e.pkt p } else x } }
        exec (.reducePacket site out p) s = .next (if out < 4 then v.sat (lnkB site out + 0x18) 0 48 1 else v)) ∧
      ∀ idx e, (s.mesh.comb.filter here)[idx]? = some e →
        exec (.combineWindowExpiry site out idx) s = .next (({ s with mesh := { s.mesh with comb := s.mesh.comb.erase e } } : State).redLeave site out e.pkt)) ∧
    ∀ sector, exec (.mopnAck site sector) s = .next { s with mesh := { s.mesh with
      acks := s.mesh.acks.erase (site, sector)
      mopn := tset 0 s.mesh.mopn (mopnKey site sector) (tget 0 s.mesh.mopn (mopnKey site sector) - 1) } }

/-- R26, R29, R413, R441-R443, R445: a heartbeat sets its CONTACT bit. A C-die that fails, or falls silent, is gated and
its work killed, and unless the Librarian is absent its cores then move to the riser or become LOST; one that runs no
cores, or is lost already, has nothing to lose. The Librarian ends a substitution: with cores MOVING they become ACTIVE at
the riser. A riser that fails takes the cores that were moving onto it, or the die in use at it. A silent neighbour loses
contact, and the report is held and broadcast; a report that reaches an agent is held; either declares lost every site
that an agent then holds the reports of all live neighbours of, and none where there is no such site. A B-die that fails
is declared lost, and the Librarian reroutes round a lost site and ends its partitions. -/
def Obligations.Losses : Prop :=
  ∀ (s : State) (site row d agent reporter : Nat), site < 72 → row < 8 → d < 4 → agent < 72 → reporter < 72 →
    let dieOn := s.mapBuilt = true ∧ s.isLost site = false ∧ s.coresAt site ≠ [] ∧ site ∉ s.pwr.lostDies
    let settled := fun u : State => if s.boot.absent then u else u.settleLosses
    let moving := (List.range 256).filter fun c => c / 32 = row && s.coreState c = 1
    let quiet := fun u : State => ∀ z ∈ (u.mesh.reports.map fun e => e.2.2) ++ u.mesh.lost.flatMap neighbours, u.isLost z = false →
      ∀ a, a < 72 → a ≠ z → u.isLost a = false → ∃ n ∈ neighbours z, u.isLost n = false ∧ (a, n, z) ∉ u.mesh.reports
    (dieOn →
      SetsRegs (.cdieHeartbeat site) s [(errB site + 8, putFld (s.reg (errB site + 8)) 4 1 1)] ∧
      exec (.cdieFatalError site) s = .next (settled (s.dieGate site 0 0)) ∧
      exec (.cdieHeartbeatTimeout site) s = .next (settled (s.dieGate site 1 0))) ∧
    (¬dieOn → ∀ c ∈ [Instr.cdieHeartbeat site, .cdieFatalError site, .cdieHeartbeatTimeout site], exec c s = .next s) ∧
    (s.boot.absent = true ∨ s.isLost (s.riserSite row) = true ∨ moving = [] → exec (.substitutionDone row) s = .next s) ∧
    (s.boot.absent = false → s.isLost (s.riserSite row) = false → moving ≠ [] →
      exec (.substitutionDone row) s = .next (s.finishMove row)) ∧
    (s.riserState row ≠ 1 → exec (.riserFailure row) s = .next s) ∧
    (s.riserState row = 1 → moving = [] →
      exec (.riserFailure row) s = .next (settled (s.dieGate (s.riserSite row) 0 0))) ∧
    (s.riserState row = 1 → moving ≠ [] →
      let u := (moving.foldl (fun s c => s.setFld (libCoreMap c) 12 4 2) (s.genOdd.setRiser row 2)).genEven.gateOff (s.riserSite row)
      let v := moving.foldl (fun s c => (coreQueues c).foldl (fun s q => s.loseQueue q) s) u
      exec (.riserFailure row) s = .next (v.endSubst row (moving.head?.bind fun c => v.corePart c) true)) ∧
    (s.edgeUp site d = true → s.edgeLive site d = true →
      SetsRegs (.siteHeartbeat site d) s [(errB site + 8, putFld (s.reg (errB site + 8)) d 1 1)]) ∧
    (s.edgeUp site d = false ∨ s.edgeLive site d = false → exec (.siteHeartbeat site d) s = .next s) ∧
    (s.isLost site = true → exec (.siteHeartbeatTimeout site d) s = .next s) ∧
    (s.isLost site = false → ∃ u : State, exec (.siteHeartbeatTimeout site d) s = .next (u.judgeSites 72) ∧
      (s.bit (errB site + 8) d = false → u = s) ∧
      (s.bit (errB site + 8) d = true → ∀ y, neighbour site d = some y →
        { u with regs := s.regs, mesh := s.mesh } = s ∧ u.bit (errB site + 8) d = false ∧ (∀ k, k ≠ errB site + 8 → u.reg k = s.reg k) ∧
        { u.mesh with broadcast := s.mesh.broadcast, reports := s.mesh.reports } = s.mesh ∧
        (site, y) ∈ u.mesh.broadcast ∧ (site, site, y) ∈ u.mesh.reports) ∧
      (quiet u → exec (.siteHeartbeatTimeout site d) s = .next u)) ∧
    ((reporter, site) ∈ s.mesh.broadcast → s.isLost agent = false → (agent, reporter, site) ∉ s.mesh.reports →
      let u : State := { s with mesh := { s.mesh with reports := s.mesh.reports ++ [(agent, reporter, site)] } }
      exec (.lossReport agent reporter site) s = .next (u.judgeSites 72) ∧
      (quiet u → exec (.lossReport agent reporter site) s = .next u)) ∧
    ((reporter, site) ∉ s.mesh.broadcast ∨ s.isLost agent = true ∨ (agent, reporter, site) ∈ s.mesh.reports →
      exec (.lossReport agent reporter site) s = .next s) ∧
    exec (.bDieFatalError site) s = .next ((if s.isLost site then s else s.declareOne site 1).judgeSites 72) ∧
    (s.isLost site = false ∨ s.boot.absent = true → exec (.siteLossReroute site) s = .next s) ∧
    (s.isLost site = true → s.boot.absent = false → exec (.siteLossReroute site) s = .next
      ((((List.range 16).foldl (fun s p => if s.ownsSite p site then s.partFatalize p 0 site else s) s.reroute).settleLosses).riserSiteLost site))

/-- R436-R439, R411, R413: an incident report that was sent and reaches the Librarian is logged: a signature that is open takes an
echo, any other a new entry at TAIL, the oldest overwritten when the log is full. At the end of a window the echoes
follow, and a report that waited is sent. Writing LIB_INC_HEAD moves it, or waits while the Librarian is absent. -/
def Obligations.IncidentLog : Prop :=
  ∀ (s : State) (r : Report), r.ok = true →
    let u : State := { s.shed with net := { s.shed.net with reports := s.shed.net.reports.erase r } }
    (s.boot.absent = true ∨ r ∉ s.net.reports → exec (.incidentReport r) s = .next s) ∧
    (s.boot.absent = false → r ∈ s.net.reports →
      exec (.incidentReport r) s = .next (u.logReport r).shed ∧
      (s.boot.openEntries.find? (fun e => sameSig e.2 r) = none →
        let i := s.fld libIncTail 0 32
        let full := 1024 ≤ wsub i (s.fld libIncHead 0 32)
        (u.logReport r).fld libIncTail 0 32 = (i + 1) % 2 ^ 32 ∧
        (full → (u.logReport r).fld libIncHead 0 32 = (s.fld libIncHead 0 32 + 1) % 2 ^ 32) ∧
        (¬full → (u.logReport r).fld libIncHead 0 32 = s.fld libIncHead 0 32)) ∧
      (∀ e, s.boot.openEntries.find? (fun e => sameSig e.2 r) = some e →
        (u.logReport r).fld libIncTail 0 32 = s.fld libIncTail 0 32 ∧ (u.logReport r).fld libIncHead 0 32 = s.fld libIncHead 0 32)) ∧
    (∀ site e, site < 72 → s.boot.absent = false → s.errs.find? (fun e => e.1 = site && sameSig e.2.1 r) = some e → e.2.1 ∉ s.net.reports →
      let v : State := { s with errs := s.errs.erase e }
      let w := if e.2.2 = 0 then v else v.addEcho r e.2.2
      let y := if ∃ x ∈ w.errs, sameSig x.2.1 r = true then w
        else { w with boot := { w.boot with openEntries := w.boot.openEntries.filter fun x => !sameSig x.2 r } }
      exec (.echoWindowEnd site r) s = .next (match s.errWait.find? fun x => x.reporter = site with
        | some x => ({ y with errWait := y.errWait.erase x } : State).sendReport x
        | none => y)) ∧
    ∀ v : W64,
      (s.boot.absent = false → SetsRegs (.libIncHeadWrite v) s [(libIncHead, BitVec.ofNat 64 (v.toNat % 2 ^ 32))]) ∧
      (s.boot.absent = true → exec (.libIncHeadWrite v) s =
        .next { s with boot := { s.boot with queuedWrites := s.boot.queuedWrites ++ [(libIncHead, 8, v)] } })

/-- R285, R345-R348, R302, R324, R408, R440: what a host's read is answered. The requests of a port are performed in the
order sent: one that finds an earlier one waiting, or a write of its port not yet visible, waits behind it. A register is
read with its bytes, RETRY where the Librarian cannot answer or CTRL traffic is held, REFUSED to a port that may not read
it; memory with its bytes, POISON or SITE_LOST, REFUSED by the frame; a read that meets a busy line waits, and at its
deadline is answered RETRY or with its bytes. -/
def Obligations.HostReads : Prop :=
  ∀ (s : State) (port tag : Nat) (h : QHdr), port < 48 →
    let pa := fldOf h 64 46
    let n := fldOf h 16 10
    let u := s.drainPort port
    let next := fun t : State => exec (.mrd port h) s = .next t
    ((∀ p ∈ s.host.hold, p.port ≠ port) → u = s) ∧
    (qRsvOk h = true → fldOf h 0 4 = 0 → u.hostUp port = true →
      ((∃ p ∈ u.host.hold, p.port = port) ∨ u.hostWriting port = true →
        next { u with host := { u.host with hold := u.host.hold ++ [{ port := port, h := h, d := [] }] } }) ∧
      ((∀ p ∈ u.host.hold, p.port ≠ port) → u.hostWriting port = false → h.getLsbD 26 = false →
        (isRegion pa = true → n = 4 ∨ n = 8 → pa % n = 0 →
          (u.regAns port pa = .refused → next ((u.refused port).cplSend port h 3 [])) ∧
          (u.regAns port pa = .held → next ((u.sat (qhlStat port) 0 16 1).cplSend port h 1 [])) ∧
          (∀ v, u.regAns port pa = .hw v → ∃ t : State, next (t.cplSend port h 0 (toBytes n (v.toNat / 2 ^ (8 * (pa % 8))))) ∧
            { t with regs := u.regs, free := u.free } = u ∧ ∀ k, k ≠ qhlStat port → t.reg k = u.reg k) ∧
          ∀ v, u.regAns port pa = .backed v →
            (u.libBusy = true → next ((u.sat (qhlStat port) 0 16 1).cplSend port h 1 [])) ∧
            (u.libBusy = false → ∃ t : State, { t with regs := u.regs, free := u.free } = u ∧ (∀ k, k ≠ qhlStat port → t.reg k = u.reg k) ∧
              (next (t.cplSend port h 0 (toBytes n (v.toNat / 2 ^ (8 * (pa % 8))))) ∨
               next ({ t with host := { t.host with reads := t.host.reads ++ [{ port := port, h := h, d := [] }] } } : State).shed))) ∧
        (isHbm pa = true → 0 < n → pa % 512 + n ≤ 512 →
          (u.hostFrame port pa false = false → next ((u.refused port).cplSend port h 3 [])) ∧
          (u.hostFrame port pa false = true → u.lineBusy (pa / 512) = true → u.isLost (homeOf pa) = false →
            next { u with host := { u.host with reads := u.host.reads ++ [{ port := port, h := h, d := [] }] } }) ∧
          (u.hostFrame port pa false = true → u.lineBusy (pa / 512) = false ∨ u.isLost (homeOf pa) = true →
            let v := u.homeServe pa n (fldOf (u.frame pa) 2 4)
            (u.isLost (homeOf pa) = false → (∀ x ∈ sectorsOf pa n, v.secPoison (homeOf pa) x = false) →
              next (v.cplSend port h 0 (v.rdMem pa n))) ∧
            (u.isLost (homeOf pa) = false → (∃ x ∈ sectorsOf pa n, v.secPoison (homeOf pa) x = true) →
              ∃ t : State, next (t.cplSend port h 4 []) ∧ t.arc = v.arc ∧ t.host = v.host) ∧
            (u.isLost (homeOf pa) = true → ∃ t : State, next (t.cplSend port h 5 []) ∧ t.arc = v.arc ∧ t.host = v.host))))) ∧
    (∀ p, u.heldRead port tag true = some p → exec (.registerReadDeadline port tag) s = .next
      (((((u.unhold p).sat (qhlStat port) 0 16 1).cplSend port p.h 1 []).shed).drainPort port)) ∧
    ∀ p, u.heldRead port tag false = some p →
      (u.lineBusy (qAddr p.h / 512) = true → u.isLost (homeOf (qAddr p.h)) = false →
        exec (.memoryReadDeadline port tag) s = .next ((((u.unhold p).sat (qhlStat port) 0 16 1).cplSend port p.h 1 []).drainPort port)) ∧
      (u.lineBusy (qAddr p.h / 512) = false → exec (.memoryReadDeadline port tag) s = .next (((u.unhold p).readHbm port p.h).drainPort port))

/-- R285, R344-R347: what a host's write does. It waits behind the earlier requests of its port that are not done. Into panel HBM its bytes, all or masked, are merged at the line's home when
the frame lets the port write (a B copy takes no write: the model's choice, log entry 130); into a local-store window they are written when the port owns the core; of a register
it is a REGISTER_WRITE; one that is refused, or whose form is wrong, is dropped and counted. R341, R344-R346, R227: a
host's CPL, or the end of its time, settles the oldest access of the port with its tag; a message of a host is
dropped and counted; a request of a local-store window is performed, refused, or counted when the core is in MAINT or
the offset lies beyond its size. -/
def Obligations.HostWrites : Prop :=
  (∀ (s : State) (port : Nat) (h : QHdr) (d : Bytes), port < 48 →
     let pa := fldOf h 64 46
     let n := fldOf h 16 10
     let bytes := if h.getLsbD 26 = true then unmask pa (List.range (n / 128)) d else (addrs pa d.length).zip d
     let next := fun t : State => exec (.mwr port h d) s = .next t
     let dropped := fun v : State => ∃ t : State, next t ∧ { t with regs := v.regs } = v ∧
       t.reg (qhlStat port) = putFld (v.reg (qhlStat port)) 16 16 (min 0xFFFF (v.fld (qhlStat port) 16 16 + 1)) ∧
       ∀ k, k ≠ qhlStat port → t.reg k = v.reg k
     let u := s.drainPort port
     (s.hostUp port = true → qRsvOk h = false ∨ fldOf h 0 4 ≠ 1 → dropped s) ∧
     (qRsvOk h = true → fldOf h 0 4 = 1 → u.hostUp port = true →
       ((∃ p ∈ u.host.hold, p.port = port) ∨ u.hostWriting port = true ∨ (∃ p ∈ u.host.reads, p.port = port) →
         next { u with host := { u.host with hold := u.host.hold ++ [{ port := port, h := h, d := d }] } }) ∧
       ((∀ p ∈ u.host.hold, p.port ≠ port) → u.hostWriting port = false → (∀ p ∈ u.host.reads, p.port ≠ port) →
         (payloadOk h d = false → dropped u) ∧
         (payloadOk h d = true →
           (isHbm pa = true → 0 < n → pa % 512 + n ≤ 512 →
             (u.hostFrame port pa true = false → dropped u) ∧
             (u.hostFrame port pa true = true → ∀ b r, bytes = b :: r →
               next (u.homeMsg .cmt
                 { line := b.1 / 512, req := homeOf pa, src := homeOf pa, dst := homeOf b.1, part := fldOf (u.frame pa) 2 4, cid := 0
                   data := bytes, dest := .host port, mask := lineMask (b.1 / 512) bytes, sectors := secsOf (lineMask (b.1 / 512) bytes) }))) ∧
           (isWin pa = true → 0 < n → pa % 512 + n ≤ 512 →
             (u.winJudge port (winSlot pa) (winOffset pa) n = .refused → dropped u) ∧
             (u.winJudge port (winSlot pa) (winOffset pa) n = .done →
               next ((bytes.map fun e => (winOffset e.1, e.2)).foldl (fun s e => s.wrLs (winSlot pa) e.1 [e.2]) u))) ∧
           (isRegion pa = true → h.getLsbD 26 = false → n = 4 ∨ n = 8 → pa % n = 0 → pa < libB ∨ libB + 0x200_0000 ≤ pa →
             (u.isManager port = true → exec (.mwr port h d) s = exec (.registerWrite pa n (BitVec.ofNat 64 (ofBytes d))) u) ∧
             (u.isManager port = false → ∀ p, p < 16 → partB p ≤ pa → pa < partB (p + 1) →
               (u.portOwns port p = true → exec (.mwr port h d) s = exec (.registerWrite pa n (BitVec.ofNat 64 (ofBytes d))) u) ∧
               (u.portOwns port p = false → dropped u))))))) ∧
  (∀ (s : State) (port tag : Nat) (h : QHdr) (d : Bytes), port < 48 →
     let count := fun c => SetsRegs c s [(qhlStat port, putFld (s.reg (qhlStat port)) 16 16 (min 0xFFFF (s.fld (qhlStat port) 16 16 + 1)))]
     (qRsvOk h = false ∨ 6 ≤ fldOf h 27 3 → count (.cpl port h d)) ∧
     (∀ e, qRsvOk h = true → fldOf h 27 3 < 6 → s.hostPend port (fldOf h 4 12) = some e →
       exec (.cpl port h d) s = .next (if fldOf h 27 3 = 0 then (s.dropPend e).hostOk e.2.2 d else (s.dropPend e).hostFail e.2.2)) ∧
     (∀ e, s.hostPend port tag = some e → exec (.hostAccessTimeout port tag) s = .next ((s.dropPend e).hostFail e.2.2)) ∧
     count (.msg port h d) ∧
     ∀ r : WinReq, r.ok = true →
       (r.host = some port →
         let j := s.winJudge port r.slot r.off r.len
         let hd : QHdr := qHdr 0 r.tag r.len false 0 0 0
         (j = .done → r.isWrite = false → exec (.windowRequest r) s = .next (s.cplSend port hd 0 (s.rdLs r.slot r.off r.len))) ∧
         (j = .done → r.isWrite = true → exec (.windowRequest r) s =
           .next (((addrs r.off r.len).zip r.data).foldl (fun s e => s.wrLs r.slot e.1 [e.2]) s)) ∧
         (∀ c, (j = .maint c ∨ j = .beyond c) →
           let u := s.sat (coreLsStat c) (if j = .maint c then 16 else 0) 16 1
           exec (.windowRequest r) s = .next (if r.isWrite then u else u.cplSend port hd 0 (toBytes r.len 0))) ∧
         (j = .refused → exec (.windowRequest r) s = .next (if r.isWrite then s.refused port else (s.refused port).cplSend port hd 3 []))) ∧
       (r.host = none → s.winRefuse r.part r.cid r.slot r.off r.len = none →
         exec (.windowRequest r) s = .next (if r.isWrite then s.wrLs r.slot r.off (r.data.take r.len) else s)) ∧
       ∀ code c, r.host = none → s.winRefuse r.part r.cid r.slot r.off r.len = some code →
         s.active r.q (fun c => c.phase != .committed || hClass c.raw = 1) = some c →
         exec (.windowRequest r) s = .next (s.fail r.q c (failOf code r.va false)))

/-- R6, R7, R10, R167, R172, R175, R472: a register write that has been let through. One that is not of 4 or 8
aligned bytes does nothing. In a queue's page a doorbell, resume, abort or held register is the command of its name;
bases are held while ENABLE = 1; W1C bits clear; read-only registers ignore the write. -/
def Obligations.RegisterWrites : Prop :=
  ∀ (s : State) (pa : Nat) (v : W64) (q : QRef), q.ok = true →
    (∀ n, (n ≠ 4 ∧ n ≠ 8) ∨ pa % n ≠ 0 → exec (.registerWrite pa n v) s = .next s) ∧
    (pa % 8 = 0 → pa < libB ∨ libB + 0x100_0000 ≤ pa →
      let w := Instr.registerWrite pa 8 v
      let at_ := fun off => regKey s pa = some (queB q + off)
      (regKey s pa = none → exec w s = .next s) ∧
      (at_ 0x00 → exec w s = exec (.queCfgWrite q v) s) ∧
      (∀ off ∈ [0x08, 0x10, 0x18], at_ off →
        (s.qEnabled q = true → exec w s = .next s) ∧
        (s.qEnabled q = false → SetsRegs w s [(queB q + off, BitVec.ofNat 64 (v.toNat / 2 ^ 12 % 2 ^ 43 * 2 ^ 12))])) ∧
      (at_ 0x20 → exec w s = exec (.queTailDoorbell q v) s) ∧
      (∀ off ∈ [0x28, 0x30, 0x38], at_ off → exec w s = .next s) ∧
      (at_ 0x40 → exec w s = exec (.queCrHeadWrite (.que q) v) s) ∧
      (at_ 0x48 → SetsRegs w s [(queB q + 0x48, s.reg (queB q + 0x48) &&& ~~~(v &&& 0x70000#64))]) ∧
      (at_ 0x50 → exec w s = if v.getLsbD 0 = false then .next s
        else if v.getLsbD 1 = true then exec (.queResumeSkip q) s else exec (.queResume q) s) ∧
      (at_ 0x58 → exec w s = if v.getLsbD 63 = true then exec (.queAbortAll q) s
        else exec (.queAbort q (v.toNat % 2 ^ 32) (v.toNat / 2 ^ 32 % 2 ^ 16)) s) ∧
      (at_ 0x60 → SetsRegs w s [(queB q + 0x60, BitVec.ofNat 64 (v.toNat / 2 ^ 2 % 2 ^ 53 * 2 ^ 2))]) ∧
      (at_ 0x68 → SetsRegs w s [(queB q + 0x68, BitVec.ofNat 64 (v.toNat % 2 ^ 48))]) ∧
      (at_ 0x70 → exec w s = exec (.queBcastWrite q v) s) ∧
      (at_ 0xF8 → exec w s = exec (.queSop15Doorbell q v) s) ∧
      ∀ j, j < 15 → at_ (0x80 + 8 * j) →
        exec w s = .next (s.modQ q fun x => { x with sop := putFld x.sop (64 * j) 64 v.toNat }))

/-- R356-R358: the flow layer. OPEN makes or renews a receiver context and is acknowledged; OPEN_ACK opens the flow
and its waiting packets go; ACK frees what it covers; CLOSE frees the context; the timer sends again what is
unacknowledged; a flow given up fails and settles its requests; the acknowledgement that waits is sent; an idle flow
closes, and the answers still to come to what it had sent keep their requests. R304, R353, R355, R358-R360: requests
and answers of other panels. RD answers its sectors, WR and AT are applied at the home, and each is refused with its status; answers settle the request they belong to; an object
request is UNSUPPORTED, object data of an outstanding GET is merged and any other dropped, and OBJ_END ends its
transfer. R149, R263, R353: ATOM_RSP brings the old value to the lane that asked or answers another panel; a failed
MOPN of a pinned launch marks its run, and the answer to an add of a clerk operation is counted (R365). A B copy of a mirror pair takes nothing from another
panel (the model's choice, log entry 130). -/
def Obligations.FabricPackets : Prop :=
  ((∀ (s : State) (die : Nat) (h : NHdr) (d : Bytes) (crc : W32), die < 24 → crc.toNat = crc32c (toBytes 32 h.toNat ++ d) →
     let f := nfOf h
     f.dst = s.panelNo →
     let key := recvKey die f.src f.flow
     let fresh := s.setRecv key (some { epoch := f.epoch, next := 0, unacked := 0 })
     let ack := fun s : State => s.nSend die { dst := f.src, src := s.panelNo, ty := 2, keeper := die, flow := f.flow, epoch := f.epoch } []
     (s.recv? key = none → (s.fab.recvs.filter fun e => e.1 / 0x100000000 = die).length < 8192 →
       exec (.openFlow die h d crc) s = .next (ack fresh)) ∧
     (∀ r, s.recv? key = some r →
       (cntDiff 16 f.epoch r.epoch < 0 → exec (.openFlow die h d crc) s = .next s) ∧
       (cntDiff 16 f.epoch r.epoch = 0 → exec (.openFlow die h d crc) s = .next (ack s)) ∧
       (0 < cntDiff 16 f.epoch r.epoch → exec (.openFlow die h d crc) s = .next (ack fresh))) ∧
     (∀ k fl, s.myFlow f.flow f.src = some (k, fl) → fl.epoch = f.epoch →
       (fl.state = .opening → exec (.openAck die h d crc) s = .next (fl.waiting.foldl (fun (u : State) w => match u.flow? k with
           | some x => u.flowPush (k / 65536) f.flow x (nfOf w.1.h) w.1.d w.2
           | none => u) (s.setFlow k (some { fl with state := .opened, keeper := f.keeper, psn := 0, waiting := [] })))) ∧
       exec (.ack die h d crc) s = .next (s.setFlow k (some
         { fl with unacked := fl.unacked.filter fun u => decide (0 < cntDiff 32 (nfOf u.1.h).psn f.psn) }))) ∧
     let key := recvKey (if f.keeper < 24 then f.keeper else die) f.src f.flow
     ∀ r, s.recv? key = some r → r.epoch = f.epoch → exec (.close die h d crc) s = .next (s.setRecv key none)) ∧
   ∀ (s : State) (die flow : Nat), die < 24 →
     let k := flowKey die flow
     (∀ f, s.flow? k = some f →
       (f.state = .opening → exec (.retransmitTimer die flow) s = .next ((s.sat (nfbStat die) 0 16 1).nSend die
         { dst := f.dev, src := s.panelNo, ty := 1, keeper := 31, flow := flow, epoch := f.epoch } [])) ∧
       (f.state ≠ .opening → f.unacked ≠ [] →
         let u := s.sat (nfbStat die) 0 16 1
         exec (.retransmitTimer die flow) s = .next { u with fab := { u.fab with out := u.fab.out ++
           (f.unacked.filterMap fun w => (u.exitPort die (fldOf w.1.h 0 16)).map fun port => { w.1 with port := port }) } }) ∧
       (f.unacked ≠ [] ∨ f.state = .opening → ∃ u : State, { u with fab := s.fab, regs := s.regs, net := s.net, errs := s.errs, errWait := s.errWait } = s ∧
         u.flow? k = none ∧ (∀ j, j ≠ k → u.flow? j = s.flow? j) ∧
         u.fab.orphans = s.fab.orphans ++ (f.answers.filter fun a => !f.unacked.any fun w => decide ((nfOf w.1.h).psn = a.1)).map
           (fun a => (f.dev, a.1, a.2)) ∧
         u.fld (nfbStat die) 16 16 = min 0xFFFF (s.fld (nfbStat die) 16 16 + 1) ∧
         exec (.flowGiveup die flow) s = .next ((((f.unacked ++ f.waiting).map (·.2)).foldl State.requestLost u).flowFreed die)) ∧
       (f.state = .opened → f.unacked = [] → f.waiting = [] →
         let v := (s.nSend die { dst := f.dev, src := s.panelNo, ty := 4, keeper := f.keeper, flow := flow, epoch := f.epoch } []).setFlow k none
         exec (.flowIdleExpiry die flow) s = .next (({ v with fab := { v.fab with
           orphans := v.fab.orphans ++ f.answers.map fun a => (f.dev, a.1, a.2) } } : State).flowFreed die))) ∧
     ∀ dev r, s.recv? (recvKey die dev flow) = some r →
       exec (.ackDelayExpiry die dev flow) s = .next (if r.unacked = 0 then s else
         (s.setRecv (recvKey die dev flow) (some { r with unacked := 0 })).nSend die
           { dst := dev, src := s.panelNo, ty := 3, flow := flow, epoch := r.epoch, psn := wsub r.next 1 } [])) ∧
  (∀ (s u : State) (die at_ : Nat) (h : NHdr) (d : Bytes) (crc : W32), die < 24 → Arrives s die h d crc u at_ →
     let f := nfOf h
     (let st := if f.addr % 512 ≠ 0 then 4 else u.nJudge at_ f 0 512
      (st ≠ 0 → exec (.rd die h d crc) s = .next (u.nRefuse at_ f 0x18 st)) ∧
      (st = 0 →
        let v := (maskSecs f.sub).foldl (fun s k => s.homeServe (f.addr + 128 * k) 128 f.part) u
        ((∀ k ∈ maskSecs f.sub, v.secPoison (homeOf f.addr) (f.addr / 128 + k) = false) →
          exec (.rd die h d crc) s = .next (v.nAnswer f 0x18 0 ((maskSecs f.sub).flatMap fun k => v.rdMem (f.addr + 128 * k) 128))) ∧
        ((∃ k ∈ maskSecs f.sub, v.secPoison (homeOf f.addr) (f.addr / 128 + k) = true) →
          ∃ t : State, t.arc = v.arc ∧ exec (.rd die h d crc) s = .next (t.nAnswer f 0x18 2 [])))) ∧
     (let st := if f.addr % 512 ≠ 0 ∨ d.length ≠ 144 * (maskSecs f.sub).length then 4 else u.nJudge at_ f 1 512
      let t := unmask f.addr (maskSecs f.sub) d
      (st ≠ 0 → exec (.wr die h d crc) s = .next (u.nRefuse at_ f 0x19 st)) ∧
      (st = 0 → t = [] → exec (.wr die h d crc) s = .next (u.nAnswer f 0x19 0 [])) ∧
      (st = 0 → t ≠ [] → exec (.wr die h d crc) s = .next (u.homeWrite (ringSite at_) f.part f.cid (.remote at_ f.src f.flow f.psn) t))) ∧
     (let n := remoteSize f.sub f.addr
      let st := if 12 < f.sub ∨ f.addr % 4 ≠ 0 ∨ d.length ≠ (if f.sub = 9 then 16 else 8) then 4 else u.nJudge at_ f 2 n
      (st ≠ 0 → exec (.atOp die h d crc) s = .next (u.nRefuse at_ f 0x1A st)) ∧
      (st = 0 → exec (.atOp die h d crc) s = .next (u.homeMsg .atom
        { line := f.addr / 512, req := ringSite at_, src := ringSite at_, dst := homeOf f.addr, part := f.part, cid := f.cid
          op := { sub := f.sub, size := n, addr := f.addr, val := BitVec.ofNat 64 (ofBytes (d.take 8)), cmp := BitVec.ofNat 64 (ofBytes ((d.drop 8).take 8)) }
          dest := .remote at_ f.src f.flow f.psn }))) ∧
     (exec (.rdRsp die h d crc) s = .next (u.takeAnswer f isRead fun s use => s.answerUse f d use) ∧
      exec (.wrDone die h d crc) s = .next (u.takeAnswer f isWrUse fun s use => s.answerUse f d use) ∧
      exec (.atRsp die h d crc) s = .next (u.takeAnswer f isAtUse fun s use => s.answerUse f d use)) ∧
     exec (.objGet die h d crc) s = .next (u.fabAnswer (ringSite at_) f.src f.part f.cid 0x23 4 f.psn []) ∧
     exec (.objPut die h d crc) s = .next (u.fabAnswer (ringSite at_) f.src f.part f.cid 0x23 4 f.psn []) ∧
     (u.getFor f d.length = none → exec (.objData die h d crc) s = .next (u.sat (nfbStat at_) 48 16 1)) ∧
     (∀ g, u.getFor f d.length = some g → u.frameOk (homeOf f.addr) f.addr g.part g.cid 2 1 = false ∨ u.mirrorB f.addr = true →
       exec (.objData die h d crc) s = .next (u.sat (nfbStat at_) 48 16 1)) ∧
     (∀ g, u.getFor f d.length = some g → 0 < d.length → d.length ≤ 512 → isHbm f.addr = true → u.frameOk (homeOf f.addr) f.addr g.part g.cid 2 1 = true →
       u.mirrorB f.addr = false →
       exec (.objData die h d crc) s = .next ((linesOf f.addr d.length).foldl (fun s l =>
         s.homeWrite (ringSite at_) g.part g.cid .none (((addrs f.addr d.length).zip d).filter fun e => e.1 / 512 = l))
         { u with fab := { u.fab with gets := u.fab.gets.map fun x => if x = g then { x with got := x.got ++ [(f.addr, d.length)] } else x } })) ∧
     exec (.objEnd die h d crc) s = .next (u.takeAnswer f isObjUse fun s use => match use with
       | .objGet p k submit batch pa => s.endGet p k submit batch pa f.status
       | use => s.answerUse f d use)) ∧
  (∀ (s : State) (m : CMsg), m.ok = true → s.arrives .atomRsp m = false → exec (.atomRsp m) s = .next s) ∧
  (∀ (s : State) (m : CMsg), m.ok = true → s.arrives .atomRsp m = true →
     let u := s.unsend .atomRsp m
     (∀ core slot lane reg run, m.dest = .lane core slot lane reg run →
       exec (.atomRsp m) s = .next (u.deliverLane core slot lane reg run m.op.size m.old m.status)) ∧
     (∀ run, m.dest = .mopn run → exec (.atomRsp m) s = .next (
       if m.status = 0 then u
       else if m.status = 0x31 then u.modRun run fun r => { r with siteLost := true }
       else u.modRun run fun r => { r with poisoned := true })) ∧
     (∀ at_ dev flow psn, m.dest = .remote at_ dev flow psn → exec (.atomRsp m) s = .next (u.fabAnswer (homeOf (m.line * 512)) dev m.part m.cid 0x1A
       (nfStatus m.status) psn (if m.status = 0 then toBytes 8 m.old.toNat else []))) ∧
     (∀ p k n, m.dest = .clerk p k n → exec (.atomRsp m) s = .next (u.modOp p k n fun o =>
       if m.status = 0 then { o with adds := o.adds - 1 } else ({ o with adds := o.adds - 1 } : ClerkOp).fail m.status)) ∧
     (m.dest = .none ∨ (∃ port, m.dest = .host port) → exec (.atomRsp m) s = .next u))

/-- R336: with no ports listed in RING, host number h stands on port 6h and every other port is FABRIC; hosts 0 to 7
stand on ring dies 0, 3, 6, 9, 12, 15, 18 and 21, which attach at sites 0, 5, 17, 44, 71, 66, 54 and 27. -/
def Obligations.DefaultPorts : Prop :=
  (∀ (t : Image) (port : Nat), port < 48 → secLen t 4 = 0 →
    (port % 6 = 0 → ringRole t port = 1 ∧ ringHost t port = port / 6) ∧ (port % 6 ≠ 0 → ringRole t port = 2)) ∧
  (List.range 8).map (fun h => 6 * h / 2) = [0, 3, 6, 9, 12, 15, 18, 21] ∧
  (List.range 8).map (fun h => ringSite (6 * h / 2)) = [0, 5, 17, 44, 71, 66, 54, 27]

/-- R361-R367, R387, R388, R472: the service rings. SVC_TAIL is taken or dropped as a doorbell is; SVC_CFG's held
fields while ENABLE was 0; RESUME goes on from HALTED and retries from BLOCKED; an abort reaches a running operation,
ends the request held, waits for one that is accepted, or has no effect; a wait that runs out ends the request with
WAIT_TIMEOUT. -/
def Obligations.ServiceRings : Prop :=
  ∀ (s : State) (p k : Nat) (v : W64), p < 16 → k < 4 →
    let b := svcB p k
    let x := s.svcX p k
    let drop := fun c => SetsRegs c s [(b + 0x48, putFld (putFld (s.reg (b + 0x48)) 16 1 1) 32 16 (min 0xFFFF (s.fld (b + 0x48) 32 16 + 1)))]
    (let new := v.toNat % 2 ^ 32
     let fits := s.svcEnabled p k = true ∧ s.partState p = 1 ∧ wsub new (s.fld (b + 0x28) 0 32) ≤ 2 ^ s.fld b 8 5 ∧
       wsub new (s.fld (b + 0x20) 0 32) < 2 ^ 31
     (fits → exec (.svcTail p k v) s = .next ((s.setFld (b + 0x20) 0 32 new).svcFetch p k)) ∧ (¬fits → drop (.svcTail p k v))) ∧
    (let held := ((s.setFld b 8 5 (max 4 (min 12 (fldOf v 8 5)))).setFld b 16 5 (max 4 (min 16 (fldOf v 16 5)))).setFld b 32 16 (fldOf v 32 16)
     let u := ((if s.svcEnabled p k then s else held).setFld b 0 1 (fldOf v 0 1)).setFld b 3 1 (fldOf v 3 1)
     exec (.svcCfgWrite p k v) s = .next ((if v.getLsbD 0 = false ∧ s.svcState p k = 8 then u.setFld (b + 0x48) 0 4 0 else u).svcFetch p k)) ∧
    (s.svcState p k = 5 → exec (.svcResume p k) s = .next (((s.setFld (b + 0x48) 0 4 1).setFld (b + 0x48) 8 8 0).svcFetch p k)) ∧
    (s.svcState p k = 6 → exec (.svcResume p k) s = .next ((s.retryRecords (.svc p k)).svcFetch p k)) ∧
    (s.svcState p k ≠ 5 → s.svcState p k ≠ 6 → exec (.svcResume p k) s = .next s) ∧
    (∀ n, n < 2 ^ 32 →
      let runs := ∃ o ∈ s.svc.ops, o.p = p ∧ o.k = k ∧ o.submit = n
      let holds := ∃ r ∈ x.reqs, r.1 = n
      let posted := wsub n (s.fld (b + 0x28) 0 32) < wsub (s.fld (b + 0x20) 0 32) (s.fld (b + 0x28) 0 32)
      (runs → exec (.svcAbort p k n) s = .next { s with svc := { s.svc with ops := s.svc.ops.map fun o =>
        if o.p = p ∧ o.k = k ∧ o.submit = n then { o with abortSeen := true } else o } }) ∧
      (¬runs → holds → exec (.svcAbort p k n) s = .next (s.abortHeld p k)) ∧
      (¬runs → ¬holds → ¬posted → exec (.svcAbort p k n) s = .next s) ∧
      (¬runs → ¬holds → posted → x.aborts.length < 16 → exec (.svcAbort p k n) s = .next (s.setSvcX p k { x with aborts := x.aborts ++ [n] })) ∧
      (¬runs → ¬holds → posted → 16 ≤ x.aborts.length → drop (.svcAbort p k n))) ∧
    (let u : State := { s with svc := { s.svc with ops := s.svc.ops.map fun o => if o.p = p ∧ o.k = k then { o with abortSeen := true } else o } }
     exec (.svcAbortAll p k) s =
       .next (((u.setSvcX p k { u.svcX p k with allBelow := some (s.fld (b + 0x20) 0 32) }).abortHeld p k).svcFetch p k)) ∧
    (∀ n d, x.reqs = [(n, d)] → d.getLsbD 10 = true → s.svcEnabled p k = true → s.svcState p k < 5 → s.svcFree p k ≠ 0 →
      exec (.svcWaitTimeout p k) s =
        .next (((s.setSvcX p k { x with reqs := [] }).svcComplete p k n d none { code := 0x27 } 0).svcFetch p k))

/-- R362-R375: the service operations. A held request of the row's opcode starts once its wait has ended, its ring
may start it and a clerk is free; else every running operation of the opcode goes a step on. A start whose ranges and
tables pass takes its clerks; an operation whose last answers have come completes. R365: a reduction goes on from its adds once
every one has been acknowledged. R375: the batches of a STAGE.
Batch n starts once FREED is at least n - SLOTS + 1, with fewer than four in flight and none failed, as one OBJ_GET
for each run of physically contiguous bytes of its slot; when its GETs have ended it lands, and FILLED goes over the
batches that have landed without a gap. -/
def Obligations.ServiceOperations : Prop :=
  (∀ (s : State) (p k : Nat), p < 16 → k < 4 →
     let u := s.svcFetch p k
     (∀ e ∈ [(Instr.fAllreduce p k, 0x70, State.startColl p k, State.collGo), (.fReduceScatter p k, 0x71, State.startColl p k, State.collGo),
         (.fAllgather p k, 0x72, State.startColl p k, State.collGo), (.fAlltoall p k, 0x73, State.startColl p k, State.collGo),
         (.checkpoint p k, 0x78, State.startCheckpoint p k, State.checkpointGo), (.stage p k, 0x7A, State.startStage p k, State.stageGo)],
       (∀ n d lead v, u.svcHeld p k e.2.1 = some (n, d) → u.svcMayStart p k = true → u.findLead = some lead →
         u.svcWait (u.clerkWho p k lead.1) d = (v, .ready) → exec e.1 s = .next ((e.2.2.1 v n d lead).svcFetch p k)) ∧
       (u.svcHeld p k e.2.1 = none → exec e.1 s = .next (((u.svcOps p k).foldl (fun s o =>
         if hOpc o.req = e.2.1 then (match s.op? o with | some o => e.2.2.2 s o | none => s) else s) u).svcFetch p k))) ∧
     (∀ (v w : State) (n : Nat) (d : Desc) (lead : Nat × Nat),
       (v.clerkRanges (v.clerkWho p k lead.1) (stageRanges d) = (w, none) → State.startStage p k v n d lead =
         (w.svcBegin p k n d lead [ckDev d] (stageRanges d) .batches (w.recPaOf (v.clerkWho p k lead.1) d) [] 0).1) ∧
       (∀ f, v.clerkRanges (v.clerkWho p k lead.1) (collRanges d) = (w, some f) →
         State.startColl p k v n d lead = w.svcRefuse p k n d lead (collRanges d) f)) ∧
     ∀ (v : State) (o : ClerkOp),
       (o.code ≠ 0 → v.collGo o = v.opDone o o.code 0 ∧ v.checkpointGo o = v.opDone o o.code 0) ∧
       (o.code = 0 → o.step = .finish → o.writes = 0 → v.collGo o = v.opDone o 0 0) ∧
       (o.code = 0 → o.step = .sum ∨ o.step = .added → o.adds ≠ 0 → v.collGo o = v) ∧
       (o.code = 0 → o.step = .sum → o.adds = 0 → o.writes = 0 → v.collGo o = v.setOp { o with step := .credit }) ∧
       (o.code = 0 → o.step = .added → o.adds = 0 → o.stage + 2 ≠ fMembers o.req → v.collGo o = v.collNext o) ∧
       (o.code = 0 → o.step = .finish → o.puts = 0 → v.checkpointGo o = v.opDone o 0 0) ∧
       (o.code = 0 → o.step = .data → o.writes = 0 → v.collGo o =
         (v.sendTag o (fTo o.req o.stage) (0x1000 + 8 * fSlot o.req o.stage) (fInst o.req * 2 ^ 32 + fUse o.req o.stage)).setOp { o with step := .receive }) ∧
       (o.started = [] → o.code = 0 → o.bad = none → o.abortSeen = false → o.next = sgBatches o.req → v.stageGo o = v.opDone o 0 o.filled)) ∧
  (∀ (s : State) (p k n : Nat) (o : ClerkOp), p < 16 → k < 4 → n < 2 ^ 32 → s.stageOp p k n = some o →
     let d := o.req
     let w := s.clerkWho p k o.lead
     let b := o.next
     (o.abortSeen = false → o.bad = none → o.code = 0 → b < sgBatches d → o.started.length < 4 → ∀ u freed, s.readNum w (sgFreed d) 8 = (u, .ok freed) →
       (freed + sgSlots d < b + 1 → exec (.stageBatchStart p k n) s = .next u) ∧
       (b + 1 ≤ freed + sgSlots d → ∀ v bs, u.readVa w .read (sgList d + 32 * b) 32 0 = (v, .ok bs) →
         let q := fun j => ofBytes ((bs.drop (8 * j)).take 8)
         q 2 ≤ sgSlotBytes d → q 3 = 0 → (v.keeperFor (ringSite (o.dieOf b (sgBatches d))) (ckDev d)).isSome = true →
         ∀ y runs, v.physRuns w .write (q 2 / 65536 + 2) (sgRing d + b % sgSlots d * sgSlotBytes d) (q 2) [] = (y, .ok runs) →
           exec (.stageBatchStart p k n) s =
             .next ((y.modOp p k n fun o => { o with next := b + 1, started := o.started ++ [b] }).sendGets o b (q 0) (q 1) runs))) ∧
     ∀ batch, batch ∈ o.started → (∀ g ∈ s.fab.gets, ¬(g.p = p ∧ g.k = k ∧ g.submit = n ∧ g.batch = batch)) →
       let o' := ClerkOp.fill { o with started := o.started.erase batch, landed := o.landed ++ [batch] } (o.landed.length + 2)
       (o'.filled = o.filled → exec (.stageBatchLanded p k n batch) s = .next (((s.modOp p k n fun _ => o').stageGo o').svcFetch p k)) ∧
       (o'.filled ≠ o.filled → ∀ u, s.writeVa w (sgFilled d) (toBytes 8 o'.filled) 0 = (u, .ok ()) →
         exec (.stageBatchLanded p k n batch) s = .next (((u.modOp p k n fun _ => o').stageGo o').svcFetch p k)))

/-- R402, R409, R410, R414: the panel commands of the mailbox. -/
def Obligations.PanelCommands : Prop :=
  (∀ (s : State) (v : W64), let n := wsub (v.toNat % 2 ^ 32) (s.fld libMbDone 0 32)
    (256 < n → SetsRegs (.libMbTailWrite v) s [(libHealth, putFld (s.reg libHealth) 32 16 (min 0xFFFF (s.fld libHealth 32 16 + 1)))]) ∧
    (n ≤ 256 → exec (.libMbTailWrite v) s = .next (s.setFld libMbTail 0 32 (v.toNat % 2 ^ 32)).shed)) ∧
  (∀ (s : State) (slot n : Nat), slot < 256 → s.libWorks = true → s.mbAt slot = some n → s.mbBusy n = false → s.mbFree n = true →
    s.mbCode n ∉ mbCodes ∨ s.mbRsvOk n = false → exec (.mailboxBadCode slot) s = .next ((s.mbTake n).mbDone n 4 0)) ∧
  ∀ (s u : State) (slot n : Nat),
    (Takes s slot 0x01 n u → exec (.ping slot) s = .next (u.mbDone n 0 0)) ∧
    (Takes s slot 0x10 n u →
      let a := u.mbArg n 1 % 128
      (64 < a ∨ u.libSvn < a ∨ u.mouldSvn < a → exec (.rollbackAdvance slot) s = .next (u.mbDone n 1 0)) ∧
      (a ≤ 64 → a ≤ u.libSvn → a ≤ u.mouldSvn → exec (.rollbackAdvance slot) s = .next (
        if a ≤ u.floor then u.mbDone n 0 u.floor
        else ((u.setReg fusRollback (u.reg fusRollback ||| BitVec.ofNat 64 (2 ^ a - 1))).setFld libBootStatus 40 7 a).mbDone n 0 a))) ∧
    (Takes s slot 0x20 n u →
      let body := u.attestBody (u.mbxRd (mbSlot n + 8) 32)
      let d := Config.sha384 body
      exec (.attest slot) s = .next ((u.mbxWr 0x20000 (body ++ fit 64 (Config.identityEdSign d) ++ fit 3309 (Config.identityMlSign d))).mbDone n 0 5533)) ∧
    (Takes s slot 0x40 n u →
      let dev := u.mbArg n 1 % 65536
      let ports := u.mbArg n 2 % 2 ^ 48
      let ok := dev ≠ 0xFFFF ∧ ∀ k, k < 48 → nbit ports k = true → u.fld (rngPort k) 0 2 = 2
      (ok → exec (.routeSet slot) s = .next (((List.range 24).foldl (fun s r => s.setFld (nfbRoute r dev) 0 48 ports) u).mbDone n 0 0)) ∧
      (¬ok → exec (.routeSet slot) s = .next (u.mbDone n 1 0))) ∧
    (Takes s slot 0x41 n u →
      let e := u.mbArg n 2
      exec (.admitSet slot) s = .next (if e < 2 ^ 45 then
        ((List.range 24).foldl (fun s r => s.setReg (nfbAdmit r (u.mbArg n 1 % 64)) (BitVec.ofNat 64 e)) u).mbDone n 0 0 else u.mbDone n 1 0))

/-- R244, R302, R307, R385-R387, R391: the partition commands that give and set. Each answers BAD_STATE outside the
state it needs and BAD_ARG for what may not be given. R387-R391: stop, drain, flush, release, scrub and resume of a
partition, in the states that each needs. -/
def Obligations.PartitionCommands : Prop :=
  (∀ (s u : State) (slot n : Nat),
     let p := u.mbArg n 0 % 16
     let host := u.mbArg n 0 / 16 % 8
     let st := u.partState p
     let ends := fun (c : Instr) (code : Nat) => exec c s = .next (u.mbDone n code 0)
     (Takes s slot 0x100 n u →
       (st ≠ 0 → ends (.partCreate slot) 2) ∧
       (st = 0 → u.fld fusSec 48 5 ≤ p ∨ u.sitesFree (u.argSites n) = false ∨ u.hostPort host = none → ends (.partCreate slot) 1) ∧
       (st = 0 → p < u.fld fusSec 48 5 → u.sitesFree (u.argSites n) = true → (u.hostPort host).isSome = true →
         exec (.partCreate slot) s = .next ((u.createPart p host (u.argSites n)).mbDone n 0 0))) ∧
     (Takes s slot 0x101 n u →
       (st ≠ 1 → ends (.partGrow slot) 2) ∧ (st = 1 → u.sitesFree (u.argSites n) = false → ends (.partGrow slot) 1) ∧
       (st = 1 → u.sitesFree (u.argSites n) = true → exec (.partGrow slot) s = .next ((u.giveSites p (u.argSites n)).mbDone n 0 0))) ∧
     (Takes s slot 0x102 n u →
       (st = 0 → ends (.partSetHost slot) 2) ∧ (st ≠ 0 → u.hostPort host = none → ends (.partSetHost slot) 1) ∧
       (st ≠ 0 → (u.hostPort host).isSome = true → exec (.partSetHost slot) s = .next ((u.setFld (libPartState p) 4 3 host).mbDone n 0 0))) ∧
     (Takes s slot 0x108 n u →
       let pa := u.mbArg n 1
       let count := u.mbArg n 2
       let tag := u.mbArg n 3
       let frames := (List.range count).map fun i => ((pa / 0x20_0000 + i) / 65536, (pa / 0x20_0000 + i) % 65536)
       let ok := count ≠ 0 ∧ pa % 0x20_0000 = 0 ∧ pa + count * 0x20_0000 ≤ 0x0900_0000_0000 ∧ tag % 4 ≠ 0 ∧ tag / 4 % 16 = p ∧ tag < 2 ^ 26 ∧
         ∀ f ∈ frames, u.fld (arcFrame f.1 f.2) 0 2 = 0 ∧ u.ownsSite p f.1 = true
       (st ≠ 1 → ends (.frameAssign slot) 2) ∧ (st = 1 → ¬ok → ends (.frameAssign slot) 1) ∧
       (st = 1 → ok → exec (.frameAssign slot) s = .next (((frames.foldl (fun s f => s.setFrame f.1 f.2 (BitVec.ofNat 64 tag)) u).bump
         (libPartState p) 32 32 count).mbDone n 0 0))) ∧
     (Takes s slot 0x110 n u →
       let x := u.mbArg n 1 % 128
       let cs := (List.range 2).filter fun c => nbit (u.mbArg n 1) (8 + c)
       let rate := u.mbArg n 2 % 512
       (st ≠ 1 → ends (.partRegulate slot) 2) ∧ (st = 1 → 72 ≤ x ∨ u.ownsSite p x = false → ends (.partRegulate slot) 1) ∧
       (st = 1 → x < 72 → u.ownsSite p x = true →
         ((∃ c ∈ cs, 256 < u.rateSum x c p rate) → ends (.partRegulate slot) 3) ∧
         ((∀ c ∈ cs, u.rateSum x c p rate ≤ 256) → exec (.partRegulate slot) s = .next ((cs.foldl (fun s c =>
           (s.setFld (hbmReg x c p) 0 9 rate).setFld (hbmReg x c p) 16 16 (u.mbArg n 2 / 2 ^ 16 % 2 ^ 16)) u).mbDone n 0 0)))) ∧
     ((∀ m, s.mbAt slot = some m → ∀ j, (s.part (s.mbArg m 0 % 16)).s2 ≠ some j) →
       (Takes s slot 0x30 n u →
         let pa := u.mbArg n 1 / 2 ^ 16 % 2 ^ 30 * 65536
         (st ≠ 1 → ends (.s2RootSet slot) 2) ∧ (st = 1 → isHbm pa = false ∨ u.frameS2 (homeOf pa) pa p = false → ends (.s2RootSet slot) 1) ∧
         (st = 1 → isHbm pa = true → u.frameS2 (homeOf pa) pa p = true →
           let r := (u.setFld (coreS2Root p) 16 30 (pa / 65536)).invalidate { part := p, cid := none, range := none, stage2 := true }
           exec (.s2RootSet slot) s = .next (if r.2 = [] then r.1.mbDone n 0 0 else r.1.setPart p { r.1.part p with s2 := some (n, r.2) }))) ∧
       (Takes s slot 0x31 n u →
         (st = 0 → ends (.s2Invalidate slot) 2) ∧
         (st ≠ 0 →
           let r := u.invalidate { part := p, cid := none, range := none, stage2 := true }
           exec (.s2Invalidate slot) s = .next (if r.2 = [] then r.1.mbDone n 0 0 else r.1.setPart p { r.1.part p with s2 := some (n, r.2) }))))) ∧
  ((∀ (s u : State) (slot n : Nat),
     let p := u.mbArg n 0 % 16
     let st := u.partState p
     let ends := fun (c : Instr) (code : Nat) => exec c s = .next (u.mbDone n code 0)
     (Takes s slot 0x118 n u →
       (st ≠ 1 → ends (.partStop slot) 2) ∧ (st = 1 → exec (.partStop slot) s = .next ((u.setFld (libPartState p) 0 3 2).mbDone n 0 0))) ∧
     (Takes s slot 0x119 n u →
       (st ≠ 2 → ends (.partDrain slot) 2) ∧
       (st = 2 →
         let v := u.setPart p { u.part p with drain := some n, kill := false }
         exec (.partDrain slot) s = .next (if nbit (v.mbArg n 1) 0 = true then v.drainKill p else v))) ∧
     (Takes s slot 0x11A n u →
       (st ≠ 3 → ends (.partFlush slot) 2) ∧
       (st = 3 →
         let v := u.flushPart p
         exec (.partFlush slot) s = .next (if v.partWritesBack p = true then v.setPart p { v.part p with flush := some n }
           else (v.setFld (libPartState p) 0 3 4).mbDone n 0 0))) ∧
     (Takes s slot 0x11B n u →
       (st ≠ 4 → ends (.partRelease slot) 2) ∧
       (st = 4 → ∃ t, exec (.partRelease slot) s = .next t ∧ t.partState p = 5 ∧ (t.part p).release = some n ∧ (t.part p).sops = [] ∧
         t.fld (libPartState p) 32 32 = 0 ∧ t.arc.mem = s.arc.mem ∧ t.arc.hbm = s.arc.hbm ∧ t.coreX (256 + p) = {} ∧
         (∀ l ∈ t.arc.lines, l.part = p → l.hint ≠ 1) ∧ (∀ x c, x < 72 → c < 2 → t.fld (hbmReg x c p) 0 9 = 0))) ∧
     (Takes s slot 0x11C n u →
       (u.partFatal p = false → st = 2 ∨ st = 3 ∨ st = 4 →
         exec (.partResume slot) s = .next ((u.setFld (libPartState p) 0 3 1).mbDone n 0 0)) ∧
       (u.partFatal p = true ∨ (st ≠ 2 ∧ st ≠ 3 ∧ st ≠ 4) → ends (.partResume slot) 2))) ∧
   ∀ (s : State) (p n : Nat), p < 16 → s.libWorks = true →
     ((s.part p).drain = some n →
       ((s.part p).kill = false → exec (.partDrainTimeout p) s = .next (s.drainKill p)) ∧
       (s.drained p = true → exec (.partDrained p) s =
         .next (((s.setPart p { s.part p with drain := none, kill := false }).setFld (libPartState p) 0 3 3).mbDone n 0 0))) ∧
     ((s.part p).release = some n → exec (.partScrubDone p) s =
       .next (((((s.scrubFrames (s.part p).freed).setPart p { s.part p with release := none, freed := [] }).setFld (libPartState p) 0 16 0).setReg
         (libPartSites p) 0#64).mbDone n 0 0)))

/-- R398, R399, R401, R412: loading. A port may load while it is the boot port, or becomes it, being up and one of
MGR_PORTS; the load window takes no bytes while an image is verified. LOAD_LIB is accepted in WAIT_LIB and RELOAD,
LOAD_MOULD in WAIT_MOULD, and works on a copy of the window; another LOAD is BAD_ORDER. An image that passes is kept
and STATE goes on; a refused one sets ERROR, raises FAILS and sends STATE back where it came from. R401: the verifier
stops at the first check that fails, in the order of the table. -/
def Obligations.Images : Prop :=
  ((∀ (s u : State) (port off : Nat) (d : Bytes), port < 48 → s.bootState ≠ 0 →
     let may := if s.bit libBootStatus 22 then s.fld libBootStatus 16 6 = port ∧ u = s
       else s.bit fusSec port = true ∧ s.portUp port = true ∧ u = (s.setFld libBootStatus 16 6 port).setBit libBootStatus 22 true
     let copy := fun (next : Nat) => ({ u with boot := { u.boot with image := s.windowCopy, from_ := s.bootState } } : State).setFld libBootStatus 0 4 next
     (may →
       (s.bootState = 2 ∨ s.bootState = 4 → exec (.loadWindowWrite port off d) s = .next (u.refused port)) ∧
       (s.bootState ≠ 2 → s.bootState ≠ 4 → exec (.loadWindowWrite port off d) s = .next (u.mbxWr (0x80_0000 + off) (d.take (0x80_0000 - off)))) ∧
       exec (.loadLib port) s = .next (if s.bootState = 1 ∨ s.bootState = 7 then copy 2 else u.setFld libBootStatus 4 4 10) ∧
       exec (.loadMould port) s = .next (if s.bootState = 3 then copy 4 else u.setFld libBootStatus 4 4 10)) ∧
     ((if s.bit libBootStatus 22 then s.fld libBootStatus 16 6 ≠ port else s.bit fusSec port = false ∨ s.portUp port = false) →
       exec (.loadWindowWrite port off d) s = .next (s.refused port) ∧ exec (.loadLib port) s = .next (s.refused port) ∧
       exec (.loadMould port) s = .next (s.refused port))) ∧
   ∀ s : State,
     let t := s.boot.image
     let refuse := fun (error section_ : Nat) =>
       (((({ s with boot := { s.boot with image := [] } } : State).setFld libBootStatus 0 4 s.boot.from_).setFld libBootStatus 4 8
         (error + section_ * 16)).sat libBootStatus 48 8 1)
     (s.bootState = 2 →
       (∀ e, s.verify t 1 = some e → exec .imageVerified s = .next (refuse e.1 e.2)) ∧
       (s.verify t 1 = none → exec .imageVerified s =
         .next ((({ s with boot := { s.boot with image := [], lib := t, libDigest := Config.sha384 (imgSigned t) } } : State).setFld libBootStatus 24 7
           (imgSvn t)).setFld libBootStatus 0 4 (if s.boot.from_ = 7 ∧ s.mapBuilt = true then 6 else 3)))) ∧
     (s.bootState = 4 →
       (∀ e, s.verify t 2 = some e → exec .imageVerified s = .next (refuse e.1 e.2)) ∧
       (s.verify t 2 = none → exec .imageVerified s =
         .next ((({ s with boot := { s.boot with mouldDigest := Config.sha384 (imgSigned t) } } : State).setFld libBootStatus 32 7 (imgSvn t)).setFld
           libBootStatus 0 4 5)))) ∧
  (∀ (s : State) (t : Image) (kind : Nat),
     (headerOk t kind = false → s.verify t kind = some (1, 0)) ∧
     (headerOk t kind = true →
       (s.targetOk t = false → s.verify t kind = some (2, 0)) ∧
       (s.targetOk t = true →
         (s.keysOk t = false → s.verify t kind = some (3, 0)) ∧
         (s.keysOk t = true →
           (edOk t = false → s.verify t kind = some (4, 0)) ∧
           (edOk t = true →
             (mlOk t = false → s.verify t kind = some (5, 0)) ∧
             (mlOk t = true →
               (imgSvn t < s.floor → s.verify t kind = some (6, 0)) ∧
               (s.floor ≤ imgSvn t →
                 (kind = 1 → s.verify t kind = none) ∧
                 (kind ≠ 1 → ∀ i, badSection t 11 0xF0 = some i → s.verify t kind = some (7, i)) ∧
                 (kind ≠ 1 → badSection t 11 0xF0 = none →
                   (∀ i, 1 ≤ i → i ≤ 11 → s.contentOk t i = false → (∀ j, 1 ≤ j → j < i → s.contentOk t j = true) →
                     s.verify t kind = some (8, i)) ∧
                   ((∀ i, 1 ≤ i → i ≤ 11 → s.contentOk t i = true) →
                     s.verify t kind = if portOfHost t (managerHost t) = some (s.fld libBootStatus 16 6) then none else some (9, 0))))))))))

/-- R406, R407, R412, R413, R448: the start and the supervisor. A rising PANEL_RESET_N begins a start from nothing but
the fuses and the standby domain, with the MGR_PORTS ports up as HOST and STATE at WAIT_LIB; a falling one abandons
it. A lane that fails training is spared, or its group starts OUT; a port that fails it is down with CAUSE 3; a stack
that fails it loses its site. STATE is READY once steps 6 to 10 are done, unless a loss among them is PANEL_FATAL.
The commands carry what training finds (the model's choice, log entry 62). -/
def Obligations.Starts : Prop :=
  (∀ s : State, s.pwr.resetN = false →
    (s.pwr.pwrGood = true → s.pwr.refPresent = true →
      let up := fun u : State => (List.range 48).foldl (fun s k => s.linkUp k) u
      ∃ t : State, exec (.panelResetRise []) s = .next (up t) ∧ (∀ u : State, (up u).regs = u.regs ∧ (up u).arc = u.arc ∧ (up u).queues = u.queues) ∧
        t.bootState = 1 ∧ t.cyc = 0 ∧ t.arc = {} ∧ t.queues = [] ∧ t.boot = {} ∧ t.runs = [] ∧
        t.pwr.resetN = true ∧ t.pwr.pllLocked = true ∧ t.pwr.fatal = false ∧ t.pwr.gatedDies = List.range 72 ∧
        t.fld libBootStatus 40 7 = s.floor ∧ (∀ k, keptReg k = true → t.reg k = s.reg k) ∧
        (∀ k, k < 48 → (t.portUp k = true ↔ s.bit fusSec k = true) ∧ (s.bit fusSec k = true → t.fld (rngPort k) 0 2 = 1)) ∧
        (∀ fails : List StartFail, fails.all StartFail.ok = true → exec (.panelResetRise fails) s = .next (t.trainFirst fails)) ∧
        (∀ k, k < 48 → exec (.panelResetRise [.port k]) s = .next (up (if s.bit fusSec k then (t.trainReport (ringSite (k / 2)) k sevCorrected).portDown k 3 else t))) ∧
        ∀ (l : LinkRef) (lanes : List Nat), l.ok = true → (∀ k, k ∈ lanes → k < 64) → lanes.Nodup → lanes ≠ [] →
          (farEnd l.site l.d).isSome = true → t.groupLive l = true →
          let u := t.trainReport l.site (groupUnit l) sevCorrected
          (lanes.length + u.fld (lnkGrp l) 0 2 ≤ 2 →
            exec (.panelResetRise [.lanes l lanes]) s = .next (up (lanes.foldl (fun s k => s.startSpare l k) u))) ∧
          (2 < lanes.length + u.fld (lnkGrp l) 0 2 →
            exec (.panelResetRise [.lanes l lanes]) s = .next (up ((u.trainRepair l (repairBits 4 l.site l.d l.g 0 0 0 0 0)).startOut l)))) ∧
    (s.pwr.pwrGood = false ∨ s.pwr.refPresent = false → ∀ fails : List StartFail, fails.all StartFail.ok = true →
      exec (.panelResetRise fails) s = .next { s with pwr := { s.pwr with resetN := true } })) ∧
  (∀ s : State, s.pwr.resetN = true →
    exec .panelResetFall s = .next (
      let u : State := { s with pwr := { s.pwr with resetN := false } }
      if s.pwr.pwrGood then u.cold else u)) ∧
  (∀ (s : State) (fails : List StartFail), s.bootState = 5 → s.boot.absent = false → s.pwr.fatal = false → fails.all StartFail.ok = true →
    let t := s.boot.image
    let w := (((((((s.keepMould t).applyLanes t).applyRepairLinks t).keepOut).applyRing t).trainPorts fails).trainStacks fails).reroute
    let d := ((w.zeroHbm t).applyMem t).applyRepairDies t
    (w.pwr.fatal = true → exec (.startReady fails) s = .next w) ∧
    (w.pwr.fatal = false → ∃ v, exec (.startReady fails) s = .next v ∧ v.bootState = 6 ∧
      v = ((((((d.1.buildMap (disabledSites t ++ d.2 ++ failedDies fails)).reportDies fails).startCores).applyCal t).applyLedger t).applyParts t).setFld
        libBootStatus 0 4 6)) ∧
  (∀ (s : State) (x c : Nat), s.isLost x = false →
    s.trainStacks [.stack x c] = (s.trainReport x c sevSite).declareLost x 3) ∧
  (∀ s : State, 3 ≤ s.bootState → s.bootState ≠ 7 →
    let u : State := { s with boot := { s.boot with absent := true } }
    let n := s.boot.restarts.length
    let fourth := 3 ≤ n ∧ s.cyc < s.boot.restarts[n - 3]?.getD 0 + 10 * secCycles
    (Config.sha384 (imgSigned s.boot.lib) ≠ s.boot.libDigest ∨ fourth → exec .supervisorRestart s = .next (u.setFld libBootStatus 0 4 7)) ∧
    (Config.sha384 (imgSigned s.boot.lib) = s.boot.libDigest → ¬fourth →
      ∃ t : State, exec .supervisorRestart s = .next t ∧ t.boot = { u.boot with restarts := s.boot.restarts ++ [s.cyc] } ∧ t.arc = s.arc ∧
        t.queues = s.queues ∧ t.runs = s.runs ∧ t.fld libHealth 24 8 = min 255 (s.fld libHealth 24 8 + 1) ∧ t.bootState = s.bootState) ∧
    (s.boot.absent = true → exec .libRestartDone s = .next (
      (((s.boot.queuedWrites.foldl (fun s w => s.backedApply w.1 w.2.1 w.2.2)
        ({ s with boot := { s.boot with absent := false, queuedWrites := [] } } : State)).settleLosses).reroute).shed))) ∧
  ∀ s : State, exec .librarianHeartbeat s = .next s

/-- R419, R420, R423: power and the reference clock. -/
def Obligations.PowerSupply : Prop :=
  (∀ s : State, s.pwr.standby = true →
    let u : State := { s with pwr := { s.pwr with pwrEn := true } }
    (s.pwr.pwrEn = false →
      (s.tripped = true → exec .pwrEnRise s = .next u) ∧
      (s.tripped = false → s.pwr.inRange = true → exec .pwrEnRise s = .next { u with pwr := { u.pwr with pwrGood := true, pending := false } }) ∧
      (s.tripped = false → s.pwr.inRange = false → exec .pwrEnRise s = .next { u with pwr := { u.pwr with pending := true } })) ∧
    exec .inputEntersRange s = .next { s with pwr := { s.pwr with
      inRange := true, pwrGood := s.pwr.pwrGood || s.pwr.pending, pending := false } }) ∧
  (∀ s : State,
    let off := fun (u : State) => if u.pwr.pwrGood = true then
        { u.cold with pwr := { u.cold.pwr with pwrGood := false, pllLocked := false } } else u
    exec (.powerDown .pwrEnFall) s = .next (off { s with pwr := { s.pwr with pwrEn := false, pending := false } }) ∧
    exec (.powerDown .inputOut) s = .next (off { s with pwr := { s.pwr with inRange := false } }) ∧
    exec (.powerDown .railFail) s = .next (off s) ∧
    s.cold.arc = {} ∧ s.cold.queues = [] ∧ s.cold.runs = [] ∧ s.cold.host = {} ∧ s.cold.fab = {} ∧ s.cold.svc = {} ∧ s.cold.boot = {} ∧
    s.cold.pwr.gatedDies = List.range 72 ∧ (∀ k, (∀ x h, x < 72 → h < 2 → k ≠ ckgHalf x h) → s.cold.reg k = if keptReg k = true then s.reg k else regReset k) ∧
    ∀ x h, x < 72 → h < 2 → s.cold.reg (ckgHalf x h) = putFld (putFld (regReset (ckgHalf x h)) 0 2 s.ceilStep) 6 2 s.ceilStep) ∧
  (∀ s : State, s.pwr.refPresent = true →
    exec .refclkLoss s = .next { s with pwr := { s.pwr with refPresent := false, refHeld := s.pwr.pllLocked } } ∧
    ∀ x, x < 72 → s.pwr.pllLocked = true → exec (.pllLockLoss x) s = .next (s.declareLost x 2)) ∧
  ∀ s : State,
    let u : State := { s with pwr := { s.pwr with refPresent := true, refHeld := false } }
    exec .refclkReturn s = .next (if s.pwr.refHeld = true then
      u.report { cls := 0x11, site := 0, unit := 0, status := 0, sev := 0, reporter := 0, aux := BitVec.ofNat 64 (1 + s.pwr.tabs.toNat * 2 ^ 16) } else u) ∧
    (s.pwr.refHeld = true → exec .refclkLossTimeout s = .next (({ s with pwr := { s.pwr with refHeld := false } } : State).panelFatal 1 0))

/-- R1, R425, R426: the core clock steps of a half. REQ is stored as written and a write below the ceiling counted;
EFF is the slowest of the four limits; a change begins at once unless one is in progress, and then follows it. R431:
at a frame boundary USED gives up the budget, and every head deferred in the frame is judged again. -/
def Obligations.ClockSteps : Prop :=
  (∀ (s : State) (x h : Nat), x < 72 → h < 2 →
     let k := ckgHalf x h
     let eff := fun (req : Nat) => max (max req s.ceilStep) (max (s.fld k 2 2) (s.fld k 4 2))
     (∀ v : W64, ∃ t : State, exec (.ckgHalfWrite x h v) s = .next t ∧
       let n := eff (v.toNat % 4)
       t.fld k 0 2 = v.toNat % 4 ∧ t.fld k 6 2 = n ∧ t.fld k 2 2 = s.fld k 2 2 ∧ t.fld k 4 2 = s.fld k 4 2 ∧
       t.fld (ckgStat x) 0 16 = (if v.toNat % 4 < s.ceilStep then min 0xFFFF (s.fld (ckgStat x) 0 16 + 1) else s.fld (ckgStat x) 0 16) ∧
       (s.bit k 8 = true → t.bit k 8 = true ∧ t.stepOf x h = s.stepOf x h) ∧
       (s.bit k 8 = false → t.stepOf x h = n ∧ (t.bit k 8 = true ↔ s.stepOf x h ≠ n)) ∧
       (∀ j, j ≠ k → j ≠ ckgStat x → t.reg j = s.reg j) ∧ t.arc = s.arc ∧ t.queues = s.queues ∧ t.runs = s.runs) ∧
     (s.bit k 8 = true → ∃ t : State, exec (.stepChangeDone x h) s = .next t ∧
       t.fld (ckgStat x) 48 16 = min 0xFFFF (s.fld (ckgStat x) 48 16 + 1) ∧ t.stepOf x h = eff (s.fld k 0 2) ∧
       (t.bit k 8 = true ↔ s.stepOf x h ≠ eff (s.fld k 0 2)) ∧
       (∀ j, j ≠ k → j ≠ ckgStat x → t.reg j = s.reg j) ∧ t.arc = s.arc ∧ t.queues = s.queues ∧ t.runs = s.runs)) ∧
  ((∀ (s : State) (x p : Nat), x < 72 → p < 16 → s.pwr.pllLocked = true →
     let u := s.setFld (ldgAcct x p) 0 32 (s.fld (ldgAcct x p) 0 32 - s.fld (ldgCfg x p) 0 32)
     exec (.ledgerFrameBoundary x p) s =
       .next (((u.coresAt x).filter fun c => u.corePart c = some p).foldl (fun s c => (coreQueues c).foldl (fun s q => s.rejudge q) s) u)) ∧
   ∀ (s : State) (q : QRef),
     (s.head q = none → s.rejudge q = s) ∧
     ∀ c, s.head q = some c →
       (c.deferred = false → s.rejudge q = s) ∧
       (c.deferred = true →
         let v := s.modCmd q c fun c => { c with deferred := false }
         ((v.ledgerAdmit q (hEnergy c.raw)).isSome = true → s.rejudge q = v.refreshQ q) ∧
         (v.ledgerAdmit q (hEnergy c.raw) = none → s.rejudge q = (v.noteDeferral q { c with deferred := false }).refreshQ q)))

/-- R418, R432, R433: the tabs, the envelope and the thermal cap of a half. R434, R467: a thermal trip. The first
sensor that reaches its threshold latches TRIP, CAUSE, STACK, UNIT, RING and TRIP_TEMP, and the panel powers down; a
later one changes nothing of them. TRIP_CLR clears TRIP alone, once every sensor reads 10 °C below its threshold. -/
def Obligations.PowerMonitors : Prop :=
  ((∀ (s : State) (cs : List Nat), cs.length = 12 → s.pwr.pwrGood = true →
     ∃ t : State, exec (.tabCheck cs) s = .next t ∧
       (∀ i, i < 12 → (t.pwr.tabs.getLsbD i = true ↔ 5 * natDist (12 * cs.getD i 0) cs.sum ≤ cs.sum)) ∧
       t.fld pwrPanelIn 48 12 = t.pwr.tabs.toNat ∧ t.fld pwrPanelIn 16 16 = min cs.sum 0xFFFF ∧
       (popcount 12 t.pwr.tabs.toNat = popcount 12 s.pwr.tabs.toNat → t.errs = s.errs) ∧ t.arc = s.arc ∧ t.queues = s.queues) ∧
   (∀ (s : State) (watts : Nat), s.pwr.standby = true → s.pwr.pwrGood = true →
     ∃ t : State, exec (.envelopeTick watts) s = .next t ∧
       let above := s.envelope12 < 12 * watts
       let under := 1200 * watts < 95 * s.envelope12
       t.fld pwrPanelIn 32 16 = min (watts / 10) 0xFFFF ∧ t.reg pwrPanelUj = s.reg pwrPanelUj + BitVec.ofNat 64 (watts * 1000) ∧
       (above → t.pwr.envCap = (if 3 ≤ s.pwr.envCap then s.pwr.envCap else s.pwr.envCap + 1) ∧ t.pwr.envLow = 0) ∧
       (¬above → ¬under → t.pwr.envCap = s.pwr.envCap ∧ t.pwr.envLow = 0) ∧
       (¬above → under → s.pwr.envLow + 1 < 10 → t.pwr.envCap = s.pwr.envCap ∧ t.pwr.envLow = s.pwr.envLow + 1) ∧
       (¬above → under → 10 ≤ s.pwr.envLow + 1 → t.pwr.envCap = s.pwr.envCap - 1 ∧ t.pwr.envLow = 0) ∧
       (t.pwr.envCap ≠ s.pwr.envCap → ∀ x h, x < 72 → h < 2 → t.fld (ckgHalf x h) 4 2 = t.pwr.envCap % 4) ∧
       t.arc = s.arc ∧ t.queues = s.queues ∧ t.runs = s.runs) ∧
   ∀ (s : State) (x h : Nat) (rs : List Nat), x < 72 → h < 2 → rs.length = 8 → s.pwr.standby = true → s.pwr.pllLocked = true →
     let hot := rs.foldl max 0
     let n := tget (0, 0) s.pwr.therm (halfKey x h)
     let cap := s.fld (ckgHalf x h) 2 2
     ∃ t : State, exec (.thermalPoll x h rs) s = .next t ∧ tget 0 t.pwr.temps (2 * x + h) = hot ∧
       (s.pwr.pwrGood = true → t.fld (pwrB x) (8 * h) 8 = min 255 hot) ∧
       (105 ≤ hot → n.1 + 1 < 10 → tget (0, 0) t.pwr.therm (halfKey x h) = (n.1 + 1, 0) ∧ t.fld (ckgHalf x h) 2 2 = cap) ∧
       (105 ≤ hot → 10 ≤ n.1 + 1 → tget (0, 0) t.pwr.therm (halfKey x h) = (0, 0) ∧ t.fld (ckgHalf x h) 2 2 = min 3 (cap + 1) ∧
         t.fld (ckgStat x) 16 16 = (if 3 ≤ cap then s.fld (ckgStat x) 16 16 else min 0xFFFF (s.fld (ckgStat x) 16 16 + 1))) ∧
       (hot ≤ 100 → n.2 + 1 < 100 → tget (0, 0) t.pwr.therm (halfKey x h) = (0, n.2 + 1) ∧ t.fld (ckgHalf x h) 2 2 = cap) ∧
       (hot ≤ 100 → 100 ≤ n.2 + 1 → tget (0, 0) t.pwr.therm (halfKey x h) = (0, 0) ∧ t.fld (ckgHalf x h) 2 2 = cap - 1) ∧
       (100 < hot → hot < 105 → tget (0, 0) t.pwr.therm (halfKey x h) = (0, 0) ∧ t.fld (ckgHalf x h) 2 2 = cap) ∧
       t.arc = s.arc ∧ t.queues = s.queues ∧ t.runs = s.runs) ∧
  ((∀ (s : State) (n : Sensor) (temp : Nat), n.ok = true → s.pwr.standby = true →
     let at_ := match n with | .cdie _ _ => 120 | .bdie _ => 115 | .ringDie _ => 115 | .stack _ _ => 105
     ∃ t : State, exec (.thermalTrip n temp) s = .next t ∧
       (temp < at_ → t = s.showTemp n temp) ∧
       (at_ ≤ temp → t.tripped = true ∧ t.pwr.pwrGood = false ∧ (s.pwr.pwrGood = true → t.arc = {} ∧ t.queues = [] ∧ t.runs = []) ∧
         (s.tripped = false →
           t.fld (mgmtB 3) 0 2 = (match n with | .cdie _ _ => 1 | .bdie _ => 2 | .ringDie _ => 2 | .stack _ _ => 3) ∧
           t.bit (mgmtB 3) 2 = (match n with | .stack _ c => decide (c = 1) | _ => false) ∧
           t.fld (mgmtB 4) 0 7 = (match n with | .cdie x _ => x | .bdie x => x | .ringDie r => r | .stack x _ => x) ∧
           t.bit (mgmtB 4) 7 = (match n with | .ringDie _ => true | _ => false) ∧ t.fld (mgmtB 5) 0 8 = min 255 temp) ∧
         (s.tripped = true → ∀ k, 2 ≤ k → k ≤ 5 → t.reg (mgmtB k) = s.reg (mgmtB k)))) ∧
   ∀ s : State, s.pwr.standby = true →
     let cool := ∀ n : Sensor, n.ok = true → tget 0 s.pwr.temps (sensorKey n) + 10 ≤ tripAt n
     (cool → SetsRegs .tripClr s [(mgmtB 2, putFld (s.reg (mgmtB 2)) 3 1 0)]) ∧ (¬cool → exec .tripClr s = .next s))

/-- R458, R463, R465-R468: the flask. PWR_EN falls when a presence contact opens; the standby domain starts at its
reset values with the straps read; a write without the PEC asked for is answered NACK; a locked test port knows
IDCODE and BYPASS. -/
def Obligations.FlaskPins : Prop :=
  (∀ (s : State) (w : Nat), w < 2 → exec (.presenceOpen w) s = exec (.powerDown .pwrEnFall) s) ∧
  (∀ (s : State) (a b : Bool), s.pwr.standby = false → ∃ t, exec (.standbyUp a b) s = .next t ∧
    (∀ k, k < 256 → k ≠ 2 → t.reg (mgmtB k) = regReset (mgmtB k)) ∧ t.reg (mgmtB 2) = putFld (regReset (mgmtB 2)) 6 2 (2 * b2n a + b2n b) ∧
    t.smbAddr = 0x38 + 2 * b2n a + b2n b ∧
    (∀ k, k < mgmtB 0 ∨ mgmtB 256 ≤ k → t.reg k = s.reg k) ∧
    { t with regs := s.regs } =
      { s with pwr := { s.pwr with standby := true, smbNack := false, jtagIr := 1, jtagReset := true, tdo := 0 } }) ∧
  (∀ s : State, ∃ t, exec .standbyLoss s = .next t ∧ t.pwr.standby = false ∧ t.pwr.pwrEn = false ∧ t.pwr.pwrGood = false ∧
    t.pinAlertN = none ∧ t.pinThermTripN = none ∧ t.pinPwrGood = none) ∧
  (∀ s : State, s.pwr.standby = true →
    let nack := fun (b : Bool) => ({ s with pwr := { s.pwr with smbNack := b } } : State)
    (∀ (cmd : Nat) (v : W8) (pec : Option W8), cmd < 256 →
      let good := ∃ c : W8, pec = some c ∧ c.toNat = pecOf [2 * s.smbAddr, cmd, v.toNat]
      (s.bit (mgmtB 0x20) 1 = true → ¬good → exec (.smbusWrite cmd v pec) s = .next (nack true)) ∧
      (s.bit (mgmtB 0x20) 1 = false ∨ good →
        (cmd ≠ 0x20 → exec (.smbusWrite cmd v pec) s = .next (nack false)) ∧
        (cmd = 0x20 →
          let u := (nack false).setBit (mgmtB 0x20) 1 (v.getLsbD 1)
          (v.getLsbD 0 = false → exec (.smbusWrite cmd v pec) s = .next u) ∧
          (v.getLsbD 0 = true → exec (.smbusWrite cmd v pec) s = exec .tripClr u)))) ∧
    exec .smbusSclTimeout s = .next (nack false) ∧
    exec (.trst true) s = .next { s with pwr := { s.pwr with jtagReset := true, jtagIr := 1 } } ∧
    exec (.trst false) s = .next { s with pwr := { s.pwr with jtagReset := false } } ∧
    (s.pwr.jtagReset = false →
      let load := fun (u : State) (ir : Nat) (out : W32) => ({ u with pwr := { u.pwr with jtagIr := ir, tdo := out } } : State)
      exec .idcode s = .next (load s 0x01 0xA724_856B#32) ∧ exec .bypass s = .next (load s 0xFF 0) ∧
      (s.bit fusSec 53 = true → exec .extest s = .next (load s 0xFF 0) ∧ exec .samplePreload s = .next (load s 0xFF 0)) ∧
      (s.bit fusSec 53 = false → exec .extest s = .next (load s 0x00 (s.pwr.boundary.setWidth 32)) ∧
        ∃ v : BitVec 48, exec .samplePreload s =
          .next (load { s with free := s.free + 1, pwr := { s.pwr with boundary := v } } 0x02 (v.setWidth 32)))))
end

