-- ==== Sys2Proof/Laws/Tables.lean ====
section
/-!
SUPPORT. The tables of State: what reading after writing gives, and that writing keeps the canonical form.
-/

namespace Sys2Proof.Machine

variable {α : Type}

theorem tget_terase_same (d : α) (t : List (Nat × α)) (k : Nat) : tget d (terase t k) k = d := by
  induction t with
  | nil => rfl
  | cons e r ih =>
    obtain ⟨k', v⟩ := e
    simp only [terase]
    split
    · exact ih
    · rename_i h; simp [tget, h, ih]

theorem tget_terase_ne (d : α) (t : List (Nat × α)) {k j : Nat} (h : j ≠ k) : tget d (terase t k) j = tget d t j := by
  induction t with
  | nil => rfl
  | cons e r ih =>
    obtain ⟨k', v⟩ := e
    simp only [terase]
    split
    · rename_i h'; subst h'; simp [tget, ih, Ne.symm h]
    · simp only [tget, ih]

theorem tget_tinsert_same (d : α) (t : List (Nat × α)) (k : Nat) (v : α) (hn : ∀ e ∈ t, e.1 ≠ k) :
    tget d (tinsert t k v) k = v := by
  induction t with
  | nil => simp [tinsert, tget]
  | cons e r ih =>
    obtain ⟨k', v'⟩ := e
    have h1 : k' ≠ k := hn (k', v') (by simp)
    simp only [tinsert]
    split
    · simp [tget]
    · simp only [tget, h1, if_false]
      exact ih fun e he => hn e (by simp [he])

theorem tget_tinsert_ne (d : α) (t : List (Nat × α)) {k j : Nat} (v : α) (h : j ≠ k) : tget d (tinsert t k v) j = tget d t j := by
  induction t with
  | nil => simp [tinsert, tget, Ne.symm h]
  | cons e r ih =>
    obtain ⟨k', v'⟩ := e
    simp only [tinsert]
    split
    · simp [tget, Ne.symm h]
    · simp only [tget, ih]

theorem not_mem_terase (t : List (Nat × α)) (k : Nat) : ∀ e ∈ terase t k, e.1 ≠ k := by
  induction t with
  | nil => simp [terase]
  | cons e r ih =>
    obtain ⟨k', v⟩ := e
    simp only [terase]
    split
    · exact ih
    · rename_i h
      intro e he
      rcases List.mem_cons.mp he with rfl | he
      · exact h
      · exact ih e he

/-- Reading what has been written. -/
@[simp] theorem tget_tset_same [DecidableEq α] (d : α) (t : List (Nat × α)) (k : Nat) (v : α) : tget d (tset d t k v) k = v := by
  simp only [tset]
  split
  · rename_i h; rw [h, tget_terase_same]
  · exact tget_tinsert_same d _ k v (not_mem_terase t k)

/-- Reading another entry. -/
theorem tget_tset_ne [DecidableEq α] (d : α) (t : List (Nat × α)) {k j : Nat} (v : α) (h : j ≠ k) : tget d (tset d t k v) j = tget d t j := by
  simp only [tset]
  split
  · exact tget_terase_ne d t h
  · rw [tget_tinsert_ne d _ v h, tget_terase_ne d t h]

/-! ### The canonical form -/

/-- Keys strictly rising from a bound, no entry equal to the default. -/
def tsorted [DecidableEq α] (d : α) : Nat → List (Nat × α) → Prop
  | _, [] => True
  | lo, (k, v) :: r => lo ≤ k ∧ v ≠ d ∧ tsorted d (k + 1) r

theorem tsorted_mono [DecidableEq α] {d : α} {lo lo' : Nat} (t : List (Nat × α)) (h : lo' ≤ lo) (ht : tsorted d lo t) : tsorted d lo' t := by
  cases t with
  | nil => trivial
  | cons e r => exact ⟨Nat.le_trans h ht.1, ht.2⟩

theorem twf_iff [DecidableEq α] (d : α) : ∀ t : List (Nat × α), twf d t = true ↔ tsorted d 0 t := by
  have key : ∀ (t : List (Nat × α)) k v, twf d ((k, v) :: t) = true ↔ v ≠ d ∧ tsorted d (k + 1) t := by
    intro t
    induction t with
    | nil => intro k v; simp [twf, tsorted]
    | cons e r ih =>
      intro k v
      obtain ⟨k', v'⟩ := e
      simp only [twf, tsorted, Bool.and_eq_true, decide_eq_true_eq, ih, and_assoc, Nat.succ_le_iff]
  intro t
  cases t with
  | nil => simp [twf, tsorted]
  | cons e r => rw [key]; simp [tsorted]

theorem tsorted_terase [DecidableEq α] (d : α) (k : Nat) : ∀ (t : List (Nat × α)) lo, tsorted d lo t → tsorted d lo (terase t k)
  | [], _, _ => trivial
  | (k', v) :: r, lo, h => by
    simp only [terase]
    split
    · exact tsorted_mono _ (by have := h.1; omega) (tsorted_terase d k r (k' + 1) h.2.2)
    · exact ⟨h.1, h.2.1, tsorted_terase d k r (k' + 1) h.2.2⟩

theorem tsorted_tinsert [DecidableEq α] (d : α) (k : Nat) (v : α) (hv : v ≠ d) :
    ∀ (t : List (Nat × α)) lo, lo ≤ k → (∀ e ∈ t, e.1 ≠ k) → tsorted d lo t → tsorted d lo (tinsert t k v)
  | [], _, hlo, _, _ => ⟨hlo, hv, trivial⟩
  | (k', v') :: r, lo, hlo, hn, h => by
    have h1 : k' ≠ k := hn (k', v') (by simp)
    simp only [tinsert]
    split
    · rename_i hk; exact ⟨hlo, hv, hk, h.2.1, h.2.2⟩
    · exact ⟨h.1, h.2.1, tsorted_tinsert d k v hv r (k' + 1) (by omega) (fun e he => hn e (by simp [he])) h.2.2⟩

/-- Writing an entry keeps the canonical form. -/
theorem twf_tset [DecidableEq α] (d : α) (t : List (Nat × α)) (k : Nat) (v : α) (h : twf d t = true) : twf d (tset d t k v) = true := by
  rw [twf_iff] at *
  simp only [tset]
  split
  · exact tsorted_terase d k t 0 h
  · rename_i hv
    exact tsorted_tinsert d k v hv _ 0 (Nat.zero_le _) (not_mem_terase t k) (tsorted_terase d k t 0 h)

end Sys2Proof.Machine
end

