-- ==== Sys2Proof/Laws/Bits.lean ====
section
/-!
SUPPORT. Fields: what reading a field after writing one gives.
-/

namespace Sys2Proof.Machine

theorem testBit_nbits (n lo w i : Nat) : (nbits n lo w).testBit i = (decide (i < w) && n.testBit (lo + i)) := by
  simp [nbits, Nat.testBit_mod_two_pow, Nat.testBit_shiftRight]

theorem testBit_nput (n lo w v i : Nat) :
    (nput n lo w v).testBit i = if i < lo then n.testBit i else if i < lo + w then v.testBit (i - lo) else n.testBit i := by
  simp only [nput, Nat.testBit_or, Nat.testBit_shiftLeft, Nat.testBit_shiftRight, Nat.testBit_mod_two_pow]
  by_cases h1 : i < lo
  · simp [h1, show ¬ (i ≥ lo + w) by omega, show ¬ (i ≥ lo) by omega]
  · by_cases h2 : i < lo + w
    · simp [h1, h2, show ¬ (i ≥ lo + w) by omega, show i ≥ lo by omega, show i - lo < w by omega]
    · simp [h1, h2, show i ≥ lo + w by omega, show i ≥ lo by omega, show ¬ (i - lo < w) by omega, show lo + w + (i - (lo + w)) = i by omega]

/-- A field reads as written. -/
theorem nbits_nput_same (n lo w v : Nat) : nbits (nput n lo w v) lo w = v % 2 ^ w := by
  apply Nat.eq_of_testBit_eq
  intro i
  rw [testBit_nbits, testBit_nput, Nat.testBit_mod_two_pow]
  by_cases h : i < w
  · simp [h, show ¬ (lo + i < lo) by omega, show lo + i < lo + w by omega]
  · simp [h]

/-- Another field is unchanged. -/
theorem nbits_nput_ne (n lo w v lo' w' : Nat) (h : lo' + w' ≤ lo ∨ lo + w ≤ lo') : nbits (nput n lo w v) lo' w' = nbits n lo' w' := by
  apply Nat.eq_of_testBit_eq
  intro i
  rw [testBit_nbits, testBit_nbits, testBit_nput]
  by_cases hi : i < w'
  · rcases h with h | h
    · simp [hi, show lo' + i < lo by omega]
    · simp [hi, show ¬ (lo' + i < lo) by omega, show ¬ (lo' + i < lo + w) by omega]
  · simp [hi]

theorem nbits_mod (n k lo w : Nat) (h : lo + w ≤ k) : nbits (n % 2 ^ k) lo w = nbits n lo w := by
  apply Nat.eq_of_testBit_eq
  intro i
  rw [testBit_nbits, testBit_nbits, Nat.testBit_mod_two_pow]
  by_cases hi : i < w
  · simp [hi, show lo + i < k by omega]
  · simp [hi]

theorem fldOf_putFld_same (x : BitVec n) (lo w v : Nat) (h : lo + w ≤ n) : fldOf (putFld x lo w v) lo w = v % 2 ^ w := by
  simp only [fldOf, putFld, BitVec.toNat_ofNat]
  rw [nbits_mod _ _ _ _ h, nbits_nput_same]

theorem fldOf_putFld_ne (x : BitVec n) (lo w v lo' w' : Nat) (hn : lo' + w' ≤ n) (h : lo' + w' ≤ lo ∨ lo + w ≤ lo') :
    fldOf (putFld x lo w v) lo' w' = fldOf x lo' w' := by
  simp only [fldOf, putFld, BitVec.toNat_ofNat]
  rw [nbits_mod _ _ _ _ hn, nbits_nput_ne _ _ _ _ _ _ h]

theorem fldOf_lt (x : BitVec n) (lo w : Nat) : fldOf x lo w < 2 ^ w := Nat.mod_lt _ (Nat.two_pow_pos w)

end Sys2Proof.Machine
end

