-- ==== Sys2Proof/Laws/State.lean ====
section
/-!
SUPPORT. What each update of State leaves alone: one lemma for each field it does not write.
-/

namespace Sys2Proof.Machine

@[simp] theorem State.setReg_arc (s : State) (k : Nat) (v : W64) : (s.setReg k v).arc = s.arc := rfl
@[simp] theorem State.setReg_queues (s : State) (k : Nat) (v : W64) : (s.setReg k v).queues = s.queues := rfl
@[simp] theorem State.setReg_engs (s : State) (k : Nat) (v : W64) : (s.setReg k v).engs = s.engs := rfl
@[simp] theorem State.setReg_tes (s : State) (k : Nat) (v : W64) : (s.setReg k v).tes = s.tes := rfl
@[simp] theorem State.setReg_cores (s : State) (k : Nat) (v : W64) : (s.setReg k v).cores = s.cores := rfl
@[simp] theorem State.setReg_runs (s : State) (k : Nat) (v : W64) : (s.setReg k v).runs = s.runs := rfl
@[simp] theorem State.setReg_nextRun (s : State) (k : Nat) (v : W64) : (s.setReg k v).nextRun = s.nextRun := rfl
@[simp] theorem State.setReg_gangs (s : State) (k : Nat) (v : W64) : (s.setReg k v).gangs = s.gangs := rfl
@[simp] theorem State.setReg_mesh (s : State) (k : Nat) (v : W64) : (s.setReg k v).mesh = s.mesh := rfl
@[simp] theorem State.setReg_net (s : State) (k : Nat) (v : W64) : (s.setReg k v).net = s.net := rfl
@[simp] theorem State.setReg_host (s : State) (k : Nat) (v : W64) : (s.setReg k v).host = s.host := rfl
@[simp] theorem State.setReg_fab (s : State) (k : Nat) (v : W64) : (s.setReg k v).fab = s.fab := rfl
@[simp] theorem State.setReg_svc (s : State) (k : Nat) (v : W64) : (s.setReg k v).svc = s.svc := rfl
@[simp] theorem State.setReg_parts (s : State) (k : Nat) (v : W64) : (s.setReg k v).parts = s.parts := rfl
@[simp] theorem State.setReg_boot (s : State) (k : Nat) (v : W64) : (s.setReg k v).boot = s.boot := rfl
@[simp] theorem State.setReg_pwr (s : State) (k : Nat) (v : W64) : (s.setReg k v).pwr = s.pwr := rfl
@[simp] theorem State.setReg_errs (s : State) (k : Nat) (v : W64) : (s.setReg k v).errs = s.errs := rfl
@[simp] theorem State.setReg_errWait (s : State) (k : Nat) (v : W64) : (s.setReg k v).errWait = s.errWait := rfl
@[simp] theorem State.setReg_subUnits (s : State) (k : Nat) (v : W64) : (s.setReg k v).subUnits = s.subUnits := rfl
@[simp] theorem State.setReg_cyc (s : State) (k : Nat) (v : W64) : (s.setReg k v).cyc = s.cyc := rfl
@[simp] theorem State.setReg_free (s : State) (k : Nat) (v : W64) : (s.setReg k v).free = s.free := rfl
@[simp] theorem State.setReg_pending (s : State) (k : Nat) (v : W64) : (s.setReg k v).pending = s.pending := rfl

@[simp] theorem State.setFld_arc (s : State) (k lo w v : Nat) : (s.setFld k lo w v).arc = s.arc := rfl
@[simp] theorem State.setFld_queues (s : State) (k lo w v : Nat) : (s.setFld k lo w v).queues = s.queues := rfl
@[simp] theorem State.setFld_engs (s : State) (k lo w v : Nat) : (s.setFld k lo w v).engs = s.engs := rfl
@[simp] theorem State.setFld_tes (s : State) (k lo w v : Nat) : (s.setFld k lo w v).tes = s.tes := rfl
@[simp] theorem State.setFld_cores (s : State) (k lo w v : Nat) : (s.setFld k lo w v).cores = s.cores := rfl
@[simp] theorem State.setFld_runs (s : State) (k lo w v : Nat) : (s.setFld k lo w v).runs = s.runs := rfl
@[simp] theorem State.setFld_nextRun (s : State) (k lo w v : Nat) : (s.setFld k lo w v).nextRun = s.nextRun := rfl
@[simp] theorem State.setFld_gangs (s : State) (k lo w v : Nat) : (s.setFld k lo w v).gangs = s.gangs := rfl
@[simp] theorem State.setFld_mesh (s : State) (k lo w v : Nat) : (s.setFld k lo w v).mesh = s.mesh := rfl
@[simp] theorem State.setFld_net (s : State) (k lo w v : Nat) : (s.setFld k lo w v).net = s.net := rfl
@[simp] theorem State.setFld_host (s : State) (k lo w v : Nat) : (s.setFld k lo w v).host = s.host := rfl
@[simp] theorem State.setFld_fab (s : State) (k lo w v : Nat) : (s.setFld k lo w v).fab = s.fab := rfl
@[simp] theorem State.setFld_svc (s : State) (k lo w v : Nat) : (s.setFld k lo w v).svc = s.svc := rfl
@[simp] theorem State.setFld_parts (s : State) (k lo w v : Nat) : (s.setFld k lo w v).parts = s.parts := rfl
@[simp] theorem State.setFld_boot (s : State) (k lo w v : Nat) : (s.setFld k lo w v).boot = s.boot := rfl
@[simp] theorem State.setFld_pwr (s : State) (k lo w v : Nat) : (s.setFld k lo w v).pwr = s.pwr := rfl
@[simp] theorem State.setFld_errs (s : State) (k lo w v : Nat) : (s.setFld k lo w v).errs = s.errs := rfl
@[simp] theorem State.setFld_errWait (s : State) (k lo w v : Nat) : (s.setFld k lo w v).errWait = s.errWait := rfl
@[simp] theorem State.setFld_subUnits (s : State) (k lo w v : Nat) : (s.setFld k lo w v).subUnits = s.subUnits := rfl
@[simp] theorem State.setFld_cyc (s : State) (k lo w v : Nat) : (s.setFld k lo w v).cyc = s.cyc := rfl
@[simp] theorem State.setFld_free (s : State) (k lo w v : Nat) : (s.setFld k lo w v).free = s.free := rfl
@[simp] theorem State.setFld_pending (s : State) (k lo w v : Nat) : (s.setFld k lo w v).pending = s.pending := rfl

@[simp] theorem State.setBit_arc (s : State) (k lo : Nat) (b : Bool) : (s.setBit k lo b).arc = s.arc := rfl
@[simp] theorem State.setBit_queues (s : State) (k lo : Nat) (b : Bool) : (s.setBit k lo b).queues = s.queues := rfl
@[simp] theorem State.setBit_engs (s : State) (k lo : Nat) (b : Bool) : (s.setBit k lo b).engs = s.engs := rfl
@[simp] theorem State.setBit_tes (s : State) (k lo : Nat) (b : Bool) : (s.setBit k lo b).tes = s.tes := rfl
@[simp] theorem State.setBit_cores (s : State) (k lo : Nat) (b : Bool) : (s.setBit k lo b).cores = s.cores := rfl
@[simp] theorem State.setBit_runs (s : State) (k lo : Nat) (b : Bool) : (s.setBit k lo b).runs = s.runs := rfl
@[simp] theorem State.setBit_nextRun (s : State) (k lo : Nat) (b : Bool) : (s.setBit k lo b).nextRun = s.nextRun := rfl
@[simp] theorem State.setBit_gangs (s : State) (k lo : Nat) (b : Bool) : (s.setBit k lo b).gangs = s.gangs := rfl
@[simp] theorem State.setBit_mesh (s : State) (k lo : Nat) (b : Bool) : (s.setBit k lo b).mesh = s.mesh := rfl
@[simp] theorem State.setBit_net (s : State) (k lo : Nat) (b : Bool) : (s.setBit k lo b).net = s.net := rfl
@[simp] theorem State.setBit_host (s : State) (k lo : Nat) (b : Bool) : (s.setBit k lo b).host = s.host := rfl
@[simp] theorem State.setBit_fab (s : State) (k lo : Nat) (b : Bool) : (s.setBit k lo b).fab = s.fab := rfl
@[simp] theorem State.setBit_svc (s : State) (k lo : Nat) (b : Bool) : (s.setBit k lo b).svc = s.svc := rfl
@[simp] theorem State.setBit_parts (s : State) (k lo : Nat) (b : Bool) : (s.setBit k lo b).parts = s.parts := rfl
@[simp] theorem State.setBit_boot (s : State) (k lo : Nat) (b : Bool) : (s.setBit k lo b).boot = s.boot := rfl
@[simp] theorem State.setBit_pwr (s : State) (k lo : Nat) (b : Bool) : (s.setBit k lo b).pwr = s.pwr := rfl
@[simp] theorem State.setBit_errs (s : State) (k lo : Nat) (b : Bool) : (s.setBit k lo b).errs = s.errs := rfl
@[simp] theorem State.setBit_errWait (s : State) (k lo : Nat) (b : Bool) : (s.setBit k lo b).errWait = s.errWait := rfl
@[simp] theorem State.setBit_subUnits (s : State) (k lo : Nat) (b : Bool) : (s.setBit k lo b).subUnits = s.subUnits := rfl
@[simp] theorem State.setBit_cyc (s : State) (k lo : Nat) (b : Bool) : (s.setBit k lo b).cyc = s.cyc := rfl
@[simp] theorem State.setBit_free (s : State) (k lo : Nat) (b : Bool) : (s.setBit k lo b).free = s.free := rfl
@[simp] theorem State.setBit_pending (s : State) (k lo : Nat) (b : Bool) : (s.setBit k lo b).pending = s.pending := rfl

@[simp] theorem State.sat_arc (s : State) (k lo w n : Nat) : (s.sat k lo w n).arc = s.arc := rfl
@[simp] theorem State.sat_queues (s : State) (k lo w n : Nat) : (s.sat k lo w n).queues = s.queues := rfl
@[simp] theorem State.sat_engs (s : State) (k lo w n : Nat) : (s.sat k lo w n).engs = s.engs := rfl
@[simp] theorem State.sat_tes (s : State) (k lo w n : Nat) : (s.sat k lo w n).tes = s.tes := rfl
@[simp] theorem State.sat_cores (s : State) (k lo w n : Nat) : (s.sat k lo w n).cores = s.cores := rfl
@[simp] theorem State.sat_runs (s : State) (k lo w n : Nat) : (s.sat k lo w n).runs = s.runs := rfl
@[simp] theorem State.sat_nextRun (s : State) (k lo w n : Nat) : (s.sat k lo w n).nextRun = s.nextRun := rfl
@[simp] theorem State.sat_gangs (s : State) (k lo w n : Nat) : (s.sat k lo w n).gangs = s.gangs := rfl
@[simp] theorem State.sat_mesh (s : State) (k lo w n : Nat) : (s.sat k lo w n).mesh = s.mesh := rfl
@[simp] theorem State.sat_net (s : State) (k lo w n : Nat) : (s.sat k lo w n).net = s.net := rfl
@[simp] theorem State.sat_host (s : State) (k lo w n : Nat) : (s.sat k lo w n).host = s.host := rfl
@[simp] theorem State.sat_fab (s : State) (k lo w n : Nat) : (s.sat k lo w n).fab = s.fab := rfl
@[simp] theorem State.sat_svc (s : State) (k lo w n : Nat) : (s.sat k lo w n).svc = s.svc := rfl
@[simp] theorem State.sat_parts (s : State) (k lo w n : Nat) : (s.sat k lo w n).parts = s.parts := rfl
@[simp] theorem State.sat_boot (s : State) (k lo w n : Nat) : (s.sat k lo w n).boot = s.boot := rfl
@[simp] theorem State.sat_pwr (s : State) (k lo w n : Nat) : (s.sat k lo w n).pwr = s.pwr := rfl
@[simp] theorem State.sat_errs (s : State) (k lo w n : Nat) : (s.sat k lo w n).errs = s.errs := rfl
@[simp] theorem State.sat_errWait (s : State) (k lo w n : Nat) : (s.sat k lo w n).errWait = s.errWait := rfl
@[simp] theorem State.sat_subUnits (s : State) (k lo w n : Nat) : (s.sat k lo w n).subUnits = s.subUnits := rfl
@[simp] theorem State.sat_cyc (s : State) (k lo w n : Nat) : (s.sat k lo w n).cyc = s.cyc := rfl
@[simp] theorem State.sat_free (s : State) (k lo w n : Nat) : (s.sat k lo w n).free = s.free := rfl
@[simp] theorem State.sat_pending (s : State) (k lo w n : Nat) : (s.sat k lo w n).pending = s.pending := rfl

@[simp] theorem State.bump_arc (s : State) (k lo w n : Nat) : (s.bump k lo w n).arc = s.arc := rfl
@[simp] theorem State.bump_queues (s : State) (k lo w n : Nat) : (s.bump k lo w n).queues = s.queues := rfl
@[simp] theorem State.bump_engs (s : State) (k lo w n : Nat) : (s.bump k lo w n).engs = s.engs := rfl
@[simp] theorem State.bump_tes (s : State) (k lo w n : Nat) : (s.bump k lo w n).tes = s.tes := rfl
@[simp] theorem State.bump_cores (s : State) (k lo w n : Nat) : (s.bump k lo w n).cores = s.cores := rfl
@[simp] theorem State.bump_runs (s : State) (k lo w n : Nat) : (s.bump k lo w n).runs = s.runs := rfl
@[simp] theorem State.bump_nextRun (s : State) (k lo w n : Nat) : (s.bump k lo w n).nextRun = s.nextRun := rfl
@[simp] theorem State.bump_gangs (s : State) (k lo w n : Nat) : (s.bump k lo w n).gangs = s.gangs := rfl
@[simp] theorem State.bump_mesh (s : State) (k lo w n : Nat) : (s.bump k lo w n).mesh = s.mesh := rfl
@[simp] theorem State.bump_net (s : State) (k lo w n : Nat) : (s.bump k lo w n).net = s.net := rfl
@[simp] theorem State.bump_host (s : State) (k lo w n : Nat) : (s.bump k lo w n).host = s.host := rfl
@[simp] theorem State.bump_fab (s : State) (k lo w n : Nat) : (s.bump k lo w n).fab = s.fab := rfl
@[simp] theorem State.bump_svc (s : State) (k lo w n : Nat) : (s.bump k lo w n).svc = s.svc := rfl
@[simp] theorem State.bump_parts (s : State) (k lo w n : Nat) : (s.bump k lo w n).parts = s.parts := rfl
@[simp] theorem State.bump_boot (s : State) (k lo w n : Nat) : (s.bump k lo w n).boot = s.boot := rfl
@[simp] theorem State.bump_pwr (s : State) (k lo w n : Nat) : (s.bump k lo w n).pwr = s.pwr := rfl
@[simp] theorem State.bump_errs (s : State) (k lo w n : Nat) : (s.bump k lo w n).errs = s.errs := rfl
@[simp] theorem State.bump_errWait (s : State) (k lo w n : Nat) : (s.bump k lo w n).errWait = s.errWait := rfl
@[simp] theorem State.bump_subUnits (s : State) (k lo w n : Nat) : (s.bump k lo w n).subUnits = s.subUnits := rfl
@[simp] theorem State.bump_cyc (s : State) (k lo w n : Nat) : (s.bump k lo w n).cyc = s.cyc := rfl
@[simp] theorem State.bump_free (s : State) (k lo w n : Nat) : (s.bump k lo w n).free = s.free := rfl
@[simp] theorem State.bump_pending (s : State) (k lo w n : Nat) : (s.bump k lo w n).pending = s.pending := rfl

@[simp] theorem State.setQ_regs (s : State) (q : QRef) (x : QueX) : (s.setQ q x).regs = s.regs := rfl
@[simp] theorem State.setQ_arc (s : State) (q : QRef) (x : QueX) : (s.setQ q x).arc = s.arc := rfl
@[simp] theorem State.setQ_engs (s : State) (q : QRef) (x : QueX) : (s.setQ q x).engs = s.engs := rfl
@[simp] theorem State.setQ_tes (s : State) (q : QRef) (x : QueX) : (s.setQ q x).tes = s.tes := rfl
@[simp] theorem State.setQ_cores (s : State) (q : QRef) (x : QueX) : (s.setQ q x).cores = s.cores := rfl
@[simp] theorem State.setQ_runs (s : State) (q : QRef) (x : QueX) : (s.setQ q x).runs = s.runs := rfl
@[simp] theorem State.setQ_nextRun (s : State) (q : QRef) (x : QueX) : (s.setQ q x).nextRun = s.nextRun := rfl
@[simp] theorem State.setQ_gangs (s : State) (q : QRef) (x : QueX) : (s.setQ q x).gangs = s.gangs := rfl
@[simp] theorem State.setQ_mesh (s : State) (q : QRef) (x : QueX) : (s.setQ q x).mesh = s.mesh := rfl
@[simp] theorem State.setQ_net (s : State) (q : QRef) (x : QueX) : (s.setQ q x).net = s.net := rfl
@[simp] theorem State.setQ_host (s : State) (q : QRef) (x : QueX) : (s.setQ q x).host = s.host := rfl
@[simp] theorem State.setQ_fab (s : State) (q : QRef) (x : QueX) : (s.setQ q x).fab = s.fab := rfl
@[simp] theorem State.setQ_svc (s : State) (q : QRef) (x : QueX) : (s.setQ q x).svc = s.svc := rfl
@[simp] theorem State.setQ_parts (s : State) (q : QRef) (x : QueX) : (s.setQ q x).parts = s.parts := rfl
@[simp] theorem State.setQ_boot (s : State) (q : QRef) (x : QueX) : (s.setQ q x).boot = s.boot := rfl
@[simp] theorem State.setQ_pwr (s : State) (q : QRef) (x : QueX) : (s.setQ q x).pwr = s.pwr := rfl
@[simp] theorem State.setQ_errs (s : State) (q : QRef) (x : QueX) : (s.setQ q x).errs = s.errs := rfl
@[simp] theorem State.setQ_errWait (s : State) (q : QRef) (x : QueX) : (s.setQ q x).errWait = s.errWait := rfl
@[simp] theorem State.setQ_subUnits (s : State) (q : QRef) (x : QueX) : (s.setQ q x).subUnits = s.subUnits := rfl
@[simp] theorem State.setQ_cyc (s : State) (q : QRef) (x : QueX) : (s.setQ q x).cyc = s.cyc := rfl
@[simp] theorem State.setQ_free (s : State) (q : QRef) (x : QueX) : (s.setQ q x).free = s.free := rfl
@[simp] theorem State.setQ_pending (s : State) (q : QRef) (x : QueX) : (s.setQ q x).pending = s.pending := rfl

@[simp] theorem State.modQ_regs (s : State) (q : QRef) (f : QueX → QueX) : (s.modQ q f).regs = s.regs := rfl
@[simp] theorem State.modQ_arc (s : State) (q : QRef) (f : QueX → QueX) : (s.modQ q f).arc = s.arc := rfl
@[simp] theorem State.modQ_engs (s : State) (q : QRef) (f : QueX → QueX) : (s.modQ q f).engs = s.engs := rfl
@[simp] theorem State.modQ_tes (s : State) (q : QRef) (f : QueX → QueX) : (s.modQ q f).tes = s.tes := rfl
@[simp] theorem State.modQ_cores (s : State) (q : QRef) (f : QueX → QueX) : (s.modQ q f).cores = s.cores := rfl
@[simp] theorem State.modQ_runs (s : State) (q : QRef) (f : QueX → QueX) : (s.modQ q f).runs = s.runs := rfl
@[simp] theorem State.modQ_nextRun (s : State) (q : QRef) (f : QueX → QueX) : (s.modQ q f).nextRun = s.nextRun := rfl
@[simp] theorem State.modQ_gangs (s : State) (q : QRef) (f : QueX → QueX) : (s.modQ q f).gangs = s.gangs := rfl
@[simp] theorem State.modQ_mesh (s : State) (q : QRef) (f : QueX → QueX) : (s.modQ q f).mesh = s.mesh := rfl
@[simp] theorem State.modQ_net (s : State) (q : QRef) (f : QueX → QueX) : (s.modQ q f).net = s.net := rfl
@[simp] theorem State.modQ_host (s : State) (q : QRef) (f : QueX → QueX) : (s.modQ q f).host = s.host := rfl
@[simp] theorem State.modQ_fab (s : State) (q : QRef) (f : QueX → QueX) : (s.modQ q f).fab = s.fab := rfl
@[simp] theorem State.modQ_svc (s : State) (q : QRef) (f : QueX → QueX) : (s.modQ q f).svc = s.svc := rfl
@[simp] theorem State.modQ_parts (s : State) (q : QRef) (f : QueX → QueX) : (s.modQ q f).parts = s.parts := rfl
@[simp] theorem State.modQ_boot (s : State) (q : QRef) (f : QueX → QueX) : (s.modQ q f).boot = s.boot := rfl
@[simp] theorem State.modQ_pwr (s : State) (q : QRef) (f : QueX → QueX) : (s.modQ q f).pwr = s.pwr := rfl
@[simp] theorem State.modQ_errs (s : State) (q : QRef) (f : QueX → QueX) : (s.modQ q f).errs = s.errs := rfl
@[simp] theorem State.modQ_errWait (s : State) (q : QRef) (f : QueX → QueX) : (s.modQ q f).errWait = s.errWait := rfl
@[simp] theorem State.modQ_subUnits (s : State) (q : QRef) (f : QueX → QueX) : (s.modQ q f).subUnits = s.subUnits := rfl
@[simp] theorem State.modQ_cyc (s : State) (q : QRef) (f : QueX → QueX) : (s.modQ q f).cyc = s.cyc := rfl
@[simp] theorem State.modQ_free (s : State) (q : QRef) (f : QueX → QueX) : (s.modQ q f).free = s.free := rfl
@[simp] theorem State.modQ_pending (s : State) (q : QRef) (f : QueX → QueX) : (s.modQ q f).pending = s.pending := rfl

@[simp] theorem State.setEng_regs (s : State) (c e : Nat) (x : EngX) : (s.setEng c e x).regs = s.regs := rfl
@[simp] theorem State.setEng_arc (s : State) (c e : Nat) (x : EngX) : (s.setEng c e x).arc = s.arc := rfl
@[simp] theorem State.setEng_queues (s : State) (c e : Nat) (x : EngX) : (s.setEng c e x).queues = s.queues := rfl
@[simp] theorem State.setEng_tes (s : State) (c e : Nat) (x : EngX) : (s.setEng c e x).tes = s.tes := rfl
@[simp] theorem State.setEng_cores (s : State) (c e : Nat) (x : EngX) : (s.setEng c e x).cores = s.cores := rfl
@[simp] theorem State.setEng_runs (s : State) (c e : Nat) (x : EngX) : (s.setEng c e x).runs = s.runs := rfl
@[simp] theorem State.setEng_nextRun (s : State) (c e : Nat) (x : EngX) : (s.setEng c e x).nextRun = s.nextRun := rfl
@[simp] theorem State.setEng_gangs (s : State) (c e : Nat) (x : EngX) : (s.setEng c e x).gangs = s.gangs := rfl
@[simp] theorem State.setEng_mesh (s : State) (c e : Nat) (x : EngX) : (s.setEng c e x).mesh = s.mesh := rfl
@[simp] theorem State.setEng_net (s : State) (c e : Nat) (x : EngX) : (s.setEng c e x).net = s.net := rfl
@[simp] theorem State.setEng_host (s : State) (c e : Nat) (x : EngX) : (s.setEng c e x).host = s.host := rfl
@[simp] theorem State.setEng_fab (s : State) (c e : Nat) (x : EngX) : (s.setEng c e x).fab = s.fab := rfl
@[simp] theorem State.setEng_svc (s : State) (c e : Nat) (x : EngX) : (s.setEng c e x).svc = s.svc := rfl
@[simp] theorem State.setEng_parts (s : State) (c e : Nat) (x : EngX) : (s.setEng c e x).parts = s.parts := rfl
@[simp] theorem State.setEng_boot (s : State) (c e : Nat) (x : EngX) : (s.setEng c e x).boot = s.boot := rfl
@[simp] theorem State.setEng_pwr (s : State) (c e : Nat) (x : EngX) : (s.setEng c e x).pwr = s.pwr := rfl
@[simp] theorem State.setEng_errs (s : State) (c e : Nat) (x : EngX) : (s.setEng c e x).errs = s.errs := rfl
@[simp] theorem State.setEng_errWait (s : State) (c e : Nat) (x : EngX) : (s.setEng c e x).errWait = s.errWait := rfl
@[simp] theorem State.setEng_subUnits (s : State) (c e : Nat) (x : EngX) : (s.setEng c e x).subUnits = s.subUnits := rfl
@[simp] theorem State.setEng_cyc (s : State) (c e : Nat) (x : EngX) : (s.setEng c e x).cyc = s.cyc := rfl
@[simp] theorem State.setEng_free (s : State) (c e : Nat) (x : EngX) : (s.setEng c e x).free = s.free := rfl
@[simp] theorem State.setEng_pending (s : State) (c e : Nat) (x : EngX) : (s.setEng c e x).pending = s.pending := rfl

@[simp] theorem State.setTe_regs (s : State) (c : Nat) (x : TeX) : (s.setTe c x).regs = s.regs := rfl
@[simp] theorem State.setTe_arc (s : State) (c : Nat) (x : TeX) : (s.setTe c x).arc = s.arc := rfl
@[simp] theorem State.setTe_queues (s : State) (c : Nat) (x : TeX) : (s.setTe c x).queues = s.queues := rfl
@[simp] theorem State.setTe_engs (s : State) (c : Nat) (x : TeX) : (s.setTe c x).engs = s.engs := rfl
@[simp] theorem State.setTe_cores (s : State) (c : Nat) (x : TeX) : (s.setTe c x).cores = s.cores := rfl
@[simp] theorem State.setTe_runs (s : State) (c : Nat) (x : TeX) : (s.setTe c x).runs = s.runs := rfl
@[simp] theorem State.setTe_nextRun (s : State) (c : Nat) (x : TeX) : (s.setTe c x).nextRun = s.nextRun := rfl
@[simp] theorem State.setTe_gangs (s : State) (c : Nat) (x : TeX) : (s.setTe c x).gangs = s.gangs := rfl
@[simp] theorem State.setTe_mesh (s : State) (c : Nat) (x : TeX) : (s.setTe c x).mesh = s.mesh := rfl
@[simp] theorem State.setTe_net (s : State) (c : Nat) (x : TeX) : (s.setTe c x).net = s.net := rfl
@[simp] theorem State.setTe_host (s : State) (c : Nat) (x : TeX) : (s.setTe c x).host = s.host := rfl
@[simp] theorem State.setTe_fab (s : State) (c : Nat) (x : TeX) : (s.setTe c x).fab = s.fab := rfl
@[simp] theorem State.setTe_svc (s : State) (c : Nat) (x : TeX) : (s.setTe c x).svc = s.svc := rfl
@[simp] theorem State.setTe_parts (s : State) (c : Nat) (x : TeX) : (s.setTe c x).parts = s.parts := rfl
@[simp] theorem State.setTe_boot (s : State) (c : Nat) (x : TeX) : (s.setTe c x).boot = s.boot := rfl
@[simp] theorem State.setTe_pwr (s : State) (c : Nat) (x : TeX) : (s.setTe c x).pwr = s.pwr := rfl
@[simp] theorem State.setTe_errs (s : State) (c : Nat) (x : TeX) : (s.setTe c x).errs = s.errs := rfl
@[simp] theorem State.setTe_errWait (s : State) (c : Nat) (x : TeX) : (s.setTe c x).errWait = s.errWait := rfl
@[simp] theorem State.setTe_subUnits (s : State) (c : Nat) (x : TeX) : (s.setTe c x).subUnits = s.subUnits := rfl
@[simp] theorem State.setTe_cyc (s : State) (c : Nat) (x : TeX) : (s.setTe c x).cyc = s.cyc := rfl
@[simp] theorem State.setTe_free (s : State) (c : Nat) (x : TeX) : (s.setTe c x).free = s.free := rfl
@[simp] theorem State.setTe_pending (s : State) (c : Nat) (x : TeX) : (s.setTe c x).pending = s.pending := rfl

@[simp] theorem State.setCoreX_regs (s : State) (c : Nat) (x : CoreX) : (s.setCoreX c x).regs = s.regs := rfl
@[simp] theorem State.setCoreX_arc (s : State) (c : Nat) (x : CoreX) : (s.setCoreX c x).arc = s.arc := rfl
@[simp] theorem State.setCoreX_queues (s : State) (c : Nat) (x : CoreX) : (s.setCoreX c x).queues = s.queues := rfl
@[simp] theorem State.setCoreX_engs (s : State) (c : Nat) (x : CoreX) : (s.setCoreX c x).engs = s.engs := rfl
@[simp] theorem State.setCoreX_tes (s : State) (c : Nat) (x : CoreX) : (s.setCoreX c x).tes = s.tes := rfl
@[simp] theorem State.setCoreX_runs (s : State) (c : Nat) (x : CoreX) : (s.setCoreX c x).runs = s.runs := rfl
@[simp] theorem State.setCoreX_nextRun (s : State) (c : Nat) (x : CoreX) : (s.setCoreX c x).nextRun = s.nextRun := rfl
@[simp] theorem State.setCoreX_gangs (s : State) (c : Nat) (x : CoreX) : (s.setCoreX c x).gangs = s.gangs := rfl
@[simp] theorem State.setCoreX_mesh (s : State) (c : Nat) (x : CoreX) : (s.setCoreX c x).mesh = s.mesh := rfl
@[simp] theorem State.setCoreX_net (s : State) (c : Nat) (x : CoreX) : (s.setCoreX c x).net = s.net := rfl
@[simp] theorem State.setCoreX_host (s : State) (c : Nat) (x : CoreX) : (s.setCoreX c x).host = s.host := rfl
@[simp] theorem State.setCoreX_fab (s : State) (c : Nat) (x : CoreX) : (s.setCoreX c x).fab = s.fab := rfl
@[simp] theorem State.setCoreX_svc (s : State) (c : Nat) (x : CoreX) : (s.setCoreX c x).svc = s.svc := rfl
@[simp] theorem State.setCoreX_parts (s : State) (c : Nat) (x : CoreX) : (s.setCoreX c x).parts = s.parts := rfl
@[simp] theorem State.setCoreX_boot (s : State) (c : Nat) (x : CoreX) : (s.setCoreX c x).boot = s.boot := rfl
@[simp] theorem State.setCoreX_pwr (s : State) (c : Nat) (x : CoreX) : (s.setCoreX c x).pwr = s.pwr := rfl
@[simp] theorem State.setCoreX_errs (s : State) (c : Nat) (x : CoreX) : (s.setCoreX c x).errs = s.errs := rfl
@[simp] theorem State.setCoreX_errWait (s : State) (c : Nat) (x : CoreX) : (s.setCoreX c x).errWait = s.errWait := rfl
@[simp] theorem State.setCoreX_subUnits (s : State) (c : Nat) (x : CoreX) : (s.setCoreX c x).subUnits = s.subUnits := rfl
@[simp] theorem State.setCoreX_cyc (s : State) (c : Nat) (x : CoreX) : (s.setCoreX c x).cyc = s.cyc := rfl
@[simp] theorem State.setCoreX_free (s : State) (c : Nat) (x : CoreX) : (s.setCoreX c x).free = s.free := rfl
@[simp] theorem State.setCoreX_pending (s : State) (c : Nat) (x : CoreX) : (s.setCoreX c x).pending = s.pending := rfl

@[simp] theorem State.setRun_regs (s : State) (id : Nat) (r : Option Run) : (s.setRun id r).regs = s.regs := rfl
@[simp] theorem State.setRun_arc (s : State) (id : Nat) (r : Option Run) : (s.setRun id r).arc = s.arc := rfl
@[simp] theorem State.setRun_queues (s : State) (id : Nat) (r : Option Run) : (s.setRun id r).queues = s.queues := rfl
@[simp] theorem State.setRun_engs (s : State) (id : Nat) (r : Option Run) : (s.setRun id r).engs = s.engs := rfl
@[simp] theorem State.setRun_tes (s : State) (id : Nat) (r : Option Run) : (s.setRun id r).tes = s.tes := rfl
@[simp] theorem State.setRun_cores (s : State) (id : Nat) (r : Option Run) : (s.setRun id r).cores = s.cores := rfl
@[simp] theorem State.setRun_nextRun (s : State) (id : Nat) (r : Option Run) : (s.setRun id r).nextRun = s.nextRun := rfl
@[simp] theorem State.setRun_gangs (s : State) (id : Nat) (r : Option Run) : (s.setRun id r).gangs = s.gangs := rfl
@[simp] theorem State.setRun_mesh (s : State) (id : Nat) (r : Option Run) : (s.setRun id r).mesh = s.mesh := rfl
@[simp] theorem State.setRun_net (s : State) (id : Nat) (r : Option Run) : (s.setRun id r).net = s.net := rfl
@[simp] theorem State.setRun_host (s : State) (id : Nat) (r : Option Run) : (s.setRun id r).host = s.host := rfl
@[simp] theorem State.setRun_fab (s : State) (id : Nat) (r : Option Run) : (s.setRun id r).fab = s.fab := rfl
@[simp] theorem State.setRun_svc (s : State) (id : Nat) (r : Option Run) : (s.setRun id r).svc = s.svc := rfl
@[simp] theorem State.setRun_parts (s : State) (id : Nat) (r : Option Run) : (s.setRun id r).parts = s.parts := rfl
@[simp] theorem State.setRun_boot (s : State) (id : Nat) (r : Option Run) : (s.setRun id r).boot = s.boot := rfl
@[simp] theorem State.setRun_pwr (s : State) (id : Nat) (r : Option Run) : (s.setRun id r).pwr = s.pwr := rfl
@[simp] theorem State.setRun_errs (s : State) (id : Nat) (r : Option Run) : (s.setRun id r).errs = s.errs := rfl
@[simp] theorem State.setRun_errWait (s : State) (id : Nat) (r : Option Run) : (s.setRun id r).errWait = s.errWait := rfl
@[simp] theorem State.setRun_subUnits (s : State) (id : Nat) (r : Option Run) : (s.setRun id r).subUnits = s.subUnits := rfl
@[simp] theorem State.setRun_cyc (s : State) (id : Nat) (r : Option Run) : (s.setRun id r).cyc = s.cyc := rfl
@[simp] theorem State.setRun_free (s : State) (id : Nat) (r : Option Run) : (s.setRun id r).free = s.free := rfl
@[simp] theorem State.setRun_pending (s : State) (id : Nat) (r : Option Run) : (s.setRun id r).pending = s.pending := rfl

@[simp] theorem State.setPart_regs (s : State) (p : Nat) (x : PartX) : (s.setPart p x).regs = s.regs := rfl
@[simp] theorem State.setPart_arc (s : State) (p : Nat) (x : PartX) : (s.setPart p x).arc = s.arc := rfl
@[simp] theorem State.setPart_queues (s : State) (p : Nat) (x : PartX) : (s.setPart p x).queues = s.queues := rfl
@[simp] theorem State.setPart_engs (s : State) (p : Nat) (x : PartX) : (s.setPart p x).engs = s.engs := rfl
@[simp] theorem State.setPart_tes (s : State) (p : Nat) (x : PartX) : (s.setPart p x).tes = s.tes := rfl
@[simp] theorem State.setPart_cores (s : State) (p : Nat) (x : PartX) : (s.setPart p x).cores = s.cores := rfl
@[simp] theorem State.setPart_runs (s : State) (p : Nat) (x : PartX) : (s.setPart p x).runs = s.runs := rfl
@[simp] theorem State.setPart_nextRun (s : State) (p : Nat) (x : PartX) : (s.setPart p x).nextRun = s.nextRun := rfl
@[simp] theorem State.setPart_gangs (s : State) (p : Nat) (x : PartX) : (s.setPart p x).gangs = s.gangs := rfl
@[simp] theorem State.setPart_mesh (s : State) (p : Nat) (x : PartX) : (s.setPart p x).mesh = s.mesh := rfl
@[simp] theorem State.setPart_net (s : State) (p : Nat) (x : PartX) : (s.setPart p x).net = s.net := rfl
@[simp] theorem State.setPart_host (s : State) (p : Nat) (x : PartX) : (s.setPart p x).host = s.host := rfl
@[simp] theorem State.setPart_fab (s : State) (p : Nat) (x : PartX) : (s.setPart p x).fab = s.fab := rfl
@[simp] theorem State.setPart_svc (s : State) (p : Nat) (x : PartX) : (s.setPart p x).svc = s.svc := rfl
@[simp] theorem State.setPart_boot (s : State) (p : Nat) (x : PartX) : (s.setPart p x).boot = s.boot := rfl
@[simp] theorem State.setPart_pwr (s : State) (p : Nat) (x : PartX) : (s.setPart p x).pwr = s.pwr := rfl
@[simp] theorem State.setPart_errs (s : State) (p : Nat) (x : PartX) : (s.setPart p x).errs = s.errs := rfl
@[simp] theorem State.setPart_errWait (s : State) (p : Nat) (x : PartX) : (s.setPart p x).errWait = s.errWait := rfl
@[simp] theorem State.setPart_subUnits (s : State) (p : Nat) (x : PartX) : (s.setPart p x).subUnits = s.subUnits := rfl
@[simp] theorem State.setPart_cyc (s : State) (p : Nat) (x : PartX) : (s.setPart p x).cyc = s.cyc := rfl
@[simp] theorem State.setPart_free (s : State) (p : Nat) (x : PartX) : (s.setPart p x).free = s.free := rfl
@[simp] theorem State.setPart_pending (s : State) (p : Nat) (x : PartX) : (s.setPart p x).pending = s.pending := rfl

@[simp] theorem State.setSvcX_regs (s : State) (p k : Nat) (x : SvcX) : (s.setSvcX p k x).regs = s.regs := rfl
@[simp] theorem State.setSvcX_arc (s : State) (p k : Nat) (x : SvcX) : (s.setSvcX p k x).arc = s.arc := rfl
@[simp] theorem State.setSvcX_queues (s : State) (p k : Nat) (x : SvcX) : (s.setSvcX p k x).queues = s.queues := rfl
@[simp] theorem State.setSvcX_engs (s : State) (p k : Nat) (x : SvcX) : (s.setSvcX p k x).engs = s.engs := rfl
@[simp] theorem State.setSvcX_tes (s : State) (p k : Nat) (x : SvcX) : (s.setSvcX p k x).tes = s.tes := rfl
@[simp] theorem State.setSvcX_cores (s : State) (p k : Nat) (x : SvcX) : (s.setSvcX p k x).cores = s.cores := rfl
@[simp] theorem State.setSvcX_runs (s : State) (p k : Nat) (x : SvcX) : (s.setSvcX p k x).runs = s.runs := rfl
@[simp] theorem State.setSvcX_nextRun (s : State) (p k : Nat) (x : SvcX) : (s.setSvcX p k x).nextRun = s.nextRun := rfl
@[simp] theorem State.setSvcX_gangs (s : State) (p k : Nat) (x : SvcX) : (s.setSvcX p k x).gangs = s.gangs := rfl
@[simp] theorem State.setSvcX_mesh (s : State) (p k : Nat) (x : SvcX) : (s.setSvcX p k x).mesh = s.mesh := rfl
@[simp] theorem State.setSvcX_net (s : State) (p k : Nat) (x : SvcX) : (s.setSvcX p k x).net = s.net := rfl
@[simp] theorem State.setSvcX_host (s : State) (p k : Nat) (x : SvcX) : (s.setSvcX p k x).host = s.host := rfl
@[simp] theorem State.setSvcX_fab (s : State) (p k : Nat) (x : SvcX) : (s.setSvcX p k x).fab = s.fab := rfl
@[simp] theorem State.setSvcX_parts (s : State) (p k : Nat) (x : SvcX) : (s.setSvcX p k x).parts = s.parts := rfl
@[simp] theorem State.setSvcX_boot (s : State) (p k : Nat) (x : SvcX) : (s.setSvcX p k x).boot = s.boot := rfl
@[simp] theorem State.setSvcX_pwr (s : State) (p k : Nat) (x : SvcX) : (s.setSvcX p k x).pwr = s.pwr := rfl
@[simp] theorem State.setSvcX_errs (s : State) (p k : Nat) (x : SvcX) : (s.setSvcX p k x).errs = s.errs := rfl
@[simp] theorem State.setSvcX_errWait (s : State) (p k : Nat) (x : SvcX) : (s.setSvcX p k x).errWait = s.errWait := rfl
@[simp] theorem State.setSvcX_subUnits (s : State) (p k : Nat) (x : SvcX) : (s.setSvcX p k x).subUnits = s.subUnits := rfl
@[simp] theorem State.setSvcX_cyc (s : State) (p k : Nat) (x : SvcX) : (s.setSvcX p k x).cyc = s.cyc := rfl
@[simp] theorem State.setSvcX_free (s : State) (p k : Nat) (x : SvcX) : (s.setSvcX p k x).free = s.free := rfl
@[simp] theorem State.setSvcX_pending (s : State) (p k : Nat) (x : SvcX) : (s.setSvcX p k x).pending = s.pending := rfl

@[simp] theorem State.setLink_regs (s : State) (k : Nat) (x : LinkX) : (s.setLink k x).regs = s.regs := rfl
@[simp] theorem State.setLink_arc (s : State) (k : Nat) (x : LinkX) : (s.setLink k x).arc = s.arc := rfl
@[simp] theorem State.setLink_queues (s : State) (k : Nat) (x : LinkX) : (s.setLink k x).queues = s.queues := rfl
@[simp] theorem State.setLink_engs (s : State) (k : Nat) (x : LinkX) : (s.setLink k x).engs = s.engs := rfl
@[simp] theorem State.setLink_tes (s : State) (k : Nat) (x : LinkX) : (s.setLink k x).tes = s.tes := rfl
@[simp] theorem State.setLink_cores (s : State) (k : Nat) (x : LinkX) : (s.setLink k x).cores = s.cores := rfl
@[simp] theorem State.setLink_runs (s : State) (k : Nat) (x : LinkX) : (s.setLink k x).runs = s.runs := rfl
@[simp] theorem State.setLink_nextRun (s : State) (k : Nat) (x : LinkX) : (s.setLink k x).nextRun = s.nextRun := rfl
@[simp] theorem State.setLink_gangs (s : State) (k : Nat) (x : LinkX) : (s.setLink k x).gangs = s.gangs := rfl
@[simp] theorem State.setLink_net (s : State) (k : Nat) (x : LinkX) : (s.setLink k x).net = s.net := rfl
@[simp] theorem State.setLink_host (s : State) (k : Nat) (x : LinkX) : (s.setLink k x).host = s.host := rfl
@[simp] theorem State.setLink_fab (s : State) (k : Nat) (x : LinkX) : (s.setLink k x).fab = s.fab := rfl
@[simp] theorem State.setLink_svc (s : State) (k : Nat) (x : LinkX) : (s.setLink k x).svc = s.svc := rfl
@[simp] theorem State.setLink_parts (s : State) (k : Nat) (x : LinkX) : (s.setLink k x).parts = s.parts := rfl
@[simp] theorem State.setLink_boot (s : State) (k : Nat) (x : LinkX) : (s.setLink k x).boot = s.boot := rfl
@[simp] theorem State.setLink_pwr (s : State) (k : Nat) (x : LinkX) : (s.setLink k x).pwr = s.pwr := rfl
@[simp] theorem State.setLink_errs (s : State) (k : Nat) (x : LinkX) : (s.setLink k x).errs = s.errs := rfl
@[simp] theorem State.setLink_errWait (s : State) (k : Nat) (x : LinkX) : (s.setLink k x).errWait = s.errWait := rfl
@[simp] theorem State.setLink_subUnits (s : State) (k : Nat) (x : LinkX) : (s.setLink k x).subUnits = s.subUnits := rfl
@[simp] theorem State.setLink_cyc (s : State) (k : Nat) (x : LinkX) : (s.setLink k x).cyc = s.cyc := rfl
@[simp] theorem State.setLink_free (s : State) (k : Nat) (x : LinkX) : (s.setLink k x).free = s.free := rfl
@[simp] theorem State.setLink_pending (s : State) (k : Nat) (x : LinkX) : (s.setLink k x).pending = s.pending := rfl

@[simp] theorem State.withArc_regs (s : State) (f : Archive → Archive) : (s.withArc f).regs = s.regs := rfl
@[simp] theorem State.withArc_queues (s : State) (f : Archive → Archive) : (s.withArc f).queues = s.queues := rfl
@[simp] theorem State.withArc_engs (s : State) (f : Archive → Archive) : (s.withArc f).engs = s.engs := rfl
@[simp] theorem State.withArc_tes (s : State) (f : Archive → Archive) : (s.withArc f).tes = s.tes := rfl
@[simp] theorem State.withArc_cores (s : State) (f : Archive → Archive) : (s.withArc f).cores = s.cores := rfl
@[simp] theorem State.withArc_runs (s : State) (f : Archive → Archive) : (s.withArc f).runs = s.runs := rfl
@[simp] theorem State.withArc_nextRun (s : State) (f : Archive → Archive) : (s.withArc f).nextRun = s.nextRun := rfl
@[simp] theorem State.withArc_gangs (s : State) (f : Archive → Archive) : (s.withArc f).gangs = s.gangs := rfl
@[simp] theorem State.withArc_mesh (s : State) (f : Archive → Archive) : (s.withArc f).mesh = s.mesh := rfl
@[simp] theorem State.withArc_net (s : State) (f : Archive → Archive) : (s.withArc f).net = s.net := rfl
@[simp] theorem State.withArc_host (s : State) (f : Archive → Archive) : (s.withArc f).host = s.host := rfl
@[simp] theorem State.withArc_fab (s : State) (f : Archive → Archive) : (s.withArc f).fab = s.fab := rfl
@[simp] theorem State.withArc_svc (s : State) (f : Archive → Archive) : (s.withArc f).svc = s.svc := rfl
@[simp] theorem State.withArc_parts (s : State) (f : Archive → Archive) : (s.withArc f).parts = s.parts := rfl
@[simp] theorem State.withArc_boot (s : State) (f : Archive → Archive) : (s.withArc f).boot = s.boot := rfl
@[simp] theorem State.withArc_pwr (s : State) (f : Archive → Archive) : (s.withArc f).pwr = s.pwr := rfl
@[simp] theorem State.withArc_errs (s : State) (f : Archive → Archive) : (s.withArc f).errs = s.errs := rfl
@[simp] theorem State.withArc_errWait (s : State) (f : Archive → Archive) : (s.withArc f).errWait = s.errWait := rfl
@[simp] theorem State.withArc_subUnits (s : State) (f : Archive → Archive) : (s.withArc f).subUnits = s.subUnits := rfl
@[simp] theorem State.withArc_cyc (s : State) (f : Archive → Archive) : (s.withArc f).cyc = s.cyc := rfl
@[simp] theorem State.withArc_free (s : State) (f : Archive → Archive) : (s.withArc f).free = s.free := rfl
@[simp] theorem State.withArc_pending (s : State) (f : Archive → Archive) : (s.withArc f).pending = s.pending := rfl

@[simp] theorem State.send_regs (s : State) (t : MsgTy) (m : CMsg) : (s.send t m).regs = s.regs := rfl
@[simp] theorem State.send_arc (s : State) (t : MsgTy) (m : CMsg) : (s.send t m).arc = s.arc := rfl
@[simp] theorem State.send_queues (s : State) (t : MsgTy) (m : CMsg) : (s.send t m).queues = s.queues := rfl
@[simp] theorem State.send_engs (s : State) (t : MsgTy) (m : CMsg) : (s.send t m).engs = s.engs := rfl
@[simp] theorem State.send_tes (s : State) (t : MsgTy) (m : CMsg) : (s.send t m).tes = s.tes := rfl
@[simp] theorem State.send_cores (s : State) (t : MsgTy) (m : CMsg) : (s.send t m).cores = s.cores := rfl
@[simp] theorem State.send_runs (s : State) (t : MsgTy) (m : CMsg) : (s.send t m).runs = s.runs := rfl
@[simp] theorem State.send_nextRun (s : State) (t : MsgTy) (m : CMsg) : (s.send t m).nextRun = s.nextRun := rfl
@[simp] theorem State.send_gangs (s : State) (t : MsgTy) (m : CMsg) : (s.send t m).gangs = s.gangs := rfl
@[simp] theorem State.send_mesh (s : State) (t : MsgTy) (m : CMsg) : (s.send t m).mesh = s.mesh := rfl
@[simp] theorem State.send_host (s : State) (t : MsgTy) (m : CMsg) : (s.send t m).host = s.host := rfl
@[simp] theorem State.send_fab (s : State) (t : MsgTy) (m : CMsg) : (s.send t m).fab = s.fab := rfl
@[simp] theorem State.send_svc (s : State) (t : MsgTy) (m : CMsg) : (s.send t m).svc = s.svc := rfl
@[simp] theorem State.send_parts (s : State) (t : MsgTy) (m : CMsg) : (s.send t m).parts = s.parts := rfl
@[simp] theorem State.send_boot (s : State) (t : MsgTy) (m : CMsg) : (s.send t m).boot = s.boot := rfl
@[simp] theorem State.send_pwr (s : State) (t : MsgTy) (m : CMsg) : (s.send t m).pwr = s.pwr := rfl
@[simp] theorem State.send_errs (s : State) (t : MsgTy) (m : CMsg) : (s.send t m).errs = s.errs := rfl
@[simp] theorem State.send_errWait (s : State) (t : MsgTy) (m : CMsg) : (s.send t m).errWait = s.errWait := rfl
@[simp] theorem State.send_subUnits (s : State) (t : MsgTy) (m : CMsg) : (s.send t m).subUnits = s.subUnits := rfl
@[simp] theorem State.send_cyc (s : State) (t : MsgTy) (m : CMsg) : (s.send t m).cyc = s.cyc := rfl
@[simp] theorem State.send_free (s : State) (t : MsgTy) (m : CMsg) : (s.send t m).free = s.free := rfl
@[simp] theorem State.send_pending (s : State) (t : MsgTy) (m : CMsg) : (s.send t m).pending = s.pending := rfl

@[simp] theorem State.setTemp_regs (s : State) (k t : Nat) : (s.setTemp k t).regs = s.regs := rfl
@[simp] theorem State.setTemp_arc (s : State) (k t : Nat) : (s.setTemp k t).arc = s.arc := rfl
@[simp] theorem State.setTemp_queues (s : State) (k t : Nat) : (s.setTemp k t).queues = s.queues := rfl
@[simp] theorem State.setTemp_engs (s : State) (k t : Nat) : (s.setTemp k t).engs = s.engs := rfl
@[simp] theorem State.setTemp_tes (s : State) (k t : Nat) : (s.setTemp k t).tes = s.tes := rfl
@[simp] theorem State.setTemp_cores (s : State) (k t : Nat) : (s.setTemp k t).cores = s.cores := rfl
@[simp] theorem State.setTemp_runs (s : State) (k t : Nat) : (s.setTemp k t).runs = s.runs := rfl
@[simp] theorem State.setTemp_nextRun (s : State) (k t : Nat) : (s.setTemp k t).nextRun = s.nextRun := rfl
@[simp] theorem State.setTemp_gangs (s : State) (k t : Nat) : (s.setTemp k t).gangs = s.gangs := rfl
@[simp] theorem State.setTemp_mesh (s : State) (k t : Nat) : (s.setTemp k t).mesh = s.mesh := rfl
@[simp] theorem State.setTemp_net (s : State) (k t : Nat) : (s.setTemp k t).net = s.net := rfl
@[simp] theorem State.setTemp_host (s : State) (k t : Nat) : (s.setTemp k t).host = s.host := rfl
@[simp] theorem State.setTemp_fab (s : State) (k t : Nat) : (s.setTemp k t).fab = s.fab := rfl
@[simp] theorem State.setTemp_svc (s : State) (k t : Nat) : (s.setTemp k t).svc = s.svc := rfl
@[simp] theorem State.setTemp_parts (s : State) (k t : Nat) : (s.setTemp k t).parts = s.parts := rfl
@[simp] theorem State.setTemp_boot (s : State) (k t : Nat) : (s.setTemp k t).boot = s.boot := rfl
@[simp] theorem State.setTemp_errs (s : State) (k t : Nat) : (s.setTemp k t).errs = s.errs := rfl
@[simp] theorem State.setTemp_errWait (s : State) (k t : Nat) : (s.setTemp k t).errWait = s.errWait := rfl
@[simp] theorem State.setTemp_subUnits (s : State) (k t : Nat) : (s.setTemp k t).subUnits = s.subUnits := rfl
@[simp] theorem State.setTemp_cyc (s : State) (k t : Nat) : (s.setTemp k t).cyc = s.cyc := rfl
@[simp] theorem State.setTemp_free (s : State) (k t : Nat) : (s.setTemp k t).free = s.free := rfl
@[simp] theorem State.setTemp_pending (s : State) (k t : Nat) : (s.setTemp k t).pending = s.pending := rfl

@[simp] theorem State.mbxWr_regs (s : State) (off : Nat) (bs : Bytes) : (s.mbxWr off bs).regs = s.regs := rfl
@[simp] theorem State.mbxWr_arc (s : State) (off : Nat) (bs : Bytes) : (s.mbxWr off bs).arc = s.arc := rfl
@[simp] theorem State.mbxWr_queues (s : State) (off : Nat) (bs : Bytes) : (s.mbxWr off bs).queues = s.queues := rfl
@[simp] theorem State.mbxWr_engs (s : State) (off : Nat) (bs : Bytes) : (s.mbxWr off bs).engs = s.engs := rfl
@[simp] theorem State.mbxWr_tes (s : State) (off : Nat) (bs : Bytes) : (s.mbxWr off bs).tes = s.tes := rfl
@[simp] theorem State.mbxWr_cores (s : State) (off : Nat) (bs : Bytes) : (s.mbxWr off bs).cores = s.cores := rfl
@[simp] theorem State.mbxWr_runs (s : State) (off : Nat) (bs : Bytes) : (s.mbxWr off bs).runs = s.runs := rfl
@[simp] theorem State.mbxWr_nextRun (s : State) (off : Nat) (bs : Bytes) : (s.mbxWr off bs).nextRun = s.nextRun := rfl
@[simp] theorem State.mbxWr_gangs (s : State) (off : Nat) (bs : Bytes) : (s.mbxWr off bs).gangs = s.gangs := rfl
@[simp] theorem State.mbxWr_mesh (s : State) (off : Nat) (bs : Bytes) : (s.mbxWr off bs).mesh = s.mesh := rfl
@[simp] theorem State.mbxWr_net (s : State) (off : Nat) (bs : Bytes) : (s.mbxWr off bs).net = s.net := rfl
@[simp] theorem State.mbxWr_host (s : State) (off : Nat) (bs : Bytes) : (s.mbxWr off bs).host = s.host := rfl
@[simp] theorem State.mbxWr_fab (s : State) (off : Nat) (bs : Bytes) : (s.mbxWr off bs).fab = s.fab := rfl
@[simp] theorem State.mbxWr_svc (s : State) (off : Nat) (bs : Bytes) : (s.mbxWr off bs).svc = s.svc := rfl
@[simp] theorem State.mbxWr_parts (s : State) (off : Nat) (bs : Bytes) : (s.mbxWr off bs).parts = s.parts := rfl
@[simp] theorem State.mbxWr_pwr (s : State) (off : Nat) (bs : Bytes) : (s.mbxWr off bs).pwr = s.pwr := rfl
@[simp] theorem State.mbxWr_errs (s : State) (off : Nat) (bs : Bytes) : (s.mbxWr off bs).errs = s.errs := rfl
@[simp] theorem State.mbxWr_errWait (s : State) (off : Nat) (bs : Bytes) : (s.mbxWr off bs).errWait = s.errWait := rfl
@[simp] theorem State.mbxWr_subUnits (s : State) (off : Nat) (bs : Bytes) : (s.mbxWr off bs).subUnits = s.subUnits := rfl
@[simp] theorem State.mbxWr_cyc (s : State) (off : Nat) (bs : Bytes) : (s.mbxWr off bs).cyc = s.cyc := rfl
@[simp] theorem State.mbxWr_free (s : State) (off : Nat) (bs : Bytes) : (s.mbxWr off bs).free = s.free := rfl
@[simp] theorem State.mbxWr_pending (s : State) (off : Nat) (bs : Bytes) : (s.mbxWr off bs).pending = s.pending := rfl

end Sys2Proof.Machine
end

