-- ==== Sys2Proof/Laws/Regs.lean ====
section
/-!
SUPPORT. Registers: what reading a register or a field after writing one gives.
-/

namespace Sys2Proof.Machine

@[simp] theorem State.reg_setReg_same (s : State) (k : Nat) (v : W64) : (s.setReg k v).reg k = v := by
  simp [State.reg, State.setReg]

theorem State.reg_setReg_ne (s : State) {k j : Nat} (v : W64) (h : j ≠ k) : (s.setReg k v).reg j = s.reg j := by
  simp only [State.reg, State.setReg]
  have e : ∀ (t : List (Nat × W64)), tget (regReset j) (tset (regReset k) t k v) j = tget (regReset j) t j := by
    intro t
    simp only [tset]
    split
    · exact tget_terase_ne _ t h
    · rw [tget_tinsert_ne _ _ v h, tget_terase_ne _ t h]
  exact e s.regs

theorem State.reg_setFld_same (s : State) (k lo w v : Nat) : (s.setFld k lo w v).reg k = putFld (s.reg k) lo w v := by
  simp [State.setFld]

theorem State.reg_setFld_ne (s : State) {k j : Nat} (lo w v : Nat) (h : j ≠ k) : (s.setFld k lo w v).reg j = s.reg j :=
  s.reg_setReg_ne _ h

theorem State.fld_setReg_same (s : State) (k lo w : Nat) (v : W64) : (s.setReg k v).fld k lo w = fldOf v lo w := by
  simp [State.fld]

theorem State.fld_setReg_ne (s : State) {k j : Nat} (v : W64) (lo w : Nat) (h : j ≠ k) : (s.setReg k v).fld j lo w = s.fld j lo w := by
  simp [State.fld, s.reg_setReg_ne v h]

/-- A field reads as written. -/
theorem State.fld_setFld_same (s : State) (k lo w v : Nat) (h : lo + w ≤ 64) : (s.setFld k lo w v).fld k lo w = v % 2 ^ w := by
  simp only [State.fld, State.reg_setFld_same]
  exact fldOf_putFld_same _ _ _ _ h

/-- Another field of the register is unchanged. -/
theorem State.fld_setFld_other (s : State) (k lo w v lo' w' : Nat) (hn : lo' + w' ≤ 64) (h : lo' + w' ≤ lo ∨ lo + w ≤ lo') :
    (s.setFld k lo w v).fld k lo' w' = s.fld k lo' w' := by
  simp only [State.fld, State.reg_setFld_same]
  exact fldOf_putFld_ne _ _ _ _ _ _ hn h

/-- A field of another register is unchanged. -/
theorem State.fld_setFld_ne (s : State) {k j : Nat} (lo w v lo' w' : Nat) (h : j ≠ k) : (s.setFld k lo w v).fld j lo' w' = s.fld j lo' w' := by
  simp only [State.fld, s.reg_setFld_ne lo w v h]

theorem State.bit_setBit_same (s : State) (k lo : Nat) (b : Bool) (h : lo < 64) : (s.setBit k lo b).bit k lo = b := by
  simp only [State.bit, State.setBit, s.fld_setFld_same k lo 1 _ (by omega)]
  cases b <;> simp [b2n]

end Sys2Proof.Machine
end

