-- ==== Sys2Proof/Laws/Folio.lean ====
section
/-!
SUPPORT. The shared operations of the Folio instructions: what issuing does, what an instruction on registers alone
does, and how the register files of a group read after a write.
-/

namespace Sys2Proof.Machine

/-! ### Parts of State -/

theorem State.reg_congr {s t : State} (h : t.regs = s.regs) (k : Nat) : t.reg k = s.reg k := by unfold State.reg; rw [h]
theorem State.te_congr {s t : State} (h : t.tes = s.tes) (c : Nat) : t.te c = s.te c := by unfold State.te; rw [h]
theorem State.run?_congr {s t : State} (h : t.runs = s.runs) (k : Nat) : t.run? k = s.run? k := by unfold State.run?; rw [h]
theorem State.grp?_congr {s t : State} (h : t.tes = s.tes) (g : GRef) : t.grp? g = s.grp? g := by
  unfold State.grp?; rw [State.te_congr h]
@[simp] theorem State.modRun_regs (s : State) (k : Nat) (f : Run → Run) : (s.modRun k f).regs = s.regs := by
  unfold State.modRun; split <;> rfl
@[simp] theorem State.modRun_tes (s : State) (k : Nat) (f : Run → Run) : (s.modRun k f).tes = s.tes := by
  unfold State.modRun; split <;> rfl
theorem State.modRun_rest (s : State) (k : Nat) (f : Run → Run) : { s.modRun k f with runs := s.runs } = s := by
  unfold State.modRun; split <;> rfl

@[simp] theorem State.te_setTe_same (s : State) (c : Nat) (x : TeX) : (s.setTe c x).te c = x := by simp [State.te, State.setTe]
theorem State.te_setTe_ne (s : State) {c d : Nat} (x : TeX) (h : d ≠ c) : (s.setTe c x).te d = s.te d := by
  simp [State.te, State.setTe, tget_tset_ne _ _ _ h]
@[simp] theorem State.run?_setRun_same (s : State) (k : Nat) (x : Option Run) : (s.setRun k x).run? k = x := by simp [State.run?, State.setRun]
theorem State.run?_setRun_ne (s : State) {k j : Nat} (x : Option Run) (h : j ≠ k) : (s.setRun k x).run? j = s.run? j := by
  simp [State.run?, State.setRun, tget_tset_ne _ _ _ h]
@[simp] theorem State.grp?_setGrp_same (s : State) (g : GRef) (x : Option Group) : (s.setGrp g x).grp? g = x := by
  simp [State.grp?, State.setGrp]
theorem State.grp?_setGrp_ne (s : State) {g h : GRef} (x : Option Group) (hn : h ≠ g) : (s.setGrp g x).grp? h = s.grp? h := by
  by_cases hc : h.core = g.core
  · have hs : h.slot ≠ g.slot := fun e => hn (by cases h; cases g; simp_all)
    simp [State.grp?, State.setGrp, hc, tget_tset_ne _ _ _ hs]
  · simp [State.grp?, State.setGrp, State.te_setTe_ne _ _ hc]
@[simp] theorem State.blk?_setBlk_same (s : State) (c b : Nat) (x : Option Block) : (s.setBlk c b x).blk? c b = x := by
  simp [State.blk?, State.setBlk]
@[simp] theorem State.launch_setGrp (s : State) (g : GRef) (x : Option Group) (c : Nat) : ((s.setGrp g x).te c).launch = (s.te c).launch := by
  by_cases hc : c = g.core
  · subst hc; simp [State.setGrp]
  · simp [State.setGrp, State.te_setTe_ne _ _ hc]

/-- A run changed by a function that leaves it as it is. -/
theorem State.run?_modRun_id (s : State) (k : Nat) (f : Run → Run) (h : ∀ r, s.run? k = some r → f r = r) (id : Nat) :
    (s.modRun k f).run? id = s.run? id := by
  unfold State.modRun
  split
  · rename_i r e
    by_cases hk : id = k
    · subst hk; simp [e, h r e]
    · simp [State.run?_setRun_ne _ _ hk]
  · rfl

/-! ### Register files -/

theorem Group.rdV_wrV (g : Group) (r r' l l' : Nat) (x : W32) (hl : l < 64) (hl' : l' < 64) :
    (g.wrV r l x).rdV r' l' = if r' = r ∧ l' = l then x else g.rdV r' l' := by
  unfold Group.rdV Group.wrV
  by_cases h : r' * 64 + l' = r * 64 + l
  · have h1 : r' = r := by omega
    have h2 : l' = l := by omega
    subst h1; subst h2; simp
  · have : ¬(r' = r ∧ l' = l) := by rintro ⟨rfl, rfl⟩; exact h rfl
    simp [tget_tset_ne _ _ _ h, this]

theorem Group.rdU_wrU (g : Group) (r r' : Nat) (x : W32) : (g.wrU r x).rdU r' = if r' = r then x else g.rdU r' := by
  unfold Group.rdU Group.wrU
  by_cases h : r' = r
  · subst h; simp
  · simp [tget_tset_ne _ _ _ h, h]

theorem Group.rdP_wrP (g : Group) (p p' : Nat) (x : W64) : (g.wrP p x).rdP p' = if p' = p then x else g.rdP p' := by
  unfold Group.rdP Group.wrP
  by_cases h : p' = p
  · subst h; simp
  · simp [tget_tset_ne _ _ _ h, h]

theorem mem_lanesOf (m : W64) (l : Nat) : l ∈ lanesOf m ↔ m.getLsbD l = true := by
  simp only [lanesOf, List.mem_filter, List.mem_range, and_iff_right_iff_imp]
  intro h
  exact BitVec.lt_of_getLsbD h

/-- What writing a vector register in some lanes leaves in every register. -/
theorem Group.rdV_wrLanes (g : Group) (r : Nat) (m : W64) (f : Nat → W32) (k l : Nat) (hl : l < 64) :
    (g.wrLanes r m f).rdV k l = if k = r ∧ m.getLsbD l = true then f l else g.rdV k l := by
  have key : ∀ (ls : List Nat) (g : Group), (∀ x ∈ ls, x < 64) →
      (ls.foldl (fun g l => g.wrV r l (f l)) g).rdV k l = if k = r ∧ l ∈ ls then f l else g.rdV k l := by
    intro ls
    induction ls with
    | nil => intro g _; simp
    | cons x t ih =>
      intro g hx
      rw [List.foldl_cons, ih _ (fun y hy => hx y (by simp [hy])), Group.rdV_wrV _ _ _ _ _ _ (hx x (by simp)) hl]
      by_cases hk : k = r
      · by_cases hlx : l = x
        · subst hlx; simp [hk]
        · simp [hk, hlx]
      · simp [hk]
  have h64 : ∀ x ∈ lanesOf m, x < 64 := fun x hx => BitVec.lt_of_getLsbD ((mem_lanesOf m x).1 hx)
  have h := key (lanesOf m) g h64
  unfold Group.wrLanes
  rw [h]
  simp only [mem_lanesOf]

/-- A vector write changes nothing else of a group. -/
theorem Group.wrLanes_rest (g : Group) (r : Nat) (m : W64) (f : Nat → W32) : { g.wrLanes r m f with v := g.v } = g := by
  unfold Group.wrLanes
  have key : ∀ (ls : List Nat) (h : Group), ({ h with v := g.v } : Group) = g →
      ({ ls.foldl (fun g l => g.wrV r l (f l)) h with v := g.v } : Group) = g := by
    intro ls
    induction ls with
    | nil => intro h e; exact e
    | cons x t ih => intro h e; exact ih _ e
  exact key _ g rfl

/-! ### Issue -/

/-- An instruction that can issue works on the state of `Issues`. -/
theorem State.issue_of {s : State} {g : GRef} {w : W64} {s1 : State} {l : Launch} {b : Block} {grp : Group}
    (h : Issues s g w s1 l b grp) (hop : folioOpcodes.contains (fOpc w) = true)
    (k : State → Launch → Block → Group → State) : s.issue g w k = k s1 l b grp := by
  obtain ⟨hf, hs⟩ := h.fetch
  unfold State.issue
  simp only [h.launch, h.group, h.block, h.waits, h.await]
  have hact : (grp.active == 0#64) = false := by simpa using h.active
  simp only [hact, Option.isSome_none, ne_eq, not_true_eq_false, decide_false, Bool.or_self, Bool.false_eq_true, if_false]
  simp only [hf, hop, Bool.not_true, Bool.false_eq_true, if_false, ← hs]

theorem State.ctl_of {s : State} {g : GRef} {w : W64} {s1 : State} {l : Launch} {b : Block} {grp : Group}
    (h : Issues s g w s1 l b grp) (hop : folioOpcodes.contains (fOpc w) = true) {ok : Nat → Bool} (hok : ok l.vregs = true)
    (k : State → Launch → Block → Group → State) : s.ctl g w ok k = k s1 l b grp := by
  unfold State.ctl
  rw [State.issue_of h hop]
  simp [hok]

/-- A word that is not legal raises the fault at decode. -/
theorem State.ctl_illegal {s : State} {g : GRef} {w : W64} {s1 : State} {l : Launch} {b : Block} {grp : Group}
    (h : Issues s g w s1 l b grp) (hop : folioOpcodes.contains (fOpc w) = true) {ok : Nat → Bool} (hok : ok l.vregs = false)
    (k : State → Launch → Block → Group → State) : s.ctl g w ok k = s1.decodeFault g grp stIllegal := by
  unfold State.ctl
  rw [State.issue_of h hop]
  simp [hok]

/-- The group goes on, and nothing else changes. -/
theorem OnlyGroup.nextPc (s1 : State) (g : GRef) (r : Group) (w : W64) : OnlyGroup s1 (s1.nextPc g r w) g where
  rest := rfl
  regs _ := rfl
  runs _ := rfl
  groups h hn := State.grp?_setGrp_ne _ _ hn
  engine c := by
    unfold State.nextPc State.putGrp State.setGrp
    by_cases hc : c = g.core
    · subst hc; simp
    · simp [State.te_setTe_ne _ _ hc]

/-- Writing back what a register holds, and adding nothing to a run, leaves what `OnlyGroup` names. -/
theorem OnlyGroup.afterAlu (s1 : State) (g : GRef) (r : Group) (w : W64) (n key id : Nat) (f : Run → Run) (hf : ∀ r, f r = r) :
    OnlyGroup s1 (((({ s1 with free := n } : State).setReg key (s1.reg key)).modRun id f).nextPc g r w) g := by
  generalize hx : ({ s1 with free := n } : State).setReg key (s1.reg key) = x
  have xr : ∀ k, x.reg k = s1.reg k := by
    intro k
    rw [← hx]
    by_cases hk : k = key
    · rw [hk, State.reg_setReg_same]
    · rw [State.reg_setReg_ne _ _ hk]
      exact State.reg_congr rfl k
  have xt : x.tes = s1.tes := by rw [← hx]; rfl
  have xu : x.runs = s1.runs := by rw [← hx]; rfl
  have xs : { x with regs := s1.regs, free := s1.free } = s1 := by rw [← hx]; rfl
  clear hx
  generalize hy : x.modRun id f = y
  have yr : y.regs = x.regs := by rw [← hy]; simp
  have yt : y.tes = x.tes := by rw [← hy]; simp
  have yu : ∀ id, y.run? id = x.run? id := fun id => by rw [← hy]; exact State.run?_modRun_id _ _ _ (fun r _ => hf r) id
  have ys : { y with runs := x.runs } = x := by rw [← hy]; exact State.modRun_rest _ _ _
  clear hy
  have e := OnlyGroup.nextPc y g r w
  refine ⟨?_, fun k => ?_, fun id => ?_, fun h hn => ?_, fun c => ?_⟩
  · have e1 := e.rest
    generalize y.nextPc g r w = z at e1
    rw [← xs, ← ys, ← e1]
  · rw [e.regs, State.reg_congr yr, xr]
  · rw [e.runs, yu, State.run?_congr xu]
  · rw [e.groups h hn, State.grp?_congr yt, State.grp?_congr xt]
  · have := e.engine c
    rwa [State.te_congr yt, State.te_congr xt] at this

/-- An instruction on registers alone that draws nothing and counts nothing. -/
theorem State.alu_of {s : State} {g : GRef} {w w1 : W64} {s1 : State} {l : Launch} {b : Block} {grp : Group}
    (h : Issues s g w s1 l b grp) (hop : folioOpcodes.contains (fOpc w) = true) {f : FExec} {r : Group} {n : Nat}
    (hf : f w w1 { g := grp, vregs := l.vregs, sr := s1.reg (texB g.core + 0x50), free := s1.free }
      = .ok { g := r, vregs := l.vregs, sr := s1.reg (texB g.core + 0x50), free := n }) :
    (s.alu g w w1 f).grp? g = some ({ r with pc := r.pc + fLen w } : Group).settle ∧ OnlyGroup s1 (s.alu g w w1 f) g := by
  simp only [State.alu, State.issue_of h hop, hf]
  exact ⟨by simp [State.nextPc, State.putGrp], OnlyGroup.afterAlu s1 g r w n _ l.run _ fun _ => rfl⟩

/-! ### A register result -/

theorem RanTo.intro {t : State} {g : GRef} {w : W64} {grp y : Group}
    (h : t.grp? g = some ({ y with pc := y.pc + fLen w } : Group).settle)
    (hy : ({ y with v := grp.v, u := grp.u, p := grp.p, acc := grp.acc } : Group) = grp) :
    RanTo t g w grp { y with pc := y.pc + fLen w } := by
  have hp : y.pc = grp.pc := by rw [← hy]
  refine ⟨h, by simp [hp], ?_⟩
  rw [← hp]
  exact hy

theorem FX.putReg_free (x : FX) (w : W64) (f : Nat → W32) :
    x.putReg w f = { x with g := (x.putReg w f).g } := by
  unfold FX.putReg; split
  · split <;> rfl
  · rfl

theorem Group.wrLanes_p (g : Group) (r : Nat) (m : W64) (f : Nat → W32) : (g.wrLanes r m f).p = g.p := by
  conv => rhs; rw [← Group.wrLanes_rest g r m f]
theorem Group.wrLanes_u (g : Group) (r : Nat) (m : W64) (f : Nat → W32) : (g.wrLanes r m f).u = g.u := by
  conv => rhs; rw [← Group.wrLanes_rest g r m f]
theorem Group.wrLanes_acc (g : Group) (r : Nat) (m : W64) (f : Nat → W32) : (g.wrLanes r m f).acc = g.acc := by
  conv => rhs; rw [← Group.wrLanes_rest g r m f]

theorem FX.putReg_group (x : FX) (w : W64) (f : Nat → W32) :
    ({ (x.putReg w f).g with v := x.g.v, u := x.g.u, p := x.g.p, acc := x.g.acc } : Group) = x.g := by
  unfold FX.putReg; split
  · split <;> rfl
  · have h := Group.wrLanes_rest x.g (fD w) (x.g.takes w) f
    simp only
    generalize x.g.wrLanes (fD w) (x.g.takes w) f = y at h
    rw [← h]

theorem FX.putReg_writes (x : FX) (w : W64) (f : Nat → W32) (pc : W64) :
    WritesReg w x.g { (x.putReg w f).g with pc := pc } f := by
  unfold WritesReg FX.putReg
  by_cases hU : fU w = true
  · simp only [hU, if_true]
    by_cases ht : x.g.takesU w = true
    · simp only [ht, if_true]
      refine ⟨rfl, rfl, rfl, fun k => ?_⟩
      have := Group.rdU_wrU x.g (fD w) k (f (firstLane x.g.active))
      simpa [Group.rdU] using this
    · simp only [ht]
      refine ⟨rfl, rfl, rfl, fun k => by simp [Group.rdU]⟩
  · simp only [hU]
    refine ⟨Group.wrLanes_p .., Group.wrLanes_acc .., Group.wrLanes_u .., fun k lane hl => ?_⟩
    have := Group.rdV_wrLanes x.g (fD w) (x.g.takes w) f k lane hl
    simpa [Group.rdV] using this

/-- A row of registers alone with a register result. -/
theorem folio_reg {s : State} {g : GRef} {w w1 : W64} {s1 : State} {l : Launch} {b : Block} {grp : Group}
    {c : Instr} {op : Nat} {fx : FExec} {val : Nat → W32}
    (hc : exec c s = carryOut (g.ok && opcodeOk w op) (s.alu g w w1 fx))
    (hg : g.ok = true) (ho : fOpc w = op) (hm : folioOpcodes.contains op = true)
    (h : Issues s g w s1 l b grp) (n : Nat)
    (hf : ∀ x : FX, x.vregs = l.vregs → x.g = grp → x.free = s1.free → fx w w1 x = .ok { x.putReg w val with free := n }) :
    ∃ (t : State) (x : Group), exec c s = .next t ∧ OnlyGroup s1 t g ∧ RanTo t g w grp x ∧ WritesReg w grp x val := by
  have hx := hf { g := grp, vregs := l.vregs, sr := s1.reg (texB g.core + 0x50), free := s1.free } rfl rfl rfl
  have h2 := State.alu_of h (by rw [ho]; exact hm) (f := fx) (w1 := w1)
    (r := (FX.putReg { g := grp, vregs := l.vregs, sr := s1.reg (texB g.core + 0x50), free := s1.free } w val).g) (n := n)
    (by rw [hx, FX.putReg_free])
  refine ⟨_, _, ?_, h2.2, RanTo.intro h2.1 (FX.putReg_group _ _ _), FX.putReg_writes _ _ _ _⟩
  subst ho
  rw [hc]; simp [carryOut, hg, opcodeOk, fOpc, fldOf, nbits]

end Sys2Proof.Machine
end

