-- ==== Sys2Proof/Laws/Memory.lean ====
section
/-!
SUPPORT. Memory: reading after writing, and the canonical form of the byte memories, which every operation over them
keeps and the memory after reset has.
-/

namespace Sys2Proof.Machine

@[simp] theorem Archive.rd_wr_same (a : Archive) (k : Nat) (b : W8) : (a.wr k b).rd k = b := by simp [Archive.rd, Archive.wr]
theorem Archive.rd_wr_ne (a : Archive) {k j : Nat} (b : W8) (h : j ≠ k) : (a.wr k b).rd j = a.rd j := by
  simp [Archive.rd, Archive.wr, tget_tset_ne _ _ _ h]
@[simp] theorem Archive.rdLs_wrLs_same (a : Archive) (k : Nat) (b : W8) : (a.wrLs k b).rdLs k = b := by simp [Archive.rdLs, Archive.wrLs]
theorem Archive.rdLs_wrLs_ne (a : Archive) {k j : Nat} (b : W8) (h : j ≠ k) : (a.wrLs k b).rdLs j = a.rdLs j := by
  simp [Archive.rdLs, Archive.wrLs, tget_tset_ne _ _ _ h]

theorem Archive.wr_wf (a : Archive) (k : Nat) (b : W8) (h : a.wf = true) : (a.wr k b).wf = true := by
  simp only [Archive.wf, Archive.wr, Bool.and_eq_true] at *
  exact ⟨⟨twf_tset _ _ _ _ h.1.1, h.1.2⟩, h.2⟩
theorem Archive.wrHbm_wf (a : Archive) (k : Nat) (b : W8) (h : a.wf = true) : (a.wrHbm k b).wf = true := by
  simp only [Archive.wf, Archive.wrHbm, Bool.and_eq_true] at *
  exact ⟨⟨h.1.1, twf_tset _ _ _ _ h.1.2⟩, h.2⟩
theorem Archive.wrLs_wf (a : Archive) (k : Nat) (b : W8) (h : a.wf = true) : (a.wrLs k b).wf = true := by
  simp only [Archive.wf, Archive.wrLs, Bool.and_eq_true] at *
  exact ⟨h.1, twf_tset _ _ _ _ h.2⟩

theorem Archive.dropLine_wf (a : Archive) (x l : Nat) (h : a.wf = true) : (a.dropLine x l).wf = true := h
theorem Archive.putLine_wf (a : Archive) (l : ALine) (h : a.wf = true) : (a.putLine l).wf = true := h

theorem Archive.wrList_wf : ∀ (bs : Bytes) (a : Archive) (pa : Nat), a.wf = true → (a.wrList pa bs).wf = true
  | [], _, _, h => h
  | b :: r, a, pa, h => Archive.wrList_wf r _ _ (a.wr_wf pa b h)
theorem Archive.wrLsList_wf : ∀ (bs : Bytes) (a : Archive) (k : Nat), a.wf = true → (a.wrLsList k bs).wf = true
  | [], _, _, h => h
  | b :: r, a, k, h => Archive.wrLsList_wf r _ _ (a.wrLs_wf k b h)

theorem Archive.writeBack_wf (a : Archive) (line : Nat) (mask : BitVec 512) (h : a.wf = true) : (a.writeBack line mask).wf = true := by
  unfold Archive.writeBack
  generalize (List.range 512).filter (fun i => mask.getLsbD i) = l
  have key : ∀ (l : List Nat) (a : Archive), a.wf = true →
      (l.foldl (fun a i => a.wrHbm (line * 512 + i) (a.rd (line * 512 + i))) a).wf = true := by
    intro l
    induction l with
    | nil => intro a h; exact h
    | cons i r ih => intro a h; exact ih _ (a.wrHbm_wf _ _ h)
  exact key l a h

theorem Archive.wrOut_wf : ∀ (bs : Bytes) (a : Archive) (site pa : Nat), a.wf = true → (a.wrOut site pa bs).wf = true
  | [], _, _, _, h => h
  | _ :: r, a, site, pa, h => Archive.wrOut_wf r { a with wcache := _ } site (pa + 1) h
theorem Archive.fillOut_wf (a : Archive) (site pa : Nat) (mask : BitVec 512) (bs : Bytes) (h : a.wf = true) :
    (a.fillOut site pa mask bs).wf = true := by
  unfold Archive.fillOut
  generalize bs.zipIdx.filter (fun e => !mask.getLsbD (pa % 512 + e.2)) = l
  induction l generalizing a with
  | nil => exact h
  | cons e r ih => exact ih _ (Archive.wrOut_wf _ _ _ _ h)

/-- A byte outside the range written reads as before. -/
theorem Archive.rd_wrList : ∀ (bs : Bytes) (a : Archive) (pa j : Nat), j < pa ∨ pa + bs.length ≤ j → (a.wrList pa bs).rd j = a.rd j
  | [], _, _, _, _ => rfl
  | b :: r, a, pa, j, h => by
    simp only [List.length_cons] at h
    rw [Archive.wrList, Archive.rd_wrList r _ _ j (by omega), a.rd_wr_ne b (by omega)]

theorem State.wrLs_wf (s : State) (ix off : Nat) (bs : Bytes) (h : s.arc.wf = true) : (s.wrLs ix off bs).arc.wf = true :=
  Archive.wrLsList_wf bs _ _ h

/-- The memory after reset has the canonical form. -/
theorem reset_memory_wf : State.reset.arc.wf = true := rfl

end Sys2Proof.Machine
end

