-- ==== Sys2Proof/Laws/Keeps.lean ====
section
/-!
SUPPORT. What every operation of the panel keeps, said once: the queue of waiting commands is not touched, the byte
memories and the register table stay in their canonical form. `Keeps s t` is the relation; the lemmas here are its
rules for the shapes that a meaning is built from.
-/

namespace Sys2Proof.Machine

/-- From `s` to `t` the queue of waiting commands stays and the canonical forms are kept. -/
structure Keeps (s t : State) : Prop where
  pending : t.pending = s.pending
  canon : s.canon = true → t.canon = true

theorem regsFrom_mono : ∀ (t : List (Nat × W64)) {lo lo' : Nat}, lo' ≤ lo → regsFrom lo t = true → regsFrom lo' t = true
  | [], _, _, _, _ => rfl
  | (k, v) :: r, lo, lo', h, ht => by
    simp only [regsFrom, Bool.and_eq_true, decide_eq_true_eq] at *
    exact ⟨⟨by omega, ht.1.2⟩, ht.2⟩

theorem regsFrom_filter (p : Nat × W64 → Bool) : ∀ (t : List (Nat × W64)) {lo : Nat}, regsFrom lo t = true → regsFrom lo (t.filter p) = true
  | [], _, _ => rfl
  | (k, v) :: r, lo, ht => by
    simp only [regsFrom, Bool.and_eq_true, decide_eq_true_eq] at ht
    have hr := regsFrom_filter p r ht.2
    simp only [List.filter]
    split
    · simp only [regsFrom, Bool.and_eq_true, decide_eq_true_eq]
      exact ⟨ht.1, hr⟩
    · exact regsFrom_mono _ (by omega) hr

theorem regsFrom_terase (k : Nat) : ∀ (t : List (Nat × W64)) {lo : Nat}, regsFrom lo t = true → regsFrom lo (terase t k) = true
  | [], _, _ => rfl
  | (k', v) :: r, lo, ht => by
    simp only [regsFrom, Bool.and_eq_true, decide_eq_true_eq] at ht
    have hr := regsFrom_terase k r ht.2
    simp only [terase]
    split
    · exact regsFrom_mono _ (by omega) hr
    · simp only [regsFrom, Bool.and_eq_true, decide_eq_true_eq]
      exact ⟨ht.1, hr⟩

theorem regsFrom_tinsert (k : Nat) (v : W64) (hv : v ≠ regReset k) : ∀ (t : List (Nat × W64)) {lo : Nat}, lo ≤ k →
    (∀ e ∈ t, e.1 ≠ k) → regsFrom lo t = true → regsFrom lo (tinsert t k v) = true
  | [], lo, hl, _, _ => by simp [tinsert, regsFrom, hl, hv]
  | (k', v') :: r, lo, hl, hn, ht => by
    simp only [regsFrom, Bool.and_eq_true, decide_eq_true_eq] at ht
    have hk : k' ≠ k := hn (k', v') (by simp)
    simp only [tinsert]
    split
    · simp only [regsFrom, Bool.and_eq_true, decide_eq_true_eq]
      exact ⟨⟨hl, hv⟩, ⟨by omega, ht.1.2⟩, ht.2⟩
    · simp only [regsFrom, Bool.and_eq_true, decide_eq_true_eq]
      exact ⟨ht.1, regsFrom_tinsert k v hv r (by omega) (fun e he => hn e (by simp [he])) ht.2⟩

theorem regsFrom_tset (t : List (Nat × W64)) (k : Nat) (v : W64) (ht : regsFrom 0 t = true) :
    regsFrom 0 (tset (regReset k) t k v) = true := by
  unfold tset
  split
  · exact regsFrom_terase k t ht
  · exact regsFrom_tinsert k v ‹_› _ (Nat.zero_le _) (not_mem_terase t k) (regsFrom_terase k t ht)

theorem twf_filter {α : Type} [DecidableEq α] (d : α) (p : Nat × α → Bool) (t : List (Nat × α)) (h : twf d t = true) : twf d (t.filter p) = true := by
  rw [twf_iff] at h ⊢
  have go : ∀ (t : List (Nat × α)) lo, tsorted d lo t → tsorted d lo (t.filter p) := by
    intro t
    induction t with
    | nil => intro lo h; exact h
    | cons e r ih =>
      intro lo h
      obtain ⟨k, v⟩ := e
      simp only [List.filter]
      split
      · exact ⟨h.1, h.2.1, ih _ h.2.2⟩
      · exact ih _ (tsorted_mono r (by have := h.1; omega) h.2.2)
  exact go t 0 h

theorem Archive.wf_parts {a b : Archive} (h : a.wf = true) (hm : twf 0#8 a.mem = true → twf 0#8 b.mem = true)
    (hh : twf 0#8 a.hbm = true → twf 0#8 b.hbm = true) (hl : twf 0#8 a.ls = true → twf 0#8 b.ls = true) : b.wf = true := by
  simp only [Archive.wf, Bool.and_eq_true] at *
  exact ⟨⟨hm h.1.1, hh h.1.2⟩, hl h.2⟩

theorem Archive.wf_ite {a b : Archive} {c : Prop} [Decidable c] (ha : a.wf = true) (hb : b.wf = true) : (if c then a else b).wf = true := by
  split <;> assumption

theorem Archive.wf_foldl {α : Type} {l : List α} {F : Archive → α → Archive} {a : Archive} (h : a.wf = true)
    (hF : ∀ y i, y.wf = true → (F y i).wf = true) : (l.foldl F a).wf = true := by
  induction l generalizing a with
  | nil => exact h
  | cons i r ih => exact ih (hF a i h)

namespace Keeps

variable {s x y : State}

theorem rfl' : Keeps s s := ⟨rfl, id⟩
theorem trans (h : Keeps s x) (g : Keeps x y) : Keeps s y := ⟨g.1.trans h.1, fun c => g.2 (h.2 c)⟩

/-- A change of fields other than the registers, the memories and the queue. -/
theorem upd {queues engs tes cores runs nextRun gangs mesh net host fab svc parts boot pwr errs errWait subUnits cyc free}
    (h : Keeps s x) :
    Keeps s { regs := x.regs, arc := x.arc, queues := queues, engs := engs, tes := tes, cores := cores, runs := runs,
              nextRun := nextRun, gangs := gangs, mesh := mesh, net := net, host := host, fab := fab, svc := svc,
              parts := parts, boot := boot, pwr := pwr, errs := errs, errWait := errWait, subUnits := subUnits,
              cyc := cyc, free := free, pending := x.pending } :=
  ⟨h.1, h.2⟩

/-- A change of the memories that keeps their form. -/
theorem updArc {a : Archive} {queues engs tes cores runs nextRun gangs mesh net host fab svc parts boot pwr errs errWait subUnits cyc free}
    (h : Keeps s x) (ha : x.arc.wf = true → a.wf = true) :
    Keeps s { regs := x.regs, arc := a, queues := queues, engs := engs, tes := tes, cores := cores, runs := runs,
              nextRun := nextRun, gangs := gangs, mesh := mesh, net := net, host := host, fab := fab, svc := svc,
              parts := parts, boot := boot, pwr := pwr, errs := errs, errWait := errWait, subUnits := subUnits,
              cyc := cyc, free := free, pending := x.pending } :=
  ⟨h.1, fun c => by
    have := h.2 c
    simp only [State.canon, Bool.and_eq_true] at *
    exact ⟨ha this.1, this.2⟩⟩

theorem withArc (h : Keeps s x) {f : Archive → Archive} (hf : ∀ a : Archive, a.wf = true → (f a).wf = true) : Keeps s (x.withArc f) :=
  updArc h (hf _)

theorem updRegs {regs : List (Nat × BitVec 64)} {queues engs tes cores runs nextRun gangs mesh net host fab svc parts boot pwr errs errWait subUnits cyc free}
    (h : Keeps s x) (hr : regsFrom 0 x.regs = true → regsFrom 0 regs = true) :
    Keeps s { regs := regs, arc := x.arc, queues := queues, engs := engs, tes := tes, cores := cores, runs := runs,
              nextRun := nextRun, gangs := gangs, mesh := mesh, net := net, host := host, fab := fab, svc := svc,
              parts := parts, boot := boot, pwr := pwr, errs := errs, errWait := errWait, subUnits := subUnits,
              cyc := cyc, free := free, pending := x.pending } :=
  ⟨h.1, fun c => by
    have := h.2 c
    simp only [State.canon, Bool.and_eq_true] at *
    exact ⟨this.1, hr this.2⟩⟩

theorem setReg (h : Keeps s x) {k : Nat} {v : W64} : Keeps s (x.setReg k v) :=
  ⟨h.1, fun c => by
    have := h.2 c
    simp only [State.canon, State.setReg, Bool.and_eq_true] at *
    exact ⟨this.1, regsFrom_tset _ _ _ this.2⟩⟩

theorem foldl {α : Type} {l : List α} {F : State → α → State} (h : Keeps s x) (hF : ∀ y a, Keeps s y → Keeps s (F y a)) :
    Keeps s (l.foldl F x) := by
  induction l generalizing x with
  | nil => exact h
  | cons a r ih => exact ih (hF x a h)

theorem foldlFst {α β : Type} {l : List α} {F : State × β → α → State × β} {p : State × β} (h : Keeps s p.1)
    (hF : ∀ y a, Keeps s y.1 → Keeps s (F y a).1) : Keeps s (l.foldl F p).1 := by
  induction l generalizing p with
  | nil => exact h
  | cons a r ih => exact ih (hF p a h)

theorem ite {c : Prop} [Decidable c] (h : Keeps s x) (g : Keeps s y) : Keeps s (if c then x else y) := by split <;> assumption
theorem iteFst {β : Type} {p q : State × β} {c : Prop} [Decidable c] (h : Keeps s p.1) (g : Keeps s q.1) :
    Keeps s (if c then p else q).1 := by split <;> assumption
theorem pair {β : Type} {b : β} (h : Keeps s x) : Keeps s (x, b).1 := h
theorem fst {β : Type} {p : State × β} {r : β} (e : p = (y, r)) (h : Keeps s p.1) : Keeps s y := by subst e; exact h

end Keeps

theorem keeps_setReg {s : State} {a0 : State} {a1} {a2} (h : Keeps s a0) : Keeps s (State.setReg a0 a1 a2) := Keeps.setReg h

/-- A state that a choice may answer keeps what `s` has. -/
def OptKeeps (s : State) (o : Option State) : Prop := ∀ y, o = some y → Keeps s y

theorem OptKeeps.none {s : State} : OptKeeps s none := fun _ e => nomatch e
theorem OptKeeps.some {s x : State} (h : Keeps s x) : OptKeeps s (some x) := fun _ e => Option.some.inj e ▸ h
theorem OptKeeps.ite {s : State} {c : Prop} [Decidable c] {a b : Option State} (h : OptKeeps s a) (g : OptKeeps s b) :
    OptKeeps s (if c then a else b) := by split <;> assumption

/-- Both states that a pair may hold keep what `s` has. -/
def BothKeep (s : State) (r : State × Option State) : Prop := Keeps s r.1 ∧ ∀ y, r.2 = some y → Keeps s y

theorem BothKeep.no {s x : State} (h : Keeps s x) : BothKeep s (x, none) := ⟨h, fun _ e => nomatch e⟩
theorem BothKeep.yes {s x z : State} (h : Keeps s x) (g : Keeps s z) : BothKeep s (x, some z) := ⟨h, fun _ e => Option.some.inj e ▸ g⟩
theorem BothKeep.ite {s : State} {c : Prop} [Decidable c] {a b : State × Option State} (h : BothKeep s a) (g : BothKeep s b) :
    BothKeep s (if c then a else b) := by split <;> assumption

theorem Keeps.foldlS {s : State} {α : Type} {l : List α} {F : MOut → α → MOut} {o : MOut} (h : Keeps s o.s)
    (hF : ∀ y a, Keeps s y.s → Keeps s (F y a).s) : Keeps s (l.foldl F o).s := by
  induction l generalizing o with
  | nil => exact h
  | cons a r ih => exact ih (hF o a h)
theorem Keeps.iteS {s : State} {c : Prop} [Decidable c] {a b : MOut} (h : Keeps s a.s) (g : Keeps s b.s) :
    Keeps s (if c then a else b).s := by split <;> assumption

end Sys2Proof.Machine
end

