-- ==== Sys2Proof/Laws/KeepsOps.lean ====
section
/-!
SUPPORT. That each operation of these keeps what `Keeps` says (Laws/Keeps.lean), one lemma for each:
registers, fields and counters, bytes of memory and poison, lines and completion rings.
-/

namespace Sys2Proof.Machine

theorem keeps_setFld {s : State} {a0 : State} {a1} {a2} {a3} {a4} (h : Keeps s a0) : Keeps s (State.setFld a0 a1 a2 a3 a4) := by
  unfold State.setFld
  exact (keeps_setReg h)

theorem keeps_sat {s : State} {a0 : State} {a1} {a2} {a3} {a4} (h : Keeps s a0) : Keeps s (State.sat a0 a1 a2 a3 a4) := by
  unfold State.sat
  exact (keeps_setFld h)

theorem keeps_bump {s : State} {a0 : State} {a1} {a2} {a3} {a4} (h : Keeps s a0) : Keeps s (State.bump a0 a1 a2 a3 a4) := by
  unfold State.bump
  exact (keeps_setFld h)

theorem keeps_setQ {s : State} {a0 : State} {a1} {a2} (h : Keeps s a0) : Keeps s (State.setQ a0 a1 a2) := by
  unfold State.setQ
  exact (Keeps.upd h)

theorem keeps_modQ {s : State} {a0 : State} {a1} {a2} (h : Keeps s a0) : Keeps s (State.modQ a0 a1 a2) := by
  unfold State.modQ
  exact (keeps_setQ h)

theorem keeps_setEng {s : State} {a0 : State} {a1} {a2} {a3} (h : Keeps s a0) : Keeps s (State.setEng a0 a1 a2 a3) := by
  unfold State.setEng
  exact (Keeps.upd h)

theorem keeps_setTe {s : State} {a0 : State} {a1} {a2} (h : Keeps s a0) : Keeps s (State.setTe a0 a1 a2) := by
  unfold State.setTe
  exact (Keeps.upd h)

theorem keeps_setCoreX {s : State} {a0 : State} {a1} {a2} (h : Keeps s a0) : Keeps s (State.setCoreX a0 a1 a2) := by
  unfold State.setCoreX
  exact (Keeps.upd h)

theorem keeps_setRun {s : State} {a0 : State} {a1} {a2} (h : Keeps s a0) : Keeps s (State.setRun a0 a1 a2) := by
  unfold State.setRun
  exact (Keeps.upd h)

theorem keeps_modRun {s : State} {a0 : State} {a1} {a2} (h : Keeps s a0) : Keeps s (State.modRun a0 a1 a2) := by
  unfold State.modRun
  split
  · exact (keeps_setRun h)
  · exact h

theorem keeps_setPart {s : State} {a0 : State} {a1} {a2} (h : Keeps s a0) : Keeps s (State.setPart a0 a1 a2) := by
  unfold State.setPart
  exact (Keeps.upd h)

theorem keeps_setSvcX {s : State} {a0 : State} {a1} {a2} {a3} (h : Keeps s a0) : Keeps s (State.setSvcX a0 a1 a2 a3) := by
  unfold State.setSvcX
  exact (Keeps.upd h)

theorem keeps_setLink {s : State} {a0 : State} {a1} {a2} (h : Keeps s a0) : Keeps s (State.setLink a0 a1 a2) := by
  unfold State.setLink
  exact (Keeps.upd h)

theorem keeps_send {s : State} {a0 : State} {a1} {a2} (h : Keeps s a0) : Keeps s (State.send a0 a1 a2) := by
  unfold State.send
  extract_lets +onlyGivenNames -merge -underBinder y1
  clear_value y1
  extract_lets +onlyGivenNames -merge -underBinder y2
  clear_value y2
  exact (Keeps.upd h)

theorem keeps_freeBit {s : State} {a0 : State} (h : Keeps s a0) : Keeps s (State.freeBit a0).1 := by
  unfold State.freeBit
  exact (Keeps.pair (Keeps.upd h))

theorem keeps_freeNum {s : State} {a0 : State} (h : Keeps s a0) : Keeps s (State.freeNum a0).1 := by
  unfold State.freeNum
  exact (Keeps.pair (Keeps.upd h))

theorem keeps_setBit {s : State} {a0 : State} {a1} {a2} {a3} (h : Keeps s a0) : Keeps s (State.setBit a0 a1 a2 a3) := by
  unfold State.setBit
  exact (keeps_setFld h)

theorem keeps_setTemp {s : State} {a0 : State} {a1} {a2} (h : Keeps s a0) : Keeps s (State.setTemp a0 a1 a2) := by
  unfold State.setTemp
  exact (Keeps.upd h)

theorem keeps_sendReport {s : State} {a0 : State} {a1} (h : Keeps s a0) : Keeps s (State.sendReport a0 a1) := by
  unfold State.sendReport
  extract_lets +onlyGivenNames -merge -underBinder y1
  have h1 : Keeps s y1 := (keeps_sat h)
  clear_value y1
  exact (Keeps.upd h1)

theorem keeps_report {s : State} {a0 : State} {a1} (h : Keeps s a0) : Keeps s (State.report a0 a1) := by
  unfold State.report
  extract_lets +onlyGivenNames -merge -underBinder y1
  clear_value y1
  split
  · extract_lets +onlyGivenNames -merge -underBinder y2
    have h2 : Keeps s y2 := (keeps_sat h)
    clear_value y2
    exact (Keeps.upd h2)
  · exact (Keeps.ite (keeps_sendReport h) (Keeps.ite (keeps_sat h) (Keeps.upd h)))

theorem keeps_wakeWatches {s : State} {a0 : State} {a1} {a2} (h : Keeps s a0) : Keeps s (State.wakeWatches a0 a1 a2) := by
  unfold State.wakeWatches
  extract_lets +onlyGivenNames -merge -underBinder y1
  clear_value y1
  exact (Keeps.upd h)

theorem keeps_noteOld {s : State} {a0 : State} {a1} {a2} (h : Keeps s a0) : Keeps s (State.noteOld a0 a1 a2) := by
  unfold State.noteOld
  exact (Keeps.upd h)

theorem keeps_mergeBytes {s : State} {a0 : State} {a1} {a2} (h : Keeps s a0) : Keeps s (State.mergeBytes a0 a1 a2) := by
  unfold State.mergeBytes
  extract_lets +onlyGivenNames -merge -underBinder y1
  have h1 : Keeps s y1 := (keeps_noteOld h)
  clear_value y1
  extract_lets +onlyGivenNames -merge -underBinder y2
  have h2 : Keeps s y2 := (Keeps.withArc h1 fun _ ha => (Archive.wrList_wf _ _ _ ha))
  clear_value y2
  exact (keeps_wakeWatches h2)

theorem keeps_setMarks {s : State} {a0 : State} {a1} {a2} (h : Keeps s a0) : Keeps s (State.setMarks a0 a1 a2) := by
  unfold State.setMarks
  exact (Keeps.withArc h fun _ ha => ha)

theorem keeps_poisonTag {s : State} {a0 : State} {a1} {a2} (h : Keeps s a0) : Keeps s (State.poisonTag a0 a1 a2) := by
  unfold State.poisonTag
  split
  · exact (Keeps.ite h (keeps_sat (Keeps.withArc h fun _ ha => ha)))
  · exact h

theorem keeps_poisonMark {s : State} {a0 : State} {a1} (h : Keeps s a0) : Keeps s (State.poisonMark a0 a1) := by
  unfold State.poisonMark
  exact (Keeps.ite h (keeps_sat (keeps_setMarks h)))

theorem keeps_poisonSector {s : State} {a0 : State} {a1} (h : Keeps s a0) : Keeps s (State.poisonSector a0 a1) := by
  unfold State.poisonSector
  split
  · exact (Keeps.ite (keeps_poisonTag h) (keeps_poisonMark h))
  · exact (keeps_poisonMark h)

theorem keeps_coarse {s : State} {a0 : State} {a1} {a2} {a3} {a4} {a5} {a6} (h : Keeps s a0) : Keeps s (State.coarse a0 a1 a2 a3 a4 a5 a6) := by
  unfold State.coarse
  extract_lets +onlyGivenNames -merge -underBinder y1
  clear_value y1
  extract_lets +onlyGivenNames -merge -underBinder y2
  have h2 : Keeps s y2 := (Keeps.upd h)
  clear_value y2
  exact (Keeps.ite (keeps_sat h2) (keeps_bump h2))

theorem keeps_countSectors {s : State} {a0 : State} {a1} {a2} {a3} (h : Keeps s a0) : Keeps s (State.countSectors a0 a1 a2 a3) := by
  unfold State.countSectors
  extract_lets +onlyGivenNames -merge -underBinder y1
  clear_value y1
  extract_lets +onlyGivenNames -merge -underBinder y2
  clear_value y2
  extract_lets +onlyGivenNames -merge -underBinder y3
  have h3 : Keeps s y3 := (Keeps.withArc h fun _ ha => ha)
  clear_value y3
  exact (keeps_coarse h3)

theorem keeps_stackWrite {s : State} {a0 : State} {a1} {a2} {a3} {a4} (h : Keeps s a0) : Keeps s (State.stackWrite a0 a1 a2 a3 a4) := by
  unfold State.stackWrite
  extract_lets +onlyGivenNames -merge -underBinder y1
  clear_value y1
  refine Keeps.ite ?_ ?_
  · exact h
  · extract_lets +onlyGivenNames -merge -underBinder y2
    clear_value y2
    extract_lets +onlyGivenNames -merge -underBinder y3
    have h3 : Keeps s y3 := (Keeps.withArc h fun _ ha => (Archive.writeBack_wf _ _ _ ha))
    clear_value y3
    extract_lets +onlyGivenNames -merge -underBinder y4
    have h4 : Keeps s y4 := (keeps_setMarks h3)
    clear_value y4
    exact (keeps_countSectors h4)

theorem keeps_fetchTag {s : State} {a0 : State} {a1} {a2} (h : Keeps s a0) : Keeps s (State.fetchTag a0 a1 a2) := by
  unfold State.fetchTag
  refine Keeps.ite ?_ ?_
  · exact h
  · extract_lets +onlyGivenNames -merge -underBinder y1
    clear_value y1
    exact (Keeps.withArc h fun _ ha => ha)

theorem keeps_setFrame {s : State} {a0 : State} {a1} {a2} {a3} (h : Keeps s a0) : Keeps s (State.setFrame a0 a1 a2 a3) := by
  unfold State.setFrame
  exact (Keeps.withArc (keeps_setReg h) fun _ ha => ha)

theorem keeps_hbmReport {s : State} {a0 : State} {a1} {a2} {a3} (h : Keeps s a0) : Keeps s (State.hbmReport a0 a1 a2 a3) := by
  unfold State.hbmReport
  extract_lets +onlyGivenNames -merge -underBinder y1
  clear_value y1
  extract_lets +onlyGivenNames -merge -underBinder y2
  clear_value y2
  exact (keeps_report h)

theorem keeps_poisonLine {s : State} {a0 : State} {a1} (h : Keeps s a0) : Keeps s (State.poisonLine a0 a1) := by
  unfold State.poisonLine
  exact (Keeps.foldl h fun _ _ h1 => (keeps_poisonMark h1))

theorem keeps_stackCheck {s : State} {a0 : State} {a1} {a2} {a3} (h : Keeps s a0) : Keeps s (State.stackCheck a0 a1 a2 a3) := by
  unfold State.stackCheck
  extract_lets +onlyGivenNames -merge -underBinder y1
  clear_value y1
  extract_lets +onlyGivenNames -merge -underBinder y2
  clear_value y2
  refine Keeps.ite ?_ ?_
  · exact h
  · refine Keeps.ite ?_ ?_
    · exact (keeps_hbmReport (keeps_sat h))
    · extract_lets +onlyGivenNames -merge -underBinder y3
      have h3 : Keeps s y3 := (keeps_sat h)
      clear_value y3
      split
      · exact (keeps_hbmReport (keeps_poisonLine h3))
      · extract_lets +onlyGivenNames -merge -underBinder y4
        clear_value y4
        refine Keeps.ite ?_ ?_
        · extract_lets +onlyGivenNames -merge -underBinder y5
          have h5 : Keeps s y5 := (Keeps.ite h3 (keeps_sat h3))
          clear_value y5
          extract_lets +onlyGivenNames -merge -underBinder y6
          have h6 : Keeps s y6 := (Keeps.withArc h5 fun _ ha => (Archive.wf_foldl ha fun _ _ hw7 => (Archive.wrHbm_wf _ _ _ hw7)))
          clear_value y6
          extract_lets +onlyGivenNames -merge -underBinder y8
          have h8 : Keeps s y8 := (Keeps.withArc h6 fun _ ha => ha)
          clear_value y8
          exact (keeps_hbmReport (keeps_sat h8))
        · extract_lets +onlyGivenNames -merge -underBinder y9
          have h9 : Keeps s y9 := (keeps_sat h3)
          clear_value y9
          exact (keeps_hbmReport (keeps_poisonLine (keeps_poisonLine h9)))

theorem keeps_stackRead {s : State} {a0 : State} {a1} {a2} {a3} (h : Keeps s a0) : Keeps s (State.stackRead a0 a1 a2 a3) := by
  unfold State.stackRead
  refine Keeps.ite ?_ ?_
  · exact h
  · extract_lets +onlyGivenNames -merge -underBinder y1
    have h1 : Keeps s y1 := (keeps_countSectors h)
    clear_value y1
    exact (keeps_stackCheck h1)

theorem keeps_mbxWr {s : State} {a0 : State} {a1} {a2} (h : Keeps s a0) : Keeps s (State.mbxWr a0 a1 a2) := by
  unfold State.mbxWr
  exact (Keeps.upd h)

theorem keeps_raiseEcho {s : State} {a0 : State} {a1} {a2} (h : Keeps s a0) : Keeps s (State.raiseEcho a0 a1 a2) := by
  unfold State.raiseEcho
  exact (Keeps.ite h (keeps_mbxWr h))

theorem keeps_lostDoorbells {s : State} {a0 : State} {a1} {a2} (h : Keeps s a0) : Keeps s (State.lostDoorbells a0 a1 a2) := by
  unfold State.lostDoorbells
  refine Keeps.ite ?_ ?_
  · exact h
  · extract_lets +onlyGivenNames -merge -underBinder y1
    clear_value y1
    extract_lets +onlyGivenNames -merge -underBinder y2
    have h2 : Keeps s y2 := (keeps_setCoreX h)
    clear_value y2
    split
    · exact (keeps_raiseEcho h2)
    · exact h2

theorem keeps_hostReqM {s : State} {a0 : State} {a1} {a2} {a3} {a4} {a5} {a6} {a7} (h : Keeps s a0) : Keeps s (State.hostReqM a0 a1 a2 a3 a4 a5 a6 a7) := by
  unfold State.hostReqM
  split
  · exact h
  · extract_lets +onlyGivenNames -merge -underBinder y1
    clear_value y1
    exact (Keeps.upd h)

theorem keeps_hostReq {s : State} {a0 : State} {a1} {a2} {a3} {a4} {a5} {a6} (h : Keeps s a0) : Keeps s (State.hostReq a0 a1 a2 a3 a4 a5 a6) := by
  unfold State.hostReq
  exact (keeps_hostReqM h)

theorem keeps_setRecX {s : State} {a0 : State} {a1} {a2} (h : Keeps s a0) : Keeps s (State.setRecX a0 a1 a2) := by
  unfold State.setRecX
  split
  · exact (keeps_modQ h)
  · exact (keeps_setSvcX h)

theorem keeps_sendNotify {s : State} {a0 : State} {a1} (h : Keeps s a0) : Keeps s (State.sendNotify a0 a1) := by
  unfold State.sendNotify
  extract_lets +onlyGivenNames -merge -underBinder y1
  clear_value y1
  refine Keeps.ite ?_ ?_
  · extract_lets +onlyGivenNames -merge -underBinder y2
    have h2 : Keeps s y2 := (keeps_hostReq h)
    clear_value y2
    exact (Keeps.ite h2 (keeps_setRecX h2))
  · exact (keeps_setBit h)

theorem keeps_notify {s : State} {a0 : State} {a1} (h : Keeps s a0) : Keeps s (State.notify a0 a1) := by
  unfold State.notify
  exact (Keeps.ite (Keeps.ite (keeps_setRecX h) (keeps_sendNotify h)) h)

theorem keeps_notifyAfter {s : State} {a0 : State} {a1} (h : Keeps s a0) : Keeps s (State.notifyAfter a0 a1) := by
  unfold State.notifyAfter
  extract_lets +onlyGivenNames -merge -underBinder y1
  clear_value y1
  split
  · exact (keeps_setRecX h)
  · exact (keeps_notify h)

theorem keeps_drop {s : State} {a0 : State} {a1} (h : Keeps s a0) : Keeps s (State.drop a0 a1) := by
  unfold State.drop
  exact (keeps_sat h)

theorem keeps_dbErr {s : State} {a0 : State} {a1} (h : Keeps s a0) : Keeps s (State.dbErr a0 a1) := by
  unfold State.dbErr
  exact (keeps_drop (keeps_setBit h))

end Sys2Proof.Machine
end

