-- ==== Sys2Proof/Laws/KeepsMem.lean ====
section
/-!
SUPPORT. That each operation of these keeps what `Keeps` says (Laws/Keeps.lean), one lemma for each:
translation, flows of the fabric, and accesses to memory.
-/

namespace Sys2Proof.Machine

theorem keeps_cacheWalk {s : State} {a0 : State} {a1} {a2} (h : Keeps s a0) : Keeps s (State.cacheWalk a0 a1 a2) := by
  unfold State.cacheWalk
  extract_lets +onlyGivenNames -merge -underBinder y1
  clear_value y1
  extract_lets +onlyGivenNames -merge -underBinder y2
  have h2 : Keeps s y2 := (keeps_setCoreX h)
  clear_value y2
  exact (Keeps.upd h2)

theorem keeps_cacheXlat {s : State} {a0 : State} {a1} {a2} {a3} (h : Keeps s a0) : Keeps s (State.cacheXlat a0 a1 a2 a3) := by
  unfold State.cacheXlat
  extract_lets +onlyGivenNames -merge -underBinder y1
  clear_value y1
  extract_lets +onlyGivenNames -merge -underBinder y2
  clear_value y2
  extract_lets +onlyGivenNames -merge -underBinder y3
  clear_value y3
  extract_lets +onlyGivenNames -merge -underBinder y4
  clear_value y4
  extract_lets +onlyGivenNames -merge -underBinder y5
  have h5 : Keeps s y5 := (keeps_setCoreX h)
  clear_value y5
  extract_lets +onlyGivenNames -merge -underBinder y6
  have h6 : Keeps s y6 := (keeps_fetchTag (Keeps.upd h5))
  clear_value y6
  exact (keeps_modRun h6)

theorem keeps_recordXlat {s : State} {a0 : State} {a1} {a2} {a3} {a4} (h : Keeps s a0) : Keeps s (State.recordXlat a0 a1 a2 a3 a4) := by
  unfold State.recordXlat
  extract_lets +onlyGivenNames -merge -underBinder y1
  clear_value y1
  refine Keeps.ite ?_ ?_
  · exact h
  · refine Keeps.ite ?_ ?_
    · exact (keeps_sat h)
    · extract_lets +onlyGivenNames -merge -underBinder y2
      clear_value y2
      extract_lets +onlyGivenNames -merge -underBinder y3
      have h3 : Keeps s y3 := (keeps_setReg h)
      clear_value y3
      extract_lets +onlyGivenNames -merge -underBinder y4
      have h4 : Keeps s y4 := (keeps_setReg h3)
      clear_value y4
      split
      · exact (keeps_setReg h4)
      · exact (keeps_setReg h4)

theorem keeps_nOut {s : State} {a0 : State} {a1} {a2} (h : Keeps s a0) : Keeps s (State.nOut a0 a1 a2) := by
  unfold State.nOut
  split
  · exact (Keeps.upd h)
  · exact h

theorem keeps_nSend {s : State} {a0 : State} {a1} {a2} {a3} (h : Keeps s a0) : Keeps s (State.nSend a0 a1 a2 a3) := by
  unfold State.nSend
  exact (keeps_nOut h)

theorem keeps_setFlow {s : State} {a0 : State} {a1} {a2} (h : Keeps s a0) : Keeps s (State.setFlow a0 a1 a2) := by
  unfold State.setFlow
  exact (Keeps.upd h)

theorem keeps_closeFlow {s : State} {a0 : State} {a1} {a2} (h : Keeps s a0) : Keeps s (State.closeFlow a0 a1 a2) := by
  unfold State.closeFlow
  extract_lets +onlyGivenNames -merge -underBinder y1
  clear_value y1
  extract_lets +onlyGivenNames -merge -underBinder y2
  have h2 : Keeps s y2 := (keeps_setFlow h)
  clear_value y2
  exact (Keeps.upd h2)

theorem keeps_flowPush {s : State} {a0 : State} {a1} {a2} {a3} {a4} {a5} {a6} (h : Keeps s a0) : Keeps s (State.flowPush a0 a1 a2 a3 a4 a5 a6) := by
  unfold State.flowPush
  extract_lets +onlyGivenNames -merge -underBinder y1
  clear_value y1
  extract_lets +onlyGivenNames -merge -underBinder y2
  have h2 : Keeps s y2 := (keeps_setFlow h)
  clear_value y2
  exact (keeps_nSend h2)

theorem keeps_flowGive {s : State} {a0 : State} {a1} {a2} {a3} {a4} {a5} {a6} (h : Keeps s a0) : Keeps s (State.flowGive a0 a1 a2 a3 a4 a5 a6) := by
  unfold State.flowGive
  split
  · exact (Keeps.upd h)
  · extract_lets +onlyGivenNames -merge -underBinder y1
    clear_value y1
    split
    · extract_lets +onlyGivenNames -merge -underBinder y2
      clear_value y2
      exact (Keeps.ite (keeps_flowPush h) (keeps_setFlow h))
    · extract_lets +onlyGivenNames -merge -underBinder y3
      clear_value y3
      extract_lets +onlyGivenNames -merge -underBinder y4
      clear_value y4
      extract_lets +onlyGivenNames -merge -underBinder y5
      have h5 : Keeps s y5 := (Keeps.upd h)
      clear_value y5
      extract_lets +onlyGivenNames -merge -underBinder y6
      have h6 : Keeps s y6 := (keeps_setFlow h5)
      clear_value y6
      exact (keeps_nSend h6)

theorem keeps_fabRequest {s : State} {a0 : State} {a1} {a2} {a3} {a4} {a5} (h : Keeps s a0) : Keeps s (State.fabRequest a0 a1 a2 a3 a4 a5).1 := by
  unfold State.fabRequest
  split
  · exact (Keeps.pair (keeps_flowGive h))
  · exact h

theorem keeps_wrLs {s : State} {a0 : State} {a1} {a2} {a3} (h : Keeps s a0) : Keeps s (State.wrLs a0 a1 a2 a3) := by
  unfold State.wrLs
  exact (Keeps.withArc h fun _ ha => (Archive.wrLsList_wf _ _ _ ha))

theorem keeps_noteOut {s : State} {a0 : State} {a1} {a2} (h : Keeps s a0) : Keeps s (State.noteOut a0 a1 a2) := by
  unfold State.noteOut
  split
  · exact (Keeps.ite (keeps_noteOld h) h)
  · exact h

theorem keeps_dropLine {s : State} {a0 : State} {a1} {a2} (h : Keeps s a0) : Keeps s (State.dropLine a0 a1 a2) := by
  unfold State.dropLine
  extract_lets +onlyGivenNames -merge -underBinder y1
  have h1 : Keeps s y1 := (keeps_noteOut h)
  clear_value y1
  extract_lets +onlyGivenNames -merge -underBinder y2
  have h2 : Keeps s y2 := (Keeps.withArc h1 fun _ ha => ha)
  clear_value y2
  exact (Keeps.ite (Keeps.withArc h2 fun _ ha => ha) h2)

theorem keeps_wbSector {s : State} {a0 : State} {a1} {a2} {a3} (h : Keeps s a0) : Keeps s (State.wbSector a0 a1 a2 a3).1 := by
  unfold State.wbSector
  split
  · exact h
  · extract_lets +onlyGivenNames -merge -underBinder y1
    clear_value y1
    extract_lets +onlyGivenNames -merge -underBinder y2
    clear_value y2
    refine Keeps.iteFst ?_ ?_
    · exact h
    · extract_lets +onlyGivenNames -merge -underBinder y3
      clear_value y3
      extract_lets +onlyGivenNames -merge -underBinder y4
      have h4 : Keeps s y4 := (Keeps.withArc h fun _ ha => ha)
      clear_value y4
      refine Keeps.iteFst ?_ ?_
      · extract_lets +onlyGivenNames -merge -underBinder y5
        clear_value y5
        extract_lets +onlyGivenNames -merge -underBinder y6
        clear_value y6
        exact (keeps_fabRequest h4)
      · extract_lets +onlyGivenNames -merge -underBinder y7
        clear_value y7
        split
        · exact h4
        · exact (Keeps.pair (keeps_hostReqM h4))

theorem keeps_evictLost {s : State} {a0 : State} {a1} {a2} {a3} (h : Keeps s a0) : Keeps s (State.evictLost a0 a1 a2 a3) := by
  unfold State.evictLost
  exact (keeps_report h)

theorem keeps_evictLine {s : State} {a0 : State} {a1} (h : Keeps s a0) : Keeps s (State.evictLine a0 a1) := by
  unfold State.evictLine
  refine Keeps.ite ?_ ?_
  · refine keeps_dropLine ?_
    refine Keeps.foldl ?_ fun y5 a5 h5 => ?_
    · exact h
    · extract_lets +onlyGivenNames -merge -underBinder y6
      have h6 : Keeps s y6.1 := (keeps_wbSector h5)
      clear_value y6
      exact (Keeps.ite h6 (keeps_evictLost h6))
  · extract_lets +onlyGivenNames -merge -underBinder y7
    have h7 : Keeps s y7 := (keeps_dropLine h)
    clear_value y7
    refine Keeps.ite ?_ ?_
    · exact h7
    · extract_lets +onlyGivenNames -merge -underBinder y8
      have h8 : Keeps s y8 := (Keeps.withArc h7 fun _ ha => ha)
      clear_value y8
      exact (keeps_send h8)

theorem keeps_freeWay {s : State} {a0 : State} {a1} {a2} (h : Keeps s a0) : Keeps s (State.freeWay a0 a1 a2) := by
  unfold State.freeWay
  extract_lets +onlyGivenNames -merge -underBinder y1
  clear_value y1
  refine Keeps.ite ?_ ?_
  · exact h
  · split
    · exact (keeps_evictLine h)
    · exact h

theorem keeps_allocLine {s : State} {a0 : State} {a1} {a2} (h : Keeps s a0) : Keeps s (State.allocLine a0 a1 a2) := by
  unfold State.allocLine
  refine Keeps.ite ?_ ?_
  · exact (Keeps.withArc h fun _ ha => (Archive.putLine_wf _ _ ha))
  · extract_lets +onlyGivenNames -merge -underBinder y1
    clear_value y1
    extract_lets +onlyGivenNames -merge -underBinder y2
    have h2 : Keeps s y2 := (Keeps.ite (keeps_sat h) h)
    clear_value y2
    extract_lets +onlyGivenNames -merge -underBinder y3
    have h3 : Keeps s y3 := by
      unfold y3
      split
      · exact (keeps_evictLine h2)
      · exact (keeps_freeWay h2)
    clear_value y3
    exact (Keeps.withArc h3 fun _ ha => (Archive.putLine_wf _ _ ha))

theorem keeps_touchLine {s : State} {a0 : State} {a1} {a2} (h : Keeps s a0) : Keeps s (State.touchLine a0 a1 a2) := by
  unfold State.touchLine
  refine Keeps.ite ?_ ?_
  · exact (Keeps.ite h (keeps_allocLine h))
  · refine Keeps.ite ?_ ?_
    · exact h
    · extract_lets +onlyGivenNames -merge -underBinder y1
      clear_value y1
      extract_lets +onlyGivenNames -merge -underBinder y2
      clear_value y2
      extract_lets +onlyGivenNames -merge -underBinder y3
      have h3 : Keeps s y3 := (Keeps.ite (keeps_sat h) h)
      clear_value y3
      exact (Keeps.withArc h3 fun _ ha => (Archive.putLine_wf _ _ ha))

theorem keeps_request {s : State} {a0 : State} {a1} {a2} {a3} {a4} {a5} {a6} {a7} {a8} (h : Keeps s a0) : Keeps s (State.request a0 a1 a2 a3 a4 a5 a6 a7 a8) := by
  unfold State.request
  split
  · exact (Keeps.withArc h fun _ ha => ha)
  · extract_lets +onlyGivenNames -merge -underBinder y1
    have h1 : Keeps s y1 := (Keeps.withArc h fun _ ha => ha)
    clear_value y1
    exact (keeps_send h1)

theorem keeps_readTouch {s : State} {a0 : State} {a1} {a2} {a3} {a4} {a5} {a6} (h : Keeps s a0) : Keeps s (State.readTouch a0 a1 a2 a3 a4 a5 a6) := by
  unfold State.readTouch
  split
  · extract_lets +onlyGivenNames -merge -underBinder y1
    have h1 : Keeps s y1 := (keeps_touchLine h)
    clear_value y1
    exact (Keeps.ite h1 (keeps_request h1))
  · exact (keeps_request h)

theorem keeps_writeTouch {s : State} {a0 : State} {a1} {a2} {a3} {a4} {a5} {a6} (h : Keeps s a0) : Keeps s (State.writeTouch a0 a1 a2 a3 a4 a5 a6) := by
  unfold State.writeTouch
  split
  · extract_lets +onlyGivenNames -merge -underBinder y1
    have h1 : Keeps s y1 := (keeps_touchLine h)
    clear_value y1
    split
    · exact (Keeps.withArc h1 fun _ ha => ha)
    · exact (Keeps.withArc h1 fun _ ha => ha)
    · exact (keeps_request h1)
    · exact (keeps_request h1)
    · exact (keeps_request h1)
  · exact (keeps_request h)

theorem keeps_fetchOut {s : State} {a0 : State} {a1} {a2} {a3} (h : Keeps s a0) : Keeps s (State.fetchOut a0 a1 a2 a3) := by
  unfold State.fetchOut
  extract_lets +onlyGivenNames -merge -underBinder y1
  clear_value y1
  refine Keeps.ite ?_ ?_
  · exact h
  · refine Keeps.ite ?_ ?_
    · extract_lets +onlyGivenNames -merge -underBinder y2
      clear_value y2
      extract_lets +onlyGivenNames -merge -underBinder y3
      clear_value y3
      extract_lets +onlyGivenNames -merge -underBinder y4
      have h4 : Keeps s y4.1 := (keeps_fabRequest h)
      clear_value y4
      exact (Keeps.ite h4 (Keeps.withArc h fun _ ha => ha))
    · exact (keeps_hostReq h)

theorem keeps_dropOutSector {s : State} {a0 : State} {a1} {a2} (h : Keeps s a0) : Keeps s (State.dropOutSector a0 a1 a2) := by
  unfold State.dropOutSector
  split
  · exact h
  · extract_lets +onlyGivenNames -merge -underBinder y1
    clear_value y1
    extract_lets +onlyGivenNames -merge -underBinder y2
    clear_value y2
    extract_lets +onlyGivenNames -merge -underBinder y3
    clear_value y3
    exact (Keeps.ite (keeps_dropLine h) (Keeps.withArc (keeps_noteOut h) fun _ ha => ha))

theorem keeps_dropSector {s : State} {a0 : State} {a1} {a2} (h : Keeps s a0) : Keeps s (State.dropSector a0 a1 a2) := by
  unfold State.dropSector
  refine Keeps.ite ?_ ?_
  · exact (keeps_dropOutSector h)
  · split
    · exact h
    · extract_lets +onlyGivenNames -merge -underBinder y1
      clear_value y1
      extract_lets +onlyGivenNames -merge -underBinder y2
      have h2 : Keeps s y2 := by
        unfold y2
        refine Keeps.foldl ?_ fun y5 a5 h5 => ?_
        · exact h
        · extract_lets +onlyGivenNames -merge -underBinder y6
          have h6 : Keeps s y6.1 := (keeps_freeBit h5)
          clear_value y6
          exact (Keeps.ite h6 (Keeps.withArc h6 fun _ ha => (Archive.wr_wf _ _ _ ha)))
      clear_value y2
      extract_lets +onlyGivenNames -merge -underBinder y7
      clear_value y7
      extract_lets +onlyGivenNames -merge -underBinder y8
      clear_value y8
      exact (Keeps.ite (keeps_dropLine h2) (Keeps.withArc h2 fun _ ha => ha))

theorem keeps_dropBoth {s : State} {a0 : State} {a1} {a2} (h : Keeps s a0) : Keeps s (State.dropBoth a0 a1 a2) := by
  unfold State.dropBoth
  extract_lets +onlyGivenNames -merge -underBinder y1
  have h1 : Keeps s y1 := (keeps_dropSector h)
  clear_value y1
  exact (Keeps.ite (keeps_dropSector h1) h1)

theorem keeps_lastSector {s : State} {a0 : State} {a1} {a2} (h : Keeps s a0) : Keeps s (State.lastSector a0 a1 a2) := by
  unfold State.lastSector
  refine Keeps.ite ?_ ?_
  · exact (keeps_dropBoth h)
  · extract_lets +onlyGivenNames -merge -underBinder y1
    have h1 : Keeps s y1 := (Keeps.upd h)
    clear_value y1
    exact (keeps_modRun h1)

theorem keeps_poisonRead {s : State} {a0 : State} {a1} {a2} {a3} (h : Keeps s a0) : Keeps s (State.poisonRead a0 a1 a2 a3).1 := by
  unfold State.poisonRead
  extract_lets +onlyGivenNames -merge -underBinder y1
  clear_value y1
  refine Keeps.iteFst ?_ ?_
  · extract_lets +onlyGivenNames -merge -underBinder y2
    clear_value y2
    extract_lets +onlyGivenNames -merge -underBinder y3
    have h3 : Keeps s y3 := (keeps_sat h)
    clear_value y3
    exact (Keeps.pair (keeps_report h3))
  · exact h

theorem keeps_readLines {s : State} {a0 : State} {a1} {a2} {a3} {a4} (h : Keeps s a0) : Keeps s (State.readLines a0 a1 a2 a3 a4) := by
  unfold State.readLines
  extract_lets +onlyGivenNames -merge -underBinder y1
  have h1 : Keeps s y1 := by
    unfold y1
    refine Keeps.foldl ?_ fun y4 a4 h4 => ?_
    · exact h
    · refine Keeps.ite ?_ ?_
      · split
        · exact (keeps_touchLine h4)
        · exact h4
      · exact (keeps_readTouch h4)
  clear_value y1
  exact (Keeps.ite (Keeps.foldl h1 fun _ _ h5 => (keeps_lastSector h5)) h1)

theorem keeps_readOut {s : State} {a0 : State} {a1} {a2} {a3} {a4} (h : Keeps s a0) : Keeps s (State.readOut a0 a1 a2 a3 a4).1 := by
  unfold State.readOut
  split
  · exact (Keeps.pair (Keeps.withArc h fun _ ha => ha))
  · extract_lets +onlyGivenNames -merge -underBinder y1
    clear_value y1
    exact (Keeps.iteFst (Keeps.pair (Keeps.foldl h fun _ _ h2 => (keeps_fetchOut h2))) (Keeps.iteFst h (Keeps.pair (keeps_readLines h))))

theorem keeps_readPa {s : State} {a0 : State} {a1} {a2} {a3} {a4} (h : Keeps s a0) : Keeps s (State.readPa a0 a1 a2 a3 a4).1 := by
  unfold State.readPa
  refine Keeps.iteFst ?_ ?_
  · exact (keeps_readOut h)
  · refine Keeps.iteFst ?_ ?_
    · split
      · exact h
      · exact h
    · extract_lets +onlyGivenNames -merge -underBinder y1
      have h1 : Keeps s y1.1 := (keeps_poisonRead h)
      clear_value y1
      split
      · exact h1
      · exact (Keeps.pair (keeps_readLines h))

theorem keeps_writeOut {s : State} {a0 : State} {a1} {a2} {a3} {a4} {a5} (h : Keeps s a0) : Keeps s (State.writeOut a0 a1 a2 a3 a4 a5) := by
  unfold State.writeOut
  extract_lets +onlyGivenNames -merge -underBinder y1
  have h1 : Keeps s y1 := (keeps_noteOld h)
  clear_value y1
  extract_lets +onlyGivenNames -merge -underBinder y2
  have h2 : Keeps s y2 := by
    unfold y2
    refine Keeps.foldl ?_ fun y5 a5 h5 => ?_
    · exact h1
    · extract_lets +onlyGivenNames -merge -underBinder y6
      clear_value y6
      split
      · exact (Keeps.withArc (keeps_touchLine h5) fun _ ha => ha)
      · exact (keeps_allocLine h5)
  clear_value y2
  exact (Keeps.withArc h2 fun _ ha => (Archive.wrOut_wf _ _ _ _ ha))

theorem keeps_writePa {s : State} {a0 : State} {a1} {a2} {a3} {a4} (h : Keeps s a0) : Keeps s (State.writePa a0 a1 a2 a3 a4).1 := by
  unfold State.writePa
  extract_lets +onlyGivenNames -merge -underBinder y1
  clear_value y1
  refine Keeps.iteFst ?_ ?_
  · exact (Keeps.pair (keeps_writeOut h))
  · refine Keeps.iteFst ?_ ?_
    · split
      · exact h
      · exact (Keeps.pair (keeps_wrLs h))
    · refine Keeps.iteFst ?_ ?_
      · exact h
      · refine Keeps.iteFst ?_ ?_
        · exact h
        · extract_lets +onlyGivenNames -merge -underBinder y2
          have h2 : Keeps s y2 := (keeps_mergeBytes h)
          clear_value y2
          exact (Keeps.pair (Keeps.foldl h2 fun _ _ h3 => (keeps_writeTouch h3)))

theorem keeps_sendPreWb {s : State} {a0 : State} {a1} {a2} (h : Keeps s a0) : Keeps s (State.sendPreWb a0 a1 a2) := by
  unfold State.sendPreWb
  split
  · refine Keeps.ite ?_ ?_
    · exact h
    · extract_lets +onlyGivenNames -merge -underBinder y1
      have h1 : Keeps s y1 := (keeps_coarse h)
      clear_value y1
      extract_lets +onlyGivenNames -merge -underBinder y2
      have h2 : Keeps s y2 := (keeps_modRun h1)
      clear_value y2
      extract_lets +onlyGivenNames -merge -underBinder y3
      have h3 : Keeps s y3 := (Keeps.withArc h2 fun _ ha => ha)
      clear_value y3
      exact (keeps_send h3)
  · exact h

theorem keeps_tentWay {s : State} {a0 : State} {a1} {a2} (h : Keeps s a0) : Keeps s (State.tentWay a0 a1 a2) := by
  unfold State.tentWay
  extract_lets +onlyGivenNames -merge -underBinder y1
  clear_value y1
  refine Keeps.ite ?_ ?_
  · split
    · exact (keeps_evictLine h)
    · exact h
  · exact (keeps_freeWay h)

theorem keeps_tentLine {s : State} {a0 : State} {a1} {a2} (h : Keeps s a0) : Keeps s (State.tentLine a0 a1 a2).1 := by
  unfold State.tentLine
  split
  · exact h
  · refine Keeps.iteFst ?_ ?_
    · exact h
    · refine Keeps.iteFst ?_ ?_
      · exact h
      · extract_lets +onlyGivenNames -merge -underBinder y1
        clear_value y1
        exact (Keeps.iteFst h (Keeps.iteFst (Keeps.pair (keeps_sendPreWb h)) (Keeps.pair (keeps_modRun (keeps_tentWay h)))))

theorem keeps_tentRoom {s : State} {a0 : State} {a1} {a2} (h : Keeps s a0) : Keeps s (State.tentRoom a0 a1 a2).1 := by
  unfold State.tentRoom
  refine Keeps.foldlFst ?_ fun y2 a2 h2 => ?_
  · exact h
  · split
    · exact h2
    · extract_lets +onlyGivenNames -merge -underBinder y3
      have h3 : Keeps s y3.1 := (keeps_tentLine h2)
      clear_value y3
      exact h3
    · exact (keeps_tentLine h2)

theorem keeps_writeTent {s : State} {a0 : State} {a1} {a2} {a3} {a4} (h : Keeps s a0) : Keeps s (State.writeTent a0 a1 a2 a3 a4).1 := by
  unfold State.writeTent
  refine Keeps.iteFst ?_ ?_
  · exact h
  · extract_lets +onlyGivenNames -merge -underBinder y1
    have h1 : Keeps s y1.1 := (keeps_tentRoom h)
    clear_value y1
    split
    · extract_lets +onlyGivenNames -merge -underBinder y2
      have h2 : Keeps s y2 := (keeps_noteOld h1)
      clear_value y2
      exact (Keeps.pair (keeps_modRun h2))
    · exact h1

theorem keeps_logOp {s : State} {a0 : State} {a1} {a2} {a3} (h : Keeps s a0) : Keeps s (State.logOp a0 a1 a2 a3).1 := by
  unfold State.logOp
  split
  · exact h
  · extract_lets +onlyGivenNames -merge -underBinder y1
    clear_value y1
    exact (Keeps.iteFst h (Keeps.pair (keeps_setRun h)))

theorem keeps_tableTouch {s : State} {a0 : State} {a1} {a2} (h : Keeps s a0) : Keeps s (State.tableTouch a0 a1 a2) := by
  unfold State.tableTouch
  extract_lets +onlyGivenNames -merge -underBinder y1
  clear_value y1
  exact (Keeps.foldl h fun _ _ h2 => (keeps_readTouch h2))

theorem keeps_xlat {s : State} {a0 : State} {a1} {a2} {a3} (h : Keeps s a0) : Keeps s (State.xlat a0 a1 a2 a3).1 := by
  unfold State.xlat
  split
  · exact (Keeps.pair (keeps_cacheXlat (Keeps.ite h (keeps_tableTouch h))))
  · extract_lets +onlyGivenNames -merge -underBinder y1
    have h1 : Keeps s y1 := (keeps_cacheWalk (keeps_tableTouch h))
    clear_value y1
    exact (Keeps.pair (Keeps.ite (keeps_recordXlat h1) h1))

theorem keeps_refuse {s : State} {a0 : State} {a1} {a2} {a3} {a4} {a5} (h : Keeps s a0) : Keeps s (State.refuse a0 a1 a2 a3 a4 a5) := by
  unfold State.refuse
  exact (Keeps.ite (keeps_recordXlat h) h)

theorem keeps_readVaN_aux {s : State} : ∀ a0 a1 a2 a3 a4 a5 a6 a7, Keeps s a0 → Keeps s (State.readVaN a0 a1 a2 a3 a4 a5 a6 a7).1
  | x0, x1, x2, x3, 0, x4, x5, x6, h => by
    rw [State.readVaN]
    exact h
  | x0, x1, x2, x3, (x7 + 1), x4, x5, x6, h => by
    rw [State.readVaN]
    refine Keeps.iteFst ?_ ?_
    · exact h
    · extract_lets +onlyGivenNames -merge -underBinder y1
      clear_value y1
      extract_lets +onlyGivenNames -merge -underBinder y2
      have h2 : Keeps s y2.1 := (keeps_xlat h)
      clear_value y2
      split
      · exact h2
      · extract_lets +onlyGivenNames -merge -underBinder y3
        have h3 : Keeps s y3.1 := (Keeps.iteFst h2 (keeps_readPa h2))
        clear_value y3
        split
        · exact (keeps_readVaN_aux _ _ _ _ _ _ _ _ h3)
        · exact (Keeps.pair (keeps_refuse h3))
        · exact h3

theorem keeps_readVaN {s : State} {a0 : State} {a1} {a2} {a3} {a4} {a5} {a6} {a7} (h : Keeps s a0) : Keeps s (State.readVaN a0 a1 a2 a3 a4 a5 a6 a7).1 := keeps_readVaN_aux a0 a1 a2 a3 a4 a5 a6 a7 h

theorem keeps_readVa {s : State} {a0 : State} {a1} {a2} {a3} {a4} {a5} (h : Keeps s a0) : Keeps s (State.readVa a0 a1 a2 a3 a4 a5).1 := by
  unfold State.readVa
  exact (keeps_readVaN h)

theorem keeps_checkVaN_aux {s : State} : ∀ a0 a1 a2 a3 a4 a5 a6, Keeps s a0 → Keeps s (State.checkVaN a0 a1 a2 a3 a4 a5 a6).1
  | x0, x1, x2, x3, 0, x4, x5, h => by
    rw [State.checkVaN]
    exact h
  | x0, x1, x2, x3, (x6 + 1), x4, x5, h => by
    rw [State.checkVaN]
    refine Keeps.iteFst ?_ ?_
    · exact h
    · extract_lets +onlyGivenNames -merge -underBinder y1
      have h1 : Keeps s y1.1 := (keeps_xlat h)
      clear_value y1
      split
      · exact h1
      · split
        · exact (Keeps.pair (keeps_refuse h1))
        · exact (keeps_checkVaN_aux _ _ _ _ _ _ _ h1)

theorem keeps_checkVaN {s : State} {a0 : State} {a1} {a2} {a3} {a4} {a5} {a6} (h : Keeps s a0) : Keeps s (State.checkVaN a0 a1 a2 a3 a4 a5 a6).1 := keeps_checkVaN_aux a0 a1 a2 a3 a4 a5 a6 h

theorem keeps_checkVa {s : State} {a0 : State} {a1} {a2} {a3} {a4} {a5} (h : Keeps s a0) : Keeps s (State.checkVa a0 a1 a2 a3 a4 a5).1 := by
  unfold State.checkVa
  exact (keeps_checkVaN h)

theorem keeps_writeVaN_aux {s : State} : ∀ a0 a1 a2 a3 a4 a5, Keeps s a0 → Keeps s (State.writeVaN a0 a1 a2 a3 a4 a5).1
  | x0, x1, x2, 0, x3, x4, h => by
    rw [State.writeVaN]
    exact h
  | x0, x1, x2, (x5 + 1), x3, x4, h => by
    rw [State.writeVaN]
    refine Keeps.iteFst ?_ ?_
    · exact h
    · extract_lets +onlyGivenNames -merge -underBinder y1
      clear_value y1
      extract_lets +onlyGivenNames -merge -underBinder y2
      have h2 : Keeps s y2.1 := (keeps_xlat h)
      clear_value y2
      split
      · exact h2
      · extract_lets +onlyGivenNames -merge -underBinder y3
        have h3 : Keeps s y3.1 := by
          unfold y3
          split
          · exact h2
          · exact (Keeps.iteFst h2 (Keeps.iteFst (keeps_writeTent h2) (keeps_writePa h2)))
        clear_value y3
        split
        · exact (keeps_writeVaN_aux _ _ _ _ _ _ h3)
        · exact (Keeps.pair (keeps_refuse h3))
        · exact h3

theorem keeps_writeVaN {s : State} {a0 : State} {a1} {a2} {a3} {a4} {a5} (h : Keeps s a0) : Keeps s (State.writeVaN a0 a1 a2 a3 a4 a5).1 := keeps_writeVaN_aux a0 a1 a2 a3 a4 a5 h

theorem keeps_writeVa {s : State} {a0 : State} {a1} {a2} {a3} {a4} (h : Keeps s a0) : Keeps s (State.writeVa a0 a1 a2 a3 a4).1 := by
  unfold State.writeVa
  exact (keeps_writeVaN h)

theorem keeps_tentVaN_aux {s : State} : ∀ a0 a1 a2 a3 a4, Keeps s a0 → Keeps s (State.tentVaN a0 a1 a2 a3 a4).1
  | x0, x1, 0, x2, x3, h => by
    rw [State.tentVaN]
    exact h
  | x0, x1, (x4 + 1), x2, x3, h => by
    rw [State.tentVaN]
    refine Keeps.iteFst ?_ ?_
    · exact h
    · extract_lets +onlyGivenNames -merge -underBinder y1
      clear_value y1
      extract_lets +onlyGivenNames -merge -underBinder y2
      have h2 : Keeps s y2.1 := by
        unfold y2
        split
        · exact (Keeps.iteFst h (keeps_tentRoom h))
        · exact h
      clear_value y2
      split
      · exact h2
      · extract_lets +onlyGivenNames -merge -underBinder y3
        have h3 : Keeps s y3.1 := (keeps_tentVaN_aux _ _ _ _ _ h2)
        clear_value y3
        exact h3

theorem keeps_tentVaN {s : State} {a0 : State} {a1} {a2} {a3} {a4} (h : Keeps s a0) : Keeps s (State.tentVaN a0 a1 a2 a3 a4).1 := keeps_tentVaN_aux a0 a1 a2 a3 a4 h

theorem keeps_tentVa {s : State} {a0 : State} {a1} {a2} {a3} (h : Keeps s a0) : Keeps s (State.tentVa a0 a1 a2 a3).1 := by
  unfold State.tentVa
  exact (keeps_tentVaN h)

theorem keeps_sendAtom {s : State} {a0 : State} {a1} {a2} {a3} (h : Keeps s a0) : Keeps s (State.sendAtom a0 a1 a2 a3) := by
  unfold State.sendAtom
  exact (keeps_send h)

end Sys2Proof.Machine
end

