-- ==== Sys2Proof/Laws/KeepsQue.lean ====
section
/-!
SUPPORT. That each operation of these keeps what `Keeps` says (Laws/Keeps.lean), one lemma for each:
queues and completions, the coherence of lines, and the loss of C-dies.
-/

namespace Sys2Proof.Machine

theorem keeps_modCmd {s : State} {a0 : State} {a1} {a2} {a3} (h : Keeps s a0) : Keeps s (State.modCmd a0 a1 a2 a3) := by
  unfold State.modCmd
  exact (keeps_modQ h)

theorem keeps_dropCmd {s : State} {a0 : State} {a1} {a2} (h : Keeps s a0) : Keeps s (State.dropCmd a0 a1 a2) := by
  unfold State.dropCmd
  exact (keeps_modQ h)

theorem keeps_setQState {s : State} {a0 : State} {a1} {a2} (h : Keeps s a0) : Keeps s (State.setQState a0 a1 a2) := by
  unfold State.setQState
  exact (keeps_setFld h)

theorem keeps_headUpdate {s : State} {a0 : State} {a1} (h : Keeps s a0) : Keeps s (State.headUpdate a0 a1) := by
  unfold State.headUpdate
  split
  · exact h
  · refine Keeps.ite ?_ ?_
    · exact h
    · extract_lets +onlyGivenNames -merge -underBinder y1
      clear_value y1
      exact (keeps_modCmd h)

theorem keeps_refreshQ {s : State} {a0 : State} {a1} (h : Keeps s a0) : Keeps s (State.refreshQ a0 a1) := by
  unfold State.refreshQ
  extract_lets +onlyGivenNames -merge -underBinder y1
  have h1 : Keeps s y1 := (keeps_headUpdate h)
  clear_value y1
  extract_lets +onlyGivenNames -merge -underBinder y2
  clear_value y2
  refine Keeps.ite ?_ ?_
  · exact h1
  · extract_lets +onlyGivenNames -merge -underBinder y3
    clear_value y3
    refine Keeps.ite ?_ ?_
    · exact (keeps_setQState h1)
    · split
      · exact (Keeps.ite (keeps_setQState h1) (keeps_setQState h1))
      · exact (keeps_setQState h1)

theorem keeps_setBusy {s : State} {a0 : State} {a1} {a2} (h : Keeps s a0) : Keeps s (State.setBusy a0 a1 a2) := by
  unfold State.setBusy
  extract_lets +onlyGivenNames -merge -underBinder y1
  clear_value y1
  extract_lets +onlyGivenNames -merge -underBinder y2
  have h2 : Keeps s y2 := (keeps_setFld (keeps_setFld h))
  clear_value y2
  exact (Keeps.ite (keeps_setFld h2) h2)

theorem keeps_clearBusy {s : State} {a0 : State} {a1} {a2} (h : Keeps s a0) : Keeps s (State.clearBusy a0 a1 a2) := by
  unfold State.clearBusy
  extract_lets +onlyGivenNames -merge -underBinder y1
  have h1 : Keeps s y1 := (keeps_setFld h)
  clear_value y1
  refine Keeps.ite ?_ ?_
  · extract_lets +onlyGivenNames -merge -underBinder y2
    have h2 : Keeps s y2 := (Keeps.ite (keeps_setFld h1) h1)
    clear_value y2
    exact (keeps_setFld (keeps_setFld h2))
  · exact h1

theorem keeps_qReport {s : State} {a0 : State} {a1} {a2} {a3} {a4} {a5} {a6} (h : Keeps s a0) : Keeps s (State.qReport a0 a1 a2 a3 a4 a5 a6) := by
  unfold State.qReport
  extract_lets +onlyGivenNames -merge -underBinder y1
  clear_value y1
  exact (keeps_report h)

theorem keeps_ledgerEnd {s : State} {a0 : State} {a1} {a2} (h : Keeps s a0) : Keeps s (State.ledgerEnd a0 a1 a2) := by
  unfold State.ledgerEnd
  split
  · exact h
  · extract_lets +onlyGivenNames -merge -underBinder y1
    clear_value y1
    extract_lets +onlyGivenNames -merge -underBinder y2
    clear_value y2
    extract_lets +onlyGivenNames -merge -underBinder y3
    have h3 : Keeps s y3 := (keeps_setFld h)
    clear_value y3
    extract_lets +onlyGivenNames -merge -underBinder y4
    have h4 : Keeps s y4.1 := (keeps_freeNum h3)
    clear_value y4
    extract_lets +onlyGivenNames -merge -underBinder y5
    have h5 : Keeps s y5 := (keeps_sat h4)
    clear_value y5
    extract_lets +onlyGivenNames -merge -underBinder y6
    clear_value y6
    extract_lets +onlyGivenNames -merge -underBinder y7
    have h7 : Keeps s y7.1 := (keeps_freeBit h5)
    clear_value y7
    extract_lets +onlyGivenNames -merge -underBinder y8
    clear_value y8
    extract_lets +onlyGivenNames -merge -underBinder y9
    have h9 : Keeps s y9 := (Keeps.ite h5 (keeps_setFld h7))
    clear_value y9
    exact (keeps_modCmd h9)

theorem keeps_showHeld {s : State} {a0 : State} {a1} (h : Keeps s a0) : Keeps s (State.showHeld a0 a1) := by
  unfold State.showHeld
  split
  · exact (Keeps.foldl h fun _ _ h1 => (keeps_setReg h1))
  · exact h

theorem keeps_block {s : State} {a0 : State} {a1} {a2} {a3} (h : Keeps s a0) : Keeps s (State.block a0 a1 a2 a3) := by
  unfold State.block
  extract_lets +onlyGivenNames -merge -underBinder y1
  clear_value y1
  extract_lets +onlyGivenNames -merge -underBinder y2
  have h2 : Keeps s y2 := (keeps_setRecX h)
  clear_value y2
  extract_lets +onlyGivenNames -merge -underBinder y3
  have h3 : Keeps s y3 := (Keeps.ite h2 (keeps_setFld (keeps_setFld h2)))
  clear_value y3
  exact (keeps_notify (keeps_showHeld h3))

theorem keeps_recordDone {s : State} {a0 : State} {a1} {a2} (h : Keeps s a0) : Keeps s (State.recordDone a0 a1 a2) := by
  unfold State.recordDone
  extract_lets +onlyGivenNames -merge -underBinder y1
  have h1 : Keeps s y1 := (keeps_bump h)
  clear_value y1
  exact (Keeps.ite (keeps_notify h1) h1)

theorem keeps_emitRecord {s : State} {a0 : State} {a1} {a2} {a3} (h : Keeps s a0) : Keeps s (State.emitRecord a0 a1 a2 a3) := by
  unfold State.emitRecord
  extract_lets +onlyGivenNames -merge -underBinder y1
  clear_value y1
  refine Keeps.ite ?_ ?_
  · exact (keeps_setRecX h)
  · extract_lets +onlyGivenNames -merge -underBinder y2
    clear_value y2
    extract_lets +onlyGivenNames -merge -underBinder y3
    clear_value y3
    extract_lets +onlyGivenNames -merge -underBinder y4
    clear_value y4
    extract_lets +onlyGivenNames -merge -underBinder y5
    clear_value y5
    extract_lets +onlyGivenNames -merge -underBinder y6
    clear_value y6
    extract_lets +onlyGivenNames -merge -underBinder y7
    have h7 : Keeps s y7.1 := (keeps_xlat h)
    clear_value y7
    split
    · exact (keeps_block h7)
    · refine Keeps.ite ?_ ?_
      · split
        · exact (keeps_block h7)
        · extract_lets +onlyGivenNames -merge -underBinder y8
          have h8 : Keeps s y8 := (keeps_setRecX h7)
          clear_value y8
          exact (keeps_hostReq h8)
      · extract_lets +onlyGivenNames -merge -underBinder y9
        have h9 : Keeps s y9.1 := (keeps_writePa h7)
        clear_value y9
        split
        · exact (keeps_recordDone h9)
        · exact (keeps_block h9)

theorem keeps_recordAck {s : State} {a0 : State} {a1} {a2} (h : Keeps s a0) : Keeps s (State.recordAck a0 a1 a2) := by
  unfold State.recordAck
  extract_lets +onlyGivenNames -merge -underBinder y1
  clear_value y1
  split
  · exact h
  · refine Keeps.ite ?_ ?_
    · exact (keeps_recordDone (keeps_setRecX h))
    · extract_lets +onlyGivenNames -merge -underBinder y2
      have h2 : Keeps s y2.1 := (keeps_xlat h)
      clear_value y2
      split
      · exact (keeps_block (keeps_setRecX h2))
      · extract_lets +onlyGivenNames -merge -underBinder y3
        have h3 : Keeps s y3 := (keeps_setRecX h2)
        clear_value y3
        exact (keeps_hostReq h3)

theorem keeps_recordFail {s : State} {a0 : State} {a1} {a2} (h : Keeps s a0) : Keeps s (State.recordFail a0 a1 a2) := by
  unfold State.recordFail
  extract_lets +onlyGivenNames -merge -underBinder y1
  clear_value y1
  extract_lets +onlyGivenNames -merge -underBinder y2
  clear_value y2
  extract_lets +onlyGivenNames -merge -underBinder y3
  have h3 : Keeps s y3 := (keeps_setRecX h)
  clear_value y3
  exact (keeps_block h3)

theorem keeps_reserve {s : State} {a0 : State} {a1} {a2} {a3} (h : Keeps s a0) : Keeps s (State.reserve a0 a1 a2 a3) := by
  unfold State.reserve
  extract_lets +onlyGivenNames -merge -underBinder y1
  clear_value y1
  extract_lets +onlyGivenNames -merge -underBinder y2
  have h2 : Keeps s y2 := (keeps_setFld h)
  clear_value y2
  exact (Keeps.ite (keeps_setFld h2) h2)

theorem keeps_releaseRes {s : State} {a0 : State} {a1} {a2} {a3} (h : Keeps s a0) : Keeps s (State.releaseRes a0 a1 a2 a3) := by
  unfold State.releaseRes
  exact (keeps_setFld h)

theorem keeps_endRun {s : State} {a0 : State} {a1} (h : Keeps s a0) : Keeps s (State.endRun a0 a1) := by
  unfold State.endRun
  split
  · exact h
  · exact (keeps_setRun (keeps_releaseRes h))

theorem keeps_newRun {s : State} {a0 : State} {a1} {a2} {a3} (h : Keeps s a0) : Keeps s (State.newRun a0 a1 a2 a3).1 := by
  unfold State.newRun
  extract_lets +onlyGivenNames -merge -underBinder y1
  clear_value y1
  extract_lets +onlyGivenNames -merge -underBinder y2
  have h2 : Keeps s y2 := (Keeps.upd h)
  clear_value y2
  extract_lets +onlyGivenNames -merge -underBinder y3
  have h3 : Keeps s y3 := (keeps_setRun h2)
  clear_value y3
  exact (Keeps.pair (Keeps.ite h3 (keeps_setEng h3)))

theorem keeps_leaveGang {s : State} {a0 : State} {a1} {a2} (h : Keeps s a0) : Keeps s (State.leaveGang a0 a1 a2) := by
  unfold State.leaveGang
  exact (Keeps.upd h)

theorem keeps_stopEngine {s : State} {a0 : State} {a1} {a2} (h : Keeps s a0) : Keeps s (State.stopEngine a0 a1 a2) := by
  unfold State.stopEngine
  extract_lets +onlyGivenNames -merge -underBinder y1
  clear_value y1
  extract_lets +onlyGivenNames -merge -underBinder y2
  have h2 : Keeps s y2 := (keeps_setEng h)
  clear_value y2
  extract_lets +onlyGivenNames -merge -underBinder y3
  have h3 : Keeps s y3 := (keeps_clearBusy h2)
  clear_value y3
  refine Keeps.ite ?_ ?_
  · exact (keeps_leaveGang h3)
  · refine Keeps.ite ?_ ?_
    · extract_lets +onlyGivenNames -merge -underBinder y4
      clear_value y4
      extract_lets +onlyGivenNames -merge -underBinder y5
      have h5 : Keeps s y5 := (keeps_setTe h3)
      clear_value y5
      exact (keeps_setFld (keeps_setFld h5))
    · exact h3

theorem keeps_freeEngine {s : State} {a0 : State} {a1} {a2} (h : Keeps s a0) : Keeps s (State.freeEngine a0 a1 a2) := by
  unfold State.freeEngine
  refine Keeps.ite ?_ ?_
  · extract_lets +onlyGivenNames -merge -underBinder y1
    have h1 : Keeps s y1 := (Keeps.ite (keeps_leaveGang h) h)
    clear_value y1
    exact (keeps_clearBusy (keeps_setEng h1))
  · exact h

theorem keeps_discardRun {s : State} {a0 : State} {a1} (h : Keeps s a0) : Keeps s (State.discardRun a0 a1) := by
  unfold State.discardRun
  split
  · exact h
  · refine Keeps.ite ?_ ?_
    · exact (keeps_endRun (keeps_freeEngine h))
    · extract_lets +onlyGivenNames -merge -underBinder y1
      have h1 : Keeps s y1 := (Keeps.withArc h fun _ ha => ha)
      clear_value y1
      extract_lets +onlyGivenNames -merge -underBinder y2
      have h2 : Keeps s y2 := (Keeps.ite (keeps_stopEngine h1) h1)
      clear_value y2
      refine Keeps.ite ?_ ?_
      · exact (keeps_setRun h2)
      · extract_lets +onlyGivenNames -merge -underBinder y3
        have h3 : Keeps s y3 := (Keeps.ite h2 (keeps_sat h2))
        clear_value y3
        exact (keeps_setRun h3)

theorem keeps_sendKill {s : State} {a0 : State} {a1} (h : Keeps s a0) : Keeps s (State.sendKill a0 a1) := by
  unfold State.sendKill
  extract_lets +onlyGivenNames -merge -underBinder y1
  clear_value y1
  exact (Keeps.ite (Keeps.upd h) h)

theorem keeps_killRun {s : State} {a0 : State} {a1} (h : Keeps s a0) : Keeps s (State.killRun a0 a1) := by
  unfold State.killRun
  split
  · exact h
  · exact (Keeps.ite (keeps_sendKill h) (keeps_discardRun (keeps_sendKill h)))

theorem keeps_dropRun {s : State} {a0 : State} {a1} (h : Keeps s a0) : Keeps s (State.dropRun a0 a1) := by
  unfold State.dropRun
  split
  · exact h
  · exact (keeps_discardRun (keeps_sendKill h))

theorem keeps_requeue {s : State} {a0 : State} {a1} {a2} (h : Keeps s a0) : Keeps s (State.requeue a0 a1 a2) := by
  unfold State.requeue
  refine Keeps.ite ?_ ?_
  · exact h
  · extract_lets +onlyGivenNames -merge -underBinder y1
    have h1 : Keeps s y1 := by
      unfold y1
      split
      · exact (keeps_ledgerEnd h)
      · exact h
    clear_value y1
    exact (keeps_modCmd h1)

theorem keeps_lowerLive {s : State} {a0 : State} {a1} (h : Keeps s a0) : Keeps s (State.lowerLive a0 a1) := by
  unfold State.lowerLive
  split
  · extract_lets +onlyGivenNames -merge -underBinder y1
    have h1 : Keeps s y1.1 := (keeps_xlat h)
    clear_value y1
    extract_lets +onlyGivenNames -merge -underBinder y2
    have h2 : Keeps s y2 := by
      unfold y2
      refine Keeps.ite ?_ ?_
      · split
        · exact (keeps_writePa h1)
        · exact h1
      · exact h
    clear_value y2
    exact (keeps_modQ h2)
  · exact h

theorem keeps_killQueue {s : State} {a0 : State} {a1} {a2} {a3} (h : Keeps s a0) : Keeps s (State.killQueue a0 a1 a2 a3) := by
  unfold State.killQueue
  extract_lets +onlyGivenNames -merge -underBinder y1
  have h1 : Keeps s y1 := by
    unfold y1
    refine Keeps.foldl ?_ fun y4 a4 h4 => ?_
    · exact h
    · refine Keeps.ite ?_ ?_
      · exact (Keeps.ite (keeps_modCmd h4) h4)
      · extract_lets +onlyGivenNames -merge -underBinder y5
        have h5 : Keeps s y5 := (keeps_ledgerEnd h4)
        clear_value y5
        extract_lets +onlyGivenNames -merge -underBinder y6
        have h6 : Keeps s y6 := (Keeps.ite h5 (keeps_dropRun h5))
        clear_value y6
        exact (keeps_dropCmd h6)
  clear_value y1
  extract_lets +onlyGivenNames -merge -underBinder y7
  have h7 : Keeps s y7 := (keeps_lowerLive h1)
  clear_value y7
  extract_lets +onlyGivenNames -merge -underBinder y8
  have h8 : Keeps s y8 := (keeps_modQ h7)
  clear_value y8
  extract_lets +onlyGivenNames -merge -underBinder y9
  have h9 : Keeps s y9 := (keeps_setFld (keeps_setQState h8))
  clear_value y9
  exact (keeps_notifyAfter h9)

theorem keeps_killContext {s : State} {a0 : State} {a1} {a2} {a3} {a4} (h : Keeps s a0) : Keeps s (State.killContext a0 a1 a2 a3 a4) := by
  unfold State.killContext
  extract_lets +onlyGivenNames -merge -underBinder y1
  have h1 : Keeps s y1 := (Keeps.foldl h fun _ _ h2 => (Keeps.ite (keeps_killQueue h2) h2))
  clear_value y1
  refine Keeps.foldl ?_ fun y4 a4 h4 => ?_
  · exact h1
  · refine Keeps.ite ?_ ?_
    · extract_lets +onlyGivenNames -merge -underBinder y5
      have h5 : Keeps s y5 := (keeps_setFld (keeps_setFld h4))
      clear_value y5
      extract_lets +onlyGivenNames -merge -underBinder y6
      clear_value y6
      extract_lets +onlyGivenNames -merge -underBinder y7
      have h7 : Keeps s y7 := (keeps_setSvcX h5)
      clear_value y7
      extract_lets +onlyGivenNames -merge -underBinder y8
      clear_value y8
      extract_lets +onlyGivenNames -merge -underBinder y9
      have h9 : Keeps s y9 := (Keeps.upd h7)
      clear_value y9
      exact (keeps_notifyAfter h9)
    · exact h4

theorem keeps_afterStatus {s : State} {a0 : State} {a1} {a2} {a3} (h : Keeps s a0) : Keeps s (State.afterStatus a0 a1 a2 a3) := by
  unfold State.afterStatus
  refine Keeps.ite ?_ ?_
  · extract_lets +onlyGivenNames -merge -underBinder y1
    have h1 : Keeps s y1 := (keeps_qReport h)
    clear_value y1
    extract_lets +onlyGivenNames -merge -underBinder y2
    have h2 : Keeps s y2 := (keeps_killContext h1)
    clear_value y2
    exact (Keeps.ite h2 (keeps_killQueue h2))
  · exact (Keeps.ite (Keeps.ite h (keeps_modQ (keeps_setFld (keeps_setQState h)))) h)

theorem keeps_leaveAt {s : State} {a0 : State} {a1} {a2} {a3} {a4} {a5} (h : Keeps s a0) : Keeps s (State.leaveAt a0 a1 a2 a3 a4 a5) := by
  unfold State.leaveAt
  extract_lets +onlyGivenNames -merge -underBinder y1
  have h1 : Keeps s y1 := (keeps_ledgerEnd h)
  clear_value y1
  extract_lets +onlyGivenNames -merge -underBinder y2
  have h2 : Keeps s y2 := by
    unfold y2
    split
    · exact (Keeps.ite h1 (keeps_endRun (keeps_freeEngine h1)))
    · exact h1
  clear_value y2
  extract_lets +onlyGivenNames -merge -underBinder y3
  have h3 : Keeps s y3 := (keeps_dropCmd h2)
  clear_value y3
  extract_lets +onlyGivenNames -merge -underBinder y4
  have h4 : Keeps s y4 := (Keeps.ite (keeps_modQ h3) h3)
  clear_value y4
  extract_lets +onlyGivenNames -merge -underBinder y5
  clear_value y5
  extract_lets +onlyGivenNames -merge -underBinder y6
  clear_value y6
  extract_lets +onlyGivenNames -merge -underBinder y7
  have h7 : Keeps s y7 := (Keeps.ite (keeps_bump h4) h4)
  clear_value y7
  extract_lets +onlyGivenNames -merge -underBinder y8
  clear_value y8
  extract_lets +onlyGivenNames -merge -underBinder y9
  clear_value y9
  extract_lets +onlyGivenNames -merge -underBinder y10
  have h10 : Keeps s y10 := (Keeps.ite (keeps_sat h7) h7)
  clear_value y10
  exact (Keeps.ite (keeps_drop h10) (Keeps.ite (keeps_emitRecord h10) h10))

theorem keeps_completeAt {s : State} {a0 : State} {a1} {a2} {a3} {a4} {a5} (h : Keeps s a0) : Keeps s (State.completeAt a0 a1 a2 a3 a4 a5) := by
  unfold State.completeAt
  split
  · exact h
  · extract_lets +onlyGivenNames -merge -underBinder y1
    have h1 : Keeps s y1 := (keeps_leaveAt h)
    clear_value y1
    exact (Keeps.ite h1 (keeps_afterStatus h1))

theorem keeps_completeNow {s : State} {a0 : State} {a1} {a2} {a3} (h : Keeps s a0) : Keeps s (State.completeNow a0 a1 a2 a3) := by
  unfold State.completeNow
  extract_lets +onlyGivenNames -merge -underBinder y1
  clear_value y1
  extract_lets +onlyGivenNames -merge -underBinder y2
  clear_value y2
  extract_lets +onlyGivenNames -merge -underBinder y3
  have h3 : Keeps s y3 := by
    unfold y3
    split
    · exact (Keeps.ite h (keeps_dropRun h))
    · exact h
  clear_value y3
  exact (keeps_completeAt h3)

theorem keeps_sendEvents {s : State} {a0 : State} {a1} {a2} (h : Keeps s a0) : Keeps s (State.sendEvents a0 a1 a2) := by
  unfold State.sendEvents
  extract_lets +onlyGivenNames -merge -underBinder y1
  clear_value y1
  extract_lets +onlyGivenNames -merge -underBinder y2
  have h2 : Keeps s y2 := (Keeps.ite (Keeps.upd h) h)
  clear_value y2
  exact (Keeps.ite (Keeps.upd h2) h2)

theorem keeps_pourDone {s : State} {a0 : State} {a1} (h : Keeps s a0) : Keeps s (State.pourDone a0 a1) := by
  unfold State.pourDone
  split
  · refine Keeps.ite ?_ ?_
    · extract_lets +onlyGivenNames -merge -underBinder y1
      have h1 : Keeps s y1 := (keeps_lowerLive h)
      clear_value y1
      extract_lets +onlyGivenNames -merge -underBinder y2
      have h2 : Keeps s y2 := (keeps_sendEvents h1)
      clear_value y2
      exact (keeps_completeAt h2)
    · exact h
  · exact h

theorem keeps_advance {s : State} {a0 : State} {a1} (h : Keeps s a0) : Keeps s (State.advance a0 a1) := by
  unfold State.advance
  exact (keeps_refreshQ (keeps_pourDone h))

theorem keeps_fail {s : State} {a0 : State} {a1} {a2} {a3} (h : Keeps s a0) : Keeps s (State.fail a0 a1 a2 a3) := by
  unfold State.fail
  exact (keeps_advance (keeps_completeNow h))

theorem keeps_sendRemoteAtom {s : State} {a0 : State} {a1} {a2} {a3} {a4} {a5} (h : Keeps s a0) : Keeps s (State.sendRemoteAtom a0 a1 a2 a3 a4 a5).1 := by
  unfold State.sendRemoteAtom
  extract_lets +onlyGivenNames -merge -underBinder y1
  clear_value y1
  extract_lets +onlyGivenNames -merge -underBinder y2
  clear_value y2
  exact (keeps_fabRequest h)

theorem keeps_wcbOfRun {s : State} {a0 : State} {a1} (h : Keeps s a0) : Keeps s (State.wcbOfRun a0 a1) := by
  unfold State.wcbOfRun
  extract_lets +onlyGivenNames -merge -underBinder y1
  clear_value y1
  extract_lets +onlyGivenNames -merge -underBinder y2
  have h2 : Keeps s y2 := (Keeps.withArc h fun _ ha => ha)
  clear_value y2
  exact (keeps_modRun h2)

theorem keeps_commitDone {s : State} {a0 : State} {a1} (h : Keeps s a0) : Keeps s (State.commitDone a0 a1) := by
  unfold State.commitDone
  split
  · extract_lets +onlyGivenNames -merge -underBinder y1
    clear_value y1
    extract_lets +onlyGivenNames -merge -underBinder y2
    have h2 : Keeps s y2 := (Keeps.ite (keeps_qReport h) h)
    clear_value y2
    extract_lets +onlyGivenNames -merge -underBinder y3
    have h3 : Keeps s y3 := (keeps_sendEvents h2)
    clear_value y3
    exact (keeps_advance (keeps_completeAt h3))
  · exact h

theorem keeps_commitCheck {s : State} {a0 : State} {a1} (h : Keeps s a0) : Keeps s (State.commitCheck a0 a1) := by
  unfold State.commitCheck
  split
  · exact (Keeps.ite (keeps_commitDone h) h)
  · exact h

theorem keeps_commitSend {s : State} {a0 : State} {a1} (h : Keeps s a0) : Keeps s (State.commitSend a0 a1) := by
  unfold State.commitSend
  extract_lets +onlyGivenNames -merge -underBinder y1
  have h1 : Keeps s y1 := (keeps_wcbOfRun h)
  clear_value y1
  split
  · exact h1
  · extract_lets +onlyGivenNames -merge -underBinder y2
    clear_value y2
    extract_lets +onlyGivenNames -merge -underBinder y3
    have h3 : Keeps s y3 := (keeps_modRun h1)
    clear_value y3
    extract_lets +onlyGivenNames -merge -underBinder y4
    have h4 : Keeps s y4 := (Keeps.foldl h3 fun _ _ h5 => (keeps_writeOut h5))
    clear_value y4
    extract_lets +onlyGivenNames -merge -underBinder y6
    clear_value y6
    extract_lets +onlyGivenNames -merge -underBinder y7
    clear_value y7
    extract_lets +onlyGivenNames -merge -underBinder y8
    clear_value y8
    extract_lets +onlyGivenNames -merge -underBinder y9
    clear_value y9
    extract_lets +onlyGivenNames -merge -underBinder y10
    have h10 : Keeps s y10 := (Keeps.foldl h4 fun _ _ h11 => (keeps_send h11))
    clear_value y10
    extract_lets +onlyGivenNames -merge -underBinder y12
    clear_value y12
    extract_lets +onlyGivenNames -merge -underBinder y13
    have h13 : Keeps s y13 := (Keeps.foldl h10 fun _ _ h14 => (Keeps.ite (keeps_sendRemoteAtom h14) (keeps_send h14)))
    clear_value y13
    exact (keeps_modRun h13)

theorem keeps_commitRun {s : State} {a0 : State} {a1} {a2} (h : Keeps s a0) : Keeps s (State.commitRun a0 a1 a2) := by
  unfold State.commitRun
  extract_lets +onlyGivenNames -merge -underBinder y1
  clear_value y1
  extract_lets +onlyGivenNames -merge -underBinder y2
  clear_value y2
  extract_lets +onlyGivenNames -merge -underBinder y3
  have h3 : Keeps s y3 := (keeps_ledgerEnd h)
  clear_value y3
  extract_lets +onlyGivenNames -merge -underBinder y4
  have h4 : Keeps s y4 := (keeps_modCmd h3)
  clear_value y4
  extract_lets +onlyGivenNames -merge -underBinder y5
  have h5 : Keeps s y5 := (keeps_modRun h4)
  clear_value y5
  split
  · exact h5
  · extract_lets +onlyGivenNames -merge -underBinder y6
    have h6 : Keeps s y6 := (keeps_freeEngine h5)
    clear_value y6
    extract_lets +onlyGivenNames -merge -underBinder y7
    have h7 : Keeps s y7 := (Keeps.foldl h6 fun _ _ h8 => (keeps_dropBoth h8))
    clear_value y7
    extract_lets +onlyGivenNames -merge -underBinder y9
    have h9 : Keeps s y9 := (keeps_commitSend h7)
    clear_value y9
    exact (keeps_refreshQ (keeps_commitCheck h9))

theorem keeps_setDir {s : State} {a0 : State} {a1} {a2} (h : Keeps s a0) : Keeps s (State.setDir a0 a1 a2) := by
  unfold State.setDir
  extract_lets +onlyGivenNames -merge -underBinder y1
  clear_value y1
  exact (Keeps.withArc h fun _ ha => ha)

theorem keeps_sendInvs {s : State} {a0 : State} {a1} {a2} {a3} {a4} (h : Keeps s a0) : Keeps s (State.sendInvs a0 a1 a2 a3 a4) := by
  unfold State.sendInvs
  exact (Keeps.foldl h fun _ _ h1 => (keeps_send h1))

theorem keeps_evictDir {s : State} {a0 : State} {a1} {a2} {a3} (h : Keeps s a0) : Keeps s (State.evictDir a0 a1 a2 a3) := by
  unfold State.evictDir
  extract_lets +onlyGivenNames -merge -underBinder y1
  clear_value y1
  extract_lets +onlyGivenNames -merge -underBinder y2
  clear_value y2
  extract_lets +onlyGivenNames -merge -underBinder y3
  have h3 : Keeps s y3 := (keeps_sat h)
  clear_value y3
  extract_lets +onlyGivenNames -merge -underBinder y4
  clear_value y4
  extract_lets +onlyGivenNames -merge -underBinder y5
  have h5 : Keeps s y5 := (keeps_sendInvs h3)
  clear_value y5
  extract_lets +onlyGivenNames -merge -underBinder y6
  have h6 : Keeps s y6 := by
    unfold y6
    split
    · exact (keeps_send h5)
    · exact h5
  clear_value y6
  extract_lets +onlyGivenNames -merge -underBinder y7
  clear_value y7
  exact (Keeps.ite (keeps_setDir h6) (Keeps.withArc h6 fun _ ha => ha))

theorem keeps_grantLine {s : State} {a0 : State} {a1} {a2} {a3} (h : Keeps s a0) : Keeps s (State.grantLine a0 a1 a2 a3) := by
  unfold State.grantLine
  extract_lets +onlyGivenNames -merge -underBinder y1
  clear_value y1
  extract_lets +onlyGivenNames -merge -underBinder y2
  have h2 : Keeps s y2 := (keeps_stackRead h)
  clear_value y2
  extract_lets +onlyGivenNames -merge -underBinder y3
  clear_value y3
  exact (keeps_send h2)

theorem keeps_addTxn {s : State} {a0 : State} {a1} {a2} {a3} {a4} (h : Keeps s a0) : Keeps s (State.addTxn a0 a1 a2 a3 a4) := by
  unfold State.addTxn
  exact (Keeps.withArc h fun _ ha => ha)

theorem keeps_homeRead {s : State} {a0 : State} {a1} (h : Keeps s a0) : Keeps s (State.homeRead a0 a1) := by
  unfold State.homeRead
  split
  · exact (keeps_grantLine (keeps_setDir h))
  · split
    · exact (keeps_grantLine (keeps_setDir h))
    · exact (Keeps.ite (keeps_grantLine h) (keeps_addTxn (keeps_send h)))

theorem keeps_homeOwn {s : State} {a0 : State} {a1} {a2} (h : Keeps s a0) : Keeps s (State.homeOwn a0 a1 a2) := by
  unfold State.homeOwn
  extract_lets +onlyGivenNames -merge -underBinder y1
  clear_value y1
  extract_lets +onlyGivenNames -merge -underBinder y2
  clear_value y2
  extract_lets +onlyGivenNames -merge -underBinder y3
  clear_value y3
  extract_lets +onlyGivenNames -merge -underBinder y4
  clear_value y4
  extract_lets +onlyGivenNames -merge -underBinder y5
  have h5 : Keeps s y5 := (keeps_sendInvs h)
  clear_value y5
  split
  · exact (Keeps.ite (keeps_grantLine (keeps_setDir h5)) (keeps_addTxn (keeps_send h5)))
  · exact (keeps_grantLine (keeps_setDir h5))

theorem keeps_homeHolds {s : State} {a0 : State} {a1} {a2} {a3} {a4} (h : Keeps s a0) : Keeps s (State.homeHolds a0 a1 a2 a3 a4) := by
  unfold State.homeHolds
  extract_lets +onlyGivenNames -merge -underBinder y1
  clear_value y1
  extract_lets +onlyGivenNames -merge -underBinder y2
  have h2 : Keeps s y2 := (keeps_setDir h)
  clear_value y2
  extract_lets +onlyGivenNames -merge -underBinder y3
  clear_value y3
  split
  · exact (Keeps.withArc (keeps_touchLine h2) fun _ ha => ha)
  · exact (keeps_allocLine h2)

theorem keeps_homeFetch {s : State} {a0 : State} {a1} (h : Keeps s a0) : Keeps s (State.homeFetch a0 a1) := by
  unfold State.homeFetch
  extract_lets +onlyGivenNames -merge -underBinder y1
  clear_value y1
  extract_lets +onlyGivenNames -merge -underBinder y2
  clear_value y2
  exact (keeps_stackRead h)

theorem keeps_homeServe {s : State} {a0 : State} {a1} {a2} {a3} (h : Keeps s a0) : Keeps s (State.homeServe a0 a1 a2 a3) := by
  unfold State.homeServe
  extract_lets +onlyGivenNames -merge -underBinder y1
  clear_value y1
  exact (Keeps.ite h (keeps_stackRead h))

theorem keeps_applyOp {s : State} {a0 : State} {a1} (h : Keeps s a0) : Keeps s (State.applyOp a0 a1).1 := by
  unfold State.applyOp
  extract_lets +onlyGivenNames -merge -underBinder y1
  clear_value y1
  extract_lets +onlyGivenNames -merge -underBinder y2
  have h2 : Keeps s y2.1 := (keeps_poisonRead h)
  clear_value y2
  split
  · exact h2
  · extract_lets +onlyGivenNames -merge -underBinder y3
    clear_value y3
    exact (Keeps.pair (keeps_mergeBytes h))

theorem keeps_holdSector {s : State} {a0 : State} {a1} (h : Keeps s a0) : Keeps s (State.holdSector a0 a1) := by
  unfold State.holdSector
  exact (Keeps.withArc h fun _ ha => ha)

theorem keeps_mergeTable {s : State} {a0 : State} {a1} (h : Keeps s a0) : Keeps s (State.mergeTable a0 a1) := by
  unfold State.mergeTable
  extract_lets +onlyGivenNames -merge -underBinder y1
  have h1 : Keeps s y1 := (keeps_noteOld h)
  clear_value y1
  extract_lets +onlyGivenNames -merge -underBinder y2
  have h2 : Keeps s y2 := (Keeps.foldl h1 fun _ _ h3 => (Keeps.withArc h3 fun _ ha => (Archive.wr_wf _ _ _ ha)))
  clear_value y2
  exact (Keeps.foldl h2 fun _ _ h4 => (keeps_wakeWatches h4))

theorem keeps_fabAnswer {s : State} {a0 : State} {a1} {a2} {a3} {a4} {a5} {a6} {a7} {a8} (h : Keeps s a0) : Keeps s (State.fabAnswer a0 a1 a2 a3 a4 a5 a6 a7 a8) := by
  unfold State.fabAnswer
  exact (keeps_fabRequest h)

theorem keeps_ackMopn {s : State} {a0 : State} {a1} {a2} (h : Keeps s a0) : Keeps s (State.ackMopn a0 a1 a2) := by
  unfold State.ackMopn
  exact (Keeps.upd h)

theorem keeps_homeAck {s : State} {a0 : State} {a1} {a2} (h : Keeps s a0) : Keeps s (State.homeAck a0 a1 a2) := by
  unfold State.homeAck
  extract_lets +onlyGivenNames -merge -underBinder y1
  clear_value y1
  split
  · refine Keeps.ite ?_ ?_
    · exact (keeps_send h)
    · split
      · exact (keeps_fabAnswer h)
      · exact h
  · exact (keeps_send h)
  · exact (Keeps.ite (keeps_ackMopn h) (keeps_send h))
  · exact (keeps_send h)
  · exact (keeps_send h)
  · exact (keeps_send h)
  · exact (keeps_send h)
  · exact h

theorem keeps_mirrorThenAck {s : State} {a0 : State} {a1} {a2} {a3} (h : Keeps s a0) : Keeps s (State.mirrorThenAck a0 a1 a2 a3) := by
  unfold State.mirrorThenAck
  split
  · extract_lets +onlyGivenNames -merge -underBinder y1
    clear_value y1
    extract_lets +onlyGivenNames -merge -underBinder y2
    clear_value y2
    exact (keeps_addTxn (keeps_send h))
  · exact (keeps_homeAck h)

theorem keeps_homePoison {s : State} {a0 : State} {a1} {a2} (h : Keeps s a0) : Keeps s (State.homePoison a0 a1 a2) := by
  unfold State.homePoison
  exact (Keeps.foldl h fun _ _ h1 => (keeps_poisonSector h1))

theorem keeps_applySole {s : State} {a0 : State} {a1} {a2} {a3} {a4} (h : Keeps s a0) : Keeps s (State.applySole a0 a1 a2 a3 a4) := by
  unfold State.applySole
  split
  · extract_lets +onlyGivenNames -merge -underBinder y1
    clear_value y1
    extract_lets +onlyGivenNames -merge -underBinder y2
    clear_value y2
    exact (keeps_mirrorThenAck (keeps_homePoison (keeps_homeHolds (keeps_mergeTable h))))
  · extract_lets +onlyGivenNames -merge -underBinder y3
    clear_value y3
    refine Keeps.ite ?_ ?_
    · exact (keeps_mirrorThenAck (keeps_poisonSector (keeps_homeHolds h)))
    · extract_lets +onlyGivenNames -merge -underBinder y4
      have h4 : Keeps s y4.1 := (keeps_applyOp (keeps_homeFetch (keeps_homeHolds h)))
      clear_value y4
      extract_lets +onlyGivenNames -merge -underBinder y5
      have h5 : Keeps s y5 := (Keeps.ite (keeps_holdSector (keeps_homeHolds h4)) h4)
      clear_value y5
      exact (keeps_mirrorThenAck h5)
  · extract_lets +onlyGivenNames -merge -underBinder y6
    clear_value y6
    extract_lets +onlyGivenNames -merge -underBinder y7
    have h7 : Keeps s y7.1 := (keeps_applyOp (keeps_homeFetch (keeps_homeHolds h)))
    clear_value y7
    extract_lets +onlyGivenNames -merge -underBinder y8
    have h8 : Keeps s y8 := (Keeps.ite (keeps_holdSector (keeps_homeHolds h7)) h7)
    clear_value y8
    exact (keeps_mirrorThenAck h8)
  · exact (keeps_homeAck (keeps_homePoison (keeps_homeHolds (keeps_mergeTable h))))
  · exact h

theorem keeps_homeSole {s : State} {a0 : State} {a1} {a2} (h : Keeps s a0) : Keeps s (State.homeSole a0 a1 a2) := by
  unfold State.homeSole
  extract_lets +onlyGivenNames -merge -underBinder y1
  clear_value y1
  extract_lets +onlyGivenNames -merge -underBinder y2
  clear_value y2
  extract_lets +onlyGivenNames -merge -underBinder y3
  clear_value y3
  extract_lets +onlyGivenNames -merge -underBinder y4
  have h4 : Keeps s y4 := (keeps_sendInvs h)
  clear_value y4
  extract_lets +onlyGivenNames -merge -underBinder y5
  clear_value y5
  extract_lets +onlyGivenNames -merge -underBinder y6
  have h6 : Keeps s y6 := by
    unfold y6
    split
    · exact (keeps_send h4)
    · exact h4
  clear_value y6
  extract_lets +onlyGivenNames -merge -underBinder y7
  clear_value y7
  exact (Keeps.ite (keeps_applySole h6) (keeps_addTxn h6))

theorem keeps_homeFlush {s : State} {a0 : State} {a1} (h : Keeps s a0) : Keeps s (State.homeFlush a0 a1) := by
  unfold State.homeFlush
  split
  · exact (keeps_addTxn (keeps_send h))
  · exact (keeps_send h)

theorem keeps_evictWaited {s : State} {a0 : State} {a1} (h : Keeps s a0) : Keeps s (State.evictWaited a0 a1) := by
  unfold State.evictWaited
  split
  · exact (keeps_evictDir h)
  · exact h

theorem keeps_startHome {s : State} {a0 : State} {a1} {a2} (h : Keeps s a0) : Keeps s (State.startHome a0 a1 a2) := by
  unfold State.startHome
  refine Keeps.ite ?_ ?_
  · exact h
  · split
    · exact (keeps_evictWaited h)
    · exact (keeps_homeRead h)
    · exact (keeps_homeOwn h)
    · exact (keeps_homeOwn h)
    · exact (keeps_homeFlush h)
    · exact (keeps_homeSole h)
    · exact (keeps_homeSole h)
    · exact (keeps_homeSole h)
    · exact (keeps_homeSole h)
    · exact h

theorem keeps_awaitEntry {s : State} {a0 : State} {a1} {a2} (h : Keeps s a0) : Keeps s (State.awaitEntry a0 a1 a2) := by
  unfold State.awaitEntry
  extract_lets +onlyGivenNames -merge -underBinder y1
  clear_value y1
  split
  · exact (Keeps.withArc h fun _ ha => ha)
  · extract_lets +onlyGivenNames -merge -underBinder y2
    have h2 : Keeps s y2 := (Keeps.withArc h fun _ ha => ha)
    clear_value y2
    exact (Keeps.ite (Keeps.withArc h2 fun _ ha => ha) (keeps_evictDir h2))

theorem keeps_beginHome {s : State} {a0 : State} {a1} {a2} (h : Keeps s a0) : Keeps s (State.beginHome a0 a1 a2) := by
  unfold State.beginHome
  exact (Keeps.ite (keeps_awaitEntry h) (keeps_startHome h))

theorem keeps_drainLine_aux {s : State} : ∀ a0 a1 a2, Keeps s a0 → Keeps s (State.drainLine a0 a1 a2)
  | x0, x1, 0, h => by
    rw [State.drainLine]
    exact h
  | x0, x1, (x2 + 1), h => by
    rw [State.drainLine]
    refine Keeps.ite ?_ ?_
    · exact h
    · extract_lets +onlyGivenNames -merge -underBinder y1
      clear_value y1
      split
      · exact h
      · exact (keeps_drainLine_aux _ _ _ (keeps_beginHome (Keeps.withArc h fun _ ha => ha)))

theorem keeps_drainLine {s : State} {a0 : State} {a1} {a2} (h : Keeps s a0) : Keeps s (State.drainLine a0 a1 a2) := keeps_drainLine_aux a0 a1 a2 h

theorem keeps_drainDir {s : State} {a0 : State} (h : Keeps s a0) : Keeps s (State.drainDir a0) := by
  unfold State.drainDir
  split
  · exact h
  · exact (keeps_drainLine (keeps_startHome (Keeps.withArc h fun _ ha => ha)))

theorem keeps_endTxn {s : State} {a0 : State} {a1} (h : Keeps s a0) : Keeps s (State.endTxn a0 a1) := by
  unfold State.endTxn
  extract_lets +onlyGivenNames -merge -underBinder y1
  have h1 : Keeps s y1 := (Keeps.withArc h fun _ ha => ha)
  clear_value y1
  exact (keeps_drainLine (keeps_drainDir h1))

theorem keeps_unsend {s : State} {a0 : State} {a1} {a2} (h : Keeps s a0) : Keeps s (State.unsend a0 a1 a2) := by
  unfold State.unsend
  exact (Keeps.upd h)

theorem keeps_onArrival {s : State} {a0 : State} {a1} {a2} {a3} (h : Keeps s a0) (hk1 : ∀ b0, Keeps s b0 → Keeps s (a3 b0)) : Keeps s (State.onArrival a0 a1 a2 a3) := by
  unfold State.onArrival
  exact (Keeps.ite (hk1 _ (keeps_unsend h)) h)

theorem keeps_homeMsg {s : State} {a0 : State} {a1} {a2} (h : Keeps s a0) : Keeps s (State.homeMsg a0 a1 a2) := by
  unfold State.homeMsg
  exact (Keeps.ite h (Keeps.ite (Keeps.withArc h fun _ ha => ha) (keeps_beginHome h)))

theorem keeps_homeWrite {s : State} {a0 : State} {a1} {a2} {a3} {a4} {a5} (h : Keeps s a0) : Keeps s (State.homeWrite a0 a1 a2 a3 a4 a5) := by
  unfold State.homeWrite
  split
  · exact h
  · extract_lets +onlyGivenNames -merge -underBinder y1
    clear_value y1
    exact (keeps_homeMsg h)

theorem keeps_homeMerge {s : State} {a0 : State} {a1} {a2} {a3} (h : Keeps s a0) : Keeps s (State.homeMerge a0 a1 a2 a3) := by
  unfold State.homeMerge
  extract_lets +onlyGivenNames -merge -underBinder y1
  have h1 : Keeps s y1 := (keeps_mergeBytes h)
  clear_value y1
  exact (Keeps.foldl h1 fun _ _ h2 => (keeps_homeMsg h2))

theorem keeps_effRdS {s : State} {a0} {a1 : State} (h : Keeps s a1) : Keeps s (effRdS a0 a1) := by
  unfold effRdS
  exact (keeps_onArrival h (fun _ h1_0 => (keeps_homeMsg h1_0)))

theorem keeps_effOwn {s : State} {a0} {a1 : State} (h : Keeps s a1) : Keeps s (effOwn a0 a1) := by
  unfold effOwn
  exact (keeps_onArrival h (fun _ h1_0 => (keeps_homeMsg h1_0)))

theorem keeps_effUpgr {s : State} {a0} {a1 : State} (h : Keeps s a1) : Keeps s (effUpgr a0 a1) := by
  unfold effUpgr
  exact (keeps_onArrival h (fun _ h1_0 => (keeps_homeMsg h1_0)))

theorem keeps_effAtom {s : State} {a0} {a1 : State} (h : Keeps s a1) : Keeps s (effAtom a0 a1) := by
  unfold effAtom
  exact (keeps_onArrival h (fun _ h1_0 => (keeps_homeMsg h1_0)))

theorem keeps_effFlush {s : State} {a0} {a1 : State} (h : Keeps s a1) : Keeps s (effFlush a0 a1) := by
  unfold effFlush
  exact (keeps_onArrival h (fun _ h1_0 => (keeps_homeMsg h1_0)))

theorem keeps_effCmt {s : State} {a0} {a1 : State} (h : Keeps s a1) : Keeps s (effCmt a0 a1) := by
  unfold effCmt
  exact (keeps_onArrival h (fun _ h1_0 => (keeps_homeMsg h1_0)))

theorem keeps_effLog {s : State} {a0} {a1 : State} (h : Keeps s a1) : Keeps s (effLog a0 a1) := by
  unfold effLog
  exact (keeps_onArrival h (fun _ h1_0 => (keeps_homeMsg h1_0)))

theorem keeps_effMir {s : State} {a0} {a1 : State} (h : Keeps s a1) : Keeps s (effMir a0 a1) := by
  unfold effMir
  exact (keeps_onArrival h (fun _ h1_0 => (keeps_homeMsg h1_0)))

theorem keeps_homeWb {s : State} {a0 : State} {a1} {a2} {a3} (h : Keeps s a0) : Keeps s (State.homeWb a0 a1 a2 a3) := by
  unfold State.homeWb
  refine Keeps.ite ?_ ?_
  · exact h
  · split
    · exact (Keeps.ite (keeps_mirrorThenAck (keeps_setDir (keeps_stackWrite h))) (keeps_homeAck h))
    · exact (keeps_homeAck h)

theorem keeps_effWb {s : State} {a0} {a1 : State} (h : Keeps s a1) : Keeps s (effWb a0 a1) := by
  unfold effWb
  exact (keeps_onArrival h (fun _ h1_0 => (keeps_drainDir (keeps_homeWb h1_0))))

theorem keeps_effPreWb {s : State} {a0} {a1 : State} (h : Keeps s a1) : Keeps s (effPreWb a0 a1) := by
  unfold effPreWb
  exact (keeps_onArrival h (fun _ h1_0 => (keeps_homeWb h1_0)))

theorem keeps_ownerData {s : State} {a0 : State} {a1} {a2} {a3} (h : Keeps s a0) : Keeps s (State.ownerData a0 a1 a2 a3) := by
  unfold State.ownerData
  extract_lets +onlyGivenNames -merge -underBinder y1
  clear_value y1
  exact (keeps_send h)

theorem keeps_toHome {s : State} {a0 : State} {a1} {a2} {a3} {a4} {a5} (h : Keeps s a0) : Keeps s (State.toHome a0 a1 a2 a3 a4 a5) := by
  unfold State.toHome
  extract_lets +onlyGivenNames -merge -underBinder y1
  clear_value y1
  exact (keeps_send h)

theorem keeps_answerSnoop {s : State} {a0 : State} {a1} {a2} {a3} (h : Keeps s a0) : Keeps s (State.answerSnoop a0 a1 a2 a3).1 := by
  unfold State.answerSnoop
  extract_lets +onlyGivenNames -merge -underBinder y1
  clear_value y1
  split
  · exact (Keeps.pair (keeps_toHome (keeps_ownerData h)))
  · exact (Keeps.pair (keeps_toHome (keeps_ownerData h)))
  · exact (Keeps.pair (keeps_toHome h))
  · extract_lets +onlyGivenNames -merge -underBinder y2
    clear_value y2
    exact (Keeps.pair (keeps_toHome h))

theorem keeps_snoop {s : State} {a0 : State} {a1} {a2} (h : Keeps s a0) : Keeps s (State.snoop a0 a1 a2) := by
  unfold State.snoop
  extract_lets +onlyGivenNames -merge -underBinder y1
  clear_value y1
  split
  · exact (keeps_answerSnoop h)
  · refine Keeps.ite ?_ ?_
    · exact (Keeps.withArc h fun _ ha => ha)
    · split
      · extract_lets +onlyGivenNames -merge -underBinder y2
        have h2 : Keeps s y2.1 := (keeps_answerSnoop h)
        clear_value y2
        exact (Keeps.ite (keeps_dropLine h2) (Keeps.withArc h2 fun _ ha => ha))
      · exact (keeps_toHome h)

theorem keeps_effSnpS {s : State} {a0} {a1 : State} (h : Keeps s a1) : Keeps s (effSnpS a0 a1) := by
  unfold effSnpS
  exact (keeps_onArrival h (fun _ h1_0 => (keeps_snoop h1_0)))

theorem keeps_effSnpX {s : State} {a0} {a1 : State} (h : Keeps s a1) : Keeps s (effSnpX a0 a1) := by
  unfold effSnpX
  exact (keeps_onArrival h (fun _ h1_0 => (keeps_snoop h1_0)))

theorem keeps_effRecall {s : State} {a0} {a1 : State} (h : Keeps s a1) : Keeps s (effRecall a0 a1) := by
  unfold effRecall
  exact (keeps_onArrival h (fun _ h1_0 => (keeps_snoop h1_0)))

theorem keeps_effClean {s : State} {a0} {a1 : State} (h : Keeps s a1) : Keeps s (effClean a0 a1) := by
  unfold effClean
  exact (keeps_onArrival h (fun _ h1_0 => (keeps_snoop h1_0)))

theorem keeps_effInv {s : State} {a0} {a1 : State} (h : Keeps s a1) : Keeps s (effInv a0 a1) := by
  unfold effInv
  refine keeps_onArrival h (fun b3_0 h3_0 => ?_)
  extract_lets +onlyGivenNames -merge -underBinder y4
  have h4 : Keeps s y4 := (Keeps.withArc (keeps_dropLine h3_0) fun _ ha => ha)
  clear_value y4
  exact (keeps_send h4)

theorem keeps_finishGrant {s : State} {a0 : State} {a1} {a2} (h : Keeps s a0) : Keeps s (State.finishGrant a0 a1 a2) := by
  unfold State.finishGrant
  extract_lets +onlyGivenNames -merge -underBinder y1
  have h1 : Keeps s y1 := (Keeps.withArc h fun _ ha => ha)
  clear_value y1
  extract_lets +onlyGivenNames -merge -underBinder y2
  clear_value y2
  extract_lets +onlyGivenNames -merge -underBinder y3
  clear_value y3
  extract_lets +onlyGivenNames -merge -underBinder y4
  have h4 : Keeps s y4 := by
    unfold y4
    split
    · exact (Keeps.withArc h1 fun _ ha => ha)
    · exact (Keeps.ite h1 (keeps_allocLine h1))
  clear_value y4
  extract_lets +onlyGivenNames -merge -underBinder y5
  have h5 : Keeps s y5 := (Keeps.foldl h4 fun _ _ h6 => (keeps_snoop h6))
  clear_value y5
  extract_lets +onlyGivenNames -merge -underBinder y7
  have h7 : Keeps s y7 := (Keeps.ite (keeps_writeTouch h5) h5)
  clear_value y7
  exact (Keeps.ite h7 (keeps_readTouch h7))

theorem keeps_tryGrant {s : State} {a0 : State} {a1} {a2} (h : Keeps s a0) : Keeps s (State.tryGrant a0 a1 a2) := by
  unfold State.tryGrant
  split
  · split
    · exact (Keeps.ite (keeps_finishGrant h) h)
    · exact h
  · exact h

theorem keeps_takeGrant {s : State} {a0 : State} {a1} (h : Keeps s a0) : Keeps s (State.takeGrant a0 a1) := by
  unfold State.takeGrant
  exact (keeps_tryGrant (Keeps.withArc h fun _ ha => ha))

theorem keeps_effData {s : State} {a0} {a1 : State} (h : Keeps s a1) : Keeps s (effData a0 a1) := by
  unfold effData
  exact (keeps_onArrival h (fun _ h1_0 => (keeps_takeGrant h1_0)))

theorem keeps_effGrant {s : State} {a0} {a1 : State} (h : Keeps s a1) : Keeps s (effGrant a0 a1) := by
  unfold effGrant
  exact (keeps_onArrival h (fun _ h1_0 => (keeps_takeGrant h1_0)))

theorem keeps_answered {s : State} {a0 : State} {a1} {a2} (h : Keeps s a0) : Keeps s (State.answered a0 a1 a2) := by
  unfold State.answered
  extract_lets +onlyGivenNames -merge -underBinder y1
  clear_value y1
  extract_lets +onlyGivenNames -merge -underBinder y2
  have h2 : Keeps s y2 := (Keeps.ite (keeps_mirrorThenAck (keeps_stackWrite h)) h)
  clear_value y2
  extract_lets +onlyGivenNames -merge -underBinder y3
  have h3 : Keeps s y3 := (Keeps.withArc h2 fun _ ha => ha)
  clear_value y3
  refine Keeps.ite ?_ ?_
  · exact h3
  · refine Keeps.ite ?_ ?_
    · extract_lets +onlyGivenNames -merge -underBinder y4
      have h4 : Keeps s y4 := (Keeps.withArc h3 fun _ ha => ha)
      clear_value y4
      extract_lets +onlyGivenNames -merge -underBinder y5
      have h5 : Keeps s y5 := (keeps_applySole h4)
      clear_value y5
      exact (keeps_drainLine h5)
    · exact (keeps_endTxn (keeps_setDir h3))

theorem keeps_takeAckInv {s : State} {a0 : State} {a1} (h : Keeps s a0) : Keeps s (State.takeAckInv a0 a1) := by
  unfold State.takeAckInv
  refine Keeps.ite ?_ ?_
  · split
    · exact (Keeps.ite (keeps_answered h) h)
    · exact h
  · exact (keeps_tryGrant (Keeps.withArc h fun _ ha => ha))

theorem keeps_effAckInv {s : State} {a0} {a1 : State} (h : Keeps s a1) : Keeps s (effAckInv a0 a1) := by
  unfold effAckInv
  exact (keeps_onArrival h (fun _ h1_0 => (keeps_takeAckInv h1_0)))

theorem keeps_dropOwner {s : State} {a0 : State} {a1} (h : Keeps s a0) : Keeps s (State.dropOwner a0 a1) := by
  unfold State.dropOwner
  split
  · exact (keeps_setDir h)
  · exact h

theorem keeps_serveMissed {s : State} {a0 : State} {a1} {a2} (h : Keeps s a0) : Keeps s (State.serveMissed a0 a1 a2) := by
  unfold State.serveMissed
  split
  · exact (keeps_endTxn (keeps_homeRead (keeps_dropOwner h)))
  · exact (keeps_endTxn (keeps_grantLine (keeps_setDir h)))
  · exact (keeps_endTxn (keeps_send (keeps_dropOwner h)))
  · exact (keeps_answered h)
  · exact (keeps_answered h)
  · exact h

theorem keeps_takeMiss {s : State} {a0 : State} {a1} (h : Keeps s a0) : Keeps s (State.takeMiss a0 a1) := by
  unfold State.takeMiss
  split
  · exact h
  · exact (keeps_serveMissed (keeps_sat h))

theorem keeps_effMiss {s : State} {a0} {a1 : State} (h : Keeps s a1) : Keeps s (effMiss a0 a1) := by
  unfold effMiss
  exact (keeps_onArrival h (fun _ h1_0 => (keeps_takeMiss h1_0)))

theorem keeps_poisonOwnedLine {s : State} {a0 : State} {a1} (h : Keeps s a0) : Keeps s (State.poisonOwnedLine a0 a1) := by
  unfold State.poisonOwnedLine
  extract_lets +onlyGivenNames -merge -underBinder y1
  clear_value y1
  extract_lets +onlyGivenNames -merge -underBinder y2
  have h2 : Keeps s y2 := (Keeps.foldl h fun _ _ h3 => (keeps_poisonSector h3))
  clear_value y2
  exact (keeps_report h2)

theorem keeps_effFwdAck {s : State} {a0} {a1 : State} (h : Keeps s a1) : Keeps s (effFwdAck a0 a1) := by
  unfold effFwdAck
  refine keeps_onArrival h (fun b3_0 h3_0 => ?_)
  refine Keeps.ite ?_ ?_
  · exact (keeps_modRun h3_0)
  · split
    · exact h3_0
    · extract_lets +onlyGivenNames -merge -underBinder y4
      clear_value y4
      split
      · extract_lets +onlyGivenNames -merge -underBinder y5
        clear_value y5
        exact (keeps_endTxn (keeps_setDir h3_0))
      · exact (keeps_endTxn (Keeps.ite (keeps_poisonOwnedLine (keeps_setDir h3_0)) (keeps_setDir h3_0)))
      · exact h3_0

theorem keeps_homeCleaned {s : State} {a0 : State} {a1} {a2} (h : Keeps s a0) : Keeps s (State.homeCleaned a0 a1 a2) := by
  unfold State.homeCleaned
  extract_lets +onlyGivenNames -merge -underBinder y1
  have h1 : Keeps s y1 := (keeps_stackWrite h)
  clear_value y1
  extract_lets +onlyGivenNames -merge -underBinder y2
  have h2 : Keeps s y2 := by
    unfold y2
    split
    · exact (keeps_setDir h1)
    · exact (keeps_setDir h1)
    · exact h1
  clear_value y2
  exact (keeps_endTxn (keeps_mirrorThenAck h2))

theorem keeps_effRclData {s : State} {a0} {a1 : State} (h : Keeps s a1) : Keeps s (effRclData a0 a1) := by
  unfold effRclData
  refine keeps_onArrival h (fun b3_0 h3_0 => ?_)
  split
  · exact h3_0
  · split
    · exact (keeps_homeCleaned h3_0)
    · exact (keeps_answered h3_0)
    · exact (keeps_answered h3_0)
    · exact h3_0

theorem keeps_effWbAck {s : State} {a0} {a1 : State} (h : Keeps s a1) : Keeps s (effWbAck a0 a1) := by
  unfold effWbAck
  refine keeps_onArrival h (fun b3_0 h3_0 => ?_)
  refine Keeps.ite ?_ ?_
  · exact (Keeps.withArc h3_0 fun _ ha => ha)
  · extract_lets +onlyGivenNames -merge -underBinder y4
    have h4 : Keeps s y4 := (keeps_modRun h3_0)
    clear_value y4
    split
    · extract_lets +onlyGivenNames -merge -underBinder y5
      clear_value y5
      exact (Keeps.ite (keeps_dropLine h4) (Keeps.withArc h4 fun _ ha => ha))
    · exact h4

theorem keeps_effCmtAck {s : State} {a0} {a1 : State} (h : Keeps s a1) : Keeps s (effCmtAck a0 a1) := by
  unfold effCmtAck
  refine keeps_onArrival h (fun b3_0 h3_0 => ?_)
  split
  · exact h3_0
  · refine Keeps.ite ?_ ?_
    · exact h3_0
    · extract_lets +onlyGivenNames -merge -underBinder y4
      clear_value y4
      extract_lets +onlyGivenNames -merge -underBinder y5
      clear_value y5
      exact (keeps_commitCheck (keeps_setRun h3_0))

theorem keeps_effMirAck {s : State} {a0} {a1 : State} (h : Keeps s a1) : Keeps s (effMirAck a0 a1) := by
  unfold effMirAck
  refine keeps_onArrival h (fun b3_0 h3_0 => ?_)
  split
  · exact (keeps_endTxn (keeps_homeAck h3_0))
  · exact h3_0

theorem keeps_effDirProbe {s : State} {a0} {a1} {a2 : State} (h : Keeps s a2) : Keeps s (effDirProbe a0 a1 a2) := by
  unfold effDirProbe
  extract_lets +onlyGivenNames -merge -underBinder y1
  clear_value y1
  extract_lets +onlyGivenNames -merge -underBinder y2
  have h2 : Keeps s y2 := (keeps_setReg h)
  clear_value y2
  split
  · exact (keeps_setReg (keeps_setReg h2))
  · exact (keeps_setReg (keeps_setReg h2))

theorem keeps_genOdd {s : State} {a0 : State} (h : Keeps s a0) : Keeps s (State.genOdd a0) := by
  unfold State.genOdd
  exact (keeps_setFld h)

theorem keeps_genEven {s : State} {a0 : State} (h : Keeps s a0) : Keeps s (State.genEven a0) := by
  unfold State.genEven
  exact (Keeps.ite h (keeps_setFld h))

theorem keeps_setRiser {s : State} {a0 : State} {a1} {a2} (h : Keeps s a0) : Keeps s (State.setRiser a0 a1 a2) := by
  unfold State.setRiser
  exact (keeps_setFld h)

theorem keeps_setCoreEntry {s : State} {a0 : State} {a1} {a2} {a3} (h : Keeps s a0) : Keeps s (State.setCoreEntry a0 a1 a2 a3) := by
  unfold State.setCoreEntry
  exact (keeps_setFld (keeps_setFld (keeps_setFld h)))

theorem keeps_partFatalize {s : State} {a0 : State} {a1} {a2} {a3} (h : Keeps s a0) : Keeps s (State.partFatalize a0 a1 a2 a3) := by
  unfold State.partFatalize
  refine Keeps.ite ?_ ?_
  · exact h
  · extract_lets +onlyGivenNames -merge -underBinder y1
    have h1 : Keeps s y1 := (keeps_setBit h)
    clear_value y1
    extract_lets +onlyGivenNames -merge -underBinder y2
    have h2 : Keeps s y2 := (keeps_setFld h1)
    clear_value y2
    extract_lets +onlyGivenNames -merge -underBinder y3
    have h3 : Keeps s y3.1 := (keeps_freeNum h2)
    clear_value y3
    extract_lets +onlyGivenNames -merge -underBinder y4
    clear_value y4
    extract_lets +onlyGivenNames -merge -underBinder y5
    have h5 : Keeps s y5 := (Keeps.ite h2 h3)
    clear_value y5
    extract_lets +onlyGivenNames -merge -underBinder y6
    have h6 : Keeps s y6 := (Keeps.foldl h5 fun _ _ h7 => (Keeps.ite (keeps_killQueue h7) h7))
    clear_value y6
    extract_lets +onlyGivenNames -merge -underBinder y8
    have h8 : Keeps s y8 := (Keeps.foldl h6 fun _ _ h9 => (keeps_killContext h9))
    clear_value y8
    exact (keeps_report h8)

theorem keeps_setPool {s : State} {a0 : State} {a1} {a2} (h : Keeps s a0) : Keeps s (State.setPool a0 a1 a2) := by
  unfold State.setPool
  extract_lets +onlyGivenNames -merge -underBinder y1
  clear_value y1
  refine Keeps.ite ?_ ?_
  · exact h
  · extract_lets +onlyGivenNames -merge -underBinder y2
    clear_value y2
    extract_lets +onlyGivenNames -merge -underBinder y3
    clear_value y3
    extract_lets +onlyGivenNames -merge -underBinder y4
    have h4 : Keeps s y4 := (keeps_setFld (keeps_setFld h))
    clear_value y4
    extract_lets +onlyGivenNames -merge -underBinder y5
    have h5 : Keeps s y5 := (keeps_setTe h4)
    clear_value y5
    exact (Keeps.withArc h5 fun _ ha => (Archive.wf_parts ha id id (twf_filter _ _ _)))

theorem keeps_leaveMaint {s : State} {a0 : State} {a1} (h : Keeps s a0) : Keeps s (State.leaveMaint a0 a1) := by
  unfold State.leaveMaint
  extract_lets +onlyGivenNames -merge -underBinder y1
  clear_value y1
  extract_lets +onlyGivenNames -merge -underBinder y2
  clear_value y2
  extract_lets +onlyGivenNames -merge -underBinder y3
  have h3 : Keeps s y3 := (keeps_setBit h)
  clear_value y3
  extract_lets +onlyGivenNames -merge -underBinder y4
  have h4 : Keeps s y4 := (keeps_setFld (keeps_setFld h3))
  clear_value y4
  extract_lets +onlyGivenNames -merge -underBinder y5
  have h5 : Keeps s y5 := (keeps_setTe h4)
  clear_value y5
  extract_lets +onlyGivenNames -merge -underBinder y6
  have h6 : Keeps s y6 := (Keeps.withArc h5 fun _ ha => (Archive.wf_parts ha id id (twf_filter _ _ _)))
  clear_value y6
  extract_lets +onlyGivenNames -merge -underBinder y7
  clear_value y7
  extract_lets +onlyGivenNames -merge -underBinder y8
  have h8 : Keeps s y8 := (keeps_setCoreX h6)
  clear_value y8
  exact (Keeps.foldl h8 fun _ _ h9 => (keeps_refreshQ h9))

theorem keeps_interruptQueue {s : State} {a0 : State} {a1} (h : Keeps s a0) : Keeps s (State.interruptQueue a0 a1).1 := by
  unfold State.interruptQueue
  extract_lets +onlyGivenNames -merge -underBinder y1
  clear_value y1
  exact (Keeps.iteFst (Keeps.pair (keeps_killContext h)) (Keeps.pair (Keeps.foldl h fun _ _ h2 => (Keeps.ite h2 (keeps_requeue (Keeps.ite h2 (keeps_killRun h2)))))))

theorem keeps_coreLostRecord {s : State} {a0 : State} {a1} {a2} (h : Keeps s a0) : Keeps s (State.coreLostRecord a0 a1 a2) := by
  unfold State.coreLostRecord
  extract_lets +onlyGivenNames -merge -underBinder y1
  clear_value y1
  extract_lets +onlyGivenNames -merge -underBinder y2
  clear_value y2
  exact (keeps_emitRecord h)

theorem keeps_loseQueue {s : State} {a0 : State} {a1} (h : Keeps s a0) : Keeps s (State.loseQueue a0 a1) := by
  unfold State.loseQueue
  extract_lets +onlyGivenNames -merge -underBinder y1
  have h1 : Keeps s y1 := (keeps_lowerLive h)
  clear_value y1
  extract_lets +onlyGivenNames -merge -underBinder y2
  have h2 : Keeps s y2 := by
    unfold y2
    refine Keeps.foldl ?_ fun y5 a5 h5 => ?_
    · exact h1
    · refine Keeps.ite ?_ ?_
      · exact h5
      · extract_lets +onlyGivenNames -merge -underBinder y6
        have h6 : Keeps s y6 := (keeps_ledgerEnd h5)
        clear_value y6
        extract_lets +onlyGivenNames -merge -underBinder y7
        have h7 : Keeps s y7 := (Keeps.ite h6 (keeps_dropRun h6))
        clear_value y7
        exact (keeps_dropCmd h7)
  clear_value y2
  extract_lets +onlyGivenNames -merge -underBinder y8
  clear_value y8
  extract_lets +onlyGivenNames -merge -underBinder y9
  have h9 : Keeps s y9 := (keeps_modQ h2)
  clear_value y9
  extract_lets +onlyGivenNames -merge -underBinder y10
  have h10 : Keeps s y10 := (keeps_lostDoorbells h9)
  clear_value y10
  exact (keeps_notify (keeps_setFld (keeps_setQState h10)))

theorem keeps_suspendQueue {s : State} {a0 : State} {a1} (h : Keeps s a0) : Keeps s (State.suspendQueue a0 a1) := by
  unfold State.suspendQueue
  extract_lets +onlyGivenNames -merge -underBinder y1
  clear_value y1
  refine Keeps.ite ?_ ?_
  · exact h
  · extract_lets +onlyGivenNames -merge -underBinder y2
    have h2 : Keeps s y2 := (Keeps.ite (keeps_modQ h) h)
    clear_value y2
    exact (keeps_setFld (keeps_setQState h2))

theorem keeps_resumeQueue {s : State} {a0 : State} {a1} (h : Keeps s a0) : Keeps s (State.resumeQueue a0 a1) := by
  unfold State.resumeQueue
  refine Keeps.ite ?_ ?_
  · exact h
  · extract_lets +onlyGivenNames -merge -underBinder y1
    clear_value y1
    extract_lets +onlyGivenNames -merge -underBinder y2
    have h2 : Keeps s y2 := (keeps_modQ h)
    clear_value y2
    split
    · exact (keeps_setFld (keeps_setQState h2))
    · exact (Keeps.ite (keeps_refreshQ (keeps_setFld h2)) (keeps_setFld (keeps_setQState h2)))

theorem keeps_interruptCore {s : State} {a0 : State} {a1} (h : Keeps s a0) : Keeps s (State.interruptCore a0 a1).1 := by
  unfold State.interruptCore
  refine Keeps.foldlFst ?_ fun y2 a2 h2 => ?_
  · exact h
  · extract_lets +onlyGivenNames -merge -underBinder y3
    have h3 : Keeps s y3 := h2
    clear_value y3
    extract_lets +onlyGivenNames -merge -underBinder y4
    clear_value y4
    extract_lets +onlyGivenNames -merge -underBinder y5
    have h5 : Keeps s y5.1 := (keeps_interruptQueue h3)
    clear_value y5
    exact h5

theorem keeps_gateOff {s : State} {a0 : State} {a1} (h : Keeps s a0) : Keeps s (State.gateOff a0 a1) := by
  unfold State.gateOff
  exact (Keeps.upd h)

theorem keeps_gateDie {s : State} {a0 : State} {a1} {a2} (h : Keeps s a0) : Keeps s (State.gateDie a0 a1 a2).1 := by
  unfold State.gateDie
  extract_lets +onlyGivenNames -merge -underBinder y1
  have h1 : Keeps s y1 := (keeps_gateOff h)
  clear_value y1
  extract_lets +onlyGivenNames -merge -underBinder y2
  have h2 : Keeps s y2 := (keeps_setBit h1)
  clear_value y2
  extract_lets +onlyGivenNames -merge -underBinder y3
  have h3 : Keeps s y3.1 := by
    unfold y3
    refine Keeps.foldlFst ?_ fun y6 a6 h6 => ?_
    · exact h2
    · extract_lets +onlyGivenNames -merge -underBinder y7
      have h7 : Keeps s y7.1 := (keeps_interruptCore h6)
      clear_value y7
      extract_lets +onlyGivenNames -merge -underBinder y8
      have h8 : Keeps s y8 := (Keeps.foldl h7 fun _ _ h9 => (keeps_setEng h9))
      clear_value y8
      exact h8
  clear_value y3
  exact h3

theorem keeps_loseCores {s : State} {a0 : State} {a1} {a2} (h : Keeps s a0) : Keeps s (State.loseCores a0 a1 a2) := by
  unfold State.loseCores
  extract_lets +onlyGivenNames -merge -underBinder y1
  have h1 : Keeps s y1 := (keeps_genOdd h)
  clear_value y1
  extract_lets +onlyGivenNames -merge -underBinder y2
  have h2 : Keeps s y2 := (Keeps.foldl h1 fun _ _ h3 => (keeps_setFld h3))
  clear_value y2
  extract_lets +onlyGivenNames -merge -underBinder y4
  have h4 : Keeps s y4 := (keeps_genEven h2)
  clear_value y4
  extract_lets +onlyGivenNames -merge -underBinder y5
  have h5 : Keeps s y5 := (Keeps.foldl h4 fun _ _ h6 => (keeps_coreLostRecord h6))
  clear_value y5
  exact (Keeps.foldl h5 fun _ _ h7 => (Keeps.foldl h7 fun _ _ h8 => (keeps_loseQueue h8)))

theorem keeps_reportLoss {s : State} {a0 : State} {a1} {a2} {a3} (h : Keeps s a0) : Keeps s (State.reportLoss a0 a1 a2 a3) := by
  unfold State.reportLoss
  exact (keeps_report h)

theorem keeps_dieGate {s : State} {a0 : State} {a1} {a2} {a3} (h : Keeps s a0) : Keeps s (State.dieGate a0 a1 a2 a3) := by
  unfold State.dieGate
  refine Keeps.ite ?_ ?_
  · exact h
  · extract_lets +onlyGivenNames -merge -underBinder y1
    have h1 : Keeps s y1.1 := (keeps_gateDie h)
    clear_value y1
    extract_lets +onlyGivenNames -merge -underBinder y2
    have h2 : Keeps s y2 := h1
    clear_value y2
    exact (Keeps.upd h2)

theorem keeps_dieSettle {s : State} {a0 : State} {a1} (h : Keeps s a0) : Keeps s (State.dieSettle a0 a1) := by
  unfold State.dieSettle
  refine Keeps.ite ?_ ?_
  · exact h
  · extract_lets +onlyGivenNames -merge -underBinder y1
    clear_value y1
    extract_lets +onlyGivenNames -merge -underBinder y2
    clear_value y2
    extract_lets +onlyGivenNames -merge -underBinder y3
    clear_value y3
    extract_lets +onlyGivenNames -merge -underBinder y4
    clear_value y4
    extract_lets +onlyGivenNames -merge -underBinder y5
    clear_value y5
    extract_lets +onlyGivenNames -merge -underBinder y6
    clear_value y6
    extract_lets +onlyGivenNames -merge -underBinder y7
    have h7 : Keeps s y7 := (Keeps.upd h)
    clear_value y7
    refine Keeps.ite ?_ ?_
    · extract_lets +onlyGivenNames -merge -underBinder y8
      clear_value y8
      extract_lets +onlyGivenNames -merge -underBinder y9
      have h9 : Keeps s y9 := (Keeps.upd h7)
      clear_value y9
      extract_lets +onlyGivenNames -merge -underBinder y10
      have h10 : Keeps s y10 := (keeps_genOdd h9)
      clear_value y10
      extract_lets +onlyGivenNames -merge -underBinder y11
      have h11 : Keeps s y11 := (keeps_setRiser h10)
      clear_value y11
      extract_lets +onlyGivenNames -merge -underBinder y12
      have h12 : Keeps s y12 := (Keeps.foldl h11 fun _ _ h13 => (keeps_setBit (keeps_setFld h13)))
      clear_value y12
      exact (Keeps.foldl h12 fun _ _ h14 => (keeps_suspendQueue (keeps_coreLostRecord h14)))
    · extract_lets +onlyGivenNames -merge -underBinder y15
      have h15 : Keeps s y15 := (keeps_reportLoss h7)
      clear_value y15
      extract_lets +onlyGivenNames -merge -underBinder y16
      have h16 : Keeps s y16 := (Keeps.ite (keeps_setRiser (keeps_genOdd h15)) h15)
      clear_value y16
      exact (keeps_loseCores h16)

theorem keeps_settleLosses {s : State} {a0 : State} (h : Keeps s a0) : Keeps s (State.settleLosses a0) := by
  unfold State.settleLosses
  exact (Keeps.foldl h fun _ _ h1 => (keeps_dieSettle h1))

theorem keeps_cdieLost {s : State} {a0 : State} {a1} {a2} {a3} (h : Keeps s a0) : Keeps s (State.cdieLost a0 a1 a2 a3) := by
  unfold State.cdieLost
  extract_lets +onlyGivenNames -merge -underBinder y1
  have h1 : Keeps s y1 := (keeps_dieGate h)
  clear_value y1
  exact (Keeps.ite h1 (keeps_settleLosses h1))

theorem keeps_endSubst {s : State} {a0 : State} {a1} {a2} {a3} (h : Keeps s a0) : Keeps s (State.endSubst a0 a1 a2 a3) := by
  unfold State.endSubst
  split
  · extract_lets +onlyGivenNames -merge -underBinder y1
    clear_value y1
    extract_lets +onlyGivenNames -merge -underBinder y2
    have h2 : Keeps s y2 := (Keeps.upd h)
    clear_value y2
    exact (keeps_reportLoss h2)
  · exact h

theorem keeps_finishMove {s : State} {a0 : State} {a1} (h : Keeps s a0) : Keeps s (State.finishMove a0 a1) := by
  unfold State.finishMove
  extract_lets +onlyGivenNames -merge -underBinder y1
  clear_value y1
  extract_lets +onlyGivenNames -merge -underBinder y2
  clear_value y2
  refine Keeps.ite ?_ ?_
  · exact h
  · extract_lets +onlyGivenNames -merge -underBinder y3
    clear_value y3
    extract_lets +onlyGivenNames -merge -underBinder y4
    clear_value y4
    extract_lets +onlyGivenNames -merge -underBinder y5
    have h5 : Keeps s y5 := (Keeps.upd h)
    clear_value y5
    extract_lets +onlyGivenNames -merge -underBinder y6
    have h6 : Keeps s y6 := (keeps_genOdd h5)
    clear_value y6
    extract_lets +onlyGivenNames -merge -underBinder y7
    have h7 : Keeps s y7 := by
      unfold y7
      refine Keeps.foldl ?_ fun y10 a10 h10 => ?_
      · exact h6
      · split
        · extract_lets +onlyGivenNames -merge -underBinder y11
          have h11 : Keeps s y11 := (keeps_setCoreEntry h10)
          clear_value y11
          extract_lets +onlyGivenNames -merge -underBinder y12
          have h12 : Keeps s y12 := (keeps_setFld h11)
          clear_value y12
          extract_lets +onlyGivenNames -merge -underBinder y13
          have h13 : Keeps s y13 := (keeps_bump h12)
          clear_value y13
          extract_lets +onlyGivenNames -merge -underBinder y14
          have h14 : Keeps s y14 := (keeps_setReg h13)
          clear_value y14
          extract_lets +onlyGivenNames -merge -underBinder y15
          clear_value y15
          extract_lets +onlyGivenNames -merge -underBinder y16
          have h16 : Keeps s y16 := (keeps_setCoreX h14)
          clear_value y16
          extract_lets +onlyGivenNames -merge -underBinder y17
          have h17 : Keeps s y17 := (keeps_setTe h16)
          clear_value y17
          extract_lets +onlyGivenNames -merge -underBinder y18
          have h18 : Keeps s y18 := (Keeps.foldl h17 fun _ _ h19 => (keeps_setReg h19))
          clear_value y18
          extract_lets +onlyGivenNames -merge -underBinder y20
          have h20 : Keeps s y20 := (keeps_setReg h18)
          clear_value y20
          extract_lets +onlyGivenNames -merge -underBinder y21
          have h21 : Keeps s y21 := (Keeps.withArc h20 fun _ ha => (Archive.wf_parts ha id id (twf_filter _ _ _)))
          clear_value y21
          exact (Keeps.ite (keeps_leaveMaint h21) h21)
    clear_value y7
    extract_lets +onlyGivenNames -merge -underBinder y22
    have h22 : Keeps s y22 := (keeps_genEven h7)
    clear_value y22
    extract_lets +onlyGivenNames -merge -underBinder y23
    have h23 : Keeps s y23 := (Keeps.foldl h22 fun _ _ h24 => (Keeps.foldl h24 fun _ _ h25 => (keeps_resumeQueue h25)))
    clear_value y23
    exact (keeps_endSubst h23)

theorem keeps_riserLost {s : State} {a0 : State} {a1} {a2} (h : Keeps s a0) : Keeps s (State.riserLost a0 a1 a2) := by
  unfold State.riserLost
  extract_lets +onlyGivenNames -merge -underBinder y1
  clear_value y1
  extract_lets +onlyGivenNames -merge -underBinder y2
  clear_value y2
  refine Keeps.ite ?_ ?_
  · extract_lets +onlyGivenNames -merge -underBinder y3
    have h3 : Keeps s y3 := (keeps_genOdd h)
    clear_value y3
    extract_lets +onlyGivenNames -merge -underBinder y4
    have h4 : Keeps s y4 := (keeps_setRiser h3)
    clear_value y4
    extract_lets +onlyGivenNames -merge -underBinder y5
    have h5 : Keeps s y5 := (Keeps.foldl h4 fun _ _ h6 => (keeps_setFld h6))
    clear_value y5
    extract_lets +onlyGivenNames -merge -underBinder y7
    have h7 : Keeps s y7 := (keeps_genEven h5)
    clear_value y7
    extract_lets +onlyGivenNames -merge -underBinder y8
    have h8 : Keeps s y8 := (keeps_gateOff h7)
    clear_value y8
    extract_lets +onlyGivenNames -merge -underBinder y9
    have h9 : Keeps s y9 := (Keeps.foldl h8 fun _ _ h10 => (Keeps.foldl h10 fun _ _ h11 => (keeps_loseQueue h11)))
    clear_value y9
    exact (keeps_endSubst h9)
  · exact (Keeps.ite (keeps_cdieLost h) h)

end Sys2Proof.Machine
end

