-- ==== Sys2Proof/Laws/KeepsStart.lean ====
section
/-!
SUPPORT. That each operation of these keeps what `Keeps` says (Laws/Keeps.lean), one lemma for each:
matrix work, the start of a command, doorbells, patterns and pinned commands.
-/

namespace Sys2Proof.Machine

theorem keeps_probeN_aux {s : State} : ∀ a0 a1 a2 a3 a4 a5, Keeps s a0 → Keeps s (State.probeN a0 a1 a2 a3 a4 a5).1
  | x0, x1, x2, 0, x3, x4, h => by
    rw [State.probeN]
    exact h
  | x0, x1, x2, (x5 + 1), x3, x4, h => by
    rw [State.probeN]
    refine Keeps.iteFst ?_ ?_
    · exact h
    · extract_lets +onlyGivenNames -merge -underBinder y1
      clear_value y1
      extract_lets +onlyGivenNames -merge -underBinder y2
      have h2 : Keeps s y2.1 := by
        unfold y2
        split
        · exact h
        · exact (Keeps.iteFst (Keeps.iteFst h (Keeps.pair (keeps_fetchOut h))) h)
      clear_value y2
      extract_lets +onlyGivenNames -merge -underBinder y3
      have h3 : Keeps s y3.1 := (keeps_probeN_aux _ _ _ _ _ _ h2)
      clear_value y3
      exact h3

theorem keeps_probeN {s : State} {a0 : State} {a1} {a2} {a3} {a4} {a5} (h : Keeps s a0) : Keeps s (State.probeN a0 a1 a2 a3 a4 a5).1 := keeps_probeN_aux a0 a1 a2 a3 a4 a5 h

theorem keeps_probe {s : State} {a0 : State} {a1} {a2} {a3} {a4} (h : Keeps s a0) : Keeps s (State.probe a0 a1 a2 a3 a4).1 := by
  unfold State.probe
  exact (keeps_probeN h)

theorem keeps_probeXfer {s : State} {a0 : State} {a1} {a2} {a3} (h : Keeps s a0) : Keeps s (State.probeXfer a0 a1 a2 a3).1 := by
  unfold State.probeXfer
  refine Keeps.iteFst ?_ ?_
  · exact h
  · refine Keeps.foldlFst ?_ fun y3 a3 h3 => ?_
    · exact h
    · extract_lets +onlyGivenNames -merge -underBinder y4
      have h4 : Keeps s y4.1 := (keeps_probe h3)
      clear_value y4
      exact h4

theorem keeps_checkSide {s : State} {a0 : State} {a1} {a2} {a3} {a4} {a5} {a6} (h : Keeps s a0) : Keeps s (State.checkSide a0 a1 a2 a3 a4 a5 a6).1 := by
  unfold State.checkSide
  refine Keeps.iteFst ?_ ?_
  · exact h
  · extract_lets +onlyGivenNames -merge -underBinder y1
    have h1 : Keeps s y1.1 := (keeps_checkVa h)
    clear_value y1
    exact h1

theorem keeps_walkRows_aux {s : State} : ∀ a0 a1 a2 a3 a4 a5, Keeps s a0 → Keeps s (State.walkRows a0 a1 a2 a3 a4 a5).1
  | x0, x1, x2, x3, 0, x4, h => by
    rw [State.walkRows]
    exact h
  | x0, x1, x2, x3, (x5 + 1), x4, h => by
    rw [State.walkRows]
    split
    · exact (Keeps.pair (Keeps.iteFst (keeps_checkSide h) h))
    · extract_lets +onlyGivenNames -merge -underBinder y1
      have h1 : Keeps s y1.1 := (Keeps.iteFst (keeps_checkSide (Keeps.iteFst (keeps_checkSide h) h)) (Keeps.iteFst (keeps_checkSide h) h))
      clear_value y1
      split
      · exact h1
      · exact (keeps_walkRows_aux _ _ _ _ _ _ h1)

theorem keeps_walkRows {s : State} {a0 : State} {a1} {a2} {a3} {a4} {a5} (h : Keeps s a0) : Keeps s (State.walkRows a0 a1 a2 a3 a4 a5).1 := keeps_walkRows_aux a0 a1 a2 a3 a4 a5 h

theorem keeps_xferWalk {s : State} {a0 : State} {a1} {a2} {a3} (h : Keeps s a0) : Keeps s (State.xferWalk a0 a1 a2 a3).1 := by
  unfold State.xferWalk
  exact (Keeps.iteFst h (keeps_walkRows h))

theorem keeps_readIdx {s : State} {a0 : State} {a1} {a2} (h : Keeps s a0) : Keeps s (State.readIdx a0 a1 a2).1 := by
  unfold State.readIdx
  refine Keeps.iteFst ?_ ?_
  · exact h
  · extract_lets +onlyGivenNames -merge -underBinder y1
    have h1 : Keeps s y1.1 := (keeps_checkSide h)
    clear_value y1
    split
    · exact h1
    · extract_lets +onlyGivenNames -merge -underBinder y2
      have h2 : Keeps s y2.1 := (keeps_probe h1)
      clear_value y2
      refine Keeps.iteFst ?_ ?_
      · exact h2
      · extract_lets +onlyGivenNames -merge -underBinder y3
        have h3 : Keeps s y3.1 := (keeps_readVa h2)
        clear_value y3
        exact h3

theorem keeps_readSide {s : State} {a0 : State} {a1} {a2} {a3} {a4} {a5} (h : Keeps s a0) : Keeps s (State.readSide a0 a1 a2 a3 a4 a5).1 := by
  unfold State.readSide
  exact (Keeps.iteFst h (keeps_readVa h))

theorem keeps_writeSide {s : State} {a0 : State} {a1} {a2} {a3} {a4} {a5} (h : Keeps s a0) : Keeps s (State.writeSide a0 a1 a2 a3 a4 a5).1 := by
  unfold State.writeSide
  exact (Keeps.iteFst (Keeps.pair (keeps_wrLs h)) (keeps_writeVa h))

theorem keeps_mixRow {s : State} {a0 : State} {a1} {a2} {a3} {a4} {a5} (h : Keeps s a0) : Keeps s (State.mixRow a0 a1 a2 a3 a4 a5).1 := by
  unfold State.mixRow
  extract_lets +onlyGivenNames -merge -underBinder y1
  clear_value y1
  refine Keeps.iteFst ?_ ?_
  · exact h
  · refine Keeps.foldlFst ?_ fun y4 a4 h4 => ?_
    · exact h
    · split
      · extract_lets +onlyGivenNames -merge -underBinder y5
        clear_value y5
        refine Keeps.iteFst ?_ ?_
        · extract_lets +onlyGivenNames -merge -underBinder y6
          have h6 : Keeps s y6.1 := (keeps_freeBit h4)
          clear_value y6
          exact h6
        · exact h4

theorem keeps_copyRow_aux {s : State} : ∀ a0 a1 a2 a3 a4 a5 a6 a7, Keeps s a0 → Keeps s (State.copyRow a0 a1 a2 a3 a4 a5 a6 a7).1
  | x0, x1, x2, x3, 0, x4, x5, x6, h => by
    rw [State.copyRow]
    exact h
  | x0, x1, x2, x3, (x7 + 1), x4, x5, x6, h => by
    rw [State.copyRow]
    refine Keeps.iteFst ?_ ?_
    · exact h
    · extract_lets +onlyGivenNames -merge -underBinder y1
      clear_value y1
      extract_lets +onlyGivenNames -merge -underBinder y2
      have h2 : Keeps s y2.1 := (keeps_readSide h)
      clear_value y2
      split
      · extract_lets +onlyGivenNames -merge -underBinder y3
        have h3 : Keeps s y3.1 := (keeps_mixRow h2)
        clear_value y3
        extract_lets +onlyGivenNames -merge -underBinder y4
        have h4 : Keeps s y4.1 := (keeps_writeSide h3)
        clear_value y4
        split
        · exact (keeps_copyRow_aux _ _ _ _ _ _ _ _ h4)
        · exact h4
      · exact h2
      · exact h2

theorem keeps_copyRow {s : State} {a0 : State} {a1} {a2} {a3} {a4} {a5} {a6} {a7} (h : Keeps s a0) : Keeps s (State.copyRow a0 a1 a2 a3 a4 a5 a6 a7).1 := keeps_copyRow_aux a0 a1 a2 a3 a4 a5 a6 a7 h

theorem keeps_copyRows_aux {s : State} : ∀ a0 a1 a2 a3 a4 a5 a6, Keeps s a0 → Keeps s (State.copyRows a0 a1 a2 a3 a4 a5 a6).1
  | x0, x1, x2, x3, 0, x4, x5, h => by
    rw [State.copyRows]
    exact h
  | x0, x1, x2, x3, (x6 + 1), x4, x5, h => by
    rw [State.copyRows]
    split
    · refine keeps_copyRows_aux _ _ _ _ _ _ _ ?_
      refine Keeps.iteFst ?_ ?_
      · extract_lets +onlyGivenNames -merge -underBinder y1
        clear_value y1
        extract_lets +onlyGivenNames -merge -underBinder y2
        clear_value y2
        extract_lets +onlyGivenNames -merge -underBinder y3
        have h3 : Keeps s y3.1 := (keeps_mixRow h)
        clear_value y3
        exact (keeps_writeSide h3)
      · exact (keeps_copyRow h)
    · refine Keeps.pair ?_
      refine Keeps.iteFst ?_ ?_
      · extract_lets +onlyGivenNames -merge -underBinder y4
        clear_value y4
        extract_lets +onlyGivenNames -merge -underBinder y5
        clear_value y5
        extract_lets +onlyGivenNames -merge -underBinder y6
        have h6 : Keeps s y6.1 := (keeps_mixRow h)
        clear_value y6
        exact (keeps_writeSide h6)
      · exact (keeps_copyRow h)

theorem keeps_copyRows {s : State} {a0 : State} {a1} {a2} {a3} {a4} {a5} {a6} (h : Keeps s a0) : Keeps s (State.copyRows a0 a1 a2 a3 a4 a5 a6).1 := keeps_copyRows_aux a0 a1 a2 a3 a4 a5 a6 h

theorem keeps_copyWork {s : State} {a0 : State} {a1} {a2} {a3} (h : Keeps s a0) : Keeps s (State.copyWork a0 a1 a2 a3).1 := by
  unfold State.copyWork
  exact (Keeps.iteFst h (keeps_copyRows h))

theorem keeps_tentXfer {s : State} {a0 : State} {a1} {a2} {a3} (h : Keeps s a0) : Keeps s (State.tentXfer a0 a1 a2 a3).1 := by
  unfold State.tentXfer
  refine Keeps.iteFst ?_ ?_
  · exact h
  · refine Keeps.foldlFst ?_ fun y3 a3 h3 => ?_
    · exact h
    · split
      · exact h3
      · extract_lets +onlyGivenNames -merge -underBinder y4
        have h4 : Keeps s y4.1 := (keeps_tentVa h3)
        clear_value y4
        exact h4

theorem keeps_prefetchN_aux {s : State} : ∀ a0 a1 a2 a3 a4 a5, Keeps s a0 → Keeps s (State.prefetchN a0 a1 a2 a3 a4 a5)
  | x0, x1, x2, 0, x3, x4, h => by
    rw [State.prefetchN]
    exact h
  | x0, x1, x2, (x5 + 1), x3, x4, h => by
    rw [State.prefetchN]
    refine Keeps.ite ?_ ?_
    · exact h
    · extract_lets +onlyGivenNames -merge -underBinder y1
      clear_value y1
      extract_lets +onlyGivenNames -merge -underBinder y2
      have h2 : Keeps s y2.1 := (keeps_xlat h)
      clear_value y2
      extract_lets +onlyGivenNames -merge -underBinder y3
      have h3 : Keeps s y3 := by
        unfold y3
        split
        · exact h2
        · exact (Keeps.ite (Keeps.ite h2 (keeps_fetchOut h2)) (Keeps.ite h2 (keeps_readTouch h2)))
      clear_value y3
      exact (keeps_prefetchN_aux _ _ _ _ _ _ h3)

theorem keeps_prefetchN {s : State} {a0 : State} {a1} {a2} {a3} {a4} {a5} (h : Keeps s a0) : Keeps s (State.prefetchN a0 a1 a2 a3 a4 a5) := keeps_prefetchN_aux a0 a1 a2 a3 a4 a5 h

theorem keeps_prefetchWork {s : State} {a0 : State} {a1} {a2} (h : Keeps s a0) : Keeps s (State.prefetchWork a0 a1 a2) := by
  unfold State.prefetchWork
  extract_lets +onlyGivenNames -merge -underBinder y1
  clear_value y1
  exact (Keeps.foldl h fun _ _ h2 => (keeps_prefetchN h2))

theorem keeps_wbLine {s : State} {a0 : State} {a1} {a2} {a3} (h : Keeps s a0) : Keeps s (State.wbLine a0 a1 a2 a3).1 := by
  unfold State.wbLine
  refine Keeps.foldlFst ?_ fun y2 a2 h2 => ?_
  · exact h
  · extract_lets +onlyGivenNames -merge -underBinder y3
    have h3 : Keeps s y3.1 := (keeps_wbSector h2)
    clear_value y3
    exact h3

theorem keeps_flushLine {s : State} {a0 : State} {a1} {a2} {a3} (h : Keeps s a0) : Keeps s (State.flushLine a0 a1 a2 a3) := by
  unfold State.flushLine
  extract_lets +onlyGivenNames -merge -underBinder y1
  clear_value y1
  refine Keeps.ite ?_ ?_
  · exact h
  · refine Keeps.ite ?_ ?_
    · refine Keeps.foldl ?_ fun y5 a5 h5 => ?_
      · exact h
      · extract_lets +onlyGivenNames -merge -underBinder y6
        have h6 : Keeps s y6.1 := (keeps_wbLine h5)
        clear_value y6
        exact (Keeps.ite h6 (keeps_modRun h6))
    · split
      · exact h
      · refine Keeps.ite ?_ ?_
        · exact h
        · refine Keeps.ite ?_ ?_
          · exact h
          · extract_lets +onlyGivenNames -merge -underBinder y7
            have h7 : Keeps s y7 := (keeps_modRun h)
            clear_value y7
            exact (keeps_send h7)

theorem keeps_flushN_aux {s : State} : ∀ a0 a1 a2 a3 a4 a5, Keeps s a0 → Keeps s (State.flushN a0 a1 a2 a3 a4 a5)
  | x0, x1, x2, 0, x3, x4, h => by
    rw [State.flushN]
    exact h
  | x0, x1, x2, (x5 + 1), x3, x4, h => by
    rw [State.flushN]
    refine Keeps.ite ?_ ?_
    · exact h
    · extract_lets +onlyGivenNames -merge -underBinder y1
      clear_value y1
      extract_lets +onlyGivenNames -merge -underBinder y2
      have h2 : Keeps s y2 := by
        unfold y2
        split
        · exact (keeps_flushLine h)
        · exact h
      clear_value y2
      exact (keeps_flushN_aux _ _ _ _ _ _ h2)

theorem keeps_flushN {s : State} {a0 : State} {a1} {a2} {a3} {a4} {a5} (h : Keeps s a0) : Keeps s (State.flushN a0 a1 a2 a3 a4 a5) := keeps_flushN_aux a0 a1 a2 a3 a4 a5 h

theorem keeps_dropOutLine {s : State} {a0 : State} {a1} (h : Keeps s a0) : Keeps s (State.dropOutLine a0 a1) := by
  unfold State.dropOutLine
  exact (Keeps.foldl h fun _ _ h1 => (Keeps.ite (keeps_dropLine h1) (Keeps.withArc h1 fun _ ha => ha)))

theorem keeps_dropOutN_aux {s : State} : ∀ a0 a1 a2 a3 a4, Keeps s a0 → Keeps s (State.dropOutN a0 a1 a2 a3 a4)
  | x0, x1, 0, x2, x3, h => by
    rw [State.dropOutN]
    exact h
  | x0, x1, (x4 + 1), x2, x3, h => by
    rw [State.dropOutN]
    refine Keeps.ite ?_ ?_
    · exact h
    · extract_lets +onlyGivenNames -merge -underBinder y1
      clear_value y1
      extract_lets +onlyGivenNames -merge -underBinder y2
      have h2 : Keeps s y2 := by
        unfold y2
        split
        · exact (Keeps.ite (keeps_dropOutLine h) h)
        · exact h
      clear_value y2
      exact (keeps_dropOutN_aux _ _ _ _ _ h2)

theorem keeps_dropOutN {s : State} {a0 : State} {a1} {a2} {a3} {a4} (h : Keeps s a0) : Keeps s (State.dropOutN a0 a1 a2 a3 a4) := keeps_dropOutN_aux a0 a1 a2 a3 a4 h

theorem keeps_amaxPages_aux {s : State} : ∀ a0 a1 a2 a3 a4 a5, Keeps s a0 → Keeps s (State.amaxPages a0 a1 a2 a3 a4 a5).1
  | x0, x1, 0, x2, x3, x4, h => by
    rw [State.amaxPages]
    exact h
  | x0, x1, (x5 + 1), x2, x3, x4, h => by
    rw [State.amaxPages]
    refine Keeps.iteFst ?_ ?_
    · exact h
    · extract_lets +onlyGivenNames -merge -underBinder y1
      have h1 : Keeps s y1.1 := (keeps_xlat h)
      clear_value y1
      split
      · exact (Keeps.iteFst h1 (keeps_amaxPages_aux _ _ _ _ _ _ h1))
      · extract_lets +onlyGivenNames -merge -underBinder y2
        clear_value y2
        exact (keeps_amaxPages_aux _ _ _ _ _ _ h1)

theorem keeps_amaxPages {s : State} {a0 : State} {a1} {a2} {a3} {a4} {a5} (h : Keeps s a0) : Keeps s (State.amaxPages a0 a1 a2 a3 a4 a5).1 := keeps_amaxPages_aux a0 a1 a2 a3 a4 a5 h

theorem keeps_matCheck {s : State} {a0 : State} {a1} {a2} (h : Keeps s a0) : Keeps s (State.matCheck a0 a1 a2).1 := by
  unfold State.matCheck
  refine Keeps.iteFst ?_ ?_
  · exact h
  · split
    · exact h
    · extract_lets +onlyGivenNames -merge -underBinder y1
      clear_value y1
      extract_lets +onlyGivenNames -merge -underBinder y2
      have h2 : Keeps s y2.1 := (keeps_amaxPages h)
      clear_value y2
      exact h2

theorem keeps_s {s : State} {a0} (h : Keeps s a0.s) : Keeps s (MOut.s a0) := by
  unfold MOut.s
  exact h

theorem keeps_putLs {s : State} {a0 : State} {a1} {a2} {a3} {a4} (h : Keeps s a0) : Keeps s (State.putLs a0 a1 a2 a3 a4) := by
  unfold State.putLs
  exact (keeps_wrLs h)

theorem keeps_matRow {s : State} {a0} {a1} {a2} {a3} {a4} {a5} {a6} {a7} {a8} (h : Keeps s a8.s) : Keeps s (matRow a0 a1 a2 a3 a4 a5 a6 a7 a8).s := by
  unfold matRow
  extract_lets +onlyGivenNames -merge -underBinder y1
  clear_value y1
  extract_lets +onlyGivenNames -merge -underBinder y2
  clear_value y2
  refine Keeps.iteS ?_ ?_
  · exact (show Keeps s _ from (Keeps.foldl h fun _ _ h5 => (keeps_putLs h5)))
  · refine Keeps.iteS ?_ ?_
    · refine Keeps.foldlS ?_ fun y8 a8 h8 => ?_
      · exact h
      · extract_lets +onlyGivenNames -merge -underBinder y9
        clear_value y9
        exact (show Keeps s _ from (keeps_putLs h8))
    · refine Keeps.foldlS ?_ fun y11 a11 h11 => ?_
      · exact h
      · extract_lets +onlyGivenNames -merge -underBinder y12
        clear_value y12
        extract_lets +onlyGivenNames -merge -underBinder y13
        clear_value y13
        extract_lets +onlyGivenNames -merge -underBinder y14
        have h14 : Keeps s y14 := (keeps_putLs h11)
        clear_value y14
        extract_lets +onlyGivenNames -merge -underBinder y15
        have h15 : Keeps s y15 := (keeps_putLs h14)
        clear_value y15
        extract_lets +onlyGivenNames -merge -underBinder y16
        have h16 : Keeps s y16 := (Keeps.ite h15 (keeps_putLs h15))
        clear_value y16
        exact h16

theorem keeps_matTileOut {s : State} {a0} {a1} {a2} {a3} {a4} {a5} {a6} {a7} {a8} (h : Keeps s a8.s) : Keeps s (matTileOut a0 a1 a2 a3 a4 a5 a6 a7 a8).s := by
  unfold matTileOut
  extract_lets +onlyGivenNames -merge -underBinder y1
  clear_value y1
  extract_lets +onlyGivenNames -merge -underBinder y2
  have h2 : Keeps s y2.s := (Keeps.foldlS h fun _ _ h3 => (keeps_matRow h3))
  clear_value y2
  exact (Keeps.iteS h2 (show Keeps s _ from (keeps_putLs h2)))

theorem keeps_amaxStore_aux {s : State} : ∀ a0 a1 a2 a3, Keeps s a0 → Keeps s (State.amaxStore a0 a1 a2 a3).1
  | x0, x1, x2, [], h => by
    rw [State.amaxStore]
    exact (Keeps.pair (keeps_modRun h))
  | x0, x1, x2, (x3, x4) :: x5, h => by
    rw [State.amaxStore]
    split
    · exact (Keeps.pair (keeps_xlat h))
    · extract_lets +onlyGivenNames -merge -underBinder y1
      have h1 : Keeps s y1.1 := (keeps_writeTent (keeps_xlat h))
      clear_value y1
      split
      · exact (keeps_amaxStore_aux _ _ _ _ h1)
      · exact h1
      · exact (Keeps.pair (keeps_modRun h1))

theorem keeps_amaxStore {s : State} {a0 : State} {a1} {a2} {a3} (h : Keeps s a0) : Keeps s (State.amaxStore a0 a1 a2 a3).1 := keeps_amaxStore_aux a0 a1 a2 a3 h

theorem keeps_matWork {s : State} {a0 : State} {a1} {a2} {a3} {a4} (h : Keeps s a0) : Keeps s (State.matWork a0 a1 a2 a3 a4).1 := by
  unfold State.matWork
  extract_lets +onlyGivenNames -merge -underBinder y1
  clear_value y1
  extract_lets +onlyGivenNames -merge -underBinder y2
  clear_value y2
  extract_lets +onlyGivenNames -merge -underBinder y3
  clear_value y3
  extract_lets +onlyGivenNames -merge -underBinder y4
  clear_value y4
  refine Keeps.iteFst ?_ ?_
  · exact (Keeps.pair (keeps_modRun h))
  · extract_lets +onlyGivenNames -merge -underBinder y5
    clear_value y5
    extract_lets +onlyGivenNames -merge -underBinder y6
    clear_value y6
    extract_lets +onlyGivenNames -merge -underBinder y7
    extract_lets +onlyGivenNames -merge -underBinder y8
    clear_value y8
    extract_lets +onlyGivenNames -merge -underBinder y9
    clear_value y9
    extract_lets +onlyGivenNames -merge -underBinder y10
    clear_value y10
    extract_lets +onlyGivenNames -merge -underBinder y11
    have h11 : Keeps s y11 := (keeps_setReg h)
    clear_value y11
    extract_lets +onlyGivenNames -merge -underBinder y12
    have h12 : Keeps s y12 := (Keeps.upd h11)
    clear_value y12
    extract_lets +onlyGivenNames -merge -underBinder y13
    clear_value y13
    extract_lets +onlyGivenNames -merge -underBinder y14
    clear_value y14
    extract_lets +onlyGivenNames -merge -underBinder y15
    clear_value y15
    extract_lets +onlyGivenNames -merge -underBinder y16
    have h16 : Keeps s y16.s := (Keeps.foldlS h12 fun _ _ h17 => (keeps_matTileOut h17))
    clear_value y16
    extract_lets +onlyGivenNames -merge -underBinder y18
    have h18 : Keeps s y18 := h16
    clear_value y18
    extract_lets +onlyGivenNames -merge -underBinder y19
    clear_value y19
    extract_lets +onlyGivenNames -merge -underBinder y20
    clear_value y20
    extract_lets +onlyGivenNames -merge -underBinder y21
    have h21 : Keeps s y21 := (keeps_modRun h18)
    clear_value y21
    refine Keeps.iteFst ?_ ?_
    · extract_lets +onlyGivenNames -merge -underBinder y22
      have h22 : Keeps s y22.1 := (keeps_xlat h21)
      clear_value y22
      split
      · exact (keeps_logOp h22)
      · exact h22
    · exact (Keeps.iteFst (keeps_amaxStore h21) h21)

theorem keeps_addFlash {s : State} {a0 : State} {a1} {a2} (h : Keeps s a0) : Keeps s (State.addFlash a0 a1 a2) := by
  unfold State.addFlash
  exact (keeps_sat (keeps_sat (keeps_sat (keeps_sat h))))

theorem keeps_collCheck {s : State} {a0 : State} {a1} {a2} (h : Keeps s a0) : Keeps s (State.collCheck a0 a1 a2).1 := by
  unfold State.collCheck
  refine Keeps.iteFst ?_ ?_
  · exact h
  · split
    · exact h
    · split
      · exact h
      · extract_lets +onlyGivenNames -merge -underBinder y1
        have h1 : Keeps s y1.1 := (keeps_xlat h)
        clear_value y1
        split
        · exact h1
        · refine Keeps.iteFst ?_ ?_
          · exact h1
          · extract_lets +onlyGivenNames -merge -underBinder y2
            have h2 : Keeps s y2.1 := (keeps_readVa h1)
            clear_value y2
            split
            · exact h2
            · exact h2
            · extract_lets +onlyGivenNames -merge -underBinder y3
              clear_value y3
              refine Keeps.iteFst ?_ ?_
              · refine Keeps.iteFst ?_ ?_
                · exact h2
                · extract_lets +onlyGivenNames -merge -underBinder y4
                  have h4 : Keeps s y4.1 := (keeps_checkVa h2)
                  clear_value y4
                  exact h4
              · exact h2

theorem keeps_putRec {s : State} {a0 : State} {a1} {a2} {a3} {a4} (h : Keeps s a0) : Keeps s (State.putRec a0 a1 a2 a3 a4) := by
  unfold State.putRec
  exact (keeps_homeMerge h)

theorem keeps_openRec {s : State} {a0 : State} {a1} {a2} {a3} {a4} (h : Keeps s a0) : Keeps s (State.openRec a0 a1 a2 a3 a4) := by
  unfold State.openRec
  extract_lets +onlyGivenNames -merge -underBinder y1
  clear_value y1
  extract_lets +onlyGivenNames -merge -underBinder y2
  have h2 : Keeps s y2 := (keeps_putRec h)
  clear_value y2
  extract_lets +onlyGivenNames -merge -underBinder y3
  have h3 : Keeps s y3 := (keeps_putRec h2)
  clear_value y3
  extract_lets +onlyGivenNames -merge -underBinder y4
  have h4 : Keeps s y4 := (keeps_putRec h3)
  clear_value y4
  extract_lets +onlyGivenNames -merge -underBinder y5
  have h5 : Keeps s y5 := (keeps_putRec h4)
  clear_value y5
  extract_lets +onlyGivenNames -merge -underBinder y6
  have h6 : Keeps s y6 := (keeps_putRec h5)
  clear_value y6
  extract_lets +onlyGivenNames -merge -underBinder y7
  have h7 : Keeps s y7 := (keeps_putRec h6)
  clear_value y7
  exact (keeps_putRec h7)

theorem keeps_endMembers {s : State} {a0 : State} {a1} {a2} {a3} (h : Keeps s a0) : Keeps s (State.endMembers a0 a1 a2 a3) := by
  unfold State.endMembers
  extract_lets +onlyGivenNames -merge -underBinder y1
  clear_value y1
  extract_lets +onlyGivenNames -merge -underBinder y2
  have h2 : Keeps s y2 := by
    unfold y2
    refine Keeps.foldl ?_ fun y5 a5 h5 => ?_
    · exact h
    · extract_lets +onlyGivenNames -merge -underBinder y6
      clear_value y6
      exact (keeps_leaveAt (keeps_dropRun (keeps_modRun h5)))
  clear_value y2
  exact (Keeps.foldl h2 fun _ _ h7 => (keeps_advance (keeps_afterStatus h7)))

theorem keeps_killMembers {s : State} {a0 : State} {a1} {a2} (h : Keeps s a0) : Keeps s (State.killMembers a0 a1 a2) := by
  unfold State.killMembers
  refine Keeps.foldl ?_ fun y2 a2 h2 => ?_
  · exact h
  · extract_lets +onlyGivenNames -merge -underBinder y3
    have h3 : Keeps s y3 := (keeps_modRun h2)
    clear_value y3
    exact (keeps_refreshQ (keeps_requeue (keeps_killRun h3)))

theorem keeps_coordKill {s : State} {a0 : State} {a1} {a2} {a3} (h : Keeps s a0) : Keeps s (State.coordKill a0 a1 a2 a3) := by
  unfold State.coordKill
  exact (Keeps.ite (keeps_killMembers (keeps_putRec h)) h)

theorem keeps_coordAbort {s : State} {a0 : State} {a1} {a2} {a3} (h : Keeps s a0) : Keeps s (State.coordAbort a0 a1 a2 a3) := by
  unfold State.coordAbort
  extract_lets +onlyGivenNames -merge -underBinder y1
  clear_value y1
  exact (Keeps.ite (Keeps.ite (keeps_endMembers (keeps_putRec h)) h) (Keeps.ite h (keeps_putRec (keeps_openRec h))))

theorem keeps_collStore {s : State} {a0 : State} {a1} {a2} {a3} {a4} (h : Keeps s a0) : Keeps s (State.collStore a0 a1 a2 a3 a4).1 := by
  unfold State.collStore
  extract_lets +onlyGivenNames -merge -underBinder y1
  have h1 : Keeps s y1.1 := (Keeps.iteFst h (keeps_writeVa h))
  clear_value y1
  split
  · exact (Keeps.pair (keeps_modRun h1))
  · exact h1
  · exact (Keeps.pair (keeps_modRun h1))

theorem keeps_exchange {s : State} {a0 : State} {a1} (h : Keeps s a0) : Keeps s (State.exchange a0 a1).1 := by
  unfold State.exchange
  extract_lets +onlyGivenNames -merge -underBinder y1
  clear_value y1
  extract_lets +onlyGivenNames -merge -underBinder y2
  clear_value y2
  refine Keeps.foldlFst ?_ fun y4 a4 h4 => ?_
  · exact h
  · extract_lets +onlyGivenNames -merge -underBinder y5
    clear_value y5
    extract_lets +onlyGivenNames -merge -underBinder y6
    clear_value y6
    extract_lets +onlyGivenNames -merge -underBinder y7
    have h7 : Keeps s y7 := (keeps_wrLs h4)
    clear_value y7
    extract_lets +onlyGivenNames -merge -underBinder y8
    have h8 : Keeps s y8.1 := (keeps_collStore h7)
    clear_value y8
    exact h8

theorem keeps_sendChunk {s : State} {a0 : State} {a1} {a2} {a3} {a4} {a5} (h : Keeps s a0) : Keeps s (State.sendChunk a0 a1 a2 a3 a4 a5) := by
  unfold State.sendChunk
  extract_lets +onlyGivenNames -merge -underBinder y1
  clear_value y1
  extract_lets +onlyGivenNames -merge -underBinder y2
  clear_value y2
  extract_lets +onlyGivenNames -merge -underBinder y3
  clear_value y3
  extract_lets +onlyGivenNames -merge -underBinder y4
  clear_value y4
  extract_lets +onlyGivenNames -merge -underBinder y5
  clear_value y5
  exact (Keeps.upd h)

theorem keeps_reduceBegin {s : State} {a0 : State} {a1} (h : Keeps s a0) : Keeps s (State.reduceBegin a0 a1) := by
  unfold State.reduceBegin
  extract_lets +onlyGivenNames -merge -underBinder y1
  have h1 : Keeps s y1 := (Keeps.foldl h fun _ _ h2 => (keeps_modRun h2))
  clear_value y1
  exact (Keeps.foldl h1 fun _ _ h3 => (Keeps.foldl h3 fun _ _ h4 => (Keeps.ite h4 (Keeps.foldl h4 fun _ _ h5 => (keeps_sendChunk h5)))))

theorem keeps_chunkDone {s : State} {a0 : State} {a1} {a2} {a3} {a4} {a5} {a6} (h : Keeps s a0) : Keeps s (State.chunkDone a0 a1 a2 a3 a4 a5 a6) := by
  unfold State.chunkDone
  extract_lets +onlyGivenNames -merge -underBinder y1
  clear_value y1
  extract_lets +onlyGivenNames -merge -underBinder y2
  have h2 : Keeps s y2 := (keeps_wrLs h)
  clear_value y2
  refine Keeps.ite ?_ ?_
  · exact h2
  · extract_lets +onlyGivenNames -merge -underBinder y3
    clear_value y3
    exact (Keeps.foldl h2 fun _ _ h4 => (keeps_sendChunk h4))

theorem keeps_collPacket {s : State} {a0 : State} {a1} {a2} (h : Keeps s a0) : Keeps s (State.collPacket a0 a1 a2) := by
  unfold State.collPacket
  split
  · exact h
  · split
    · exact h
    · extract_lets +onlyGivenNames -merge -underBinder y1
      clear_value y1
      extract_lets +onlyGivenNames -merge -underBinder y2
      clear_value y2
      extract_lets +onlyGivenNames -merge -underBinder y3
      clear_value y3
      extract_lets +onlyGivenNames -merge -underBinder y4
      clear_value y4
      refine Keeps.ite ?_ ?_
      · exact h
      · extract_lets +onlyGivenNames -merge -underBinder y5
        clear_value y5
        extract_lets +onlyGivenNames -merge -underBinder y6
        have h6 : Keeps s y6 := (keeps_modRun h)
        clear_value y6
        refine Keeps.ite ?_ ?_
        · exact h6
        · extract_lets +onlyGivenNames -merge -underBinder y7
          have h7 : Keeps s y7 := (keeps_chunkDone h6)
          clear_value y7
          extract_lets +onlyGivenNames -merge -underBinder y8
          clear_value y8
          refine Keeps.ite ?_ ?_
          · exact h7
          · extract_lets +onlyGivenNames -merge -underBinder y9
            have h9 : Keeps s y9.1 := (keeps_collStore h7)
            clear_value y9
            split
            · exact (keeps_fail h9)
            · exact h9

theorem keeps_slotPa {s : State} {a0 : State} {a1} {a2} {a3} (h : Keeps s a0) : Keeps s (State.slotPa a0 a1 a2 a3).1 := by
  unfold State.slotPa
  extract_lets +onlyGivenNames -merge -underBinder y1
  clear_value y1
  extract_lets +onlyGivenNames -merge -underBinder y2
  have h2 : Keeps s y2.1 := (keeps_xlat h)
  clear_value y2
  split
  · exact h2
  · exact (Keeps.iteFst h2 h2)

theorem keeps_slotRead {s : State} {a0 : State} {a1} {a2} (h : Keeps s a0) : Keeps s (State.slotRead a0 a1 a2).1 := by
  unfold State.slotRead
  extract_lets +onlyGivenNames -merge -underBinder y1
  have h1 : Keeps s y1.1 := (keeps_slotPa h)
  clear_value y1
  split
  · exact h1
  · extract_lets +onlyGivenNames -merge -underBinder y2
    have h2 : Keeps s y2.1 := (keeps_poisonRead h1)
    clear_value y2
    split
    · exact h2
    · exact h2

theorem keeps_gates {s : State} {a0 : State} {a1} {a2} (h : Keeps s a0) : Keeps s (State.gates a0 a1 a2).1 := by
  unfold State.gates
  refine Keeps.iteFst ?_ ?_
  · exact h
  · refine Keeps.iteFst ?_ ?_
    · exact h
    · extract_lets +onlyGivenNames -merge -underBinder y1
      clear_value y1
      extract_lets +onlyGivenNames -merge -underBinder y2
      clear_value y2
      refine Keeps.iteFst ?_ ?_
      · exact h
      · extract_lets +onlyGivenNames -merge -underBinder y3
        have h3 : Keeps s y3 := (Keeps.ite (keeps_modCmd (keeps_setBit h)) h)
        clear_value y3
        refine Keeps.iteFst ?_ ?_
        · extract_lets +onlyGivenNames -merge -underBinder y4
          have h4 : Keeps s y4.1 := (keeps_slotRead h3)
          clear_value y4
          split
          · exact h4
          · refine Keeps.iteFst ?_ ?_
            · exact (Keeps.pair (keeps_modCmd h4))
            · extract_lets +onlyGivenNames -merge -underBinder y5
              have h5 : Keeps s y5 := h4
              clear_value y5
              exact (Keeps.pair (Keeps.ite h5 (Keeps.upd h5)))
        · exact (Keeps.pair (keeps_modCmd h3))

theorem keeps_noteDeferral {s : State} {a0 : State} {a1} {a2} (h : Keeps s a0) : Keeps s (State.noteDeferral a0 a1 a2) := by
  unfold State.noteDeferral
  refine Keeps.ite ?_ ?_
  · exact h
  · extract_lets +onlyGivenNames -merge -underBinder y1
    have h1 : Keeps s y1 := (keeps_modCmd h)
    clear_value y1
    extract_lets +onlyGivenNames -merge -underBinder y2
    have h2 : Keeps s y2 := (keeps_sat h1)
    clear_value y2
    refine Keeps.ite ?_ ?_
    · exact h2
    · refine Keeps.ite ?_ ?_
      · exact (keeps_drop (keeps_setBit h2))
      · extract_lets +onlyGivenNames -merge -underBinder y3
        clear_value y3
        exact (keeps_emitRecord h2)

theorem keeps_startCmd {s : State} {a0 : State} {a1} {a2} {a3} {a4} (h : Keeps s a0) : Keeps s (State.startCmd a0 a1 a2 a3 a4) := by
  unfold State.startCmd
  extract_lets +onlyGivenNames -merge -underBinder y1
  clear_value y1
  extract_lets +onlyGivenNames -merge -underBinder y2
  clear_value y2
  extract_lets +onlyGivenNames -merge -underBinder y3
  have h3 : Keeps s y3 := (keeps_sat h)
  clear_value y3
  extract_lets +onlyGivenNames -merge -underBinder y4
  clear_value y4
  extract_lets +onlyGivenNames -merge -underBinder y5
  have h5 : Keeps s y5.1 := (keeps_newRun h3)
  clear_value y5
  extract_lets +onlyGivenNames -merge -underBinder y6
  have h6 : Keeps s y6 := (keeps_setBusy h5)
  clear_value y6
  extract_lets +onlyGivenNames -merge -underBinder y7
  have h7 : Keeps s y7 := (Keeps.ite h5 (Keeps.ite h6 (keeps_setFld (keeps_setFld h6))))
  clear_value y7
  exact (keeps_refreshQ (keeps_modCmd h7))

theorem keeps_effCommandReady {s : State} {a0} {a1 : State} (h : Keeps s a1) : Keeps s (effCommandReady a0 a1) := by
  unfold effCommandReady
  extract_lets +onlyGivenNames -merge -underBinder y1
  have h1 : Keeps s y1 := (keeps_headUpdate h)
  clear_value y1
  split
  · exact h
  · refine Keeps.ite ?_ ?_
    · exact h
    · refine Keeps.ite ?_ ?_
      · exact (keeps_setQState h1)
      · refine Keeps.ite ?_ ?_
        · exact (keeps_fail h1)
        · refine Keeps.ite ?_ ?_
          · exact (keeps_fail h1)
          · refine Keeps.ite ?_ ?_
            · exact (keeps_fail h1)
            · extract_lets +onlyGivenNames -merge -underBinder y2
              have h2 : Keeps s y2.1 := (keeps_gates h1)
              clear_value y2
              split
              · exact (Keeps.ite (keeps_fail h2) (keeps_setQState h1))
              · exact (keeps_refreshQ h2)
              · extract_lets +onlyGivenNames -merge -underBinder y3
                have h3 : Keeps s y3 := h2
                clear_value y3
                refine Keeps.ite ?_ ?_
                · exact (keeps_setQState h3)
                · split
                  · exact (keeps_refreshQ (keeps_noteDeferral h3))
                  · refine Keeps.ite ?_ ?_
                    · exact (keeps_refreshQ h3)
                    · refine Keeps.ite ?_ ?_
                      · exact (keeps_startCmd h3)
                      · extract_lets +onlyGivenNames -merge -underBinder y4
                        clear_value y4
                        extract_lets +onlyGivenNames -merge -underBinder y5
                        clear_value y5
                        refine Keeps.ite ?_ ?_
                        · split
                          · extract_lets +onlyGivenNames -merge -underBinder y6
                            have h6 : Keeps s y6 := (keeps_requeue (keeps_killRun h3))
                            clear_value y6
                            exact (keeps_refreshQ (keeps_sat h6))
                          · exact (keeps_refreshQ h3)
                        · exact (Keeps.ite (keeps_refreshQ h3) (Keeps.ite (keeps_refreshQ h3) (keeps_startCmd h3)))

theorem keeps_effWaitTimeout {s : State} {a0} {a1 : State} (h : Keeps s a1) : Keeps s (effWaitTimeout a0 a1) := by
  unfold effWaitTimeout
  split
  · exact (Keeps.ite (keeps_fail h) h)
  · exact h

theorem keeps_indirect_aux {s : State} : ∀ a0 a1 a2 a3 a4, Keeps s a0 → Keeps s (State.indirect a0 a1 a2 a3 a4).1
  | x0, x1, x2, [], x3, h => by
    rw [State.indirect]
    exact h
  | x0, x1, x2, ((x4, x5), x6) :: x7, x3, h => by
    rw [State.indirect]
    refine Keeps.iteFst ?_ ?_
    · exact (keeps_indirect_aux _ _ _ _ _ h)
    · extract_lets +onlyGivenNames -merge -underBinder y1
      clear_value y1
      extract_lets +onlyGivenNames -merge -underBinder y2
      clear_value y2
      refine Keeps.iteFst ?_ ?_
      · exact h
      · extract_lets +onlyGivenNames -merge -underBinder y3
        have h3 : Keeps s y3.1 := (keeps_slotRead h)
        clear_value y3
        split
        · exact h3
        · exact (Keeps.iteFst (keeps_indirect_aux _ _ _ _ _ h3) h3)

theorem keeps_indirect {s : State} {a0 : State} {a1} {a2} {a3} {a4} (h : Keeps s a0) : Keeps s (State.indirect a0 a1 a2 a3 a4).1 := keeps_indirect_aux a0 a1 a2 a3 a4 h

theorem keeps_opCheck {s : State} {a0 : State} {a1} {a2} {a3} (h : Keeps s a0) : Keeps s (State.opCheck a0 a1 a2 a3).1 := by
  unfold State.opCheck
  extract_lets +onlyGivenNames -merge -underBinder y1
  clear_value y1
  exact (Keeps.iteFst h (Keeps.iteFst h (Keeps.iteFst (keeps_matCheck h) (Keeps.iteFst h (Keeps.iteFst h (Keeps.iteFst (keeps_collCheck h) h))))))

theorem keeps_reserveFor {s : State} {a0 : State} {a1} {a2} {a3} (h : Keeps s a0) : Keeps s (State.reserveFor a0 a1 a2 a3) := by
  unfold State.reserveFor
  extract_lets +onlyGivenNames -merge -underBinder y1
  clear_value y1
  extract_lets +onlyGivenNames -merge -underBinder y2
  clear_value y2
  extract_lets +onlyGivenNames -merge -underBinder y3
  clear_value y3
  exact (Keeps.ite (keeps_fail h) (Keeps.ite (keeps_modCmd (keeps_modRun (keeps_reserve h))) (keeps_modCmd h)))

theorem keeps_effIndirectReadReturn {s : State} {a0} {a1 : State} (h : Keeps s a1) : Keeps s (effIndirectReadReturn a0 a1) := by
  unfold effIndirectReadReturn
  split
  · exact h
  · refine Keeps.ite ?_ ?_
    · exact h
    · extract_lets +onlyGivenNames -merge -underBinder y1
      have h1 : Keeps s y1.1 := (keeps_indirect h)
      clear_value y1
      split
      · exact (keeps_fail h1)
      · extract_lets +onlyGivenNames -merge -underBinder y2
        have h2 : Keeps s y2.1 := (keeps_slotPa h1)
        clear_value y2
        extract_lets +onlyGivenNames -merge -underBinder y3
        have h3 : Keeps s y3.1 := by
          unfold y3
          refine Keeps.iteFst ?_ ?_
          · split
            · exact (Keeps.iteFst h2 h2)
            · exact h2
          · exact h1
        clear_value y3
        split
        · exact (keeps_fail h3)
        · extract_lets +onlyGivenNames -merge -underBinder y4
          have h4 : Keeps s y4 := (keeps_modCmd h3)
          clear_value y4
          extract_lets +onlyGivenNames -merge -underBinder y5
          have h5 : Keeps s y5.1 := (keeps_opCheck h4)
          clear_value y5
          split
          · exact (keeps_fail h5)
          · extract_lets +onlyGivenNames -merge -underBinder y6
            have h6 : Keeps s y6 := h5
            clear_value y6
            exact (Keeps.ite (keeps_modCmd h6) (keeps_reserveFor h6))

theorem keeps_effReservationGranted {s : State} {a0} {a1 : State} (h : Keeps s a1) : Keeps s (effReservationGranted a0 a1) := by
  unfold effReservationGranted
  split
  · exact (Keeps.ite (keeps_reserveFor h) h)
  · exact h

theorem keeps_effNop {s : State} {a0} {a1 : State} (h : Keeps s a1) : Keeps s (effNop a0 a1) := by
  unfold effNop
  split
  · exact h
  · extract_lets +onlyGivenNames -merge -underBinder y1
    clear_value y1
    exact (keeps_advance (keeps_completeAt (keeps_sendEvents h)))

theorem keeps_beginWork {s : State} {a0 : State} {a1} {a2} (h : Keeps s a0) : Keeps s (State.beginWork a0 a1 a2) := by
  unfold State.beginWork
  extract_lets +onlyGivenNames -merge -underBinder y1
  clear_value y1
  extract_lets +onlyGivenNames -merge -underBinder y2
  clear_value y2
  extract_lets +onlyGivenNames -merge -underBinder y3
  have h3 : Keeps s y3 := (keeps_modRun h)
  clear_value y3
  extract_lets +onlyGivenNames -merge -underBinder y4
  have h4 : Keeps s y4 := (keeps_modCmd h3)
  clear_value y4
  exact (Keeps.ite (keeps_refreshQ h4) h4)

theorem keeps_afterWork {s : State} {a0 : State} {a1} {a2} {a3} {a4} (h : Keeps s a0) (hs1 : Keeps s a3.1) (hk2 : ∀ b0, Keeps s b0 → Keeps s (a4 b0)) : Keeps s (State.afterWork a0 a1 a2 a3 a4) := by
  unfold State.afterWork
  split
  · exact (hk2 _ hs1)
  · exact (keeps_fail hs1)
  · exact h

theorem keeps_holdDb {s : State} {a0 : State} {a1} (h : Keeps s a0) : Keeps s (State.holdDb a0 a1) := by
  unfold State.holdDb
  exact (Keeps.ite (keeps_modQ h) h)

theorem keeps_tailWrite {s : State} {a0 : State} {a1} {a2} (h : Keeps s a0) : Keeps s (State.tailWrite a0 a1 a2) := by
  unfold State.tailWrite
  extract_lets +onlyGivenNames -merge -underBinder y1
  clear_value y1
  extract_lets +onlyGivenNames -merge -underBinder y2
  clear_value y2
  extract_lets +onlyGivenNames -merge -underBinder y3
  clear_value y3
  exact (Keeps.ite (keeps_lostDoorbells h) (Keeps.ite (keeps_setFld h) (Keeps.ite (keeps_dbErr h) (keeps_refreshQ (keeps_holdDb (keeps_setFld h))))))

theorem keeps_sopPush {s : State} {a0 : State} {a1} {a2} (h : Keeps s a0) : Keeps s (State.sopPush a0 a1 a2) := by
  unfold State.sopPush
  extract_lets +onlyGivenNames -merge -underBinder y1
  clear_value y1
  extract_lets +onlyGivenNames -merge -underBinder y2
  clear_value y2
  refine Keeps.ite ?_ ?_
  · exact (keeps_lostDoorbells h)
  · refine Keeps.ite ?_ ?_
    · exact (keeps_dbErr h)
    · extract_lets +onlyGivenNames -merge -underBinder y3
      have h3 : Keeps s y3 := (keeps_modQ h)
      clear_value y3
      exact (keeps_refreshQ (keeps_holdDb (keeps_bump h3)))

theorem keeps_effQueSop15Doorbell {s : State} {a0} {a1} {a2 : State} (h : Keeps s a2) : Keeps s (effQueSop15Doorbell a0 a1 a2) := by
  unfold effQueSop15Doorbell
  extract_lets +onlyGivenNames -merge -underBinder y1
  have h1 : Keeps s y1 := (keeps_modQ h)
  clear_value y1
  exact (Keeps.ite (keeps_sopPush h1) h1)

theorem keeps_effBcastTail {s : State} {a0} {a1} {a2} {a3 : State} (h : Keeps s a3) : Keeps s (effBcastTail a0 a1 a2 a3) := by
  unfold effBcastTail
  extract_lets +onlyGivenNames -merge -underBinder y1
  have h1 : Keeps s y1 := (keeps_setFld h)
  clear_value y1
  exact (Keeps.foldl h1 fun _ _ h2 => (keeps_tailWrite h2))

theorem keeps_setGroupSop {s : State} {a0 : State} {a1} {a2} {a3} (h : Keeps s a0) : Keeps s (State.setGroupSop a0 a1 a2 a3) := by
  unfold State.setGroupSop
  exact (keeps_setPart h)

theorem keeps_effBcastSop15 {s : State} {a0} {a1} {a2} {a3 : State} (h : Keeps s a3) : Keeps s (effBcastSop15 a0 a1 a2 a3) := by
  unfold effBcastSop15
  extract_lets +onlyGivenNames -merge -underBinder y1
  clear_value y1
  extract_lets +onlyGivenNames -merge -underBinder y2
  have h2 : Keeps s y2 := (keeps_setGroupSop h)
  clear_value y2
  exact (Keeps.foldl h2 fun _ _ h3 => (keeps_sopPush h3))

theorem keeps_effQueCfgWrite {s : State} {a0} {a1} {a2 : State} (h : Keeps s a2) : Keeps s (effQueCfgWrite a0 a1 a2) := by
  unfold effQueCfgWrite
  extract_lets +onlyGivenNames -merge -underBinder y1
  clear_value y1
  extract_lets +onlyGivenNames -merge -underBinder y2
  clear_value y2
  extract_lets +onlyGivenNames -merge -underBinder y3
  have h3 : Keeps s y3 := (Keeps.ite h (keeps_setFld (keeps_setFld (keeps_setFld h))))
  clear_value y3
  extract_lets +onlyGivenNames -merge -underBinder y4
  have h4 : Keeps s y4 := (keeps_setFld h3)
  clear_value y4
  extract_lets +onlyGivenNames -merge -underBinder y5
  have h5 : Keeps s y5 := (Keeps.ite (keeps_setQState h4) h4)
  clear_value y5
  exact (keeps_refreshQ h5)

theorem keeps_effQueBcastWrite {s : State} {a0} {a1} {a2 : State} (h : Keeps s a2) : Keeps s (effQueBcastWrite a0 a1 a2) := by
  unfold effQueBcastWrite
  refine Keeps.ite ?_ ?_
  · exact h
  · extract_lets +onlyGivenNames -merge -underBinder y1
    clear_value y1
    extract_lets +onlyGivenNames -merge -underBinder y2
    clear_value y2
    exact (Keeps.ite (keeps_dbErr h) (keeps_setFld (keeps_setFld (keeps_setFld h))))

theorem keeps_effQueCrHeadWrite {s : State} {a0} {a1} {a2 : State} (h : Keeps s a2) : Keeps s (effQueCrHeadWrite a0 a1 a2) := by
  unfold effQueCrHeadWrite
  extract_lets +onlyGivenNames -merge -underBinder y1
  have h1 : Keeps s y1 := (keeps_setFld h)
  clear_value y1
  split
  · exact (keeps_refreshQ h1)
  · exact (Keeps.ite (keeps_setFld h1) h1)

theorem keeps_retryRecords {s : State} {a0 : State} {a1} (h : Keeps s a0) : Keeps s (State.retryRecords a0 a1) := by
  unfold State.retryRecords
  extract_lets +onlyGivenNames -merge -underBinder y1
  clear_value y1
  split
  · exact (keeps_setFld h)
  · extract_lets +onlyGivenNames -merge -underBinder y2
    clear_value y2
    extract_lets +onlyGivenNames -merge -underBinder y3
    have h3 : Keeps s y3 := (keeps_setFld (keeps_setRecX h))
    clear_value y3
    extract_lets +onlyGivenNames -merge -underBinder y4
    have h4 : Keeps s y4 := (keeps_emitRecord h3)
    clear_value y4
    refine Keeps.ite ?_ ?_
    · exact (keeps_showHeld (keeps_setRecX h4))
    · extract_lets +onlyGivenNames -merge -underBinder y5
      have h5 : Keeps s y5 := (Keeps.foldl h4 fun _ _ h6 => (keeps_emitRecord h6))
      clear_value y5
      split
      · exact (Keeps.ite h5 (keeps_setFld (keeps_setFld h5)))
      · exact h5

theorem keeps_resumeQ {s : State} {a0 : State} {a1} (h : Keeps s a0) : Keeps s (State.resumeQ a0 a1) := by
  unfold State.resumeQ
  exact (Keeps.ite (keeps_advance (keeps_setFld (keeps_setQState h))) (Keeps.ite (keeps_refreshQ (keeps_retryRecords h)) h))

theorem keeps_skipEntry {s : State} {a0 : State} {a1} (h : Keeps s a0) : Keeps s (State.skipEntry a0 a1) := by
  unfold State.skipEntry
  extract_lets +onlyGivenNames -merge -underBinder y1
  clear_value y1
  extract_lets +onlyGivenNames -merge -underBinder y2
  clear_value y2
  extract_lets +onlyGivenNames -merge -underBinder y3
  clear_value y3
  extract_lets +onlyGivenNames -merge -underBinder y4
  have h4 : Keeps s y4 := (Keeps.ite (keeps_lowerLive h) h)
  clear_value y4
  extract_lets +onlyGivenNames -merge -underBinder y5
  have h5 : Keeps s y5 := (keeps_modQ h4)
  clear_value y5
  exact (Keeps.ite (keeps_bump h5) h5)

theorem keeps_effQueResumeSkip {s : State} {a0} {a1 : State} (h : Keeps s a1) : Keeps s (effQueResumeSkip a0 a1) := by
  unfold effQueResumeSkip
  exact (Keeps.ite (keeps_resumeQ (keeps_skipEntry h)) (keeps_resumeQ h))

theorem keeps_effQueAbort {s : State} {a0} {a1} {a2} {a3 : State} (h : Keeps s a3) : Keeps s (effQueAbort a0 a1 a2 a3) := by
  unfold effQueAbort
  extract_lets +onlyGivenNames -merge -underBinder y1
  clear_value y1
  refine Keeps.ite ?_ ?_
  · exact (keeps_modQ h)
  · extract_lets +onlyGivenNames -merge -underBinder y2
    clear_value y2
    exact (Keeps.ite h (Keeps.ite (keeps_dbErr h) (keeps_modQ h)))

theorem keeps_abortAll {s : State} {a0 : State} {a1} (h : Keeps s a0) : Keeps s (State.abortAll a0 a1) := by
  unfold State.abortAll
  exact (keeps_modQ h)

theorem keeps_dropRoom {s : State} {a0 : State} {a1} (h : Keeps s a0) : Keeps s (State.dropRoom a0 a1) := by
  unfold State.dropRoom
  exact (keeps_modQ h)

theorem keeps_endPour {s : State} {a0 : State} {a1} (h : Keeps s a0) : Keeps s (State.endPour a0 a1) := by
  unfold State.endPour
  extract_lets +onlyGivenNames -merge -underBinder y1
  have h1 : Keeps s y1 := by
    unfold y1
    refine Keeps.foldl ?_ fun y4 a4 h4 => ?_
    · exact h
    · refine Keeps.ite ?_ ?_
      · extract_lets +onlyGivenNames -merge -underBinder y5
        have h5 : Keeps s y5 := (keeps_ledgerEnd h4)
        clear_value y5
        extract_lets +onlyGivenNames -merge -underBinder y6
        have h6 : Keeps s y6 := (keeps_dropCmd (Keeps.ite h5 (keeps_dropRun h5)))
        clear_value y6
        exact (Keeps.ite (keeps_dropRoom h6) h6)
      · exact h4
  clear_value y1
  exact (keeps_lowerLive h1)

theorem keeps_judgeOne {s : State} {a0 : State} {a1} {a2} (h : Keeps s a0) : Keeps s (State.judgeOne a0 a1 a2) := by
  unfold State.judgeOne
  extract_lets +onlyGivenNames -merge -underBinder y1
  clear_value y1
  refine Keeps.ite ?_ ?_
  · exact (Keeps.ite (keeps_fail h) (keeps_modCmd h))
  · refine Keeps.ite ?_ ?_
    · exact (keeps_modCmd h)
    · refine Keeps.ite ?_ ?_
      · split
        · refine Keeps.ite ?_ ?_
          · exact (keeps_coordAbort h)
          · extract_lets +onlyGivenNames -merge -underBinder y2
            have h2 : Keeps s y2.1 := (keeps_xlat h)
            clear_value y2
            split
            · exact (keeps_fail h2)
            · exact (keeps_fail (keeps_coordAbort h2))
        · exact (keeps_fail h)
      · exact (keeps_fail h)

theorem keeps_judgeAbort {s : State} {a0 : State} {a1} {a2} (h : Keeps s a0) : Keeps s (State.judgeAbort a0 a1 a2) := by
  unfold State.judgeAbort
  refine Keeps.ite ?_ ?_
  · extract_lets +onlyGivenNames -merge -underBinder y1
    have h1 : Keeps s y1 := (Keeps.foldl h fun _ _ h2 => (keeps_judgeOne h2))
    clear_value y1
    exact (keeps_fail (keeps_endPour h1))
  · exact (keeps_judgeOne h)

theorem keeps_effAbortReachesEngine {s : State} {a0} {a1 : State} (h : Keeps s a1) : Keeps s (effAbortReachesEngine a0 a1) := by
  unfold effAbortReachesEngine
  split
  · exact h
  · extract_lets +onlyGivenNames -merge -underBinder y1
    have h1 : Keeps s y1 := (keeps_modQ h)
    clear_value y1
    split
    · exact (keeps_judgeAbort h1)
    · exact h1

theorem keeps_fetchFault {s : State} {a0 : State} {a1} {a2} {a3} {a4} (h : Keeps s a0) : Keeps s (State.fetchFault a0 a1 a2 a3 a4) := by
  unfold State.fetchFault
  split
  · exact (keeps_fail h)
  · extract_lets +onlyGivenNames -merge -underBinder y1
    clear_value y1
    exact (keeps_fail (keeps_modQ h))

theorem keeps_effSubmissionEntryReturn {s : State} {a0} {a1 : State} (h : Keeps s a1) : Keeps s (effSubmissionEntryReturn a0 a1) := by
  unfold effSubmissionEntryReturn
  extract_lets +onlyGivenNames -merge -underBinder y1
  clear_value y1
  refine Keeps.ite ?_ ?_
  · exact h
  · extract_lets +onlyGivenNames -merge -underBinder y2
    clear_value y2
    extract_lets +onlyGivenNames -merge -underBinder y3
    have h3 : Keeps s y3.1 := (keeps_readVa h)
    clear_value y3
    split
    · exact h3
    · refine Keeps.ite ?_ ?_
      · extract_lets +onlyGivenNames -merge -underBinder y4
        have h4 : Keeps s y4 := (keeps_modQ h3)
        clear_value y4
        exact (keeps_refreshQ (keeps_bump h4))
      · exact (keeps_fetchFault h3)
    · extract_lets +onlyGivenNames -merge -underBinder y5
      clear_value y5
      extract_lets +onlyGivenNames -merge -underBinder y6
      have h6 : Keeps s y6 := (keeps_bump h3)
      clear_value y6
      refine Keeps.ite ?_ ?_
      · exact (keeps_fetchFault h6)
      · extract_lets +onlyGivenNames -merge -underBinder y7
        clear_value y7
        extract_lets +onlyGivenNames -merge -underBinder y8
        have h8 : Keeps s y8 := (keeps_modQ h6)
        clear_value y8
        exact (Keeps.ite (keeps_refreshQ (keeps_bump h8)) (keeps_refreshQ (keeps_modQ h8)))

theorem keeps_descRead {s : State} {a0 : State} {a1} {a2} (h : Keeps s a0) : Keeps s (State.descRead a0 a1 a2).1 := by
  unfold State.descRead
  extract_lets +onlyGivenNames -merge -underBinder y1
  have h1 : Keeps s y1.1 := (keeps_readVa h)
  clear_value y1
  exact h1

theorem keeps_readDescs_aux {s : State} : ∀ a0 a1 a2 a3 a4, Keeps s a0 → Keeps s (State.readDescs a0 a1 a2 a3 a4).1
  | x0, x1, 0, x2, x3, h => by
    rw [State.readDescs]
    exact h
  | x0, x1, (x4 + 1), x2, x3, h => by
    rw [State.readDescs]
    split
    · exact (keeps_readDescs_aux _ _ _ _ _ (keeps_descRead h))
    · exact (Keeps.iteFst (keeps_readDescs_aux _ _ _ _ _ (keeps_descRead h)) (Keeps.pair (keeps_descRead h)))
    · exact (Keeps.pair (keeps_descRead h))

theorem keeps_readDescs {s : State} {a0 : State} {a1} {a2} {a3} {a4} (h : Keeps s a0) : Keeps s (State.readDescs a0 a1 a2 a3 a4).1 := keeps_readDescs_aux a0 a1 a2 a3 a4 h

theorem keeps_effDescriptorBlockReturn {s : State} {a0} {a1 : State} (h : Keeps s a1) : Keeps s (effDescriptorBlockReturn a0 a1) := by
  unfold effDescriptorBlockReturn
  refine Keeps.ite ?_ ?_
  · exact h
  · split
    · exact h
    · extract_lets +onlyGivenNames -merge -underBinder y1
      clear_value y1
      extract_lets +onlyGivenNames -merge -underBinder y2
      have h2 : Keeps s y2.1 := (keeps_readDescs h)
      clear_value y2
      split
      · exact h2
      · exact (keeps_fetchFault h2)
      · extract_lets +onlyGivenNames -merge -underBinder y3
        have h3 : Keeps s y3 := (keeps_modQ h2)
        clear_value y3
        exact (keeps_refreshQ h3)

theorem keeps_effEventRecord {s : State} {a0} {a1 : State} (h : Keeps s a1) : Keeps s (effEventRecord a0 a1) := by
  unfold effEventRecord
  extract_lets +onlyGivenNames -merge -underBinder y1
  clear_value y1
  extract_lets +onlyGivenNames -merge -underBinder y2
  have h2 : Keeps s y2 := (Keeps.upd h)
  clear_value y2
  extract_lets +onlyGivenNames -merge -underBinder y3
  clear_value y3
  exact (keeps_homeMsg h2)

theorem keeps_effEventWake {s : State} {a0} {a1 : State} (h : Keeps s a1) : Keeps s (effEventWake a0 a1) := by
  unfold effEventWake
  refine Keeps.ite ?_ ?_
  · exact h
  · extract_lets +onlyGivenNames -merge -underBinder y1
    clear_value y1
    extract_lets +onlyGivenNames -merge -underBinder y2
    have h2 : Keeps s y2 := (Keeps.upd h)
    clear_value y2
    split
    · refine Keeps.ite ?_ ?_
      · extract_lets +onlyGivenNames -merge -underBinder y3
        have h3 : Keeps s y3.1 := (keeps_gates h2)
        clear_value y3
        split
        · exact (keeps_fail h3)
        · exact (keeps_refreshQ h3)
      · exact h2
    · exact h2

theorem keeps_effArmDelivery {s : State} {a0} {a1} {a2 : State} (h : Keeps s a2) : Keeps s (effArmDelivery a0 a1 a2) := by
  unfold effArmDelivery
  refine Keeps.ite ?_ ?_
  · exact h
  · extract_lets +onlyGivenNames -merge -underBinder y1
    clear_value y1
    extract_lets +onlyGivenNames -merge -underBinder y2
    have h2 : Keeps s y2 := (Keeps.upd h)
    clear_value y2
    exact (Keeps.ite (keeps_drop h2) (keeps_setBit h2))

theorem keeps_takeRoom {s : State} {a0 : State} {a1} {a2} (h : Keeps s a0) : Keeps s (State.takeRoom a0 a1 a2) := by
  unfold State.takeRoom
  exact (Keeps.ite h (Keeps.foldl h fun _ _ h1 => (Keeps.ite h1 (Keeps.ite (keeps_modQ h1) h1))))

theorem keeps_effSpawn {s : State} {a0} {a1 : State} (h : Keeps s a1) : Keeps s (effSpawn a0 a1) := by
  unfold effSpawn
  split
  · exact h
  · exact (keeps_takeRoom (keeps_modCmd h))

theorem keeps_spawnEntryFault {s : State} {a0 : State} {a1} {a2} (h : Keeps s a0) : Keeps s (State.spawnEntryFault a0 a1 a2).1 := by
  unfold State.spawnEntryFault
  refine Keeps.foldlFst ?_ fun y2 a2 h2 => ?_
  · exact h
  · refine Keeps.iteFst ?_ ?_
    · exact h2
    · extract_lets +onlyGivenNames -merge -underBinder y3
      have h3 : Keeps s y3.1 := (keeps_checkVa h2)
      clear_value y3
      exact h3

theorem keeps_spawnPost {s : State} {a0 : State} {a1} {a2} {a3} {a4} (h : Keeps s a0) : Keeps s (State.spawnPost a0 a1 a2 a3 a4) := by
  unfold State.spawnPost
  refine Keeps.ite ?_ ?_
  · exact (keeps_drop h)
  · refine Keeps.ite ?_ ?_
    · exact (Keeps.foldl h fun _ _ h3 => (keeps_sopPush h3))
    · extract_lets +onlyGivenNames -merge -underBinder y4
      clear_value y4
      extract_lets +onlyGivenNames -merge -underBinder y5
      have h5 : Keeps s y5.1 := (keeps_writeVa h)
      clear_value y5
      exact (keeps_tailWrite h5)

theorem keeps_effSpawnRoomGranted {s : State} {a0} {a1 : State} (h : Keeps s a1) : Keeps s (effSpawnRoomGranted a0 a1) := by
  unfold effSpawnRoomGranted
  split
  · exact h
  · refine Keeps.ite ?_ ?_
    · exact h
    · extract_lets +onlyGivenNames -merge -underBinder y1
      clear_value y1
      extract_lets +onlyGivenNames -merge -underBinder y2
      have h2 : Keeps s y2 := (keeps_takeRoom h)
      clear_value y2
      refine Keeps.ite ?_ ?_
      · exact h2
      · extract_lets +onlyGivenNames -merge -underBinder y3
        clear_value y3
        extract_lets +onlyGivenNames -merge -underBinder y4
        have h4 : Keeps s y4.1 := (keeps_spawnEntryFault h2)
        clear_value y4
        split
        · exact (keeps_fail h4)
        · extract_lets +onlyGivenNames -merge -underBinder y5
          have h5 : Keeps s y5.1 := (Keeps.iteFst (keeps_readDescs h4) h4)
          clear_value y5
          split
          · exact h5
          · exact (keeps_fail h5)
          · refine Keeps.ite ?_ ?_
            · exact (keeps_fail h5)
            · extract_lets +onlyGivenNames -merge -underBinder y6
              have h6 : Keeps s y6 := (keeps_dropRoom h5)
              clear_value y6
              extract_lets +onlyGivenNames -merge -underBinder y7
              have h7 : Keeps s y7 := (Keeps.foldl h6 fun _ _ h8 => (keeps_spawnPost h8))
              clear_value y7
              extract_lets +onlyGivenNames -merge -underBinder y9
              clear_value y9
              exact (keeps_advance (keeps_completeAt (keeps_sendEvents h7)))

theorem keeps_effSpawnRoomTimeout {s : State} {a0} {a1 : State} (h : Keeps s a1) : Keeps s (effSpawnRoomTimeout a0 a1) := by
  unfold effSpawnRoomTimeout
  split
  · exact (Keeps.ite (keeps_fail h) h)
  · exact h

theorem keeps_effNotifyHoldoffExpiry {s : State} {a0} {a1 : State} (h : Keeps s a1) : Keeps s (effNotifyHoldoffExpiry a0 a1) := by
  unfold effNotifyHoldoffExpiry
  extract_lets +onlyGivenNames -merge -underBinder y1
  clear_value y1
  refine Keeps.ite ?_ ?_
  · exact h
  · extract_lets +onlyGivenNames -merge -underBinder y2
    have h2 : Keeps s y2 := (keeps_setRecX h)
    clear_value y2
    exact (Keeps.ite (keeps_sendNotify h2) h2)

theorem keeps_patWord {s : State} {a0 : State} {a1} {a2} (h : Keeps s a0) : Keeps s (State.patWord a0 a1 a2).1 := by
  unfold State.patWord
  extract_lets +onlyGivenNames -merge -underBinder y1
  clear_value y1
  extract_lets +onlyGivenNames -merge -underBinder y2
  have h2 : Keeps s y2.1 := (keeps_xlat h)
  clear_value y2
  split
  · exact h2
  · refine Keeps.iteFst ?_ ?_
    · exact h2
    · extract_lets +onlyGivenNames -merge -underBinder y3
      have h3 : Keeps s y3.1 := (keeps_poisonRead h2)
      clear_value y3
      split
      · exact h3
      · exact h3

theorem keeps_tearPour {s : State} {a0 : State} {a1} (h : Keeps s a0) : Keeps s (State.tearPour a0 a1) := by
  unfold State.tearPour
  split
  · exact h
  · extract_lets +onlyGivenNames -merge -underBinder y1
    clear_value y1
    exact (keeps_fail (keeps_endPour h))

theorem keeps_failPour {s : State} {a0 : State} {a1} {a2} (h : Keeps s a0) : Keeps s (State.failPour a0 a1 a2) := by
  unfold State.failPour
  split
  · exact h
  · exact (keeps_fail (keeps_endPour h))

theorem keeps_pourHeader {s : State} {a0 : State} {a1} {a2} (h : Keeps s a0) : Keeps s (State.pourHeader a0 a1 a2) := by
  unfold State.pourHeader
  extract_lets +onlyGivenNames -merge -underBinder y1
  have h1 : Keeps s y1.1 := (keeps_readVa h)
  clear_value y1
  split
  · exact h1
  · exact (keeps_failPour h1)
  · extract_lets +onlyGivenNames -merge -underBinder y2
    clear_value y2
    refine Keeps.ite ?_ ?_
    · exact (keeps_tearPour h1)
    · extract_lets +onlyGivenNames -merge -underBinder y3
      clear_value y3
      extract_lets +onlyGivenNames -merge -underBinder y4
      have h4 : Keeps s y4.1 := (keeps_readVa h1)
      clear_value y4
      split
      · exact h4
      · exact (keeps_failPour h4)
      · extract_lets +onlyGivenNames -merge -underBinder y5
        clear_value y5
        extract_lets +onlyGivenNames -merge -underBinder y6
        clear_value y6
        extract_lets +onlyGivenNames -merge -underBinder y7
        clear_value y7
        exact (Keeps.ite (keeps_tearPour h4) (keeps_modQ h4))

theorem keeps_effCallPattern {s : State} {a0} {a1 : State} (h : Keeps s a1) : Keeps s (effCallPattern a0 a1) := by
  unfold effCallPattern
  split
  · exact h
  · extract_lets +onlyGivenNames -merge -underBinder y1
    clear_value y1
    extract_lets +onlyGivenNames -merge -underBinder y2
    have h2 : Keeps s y2.1 := (keeps_patWord h)
    clear_value y2
    split
    · exact (keeps_fail h2)
    · refine Keeps.ite ?_ ?_
      · exact (keeps_modQ h2)
      · extract_lets +onlyGivenNames -merge -underBinder y3
        have h3 : Keeps s y3 := (keeps_writePa h2)
        clear_value y3
        extract_lets +onlyGivenNames -merge -underBinder y4
        have h4 : Keeps s y4 := (keeps_modCmd h3)
        clear_value y4
        extract_lets +onlyGivenNames -merge -underBinder y5
        have h5 : Keeps s y5 := (keeps_modQ h4)
        clear_value y5
        exact (keeps_pourHeader h5)

theorem keeps_effPourBlockReturn {s : State} {a0} {a1 : State} (h : Keeps s a1) : Keeps s (effPourBlockReturn a0 a1) := by
  unfold effPourBlockReturn
  split
  · refine Keeps.ite ?_ ?_
    · exact h
    · refine Keeps.ite ?_ ?_
      · exact (keeps_pourHeader h)
      · refine Keeps.ite ?_ ?_
        · exact h
        · extract_lets +onlyGivenNames -merge -underBinder y1
          have h1 : Keeps s y1.1 := (keeps_readVa h)
          clear_value y1
          split
          · exact h1
          · exact (keeps_failPour h1)
          · extract_lets +onlyGivenNames -merge -underBinder y2
            clear_value y2
            extract_lets +onlyGivenNames -merge -underBinder y3
            have h3 : Keeps s y3.1 := (keeps_readVa h1)
            clear_value y3
            split
            · exact h3
            · exact (keeps_failPour h3)
            · refine Keeps.ite ?_ ?_
              · exact (keeps_tearPour h3)
              · extract_lets +onlyGivenNames -merge -underBinder y4
                clear_value y4
                exact (keeps_refreshQ (keeps_modQ h3))
  · exact h

theorem keeps_effPourLockTimeout {s : State} {a0} {a1 : State} (h : Keeps s a1) : Keeps s (effPourLockTimeout a0 a1) := by
  unfold effPourLockTimeout
  split
  · exact (Keeps.ite (keeps_fail (keeps_modQ h)) h)
  · exact h

theorem keeps_patUnlock {s : State} {a0 : State} {a1} {a2} (h : Keeps s a0) : Keeps s (State.patUnlock a0 a1 a2) := by
  unfold State.patUnlock
  extract_lets +onlyGivenNames -merge -underBinder y1
  have h1 : Keeps s y1.1 := (keeps_patWord h)
  clear_value y1
  split
  · exact h1
  · exact (keeps_writePa h1)

theorem keeps_failPatch {s : State} {a0 : State} {a1} {a2} {a3} (h : Keeps s a0) : Keeps s (State.failPatch a0 a1 a2 a3) := by
  unfold State.failPatch
  exact (keeps_fail (keeps_patUnlock h))

theorem keeps_patTable {s : State} {a0 : State} {a1} {a2} {a3} {a4} {a5} {a6} {a7} (h : Keeps s a0) : Keeps s (State.patTable a0 a1 a2 a3 a4 a5 a6 a7).1 := by
  unfold State.patTable
  refine Keeps.foldlFst ?_ fun y2 a2 h2 => ?_
  · exact h
  · extract_lets +onlyGivenNames -merge -underBinder y3
    clear_value y3
    refine Keeps.iteFst ?_ ?_
    · extract_lets +onlyGivenNames -merge -underBinder y4
      have h4 : Keeps s y4.1 := (keeps_readVa h2)
      clear_value y4
      split
      · exact h4
      · exact h4
    · exact h2

theorem keeps_patchWrites {s : State} {a0 : State} {a1} {a2} (h : Keeps s a0) : Keeps s (State.patchWrites a0 a1 a2) := by
  unfold State.patchWrites
  extract_lets +onlyGivenNames -merge -underBinder y1
  clear_value y1
  extract_lets +onlyGivenNames -merge -underBinder y2
  clear_value y2
  extract_lets +onlyGivenNames -merge -underBinder y3
  clear_value y3
  extract_lets +onlyGivenNames -merge -underBinder y4
  have h4 : Keeps s y4.1 := (keeps_readVa h)
  clear_value y4
  split
  · exact h4
  · exact (keeps_failPatch h4)
  · extract_lets +onlyGivenNames -merge -underBinder y5
    clear_value y5
    extract_lets +onlyGivenNames -merge -underBinder y6
    clear_value y6
    refine Keeps.ite ?_ ?_
    · exact (keeps_failPatch h4)
    · extract_lets +onlyGivenNames -merge -underBinder y7
      have h7 : Keeps s y7.1 := (keeps_readVa h4)
      clear_value y7
      split
      · exact h7
      · exact (keeps_failPatch h7)
      · extract_lets +onlyGivenNames -merge -underBinder y8
        have h8 : Keeps s y8.1 := (keeps_checkVa h7)
        clear_value y8
        split
        · exact (keeps_failPatch h8)
        · extract_lets +onlyGivenNames -merge -underBinder y9
          have h9 : Keeps s y9.1 := (keeps_checkVa h8)
          clear_value y9
          split
          · exact (keeps_failPatch h9)
          · extract_lets +onlyGivenNames -merge -underBinder y10
            have h10 : Keeps s y10 := (keeps_writeVa h9)
            clear_value y10
            extract_lets +onlyGivenNames -merge -underBinder y11
            have h11 : Keeps s y11.1 := (keeps_patTable h10)
            clear_value y11
            extract_lets +onlyGivenNames -merge -underBinder y12
            clear_value y12
            extract_lets +onlyGivenNames -merge -underBinder y13
            clear_value y13
            extract_lets +onlyGivenNames -merge -underBinder y14
            have h14 : Keeps s y14 := (keeps_writeVa h11)
            clear_value y14
            extract_lets +onlyGivenNames -merge -underBinder y15
            have h15 : Keeps s y15 := (keeps_writeVa h14)
            clear_value y15
            exact (keeps_modRun h15)

theorem keeps_effPatch {s : State} {a0} {a1 : State} (h : Keeps s a1) : Keeps s (effPatch a0 a1) := by
  unfold effPatch
  split
  · exact h
  · extract_lets +onlyGivenNames -merge -underBinder y1
    have h1 : Keeps s y1.1 := (keeps_patWord h)
    clear_value y1
    split
    · exact (keeps_fail h1)
    · refine Keeps.ite ?_ ?_
      · exact h1
      · extract_lets +onlyGivenNames -merge -underBinder y2
        have h2 : Keeps s y2 := (keeps_writePa h1)
        clear_value y2
        extract_lets +onlyGivenNames -merge -underBinder y3
        have h3 : Keeps s y3 := (keeps_beginWork h2)
        clear_value y3
        exact (Keeps.ite (keeps_patchWrites h3) h3)

theorem keeps_effPatchLiveDrained {s : State} {a0} {a1 : State} (h : Keeps s a1) : Keeps s (effPatchLiveDrained a0 a1) := by
  unfold effPatchLiveDrained
  split
  · exact h
  · extract_lets +onlyGivenNames -merge -underBinder y1
    have h1 : Keeps s y1.1 := (keeps_patWord h)
    clear_value y1
    split
    · exact (keeps_fail h1)
    · exact (Keeps.ite (keeps_patchWrites h1) h1)

theorem keeps_effPatchWaitTimeout {s : State} {a0} {a1 : State} (h : Keeps s a1) : Keeps s (effPatchWaitTimeout a0 a1) := by
  unfold effPatchWaitTimeout
  split
  · extract_lets +onlyGivenNames -merge -underBinder y1
    have h1 : Keeps s y1.1 := (keeps_patWord h)
    clear_value y1
    split
    · exact (Keeps.ite h1 (keeps_failPatch h1))
    · exact (keeps_fail h1)
  · split
    · exact h
    · extract_lets +onlyGivenNames -merge -underBinder y2
      have h2 : Keeps s y2.1 := (keeps_patWord h)
      clear_value y2
      split
      · exact (Keeps.ite (keeps_fail h2) h2)
      · exact (keeps_fail h2)

theorem keeps_countMoved {s : State} {a0 : State} {a1} {a2} (h : Keeps s a0) : Keeps s (State.countMoved a0 a1 a2) := by
  unfold State.countMoved
  exact (Keeps.ite h (keeps_coarse h))

theorem keeps_effPinnedWritesDone {s : State} {a0} {a1 : State} (h : Keeps s a1) : Keeps s (effPinnedWritesDone a0 a1) := by
  unfold effPinnedWritesDone
  extract_lets +onlyGivenNames -merge -underBinder y1
  clear_value y1
  split
  · exact h
  · split
    · exact h
    · extract_lets +onlyGivenNames -merge -underBinder y2
      have h2 : Keeps s y2 := (Keeps.ite (keeps_patUnlock h) (keeps_countMoved h))
      clear_value y2
      extract_lets +onlyGivenNames -merge -underBinder y3
      clear_value y3
      exact (keeps_advance (keeps_completeAt (keeps_sendEvents h2)))

end Sys2Proof.Machine
end

