-- ==== Sys2Proof/Laws/KeepsExec.lean ====
section
/-!
SUPPORT. That each operation of these keeps what `Keeps` says (Laws/Keeps.lean), one lemma for each:
gangs and matrix work, the thread engine and the Folio instructions.
-/

namespace Sys2Proof.Machine

theorem keeps_matEnd {s : State} {a0 : State} {a1} {a2} {a3} (h : Keeps s a0) (hs1 : Keeps s a3.1) : Keeps s (State.matEnd a0 a1 a2 a3) := by
  unfold State.matEnd
  exact (keeps_afterWork h hs1 (fun _ h1_0 => (keeps_modRun h1_0)))

theorem keeps_matRun {s : State} {a0 : State} {a1} {a2} (h : Keeps s a0) : Keeps s (State.matRun a0 a1 a2) := by
  unfold State.matRun
  split
  · exact h
  · exact (keeps_matEnd h (keeps_matWork h))

theorem keeps_matAgain {s : State} {a0 : State} {a1} (h : Keeps s a0) : Keeps s (State.matAgain a0 a1) := by
  unfold State.matAgain
  split
  · exact h
  · split
    · exact h
    · exact (Keeps.ite (keeps_matEnd h (keeps_amaxStore h)) h)

theorem keeps_runGang {s : State} {a0 : State} {a1} {a2} (h : Keeps s a0) : Keeps s (State.runGang a0 a1 a2) := by
  unfold State.runGang
  split
  · exact h
  · extract_lets +onlyGivenNames -merge -underBinder y1
    have h1 : Keeps s y1 := (Keeps.upd h)
    clear_value y1
    refine Keeps.foldl ?_ fun y3 a3 h3 => ?_
    · exact h1
    · split
      · exact (Keeps.ite (keeps_matRun h3) h3)
      · exact h3

theorem keeps_effMatmul {s : State} {a0} {a1 : State} (h : Keeps s a1) : Keeps s (effMatmul a0 a1) := by
  unfold effMatmul
  split
  · exact (keeps_matAgain h)
  · split
    · exact h
    · extract_lets +onlyGivenNames -merge -underBinder y1
      clear_value y1
      extract_lets +onlyGivenNames -merge -underBinder y2
      have h2 : Keeps s y2 := (keeps_beginWork h)
      clear_value y2
      refine Keeps.ite ?_ ?_
      · exact (keeps_matRun h2)
      · split
        · extract_lets +onlyGivenNames -merge -underBinder y3
          clear_value y3
          exact (keeps_setFld (Keeps.upd h2))
        · refine Keeps.ite ?_ ?_
          · extract_lets +onlyGivenNames -merge -underBinder y4
            have h4 : Keeps s y4 := (Keeps.upd h2)
            clear_value y4
            extract_lets +onlyGivenNames -merge -underBinder y5
            have h5 : Keeps s y5 := (keeps_setFld h4)
            clear_value y5
            exact (Keeps.ite (keeps_runGang h5) h5)
          · exact (keeps_matRun h2)

theorem keeps_effGangWindowClose {s : State} {a0} {a1} {a2 : State} (h : Keeps s a2) : Keeps s (effGangWindowClose a0 a1 a2) := by
  unfold effGangWindowClose
  exact (keeps_runGang h)

theorem keeps_effMatrixDetection {s : State} {a0} {a1} {a2} {a3 : State} (h : Keeps s a3) : Keeps s (effMatrixDetection a0 a1 a2 a3) := by
  unfold effMatrixDetection
  split
  · exact h
  · refine Keeps.ite ?_ ?_
    · exact h
    · extract_lets +onlyGivenNames -merge -underBinder y1
      have h1 : Keeps s y1 := (keeps_sat h)
      clear_value y1
      extract_lets +onlyGivenNames -merge -underBinder y2
      clear_value y2
      extract_lets +onlyGivenNames -merge -underBinder y3
      have h3 : Keeps s y3 := (keeps_report h1)
      clear_value y3
      extract_lets +onlyGivenNames -merge -underBinder y4
      have h4 : Keeps s y4 := (keeps_requeue (keeps_killRun h3))
      clear_value y4
      refine Keeps.ite ?_ ?_
      · exact (keeps_cdieLost h4)
      · refine Keeps.ite ?_ ?_
        · exact (keeps_refreshQ (keeps_modCmd h4))
        · extract_lets +onlyGivenNames -merge -underBinder y5
          have h5 : Keeps s y5 := (keeps_sat h4)
          clear_value y5
          exact (keeps_refreshQ (keeps_modCmd h5))

theorem keeps_effLsParityError {s : State} {a0} {a1} {a2} {a3 : State} (h : Keeps s a3) : Keeps s (effLsParityError a0 a1 a2 a3) := by
  unfold effLsParityError
  split
  · exact h
  · refine Keeps.ite ?_ ?_
    · exact h
    · extract_lets +onlyGivenNames -merge -underBinder y1
      clear_value y1
      extract_lets +onlyGivenNames -merge -underBinder y2
      have h2 : Keeps s y2 := (keeps_report h)
      clear_value y2
      exact (keeps_fail h2)

theorem keeps_effEngineStopped {s : State} {a0} {a1} {a2 : State} (h : Keeps s a2) : Keeps s (effEngineStopped a0 a1 a2) := by
  unfold effEngineStopped
  exact (Keeps.ite (Keeps.foldl (keeps_setEng h) fun _ _ h1 => (keeps_refreshQ h1)) h)

theorem keeps_effMexClrFlash {s : State} {a0} {a1} {a2 : State} (h : Keeps s a2) : Keeps s (effMexClrFlash a0 a1 a2) := by
  unfold effMexClrFlash
  exact (Keeps.foldl h fun _ _ h1 => (keeps_setReg h1))

theorem keeps_effMexClrDet {s : State} {a0} {a1} {a2 : State} (h : Keeps s a2) : Keeps s (effMexClrDet a0 a1 a2) := by
  unfold effMexClrDet
  exact (keeps_setReg h)

theorem keeps_effMexClrPerf {s : State} {a0} {a1} {a2 : State} (h : Keeps s a2) : Keeps s (effMexClrPerf a0 a1 a2) := by
  unfold effMexClrPerf
  exact (keeps_setReg (keeps_setReg h))

theorem keeps_effRunCommitPoint {s : State} {a0} {a1 : State} (h : Keeps s a1) : Keeps s (effRunCommitPoint a0 a1) := by
  unfold effRunCommitPoint
  split
  · exact h
  · split
    · exact h
    · refine Keeps.ite ?_ ?_
      · exact h
      · extract_lets +onlyGivenNames -merge -underBinder y1
        have h1 : Keeps s y1 := (Keeps.ite (keeps_dropOutN h) h)
        clear_value y1
        extract_lets +onlyGivenNames -merge -underBinder y2
        clear_value y2
        extract_lets +onlyGivenNames -merge -underBinder y3
        have h3 : Keeps s y3 := (Keeps.ite (keeps_addFlash h1) h1)
        clear_value y3
        extract_lets +onlyGivenNames -merge -underBinder y4
        have h4 : Keeps s y4 := (Keeps.ite (keeps_setFld h3) h3)
        clear_value y4
        exact (keeps_commitRun (keeps_countMoved h4))

theorem keeps_effDiscardComplete {s : State} {a0} {a1 : State} (h : Keeps s a1) : Keeps s (effDiscardComplete a0 a1) := by
  unfold effDiscardComplete
  split
  · exact (Keeps.ite (keeps_endRun h) h)
  · exact h

theorem keeps_effTentativeSetWaitExpiry {s : State} {a0} {a1 : State} (h : Keeps s a1) : Keeps s (effTentativeSetWaitExpiry a0 a1) := by
  unfold effTentativeSetWaitExpiry
  split
  · exact h
  · exact (Keeps.ite (keeps_refreshQ (keeps_sat (keeps_requeue (keeps_killRun h)))) h)

theorem keeps_effTentativeParityError {s : State} {a0} {a1} {a2} {a3 : State} (h : Keeps s a3) : Keeps s (effTentativeParityError a0 a1 a2 a3) := by
  unfold effTentativeParityError
  split
  · extract_lets +onlyGivenNames -merge -underBinder y1
    clear_value y1
    refine Keeps.ite ?_ ?_
    · exact h
    · refine Keeps.ite ?_ ?_
      · extract_lets +onlyGivenNames -merge -underBinder y2
        have h2 : Keeps s y2 := (keeps_qReport h)
        clear_value y2
        exact (keeps_refreshQ (keeps_requeue (keeps_killRun h2)))
      · refine Keeps.ite ?_ ?_
        · extract_lets +onlyGivenNames -merge -underBinder y3
          clear_value y3
          exact (Keeps.ite h (keeps_modRun (Keeps.upd h)))
        · exact h
  · exact h

theorem keeps_effCalendarWindowBoundary {s : State} {a0} {a1 : State} (h : Keeps s a1) : Keeps s (effCalendarWindowBoundary a0 a1) := by
  unfold effCalendarWindowBoundary
  extract_lets +onlyGivenNames -merge -underBinder y1
  clear_value y1
  extract_lets +onlyGivenNames -merge -underBinder y2
  clear_value y2
  refine Keeps.ite ?_ ?_
  · exact h
  · extract_lets +onlyGivenNames -merge -underBinder y3
    clear_value y3
    extract_lets +onlyGivenNames -merge -underBinder y4
    have h4 : Keeps s y4 := (Keeps.ite (keeps_setCoreX (keeps_sat h)) h)
    clear_value y4
    extract_lets +onlyGivenNames -merge -underBinder y5
    have h5 : Keeps s y5 := (Keeps.ite (keeps_leaveMaint h4) h4)
    clear_value y5
    extract_lets +onlyGivenNames -merge -underBinder y6
    clear_value y6
    extract_lets +onlyGivenNames -merge -underBinder y7
    have h7 : Keeps s y7 := (Keeps.ite (keeps_bump (keeps_setFld h5)) (keeps_setFld h5))
    clear_value y7
    extract_lets +onlyGivenNames -merge -underBinder y8
    clear_value y8
    extract_lets +onlyGivenNames -merge -underBinder y9
    clear_value y9
    extract_lets +onlyGivenNames -merge -underBinder y10
    clear_value y10
    extract_lets +onlyGivenNames -merge -underBinder y11
    have h11 : Keeps s y11 := (Keeps.foldl h7 fun _ _ h12 => (keeps_refreshQ (keeps_sat (keeps_requeue (keeps_killRun h12)))))
    clear_value y11
    extract_lets +onlyGivenNames -merge -underBinder y13
    have h13 : Keeps s y13 := (Keeps.ite h11 (keeps_sat h11))
    clear_value y13
    extract_lets +onlyGivenNames -merge -underBinder y14
    clear_value y14
    extract_lets +onlyGivenNames -merge -underBinder y15
    have h15 : Keeps s y15 := (Keeps.ite (keeps_setCoreX h13) h13)
    clear_value y15
    exact (Keeps.foldl h15 fun _ _ h16 => (keeps_refreshQ h16))

theorem keeps_beginTest {s : State} {a0 : State} {a1} (h : Keeps s a0) : Keeps s (State.beginTest a0 a1) := by
  unfold State.beginTest
  refine Keeps.ite ?_ ?_
  · extract_lets +onlyGivenNames -merge -underBinder y1
    have h1 : Keeps s y1.1 := (keeps_freeNum (keeps_setBit (keeps_setBit h)))
    clear_value y1
    exact (keeps_setPool h1)
  · exact h

theorem keeps_effMaintBegin {s : State} {a0} {a1 : State} (h : Keeps s a1) : Keeps s (effMaintBegin a0 a1) := by
  unfold effMaintBegin
  exact (Keeps.ite (keeps_beginTest (keeps_setBit (keeps_setCoreX h))) h)

theorem keeps_watched {s : State} {a0 : State} {a1} (h : Keeps s a0) : Keeps s (State.watched a0 a1).1 := by
  unfold State.watched
  split
  · refine Keeps.iteFst ?_ ?_
    · exact h
    · extract_lets +onlyGivenNames -merge -underBinder y1
      have h1 : Keeps s y1.1 := (keeps_freeBit h)
      clear_value y1
      exact h1
  · exact h
  · exact h

theorem keeps_effCommandWatchdog {s : State} {a0} {a1 : State} (h : Keeps s a1) : Keeps s (effCommandWatchdog a0 a1) := by
  unfold effCommandWatchdog
  extract_lets +onlyGivenNames -merge -underBinder y1
  have h1 : Keeps s y1.1 := (keeps_watched h)
  clear_value y1
  extract_lets +onlyGivenNames -merge -underBinder y2
  have h2 : Keeps s y2 := h1
  clear_value y2
  split
  · exact h2
  · split
    · exact h2
    · refine Keeps.ite ?_ ?_
      · exact h2
      · refine Keeps.ite ?_ ?_
        · refine Keeps.ite ?_ ?_
          · extract_lets +onlyGivenNames -merge -underBinder y3
            have h3 : Keeps s y3 := (keeps_qReport h2)
            clear_value y3
            exact (keeps_endMembers (keeps_putRec h3))
          · exact h2
        · exact (keeps_judgeAbort (keeps_qReport h2))

theorem keeps_collStart {s : State} {a0 : State} {a1} {a2} (h : Keeps s a0) : Keeps s (State.collStart a0 a1 a2) := by
  unfold State.collStart
  split
  · exact h
  · extract_lets +onlyGivenNames -merge -underBinder y1
    have h1 : Keeps s y1.1 := (keeps_xlat h)
    clear_value y1
    split
    · exact (keeps_fail h1)
    · exact (keeps_modRun (keeps_beginWork h1))

theorem keeps_effAllreduce {s : State} {a0} {a1 : State} (h : Keeps s a1) : Keeps s (effAllreduce a0 a1) := by
  unfold effAllreduce
  exact (keeps_collStart h)

theorem keeps_effReduceScatter {s : State} {a0} {a1 : State} (h : Keeps s a1) : Keeps s (effReduceScatter a0 a1) := by
  unfold effReduceScatter
  exact (keeps_collStart h)

theorem keeps_effAllgather {s : State} {a0} {a1 : State} (h : Keeps s a1) : Keeps s (effAllgather a0 a1) := by
  unfold effAllgather
  exact (keeps_collStart h)

theorem keeps_effAlltoall {s : State} {a0} {a1 : State} (h : Keeps s a1) : Keeps s (effAlltoall a0 a1) := by
  unfold effAlltoall
  exact (keeps_collStart h)

theorem keeps_collRun {s : State} {a0 : State} {a1} {a2} (h : Keeps s a0) : Keeps s (State.collRun a0 a1 a2) := by
  unfold State.collRun
  extract_lets +onlyGivenNames -merge -underBinder y1
  clear_value y1
  refine Keeps.ite ?_ ?_
  · exact (keeps_reduceBegin h)
  · extract_lets +onlyGivenNames -merge -underBinder y2
    have h2 : Keeps s y2.1 := (keeps_exchange h)
    clear_value y2
    exact (Keeps.foldl h2 fun _ _ h3 => (keeps_fail h3))

theorem keeps_collJoin {s : State} {a0 : State} {a1} {a2} {a3} (h : Keeps s a0) : Keeps s (State.collJoin a0 a1 a2 a3) := by
  unfold State.collJoin
  extract_lets +onlyGivenNames -merge -underBinder y1
  have h1 : Keeps s y1 := (keeps_modRun h)
  clear_value y1
  exact (Keeps.ite (keeps_collRun h1) h1)

theorem keeps_effCollectiveArrival {s : State} {a0} {a1 : State} (h : Keeps s a1) : Keeps s (effCollectiveArrival a0 a1) := by
  unfold effCollectiveArrival
  split
  · exact h
  · refine Keeps.ite ?_ ?_
    · exact h
    · extract_lets +onlyGivenNames -merge -underBinder y1
      clear_value y1
      extract_lets +onlyGivenNames -merge -underBinder y2
      clear_value y2
      extract_lets +onlyGivenNames -merge -underBinder y3
      clear_value y3
      refine Keeps.ite ?_ ?_
      · exact (keeps_fail h)
      · refine Keeps.ite ?_ ?_
        · exact (Keeps.ite h (keeps_collJoin (keeps_openRec h)))
        · refine Keeps.ite ?_ ?_
          · exact (keeps_collJoin (keeps_openRec h))
          · refine Keeps.ite ?_ ?_
            · refine Keeps.ite ?_ ?_
              · extract_lets +onlyGivenNames -merge -underBinder y4
                have h4 : Keeps s y4 := (keeps_modRun h)
                clear_value y4
                exact (keeps_endMembers h4)
              · exact (keeps_collJoin h)
            · exact (Keeps.ite (keeps_fail h) (Keeps.ite (keeps_fail h) (keeps_fail h)))

theorem keeps_collAgain {s : State} {a0 : State} {a1} (h : Keeps s a0) : Keeps s (State.collAgain a0 a1) := by
  unfold State.collAgain
  split
  · split
    · extract_lets +onlyGivenNames -merge -underBinder y1
      have h1 : Keeps s y1.1 := (keeps_collStore h)
      clear_value y1
      split
      · exact (keeps_fail h1)
      · exact h1
    · exact h
  · exact h

theorem keeps_effCollectivePrepared {s : State} {a0} {a1 : State} (h : Keeps s a1) : Keeps s (effCollectivePrepared a0 a1) := by
  unfold effCollectivePrepared
  extract_lets +onlyGivenNames -merge -underBinder y1
  have h1 : Keeps s y1 := (keeps_collAgain h)
  clear_value y1
  split
  · exact h1
  · refine Keeps.ite ?_ ?_
    · exact h1
    · extract_lets +onlyGivenNames -merge -underBinder y2
      clear_value y2
      extract_lets +onlyGivenNames -merge -underBinder y3
      have h3 : Keeps s y3 := (keeps_modRun h1)
      clear_value y3
      extract_lets +onlyGivenNames -merge -underBinder y4
      have h4 : Keeps s y4 := (keeps_putRec h3)
      clear_value y4
      refine Keeps.ite ?_ ?_
      · exact h4
      · extract_lets +onlyGivenNames -merge -underBinder y5
        clear_value y5
        extract_lets +onlyGivenNames -merge -underBinder y6
        have h6 : Keeps s y6 := (keeps_putRec h4)
        clear_value y6
        exact (Keeps.foldl h6 fun _ _ h7 => (keeps_commitRun (keeps_countMoved h7)))

theorem keeps_effCollectiveKill {s : State} {a0} {a1 : State} (h : Keeps s a1) : Keeps s (effCollectiveKill a0 a1) := by
  unfold effCollectiveKill
  split
  · exact h
  · extract_lets +onlyGivenNames -merge -underBinder y1
    clear_value y1
    extract_lets +onlyGivenNames -merge -underBinder y2
    have h2 : Keeps s y2 := (Keeps.upd h)
    clear_value y2
    exact (keeps_coordKill h2)

theorem keeps_transfer {s : State} {a0 : State} {a1} {a2} (h : Keeps s a0) : Keeps s (State.transfer a0 a1 a2) := by
  unfold State.transfer
  split
  · exact h
  · extract_lets +onlyGivenNames -merge -underBinder y1
    clear_value y1
    extract_lets +onlyGivenNames -merge -underBinder y2
    have h2 : Keeps s y2.1 := (keeps_readIdx h)
    clear_value y2
    split
    · exact h2
    · exact (keeps_fail h2)
    · extract_lets +onlyGivenNames -merge -underBinder y3
      have h3 : Keeps s y3.1 := (keeps_xferWalk h2)
      clear_value y3
      split
      · exact (keeps_fail h3)
      · extract_lets +onlyGivenNames -merge -underBinder y4
        have h4 : Keeps s y4.1 := (keeps_probeXfer h3)
        clear_value y4
        refine Keeps.ite ?_ ?_
        · exact h4
        · extract_lets +onlyGivenNames -merge -underBinder y5
          have h5 : Keeps s y5.1 := (keeps_tentXfer h4)
          clear_value y5
          split
          · exact h5
          · exact (keeps_fail h5)
          · extract_lets +onlyGivenNames -merge -underBinder y6
            have h6 : Keeps s y6 := (keeps_beginWork h5)
            clear_value y6
            exact (keeps_afterWork h5 (keeps_copyWork h6) (fun _ h7_0 => (keeps_modRun h7_0)))

theorem keeps_effCopy {s : State} {a0} {a1 : State} (h : Keeps s a1) : Keeps s (effCopy a0 a1) := by
  unfold effCopy
  exact (keeps_transfer h)

theorem keeps_effFill {s : State} {a0} {a1 : State} (h : Keeps s a1) : Keeps s (effFill a0 a1) := by
  unfold effFill
  exact (keeps_transfer h)

theorem keeps_effGather {s : State} {a0} {a1 : State} (h : Keeps s a1) : Keeps s (effGather a0 a1) := by
  unfold effGather
  exact (keeps_transfer h)

theorem keeps_effScatter {s : State} {a0} {a1 : State} (h : Keeps s a1) : Keeps s (effScatter a0 a1) := by
  unfold effScatter
  exact (keeps_transfer h)

theorem keeps_effPrefetch {s : State} {a0} {a1 : State} (h : Keeps s a1) : Keeps s (effPrefetch a0 a1) := by
  unfold effPrefetch
  split
  · exact h
  · extract_lets +onlyGivenNames -merge -underBinder y1
    clear_value y1
    extract_lets +onlyGivenNames -merge -underBinder y2
    have h2 : Keeps s y2.1 := (keeps_xferWalk h)
    clear_value y2
    split
    · exact (keeps_fail h2)
    · exact (keeps_commitRun (keeps_prefetchWork (keeps_beginWork h2)))

theorem keeps_effFlushRange {s : State} {a0} {a1 : State} (h : Keeps s a1) : Keeps s (effFlushRange a0 a1) := by
  unfold effFlushRange
  split
  · exact h
  · extract_lets +onlyGivenNames -merge -underBinder y1
    clear_value y1
    extract_lets +onlyGivenNames -merge -underBinder y2
    have h2 : Keeps s y2.1 := (keeps_xferWalk h)
    clear_value y2
    split
    · exact (keeps_fail h2)
    · extract_lets +onlyGivenNames -merge -underBinder y3
      have h3 : Keeps s y3 := (keeps_flushN (keeps_beginWork h2))
      clear_value y3
      exact (keeps_modRun h3)

theorem keeps_flushWcb {s : State} {a0 : State} {a1} (h : Keeps s a0) : Keeps s (State.flushWcb a0 a1) := by
  unfold State.flushWcb
  extract_lets +onlyGivenNames -merge -underBinder y1
  clear_value y1
  extract_lets +onlyGivenNames -merge -underBinder y2
  have h2 : Keeps s y2 := (Keeps.withArc h fun _ ha => ha)
  clear_value y2
  extract_lets +onlyGivenNames -merge -underBinder y3
  have h3 : Keeps s y3.1 := by
    unfold y3
    refine Keeps.foldlFst ?_ fun y6 a6 h6 => ?_
    · exact h2
    · split
      · exact (Keeps.iteFst (keeps_writePa h6) (keeps_writeTent h6))
      · exact h6
  clear_value y3
  split
  · exact h3
  · exact h
  · split
    · exact (keeps_fail h3)
    · exact h3

theorem keeps_effWcbAgeExpiry {s : State} {a0} {a1} {a2 : State} (h : Keeps s a2) : Keeps s (effWcbAgeExpiry a0 a1 a2) := by
  unfold effWcbAgeExpiry
  split
  · exact (keeps_flushWcb (keeps_sat h))
  · exact h

theorem keeps_effWcbParityError {s : State} {a0} {a1} {a2 : State} (h : Keeps s a2) : Keeps s (effWcbParityError a0 a1 a2) := by
  unfold effWcbParityError
  split
  · exact h
  · extract_lets +onlyGivenNames -merge -underBinder y1
    have h1 : Keeps s y1 := (Keeps.withArc h fun _ ha => ha)
    clear_value y1
    split
    · exact h1
    · refine Keeps.ite ?_ ?_
      · exact (keeps_fail (keeps_qReport h1))
      · extract_lets +onlyGivenNames -merge -underBinder y2
        have h2 : Keeps s y2 := (keeps_qReport h1)
        clear_value y2
        exact (keeps_refreshQ (keeps_requeue (keeps_killRun h2)))

theorem keeps_archiveReport {s : State} {a0 : State} {a1} {a2} {a3} {a4} (h : Keeps s a0) : Keeps s (State.archiveReport a0 a1 a2 a3 a4) := by
  unfold State.archiveReport
  exact (keeps_report h)

theorem keeps_effArchiveParityError {s : State} {a0} {a1} {a2 : State} (h : Keeps s a2) : Keeps s (effArchiveParityError a0 a1 a2) := by
  unfold effArchiveParityError
  extract_lets +onlyGivenNames -merge -underBinder y1
  clear_value y1
  split
  · exact h
  · refine Keeps.ite ?_ ?_
    · exact h
    · refine Keeps.ite ?_ ?_
      · extract_lets +onlyGivenNames -merge -underBinder y2
        clear_value y2
        extract_lets +onlyGivenNames -merge -underBinder y3
        have h3 : Keeps s y3 := (Keeps.ite (keeps_dropLine h) (Keeps.withArc h fun _ ha => ha))
        clear_value y3
        extract_lets +onlyGivenNames -merge -underBinder y4
        have h4 : Keeps s y4 := (keeps_archiveReport (keeps_sat h3))
        clear_value y4
        exact (Keeps.ite h4 (keeps_request h4))
      · exact (keeps_archiveReport (keeps_poisonTag h))

theorem keeps_effHbmTempPoll {s : State} {a0} {a1} {a2} {a3 : State} (h : Keeps s a3) : Keeps s (effHbmTempPoll a0 a1 a2 a3) := by
  unfold effHbmTempPoll
  extract_lets +onlyGivenNames -merge -underBinder y1
  clear_value y1
  extract_lets +onlyGivenNames -merge -underBinder y2
  have h2 : Keeps s y2 := (keeps_setTemp (keeps_setFld h))
  clear_value y2
  refine Keeps.ite ?_ ?_
  · extract_lets +onlyGivenNames -merge -underBinder y3
    have h3 : Keeps s y3 := (keeps_setFld h2)
    clear_value y3
    exact (Keeps.ite (keeps_setBit h3) (Keeps.ite (keeps_setBit h3) h3))
  · exact (keeps_setFld h2)

theorem keeps_effScrubRead {s : State} {a0} {a1} {a2} {a3 : State} (h : Keeps s a3) : Keeps s (effScrubRead a0 a1 a2 a3) := by
  unfold effScrubRead
  extract_lets +onlyGivenNames -merge -underBinder y1
  clear_value y1
  refine Keeps.ite ?_ ?_
  · exact h
  · extract_lets +onlyGivenNames -merge -underBinder y2
    clear_value y2
    extract_lets +onlyGivenNames -merge -underBinder y3
    have h3 : Keeps s y3 := (Keeps.ite (keeps_sat h) h)
    clear_value y3
    extract_lets +onlyGivenNames -merge -underBinder y4
    clear_value y4
    extract_lets +onlyGivenNames -merge -underBinder y5
    clear_value y5
    extract_lets +onlyGivenNames -merge -underBinder y6
    have h6 : Keeps s y6.1 := (keeps_freeNum h3)
    clear_value y6
    extract_lets +onlyGivenNames -merge -underBinder y7
    have h7 : Keeps s y7 := (Keeps.ite h3 (Keeps.withArc h6 fun _ ha => ha))
    clear_value y7
    exact (keeps_stackCheck h7)

theorem keeps_setGrp {s : State} {a0 : State} {a1} {a2} (h : Keeps s a0) : Keeps s (State.setGrp a0 a1 a2) := by
  unfold State.setGrp
  exact (keeps_setTe h)

theorem keeps_setBlk {s : State} {a0 : State} {a1} {a2} {a3} (h : Keeps s a0) : Keeps s (State.setBlk a0 a1 a2 a3) := by
  unfold State.setBlk
  exact (keeps_setTe h)

theorem keeps_failLaunch {s : State} {a0 : State} {a1} {a2} (h : Keeps s a0) : Keeps s (State.failLaunch a0 a1 a2) := by
  unfold State.failLaunch
  split
  · exact h
  · split
    · exact (keeps_fail h)
    · exact h

theorem keeps_threadFault {s : State} {a0 : State} {a1} {a2} {a3} {a4} {a5} {a6} {a7} (h : Keeps s a0) : Keeps s (State.threadFault a0 a1 a2 a3 a4 a5 a6 a7) := by
  unfold State.threadFault
  extract_lets +onlyGivenNames -merge -underBinder y1
  clear_value y1
  extract_lets +onlyGivenNames -merge -underBinder y2
  have h2 : Keeps s y2 := (keeps_setReg h)
  clear_value y2
  extract_lets +onlyGivenNames -merge -underBinder y3
  have h3 : Keeps s y3 := (keeps_setReg h2)
  clear_value y3
  extract_lets +onlyGivenNames -merge -underBinder y4
  have h4 : Keeps s y4 := by
    unfold y4
    refine Keeps.ite ?_ ?_
    · exact h
    · refine Keeps.ite ?_ ?_
      · exact (keeps_sat h)
      · split
        · exact (keeps_setReg h3)
        · exact (keeps_setReg h3)
  clear_value y4
  exact (keeps_failLaunch h4)

theorem keeps_instrFault {s : State} {a0 : State} {a1} {a2} {a3} {a4} {a5} (h : Keeps s a0) : Keeps s (State.instrFault a0 a1 a2 a3 a4 a5) := by
  unfold State.instrFault
  exact (keeps_threadFault h)

theorem keeps_decodeFault {s : State} {a0 : State} {a1} {a2} {a3} (h : Keeps s a0) : Keeps s (State.decodeFault a0 a1 a2 a3) := by
  unfold State.decodeFault
  exact (keeps_instrFault h)

theorem keeps_accessFault {s : State} {a0 : State} {a1} {a2} {a3} {a4} (h : Keeps s a0) : Keeps s (State.accessFault a0 a1 a2 a3 a4) := by
  unfold State.accessFault
  exact (Keeps.ite (keeps_instrFault h) (keeps_failLaunch h))

theorem keeps_pagesOk_aux {s : State} : ∀ a0 a1 a2 a3 a4 a5 a6 a7 a8, Keeps s a0 → Keeps s (State.pagesOk a0 a1 a2 a3 a4 a5 a6 a7 a8).1
  | x0, x1, x2, x3, x4, 0, x5, x6, x7, h => by
    rw [State.pagesOk]
    exact h
  | x0, x1, x2, x3, x4, (x8 + 1), x5, x6, x7, h => by
    rw [State.pagesOk]
    refine Keeps.iteFst ?_ ?_
    · exact h
    · extract_lets +onlyGivenNames -merge -underBinder y1
      clear_value y1
      extract_lets +onlyGivenNames -merge -underBinder y2
      have h2 : Keeps s y2.1 := (keeps_xlat h)
      clear_value y2
      split
      · exact h2
      · split
        · exact (Keeps.pair (keeps_refuse h2))
        · exact (keeps_pagesOk_aux _ _ _ _ _ _ _ _ _ h2)

theorem keeps_pagesOk {s : State} {a0 : State} {a1} {a2} {a3} {a4} {a5} {a6} {a7} {a8} (h : Keeps s a0) : Keeps s (State.pagesOk a0 a1 a2 a3 a4 a5 a6 a7 a8).1 := keeps_pagesOk_aux a0 a1 a2 a3 a4 a5 a6 a7 a8 h

theorem keeps_gpieces {s : State} {a0 : State} {a1} {a2} {a3} {a4} {a5} {a6} (h : Keeps s a0) : Keeps s (State.gpieces a0 a1 a2 a3 a4 a5 a6).1 := by
  unfold State.gpieces
  split
  · exact (Keeps.pair (keeps_xlat h))
  · exact (keeps_pagesOk h)

theorem keeps_fetchAt {s : State} {a0 : State} {a1} {a2} {a3} {a4} (h : Keeps s a0) : Keeps s (State.fetchAt a0 a1 a2 a3 a4).1 := by
  unfold State.fetchAt
  extract_lets +onlyGivenNames -merge -underBinder y1
  have h1 : Keeps s y1.1 := (keeps_gpieces h)
  clear_value y1
  split
  · exact h1
  · exact (Keeps.foldlFst h1 fun _ _ h2 => (Keeps.iteFst h2 (keeps_poisonRead h2)))

theorem keeps_fetchWords {s : State} {a0 : State} {a1} {a2} {a3} {a4} {a5} (h : Keeps s a0) : Keeps s (State.fetchWords a0 a1 a2 a3 a4 a5).1 := by
  unfold State.fetchWords
  extract_lets +onlyGivenNames -merge -underBinder y1
  have h1 : Keeps s y1.1 := (keeps_fetchAt h)
  clear_value y1
  exact (Keeps.iteFst (keeps_fetchAt h1) h1)

theorem keeps_issue {s : State} {a0 : State} {a1} {a2} {a3} (h : Keeps s a0) (hk1 : ∀ b0 b1 b2 b3, Keeps s b0 → Keeps s (a3 b0 b1 b2 b3)) : Keeps s (State.issue a0 a1 a2 a3) := by
  unfold State.issue
  split
  · split
    · exact h
    · refine Keeps.ite ?_ ?_
      · exact h
      · extract_lets +onlyGivenNames -merge -underBinder y1
        have h1 : Keeps s y1.1 := (keeps_fetchWords h)
        clear_value y1
        split
        · exact (keeps_accessFault h1)
        · extract_lets +onlyGivenNames -merge -underBinder y2
          have h2 : Keeps s y2 := (keeps_bump h1)
          clear_value y2
          exact (Keeps.ite (keeps_decodeFault h2) (hk1 _ _ _ _ h2))
  · exact h

theorem keeps_putGrp {s : State} {a0 : State} {a1} {a2} (h : Keeps s a0) : Keeps s (State.putGrp a0 a1 a2) := by
  unfold State.putGrp
  exact (keeps_setGrp h)

theorem keeps_nextPc {s : State} {a0 : State} {a1} {a2} {a3} (h : Keeps s a0) : Keeps s (State.nextPc a0 a1 a2 a3) := by
  unfold State.nextPc
  exact (keeps_putGrp h)

theorem keeps_alu {s : State} {a0 : State} {a1} {a2} {a3} {a4} (h : Keeps s a0) : Keeps s (State.alu a0 a1 a2 a3 a4) := by
  unfold State.alu
  refine keeps_issue h (fun b3_0 b3_1 b3_2 b3_3 h3_0 => ?_)
  split
  · exact (keeps_decodeFault h3_0)
  · extract_lets +onlyGivenNames -merge -underBinder y4
    have h4 : Keeps s y4 := (keeps_setReg (Keeps.upd h3_0))
    clear_value y4
    extract_lets +onlyGivenNames -merge -underBinder y5
    have h5 : Keeps s y5 := (keeps_modRun h4)
    clear_value y5
    exact (keeps_nextPc h5)

theorem keeps_ctl {s : State} {a0 : State} {a1} {a2} {a3} {a4} (h : Keeps s a0) (hk1 : ∀ b0 b1 b2 b3, Keeps s b0 → Keeps s (a4 b0 b1 b2 b3)) : Keeps s (State.ctl a0 a1 a2 a3 a4) := by
  unfold State.ctl
  exact (keeps_issue h (fun _ _ _ _ h1_0 => (Keeps.ite (hk1 _ _ _ _ h1_0) (keeps_decodeFault h1_0))))

theorem keeps_countResident {s : State} {a0 : State} {a1} (h : Keeps s a0) : Keeps s (State.countResident a0 a1) := by
  unfold State.countResident
  extract_lets +onlyGivenNames -merge -underBinder y1
  clear_value y1
  exact (keeps_setFld (keeps_setFld h))

theorem keeps_flushLaunch {s : State} {a0 : State} {a1} {a2} (h : Keeps s a0) : Keeps s (State.flushLaunch a0 a1 a2) := by
  unfold State.flushLaunch
  extract_lets +onlyGivenNames -merge -underBinder y1
  clear_value y1
  extract_lets +onlyGivenNames -merge -underBinder y2
  clear_value y2
  extract_lets +onlyGivenNames -merge -underBinder y3
  clear_value y3
  extract_lets +onlyGivenNames -merge -underBinder y4
  clear_value y4
  exact (Keeps.foldl h fun _ _ h5 => (keeps_flushWcb h5))

theorem keeps_launchDone {s : State} {a0 : State} {a1} {a2} (h : Keeps s a0) : Keeps s (State.launchDone a0 a1 a2) := by
  unfold State.launchDone
  extract_lets +onlyGivenNames -merge -underBinder y1
  have h1 : Keeps s y1 := (keeps_setTe h)
  clear_value y1
  extract_lets +onlyGivenNames -merge -underBinder y2
  have h2 : Keeps s y2 := (keeps_countResident h1)
  clear_value y2
  split
  · refine Keeps.ite ?_ ?_
    · extract_lets +onlyGivenNames -merge -underBinder y3
      have h3 : Keeps s y3 := (keeps_addFlash (keeps_flushLaunch h2))
      clear_value y3
      extract_lets +onlyGivenNames -merge -underBinder y4
      clear_value y4
      exact (keeps_advance (keeps_completeAt (keeps_sendEvents h3)))
    · exact (keeps_modRun h2)
  · exact h2

theorem keeps_effLaunch {s : State} {a0} {a1 : State} (h : Keeps s a1) : Keeps s (effLaunch a0 a1) := by
  unfold effLaunch
  split
  · exact h
  · extract_lets +onlyGivenNames -merge -underBinder y1
    clear_value y1
    extract_lets +onlyGivenNames -merge -underBinder y2
    clear_value y2
    extract_lets +onlyGivenNames -merge -underBinder y3
    have h3 : Keeps s y3 := (Keeps.ite h (keeps_setPool h))
    clear_value y3
    extract_lets +onlyGivenNames -merge -underBinder y4
    have h4 : Keeps s y4.1 := (Keeps.iteFst h3 (keeps_readVa h3))
    clear_value y4
    split
    · exact h4
    · exact (keeps_fail h4)
    · extract_lets +onlyGivenNames -merge -underBinder y5
      have h5 : Keeps s y5 := (keeps_beginWork h4)
      clear_value y5
      extract_lets +onlyGivenNames -merge -underBinder y6
      clear_value y6
      extract_lets +onlyGivenNames -merge -underBinder y7
      have h7 : Keeps s y7 := (keeps_setTe h5)
      clear_value y7
      exact (Keeps.ite (keeps_launchDone h7) h7)

theorem keeps_effBlockDispatch {s : State} {a0} {a1 : State} (h : Keeps s a1) : Keeps s (effBlockDispatch a0 a1) := by
  unfold effBlockDispatch
  extract_lets +onlyGivenNames -merge -underBinder y1
  clear_value y1
  split
  · exact h
  · refine Keeps.ite ?_ ?_
    · exact h
    · extract_lets +onlyGivenNames -merge -underBinder y2
      clear_value y2
      extract_lets +onlyGivenNames -merge -underBinder y3
      clear_value y3
      refine Keeps.ite ?_ ?_
      · exact h
      · extract_lets +onlyGivenNames -merge -underBinder y4
        clear_value y4
        extract_lets +onlyGivenNames -merge -underBinder y5
        clear_value y5
        extract_lets +onlyGivenNames -merge -underBinder y6
        clear_value y6
        extract_lets +onlyGivenNames -merge -underBinder y7
        clear_value y7
        extract_lets +onlyGivenNames -merge -underBinder y8
        clear_value y8
        extract_lets +onlyGivenNames -merge -underBinder y9
        have h9 : Keeps s y9 := (keeps_setTe h)
        clear_value y9
        extract_lets +onlyGivenNames -merge -underBinder y10
        have h10 : Keeps s y10 := (keeps_setBlk h9)
        clear_value y10
        extract_lets +onlyGivenNames -merge -underBinder y11
        have h11 : Keeps s y11 := by
          unfold y11
          refine Keeps.foldl ?_ fun y14 a14 h14 => ?_
          · exact h10
          · split
            · exact (keeps_setGrp h14)
        clear_value y11
        exact (keeps_countResident h11)

theorem keeps_effBlockRetire {s : State} {a0} {a1} {a2 : State} (h : Keeps s a2) : Keeps s (effBlockRetire a0 a1 a2) := by
  unfold effBlockRetire
  split
  · extract_lets +onlyGivenNames -merge -underBinder y1
    clear_value y1
    extract_lets +onlyGivenNames -merge -underBinder y2
    have h2 : Keeps s y2 := (keeps_flushLaunch h)
    clear_value y2
    refine Keeps.ite ?_ ?_
    · exact h
    · refine Keeps.ite ?_ ?_
      · exact h2
      · refine Keeps.ite ?_ ?_
        · exact h2
        · extract_lets +onlyGivenNames -merge -underBinder y3
          have h3 : Keeps s y3 := (Keeps.foldl h fun _ _ h4 => (keeps_setGrp h4))
          clear_value y3
          extract_lets +onlyGivenNames -merge -underBinder y5
          have h5 : Keeps s y5 := (keeps_setBlk h3)
          clear_value y5
          extract_lets +onlyGivenNames -merge -underBinder y6
          clear_value y6
          extract_lets +onlyGivenNames -merge -underBinder y7
          clear_value y7
          extract_lets +onlyGivenNames -merge -underBinder y8
          have h8 : Keeps s y8 := (keeps_countResident (keeps_setTe h5))
          clear_value y8
          exact (Keeps.ite (keeps_launchDone h8) h8)
  · exact h

theorem keeps_effMeetComplete {s : State} {a0} {a1} {a2 : State} (h : Keeps s a2) : Keeps s (effMeetComplete a0 a1 a2) := by
  unfold effMeetComplete
  split
  · extract_lets +onlyGivenNames -merge -underBinder y1
    clear_value y1
    refine Keeps.ite ?_ ?_
    · exact h
    · refine Keeps.ite ?_ ?_
      · extract_lets +onlyGivenNames -merge -underBinder y2
        have h2 : Keeps s y2 := (keeps_setBlk h)
        clear_value y2
        refine Keeps.foldl ?_ fun y4 a4 h4 => ?_
        · exact h2
        · split
          · extract_lets +onlyGivenNames -merge -underBinder y5
            clear_value y5
            extract_lets +onlyGivenNames -merge -underBinder y6
            clear_value y6
            extract_lets +onlyGivenNames -merge -underBinder y7
            have h7 : Keeps s y7 := (keeps_putGrp h4)
            clear_value y7
            exact (keeps_setTe h7)
      · exact h
  · exact h

theorem keeps_effBarrierTimeout {s : State} {a0} {a1} {a2 : State} (h : Keeps s a2) : Keeps s (effBarrierTimeout a0 a1 a2) := by
  unfold effBarrierTimeout
  extract_lets +onlyGivenNames -merge -underBinder y1
  clear_value y1
  refine Keeps.ite ?_ ?_
  · split
    · extract_lets +onlyGivenNames -merge -underBinder y2
      clear_value y2
      exact (keeps_threadFault h)
    · exact h
  · exact h

theorem keeps_effWaitcTimeout {s : State} {a0} {a1 : State} (h : Keeps s a1) : Keeps s (effWaitcTimeout a0 a1) := by
  unfold effWaitcTimeout
  split
  · split
    · exact (keeps_threadFault h)
    · exact h
  · exact h

theorem keeps_endWaits {s : State} {a0 : State} {a1} {a2} (h : Keeps s a0) : Keeps s (State.endWaits a0 a1 a2) := by
  unfold State.endWaits
  split
  · exact h
  · refine Keeps.foldl ?_ fun y2 a2 h2 => ?_
    · exact h
    · split
      · split
        · exact (Keeps.ite (keeps_putGrp h2) h2)
        · exact h2

theorem keeps_raiseCtr {s : State} {a0 : State} {a1} {a2} {a3} (h : Keeps s a0) : Keeps s (State.raiseCtr a0 a1 a2 a3) := by
  unfold State.raiseCtr
  split
  · exact h
  · exact (keeps_endWaits (keeps_setBlk h))

theorem keeps_launchOverrun {s : State} {a0 : State} {a1} {a2} (h : Keeps s a0) : Keeps s (State.launchOverrun a0 a1 a2) := by
  unfold State.launchOverrun
  split
  · exact (keeps_threadFault h)
  · exact (keeps_threadFault h)

theorem keeps_effPinnedOverrun {s : State} {a0} {a1 : State} (h : Keeps s a1) : Keeps s (effPinnedOverrun a0 a1) := by
  unfold effPinnedOverrun
  extract_lets +onlyGivenNames -merge -underBinder y1
  clear_value y1
  split
  · split
    · exact (Keeps.ite (keeps_launchOverrun h) (keeps_fail h))
    · exact (keeps_fail h)
  · exact h

theorem keeps_effTeDetection {s : State} {a0} {a1} {a2 : State} (h : Keeps s a2) : Keeps s (effTeDetection a0 a1 a2) := by
  unfold effTeDetection
  split
  · exact h
  · extract_lets +onlyGivenNames -merge -underBinder y1
    clear_value y1
    extract_lets +onlyGivenNames -merge -underBinder y2
    have h2 : ∀ b2_0 b2_1 b2_2, Keeps s b2_2 → Keeps s (y2 b2_0 b2_1 b2_2) := by
      intro b2_0 b2_1 b2_2 g2_2
      unfold y2
      exact (keeps_report g2_2)
    clear_value y2
    refine Keeps.ite ?_ ?_
    · exact (keeps_fail (h2 _ _ _ h))
    · refine Keeps.ite ?_ ?_
      · exact h
      · extract_lets +onlyGivenNames -merge -underBinder y3
        have h3 : Keeps s y3 := (h2 _ _ _ h)
        clear_value y3
        extract_lets +onlyGivenNames -merge -underBinder y4
        have h4 : Keeps s y4 := (keeps_requeue (keeps_killRun h3))
        clear_value y4
        exact (Keeps.ite (keeps_refreshQ (keeps_modCmd h4)) (keeps_cdieLost h4))

theorem keeps_effL0ParityError {s : State} {a0} {a1} {a2 : State} (h : Keeps s a2) : Keeps s (effL0ParityError a0 a1 a2) := by
  unfold effL0ParityError
  extract_lets +onlyGivenNames -merge -underBinder y1
  clear_value y1
  extract_lets +onlyGivenNames -merge -underBinder y2
  have h2 : Keeps s y2 := (keeps_setTe h)
  clear_value y2
  exact (keeps_report h2)

theorem keeps_effTexClrFlash {s : State} {a0} {a1 : State} (h : Keeps s a1) : Keeps s (effTexClrFlash a0 a1) := by
  unfold effTexClrFlash
  exact (Keeps.foldl h fun _ _ h1 => (keeps_setReg h1))

theorem keeps_effTexClrFault {s : State} {a0} {a1 : State} (h : Keeps s a1) : Keeps s (effTexClrFault a0 a1) := by
  unfold effTexClrFault
  exact (Keeps.foldl h fun _ _ h1 => (keeps_setReg h1))

theorem keeps_effTexClrPerf {s : State} {a0} {a1 : State} (h : Keeps s a1) : Keeps s (effTexClrPerf a0 a1) := by
  unfold effTexClrPerf
  exact (keeps_setReg (keeps_setReg h))

theorem keeps_glanes_aux {s : State} : ∀ a0 a1 a2 a3 a4 a5 a6 a7 a8, Keeps s a0 → Keeps s (State.glanes a0 a1 a2 a3 a4 a5 a6 a7 a8).1
  | x0, x1, x2, x3, x4, x5, x6, [], x7, h => by
    rw [State.glanes]
    exact h
  | x0, x1, x2, x3, x4, x5, x6, (x8, x9) :: x10, x7, h => by
    rw [State.glanes]
    refine Keeps.iteFst ?_ ?_
    · exact h
    · extract_lets +onlyGivenNames -merge -underBinder y1
      have h1 : Keeps s y1.1 := (keeps_gpieces h)
      clear_value y1
      split
      · exact h1
      · exact (keeps_glanes_aux _ _ _ _ _ _ _ _ _ h1)

theorem keeps_glanes {s : State} {a0 : State} {a1} {a2} {a3} {a4} {a5} {a6} {a7} {a8} (h : Keeps s a0) : Keeps s (State.glanes a0 a1 a2 a3 a4 a5 a6 a7 a8).1 := keeps_glanes_aux a0 a1 a2 a3 a4 a5 a6 a7 a8 h

theorem keeps_pickByte {s : State} {a0 : State} {a1} {a2} (h : Keeps s a0) : Keeps s (State.pickByte a0 a1 a2).1 := by
  unfold State.pickByte
  refine Keeps.iteFst ?_ ?_
  · exact h
  · extract_lets +onlyGivenNames -merge -underBinder y1
    have h1 : Keeps s y1.1 := (keeps_freeNum h)
    clear_value y1
    exact h1

theorem keeps_putL0 {s : State} {a0 : State} {a1} {a2} {a3} {a4} (h : Keeps s a0) : Keeps s (State.putL0 a0 a1 a2 a3 a4) := by
  unfold State.putL0
  extract_lets +onlyGivenNames -merge -underBinder y1
  clear_value y1
  exact (keeps_setTe h)

theorem keeps_pickTime {s : State} {a0 : State} {a1} {a2} {a3} {a4} (h : Keeps s a0) : Keeps s (State.pickTime a0 a1 a2 a3 a4).1 := by
  unfold State.pickTime
  refine Keeps.iteFst ?_ ?_
  · exact h
  · extract_lets +onlyGivenNames -merge -underBinder y1
    have h1 : Keeps s y1.1 := (keeps_freeNum h)
    clear_value y1
    exact h1

theorem keeps_readL0 {s : State} {a0 : State} {a1} {a2} {a3} {a4} {a5} (h : Keeps s a0) : Keeps s (State.readL0 a0 a1 a2 a3 a4 a5).1 := by
  unfold State.readL0
  extract_lets +onlyGivenNames -merge -underBinder y1
  clear_value y1
  extract_lets +onlyGivenNames -merge -underBinder y2
  clear_value y2
  split
  · extract_lets +onlyGivenNames -merge -underBinder y3
    have h3 : Keeps s y3.1 := (keeps_readPa h)
    clear_value y3
    refine Keeps.pair ?_
    split
    · exact (keeps_putL0 h3)
    · exact h3
  · extract_lets +onlyGivenNames -merge -underBinder y4
    have h4 : Keeps s y4.1 := (keeps_freeBit h)
    clear_value y4
    refine Keeps.iteFst ?_ ?_
    · extract_lets +onlyGivenNames -merge -underBinder y5
      have h5 : Keeps s y5.1 := (keeps_pickTime h4)
      clear_value y5
      exact (Keeps.pair (keeps_putL0 h5))
    · extract_lets +onlyGivenNames -merge -underBinder y6
      have h6 : Keeps s y6.1 := (keeps_readPa h4)
      clear_value y6
      refine Keeps.pair ?_
      split
      · exact (keeps_putL0 h6)
      · exact h6

theorem keeps_putCarrel {s : State} {a0 : State} {a1} {a2} {a3} (h : Keeps s a0) : Keeps s (State.putCarrel a0 a1 a2 a3) := by
  unfold State.putCarrel
  extract_lets +onlyGivenNames -merge -underBinder y1
  clear_value y1
  extract_lets +onlyGivenNames -merge -underBinder y2
  clear_value y2
  extract_lets +onlyGivenNames -merge -underBinder y3
  clear_value y3
  extract_lets +onlyGivenNames -merge -underBinder y4
  have h4 : Keeps s y4.1 := (keeps_freeNum h)
  clear_value y4
  extract_lets +onlyGivenNames -merge -underBinder y5
  clear_value y5
  exact (keeps_setTe h4)

theorem keeps_readCarrel {s : State} {a0 : State} {a1} {a2} {a3} {a4} (h : Keeps s a0) : Keeps s (State.readCarrel a0 a1 a2 a3 a4).1 := by
  unfold State.readCarrel
  extract_lets +onlyGivenNames -merge -underBinder y1
  clear_value y1
  extract_lets +onlyGivenNames -merge -underBinder y2
  clear_value y2
  refine Keeps.iteFst ?_ ?_
  · exact (keeps_readPa h)
  · split
    · extract_lets +onlyGivenNames -merge -underBinder y3
      have h3 : Keeps s y3.1 := (keeps_pickTime h)
      clear_value y3
      exact h3
    · extract_lets +onlyGivenNames -merge -underBinder y4
      have h4 : Keeps s y4.1 := (keeps_readPa h)
      clear_value y4
      split
      · exact (Keeps.pair (keeps_putCarrel h4))
      · exact h4

theorem keeps_fetchMissing {s : State} {a0 : State} {a1} {a2} {a3} {a4} {a5} (h : Keeps s a0) : Keeps s (State.fetchMissing a0 a1 a2 a3 a4 a5).1 := by
  unfold State.fetchMissing
  refine Keeps.foldlFst ?_ fun y2 a2 h2 => ?_
  · exact h
  · extract_lets +onlyGivenNames -merge -underBinder y3
    clear_value y3
    exact (Keeps.iteFst h2 (Keeps.pair (keeps_fetchOut h2)))

theorem keeps_fetchPieces {s : State} {a0 : State} {a1} {a2} {a3} {a4} {a5} (h : Keeps s a0) : Keeps s (State.fetchPieces a0 a1 a2 a3 a4 a5).1 := by
  unfold State.fetchPieces
  extract_lets +onlyGivenNames -merge -underBinder y1
  clear_value y1
  exact (keeps_fetchMissing h)

theorem keeps_lsByte {s : State} {a0 : State} {a1} {a2} {a3} (h : Keeps s a0) : Keeps s (State.lsByte a0 a1 a2 a3).1 := by
  unfold State.lsByte
  extract_lets +onlyGivenNames -merge -underBinder y1
  clear_value y1
  exact (keeps_pickByte h)

theorem keeps_lsBytes {s : State} {a0 : State} {a1} {a2} {a3} {a4} (h : Keeps s a0) : Keeps s (State.lsBytes a0 a1 a2 a3 a4).1 := by
  unfold State.lsBytes
  refine Keeps.foldlFst ?_ fun y2 a2 h2 => ?_
  · exact h
  · extract_lets +onlyGivenNames -merge -underBinder y3
    have h3 : Keeps s y3.1 := (keeps_lsByte h2)
    clear_value y3
    exact h3

theorem keeps_lsDone {s : State} {a0 : State} {a1} {a2} {a3} (h : Keeps s a0) : Keeps s (State.lsDone a0 a1 a2 a3) := by
  unfold State.lsDone
  split
  · exact (Keeps.ite h (keeps_setBlk h))
  · exact h

theorem keeps_loprBytes {s : State} {a0 : State} {a1} {a2} {a3} {a4} {a5} (h : Keeps s a0) : Keeps s (State.loprBytes a0 a1 a2 a3 a4 a5).1 := by
  unfold State.loprBytes
  extract_lets +onlyGivenNames -merge -underBinder y1
  have h1 : Keeps s y1.1 := (keeps_lsBytes h)
  clear_value y1
  extract_lets +onlyGivenNames -merge -underBinder y2
  clear_value y2
  refine Keeps.iteFst ?_ ?_
  · extract_lets +onlyGivenNames -merge -underBinder y3
    have h3 : Keeps s y3.1 := (keeps_freeBit h1)
    clear_value y3
    exact h3
  · exact h1

theorem keeps_dropCleanOut {s : State} {a0 : State} {a1} (h : Keeps s a0) : Keeps s (State.dropCleanOut a0 a1) := by
  unfold State.dropCleanOut
  exact (Keeps.foldl h fun _ _ h1 => (Keeps.foldl h1 fun _ _ h2 => (Keeps.ite (keeps_dropOutSector h2) h2)))

theorem keeps_acquire {s : State} {a0 : State} {a1} {a2} {a3} (h : Keeps s a0) : Keeps s (State.acquire a0 a1 a2 a3) := by
  unfold State.acquire
  refine Keeps.ite ?_ ?_
  · exact h
  · extract_lets +onlyGivenNames -merge -underBinder y1
    have h1 : Keeps s y1 := (keeps_setTe h)
    clear_value y1
    exact (Keeps.ite (keeps_dropCleanOut h1) h1)

theorem keeps_wbLines {s : State} {a0 : State} {a1} {a2} {a3} (h : Keeps s a0) : Keeps s (State.wbLines a0 a1 a2 a3).1 := by
  unfold State.wbLines
  refine Keeps.foldlFst ?_ fun y2 a2 h2 => ?_
  · exact h
  · extract_lets +onlyGivenNames -merge -underBinder y3
    have h3 : Keeps s y3.1 := (keeps_wbLine h2)
    clear_value y3
    exact h3

theorem keeps_portFault {s : State} {a0 : State} {a1} {a2} {a3} {a4} (h : Keeps s a0) : Keeps s (State.portFault a0 a1 a2 a3 a4) := by
  unfold State.portFault
  exact (keeps_accessFault h)

theorem keeps_releaseGate {s : State} {a0 : State} {a1 : State} {a2} {a3} {a4} {a5} (h : Keeps s a0) (hs1 : Keeps s a1) : BothKeep s (State.releaseGate a0 a1 a2 a3 a4 a5) := by
  unfold State.releaseGate
  refine BothKeep.ite ?_ ?_
  · exact (BothKeep.no hs1)
  · extract_lets +onlyGivenNames -merge -underBinder y1
    have h1 : Keeps s y1 := (keeps_lsDone (keeps_flushLaunch hs1))
    clear_value y1
    refine BothKeep.ite ?_ ?_
    · exact (BothKeep.yes h1 h1)
    · refine BothKeep.ite ?_ ?_
      · exact (BothKeep.no h1)
      · extract_lets +onlyGivenNames -merge -underBinder y2
        clear_value y2
        extract_lets +onlyGivenNames -merge -underBinder y3
        have h3 : Keeps s y3 := (keeps_flushLaunch h)
        clear_value y3
        refine BothKeep.ite ?_ ?_
        · exact (BothKeep.yes h1 h3)
        · refine BothKeep.ite ?_ ?_
          · exact (BothKeep.no h1)
          · refine BothKeep.ite ?_ ?_
            · exact (BothKeep.ite (BothKeep.yes h1 h3) (BothKeep.no h1))
            · refine BothKeep.ite ?_ ?_
              · exact (BothKeep.no h1)
              · extract_lets +onlyGivenNames -merge -underBinder y4
                have h4 : Keeps s y4.1 := (keeps_wbLines h3)
                clear_value y4
                split
                · exact (BothKeep.yes h1 (keeps_setGrp h4))
                · exact (BothKeep.yes h1 (keeps_portFault h4))

theorem keeps_readPiece {s : State} {a0 : State} {a1} {a2} {a3} {a4} {a5} {a6} (h : Keeps s a0) : Keeps s (State.readPiece a0 a1 a2 a3 a4 a5 a6).1 := by
  unfold State.readPiece
  refine Keeps.iteFst ?_ ?_
  · refine Keeps.iteFst ?_ ?_
    · extract_lets +onlyGivenNames -merge -underBinder y1
      have h1 : Keeps s y1.1 := (keeps_lsBytes h)
      clear_value y1
      exact h1
    · exact (keeps_readPa h)
  · refine Keeps.foldlFst ?_ fun y3 a3 h3 => ?_
    · exact h
    · split
      · extract_lets +onlyGivenNames -merge -underBinder y4
        have h4 : Keeps s y4.1 := (Keeps.iteFst (keeps_readCarrel h3) (keeps_readL0 h3))
        clear_value y4
        exact h4
      · exact h3

theorem keeps_readPieces {s : State} {a0 : State} {a1} {a2} {a3} {a4} {a5} {a6} (h : Keeps s a0) : Keeps s (State.readPieces a0 a1 a2 a3 a4 a5 a6).1 := by
  unfold State.readPieces
  refine Keeps.foldlFst ?_ fun y2 a2 h2 => ?_
  · exact h
  · split
    · extract_lets +onlyGivenNames -merge -underBinder y3
      have h3 : Keeps s y3.1 := (keeps_readPiece h2)
      clear_value y3
      exact h3
    · exact h2

theorem keeps_gload {s : State} {a0 : State} {a1} {a2} {a3} {a4} (h : Keeps s a0) : Keeps s (State.gload a0 a1 a2 a3 a4) := by
  unfold State.gload
  extract_lets +onlyGivenNames -merge -underBinder y1
  clear_value y1
  refine keeps_ctl h (fun b4_0 b4_1 b4_2 b4_3 h4_0 => ?_)
  extract_lets +onlyGivenNames -merge -underBinder y5
  clear_value y5
  extract_lets +onlyGivenNames -merge -underBinder y6
  clear_value y6
  extract_lets +onlyGivenNames -merge -underBinder y7
  clear_value y7
  refine Keeps.ite ?_ ?_
  · exact h
  · extract_lets +onlyGivenNames -merge -underBinder y8
    have h8 : Keeps s y8.1 := (keeps_glanes h4_0)
    clear_value y8
    split
    · exact (keeps_accessFault h8)
    · refine Keeps.ite ?_ ?_
      · exact h
      · extract_lets +onlyGivenNames -merge -underBinder y9
        have h9 : Keeps s y9.1 := (keeps_fetchPieces h)
        clear_value y9
        refine Keeps.ite ?_ ?_
        · exact h9
        · extract_lets +onlyGivenNames -merge -underBinder y10
          have h10 : Keeps s y10.1 := by
            unfold y10
            refine Keeps.foldlFst ?_ fun y13 a13 h13 => ?_
            · exact h8
            · refine Keeps.iteFst ?_ ?_
              · exact h13
              · extract_lets +onlyGivenNames -merge -underBinder y14
                have h14 : Keeps s y14.1 := (keeps_readPieces h13)
                clear_value y14
                split
                · exact h14
                · exact h14
                · exact h14
          clear_value y10
          split
          · exact h
          · exact (keeps_failLaunch h10)
          · exact (keeps_nextPc (keeps_acquire h10))

theorem keeps_lload {s : State} {a0 : State} {a1} {a2} {a3} (h : Keeps s a0) : Keeps s (State.lload a0 a1 a2 a3) := by
  unfold State.lload
  extract_lets +onlyGivenNames -merge -underBinder y1
  clear_value y1
  refine keeps_ctl h (fun b4_0 b4_1 b4_2 b4_3 h4_0 => ?_)
  extract_lets +onlyGivenNames -merge -underBinder y5
  clear_value y5
  extract_lets +onlyGivenNames -merge -underBinder y6
  clear_value y6
  extract_lets +onlyGivenNames -merge -underBinder y7
  clear_value y7
  refine Keeps.ite ?_ ?_
  · exact h
  · split
    · exact (keeps_accessFault h4_0)
    · extract_lets +onlyGivenNames -merge -underBinder y8
      have h8 : Keeps s y8.1 := by
        unfold y8
        refine Keeps.foldlFst ?_ fun y11 a11 h11 => ?_
        · exact h4_0
        · extract_lets +onlyGivenNames -merge -underBinder y12
          have h12 : Keeps s y12.1 := (keeps_lsBytes h11)
          clear_value y12
          exact h12
      clear_value y8
      exact (keeps_nextPc (keeps_acquire h8))

theorem keeps_storeTable {s : State} {a0 : State} {a1} (h : Keeps s a0) : Keeps s (State.storeTable a0 a1).1 := by
  unfold State.storeTable
  refine Keeps.foldlFst ?_ fun y3 a3 h3 => ?_
  · exact h
  · refine Keeps.foldlFst ?_ fun y5 a5 h5 => ?_
    · exact h3
    · refine Keeps.pair ?_
      extract_lets +onlyGivenNames -merge -underBinder y6
      have h6 : Keeps s y6 := h5
      clear_value y6
      exact (Keeps.upd h6)

theorem keeps_writeSector {s : State} {a0 : State} {a1} {a2} {a3} (h : Keeps s a0) : Keeps s (State.writeSector a0 a1 a2 a3).1 := by
  unfold State.writeSector
  refine Keeps.foldlFst ?_ fun y2 a2 h2 => ?_
  · exact h
  · split
    · exact (Keeps.iteFst (keeps_writePa h2) (keeps_writeTent h2))
    · exact h2

theorem keeps_noteStore {s : State} {a0 : State} {a1} {a2} (h : Keeps s a0) : Keeps s (State.noteStore a0 a1 a2) := by
  unfold State.noteStore
  exact (keeps_noteOld h)

theorem keeps_wcbRoom {s : State} {a0 : State} {a1} (h : Keeps s a0) : Keeps s (State.wcbRoom a0 a1) := by
  unfold State.wcbRoom
  extract_lets +onlyGivenNames -merge -underBinder y1
  clear_value y1
  split
  · exact (Keeps.ite (keeps_flushWcb (keeps_sat h)) h)
  · exact h

theorem keeps_storeSector {s : State} {a0 : State} {a1} {a2} {a3} {a4} {a5} {a6} (h : Keeps s a0) : Keeps s (State.storeSector a0 a1 a2 a3 a4 a5 a6).1 := by
  unfold State.storeSector
  refine Keeps.iteFst ?_ ?_
  · refine Keeps.foldlFst ?_ fun y3 a3 h3 => ?_
    · exact h
    · split
      · exact (keeps_writePa h3)
      · exact h3
  · split
    · extract_lets +onlyGivenNames -merge -underBinder y4
      have h4 : Keeps s y4 := (keeps_noteStore h)
      clear_value y4
      extract_lets +onlyGivenNames -merge -underBinder y5
      clear_value y5
      extract_lets +onlyGivenNames -merge -underBinder y6
      have h6 : Keeps s y6 := (Keeps.withArc h4 fun _ ha => ha)
      clear_value y6
      exact (Keeps.iteFst (Keeps.pair (keeps_flushWcb h6)) h6)
    · refine Keeps.iteFst ?_ ?_
      · exact (keeps_writeSector h)
      · extract_lets +onlyGivenNames -merge -underBinder y7
        have h7 : Keeps s y7 := (keeps_wcbRoom h)
        clear_value y7
        refine Keeps.iteFst ?_ ?_
        · exact h7
        · extract_lets +onlyGivenNames -merge -underBinder y8
          have h8 : Keeps s y8 := (keeps_noteStore h7)
          clear_value y8
          exact (Keeps.pair (Keeps.withArc h8 fun _ ha => ha))

theorem keeps_storeAll {s : State} {a0 : State} {a1} {a2} {a3} {a4} {a5} (h : Keeps s a0) : Keeps s (State.storeAll a0 a1 a2 a3 a4 a5).1 := by
  unfold State.storeAll
  refine Keeps.foldlFst ?_ fun y2 a2 h2 => ?_
  · exact h
  · split
    · exact (keeps_storeSector h2)
    · exact h2

theorem keeps_storeRoom {s : State} {a0 : State} {a1} {a2} (h : Keeps s a0) : Keeps s (State.storeRoom a0 a1 a2).1 := by
  unfold State.storeRoom
  exact (Keeps.iteFst h (keeps_tentRoom h))

theorem keeps_ownStore {s : State} {a0 : State} {a1} {a2} {a3} (h : Keeps s a0) : Keeps s (State.ownStore a0 a1 a2 a3) := by
  unfold State.ownStore
  extract_lets +onlyGivenNames -merge -underBinder y1
  clear_value y1
  exact (keeps_setTe h)

theorem keeps_gstore {s : State} {a0 : State} {a1} {a2} {a3} (h : Keeps s a0) : Keeps s (State.gstore a0 a1 a2 a3) := by
  unfold State.gstore
  extract_lets +onlyGivenNames -merge -underBinder y1
  clear_value y1
  refine keeps_ctl h (fun b4_0 b4_1 b4_2 b4_3 h4_0 => ?_)
  extract_lets +onlyGivenNames -merge -underBinder y5
  clear_value y5
  extract_lets +onlyGivenNames -merge -underBinder y6
  clear_value y6
  extract_lets +onlyGivenNames -merge -underBinder y7
  clear_value y7
  extract_lets +onlyGivenNames -merge -underBinder y8
  have h8 : Keeps s y8.1 := (keeps_glanes h4_0)
  clear_value y8
  split
  · exact (keeps_accessFault h8)
  · extract_lets +onlyGivenNames -merge -underBinder y9
    have h9 : BothKeep s y9 := (keeps_releaseGate h h8)
    clear_value y9
    split
    · rename_i e10
      have h10 := h9.2 _ e10
      exact h10
    · extract_lets +onlyGivenNames -merge -underBinder y11
      clear_value y11
      extract_lets +onlyGivenNames -merge -underBinder y12
      clear_value y12
      refine Keeps.ite ?_ ?_
      · exact h
      · split
        · exact (keeps_portFault h9.1)
        · extract_lets +onlyGivenNames -merge -underBinder y13
          have h13 : Keeps s y13.1 := (keeps_storeRoom h9.1)
          clear_value y13
          split
          · exact (keeps_storeRoom h)
          · exact (keeps_failLaunch h13)
          · extract_lets +onlyGivenNames -merge -underBinder y14
            have h14 : Keeps s y14.1 := (keeps_storeTable h13)
            clear_value y14
            extract_lets +onlyGivenNames -merge -underBinder y15
            clear_value y15
            extract_lets +onlyGivenNames -merge -underBinder y16
            have h16 : Keeps s y16.1 := (keeps_storeAll h14)
            clear_value y16
            split
            · exact h
            · exact (keeps_failLaunch h16)
            · refine Keeps.ite ?_ ?_
              · exact h16
              · extract_lets +onlyGivenNames -merge -underBinder y17
                have h17 : Keeps s y17 := (keeps_ownStore h16)
                clear_value y17
                extract_lets +onlyGivenNames -merge -underBinder y18
                clear_value y18
                exact (keeps_nextPc (Keeps.foldl h17 fun _ _ h19 => (keeps_wbSector h19)))

theorem keeps_lstore {s : State} {a0 : State} {a1} {a2} {a3} (h : Keeps s a0) : Keeps s (State.lstore a0 a1 a2 a3) := by
  unfold State.lstore
  extract_lets +onlyGivenNames -merge -underBinder y1
  clear_value y1
  refine keeps_ctl h (fun b4_0 b4_1 b4_2 b4_3 h4_0 => ?_)
  extract_lets +onlyGivenNames -merge -underBinder y5
  clear_value y5
  extract_lets +onlyGivenNames -merge -underBinder y6
  clear_value y6
  split
  · exact (keeps_accessFault h4_0)
  · extract_lets +onlyGivenNames -merge -underBinder y7
    have h7 : BothKeep s y7 := (keeps_releaseGate h h4_0)
    clear_value y7
    split
    · rename_i e8
      have h8 := h7.2 _ e8
      exact h8
    · extract_lets +onlyGivenNames -merge -underBinder y9
      have h9 : Keeps s y9.1 := (keeps_storeTable h7.1)
      clear_value y9
      extract_lets +onlyGivenNames -merge -underBinder y10
      clear_value y10
      extract_lets +onlyGivenNames -merge -underBinder y11
      clear_value y11
      extract_lets +onlyGivenNames -merge -underBinder y12
      clear_value y12
      extract_lets +onlyGivenNames -merge -underBinder y13
      have h13 : Keeps s y13.1 := (Keeps.iteFst (keeps_freeBit h9) h9)
      clear_value y13
      extract_lets +onlyGivenNames -merge -underBinder y14
      clear_value y14
      extract_lets +onlyGivenNames -merge -underBinder y15
      clear_value y15
      extract_lets +onlyGivenNames -merge -underBinder y16
      have h16 : Keeps s y16 := (Keeps.foldl h13 fun _ _ h17 => (keeps_wrLs h17))
      clear_value y16
      exact (keeps_nextPc (keeps_setBlk h16))

theorem keeps_sendReduce {s : State} {a0 : State} {a1} {a2} {a3} (h : Keeps s a0) : Keeps s (State.sendReduce a0 a1 a2 a3) := by
  unfold State.sendReduce
  extract_lets +onlyGivenNames -merge -underBinder y1
  clear_value y1
  exact (Keeps.upd h)

theorem keeps_sendMopn {s : State} {a0 : State} {a1} {a2} {a3} {a4} (h : Keeps s a0) : Keeps s (State.sendMopn a0 a1 a2 a3 a4).1 := by
  unfold State.sendMopn
  exact (Keeps.iteFst (keeps_sendRemoteAtom h) (Keeps.iteFst (Keeps.pair (keeps_sendReduce h)) (Keeps.pair (keeps_sendAtom h))))

theorem keeps_gmopn {s : State} {a0 : State} {a1} {a2} {a3} (h : Keeps s a0) : Keeps s (State.gmopn a0 a1 a2 a3) := by
  unfold State.gmopn
  extract_lets +onlyGivenNames -merge -underBinder y1
  clear_value y1
  refine keeps_ctl h (fun b4_0 b4_1 b4_2 b4_3 h4_0 => ?_)
  extract_lets +onlyGivenNames -merge -underBinder y5
  clear_value y5
  extract_lets +onlyGivenNames -merge -underBinder y6
  clear_value y6
  extract_lets +onlyGivenNames -merge -underBinder y7
  have h7 : Keeps s y7.1 := (keeps_glanes h4_0)
  clear_value y7
  split
  · exact (keeps_accessFault h7)
  · extract_lets +onlyGivenNames -merge -underBinder y8
    have h8 : BothKeep s y8 := (keeps_releaseGate h h7)
    clear_value y8
    split
    · rename_i e9
      have h9 := h8.2 _ e9
      exact h9
    · extract_lets +onlyGivenNames -merge -underBinder y10
      clear_value y10
      refine Keeps.ite ?_ ?_
      · extract_lets +onlyGivenNames -merge -underBinder y11
        have h11 : Keeps s y11.1 := by
          unfold y11
          refine Keeps.foldlFst ?_ fun y14 a14 h14 => ?_
          · exact h8.1
          · refine Keeps.iteFst ?_ ?_
            · exact h14
            · extract_lets +onlyGivenNames -merge -underBinder y15
              have h15 : Keeps s y15.1 := (keeps_logOp h14)
              clear_value y15
              exact h15
        clear_value y11
        split
        · exact (keeps_accessFault h8.1)
        · exact (keeps_nextPc h11)
      · split
        · exact (keeps_portFault h8.1)
        · refine Keeps.ite ?_ ?_
          · exact h
          · extract_lets +onlyGivenNames -merge -underBinder y16
            clear_value y16
            exact (keeps_nextPc (Keeps.foldl h8.1 fun _ _ h17 => (keeps_sendMopn h17)))

theorem keeps_gmopr {s : State} {a0 : State} {a1} {a2} {a3} (h : Keeps s a0) : Keeps s (State.gmopr a0 a1 a2 a3) := by
  unfold State.gmopr
  extract_lets +onlyGivenNames -merge -underBinder y1
  clear_value y1
  refine keeps_ctl h (fun b4_0 b4_1 b4_2 b4_3 h4_0 => ?_)
  extract_lets +onlyGivenNames -merge -underBinder y5
  clear_value y5
  refine Keeps.ite ?_ ?_
  · exact (keeps_decodeFault h4_0)
  · refine Keeps.ite ?_ ?_
    · exact h
    · extract_lets +onlyGivenNames -merge -underBinder y6
      clear_value y6
      extract_lets +onlyGivenNames -merge -underBinder y7
      have h7 : Keeps s y7.1 := (keeps_glanes h4_0)
      clear_value y7
      split
      · exact (keeps_accessFault h7)
      · extract_lets +onlyGivenNames -merge -underBinder y8
        have h8 : BothKeep s y8 := (keeps_releaseGate h h7)
        clear_value y8
        split
        · rename_i e9
          have h9 := h8.2 _ e9
          exact h9
        · extract_lets +onlyGivenNames -merge -underBinder y10
          clear_value y10
          split
          · exact (keeps_portFault h8.1)
          · refine Keeps.ite ?_ ?_
            · exact h
            · extract_lets +onlyGivenNames -merge -underBinder y11
              have h11 : Keeps s y11 := by
                unfold y11
                refine Keeps.foldl ?_ fun y14 a14 h14 => ?_
                · exact h8.1
                · extract_lets +onlyGivenNames -merge -underBinder y15
                  clear_value y15
                  exact (Keeps.ite (keeps_sendRemoteAtom h14) (keeps_sendAtom h14))
              clear_value y11
              extract_lets +onlyGivenNames -merge -underBinder y16
              clear_value y16
              extract_lets +onlyGivenNames -merge -underBinder y17
              have h17 : Keeps s y17 := (Keeps.ite (keeps_acquire h11) h11)
              clear_value y17
              exact (keeps_nextPc h17)

theorem keeps_deliverLane {s : State} {a0 : State} {a1} {a2} {a3} {a4} {a5} {a6} {a7} {a8} (h : Keeps s a0) : Keeps s (State.deliverLane a0 a1 a2 a3 a4 a5 a6 a7 a8) := by
  unfold State.deliverLane
  extract_lets +onlyGivenNames -merge -underBinder y1
  clear_value y1
  split
  · refine Keeps.ite ?_ ?_
    · exact h
    · refine Keeps.ite ?_ ?_
      · exact (keeps_failLaunch h)
      · extract_lets +onlyGivenNames -merge -underBinder y2
        clear_value y2
        extract_lets +onlyGivenNames -merge -underBinder y3
        clear_value y3
        extract_lets +onlyGivenNames -merge -underBinder y4
        clear_value y4
        extract_lets +onlyGivenNames -merge -underBinder y5
        have h5 : Keeps s y5 := (keeps_setGrp h)
        clear_value y5
        exact (Keeps.ite (keeps_acquire h5) h5)
  · exact h

theorem keeps_anyOrder {s : State} {a0 : State} {a1} (h : Keeps s a0) : Keeps s (State.anyOrder a0 a1).1 := by
  unfold State.anyOrder
  extract_lets +onlyGivenNames -merge -underBinder y1
  clear_value y1
  exact (Keeps.pair (Keeps.upd h))

theorem keeps_llopr {s : State} {a0 : State} {a1} {a2} {a3} (h : Keeps s a0) : Keeps s (State.llopr a0 a1 a2 a3) := by
  unfold State.llopr
  extract_lets +onlyGivenNames -merge -underBinder y1
  clear_value y1
  refine keeps_ctl h (fun b4_0 b4_1 b4_2 b4_3 h4_0 => ?_)
  extract_lets +onlyGivenNames -merge -underBinder y5
  clear_value y5
  extract_lets +onlyGivenNames -merge -underBinder y6
  clear_value y6
  refine Keeps.ite ?_ ?_
  · exact h
  · split
    · exact (keeps_accessFault h4_0)
    · extract_lets +onlyGivenNames -merge -underBinder y7
      have h7 : BothKeep s y7 := (keeps_releaseGate h h4_0)
      clear_value y7
      split
      · rename_i e8
        have h8 := h7.2 _ e8
        exact h8
      · extract_lets +onlyGivenNames -merge -underBinder y9
        clear_value y9
        extract_lets +onlyGivenNames -merge -underBinder y10
        have h10 : Keeps s y10.1 := (keeps_anyOrder h7.1)
        clear_value y10
        extract_lets +onlyGivenNames -merge -underBinder y11
        clear_value y11
        extract_lets +onlyGivenNames -merge -underBinder y12
        have h12 : Keeps s y12.1 := by
          unfold y12
          refine Keeps.foldlFst ?_ fun y15 a15 h15 => ?_
          · exact h10
          · extract_lets +onlyGivenNames -merge -underBinder y16
            clear_value y16
            extract_lets +onlyGivenNames -merge -underBinder y17
            have h17 : Keeps s y17.1 := (keeps_loprBytes h15)
            clear_value y17
            extract_lets +onlyGivenNames -merge -underBinder y18
            clear_value y18
            extract_lets +onlyGivenNames -merge -underBinder y19
            have h19 : Keeps s y19 := (keeps_wrLs h17)
            clear_value y19
            extract_lets +onlyGivenNames -merge -underBinder y20
            have h20 : Keeps s y20 := (keeps_setBlk h19)
            clear_value y20
            exact h20
        clear_value y12
        exact (keeps_nextPc (keeps_acquire h12))

theorem keeps_gfence {s : State} {a0 : State} {a1} {a2} (h : Keeps s a0) : Keeps s (State.gfence a0 a1 a2) := by
  unfold State.gfence
  refine keeps_ctl h (fun b3_0 b3_1 b3_2 b3_3 h3_0 => ?_)
  refine Keeps.ite ?_ ?_
  · exact (keeps_nextPc h3_0)
  · extract_lets +onlyGivenNames -merge -underBinder y4
    have h4 : BothKeep s y4 := (keeps_releaseGate h h3_0)
    clear_value y4
    split
    · rename_i e5
      have h5 := h4.2 _ e5
      exact h5
    · exact (Keeps.ite h (keeps_nextPc (keeps_acquire h4.1)))

theorem keeps_effFolioNop {s : State} {a0} {a1} {a2} {a3 : State} (h : Keeps s a3) : Keeps s (effFolioNop a0 a1 a2 a3) := by
  unfold effFolioNop
  exact (keeps_ctl h (fun _ _ _ _ h1_0 => (keeps_nextPc h1_0)))

theorem keeps_effQuit {s : State} {a0} {a1} {a2} {a3 : State} (h : Keeps s a3) : Keeps s (effQuit a0 a1 a2 a3) := by
  unfold effQuit
  refine keeps_ctl h (fun b3_0 b3_1 b3_2 b3_3 h3_0 => ?_)
  extract_lets +onlyGivenNames -merge -underBinder y4
  clear_value y4
  exact (keeps_nextPc h3_0)

theorem keeps_effJump {s : State} {a0} {a1} {a2} {a3 : State} (h : Keeps s a3) : Keeps s (effJump a0 a1 a2 a3) := by
  unfold effJump
  refine keeps_ctl h (fun b3_0 b3_1 b3_2 b3_3 h3_0 => ?_)
  extract_lets +onlyGivenNames -merge -underBinder y4
  clear_value y4
  exact (Keeps.ite (keeps_instrFault h3_0) (keeps_putGrp h3_0))

theorem keeps_effCall {s : State} {a0} {a1} {a2} {a3 : State} (h : Keeps s a3) : Keeps s (effCall a0 a1 a2 a3) := by
  unfold effCall
  exact (keeps_ctl h (fun _ _ _ _ h1_0 => (Keeps.ite (keeps_instrFault h1_0) (keeps_putGrp h1_0))))

theorem keeps_effRet {s : State} {a0} {a1} {a2} {a3 : State} (h : Keeps s a3) : Keeps s (effRet a0 a1 a2 a3) := by
  unfold effRet
  refine keeps_ctl h (fun b3_0 b3_1 b3_2 b3_3 h3_0 => ?_)
  split
  · exact (keeps_instrFault h3_0)
  · exact (Keeps.ite (keeps_instrFault h3_0) (keeps_putGrp h3_0))

theorem keeps_effSpecr {s : State} {a0} {a1} {a2} {a3 : State} (h : Keeps s a3) : Keeps s (effSpecr a0 a1 a2 a3) := by
  unfold effSpecr
  refine keeps_ctl h (fun b3_0 b3_1 b3_2 b3_3 h3_0 => ?_)
  refine Keeps.ite ?_ ?_
  · refine Keeps.ite ?_ ?_
    · extract_lets +onlyGivenNames -merge -underBinder y4
      clear_value y4
      exact (keeps_nextPc h3_0)
    · exact (keeps_nextPc h3_0)
  · exact (keeps_nextPc h3_0)

theorem keeps_effCinv {s : State} {a0} {a1} {a2} {a3 : State} (h : Keeps s a3) : Keeps s (effCinv a0 a1 a2 a3) := by
  unfold effCinv
  exact (keeps_ctl h (fun _ _ _ _ h1_0 => (keeps_nextPc (Keeps.ite h1_0 (keeps_setTe h1_0)))))

theorem keeps_effMeet {s : State} {a0} {a1} {a2} {a3 : State} (h : Keeps s a3) : Keeps s (effMeet a0 a1 a2 a3) := by
  unfold effMeet
  refine keeps_ctl h (fun b3_0 b3_1 b3_2 b3_3 h3_0 => ?_)
  extract_lets +onlyGivenNames -merge -underBinder y4
  clear_value y4
  refine Keeps.ite ?_ ?_
  · exact (keeps_nextPc h3_0)
  · extract_lets +onlyGivenNames -merge -underBinder y5
    have h5 : Keeps s y5 := (keeps_lsDone (keeps_flushLaunch h3_0))
    clear_value y5
    exact (Keeps.ite h5 (keeps_nextPc h5))

theorem keeps_effTally {s : State} {a0} {a1} {a2} {a3 : State} (h : Keeps s a3) : Keeps s (effTally a0 a1 a2 a3) := by
  unfold effTally
  refine keeps_ctl h (fun b3_0 b3_1 b3_2 b3_3 h3_0 => ?_)
  extract_lets +onlyGivenNames -merge -underBinder y4
  have h4 : Keeps s y4 := (keeps_nextPc h3_0)
  clear_value y4
  exact (Keeps.ite h4 (keeps_raiseCtr (keeps_lsDone h4)))

theorem keeps_effWaitc {s : State} {a0} {a1} {a2} {a3 : State} (h : Keeps s a3) : Keeps s (effWaitc a0 a1 a2 a3) := by
  unfold effWaitc
  refine keeps_ctl h (fun b3_0 b3_1 b3_2 b3_3 h3_0 => ?_)
  extract_lets +onlyGivenNames -merge -underBinder y4
  clear_value y4
  exact (Keeps.ite (keeps_nextPc h3_0) (keeps_setGrp h3_0))

theorem keeps_effRdc {s : State} {a0} {a1} {a2} {a3 : State} (h : Keeps s a3) : Keeps s (effRdc a0 a1 a2 a3) := by
  unfold effRdc
  exact (keeps_ctl h (fun _ _ _ _ h1_0 => (keeps_nextPc h1_0)))

theorem keeps_issueCopy {s : State} {a0 : State} {a1} {a2} {a3} {a4} (h : Keeps s a0) : Keeps s (State.issueCopy a0 a1 a2 a3 a4).1 := by
  unfold State.issueCopy
  refine Keeps.foldlFst ?_ fun y2 a2 h2 => ?_
  · exact h
  · refine Keeps.iteFst ?_ ?_
    · exact h2
    · extract_lets +onlyGivenNames -merge -underBinder y3
      have h3 : Keeps s y3.1 := (keeps_gpieces h2)
      clear_value y3
      exact h3

theorem keeps_effCpy {s : State} {a0} {a1} {a2} {a3 : State} (h : Keeps s a3) : Keeps s (effCpy a0 a1 a2 a3) := by
  unfold effCpy
  refine keeps_ctl h (fun b3_0 b3_1 b3_2 b3_3 h3_0 => ?_)
  refine Keeps.ite ?_ ?_
  · exact (keeps_nextPc h3_0)
  · extract_lets +onlyGivenNames -merge -underBinder y4
    clear_value y4
    refine Keeps.ite ?_ ?_
    · exact (keeps_instrFault h3_0)
    · refine Keeps.ite ?_ ?_
      · exact (keeps_raiseCtr (keeps_nextPc h3_0))
      · split
        · exact (keeps_instrFault h3_0)
        · refine Keeps.ite ?_ ?_
          · exact h
          · extract_lets +onlyGivenNames -merge -underBinder y5
            have h5 : Keeps s y5.1 := (keeps_issueCopy h3_0)
            clear_value y5
            exact (keeps_nextPc (keeps_setBlk h5))

theorem keeps_asyncRow {s : State} {a0 : State} {a1} {a2} {a3} {a4} (h : Keeps s a0) : Keeps s (State.asyncRow a0 a1 a2 a3 a4).1 := by
  unfold State.asyncRow
  refine Keeps.foldlFst ?_ fun y2 a2 h2 => ?_
  · exact h
  · split
    · exact h2
    · refine Keeps.iteFst ?_ ?_
      · extract_lets +onlyGivenNames -merge -underBinder y3
        have h3 : Keeps s y3.1 := (keeps_lsBytes h2)
        clear_value y3
        exact h3
      · extract_lets +onlyGivenNames -merge -underBinder y4
        have h4 : Keeps s y4.1 := (keeps_readPa h2)
        clear_value y4
        split
        · refine Keeps.iteFst ?_ ?_
          · exact h4
          · extract_lets +onlyGivenNames -merge -underBinder y5
            have h5 : Keeps s y5.1 := (keeps_pickTime h4)
            clear_value y5
            exact h5
        · exact h4
        · exact h4

theorem keeps_asyncPut {s : State} {a0 : State} {a1} {a2} {a3} {a4} (h : Keeps s a0) : Keeps s (State.asyncPut a0 a1 a2 a3 a4) := by
  unfold State.asyncPut
  refine Keeps.foldl ?_ fun y2 a2 h2 => ?_
  · exact h
  · extract_lets +onlyGivenNames -merge -underBinder y3
    clear_value y3
    refine Keeps.ite ?_ ?_
    · extract_lets +onlyGivenNames -merge -underBinder y4
      have h4 : Keeps s y4.1 := (keeps_freeBit h2)
      clear_value y4
      exact (Keeps.ite h4 (keeps_wrLs h4))
    · exact (keeps_wrLs h2)

theorem keeps_asyncAll_aux {s : State} : ∀ a0 a1 a2 a3 a4 a5 a6, Keeps s a0 → Keeps s (State.asyncAll a0 a1 a2 a3 a4 a5 a6).1
  | x0, x1, x2, x3, x4, [], x5, h => by
    rw [State.asyncAll]
    exact h
  | x0, x1, x2, x3, x4, x6 :: x7, x5, h => by
    rw [State.asyncAll]
    split
    · exact (Keeps.pair (keeps_asyncRow h))
    · exact (keeps_asyncAll_aux _ _ _ _ _ _ _ (keeps_asyncPut (keeps_asyncRow h)))

theorem keeps_asyncAll {s : State} {a0 : State} {a1} {a2} {a3} {a4} {a5} {a6} (h : Keeps s a0) : Keeps s (State.asyncAll a0 a1 a2 a3 a4 a5 a6).1 := keeps_asyncAll_aux a0 a1 a2 a3 a4 a5 a6 h

theorem keeps_effCopyComplete {s : State} {a0} {a1} {a2} {a3 : State} (h : Keeps s a3) : Keeps s (effCopyComplete a0 a1 a2 a3) := by
  unfold effCopyComplete
  split
  · split
    · exact h
    · extract_lets +onlyGivenNames -merge -underBinder y1
      clear_value y1
      extract_lets +onlyGivenNames -merge -underBinder y2
      clear_value y2
      extract_lets +onlyGivenNames -merge -underBinder y3
      have h3 : Keeps s y3.1 := (keeps_fetchMissing h)
      clear_value y3
      refine Keeps.ite ?_ ?_
      · exact h
      · refine Keeps.ite ?_ ?_
        · exact h3
        · extract_lets +onlyGivenNames -merge -underBinder y4
          have h4 : Keeps s y4.1 := (keeps_asyncAll h)
          clear_value y4
          split
          · exact h
          · exact (Keeps.ite (keeps_threadFault h4) (keeps_failLaunch h4))
          · exact (keeps_raiseCtr (keeps_setBlk h4))
  · exact h

end Sys2Proof.Machine
end

