-- ==== Sys2Proof/Laws/KeepsLinks.lean ====
section
/-!
SUPPORT. That each operation of these keeps what `Keeps` says (Laws/Keeps.lean), one lemma for each:
releases, hosts and the fabric, the loss of homes, sites and ring dies, and the incident log.
-/

namespace Sys2Proof.Machine

theorem keeps_invalidate {s : State} {a0 : State} {a1} (h : Keeps s a0) : Keeps s (State.invalidate a0 a1).1 := by
  unfold State.invalidate
  extract_lets +onlyGivenNames -merge -underBinder y1
  clear_value y1
  extract_lets +onlyGivenNames -merge -underBinder y2
  have h2 : Keeps s y2 := (Keeps.upd h)
  clear_value y2
  extract_lets +onlyGivenNames -merge -underBinder y3
  have h3 : Keeps s y3 := by
    unfold y3
    refine Keeps.foldl ?_ fun y6 a6 h6 => ?_
    · exact h2
    · split
      · exact (keeps_refreshQ (keeps_requeue (keeps_killRun h6)))
      · exact h6
  clear_value y3
  exact h3

theorem keeps_tlbi {s : State} {a0 : State} {a1} {a2} (h : Keeps s a0) : Keeps s (State.tlbi a0 a1 a2) := by
  unfold State.tlbi
  refine Keeps.ite ?_ ?_
  · exact h
  · extract_lets +onlyGivenNames -merge -underBinder y1
    have h1 : Keeps s y1.1 := (keeps_invalidate h)
    clear_value y1
    extract_lets +onlyGivenNames -merge -underBinder y2
    have h2 : Keeps s y2 := (keeps_bump h1)
    clear_value y2
    exact (keeps_setPart h2)

theorem keeps_effTlbiRange {s : State} {a0} {a1} {a2 : State} (h : Keeps s a2) : Keeps s (effTlbiRange a0 a1 a2) := by
  unfold effTlbiRange
  extract_lets +onlyGivenNames -merge -underBinder y1
  clear_value y1
  exact (keeps_tlbi h)

theorem keeps_effTlbiContext {s : State} {a0} {a1} {a2 : State} (h : Keeps s a2) : Keeps s (effTlbiContext a0 a1 a2) := by
  unfold effTlbiContext
  exact (keeps_tlbi h)

theorem keeps_effTlbiPartition {s : State} {a0} {a1 : State} (h : Keeps s a1) : Keeps s (effTlbiPartition a0 a1) := by
  unfold effTlbiPartition
  exact (keeps_tlbi h)

theorem keeps_effTlbiComplete {s : State} {a0} {a1 : State} (h : Keeps s a1) : Keeps s (effTlbiComplete a0 a1) := by
  unfold effTlbiComplete
  split
  · exact h
  · exact (Keeps.ite h (keeps_bump (keeps_setPart h)))

theorem keeps_effCoreCtxBaseWrite {s : State} {a0} {a1} {a2 : State} (h : Keeps s a2) : Keeps s (effCoreCtxBaseWrite a0 a1 a2) := by
  unfold effCoreCtxBaseWrite
  exact (Keeps.ite h (keeps_setFld h))

theorem keeps_releaseFailed {s : State} {a0 : State} {a1} (h : Keeps s a0) : Keeps s (State.releaseFailed a0 a1) := by
  unfold State.releaseFailed
  split
  · exact (Keeps.ite (keeps_failLaunch h) h)
  · exact (Keeps.upd h)

theorem keeps_badSector {s : State} {a0 : State} {a1} {a2} {a3} (h : Keeps s a0) : Keeps s (State.badSector a0 a1 a2 a3) := by
  unfold State.badSector
  exact (Keeps.withArc h fun _ ha => ha)

theorem keeps_fillSector {s : State} {a0 : State} {a1} {a2} {a3} {a4} {a5} (h : Keeps s a0) : Keeps s (State.fillSector a0 a1 a2 a3 a4 a5) := by
  unfold State.fillSector
  extract_lets +onlyGivenNames -merge -underBinder y1
  clear_value y1
  extract_lets +onlyGivenNames -merge -underBinder y2
  clear_value y2
  refine Keeps.ite ?_ ?_
  · exact h
  · extract_lets +onlyGivenNames -merge -underBinder y3
    have h3 : Keeps s y3 := by
      unfold y3
      split
      · exact (Keeps.withArc h fun _ ha => ha)
      · exact (keeps_allocLine h)
    clear_value y3
    extract_lets +onlyGivenNames -merge -underBinder y4
    clear_value y4
    exact (Keeps.withArc h3 fun _ ha => (Archive.fillOut_wf _ _ _ _ _ ha))

theorem keeps_hostOk {s : State} {a0 : State} {a1} {a2} (h : Keeps s a0) : Keeps s (State.hostOk a0 a1 a2) := by
  unfold State.hostOk
  split
  · exact (keeps_fillSector h)
  · exact (keeps_recordAck h)
  · exact h

theorem keeps_hostFail {s : State} {a0 : State} {a1} (h : Keeps s a0) : Keeps s (State.hostFail a0 a1) := by
  unfold State.hostFail
  split
  · exact (keeps_badSector h)
  · exact (keeps_recordFail h)
  · exact h
  · exact (keeps_evictLost h)
  · exact (keeps_releaseFailed h)

theorem keeps_dropPend {s : State} {a0 : State} {a1} (h : Keeps s a0) : Keeps s (State.dropPend a0 a1) := by
  unfold State.dropPend
  exact (Keeps.upd h)

theorem keeps_unroute {s : State} {a0 : State} {a1} (h : Keeps s a0) : Keeps s (State.unroute a0 a1) := by
  unfold State.unroute
  exact (Keeps.foldl h fun _ _ h1 => (keeps_setBit h1))

theorem keeps_portDown {s : State} {a0 : State} {a1} {a2} (h : Keeps s a0) : Keeps s (State.portDown a0 a1 a2) := by
  unfold State.portDown
  refine Keeps.ite ?_ ?_
  · exact h
  · extract_lets +onlyGivenNames -merge -underBinder y1
    clear_value y1
    extract_lets +onlyGivenNames -merge -underBinder y2
    have h2 : Keeps s y2 := (keeps_setFld (keeps_setBit h))
    clear_value y2
    extract_lets +onlyGivenNames -merge -underBinder y3
    clear_value y3
    extract_lets +onlyGivenNames -merge -underBinder y4
    have h4 : Keeps s y4 := (Keeps.ite h2 (keeps_report h2))
    clear_value y4
    refine Keeps.ite ?_ ?_
    · exact (keeps_unroute h4)
    · extract_lets +onlyGivenNames -merge -underBinder y5
      clear_value y5
      exact (Keeps.foldl h4 fun _ _ h6 => (keeps_hostFail (keeps_dropPend h6)))

theorem keeps_refused {s : State} {a0 : State} {a1} (h : Keeps s a0) : Keeps s (State.refused a0 a1) := by
  unfold State.refused
  exact (keeps_sat h)

theorem keeps_cplSend {s : State} {a0 : State} {a1} {a2} {a3} {a4} (h : Keeps s a0) : Keeps s (State.cplSend a0 a1 a2 a3 a4) := by
  unfold State.cplSend
  exact (Keeps.upd h)

theorem keeps_effCpl {s : State} {a0} {a1} {a2} {a3 : State} (h : Keeps s a3) : Keeps s (effCpl a0 a1 a2 a3) := by
  unfold effCpl
  refine Keeps.ite ?_ ?_
  · exact (keeps_refused h)
  · split
    · exact h
    · exact (Keeps.ite (keeps_hostOk (keeps_dropPend h)) (keeps_hostFail (keeps_dropPend h)))

theorem keeps_effHostAccessTimeout {s : State} {a0} {a1} {a2 : State} (h : Keeps s a2) : Keeps s (effHostAccessTimeout a0 a1 a2) := by
  unfold effHostAccessTimeout
  split
  · exact h
  · exact (keeps_hostFail (keeps_dropPend h))

theorem keeps_effMsg {s : State} {a0} {a1 : State} (h : Keeps s a1) : Keeps s (effMsg a0 a1) := by
  unfold effMsg
  exact (keeps_refused h)

theorem keeps_winCount {s : State} {a0 : State} {a1} (h : Keeps s a0) : Keeps s (State.winCount a0 a1) := by
  unfold State.winCount
  split
  · exact (keeps_sat h)
  · exact (keeps_sat h)
  · exact h

theorem keeps_winRead {s : State} {a0 : State} {a1} {a2} {a3} {a4} (h : Keeps s a0) : Keeps s (State.winRead a0 a1 a2 a3 a4).1 := by
  unfold State.winRead
  split
  · exact h
  · exact h
  · exact (Keeps.pair (keeps_winCount h))

theorem keeps_winWrite {s : State} {a0 : State} {a1} {a2} {a3} {a4} {a5} (h : Keeps s a0) : Keeps s (State.winWrite a0 a1 a2 a3 a4 a5).1 := by
  unfold State.winWrite
  split
  · exact h
  · exact (Keeps.pair (Keeps.foldl h fun _ _ h1 => (keeps_wrLs h1)))
  · exact (Keeps.pair (keeps_winCount h))

theorem keeps_effWindowRequest {s : State} {a0} {a1 : State} (h : Keeps s a1) : Keeps s (effWindowRequest a0 a1) := by
  unfold effWindowRequest
  split
  · extract_lets +onlyGivenNames -merge -underBinder y1
    clear_value y1
    refine Keeps.ite ?_ ?_
    · extract_lets +onlyGivenNames -merge -underBinder y2
      have h2 : Keeps s y2.1 := (keeps_winWrite h)
      clear_value y2
      exact (Keeps.ite h2 (keeps_refused h2))
    · extract_lets +onlyGivenNames -merge -underBinder y3
      have h3 : Keeps s y3.1 := (keeps_winRead h)
      clear_value y3
      split
      · exact (keeps_cplSend h3)
      · exact (keeps_cplSend (keeps_refused h3))
  · split
    · exact (Keeps.ite (keeps_wrLs h) h)
    · split
      · exact (keeps_fail h)
      · exact h

theorem keeps_dropDev {s : State} {a0 : State} {a1} (h : Keeps s a0) : Keeps s (State.dropDev a0 a1) := by
  unfold State.dropDev
  exact (keeps_sat h)

theorem keeps_dropAdmit {s : State} {a0 : State} {a1} (h : Keeps s a0) : Keeps s (State.dropAdmit a0 a1) := by
  unfold State.dropAdmit
  exact (keeps_sat h)

theorem keeps_nTake {s : State} {a0 : State} {a1} {a2} {a3} {a4} {a5} (h : Keeps s a0) (hk1 : ∀ b0, Keeps s (a5 b0)) : Keeps s (State.nTake a0 a1 a2 a3 a4 a5) := by
  unfold State.nTake
  exact (Keeps.ite (keeps_dropDev h) (Keeps.ite (keeps_dropDev h) (hk1 _)))

theorem keeps_setRecv {s : State} {a0 : State} {a1} {a2} (h : Keeps s a0) : Keeps s (State.setRecv a0 a1 a2) := by
  unfold State.setRecv
  exact (Keeps.upd h)

theorem keeps_sendAck {s : State} {a0 : State} {a1} {a2} {a3} (h : Keeps s a0) : Keeps s (State.sendAck a0 a1 a2 a3) := by
  unfold State.sendAck
  split
  · exact h
  · extract_lets +onlyGivenNames -merge -underBinder y1
    have h1 : Keeps s y1 := (keeps_setRecv h)
    clear_value y1
    exact (keeps_nSend h1)

theorem keeps_nSeq {s : State} {a0 : State} {a1} {a2} {a3} (h : Keeps s a0) (hk1 : ∀ b0 b1, Keeps s b0 → Keeps s (a3 b0 b1)) : Keeps s (State.nSeq a0 a1 a2 a3) := by
  unfold State.nSeq
  extract_lets +onlyGivenNames -merge -underBinder y1
  clear_value y1
  extract_lets +onlyGivenNames -merge -underBinder y2
  clear_value y2
  split
  · exact h
  · refine Keeps.ite ?_ ?_
    · exact h
    · refine Keeps.ite ?_ ?_
      · extract_lets +onlyGivenNames -merge -underBinder y3
        clear_value y3
        extract_lets +onlyGivenNames -merge -underBinder y4
        have h4 : Keeps s y4 := (keeps_setRecv h)
        clear_value y4
        extract_lets +onlyGivenNames -merge -underBinder y5
        have h5 : Keeps s y5 := (Keeps.ite (keeps_sendAck h4) h4)
        clear_value y5
        exact (hk1 _ _ h5)
      · exact (Keeps.ite (keeps_sendAck h) h)

theorem keeps_flowFreed {s : State} {a0 : State} {a1} (h : Keeps s a0) : Keeps s (State.flowFreed a0 a1) := by
  unfold State.flowFreed
  extract_lets +onlyGivenNames -merge -underBinder y1
  clear_value y1
  extract_lets +onlyGivenNames -merge -underBinder y2
  clear_value y2
  extract_lets +onlyGivenNames -merge -underBinder y3
  have h3 : Keeps s y3 := (Keeps.upd h)
  clear_value y3
  exact (Keeps.foldl h3 fun _ _ h4 => (keeps_flowGive h4))

theorem keeps_modOp {s : State} {a0 : State} {a1} {a2} {a3} {a4} (h : Keeps s a0) : Keeps s (State.modOp a0 a1 a2 a3 a4) := by
  unfold State.modOp
  exact (Keeps.upd h)

theorem keeps_logAnswered {s : State} {a0 : State} {a1} {a2} (h : Keeps s a0) : Keeps s (State.logAnswered a0 a1 a2) := by
  unfold State.logAnswered
  split
  · exact (Keeps.ite (keeps_commitCheck (keeps_setRun h)) h)
  · exact h

theorem keeps_failRunLaunch {s : State} {a0 : State} {a1} {a2} (h : Keeps s a0) : Keeps s (State.failRunLaunch a0 a1 a2) := by
  unfold State.failRunLaunch
  split
  · split
    · exact (Keeps.ite (keeps_failLaunch h) h)
    · exact h
  · exact h

theorem keeps_flowReport {s : State} {a0 : State} {a1} {a2} {a3} {a4} {a5} {a6} (h : Keeps s a0) : Keeps s (State.flowReport a0 a1 a2 a3 a4 a5 a6) := by
  unfold State.flowReport
  exact (keeps_report h)

theorem keeps_endGet {s : State} {a0 : State} {a1} {a2} {a3} {a4} {a5} {a6} (h : Keeps s a0) : Keeps s (State.endGet a0 a1 a2 a3 a4 a5 a6) := by
  unfold State.endGet
  split
  · exact h
  · extract_lets +onlyGivenNames -merge -underBinder y1
    clear_value y1
    extract_lets +onlyGivenNames -merge -underBinder y2
    have h2 : Keeps s y2 := (Keeps.upd h)
    clear_value y2
    refine Keeps.ite ?_ ?_
    · exact h2
    · extract_lets +onlyGivenNames -merge -underBinder y3
      have h3 : Keeps s y3 := (Keeps.foldl h2 fun _ _ h4 => (keeps_poisonSector h4))
      clear_value y3
      exact (keeps_modOp h3)

theorem keeps_requestLost {s : State} {a0 : State} {a1} (h : Keeps s a0) : Keeps s (State.requestLost a0 a1) := by
  unfold State.requestLost
  split
  · exact (keeps_badSector h)
  · exact (keeps_deliverLane h)
  · exact (keeps_releaseFailed h)
  · exact (keeps_evictLost h)
  · split
    · exact (keeps_partFatalize h)
    · exact h
  · exact (keeps_modOp h)
  · exact (keeps_modOp h)
  · exact (keeps_endGet h)
  · exact h

theorem keeps_answerUse {s : State} {a0 : State} {a1} {a2} {a3} (h : Keeps s a0) : Keeps s (State.answerUse a0 a1 a2 a3) := by
  unfold State.answerUse
  extract_lets +onlyGivenNames -merge -underBinder y1
  clear_value y1
  split
  · exact (Keeps.ite (keeps_fillSector h) (keeps_badSector h))
  · exact (keeps_deliverLane h)
  · exact (Keeps.ite h (Keeps.ite (keeps_failRunLaunch h) (keeps_modRun h)))
  · exact (keeps_logAnswered h)
  · refine Keeps.ite ?_ ?_
    · exact h
    · refine Keeps.ite ?_ ?_
      · split
        · exact (Keeps.ite (keeps_failLaunch h) h)
        · exact (Keeps.upd h)
      · exact (keeps_releaseFailed h)
  · exact (Keeps.ite h (keeps_evictLost h))
  · exact (keeps_modOp h)
  · exact (keeps_modOp h)
  · exact h

theorem keeps_takeAnswer {s : State} {a0 : State} {a1} {a2} {a3} (h : Keeps s a0) (hk1 : ∀ b0 b1, Keeps s b0 → Keeps s (a3 b0 b1)) : Keeps s (State.takeAnswer a0 a1 a2 a3) := by
  unfold State.takeAnswer
  split
  · exact (hk1 _ _ (Keeps.upd h))
  · split
    · exact (hk1 _ _ (keeps_setFlow h))
    · exact h

theorem keeps_effOpenFlow {s : State} {a0} {a1} {a2} {a3} {a4 : State} (h : Keeps s a4) : Keeps s (effOpenFlow a0 a1 a2 a3 a4) := by
  unfold effOpenFlow
  refine keeps_nTake h (fun b3_0 => ?_)
  extract_lets +onlyGivenNames -merge -underBinder y4
  clear_value y4
  extract_lets +onlyGivenNames -merge -underBinder y5
  have h5 : ∀ b5_0, Keeps s b5_0 → Keeps s (y5 b5_0) := by
    intro b5_0 g5_0
    unfold y5
    exact (keeps_nSend g5_0)
  clear_value y5
  split
  · extract_lets +onlyGivenNames -merge -underBinder y6
    clear_value y6
    exact (Keeps.ite h (Keeps.ite (h5 _ h) (h5 _ (keeps_setRecv h))))
  · exact (Keeps.ite h (h5 _ (keeps_setRecv h)))

theorem keeps_effOpenAck {s : State} {a0} {a1} {a2} {a3} {a4 : State} (h : Keeps s a4) : Keeps s (effOpenAck a0 a1 a2 a3 a4) := by
  unfold effOpenAck
  refine keeps_nTake h (fun b3_0 => ?_)
  split
  · refine Keeps.ite ?_ ?_
    · extract_lets +onlyGivenNames -merge -underBinder y4
      have h4 : Keeps s y4 := (keeps_setFlow h)
      clear_value y4
      refine Keeps.foldl ?_ fun y6 a6 h6 => ?_
      · exact h4
      · split
        · exact (keeps_flowPush h6)
        · exact h6
    · exact h
  · exact h

theorem keeps_effAck {s : State} {a0} {a1} {a2} {a3} {a4 : State} (h : Keeps s a4) : Keeps s (effAck a0 a1 a2 a3 a4) := by
  unfold effAck
  refine keeps_nTake h (fun b3_0 => ?_)
  split
  · exact (Keeps.ite (keeps_setFlow h) h)
  · exact h

theorem keeps_effClose {s : State} {a0} {a1} {a2} {a3} {a4 : State} (h : Keeps s a4) : Keeps s (effClose a0 a1 a2 a3 a4) := by
  unfold effClose
  refine keeps_nTake h (fun b3_0 => ?_)
  extract_lets +onlyGivenNames -merge -underBinder y4
  clear_value y4
  split
  · exact (Keeps.ite (keeps_setRecv h) h)
  · exact h

theorem keeps_effRetransmitTimer {s : State} {a0} {a1} {a2 : State} (h : Keeps s a2) : Keeps s (effRetransmitTimer a0 a1 a2) := by
  unfold effRetransmitTimer
  split
  · exact h
  · refine Keeps.ite ?_ ?_
    · exact (keeps_nSend (keeps_sat h))
    · refine Keeps.ite ?_ ?_
      · exact h
      · extract_lets +onlyGivenNames -merge -underBinder y1
        have h1 : Keeps s y1 := (keeps_sat h)
        clear_value y1
        exact (Keeps.foldl h1 fun _ _ h2 => (keeps_nOut h2))

theorem keeps_effFlowGiveup {s : State} {a0} {a1} {a2 : State} (h : Keeps s a2) : Keeps s (effFlowGiveup a0 a1 a2) := by
  unfold effFlowGiveup
  split
  · exact h
  · refine Keeps.ite ?_ ?_
    · exact h
    · extract_lets +onlyGivenNames -merge -underBinder y1
      clear_value y1
      extract_lets +onlyGivenNames -merge -underBinder y2
      have h2 : Keeps s y2 := (keeps_sat (keeps_closeFlow h))
      clear_value y2
      extract_lets +onlyGivenNames -merge -underBinder y3
      clear_value y3
      extract_lets +onlyGivenNames -merge -underBinder y4
      clear_value y4
      extract_lets +onlyGivenNames -merge -underBinder y5
      have h5 : Keeps s y5 := (keeps_flowReport h2)
      clear_value y5
      exact (keeps_flowFreed (Keeps.foldl h5 fun _ _ h6 => (keeps_requestLost h6)))

theorem keeps_effAckDelayExpiry {s : State} {a0} {a1} {a2} {a3 : State} (h : Keeps s a3) : Keeps s (effAckDelayExpiry a0 a1 a2 a3) := by
  unfold effAckDelayExpiry
  split
  · exact (Keeps.ite h (keeps_sendAck h))
  · exact h

theorem keeps_effFlowIdleExpiry {s : State} {a0} {a1} {a2 : State} (h : Keeps s a2) : Keeps s (effFlowIdleExpiry a0 a1 a2) := by
  unfold effFlowIdleExpiry
  split
  · refine Keeps.ite ?_ ?_
    · extract_lets +onlyGivenNames -merge -underBinder y1
      have h1 : Keeps s y1 := (keeps_nSend h)
      clear_value y1
      exact (keeps_flowFreed (keeps_closeFlow h1))
    · exact h
  · exact h

theorem keeps_nAnswer {s : State} {a0 : State} {a1} {a2} {a3} {a4} (h : Keeps s a0) : Keeps s (State.nAnswer a0 a1 a2 a3 a4) := by
  unfold State.nAnswer
  exact (keeps_fabAnswer h)

theorem keeps_nRefuse {s : State} {a0 : State} {a1} {a2} {a3} {a4} (h : Keeps s a0) : Keeps s (State.nRefuse a0 a1 a2 a3 a4) := by
  unfold State.nRefuse
  exact (keeps_nAnswer (Keeps.ite (keeps_dropAdmit h) h))

theorem keeps_effRd {s : State} {a0} {a1} {a2} {a3} {a4 : State} (h : Keeps s a4) : Keeps s (effRd a0 a1 a2 a3 a4) := by
  unfold effRd
  refine keeps_nTake h (fun b5_0 => ?_)
  refine keeps_nSeq h (fun b8_0 b8_1 h8_0 => ?_)
  extract_lets +onlyGivenNames -merge -underBinder y9
  clear_value y9
  refine Keeps.ite ?_ ?_
  · exact (keeps_nRefuse h8_0)
  · extract_lets +onlyGivenNames -merge -underBinder y10
    clear_value y10
    extract_lets +onlyGivenNames -merge -underBinder y11
    have h11 : Keeps s y11 := (Keeps.foldl h8_0 fun _ _ h12 => (keeps_homeServe h12))
    clear_value y11
    extract_lets +onlyGivenNames -merge -underBinder y13
    have h13 : Keeps s y13.1 := by
      unfold y13
      refine Keeps.foldlFst ?_ fun y16 a16 h16 => ?_
      · exact h11
      · split
        · exact h16
        · exact (keeps_poisonRead h16)
    clear_value y13
    split
    · exact (keeps_nAnswer h13)
    · exact (keeps_nAnswer h13)

theorem keeps_effWr {s : State} {a0} {a1} {a2} {a3} {a4 : State} (h : Keeps s a4) : Keeps s (effWr a0 a1 a2 a3 a4) := by
  unfold effWr
  refine keeps_nTake h (fun b5_0 => ?_)
  refine keeps_nSeq h (fun b8_0 b8_1 h8_0 => ?_)
  extract_lets +onlyGivenNames -merge -underBinder y9
  clear_value y9
  extract_lets +onlyGivenNames -merge -underBinder y10
  clear_value y10
  refine Keeps.ite ?_ ?_
  · exact (keeps_nRefuse h8_0)
  · extract_lets +onlyGivenNames -merge -underBinder y11
    clear_value y11
    exact (Keeps.ite (keeps_nAnswer h8_0) (keeps_homeWrite h8_0))

theorem keeps_effAtOp {s : State} {a0} {a1} {a2} {a3} {a4 : State} (h : Keeps s a4) : Keeps s (effAtOp a0 a1 a2 a3 a4) := by
  unfold effAtOp
  refine keeps_nTake h (fun b5_0 => ?_)
  refine keeps_nSeq h (fun b8_0 b8_1 h8_0 => ?_)
  extract_lets +onlyGivenNames -merge -underBinder y9
  clear_value y9
  extract_lets +onlyGivenNames -merge -underBinder y10
  clear_value y10
  exact (Keeps.ite (keeps_nRefuse h8_0) (keeps_homeMsg h8_0))

theorem keeps_effAtomRsp {s : State} {a0} {a1 : State} (h : Keeps s a1) : Keeps s (effAtomRsp a0 a1) := by
  unfold effAtomRsp
  refine keeps_onArrival h (fun b3_0 h3_0 => ?_)
  split
  · exact (keeps_deliverLane h3_0)
  · exact (Keeps.ite h3_0 (keeps_modRun h3_0))
  · exact (keeps_fabAnswer h3_0)
  · exact (keeps_modOp h3_0)
  · exact h3_0
  · exact h3_0

theorem keeps_effRdRsp {s : State} {a0} {a1} {a2} {a3} {a4 : State} (h : Keeps s a4) : Keeps s (effRdRsp a0 a1 a2 a3 a4) := by
  unfold effRdRsp
  exact (keeps_nTake h (fun _ => (keeps_nSeq h (fun _ _ h2_0 => (keeps_takeAnswer h2_0 (fun _ _ h3_0 => (keeps_answerUse h3_0)))))))

theorem keeps_effWrDone {s : State} {a0} {a1} {a2} {a3} {a4 : State} (h : Keeps s a4) : Keeps s (effWrDone a0 a1 a2 a3 a4) := by
  unfold effWrDone
  exact (keeps_nTake h (fun _ => (keeps_nSeq h (fun _ _ h2_0 => (keeps_takeAnswer h2_0 (fun _ _ h3_0 => (keeps_answerUse h3_0)))))))

theorem keeps_effAtRsp {s : State} {a0} {a1} {a2} {a3} {a4 : State} (h : Keeps s a4) : Keeps s (effAtRsp a0 a1 a2 a3 a4) := by
  unfold effAtRsp
  exact (keeps_nTake h (fun _ => (keeps_nSeq h (fun _ _ h2_0 => (keeps_takeAnswer h2_0 (fun _ _ h3_0 => (keeps_answerUse h3_0)))))))

theorem keeps_effObjGet {s : State} {a0} {a1} {a2} {a3} {a4 : State} (h : Keeps s a4) : Keeps s (effObjGet a0 a1 a2 a3 a4) := by
  unfold effObjGet
  exact (keeps_nTake h (fun _ => (keeps_nSeq h (fun _ _ h2_0 => (keeps_fabAnswer h2_0)))))

theorem keeps_effObjPut {s : State} {a0} {a1} {a2} {a3} {a4 : State} (h : Keeps s a4) : Keeps s (effObjPut a0 a1 a2 a3 a4) := by
  unfold effObjPut
  exact (keeps_nTake h (fun _ => (keeps_nSeq h (fun _ _ h2_0 => (keeps_fabAnswer h2_0)))))

theorem keeps_effObjData {s : State} {a0} {a1} {a2} {a3} {a4 : State} (h : Keeps s a4) : Keeps s (effObjData a0 a1 a2 a3 a4) := by
  unfold effObjData
  refine keeps_nTake h (fun b5_0 => ?_)
  refine keeps_nSeq h (fun b8_0 b8_1 h8_0 => ?_)
  split
  · exact (keeps_dropAdmit h8_0)
  · refine Keeps.ite ?_ ?_
    · exact (keeps_dropAdmit h8_0)
    · extract_lets +onlyGivenNames -merge -underBinder y9
      clear_value y9
      extract_lets +onlyGivenNames -merge -underBinder y10
      have h10 : Keeps s y10 := (Keeps.upd h8_0)
      clear_value y10
      extract_lets +onlyGivenNames -merge -underBinder y11
      clear_value y11
      exact (Keeps.foldl h10 fun _ _ h12 => (keeps_homeWrite h12))

theorem keeps_effObjEnd {s : State} {a0} {a1} {a2} {a3} {a4 : State} (h : Keeps s a4) : Keeps s (effObjEnd a0 a1 a2 a3 a4) := by
  unfold effObjEnd
  refine keeps_nTake h (fun b7_0 => ?_)
  refine keeps_nSeq h (fun b12_0 b12_1 h12_0 => ?_)
  refine keeps_takeAnswer h12_0 (fun b15_0 b15_1 h15_0 => ?_)
  split
  · exact (keeps_endGet h15_0)
  · exact (keeps_answerUse h15_0)

theorem keeps_stopWork {s : State} {a0 : State} (h : Keeps s a0) : Keeps s (State.stopWork a0) := by
  unfold State.stopWork
  exact (Keeps.updArc h fun ha => ha)

theorem keeps_panelFatal {s : State} {a0 : State} {a1} {a2} (h : Keeps s a0) : Keeps s (State.panelFatal a0 a1 a2) := by
  unfold State.panelFatal
  refine Keeps.ite ?_ ?_
  · exact h
  · extract_lets +onlyGivenNames -merge -underBinder y1
    have h1 : Keeps s y1 := (keeps_report h)
    clear_value y1
    extract_lets +onlyGivenNames -merge -underBinder y2
    have h2 : Keeps s y2 := (keeps_stopWork h1)
    clear_value y2
    exact (Keeps.upd h2)

theorem keeps_reroute {s : State} {a0 : State} (h : Keeps s a0) : Keeps s (State.reroute a0) := by
  unfold State.reroute
  extract_lets +onlyGivenNames -merge -underBinder y1
  clear_value y1
  refine Keeps.ite ?_ ?_
  · exact (Keeps.upd h)
  · extract_lets +onlyGivenNames -merge -underBinder y2
    clear_value y2
    extract_lets +onlyGivenNames -merge -underBinder y3
    clear_value y3
    exact (Keeps.upd h)

theorem keeps_loseContact {s : State} {a0 : State} {a1} {a2} (h : Keeps s a0) : Keeps s (State.loseContact a0 a1 a2) := by
  unfold State.loseContact
  refine Keeps.ite ?_ ?_
  · exact h
  · extract_lets +onlyGivenNames -merge -underBinder y1
    have h1 : Keeps s y1 := (keeps_setBit h)
    clear_value y1
    split
    · exact h1
    · exact (Keeps.upd h1)

theorem keeps_downEnd {s : State} {a0 : State} {a1} {a2} (h : Keeps s a0) : Keeps s (State.downEnd a0 a1 a2) := by
  unfold State.downEnd
  extract_lets +onlyGivenNames -merge -underBinder y1
  have h1 : Keeps s y1 := (keeps_setBit h)
  clear_value y1
  extract_lets +onlyGivenNames -merge -underBinder y2
  clear_value y2
  extract_lets +onlyGivenNames -merge -underBinder y3
  have h3 : Keeps s y3 := (Keeps.upd h1)
  clear_value y3
  exact (keeps_loseContact h3)

theorem keeps_edgeOff {s : State} {a0 : State} {a1} {a2} (h : Keeps s a0) : Keeps s (State.edgeOff a0 a1 a2) := by
  unfold State.edgeOff
  split
  · exact (keeps_downEnd (keeps_downEnd h))
  · exact (keeps_downEnd h)

theorem keeps_answerLost {s : State} {a0 : State} {a1} {a2} (h : Keeps s a0) : Keeps s (State.answerLost a0 a1 a2) := by
  unfold State.answerLost
  split
  · exact (keeps_takeAckInv h)
  · exact (keeps_takeMiss h)

theorem keeps_freeHomes {s : State} {a0 : State} {a1} (h : Keeps s a0) : Keeps s (State.freeHomes a0 a1) := by
  unfold State.freeHomes
  extract_lets +onlyGivenNames -merge -underBinder y1
  clear_value y1
  extract_lets +onlyGivenNames -merge -underBinder y2
  clear_value y2
  extract_lets +onlyGivenNames -merge -underBinder y3
  clear_value y3
  extract_lets +onlyGivenNames -merge -underBinder y4
  have h4 : Keeps s y4 := (Keeps.upd h)
  clear_value y4
  extract_lets +onlyGivenNames -merge -underBinder y5
  have h5 : Keeps s y5 := (Keeps.foldl h4 fun _ _ h6 => (Keeps.ite h6 (keeps_answerLost h6)))
  clear_value y5
  extract_lets +onlyGivenNames -merge -underBinder y7
  clear_value y7
  exact (Keeps.foldl h5 fun _ _ h8 => (keeps_endTxn (keeps_homeAck h8)))

theorem keeps_poisonOwned {s : State} {a0 : State} {a1} (h : Keeps s a0) : Keeps s (State.poisonOwned a0 a1) := by
  unfold State.poisonOwned
  extract_lets +onlyGivenNames -merge -underBinder y1
  clear_value y1
  exact (Keeps.foldl h fun _ _ h2 => (keeps_dropOwner (keeps_poisonOwnedLine h2)))

theorem keeps_dropHome {s : State} {a0 : State} {a1} (h : Keeps s a0) : Keeps s (State.dropHome a0 a1) := by
  unfold State.dropHome
  extract_lets +onlyGivenNames -merge -underBinder y1
  clear_value y1
  extract_lets +onlyGivenNames -merge -underBinder y2
  clear_value y2
  extract_lets +onlyGivenNames -merge -underBinder y3
  clear_value y3
  extract_lets +onlyGivenNames -merge -underBinder y4
  have h4 : Keeps s y4 := (Keeps.upd h)
  clear_value y4
  extract_lets +onlyGivenNames -merge -underBinder y5
  have h5 : Keeps s y5 := (Keeps.withArc h4 fun _ ha => ha)
  clear_value y5
  extract_lets +onlyGivenNames -merge -underBinder y6
  have h6 : Keeps s y6 := by
    unfold y6
    refine Keeps.foldl ?_ fun y9 a9 h9 => ?_
    · exact h5
    · split
      · exact (Keeps.ite h9 (keeps_send h9))
      · exact (keeps_send h9)
      · split
        · exact (Keeps.ite (keeps_fabAnswer h9) h9)
        · exact h9
      · exact h9
  clear_value y6
  extract_lets +onlyGivenNames -merge -underBinder y10
  clear_value y10
  extract_lets +onlyGivenNames -merge -underBinder y11
  have h11 : Keeps s y11 := (Keeps.upd h6)
  clear_value y11
  extract_lets +onlyGivenNames -merge -underBinder y12
  clear_value y12
  extract_lets +onlyGivenNames -merge -underBinder y13
  clear_value y13
  refine Keeps.foldl ?_ fun y15 a15 h15 => ?_
  · exact h11
  · extract_lets +onlyGivenNames -merge -underBinder y16
    clear_value y16
    exact (keeps_commitCheck (keeps_modRun h15))

theorem keeps_tearCommit {s : State} {a0 : State} {a1} {a2} {a3} (h : Keeps s a0) : Keeps s (State.tearCommit a0 a1 a2 a3) := by
  unfold State.tearCommit
  extract_lets +onlyGivenNames -merge -underBinder y1
  clear_value y1
  extract_lets +onlyGivenNames -merge -underBinder y2
  have h2 : Keeps s y2.1 := (keeps_freeNum h)
  clear_value y2
  extract_lets +onlyGivenNames -merge -underBinder y3
  clear_value y3
  extract_lets +onlyGivenNames -merge -underBinder y4
  have h4 : Keeps s y4 := h2
  clear_value y4
  extract_lets +onlyGivenNames -merge -underBinder y5
  clear_value y5
  extract_lets +onlyGivenNames -merge -underBinder y6
  have h6 : Keeps s y6 := (Keeps.upd h4)
  clear_value y6
  extract_lets +onlyGivenNames -merge -underBinder y7
  clear_value y7
  extract_lets +onlyGivenNames -merge -underBinder y8
  have h8 : Keeps s y8 := (keeps_commitCheck (keeps_modRun h6))
  clear_value y8
  exact (keeps_partFatalize h8)

theorem keeps_tearCommits {s : State} {a0 : State} {a1} (h : Keeps s a0) : Keeps s (State.tearCommits a0 a1) := by
  unfold State.tearCommits
  refine Keeps.foldl ?_ fun y2 a2 h2 => ?_
  · exact h
  · split
    · exact (Keeps.ite (keeps_tearCommit h2) h2)
    · exact h2

theorem keeps_ringDieLost {s : State} {a0 : State} {a1} (h : Keeps s a0) : Keeps s (State.ringDieLost a0 a1) := by
  unfold State.ringDieLost
  extract_lets +onlyGivenNames -merge -underBinder y1
  have h1 : Keeps s y1 := (keeps_portDown (keeps_portDown h))
  clear_value y1
  exact (Keeps.ite (keeps_panelFatal h1) h1)

theorem keeps_declareOne {s : State} {a0 : State} {a1} {a2} (h : Keeps s a0) : Keeps s (State.declareOne a0 a1 a2) := by
  unfold State.declareOne
  refine Keeps.ite ?_ ?_
  · exact h
  · extract_lets +onlyGivenNames -merge -underBinder y1
    clear_value y1
    extract_lets +onlyGivenNames -merge -underBinder y2
    have h2 : Keeps s y2 := (Keeps.upd h)
    clear_value y2
    extract_lets +onlyGivenNames -merge -underBinder y3
    clear_value y3
    extract_lets +onlyGivenNames -merge -underBinder y4
    have h4 : Keeps s y4 := (Keeps.foldl h2 fun _ _ h5 => (keeps_report h5))
    clear_value y4
    extract_lets +onlyGivenNames -merge -underBinder y6
    have h6 : Keeps s y6 := (Keeps.foldl h4 fun _ _ h7 => (Keeps.ite (keeps_edgeOff h7) h7))
    clear_value y6
    extract_lets +onlyGivenNames -merge -underBinder y8
    have h8 : Keeps s y8 := (keeps_poisonOwned h6)
    clear_value y8
    extract_lets +onlyGivenNames -merge -underBinder y9
    have h9 : Keeps s y9 := (keeps_freeHomes h8)
    clear_value y9
    extract_lets +onlyGivenNames -merge -underBinder y10
    have h10 : Keeps s y10 := (keeps_tearCommits (keeps_dropHome h9))
    clear_value y10
    extract_lets +onlyGivenNames -merge -underBinder y11
    clear_value y11
    extract_lets +onlyGivenNames -merge -underBinder y12
    have h12 : Keeps s y12 := (Keeps.upd h10)
    clear_value y12
    extract_lets +onlyGivenNames -merge -underBinder y13
    have h13 : Keeps s y13 := (Keeps.ite h12 (keeps_dieGate h12))
    clear_value y13
    exact (Keeps.foldl h13 fun _ _ h14 => (Keeps.ite (keeps_ringDieLost h14) h14))

theorem keeps_judgeSites_aux {s : State} : ∀ a0 a1, Keeps s a0 → Keeps s (State.judgeSites a0 a1)
  | x0, 0, h => by
    rw [State.judgeSites]
    exact h
  | x0, (x1 + 1), h => by
    rw [State.judgeSites]
    split
    · exact (keeps_judgeSites_aux _ _ (keeps_declareOne h))
    · exact h

theorem keeps_judgeSites {s : State} {a0 : State} {a1} (h : Keeps s a0) : Keeps s (State.judgeSites a0 a1) := keeps_judgeSites_aux a0 a1 h

theorem keeps_declareLost {s : State} {a0 : State} {a1} {a2} (h : Keeps s a0) : Keeps s (State.declareLost a0 a1 a2) := by
  unfold State.declareLost
  exact (keeps_judgeSites (keeps_declareOne h))

theorem keeps_edgeFail {s : State} {a0 : State} {a1} {a2} (h : Keeps s a0) : Keeps s (State.edgeFail a0 a1 a2) := by
  unfold State.edgeFail
  extract_lets +onlyGivenNames -merge -underBinder y1
  have h1 : Keeps s y1 := (keeps_judgeSites (keeps_edgeOff h))
  clear_value y1
  exact (Keeps.ite h1 (keeps_reroute h1))

theorem keeps_resendFrom {s : State} {a0 : State} {a1} {a2} (h : Keeps s a0) : Keeps s (State.resendFrom a0 a1 a2) := by
  unfold State.resendFrom
  split
  · extract_lets +onlyGivenNames -merge -underBinder y1
    clear_value y1
    extract_lets +onlyGivenNames -merge -underBinder y2
    clear_value y2
    extract_lets +onlyGivenNames -merge -underBinder y3
    clear_value y3
    extract_lets +onlyGivenNames -merge -underBinder y4
    clear_value y4
    extract_lets +onlyGivenNames -merge -underBinder y5
    have h5 : Keeps s y5 := (keeps_setLink h)
    clear_value y5
    extract_lets +onlyGivenNames -merge -underBinder y6
    clear_value y6
    exact (keeps_setLink h5)
  · exact h

theorem keeps_resendBoth {s : State} {a0 : State} {a1} {a2} (h : Keeps s a0) : Keeps s (State.resendBoth a0 a1 a2) := by
  unfold State.resendBoth
  exact (Keeps.foldl h fun _ _ h1 => (keeps_resendFrom h1))

theorem keeps_handOver {s : State} {a0 : State} {a1} {a2} {a3} {a4} (h : Keeps s a0) : Keeps s (State.handOver a0 a1 a2 a3 a4) := by
  unfold State.handOver
  extract_lets +onlyGivenNames -merge -underBinder y1
  clear_value y1
  split
  · exact h
  · extract_lets +onlyGivenNames -merge -underBinder y2
    clear_value y2
    exact (keeps_setLink h)

theorem keeps_setRole {s : State} {a0 : State} {a1} {a2} {a3} {a4} (h : Keeps s a0) : Keeps s (State.setRole a0 a1 a2 a3 a4) := by
  unfold State.setRole
  exact (keeps_setFld h)

theorem keeps_suspect {s : State} {a0 : State} {a1} (h : Keeps s a0) : Keeps s (State.suspect a0 a1) := by
  unfold State.suspect
  extract_lets +onlyGivenNames -merge -underBinder y1
  clear_value y1
  exact (Keeps.ite h (keeps_resendBoth (keeps_sat (keeps_setLink h))))

theorem keeps_spareLane {s : State} {a0 : State} {a1} {a2} (h : Keeps s a0) : Keeps s (State.spareLane a0 a1 a2) := by
  unfold State.spareLane
  extract_lets +onlyGivenNames -merge -underBinder y1
  clear_value y1
  extract_lets +onlyGivenNames -merge -underBinder y2
  clear_value y2
  extract_lets +onlyGivenNames -merge -underBinder y3
  have h3 : Keeps s y3 := (keeps_setFld (keeps_setFld h))
  clear_value y3
  extract_lets +onlyGivenNames -merge -underBinder y4
  clear_value y4
  extract_lets +onlyGivenNames -merge -underBinder y5
  have h5 : Keeps s y5 := (keeps_setLink h3)
  clear_value y5
  extract_lets +onlyGivenNames -merge -underBinder y6
  clear_value y6
  extract_lets +onlyGivenNames -merge -underBinder y7
  have h7 : Keeps s y7 := (Keeps.upd h5)
  clear_value y7
  exact (keeps_report h7)

theorem keeps_laneFails {s : State} {a0 : State} {a1} {a2} (h : Keeps s a0) : Keeps s (State.laneFails a0 a1 a2) := by
  unfold State.laneFails
  extract_lets +onlyGivenNames -merge -underBinder y1
  clear_value y1
  exact (Keeps.ite h (Keeps.ite (keeps_setLink h) (keeps_suspect h)))

theorem keeps_chargeMesh {s : State} {a0 : State} {a1} {a2} (h : Keeps s a0) : Keeps s (State.chargeMesh a0 a1 a2) := by
  unfold State.chargeMesh
  refine Keeps.foldl ?_ fun y2 a2 h2 => ?_
  · exact h
  · extract_lets +onlyGivenNames -merge -underBinder y3
    have h3 : Keeps s y3 := (keeps_sat h2)
    clear_value y3
    extract_lets +onlyGivenNames -merge -underBinder y4
    clear_value y4
    extract_lets +onlyGivenNames -merge -underBinder y5
    have h5 : Keeps s y5 := (keeps_setLink h3)
    clear_value y5
    exact (Keeps.ite (keeps_laneFails h5) h5)

theorem keeps_groupOut {s : State} {a0 : State} {a1} (h : Keeps s a0) : Keeps s (State.groupOut a0 a1) := by
  unfold State.groupOut
  extract_lets +onlyGivenNames -merge -underBinder y1
  clear_value y1
  extract_lets +onlyGivenNames -merge -underBinder y2
  clear_value y2
  extract_lets +onlyGivenNames -merge -underBinder y3
  have h3 : Keeps s y3 := by
    unfold y3
    refine Keeps.foldl ?_ fun y6 a6 h6 => ?_
    · exact h
    · extract_lets +onlyGivenNames -merge -underBinder y7
      have h7 : Keeps s y7 := (keeps_setRole (keeps_setBit h6))
      clear_value y7
      extract_lets +onlyGivenNames -merge -underBinder y8
      clear_value y8
      exact (keeps_setLink h7)
  clear_value y3
  extract_lets +onlyGivenNames -merge -underBinder y9
  clear_value y9
  extract_lets +onlyGivenNames -merge -underBinder y10
  clear_value y10
  extract_lets +onlyGivenNames -merge -underBinder y11
  have h11 : Keeps s y11 := by
    unfold y11
    split
    · extract_lets +onlyGivenNames -merge -underBinder y12
      have h12 : Keeps s y12 := (keeps_resendBoth (keeps_setRole h3))
      clear_value y12
      extract_lets +onlyGivenNames -merge -underBinder y13
      have h13 : Keeps s y13 := (Keeps.foldl h12 fun _ _ h14 => (keeps_sat (keeps_setRole h14)))
      clear_value y13
      exact (Keeps.upd h13)
    · exact h3
  clear_value y11
  extract_lets +onlyGivenNames -merge -underBinder y15
  have h15 : Keeps s y15 := (keeps_resendBoth h11)
  clear_value y15
  extract_lets +onlyGivenNames -merge -underBinder y16
  have h16 : Keeps s y16 := (keeps_report h15)
  clear_value y16
  exact (Keeps.ite (keeps_edgeFail h16) h16)

theorem keeps_linkUp {s : State} {a0 : State} {a1} (h : Keeps s a0) : Keeps s (State.linkUp a0 a1) := by
  unfold State.linkUp
  refine Keeps.ite ?_ ?_
  · extract_lets +onlyGivenNames -merge -underBinder y1
    clear_value y1
    extract_lets +onlyGivenNames -merge -underBinder y2
    clear_value y2
    exact (keeps_setLink h)
  · exact h

theorem keeps_acceptMesh {s : State} {a0 : State} {a1} {a2} (h : Keeps s a0) : Keeps s (State.acceptMesh a0 a1 a2) := by
  unfold State.acceptMesh
  extract_lets +onlyGivenNames -merge -underBinder y1
  clear_value y1
  extract_lets +onlyGivenNames -merge -underBinder y2
  clear_value y2
  extract_lets +onlyGivenNames -merge -underBinder y3
  clear_value y3
  exact (keeps_setLink h)

theorem keeps_effIdleFlit {s : State} {a0} {a1} {a2 : State} (h : Keeps s a2) : Keeps s (effIdleFlit a0 a1 a2) := by
  unfold effIdleFlit
  refine Keeps.ite ?_ ?_
  · exact h
  · refine Keeps.ite ?_ ?_
    · extract_lets +onlyGivenNames -merge -underBinder y1
      clear_value y1
      exact (keeps_setLink h)
    · refine Keeps.ite ?_ ?_
      · exact h
      · extract_lets +onlyGivenNames -merge -underBinder y2
        clear_value y2
        extract_lets +onlyGivenNames -merge -underBinder y3
        clear_value y3
        extract_lets +onlyGivenNames -merge -underBinder y4
        clear_value y4
        exact (keeps_chargeMesh (keeps_setLink h))

theorem keeps_effMeshFlit {s : State} {a0} {a1} {a2 : State} (h : Keeps s a2) : Keeps s (effMeshFlit a0 a1 a2) := by
  unfold effMeshFlit
  extract_lets +onlyGivenNames -merge -underBinder y1
  clear_value y1
  refine Keeps.ite ?_ ?_
  · exact h
  · extract_lets +onlyGivenNames -merge -underBinder y2
    clear_value y2
    extract_lets +onlyGivenNames -merge -underBinder y3
    clear_value y3
    extract_lets +onlyGivenNames -merge -underBinder y4
    clear_value y4
    extract_lets +onlyGivenNames -merge -underBinder y5
    clear_value y5
    extract_lets +onlyGivenNames -merge -underBinder y6
    have h6 : Keeps s y6 := (keeps_setLink h)
    clear_value y6
    extract_lets +onlyGivenNames -merge -underBinder y7
    have h7 : Keeps s y7 := (Keeps.ite (keeps_acceptMesh h6) h6)
    clear_value y7
    refine Keeps.ite ?_ ?_
    · extract_lets +onlyGivenNames -merge -underBinder y8
      have h8 : Keeps s y8 := (keeps_sat h7)
      clear_value y8
      split
      · exact (keeps_chargeMesh h8)
      · exact h8
    · exact (Keeps.ite (keeps_suspect h7) h7)

theorem keeps_effIdleInsert {s : State} {a0} {a1 : State} (h : Keeps s a1) : Keeps s (effIdleInsert a0 a1) := by
  unfold effIdleInsert
  refine Keeps.ite ?_ ?_
  · extract_lets +onlyGivenNames -merge -underBinder y1
    clear_value y1
    exact (keeps_setLink h)
  · exact h

theorem keeps_effLanemap {s : State} {a0} {a1} {a2 : State} (h : Keeps s a2) : Keeps s (effLanemap a0 a1 a2) := by
  unfold effLanemap
  exact (Keeps.ite (keeps_spareLane h) h)

theorem keeps_effGroupTestDone {s : State} {a0} {a1} {a2 : State} (h : Keeps s a2) : Keeps s (effGroupTestDone a0 a1 a2) := by
  unfold effGroupTestDone
  extract_lets +onlyGivenNames -merge -underBinder y1
  clear_value y1
  refine Keeps.ite ?_ ?_
  · exact h
  · split
    · refine Keeps.ite ?_ ?_
      · extract_lets +onlyGivenNames -merge -underBinder y2
        have h2 : Keeps s y2 := (keeps_spareLane h)
        clear_value y2
        exact (keeps_setLink h2)
      · exact (keeps_groupOut h)
    · exact (keeps_groupOut h)

theorem keeps_pastReport {s : State} {a0 : State} {a1} {a2} (h : Keeps s a0) : Keeps s (State.pastReport a0 a1 a2) := by
  unfold State.pastReport
  exact (keeps_report h)

theorem keeps_poisonFlight {s : State} {a0 : State} {a1} {a2} (h : Keeps s a0) : Keeps s (State.poisonFlight a0 a1 a2) := by
  unfold State.poisonFlight
  exact (keeps_modRun (Keeps.upd h))

theorem keeps_poisonOut {s : State} {a0 : State} {a1} (h : Keeps s a0) : Keeps s (State.poisonOut a0 a1) := by
  unfold State.poisonOut
  extract_lets +onlyGivenNames -merge -underBinder y1
  clear_value y1
  extract_lets +onlyGivenNames -merge -underBinder y2
  clear_value y2
  refine Keeps.ite ?_ ?_
  · exact (Keeps.foldl h fun _ _ h4 => (keeps_poisonTag h4))
  · extract_lets +onlyGivenNames -merge -underBinder y5
    have h5 : Keeps s y5 := (Keeps.foldl h fun _ _ h6 => (keeps_hostFail (keeps_dropPend h6)))
    clear_value y5
    extract_lets +onlyGivenNames -merge -underBinder y7
    clear_value y7
    extract_lets +onlyGivenNames -merge -underBinder y8
    clear_value y8
    extract_lets +onlyGivenNames -merge -underBinder y9
    have h9 : Keeps s y9 := (Keeps.upd h5)
    clear_value y9
    exact (Keeps.foldl h9 fun _ _ h10 => (keeps_requestLost h10))

theorem keeps_effPastReplayError {s : State} {a0} {a1} {a2 : State} (h : Keeps s a2) : Keeps s (effPastReplayError a0 a1 a2) := by
  unfold effPastReplayError
  extract_lets +onlyGivenNames -merge -underBinder y1
  have h1 : Keeps s y1 := (keeps_sat h)
  clear_value y1
  split
  · exact (keeps_pastReport h1)
  · exact (keeps_panelFatal (keeps_pastReport h1))
  · split
    · exact (Keeps.ite (keeps_refreshQ (keeps_requeue (keeps_killRun (keeps_pastReport h1)))) h1)
    · exact h1
  · exact (Keeps.ite (keeps_poisonFlight (keeps_pastReport h1)) h1)
  · exact (Keeps.ite (keeps_poisonFlight (keeps_pastReport h1)) h1)
  · exact (Keeps.ite (Keeps.foldl (keeps_pastReport h1) fun _ _ h2 => (keeps_poisonSector h2)) (Keeps.foldl (keeps_pastReport h1) fun _ _ h3 => (keeps_poisonOut h3)))
  · exact (Keeps.ite (keeps_poisonSector (keeps_pastReport h1)) (keeps_pastReport h1))

theorem keeps_redDeliver {s : State} {a0 : State} {a1} {a2} (h : Keeps s a0) : Keeps s (State.redDeliver a0 a1 a2) := by
  unfold State.redDeliver
  extract_lets +onlyGivenNames -merge -underBinder y1
  clear_value y1
  refine Keeps.ite ?_ ?_
  · exact (keeps_collPacket h)
  · refine Keeps.ite ?_ ?_
    · exact h
    · extract_lets +onlyGivenNames -merge -underBinder y2
      clear_value y2
      extract_lets +onlyGivenNames -merge -underBinder y3
      have h3 : Keeps s y3 := (Keeps.foldl h fun _ _ h4 => (keeps_poisonSector h4))
      clear_value y3
      extract_lets +onlyGivenNames -merge -underBinder y5
      clear_value y5
      extract_lets +onlyGivenNames -merge -underBinder y6
      have h6 : Keeps s y6 := (Keeps.foldl h3 fun _ _ h7 => (keeps_homeMsg h7))
      clear_value y6
      exact (Keeps.ite (keeps_ackMopn h6) h6)

theorem keeps_redLeave {s : State} {a0 : State} {a1} {a2} {a3} (h : Keeps s a0) : Keeps s (State.redLeave a0 a1 a2 a3) := by
  unfold State.redLeave
  split
  · exact (keeps_redDeliver h)
  · refine Keeps.ite ?_ ?_
    · extract_lets +onlyGivenNames -merge -underBinder y1
      have h1 : Keeps s y1 := (keeps_handOver h)
      clear_value y1
      exact (Keeps.upd h1)
    · exact (Keeps.upd h)

theorem keeps_effReducePacket {s : State} {a0} {a1} {a2} {a3 : State} (h : Keeps s a3) : Keeps s (effReducePacket a0 a1 a2 a3) := by
  unfold effReducePacket
  extract_lets +onlyGivenNames -merge -underBinder y1
  clear_value y1
  extract_lets +onlyGivenNames -merge -underBinder y2
  have h2 : Keeps s y2 := (Keeps.upd h)
  clear_value y2
  refine Keeps.ite ?_ ?_
  · exact (keeps_redLeave h2)
  · extract_lets +onlyGivenNames -merge -underBinder y3
    clear_value y3
    split
    · extract_lets +onlyGivenNames -merge -underBinder y4
      clear_value y4
      extract_lets +onlyGivenNames -merge -underBinder y5
      clear_value y5
      extract_lets +onlyGivenNames -merge -underBinder y6
      clear_value y6
      extract_lets +onlyGivenNames -merge -underBinder y7
      have h7 : Keeps s y7 := (Keeps.upd h2)
      clear_value y7
      exact (Keeps.ite (keeps_sat h7) h7)
    · exact (Keeps.ite (Keeps.upd h2) (keeps_redLeave h2))

theorem keeps_effCombineWindowExpiry {s : State} {a0} {a1} {a2} {a3 : State} (h : Keeps s a3) : Keeps s (effCombineWindowExpiry a0 a1 a2 a3) := by
  unfold effCombineWindowExpiry
  split
  · exact h
  · exact (keeps_redLeave (Keeps.upd h))

theorem keeps_effMopnAck {s : State} {a0} {a1} {a2 : State} (h : Keeps s a2) : Keeps s (effMopnAck a0 a1 a2) := by
  unfold effMopnAck
  extract_lets +onlyGivenNames -merge -underBinder y1
  clear_value y1
  exact (Keeps.upd h)

theorem keeps_chargeRing {s : State} {a0 : State} {a1} {a2} (h : Keeps s a0) : Keeps s (State.chargeRing a0 a1 a2) := by
  unfold State.chargeRing
  refine Keeps.foldl ?_ fun y2 a2 h2 => ?_
  · exact h
  · extract_lets +onlyGivenNames -merge -underBinder y3
    clear_value y3
    extract_lets +onlyGivenNames -merge -underBinder y4
    have h4 : Keeps s y4 := (keeps_setLink h2)
    clear_value y4
    exact (Keeps.ite (keeps_portDown (keeps_setBit h4)) h4)

theorem keeps_acceptRing {s : State} {a0 : State} {a1} {a2} (h : Keeps s a0) : Keeps s (State.acceptRing a0 a1 a2) := by
  unfold State.acceptRing
  extract_lets +onlyGivenNames -merge -underBinder y1
  clear_value y1
  extract_lets +onlyGivenNames -merge -underBinder y2
  clear_value y2
  exact (keeps_setLink h)

theorem keeps_effRingMsgFlit {s : State} {a0} {a1} {a2 : State} (h : Keeps s a2) : Keeps s (effRingMsgFlit a0 a1 a2) := by
  unfold effRingMsgFlit
  refine Keeps.ite ?_ ?_
  · exact h
  · extract_lets +onlyGivenNames -merge -underBinder y1
    clear_value y1
    extract_lets +onlyGivenNames -merge -underBinder y2
    clear_value y2
    extract_lets +onlyGivenNames -merge -underBinder y3
    clear_value y3
    extract_lets +onlyGivenNames -merge -underBinder y4
    clear_value y4
    extract_lets +onlyGivenNames -merge -underBinder y5
    clear_value y5
    extract_lets +onlyGivenNames -merge -underBinder y6
    have h6 : Keeps s y6 := (keeps_setLink h)
    clear_value y6
    extract_lets +onlyGivenNames -merge -underBinder y7
    have h7 : Keeps s y7 := (Keeps.ite (keeps_acceptRing h6) h6)
    clear_value y7
    refine Keeps.ite ?_ ?_
    · extract_lets +onlyGivenNames -merge -underBinder y8
      have h8 : Keeps s y8 := (keeps_sat h7)
      clear_value y8
      split
      · exact (keeps_chargeRing h8)
      · exact h8
    · exact (Keeps.ite (keeps_portDown h7) h7)

theorem keeps_effRingLinkFlit {s : State} {a0} {a1} {a2 : State} (h : Keeps s a2) : Keeps s (effRingLinkFlit a0 a1 a2) := by
  unfold effRingLinkFlit
  refine Keeps.ite ?_ ?_
  · exact h
  · extract_lets +onlyGivenNames -merge -underBinder y1
    clear_value y1
    extract_lets +onlyGivenNames -merge -underBinder y2
    clear_value y2
    exact (keeps_setLink h)

theorem keeps_effRingIdleFlit {s : State} {a0} {a1} {a2 : State} (h : Keeps s a2) : Keeps s (effRingIdleFlit a0 a1 a2) := by
  unfold effRingIdleFlit
  refine Keeps.ite ?_ ?_
  · exact (keeps_setLink h)
  · refine Keeps.ite ?_ ?_
    · exact h
    · extract_lets +onlyGivenNames -merge -underBinder y1
      clear_value y1
      extract_lets +onlyGivenNames -merge -underBinder y2
      clear_value y2
      extract_lets +onlyGivenNames -merge -underBinder y3
      clear_value y3
      exact (keeps_chargeRing (keeps_setLink h))

theorem keeps_effCdieHeartbeat {s : State} {a0} {a1 : State} (h : Keeps s a1) : Keeps s (effCdieHeartbeat a0 a1) := by
  unfold effCdieHeartbeat
  exact (Keeps.ite (keeps_setBit h) h)

theorem keeps_effCdieFatalError {s : State} {a0} {a1 : State} (h : Keeps s a1) : Keeps s (effCdieFatalError a0 a1) := by
  unfold effCdieFatalError
  exact (Keeps.ite (keeps_cdieLost h) h)

theorem keeps_effCdieHeartbeatTimeout {s : State} {a0} {a1 : State} (h : Keeps s a1) : Keeps s (effCdieHeartbeatTimeout a0 a1) := by
  unfold effCdieHeartbeatTimeout
  exact (Keeps.ite (keeps_cdieLost h) h)

theorem keeps_effSubstitutionDone {s : State} {a0} {a1 : State} (h : Keeps s a1) : Keeps s (effSubstitutionDone a0 a1) := by
  unfold effSubstitutionDone
  exact (Keeps.ite h (keeps_finishMove h))

theorem keeps_effRiserFailure {s : State} {a0} {a1 : State} (h : Keeps s a1) : Keeps s (effRiserFailure a0 a1) := by
  unfold effRiserFailure
  exact (keeps_riserLost h)

theorem keeps_effSiteHeartbeat {s : State} {a0} {a1} {a2 : State} (h : Keeps s a2) : Keeps s (effSiteHeartbeat a0 a1 a2) := by
  unfold effSiteHeartbeat
  exact (Keeps.ite (keeps_setBit h) h)

theorem keeps_effSiteHeartbeatTimeout {s : State} {a0} {a1} {a2 : State} (h : Keeps s a2) : Keeps s (effSiteHeartbeatTimeout a0 a1 a2) := by
  unfold effSiteHeartbeatTimeout
  exact (Keeps.ite h (keeps_judgeSites (keeps_loseContact h)))

theorem keeps_effLossReport {s : State} {a0} {a1} {a2} {a3 : State} (h : Keeps s a3) : Keeps s (effLossReport a0 a1 a2 a3) := by
  unfold effLossReport
  exact (Keeps.ite h (keeps_judgeSites (Keeps.upd h)))

theorem keeps_effBDieFatalError {s : State} {a0} {a1 : State} (h : Keeps s a1) : Keeps s (effBDieFatalError a0 a1) := by
  unfold effBDieFatalError
  exact (keeps_declareLost h)

theorem keeps_riserSiteLost {s : State} {a0 : State} {a1} (h : Keeps s a0) : Keeps s (State.riserSiteLost a0 a1) := by
  unfold State.riserSiteLost
  extract_lets +onlyGivenNames -merge -underBinder y1
  clear_value y1
  exact (Keeps.ite h (Keeps.ite (keeps_riserLost h) (keeps_genEven (keeps_setRiser (keeps_genOdd h)))))

theorem keeps_effSiteLossReroute {s : State} {a0} {a1 : State} (h : Keeps s a1) : Keeps s (effSiteLossReroute a0 a1) := by
  unfold effSiteLossReroute
  refine Keeps.ite ?_ ?_
  · exact h
  · extract_lets +onlyGivenNames -merge -underBinder y1
    have h1 : Keeps s y1 := (keeps_reroute h)
    clear_value y1
    extract_lets +onlyGivenNames -merge -underBinder y2
    have h2 : Keeps s y2 := (Keeps.foldl h1 fun _ _ h3 => (Keeps.ite (keeps_partFatalize h3) h3))
    clear_value y2
    extract_lets +onlyGivenNames -merge -underBinder y4
    have h4 : Keeps s y4 := (keeps_settleLosses h2)
    clear_value y4
    exact (keeps_riserSiteLost h4)

theorem keeps_askTest {s : State} {a0 : State} {a1} (h : Keeps s a0) : Keeps s (State.askTest a0 a1) := by
  unfold State.askTest
  extract_lets +onlyGivenNames -merge -underBinder y1
  clear_value y1
  exact (Keeps.ite (keeps_setBit h) (keeps_setFld (keeps_setBit (keeps_setBit h))))

theorem keeps_effCoreSelftestReq {s : State} {a0} {a1 : State} (h : Keeps s a1) : Keeps s (effCoreSelftestReq a0 a1) := by
  unfold effCoreSelftestReq
  exact (keeps_askTest h)

theorem keeps_effSelftestPartDone {s : State} {a0} {a1} {a2 : State} (h : Keeps s a2) : Keeps s (effSelftestPartDone a0 a1 a2) := by
  unfold effSelftestPartDone
  extract_lets +onlyGivenNames -merge -underBinder y1
  clear_value y1
  refine Keeps.ite ?_ ?_
  · exact h
  · refine Keeps.ite ?_ ?_
    · extract_lets +onlyGivenNames -merge -underBinder y2
      have h2 : Keeps s y2 := (keeps_setBit h)
      clear_value y2
      extract_lets +onlyGivenNames -merge -underBinder y3
      clear_value y3
      extract_lets +onlyGivenNames -merge -underBinder y4
      have h4 : Keeps s y4 := (keeps_setFld h2)
      clear_value y4
      exact (Keeps.ite (keeps_setBit h4) (keeps_sat (keeps_setBit h4)))
    · exact (keeps_cdieLost (keeps_setBit h))

theorem keeps_shed {s : State} {a0 : State} (h : Keeps s a0) : Keeps s (State.shed a0) := by
  unfold State.shed
  extract_lets +onlyGivenNames -merge -underBinder y1
  clear_value y1
  extract_lets +onlyGivenNames -merge -underBinder y2
  clear_value y2
  extract_lets +onlyGivenNames -merge -underBinder y3
  clear_value y3
  extract_lets +onlyGivenNames -merge -underBinder y4
  clear_value y4
  extract_lets +onlyGivenNames -merge -underBinder y5
  clear_value y5
  extract_lets +onlyGivenNames -merge -underBinder y6
  have h6 : Keeps s y6 := (keeps_setFld (keeps_setFld h))
  clear_value y6
  exact (Keeps.upd h6)

theorem keeps_incNotify {s : State} {a0 : State} {a1} {a2} (h : Keeps s a0) : Keeps s (State.incNotify a0 a1 a2) := by
  unfold State.incNotify
  refine Keeps.foldl ?_ fun y2 a2 h2 => ?_
  · exact h
  · extract_lets +onlyGivenNames -merge -underBinder y3
    clear_value y3
    extract_lets +onlyGivenNames -merge -underBinder y4
    clear_value y4
    split
    · exact (Keeps.ite (keeps_hostReq h2) h2)
    · exact h2

theorem keeps_addRepair {s : State} {a0 : State} {a1} (h : Keeps s a0) : Keeps s (State.addRepair a0 a1) := by
  unfold State.addRepair
  extract_lets +onlyGivenNames -merge -underBinder y1
  clear_value y1
  exact (Keeps.ite h (keeps_setFld (keeps_mbxWr h)))

theorem keeps_spareRepairs {s : State} {a0 : State} {a1} {a2} {a3} (h : Keeps s a0) : Keeps s (State.spareRepairs a0 a1 a2 a3) := by
  unfold State.spareRepairs
  extract_lets +onlyGivenNames -merge -underBinder y1
  clear_value y1
  extract_lets +onlyGivenNames -merge -underBinder y2
  clear_value y2
  extract_lets +onlyGivenNames -merge -underBinder y3
  have h3 : Keeps s y3 := (Keeps.upd h)
  clear_value y3
  exact (Keeps.foldl h3 fun _ _ h4 => (keeps_addRepair h4))

theorem keeps_repairsOf {s : State} {a0 : State} {a1} {a2} (h : Keeps s a0) : Keeps s (State.repairsOf a0 a1 a2) := by
  unfold State.repairsOf
  extract_lets +onlyGivenNames -merge -underBinder y1
  clear_value y1
  extract_lets +onlyGivenNames -merge -underBinder y2
  clear_value y2
  refine Keeps.ite ?_ ?_
  · exact (keeps_spareRepairs h)
  · refine Keeps.ite ?_ ?_
    · split
      · extract_lets +onlyGivenNames -merge -underBinder y3
        clear_value y3
        extract_lets +onlyGivenNames -merge -underBinder y4
        have h4 : Keeps s y4 := (Keeps.upd h)
        clear_value y4
        exact (keeps_addRepair (keeps_addRepair h4))
      · exact h
    · refine Keeps.ite ?_ ?_
      · extract_lets +onlyGivenNames -merge -underBinder y5
        clear_value y5
        extract_lets +onlyGivenNames -merge -underBinder y6
        clear_value y6
        exact (Keeps.ite (keeps_addRepair h) (keeps_addRepair h))
      · refine Keeps.ite ?_ ?_
        · extract_lets +onlyGivenNames -merge -underBinder y7
          clear_value y7
          extract_lets +onlyGivenNames -merge -underBinder y8
          clear_value y8
          extract_lets +onlyGivenNames -merge -underBinder y9
          have h9 : Keeps s y9 := (Keeps.upd h)
          clear_value y9
          exact (Keeps.foldl h9 fun _ _ h10 => (keeps_addRepair h10))
        · exact h

theorem keeps_countDetect {s : State} {a0 : State} {a1} (h : Keeps s a0) : Keeps s (State.countDetect a0 a1) := by
  unfold State.countDetect
  refine Keeps.ite ?_ ?_
  · exact h
  · split
    · exact h
    · extract_lets +onlyGivenNames -merge -underBinder y1
      clear_value y1
      exact (Keeps.ite (keeps_askTest (keeps_setCoreX h)) (keeps_setCoreX h))

theorem keeps_noteLost {s : State} {a0 : State} {a1} {a2} (h : Keeps s a0) : Keeps s (State.noteLost a0 a1 a2) := by
  unfold State.noteLost
  extract_lets +onlyGivenNames -merge -underBinder y1
  clear_value y1
  exact (keeps_raiseEcho (Keeps.upd h))

theorem keeps_logReport {s : State} {a0 : State} {a1} (h : Keeps s a0) : Keeps s (State.logReport a0 a1) := by
  unfold State.logReport
  split
  · extract_lets +onlyGivenNames -merge -underBinder y1
    clear_value y1
    refine Keeps.ite ?_ ?_
    · exact h
    · extract_lets +onlyGivenNames -merge -underBinder y2
      have h2 : Keeps s y2 := (keeps_mbxWr h)
      clear_value y2
      extract_lets +onlyGivenNames -merge -underBinder y3
      clear_value y3
      exact (keeps_mbxWr h2)
  · extract_lets +onlyGivenNames -merge -underBinder y4
    clear_value y4
    extract_lets +onlyGivenNames -merge -underBinder y5
    have h5 : Keeps s y5 := (Keeps.ite (keeps_sat (keeps_bump h)) h)
    clear_value y5
    extract_lets +onlyGivenNames -merge -underBinder y6
    clear_value y6
    extract_lets +onlyGivenNames -merge -underBinder y7
    have h7 : Keeps s y7 := (Keeps.ite h5 (keeps_sat h5))
    clear_value y7
    extract_lets +onlyGivenNames -merge -underBinder y8
    have h8 : Keeps s y8 := (keeps_mbxWr h7)
    clear_value y8
    extract_lets +onlyGivenNames -merge -underBinder y9
    have h9 : Keeps s y9 := (keeps_setFld h8)
    clear_value y9
    extract_lets +onlyGivenNames -merge -underBinder y10
    clear_value y10
    extract_lets +onlyGivenNames -merge -underBinder y11
    have h11 : Keeps s y11 := (Keeps.upd h9)
    clear_value y11
    extract_lets +onlyGivenNames -merge -underBinder y12
    have h12 : Keeps s y12 := (Keeps.ite (keeps_noteLost h11) h11)
    clear_value y12
    extract_lets +onlyGivenNames -merge -underBinder y13
    have h13 : Keeps s y13 := (keeps_repairsOf h12)
    clear_value y13
    exact (keeps_countDetect (keeps_incNotify h13))

theorem keeps_effIncidentReport {s : State} {a0} {a1 : State} (h : Keeps s a1) : Keeps s (effIncidentReport a0 a1) := by
  unfold effIncidentReport
  refine Keeps.ite ?_ ?_
  · exact h
  · extract_lets +onlyGivenNames -merge -underBinder y1
    have h1 : Keeps s y1 := (keeps_shed h)
    clear_value y1
    extract_lets +onlyGivenNames -merge -underBinder y2
    clear_value y2
    extract_lets +onlyGivenNames -merge -underBinder y3
    have h3 : Keeps s y3 := (Keeps.upd h1)
    clear_value y3
    exact (keeps_shed (keeps_logReport h3))

theorem keeps_addEcho {s : State} {a0 : State} {a1} {a2} (h : Keeps s a0) : Keeps s (State.addEcho a0 a1 a2) := by
  unfold State.addEcho
  split
  · extract_lets +onlyGivenNames -merge -underBinder y1
    have h1 : Keeps s y1 := (keeps_raiseEcho h)
    clear_value y1
    exact (Keeps.ite (keeps_spareRepairs h1) h1)
  · exact h

theorem keeps_effEchoWindowEnd {s : State} {a0} {a1} {a2 : State} (h : Keeps s a2) : Keeps s (effEchoWindowEnd a0 a1 a2) := by
  unfold effEchoWindowEnd
  split
  · exact h
  · refine Keeps.ite ?_ ?_
    · exact h
    · extract_lets +onlyGivenNames -merge -underBinder y1
      have h1 : Keeps s y1 := (Keeps.ite (keeps_effIncidentReport h) h)
      clear_value y1
      extract_lets +onlyGivenNames -merge -underBinder y2
      have h2 : Keeps s y2 := (Keeps.upd h1)
      clear_value y2
      extract_lets +onlyGivenNames -merge -underBinder y3
      have h3 : Keeps s y3 := (Keeps.ite h2 (keeps_addEcho h2))
      clear_value y3
      extract_lets +onlyGivenNames -merge -underBinder y4
      clear_value y4
      extract_lets +onlyGivenNames -merge -underBinder y5
      have h5 : Keeps s y5 := (Keeps.ite h3 (Keeps.upd h3))
      clear_value y5
      split
      · exact (keeps_sendReport (Keeps.upd h5))
      · exact h5

theorem keeps_backedWrite {s : State} {a0 : State} {a1} {a2} {a3} {a4} (h : Keeps s a0) (hk1 : ∀ b0, Keeps s b0 → Keeps s (a4 b0)) : Keeps s (State.backedWrite a0 a1 a2 a3 a4) := by
  unfold State.backedWrite
  exact (Keeps.ite (Keeps.upd h) (hk1 _ h))

theorem keeps_effLibIncHeadWrite {s : State} {a0} {a1 : State} (h : Keeps s a1) : Keeps s (effLibIncHeadWrite a0 a1) := by
  unfold effLibIncHeadWrite
  exact (keeps_backedWrite h (fun _ h1_0 => (keeps_setReg h1_0)))

end Sys2Proof.Machine
end

