-- ==== Sys2Proof/Laws/KeepsPanel.lean ====
section
/-!
SUPPORT. That each operation of these keeps what `Keeps` says (Laws/Keeps.lean), one lemma for each:
the service rings, the mailbox and partitions, images, start, power, the requests of hosts and the tick.
-/

namespace Sys2Proof.Machine

theorem keeps_refreshSvc {s : State} {a0 : State} {a1} {a2} (h : Keeps s a0) : Keeps s (State.refreshSvc a0 a1 a2) := by
  unfold State.refreshSvc
  extract_lets +onlyGivenNames -merge -underBinder y1
  clear_value y1
  refine Keeps.ite ?_ ?_
  · exact h
  · extract_lets +onlyGivenNames -merge -underBinder y2
    clear_value y2
    extract_lets +onlyGivenNames -merge -underBinder y3
    clear_value y3
    extract_lets +onlyGivenNames -merge -underBinder y4
    have h4 : ∀ b4_0, Keeps s (y4 b4_0) := by
      intro b4_0
      unfold y4
      exact (keeps_setFld h)
    clear_value y4
    exact (Keeps.ite (h4 _) (Keeps.ite (h4 _) (Keeps.ite (h4 _) (h4 _))))

theorem keeps_afterSvc {s : State} {a0 : State} {a1} {a2} {a3} {a4} (h : Keeps s a0) : Keeps s (State.afterSvc a0 a1 a2 a3 a4) := by
  unfold State.afterSvc
  refine Keeps.ite ?_ ?_
  · extract_lets +onlyGivenNames -merge -underBinder y1
    clear_value y1
    extract_lets +onlyGivenNames -merge -underBinder y2
    clear_value y2
    extract_lets +onlyGivenNames -merge -underBinder y3
    have h3 : Keeps s y3 := (keeps_report h)
    clear_value y3
    extract_lets +onlyGivenNames -merge -underBinder y4
    have h4 : Keeps s y4 := (keeps_killContext h3)
    clear_value y4
    exact (Keeps.ite h4 (keeps_setFld (keeps_setFld h4)))
  · exact (Keeps.ite (keeps_setFld (keeps_setFld h)) h)

theorem keeps_freeClerk {s : State} {a0 : State} {a1} (h : Keeps s a0) : Keeps s (State.freeClerk a0 a1) := by
  unfold State.freeClerk
  exact (keeps_setFld h)

theorem keeps_svcComplete {s : State} {a0 : State} {a1} {a2} {a3} {a4} {a5} {a6} {a7} (h : Keeps s a0) : Keeps s (State.svcComplete a0 a1 a2 a3 a4 a5 a6 a7) := by
  unfold State.svcComplete
  extract_lets +onlyGivenNames -merge -underBinder y1
  clear_value y1
  extract_lets +onlyGivenNames -merge -underBinder y2
  clear_value y2
  extract_lets +onlyGivenNames -merge -underBinder y3
  have h3 : Keeps s y3 := by
    unfold y3
    split
    · extract_lets +onlyGivenNames -merge -underBinder y4
      have h4 : Keeps s y4 := (Keeps.foldl (keeps_freeClerk h) fun _ _ h5 => (keeps_freeClerk h5))
      clear_value y4
      exact (Keeps.upd h4)
    · exact h
  clear_value y3
  extract_lets +onlyGivenNames -merge -underBinder y6
  have h6 : Keeps s y6 := (keeps_bump h3)
  clear_value y6
  extract_lets +onlyGivenNames -merge -underBinder y7
  have h7 : Keeps s y7 := by
    unfold y7
    split
    · exact (Keeps.ite (Keeps.upd h6) h6)
    · exact h6
  clear_value y7
  extract_lets +onlyGivenNames -merge -underBinder y8
  clear_value y8
  extract_lets +onlyGivenNames -merge -underBinder y9
  have h9 : Keeps s y9 := (keeps_setRecX h7)
  clear_value y9
  extract_lets +onlyGivenNames -merge -underBinder y10
  have h10 : Keeps s y10 := (Keeps.ite h9 (Keeps.ite (keeps_drop h9) (Keeps.ite (keeps_emitRecord h9) h9)))
  clear_value y10
  extract_lets +onlyGivenNames -merge -underBinder y11
  have h11 : Keeps s y11 := (Keeps.ite h10 (keeps_afterSvc h10))
  clear_value y11
  exact (keeps_refreshSvc h11)

theorem keeps_svcPump_aux {s : State} : ∀ a0 a1 a2 a3, Keeps s a0 → Keeps s (State.svcPump a0 a1 a2 a3)
  | x0, x1, x2, 0, h => by
    rw [State.svcPump]
    exact h
  | x0, x1, x2, (x3 + 1), h => by
    rw [State.svcPump]
    refine Keeps.ite ?_ ?_
    · exact h
    · refine Keeps.ite ?_ ?_
      · exact (keeps_setFld h)
      · extract_lets +onlyGivenNames -merge -underBinder y1
        have h1 : Keeps s y1.1 := (keeps_readVa h)
        clear_value y1
        extract_lets +onlyGivenNames -merge -underBinder y2
        have h2 : ∀ b2_0, Keeps s b2_0 → Keeps s (y2 b2_0) := by
          intro b2_0 g2_0
          unfold y2
          exact (keeps_bump g2_0)
        clear_value y2
        split
        · exact h1
        · exact (keeps_svcPump_aux _ _ _ _ (keeps_svcComplete (h2 _ h1)))
        · extract_lets +onlyGivenNames -merge -underBinder y3
          clear_value y3
          extract_lets +onlyGivenNames -merge -underBinder y4
          have h4 : Keeps s y4 := (h2 _ h1)
          clear_value y4
          extract_lets +onlyGivenNames -merge -underBinder y5
          clear_value y5
          extract_lets +onlyGivenNames -merge -underBinder y6
          have h6 : Keeps s y6 := (keeps_setSvcX h4)
          clear_value y6
          exact (Keeps.ite (keeps_svcPump_aux _ _ _ _ (keeps_svcComplete h6)) (Keeps.ite (keeps_svcPump_aux _ _ _ _ (keeps_svcComplete h6)) (keeps_refreshSvc (keeps_setSvcX h6))))

theorem keeps_svcPump {s : State} {a0 : State} {a1} {a2} {a3} (h : Keeps s a0) : Keeps s (State.svcPump a0 a1 a2 a3) := keeps_svcPump_aux a0 a1 a2 a3 h

theorem keeps_svcFetch {s : State} {a0 : State} {a1} {a2} (h : Keeps s a0) : Keeps s (State.svcFetch a0 a1 a2) := by
  unfold State.svcFetch
  exact (keeps_refreshSvc (keeps_svcPump h))

theorem keeps_effSvcTail {s : State} {a0} {a1} {a2} {a3 : State} (h : Keeps s a3) : Keeps s (effSvcTail a0 a1 a2 a3) := by
  unfold effSvcTail
  extract_lets +onlyGivenNames -merge -underBinder y1
  clear_value y1
  extract_lets +onlyGivenNames -merge -underBinder y2
  clear_value y2
  extract_lets +onlyGivenNames -merge -underBinder y3
  clear_value y3
  exact (Keeps.ite (keeps_dbErr h) (keeps_svcFetch (keeps_setFld h)))

theorem keeps_effSvcCfgWrite {s : State} {a0} {a1} {a2} {a3 : State} (h : Keeps s a3) : Keeps s (effSvcCfgWrite a0 a1 a2 a3) := by
  unfold effSvcCfgWrite
  extract_lets +onlyGivenNames -merge -underBinder y1
  clear_value y1
  extract_lets +onlyGivenNames -merge -underBinder y2
  clear_value y2
  extract_lets +onlyGivenNames -merge -underBinder y3
  have h3 : Keeps s y3 := (Keeps.ite h (keeps_setFld (keeps_setFld (keeps_setFld h))))
  clear_value y3
  extract_lets +onlyGivenNames -merge -underBinder y4
  have h4 : Keeps s y4 := (keeps_setFld (keeps_setFld h3))
  clear_value y4
  extract_lets +onlyGivenNames -merge -underBinder y5
  have h5 : Keeps s y5 := (Keeps.ite (keeps_setFld h4) h4)
  clear_value y5
  exact (keeps_svcFetch h5)

theorem keeps_effSvcResume {s : State} {a0} {a1} {a2 : State} (h : Keeps s a2) : Keeps s (effSvcResume a0 a1 a2) := by
  unfold effSvcResume
  exact (Keeps.ite (keeps_svcFetch (keeps_setFld (keeps_setFld h))) (Keeps.ite (keeps_svcFetch (keeps_retryRecords h)) h))

theorem keeps_abortHeld {s : State} {a0 : State} {a1} {a2} (h : Keeps s a0) : Keeps s (State.abortHeld a0 a1 a2) := by
  unfold State.abortHeld
  split
  · exact h
  · exact (Keeps.ite (keeps_svcFetch (keeps_svcComplete (keeps_setSvcX h))) (keeps_setSvcX h))

theorem keeps_abortOps {s : State} {a0 : State} {a1} {a2} {a3} (h : Keeps s a0) : Keeps s (State.abortOps a0 a1 a2 a3) := by
  unfold State.abortOps
  exact (Keeps.upd h)

theorem keeps_effSvcAbort {s : State} {a0} {a1} {a2} {a3 : State} (h : Keeps s a3) : Keeps s (effSvcAbort a0 a1 a2 a3) := by
  unfold effSvcAbort
  extract_lets +onlyGivenNames -merge -underBinder y1
  clear_value y1
  exact (Keeps.ite (keeps_abortOps h) (Keeps.ite (keeps_abortHeld h) (Keeps.ite h (Keeps.ite (keeps_dbErr h) (keeps_setSvcX h)))))

theorem keeps_svcAbortAll {s : State} {a0 : State} {a1} {a2} (h : Keeps s a0) : Keeps s (State.svcAbortAll a0 a1 a2) := by
  unfold State.svcAbortAll
  extract_lets +onlyGivenNames -merge -underBinder y1
  have h1 : Keeps s y1 := (keeps_abortOps h)
  clear_value y1
  extract_lets +onlyGivenNames -merge -underBinder y2
  clear_value y2
  extract_lets +onlyGivenNames -merge -underBinder y3
  have h3 : Keeps s y3 := (keeps_setSvcX h1)
  clear_value y3
  exact (keeps_svcFetch (keeps_abortHeld h3))

theorem keeps_takeClerk {s : State} {a0 : State} {a1} {a2} {a3} {a4} {a5} (h : Keeps s a0) : Keeps s (State.takeClerk a0 a1 a2 a3 a4 a5) := by
  unfold State.takeClerk
  exact (keeps_setFld h)

theorem keeps_clerkRange_aux {s : State} : ∀ a0 a1 a2 a3 a4 a5 a6, Keeps s a0 → Keeps s (State.clerkRange a0 a1 a2 a3 a4 a5 a6).1
  | x0, x1, x2, x3, 0, x4, x5, h => by
    rw [State.clerkRange]
    exact h
  | x0, x1, x2, x3, (x6 + 1), x4, x5, h => by
    rw [State.clerkRange]
    refine Keeps.iteFst ?_ ?_
    · exact h
    · extract_lets +onlyGivenNames -merge -underBinder y1
      clear_value y1
      extract_lets +onlyGivenNames -merge -underBinder y2
      have h2 : Keeps s y2.1 := (keeps_xlat h)
      clear_value y2
      split
      · exact h2
      · refine Keeps.iteFst ?_ ?_
        · exact h2
        · refine Keeps.iteFst ?_ ?_
          · exact h2
          · refine Keeps.iteFst ?_ ?_
            · split
              · exact h2
              · exact (keeps_clerkRange_aux _ _ _ _ _ _ _ h2)
            · exact (keeps_clerkRange_aux _ _ _ _ _ _ _ h2)

theorem keeps_clerkRange {s : State} {a0 : State} {a1} {a2} {a3} {a4} {a5} {a6} (h : Keeps s a0) : Keeps s (State.clerkRange a0 a1 a2 a3 a4 a5 a6).1 := keeps_clerkRange_aux a0 a1 a2 a3 a4 a5 a6 h

theorem keeps_clerkRanges_aux {s : State} : ∀ a0 a1 a2, Keeps s a0 → Keeps s (State.clerkRanges a0 a1 a2).1
  | x0, x1, [], h => by
    rw [State.clerkRanges]
    exact h
  | x0, x1, (x2, x3, x4, x5) :: x6, h => by
    rw [State.clerkRanges]
    split
    · exact (Keeps.pair (keeps_clerkRange h))
    · exact (keeps_clerkRanges_aux _ _ _ (keeps_clerkRange h))

theorem keeps_clerkRanges {s : State} {a0 : State} {a1} {a2} (h : Keeps s a0) : Keeps s (State.clerkRanges a0 a1 a2).1 := keeps_clerkRanges_aux a0 a1 a2 h

theorem keeps_readNum {s : State} {a0 : State} {a1} {a2} {a3} (h : Keeps s a0) : Keeps s (State.readNum a0 a1 a2 a3).1 := by
  unfold State.readNum
  extract_lets +onlyGivenNames -merge -underBinder y1
  have h1 : Keeps s y1.1 := (keeps_readVa h)
  clear_value y1
  exact h1

theorem keeps_physRuns_aux {s : State} : ∀ a0 a1 a2 a3 a4 a5 a6, Keeps s a0 → Keeps s (State.physRuns a0 a1 a2 a3 a4 a5 a6).1
  | x0, x1, x2, 0, x3, x4, x5, h => by
    rw [State.physRuns]
    exact h
  | x0, x1, x2, (x6 + 1), x3, x4, x5, h => by
    rw [State.physRuns]
    refine Keeps.iteFst ?_ ?_
    · exact h
    · extract_lets +onlyGivenNames -merge -underBinder y1
      clear_value y1
      extract_lets +onlyGivenNames -merge -underBinder y2
      have h2 : Keeps s y2.1 := (keeps_xlat h)
      clear_value y2
      split
      · exact h2
      · refine Keeps.iteFst ?_ ?_
        · exact h2
        · extract_lets +onlyGivenNames -merge -underBinder y3
          clear_value y3
          exact (keeps_physRuns_aux _ _ _ _ _ _ _ h2)

theorem keeps_physRuns {s : State} {a0 : State} {a1} {a2} {a3} {a4} {a5} {a6} (h : Keeps s a0) : Keeps s (State.physRuns a0 a1 a2 a3 a4 a5 a6).1 := keeps_physRuns_aux a0 a1 a2 a3 a4 a5 a6 h

theorem keeps_svcWait {s : State} {a0 : State} {a1} {a2} (h : Keeps s a0) : Keeps s (State.svcWait a0 a1 a2).1 := by
  unfold State.svcWait
  refine Keeps.iteFst ?_ ?_
  · exact h
  · extract_lets +onlyGivenNames -merge -underBinder y1
    have h1 : Keeps s y1.1 := (keeps_clerkRanges h)
    clear_value y1
    split
    · exact h1
    · extract_lets +onlyGivenNames -merge -underBinder y2
      have h2 : Keeps s y2.1 := (keeps_readNum h1)
      clear_value y2
      split
      · exact h2
      · exact h2
      · exact h2

theorem keeps_svcBegin {s : State} {a0 : State} {a1} {a2} {a3} {a4} {a5} {a6} {a7} {a8} {a9} {a10} {a11} (h : Keeps s a0) : Keeps s (State.svcBegin a0 a1 a2 a3 a4 a5 a6 a7 a8 a9 a10 a11).1 := by
  unfold State.svcBegin
  extract_lets +onlyGivenNames -merge -underBinder y1
  clear_value y1
  extract_lets +onlyGivenNames -merge -underBinder y2
  clear_value y2
  extract_lets +onlyGivenNames -merge -underBinder y3
  have h3 : Keeps s y3 := (keeps_takeClerk h)
  clear_value y3
  extract_lets +onlyGivenNames -merge -underBinder y4
  have h4 : Keeps s y4 := (keeps_bump h3)
  clear_value y4
  extract_lets +onlyGivenNames -merge -underBinder y5
  have h5 : Keeps s y5 := (Keeps.foldl h4 fun _ _ h6 => (keeps_takeClerk h6))
  clear_value y5
  extract_lets +onlyGivenNames -merge -underBinder y7
  clear_value y7
  extract_lets +onlyGivenNames -merge -underBinder y8
  clear_value y8
  extract_lets +onlyGivenNames -merge -underBinder y9
  have h9 : Keeps s y9 := (keeps_setSvcX h5)
  clear_value y9
  exact (Keeps.pair (keeps_refreshSvc (Keeps.upd h9)))

theorem keeps_opDone {s : State} {a0 : State} {a1} {a2} {a3} (h : Keeps s a0) : Keeps s (State.opDone a0 a1 a2 a3) := by
  unfold State.opDone
  exact (keeps_svcComplete h)

theorem keeps_opFail {s : State} {a0 : State} {a1} {a2} {a3} {a4} {a5} (h : Keeps s a0) : Keeps s (State.opFail a0 a1 a2 a3 a4 a5) := by
  unfold State.opFail
  exact (keeps_svcComplete h)

theorem keeps_svcRefuse {s : State} {a0 : State} {a1} {a2} {a3} {a4} {a5} {a6} {a7} (h : Keeps s a0) : Keeps s (State.svcRefuse a0 a1 a2 a3 a4 a5 a6 a7) := by
  unfold State.svcRefuse
  extract_lets +onlyGivenNames -merge -underBinder y1
  have h1 : Keeps s y1.1 := (keeps_svcBegin h)
  clear_value y1
  exact (keeps_svcComplete h1)

theorem keeps_svcReject {s : State} {a0 : State} {a1} {a2} {a3} {a4} {a5} (h : Keeps s a0) : Keeps s (State.svcReject a0 a1 a2 a3 a4 a5) := by
  unfold State.svcReject
  exact (keeps_svcFetch (keeps_svcComplete (keeps_setSvcX h)))

theorem keeps_svcTry {s : State} {a0 : State} {a1} {a2} {a3} {a4} (h : Keeps s a0) (hk1 : ∀ b0 b1 b2 b3, Keeps s b0 → Keeps s (a4 b0 b1 b2 b3)) : Keeps s (State.svcTry a0 a1 a2 a3 a4).1 := by
  unfold State.svcTry
  extract_lets +onlyGivenNames -merge -underBinder y1
  have h1 : Keeps s y1 := (keeps_svcFetch h)
  clear_value y1
  split
  · exact h1
  · refine Keeps.iteFst ?_ ?_
    · exact (Keeps.pair (Keeps.ite (keeps_setFld h1) h1))
    · split
      · exact h1
      · extract_lets +onlyGivenNames -merge -underBinder y2
        have h2 : Keeps s y2.1 := (keeps_svcWait h1)
        clear_value y2
        split
        · exact h2
        · exact (Keeps.pair (keeps_svcReject h2))
        · exact (Keeps.pair (keeps_svcFetch (hk1 _ _ _ _ h2)))

theorem keeps_clerkRow {s : State} {a0 : State} {a1} {a2} {a3} {a4} {a5} (h : Keeps s a0) (hk1 : ∀ b0 b1 b2 b3, Keeps s b0 → Keeps s (a4 b0 b1 b2 b3)) (hk2 : ∀ b0 b1, Keeps s b0 → Keeps s (a5 b0 b1)) : Keeps s (State.clerkRow a0 a1 a2 a3 a4 a5) := by
  unfold State.clerkRow
  extract_lets +onlyGivenNames -merge -underBinder y1
  have h1 : Keeps s y1.1 := (keeps_svcTry h (fun _ _ _ _ h2_0 => (hk1 _ _ _ _ h2_0)))
  clear_value y1
  refine Keeps.ite ?_ ?_
  · exact h1
  · extract_lets +onlyGivenNames -merge -underBinder y3
    have h3 : Keeps s y3 := by
      unfold y3
      refine Keeps.foldl ?_ fun y6 a6 h6 => ?_
      · exact h1
      · refine Keeps.ite ?_ ?_
        · split
          · exact (hk2 _ _ h6)
          · exact h6
        · exact h6
    clear_value y3
    exact (keeps_svcFetch h3)

theorem keeps_effSvcWaitTimeout {s : State} {a0} {a1} {a2 : State} (h : Keeps s a2) : Keeps s (effSvcWaitTimeout a0 a1 a2) := by
  unfold effSvcWaitTimeout
  split
  · exact (Keeps.ite (keeps_svcReject h) h)
  · split
    · exact (keeps_svcFetch (keeps_opDone h))
    · exact h

theorem keeps_readAll_aux {s : State} : ∀ a0 a1 a2 a3, Keeps s a0 → Keeps s (State.readAll a0 a1 a2 a3).1
  | x0, x1, [], x2, h => by
    rw [State.readAll]
    exact h
  | x0, x1, (x3, x4) :: x5, x2, h => by
    rw [State.readAll]
    split
    · exact (keeps_readAll_aux _ _ _ _ (keeps_readVa h))
    · exact (Keeps.pair (keeps_readVa h))
    · exact (Keeps.pair (keeps_readVa h))

theorem keeps_readAll {s : State} {a0 : State} {a1} {a2} {a3} (h : Keeps s a0) : Keeps s (State.readAll a0 a1 a2 a3).1 := keeps_readAll_aux a0 a1 a2 a3 h

theorem keeps_writeAll_aux {s : State} : ∀ a0 a1 a2, Keeps s a0 → Keeps s (State.writeAll a0 a1 a2).1
  | x0, x1, [], h => by
    rw [State.writeAll]
    exact h
  | x0, x1, (x2, x3) :: x4, h => by
    rw [State.writeAll]
    split
    · exact (keeps_writeAll_aux _ _ _ (keeps_writeVa h))
    · exact (Keeps.pair (keeps_writeVa h))

theorem keeps_writeAll {s : State} {a0 : State} {a1} {a2} (h : Keeps s a0) : Keeps s (State.writeAll a0 a1 a2).1 := keeps_writeAll_aux a0 a1 a2 h

theorem keeps_addHbm {s : State} {a0 : State} {a1} {a2} {a3} {a4} (h : Keeps s a0) : Keeps s (State.addHbm a0 a1 a2 a3 a4) := by
  unfold State.addHbm
  extract_lets +onlyGivenNames -merge -underBinder y1
  clear_value y1
  refine Keeps.ite ?_ ?_
  · refine Keeps.foldl ?_ fun y4 a4 h4 => ?_
    · exact h
    · extract_lets +onlyGivenNames -merge -underBinder y5
      clear_value y5
      extract_lets +onlyGivenNames -merge -underBinder y6
      clear_value y6
      exact (keeps_sendReduce h4)
  · extract_lets +onlyGivenNames -merge -underBinder y7
    have h7 : Keeps s y7 := (Keeps.foldl h fun _ _ h8 => (keeps_sendAtom h8))
    clear_value y7
    exact (keeps_modOp h7)

theorem keeps_addRemote {s : State} {a0 : State} {a1} {a2} {a3} {a4} (h : Keeps s a0) : Keeps s (State.addRemote a0 a1 a2 a3 a4) := by
  unfold State.addRemote
  extract_lets +onlyGivenNames -merge -underBinder y1
  clear_value y1
  refine Keeps.foldl ?_ fun y3 a3 h3 => ?_
  · exact h
  · extract_lets +onlyGivenNames -merge -underBinder y4
    have h4 : Keeps s y4.1 := (keeps_sendRemoteAtom h3)
    clear_value y4
    exact (keeps_modOp h4)

theorem keeps_clerkAddN_aux {s : State} : ∀ a0 a1 a2 a3 a4 a5, Keeps s a0 → Keeps s (State.clerkAddN a0 a1 a2 a3 a4 a5).1
  | x0, x1, x2, 0, x3, x4, h => by
    rw [State.clerkAddN]
    exact h
  | x0, x1, x2, (x5 + 1), x3, x4, h => by
    rw [State.clerkAddN]
    refine Keeps.iteFst ?_ ?_
    · exact h
    · extract_lets +onlyGivenNames -merge -underBinder y1
      clear_value y1
      extract_lets +onlyGivenNames -merge -underBinder y2
      have h2 : Keeps s y2.1 := (keeps_xlat h)
      clear_value y2
      split
      · exact h2
      · exact (Keeps.iteFst (keeps_clerkAddN_aux _ _ _ _ _ _ (keeps_addRemote h2)) (Keeps.iteFst h2 (Keeps.iteFst h2 (keeps_clerkAddN_aux _ _ _ _ _ _ (keeps_addHbm h2)))))

theorem keeps_clerkAddN {s : State} {a0 : State} {a1} {a2} {a3} {a4} {a5} (h : Keeps s a0) : Keeps s (State.clerkAddN a0 a1 a2 a3 a4 a5).1 := keeps_clerkAddN_aux a0 a1 a2 a3 a4 a5 h

theorem keeps_clerkAdd {s : State} {a0 : State} {a1} {a2} {a3} {a4} (h : Keeps s a0) : Keeps s (State.clerkAdd a0 a1 a2 a3 a4).1 := by
  unfold State.clerkAdd
  exact (keeps_clerkAddN h)

theorem keeps_clerkAdds_aux {s : State} : ∀ a0 a1 a2 a3 a4, Keeps s a0 → Keeps s (State.clerkAdds a0 a1 a2 a3 a4).1
  | x0, x1, x2, x3, [], h => by
    rw [State.clerkAdds]
    exact h
  | x0, x1, x2, x3, x4 :: x5, h => by
    rw [State.clerkAdds]
    split
    · exact (keeps_clerkAdds_aux _ _ _ _ _ (keeps_clerkAdd h))
    · exact (Keeps.pair (keeps_clerkAdd h))

theorem keeps_clerkAdds {s : State} {a0 : State} {a1} {a2} {a3} {a4} (h : Keeps s a0) : Keeps s (State.clerkAdds a0 a1 a2 a3 a4).1 := keeps_clerkAdds_aux a0 a1 a2 a3 a4 h

theorem keeps_startColl {s : State} {a0} {a1} {a2 : State} {a3} {a4} {a5} (h : Keeps s a2) : Keeps s (State.startColl a0 a1 a2 a3 a4 a5) := by
  unfold State.startColl
  extract_lets +onlyGivenNames -merge -underBinder y1
  clear_value y1
  extract_lets +onlyGivenNames -merge -underBinder y2
  clear_value y2
  extract_lets +onlyGivenNames -merge -underBinder y3
  have h3 : Keeps s y3.1 := (keeps_clerkRanges h)
  clear_value y3
  split
  · exact (keeps_svcRefuse h3)
  · extract_lets +onlyGivenNames -merge -underBinder y4
    have h4 : Keeps s y4.1 := (keeps_readAll h3)
    clear_value y4
    split
    · exact h4
    · exact (keeps_svcRefuse h4)
    · split
      · exact (keeps_svcRefuse h4)
      · refine Keeps.ite ?_ ?_
        · exact (keeps_svcRefuse h4)
        · extract_lets +onlyGivenNames -merge -underBinder y5
          have h5 : Keeps s y5.1 := (keeps_writeAll h4)
          clear_value y5
          split
          · exact h
          · exact (keeps_svcRefuse h5)
          · extract_lets +onlyGivenNames -merge -underBinder y6
            clear_value y6
            extract_lets +onlyGivenNames -merge -underBinder y7
            clear_value y7
            extract_lets +onlyGivenNames -merge -underBinder y8
            have h8 : Keeps s y8.1 := (keeps_svcBegin h5)
            clear_value y8
            extract_lets +onlyGivenNames -merge -underBinder y9
            have h9 : Keeps s y9.1 := (keeps_clerkAdds h8)
            clear_value y9
            split
            · exact (keeps_opFail h9)
            · exact h9
    · exact h4

theorem keeps_opSend {s : State} {a0 : State} {a1} {a2} {a3} {a4} {a5} {a6} {a7} (h : Keeps s a0) : Keeps s (State.opSend a0 a1 a2 a3 a4 a5 a6 a7) := by
  unfold State.opSend
  extract_lets +onlyGivenNames -merge -underBinder y1
  have h1 : Keeps s y1.1 := (keeps_fabRequest h)
  clear_value y1
  exact (keeps_modOp h1)

theorem keeps_sendTag {s : State} {a0 : State} {a1} {a2} {a3} {a4} (h : Keeps s a0) : Keeps s (State.sendTag a0 a1 a2 a3 a4) := by
  unfold State.sendTag
  extract_lets +onlyGivenNames -merge -underBinder y1
  clear_value y1
  exact (keeps_opSend h)

theorem keeps_sendSlot {s : State} {a0 : State} {a1} {a2} {a3} {a4} (h : Keeps s a0) : Keeps s (State.sendSlot a0 a1 a2 a3 a4) := by
  unfold State.sendSlot
  extract_lets +onlyGivenNames -merge -underBinder y1
  clear_value y1
  extract_lets +onlyGivenNames -merge -underBinder y2
  clear_value y2
  extract_lets +onlyGivenNames -merge -underBinder y3
  clear_value y3
  refine Keeps.foldl ?_ fun y5 a5 h5 => ?_
  · exact h
  · extract_lets +onlyGivenNames -merge -underBinder y6
    clear_value y6
    exact (keeps_opSend h5)

theorem keeps_setOp {s : State} {a0 : State} {a1} (h : Keeps s a0) : Keeps s (State.setOp a0 a1) := by
  unfold State.setOp
  exact (keeps_modOp h)

theorem keeps_collSend {s : State} {a0 : State} {a1} (h : Keeps s a0) : Keeps s (State.collSend a0 a1) := by
  unfold State.collSend
  extract_lets +onlyGivenNames -merge -underBinder y1
  clear_value y1
  extract_lets +onlyGivenNames -merge -underBinder y2
  clear_value y2
  extract_lets +onlyGivenNames -merge -underBinder y3
  clear_value y3
  extract_lets +onlyGivenNames -merge -underBinder y4
  have h4 : Keeps s y4.1 := (keeps_readNum h)
  clear_value y4
  split
  · exact h4
  · exact (keeps_opFail h4)
  · refine Keeps.ite ?_ ?_
    · exact h4
    · extract_lets +onlyGivenNames -merge -underBinder y5
      have h5 : Keeps s y5.1 := (keeps_readVa h4)
      clear_value y5
      split
      · exact h5
      · exact (keeps_opFail h5)
      · extract_lets +onlyGivenNames -merge -underBinder y6
        have h6 : Keeps s y6 := (keeps_sendSlot h5)
        clear_value y6
        extract_lets +onlyGivenNames -merge -underBinder y7
        have h7 : Keeps s y7 := (Keeps.ite (keeps_sendTag h6) h6)
        clear_value y7
        exact (keeps_setOp h7)

theorem keeps_collNext {s : State} {a0 : State} {a1} (h : Keeps s a0) : Keeps s (State.collNext a0 a1) := by
  unfold State.collNext
  extract_lets +onlyGivenNames -merge -underBinder y1
  clear_value y1
  extract_lets +onlyGivenNames -merge -underBinder y2
  clear_value y2
  extract_lets +onlyGivenNames -merge -underBinder y3
  have h3 : Keeps s y3 := (Keeps.ite h (keeps_sendTag h))
  clear_value y3
  exact (keeps_setOp h3)

theorem keeps_collCopy {s : State} {a0 : State} {a1} {a2} (h : Keeps s a0) : Keeps s (State.collCopy a0 a1 a2) := by
  unfold State.collCopy
  extract_lets +onlyGivenNames -merge -underBinder y1
  clear_value y1
  extract_lets +onlyGivenNames -merge -underBinder y2
  clear_value y2
  extract_lets +onlyGivenNames -merge -underBinder y3
  have h3 : Keeps s y3.1 := (keeps_readVa h)
  clear_value y3
  split
  · exact h3
  · exact (keeps_opFail h3)
  · extract_lets +onlyGivenNames -merge -underBinder y4
    have h4 : Keeps s y4.1 := (keeps_writeVa h3)
    clear_value y4
    split
    · exact h
    · exact (keeps_opFail h4)
    · exact (keeps_collNext h4)

theorem keeps_collReceive {s : State} {a0 : State} {a1} (h : Keeps s a0) : Keeps s (State.collReceive a0 a1) := by
  unfold State.collReceive
  extract_lets +onlyGivenNames -merge -underBinder y1
  clear_value y1
  extract_lets +onlyGivenNames -merge -underBinder y2
  clear_value y2
  extract_lets +onlyGivenNames -merge -underBinder y3
  clear_value y3
  extract_lets +onlyGivenNames -merge -underBinder y4
  have h4 : Keeps s y4.1 := (keeps_readNum h)
  clear_value y4
  split
  · exact h4
  · exact (keeps_opFail h4)
  · refine Keeps.ite ?_ ?_
    · exact h4
    · refine Keeps.ite ?_ ?_
      · extract_lets +onlyGivenNames -merge -underBinder y5
        have h5 : Keeps s y5.1 := (keeps_readVa h4)
        clear_value y5
        split
        · exact h5
        · exact (keeps_opFail h5)
        · extract_lets +onlyGivenNames -merge -underBinder y6
          have h6 : Keeps s y6.1 := (keeps_clerkAdd h5)
          clear_value y6
          split
          · exact (keeps_opFail h6)
          · exact (keeps_setOp h6)
      · exact (keeps_collCopy h4)

theorem keeps_collAdded {s : State} {a0 : State} {a1} (h : Keeps s a0) : Keeps s (State.collAdded a0 a1) := by
  unfold State.collAdded
  exact (Keeps.ite h (Keeps.ite (keeps_collCopy h) (keeps_collNext h)))

theorem keeps_collGo {s : State} {a0 : State} {a1} (h : Keeps s a0) : Keeps s (State.collGo a0 a1) := by
  unfold State.collGo
  refine Keeps.ite ?_ ?_
  · exact (keeps_opDone h)
  · split
    · exact (Keeps.ite (keeps_setOp h) h)
    · exact (keeps_collSend h)
    · exact (Keeps.ite h (keeps_setOp (keeps_sendTag h)))
    · exact (keeps_collReceive h)
    · exact (keeps_collAdded h)
    · exact (Keeps.ite (keeps_opDone h) h)

theorem keeps_effFAllreduce {s : State} {a0} {a1} {a2 : State} (h : Keeps s a2) : Keeps s (effFAllreduce a0 a1 a2) := by
  unfold effFAllreduce
  exact (keeps_clerkRow h (fun _ _ _ _ h1_0 => (keeps_startColl h1_0)) (fun _ _ h2_0 => (keeps_collGo h2_0)))

theorem keeps_effFReduceScatter {s : State} {a0} {a1} {a2 : State} (h : Keeps s a2) : Keeps s (effFReduceScatter a0 a1 a2) := by
  unfold effFReduceScatter
  exact (keeps_clerkRow h (fun _ _ _ _ h1_0 => (keeps_startColl h1_0)) (fun _ _ h2_0 => (keeps_collGo h2_0)))

theorem keeps_effFAllgather {s : State} {a0} {a1} {a2 : State} (h : Keeps s a2) : Keeps s (effFAllgather a0 a1 a2) := by
  unfold effFAllgather
  exact (keeps_clerkRow h (fun _ _ _ _ h1_0 => (keeps_startColl h1_0)) (fun _ _ h2_0 => (keeps_collGo h2_0)))

theorem keeps_effFAlltoall {s : State} {a0} {a1} {a2 : State} (h : Keeps s a2) : Keeps s (effFAlltoall a0 a1 a2) := by
  unfold effFAlltoall
  exact (keeps_clerkRow h (fun _ _ _ _ h1_0 => (keeps_startColl h1_0)) (fun _ _ h2_0 => (keeps_collGo h2_0)))

theorem keeps_startCheckpoint {s : State} {a0} {a1} {a2 : State} {a3} {a4} {a5} (h : Keeps s a2) : Keeps s (State.startCheckpoint a0 a1 a2 a3 a4 a5) := by
  unfold State.startCheckpoint
  extract_lets +onlyGivenNames -merge -underBinder y1
  clear_value y1
  extract_lets +onlyGivenNames -merge -underBinder y2
  clear_value y2
  extract_lets +onlyGivenNames -merge -underBinder y3
  have h3 : Keeps s y3.1 := (keeps_clerkRanges h)
  clear_value y3
  split
  · exact (keeps_svcRefuse h3)
  · extract_lets +onlyGivenNames -merge -underBinder y4
    have h4 : Keeps s y4.1 := (keeps_readVa h3)
    clear_value y4
    split
    · exact h4
    · exact (keeps_svcRefuse h4)
    · split
      · exact (keeps_svcRefuse h4)
      · extract_lets +onlyGivenNames -merge -underBinder y5
        clear_value y5
        extract_lets +onlyGivenNames -merge -underBinder y6
        have h6 : Keeps s y6.1 := (keeps_clerkRanges h4)
        clear_value y6
        split
        · exact (keeps_svcRefuse h6)
        · extract_lets +onlyGivenNames -merge -underBinder y7
          have h7 : Keeps s y7.1 := (Keeps.iteFst h6 (keeps_readAll h6))
          clear_value y7
          split
          · exact h7
          · exact (keeps_svcRefuse h7)
          · extract_lets +onlyGivenNames -merge -underBinder y8
            clear_value y8
            extract_lets +onlyGivenNames -merge -underBinder y9
            have h9 : Keeps s y9.1 := (keeps_writeAll h7)
            clear_value y9
            split
            · exact h
            · exact (keeps_svcRefuse h9)
            · exact (keeps_svcBegin h9)

theorem keeps_putRun {s : State} {a0 : State} {a1} {a2} {a3} {a4} {a5} (h : Keeps s a0) : Keeps s (State.putRun a0 a1 a2 a3 a4 a5) := by
  unfold State.putRun
  extract_lets +onlyGivenNames -merge -underBinder y1
  clear_value y1
  extract_lets +onlyGivenNames -merge -underBinder y2
  clear_value y2
  extract_lets +onlyGivenNames -merge -underBinder y3
  have h3 : Keeps s y3 := (keeps_opSend h)
  clear_value y3
  extract_lets +onlyGivenNames -merge -underBinder y4
  have h4 : Keeps s y4 := (Keeps.foldl h3 fun _ _ h5 => (keeps_opSend h5))
  clear_value y4
  exact (keeps_opSend h4)

theorem keeps_ckRuns_aux {s : State} : ∀ a0 a1 a2 a3, Keeps s a0 → Keeps s (State.ckRuns a0 a1 a2 a3).1
  | x0, x1, [], x2, h => by
    rw [State.ckRuns]
    exact h
  | x0, x1, (x3, x4, x5) :: x6, x2, h => by
    rw [State.ckRuns]
    split
    · exact (Keeps.pair (keeps_physRuns h))
    · extract_lets +onlyGivenNames -merge -underBinder y1
      have h1 : Keeps s y1.1 := (keeps_readVa (keeps_physRuns h))
      clear_value y1
      split
      · exact h1
      · exact h1
      · extract_lets +onlyGivenNames -merge -underBinder y2
        clear_value y2
        exact (keeps_ckRuns_aux _ _ _ _ h1)

theorem keeps_ckRuns {s : State} {a0 : State} {a1} {a2} {a3} (h : Keeps s a0) : Keeps s (State.ckRuns a0 a1 a2 a3).1 := keeps_ckRuns_aux a0 a1 a2 a3 h

theorem keeps_checkpointGo {s : State} {a0 : State} {a1} (h : Keeps s a0) : Keeps s (State.checkpointGo a0 a1) := by
  unfold State.checkpointGo
  refine Keeps.ite ?_ ?_
  · exact (keeps_opDone h)
  · refine Keeps.ite ?_ ?_
    · extract_lets +onlyGivenNames -merge -underBinder y1
      have h1 : Keeps s y1.1 := (keeps_ckRuns h)
      clear_value y1
      split
      · exact h1
      · exact (keeps_opFail h1)
      · extract_lets +onlyGivenNames -merge -underBinder y2
        have h2 : Keeps s y2 := (Keeps.foldl h1 fun _ _ h3 => (keeps_putRun h3))
        clear_value y2
        exact (keeps_setOp h2)
    · exact (Keeps.ite (keeps_opDone h) h)

theorem keeps_effCheckpoint {s : State} {a0} {a1} {a2 : State} (h : Keeps s a2) : Keeps s (effCheckpoint a0 a1 a2) := by
  unfold effCheckpoint
  exact (keeps_clerkRow h (fun _ _ _ _ h1_0 => (keeps_startCheckpoint h1_0)) (fun _ _ h2_0 => (keeps_checkpointGo h2_0)))

theorem keeps_startStage {s : State} {a0} {a1} {a2 : State} {a3} {a4} {a5} (h : Keeps s a2) : Keeps s (State.startStage a0 a1 a2 a3 a4 a5) := by
  unfold State.startStage
  extract_lets +onlyGivenNames -merge -underBinder y1
  clear_value y1
  extract_lets +onlyGivenNames -merge -underBinder y2
  clear_value y2
  extract_lets +onlyGivenNames -merge -underBinder y3
  have h3 : Keeps s y3.1 := (keeps_clerkRanges h)
  clear_value y3
  split
  · exact (keeps_svcRefuse h3)
  · exact (keeps_svcBegin h3)

theorem keeps_stageGo {s : State} {a0 : State} {a1} (h : Keeps s a0) : Keeps s (State.stageGo a0 a1) := by
  unfold State.stageGo
  refine Keeps.ite ?_ ?_
  · exact h
  · refine Keeps.ite ?_ ?_
    · exact (keeps_opDone h)
    · split
      · exact (keeps_svcComplete h)
      · exact (Keeps.ite (keeps_svcComplete h) (Keeps.ite (keeps_opDone h) h))

theorem keeps_effStage {s : State} {a0} {a1} {a2 : State} (h : Keeps s a2) : Keeps s (effStage a0 a1 a2) := by
  unfold effStage
  exact (keeps_clerkRow h (fun _ _ _ _ h1_0 => (keeps_startStage h1_0)) (fun _ _ h2_0 => (keeps_stageGo h2_0)))

theorem keeps_sendGets {s : State} {a0 : State} {a1} {a2} {a3} {a4} {a5} (h : Keeps s a0) : Keeps s (State.sendGets a0 a1 a2 a3 a4 a5) := by
  unfold State.sendGets
  refine Keeps.foldlFst ?_ fun y2 a2 h2 => ?_
  · exact h
  · extract_lets +onlyGivenNames -merge -underBinder y3
    clear_value y3
    extract_lets +onlyGivenNames -merge -underBinder y4
    clear_value y4
    extract_lets +onlyGivenNames -merge -underBinder y5
    have h5 : Keeps s y5 := h2
    clear_value y5
    extract_lets +onlyGivenNames -merge -underBinder y6
    clear_value y6
    extract_lets +onlyGivenNames -merge -underBinder y7
    have h7 : Keeps s y7 := (Keeps.upd h5)
    clear_value y7
    exact (Keeps.pair (keeps_opSend h7))

theorem keeps_effStageBatchStart {s : State} {a0} {a1} {a2} {a3 : State} (h : Keeps s a3) : Keeps s (effStageBatchStart a0 a1 a2 a3) := by
  unfold effStageBatchStart
  split
  · exact h
  · extract_lets +onlyGivenNames -merge -underBinder y1
    clear_value y1
    extract_lets +onlyGivenNames -merge -underBinder y2
    clear_value y2
    extract_lets +onlyGivenNames -merge -underBinder y3
    clear_value y3
    refine Keeps.ite ?_ ?_
    · exact h
    · extract_lets +onlyGivenNames -merge -underBinder y4
      have h4 : Keeps s y4.1 := (keeps_readNum h)
      clear_value y4
      split
      · exact h4
      · exact (keeps_modOp h4)
      · refine Keeps.ite ?_ ?_
        · exact h4
        · extract_lets +onlyGivenNames -merge -underBinder y5
          have h5 : Keeps s y5.1 := (keeps_readVa h4)
          clear_value y5
          split
          · exact h5
          · exact (keeps_modOp h5)
          · extract_lets +onlyGivenNames -merge -underBinder y6
            clear_value y6
            refine Keeps.ite ?_ ?_
            · exact (keeps_modOp h5)
            · refine Keeps.ite ?_ ?_
              · exact (keeps_modOp h5)
              · extract_lets +onlyGivenNames -merge -underBinder y7
                have h7 : Keeps s y7.1 := (keeps_physRuns h5)
                clear_value y7
                split
                · exact (keeps_modOp h7)
                · extract_lets +onlyGivenNames -merge -underBinder y8
                  have h8 : Keeps s y8 := (keeps_modOp h7)
                  clear_value y8
                  exact (keeps_sendGets h8)

theorem keeps_effStageBatchLanded {s : State} {a0} {a1} {a2} {a3} {a4 : State} (h : Keeps s a4) : Keeps s (effStageBatchLanded a0 a1 a2 a3 a4) := by
  unfold effStageBatchLanded
  split
  · exact h
  · refine Keeps.ite ?_ ?_
    · exact h
    · extract_lets +onlyGivenNames -merge -underBinder y1
      clear_value y1
      extract_lets +onlyGivenNames -merge -underBinder y2
      have h2 : Keeps s y2.1 := (Keeps.iteFst h (keeps_writeVa h))
      clear_value y2
      split
      · exact h
      · extract_lets +onlyGivenNames -merge -underBinder y3
        clear_value y3
        extract_lets +onlyGivenNames -merge -underBinder y4
        have h4 : Keeps s y4 := (keeps_modOp h2)
        clear_value y4
        exact (keeps_svcFetch (keeps_stageGo h4))

theorem keeps_mbTake {s : State} {a0 : State} {a1} (h : Keeps s a0) : Keeps s (State.mbTake a0 a1) := by
  unfold State.mbTake
  extract_lets +onlyGivenNames -merge -underBinder y1
  clear_value y1
  extract_lets +onlyGivenNames -merge -underBinder y2
  clear_value y2
  exact (Keeps.ite h (keeps_setFld (Keeps.foldl h fun _ _ h3 => (keeps_mbxWr h3))))

theorem keeps_mbPass_aux {s : State} : ∀ a0 a1, Keeps s a0 → Keeps s (State.mbPass a0 a1)
  | x0, 0, h => by
    rw [State.mbPass]
    exact h
  | x0, (x1 + 1), h => by
    rw [State.mbPass]
    exact (Keeps.ite (keeps_mbPass_aux _ _ (keeps_setFld (Keeps.upd h))) h)

theorem keeps_mbPass {s : State} {a0 : State} {a1} (h : Keeps s a0) : Keeps s (State.mbPass a0 a1) := keeps_mbPass_aux a0 a1 h

theorem keeps_mbDone {s : State} {a0 : State} {a1} {a2} {a3} (h : Keeps s a0) : Keeps s (State.mbDone a0 a1 a2 a3) := by
  unfold State.mbDone
  extract_lets +onlyGivenNames -merge -underBinder y1
  clear_value y1
  extract_lets +onlyGivenNames -merge -underBinder y2
  have h2 : Keeps s y2 := (keeps_mbxWr h)
  clear_value y2
  extract_lets +onlyGivenNames -merge -underBinder y3
  have h3 : Keeps s y3 := (keeps_mbxWr h2)
  clear_value y3
  extract_lets +onlyGivenNames -merge -underBinder y4
  have h4 : Keeps s y4 := by
    unfold y4
    split
    · exact (keeps_bump h3)
    · exact h3
  clear_value y4
  extract_lets +onlyGivenNames -merge -underBinder y5
  clear_value y5
  extract_lets +onlyGivenNames -merge -underBinder y6
  have h6 : Keeps s y6 := (Keeps.upd h4)
  clear_value y6
  exact (keeps_shed (keeps_mbPass h6))

theorem keeps_mbRun {s : State} {a0 : State} {a1} {a2} {a3} (h : Keeps s a0) (hk1 : ∀ b0 b1, Keeps s b0 → Keeps s (a3 b0 b1).1) : Keeps s (State.mbRun a0 a1 a2 a3) := by
  unfold State.mbRun
  split
  · exact h
  · extract_lets +onlyGivenNames -merge -underBinder y1
    have h1 : Keeps s y1.1 := (hk1 _ _ (keeps_mbTake h))
    clear_value y1
    split
    · exact (keeps_mbDone h1)
    · exact h1

theorem keeps_effLibMbTailWrite {s : State} {a0} {a1 : State} (h : Keeps s a1) : Keeps s (effLibMbTailWrite a0 a1) := by
  unfold effLibMbTailWrite
  exact (Keeps.ite (keeps_sat h) (keeps_shed (keeps_setFld h)))

theorem keeps_effMailboxBadCode {s : State} {a0} {a1 : State} (h : Keeps s a1) : Keeps s (effMailboxBadCode a0 a1) := by
  unfold effMailboxBadCode
  split
  · exact (keeps_mbDone (keeps_mbTake h))
  · exact h

theorem keeps_effPing {s : State} {a0} {a1 : State} (h : Keeps s a1) : Keeps s (effPing a0 a1) := by
  unfold effPing
  exact (keeps_mbRun h (fun _ _ h1_0 => h1_0))

theorem keeps_effRollbackAdvance {s : State} {a0} {a1 : State} (h : Keeps s a1) : Keeps s (effRollbackAdvance a0 a1) := by
  unfold effRollbackAdvance
  refine keeps_mbRun h (fun b3_0 b3_1 h3_0 => ?_)
  extract_lets +onlyGivenNames -merge -underBinder y4
  clear_value y4
  exact (Keeps.iteFst h3_0 (Keeps.iteFst h3_0 (Keeps.pair (keeps_setFld (keeps_setReg h3_0)))))

theorem keeps_effAttest {s : State} {a0} {a1 : State} (h : Keeps s a1) : Keeps s (effAttest a0 a1) := by
  unfold effAttest
  refine keeps_mbRun h (fun b3_0 b3_1 h3_0 => ?_)
  extract_lets +onlyGivenNames -merge -underBinder y4
  clear_value y4
  extract_lets +onlyGivenNames -merge -underBinder y5
  clear_value y5
  exact (Keeps.pair (keeps_mbxWr h3_0))

theorem keeps_s2Inval {s : State} {a0 : State} {a1} {a2} (h : Keeps s a0) : Keeps s (State.s2Inval a0 a1 a2).1 := by
  unfold State.s2Inval
  extract_lets +onlyGivenNames -merge -underBinder y1
  have h1 : Keeps s y1.1 := (keeps_invalidate h)
  clear_value y1
  exact (Keeps.iteFst h1 (Keeps.pair (keeps_setPart h1)))

theorem keeps_s2Check {s : State} {a0 : State} {a1} {a2} (h : Keeps s a0) : Keeps s (State.s2Check a0 a1 a2) := by
  unfold State.s2Check
  split
  · exact h
  · refine Keeps.ite ?_ ?_
    · exact h
    · split
      · exact h
      · split
        · exact (Keeps.ite (keeps_mbDone (keeps_setPart h)) h)
        · exact h

theorem keeps_effS2RootSet {s : State} {a0} {a1 : State} (h : Keeps s a1) : Keeps s (effS2RootSet a0 a1) := by
  unfold effS2RootSet
  refine keeps_mbRun (keeps_s2Check h) (fun b3_0 b3_1 h3_0 => ?_)
  extract_lets +onlyGivenNames -merge -underBinder y4
  clear_value y4
  extract_lets +onlyGivenNames -merge -underBinder y5
  clear_value y5
  exact (Keeps.iteFst h3_0 (Keeps.iteFst h3_0 (keeps_s2Inval (keeps_setFld h3_0))))

theorem keeps_effS2Invalidate {s : State} {a0} {a1 : State} (h : Keeps s a1) : Keeps s (effS2Invalidate a0 a1) := by
  unfold effS2Invalidate
  refine keeps_mbRun (keeps_s2Check h) (fun b3_0 b3_1 h3_0 => ?_)
  extract_lets +onlyGivenNames -merge -underBinder y4
  clear_value y4
  exact (Keeps.iteFst h3_0 (keeps_s2Inval h3_0))

theorem keeps_setRoute {s : State} {a0 : State} {a1} {a2} (h : Keeps s a0) : Keeps s (State.setRoute a0 a1 a2) := by
  unfold State.setRoute
  exact (Keeps.foldl h fun _ _ h1 => (keeps_setFld h1))

theorem keeps_effRouteSet {s : State} {a0} {a1 : State} (h : Keeps s a1) : Keeps s (effRouteSet a0 a1) := by
  unfold effRouteSet
  refine keeps_mbRun h (fun b3_0 b3_1 h3_0 => ?_)
  extract_lets +onlyGivenNames -merge -underBinder y4
  clear_value y4
  extract_lets +onlyGivenNames -merge -underBinder y5
  clear_value y5
  exact (Keeps.iteFst h3_0 (Keeps.pair (keeps_setRoute h3_0)))

theorem keeps_setAdmit {s : State} {a0 : State} {a1} {a2} (h : Keeps s a0) : Keeps s (State.setAdmit a0 a1 a2) := by
  unfold State.setAdmit
  exact (Keeps.foldl h fun _ _ h1 => (keeps_setReg h1))

theorem keeps_effAdmitSet {s : State} {a0} {a1 : State} (h : Keeps s a1) : Keeps s (effAdmitSet a0 a1) := by
  unfold effAdmitSet
  refine keeps_mbRun h (fun b3_0 b3_1 h3_0 => ?_)
  extract_lets +onlyGivenNames -merge -underBinder y4
  clear_value y4
  exact (Keeps.iteFst h3_0 (Keeps.pair (keeps_setAdmit h3_0)))

theorem keeps_giveSites {s : State} {a0 : State} {a1} {a2} (h : Keeps s a0) : Keeps s (State.giveSites a0 a1 a2) := by
  unfold State.giveSites
  extract_lets +onlyGivenNames -merge -underBinder y1
  have h1 : Keeps s y1 := (Keeps.foldl h fun _ _ h2 => (Keeps.ite (keeps_setBit h2) (keeps_setBit h2)))
  clear_value y1
  exact (Keeps.foldl h1 fun _ _ h3 => (keeps_leaveMaint h3))

theorem keeps_disableAll {s : State} {a0 : State} {a1} (h : Keeps s a0) : Keeps s (State.disableAll a0 a1) := by
  unfold State.disableAll
  extract_lets +onlyGivenNames -merge -underBinder y1
  have h1 : Keeps s y1 := (Keeps.foldl h fun _ _ h2 => (Keeps.ite h2 (keeps_setQState (keeps_setBit h2))))
  clear_value y1
  exact (Keeps.foldl h1 fun _ _ h3 => (keeps_setFld (keeps_setBit h3)))

theorem keeps_createPart {s : State} {a0 : State} {a1} {a2} {a3} (h : Keeps s a0) : Keeps s (State.createPart a0 a1 a2 a3) := by
  unfold State.createPart
  extract_lets +onlyGivenNames -merge -underBinder y1
  have h1 : Keeps s y1 := (keeps_setFld (keeps_setBit (keeps_setFld h)))
  clear_value y1
  exact (keeps_disableAll (keeps_giveSites h1))

theorem keeps_effPartCreate {s : State} {a0} {a1 : State} (h : Keeps s a1) : Keeps s (effPartCreate a0 a1) := by
  unfold effPartCreate
  refine keeps_mbRun h (fun b3_0 b3_1 h3_0 => ?_)
  extract_lets +onlyGivenNames -merge -underBinder y4
  clear_value y4
  extract_lets +onlyGivenNames -merge -underBinder y5
  clear_value y5
  extract_lets +onlyGivenNames -merge -underBinder y6
  clear_value y6
  exact (Keeps.iteFst h3_0 (Keeps.iteFst h3_0 (Keeps.pair (keeps_createPart h3_0))))

theorem keeps_effPartGrow {s : State} {a0} {a1 : State} (h : Keeps s a1) : Keeps s (effPartGrow a0 a1) := by
  unfold effPartGrow
  refine keeps_mbRun h (fun b3_0 b3_1 h3_0 => ?_)
  extract_lets +onlyGivenNames -merge -underBinder y4
  clear_value y4
  extract_lets +onlyGivenNames -merge -underBinder y5
  clear_value y5
  exact (Keeps.iteFst h3_0 (Keeps.iteFst h3_0 (Keeps.pair (keeps_giveSites h3_0))))

theorem keeps_effPartSetHost {s : State} {a0} {a1 : State} (h : Keeps s a1) : Keeps s (effPartSetHost a0 a1) := by
  unfold effPartSetHost
  refine keeps_mbRun h (fun b3_0 b3_1 h3_0 => ?_)
  extract_lets +onlyGivenNames -merge -underBinder y4
  clear_value y4
  extract_lets +onlyGivenNames -merge -underBinder y5
  clear_value y5
  exact (Keeps.iteFst h3_0 (Keeps.iteFst h3_0 (Keeps.pair (keeps_setFld h3_0))))

theorem keeps_effFrameAssign {s : State} {a0} {a1 : State} (h : Keeps s a1) : Keeps s (effFrameAssign a0 a1) := by
  unfold effFrameAssign
  refine keeps_mbRun h (fun b3_0 b3_1 h3_0 => ?_)
  extract_lets +onlyGivenNames -merge -underBinder y4
  clear_value y4
  extract_lets +onlyGivenNames -merge -underBinder y5
  clear_value y5
  extract_lets +onlyGivenNames -merge -underBinder y6
  clear_value y6
  extract_lets +onlyGivenNames -merge -underBinder y7
  clear_value y7
  refine Keeps.iteFst ?_ ?_
  · exact h3_0
  · refine Keeps.iteFst ?_ ?_
    · exact h3_0
    · extract_lets +onlyGivenNames -merge -underBinder y8
      clear_value y8
      exact (Keeps.iteFst h3_0 (Keeps.pair (keeps_bump (Keeps.foldl h3_0 fun _ _ h9 => (keeps_setFrame h9)))))

theorem keeps_setRegulator {s : State} {a0 : State} {a1} {a2} {a3} {a4} {a5} (h : Keeps s a0) : Keeps s (State.setRegulator a0 a1 a2 a3 a4 a5) := by
  unfold State.setRegulator
  exact (keeps_setFld (keeps_setFld h))

theorem keeps_effPartRegulate {s : State} {a0} {a1 : State} (h : Keeps s a1) : Keeps s (effPartRegulate a0 a1) := by
  unfold effPartRegulate
  refine keeps_mbRun h (fun b3_0 b3_1 h3_0 => ?_)
  extract_lets +onlyGivenNames -merge -underBinder y4
  clear_value y4
  extract_lets +onlyGivenNames -merge -underBinder y5
  clear_value y5
  extract_lets +onlyGivenNames -merge -underBinder y6
  clear_value y6
  extract_lets +onlyGivenNames -merge -underBinder y7
  clear_value y7
  exact (Keeps.iteFst h3_0 (Keeps.iteFst h3_0 (Keeps.iteFst h3_0 (Keeps.pair (Keeps.foldl h3_0 fun _ _ h8 => (keeps_setRegulator h8))))))

theorem keeps_effPartStop {s : State} {a0} {a1 : State} (h : Keeps s a1) : Keeps s (effPartStop a0 a1) := by
  unfold effPartStop
  refine keeps_mbRun h (fun b3_0 b3_1 h3_0 => ?_)
  extract_lets +onlyGivenNames -merge -underBinder y4
  clear_value y4
  exact (Keeps.iteFst h3_0 (Keeps.pair (keeps_setFld h3_0)))

theorem keeps_drainKill {s : State} {a0 : State} {a1} (h : Keeps s a0) : Keeps s (State.drainKill a0 a1) := by
  unfold State.drainKill
  extract_lets +onlyGivenNames -merge -underBinder y1
  clear_value y1
  extract_lets +onlyGivenNames -merge -underBinder y2
  have h2 : Keeps s y2 := (keeps_setPart h)
  clear_value y2
  extract_lets +onlyGivenNames -merge -underBinder y3
  have h3 : ∀ b3_0 b3_1, Keeps s b3_0 → Keeps s (y3 b3_0 b3_1) := by
    intro b3_0 b3_1 g3_0
    unfold y3
    exact (keeps_setRecX g3_0)
  clear_value y3
  extract_lets +onlyGivenNames -merge -underBinder y4
  have h4 : Keeps s y4 := (Keeps.foldl h2 fun _ _ h5 => (keeps_abortAll (h3 _ _ h5)))
  clear_value y4
  exact (Keeps.foldl h4 fun _ _ h6 => (keeps_svcAbortAll (h3 _ _ h6)))

theorem keeps_effPartDrain {s : State} {a0} {a1 : State} (h : Keeps s a1) : Keeps s (effPartDrain a0 a1) := by
  unfold effPartDrain
  refine keeps_mbRun h (fun b3_0 b3_1 h3_0 => ?_)
  extract_lets +onlyGivenNames -merge -underBinder y4
  clear_value y4
  refine Keeps.iteFst ?_ ?_
  · exact h3_0
  · extract_lets +onlyGivenNames -merge -underBinder y5
    clear_value y5
    extract_lets +onlyGivenNames -merge -underBinder y6
    have h6 : Keeps s y6 := (keeps_setPart h3_0)
    clear_value y6
    exact (Keeps.pair (Keeps.ite (keeps_drainKill h6) h6))

theorem keeps_effPartDrainTimeout {s : State} {a0} {a1 : State} (h : Keeps s a1) : Keeps s (effPartDrainTimeout a0 a1) := by
  unfold effPartDrainTimeout
  exact (Keeps.ite (keeps_drainKill h) h)

theorem keeps_effPartDrained {s : State} {a0} {a1 : State} (h : Keeps s a1) : Keeps s (effPartDrained a0 a1) := by
  unfold effPartDrained
  split
  · exact (Keeps.ite (keeps_mbDone (keeps_setFld (keeps_setPart h))) h)
  · exact h

theorem keeps_flushPart {s : State} {a0 : State} {a1} (h : Keeps s a0) : Keeps s (State.flushPart a0 a1) := by
  unfold State.flushPart
  extract_lets +onlyGivenNames -merge -underBinder y1
  have h1 : Keeps s y1 := (Keeps.foldl h fun _ _ h2 => (keeps_evictLine h2))
  clear_value y1
  extract_lets +onlyGivenNames -merge -underBinder y3
  clear_value y3
  extract_lets +onlyGivenNames -merge -underBinder y4
  have h4 : Keeps s y4 := by
    unfold y4
    refine Keeps.foldl ?_ fun y7 a7 h7 => ?_
    · exact h1
    · extract_lets +onlyGivenNames -merge -underBinder y8
      have h8 : Keeps s y8 := (keeps_stackWrite h7)
      clear_value y8
      extract_lets +onlyGivenNames -merge -underBinder y9
      have h9 : Keeps s y9 := by
        unfold y9
        refine Keeps.ite ?_ ?_
        · exact h8
        · split
          · extract_lets +onlyGivenNames -merge -underBinder y10
            clear_value y10
            exact (Keeps.withArc (keeps_mergeTable h8) fun _ ha => (Archive.writeBack_wf _ _ _ ha))
          · exact h8
      clear_value y9
      exact (keeps_dropLine h9)
  clear_value y4
  extract_lets +onlyGivenNames -merge -underBinder y11
  clear_value y11
  extract_lets +onlyGivenNames -merge -underBinder y12
  have h12 : Keeps s y12 := (Keeps.withArc h4 fun _ ha => ha)
  clear_value y12
  exact (Keeps.foldl h12 fun _ _ h13 => (keeps_setTe h13))

theorem keeps_flushed {s : State} {a0 : State} {a1} {a2} (h : Keeps s a0) : Keeps s (State.flushed a0 a1 a2) := by
  unfold State.flushed
  exact (keeps_mbDone (keeps_setFld (keeps_setPart h)))

theorem keeps_flushCheck {s : State} {a0 : State} {a1} (h : Keeps s a0) : Keeps s (State.flushCheck a0 a1) := by
  unfold State.flushCheck
  split
  · exact h
  · extract_lets +onlyGivenNames -merge -underBinder y1
    clear_value y1
    exact (Keeps.ite (keeps_flushed h) h)

theorem keeps_effPartFlush {s : State} {a0} {a1 : State} (h : Keeps s a1) : Keeps s (effPartFlush a0 a1) := by
  unfold effPartFlush
  refine keeps_mbRun (keeps_flushCheck h) (fun b3_0 b3_1 h3_0 => ?_)
  extract_lets +onlyGivenNames -merge -underBinder y4
  clear_value y4
  refine Keeps.iteFst ?_ ?_
  · exact h3_0
  · extract_lets +onlyGivenNames -merge -underBinder y5
    have h5 : Keeps s y5 := (keeps_flushPart h3_0)
    clear_value y5
    exact (Keeps.iteFst (Keeps.pair (keeps_setPart h5)) (Keeps.pair (keeps_setFld h5)))

theorem keeps_setMode {s : State} {a0 : State} {a1} (h : Keeps s a0) : Keeps s (State.setMode a0 a1) := by
  unfold State.setMode
  exact (keeps_setBit h)

theorem keeps_resetQueues {s : State} {a0 : State} {a1} (h : Keeps s a0) : Keeps s (State.resetQueues a0 a1) := by
  unfold State.resetQueues
  extract_lets +onlyGivenNames -merge -underBinder y1
  clear_value y1
  extract_lets +onlyGivenNames -merge -underBinder y2
  have h2 : Keeps s y2 := (Keeps.updRegs h (regsFrom_filter _ _))
  clear_value y2
  exact (Keeps.foldl h2 fun _ _ h3 => (keeps_setMode (keeps_setQ h3)))

theorem keeps_effPartRelease {s : State} {a0} {a1 : State} (h : Keeps s a1) : Keeps s (effPartRelease a0 a1) := by
  unfold effPartRelease
  refine keeps_mbRun h (fun b3_0 b3_1 h3_0 => ?_)
  extract_lets +onlyGivenNames -merge -underBinder y4
  clear_value y4
  refine Keeps.iteFst ?_ ?_
  · exact h3_0
  · extract_lets +onlyGivenNames -merge -underBinder y5
    clear_value y5
    extract_lets +onlyGivenNames -merge -underBinder y6
    have h6 : Keeps s y6 := by
      unfold y6
      refine Keeps.foldl ?_ fun y9 a9 h9 => ?_
      · exact h3_0
      · extract_lets +onlyGivenNames -merge -underBinder y10
        clear_value y10
        extract_lets +onlyGivenNames -merge -underBinder y11
        have h11 : Keeps s y11 := (keeps_setCoreX (keeps_setBit h9))
        clear_value y11
        extract_lets +onlyGivenNames -merge -underBinder y12
        clear_value y12
        exact (keeps_resetQueues (Keeps.withArc h11 fun _ ha => (Archive.wf_parts ha id id (twf_filter _ _ _))))
    clear_value y6
    extract_lets +onlyGivenNames -merge -underBinder y13
    clear_value y13
    extract_lets +onlyGivenNames -merge -underBinder y14
    have h14 : Keeps s y14 := (Keeps.foldl h6 fun _ _ h15 => (keeps_setFrame h15))
    clear_value y14
    extract_lets +onlyGivenNames -merge -underBinder y16
    have h16 : Keeps s y16 := (Keeps.foldl h14 fun _ _ h17 => (keeps_setCoreX h17))
    clear_value y16
    extract_lets +onlyGivenNames -merge -underBinder y18
    have h18 : Keeps s y18 := (keeps_setCoreX h16)
    clear_value y18
    extract_lets +onlyGivenNames -merge -underBinder y19
    have h19 : Keeps s y19 := (Keeps.foldl h18 fun _ _ h20 => (Keeps.foldl h20 fun _ _ h21 => (keeps_setRegulator h21)))
    clear_value y19
    extract_lets +onlyGivenNames -merge -underBinder y22
    clear_value y22
    extract_lets +onlyGivenNames -merge -underBinder y23
    have h23 : Keeps s y23 := (Keeps.withArc h19 fun _ ha => ha)
    clear_value y23
    extract_lets +onlyGivenNames -merge -underBinder y24
    have h24 : Keeps s y24 := (keeps_setFld (keeps_setFld h23))
    clear_value y24
    exact (Keeps.pair (keeps_setPart h24))

theorem keeps_scrubFrames {s : State} {a0 : State} {a1} (h : Keeps s a0) : Keeps s (State.scrubFrames a0 a1) := by
  unfold State.scrubFrames
  extract_lets +onlyGivenNames -merge -underBinder y1
  clear_value y1
  exact (Keeps.withArc h fun _ ha => (Archive.wf_parts ha (twf_filter _ _ _) (twf_filter _ _ _) id))

theorem keeps_effPartScrubDone {s : State} {a0} {a1 : State} (h : Keeps s a1) : Keeps s (effPartScrubDone a0 a1) := by
  unfold effPartScrubDone
  split
  · refine Keeps.ite ?_ ?_
    · exact h
    · extract_lets +onlyGivenNames -merge -underBinder y1
      have h1 : Keeps s y1 := (keeps_scrubFrames h)
      clear_value y1
      extract_lets +onlyGivenNames -merge -underBinder y2
      clear_value y2
      extract_lets +onlyGivenNames -merge -underBinder y3
      have h3 : Keeps s y3 := (keeps_setPart h1)
      clear_value y3
      extract_lets +onlyGivenNames -merge -underBinder y4
      have h4 : Keeps s y4 := (keeps_setReg (keeps_setFld h3))
      clear_value y4
      exact (keeps_mbDone h4)
  · exact h

theorem keeps_effPartResume {s : State} {a0} {a1 : State} (h : Keeps s a1) : Keeps s (effPartResume a0 a1) := by
  unfold effPartResume
  refine keeps_mbRun h (fun b3_0 b3_1 h3_0 => ?_)
  extract_lets +onlyGivenNames -merge -underBinder y4
  clear_value y4
  extract_lets +onlyGivenNames -merge -underBinder y5
  clear_value y5
  exact (Keeps.iteFst (Keeps.pair (keeps_setFld h3_0)) h3_0)

theorem keeps_bootPort {s : State} {a0 : State} {a1} (h : Keeps s a0) : OptKeeps s (State.bootPort a0 a1) := by
  unfold State.bootPort
  exact (OptKeeps.ite (OptKeeps.ite (OptKeeps.some h) OptKeeps.none) (OptKeeps.ite (OptKeeps.some (keeps_setBit (keeps_setFld h))) OptKeeps.none))

theorem keeps_effLoadWindowWrite {s : State} {a0} {a1} {a2} {a3 : State} (h : Keeps s a3) : Keeps s (effLoadWindowWrite a0 a1 a2 a3) := by
  unfold effLoadWindowWrite
  refine Keeps.ite ?_ ?_
  · exact h
  · split
    · exact (keeps_refused h)
    · rename_i e1
      have h1 := (keeps_bootPort h) _ e1
      exact (Keeps.ite (keeps_refused h1) (keeps_mbxWr h1))

theorem keeps_loadCmd {s : State} {a0 : State} {a1} {a2} {a3} (h : Keeps s a0) : Keeps s (State.loadCmd a0 a1 a2 a3) := by
  unfold State.loadCmd
  refine Keeps.ite ?_ ?_
  · exact h
  · split
    · exact (keeps_refused h)
    · rename_i e1
      have h1 := (keeps_bootPort h) _ e1
      exact (Keeps.ite (keeps_setFld (Keeps.upd h1)) (keeps_setFld h1))

theorem keeps_effLoadLib {s : State} {a0} {a1 : State} (h : Keeps s a1) : Keeps s (effLoadLib a0 a1) := by
  unfold effLoadLib
  exact (keeps_loadCmd h)

theorem keeps_effLoadMould {s : State} {a0} {a1 : State} (h : Keeps s a1) : Keeps s (effLoadMould a0 a1) := by
  unfold effLoadMould
  exact (keeps_loadCmd h)

theorem keeps_refuseImage {s : State} {a0 : State} {a1} (h : Keeps s a0) : Keeps s (State.refuseImage a0 a1) := by
  unfold State.refuseImage
  exact (keeps_sat (keeps_setFld (keeps_setFld (Keeps.upd h))))

theorem keeps_effImageVerified {s : State} {a0 : State} (h : Keeps s a0) : Keeps s (effImageVerified a0) := by
  unfold effImageVerified
  extract_lets +onlyGivenNames -merge -underBinder y1
  clear_value y1
  refine Keeps.ite ?_ ?_
  · split
    · exact (keeps_refuseImage h)
    · extract_lets +onlyGivenNames -merge -underBinder y2
      clear_value y2
      extract_lets +onlyGivenNames -merge -underBinder y3
      have h3 : Keeps s y3 := (Keeps.upd h)
      clear_value y3
      exact (keeps_setFld (keeps_setFld h3))
  · refine Keeps.ite ?_ ?_
    · split
      · exact (keeps_refuseImage h)
      · extract_lets +onlyGivenNames -merge -underBinder y4
        clear_value y4
        extract_lets +onlyGivenNames -merge -underBinder y5
        have h5 : Keeps s y5 := (Keeps.upd h)
        clear_value y5
        exact (keeps_setFld (keeps_setFld h5))
    · exact h

theorem keeps_setRoles {s : State} {a0 : State} {a1} {a2} {a3} (h : Keeps s a0) : Keeps s (State.setRoles a0 a1 a2 a3) := by
  unfold State.setRoles
  exact (keeps_setReg h)

theorem keeps_trainReport {s : State} {a0 : State} {a1} {a2} {a3} (h : Keeps s a0) : Keeps s (State.trainReport a0 a1 a2 a3) := by
  unfold State.trainReport
  exact (keeps_report h)

theorem keeps_trainRepair {s : State} {a0 : State} {a1} {a2} (h : Keeps s a0) : Keeps s (State.trainRepair a0 a1 a2) := by
  unfold State.trainRepair
  exact (Keeps.upd h)

theorem keeps_startRoles {s : State} {a0 : State} {a1} {a2} (h : Keeps s a0) : Keeps s (State.startRoles a0 a1 a2) := by
  unfold State.startRoles
  extract_lets +onlyGivenNames -merge -underBinder y1
  clear_value y1
  extract_lets +onlyGivenNames -merge -underBinder y2
  clear_value y2
  extract_lets +onlyGivenNames -merge -underBinder y3
  have h3 : Keeps s y3 := by
    unfold y3
    split
    · exact (Keeps.foldl h fun _ _ h4 => (keeps_setRole h4))
    · exact h
  clear_value y3
  extract_lets +onlyGivenNames -merge -underBinder y5
  have h5 : Keeps s y5 := (Keeps.foldl h3 fun _ _ h6 => (keeps_setRoles h6))
  clear_value y5
  exact (Keeps.ite (keeps_edgeFail h5) h5)

theorem keeps_startOut {s : State} {a0 : State} {a1} (h : Keeps s a0) : Keeps s (State.startOut a0 a1) := by
  unfold State.startOut
  exact (keeps_startRoles (Keeps.foldl h fun _ _ h1 => (keeps_setRole (keeps_setBit h1))))

theorem keeps_startSpare {s : State} {a0 : State} {a1} {a2} (h : Keeps s a0) : Keeps s (State.startSpare a0 a1 a2) := by
  unfold State.startSpare
  extract_lets +onlyGivenNames -merge -underBinder y1
  clear_value y1
  extract_lets +onlyGivenNames -merge -underBinder y2
  clear_value y2
  exact (keeps_trainRepair (keeps_setFld (keeps_setFld h)))

theorem keeps_trainLanes {s : State} {a0 : State} {a1} {a2} (h : Keeps s a0) : Keeps s (State.trainLanes a0 a1 a2) := by
  unfold State.trainLanes
  extract_lets +onlyGivenNames -merge -underBinder y1
  clear_value y1
  refine Keeps.ite ?_ ?_
  · exact h
  · extract_lets +onlyGivenNames -merge -underBinder y2
    have h2 : Keeps s y2 := (keeps_trainReport h)
    clear_value y2
    exact (Keeps.ite (Keeps.foldl h2 fun _ _ h3 => (keeps_startSpare h3)) (keeps_startOut (keeps_trainRepair h2)))

theorem keeps_trainPort {s : State} {a0 : State} {a1} (h : Keeps s a0) : Keeps s (State.trainPort a0 a1) := by
  unfold State.trainPort
  exact (Keeps.ite (keeps_portDown (keeps_trainReport h)) h)

theorem keeps_trainStack {s : State} {a0 : State} {a1} {a2} (h : Keeps s a0) : Keeps s (State.trainStack a0 a1 a2) := by
  unfold State.trainStack
  exact (Keeps.ite h (keeps_declareLost (keeps_trainReport h)))

theorem keeps_trainFirst {s : State} {a0 : State} {a1} (h : Keeps s a0) : Keeps s (State.trainFirst a0 a1) := by
  unfold State.trainFirst
  extract_lets +onlyGivenNames -merge -underBinder y1
  have h1 : Keeps s y1 := by
    unfold y1
    refine Keeps.foldl ?_ fun y4 a4 h4 => ?_
    · exact h
    · split
      · exact (keeps_trainLanes h4)
      · exact (keeps_trainPort h4)
      · exact h4
  clear_value y1
  exact (Keeps.foldl h1 fun _ _ h5 => (keeps_linkUp h5))

theorem keeps_trainPorts {s : State} {a0 : State} {a1} (h : Keeps s a0) : Keeps s (State.trainPorts a0 a1) := by
  unfold State.trainPorts
  extract_lets +onlyGivenNames -merge -underBinder y1
  have h1 : Keeps s y1 := by
    unfold y1
    refine Keeps.foldl ?_ fun y4 a4 h4 => ?_
    · exact h
    · split
      · exact (Keeps.ite h4 (keeps_trainPort h4))
      · exact h4
  clear_value y1
  exact (Keeps.foldl h1 fun _ _ h5 => (Keeps.ite h5 (keeps_linkUp h5)))

theorem keeps_trainStacks {s : State} {a0 : State} {a1} (h : Keeps s a0) : Keeps s (State.trainStacks a0 a1) := by
  unfold State.trainStacks
  refine Keeps.foldl ?_ fun y2 a2 h2 => ?_
  · exact h
  · split
    · exact (keeps_trainStack h2)
    · exact h2

theorem keeps_keepOut {s : State} {a0 : State} (h : Keeps s a0) : Keeps s (State.keepOut a0) := by
  unfold State.keepOut
  refine Keeps.foldl ?_ fun y2 a2 h2 => ?_
  · exact h
  · extract_lets +onlyGivenNames -merge -underBinder y3
    clear_value y3
    extract_lets +onlyGivenNames -merge -underBinder y4
    clear_value y4
    exact (Keeps.ite h2 (keeps_startRoles (Keeps.foldl h2 fun _ _ h5 => (Keeps.foldl h5 fun _ _ h6 => (keeps_setRole h6)))))

theorem keeps_applyLanes {s : State} {a0 : State} {a1} (h : Keeps s a0) : Keeps s (State.applyLanes a0 a1) := by
  unfold State.applyLanes
  extract_lets +onlyGivenNames -merge -underBinder y1
  have h1 : Keeps s y1 := (Keeps.foldl h fun _ _ h2 => (Keeps.foldl h2 fun _ _ h3 => (keeps_setFld (keeps_setFld h3))))
  clear_value y1
  refine Keeps.foldl ?_ fun y5 a5 h5 => ?_
  · exact h1
  · extract_lets +onlyGivenNames -merge -underBinder y6
    clear_value y6
    extract_lets +onlyGivenNames -merge -underBinder y7
    have h7 : Keeps s y7 := (keeps_setFld (keeps_setRoles h5))
    clear_value y7
    exact (keeps_setFld (keeps_setRoles h7))

theorem keeps_applyLink {s : State} {a0 : State} {a1} (h : Keeps s a0) : OptKeeps s (State.applyLink a0 a1) := by
  unfold State.applyLink
  extract_lets +onlyGivenNames -merge -underBinder y1
  clear_value y1
  split
  · exact OptKeeps.none
  · refine OptKeeps.ite ?_ ?_
    · extract_lets +onlyGivenNames -merge -underBinder y2
      clear_value y2
      exact (OptKeeps.ite OptKeeps.none (OptKeeps.some (keeps_setFld (keeps_setFld h))))
    · extract_lets +onlyGivenNames -merge -underBinder y3
      clear_value y3
      extract_lets +onlyGivenNames -merge -underBinder y4
      clear_value y4
      refine OptKeeps.ite ?_ ?_
      · exact OptKeeps.none
      · extract_lets +onlyGivenNames -merge -underBinder y5
        have h5 : Keeps s y5 := (keeps_setRoles (keeps_setRoles h))
        clear_value y5
        exact (OptKeeps.some (Keeps.ite (keeps_setBit (keeps_setBit h5)) h5))

theorem keeps_repairIgnored {s : State} {a0 : State} {a1} (h : Keeps s a0) : Keeps s (State.repairIgnored a0 a1) := by
  unfold State.repairIgnored
  exact (keeps_report h)

theorem keeps_applyRepairLinks {s : State} {a0 : State} {a1} (h : Keeps s a0) : Keeps s (State.applyRepairLinks a0 a1) := by
  unfold State.applyRepairLinks
  refine Keeps.foldl ?_ fun y2 a2 h2 => ?_
  · exact h
  · extract_lets +onlyGivenNames -merge -underBinder y3
    clear_value y3
    refine Keeps.ite ?_ ?_
    · exact (keeps_repairIgnored h2)
    · refine Keeps.ite ?_ ?_
      · exact h2
      · split
        · rename_i e4
          have h4 := (keeps_applyLink h2) _ e4
          exact h4
        · exact (keeps_repairIgnored h2)

theorem keeps_applyRepairDies {s : State} {a0 : State} {a1} (h : Keeps s a0) : Keeps s (State.applyRepairDies a0 a1).1 := by
  unfold State.applyRepairDies
  refine Keeps.foldlFst ?_ fun y2 a2 h2 => ?_
  · exact h
  · extract_lets +onlyGivenNames -merge -underBinder y3
    clear_value y3
    extract_lets +onlyGivenNames -merge -underBinder y4
    clear_value y4
    refine Keeps.iteFst ?_ ?_
    · exact h2
    · refine Keeps.iteFst ?_ ?_
      · exact h2
      · refine Keeps.iteFst ?_ ?_
        · refine Keeps.iteFst ?_ ?_
          · exact (Keeps.pair (keeps_repairIgnored h2))
          · refine Keeps.pair ?_
            extract_lets +onlyGivenNames -merge -underBinder y5
            have h5 : Keeps s y5 := h2
            clear_value y5
            exact (Keeps.upd h5)
        · exact h2

theorem keeps_applyRing {s : State} {a0 : State} {a1} (h : Keeps s a0) : Keeps s (State.applyRing a0 a1) := by
  unfold State.applyRing
  extract_lets +onlyGivenNames -merge -underBinder y1
  clear_value y1
  extract_lets +onlyGivenNames -merge -underBinder y2
  have h2 : Keeps s y2 := by
    unfold y2
    refine Keeps.foldl ?_ fun y5 a5 h5 => ?_
    · exact h
    · extract_lets +onlyGivenNames -merge -underBinder y6
      clear_value y6
      extract_lets +onlyGivenNames -merge -underBinder y7
      clear_value y7
      extract_lets +onlyGivenNames -merge -underBinder y8
      clear_value y8
      extract_lets +onlyGivenNames -merge -underBinder y9
      have h9 : Keeps s y9 := (keeps_setReg h5)
      clear_value y9
      exact (Keeps.ite h9 (keeps_setLink h9))
  clear_value y2
  extract_lets +onlyGivenNames -merge -underBinder y10
  have h10 : Keeps s y10 := (Keeps.foldl h2 fun _ _ h11 => (keeps_setFld h11))
  clear_value y10
  extract_lets +onlyGivenNames -merge -underBinder y12
  have h12 : Keeps s y12 := (Keeps.foldl h10 fun _ _ h13 => (keeps_setRoute h13))
  clear_value y12
  exact (Keeps.foldl h12 fun _ _ h14 => (keeps_setAdmit h14))

theorem keeps_zeroHbm {s : State} {a0 : State} {a1} (h : Keeps s a0) : Keeps s (State.zeroHbm a0 a1) := by
  unfold State.zeroHbm
  exact (Keeps.updArc h fun ha => rfl)

theorem keeps_applyMem {s : State} {a0 : State} {a1} (h : Keeps s a0) : Keeps s (State.applyMem a0 a1) := by
  unfold State.applyMem
  extract_lets +onlyGivenNames -merge -underBinder y1
  clear_value y1
  refine Keeps.foldl ?_ fun y3 a3 h3 => ?_
  · exact h
  · extract_lets +onlyGivenNames -merge -underBinder y4
    have h4 : Keeps s y4 := by
      unfold y4
      refine Keeps.foldl ?_ fun y7 a7 h7 => ?_
      · exact h3
      · extract_lets +onlyGivenNames -merge -underBinder y8
        have h8 : Keeps s y8 := (keeps_setFld (keeps_setFld h7))
        clear_value y8
        exact (Keeps.foldl h8 fun _ _ h9 => (keeps_setRegulator h9))
    clear_value y4
    exact (Keeps.foldl h4 fun _ _ h10 => (keeps_setFld (keeps_setBit h10)))

theorem keeps_buildMap {s : State} {a0 : State} {a1} (h : Keeps s a0) : Keeps s (State.buildMap a0 a1) := by
  unfold State.buildMap
  extract_lets +onlyGivenNames -merge -underBinder y1
  have h1 : Keeps s y1 := (Keeps.foldl h fun _ _ h2 => (Keeps.ite (keeps_setRiser h2) (keeps_setRiser h2)))
  clear_value y1
  extract_lets +onlyGivenNames -merge -underBinder y3
  have h3 : Keeps s y3 := by
    unfold y3
    refine Keeps.foldl ?_ fun y6 a6 h6 => ?_
    · exact h1
    · extract_lets +onlyGivenNames -merge -underBinder y7
      extract_lets +onlyGivenNames -merge -underBinder y8
      extract_lets +onlyGivenNames -merge -underBinder y9
      clear_value y9
      extract_lets +onlyGivenNames -merge -underBinder y10
      clear_value y10
      extract_lets +onlyGivenNames -merge -underBinder y11
      clear_value y11
      extract_lets +onlyGivenNames -merge -underBinder y12
      have h12 : Keeps s y12 := (Keeps.ite (keeps_setRiser h6) h6)
      clear_value y12
      exact (Keeps.foldl h12 fun _ _ h13 => (keeps_setFld (keeps_setCoreEntry h13)))
  clear_value y3
  exact (keeps_setFld h3)

theorem keeps_seedCore {s : State} {a0 : State} {a1} (h : Keeps s a0) : Keeps s (State.seedCore a0 a1) := by
  unfold State.seedCore
  extract_lets +onlyGivenNames -merge -underBinder y1
  clear_value y1
  extract_lets +onlyGivenNames -merge -underBinder y2
  clear_value y2
  extract_lets +onlyGivenNames -merge -underBinder y3
  have h3 : Keeps s y3 := (Keeps.foldl h fun _ _ h4 => (keeps_setReg h4))
  clear_value y3
  exact (keeps_setReg h3)

theorem keeps_startCores {s : State} {a0 : State} (h : Keeps s a0) : Keeps s (State.startCores a0) := by
  unfold State.startCores
  refine Keeps.upd (Keeps.foldl h fun y c hy => ?_)
  have h1 : Keeps s ((coreQueues c).foldl (fun s q => s.setMode q) y) := Keeps.foldl hy fun _ _ g => keeps_setMode g
  generalize (coreQueues c).foldl (fun s q => s.setMode q) y = z at h1 ⊢
  exact Keeps.ite (keeps_seedCore h1) (Keeps.foldl h1 fun _ _ g => keeps_loseQueue g)

theorem keeps_applyCal {s : State} {a0 : State} {a1} (h : Keeps s a0) : Keeps s (State.applyCal a0 a1) := by
  unfold State.applyCal
  refine Keeps.ite ?_ ?_
  · exact h
  · extract_lets +onlyGivenNames -merge -underBinder y1
    clear_value y1
    refine Keeps.foldl ?_ fun y3 a3 h3 => ?_
    · exact h
    · split
      · extract_lets +onlyGivenNames -merge -underBinder y4
        have h4 : Keeps s y4 := (keeps_setReg h3)
        clear_value y4
        exact (Keeps.foldl h4 fun _ _ h5 => (keeps_setReg h5))
      · exact h3

theorem keeps_applyLedger {s : State} {a0 : State} {a1} (h : Keeps s a0) : Keeps s (State.applyLedger a0 a1) := by
  unfold State.applyLedger
  refine Keeps.ite ?_ ?_
  · exact h
  · refine Keeps.foldl ?_ fun y3 a3 h3 => ?_
    · exact h
    · extract_lets +onlyGivenNames -merge -underBinder y4
      clear_value y4
      exact (Keeps.foldl h3 fun _ _ h5 => (keeps_setFld (keeps_setFld (keeps_setFld h5))))

theorem keeps_applyParts {s : State} {a0 : State} {a1} (h : Keeps s a0) : Keeps s (State.applyParts a0 a1) := by
  unfold State.applyParts
  exact (Keeps.foldl h fun _ _ h1 => (Keeps.ite h1 (keeps_createPart h1)))

theorem keeps_keepMould {s : State} {a0 : State} {a1} (h : Keeps s a0) : Keeps s (State.keepMould a0 a1) := by
  unfold State.keepMould
  exact (Keeps.upd h)

theorem keeps_reportDies {s : State} {a0 : State} {a1} (h : Keeps s a0) : Keeps s (State.reportDies a0 a1) := by
  unfold State.reportDies
  refine Keeps.foldl ?_ fun y2 a2 h2 => ?_
  · exact h
  · split
    · extract_lets +onlyGivenNames -merge -underBinder y3
      clear_value y3
      extract_lets +onlyGivenNames -merge -underBinder y4
      clear_value y4
      extract_lets +onlyGivenNames -merge -underBinder y5
      clear_value y5
      exact (keeps_report h2)
    · exact h2

theorem keeps_effStartReady {s : State} {a0} {a1 : State} (h : Keeps s a1) : Keeps s (effStartReady a0 a1) := by
  unfold effStartReady
  refine Keeps.ite ?_ ?_
  · exact h
  · extract_lets +onlyGivenNames -merge -underBinder y1
    clear_value y1
    extract_lets +onlyGivenNames -merge -underBinder y2
    have h2 : Keeps s y2 := (keeps_keepMould h)
    clear_value y2
    extract_lets +onlyGivenNames -merge -underBinder y3
    have h3 : Keeps s y3 := (keeps_trainPorts (keeps_applyRing (keeps_keepOut (keeps_applyRepairLinks (keeps_applyLanes h2)))))
    clear_value y3
    extract_lets +onlyGivenNames -merge -underBinder y4
    have h4 : Keeps s y4 := (keeps_reroute (keeps_trainStacks h3))
    clear_value y4
    refine Keeps.ite ?_ ?_
    · exact h4
    · extract_lets +onlyGivenNames -merge -underBinder y5
      have h5 : Keeps s y5 := (keeps_applyMem (keeps_zeroHbm h4))
      clear_value y5
      extract_lets +onlyGivenNames -merge -underBinder y6
      have h6 : Keeps s y6.1 := (keeps_applyRepairDies h5)
      clear_value y6
      extract_lets +onlyGivenNames -merge -underBinder y7
      have h7 : Keeps s y7 := (keeps_startCores (keeps_reportDies (keeps_buildMap h6)))
      clear_value y7
      extract_lets +onlyGivenNames -merge -underBinder y8
      have h8 : Keeps s y8 := (keeps_applyParts (keeps_applyLedger (keeps_applyCal h7)))
      clear_value y8
      exact (keeps_setFld h8)

theorem keeps_effSupervisorRestart {s : State} {a0 : State} (h : Keeps s a0) : Keeps s (effSupervisorRestart a0) := by
  unfold effSupervisorRestart
  extract_lets +onlyGivenNames -merge -underBinder y1
  clear_value y1
  refine Keeps.ite ?_ ?_
  · exact h
  · extract_lets +onlyGivenNames -merge -underBinder y2
    clear_value y2
    extract_lets +onlyGivenNames -merge -underBinder y3
    clear_value y3
    extract_lets +onlyGivenNames -merge -underBinder y4
    have h4 : Keeps s y4 := (Keeps.upd h)
    clear_value y4
    refine Keeps.ite ?_ ?_
    · exact (keeps_setFld h4)
    · extract_lets +onlyGivenNames -merge -underBinder y5
      have h5 : Keeps s y5 := (keeps_sat h4)
      clear_value y5
      extract_lets +onlyGivenNames -merge -underBinder y6
      clear_value y6
      extract_lets +onlyGivenNames -merge -underBinder y7
      have h7 : Keeps s y7 := (Keeps.upd h5)
      clear_value y7
      exact (keeps_report h7)

theorem keeps_backedApply {s : State} {a0 : State} {a1} {a2} {a3} (h : Keeps s a0) : Keeps s (State.backedApply a0 a1 a2 a3) := by
  unfold State.backedApply
  exact (Keeps.ite (keeps_setReg h) (Keeps.ite (keeps_setReg h) (keeps_mbxWr h)))

theorem keeps_effLibRestartDone {s : State} {a0 : State} (h : Keeps s a0) : Keeps s (effLibRestartDone a0) := by
  unfold effLibRestartDone
  refine Keeps.ite ?_ ?_
  · exact h
  · extract_lets +onlyGivenNames -merge -underBinder y1
    clear_value y1
    extract_lets +onlyGivenNames -merge -underBinder y2
    clear_value y2
    extract_lets +onlyGivenNames -merge -underBinder y3
    have h3 : Keeps s y3 := (Keeps.upd h)
    clear_value y3
    extract_lets +onlyGivenNames -merge -underBinder y4
    have h4 : Keeps s y4 := (Keeps.foldl h3 fun _ _ h5 => (keeps_backedApply h5))
    clear_value y4
    exact (keeps_shed (keeps_reroute (keeps_settleLosses h4)))

theorem keeps_effLibrarianHeartbeat {s : State} {a0 : State} (h : Keeps s a0) : Keeps s (effLibrarianHeartbeat a0) := by
  unfold effLibrarianHeartbeat
  exact h

theorem keeps_coldRegs {s : State} {a0 : State} (h : Keeps s a0) : Keeps s (State.coldRegs a0) := by
  refine ⟨h.1, fun c => ?_⟩
  have hx := h.2 c
  simp only [State.canon, State.coldRegs, Bool.and_eq_true] at *
  exact ⟨rfl, regsFrom_filter _ _ hx.2⟩

theorem keeps_cold {s : State} {a0 : State} (h : Keeps s a0) : Keeps s (State.cold a0) := by
  unfold State.cold
  extract_lets +onlyGivenNames -merge -underBinder y1
  clear_value y1
  exact (Keeps.foldl (keeps_coldRegs h) fun _ _ h2 => (keeps_setFld (keeps_setFld h2)))

theorem keeps_powerOff {s : State} {a0 : State} (h : Keeps s a0) : Keeps s (State.powerOff a0) := by
  unfold State.powerOff
  refine Keeps.ite ?_ ?_
  · extract_lets +onlyGivenNames -merge -underBinder y1
    have h1 : Keeps s y1 := (keeps_cold h)
    clear_value y1
    exact (Keeps.upd h1)
  · exact h

theorem keeps_powerUp {s : State} {a0 : State} (h : Keeps s a0) : Keeps s (State.powerUp a0) := by
  unfold State.powerUp
  exact (Keeps.upd h)

theorem keeps_effPwrEnRise {s : State} {a0 : State} (h : Keeps s a0) : Keeps s (effPwrEnRise a0) := by
  unfold effPwrEnRise
  refine Keeps.ite ?_ ?_
  · exact h
  · extract_lets +onlyGivenNames -merge -underBinder y1
    clear_value y1
    extract_lets +onlyGivenNames -merge -underBinder y2
    have h2 : Keeps s y2 := (Keeps.upd h)
    clear_value y2
    exact (Keeps.ite h2 (Keeps.ite (keeps_powerUp h2) (Keeps.upd h2)))

theorem keeps_effInputEntersRange {s : State} {a0 : State} (h : Keeps s a0) : Keeps s (effInputEntersRange a0) := by
  unfold effInputEntersRange
  refine Keeps.ite ?_ ?_
  · exact h
  · extract_lets +onlyGivenNames -merge -underBinder y1
    clear_value y1
    extract_lets +onlyGivenNames -merge -underBinder y2
    have h2 : Keeps s y2 := (Keeps.upd h)
    clear_value y2
    exact (Keeps.ite (keeps_powerUp h2) h2)

theorem keeps_enableFalls {s : State} {a0 : State} (h : Keeps s a0) : Keeps s (State.enableFalls a0) := by
  unfold State.enableFalls
  exact (keeps_powerOff (Keeps.upd h))

theorem keeps_effPowerDown {s : State} {a0} {a1 : State} (h : Keeps s a1) : Keeps s (effPowerDown a0 a1) := by
  unfold effPowerDown
  split
  · exact (keeps_enableFalls h)
  · exact (keeps_powerOff (Keeps.upd h))
  · exact (keeps_powerOff h)

theorem keeps_trainSite {s : State} {a0 : State} {a1} (h : Keeps s a0) : Keeps s (State.trainSite a0 a1) := by
  unfold State.trainSite
  refine Keeps.foldl ?_ fun y2 a2 h2 => ?_
  · exact h
  · extract_lets +onlyGivenNames -merge -underBinder y3
    clear_value y3
    extract_lets +onlyGivenNames -merge -underBinder y4
    have h4 : Keeps s y4 := (keeps_setBit (keeps_setFld (keeps_setFld h2)))
    clear_value y4
    exact (Keeps.ite (keeps_setRoles h4) (Keeps.ite (keeps_setRoles h4) h4))

theorem keeps_effPanelResetRise {s : State} {a0} {a1 : State} (h : Keeps s a1) : Keeps s (effPanelResetRise a0 a1) := by
  unfold effPanelResetRise
  refine Keeps.ite ?_ ?_
  · exact h
  · extract_lets +onlyGivenNames -merge -underBinder y1
    clear_value y1
    extract_lets +onlyGivenNames -merge -underBinder y2
    have h2 : Keeps s y2 := (Keeps.upd h)
    clear_value y2
    refine Keeps.ite ?_ ?_
    · exact h2
    · extract_lets +onlyGivenNames -merge -underBinder y3
      have h3 : Keeps s y3 := (keeps_cold h2)
      clear_value y3
      extract_lets +onlyGivenNames -merge -underBinder y4
      clear_value y4
      extract_lets +onlyGivenNames -merge -underBinder y5
      have h5 : Keeps s y5 := (Keeps.upd h3)
      clear_value y5
      extract_lets +onlyGivenNames -merge -underBinder y6
      have h6 : Keeps s y6 := (Keeps.foldl h5 fun _ _ h7 => (keeps_trainSite h7))
      clear_value y6
      extract_lets +onlyGivenNames -merge -underBinder y8
      have h8 : Keeps s y8 := (Keeps.foldl h6 fun _ _ h9 => (Keeps.ite (keeps_setBit (keeps_setFld h9)) h9))
      clear_value y8
      exact (keeps_trainFirst (keeps_setFld (keeps_setFld h8)))

theorem keeps_effPanelResetFall {s : State} {a0 : State} (h : Keeps s a0) : Keeps s (effPanelResetFall a0) := by
  unfold effPanelResetFall
  refine Keeps.ite ?_ ?_
  · exact h
  · extract_lets +onlyGivenNames -merge -underBinder y1
    clear_value y1
    extract_lets +onlyGivenNames -merge -underBinder y2
    have h2 : Keeps s y2 := (Keeps.upd h)
    clear_value y2
    exact (Keeps.ite (keeps_cold h2) h2)

theorem keeps_powerIncident {s : State} {a0 : State} {a1} (h : Keeps s a0) : Keeps s (State.powerIncident a0 a1) := by
  unfold State.powerIncident
  exact (keeps_report h)

theorem keeps_effRefclkLoss {s : State} {a0 : State} (h : Keeps s a0) : Keeps s (effRefclkLoss a0) := by
  unfold effRefclkLoss
  exact (Keeps.ite h (Keeps.upd h))

theorem keeps_effRefclkReturn {s : State} {a0 : State} (h : Keeps s a0) : Keeps s (effRefclkReturn a0) := by
  unfold effRefclkReturn
  extract_lets +onlyGivenNames -merge -underBinder y1
  clear_value y1
  extract_lets +onlyGivenNames -merge -underBinder y2
  clear_value y2
  extract_lets +onlyGivenNames -merge -underBinder y3
  have h3 : Keeps s y3 := (Keeps.upd h)
  clear_value y3
  exact (Keeps.ite (keeps_powerIncident h3) h3)

theorem keeps_effRefclkLossTimeout {s : State} {a0 : State} (h : Keeps s a0) : Keeps s (effRefclkLossTimeout a0) := by
  unfold effRefclkLossTimeout
  exact (Keeps.ite h (keeps_panelFatal (Keeps.upd h)))

theorem keeps_effPllLockLoss {s : State} {a0} {a1 : State} (h : Keeps s a1) : Keeps s (effPllLockLoss a0 a1) := by
  unfold effPllLockLoss
  exact (Keeps.ite (keeps_declareLost h) h)

theorem keeps_setStep {s : State} {a0 : State} {a1} {a2} {a3} (h : Keeps s a0) : Keeps s (State.setStep a0 a1 a2 a3) := by
  unfold State.setStep
  exact (Keeps.upd h)

theorem keeps_restep {s : State} {a0 : State} {a1} {a2} (h : Keeps s a0) : Keeps s (State.restep a0 a1 a2) := by
  unfold State.restep
  extract_lets +onlyGivenNames -merge -underBinder y1
  clear_value y1
  extract_lets +onlyGivenNames -merge -underBinder y2
  clear_value y2
  extract_lets +onlyGivenNames -merge -underBinder y3
  have h3 : Keeps s y3 := (keeps_setFld h)
  clear_value y3
  exact (Keeps.ite h3 (keeps_setStep (keeps_setBit h3)))

theorem keeps_effCkgHalfWrite {s : State} {a0} {a1} {a2} {a3 : State} (h : Keeps s a3) : Keeps s (effCkgHalfWrite a0 a1 a2 a3) := by
  unfold effCkgHalfWrite
  extract_lets +onlyGivenNames -merge -underBinder y1
  clear_value y1
  extract_lets +onlyGivenNames -merge -underBinder y2
  have h2 : Keeps s y2 := (keeps_setFld h)
  clear_value y2
  extract_lets +onlyGivenNames -merge -underBinder y3
  have h3 : Keeps s y3 := (Keeps.ite (keeps_sat h2) h2)
  clear_value y3
  exact (keeps_restep h3)

theorem keeps_effStepChangeDone {s : State} {a0} {a1} {a2 : State} (h : Keeps s a2) : Keeps s (effStepChangeDone a0 a1 a2) := by
  unfold effStepChangeDone
  extract_lets +onlyGivenNames -merge -underBinder y1
  clear_value y1
  exact (Keeps.ite h (keeps_restep (keeps_sat (keeps_setBit h))))

theorem keeps_effTabCheck {s : State} {a0} {a1 : State} (h : Keeps s a1) : Keeps s (effTabCheck a0 a1) := by
  unfold effTabCheck
  refine Keeps.ite ?_ ?_
  · exact h
  · extract_lets +onlyGivenNames -merge -underBinder y1
    clear_value y1
    extract_lets +onlyGivenNames -merge -underBinder y2
    clear_value y2
    extract_lets +onlyGivenNames -merge -underBinder y3
    clear_value y3
    extract_lets +onlyGivenNames -merge -underBinder y4
    have h4 : Keeps s y4 := (Keeps.upd h)
    clear_value y4
    extract_lets +onlyGivenNames -merge -underBinder y5
    have h5 : Keeps s y5 := (keeps_setFld (keeps_setFld h4))
    clear_value y5
    exact (Keeps.ite h5 (keeps_powerIncident h5))

theorem keeps_setEnvCap {s : State} {a0 : State} {a1} (h : Keeps s a0) : Keeps s (State.setEnvCap a0 a1) := by
  unfold State.setEnvCap
  extract_lets +onlyGivenNames -merge -underBinder y1
  clear_value y1
  extract_lets +onlyGivenNames -merge -underBinder y2
  have h2 : Keeps s y2 := (Keeps.upd h)
  clear_value y2
  exact (Keeps.foldl h2 fun _ _ h3 => (keeps_restep (keeps_setFld h3)))

theorem keeps_siteEnergy {s : State} {a0 : State} {a1} (h : Keeps s a0) : Keeps s (State.siteEnergy a0 a1) := by
  unfold State.siteEnergy
  extract_lets +onlyGivenNames -merge -underBinder y1
  have h1 : Keeps s y1.1 := (keeps_freeNum h)
  clear_value y1
  extract_lets +onlyGivenNames -merge -underBinder y2
  have h2 : Keeps s y2.1 := (keeps_freeNum h1)
  clear_value y2
  extract_lets +onlyGivenNames -merge -underBinder y3
  have h3 : Keeps s y3 := h2
  clear_value y3
  extract_lets +onlyGivenNames -merge -underBinder y4
  clear_value y4
  extract_lets +onlyGivenNames -merge -underBinder y5
  have h5 : Keeps s y5 := (keeps_setReg h3)
  clear_value y5
  extract_lets +onlyGivenNames -merge -underBinder y6
  have h6 : ∀ b6_0 b6_1 b6_2, Keeps s b6_0 → Keeps s (y6 b6_0 b6_1 b6_2) := by
    intro b6_0 b6_1 b6_2 g6_0
    unfold y6
    split
    · exact (keeps_setReg g6_0)
    · exact g6_0
  clear_value y6
  extract_lets +onlyGivenNames -merge -underBinder y7
  have h7 : Keeps s y7 := (h6 _ _ _ h5)
  clear_value y7
  extract_lets +onlyGivenNames -merge -underBinder y8
  clear_value y8
  exact (h6 _ _ _ h7)

theorem keeps_effEnvelopeTick {s : State} {a0} {a1 : State} (h : Keeps s a1) : Keeps s (effEnvelopeTick a0 a1) := by
  unfold effEnvelopeTick
  refine Keeps.ite ?_ ?_
  · exact h
  · extract_lets +onlyGivenNames -merge -underBinder y1
    have h1 : Keeps s y1.1 := (keeps_freeNum h)
    clear_value y1
    extract_lets +onlyGivenNames -merge -underBinder y2
    have h2 : Keeps s y2.1 := (keeps_freeNum h1)
    clear_value y2
    extract_lets +onlyGivenNames -merge -underBinder y3
    have h3 : Keeps s y3.1 := (keeps_freeNum h2)
    clear_value y3
    extract_lets +onlyGivenNames -merge -underBinder y4
    have h4 : Keeps s y4 := (keeps_setReg (keeps_setReg (keeps_setReg h3)))
    clear_value y4
    refine Keeps.ite ?_ ?_
    · exact h4
    · extract_lets +onlyGivenNames -merge -underBinder y5
      have h5 : Keeps s y5 := (keeps_setFld (keeps_setFld h4))
      clear_value y5
      extract_lets +onlyGivenNames -merge -underBinder y6
      have h6 : Keeps s y6 := (keeps_setReg h5)
      clear_value y6
      extract_lets +onlyGivenNames -merge -underBinder y7
      have h7 : Keeps s y7 := (Keeps.foldl h6 fun _ _ h8 => (keeps_siteEnergy h8))
      clear_value y7
      extract_lets +onlyGivenNames -merge -underBinder y9
      clear_value y9
      refine Keeps.ite ?_ ?_
      · extract_lets +onlyGivenNames -merge -underBinder y10
        clear_value y10
        extract_lets +onlyGivenNames -merge -underBinder y11
        have h11 : Keeps s y11 := (Keeps.upd h7)
        clear_value y11
        refine Keeps.ite ?_ ?_
        · exact h11
        · extract_lets +onlyGivenNames -merge -underBinder y12
          have h12 : Keeps s y12 := (keeps_setEnvCap h11)
          clear_value y12
          extract_lets +onlyGivenNames -merge -underBinder y13
          have h13 : Keeps s y13 := (Keeps.foldl h12 fun _ _ h14 => (keeps_sat h14))
          clear_value y13
          exact (Keeps.ite (keeps_powerIncident h13) h13)
      · refine Keeps.ite ?_ ?_
        · refine Keeps.ite ?_ ?_
          · exact (Keeps.upd h7)
          · extract_lets +onlyGivenNames -merge -underBinder y15
            clear_value y15
            extract_lets +onlyGivenNames -merge -underBinder y16
            have h16 : Keeps s y16 := (Keeps.upd h7)
            clear_value y16
            exact (Keeps.ite h16 (keeps_setEnvCap h16))
        · exact (Keeps.upd h7)

theorem keeps_setThermCap {s : State} {a0 : State} {a1} {a2} {a3} (h : Keeps s a0) : Keeps s (State.setThermCap a0 a1 a2 a3) := by
  unfold State.setThermCap
  exact (keeps_restep (keeps_setFld h))

theorem keeps_showTemp {s : State} {a0 : State} {a1} {a2} (h : Keeps s a0) : Keeps s (State.showTemp a0 a1 a2) := by
  unfold State.showTemp
  extract_lets +onlyGivenNames -merge -underBinder y1
  have h1 : Keeps s y1 := (keeps_setTemp h)
  clear_value y1
  refine Keeps.ite ?_ ?_
  · exact h1
  · split
    · exact (keeps_setFld h1)
    · exact (keeps_setFld h1)
    · exact h1
    · exact (keeps_setFld h1)

theorem keeps_effThermalPoll {s : State} {a0} {a1} {a2} {a3 : State} (h : Keeps s a3) : Keeps s (effThermalPoll a0 a1 a2 a3) := by
  unfold effThermalPoll
  extract_lets +onlyGivenNames -merge -underBinder y1
  clear_value y1
  extract_lets +onlyGivenNames -merge -underBinder y2
  clear_value y2
  refine Keeps.ite ?_ ?_
  · exact h
  · extract_lets +onlyGivenNames -merge -underBinder y3
    have h3 : Keeps s y3 := (keeps_showTemp h)
    clear_value y3
    extract_lets +onlyGivenNames -merge -underBinder y4
    clear_value y4
    extract_lets +onlyGivenNames -merge -underBinder y5
    have h5 : ∀ b5_0 b5_1, Keeps s b5_0 → Keeps s (y5 b5_0 b5_1) := by
      intro b5_0 b5_1 g5_0
      unfold y5
      exact (Keeps.upd g5_0)
    clear_value y5
    extract_lets +onlyGivenNames -merge -underBinder y6
    clear_value y6
    refine Keeps.ite ?_ ?_
    · exact h3
    · refine Keeps.ite ?_ ?_
      · refine Keeps.ite ?_ ?_
        · exact (h5 _ _ h3)
        · extract_lets +onlyGivenNames -merge -underBinder y7
          have h7 : Keeps s y7 := (h5 _ _ h3)
          clear_value y7
          exact (Keeps.ite h7 (keeps_sat (keeps_setThermCap h7)))
      · refine Keeps.ite ?_ ?_
        · refine Keeps.ite ?_ ?_
          · exact (h5 _ _ h3)
          · extract_lets +onlyGivenNames -merge -underBinder y8
            have h8 : Keeps s y8 := (h5 _ _ h3)
            clear_value y8
            exact (Keeps.ite h8 (keeps_setThermCap h8))
        · exact (h5 _ _ h3)

theorem keeps_latchTrip {s : State} {a0 : State} {a1} {a2} (h : Keeps s a0) : Keeps s (State.latchTrip a0 a1 a2) := by
  unfold State.latchTrip
  exact (Keeps.ite h (keeps_setReg (keeps_setReg (keeps_setReg (keeps_setBit h)))))

theorem keeps_effThermalTrip {s : State} {a0} {a1} {a2 : State} (h : Keeps s a2) : Keeps s (effThermalTrip a0 a1 a2) := by
  unfold effThermalTrip
  refine Keeps.ite ?_ ?_
  · exact h
  · extract_lets +onlyGivenNames -merge -underBinder y1
    have h1 : Keeps s y1 := (keeps_showTemp h)
    clear_value y1
    exact (Keeps.ite h1 (keeps_powerOff (keeps_latchTrip h1)))

theorem keeps_rejudge {s : State} {a0 : State} {a1} (h : Keeps s a0) : Keeps s (State.rejudge a0 a1) := by
  unfold State.rejudge
  split
  · refine Keeps.ite ?_ ?_
    · extract_lets +onlyGivenNames -merge -underBinder y1
      have h1 : Keeps s y1 := (keeps_modCmd h)
      clear_value y1
      extract_lets +onlyGivenNames -merge -underBinder y2
      have h2 : Keeps s y2 := (Keeps.ite (keeps_noteDeferral h1) h1)
      clear_value y2
      exact (keeps_refreshQ h2)
    · exact h
  · exact h

theorem keeps_effLedgerFrameBoundary {s : State} {a0} {a1} {a2 : State} (h : Keeps s a2) : Keeps s (effLedgerFrameBoundary a0 a1 a2) := by
  unfold effLedgerFrameBoundary
  refine Keeps.ite ?_ ?_
  · exact h
  · extract_lets +onlyGivenNames -merge -underBinder y1
    clear_value y1
    extract_lets +onlyGivenNames -merge -underBinder y2
    have h2 : Keeps s y2 := (keeps_setFld h)
    clear_value y2
    exact (Keeps.foldl h2 fun _ _ h3 => (Keeps.foldl h3 fun _ _ h4 => (keeps_rejudge h4)))

theorem keeps_effPresenceOpen {s : State} {a0} {a1 : State} (h : Keeps s a1) : Keeps s (effPresenceOpen a0 a1) := by
  unfold effPresenceOpen
  exact (keeps_enableFalls h)

theorem keeps_effStandbyUp {s : State} {a0} {a1} {a2 : State} (h : Keeps s a2) : Keeps s (effStandbyUp a0 a1 a2) := by
  unfold effStandbyUp
  refine Keeps.ite ?_ ?_
  · exact h
  · extract_lets +onlyGivenNames -merge -underBinder y1
    clear_value y1
    extract_lets +onlyGivenNames -merge -underBinder y2
    have h2 : Keeps s y2 := (Keeps.updRegs h (regsFrom_filter _ _))
    clear_value y2
    exact (keeps_setFld h2)

theorem keeps_effStandbyLoss {s : State} {a0 : State} (h : Keeps s a0) : Keeps s (effStandbyLoss a0) := by
  unfold effStandbyLoss
  extract_lets +onlyGivenNames -merge -underBinder y1
  clear_value y1
  extract_lets +onlyGivenNames -merge -underBinder y2
  have h2 : Keeps s y2 := (keeps_powerOff (Keeps.upd h))
  clear_value y2
  exact (Keeps.upd h2)

theorem keeps_effTripClr {s : State} {a0 : State} (h : Keeps s a0) : Keeps s (effTripClr a0) := by
  unfold effTripClr
  exact (Keeps.ite (keeps_setBit h) h)

theorem keeps_setNack {s : State} {a0 : State} {a1} (h : Keeps s a0) : Keeps s (State.setNack a0 a1) := by
  unfold State.setNack
  exact (Keeps.upd h)

theorem keeps_effSmbusWrite {s : State} {a0} {a1} {a2} {a3 : State} (h : Keeps s a3) : Keeps s (effSmbusWrite a0 a1 a2 a3) := by
  unfold effSmbusWrite
  refine Keeps.ite ?_ ?_
  · exact h
  · refine Keeps.ite ?_ ?_
    · exact (keeps_setNack h)
    · extract_lets +onlyGivenNames -merge -underBinder y1
      have h1 : Keeps s y1 := (keeps_setNack h)
      clear_value y1
      refine Keeps.ite ?_ ?_
      · exact h1
      · extract_lets +onlyGivenNames -merge -underBinder y2
        have h2 : Keeps s y2 := (keeps_setFld h1)
        clear_value y2
        exact (Keeps.ite (keeps_effTripClr h2) h2)

theorem keeps_effSmbusSclTimeout {s : State} {a0 : State} (h : Keeps s a0) : Keeps s (effSmbusSclTimeout a0) := by
  unfold effSmbusSclTimeout
  exact (keeps_setNack h)

theorem keeps_tapLoad {s : State} {a0 : State} {a1} {a2} (h : Keeps s a0) : Keeps s (State.tapLoad a0 a1 a2) := by
  unfold State.tapLoad
  exact (Keeps.upd h)

theorem keeps_effIdcode {s : State} {a0 : State} (h : Keeps s a0) : Keeps s (effIdcode a0) := by
  unfold effIdcode
  exact (Keeps.ite (keeps_tapLoad h) h)

theorem keeps_effBypass {s : State} {a0 : State} (h : Keeps s a0) : Keeps s (effBypass a0) := by
  unfold effBypass
  exact (Keeps.ite (keeps_tapLoad h) h)

theorem keeps_effExtest {s : State} {a0 : State} (h : Keeps s a0) : Keeps s (effExtest a0) := by
  unfold effExtest
  exact (Keeps.ite h (Keeps.ite (keeps_effBypass h) (keeps_tapLoad h)))

theorem keeps_effSamplePreload {s : State} {a0 : State} (h : Keeps s a0) : Keeps s (effSamplePreload a0) := by
  unfold effSamplePreload
  refine Keeps.ite ?_ ?_
  · exact h
  · refine Keeps.ite ?_ ?_
    · exact (keeps_effBypass h)
    · extract_lets +onlyGivenNames -merge -underBinder y1
      clear_value y1
      extract_lets +onlyGivenNames -merge -underBinder y2
      clear_value y2
      extract_lets +onlyGivenNames -merge -underBinder y3
      have h3 : Keeps s y3 := (Keeps.upd h)
      clear_value y3
      exact (keeps_tapLoad h3)

theorem keeps_effTrst {s : State} {a0} {a1 : State} (h : Keeps s a1) : Keeps s (effTrst a0 a1) := by
  unfold effTrst
  exact (Keeps.ite h (Keeps.ite (Keeps.upd h) (Keeps.upd h)))

theorem keeps_writeBase {s : State} {a0 : State} {a1} {a2} {a3} (h : Keeps s a0) : Keeps s (State.writeBase a0 a1 a2 a3) := by
  unfold State.writeBase
  exact (Keeps.ite h (keeps_setReg h))

theorem keeps_writeNotifyAddr {s : State} {a0 : State} {a1} {a2} (h : Keeps s a0) : Keeps s (State.writeNotifyAddr a0 a1 a2) := by
  unfold State.writeNotifyAddr
  exact (keeps_setReg h)

theorem keeps_clearStatus {s : State} {a0 : State} {a1} {a2} (h : Keeps s a0) : Keeps s (State.clearStatus a0 a1 a2) := by
  unfold State.clearStatus
  exact (keeps_setReg h)

theorem keeps_queWrite {s : State} {a0 : State} {a1} {a2} {a3} {a4} (h : Keeps s a0) : Keeps s (State.queWrite a0 a1 a2 a3 a4) := by
  unfold State.queWrite
  extract_lets +onlyGivenNames -merge -underBinder y1
  clear_value y1
  extract_lets +onlyGivenNames -merge -underBinder y2
  clear_value y2
  extract_lets +onlyGivenNames -merge -underBinder y3
  clear_value y3
  refine Keeps.ite ?_ ?_
  · exact (keeps_effQueCfgWrite h)
  · refine Keeps.ite ?_ ?_
    · exact (keeps_writeBase h)
    · refine Keeps.ite ?_ ?_
      · exact (Keeps.ite (keeps_tailWrite h) h)
      · refine Keeps.ite ?_ ?_
        · exact (Keeps.ite (keeps_effQueCrHeadWrite h) h)
        · refine Keeps.ite ?_ ?_
          · exact (keeps_clearStatus h)
          · refine Keeps.ite ?_ ?_
            · exact (Keeps.ite h (Keeps.ite (keeps_effQueResumeSkip h) (keeps_resumeQ h)))
            · refine Keeps.ite ?_ ?_
              · exact (Keeps.ite (keeps_abortAll h) (Keeps.ite (keeps_effQueAbort h) h))
              · refine Keeps.ite ?_ ?_
                · exact (keeps_writeNotifyAddr h)
                · refine Keeps.ite ?_ ?_
                  · exact (keeps_setReg h)
                  · refine Keeps.ite ?_ ?_
                    · exact (keeps_effQueBcastWrite h)
                    · refine Keeps.ite ?_ ?_
                      · extract_lets +onlyGivenNames -merge -underBinder y4
                        clear_value y4
                        extract_lets +onlyGivenNames -merge -underBinder y5
                        clear_value y5
                        extract_lets +onlyGivenNames -merge -underBinder y6
                        clear_value y6
                        exact (Keeps.ite (keeps_effQueSop15Doorbell h) (keeps_modQ h))
                      · exact h

theorem keeps_svcWrite {s : State} {a0 : State} {a1} {a2} {a3} {a4} {a5} (h : Keeps s a0) : Keeps s (State.svcWrite a0 a1 a2 a3 a4 a5) := by
  unfold State.svcWrite
  extract_lets +onlyGivenNames -merge -underBinder y1
  clear_value y1
  extract_lets +onlyGivenNames -merge -underBinder y2
  clear_value y2
  extract_lets +onlyGivenNames -merge -underBinder y3
  clear_value y3
  exact (Keeps.ite (keeps_effSvcCfgWrite h) (Keeps.ite (keeps_writeBase h) (Keeps.ite (keeps_writeNotifyAddr h) (Keeps.ite (Keeps.ite (keeps_effSvcTail h) h) (Keeps.ite (Keeps.ite (keeps_effQueCrHeadWrite h) h) (Keeps.ite (keeps_clearStatus h) (Keeps.ite (Keeps.ite (keeps_effSvcResume h) h) (Keeps.ite (Keeps.ite (keeps_svcAbortAll h) (Keeps.ite (keeps_effSvcAbort h) h)) (Keeps.ite (keeps_setReg h) h)))))))))

theorem keeps_mexCtrl {s : State} {a0 : State} {a1} {a2} {a3} (h : Keeps s a0) : Keeps s (State.mexCtrl a0 a1 a2 a3) := by
  unfold State.mexCtrl
  extract_lets +onlyGivenNames -merge -underBinder y1
  have h1 : Keeps s y1 := (Keeps.ite (keeps_effMexClrFlash h) h)
  clear_value y1
  extract_lets +onlyGivenNames -merge -underBinder y2
  have h2 : Keeps s y2 := (Keeps.ite (keeps_effMexClrDet h1) h1)
  clear_value y2
  exact (Keeps.ite (keeps_effMexClrPerf h2) h2)

theorem keeps_texCtrl {s : State} {a0 : State} {a1} {a2} (h : Keeps s a0) : Keeps s (State.texCtrl a0 a1 a2) := by
  unfold State.texCtrl
  extract_lets +onlyGivenNames -merge -underBinder y1
  have h1 : Keeps s y1 := (Keeps.ite (keeps_effTexClrFlash h) h)
  clear_value y1
  extract_lets +onlyGivenNames -merge -underBinder y2
  have h2 : Keeps s y2 := (Keeps.ite (keeps_effTexClrFault h1) h1)
  clear_value y2
  exact (Keeps.ite (keeps_effTexClrPerf h2) h2)

theorem keeps_coreWrite {s : State} {a0 : State} {a1} {a2} {a3} {a4} (h : Keeps s a0) : Keeps s (State.coreWrite a0 a1 a2 a3 a4) := by
  unfold State.coreWrite
  extract_lets +onlyGivenNames -merge -underBinder y1
  clear_value y1
  refine Keeps.ite ?_ ?_
  · exact (Keeps.ite (keeps_setReg (keeps_setReg (keeps_setReg h))) h)
  · refine Keeps.ite ?_ ?_
    · exact (Keeps.ite (keeps_effCoreSelftestReq h) h)
    · refine Keeps.ite ?_ ?_
      · exact (keeps_mexCtrl h)
      · refine Keeps.ite ?_ ?_
        · exact (keeps_texCtrl h)
        · refine Keeps.ite ?_ ?_
          · extract_lets +onlyGivenNames -merge -underBinder y2
            clear_value y2
            exact (keeps_queWrite h)
          · exact (Keeps.ite (keeps_setFld h) h)

theorem keeps_tlbiCmd {s : State} {a0 : State} {a1} {a2} (h : Keeps s a0) : Keeps s (State.tlbiCmd a0 a1 a2) := by
  unfold State.tlbiCmd
  split
  · exact (keeps_effTlbiRange h)
  · exact (keeps_effTlbiContext h)
  · exact (keeps_effTlbiPartition h)
  · exact h

theorem keeps_partWrite {s : State} {a0 : State} {a1} {a2} {a3} {a4} (h : Keeps s a0) : Keeps s (State.partWrite a0 a1 a2 a3 a4) := by
  unfold State.partWrite
  refine Keeps.ite ?_ ?_
  · extract_lets +onlyGivenNames -merge -underBinder y1
    clear_value y1
    extract_lets +onlyGivenNames -merge -underBinder y2
    clear_value y2
    refine Keeps.ite ?_ ?_
    · exact (Keeps.ite (keeps_effBcastTail h) h)
    · refine Keeps.ite ?_ ?_
      · extract_lets +onlyGivenNames -merge -underBinder y3
        clear_value y3
        extract_lets +onlyGivenNames -merge -underBinder y4
        clear_value y4
        extract_lets +onlyGivenNames -merge -underBinder y5
        clear_value y5
        exact (Keeps.ite (keeps_effBcastSop15 h) (keeps_setGroupSop h))
      · exact h
  · exact (Keeps.ite (keeps_effCoreCtxBaseWrite h) (Keeps.ite (keeps_setReg h) (Keeps.ite (Keeps.ite (keeps_tlbiCmd h) h) (Keeps.ite (keeps_svcWrite h) h))))

theorem keeps_siteWrite {s : State} {a0 : State} {a1} {a2} {a3} {a4} (h : Keeps s a0) : Keeps s (State.siteWrite a0 a1 a2 a3 a4) := by
  unfold State.siteWrite
  exact (Keeps.ite (Keeps.ite (keeps_effCkgHalfWrite h) h) (Keeps.ite (keeps_effDirProbe h) h))

theorem keeps_regWrite {s : State} {a0 : State} {a1} {a2} {a3} (h : Keeps s a0) : Keeps s (State.regWrite a0 a1 a2 a3) := by
  unfold State.regWrite
  exact (Keeps.ite (keeps_coreWrite h) (Keeps.ite (keeps_siteWrite h) (Keeps.ite (keeps_partWrite h) h)))

theorem keeps_libWrite {s : State} {a0 : State} {a1} {a2} {a3} (h : Keeps s a0) : Keeps s (State.libWrite a0 a1 a2 a3) := by
  unfold State.libWrite
  extract_lets +onlyGivenNames -merge -underBinder y1
  clear_value y1
  extract_lets +onlyGivenNames -merge -underBinder y2
  clear_value y2
  extract_lets +onlyGivenNames -merge -underBinder y3
  clear_value y3
  extract_lets +onlyGivenNames -merge -underBinder y4
  clear_value y4
  exact (Keeps.ite (Keeps.ite (keeps_effLibMbTailWrite h) h) (Keeps.ite (Keeps.ite (keeps_shed (keeps_effLibIncHeadWrite h)) h) (Keeps.ite (keeps_shed (keeps_backedWrite h (fun _ h5_0 => (keeps_backedApply h5_0)))) (Keeps.ite (keeps_shed (keeps_backedWrite h (fun _ h6_0 => (keeps_backedApply h6_0)))) h))))

theorem keeps_effRegisterWrite {s : State} {a0} {a1} {a2} {a3 : State} (h : Keeps s a3) : Keeps s (effRegisterWrite a0 a1 a2 a3) := by
  unfold effRegisterWrite
  refine Keeps.ite ?_ ?_
  · exact h
  · refine Keeps.ite ?_ ?_
    · exact (keeps_libWrite h)
    · split
      · exact (keeps_regWrite h)
      · exact h

theorem keeps_retry {s : State} {a0 : State} {a1} {a2} (h : Keeps s a0) : Keeps s (State.retry a0 a1 a2) := by
  unfold State.retry
  exact (keeps_cplSend (keeps_sat h))

theorem keeps_regData {s : State} {a0 : State} {a1} {a2} {a3} (h : Keeps s a0) : Keeps s (State.regData a0 a1 a2 a3) := by
  unfold State.regData
  extract_lets +onlyGivenNames -merge -underBinder y1
  have h1 : Keeps s y1.1 := (keeps_freeNum h)
  clear_value y1
  extract_lets +onlyGivenNames -merge -underBinder y2
  clear_value y2
  exact (keeps_cplSend (keeps_setFld h1))

theorem keeps_hold {s : State} {a0 : State} {a1} {a2} (h : Keeps s a0) : Keeps s (State.hold a0 a1 a2) := by
  unfold State.hold
  exact (Keeps.upd h)

theorem keeps_readRegion {s : State} {a0 : State} {a1} {a2} (h : Keeps s a0) : Keeps s (State.readRegion a0 a1 a2) := by
  unfold State.readRegion
  split
  · exact (keeps_retry h)
  · exact (keeps_cplSend (keeps_refused h))
  · exact (keeps_regData h)
  · refine Keeps.ite ?_ ?_
    · exact (keeps_retry h)
    · extract_lets +onlyGivenNames -merge -underBinder y1
      have h1 : Keeps s y1.1 := (keeps_freeBit h)
      clear_value y1
      exact (Keeps.ite (keeps_regData h1) (keeps_shed (keeps_hold h1)))

theorem keeps_readHbm {s : State} {a0 : State} {a1} {a2} (h : Keeps s a0) : Keeps s (State.readHbm a0 a1 a2) := by
  unfold State.readHbm
  extract_lets +onlyGivenNames -merge -underBinder y1
  clear_value y1
  extract_lets +onlyGivenNames -merge -underBinder y2
  clear_value y2
  extract_lets +onlyGivenNames -merge -underBinder y3
  have h3 : Keeps s y3.1 := (keeps_poisonRead (keeps_homeServe h))
  clear_value y3
  split
  · exact (keeps_cplSend h3)
  · exact (keeps_cplSend h3)

theorem keeps_readMemory {s : State} {a0 : State} {a1} {a2} (h : Keeps s a0) : Keeps s (State.readMemory a0 a1 a2) := by
  unfold State.readMemory
  extract_lets +onlyGivenNames -merge -underBinder y1
  clear_value y1
  extract_lets +onlyGivenNames -merge -underBinder y2
  clear_value y2
  refine Keeps.ite ?_ ?_
  · exact (Keeps.ite (keeps_cplSend (keeps_refused h)) (Keeps.ite (keeps_hold h) (keeps_readHbm h)))
  · refine Keeps.ite ?_ ?_
    · extract_lets +onlyGivenNames -merge -underBinder y3
      have h3 : Keeps s y3.1 := (keeps_winRead h)
      clear_value y3
      split
      · exact (keeps_cplSend h3)
      · exact (keeps_cplSend (keeps_refused h3))
    · exact (keeps_cplSend (keeps_refused h))

theorem keeps_doMrd {s : State} {a0 : State} {a1} {a2} (h : Keeps s a0) : Keeps s (State.doMrd a0 a1 a2) := by
  unfold State.doMrd
  extract_lets +onlyGivenNames -merge -underBinder y1
  clear_value y1
  exact (Keeps.ite h (Keeps.ite (keeps_cplSend (keeps_refused h)) (Keeps.ite (keeps_cplSend h) (Keeps.ite (Keeps.ite (keeps_readRegion h) (keeps_cplSend h)) (Keeps.ite (keeps_cplSend h) (keeps_readMemory h))))))

theorem keeps_writeLib {s : State} {a0 : State} {a1} {a2} {a3} {a4} (h : Keeps s a0) : Keeps s (State.writeLib a0 a1 a2 a3 a4) := by
  unfold State.writeLib
  refine Keeps.ite ?_ ?_
  · exact (keeps_effLoadWindowWrite h)
  · refine Keeps.ite ?_ ?_
    · split
      · exact (keeps_effLoadLib h)
      · exact (keeps_effLoadMould h)
      · exact (Keeps.ite h (keeps_refused h))
    · exact (Keeps.ite (keeps_libWrite h) (keeps_refused h))

theorem keeps_writeRegion {s : State} {a0 : State} {a1} {a2} {a3} {a4} (h : Keeps s a0) : Keeps s (State.writeRegion a0 a1 a2 a3 a4) := by
  unfold State.writeRegion
  extract_lets +onlyGivenNames -merge -underBinder y1
  clear_value y1
  exact (Keeps.ite (keeps_writeLib h) (Keeps.ite (keeps_refused h) (Keeps.ite (keeps_refused h) (Keeps.ite (keeps_refused h) (keeps_effRegisterWrite h)))))

theorem keeps_writeMemory {s : State} {a0 : State} {a1} {a2} {a3} {a4} (h : Keeps s a0) : Keeps s (State.writeMemory a0 a1 a2 a3 a4) := by
  unfold State.writeMemory
  refine Keeps.ite ?_ ?_
  · exact (Keeps.ite (keeps_refused h) (keeps_homeWrite h))
  · refine Keeps.ite ?_ ?_
    · extract_lets +onlyGivenNames -merge -underBinder y1
      clear_value y1
      extract_lets +onlyGivenNames -merge -underBinder y2
      have h2 : Keeps s y2.1 := (keeps_winWrite h)
      clear_value y2
      exact (Keeps.ite h2 (keeps_refused h2))
    · exact (keeps_refused h)

theorem keeps_doMwr {s : State} {a0 : State} {a1} {a2} {a3} (h : Keeps s a0) : Keeps s (State.doMwr a0 a1 a2 a3) := by
  unfold State.doMwr
  extract_lets +onlyGivenNames -merge -underBinder y1
  clear_value y1
  exact (Keeps.ite h (Keeps.ite (keeps_refused h) (Keeps.ite (Keeps.ite (keeps_writeRegion h) (keeps_refused h)) (Keeps.ite (keeps_refused h) (keeps_writeMemory h)))))

theorem keeps_drainPortN_aux {s : State} : ∀ a0 a1 a2, Keeps s a0 → Keeps s (State.drainPortN a0 a1 a2)
  | x0, x1, 0, h => by
    rw [State.drainPortN]
    exact h
  | x0, x1, (x2 + 1), h => by
    rw [State.drainPortN]
    split
    · exact h
    · extract_lets +onlyGivenNames -merge -underBinder y1
      clear_value y1
      refine Keeps.ite ?_ ?_
      · exact h
      · extract_lets +onlyGivenNames -merge -underBinder y2
        clear_value y2
        extract_lets +onlyGivenNames -merge -underBinder y3
        have h3 : Keeps s y3 := (Keeps.upd h)
        clear_value y3
        exact (keeps_drainPortN_aux _ _ _ (Keeps.ite (keeps_doMwr h3) (keeps_doMrd h3)))

theorem keeps_drainPortN {s : State} {a0 : State} {a1} {a2} (h : Keeps s a0) : Keeps s (State.drainPortN a0 a1 a2) := keeps_drainPortN_aux a0 a1 a2 h

theorem keeps_drainPort {s : State} {a0 : State} {a1} (h : Keeps s a0) : Keeps s (State.drainPort a0 a1) := by
  unfold State.drainPort
  exact (keeps_drainPortN h)

theorem keeps_drainPorts {s : State} {a0 : State} (h : Keeps s a0) : Keeps s (State.drainPorts a0) := by
  unfold State.drainPorts
  exact (Keeps.foldl h fun _ _ h1 => (keeps_drainPort h1))

theorem keeps_hostRequest {s : State} {a0 : State} {a1} {a2} {a3} {a4} (h : Keeps s a0) : Keeps s (State.hostRequest a0 a1 a2 a3 a4) := by
  unfold State.hostRequest
  extract_lets +onlyGivenNames -merge -underBinder y1
  have h1 : Keeps s y1 := (keeps_drainPort h)
  clear_value y1
  exact (Keeps.ite (Keeps.upd h1) (Keeps.ite (keeps_doMwr h1) (keeps_doMrd h1)))

theorem keeps_effMrd {s : State} {a0} {a1} {a2 : State} (h : Keeps s a2) : Keeps s (effMrd a0 a1 a2) := by
  unfold effMrd
  exact (Keeps.ite (keeps_doMrd h) (keeps_hostRequest h))

theorem keeps_effMwr {s : State} {a0} {a1} {a2} {a3 : State} (h : Keeps s a3) : Keeps s (effMwr a0 a1 a2 a3) := by
  unfold effMwr
  exact (Keeps.ite (keeps_doMwr h) (keeps_hostRequest h))

theorem keeps_unhold {s : State} {a0 : State} {a1} (h : Keeps s a0) : Keeps s (State.unhold a0 a1) := by
  unfold State.unhold
  exact (Keeps.upd h)

theorem keeps_retryQueued {s : State} {a0 : State} {a1} {a2} {a3} (h : Keeps s a0) : Keeps s (State.retryQueued a0 a1 a2 a3) := by
  unfold State.retryQueued
  split
  · exact (keeps_drainPort (keeps_retry (Keeps.upd h)))
  · exact h

theorem keeps_effRegisterReadDeadline {s : State} {a0} {a1} {a2 : State} (h : Keeps s a2) : Keeps s (effRegisterReadDeadline a0 a1 a2) := by
  unfold effRegisterReadDeadline
  extract_lets +onlyGivenNames -merge -underBinder y1
  have h1 : Keeps s y1 := (keeps_drainPort h)
  clear_value y1
  split
  · exact (keeps_drainPort (keeps_shed (keeps_retry (keeps_unhold h1))))
  · exact (keeps_retryQueued h1)

theorem keeps_effMemoryReadDeadline {s : State} {a0} {a1} {a2 : State} (h : Keeps s a2) : Keeps s (effMemoryReadDeadline a0 a1 a2) := by
  unfold effMemoryReadDeadline
  extract_lets +onlyGivenNames -merge -underBinder y1
  have h1 : Keeps s y1 := (keeps_drainPort h)
  clear_value y1
  split
  · extract_lets +onlyGivenNames -merge -underBinder y2
    have h2 : Keeps s y2 := (keeps_unhold h1)
    clear_value y2
    exact (keeps_drainPort (Keeps.ite (keeps_retry h2) (keeps_readHbm h2)))
  · exact (keeps_retryQueued h1)

theorem keeps_hop {s : State} {a0 : State} {a1} (h : Keeps s a0) : Keeps s (State.hop a0 a1) := by
  unfold State.hop
  extract_lets +onlyGivenNames -merge -underBinder y1
  clear_value y1
  split
  · exact h
  · refine Keeps.ite ?_ ?_
    · extract_lets +onlyGivenNames -merge -underBinder y2
      have h2 : Keeps s y2 := (keeps_handOver h)
      clear_value y2
      extract_lets +onlyGivenNames -merge -underBinder y3
      clear_value y3
      exact (Keeps.upd h2)
    · exact h

theorem keeps_hops {s : State} {a0 : State} (h : Keeps s a0) : Keeps s (State.hops a0) := by
  unfold State.hops
  extract_lets +onlyGivenNames -merge -underBinder y1
  clear_value y1
  extract_lets +onlyGivenNames -merge -underBinder y2
  have h2 : Keeps s y2 := (Keeps.upd h)
  clear_value y2
  exact (Keeps.foldl h2 fun _ _ h3 => (keeps_hop h3))

theorem keeps_strand {s : State} {a0 : State} {a1} (h : Keeps s a0) : Keeps s (State.strand a0 a1) := by
  unfold State.strand
  extract_lets +onlyGivenNames -merge -underBinder y1
  clear_value y1
  extract_lets +onlyGivenNames -merge -underBinder y2
  clear_value y2
  extract_lets +onlyGivenNames -merge -underBinder y3
  clear_value y3
  extract_lets +onlyGivenNames -merge -underBinder y4
  clear_value y4
  extract_lets +onlyGivenNames -merge -underBinder y5
  clear_value y5
  extract_lets +onlyGivenNames -merge -underBinder y6
  clear_value y6
  refine Keeps.ite ?_ ?_
  · exact h
  · extract_lets +onlyGivenNames -merge -underBinder y7
    have h7 : Keeps s y7 := (keeps_setLink h)
    clear_value y7
    exact (Keeps.foldl h7 fun _ _ h8 => (keeps_handOver h8))

theorem keeps_linkCycle {s : State} {a0 : State} {a1} (h : Keeps s a0) : Keeps s (State.linkCycle a0 a1) := by
  unfold State.linkCycle
  extract_lets +onlyGivenNames -merge -underBinder y1
  clear_value y1
  exact (Keeps.ite (keeps_strand h) (Keeps.ite h (keeps_setLink h)))

theorem keeps_givePort {s : State} {a0 : State} {a1} {a2} {a3} {a4} (h : Keeps s a0) : Keeps s (State.givePort a0 a1 a2 a3 a4) := by
  unfold State.givePort
  extract_lets +onlyGivenNames -merge -underBinder y1
  clear_value y1
  extract_lets +onlyGivenNames -merge -underBinder y2
  clear_value y2
  extract_lets +onlyGivenNames -merge -underBinder y3
  clear_value y3
  exact (keeps_setLink h)

theorem keeps_feedHost {s : State} {a0 : State} {a1} (h : Keeps s a0) : Keeps s (State.feedHost a0 a1) := by
  unfold State.feedHost
  refine Keeps.foldl ?_ fun y2 a2 h2 => ?_
  · exact h
  · split
    · exact h2
    · extract_lets +onlyGivenNames -merge -underBinder y3
      clear_value y3
      exact (Keeps.ite (keeps_givePort (Keeps.upd h2)) h2)

theorem keeps_feedFabric {s : State} {a0 : State} {a1} (h : Keeps s a0) : Keeps s (State.feedFabric a0 a1) := by
  unfold State.feedFabric
  refine Keeps.foldl ?_ fun y2 a2 h2 => ?_
  · exact h
  · split
    · exact h2
    · extract_lets +onlyGivenNames -merge -underBinder y3
      clear_value y3
      exact (Keeps.ite (keeps_givePort (Keeps.upd h2)) h2)

theorem keeps_portCycle {s : State} {a0 : State} {a1} (h : Keeps s a0) : Keeps s (State.portCycle a0 a1) := by
  unfold State.portCycle
  refine Keeps.ite ?_ ?_
  · exact h
  · extract_lets +onlyGivenNames -merge -underBinder y1
    have h1 : Keeps s y1 := (Keeps.ite (keeps_feedHost h) (keeps_feedFabric h))
    clear_value y1
    extract_lets +onlyGivenNames -merge -underBinder y2
    clear_value y2
    exact (keeps_setLink h1)

theorem keeps_carry {s : State} {a0 : State} (h : Keeps s a0) : Keeps s (State.carry a0) := by
  unfold State.carry
  extract_lets +onlyGivenNames -merge -underBinder y1
  have h1 : Keeps s y1 := (keeps_hops h)
  clear_value y1
  extract_lets +onlyGivenNames -merge -underBinder y2
  have h2 : Keeps s y2 := (Keeps.foldl h1 fun _ _ h3 => (Keeps.ite (keeps_linkCycle h3) h3))
  clear_value y2
  extract_lets +onlyGivenNames -merge -underBinder y4
  clear_value y4
  exact (Keeps.foldl h2 fun _ _ h5 => (keeps_portCycle h5))

theorem keeps_tickBusy {s : State} {a0 : State} {a1} {a2} {a3} (h : Keeps s a0) : Keeps s (State.tickBusy a0 a1 a2 a3) := by
  unfold State.tickBusy
  refine Keeps.ite ?_ ?_
  · extract_lets +onlyGivenNames -merge -underBinder y1
    have h1 : Keeps s y1 := (keeps_bump h)
    clear_value y1
    exact (Keeps.ite (keeps_bump h1) h1)
  · exact h

theorem keeps_tickCore {s : State} {a0 : State} {a1} (h : Keeps s a0) : Keeps s (State.tickCore a0 a1) := by
  unfold State.tickCore
  extract_lets +onlyGivenNames -merge -underBinder y1
  have h1 : Keeps s y1 := (Keeps.foldl h fun _ _ h2 => (keeps_tickBusy h2))
  clear_value y1
  exact (keeps_tickBusy h1)

theorem keeps_tick {s : State} {a0 : State} (h : Keeps s a0) : Keeps s (State.tick a0) := by
  unfold State.tick
  extract_lets +onlyGivenNames -merge -underBinder y1
  have h1 : Keeps s y1 := (keeps_drainPorts h)
  clear_value y1
  refine Keeps.ite ?_ ?_
  · extract_lets +onlyGivenNames -merge -underBinder y2
    have h2 : Keeps s y2 := (Keeps.foldl h1 fun _ _ h3 => (keeps_tickCore h3))
    clear_value y2
    extract_lets +onlyGivenNames -merge -underBinder y4
    have h4 : Keeps s y4 := (Keeps.ite h2 (keeps_carry h2))
    clear_value y4
    exact (Keeps.upd h4)
  · exact h1

end Sys2Proof.Machine
end

