-- ==== Sys2Proof/Laws/KeepsRows.lean ====
section
/-!
SUPPORT. What each command does, said once: a command that names units the panel has answers a next state that keeps
what `Keeps` says; another stops. One lemma for each meaning.
-/

namespace Sys2Proof.Machine

/-- An outcome of a command: where `ok`, a next state that keeps what `s` has, else the stop. -/
def Does (ok : Bool) (s : State) (o : Host.Outcome State Fault Refusal) : Prop := ∃ t, o = carryOut ok t ∧ Keeps s t

theorem Does.next {ok : Bool} {s : State} {o} (h : Does ok s o) (hok : ok = true) : ∃ t, o = .next t ∧ Keeps s t := by
  obtain ⟨t, rfl, k⟩ := h
  exact ⟨t, by simp [carryOut, hok], k⟩
theorem Does.stop {ok : Bool} {s : State} {o} (h : Does ok s o) (hok : ok = false) : o = .fault .noSuchCommand := by
  obtain ⟨t, rfl, k⟩ := h
  simp [carryOut, hok]

theorem does_registerWrite {s : State} {pa len v} : Does (Instr.registerWrite pa len v).wf s (execRegisterWrite pa len v s) :=
  ⟨_, rfl, (keeps_effRegisterWrite Keeps.rfl')⟩
theorem does_cdieFatalError {s : State} {site} : Does (Instr.cdieFatalError site).wf s (execCdieFatalError site s) :=
  ⟨_, rfl, (keeps_effCdieFatalError Keeps.rfl')⟩
theorem does_cdieHeartbeatTimeout {s : State} {site} : Does (Instr.cdieHeartbeatTimeout site).wf s (execCdieHeartbeatTimeout site s) :=
  ⟨_, rfl, (keeps_effCdieHeartbeatTimeout Keeps.rfl')⟩
theorem does_substitutionDone {s : State} {row} : Does (Instr.substitutionDone row).wf s (execSubstitutionDone row s) :=
  ⟨_, rfl, (keeps_effSubstitutionDone Keeps.rfl')⟩
theorem does_riserFailure {s : State} {row} : Does (Instr.riserFailure row).wf s (execRiserFailure row s) :=
  ⟨_, rfl, (keeps_effRiserFailure Keeps.rfl')⟩
theorem does_matmul {s : State} {q} : Does (Instr.matmul q).wf s (execMatmul q s) :=
  ⟨_, rfl, (keeps_effMatmul Keeps.rfl')⟩
theorem does_gangWindowClose {s : State} {core gang} : Does (Instr.gangWindowClose core gang).wf s (execGangWindowClose core gang s) :=
  ⟨_, rfl, (keeps_effGangWindowClose Keeps.rfl')⟩
theorem does_matrixDetection {s : State} {core eng kind} : Does (Instr.matrixDetection core eng kind).wf s (execMatrixDetection core eng kind s) :=
  ⟨_, rfl, (keeps_effMatrixDetection Keeps.rfl')⟩
theorem does_lsParityError {s : State} {core eng off} : Does (Instr.lsParityError core eng off).wf s (execLsParityError core eng off s) :=
  ⟨_, rfl, (keeps_effLsParityError Keeps.rfl')⟩
theorem does_engineStopped {s : State} {core eng} : Does (Instr.engineStopped core eng).wf s (execEngineStopped core eng s) :=
  ⟨_, rfl, (keeps_effEngineStopped Keeps.rfl')⟩
theorem does_mexClrFlash {s : State} {core me} : Does (Instr.mexClrFlash core me).wf s (execMexClrFlash core me s) :=
  ⟨_, rfl, (keeps_effMexClrFlash Keeps.rfl')⟩
theorem does_mexClrDet {s : State} {core me} : Does (Instr.mexClrDet core me).wf s (execMexClrDet core me s) :=
  ⟨_, rfl, (keeps_effMexClrDet Keeps.rfl')⟩
theorem does_mexClrPerf {s : State} {core me} : Does (Instr.mexClrPerf core me).wf s (execMexClrPerf core me s) :=
  ⟨_, rfl, (keeps_effMexClrPerf Keeps.rfl')⟩
theorem does_launch {s : State} {q} : Does (Instr.launch q).wf s (execLaunch q s) :=
  ⟨_, rfl, (keeps_effLaunch Keeps.rfl')⟩
theorem does_blockDispatch {s : State} {core} : Does (Instr.blockDispatch core).wf s (execBlockDispatch core s) :=
  ⟨_, rfl, (keeps_effBlockDispatch Keeps.rfl')⟩
theorem does_blockRetire {s : State} {core blk} : Does (Instr.blockRetire core blk).wf s (execBlockRetire core blk s) :=
  ⟨_, rfl, (keeps_effBlockRetire Keeps.rfl')⟩
theorem does_meetComplete {s : State} {core blk} : Does (Instr.meetComplete core blk).wf s (execMeetComplete core blk s) :=
  ⟨_, rfl, (keeps_effMeetComplete Keeps.rfl')⟩
theorem does_barrierTimeout {s : State} {core blk} : Does (Instr.barrierTimeout core blk).wf s (execBarrierTimeout core blk s) :=
  ⟨_, rfl, (keeps_effBarrierTimeout Keeps.rfl')⟩
theorem does_waitcTimeout {s : State} {g} : Does (Instr.waitcTimeout g).wf s (execWaitcTimeout g s) :=
  ⟨_, rfl, (keeps_effWaitcTimeout Keeps.rfl')⟩
theorem does_copyComplete {s : State} {core blk idx} : Does (Instr.copyComplete core blk idx).wf s (execCopyComplete core blk idx s) :=
  ⟨_, rfl, (keeps_effCopyComplete Keeps.rfl')⟩
theorem does_teDetection {s : State} {core kind} : Does (Instr.teDetection core kind).wf s (execTeDetection core kind s) :=
  ⟨_, rfl, (keeps_effTeDetection Keeps.rfl')⟩
theorem does_l0ParityError {s : State} {core unit} : Does (Instr.l0ParityError core unit).wf s (execL0ParityError core unit s) :=
  ⟨_, rfl, (keeps_effL0ParityError Keeps.rfl')⟩
theorem does_texClrFlash {s : State} {core} : Does (Instr.texClrFlash core).wf s (execTexClrFlash core s) :=
  ⟨_, rfl, (keeps_effTexClrFlash Keeps.rfl')⟩
theorem does_texClrFault {s : State} {core} : Does (Instr.texClrFault core).wf s (execTexClrFault core s) :=
  ⟨_, rfl, (keeps_effTexClrFault Keeps.rfl')⟩
theorem does_texClrPerf {s : State} {core} : Does (Instr.texClrPerf core).wf s (execTexClrPerf core s) :=
  ⟨_, rfl, (keeps_effTexClrPerf Keeps.rfl')⟩
theorem does_folioNop {s : State} {g w w1} : Does (Instr.folioNop g w w1).wf s (execFolioNop g w w1 s) :=
  ⟨_, rfl, (keeps_effFolioNop Keeps.rfl')⟩
theorem does_quit {s : State} {g w w1} : Does (Instr.quit g w w1).wf s (execQuit g w w1 s) :=
  ⟨_, rfl, (keeps_effQuit Keeps.rfl')⟩
theorem does_jump {s : State} {g w w1} : Does (Instr.jump g w w1).wf s (execJump g w w1 s) :=
  ⟨_, rfl, (keeps_effJump Keeps.rfl')⟩
theorem does_call {s : State} {g w w1} : Does (Instr.call g w w1).wf s (execCall g w w1 s) :=
  ⟨_, rfl, (keeps_effCall Keeps.rfl')⟩
theorem does_ret {s : State} {g w w1} : Does (Instr.ret g w w1).wf s (execRet g w w1 s) :=
  ⟨_, rfl, (keeps_effRet Keeps.rfl')⟩
theorem does_meet {s : State} {g w w1} : Does (Instr.meet g w w1).wf s (execMeet g w w1 s) :=
  ⟨_, rfl, (keeps_effMeet Keeps.rfl')⟩
theorem does_tally {s : State} {g w w1} : Does (Instr.tally g w w1).wf s (execTally g w w1 s) :=
  ⟨_, rfl, (keeps_effTally Keeps.rfl')⟩
theorem does_specr {s : State} {g w w1} : Does (Instr.specr g w w1).wf s (execSpecr g w w1 s) :=
  ⟨_, rfl, (keeps_effSpecr Keeps.rfl')⟩
theorem does_cinv {s : State} {g w w1} : Does (Instr.cinv g w w1).wf s (execCinv g w w1 s) :=
  ⟨_, rfl, (keeps_effCinv Keeps.rfl')⟩
theorem does_fence {s : State} {g w w1} : Does (Instr.fence g w w1).wf s (execFence g w w1 s) :=
  ⟨_, rfl, (keeps_gfence Keeps.rfl')⟩
theorem does_cpy {s : State} {g w w1} : Does (Instr.cpy g w w1).wf s (execCpy g w w1 s) :=
  ⟨_, rfl, (keeps_effCpy Keeps.rfl')⟩
theorem does_waitc {s : State} {g w w1} : Does (Instr.waitc g w w1).wf s (execWaitc g w w1 s) :=
  ⟨_, rfl, (keeps_effWaitc Keeps.rfl')⟩
theorem does_rdc {s : State} {g w w1} : Does (Instr.rdc g w w1).wf s (execRdc g w w1 s) :=
  ⟨_, rfl, (keeps_effRdc Keeps.rfl')⟩
theorem does_addw {s : State} {g w w1} : Does (Instr.addw g w w1).wf s (execAddw g w w1 s) :=
  ⟨_, rfl, (keeps_alu Keeps.rfl')⟩
theorem does_subw {s : State} {g w w1} : Does (Instr.subw g w w1).wf s (execSubw g w w1 s) :=
  ⟨_, rfl, (keeps_alu Keeps.rfl')⟩
theorem does_mulw {s : State} {g w w1} : Does (Instr.mulw g w w1).wf s (execMulw g w w1 s) :=
  ⟨_, rfl, (keeps_alu Keeps.rfl')⟩
theorem does_mulwh {s : State} {g w w1} : Does (Instr.mulwh g w w1).wf s (execMulwh g w w1 s) :=
  ⟨_, rfl, (keeps_alu Keeps.rfl')⟩
theorem does_madw {s : State} {g w w1} : Does (Instr.madw g w w1).wf s (execMadw g w w1 s) :=
  ⟨_, rfl, (keeps_alu Keeps.rfl')⟩
theorem does_minw {s : State} {g w w1} : Does (Instr.minw g w w1).wf s (execMinw g w w1 s) :=
  ⟨_, rfl, (keeps_alu Keeps.rfl')⟩
theorem does_maxw {s : State} {g w w1} : Does (Instr.maxw g w w1).wf s (execMaxw g w w1 s) :=
  ⟨_, rfl, (keeps_alu Keeps.rfl')⟩
theorem does_andw {s : State} {g w w1} : Does (Instr.andw g w w1).wf s (execAndw g w w1 s) :=
  ⟨_, rfl, (keeps_alu Keeps.rfl')⟩
theorem does_orw {s : State} {g w w1} : Does (Instr.orw g w w1).wf s (execOrw g w w1 s) :=
  ⟨_, rfl, (keeps_alu Keeps.rfl')⟩
theorem does_xorw {s : State} {g w w1} : Does (Instr.xorw g w w1).wf s (execXorw g w w1 s) :=
  ⟨_, rfl, (keeps_alu Keeps.rfl')⟩
theorem does_shlw {s : State} {g w w1} : Does (Instr.shlw g w w1).wf s (execShlw g w w1 s) :=
  ⟨_, rfl, (keeps_alu Keeps.rfl')⟩
theorem does_shrw {s : State} {g w w1} : Does (Instr.shrw g w w1).wf s (execShrw g w w1 s) :=
  ⟨_, rfl, (keeps_alu Keeps.rfl')⟩
theorem does_ones {s : State} {g w w1} : Does (Instr.ones g w w1).wf s (execOnes g w w1 s) :=
  ⟨_, rfl, (keeps_alu Keeps.rfl')⟩
theorem does_lzero {s : State} {g w w1} : Does (Instr.lzero g w w1).wf s (execLzero g w w1 s) :=
  ⟨_, rfl, (keeps_alu Keeps.rfl')⟩
theorem does_field {s : State} {g w w1} : Does (Instr.field g w w1).wf s (execField g w w1 s) :=
  ⟨_, rfl, (keeps_alu Keeps.rfl')⟩
theorem does_place {s : State} {g w w1} : Does (Instr.place g w w1).wf s (execPlace g w w1 s) :=
  ⟨_, rfl, (keeps_alu Keeps.rfl')⟩
theorem does_choose {s : State} {g w w1} : Does (Instr.choose g w w1).wf s (execChoose g w w1 s) :=
  ⟨_, rfl, (keeps_alu Keeps.rfl')⟩
theorem does_setr {s : State} {g w w1} : Does (Instr.setr g w w1).wf s (execSetr g w w1 s) :=
  ⟨_, rfl, (keeps_alu Keeps.rfl')⟩
theorem does_testw {s : State} {g w w1} : Does (Instr.testw g w w1).wf s (execTestw g w w1 s) :=
  ⟨_, rfl, (keeps_alu Keeps.rfl')⟩
theorem does_testf {s : State} {g w w1} : Does (Instr.testf g w w1).wf s (execTestf g w w1 s) :=
  ⟨_, rfl, (keeps_alu Keeps.rfl')⟩
theorem does_pcomb {s : State} {g w w1} : Does (Instr.pcomb g w w1).wf s (execPcomb g w w1 s) :=
  ⟨_, rfl, (keeps_alu Keeps.rfl')⟩
theorem does_lanex {s : State} {g w w1} : Does (Instr.lanex g w w1).wf s (execLanex g w w1 s) :=
  ⟨_, rfl, (keeps_alu Keeps.rfl')⟩
theorem does_poll {s : State} {g w w1} : Does (Instr.poll g w w1).wf s (execPoll g w w1 s) :=
  ⟨_, rfl, (keeps_alu Keeps.rfl')⟩
theorem does_laneu {s : State} {g w w1} : Does (Instr.laneu g w w1).wf s (execLaneu g w w1 s) :=
  ⟨_, rfl, (keeps_alu Keeps.rfl')⟩
theorem does_addf {s : State} {g w w1} : Does (Instr.addf g w w1).wf s (execAddf g w w1 s) :=
  ⟨_, rfl, (keeps_alu Keeps.rfl')⟩
theorem does_mulf {s : State} {g w w1} : Does (Instr.mulf g w w1).wf s (execMulf g w w1 s) :=
  ⟨_, rfl, (keeps_alu Keeps.rfl')⟩
theorem does_madf {s : State} {g w w1} : Does (Instr.madf g w w1).wf s (execMadf g w w1 s) :=
  ⟨_, rfl, (keeps_alu Keeps.rfl')⟩
theorem does_minf {s : State} {g w w1} : Does (Instr.minf g w w1).wf s (execMinf g w w1 s) :=
  ⟨_, rfl, (keeps_alu Keeps.rfl')⟩
theorem does_maxf {s : State} {g w w1} : Does (Instr.maxf g w w1).wf s (execMaxf g w w1 s) :=
  ⟨_, rfl, (keeps_alu Keeps.rfl')⟩
theorem does_addb2 {s : State} {g w w1} : Does (Instr.addb2 g w w1).wf s (execAddb2 g w w1 s) :=
  ⟨_, rfl, (keeps_alu Keeps.rfl')⟩
theorem does_mulb2 {s : State} {g w w1} : Does (Instr.mulb2 g w w1).wf s (execMulb2 g w w1 s) :=
  ⟨_, rfl, (keeps_alu Keeps.rfl')⟩
theorem does_madb2 {s : State} {g w w1} : Does (Instr.madb2 g w w1).wf s (execMadb2 g w w1 s) :=
  ⟨_, rfl, (keeps_alu Keeps.rfl')⟩
theorem does_recip {s : State} {g w w1} : Does (Instr.recip g w w1).wf s (execRecip g w w1 s) :=
  ⟨_, rfl, (keeps_alu Keeps.rfl')⟩
theorem does_rroot {s : State} {g w w1} : Does (Instr.rroot g w w1).wf s (execRroot g w w1 s) :=
  ⟨_, rfl, (keeps_alu Keeps.rfl')⟩
theorem does_pow2 {s : State} {g w w1} : Does (Instr.pow2 g w w1).wf s (execPow2 g w w1 s) :=
  ⟨_, rfl, (keeps_alu Keeps.rfl')⟩
theorem does_log2 {s : State} {g w w1} : Does (Instr.log2 g w w1).wf s (execLog2 g w w1 s) :=
  ⟨_, rfl, (keeps_alu Keeps.rfl')⟩
theorem does_wtof {s : State} {g w w1} : Does (Instr.wtof g w w1).wf s (execWtof g w w1 s) :=
  ⟨_, rfl, (keeps_alu Keeps.rfl')⟩
theorem does_ftow {s : State} {g w w1} : Does (Instr.ftow g w w1).wf s (execFtow g w w1 s) :=
  ⟨_, rfl, (keeps_alu Keeps.rfl')⟩
theorem does_ftob {s : State} {g w w1} : Does (Instr.ftob g w w1).wf s (execFtob g w w1 s) :=
  ⟨_, rfl, (keeps_alu Keeps.rfl')⟩
theorem does_btof {s : State} {g w w1} : Does (Instr.btof g w w1).wf s (execBtof g w w1 s) :=
  ⟨_, rfl, (keeps_alu Keeps.rfl')⟩
theorem does_cvte {s : State} {g w w1} : Does (Instr.cvte g w w1).wf s (execCvte g w w1 s) :=
  ⟨_, rfl, (keeps_alu Keeps.rfl')⟩
theorem does_dcde {s : State} {g w w1} : Does (Instr.dcde g w w1).wf s (execDcde g w w1 s) :=
  ⟨_, rfl, (keeps_alu Keeps.rfl')⟩
theorem does_qblk {s : State} {g w w1} : Does (Instr.qblk g w w1).wf s (execQblk g w w1 s) :=
  ⟨_, rfl, (keeps_alu Keeps.rfl')⟩
theorem does_dqblk {s : State} {g w w1} : Does (Instr.dqblk g w w1).wf s (execDqblk g w w1 s) :=
  ⟨_, rfl, (keeps_alu Keeps.rfl')⟩
theorem does_ldm {s : State} {g w w1} : Does (Instr.ldm g w w1).wf s (execLdm g w w1 s) :=
  ⟨_, rfl, (keeps_gload Keeps.rfl')⟩
theorem does_ldro {s : State} {g w w1} : Does (Instr.ldro g w w1).wf s (execLdro g w w1 s) :=
  ⟨_, rfl, (keeps_gload Keeps.rfl')⟩
theorem does_ldls {s : State} {g w w1} : Does (Instr.ldls g w w1).wf s (execLdls g w w1 s) :=
  ⟨_, rfl, (keeps_lload Keeps.rfl')⟩
theorem does_stm {s : State} {g w w1} : Does (Instr.stm g w w1).wf s (execStm g w w1 s) :=
  ⟨_, rfl, (keeps_gstore Keeps.rfl')⟩
theorem does_stls {s : State} {g w w1} : Does (Instr.stls g w w1).wf s (execStls g w w1 s) :=
  ⟨_, rfl, (keeps_lstore Keeps.rfl')⟩
theorem does_mopn {s : State} {g w w1} : Does (Instr.mopn g w w1).wf s (execMopn g w w1 s) :=
  ⟨_, rfl, (keeps_gmopn Keeps.rfl')⟩
theorem does_mopr {s : State} {g w w1} : Does (Instr.mopr g w w1).wf s (execMopr g w w1 s) :=
  ⟨_, rfl, (keeps_gmopr Keeps.rfl')⟩
theorem does_lopr {s : State} {g w w1} : Does (Instr.lopr g w w1).wf s (execLopr g w w1 s) :=
  ⟨_, rfl, (keeps_llopr Keeps.rfl')⟩
theorem does_gmac {s : State} {g w w1} : Does (Instr.gmac g w w1).wf s (execGmac g w w1 s) :=
  ⟨_, rfl, (keeps_alu Keeps.rfl')⟩
theorem does_gmclr {s : State} {g w w1} : Does (Instr.gmclr g w w1).wf s (execGmclr g w w1 s) :=
  ⟨_, rfl, (keeps_alu Keeps.rfl')⟩
theorem does_gmget {s : State} {g w w1} : Does (Instr.gmget g w w1).wf s (execGmget g w w1 s) :=
  ⟨_, rfl, (keeps_alu Keeps.rfl')⟩
theorem does_gmput {s : State} {g w w1} : Does (Instr.gmput g w w1).wf s (execGmput g w w1 s) :=
  ⟨_, rfl, (keeps_alu Keeps.rfl')⟩
theorem does_queTailDoorbell {s : State} {q v} : Does (Instr.queTailDoorbell q v).wf s (execQueTailDoorbell q v s) :=
  ⟨_, rfl, (keeps_tailWrite Keeps.rfl')⟩
theorem does_queSop15Doorbell {s : State} {q v} : Does (Instr.queSop15Doorbell q v).wf s (execQueSop15Doorbell q v s) :=
  ⟨_, rfl, (keeps_effQueSop15Doorbell Keeps.rfl')⟩
theorem does_bcastTail {s : State} {p grp v} : Does (Instr.bcastTail p grp v).wf s (execBcastTail p grp v s) :=
  ⟨_, rfl, (keeps_effBcastTail Keeps.rfl')⟩
theorem does_bcastSop15 {s : State} {p grp v} : Does (Instr.bcastSop15 p grp v).wf s (execBcastSop15 p grp v s) :=
  ⟨_, rfl, (keeps_effBcastSop15 Keeps.rfl')⟩
theorem does_queCfgWrite {s : State} {q v} : Does (Instr.queCfgWrite q v).wf s (execQueCfgWrite q v s) :=
  ⟨_, rfl, (keeps_effQueCfgWrite Keeps.rfl')⟩
theorem does_queBcastWrite {s : State} {q v} : Does (Instr.queBcastWrite q v).wf s (execQueBcastWrite q v s) :=
  ⟨_, rfl, (keeps_effQueBcastWrite Keeps.rfl')⟩
theorem does_queResume {s : State} {q} : Does (Instr.queResume q).wf s (execQueResume q s) :=
  ⟨_, rfl, (keeps_resumeQ Keeps.rfl')⟩
theorem does_queResumeSkip {s : State} {q} : Does (Instr.queResumeSkip q).wf s (execQueResumeSkip q s) :=
  ⟨_, rfl, (keeps_effQueResumeSkip Keeps.rfl')⟩
theorem does_queAbort {s : State} {q submit index} : Does (Instr.queAbort q submit index).wf s (execQueAbort q submit index s) :=
  ⟨_, rfl, (keeps_effQueAbort Keeps.rfl')⟩
theorem does_queAbortAll {s : State} {q} : Does (Instr.queAbortAll q).wf s (execQueAbortAll q s) :=
  ⟨_, rfl, (keeps_abortAll Keeps.rfl')⟩
theorem does_abortReachesEngine {s : State} {q} : Does (Instr.abortReachesEngine q).wf s (execAbortReachesEngine q s) :=
  ⟨_, rfl, (keeps_effAbortReachesEngine Keeps.rfl')⟩
theorem does_submissionEntryReturn {s : State} {q} : Does (Instr.submissionEntryReturn q).wf s (execSubmissionEntryReturn q s) :=
  ⟨_, rfl, (keeps_effSubmissionEntryReturn Keeps.rfl')⟩
theorem does_descriptorBlockReturn {s : State} {q} : Does (Instr.descriptorBlockReturn q).wf s (execDescriptorBlockReturn q s) :=
  ⟨_, rfl, (keeps_effDescriptorBlockReturn Keeps.rfl')⟩
theorem does_commandReady {s : State} {q} : Does (Instr.commandReady q).wf s (execCommandReady q s) :=
  ⟨_, rfl, (keeps_effCommandReady Keeps.rfl')⟩
theorem does_waitTimeout {s : State} {q} : Does (Instr.waitTimeout q).wf s (execWaitTimeout q s) :=
  ⟨_, rfl, (keeps_effWaitTimeout Keeps.rfl')⟩
theorem does_indirectReadReturn {s : State} {q} : Does (Instr.indirectReadReturn q).wf s (execIndirectReadReturn q s) :=
  ⟨_, rfl, (keeps_effIndirectReadReturn Keeps.rfl')⟩
theorem does_eventRecord {s : State} {e} : Does (Instr.eventRecord e).wf s (execEventRecord e s) :=
  ⟨_, rfl, (keeps_effEventRecord Keeps.rfl')⟩
theorem does_eventWake {s : State} {q} : Does (Instr.eventWake q).wf s (execEventWake q s) :=
  ⟨_, rfl, (keeps_effEventWake Keeps.rfl')⟩
theorem does_armDelivery {s : State} {q id} : Does (Instr.armDelivery q id).wf s (execArmDelivery q id s) :=
  ⟨_, rfl, (keeps_effArmDelivery Keeps.rfl')⟩
theorem does_nop {s : State} {q} : Does (Instr.nop q).wf s (execNop q s) :=
  ⟨_, rfl, (keeps_effNop Keeps.rfl')⟩
theorem does_spawn {s : State} {q} : Does (Instr.spawn q).wf s (execSpawn q s) :=
  ⟨_, rfl, (keeps_effSpawn Keeps.rfl')⟩
theorem does_spawnRoomGranted {s : State} {q} : Does (Instr.spawnRoomGranted q).wf s (execSpawnRoomGranted q s) :=
  ⟨_, rfl, (keeps_effSpawnRoomGranted Keeps.rfl')⟩
theorem does_spawnRoomTimeout {s : State} {q} : Does (Instr.spawnRoomTimeout q).wf s (execSpawnRoomTimeout q s) :=
  ⟨_, rfl, (keeps_effSpawnRoomTimeout Keeps.rfl')⟩
theorem does_callPattern {s : State} {q} : Does (Instr.callPattern q).wf s (execCallPattern q s) :=
  ⟨_, rfl, (keeps_effCallPattern Keeps.rfl')⟩
theorem does_pourBlockReturn {s : State} {q} : Does (Instr.pourBlockReturn q).wf s (execPourBlockReturn q s) :=
  ⟨_, rfl, (keeps_effPourBlockReturn Keeps.rfl')⟩
theorem does_pourLockTimeout {s : State} {q} : Does (Instr.pourLockTimeout q).wf s (execPourLockTimeout q s) :=
  ⟨_, rfl, (keeps_effPourLockTimeout Keeps.rfl')⟩
theorem does_patch {s : State} {q} : Does (Instr.patch q).wf s (execPatch q s) :=
  ⟨_, rfl, (keeps_effPatch Keeps.rfl')⟩
theorem does_patchLiveDrained {s : State} {q} : Does (Instr.patchLiveDrained q).wf s (execPatchLiveDrained q s) :=
  ⟨_, rfl, (keeps_effPatchLiveDrained Keeps.rfl')⟩
theorem does_patchWaitTimeout {s : State} {q} : Does (Instr.patchWaitTimeout q).wf s (execPatchWaitTimeout q s) :=
  ⟨_, rfl, (keeps_effPatchWaitTimeout Keeps.rfl')⟩
theorem does_notifyHoldoffExpiry {s : State} {t} : Does (Instr.notifyHoldoffExpiry t).wf s (execNotifyHoldoffExpiry t s) :=
  ⟨_, rfl, (keeps_effNotifyHoldoffExpiry Keeps.rfl')⟩
theorem does_runCommitPoint {s : State} {q} : Does (Instr.runCommitPoint q).wf s (execRunCommitPoint q s) :=
  ⟨_, rfl, (keeps_effRunCommitPoint Keeps.rfl')⟩
theorem does_discardComplete {s : State} {run} : Does (Instr.discardComplete run).wf s (execDiscardComplete run s) :=
  ⟨_, rfl, (keeps_effDiscardComplete Keeps.rfl')⟩
theorem does_reservationGranted {s : State} {q} : Does (Instr.reservationGranted q).wf s (execReservationGranted q s) :=
  ⟨_, rfl, (keeps_effReservationGranted Keeps.rfl')⟩
theorem does_tentativeSetWaitExpiry {s : State} {q} : Does (Instr.tentativeSetWaitExpiry q).wf s (execTentativeSetWaitExpiry q s) :=
  ⟨_, rfl, (keeps_effTentativeSetWaitExpiry Keeps.rfl')⟩
theorem does_tentativeParityError {s : State} {run addr isLog} : Does (Instr.tentativeParityError run addr isLog).wf s (execTentativeParityError run addr isLog s) :=
  ⟨_, rfl, (keeps_effTentativeParityError Keeps.rfl')⟩
theorem does_pinnedOverrun {s : State} {q} : Does (Instr.pinnedOverrun q).wf s (execPinnedOverrun q s) :=
  ⟨_, rfl, (keeps_effPinnedOverrun Keeps.rfl')⟩
theorem does_calendarWindowBoundary {s : State} {core} : Does (Instr.calendarWindowBoundary core).wf s (execCalendarWindowBoundary core s) :=
  ⟨_, rfl, (keeps_effCalendarWindowBoundary Keeps.rfl')⟩
theorem does_maintBegin {s : State} {core} : Does (Instr.maintBegin core).wf s (execMaintBegin core s) :=
  ⟨_, rfl, (keeps_effMaintBegin Keeps.rfl')⟩
theorem does_commandWatchdog {s : State} {q} : Does (Instr.commandWatchdog q).wf s (execCommandWatchdog q s) :=
  ⟨_, rfl, (keeps_effCommandWatchdog Keeps.rfl')⟩
theorem does_collectiveArrival {s : State} {q} : Does (Instr.collectiveArrival q).wf s (execCollectiveArrival q s) :=
  ⟨_, rfl, (keeps_effCollectiveArrival Keeps.rfl')⟩
theorem does_collectivePrepared {s : State} {q} : Does (Instr.collectivePrepared q).wf s (execCollectivePrepared q s) :=
  ⟨_, rfl, (keeps_effCollectivePrepared Keeps.rfl')⟩
theorem does_collectiveKill {s : State} {q} : Does (Instr.collectiveKill q).wf s (execCollectiveKill q s) :=
  ⟨_, rfl, (keeps_effCollectiveKill Keeps.rfl')⟩
theorem does_windowRequest {s : State} {r} : Does (Instr.windowRequest r).wf s (execWindowRequest r s) :=
  ⟨_, rfl, (keeps_effWindowRequest Keeps.rfl')⟩
theorem does_wcbAgeExpiry {s : State} {site idx} : Does (Instr.wcbAgeExpiry site idx).wf s (execWcbAgeExpiry site idx s) :=
  ⟨_, rfl, (keeps_effWcbAgeExpiry Keeps.rfl')⟩
theorem does_wcbParityError {s : State} {site idx} : Does (Instr.wcbParityError site idx).wf s (execWcbParityError site idx s) :=
  ⟨_, rfl, (keeps_effWcbParityError Keeps.rfl')⟩
theorem does_archiveParityError {s : State} {site sector} : Does (Instr.archiveParityError site sector).wf s (execArchiveParityError site sector s) :=
  ⟨_, rfl, (keeps_effArchiveParityError Keeps.rfl')⟩
theorem does_hbmTempPoll {s : State} {site ctl temp} : Does (Instr.hbmTempPoll site ctl temp).wf s (execHbmTempPoll site ctl temp s) :=
  ⟨_, rfl, (keeps_effHbmTempPoll Keeps.rfl')⟩
theorem does_scrubRead {s : State} {line fails otherFails} : Does (Instr.scrubRead line fails otherFails).wf s (execScrubRead line fails otherFails s) :=
  ⟨_, rfl, (keeps_effScrubRead Keeps.rfl')⟩
theorem does_copy {s : State} {q} : Does (Instr.copy q).wf s (execCopy q s) :=
  ⟨_, rfl, (keeps_effCopy Keeps.rfl')⟩
theorem does_fill {s : State} {q} : Does (Instr.fill q).wf s (execFill q s) :=
  ⟨_, rfl, (keeps_effFill Keeps.rfl')⟩
theorem does_gather {s : State} {q} : Does (Instr.gather q).wf s (execGather q s) :=
  ⟨_, rfl, (keeps_effGather Keeps.rfl')⟩
theorem does_scatter {s : State} {q} : Does (Instr.scatter q).wf s (execScatter q s) :=
  ⟨_, rfl, (keeps_effScatter Keeps.rfl')⟩
theorem does_prefetch {s : State} {q} : Does (Instr.prefetch q).wf s (execPrefetch q s) :=
  ⟨_, rfl, (keeps_effPrefetch Keeps.rfl')⟩
theorem does_flushRange {s : State} {q} : Does (Instr.flushRange q).wf s (execFlushRange q s) :=
  ⟨_, rfl, (keeps_effFlushRange Keeps.rfl')⟩
theorem does_allreduce {s : State} {q} : Does (Instr.allreduce q).wf s (execAllreduce q s) :=
  ⟨_, rfl, (keeps_effAllreduce Keeps.rfl')⟩
theorem does_reduceScatter {s : State} {q} : Does (Instr.reduceScatter q).wf s (execReduceScatter q s) :=
  ⟨_, rfl, (keeps_effReduceScatter Keeps.rfl')⟩
theorem does_allgather {s : State} {q} : Does (Instr.allgather q).wf s (execAllgather q s) :=
  ⟨_, rfl, (keeps_effAllgather Keeps.rfl')⟩
theorem does_alltoall {s : State} {q} : Does (Instr.alltoall q).wf s (execAlltoall q s) :=
  ⟨_, rfl, (keeps_effAlltoall Keeps.rfl')⟩
theorem does_rdS {s : State} {m} : Does (Instr.rdS m).wf s (execRdS m s) :=
  ⟨_, rfl, (keeps_effRdS Keeps.rfl')⟩
theorem does_own {s : State} {m} : Does (Instr.own m).wf s (execOwn m s) :=
  ⟨_, rfl, (keeps_effOwn Keeps.rfl')⟩
theorem does_upgr {s : State} {m} : Does (Instr.upgr m).wf s (execUpgr m s) :=
  ⟨_, rfl, (keeps_effUpgr Keeps.rfl')⟩
theorem does_atom {s : State} {m} : Does (Instr.atom m).wf s (execAtom m s) :=
  ⟨_, rfl, (keeps_effAtom Keeps.rfl')⟩
theorem does_flush {s : State} {m} : Does (Instr.flush m).wf s (execFlush m s) :=
  ⟨_, rfl, (keeps_effFlush Keeps.rfl')⟩
theorem does_wb {s : State} {m} : Does (Instr.wb m).wf s (execWb m s) :=
  ⟨_, rfl, (keeps_effWb Keeps.rfl')⟩
theorem does_preWb {s : State} {m} : Does (Instr.preWb m).wf s (execPreWb m s) :=
  ⟨_, rfl, (keeps_effPreWb Keeps.rfl')⟩
theorem does_cmt {s : State} {m} : Does (Instr.cmt m).wf s (execCmt m s) :=
  ⟨_, rfl, (keeps_effCmt Keeps.rfl')⟩
theorem does_log {s : State} {m} : Does (Instr.log m).wf s (execLog m s) :=
  ⟨_, rfl, (keeps_effLog Keeps.rfl')⟩
theorem does_mir {s : State} {m} : Does (Instr.mir m).wf s (execMir m s) :=
  ⟨_, rfl, (keeps_effMir Keeps.rfl')⟩
theorem does_snpS {s : State} {m} : Does (Instr.snpS m).wf s (execSnpS m s) :=
  ⟨_, rfl, (keeps_effSnpS Keeps.rfl')⟩
theorem does_snpX {s : State} {m} : Does (Instr.snpX m).wf s (execSnpX m s) :=
  ⟨_, rfl, (keeps_effSnpX Keeps.rfl')⟩
theorem does_inv {s : State} {m} : Does (Instr.inv m).wf s (execInv m s) :=
  ⟨_, rfl, (keeps_effInv Keeps.rfl')⟩
theorem does_recall {s : State} {m} : Does (Instr.recall m).wf s (execRecall m s) :=
  ⟨_, rfl, (keeps_effRecall Keeps.rfl')⟩
theorem does_clean {s : State} {m} : Does (Instr.clean m).wf s (execClean m s) :=
  ⟨_, rfl, (keeps_effClean Keeps.rfl')⟩
theorem does_data {s : State} {m} : Does (Instr.data m).wf s (execData m s) :=
  ⟨_, rfl, (keeps_effData Keeps.rfl')⟩
theorem does_grant {s : State} {m} : Does (Instr.grant m).wf s (execGrant m s) :=
  ⟨_, rfl, (keeps_effGrant Keeps.rfl')⟩
theorem does_ackInv {s : State} {m} : Does (Instr.ackInv m).wf s (execAckInv m s) :=
  ⟨_, rfl, (keeps_effAckInv Keeps.rfl')⟩
theorem does_miss {s : State} {m} : Does (Instr.miss m).wf s (execMiss m s) :=
  ⟨_, rfl, (keeps_effMiss Keeps.rfl')⟩
theorem does_fwdAck {s : State} {m} : Does (Instr.fwdAck m).wf s (execFwdAck m s) :=
  ⟨_, rfl, (keeps_effFwdAck Keeps.rfl')⟩
theorem does_rclData {s : State} {m} : Does (Instr.rclData m).wf s (execRclData m s) :=
  ⟨_, rfl, (keeps_effRclData Keeps.rfl')⟩
theorem does_wbAck {s : State} {m} : Does (Instr.wbAck m).wf s (execWbAck m s) :=
  ⟨_, rfl, (keeps_effWbAck Keeps.rfl')⟩
theorem does_cmtAck {s : State} {m} : Does (Instr.cmtAck m).wf s (execCmtAck m s) :=
  ⟨_, rfl, (keeps_effCmtAck Keeps.rfl')⟩
theorem does_mirAck {s : State} {m} : Does (Instr.mirAck m).wf s (execMirAck m s) :=
  ⟨_, rfl, (keeps_effMirAck Keeps.rfl')⟩
theorem does_atomRsp {s : State} {m} : Does (Instr.atomRsp m).wf s (execAtomRsp m s) :=
  ⟨_, rfl, (keeps_effAtomRsp Keeps.rfl')⟩
theorem does_dirProbe {s : State} {site v} : Does (Instr.dirProbe site v).wf s (execDirProbe site v s) :=
  ⟨_, rfl, (keeps_effDirProbe Keeps.rfl')⟩
theorem does_tlbiRange {s : State} {p cid} : Does (Instr.tlbiRange p cid).wf s (execTlbiRange p cid s) :=
  ⟨_, rfl, (keeps_effTlbiRange Keeps.rfl')⟩
theorem does_tlbiContext {s : State} {p cid} : Does (Instr.tlbiContext p cid).wf s (execTlbiContext p cid s) :=
  ⟨_, rfl, (keeps_effTlbiContext Keeps.rfl')⟩
theorem does_tlbiPartition {s : State} {p} : Does (Instr.tlbiPartition p).wf s (execTlbiPartition p s) :=
  ⟨_, rfl, (keeps_effTlbiPartition Keeps.rfl')⟩
theorem does_tlbiComplete {s : State} {p} : Does (Instr.tlbiComplete p).wf s (execTlbiComplete p s) :=
  ⟨_, rfl, (keeps_effTlbiComplete Keeps.rfl')⟩
theorem does_coreCtxBaseWrite {s : State} {p v} : Does (Instr.coreCtxBaseWrite p v).wf s (execCoreCtxBaseWrite p v s) :=
  ⟨_, rfl, (keeps_effCoreCtxBaseWrite Keeps.rfl')⟩
theorem does_meshFlit {s : State} {l flit} : Does (Instr.meshFlit l flit).wf s (execMeshFlit l flit s) :=
  ⟨_, rfl, (keeps_effMeshFlit Keeps.rfl')⟩
theorem does_idleFlit {s : State} {l flit} : Does (Instr.idleFlit l flit).wf s (execIdleFlit l flit s) :=
  ⟨_, rfl, (keeps_effIdleFlit Keeps.rfl')⟩
theorem does_idleInsert {s : State} {l} : Does (Instr.idleInsert l).wf s (execIdleInsert l s) :=
  ⟨_, rfl, (keeps_effIdleInsert Keeps.rfl')⟩
theorem does_lanemap {s : State} {l lane} : Does (Instr.lanemap l lane).wf s (execLanemap l lane s) :=
  ⟨_, rfl, (keeps_effLanemap Keeps.rfl')⟩
theorem does_groupTestDone {s : State} {l failing} : Does (Instr.groupTestDone l failing).wf s (execGroupTestDone l failing s) :=
  ⟨_, rfl, (keeps_effGroupTestDone Keeps.rfl')⟩
theorem does_pastReplayError {s : State} {l e} : Does (Instr.pastReplayError l e).wf s (execPastReplayError l e s) :=
  ⟨_, rfl, (keeps_effPastReplayError Keeps.rfl')⟩
theorem does_reducePacket {s : State} {site out pkt} : Does (Instr.reducePacket site out pkt).wf s (execReducePacket site out pkt s) :=
  ⟨_, rfl, (keeps_effReducePacket Keeps.rfl')⟩
theorem does_combineWindowExpiry {s : State} {site out idx} : Does (Instr.combineWindowExpiry site out idx).wf s (execCombineWindowExpiry site out idx s) :=
  ⟨_, rfl, (keeps_effCombineWindowExpiry Keeps.rfl')⟩
theorem does_mopnAck {s : State} {site sector} : Does (Instr.mopnAck site sector).wf s (execMopnAck site sector s) :=
  ⟨_, rfl, (keeps_effMopnAck Keeps.rfl')⟩
theorem does_ringMsgFlit {s : State} {port flit} : Does (Instr.ringMsgFlit port flit).wf s (execRingMsgFlit port flit s) :=
  ⟨_, rfl, (keeps_effRingMsgFlit Keeps.rfl')⟩
theorem does_ringLinkFlit {s : State} {port flit} : Does (Instr.ringLinkFlit port flit).wf s (execRingLinkFlit port flit s) :=
  ⟨_, rfl, (keeps_effRingLinkFlit Keeps.rfl')⟩
theorem does_ringIdleFlit {s : State} {port flit} : Does (Instr.ringIdleFlit port flit).wf s (execRingIdleFlit port flit s) :=
  ⟨_, rfl, (keeps_effRingIdleFlit Keeps.rfl')⟩
theorem does_mrd {s : State} {port h} : Does (Instr.mrd port h).wf s (execMrd port h s) :=
  ⟨_, rfl, (keeps_effMrd Keeps.rfl')⟩
theorem does_mwr {s : State} {port h d} : Does (Instr.mwr port h d).wf s (execMwr port h d s) :=
  ⟨_, rfl, (keeps_effMwr Keeps.rfl')⟩
theorem does_msg {s : State} {port h d} : Does (Instr.msg port h d).wf s (execMsg port h d s) :=
  ⟨_, rfl, (keeps_effMsg Keeps.rfl')⟩
theorem does_cpl {s : State} {port h d} : Does (Instr.cpl port h d).wf s (execCpl port h d s) :=
  ⟨_, rfl, (keeps_effCpl Keeps.rfl')⟩
theorem does_registerReadDeadline {s : State} {port tag} : Does (Instr.registerReadDeadline port tag).wf s (execRegisterReadDeadline port tag s) :=
  ⟨_, rfl, (keeps_effRegisterReadDeadline Keeps.rfl')⟩
theorem does_memoryReadDeadline {s : State} {port tag} : Does (Instr.memoryReadDeadline port tag).wf s (execMemoryReadDeadline port tag s) :=
  ⟨_, rfl, (keeps_effMemoryReadDeadline Keeps.rfl')⟩
theorem does_hostAccessTimeout {s : State} {port tag} : Does (Instr.hostAccessTimeout port tag).wf s (execHostAccessTimeout port tag s) :=
  ⟨_, rfl, (keeps_effHostAccessTimeout Keeps.rfl')⟩
theorem does_openFlow {s : State} {die h d crc} : Does (Instr.openFlow die h d crc).wf s (execOpenFlow die h d crc s) :=
  ⟨_, rfl, (keeps_effOpenFlow Keeps.rfl')⟩
theorem does_openAck {s : State} {die h d crc} : Does (Instr.openAck die h d crc).wf s (execOpenAck die h d crc s) :=
  ⟨_, rfl, (keeps_effOpenAck Keeps.rfl')⟩
theorem does_ack {s : State} {die h d crc} : Does (Instr.ack die h d crc).wf s (execAck die h d crc s) :=
  ⟨_, rfl, (keeps_effAck Keeps.rfl')⟩
theorem does_close {s : State} {die h d crc} : Does (Instr.close die h d crc).wf s (execClose die h d crc s) :=
  ⟨_, rfl, (keeps_effClose Keeps.rfl')⟩
theorem does_rd {s : State} {die h d crc} : Does (Instr.rd die h d crc).wf s (execRd die h d crc s) :=
  ⟨_, rfl, (keeps_effRd Keeps.rfl')⟩
theorem does_wr {s : State} {die h d crc} : Does (Instr.wr die h d crc).wf s (execWr die h d crc s) :=
  ⟨_, rfl, (keeps_effWr Keeps.rfl')⟩
theorem does_atOp {s : State} {die h d crc} : Does (Instr.atOp die h d crc).wf s (execAtOp die h d crc s) :=
  ⟨_, rfl, (keeps_effAtOp Keeps.rfl')⟩
theorem does_rdRsp {s : State} {die h d crc} : Does (Instr.rdRsp die h d crc).wf s (execRdRsp die h d crc s) :=
  ⟨_, rfl, (keeps_effRdRsp Keeps.rfl')⟩
theorem does_wrDone {s : State} {die h d crc} : Does (Instr.wrDone die h d crc).wf s (execWrDone die h d crc s) :=
  ⟨_, rfl, (keeps_effWrDone Keeps.rfl')⟩
theorem does_atRsp {s : State} {die h d crc} : Does (Instr.atRsp die h d crc).wf s (execAtRsp die h d crc s) :=
  ⟨_, rfl, (keeps_effAtRsp Keeps.rfl')⟩
theorem does_objGet {s : State} {die h d crc} : Does (Instr.objGet die h d crc).wf s (execObjGet die h d crc s) :=
  ⟨_, rfl, (keeps_effObjGet Keeps.rfl')⟩
theorem does_objPut {s : State} {die h d crc} : Does (Instr.objPut die h d crc).wf s (execObjPut die h d crc s) :=
  ⟨_, rfl, (keeps_effObjPut Keeps.rfl')⟩
theorem does_objData {s : State} {die h d crc} : Does (Instr.objData die h d crc).wf s (execObjData die h d crc s) :=
  ⟨_, rfl, (keeps_effObjData Keeps.rfl')⟩
theorem does_objEnd {s : State} {die h d crc} : Does (Instr.objEnd die h d crc).wf s (execObjEnd die h d crc s) :=
  ⟨_, rfl, (keeps_effObjEnd Keeps.rfl')⟩
theorem does_retransmitTimer {s : State} {die flow} : Does (Instr.retransmitTimer die flow).wf s (execRetransmitTimer die flow s) :=
  ⟨_, rfl, (keeps_effRetransmitTimer Keeps.rfl')⟩
theorem does_flowGiveup {s : State} {die flow} : Does (Instr.flowGiveup die flow).wf s (execFlowGiveup die flow s) :=
  ⟨_, rfl, (keeps_effFlowGiveup Keeps.rfl')⟩
theorem does_ackDelayExpiry {s : State} {die dev flow} : Does (Instr.ackDelayExpiry die dev flow).wf s (execAckDelayExpiry die dev flow s) :=
  ⟨_, rfl, (keeps_effAckDelayExpiry Keeps.rfl')⟩
theorem does_flowIdleExpiry {s : State} {die flow} : Does (Instr.flowIdleExpiry die flow).wf s (execFlowIdleExpiry die flow s) :=
  ⟨_, rfl, (keeps_effFlowIdleExpiry Keeps.rfl')⟩
theorem does_svcTail {s : State} {p k v} : Does (Instr.svcTail p k v).wf s (execSvcTail p k v s) :=
  ⟨_, rfl, (keeps_effSvcTail Keeps.rfl')⟩
theorem does_svcCfgWrite {s : State} {p k v} : Does (Instr.svcCfgWrite p k v).wf s (execSvcCfgWrite p k v s) :=
  ⟨_, rfl, (keeps_effSvcCfgWrite Keeps.rfl')⟩
theorem does_svcResume {s : State} {p k} : Does (Instr.svcResume p k).wf s (execSvcResume p k s) :=
  ⟨_, rfl, (keeps_effSvcResume Keeps.rfl')⟩
theorem does_svcAbort {s : State} {p k submit} : Does (Instr.svcAbort p k submit).wf s (execSvcAbort p k submit s) :=
  ⟨_, rfl, (keeps_effSvcAbort Keeps.rfl')⟩
theorem does_svcAbortAll {s : State} {p k} : Does (Instr.svcAbortAll p k).wf s (execSvcAbortAll p k s) :=
  ⟨_, rfl, (keeps_svcAbortAll Keeps.rfl')⟩
theorem does_svcWaitTimeout {s : State} {p k} : Does (Instr.svcWaitTimeout p k).wf s (execSvcWaitTimeout p k s) :=
  ⟨_, rfl, (keeps_effSvcWaitTimeout Keeps.rfl')⟩
theorem does_fAllreduce {s : State} {p k} : Does (Instr.fAllreduce p k).wf s (execFAllreduce p k s) :=
  ⟨_, rfl, (keeps_effFAllreduce Keeps.rfl')⟩
theorem does_fReduceScatter {s : State} {p k} : Does (Instr.fReduceScatter p k).wf s (execFReduceScatter p k s) :=
  ⟨_, rfl, (keeps_effFReduceScatter Keeps.rfl')⟩
theorem does_fAllgather {s : State} {p k} : Does (Instr.fAllgather p k).wf s (execFAllgather p k s) :=
  ⟨_, rfl, (keeps_effFAllgather Keeps.rfl')⟩
theorem does_fAlltoall {s : State} {p k} : Does (Instr.fAlltoall p k).wf s (execFAlltoall p k s) :=
  ⟨_, rfl, (keeps_effFAlltoall Keeps.rfl')⟩
theorem does_checkpoint {s : State} {p k} : Does (Instr.checkpoint p k).wf s (execCheckpoint p k s) :=
  ⟨_, rfl, (keeps_effCheckpoint Keeps.rfl')⟩
theorem does_stage {s : State} {p k} : Does (Instr.stage p k).wf s (execStage p k s) :=
  ⟨_, rfl, (keeps_effStage Keeps.rfl')⟩
theorem does_stageBatchStart {s : State} {p k submit} : Does (Instr.stageBatchStart p k submit).wf s (execStageBatchStart p k submit s) :=
  ⟨_, rfl, (keeps_effStageBatchStart Keeps.rfl')⟩
theorem does_stageBatchLanded {s : State} {p k submit batch} : Does (Instr.stageBatchLanded p k submit batch).wf s (execStageBatchLanded p k submit batch s) :=
  ⟨_, rfl, (keeps_effStageBatchLanded Keeps.rfl')⟩
theorem does_partCreate {s : State} {slot} : Does (Instr.partCreate slot).wf s (execPartCreate slot s) :=
  ⟨_, rfl, (keeps_effPartCreate Keeps.rfl')⟩
theorem does_partGrow {s : State} {slot} : Does (Instr.partGrow slot).wf s (execPartGrow slot s) :=
  ⟨_, rfl, (keeps_effPartGrow Keeps.rfl')⟩
theorem does_partSetHost {s : State} {slot} : Does (Instr.partSetHost slot).wf s (execPartSetHost slot s) :=
  ⟨_, rfl, (keeps_effPartSetHost Keeps.rfl')⟩
theorem does_frameAssign {s : State} {slot} : Does (Instr.frameAssign slot).wf s (execFrameAssign slot s) :=
  ⟨_, rfl, (keeps_effFrameAssign Keeps.rfl')⟩
theorem does_partRegulate {s : State} {slot} : Does (Instr.partRegulate slot).wf s (execPartRegulate slot s) :=
  ⟨_, rfl, (keeps_effPartRegulate Keeps.rfl')⟩
theorem does_partStop {s : State} {slot} : Does (Instr.partStop slot).wf s (execPartStop slot s) :=
  ⟨_, rfl, (keeps_effPartStop Keeps.rfl')⟩
theorem does_partDrain {s : State} {slot} : Does (Instr.partDrain slot).wf s (execPartDrain slot s) :=
  ⟨_, rfl, (keeps_effPartDrain Keeps.rfl')⟩
theorem does_partDrainTimeout {s : State} {p} : Does (Instr.partDrainTimeout p).wf s (execPartDrainTimeout p s) :=
  ⟨_, rfl, (keeps_effPartDrainTimeout Keeps.rfl')⟩
theorem does_partDrained {s : State} {p} : Does (Instr.partDrained p).wf s (execPartDrained p s) :=
  ⟨_, rfl, (keeps_effPartDrained Keeps.rfl')⟩
theorem does_partFlush {s : State} {slot} : Does (Instr.partFlush slot).wf s (execPartFlush slot s) :=
  ⟨_, rfl, (keeps_effPartFlush Keeps.rfl')⟩
theorem does_partRelease {s : State} {slot} : Does (Instr.partRelease slot).wf s (execPartRelease slot s) :=
  ⟨_, rfl, (keeps_effPartRelease Keeps.rfl')⟩
theorem does_partScrubDone {s : State} {p} : Does (Instr.partScrubDone p).wf s (execPartScrubDone p s) :=
  ⟨_, rfl, (keeps_effPartScrubDone Keeps.rfl')⟩
theorem does_partResume {s : State} {slot} : Does (Instr.partResume slot).wf s (execPartResume slot s) :=
  ⟨_, rfl, (keeps_effPartResume Keeps.rfl')⟩
theorem does_ping {s : State} {slot} : Does (Instr.ping slot).wf s (execPing slot s) :=
  ⟨_, rfl, (keeps_effPing Keeps.rfl')⟩
theorem does_rollbackAdvance {s : State} {slot} : Does (Instr.rollbackAdvance slot).wf s (execRollbackAdvance slot s) :=
  ⟨_, rfl, (keeps_effRollbackAdvance Keeps.rfl')⟩
theorem does_attest {s : State} {slot} : Does (Instr.attest slot).wf s (execAttest slot s) :=
  ⟨_, rfl, (keeps_effAttest Keeps.rfl')⟩
theorem does_s2RootSet {s : State} {slot} : Does (Instr.s2RootSet slot).wf s (execS2RootSet slot s) :=
  ⟨_, rfl, (keeps_effS2RootSet Keeps.rfl')⟩
theorem does_s2Invalidate {s : State} {slot} : Does (Instr.s2Invalidate slot).wf s (execS2Invalidate slot s) :=
  ⟨_, rfl, (keeps_effS2Invalidate Keeps.rfl')⟩
theorem does_routeSet {s : State} {slot} : Does (Instr.routeSet slot).wf s (execRouteSet slot s) :=
  ⟨_, rfl, (keeps_effRouteSet Keeps.rfl')⟩
theorem does_admitSet {s : State} {slot} : Does (Instr.admitSet slot).wf s (execAdmitSet slot s) :=
  ⟨_, rfl, (keeps_effAdmitSet Keeps.rfl')⟩
theorem does_mailboxBadCode {s : State} {slot} : Does (Instr.mailboxBadCode slot).wf s (execMailboxBadCode slot s) :=
  ⟨_, rfl, (keeps_effMailboxBadCode Keeps.rfl')⟩
theorem does_loadWindowWrite {s : State} {port off d} : Does (Instr.loadWindowWrite port off d).wf s (execLoadWindowWrite port off d s) :=
  ⟨_, rfl, (keeps_effLoadWindowWrite Keeps.rfl')⟩
theorem does_loadLib {s : State} {port} : Does (Instr.loadLib port).wf s (execLoadLib port s) :=
  ⟨_, rfl, (keeps_effLoadLib Keeps.rfl')⟩
theorem does_loadMould {s : State} {port} : Does (Instr.loadMould port).wf s (execLoadMould port s) :=
  ⟨_, rfl, (keeps_effLoadMould Keeps.rfl')⟩
theorem does_imageVerified {s : State} : Does (Instr.imageVerified).wf s (execImageVerified  s) :=
  ⟨_, rfl, (keeps_effImageVerified Keeps.rfl')⟩
theorem does_startReady {s : State} {fails} : Does (Instr.startReady fails).wf s (execStartReady fails s) :=
  ⟨_, rfl, (keeps_effStartReady Keeps.rfl')⟩
theorem does_supervisorRestart {s : State} : Does (Instr.supervisorRestart).wf s (execSupervisorRestart  s) :=
  ⟨_, rfl, (keeps_effSupervisorRestart Keeps.rfl')⟩
theorem does_libRestartDone {s : State} : Does (Instr.libRestartDone).wf s (execLibRestartDone  s) :=
  ⟨_, rfl, (keeps_effLibRestartDone Keeps.rfl')⟩
theorem does_incidentReport {s : State} {r} : Does (Instr.incidentReport r).wf s (execIncidentReport r s) :=
  ⟨_, rfl, (keeps_effIncidentReport Keeps.rfl')⟩
theorem does_echoWindowEnd {s : State} {site r} : Does (Instr.echoWindowEnd site r).wf s (execEchoWindowEnd site r s) :=
  ⟨_, rfl, (keeps_effEchoWindowEnd Keeps.rfl')⟩
theorem does_pwrEnRise {s : State} : Does (Instr.pwrEnRise).wf s (execPwrEnRise  s) :=
  ⟨_, rfl, (keeps_effPwrEnRise Keeps.rfl')⟩
theorem does_inputEntersRange {s : State} : Does (Instr.inputEntersRange).wf s (execInputEntersRange  s) :=
  ⟨_, rfl, (keeps_effInputEntersRange Keeps.rfl')⟩
theorem does_powerDown {s : State} {cause} : Does (Instr.powerDown cause).wf s (execPowerDown cause s) :=
  ⟨_, rfl, (keeps_effPowerDown Keeps.rfl')⟩
theorem does_panelResetRise {s : State} {fails} : Does (Instr.panelResetRise fails).wf s (execPanelResetRise fails s) :=
  ⟨_, rfl, (keeps_effPanelResetRise Keeps.rfl')⟩
theorem does_panelResetFall {s : State} : Does (Instr.panelResetFall).wf s (execPanelResetFall  s) :=
  ⟨_, rfl, (keeps_effPanelResetFall Keeps.rfl')⟩
theorem does_refclkLoss {s : State} : Does (Instr.refclkLoss).wf s (execRefclkLoss  s) :=
  ⟨_, rfl, (keeps_effRefclkLoss Keeps.rfl')⟩
theorem does_refclkReturn {s : State} : Does (Instr.refclkReturn).wf s (execRefclkReturn  s) :=
  ⟨_, rfl, (keeps_effRefclkReturn Keeps.rfl')⟩
theorem does_refclkLossTimeout {s : State} : Does (Instr.refclkLossTimeout).wf s (execRefclkLossTimeout  s) :=
  ⟨_, rfl, (keeps_effRefclkLossTimeout Keeps.rfl')⟩
theorem does_pllLockLoss {s : State} {site} : Does (Instr.pllLockLoss site).wf s (execPllLockLoss site s) :=
  ⟨_, rfl, (keeps_effPllLockLoss Keeps.rfl')⟩
theorem does_tabCheck {s : State} {currents} : Does (Instr.tabCheck currents).wf s (execTabCheck currents s) :=
  ⟨_, rfl, (keeps_effTabCheck Keeps.rfl')⟩
theorem does_ckgHalfWrite {s : State} {site half v} : Does (Instr.ckgHalfWrite site half v).wf s (execCkgHalfWrite site half v s) :=
  ⟨_, rfl, (keeps_effCkgHalfWrite Keeps.rfl')⟩
theorem does_stepChangeDone {s : State} {site half} : Does (Instr.stepChangeDone site half).wf s (execStepChangeDone site half s) :=
  ⟨_, rfl, (keeps_effStepChangeDone Keeps.rfl')⟩
theorem does_envelopeTick {s : State} {watts} : Does (Instr.envelopeTick watts).wf s (execEnvelopeTick watts s) :=
  ⟨_, rfl, (keeps_effEnvelopeTick Keeps.rfl')⟩
theorem does_thermalPoll {s : State} {site half readings} : Does (Instr.thermalPoll site half readings).wf s (execThermalPoll site half readings s) :=
  ⟨_, rfl, (keeps_effThermalPoll Keeps.rfl')⟩
theorem does_thermalTrip {s : State} {sensor temp} : Does (Instr.thermalTrip sensor temp).wf s (execThermalTrip sensor temp s) :=
  ⟨_, rfl, (keeps_effThermalTrip Keeps.rfl')⟩
theorem does_ledgerFrameBoundary {s : State} {site p} : Does (Instr.ledgerFrameBoundary site p).wf s (execLedgerFrameBoundary site p s) :=
  ⟨_, rfl, (keeps_effLedgerFrameBoundary Keeps.rfl')⟩
theorem does_siteHeartbeatTimeout {s : State} {site d} : Does (Instr.siteHeartbeatTimeout site d).wf s (execSiteHeartbeatTimeout site d s) :=
  ⟨_, rfl, (keeps_effSiteHeartbeatTimeout Keeps.rfl')⟩
theorem does_lossReport {s : State} {agent reporter subject} : Does (Instr.lossReport agent reporter subject).wf s (execLossReport agent reporter subject s) :=
  ⟨_, rfl, (keeps_effLossReport Keeps.rfl')⟩
theorem does_bDieFatalError {s : State} {site} : Does (Instr.bDieFatalError site).wf s (execBDieFatalError site s) :=
  ⟨_, rfl, (keeps_effBDieFatalError Keeps.rfl')⟩
theorem does_siteLossReroute {s : State} {site} : Does (Instr.siteLossReroute site).wf s (execSiteLossReroute site s) :=
  ⟨_, rfl, (keeps_effSiteLossReroute Keeps.rfl')⟩
theorem does_coreSelftestReq {s : State} {core} : Does (Instr.coreSelftestReq core).wf s (execCoreSelftestReq core s) :=
  ⟨_, rfl, (keeps_effCoreSelftestReq Keeps.rfl')⟩
theorem does_selftestPartDone {s : State} {core pass} : Does (Instr.selftestPartDone core pass).wf s (execSelftestPartDone core pass s) :=
  ⟨_, rfl, (keeps_effSelftestPartDone Keeps.rfl')⟩
theorem does_presenceOpen {s : State} {which} : Does (Instr.presenceOpen which).wf s (execPresenceOpen which s) :=
  ⟨_, rfl, (keeps_effPresenceOpen Keeps.rfl')⟩
theorem does_standbyUp {s : State} {sel1 sel0} : Does (Instr.standbyUp sel1 sel0).wf s (execStandbyUp sel1 sel0 s) :=
  ⟨_, rfl, (keeps_effStandbyUp Keeps.rfl')⟩
theorem does_smbusWrite {s : State} {cmd data pec} : Does (Instr.smbusWrite cmd data pec).wf s (execSmbusWrite cmd data pec s) :=
  ⟨_, rfl, (keeps_effSmbusWrite Keeps.rfl')⟩
theorem does_tripClr {s : State} : Does (Instr.tripClr).wf s (execTripClr  s) :=
  ⟨_, rfl, (keeps_effTripClr Keeps.rfl')⟩
theorem does_smbusSclTimeout {s : State} : Does (Instr.smbusSclTimeout).wf s (execSmbusSclTimeout  s) :=
  ⟨_, rfl, (keeps_effSmbusSclTimeout Keeps.rfl')⟩
theorem does_idcode {s : State} : Does (Instr.idcode).wf s (execIdcode  s) :=
  ⟨_, rfl, (keeps_effIdcode Keeps.rfl')⟩
theorem does_bypass {s : State} : Does (Instr.bypass).wf s (execBypass  s) :=
  ⟨_, rfl, (keeps_effBypass Keeps.rfl')⟩
theorem does_extest {s : State} : Does (Instr.extest).wf s (execExtest  s) :=
  ⟨_, rfl, (keeps_effExtest Keeps.rfl')⟩
theorem does_samplePreload {s : State} : Does (Instr.samplePreload).wf s (execSamplePreload  s) :=
  ⟨_, rfl, (keeps_effSamplePreload Keeps.rfl')⟩
theorem does_trst {s : State} {low} : Does (Instr.trst low).wf s (execTrst low s) :=
  ⟨_, rfl, (keeps_effTrst Keeps.rfl')⟩
theorem does_queCrHeadWrite {s : State} {t v} : Does (Instr.queCrHeadWrite t v).wf s (execQueCrHeadWrite t v s) :=
  ⟨_, rfl, (keeps_effQueCrHeadWrite Keeps.rfl')⟩
theorem does_libMbTailWrite {s : State} {v} : Does (Instr.libMbTailWrite v).wf s (execLibMbTailWrite v s) :=
  ⟨_, rfl, (keeps_effLibMbTailWrite Keeps.rfl')⟩
theorem does_libIncHeadWrite {s : State} {v} : Does (Instr.libIncHeadWrite v).wf s (execLibIncHeadWrite v s) :=
  ⟨_, rfl, (keeps_effLibIncHeadWrite Keeps.rfl')⟩
theorem does_siteHeartbeat {s : State} {site d} : Does (Instr.siteHeartbeat site d).wf s (execSiteHeartbeat site d s) :=
  ⟨_, rfl, (keeps_effSiteHeartbeat Keeps.rfl')⟩
theorem does_cdieHeartbeat {s : State} {site} : Does (Instr.cdieHeartbeat site).wf s (execCdieHeartbeat site s) :=
  ⟨_, rfl, (keeps_effCdieHeartbeat Keeps.rfl')⟩
theorem does_librarianHeartbeat {s : State} : Does (Instr.librarianHeartbeat).wf s (execLibrarianHeartbeat  s) :=
  ⟨_, rfl, (keeps_effLibrarianHeartbeat Keeps.rfl')⟩
theorem does_standbyLoss {s : State} : Does (Instr.standbyLoss).wf s (execStandbyLoss  s) :=
  ⟨_, rfl, (keeps_effStandbyLoss Keeps.rfl')⟩
theorem does_pinnedWritesDone {s : State} {q} : Does (Instr.pinnedWritesDone q).wf s (execPinnedWritesDone q s) :=
  ⟨_, rfl, (keeps_effPinnedWritesDone Keeps.rfl')⟩


end Sys2Proof.Machine
end

