-- ==== Sys2Proof/Tests/Slice0.lean ====
section
/-!
SUPPORT. Tests: ill-formed commands that the check refuses, the encodings that R128 writes out, what each family of
commands does on small states, and for each statement with hypotheses states that meet them. Expected values
come from the spec's tables and worked examples.
-/

namespace Sys2Proof.Machine.Tests

set_option Elab.async false

open Sys2Proof Sys2Proof.Machine

/-! ### Small states -/

/-- The command takes effect, and the state after it passes a check. -/
def after (c : Instr) (s : State) (p : State → Bool) : Bool :=
  match exec c s with
  | .next t => p t
  | _ => false
/-- The command stops. -/
def stops (c : Instr) (s : State) : Bool :=
  match exec c s with
  | .fault .noSuchCommand => true
  | _ => false
/-- Registers set one after another. -/
def put (s : State) (l : List (Nat × W64)) : State := l.foldl (fun s e => s.setReg e.1 e.2) s

/-- Queue `n` of engine `e` of core 0. -/
def qr (e n : Nat) : QRef := { core := 0, eng := e, q := n }

/-- A panel that runs: partition 0 is ACTIVE and owns site 0; addresses below 512 MiB of its context 0 translate to
themselves; frame 0 holds its stage-2 tables, frames 1 to 3 are its own. -/
def live : State :=
  { regs := [(arcFrame 0 0, 3#64), (arcFrame 0 1, 0x400001#64), (arcFrame 0 2, 0x400001#64), (arcFrame 0 3, 0x400001#64),
             (libBootStatus, 6#64), (libCoreMapGen, 2#64), (libPartState 0, 1#64), (libPartSites 0, 1#64),
             (coreCtxBase 0, 0x200000#64), (coreS2Root 0, 0x10000#64)]
    arc := { mem := [(0x10000, 1#8), (0x10002, 2#8), (0x20000, 31#8), (0x200000, 1#8), (0x200002, 0x21#8), (0x210000, 1#8), (0x210002, 0x22#8),
                     (0x220000, 31#8)] }
    pwr := { standby := true, inRange := true, pwrEn := true, pwrGood := true, resetN := true, pllLocked := true } }

/-- A launch of one block of one group on core 0, with 16 vector registers and an allocation of 4 KiB. -/
def launch0 : Launch :=
  { run := 1, q := qr 4 0, prog := 0x400000, gridX := 2, gridY := 1, gridZ := 1, groups := 1, vregs := 16, lsBlock := 1, arenaBase := 0
    arenaSize := 4096, maxBlocks := 0, args := [], rank := 0, next := 1 }
def block0 : Block := { x := 0, y := 0, z := 0, arena := 0 }
def group0 : Group := { blk := 0, idx := 0, pipe := 0, pc := 0x400000#64, active := BitVec.allOnes 64 }
def g0 : GRef := { core := 0, slot := 0 }

/-- The LAUNCH command that runs, pinned (class 1) or not. -/
def launchCmd (cls : Nat) : Cmd := { raw := BitVec.ofNat 1024 (0x30 + cls * 2 ^ 8), phase := .running, run := 1, atHead := true }
/-- The running panel with a group on its thread engine. -/
def withGroup (cls : Nat) (g : Group) : State :=
  { live with
    queues := [(qKey (qr 4 0), { cmds := [launchCmd cls] })]
    runs := [(1, some { q := qr 4 0, onEng := 4, cls := cls, part := 0, cid := 0, site := 0, res := 64 })]
    engs := [(engKey 0 4, { run := 1 })]
    tes := [(0, { launch := some launch0, blocks := [(0, some block0)], groups := [(0, some g)] })] }

/-- The fetch of the group's instruction, with first word `w`, succeeds. -/
def fetches (s : State) (g : GRef) (w : W64) : Bool :=
  match (s.te g.core).launch, s.grp? g with
  | some l, some grp =>
    (match s.blk? g.core grp.blk with
      | some b => decide (grp.active ≠ 0#64) && decide (grp.waitc = none) && decide (grp.await = 0) &&
        decide ((s.fetchWords (s.runWho l.q l.run) l b grp.pc.toNat w).2 = none)
      | none => false)
  | _, _ => false

/-- A state that passes the check meets the words of the Folio statements. -/
theorem issues_of (s : State) (g : GRef) (w : W64) (h : fetches s g w = true) : ∃ s1 l b grp, Issues s g w s1 l b grp := by
  unfold fetches at h
  split at h
  · rename_i l grp hl hg
    split at h
    · rename_i b hb
      simp only [Bool.and_eq_true, decide_eq_true_eq] at h
      obtain ⟨⟨⟨ha, hw⟩, hz⟩, hf⟩ := h
      exact ⟨_, l, b, grp, hl, hg, hb, ha, hw, hz, hf, rfl⟩
    · cases h
  · cases h

/-! ### Folio (05_folio_instructions) -/

/-- Words of layouts R and M. `kinds` is KA + 4 KB + 16 KC. -/
def wR (op d a b c kinds mods : Nat) : W64 :=
  BitVec.ofNat 64 (op + d * 2 ^ 16 + a * 2 ^ 24 + b * 2 ^ 32 + c * 2 ^ 40 + kinds * 2 ^ 48 + mods * 2 ^ 54)
def wM (op data off base sub size ord scope imm : Nat) : W64 :=
  BitVec.ofNat 64 (op + data * 2 ^ 16 + (if off = 0 then 2 ^ 38 else off * 2 ^ 24) + base * 2 ^ 32 + scope * 2 ^ 42 + ord * 2 ^ 45 + size * 2 ^ 47 +
    sub * 2 ^ 50 + imm * 2 ^ 54)
/-- The U bit set. -/
def uni (w : W64) : W64 := w ||| 0x2000#64
/-- The group with registers: `v` of lane 0, and uniform ones. -/
def grp (v u : List (Nat × W32)) : Group := { group0 with v := v.map fun e => (e.1 * 64, e.2), u := u }
def afterG (c : Instr) (g : Group) (cls : Nat) (p : Group → Bool) : Bool :=
  after c (withGroup cls g) fun t => match t.grp? g0 with
    | some x => decide (x.pc = 0x400008#64) && p x
    | none => false
/-- Lane 0 of v3 after an instruction with v1 and v2 as sources. -/
def res (c : GRef → W64 → W64 → Instr) (op mods : Nat) (a b : W32) (d : W32) : Bool :=
  afterG (c g0 (wR op 3 1 2 0 0 mods) 0) (grp [(1, a), (2, b)] []) 0 fun x => x.rdV 3 0 == d
def res1 (c : GRef → W64 → W64 → Instr) (op mods : Nat) (a d : W32) : Bool :=
  afterG (c g0 (wR op 3 1 0 0 0 mods) 0) (grp [(1, a)] []) 0 fun x => x.rdV 3 0 == d
def res3 (c : GRef → W64 → W64 → Instr) (op mods : Nat) (a b e d : W32) : Bool :=
  afterG (c g0 (wR op 3 1 2 4 0 mods) 0) (grp [(1, a), (2, b), (4, e)] []) 0 fun x => x.rdV 3 0 == d
/-- Lane 0 of predicate 3 after a comparison of v1 and v2. -/
def pred (c : GRef → W64 → W64 → Instr) (op mods : Nat) (a b : W32) : Bool :=
  afterG (c g0 (wR op 3 1 2 0 0 mods) 0) (grp [(1, a), (2, b)] []) 0 fun x => (x.rdP 3).getLsbD 0

theorem wit_issues : fetches (withGroup 0 group0) g0 0 = true ∧ fetches (withGroup 1 group0) g0 0 = true := by decide +kernel

/-- R128: `@p2 MADF v10, v4, u12, v10`. -/
theorem test_word_madf : let w := 0x00040A0C040A052A#64
    fOpc w = 0x2A ∧ fGen w = true ∧ fGp w = 2 ∧ fGneg w = false ∧ fD w = 10 ∧ fA w = 4 ∧ fB w = 12 ∧ fC w = 10 ∧ fKA w = 0 ∧ fKB w = 1 ∧ fKC w = 0 ∧
    fMod w = 0 ∧ fLen w = 8#64 := by decide
/-- R128: an acquiring 4-byte load at PANEL scope from u6:u7 + v3 + 0x1_0000. -/
theorem test_word_ldm : let w := 0x00012C0603144050#64
    fOpc w = 0x50 ∧ fD w = 20 ∧ fOff w = 3 ∧ fBase w = 6 ∧ fScope w = 3 ∧ fOrd w = 1 ∧ szBytes w = 4 ∧ fLen w = 16#64 ∧
    (grp [(3, 0xA00#32)] [(6, 0x80000000#32), (7, 0x40#32)]).gaddr w 0x10000#64 0 = 0x4080010A00 := by decide +kernel

theorem test_addw : res .addw 0x10 0 0xFFFFFFFF#32 2#32 1#32 = true := by decide +kernel
theorem test_subw : res .subw 0x11 0 1#32 2#32 0xFFFFFFFF#32 = true := by decide +kernel
theorem test_mulw : res .mulw 0x12 0 0x10000#32 0x10001#32 0x10000#32 = true := by decide +kernel
theorem test_mulwh : res .mulwh 0x13 0 0xFFFFFFFF#32 0xFFFFFFFF#32 0xFFFFFFFE#32 = true ∧ res .mulwh 0x13 1 0xFFFFFFFF#32 2#32 0xFFFFFFFF#32 = true := by
  decide +kernel
theorem test_madw : res3 .madw 0x14 0 3#32 5#32 0xFFFFFFFF#32 14#32 = true := by decide +kernel
theorem test_minw : res .minw 0x15 0 0xFFFFFFFF#32 1#32 1#32 = true ∧ res .minw 0x15 1 0xFFFFFFFF#32 1#32 0xFFFFFFFF#32 = true := by decide +kernel
theorem test_maxw : res .maxw 0x16 0 0xFFFFFFFF#32 1#32 0xFFFFFFFF#32 = true ∧ res .maxw 0x16 1 0xFFFFFFFF#32 1#32 1#32 = true := by decide +kernel
theorem test_logic : res .andw 0x17 0 0xF0F0#32 0xFF00#32 0xF000#32 = true ∧ res .orw 0x18 0 0xF0F0#32 0xFF00#32 0xFFF0#32 = true ∧
    res .xorw 0x19 0 0xF0F0#32 0xFF00#32 0x0FF0#32 = true := by decide +kernel
theorem test_shifts : res .shlw 0x1A 0 1#32 33#32 2#32 = true ∧ res .shrw 0x1B 0 0x80000000#32 31#32 1#32 = true ∧
    res .shrw 0x1B 1 0x80000000#32 31#32 0xFFFFFFFF#32 = true := by decide +kernel
theorem test_counts : res1 .ones 0x1C 0 0xF000000F#32 8#32 = true ∧ res1 .lzero 0x1D 0 0#32 32#32 = true ∧ res1 .lzero 0x1D 0 1#32 31#32 = true := by
  decide +kernel
/-- FIELD takes 8 bits at 28, clipped at bit 31, and 4 bits at 4, sign-extended; PLACE replaces them. -/
theorem test_field : afterG (.field g0 (wR 0x1E 3 1 0 4 0 0) 0) (grp [(1, 0xC0000080#32), (4, 0x81C#32)] []) 0 (fun x => x.rdV 3 0 == 0xC#32) = true ∧
    afterG (.field g0 (wR 0x1E 3 1 0 4 0 1) 0) (grp [(1, 0x80#32), (4, 0x404#32)] []) 0 (fun x => x.rdV 3 0 == 0xFFFFFFF8#32) = true ∧
    res3 .place 0x1F 0 0xFFFFFFFF#32 0x35#32 0x404#32 0xFFFFFF5F#32 = true := by decide +kernel
/-- CHOOSE under a predicate that holds in no lane, and its inverse. -/
theorem test_choose : res .choose 0x20 5 7#32 9#32 9#32 = true ∧ res .choose 0x20 13 7#32 9#32 7#32 = true ∧ res1 .setr 0x21 0 5#32 5#32 = true := by decide +kernel
theorem test_testw : pred .testw 0x22 2 0xFFFFFFFF#32 1#32 = false ∧ pred .testw 0x22 10 0xFFFFFFFF#32 1#32 = true ∧ pred .testw 0x22 5 1#32 1#32 = true := by
  decide +kernel
/-- −0 equals +0; a NaN is unequal to itself. -/
theorem test_testf : pred .testf 0x23 0 0x80000000#32 0#32 = true ∧ pred .testf 0x23 1 0x7FC00000#32 0x7FC00000#32 = true ∧
    pred .testf 0x23 5 0x7FC00000#32 0#32 = false ∧ pred .testf 0x23 2 0xBF800000#32 0x3F800000#32 = true := by decide +kernel
theorem test_pcomb : (List.range 4).map (fun m => afterG (.pcomb g0 (wR 0x24 3 1 2 0 0 m) 0) { group0 with p := [(1, 3#64), (2, 5#64)] } 0
    fun x => decide (x.rdP 3 = [1#64, 7#64, 6#64, 2#64].getD m 0)) = [true, true, true, true] := by decide +kernel
theorem test_lanex : [(0, 5, 5), (1, 5, 58), (2, 5, 63), (3, 1, 62)].all (fun e => afterG (.lanex g0 (wR 0x25 3 0 e.2.1 0 8 e.1) 0)
    { group0 with v := [(5, 5#32), (58, 58#32), (62, 62#32), (63, 63#32)] } 0 fun x => x.rdV 3 63 == BitVec.ofNat 32 e.2.2) = true := by decide +kernel
theorem test_poll : afterG (.poll g0 (uni (wR 0x26 2 1 0 0 0 0)) 0) { group0 with p := [(1, 0x8000000000000001#64)] } 0
      (fun x => x.rdU 2 == 1#32 && x.rdU 3 == 0x80000000#32) = true ∧
    afterG (.poll g0 (wR 0x26 2 1 0 0 0 1) 0) { group0 with p := [(1, 1#64)] } 0 (fun x => x.rdP 2 == BitVec.allOnes 64) = true ∧
    afterG (.poll g0 (wR 0x26 2 1 0 0 0 2) 0) { group0 with p := [(1, 1#64)] } 0 (fun x => x.rdP 2 == 0#64) = true := by decide +kernel
theorem test_laneu : afterG (.laneu g0 (uni (wR 0x27 2 1 127 0 8 0)) 0) { group0 with v := [(127, 9#32)] } 0 (fun x => x.rdU 2 == 9#32) = true := by
  decide +kernel

/-- 1 + 2^-24 rounds to even; a half above it rounds up. −A and |A| act on the sign bit. -/
theorem test_addf : res .addf 0x28 0 0x3F800000#32 0x33800000#32 0x3F800000#32 = true ∧ res .addf 0x28 0 0x3F800001#32 0x33800000#32 0x3F800002#32 = true ∧
    res .addf 0x28 3 0xBF800000#32 0x3F800000#32 0#32 = true := by decide +kernel
theorem test_mulf : res .mulf 0x29 4 0x40000000#32 0x40400000#32 0xC0C00000#32 = true ∧ res .mulf 0x29 0 0x7F800000#32 0#32 0x7FC00000#32 = true := by
  decide +kernel
/-- One rounding: (1 + 2^-23)^2 - (1 + 2^-22) = 2^-46. -/
theorem test_madf : res3 .madf 0x2A 16 0x3F800001#32 0x3F800001#32 0x3F800002#32 0x28800000#32 = true := by decide +kernel
theorem test_minmaxf : res .minf 0x2B 0 0#32 0x80000000#32 0x80000000#32 = true ∧ res .maxf 0x2C 0 0x80000000#32 0#32 0#32 = true ∧
    res .minf 0x2B 0 0x7FC00001#32 0x3F800000#32 0x3F800000#32 = true ∧ res .maxf 0x2C 0 0x7FC00001#32 0xFFC00000#32 0x7FC00000#32 = true := by decide +kernel
/-- 1.0 + 2^-8 and 2.0 + 1.0 in BF16; 3 x 3 - 9. -/
theorem test_bf16 : res .addb2 0x30 0 0x40003F80#32 0x3F803B80#32 0x40403F80#32 = true ∧ res .mulb2 0x31 0 0x40403F80#32 0x40403F80#32 0x41103F80#32 = true ∧
    res3 .madb2 0x32 16 0x40403F80#32 0x40403F80#32 0x41103F80#32 0#32 = true := by decide +kernel
/-- The fixed special cases of R131. -/
theorem test_special : res1 .recip 0x38 0 0x80000000#32 0xFF800000#32 = true ∧ res1 .rroot 0x39 0 0x80000000#32 0xFF800000#32 = true ∧
    res1 .rroot 0x39 0 0xBF800000#32 0x7FC00000#32 = true ∧ pow232 0 0xFF800000#32 = 0#32 ∧ pow232 0 0x43000000#32 = 0x7F800000#32 ∧ res1 .log2 0x3B 0 0#32 0xFF800000#32 = true := by
  decide +kernel
/-- 2^24 + 1 rounds to even; 2.5 rounds to 2, -1 saturates at 0; two halves; a subnormal half reads as zero. -/
theorem test_convert : res1 .wtof 0x40 0 16777217#32 0x4B800000#32 = true ∧ res1 .wtof 0x40 1 0xFFFFFFFF#32 0xBF800000#32 = true ∧
    res1 .ftow 0x41 1 0x40200000#32 2#32 = true ∧ res1 .ftow 0x41 0 0xBF800000#32 0#32 = true ∧
    res .ftob 0x42 0 0x3F808000#32 0x40490FDB#32 0x40493F80#32 = true ∧ res1 .btof 0x43 1 0x3F800001#32 0x3F800000#32 = true ∧
    res1 .btof 0x43 0 0x3F800001#32 0#32 = true := by decide +kernel

/-- CVTE of 7.0 into E2M1 saturates at 6 (code 7); DCDE reads it back as 6.0; T2 code 0b10 is NaN. -/
theorem test_cvte : fmtBits 5 = 4 ∧ res1 .cvte 0x44 5 0x40E00000#32 7#32 = true ∧ res1 .dcde 0x45 5 7#32 0x40C00000#32 = true := by decide +kernel
/-- The worked example of 02_narrow_formats: one block into FP4 E2M1 under tile scale 0.5, with inclusions; its codes, its scale
and its inclusion word. Seven elements are flushed. -/
def example32 : List Nat :=
  [0x3E19999A, 0x3E19999A, 0x3E19999A, 0x3E19999A, 0x3E19999A, 0x41940000, 0xBD99999A, 0xBD99999A, 0xBD99999A, 0xBD99999A, 0xBD99999A,
   0x3ED70A3D, 0x3CCCCCCD, 0x3CCCCCCD, 0x3CCCCCCD, 0x3CCCCCCD, 0x3CCCCCCD, 0x3E666666, 0x3E666666, 0x3E666666, 0xC0980000, 0x3E666666,
   0x3E666666, 0x3E666666, 0x3C23D70A, 0x3C23D70A, 0x3C23D70A, 0xBED70A3D, 0x3C23D70A, 0x3C23D70A, 0x3C23D70A, 0x3C23D70A]
def exampleGroup : Group :=
  { group0 with v := (example32.zipIdx.map fun e => (64 + e.2, BitVec.ofNat 32 e.1)) ++ [(128, 0x3F000000#32)], active := 0xFFFFFFFF#64 }
def exampleCodes : List Nat :=
  [4, 4, 4, 4, 4, 7, 10, 10, 10, 10, 10, 7, 1, 1, 1, 1, 1, 5, 5, 5, 15, 5, 5, 5, 0, 0, 0, 15, 0, 0, 0, 0]
theorem test_qblk : afterG (.qblk g0 (wR 0x46 4 1 2 0 0 133) 0) exampleGroup 0 (fun x =>
      (List.range 32).map (fun i => (x.rdV 4 i).toNat) == exampleCodes && x.rdV 5 0 == 0x61#32 && x.rdV 5 1 == 0x0E7A3C16#32 && x.rdV 5 2 == 0#32) = true ∧
    after (.qblk g0 (wR 0x46 4 1 2 0 0 133) 0) (withGroup 0 exampleGroup) (fun t => (t.run? 1).map (fun r => (r.sat, r.flushed, r.inclOvf, r.invalid))
      == some (0, 7, 0, 0)) = true := by decide +kernel
/-- Read back: element 5 is 18.421875 and element 20 is -4.640625. -/
theorem test_dqblk : afterG (.dqblk g0 (wR 0x47 3 1 4 2 0 5) 0)
    { group0 with v := (exampleCodes.zipIdx.map fun e => (64 + e.2, BitVec.ofNat 32 e.1)) ++ [(128, 0x3F000000#32), (256, 0x61#32), (257, 0x0E7A3C16#32)],
                   active := 0xFFFFFFFF#64 } 0
    (fun x => x.rdV 3 5 == 0x41936000#32 && x.rdV 3 20 == 0xC0948000#32) = true := by decide +kernel

/-- GMGET places element (r, c) in lane 4r + c / 4 of register X + c mod 4; GMPUT takes it from there; GMCLR zeroes. -/
theorem test_gmget : afterG (.gmget g0 (wR 0x62 4 2 0 0 0 0) 0) { group0 with acc := [(2 * 256 + 3 * 16 + 6, 9#32)] } 0 (fun x => x.rdV 6 13 == 9#32) = true ∧
    afterG (.gmput g0 (wR 0x63 2 4 0 0 0 0) 0) { group0 with v := [(6 * 64 + 13, 9#32)] } 0 (fun x => x.rdAcc 2 3 6 == 9#32) = true ∧
    afterG (.gmclr g0 (wR 0x61 2 0 0 0 0 0) 0) { group0 with acc := [(2 * 256 + 54, 9#32)] } 0 (fun x => x.rdAcc 2 3 6 == 0#32) = true := by decide +kernel
/-- GMAC of BF16 rows with 2.0 and 3.0 in their first elements gives 6.0; ACC adds it to the handle. -/
theorem test_gmac : afterG (.gmac g0 (wR 0x60 1 2 4 6 0 0) 0) { group0 with v := [(2 * 64, 0x4000#32), (4 * 64, 0x4040#32)] } 0
      (fun x => x.rdAcc 1 0 0 == 0x40C00000#32) = true ∧
    afterG (.gmac g0 (wR 0x60 1 2 4 6 0 256) 0) { group0 with v := [(2 * 64, 0x4000#32), (4 * 64, 0x4040#32)], acc := [(256, 0x3F800000#32)] } 0
      (fun x => x.rdAcc 1 0 0 == 0x40E00000#32) = true := by decide +kernel
/-- The same without the LAUNCH command, so that a fault shows in TEX_FAULT alone. -/
def bare (g : Group) : State := { withGroup 0 g with queues := [] }
/-- An inactive thread raises MATRIX_DIVERGENT and nothing is written; TEX_FAULT keeps code, lane and PC. -/
theorem test_divergent : after (.gmclr g0 (wR 0x61 2 0 0 0 0 0) 0) (bare { group0 with active := 0xFFFFFFFFFFFFFFFE#64 }) (fun t =>
    t.fld (texB 0 + 0x38) 0 8 = 0x22 ∧ t.bit (texB 0 + 0x38) 8 = true ∧ t.fld (texB 0 + 0x38) 15 6 = 1 ∧ t.reg (texB 0 + 0x40) = 0x400000#64) = true := by
  decide +kernel
/-- An illegal word: bit 15, a register at VREGS, a reserved opcode; recorded at the lowest active lane. -/
theorem test_illegal : [(wR 0x10 3 1 2 0 0 0 ||| 0x8000#64), wR 0x10 16 1 2 0 0 0, wR 0x7F 3 1 2 0 0 0].all (fun w =>
    after (.addw g0 w 0) (bare group0) fun t => t.fld (texB 0 + 0x38) 0 8 = 0x24 ∧ t.fld (texB 0 + 0x38) 15 6 = 0) = true := by decide +kernel

/-! Control and synchronisation. -/

theorem test_jump : afterG (.folioNop g0 0 0) group0 0 (fun _ => true) = true ∧
    after (.jump g0 (BitVec.ofNat 64 (0x02 + 5 * 2 ^ 16)) 0) (withGroup 0 group0) (fun t => (t.grp? g0).any fun x => x.pc == 0x400028#64) = true := by decide +kernel
/-- A JUMP that lanes 0 and 1 of predicate 1 take diverges: the fall-through path runs first. -/
theorem test_jump_diverges : after (.jump g0 (BitVec.ofNat 64 (0x02 + 0x100 + 1 * 2 ^ 9 + 5 * 2 ^ 16 + 9 * 2 ^ 40)) 0) (withGroup 0 { group0 with p := [(1, 3#64)] })
    (fun t => (t.grp? g0).any fun x => x.pc == 0x400008#64 && x.active == 0xFFFFFFFFFFFFFFFC#64 &&
      x.recon.map (fun e => (e.rcv, e.tgt, e.tgtMask)) == [(0x400048#64, 0x400028#64, 3#64)]) = true := by decide +kernel
theorem test_call_ret : after (.call g0 (BitVec.ofNat 64 (0x03 + 5 * 2 ^ 16)) 0) (withGroup 0 group0)
      (fun t => (t.grp? g0).any fun x => x.pc == 0x400028#64 && x.calls == [(0x400008#64, 1)]) = true ∧
    after (.ret g0 4 0) (withGroup 0 { group0 with calls := [(0x400100#64, 0)] }) (fun t => (t.grp? g0).any fun x => x.pc == 0x400100#64 && x.calls == []) = true := by
  decide +kernel
def entry (id : Nat) : Recon := { id := id, parent := 0, rcv := 0x400200#64, tgt := 0x400300#64, tgtMask := 0, joined := 0 }
/-- A full call stack, an empty one, and an entry pushed since the CALL; one pushed before it is no fault (R137). -/
theorem test_call_faults : [(Instr.call g0 (BitVec.ofNat 64 (0x03 + 5 * 2 ^ 16)) 0, { group0 with calls := List.replicate 8 (0x400100#64, 0) }), (.ret g0 4 0, group0),
    (.ret g0 4 0, { group0 with calls := [(0x400100#64, 3)], recon := [entry 3] })].all
      (fun e => after e.1 (bare e.2) fun t => t.fld (texB 0 + 0x38) 0 8 = 0x24) = true ∧
    after (.ret g0 4 0) (withGroup 0 { group0 with calls := [(0x400100#64, 3)], recon := [entry 2], nextId := 3 }) (fun t => (t.grp? g0).any fun x => x.pc == 0x400100#64) = true := by
  decide +kernel
theorem test_quit : afterG (.quit g0 (BitVec.ofNat 64 (0x01 + 0x100 + 1 * 2 ^ 9)) 0) { group0 with p := [(1, 3#64)] } 0 (fun x =>
    x.exited == 3#64 && x.active == 0xFFFFFFFFFFFFFFFC#64) = true := by decide +kernel
theorem test_meet : after (.meet g0 5 0) (withGroup 0 group0) (fun t => (t.grp? g0).any fun x => x.arrived == BitVec.allOnes 64 && x.active == 0#64) = true := by decide +kernel
theorem test_tally : after (.tally g0 (wR 0x08 31 0 0 0 0 0) 0) (withGroup 0 group0) (fun t => (t.blk? 0 0).any fun b => b.ctr 31 == 1#32) = true ∧
    after (.rdc g0 (uni (wR 0x0F 2 0 0 0 0 0)) 0) (withGroup 0 group0) (fun t => (t.grp? g0).any fun x => x.rdU 2 == 0#32 && x.pc == 0x400008#64) = true := by decide +kernel
/-- WAITC for 1 waits, and for 0 goes on. -/
theorem test_waitc : after (.waitc g0 (wR 0x0E 3 0 1 0 8 0) 0) (withGroup 0 group0) (fun t => (t.grp? g0).any fun x => x.waitc.isSome) = true ∧
    afterG (.waitc g0 (wR 0x0E 3 0 0 0 8 0) 0) group0 0 (fun x => x.waitc.isNone) = true := by decide +kernel
theorem test_specr : afterG (.specr g0 (uni (wR 0x09 2 1 0 0 0 0)) 0) { group0 with cycHi := 7#32 } 0 (fun x => x.rdU 2 == 7#32) = true ∧
    afterG (.specr g0 (wR 0x09 2 6 0 0 0 0) 0) group0 0 (fun x => x.rdV 2 63 == 63#32) = true := by decide +kernel
theorem test_cinv : after (.cinv g0 0x0A 0) { withGroup 0 group0 with tes := [(0, { (withGroup 0 group0).te 0 with carrel := [(0x600000 / 32, 0)] })] } (fun t => (t.te 0).carrel == [] && (t.grp? g0).any fun x => x.pc == 0x400008#64) = true ∧
    afterG (.fence g0 (BitVec.ofNat 64 (0x0B + 1 * 2 ^ 42 + 1 * 2 ^ 45)) 0) group0 0 (fun _ => true) = true := by decide +kernel
/-- CPY of 16 bytes starts; one of 0 bytes raises its counter; a source off 16 bytes is ILLEGAL_INSTRUCTION (R157). -/
theorem test_cpy : after (.cpy g0 (wR 0x0C 3 2 4 5 21 0) 0) (withGroup 0 (grp [] [(2, 0x400100#32), (4, 0#32), (5, 16#32)])) (fun t =>
      (t.blk? 0 0).any fun b => b.copies.map (fun c => (c.src, c.dst, c.rowBytes, c.rows, c.ctr)) == [(0x400100, 0, 16, 1, 3)]) = true ∧
    after (.cpy g0 (wR 0x0C 3 2 4 5 21 0) 0) (withGroup 0 (grp [] [(2, 0x400100#32)])) (fun t => (t.blk? 0 0).any fun b => b.ctr 3 == 1#32) = true ∧
    after (.cpy g0 (wR 0x0C 3 2 4 5 21 0) 0) (bare (grp [] [(2, 0x400108#32), (5, 16#32)])) (fun t => t.fld (texB 0 + 0x38) 0 8 = 0x24) = true := by
  decide +kernel

/-! Memory. -/

def hasOk {α : Type} (r : State × MRes α) (p : α → Bool) : Bool :=
  match r.2 with
  | .ok a => p a
  | _ => false
/-- The panel with 0x80 at 0x400100 and 0x7F at 0x400101 besides. -/
def withByte (cls : Nat) (g : Group) : State :=
  let s := withGroup cls g
  { s with arc := { s.arc with mem := s.arc.mem ++ [(0x400100, 0x80#8), (0x400101, 0x7F#8)], ls := [(lsKey 0 8, 9#8)] } }
def base0 : Group := grp [(4, 0x11223344#32)] [(2, 0x400100#32), (4, 8#32)]
def oneLane : Group := { base0 with active := 1#64 }
/-- LDM of 1 byte, sign-extended; of 2, not; LDLS reads the local store, and beyond the allocation faults. -/
theorem test_loads : after (.ldm g0 (wM 0x50 5 0 2 1 0 0 0 0) 0) (withByte 0 oneLane) (fun t => (t.grp? g0).any fun x => x.rdV 5 0 == 0xFFFFFF80#32) = true ∧
    after (.ldro g0 (wM 0x51 5 0 2 0 1 0 0 0) 0) (withByte 0 oneLane) (fun t => (t.grp? g0).any fun x => x.rdV 5 0 == 0x7F80#32) = true ∧
    after (.ldls g0 (wM 0x52 5 0 4 0 0 0 0 0) 0) (withByte 0 oneLane) (fun t => (t.grp? g0).any fun x => x.rdV 5 0 == 9#32) = true ∧
    after (.ldls g0 (wM 0x52 4 0 4 0 3 0 0 511) 0) { withByte 0 (grp [] [(4, 0xFFF#32)]) with queues := [] } (fun t => t.fld (texB 0 + 0x38) 0 8 = 0x21) = true := by
  decide +kernel
/-- STM of a repeatable launch gathers its bytes, least significant first; STLS writes the local store. -/
theorem test_stores : after (.stm g0 (wM 0x53 4 0 2 0 1 0 0 0) 0) (withByte 0 oneLane) (fun t =>
      t.arc.wcb.map (fun w => (w.site, w.sector, w.run, w.bytes)) == [(0, 0x400100 / 128, 1, [(0x400100, 0x44#8), (0x400101, 0x33#8)])] && t.arc.rd 0x400100 == 0x80#8) = true ∧
    after (.stls g0 (wM 0x54 4 0 4 0 2 0 0 0) 0) (withByte 0 oneLane) (fun t => t.arc.rdLs (lsKey 0 11) == 0x11#8) = true := by decide +kernel
/-- MOPN of a repeatable launch joins the run's log; MOPR of a pinned one waits for its answer, and of a repeatable one is
illegal. -/
theorem test_atomics : after (.mopn g0 (wM 0x55 4 0 2 0 2 0 0 0) 0) (withByte 0 oneLane) (fun t => (t.run? 1).any fun r => r.logs.map (fun e => (e.op.addr, e.remote)) == [(0x400100, false)]) = true ∧
    after (.mopr g0 (wM 0x56 4 0 2 0 2 0 0 0) 0) (withByte 1 oneLane) (fun t => (t.grp? g0).any fun x => x.await == 1) = true ∧
    after (.mopr g0 (wM 0x56 4 0 2 0 2 0 0 0) 0) { withByte 0 oneLane with queues := [] } (fun t => t.fld (texB 0 + 0x38) 0 8 = 0x24) = true := by
  decide +kernel

/-- A copy of one row of 16 bytes to LS offset 64, counter 3. -/
def copying : State :=
  let s := withGroup 0 group0
  let c : Copy := { src := 0x600000, dst := 64, rowBytes := 16, rows := 1, srcPitch := 0, dstPitch := 0, ctr := 3, hint := 0, lane := 0, slot := 0
                    pc := 0x400000#64, issued := 0, pieces := [[(0x600000, 16)]] }
  { s with tes := [(0, { s.te 0 with blocks := [(0, some { block0 with copies := [c] })] })] }
/-- The pieces of the accesses of the group's lanes, after the fetch of the instruction `w`, and the state with them. -/
def laned (s : State) (w : W64) (k : Acc) (mis : Bool) : Option (State × State × Who × List (Nat × List Piece)) :=
  let s1 := (s.fetchWords (s.runWho launch0.q 1) launch0 block0 0x400000 w).1
  let who := s1.runWho launch0.q 1
  match s1.glanes who launch0 block0 k mis (szBytes w) ((oneLane.accLanes w).map fun x => (x, oneLane.gaddr w 0 x)) [] with
  | (u, .ok ps) => some (s1, u, who, ps)
  | _ => none
def loadOk (w : W64) (ro : Bool) (s : State) : Bool :=
  match laned s w .read false with
  | some (s1, k, who, ps) => fetches s g0 w && decide (ps ≠ []) && !s1.acquireWaits launch0 w && (ps.all fun e => e.2.all fun p => !s1.mopnHeld who p.1 p.2) &&
      (s.fetchPieces who 0 (fHint w) ro (ps.flatMap fun e => e.2)).2 && ps.all fun e => hasOk (k.readPieces who block0 0 (fHint w) ro e.2) fun _ => true
  | none => false
def storeOk (w : W64) (s : State) : Bool :=
  match laned s w .write false with
  | some (_, k, who, ps) =>
    let all := ps.flatMap fun e => e.2
    let r := State.releaseGate s k g0 launch0 oneLane w
    let sys := who.pinned && decide (2 ≤ fOrd w) && decide (fScope w = 4)
    let k3 := (r.1.storeRoom who all).1
    let tb := k3.storeTable (ps.map fun e => (e.2, oneLane.storeBytes w e.1))
    let u := tb.1.storeAll who 1 tb.2 0 sys
    fetches s g0 w && decide (ps ≠ []) && r.2.isNone && (all.all fun p => !r.1.mopnHeld who p.1 p.2) && (r.1.throughFault who all).isNone &&
      hasOk (r.1.storeRoom who all) (fun _ => true) && hasOk u (fun _ => true) && (u.1.te 0).launch.isSome
  | none => false
def atomicOk (w : W64) (red : Bool) (s : State) : Bool :=
  match laned s w .atomic true with
  | some (s1, k, who, ps) =>
    let r := State.releaseGate s k g0 launch0 oneLane w
    fetches s g0 w && decide (ps ≠ []) && r.2.isNone && !s1.acquireWaits launch0 w && ps.all fun e =>
      let op := oneLane.atomOf w e.1 (pieceAddr e.2)
      !isRemote op.addr && !r.1.atomicHeld who red op && (who.run == 0 ||
        (r.1.run? who.run).any fun x => decide (Run.space { x with logs := x.logs ++ [{ op := op, remote := false }] } ≤ x.res * 65536))
  | none => false
theorem wit_folio_memory : loadOk (wM 0x50 5 0 2 1 0 0 0 0) false (withByte 0 oneLane) = true ∧ loadOk (wM 0x50 5 0 2 0 4 1 4 0) false (withByte 1 oneLane) = true ∧
    loadOk (wM 0x51 5 0 2 0 1 0 0 0) true (withByte 0 oneLane) = true ∧
    storeOk (wM 0x53 4 0 2 0 1 0 0 0) (withByte 0 oneLane) = true ∧ storeOk (wM 0x53 4 0 2 0 1 2 4 0) (withByte 1 oneLane) = true ∧
    atomicOk (wM 0x55 4 0 2 0 2 0 0 0) false (withByte 0 oneLane) = true ∧ atomicOk (wM 0x55 4 0 2 0 2 2 4 0) false (withByte 1 oneLane) = true ∧
    atomicOk (wM 0x55 4 0 2 0xB 2 0 0 0) true (withByte 1 oneLane) = true ∧ atomicOk (wM 0x56 4 0 2 0 2 3 4 0) false (withByte 1 oneLane) = true := by decide +kernel
/-- The local-store forms: within the allocation of 4 KiB, at its end, and beyond. -/
theorem wit_folio_local : (let w := wM 0x52 5 0 4 0 2 0 0 0; inAlloc launch0 block0 (oneLane.laddr w 0 0) 4 = true ∧ oneLane.laddr w 0 0 % 4 = 0 ∧
      (State.releaseGate (withByte 0 oneLane) (withByte 0 oneLane) g0 launch0 oneLane (wM 0x54 4 0 4 0 2 2 1 0)).2.isNone = true) ∧
    inAlloc launch0 block0 4095 1 = true ∧ inAlloc launch0 block0 4095 2 = false ∧
    (withByte 0 oneLane).acquireWaits launch0 (wM 0x57 4 0 4 0 2 3 4 0) = false ∧ oneLane.accLanes (wM 0x57 4 0 4 0 2 3 4 0) = [0] ∧
    oneLane.accLanes (0x0B#64 ||| 0x100#64) = [] := by decide +kernel
/-- CPY: the row of 16 bytes is translated and checked; 16 bytes beyond the end of the allocation do not fit it. -/
theorem wit_folio_cpy : (match ((withGroup 0 group0).gpieces ((withGroup 0 group0).runWho launch0.q 1) launch0 block0 .read 0x400100 16).2 with
      | .ok ps => decide (ps = [(0x400100, 16)])
      | _ => false) = true ∧ inAlloc launch0 block0 0 16 = true ∧ inAlloc launch0 block0 4096 16 = false ∧ block0.copies.length < 64 ∧
    (let c : Copy := { src := 0x600000, dst := 64, rowBytes := 16, rows := 1, srcPitch := 0, dstPitch := 0, ctr := 3, hint := 0, lane := 0, slot := 0
                       pc := 0x400000#64, issued := 0, pieces := [[(0x600000, 16)]] }
     (copying.fetchMissing (copying.runWho launch0.q 1) 0 (fun _ => none) false c.pieces.flatten).2 = true ∧
     (copying.asyncAll (copying.runWho launch0.q 1) block0 0 c c.pieces 0).2 = none ∧ copying.mopnHeld (copying.runWho launch0.q 1) 0x600000 16 = false) := by decide +kernel

/-- A legal word for every row of the Folio table, in the table's order. -/
def sampleWords : List W64 :=
  [0#64, 1#64, BitVec.ofNat 64 (2 + 5 * 2 ^ 16), BitVec.ofNat 64 (3 + 5 * 2 ^ 16), 4#64, 5#64, wR 0x08 31 0 0 0 0 0, uni (wR 0x09 63 5 0 0 0 0), 0x0A#64,
   BitVec.ofNat 64 (0x0B + 4 * 2 ^ 42 + 3 * 2 ^ 45), wR 0x0C 31 62 63 60 21 7, wR 0x0E 31 0 255 0 8 0, uni (wR 0x0F 63 31 0 0 0 0)] ++
  (List.range 12).map (fun i => wR (0x10 + i) 15 15 15 (if i = 4 then 15 else 0) 0 0) ++
  [wR 0x1C 15 15 0 0 0 0, wR 0x1D 15 15 0 0 0 0, wR 0x1E 15 15 0 15 0 1, wR 0x1F 15 15 15 15 0 0, wR 0x20 15 15 15 0 0 15, wR 0x21 15 15 0 0 0 0, wR 0x22 7 15 15 0 0 13,
   wR 0x23 7 15 15 0 0 5, wR 0x24 7 7 7 0 0 3, wR 0x25 15 15 255 0 8 3, wR 0x26 7 7 0 0 0 2, uni (wR 0x27 63 15 63 0 4 0)] ++
  [wR 0x28 15 15 15 0 0 15, wR 0x29 15 15 15 0 0 15, wR 0x2A 15 15 15 15 0 31, wR 0x2B 15 15 15 0 0 15, wR 0x2C 15 15 15 0 0 15, wR 0x30 15 15 15 0 0 15, wR 0x31 15 15 15 0 0 15,
   wR 0x32 15 15 15 15 0 31, wR 0x38 15 15 0 0 0 3, wR 0x39 15 15 0 0 0 3, wR 0x3A 15 15 0 0 0 3, wR 0x3B 15 15 0 0 0 3, wR 0x40 15 15 0 0 0 5, wR 0x41 15 15 0 0 0 5,
   wR 0x42 15 15 15 0 0 4, wR 0x43 15 15 0 0 0 1, wR 0x44 15 15 0 0 0 (8 + 2 * 16), wR 0x45 15 15 0 0 0 8, wR 0x46 14 15 15 15 0 (1 + 2 * 16 + 64 + 128),
   wR 0x47 15 15 15 15 0 1] ++
  [wM 0x50 15 15 62 1 1 1 4 1023, wM 0x51 15 0 62 0 0 0 0 0, wM 0x52 12 15 63 0 4 1 4 0, wM 0x53 12 0 62 0 4 2 4 0, wM 0x54 15 0 63 0 0 2 1 0, wM 0x55 15 0 62 12 2 2 4 0,
   wM 0x56 12 0 62 9 3 3 4 0, wM 0x57 12 0 63 9 3 3 4 0, wR 0x60 7 14 14 15 0 (5 + 6 * 16 + 256), wR 0x61 7 0 0 0 0 0, wR 0x62 12 7 0 0 0 0, wR 0x63 7 12 0 0 0 0]
/-- Every row of the Folio table has a legal word, at the ends of its fields, with which the words of its statement are
met: the opcode, the legality and a group that can issue it; and a word that is not legal. -/
theorem wit_folio_rows : folioLegalRows.map (·.2.1) = folioOpcodes ∧ sampleWords.length = folioOpcodes.length ∧ (folioLegalRows.zip sampleWords).all (fun e =>
    fOpc e.2 == e.1.2.1 && e.1.2.2 16 e.2 0 && !(e.1.2.2 16 (e.2 ||| 0x8000#64) 0) && (e.1.1 g0 e.2 0).wf) = true ∧
    sampleWords.all (fetches (withGroup 0 group0) g0) = true ∧ g0.ok = true := by decide +kernel

/-! ### Engines and threads (03, 04) -/

/-- A descriptor: the sum of its fields, each a value at a bit. -/
def dsc (l : List (Nat × Nat)) : Desc := BitVec.ofNat 1024 (l.foldl (fun n e => n + e.1 * 2 ^ e.2) 0)
/-- A command with run 1 in a phase. -/
def cmdIn (ph : Phase) (l : List (Nat × Nat)) : Cmd := { raw := dsc l, eff := dsc l, phase := ph, run := 1, atHead := true }
def run1 (q : QRef) (cls : Nat) : Run := { q := q, onEng := q.eng, cls := cls, part := 0, cid := 0, site := 0, res := 64 }
/-- The running panel with a command on the engine of its queue. -/
def holds (q : QRef) (c : Cmd) (r : Run) : State :=
  { live with queues := [(qKey q, { cmds := [c] })], runs := [(1, some r)], engs := [(engKey q.core r.onEng, { run := 1 })] }
theorem test_engineClears : after (.mexClrFlash 255 3) (put .reset [(mexB 255 3 + 0x10, 5#64), (mexB 255 3 + 0x38, 7#64)]) (fun t =>
      t.reg (mexB 255 3 + 0x10) == 0#64 && t.reg (mexB 255 3 + 0x38) == 7#64) = true ∧
    after (.mexClrDet 255 3) (put .reset [(mexB 255 3 + 0x38, 7#64)]) (fun t => t.reg (mexB 255 3 + 0x38) == 0#64) = true ∧
    after (.mexClrPerf 255 3) (put .reset [(mexB 255 3 + 0x48, 7#64)]) (fun t => t.reg (mexB 255 3 + 0x48) == 0#64) = true ∧
    after (.texClrFlash 255) (put .reset [(texB 255 + 0x28, 7#64)]) (fun t => t.reg (texB 255 + 0x28) == 0#64) = true ∧
    after (.texClrFault 255) (put .reset [(texB 255 + 0x38, 0x108#64)]) (fun t => t.reg (texB 255 + 0x38) == 0#64) = true ∧
    after (.texClrPerf 255) (put .reset [(texB 255 + 0x60, 7#64)]) (fun t => t.reg (texB 255 + 0x60) == 0#64) = true := by decide +kernel

/-- A LAUNCH that has been checked: grid 2 × 1 × 1, one group a block, 16 registers, 4 KiB, with `n` argument words at 0x600000. -/
def launchReady (n : Nat) : State :=
  holds (qr 4 0) (cmdIn .checked [(0x30, 0), (1, 8), (0x400000, 256), (0x600000, 320), (2, 384), (1, 416), (1, 432), (1, 448), (16, 456), (1, 464),
    (4096, 512), (n, 544)]) { run1 (qr 4 0) 1 with phase := .reserving }
/-- The launch with room for a second block. -/
def launch2 : Launch := { launch0 with arenaSize := 8192 }
def room2 : State := let s := withGroup 0 group0; { s with tes := [(0, { s.te 0 with launch := some launch2 })] }
theorem wit_GroupStart : ((launchReady 1).ready (qr 4 0) 0x30).isSome = true ∧
    hasOk ((launchReady 1).readVa ((launchReady 1).runWho (qr 4 0) 1) .read 0x600000 4 0) (fun bs => bs.length == 4) = true ∧
    after (.launch (qr 4 0)) (launchReady 1) (fun t => match (t.te 0).launch with
      | some l => l.gridX == 2 && l.prog == 0x400000 && l.args.length == 1 && decide (l.next = 0)
      | none => false) = true ∧
    after (.launch (qr 4 0)) (launchReady 0) (fun t => (t.te 0).launch.isSome) = true ∧
    (let s := room2
     launch2.next < launch2.total ∧ (s.te 0).blocks.length < launch2.maxResident ∧
     (placeGroups launch2.gpp launch2.groups ((s.te 0).groups.map (·.1))).length = (s.te 0).groups.length + launch2.groups) := by decide +kernel
/-- Block 1 of the launch goes to the slot of the least loaded pipe, and its v0 holds the lane numbers. -/
theorem test_blockDispatch : after (.blockDispatch 0) room2 (fun t => decide ((t.te 0).groups.length = 2) &&
    ((t.te 0).groups.any fun e => match e.2 with
      | some g => decide (g.rdU 0 = 1#32) && decide (g.rdU 3 = 0#32) && decide (g.rdV 0 5 = 5#32) && decide (g.rdV 1 5 = 0#32)
      | none => false)) = true := by decide +kernel

/-- All threads of the block have exited; all wait at a MEET. -/
def blkDone : State := withGroup 0 { group0 with exited := BitVec.allOnes 64, active := 0#64 }
def blkMet : State := withGroup 0 { group0 with active := 0#64, meets := [{ pc := 0x400010#64, mask := BitVec.allOnes 64, under := 0 }] }
theorem wit_BlockProgress : blkMet.writesPending 0 launch0 = false ∧ (blkDone.flushLaunch 0 { launch0 with retired := 1 }).writesPending 0 launch0 = false ∧
    launch0.retired + 1 ≠ launch0.total ∧ ({ launch0 with retired := 1 } : Launch).retired + 1 = launch0.total ∧ (∀ e ∈ blkDone.groupsOf 0 0, e.2.exited = BitVec.allOnes 64) ∧
    after (.blockRetire 0 0) blkDone (fun t => (t.blk? 0 0).isNone && (t.grp? g0).isNone) = true ∧
    (∀ e ∈ blkMet.groupsOf 0 0, ~~~e.2.exited &&& ~~~e.2.arrived = 0#64) ∧ (∃ e ∈ blkMet.groupsOf 0 0, e.2.arrived ≠ 0#64) ∧
    after (.meetComplete 0 0) blkMet (fun t => match t.grp? g0 with
      | some g => decide (g.pc = 0x400018#64) && decide (g.active = BitVec.allOnes 64) && decide (g.meets = [])
      | none => false) = true := by decide +kernel

/-- One half of the group waits at a MEET. -/
def blkHalf : State :=
  let s := withGroup 0 { group0 with active := 0xFFFFFFFF00000000#64, meets := [{ pc := 0x400010#64, mask := 0xFFFFFFFF#64, under := 0 }] }
  { s with queues := [] }
def waiting : State := { withGroup 0 { group0 with waitc := some (3, 2#32, BitVec.allOnes 64, 0x400008#64) } with queues := [] }
theorem wit_WaitsEnd : (∃ e ∈ blkHalf.groupsOf 0 0, e.2.arrived ≠ 0#64) ∧
    ((blkHalf.groupsOf 0 0).find? (fun e => e.2.live &&& ~~~e.2.arrived != 0#64)).isSome = true ∧
    after (.barrierTimeout 0 0) blkHalf (fun t => t.fld (texB 0 + 0x38) 0 8 == 0x23 && t.bit (texB 0 + 0x38) 8 && t.fld (texB 0 + 0x38) 15 6 == 32) = true ∧
    ((waiting.grp? g0).bind (·.waitc)).isSome = true ∧
    after (.waitcTimeout g0) waiting (fun t => t.fld (texB 0 + 0x38) 0 8 == 0x23 && t.fld (texB 0 + 0x40) 0 55 == 0x400000) = true ∧
    after (.copyComplete 0 0 0) copying (fun t => match t.blk? 0 0 with
      | some b => decide (b.copies = []) && decide (tget 0#32 b.ctrs 3 = 1#32)
      | none => false) = true := by decide +kernel

/-- A MATMUL that runs on engine 0, and a LAUNCH that runs. -/
def matmulRun : State := holds (qr 0 0) (cmdIn .running [(0x20, 0)]) (run1 (qr 0 0) 0)
theorem wit_Detections : (matmulRun.engCmd 0 0).map (fun x => (x.1, x.2.1)) = some (1, qr 0 0) ∧
    ((withGroup 0 group0).engCmd 0 4).isSome = true ∧ ((withGroup 1 group0).engCmd 0 4).map (fun x => hClass x.2.2.raw) = some 1 := by decide +kernel
/-- R81: the first detection sends the command back to its queue. -/
theorem test_matrixDetection : after (.matrixDetection 0 0 2) matmulRun (fun t => t.fld (mexB 0 0 + 0x38) 32 16 == 1 &&
    ((t.q (qr 0 0)).cmds.map fun c => (c.phase, c.detections, c.handed)) == [(.queued, 1, false)] && decide ((t.eng 0 0).stopping = true)) = true := by
  decide +kernel
def stoppedEng : State := { live with engs := [(engKey 255 6, { run := 0, stopping := true })] }
def gang1 (formed : Bool) (members : List Nat) : Gang :=
  { core := 0, gang := 1, members := members, m := 16, k := 16, n := 16, share := 1, opA := BitVec.ofNat 192 (2 ^ 168), opB := 0, formed := formed }
theorem wit_EngineEvents : (stoppedEng.eng 255 6).stopping = true ∧
    after (.engineStopped 255 6) stoppedEng (fun t => decide ((t.eng 255 6).stopping = false)) = true ∧
    (({ live with gangs := [gang1 false []] } : State).gangs.find? (fun g => g.core = 0 && g.gang = 1)).isSome = true ∧
    after (.gangWindowClose 0 1) { live with gangs := [gang1 false []] } (fun t => (t.gangs.map (·.formed)) == [true]) = true ∧
    after (.l0ParityError 255 8) { live with tes := [(255, { l0 := [(7, 1)], carrel := [(9, 2)] })] } (fun t => (t.te 255).carrel == [] && (t.te 255).l0 == [(7, 1)]) = true ∧
    after (.l0ParityError 255 7) { live with tes := [(255, { l0 := [(7, 1), (8, 1)], carrel := [(9, 2)] })] } (fun t => (t.te 255).l0 == [(8, 1)] && (t.te 255).carrel == [(9, 2)]) = true := by decide +kernel
/-- A MATMUL that has passed its checks: `gang` at bit 889, M, K and N as in `gang1`. -/
def matReady (gang : Nat) (gs : List Gang) : State :=
  { holds (qr 0 0) (cmdIn .checked [(0x20, 0), (16, 832), (16, 848), (16, 864), (gang, 889), (1, 424)]) { run1 (qr 0 0) 0 with phase := .reserving } with gangs := gs }
def matC (gang : Nat) : Cmd := cmdIn .checked [(0x20, 0), (16, 832), (16, 848), (16, 864), (gang, 889), (1, 424)]
theorem wit_MatmulBegins : (matReady 0 []).ready (qr 0 0) 0x20 = some (matC 0) ∧ mGang (matC 0).eff = 0 ∧ mGang (matC 1).eff = 1 ∧
    (((matReady 1 []).beginWork (qr 0 0) (matC 1)).gangs.find? (fun g => g.core = 0 && g.gang = 1)).isNone = true ∧
    (gang1 false [1]).matches (matC 1).eff = true ∧
    ((matReady 1 [gang1 false [1]]).beginWork (qr 0 0) (matC 1)).gangs.map (·.formed) = [false] ∧
    ((matReady 1 [gang1 true [1]]).beginWork (qr 0 0) (matC 1)).gangs.map (·.formed) = [true] := by decide +kernel
/-- R67: a MATMUL with a GANG value opens the window of its gang; a second one joins it. -/
theorem test_matmul_gang : after (.matmul (qr 0 0)) (matReady 1 []) (fun t => t.gangs.map (fun (g : Gang) => (g.members, g.m)) == [([0], 16)]) = true ∧
    after (.matmul (qr 0 0)) (matReady 1 [gang1 false [1]]) (fun t => t.gangs.map (fun (g : Gang) => g.members) == [[1, 0]]) = true := by decide +kernel

/-! ### Queues (06) -/

/-- An enabled queue 3 of engine 6 of core 0, with a submission ring at 0x600000 and a completion ring at 0x680000, 16 entries each. -/
def q63 : QRef := qr 6 3
def qOn (sop : Nat) (st : Nat) (head tail : Nat) (x : QueX) : State :=
  let s := put live [(texB 0, 0#64), (queCfg q63, BitVec.ofNat 64 (sop + 2 + 4 * 2 ^ 8 + 4 * 2 ^ 16)), (queRingBase q63, 0x600000#64), (queCrBase q63, 0x680000#64),
    (queStatus q63, BitVec.ofNat 64 st), (queHead q63, BitVec.ofNat 64 head), (queTail q63, BitVec.ofNat 64 tail)]
  { s with queues := [(qKey q63, x)] }
theorem wit_QueueDoorbells : q63.ok = true ∧ (qOn 0 9 0 0 {}).qState q63 = 9 ∧ (qOn 1 0 0 0 {}).qSop q63 = true ∧ (qOn 0 0 0 0 {}).qSop q63 = false ∧
    (qOn 0 0 0 0 {}).qEnabled q63 = true ∧ (qOn 0 0 0 0 {}).partActive q63 = true ∧
    wsub 16 ((qOn 0 0 0 0 {}).fld (queHead q63) 0 32) ≤ 2 ^ (qOn 0 0 0 0 {}).fld (queCfg q63) 8 5 := by decide +kernel
/-- R172: a doorbell of 16 entries fits a ring of 16, one of 17 is dropped; TAIL wraps. -/
theorem test_tailDoorbell : after (.queTailDoorbell q63 16#64) (qOn 0 0 0 0 {}) (fun t => t.fld (queTail q63) 0 32 == 16) = true ∧
    after (.queTailDoorbell q63 17#64) (qOn 0 0 0 0 {}) (fun t => t.fld (queTail q63) 0 32 == 0 && t.bit (queStatus q63) 16 && t.fld (queStatus q63) 32 16 == 1) = true ∧
    after (.queTailDoorbell q63 3#64) (qOn 0 0 0xFFFFFFFF 0xFFFFFFFF {}) (fun t => t.fld (queTail q63) 0 32 == 3) = true := by decide +kernel
/-- R175: a single-op doorbell submits the window, and the ninth command in flight is dropped. -/
theorem test_sop15 : after (.queSop15Doorbell q63 5#64) (qOn 1 0 7 0 {}) (fun t => t.fld (queHead q63) 0 32 == 8 &&
      ((t.q q63).cmds.map fun c => (c.submit, dF c.raw 0x78 0 64)) == [(7, 5)]) = true ∧
    after (.queSop15Doorbell q63 5#64) (qOn 1 0 8 0 {}) (fun t => t.fld (queHead q63) 0 32 == 8 && t.bit (queStatus q63) 16) = true := by decide +kernel
theorem wit_QueueSettings : live.qEnabled q63 = false ∧ (qOn 0 8 0 0 {}).qEnabled q63 = true ∧
    ((live.bcastMembers ((live.corePart q63.core).getD 0) 3).filter fun x => x ≠ q63) = [] := by decide +kernel
/-- Ring sizes of QUE_CFG are taken between 4 and 16, and only while ENABLE was 0. -/
theorem test_queSettings : after (.queCfgWrite q63 0x31F0302#64) live (fun t => t.fld (queCfg q63) 8 5 == 4 && t.fld (queCfg q63) 16 5 == 16 && t.qEnabled q63) = true ∧
    after (.queCfgWrite q63 0x60802#64) (qOn 0 0 0 0 {}) (fun t => t.fld (queCfg q63) 8 5 == 4) = true ∧
    after (.queBcastWrite q63 0xAB07#64) live (fun t => t.fld (queBcast q63) 1 4 == 3 && t.fld (queBcast q63) 8 8 == 0xAB) = true ∧
    after (.queCrHeadWrite (.que q63) 9#64) live (fun t => t.fld (queCrHead q63) 0 32 == 9) = true ∧
    after (.queCrHeadWrite (.svc 15 3) 9#64) (put live [(svcB 15 3 + 0x48, 4#64)]) (fun t => t.fld (svcB 15 3 + 0x48) 0 4 == 2) = true := by decide +kernel
theorem wit_QueueResumes : (qOn 0 5 0 0 {}).qState q63 = 5 ∧ (qOn 0 6 0 0 {}).qState q63 = 6 ∧ (qOn 0 0 0 0 {}).qState q63 = 0 ∧
    (qOn 0 5 0 0 {}).qSop q63 = false ∧ (qOn 1 5 0 0 {}).qSop q63 = true := by decide +kernel
/-- R198: the commands of the halted entry are dropped by SKIP. -/
theorem test_queResume : after (.queResume q63) (qOn 0 5 1 1 {}) (fun t => decide (t.qState q63 ≠ 5)) = true ∧
    after (.queResumeSkip q63) (qOn 0 5 2 2 { cmds := [{ raw := 0, submit := 0, index := 1 }, { raw := 0, submit := 1 }] }) (fun t =>
      ((t.q q63).cmds.map fun c => c.submit) == [1]) = true := by decide +kernel
def qPost : State := qOn 0 0 2 5 { cmds := [{ raw := 0, submit := 1, index := 3 }], ents := [{ submit := 1, buf := 0x610000, count := 9, next := 4 }] }
theorem wit_QueueAborts : ((qPost.q q63).cmds.any fun c => !c.pour && c.submit = 1 && c.index = 3) = true ∧
    (∃ e ∈ (qPost.q q63).ents, e.submit = 1 ∧ e.next ≤ 8 ∧ 8 < e.count) ∧
    between (qPost.fld (queHead q63) 0 32) (qPost.fld (queTail q63) 0 32) 4 = true ∧
    between (qPost.fld (queHead q63) 0 32) (qPost.fld (queTail q63) 0 32) 5 = false := by decide +kernel
theorem test_queAbort : after (.queAbort q63 1 3) qPost (fun t => (t.q q63).aborts == [(1, 3)]) = true ∧
    after (.queAbort q63 1 8) qPost (fun t => (t.q q63).pend == [(1, 8)]) = true ∧ after (.queAbort q63 4 0) qPost (fun t => (t.q q63).pend == [(4, 0)]) = true ∧
    after (.queAbort q63 5 0) qPost (fun t => (t.q q63).pend == [] && (t.q q63).aborts == []) = true ∧
    after (.queAbortAll q63) qPost (fun t => (t.q q63).aborts == [(1, 3)] && (t.q q63).allBelow == some 5) = true := by decide +kernel
/-- An entry of the ring: a buffer at 0x610000 with 2 descriptors. -/
def entryAt (s : State) (va : Nat) (bs : Bytes) : State := (s.writeVa (s.who q63) va bs 0).1
def qEntry (count : Nat) : State := entryAt (qOn 0 0 0 1 {}) 0x600000 (toBytes 16 (0x610000 + count * 2 ^ 64))
theorem wit_QueueFetch : (qEntry 2).fetches q63 = true ∧ (qEntry 2).fld (queHead q63) 0 32 ≠ (qEntry 2).fld (queTail q63) 0 32 ∧
    hasOk ((qEntry 2).readVa ((qEntry 2).who q63) .read 0x600000 16 0) (fun bs => ofBytes bs == 0x610000 + 2 * 2 ^ 64) = true ∧
    (qOn 0 0 1 1 { ents := [{ submit := 0, buf := 0x610000, count := 2, next := 0 }] }).aheadFull q63 false = false := by decide +kernel
theorem test_queueFetch : after (.submissionEntryReturn q63) (qEntry 2) (fun t => t.fld (queHead q63) 0 32 == 1 &&
      ((t.q q63).ents.map fun e => (e.buf, e.count)) == [(0x610000, 2)]) = true ∧
    after (.submissionEntryReturn q63) (qEntry 0) (fun t => t.fld (queDone q63) 0 32 == 1 && (t.q q63).ents.isEmpty) = true ∧
    after (.descriptorBlockReturn q63) (qOn 0 0 1 1 { ents := [{ submit := 0, buf := 0x610000, count := 1, next := 0 }] }) (fun t =>
      ((t.q q63).cmds.map fun c => (c.submit, c.index)) == [(0, 0)] && (t.q q63).ents.isEmpty) = true := by decide +kernel

/-- Queue 3 of engine 6 with one command at its head, and its run. -/
def qHeld (c : Cmd) (r : Run) : State :=
  { qOn 0 1 1 1 { cmds := [c] } with runs := [(1, some { r with q := q63, onEng := 6 })], nextRun := 2 }
/-- A NOP and a COPY that wait at the head with run 0. -/
def queued (l : List (Nat × Nat)) : Cmd := { raw := dsc l, eff := dsc l, atHead := true }
def tentBudget (s : State) : State := put s [(arcTent 0 0, 256#64)]
def started (l : List (Nat × Nat)) : State :=
  tentBudget { qHeld (cmdIn .started l) { run1 q63 0 with phase := .reserving } with engs := [(engKey 0 6, { run := 1 })] }
/-- COPY of 256 bytes in one row, with a footprint of 100 entries. -/
def copyF (foot : Nat) : List (Nat × Nat) := [(0x40, 0), (foot, 224), (0x600000, 256), (0x610000, 320), (256, 384), (1, 416), (256, 448), (256, 480)]
def starts (c : Cmd) : Bool :=
  let s := qOn 0 1 1 1 { cmds := [c] }
  match (s.headUpdate q63).gates q63 c with
  | (g, .pass) => decide ((s.headUpdate q63).head q63 = some c) && (s.headUpdate q63).mayStart q63 && !hdrBad 6 false c.raw && decide (g.crFree q63 ≠ 0) &&
    decide (g.ledgerAdmit q63 (hEnergy c.raw) = some 0) && g.calAdmits q63 && decide ((g.eng 0 6).run = 0) && decide ((g.eng 0 6).stopping = false) &&
    (List.range 3).all fun k => !g.headReady { q63 with q := k }
  | _ => false
theorem wit_QueueStarts : starts (queued [(0, 0)]) = true ∧ starts (queued [(0x40, 0)]) = true ∧
    (match (started (copyF 100)).indirect q63 (dsc (copyF 100)) (indFields 0x40).zipIdx (dsc (copyF 100)) with
      | (u, .ok d) => decide (((u.modCmd q63 (cmdIn .started (copyF 100)) fun c => { c with eff := d }).opCheck q63 (u.runWho q63 1) d).2.isNone)
      | _ => false) = true ∧
    (tentBudget (qHeld (cmdIn .waiting (copyF 256)) (run1 q63 0))).roomFor 0 0 256 = true ∧
    (let s := qOn 0 1 1 1 { cmds := [queued [(1, 160)]] }
     s.head q63 = some (queued [(1, 160)]) ∧ hWaitEn (dsc [(1, 160)]) = true ∧ s.mayStart q63 = true ∧ s.mayRecord q63 = true) ∧
    ((qHeld (cmdIn .checked [(1, 12)]) (run1 q63 0)).ready q63 0).isSome = true := by decide +kernel
/-- R206: the footprint is reserved when there is room, and a footprint above the site budget of the partition fails. -/
theorem test_queueStarts : after (.indirectReadReturn q63) (started (copyF 256)) (fun t => t.fld (arcTent 0 0) 16 16 == 256 &&
      ((t.q q63).cmds.map (·.phase)) == [.checked]) = true ∧
    after (.indirectReadReturn q63) (started (copyF 257)) (fun t => t.fld (arcTent 0 0) 16 16 == 0) = true ∧
    after (.reservationGranted q63) (tentBudget (qHeld (cmdIn .waiting (copyF 256)) (run1 q63 0))) (fun t => t.fld (arcTent 0 0) 16 16 == 256) = true ∧
    after (.commandReady q63) (qOn 0 1 1 1 { cmds := [queued [(0x40, 0)]] }) (fun t => ((t.q q63).cmds.map (·.phase)) == [.started] &&
      decide ((t.eng 0 6).run ≠ 0)) = true ∧
    after (.waitTimeout q63) (qOn 0 1 1 1 { cmds := [queued [(1, 160)]] }) (fun t => t.fld (queCrTail q63) 0 32 == 1) = true ∧
    after (.nop q63) (qHeld (cmdIn .checked [(1, 12)]) (run1 q63 0)) (fun t => t.fld (queCrTail q63) 0 32 == 1) = true := by decide +kernel
def evt0 : EvtOp := { addr := 0x600008, isSet := false, val := 3#64 }
theorem wit_QueueEvents : q63 ∈ ({ qOn 0 1 1 1 {} with net := { wakes := [q63] } } : State).net.wakes ∧ (qOn 0 9 0 0 {}).qState q63 = 9 ∧ live.qEnabled q63 = false ∧
    evt0.ok = true ∧ ((qOn 0 1 1 1 { ring := { holdoff := true, notifyDue := true } }).recX (.que q63)).holdoff = true ∧ (qOn 0 1 1 1 { ring := { holdoff := true, notifyDue := true } }).qEnabled q63 = true ∧
    (let c := queued [(0x40, 0)]
     let u := qOn 0 1 1 1 { cmds := [c] }
     u.head q63 = some c ∧ u.mayStart q63 = true ∧ (u.gates q63 c).2 = .pass) ∧
    (let c := queued [(0x40, 0), (1, 14)]
     ((qOn 0 1 1 1 { cmds := [c] }).gates q63 c).2 = .wait) := by decide +kernel
/-- R186: an arm is set once; a second arrival at the same bit is counted. -/
theorem test_armDelivery : after (.armDelivery q63 255) { qOn 0 1 1 1 {} with net := { arms := [(q63, 255)] } } (fun t => t.bit (queArm q63 3) 63 && t.net.arms.isEmpty &&
      t.fld (queStatus q63) 32 16 == 0) = true ∧
    after (.armDelivery q63 255) { put (qOn 0 1 1 1 {}) [(queArm q63 3, 0x8000000000000000#64)] with net := { arms := [(q63, 255)] } } (fun t =>
      t.fld (queStatus q63) 32 16 == 1) = true ∧
    after (.eventRecord evt0) { live with net := { evts := [evt0] } } (fun t => t.net.evts.isEmpty && t.arc.rd 0x600008 == some 3#8) = true ∧
    after (.eventWake q63) { qOn 0 1 1 1 {} with net := { wakes := [q63] } } (fun t => t.net.wakes.isEmpty) = true := by decide +kernel
/-- SPAWN of an entry of 2 descriptors into queue 1 of engine 5. -/
def spawnD : List (Nat × Nat) := [(2, 0), (0x610000, 256), (2, 320), (0, 336), (5 + 8, 344)]
def q51 : QRef := qr 5 1
def spawnS (ph : Phase) : State :=
  put { qOn 0 1 1 1 {} with queues := [(qKey q51, {}), (qKey q63, { cmds := [cmdIn ph spawnD] })] }
    [(queCfg q51, BitVec.ofNat 64 (2 + 4 * 2 ^ 8 + 4 * 2 ^ 16)), (queRingBase q51, 0x620000#64), (queCrBase q51, 0x690000#64)]
theorem wit_Spawns : ((spawnS .checked).ready q63 2).isSome = true ∧ ((spawnS .running).head q63).map (·.phase) = some .running ∧
    (spawnS .running).roomAll q63 (dsc spawnD) = false ∧ ((spawnS .running).takeRoom q63 (dsc spawnD)).roomAll q63 (dsc spawnD) = true ∧
    (let h := (spawnS .running).takeRoom q63 (dsc spawnD)
     (h.spawnEntryFault q63 (h.spawnTargets q63 (dsc spawnD))).2.isNone = true ∧ ¬ ∃ t ∈ h.spawnTargets q63 (dsc spawnD), h.qSop t = true) := by decide +kernel
/-- R189: the entry is posted into the target's ring and raises its TAIL. -/
theorem test_spawn : after (.spawn q63) (spawnS .checked) (fun t => (t.q q63).room == [(q51, 1)]) = true ∧
    after (.spawnRoomGranted q63) (spawnS .running) (fun t => t.fld (queTail q51) 0 32 == 1 && t.arc.rd 0x620002 == some 0x61#8 && t.arc.rd 0x620008 == some 2#8) = true ∧
    after (.spawnRoomTimeout q63) (spawnS .running) (fun t => (t.q q63).room == [] && t.fld (queTail q51) 0 32 == 0) = true := by decide +kernel

/-- A pattern of `n` NOPs at 0x640000, its word at 0x18 `w`; `good` gives it its CRCs. -/
def nop16 : Bytes := toBytes 128 0
def patHdr (n : Nat) : Bytes := toBytes 4 0x50544E52 ++ toBytes 4 7 ++ toBytes 8 n
def patWith (s : State) (n w : Nat) : State :=
  let t := crc32c nop16
  let a := entryAt s 0x640000 (patHdr n ++ toBytes 4 (crc32c (patHdr n ++ toBytes 4 t)) ++ toBytes 4 0 ++ toBytes 8 w)
  entryAt a 0x640040 (toBytes 4 t)
def callD : List (Nat × Nat) := [(3, 0), (0x640000, 256)]
def patchD : List (Nat × Nat) := [(4, 0), (1, 8), (0x640000, 256)]
def pour0 : Pour := { pat := 0x640000, expect := 0 }
def pourC : QueX := { cmds := [cmdIn .running callD], pour := some { pour0 with live := true, gen := 7, count := 1, table := [crc32c nop16], hcrc := 5 } }
def call (w : Nat) (ph : Phase) : State := patWith (qHeld (cmdIn ph callD) (run1 q63 0)) 1 w
def locked : State := qOn 0 1 1 1 { cmds := [cmdIn .checked callD], pour := some { pour0 with locked := true } }
def patVal (r : State × Except Fail (Nat × Nat)) : Option Nat :=
  match r.2 with
  | .ok (_, v) => some v
  | .error _ => none
theorem wit_Pours : ((call 0 .checked).ready q63 3).isSome = true ∧ patVal ((call 0 .checked).patWord q63 0x640000) = some 0 ∧
    patVal ((call (2 ^ 32 + 1) .checked).patWord q63 0x640000) = some (2 ^ 32 + 1) ∧
    (locked.ready q63 3).isSome = true ∧ ((locked.q q63).pour.map (·.locked)) = some true ∧
    (let s := patWith (qOn 0 1 1 1 pourC) 1 1
     (s.callCmd q63).isSome = true ∧ hasOk (s.readVa (s.who q63) .read 0x640000 64 0) (fun b => b.length == 64) = true ∧
     hasOk (s.readVa (s.who q63) .read 0x640800 128 0) (fun b => b == nop16) = true) := by decide +kernel
/-- R191, R192: the pour waits for LOCK; LIVE rises and the header is captured; a block whose header CRC is not the captured
one tears the pour, and one that agrees joins the queue before its CALL_PATTERN. -/
theorem test_pours : after (.callPattern q63) (call (2 ^ 32) .checked) (fun t => (t.q q63).pour.map (·.locked) == some true) = true ∧
    after (.callPattern q63) (call 0 .checked) (fun t => t.arc.rd 0x640018 == 1#8 && ((t.q q63).pour.map fun p => (p.gen, p.count)) == some (7, 1)) = true ∧
    after (.pourLockTimeout q63) locked (fun t => (t.q q63).pour.isNone) = true ∧
    after (.pourBlockReturn q63) (patWith (qOn 0 1 1 1 pourC) 1 1) (fun t => (t.q q63).cmds.isEmpty && (t.q q63).pour.isNone) = true := by decide +kernel
theorem test_pourBlock : after (.pourBlockReturn q63) (patWith (qOn 0 1 1 1 { pourC with pour := some { pour0 with live := true, gen := 7, count := 1, table := [crc32c nop16], hcrc := crc32c (patHdr 1 ++ toBytes 4 (crc32c nop16)) } }) 1 1)
    (fun t => (t.q q63).cmds.map (fun c => (c.pour, c.phase)) == [(true, .queued), (false, .running)]) = true := by decide +kernel
def patch (ph : Phase) (rp : RunPhase) (w : Nat) : State := patWith (qHeld (cmdIn ph patchD) { run1 q63 1 with phase := rp }) 1 w
theorem wit_Patches : ((patch .checked .reserving 0).ready q63 4).isSome = true ∧ (patch .checked .reserving 0).patchHeld q63 = none ∧
    ((patch .committed .running 0).patchHeld q63).isSome = true ∧ patVal ((patch .committed .running (2 ^ 32)).patWord q63 0x640000) = some (2 ^ 32) ∧
    patVal ((patch .committed .running (2 ^ 32 + 1)).patWord q63 0x640000) = some (2 ^ 32 + 1) ∧
    ((patch .committed .workDone 0).active q63 (fun c => hOpc c.raw ≠ 0x30 && hClass c.raw = 1 && c.phase == .committed)).isSome = true := by decide +kernel
/-- R193: PATCH sets LOCK and waits while LIVE is 1; it clears LOCK when its writes are done. -/
theorem test_patch : after (.patch q63) (patch .checked .reserving 1) (fun t => t.arc.rd 0x64001C == 1#8 && ((t.q q63).cmds.map (·.phase)) == [.committed]) = true ∧
    after (.pinnedWritesDone q63) (patch .committed .workDone (2 ^ 32)) (fun t => t.arc.rd 0x64001C == 0#8 && (t.q q63).cmds.isEmpty) = true ∧
    after (.patchWaitTimeout q63) (patch .committed .running (2 ^ 32 + 1)) (fun t => t.arc.rd 0x64001C == 0#8) = true := by decide +kernel

/-- A queue whose command is to be aborted. -/
def abS (ph : Phase) (l : List (Nat × Nat)) (r : Run) : State := (qHeld (cmdIn ph l) r).modQ q63 fun x => { x with aborts := [(0, 0)] }
theorem wit_abortReachesEngine : ((abS .queued (copyF 0) (run1 q63 0)).q q63).aborts = [(0, 0)] ∧ (live.q q63).aborts = [] ∧
    (((qOn 0 1 1 1 { aborts := [(0, 0)] }).q q63).cmds.find? fun c => !c.pour && c.submit = 0 && c.index = 0) = none ∧
    (((abS .queued (copyF 0) (run1 q63 0)).q q63).cmds.find? fun c => !c.pour && c.submit = 0 && c.index = 0) = some (cmdIn .queued (copyF 0)) ∧
    hOpc (dsc (copyF 0)) ≠ 3 ∧ hClass (dsc (copyF 0)) = 0 ∧ hOpc (dsc callD) = 3 ∧ hClass (dsc patchD) = 1 ∧ hClass (dsc [(0x50, 0), (2, 8)]) = 2 ∧
    ((abS .running [(0x50, 0), (2, 8)] { run1 q63 2 with arrived := true }).run? 1).map (·.arrived) = some true ∧
    (match ((abS .running [(0x50, 0), (2, 8), (0x600000, 256)] (run1 q63 2)).xlat ((abS .running [(0x50, 0), (2, 8), (0x600000, 256)] (run1 q63 2)).who q63) .write 0x600000).2 with
      | .ok a => decide (a.pa = 0x600000)
      | _ => false) = true := by decide +kernel
/-- R220: an abort ends what has not committed, and leaves what has. -/
theorem test_abortReachesEngine : after (.abortReachesEngine q63) (abS .running (copyF 0) (run1 q63 0)) (fun t => (t.q q63).cmds.isEmpty && t.fld (queCrTail q63) 0 32 == 1) = true ∧
    after (.abortReachesEngine q63) (abS .committed (copyF 0) { run1 q63 0 with phase := .committed }) (fun t => (t.q q63).cmds.map (·.abortSeen) == [true]) = true := by decide +kernel

/-! ### Commits, Calendars and collectives (07) -/

def runH (ph : Phase) (l : List (Nat × Nat)) (r : Run) : State := qHeld (cmdIn ph l) r
def matR (f : Run → Run) : State := { qOn 0 1 1 1 { cmds := [cmdIn .running (copyF 0)] } with runs := [(1, some (f { run1 q63 0 with q := q63, onEng := 6 }))] }
/-- Twelve tentative bytes in twelve lines. -/
def set12 : List (Nat × BitVec 8) := (List.range 12).map fun i => (0x600000 + i * 0x1000000, 1#8)
/-- A coordination record: INST 9, MEMBERS 2, PREPARED, STATE and RUN. -/
def coordRec (s : State) (prep st : Nat) : State :=
  { s with arc := { s.arc with hbm := [(0x600000, 9#8), (0x600004, 2#8), (0x600006, BitVec.ofNat 8 prep), (0x600008, BitVec.ofNat 8 st)].filter fun e => e.2 ≠ 0#8
                               mem := s.arc.mem ++ [(0x600000, 9#8), (0x600004, 2#8), (0x600006, BitVec.ofNat 8 prep), (0x600008, BitVec.ofNat 8 st)].filter fun e => e.2 ≠ 0#8 } }
theorem wit_Commits : (matR fun r => { r with phase := .workDone }).head q63 = some (cmdIn .running (copyF 0)) ∧ hOpc (dsc (copyF 0)) ≠ 0x49 ∧
    hClass (dsc (copyF 0)) ≠ 1 ∧
    (let s := coordRec (matR fun r => { r with cls := 2, arrived := true, coord := 0x600000, inst := 9 }) 1 1
     recInst s 0x600000 = 9 ∧ recState s 0x600000 = 1 ∧ recPrepared s 0x600000 < recMembers s 0x600000) ∧
    ((matR fun r => { r with phase := .discarding }).run? 1).map (·.phase) = some .discarding ∧
    0x600000 / 512 ∈ ({ run1 q63 0 with tent := set12, tlines := set12.map fun e => e.1 / 512 } : Run).tlines ∧
    ((matR id).cmdOfRun 1).isSome = true ∧
    ((runH .committed [(0x40, 0), (1, 8)] { run1 q63 1 with phase := .workDone }).active q63 (fun c => hClass c.raw = 1 && c.phase == .committed)).isSome = true := by
  decide +kernel
/-- R206, R208: the reservation comes back when a discard is complete; a parity error of a tentative byte re-queues the command. -/
theorem test_commits : after (.discardComplete 1) (put (matR fun r => { r with phase := .discarding, res := 64 }) [(arcTent 0 0, 0x500100#64)]) (fun t =>
      t.fld (arcTent 0 0) 16 16 == 16 && (t.run? 1).isNone) = true ∧
    after (.runCommitPoint q63) (matR fun r => { r with phase := .workDone, tent := [(0x600000, 5#8)] }) (fun t =>
      ((t.run? 1).map fun r => decide (r.phase = .committed)) == some true) = true ∧
    after (.tentativeParityError 1 0x600001 false) (matR fun r => { r with tent := set12, tlines := set12.map fun e => e.1 / 512 }) (fun t => ((t.q q63).cmds.map (·.phase)) == [.queued]) = true := by decide +kernel
/-- Twelve runs that hold a tentative line each, all of one set. -/
def setHeld : State :=
  { matR id with runs := (List.range 12).map fun i => (i + 1, some { run1 q63 0 with tlines := [0x3000 + 24576 * i] }) }
theorem wit_setFull : setHeld.setFull 0 = true ∧ (setHeld.head q63).map (fun c => (c.phase, c.run)) = some (.running, 1) := by
  decide +kernel
def calOn (n w : Nat) : State := put (qOn 0 1 1 1 {}) [(calB 0, BitVec.ofNat 64 (n + 2 ^ 16)), (calB 0 + 8, BitVec.ofNat 64 w)]
/-- Core 0 waits for MAINT, without a self-test, with one that waits, and with one while the Librarian is absent. -/
def maintWait (st : Nat) (away : Bool) : State :=
  { put (qOn 0 1 1 1 {}) [(coreSelftest 0, BitVec.ofNat 64 st)] with cores := [(0, { maintWanted := true })], boot := { absent := away } }
/-- Core 0 in MAINT, with a 2 MiB local store. -/
def inMaint : State := { put (calOn 3 1) [(texB 0, 0x8000#64), (texB 0 + 0x30, 0x20#64)] with cores := [(0, { inWindow := true })] }
theorem wit_CalendarTurns : (let s := calOn 3 2
      s.bit (calB 0) 16 = true ∧ s.fld (calB 0) 0 13 = 3 ∧ (s.coreX 0).maintWanted = false ∧ s.maint 0 = false ∧ s.runsOf 0 = [] ∧ s.inReleased 0 = false) ∧
    (inMaint.coreX 0).inWindow = true ∧ (inMaint.coreX 0).maintWanted = false ∧ ((inMaint.leaveMaint 0).runsOf 0 = [] ∧ (inMaint.leaveMaint 0).inReleased 0 = false) ∧
    ((maintWait 2 false).coreX 0).maintWanted = true ∧ ((List.range 7).all fun e => decide (((maintWait 2 false).eng 0 e).run = 0)) = true ∧
    (maintWait 2 false).bit (coreSelftest 0) 1 = true ∧ (maintWait 2 false).boot.absent = false ∧ (maintWait 0 false).bit (coreSelftest 0) 1 = false ∧
    (maintWait 2 true).boot.absent = true := by decide +kernel
/-- R218, R96: the last window is followed by window 0 of the next frame; a maintenance window ends there; MAINT begins, and its self-test
waits while the Librarian is absent. -/
theorem test_calendarTurns : after (.calendarWindowBoundary 0) (calOn 3 2) (fun t => t.fld (calB 0 + 8) 0 12 == 0 && t.fld (calB 0 + 8) 16 32 == 1) = true ∧
    after (.calendarWindowBoundary 0) (calOn 3 1) (fun t => t.fld (calB 0 + 8) 0 12 == 2 && t.fld (calB 0 + 8) 16 32 == 0) = true ∧
    after (.calendarWindowBoundary 0) inMaint (fun t => !t.maint 0 && t.fld (texB 0 + 0x30) 4 5 == 16 && !(t.coreX 0).inWindow) = true ∧
    after (.maintBegin 0) (maintWait 0 false) (fun t => t.maint 0 && (t.coreX 0).inWindow) = true ∧
    after (.maintBegin 0) (maintWait 2 true) (fun t => t.maint 0 && t.bit (coreSelftest 0) 1 && !t.bit (coreSelftest 0) 2) = true := by decide +kernel
/-- ALLREDUCE of instance 9 with 2 members and its record at 0x600000. -/
def collD : List (Nat × Nat) := [(0x50, 0), (2, 8), (0x600000, 256), (9, 320), (2, 352)]
def coll (ph : Phase) (f : Run → Run) : State := qHeld (cmdIn ph collD) (f { run1 q63 2 with coord := 0x600000, inst := 9 })
def collP (prep st : Nat) (f : Run → Run) : State := coordRec (coll .running f) prep st
def prepd : Run → Run := fun r => { r with arrived := true, phase := .workDone }
theorem wit_Collectives : ((coll .checked id).ready q63 0x50).isSome = true ∧
    (match ((coll .checked id).xlat ((coll .checked id).who q63) .write 0x600000).2 with | .ok a => decide (a.pa = 0x600000) | _ => false) = true ∧
    ((collP 0 0 id).collHead q63).isSome = true ∧ recState (collP 0 0 id) 0x600000 = 0 ∧ recState (collP 0 1 id) 0x600000 = 1 ∧
    recMembers (collP 0 1 id) 0x600000 = lMembers (dsc collD) ∧ recState (collP 0 3 id) 0x600000 = 3 ∧ recState (collP 0 5 id) 0x600000 = 5 ∧
    recInst (collP 0 1 prepd) 0x600000 = 9 ∧ recPrepared (collP 1 1 prepd) 0x600000 = 1 ∧ (collP 0 0 id).isLost (homeOf 0x600000) = false := by decide +kernel
/-- R223, R224: an arrival joins an open record; PREPARED counts, and at MEMBERS the record is COMMITTED. -/
theorem test_collectives : after (.collectiveArrival q63) (collP 0 1 id) (fun t => recState t 0x600000 == 1 && ((t.run? 1).map (·.arrived)) == some true) = true ∧
    after (.collectivePrepared q63) (collP 0 1 prepd) (fun t => recPrepared t 0x600000 == 1 && recState t 0x600000 == 1) = true ∧
    after (.collectivePrepared q63) (collP 1 1 prepd) (fun t => recState t 0x600000 == 2) = true ∧
    after (.allreduce q63) (coll .checked id) (fun t => ((t.run? 1).map fun r => (r.coord, r.inst)) == some (0x600000, 9)) = true := by decide +kernel
/-- A transfer of `op` of 4 bytes in 2 rows from 0x600000 to 0x610000, and its walk. -/
def moveD (op : Nat) : List (Nat × Nat) :=
  [(op, 0), (0x600000, 256), (0x610000, 320), (4, 384), (2, 416), (4, 448), (8, 480), (if op = 0x42 ∨ op = 0x43 then 0x620000 else 0x01020304, 576)]
def moveS (op : Nat) : State :=
  let s := entryAt (qHeld (cmdIn .checked (moveD op)) { run1 q63 1 with phase := .reserving }) 0x600000 (toBytes 8 0x0807060504030201)
  entryAt s 0x620004 (toBytes 4 1)
def moves (op : Nat) : Bool :=
  let s := moveS op
  let w := s.runWho q63 1
  let d := dsc (moveD op)
  match s.readIdx w d with
  | (i, .ok ix) =>
    let k := i.xferWalk w d ix
    let p := k.1.probeXfer w d ix
    (s.ready q63 op).isSome && k.2.isNone && p.2 && (match p.1.tentXfer w d ix with
      | (t, .ok _) => hasOk ((t.beginWork q63 (cmdIn .checked (moveD op))).copyWork w d ix) fun _ => true
      | _ => false)
  | _ => false
/-- A COPY to an address that is not mapped. -/
def noMap : List (Nat × Nat) := [(0x40, 0), (0x600000, 256), (2 ^ 30, 320), (4, 384), (1, 416)]
theorem wit_Moves : moves 0x40 = true ∧ moves 0x41 = true ∧ moves 0x42 = true ∧ moves 0x43 = true ∧
    (let s := qHeld (cmdIn .checked noMap) { run1 q63 1 with phase := .reserving }
     (s.ready q63 0x40).isSome = true ∧ hasOk (s.readIdx (s.runWho q63 1) (dsc noMap)) (fun ix => ix == []) = true ∧
     ((s.xferWalk (s.runWho q63 1) (dsc noMap) []).2.map (·.code)) = some 0x20) ∧
    ((moveS 0x48).xferWalk ((moveS 0x48).runWho q63 1) (dsc (moveD 0x48)) []).2.isNone = true ∧ ((moveS 0x48).ready q63 0x48).isSome = true ∧
    ((moveS 0x49).xferWalk ((moveS 0x49).runWho q63 1) (dsc (moveD 0x49)) []).2.isNone = true ∧ ((moveS 0x49).ready q63 0x49).isSome = true := by decide +kernel

/-! ### The Archive and memory (08, 09, 11) -/

/-- A message about the last line of HBM, whose home is site 71, from site 3 to `dst`, and a state where it is on its way. -/
def hi : Nat := 0x0900_0000_0000 / 512 - 1
def msg (dst : Nat) : CMsg := { line := hi, req := 3, src := 3, dst := dst, sectors := 1 }
def fly (t : MsgTy) (m : CMsg) (s : State) : State := { s with net := { s.net with msgs := s.net.msgs ++ [(t, m)] } }
/-- What is on its way after a message has arrived: each type and destination. -/
def sent (t : State) : List (MsgTy × Nat) := t.net.msgs.map fun (e : MsgTy × CMsg) => (e.1, e.2.dst)
def dirAt (o : Option Nat) (sh : Nat) : State := { live with arc := { live.arc with dir := [(hi, { sharers := BitVec.ofNat 72 sh, owner := o })] } }
def busy : State := { live with arc := { live.arc with txns := [{ line := hi, kind := .sole, ty := .atom, m := msg 71, need := 1 }] } }
def lostHome : State := { live with mesh := { lost := [71] } }
def requests : List MsgTy := [.rdS, .own, .upgr, .flush, .atom, .cmt, .log, .mir]
theorem wit_HomeRequests : (msg 71).ok = true ∧ homeOf (hi * 512) = 71 ∧
    requests.all (fun t => (fly t (msg 71) live).arrives t (msg 71) && (fly t (msg 71) lostHome).arrives t (msg 71) && (fly t (msg 71) lostHome).isLost 71 &&
      (fly t (msg 71) busy).arrives t (msg 71) && (fly t (msg 71) busy).lineHeld hi && !(fly t { msg 71 with run := 2 } live).arrives t (msg 71)) = true ∧
    (fly .rdS (msg 71) live).isLost 71 = false ∧ (fly .rdS (msg 71) live).lineHeld hi = false ∧ (fly .rdS (msg 71) live).dirFull hi = false ∧
    (fly .rdS (msg 71) live).dir? hi = none ∧ (fly .rdS (msg 71) live).isLost 3 = false ∧ ({ live with mesh := { lost := [3] } } : State).isLost 3 = true ∧
    ((dirAt none 1).dir? hi).map (·.owner) = some none ∧
    ((dirAt (some 3) 0).dir? hi).map (·.owner) = some (some 3) ∧ ((dirAt (some 71) 0).dir? hi).map (·.owner) = some (some 71) := by decide +kernel
/-- Of more than 16 numbers for each of `k` values, some 17 have the same value. -/
theorem pigeons (f : Nat → Nat) : ∀ (k : Nat) (l : List Nat), (∀ x ∈ l, f x < k) → k * 16 < l.length → ∃ y, 16 < (l.filter fun x => f x = y).length
  | 0, [], _, h => by simp at h
  | 0, a :: _, hf, _ => absurd (hf a (by simp)) (by omega)
  | k + 1, l, hf, h => by
    by_cases hk : 16 < (l.filter fun x => f x = k).length
    · exact ⟨k, hk⟩
    · have hs := List.length_eq_countP_add_countP (l := l) fun x => decide (f x = k)
      simp only [List.countP_eq_length_filter] at hs
      have hr : ∀ x ∈ l.filter (fun x => decide ¬decide (f x = k) = true), f x < k := fun x hx => by
        have := hf x (List.mem_filter.1 hx).1
        have : f x ≠ k := by simpa using (List.mem_filter.1 hx).2
        omega
      obtain ⟨y, hy⟩ := pigeons f k _ hr (by omega)
      exact ⟨y, Nat.lt_of_lt_of_le hy (List.Sublist.length_le (List.Sublist.filter _ List.filter_sublist))⟩
/-- A full set of the directory, whatever the hash of the sets: of more lines of a home than 16 times the sets it has, some 17 are of
one set (R260). -/
theorem wit_dirFull : ∃ (s : State) (m : CMsg), m.ok = true ∧ s.arrives .rdS m = true ∧ s.isLost (homeOf (m.line * 512)) = false ∧ s.lineHeld m.line = false ∧
    s.dir? m.line = none ∧ s.dirFull m.line = true := by
  obtain ⟨y, hl⟩ := pigeons (fun x => Config.dirHash x % 65536) 65536 (List.range (16 * 65536 + 1)) (fun x _ => Nat.mod_lt _ (by decide)) (by
    rw [List.length_range]; decide)
  have hnd : ((List.range (16 * 65536 + 1)).filter fun x => Config.dirHash x % 65536 = y).Nodup := List.Nodup.sublist List.filter_sublist List.nodup_range
  have hm : ∀ x ∈ (List.range (16 * 65536 + 1)).filter (fun x => Config.dirHash x % 65536 = y), x < 16 * 65536 + 1 ∧ Config.dirHash x % 65536 = y := by
    intro x hx
    simpa using List.mem_filter.1 hx
  generalize (List.range (16 * 65536 + 1)).filter (fun x => Config.dirHash x % 65536 = y) = l at hl hnd hm
  match l, hl, hnd, hm with
  | x :: xs, hl, hnd, hm =>
    have h0 : ∀ z ∈ x :: xs, homeOf (z * 512) = 0 := fun z hz => Nat.div_eq_of_lt (by have := (hm z hz).1; omega)
    have hx := hm x (by simp)
    let m : CMsg := { line := x, req := 3, src := 3, dst := 0, sectors := 1 }
    refine ⟨fly .rdS m { live with arc := { live.arc with dir := xs.map fun z => (z, { sharers := 1#72, owner := none }) } }, m, ?_, ?_, ?_, ?_, ?_, ?_⟩
    · simp [CMsg.ok, m, Config.sites, Config.partitions, statusCodes]; omega
    · simp [State.arrives, fly, live, chanOf, m]
    · rw [show homeOf (m.line * 512) = 0 from h0 x (by simp)]; rfl
    · simp [State.lineHeld, State.lineBusy, fly, live]
    · have hn : x ∉ xs := (List.nodup_cons.1 hnd).1
      simp only [State.dir?, fly, Option.map_eq_none_iff, List.find?_eq_none, List.mem_map, decide_eq_true_eq, m]
      rintro _ ⟨z, hz, rfl⟩ rfl
      exact hn hz
    · have hall : (xs.map fun z => ((z, { sharers := 1#72, owner := none }) : Nat × DirE)).filter (fun e => homeOf (e.1 * 512) = homeOf (x * 512)) =
          xs.map fun z => (z, { sharers := 1#72, owner := none }) := by
        rw [List.filter_eq_self]
        intro e he
        obtain ⟨z, hz, rfl⟩ := List.mem_map.1 he
        simp [h0 z (List.mem_cons_of_mem _ hz), h0 x (by simp)]
      have hset : (xs.map fun z => ((z, { sharers := 1#72, owner := none }) : Nat × DirE)).filter (fun e => Config.dirHash e.1 % 65536 = Config.dirHash x % 65536) =
          xs.map fun z => (z, { sharers := 1#72, owner := none }) := by
        rw [List.filter_eq_self]
        intro e he
        obtain ⟨z, hz, rfl⟩ := List.mem_map.1 he
        simp [(hm z (List.mem_cons_of_mem _ hz)).2, hx.2]
      simp only [List.length_cons] at hl
      simp only [State.dirFull, State.dirSet, fly, m, hall, hset]
      rw [if_neg (by simp; omega)]
      simp
      omega
/-- R260, R261: the first reader is granted E; a reader beside an owner is sent on to it; UPGR beside a sharer invalidates it. -/
theorem test_homeRequests : after (.rdS (msg 71)) (fly .rdS (msg 71) live) (fun t => ((t.dir? hi).map (·.owner)) == some (some 3) && sent t == [(.data, 3)]) = true ∧
    after (.rdS (msg 71)) (fly .rdS (msg 71) (dirAt (some 5) 0)) (fun t => sent t == [(.snpS, 5)] && t.lineBusy hi) = true ∧
    after (.upgr { msg 71 with sectors := 0 }) (fly .upgr { msg 71 with sectors := 0 } (dirAt none 0x28)) (fun t => sent t == [(.inv, 5), (.grant, 3)] &&
      ((t.dir? hi).map fun e => (e.owner, e.sharers)) == some (some 3, 0#72)) = true ∧
    after (.flush (msg 71)) (fly .flush (msg 71) live) (fun t => sent t == [(.fwdAck, 3)]) = true ∧
    after (.rdS (msg 71)) live (fun t => decide (t = live)) = true := by decide +kernel
/-- A copy of the line in a slice, with bytes written in the sectors `dirty`. -/
def lnAt (site : Nat) (st : LState) (dirty : Nat) : ALine := { site := site, line := hi, st := st, valid := 15, dirty := dirty, hint := 0, part := 0, mask := secBits dirty }
def ln (st : LState) (dirty : Nat) : ALine := lnAt 71 st dirty
def holdsLn (l : ALine) : State := { live with arc := { live.arc with lines := [l] } }
def mirTxn : Txn := { line := hi, kind := .mirror, ty := .wb, m := msg 71, need := 1 }
def txn (k : TxKind) : State := { dirAt (some 5) 0 with arc := { (dirAt (some 5) 0).arc with txns := [{ line := hi, kind := k, ty := .rdS, m := msg 71, need := 2 }] } }
def asks : Mshr := { site := 71, line := hi, asked := 1, part := 0 }
def asking : State := { live with arc := { live.arc with mshrs := [asks] } }
def sliceMsgs : List MsgTy := [.wb, .preWb, .wbAck, .cmtAck, .mirAck, .data, .grant, .ackInv, .miss, .fwdAck, .rclData, .snpS, .snpX, .recall, .clean, .inv]
/-- The run of site 71 whose last line is to be acknowledged, and the one that waits for its pre-image. -/
def lastAck : State := runH .committed (copyF 0) { run1 q63 0 with phase := .committed, unackedLines := [hi] }
def preWaits : State := { runH .running (copyF 0) { run1 q63 0 with preWait := [hi] } with arc := { live.arc with lines := [ln .M 1] } }
theorem wit_SliceMessages :
    sliceMsgs.all (fun t => (fly t (msg 71) live).arrives t (msg 71) && !live.arrives t (msg 71) && (fly t { msg 71 with alt := true } live).arrives t { msg 71 with alt := true }) = true ∧
    (fly .wb (msg 71) live).isLost 71 = false ∧ lostHome.isLost 71 = true ∧ (∀ e, live.dir? hi = some e → e.owner ≠ some 3) ∧
    (((dirAt (some 3) 2).dir? hi).bind (·.owner)) = some 3 ∧ (fly .wbAck { msg 71 with run := 1 } preWaits).arrives .wbAck { msg 71 with run := 1 } = true ∧
    (preWaits.line? 71 hi).isSome = true ∧ live.line? 71 hi = none ∧ (lastAck.run? 1).map (·.phase) = some .committed ∧
    (({ live with arc := { live.arc with txns := [mirTxn] } } : State).arc.txns.find? (fun t => t.line = hi && t.kind == .mirror)).isSome = true ∧
    (((txn .read).txn? hi).map (·.kind), ((txn .own).txn? hi).map (·.kind), ((txn .flush).txn? hi).map (·.kind), ((txn .sole).txn? hi).map (·.kind),
      ((txn .evict).txn? hi).map (·.kind)) = (some .read, some .own, some .flush, some .sole, some .evict) ∧
    ((txn .own).isLost 3 = false ∧ ({ txn .own with mesh := { lost := [3] } } : State).isLost 3 = true) ∧
    (({ live with arc := { live.arc with evict := [ln .M 1] } } : State).evicting? 71 hi).isSome = true ∧ live.evicting? 71 hi = none ∧
    (fly .data (msg 71) asking).awaitsGrant 71 hi = true ∧ asking.awaitsGrant 71 hi = false := by
  refine ⟨by decide +kernel, by decide +kernel, by decide +kernel, fun e h => ?_, by decide +kernel⟩
  rw [show live.dir? hi = none by decide +kernel] at h
  cases h
/-- R210, R249, R266, R267: WB of the owner reaches the stacks and frees the entry; PRE_WB leaves its slice a sharer; WB_ACK lets the run's
write go on with a clean copy; the last line acknowledged completes the commit. -/
theorem test_homeAcks : after (.wb { msg 71 with mask := 1#512 }) (fly .wb { msg 71 with mask := 1#512 } (entryAt (dirAt (some 3) 0) 0 [])) (fun t =>
      (t.dir? hi).isNone && sent t == [(.wbAck, 3)]) = true ∧
    after (.preWb (msg 71)) (fly .preWb (msg 71) (dirAt (some 3) 2)) (fun t => ((t.dir? hi).map fun e => (e.owner, e.sharers)) == some (none, 10#72) &&
      sent t == [(.wbAck, 3)]) = true ∧
    after (.wbAck { msg 71 with run := 1, mask := secBits 1 }) (fly .wbAck { msg 71 with run := 1, mask := secBits 1 } preWaits) (fun t =>
      (t.line? 71 hi).map (fun l => (l.st, l.dirty, l.mask)) == some (.E, 0, 0#512) && ((t.run? 1).map fun r => (r.preWait, r.preimages)) == some ([], [hi])) = true ∧
    after (.cmtAck { msg 71 with run := 1 }) (fly .cmtAck { msg 71 with run := 1 } lastAck) (fun t => (t.run? 1).isNone && (t.q q63).cmds.isEmpty) = true := by
  decide +kernel
/-- R264: SNP_S leaves M in O and answers from the copy; RECALL takes the copy away with its dirty sectors; nothing held answers MISS; a
slice with a grant on its way holds the snoop. -/
theorem test_snoops : after (.snpS (msg 71)) (fly .snpS (msg 71) (holdsLn (ln .M 1))) (fun t => (t.line? 71 hi).map (·.st) == some .O &&
      t.net.msgs.map (fun (e : MsgTy × CMsg) => (e.1, e.2.dst, e.2.dirty)) == [(.data, 3, false), (.fwdAck, 71, true)]) = true ∧
    after (.snpX (msg 71)) (fly .snpX (msg 71) (holdsLn (ln .O 2))) (fun t => (t.line? 71 hi).isNone) = true ∧
    after (.recall (msg 71)) (fly .recall (msg 71) (holdsLn (ln .M 1))) (fun t => (t.line? 71 hi).isNone &&
      t.net.msgs.map (fun (e : MsgTy × CMsg) => (e.1, e.2.sectors, e.2.mask)) == [(.rclData, 1, secBits 1)]) = true ∧
    after (.clean (msg 71)) (fly .clean (msg 71) (holdsLn (ln .M 1))) (fun t => (t.line? 71 hi).map (fun l => (l.st, l.dirty)) == some (.E, 0)) = true ∧
    after (.snpS (msg 71)) (fly .snpS (msg 71) live) (fun t => sent t == [(.miss, 71)]) = true ∧
    after (.snpS { msg 71 with src := 5 }) (fly .snpS { msg 71 with src := 5 } (fly .data (msg 71) asking)) (fun t =>
      ((t.mshr? 71 hi).map fun r => r.held.length) == some 1) = true ∧
    after (.inv { msg 71 with ack := 9 }) (fly .inv { msg 71 with ack := 9 } (holdsLn (ln .S 0))) (fun t => (t.line? 71 hi).isNone && sent t == [(.ackInv, 9)]) = true := by
  decide +kernel
/-- R264, R265: a grant with the count of its acknowledgements installs the line once they have come; FWD_ACK ends the home's transaction. -/
theorem test_grants : after (.data { msg 71 with granted := .E, sectors := 15 }) (fly .data { msg 71 with granted := .E, sectors := 15 } asking) (fun t =>
      (t.line? 71 hi).map (fun l => (l.st, l.valid)) == some (.E, 15) && (t.mshr? 71 hi).isNone) = true ∧
    after (.data { msg 71 with granted := .M, count := 1 }) (fly .data { msg 71 with granted := .M, count := 1 } asking) (fun t =>
      (t.line? 71 hi).isNone && (t.mshr? 71 hi).any fun r => r.grant.isSome) = true ∧
    after (.ackInv (msg 71)) (fly .ackInv (msg 71) asking) (fun t => (t.mshr? 71 hi).map (·.got) == some 1) = true ∧
    after (.fwdAck { msg 71 with src := 5 }) (fly .fwdAck { msg 71 with src := 5 } (txn .read)) (fun t => t.arc.txns.isEmpty &&
      ((t.dir? hi).map fun e => (e.owner, e.sharers)) == some (none, 40#72)) = true := by decide +kernel
def tlbiS (n : Nat) (ids : List Nat) : State := { live with parts := [(15, { tlbis := List.replicate n ids })] }
theorem wit_Translations : homeOf (hi * 512) ≠ 0 ∧ live.dir? hi = none ∧ ((dirAt (some 5) 3).dir? hi).isSome = true ∧
    ((tlbiS 16 []).part 15).tlbis.length = 16 ∧ ((tlbiS 15 []).part 15).tlbis.length = 15 ∧
    (qHeld (cmdIn .running (copyF 0)) (run1 q63 0)).stillRuns 1 = true ∧ live.stillRuns 1 = false ∧
    (∃ q ∈ coreQueues 0, (qOn 0 1 1 1 {}).qEnabled q = true) ∧ (∀ q ∈ live.partQueues 15, live.qEnabled q = false) := by decide +kernel
/-- R259, R307: the probe latches the sharers and the owner; the 16th invalidation pending is the last taken. -/
theorem test_translations : after (.dirProbe 71 (BitVec.ofNat 64 (hi * 512))) (dirAt (some 5) 3) (fun t => t.reg (arcDirData 71 0) == 3#64 &&
      t.reg (arcDirData 71 1) == BitVec.ofNat 64 (5 * 2 ^ 8 + 2 ^ 15 + 2 ^ 32)) = true ∧
    after (.tlbiContext 15 0xFFFF) (tlbiS 15 []) (fun t => t.fld (coreTlbiStatus 15) 0 32 == 1 && (t.part 15).tlbis.length == 16) = true ∧
    after (.tlbiContext 15 0xFFFF) (tlbiS 16 []) (fun t => t.fld (coreTlbiStatus 15) 0 32 == 0) = true ∧
    after (.tlbiComplete 15) (tlbiS 16 []) (fun t => t.fld (coreTlbiStatus 15) 32 32 == 1 && (t.part 15).tlbis.length == 15) = true := by decide +kernel
def wc (pinned : Bool) : State :=
  let s := qHeld (cmdIn .running (copyF 0)) (run1 q63 0)
  { s with arc := { s.arc with wcb := [{ site := 71, sector := hi * 4, run := 1, pinned := pinned, part := 0, cid := 0, bytes := [(hi * 512, 7#8)] }] } }
theorem wit_MemoryEvents : ((wc true).arc.wcb.filter fun e => e.site = 71).length = 1 ∧ ((wc false).cmdOfRun 1).isSome = true ∧ isHbm ((hi * 4 + 3) * 128) = true ∧
    ((holdsLn (ln .E 0)).line? 71 ((hi * 4 + 3) / 4)).map (fun l => (l.valid &&& (1 <<< 3), l.dirty &&& (1 <<< 3))) = some (8, 0) ∧
    ((holdsLn (ln .M 8)).line? 71 ((hi * 4 + 3) / 4)).map (fun l => l.dirty &&& (1 <<< 3)) = some 8 ∧
    live.arc.lineOk hi = true ∧
    live.otherCopy hi = none ∧ (({ live with arc := { live.arc with mirrors := [{ a := 0, b := hi * 512, size := 512 }] } } : State).otherCopy hi) = some 0 := by decide +kernel
/-- A line whose stored check is not that of its bytes. -/
theorem wit_badCheck (a : Archive) (l : Nat) : ∃ n, ({ a with checks := [(l, some n)] } : Archive).lineOk l = false :=
  ⟨a.checkOf l + 1, by
    have h : ({ a with checks := [(l, some (a.checkOf l + 1))] } : Archive).checkOf l = a.checkOf l := rfl
    simp [Archive.lineOk, tget, h]⟩
/-- R236, R245, R247: an entry leaves; refresh bands; a clean sector is dropped, a dirty one poisoned; a scrub counts and poisons. -/
theorem test_memoryEvents : after (.wcbAgeExpiry 71 0) (wc false) (fun t => t.arc.wcb.isEmpty && t.fld (arcWcbStat 71) 32 32 == 1) = true ∧
    after (.hbmTempPoll 71 1 94) (put .reset [(hbmStack 71 1, 0x200#64)]) (fun t => t.fld (hbmStack 71 1) 8 2 == 2) = true ∧
    after (.hbmTempPoll 71 1 93) (put .reset [(hbmStack 71 1, 0x200#64)]) (fun t => t.fld (hbmStack 71 1) 8 2 == 1 && t.fld (hbmStack 71 1) 0 8 == 93) = true ∧
    after (.archiveParityError 71 (hi * 4 + 3)) (holdsLn (ln .M 8)) (fun t => (t.line? 71 hi).map (fun l => (l.valid, l.poison)) == some (15, 8) &&
      t.fld (arcErrStat 71) 16 16 == 1 && t.ownPoison hi 3) = true ∧
    after (.archiveParityError 71 (hi * 4 + 3)) (holdsLn (ln .E 0)) (fun t => (t.line? 71 hi).map (·.valid) == some 7 && t.fld (arcErrStat 71) 0 16 == 1 && !t.ownPoison hi 3) = true ∧
    after (.scrubRead hi 2 0) .reset (fun t => t.fld (hbmErr 71 1) 0 16 == 2 && t.fld (hbmErr 71 1) 32 16 == 1) = true ∧
    after (.scrubRead hi 3 0) { live with arc := { live.arc with mirrors := [{ a := 0, b := hi * 512, size := 512 }] } } (fun t =>
      t.fld (hbmErr 71 1) 16 16 == 1 && t.fld (arcErrStat 71) 32 16 == 1 && t.arc.checks.isEmpty && t.arc.marks.isEmpty) = true := by decide +kernel

/-! ### The mesh and its losses (12, 21) -/

/-- A flit with its CRC. -/
def flit (l : List (Nat × Nat)) : Flit :=
  let n := l.foldl (fun n e => n + e.1 * 2 ^ e.2) 0
  BitVec.ofNat 2048 (n + crc32c (toBytes 252 n) * 2 ^ 2016)
def lk : LinkRef := { site := 0, d := 1, g := 15 }
def lkOn (x : LinkX) : State := { put live [(lnkB 0 1, 0x200#64), (lnkGrp lk, 0#64)] with mesh := { links := [(linkKey lk, x)] } }
def portOn (x : LinkX) : State := { put live [(rngPort 47, 0x42#64)] with mesh := { links := [(ringKey 47, x)] } }
/-- MSG flits with sequence number 5, whose payload begins with a REDUCE packet on channel 7 of a mesh group, or with a Nimette packet
without a payload of a ring port, and one with a bad CRC. -/
def msgF : Flit := flit [(5, 0), (7, 12), (0xAB, 96)]
def ringF : Flit := flit [(5, 0), (0xAB, 96)]
def badF : Flit := msgF ^^^ 1#2048
theorem wit_MsgFlits : lk.ok = true ∧ (lkOn {}).bit (lnkB 0 1) 9 = true ∧ (lkOn {}).bit (lnkGrp lk) 14 = false ∧ fldOf msgF 10 2 = 0 ∧ fldOf msgF 32 2 = 0 ∧
    fldOf msgF 2016 32 = crc32c (toBytes 252 msgF.toNat) ∧ fldOf badF 2016 32 ≠ crc32c (toBytes 252 badF.toNat) ∧
    fldOf badF 0 10 = ((lkOn { rxSeq := 4, nakSent := true, fails := 7 }).link (linkKey lk)).rxSeq ∧ (portOn {}).portUp 47 = true ∧
    (lkOn {}).carriesVc lk 7 = true ∧ (put (lkOn {}) [(lnkB 0 1 + 8, 0x80000000#64)]).carriesVc lk 7 = false ∧ fldOf msgF 12 3 = 7 ∧
    fldOf ringF 32 2 = 0 ∧ flitGood ringF = true ∧ 7 < 8 ∧ 15 < 16 := by decide +kernel
/-- R313, R320, R321: accepted in sequence; replayed after a NAK; the eighth failed replay makes the group suspect. -/
theorem test_msgFlits : after (.meshFlit lk msgF) (lkOn { rxSeq := 5 }) (fun t => (t.link (linkKey lk)).rx == [(7, toBytes 176 0xAB)] &&
      (t.link (linkKey lk)).rxSeq == 6 && (t.link (linkKey lk)).owed == [(7, 15, 0)] && (t.link (linkKey lk)).ackDue) = true ∧
    after (.meshFlit lk msgF) (lkOn { rxSeq := 5, nakSent := true }) (fun t => t.fld (lnkGrp lk) 16 16 == 1 && !(t.link (linkKey lk)).nakSent) = true ∧
    after (.meshFlit lk msgF) (lkOn { rxSeq := 3 }) (fun t => (t.link (linkKey lk)).nakSent && (t.link (linkKey lk)).rxSeq == 3) = true ∧
    after (.meshFlit lk badF) (lkOn { rxSeq := 4, nakSent := true, fails := 7 }) (fun t => (t.link (linkKey lk)).suspect) = true ∧
    after (.ringMsgFlit 47 ringF) (portOn { rxSeq := 5 }) (fun t => (t.link (ringKey 47)).rx == [(0, toBytes 48 0xAB)] && (t.link (ringKey 47)).rxSeq == 6 &&
      (t.link (ringKey 47)).owed == [(0, 1, 0)]) = true ∧
    after (.ringMsgFlit 47 (ringF ^^^ 1#2048)) (portOn { rxSeq := 4, nakSent := true, fails := 15 }) (fun t => !t.portUp 47 && t.fld (rngPort 47) 32 2 == 2) = true := by decide +kernel
def idleF : Flit := flit [(1, 10)]
def ringIdleF : Flit := flit [(1, 32)]
/-- A LINK flit of a host port that grants 0x123 credits of channel 0 and 0x45 of its data. -/
def linkF : Flit := flit [(2, 32), (1, 96), (7, 112), (0x123, 128), (0x45, 140)]
def testF : Flit := flit [(3, 10)]
def ringTestF : Flit := flit [(3, 32)]
theorem wit_LaneWork : fldOf testF 10 2 = 3 ∧ fldOf ringTestF 32 2 = 3 ∧ fldOf idleF 10 2 = 1 ∧ fldOf ringIdleF 32 2 = 1 ∧ fldOf linkF 32 2 = 2 ∧ flitGood linkF = true ∧ flitGood idleF = true ∧
    (lkOn {}).fld (lnkGrp lk) 0 2 = 0 ∧ ((lkOn { suspect := true }).link (linkKey lk)).suspect = true := by decide +kernel
/-- R322, R323, R338: a lane is spared; a test with two failing lanes takes the group out; a LINK flit gives its credits. -/
theorem test_laneWork : after (.lanemap lk 63) (lkOn {}) (fun t => t.fld (lnkGrp lk) 0 2 == 1) = true ∧
    after (.groupTestDone lk [63]) (lkOn { suspect := true }) (fun t => !(t.link (linkKey lk)).suspect && t.fld (lnkGrp lk) 0 2 == 1) = true ∧
    after (.idleInsert lk) (lkOn { rxSeq := 1 }) (fun t => (t.link (linkKey lk)).idlesSent == 1) = true ∧
    after (.ringLinkFlit 47 linkF) (portOn {}) (fun t => tget 0 (t.link (ringKey 47)).credits 0 == 0x123 && tget 0 (t.link (ringKey 47)).dataCredits 0 == 0x45 &&
      (t.link (ringKey 47)).peer == 1 + 7 * 256) = true := by decide +kernel
def inFlight (m : CMsg) (t : MsgTy) : State := { qHeld (cmdIn .running (copyF 0)) (run1 q63 0) with net := { msgs := [(t, m)] } }
theorem wit_PastReplay : (∃ m, (MsgTy.cmt, m) ∈ (inFlight { msg 71 with run := 1 } .cmt).net.msgs ∧ m.run = 1 ∧ m.line = hi) ∧
    (∃ m, (MsgTy.log, m) ∈ (inFlight { msg 71 with run := 1 } .log).net.msgs ∧ m.run = 1 ∧ m.op.addr = 0) ∧
    (let s := inFlight (msg 71) .cmt
     (s.cmdOfRun 1).isSome = true ∧ (s.run? 1).map (·.phase) = some .running) ∧ hi * 512 < 0x0900_0000_0000 := by
  refine ⟨⟨{ msg 71 with run := 1 }, ?_⟩, ⟨{ msg 71 with run := 1 }, ?_⟩, ?_⟩ <;> decide +kernel
theorem test_pastReplay : after (.pastReplayError lk .headerBoth) (lkOn {}) (fun t => t.pwr.fatal && t.fld (lnkB 0 1 + 0x10) 32 16 == 1) = true ∧
    after (.pastReplayError lk (.otherPayload hi 8)) (lkOn {}) (fun t => t.ownPoison hi 3 && !t.ownPoison hi 2) = true ∧
    after (.pastReplayError lk (.commitPayload 1 hi 1)) (inFlight { msg 71 with run := 1 } .cmt) (fun t => t.net.msgs.map (fun (e : MsgTy × CMsg) => e.2.poison) == [1]) = true := by
  decide +kernel
/-- A REDUCE packet of source bit 0, count 0, and its partner of source bit 1. -/
def redA : RedPkt := 0#1408
/-- The packet at the output of site 71 to the router's own slice, and `n` that wait there. -/
def redAt (out : Nat) (s : State) : State := { s with mesh := { s.mesh with redOut := [(71, out, redA)] } }
def combS (n : Nat) : State := { live with mesh := { comb := List.replicate n { site := 71, out := 4, pkt := redA } } }
theorem wit_Reductions : live.redWindow 71 4 = 32 ∧ (put live [(lnkB 71 0, 0#64)]).redWindow 71 0 = 0 ∧ (live.mesh.comb.find? fun e => redMeet e.pkt redA).isSome = false ∧
    ((combS 1).mesh.comb.find? fun e => (e.site = 71 && e.out = 4) && redMeet e.pkt redA).isSome = true ∧ ((combS 64).mesh.comb.filter fun e => e.site = 71 && e.out = 4).length = 64 ∧
    (lkOn {}).edgeLive 0 1 = true ∧ ({ live with mesh := { edgeDown := [edgeKey 0 1] } } : State).edgeLive 0 1 = false ∧ (neighbour 0 1).isSome = true := by decide +kernel
theorem test_reductions : after (.reducePacket 71 4 redA) (redAt 4 live) (fun t => t.mesh.comb.length == 1 && t.mesh.redOut.isEmpty) = true ∧
    after (.reducePacket 71 4 redA) (redAt 4 (combS 1)) (fun t => t.mesh.comb.length == 1) = true ∧
    after (.mopnAck 71 5) { live with mesh := { acks := [(71, 5)], mopn := [(mopnKey 71 5, 2)] } } (fun t => tget 0 t.mesh.mopn (mopnKey 71 5) == 1 && t.mesh.acks.isEmpty) = true := by
  decide +kernel
/-- Site 1 has reported the loss of site 71; a report that reached agent 2; a lost die, a riser in use and one with a core on its way to it. -/
def lossS : State := { live with mesh := { broadcast := [(1, 71)] } }
def heardS : State := { lossS with mesh := { broadcast := [(1, 71)], reports := [(2, 1, 71)] } }
def dieLost : State := { live with pwr := { live.pwr with lostDies := [0] } }
def onRiser : State := put live [(libRiserState, 1#64)]
def movingS : State := put onRiser [(libCoreMap 0, putFld (live.reg (libCoreMap 0)) 12 4 1)]
def away (s : State) : State := { s with boot := { s.boot with absent := true } }
theorem wit_Losses : live.mapBuilt = true ∧ live.isLost 0 = false ∧ (live.coreState 0 = 0 ∧ live.coreSite 0 = 0) ∧ live.coresAt 0 ≠ [] ∧ 0 ∉ live.pwr.lostDies ∧
    0 ∈ dieLost.pwr.lostDies ∧ State.reset.mapBuilt = false ∧ live.boot.absent = false ∧ (away live).boot.absent = true ∧
    live.isLost (live.riserSite 0) = false ∧ ({ live with mesh := { lost := [live.riserSite 0] } } : State).isLost (live.riserSite 0) = true ∧
    ((List.range 256).filter fun c => c / 32 = 0 && live.coreState c = 1) = [] ∧ ((List.range 256).filter fun c => c / 32 = 0 && movingS.coreState c = 1) = [0] ∧
    live.riserState 0 ≠ 1 ∧ onRiser.riserState 0 = 1 ∧ movingS.riserState 0 = 1 ∧
    (lkOn {}).edgeUp 0 1 = true ∧ (lkOn {}).edgeLive 0 1 = true ∧ live.edgeUp 0 1 = false ∧ (1, 71) ∈ lossS.mesh.broadcast ∧ (2, 1, 71) ∉ lossS.mesh.reports ∧
    (2, 1, 71) ∈ heardS.mesh.reports ∧ (1, 71) ∉ live.mesh.broadcast ∧ lossS.isLost 2 = false ∧ ({ lossS with mesh := { lossS.mesh with lost := [2] } } : State).isLost 2 = true ∧
    lostHome.isLost 71 = true ∧ (put live [(errB 0 + 8, 2#64)]).bit (errB 0 + 8) 1 = true ∧ live.bit (errB 0 + 8) 1 = false := by decide +kernel
/-- R413, R441-R443, R26: heartbeats; a report is held; the Librarian away, a die that fails is gated and its cores stay; a failed B-die is lost. -/
theorem test_losses : after (.cdieHeartbeat 0) live (fun t => t.bit (errB 0 + 8) 4) = true ∧
    after (.siteHeartbeat 0 1) (lkOn {}) (fun t => t.bit (errB 0 + 8) 1) = true ∧
    after (.lossReport 2 1 71) lossS (fun t => t.mesh.reports == [(2, 1, 71)]) = true ∧
    after (.siteHeartbeatTimeout 0 1) (put live [(errB 0 + 8, 2#64)]) (fun t => !t.bit (errB 0 + 8) 1 && t.mesh.broadcast == [(0, 1)]) = true := by decide +kernel
theorem test_siteLosses : after (.bDieFatalError 71) live (fun t => t.isLost 71) = true := by decide +kernel
theorem test_selfTests : after (.coreSelftestReq 255) .reset (fun t => t.bit (coreSelftest 255) 0) = true ∧
    after (.selftestPartDone 255 true) (put .reset [(coreSelftest 255, BitVec.ofNat 64 (5 + 63 * 2 ^ 8))]) (fun t => t.fld (coreSelftest 255) 8 7 == 64 &&
      !t.bit (coreSelftest 255) 0 && t.fld (coreSelftest 255) 16 16 == 1) = true ∧
    after (.selftestPartDone 255 true) (put .reset [(coreSelftest 255, BitVec.ofNat 64 (5 + 62 * 2 ^ 8))]) (fun t => t.fld (coreSelftest 255) 8 7 == 63 &&
      t.bit (coreSelftest 255) 1) = true := by decide +kernel
def rep1 : Report := { cls := 1, site := 71, unit := 3, status := 2, sev := 1, reporter := 71 }
def reported (s : State) : State := { s with net := { s.net with reports := [rep1] } }
def openLog : State := { live with boot := { openEntries := [(0, rep1)] } }
theorem wit_IncidentLog : rep1.ok = true ∧ (reported openLog).boot.absent = false ∧ rep1 ∈ (reported live).net.reports ∧ rep1 ∉ live.net.reports ∧
    (reported live).boot.openEntries.find? (fun e => sameSig e.2 rep1) = none ∧ ((reported openLog).boot.openEntries.find? (fun e => sameSig e.2 rep1)).isSome = true ∧
    (({ live with errs := [(71, rep1, 2)] } : State).errs.find? (fun e => e.1 = 71 && sameSig e.2.1 rep1)).isSome = true ∧ (away live).boot.absent = true ∧
    wsub ((put live [(libIncTail, 1024#64)]).fld libIncTail 0 32) 0 = 1024 ∧ wsub ((put live [(libIncTail, 1023#64)]).fld libIncTail 0 32) 0 < 1024 := by decide +kernel
/-- R438: the 1,025th entry overwrites the oldest. -/
theorem test_incidentLog : after (.incidentReport rep1) (reported (put live [(libIncTail, 1024#64)])) (fun t => t.fld libIncTail 0 32 == 1025 && t.fld libIncHead 0 32 == 1 &&
      t.net.reports.isEmpty) = true ∧
    after (.incidentReport rep1) (reported openLog) (fun t => t.fld libIncTail 0 32 == 0) = true ∧
    after (.incidentReport rep1) openLog (fun t => decide (t = openLog)) = true ∧
    after (.libIncHeadWrite 5#64) live (fun t => t.fld libIncHead 0 32 == 5) = true := by decide +kernel

/-! ### Hosts and the fabric (13) -/

/-- Port 47 is up as the HOST port of host 0, which owns partition 0, and, with `mgr`, as the manager port. -/
def hostS (mgr : Nat) : State := put (qOn 0 1 1 1 {}) [(rngPort 47, BitVec.ofNat 64 (0x41 + mgr * 0x20)), (texB 0 + 0x30, 0x10#64)]
def busyLn : State := { hostS 0 with arc := { (hostS 0).arc with txns := [{ line := 0x3000, kind := .sole, ty := .atom, m := msg 71, need := 1 }] } }
def rdH (pa n : Nat) : QHdr := qHdr 0 9 n false 0 0 pa
def wrH (pa n : Nat) : QHdr := qHdr 1 9 n false 0 0 pa
def lastCpl (s : State) : Option (Nat × Bytes) := s.host.out.getLast?.map fun p => (qStatus p.h, p.d)
theorem wit_HostReads : (hostS 0).hostUp 47 = true ∧ qRsvOk (rdH 0x600000 4) = true ∧ fldOf (rdH 0x600000 4) 0 4 = 0 ∧ (rdH 0x600000 4).getLsbD 26 = false ∧
    fldOf (rdH 0x600000 4) 64 46 = 0x600000 ∧ isRegion (siteB 71) = true ∧ (hostS 0).regAns 47 (siteB 71) = .refused ∧
    (match (hostS 0).regAns 47 (partB 0) with | .hw _ => true | _ => false) = true ∧
    (match (hostS 1).regAns 47 (libB + 0x8010) with | .backed _ => true | _ => false) = true ∧ (hostS 1).libBusy = false ∧
    (put (hostS 1) [(libBootStatus, 2#64)]).libBusy = true ∧ (hostS 0).hostFrame 47 0x600000 false = true ∧ (hostS 0).hostFrame 47 0 false = false ∧
    busyLn.lineBusy (0x600000 / 512) = true ∧ (hostS 0).isLost (homeOf 0x600000) = false ∧
    (({ hostS 0 with host := { reads := [{ port := 47, h := rdH (siteB 71) 8, d := [] }] } } : State).heldRead 47 9 true).isSome = true ∧
    (({ busyLn with host := { reads := [{ port := 47, h := rdH 0x600000 8, d := [] }] } } : State).heldRead 47 9 false).isSome = true := by decide +kernel
/-- R302, R346: a read of a frame of the host's partition; one of an S2TABLE frame is refused; one of a busy line waits. -/
theorem test_hostReads : after (.mrd 47 (rdH 0x600000 4)) (entryAt (hostS 0) 0x600000 (toBytes 4 0x04030201)) (fun t => lastCpl t == some (0, toBytes 4 0x04030201)) = true ∧
    after (.mrd 47 (rdH 0 4)) (hostS 0) (fun t => lastCpl t == some (3, []) && t.fld (qhlStat 47) 16 16 == 1) = true ∧
    after (.mrd 47 (rdH 0x600000 4)) busyLn (fun t => t.host.reads.length == 1) = true ∧
    after (.memoryReadDeadline 47 9) { busyLn with host := { reads := [{ port := 47, h := rdH 0x600000 8, d := [] }] } } (fun t => lastCpl t == some (1, [])) = true := by
  decide +kernel
theorem wit_HostWrites : payloadOk (wrH 0x600000 4) (toBytes 4 7) = true ∧ payloadOk (wrH 0x600000 4) [] = false ∧ (hostS 0).hostFrame 47 0x600000 true = true ∧
    (addrs 0x600000 4).zip (toBytes 4 7) ≠ [] ∧ isWin 0x1000_0000_0000 = true ∧ (hostS 0).winJudge 47 0 0xFFFFC 4 = .done ∧
    (put (hostS 0) [(rngPort 47, 0x45#64)]).winJudge 47 0 0 4 = .refused ∧ (hostS 1).isManager 47 = true ∧ (hostS 0).isManager 47 = false ∧
    (hostS 0).portOwns 47 0 = true ∧ (hostS 0).portOwns 47 15 = false := by decide +kernel
theorem test_hostWrites : after (.mwr 47 (wrH 0x600000 4) (toBytes 4 7)) (hostS 0) (fun t => t.arc.rd 0x600000 == 7#8) = true ∧
    after (.mwr 47 (wrH 0 4) (toBytes 4 7)) (hostS 0) (fun t => t.fld (qhlStat 47) 16 16 == 1) = true ∧
    after (.mwr 47 (wrH 0x100000000010 4) (toBytes 4 7)) (hostS 0) (fun t => t.rdLs 0 0x10 1 == [7#8]) = true := by decide +kernel
/-- The address of a register of queue 3 of engine 6 of core 0 in its site's block. -/
def q63At (off : Nat) : Nat := siteB 0 + 0x400000 + 0x80000 + 27 * 0x1000 + off
theorem wit_RegisterWrites : regKey (qOn 0 1 1 1 {}) (q63At 0) = some (queB q63) ∧ regKey (qOn 0 1 1 1 {}) (q63At 0x20) = some (queB q63 + 0x20) ∧
    regKey (qOn 0 1 1 1 {}) (q63At 0xF8) = some (queB q63 + 0xF8) ∧ regKey (qOn 0 1 1 1 {}) (q63At (0x80 + 8 * 14)) = some (queB q63 + (0x80 + 8 * 14)) ∧
    regKey .reset (q63At 0) = none ∧ q63At 0xF8 % 8 = 0 ∧ q63At 0xF8 < libB := by decide +kernel
/-- W1C bits clear; a base holds while ENABLE = 1; a doorbell by its address; 4 bytes of a register. -/
theorem test_registerWrites : after (.registerWrite (q63At 0x48) 8 0xFFFFFFFFFFFFFFFF#64) (put (qOn 0 1 1 1 {}) [(queStatus q63, 0x70000#64)]) (fun t => t.reg (queStatus q63) == 0#64) = true ∧
    after (.registerWrite (q63At 0x08) 8 0x123456#64) (qOn 0 1 1 1 {}) (fun t => t.reg (queRingBase q63) == 0x600000#64) = true ∧
    after (.registerWrite (q63At 0x20) 8 2#64) (qOn 0 1 1 1 {}) (fun t => t.fld (queTail q63) 0 32 == 2) = true ∧
    after (.registerWrite (q63At 0x80) 4 5#64) (qOn 0 1 1 1 {}) (fun t => dF (t.q q63).sop 0 0 64 == 5) = true := by decide +kernel
def pendS : State := { hostS 0 with host := { pend := [(47, 9, .notify)] } }
def win (wr : Bool) (off : Nat) (host : Option Nat) : WinReq :=
  { slot := 0, off := off, isWrite := wr, len := 4, data := toBytes 4 7, host := host, tag := 3, q := q63, part := 0, cid := 0 }
theorem wit_HostAnswers : qRsvOk (qHdr 3 9 0 false 0 0 0) = true ∧ (pendS.hostPend 47 9).isSome = true ∧ fldOf (qHdr 3 9 0 false 6 0 0) 27 3 = 6 ∧
    (win true 0 (some 47)).ok = true ∧ (hostS 0).winJudge 47 0 0 4 = .done ∧ (hostS 0).winJudge 47 0 0xFFFFD 4 = .beyond 0 ∧
    (put (hostS 0) [(texB 0, 0x8000#64)]).winJudge 47 0 0 4 = .maint 0 ∧ (hostS 0).winRefuse 0 0 0 0 4 = none ∧ (hostS 0).winRefuse 1 0 0 0 4 = some 0x21 := by decide +kernel
theorem test_hostAnswers : after (.windowRequest (win true 0x10 (some 47))) (hostS 0) (fun t => t.rdLs 0 0x10 1 == [7#8]) = true ∧
    after (.windowRequest (win false 0xFFFFD (some 47))) (hostS 0) (fun t => t.fld (coreLsStat 0) 0 16 == 1 && lastCpl t == some (0, toBytes 4 0)) = true ∧
    after (.windowRequest (win true 0x10 none)) (hostS 0) (fun t => t.rdLs 0 0x10 1 == [7#8]) = true ∧
    after (.cpl 47 (qHdr 3 9 0 false 0 0 0) []) pendS (fun t => t.host.pend.isEmpty) = true ∧
    after (.msg 47 (qHdr 4 9 0 false 0 0 0) []) (hostS 0) (fun t => t.fld (qhlStat 47) 16 16 == 1) = true := by decide +kernel
/-- A packet of type `ty` from device 5 on its flow 6, and its CRC. -/
def nh (f : NF) : NHdr := ({ f with dst := 0, src := 5, flow := 6, epoch := 3, keeper := 23 } : NF).enc
def crcOf (h : NHdr) (d : Bytes) : W32 := BitVec.ofNat 32 (crc32c (toBytes 32 h.toNat ++ d))
/-- Port 46 of ring die 23 is a FABRIC port that is up, on the route to device 5. -/
def fabS : State := put (hostS 0) [(rngPort 46, 0x42#64), (nfbRoute 23 5, 0x400000000000#64)]
def recvS (next : Nat) : State := { fabS with fab := { recvs := [(recvKey 23 5 6, some { epoch := 3, next := next, unacked := 0 })] } }
def unackd (n : Nat) : List (NPkt × FabUse) := (List.range n).map fun i => ({ port := 46, h := ({ dst := 5, flow := 6, epoch := 3, keeper := 23, psn := i } : NF).enc, d := [] }, .response)
def flow0 (st : FlowState) (n : Nat) : Flow := { dev := 5, state := st, epoch := 3, keeper := 23, unacked := unackd n }
def flowS (st : FlowState) (n : Nat) : State := { fabS with fab := { flows := [(flowKey 23 6, some (flow0 st n))] } }
theorem wit_Flows : (crcOf (nh { ty := 1 }) []).toNat = crc32c (toBytes 32 (nh { ty := 1 }).toNat ++ []) ∧ (nfOf (nh { ty := 1 })).dst = fabS.panelNo ∧
    fabS.recv? (recvKey 23 5 6) = none ∧ ((recvS 0).recv? (recvKey 23 5 6)).map (·.epoch) = some 3 ∧
    ((flowS .opening 0).myFlow 6 5).map (fun e => (e.2.epoch, e.2.state)) = some (3, .opening) ∧ ((flowS .opened 2).flow? (flowKey 23 6)).map (·.unacked.length) = some 2 ∧
    cntDiff 16 0 0xFFFF = 1 ∧ cntDiff 16 0xFFFF 0 = -1 := by decide +kernel
/-- R356, R357: OPEN makes a context and is acknowledged; ACK frees what it covers; the timer sends again. -/
theorem test_flows : after (.openFlow 23 (nh { ty := 1 }) [] (crcOf (nh { ty := 1 }) [])) fabS (fun t => ((t.recv? (recvKey 23 5 6)).map (·.next)) == some 0 &&
      t.fab.out.map (fun p => (p.port, (nfOf p.h).ty, (nfOf p.h).dst)) == [(46, 2, 5)]) = true ∧
    after (.ack 23 (nh { ty := 3, psn := 0 }) [] (crcOf (nh { ty := 3, psn := 0 }) [])) (flowS .opened 2) (fun t => ((t.flow? (flowKey 23 6)).map (·.unacked.length)) == some 1) = true ∧
    after (.retransmitTimer 23 6) (flowS .opened 2) (fun t => t.fab.out.length == 2 && t.fld (nfbStat 23) 0 16 == 1) = true ∧
    after (.flowGiveup 23 6) (flowS .opened 2) (fun t => (t.flow? (flowKey 23 6)).isNone) = true ∧
    after (.flowIdleExpiry 23 6) (flowS .opened 0) (fun t => (t.flow? (flowKey 23 6)).isNone && t.fab.out.map (fun p => (nfOf p.h).ty) == [4]) = true := by decide +kernel
/-- Frame 3 lets other panels read, write and operate; the fabric admits devices 0 to 15 from partition 0 to partition 0. -/
def admitS : State := put (recvS 7) [(arcFrame 0 3, 0x3C00001#64), (nfbAdmit 23 63, BitVec.ofNat 64 (1 + 2 ^ 5 + 15 * 2 ^ 33))]
def pkt (ty sub : Nat) : NHdr := nh { ty := ty, psn := 7, sub := sub, addr := 0x600000 }
def takenS : State := admitS.setRecv (recvKey 23 5 6) (some { epoch := 3, next := 8, unacked := 1 })
theorem wit_PanelPackets : Arrives admitS 22 (pkt 0x10 1) [] (crcOf (pkt 0x10 1) []) takenS 23 ∧ takenS.nJudge 23 (nfOf (pkt 0x10 1)) 0 512 = 0 ∧
    takenS.nJudge 23 (nfOf (pkt 0x11 1)) 1 512 = 0 ∧ takenS.nJudge 23 (nfOf (pkt 0x12 0)) 2 4 = 0 ∧
    (recvS 7).nJudge 23 (nfOf (pkt 0x10 1)) 0 512 = 1 ∧
    (({ takenS with fab := { takenS.fab with gets := [{ dev := 5, obj := 0, offset := 0, length := 16, pa := 0x600000, part := 0, cid := 0, p := 0, k := 0, submit := 0, batch := 0 }] } }
      : State).getFor (nfOf (pkt 0x21 0)) 16).isSome = true ∧ takenS.frameOk 0 0x600000 0 0 2 1 = true := by
  refine ⟨⟨by decide +kernel, by decide +kernel, by decide +kernel, ⟨{ epoch := 3, next := 7, unacked := 0 }, by decide +kernel⟩⟩, ?_⟩
  decide +kernel
/-- R353, R356: RD is answered with its sector, and out of sequence is dropped; an object request is UNSUPPORTED. -/
theorem test_panelPackets : after (.rd 22 (pkt 0x10 1) [] (crcOf (pkt 0x10 1) [])) admitS (fun t => ((t.recv? (recvKey 23 5 6)).map (·.next)) == some 8) = true ∧
    after (.rd 22 (pkt 0x10 1) [] (crcOf (pkt 0x10 1) [])) (recvS 6) (fun t => ((t.recv? (recvKey 23 5 6)).map (·.next)) == some 6 && t.fab.out.isEmpty) = true ∧
    after (.atOp 22 (pkt 0x12 0) (toBytes 8 5) (crcOf (pkt 0x12 0) (toBytes 8 5))) admitS (fun t => t.arc.rd 0x600000 == 5#8) = true := by decide +kernel
theorem wit_atomAnswers : (fly .atomRsp (msg 0) live).arrives .atomRsp (msg 0) = true ∧ live.arrives .atomRsp (msg 0) = false := by decide +kernel
theorem test_atomAnswers : after (.atomRsp { msg 0 with dest := .mopn 1, status := 0x31 }) (fly .atomRsp { msg 0 with dest := .mopn 1, status := 0x31 } <| qHeld (cmdIn .running (copyF 0)) (run1 q63 1)) (fun t => ((t.run? 1).map (·.siteLost)) == some true) = true ∧
    (let m : CMsg := { msg 0 with dest := .lane 0 0 0 3 1, old := 9, op := { sub := 0, size := 4, addr := 0, val := 0, cmp := 0 } };
     after (.atomRsp m) (fly .atomRsp m (withGroup 0 { group0 with await := 1 })) (fun t => ((t.grp? g0).map fun g => (g.rdV 3 0, g.await)) == some (9#32, 0))) = true := by
  decide +kernel

/-! ### Service rings, mailbox and partitions (14, 15, 16) -/

/-- Service ring 3 of partition 0, enabled, in a state, with a submission ring of 16 requests. -/
def svcS (st head tail : Nat) (x : SvcX) : State :=
  { put live [(svcB 0 3, BitVec.ofNat 64 (1 + 4 * 2 ^ 8 + 4 * 2 ^ 16)), (svcB 0 3 + 0x08, 0x600000#64), (svcB 0 3 + 0x18, 0x680000#64),
      (svcB 0 3 + 0x48, BitVec.ofNat 64 st), (svcB 0 3 + 0x28, BitVec.ofNat 64 head), (svcB 0 3 + 0x20, BitVec.ofNat 64 tail)] with
    svc := { rings := [(3, x)] } }
def stageD : Desc := dsc [(0x7A, 0), (5, 320), (0x610000, 384), (2, 448), (1, 480), (0x600000, 512), (0x1000, 576), (0x620080, 640), (0x620000, 704)]
def waitD : Desc := dsc [(0x7A, 0), (1, 10), (0x630000, 64), (1, 128)]
theorem wit_ServiceRings : (svcS 0 0 0 {}).svcEnabled 0 3 = true ∧ (svcS 0 0 0 {}).partState 0 = 1 ∧
    wsub 16 ((svcS 0 0 0 {}).fld (svcB 0 3 + 0x28) 0 32) ≤ 2 ^ (svcS 0 0 0 {}).fld (svcB 0 3) 8 5 ∧ (svcS 5 0 0 {}).svcState 0 3 = 5 ∧
    (svcS 6 0 0 {}).svcState 0 3 = 6 ∧ (∃ r ∈ ((svcS 0 1 1 { reqs := [(0, waitD)] }).svcX 0 3).reqs, r.1 = 0) ∧ waitD.getLsbD 10 = true ∧
    (svcS 0 1 1 { reqs := [(0, waitD)] }).svcFree 0 3 ≠ 0 ∧ wsub 0 1 ≥ wsub 1 1 ∧ ((svcS 0 0 1 {}).svcX 0 3).aborts.length < 16 := by decide +kernel
/-- R361: 17 requests do not fit a ring of 16; the abort of a request accepted waits for it; of one not posted it has no effect. -/
theorem test_serviceRings : after (.svcTail 0 3 17#64) (svcS 0 0 0 {}) (fun t => t.fld (svcB 0 3 + 0x20) 0 32 == 0 && t.fld (svcB 0 3 + 0x48) 32 16 == 1) = true ∧
    after (.svcCfgWrite 0 3 0x1F1F00#64) (svcS 8 0 0 {}) (fun t => t.fld (svcB 0 3) 8 5 == 4 && t.svcState 0 3 == 0) = true ∧
    after (.svcCfgWrite 15 3 0x1F1F00#64) live (fun t => t.fld (svcB 15 3) 8 5 == 12 && t.fld (svcB 15 3) 16 5 == 16) = true ∧
    after (.svcAbort 0 3 0) (svcS 5 0 1 {}) (fun t => (t.svcX 0 3).aborts == [0]) = true ∧
    after (.svcAbort 0 3 1) (svcS 5 0 1 {}) (fun t => (t.svcX 0 3).aborts == []) = true := by decide +kernel
/-- A clerk operation of STAGE on ring 3, with port 46 up for device 5. -/
def op0 : ClerkOp := { p := 0, k := 3, submit := 0, req := stageD, step := .batches, lead := 23 }
def staging (o : ClerkOp) : State :=
  let s := put (svcS 0 1 1 {}) [(rngPort 46, 0x42#64), (nfbRoute 23 5, BitVec.ofNat 64 (2 ^ 46))]
  let s : State := { s with svc := { s.svc with ops := [o] } }
  (s.writeVa (s.clerkWho 0 3 23) 0x610000 (toBytes 24 (7 + 0x1000 * 2 ^ 128)) 0).1
theorem wit_ServiceOperations : (let u := (svcS 0 1 1 { reqs := [(0, stageD)] }).svcFetch 0 3
      u.svcHeld 0 3 0x7A = some (0, stageD) ∧ u.svcMayStart 0 3 = true ∧ u.findLead = some (0, 0) ∧ (u.svcWait (u.clerkWho 0 3 0) stageD).2 = .ready ∧
      (u.clerkRanges (u.clerkWho 0 3 0) (stageRanges stageD)).2.isNone = true) ∧
    ((svcS 0 1 1 {}).svcFetch 0 3).svcHeld 0 3 0x7A = none := by decide +kernel
theorem wit_StageBatches : (staging op0).stageOp 0 3 0 = some op0 ∧
    (let s := staging op0
     let w := s.clerkWho 0 3 23
     hasOk (s.readNum w 0x620000 8) (fun f => f == 0) = true ∧ hasOk (s.readVa w .read 0x610000 32 0) (fun bs => ofBytes (bs.drop 16) == 0x1000) = true ∧
     (s.keeperFor (ringSite (op0.dieOf 0 2)) 5).isSome = true ∧
     (match (s.physRuns w .write (0x1000 / 65536 + 2) 0x600000 0x1000 []).2 with | .ok r => decide (r = [(0x600000, 0x1000)]) | _ => false) = true) ∧
    sgSlots stageD = 1 ∧ (staging { op0 with next := 1 }).stageOp 0 3 0 = some { op0 with next := 1 } := by decide +kernel
/-- A clerk operation of F_ALLREDUCE with inputs of a DTYPE on ring 3. -/
def opC (dtype : Nat) : ClerkOp := { op0 with req := dsc [(0x70, 0), (2, 672), (dtype, 704)], step := .added }
/-- R365: two sectors of FP32 words travel in two REDUCE packets, which hold a later read of them; INT32 words as ATOM messages, each of
which is acknowledged before the sum is read. -/
theorem test_clerkAdds :
    (let s := staging (opC 0)
     let w := s.clerkWho 0 3 23
     let r := s.clerkAdd (opC 0) w 0x600040 (List.replicate 128 1#8)
     r.1.mesh.redOut.map (fun e => (rAddr e.2.2, rMask e.2.2, rWord e.2.2 16, rCount e.2.2)) = [(0x600000, 0xFFFF0000, 0x01010101, 1), (0x600080, 0xFFFF, 0, 1)] ∧
     (match (r.1.readVa w .read 0x600080 4 0).2 with | .wait => true | _ => false) = true) ∧
    (let s := staging (opC 2)
     let r := (s.clerkAdd (opC 2) (s.clerkWho 0 3 23) 0x600000 (toBytes 8 5)).1
     let m : CMsg := { msg 0 with dest := .clerk 0 3 0 }
     r.svc.ops.map (·.adds) = [2] ∧ (r.net.msgs.filter fun e => e.1 == .atom).map (fun e => (e.1, e.2.op.addr, e.2.op.val)) = [(.atom, 0x600000, 5#64), (.atom, 0x600004, 0#64)] ∧
     after (.atomRsp m) (fly .atomRsp m r) (fun t => t.svc.ops.map (·.adds) == [1]) = true) := by decide +kernel
/-- R375: batch 0 starts at once with FREED = 0 and one slot, batch 1 waits; a batch that lands raises FILLED. -/
theorem test_stageBatches : after (.stageBatchStart 0 3 0) (staging op0) (fun t => t.svc.ops.map (fun (o : ClerkOp) => (o.next, o.started)) == [(1, [0])] &&
      t.fab.gets.map (fun (g : ObjGet) => (g.obj, g.length, g.pa)) == [(7, 0x1000, 0x600000)]) = true ∧
    after (.stageBatchStart 0 3 0) (staging { op0 with next := 1 }) (fun t => t.svc.ops.map (fun (o : ClerkOp) => (o.next, o.started)) == [(1, [])]) = true ∧
    after (.stageBatchLanded 0 3 0 0) (staging { op0 with next := 1, started := [0] }) (fun t => t.svc.ops.map (fun (o : ClerkOp) => (o.filled, o.started)) == [(1, [])] &&
      t.arc.rd 0x620080 == 1#8) = true := by decide +kernel
/-- The command of count 255 in mailbox slot 255, with its arguments; partition 0 in a state. -/
def mb (st code : Nat) (args : List Nat) : State :=
  (put live [(libMbDone, 255#64), (libMbHead, 255#64), (libMbTail, 256#64), (libPartState 0, BitVec.ofNat 64 st), (fusSec, BitVec.ofNat 64 (16 * 2 ^ 48)), (rngPort 47, 0x41#64)]).mbxWr
    (mbSlot 255) (toBytes 8 code ++ args.flatMap (toBytes 8))
/-- The command can be taken, and what it answers: the status and the first bits of its result. -/
def taken (st code : Nat) (args : List Nat) : Bool :=
  let s := mb st code args
  s.libWorks && decide (s.mbAt 255 = some 255) && !s.mbBusy 255 && s.mbFree 255 && decide (s.mbCode 255 = code) && s.mbRsvOk 255
def answers (c : Nat → Instr) (s : State) (status : Nat) : Bool :=
  after (c 255) s fun t => decide (t.mbxNum (mbSlot 255 + 0x28) 1 = status) && decide (t.fld libMbDone 0 32 = 256)
theorem wit_PanelCommands : taken 1 0x01 [] = true ∧ taken 1 0x10 [0, 65] = true ∧ taken 1 0x20 [] = true ∧ taken 1 0x40 [0, 5, 2 ^ 46] = true ∧ taken 1 0x41 [0, 63, 2 ^ 45] = true ∧
    (mb 1 0x77 []).mbCode 255 ∉ mbCodes ∧ wsub 512 255 = 257 := by decide +kernel
theorem test_panelCommands : answers .ping (mb 1 0x01 []) 0 = true ∧ answers .rollbackAdvance (mb 1 0x10 [0, 65]) 1 = true ∧
    answers .rollbackAdvance (mb 1 0x10 [0, 0]) 0 = true ∧ answers .admitSet (mb 1 0x41 [0, 63, 2 ^ 45]) 1 = true ∧ answers .admitSet (mb 1 0x41 [0, 63, 2 ^ 45 - 1]) 0 = true ∧
    answers .routeSet (mb 1 0x40 [0, 5, 2 ^ 47]) 1 = true ∧ answers .mailboxBadCode (mb 1 0x77 []) 4 = true ∧
    after (.libMbTailWrite 512#64) (mb 1 0 []) (fun t => t.fld libMbTail 0 32 == 256 && t.fld libHealth 32 16 == 1) = true := by decide +kernel
theorem wit_PartitionGrants : taken 0 0x100 [0, 2] = true ∧ (mb 0 0x100 [0, 2]).sitesFree ((mb 0 0x100 [0, 2]).argSites 255) = true ∧ (mb 1 0x100 [0, 1]).sitesFree ((mb 1 0x100 [0, 1]).argSites 255) = false ∧
    ((mb 0 0x100 [0, 2]).hostPort 0).isSome = true ∧ (mb 0 0x100 [0x70, 2]).hostPort 7 = none ∧ taken 1 0x101 [0, 2] = true ∧ taken 1 0x102 [0] = true ∧
    taken 1 0x108 [0, 0xA00000, 1, 0x400001] = true ∧ (mb 1 0x108 []).fld (arcFrame 0 5) 0 2 = 0 ∧ (mb 1 0x108 []).ownsSite 0 0 = true ∧
    taken 1 0x110 [0, 0x300, 257] = true ∧ (mb 1 0x110 []).rateSum 0 1 0 257 = 257 ∧ taken 1 0x30 [0, 0x10000] = true ∧ (mb 1 0x30 []).frameS2 0 0x10000 0 = true ∧
    (mb 1 0x30 []).frameS2 0 0x600000 0 = false ∧ taken 1 0x31 [0] = true := by decide +kernel
theorem test_partitionGrants : answers .partCreate (mb 1 0x100 [0, 2]) 2 = true ∧ answers .partCreate (mb 0 0x100 [0, 0]) 1 = true ∧
    answers .partSetHost (mb 1 0x102 [0]) 0 = true ∧ answers .partSetHost (mb 1 0x102 [0x70]) 1 = true ∧
    after (.frameAssign 255) (mb 1 0x108 [0, 0xA00000, 1, 0x400001]) (fun t => t.reg (arcFrame 0 5) == 0x400001#64 && t.fld (libPartState 0) 32 32 == 1) = true ∧
    answers .frameAssign (mb 1 0x108 [0, 0x600000, 1, 0x400001]) 1 = true ∧ answers .partRegulate (mb 1 0x110 [0, 0x300, 257]) 3 = true ∧
    answers .partRegulate (mb 1 0x110 [0, 0x300, 256]) 0 = true ∧ answers .s2RootSet (mb 1 0x30 [0, 0x600000]) 1 = true ∧ answers .s2RootSet (mb 1 0x30 [0, 0x10000]) 0 = true := by
  decide +kernel
theorem wit_PartitionQuiesce : taken 1 0x118 [0] = true ∧ taken 2 0x119 [0, 1] = true ∧ taken 3 0x11A [0] = true ∧ taken 4 0x11B [0] = true ∧ taken 2 0x11C [0] = true ∧
    taken 10 0x11C [0] = true ∧ (mb 10 0x11C [0]).partFatal 0 = true ∧ (({ live with parts := [(0, { drain := some 255 })] } : State).part 0).drain = some 255 ∧
    (({ live with parts := [(0, { release := some 255, freed := [3] })] } : State).part 0).release = some 255 ∧ live.drained 0 = true := by decide +kernel
/-- The flush of partition 0, with a write-back for it on its way or none. -/
def flushS (pend : Bool) (flush : Option Nat) : State :=
  { mb 3 0x11A [0] with parts := [(0, { flush := flush })], host := { pend := if pend then [(0, 0, .writeBack 0 0 0)] else [] } }
theorem wit_PartitionFlush : ((flushS true none).flushPart 0).partWritesBack 0 = true ∧ ((flushS false none).flushPart 0).partWritesBack 0 = false ∧
    ((flushS false (some 255)).part 0).flush = some 255 ∧ (flushS true (some 255)).mbBusy 255 = true := by decide +kernel
/-- R387, R389: PART_FLUSH completes when the write-backs have been acknowledged. -/
theorem test_partitionFlush : after (.partFlush 255) (flushS true none) (fun t => decide ((t.part 0).flush = some 255) && t.partState 0 == 3) = true ∧
    after (.partFlush 255) (flushS true (some 255)) (fun t => t.partState 0 == 3) = true ∧
    after (.partFlush 255) (flushS false (some 255)) (fun t => t.partState 0 == 4 && t.fld libMbDone 0 32 == 256) = true ∧
    answers .partFlush (flushS false none) 0 = true := by decide +kernel
theorem test_partitionQuiesce : answers .partStop (mb 1 0x118 [0]) 0 = true ∧ answers .partStop (mb 2 0x118 [0]) 2 = true ∧
    after (.partDrain 255) (mb 2 0x119 [0, 0]) (fun t => decide ((t.part 0).drain = some 255)) = true ∧
    after (.partDrained 0) { mb 2 0x119 [0, 0] with parts := [(0, { drain := some 255 })] } (fun t => t.partState 0 == 3 && t.fld libMbDone 0 32 == 256) = true ∧
    answers .partResume (mb 10 0x11C [0]) 2 = true ∧ answers .partResume (mb 2 0x11C [0]) 0 = true := by decide +kernel

/-! ### Images, start, power and flask (16, 17, 19, 20) -/

/-- The boot port is port 0, STATE is `st`. -/
def bootS (st : Nat) : State := put .reset [(libBootStatus, BitVec.ofNat 64 (st + 2 ^ 22))]
/-- A Librarian image with a right header: no body, SVN 3, for variant 1 and revision A0. -/
def img : Image :=
  [(0, 0x4C#8), (1, 0x49#8), (2, 0x42#8), (3, 0x52#8), (4, 1#8), (5, 3#8), (6, 1#8), (8, 0x40#8), (9, 0x15#8), (12, 0x40#8), (0x10, 2#8), (0x11, 0xA0#8)]
theorem wit_Images : (bootS 1).bootState = 1 ∧ (bootS 1).bit libBootStatus 22 = true ∧ (bootS 1).fld libBootStatus 16 6 = 0 ∧
    (put .reset [(libBootStatus, 1#64)]).bit libBootStatus 22 = false ∧ (put .reset [(libBootStatus, 1#64), (rngPort 0, 0x41#64)]).portUp 0 = true ∧ State.reset.portUp 0 = false ∧ State.reset.bit fusSec 0 = true ∧ State.reset.bit fusSec 47 = false ∧
    ({ bootS 2 with boot := { from_ := 1 } } : State).verify [] 1 = some (1, 0) ∧ (bootS 4).verify [] 2 = some (1, 0) := by decide +kernel
/-- R398, R399, R401: LOAD_LIB in WAIT_LIB; LOAD_MOULD there is BAD_ORDER; a bad header sends STATE back with ERROR 1. -/
theorem test_images : after (.loadLib 0) (bootS 1) (fun t => t.bootState == 2) = true ∧ after (.loadMould 0) (bootS 1) (fun t => t.bootState == 1 && t.fld libBootStatus 4 4 == 10) = true ∧
    after (.loadLib 47) (bootS 1) (fun t => t.bootState == 1 && t.fld (qhlStat 47) 16 16 == 1) = true ∧
    after (.loadWindowWrite 0 0x7FFFFF [1#8, 2#8]) (bootS 1) (fun t => t.boot.mbx == [(0xFFFFFF, 1#8)]) = true ∧
    after .imageVerified { bootS 2 with boot := { from_ := 1, image := [(5, 1#8)] } } (fun t => t.bootState == 1 && t.fld libBootStatus 4 4 == 1 &&
      t.fld libBootStatus 48 8 == 1 && t.boot.image.isEmpty) = true := by decide +kernel
/-- The header and the target pass, an SVN of 65 does not, and another revision is another target. The outcome of the keys and the
signatures is that of the functions of Config, which no proof sees: the statement takes both outcomes of each. -/
theorem wit_VerifierOrder : headerOk img 1 = true ∧ headerOk img 2 = false ∧ headerOk ((img.filter fun e => e.1 ≠ 5) ++ []) 1 = true ∧ State.reset.targetOk img = true ∧
    State.reset.targetOk (img.filter fun e => e.1 ≠ 0x11) = false ∧ imgSvn img = 3 ∧ State.reset.floor = 0 ∧
    (∀ b : Bool, b = false ∨ b = true) := by decide +kernel
def powered : State := { State.reset with pwr := { standby := true, inRange := true, pwrEn := true, pwrGood := true } }
/-- The edge between sites 0 and 1 with the same roles at both ends. -/
def edgeS (r : Nat) : State :=
  put live [(lnkB 0 1, 0x200#64), (lnkB 1 3, 0x200#64), (lnkB 0 1 + 8, BitVec.ofNat 64 (r * (2 ^ 32 + 1))), (lnkB 1 3 + 8, BitVec.ofNat 64 (r * (2 ^ 32 + 1)))]
theorem wit_Starts : powered.pwr.resetN = false ∧ powered.pwr.refPresent = true ∧ live.pwr.resetN = true ∧ live.bootState = 6 ∧ (bootS 5).bootState = 5 ∧
    (bootS 5).boot.absent = false ∧ (bootS 5).pwr.fatal = false ∧ ({ live with boot := { absent := true, restarts := [0, 1, 2] } } : State).boot.absent = true ∧
    live.cyc < ([0, 1, 2] : List Nat)[0]?.getD 0 + 10 * secCycles ∧ live.isLost 71 = false ∧ (edgeS 0x95000000).groupLive lk = true ∧
    (farEnd lk.site lk.d).isSome = true ∧ (edgeS 0x95000000).fld (lnkGrp lk) 0 2 = 0 ∧ [StartFail.lanes lk [40, 63], .port 47, .stack 71 1, .die 8 5].all StartFail.ok = true := by
  decide +kernel
/-- R448: two lanes take the spares, a third puts the group OUT and the next CTRL group serves; a port is down with CAUSE 3, a stack loses
its site. -/
theorem test_training : (let t := (edgeS 0x95000000).trainFirst [.lanes lk [40, 63]];
      t.fld (lnkGrp lk) 0 16 == 2 + 40 * 4 + 63 * 256 && t.mesh.trains.length == 2 && t.net.reports.length == 1) = true ∧
    (let t := (edgeS 0x95000000).trainFirst [.lanes lk [40, 63, 0]];
      t.bit (lnkGrp lk) 14 && t.bit (lnkGrp { site := 1, d := 3, g := 15 }) 14 && t.fld (lnkB 0 1 + 8) 0 32 == 0xD5800000 &&
      t.fld (lnkB 1 3 + 8) 32 32 == 0xD5800000) = true ∧
    (let t := (edgeS 0x80000000).trainFirst [.lanes lk [40, 63, 0]];
      t.fld (lnkB 0 1 + 8) 0 32 == 0xE0000000 && t.fld (lnkB 1 3 + 8) 32 32 == 0xE0000000) = true ∧
    (let t := (put live [(rngPort 47, 0x41#64)]).trainFirst [.port 47];
      !t.portUp 47 && t.fld (rngPort 47) 32 2 == 3 && t.net.reports.length == 2) = true ∧
    (live.trainStacks [.stack 71 1]).isLost 71 = true := by decide +kernel
theorem test_starts : after (.panelResetRise []) { powered with pwr := { powered.pwr with refPresent := false } } (fun t => t.pwr.resetN && !t.pwr.pllLocked && t.bootState == 0) = true ∧
    after .panelResetFall { live with pwr := { live.pwr with pwrGood := true } } (fun t => t.bootState == 0 && t.arc.mem.isEmpty && !t.pwr.resetN) = true ∧
    after .libRestartDone { live with boot := { absent := true, queuedWrites := [(libIncHead, 8, 5#64)] } } (fun t => !t.boot.absent && t.fld libIncHead 0 32 == 5) = true := by
  decide +kernel
theorem wit_PowerSupply : ({ powered with pwr := { powered.pwr with pwrEn := false, pwrGood := false } } : State).tripped = false ∧ powered.pwr.standby = true ∧
    (put powered [(mgmtB 2, 8#64)]).tripped = true ∧ live.pwr.refPresent = true ∧ live.pwr.pllLocked = true ∧
    ({ live with pwr := { live.pwr with refHeld := true } } : State).pwr.refHeld = true := by decide +kernel
/-- R420, R423: the input out of its range takes PWR_GOOD away, and with it all work; loss of the reference past its time is PANEL_FATAL. -/
theorem test_powerSupply : after (.powerDown .inputOut) live (fun t => !t.pwr.pwrGood && t.pwr.pwrEn && t.arc.mem.isEmpty && t.pwr.gatedDies.length == 72) = true ∧
    after .pwrEnRise { State.reset with pwr := { standby := true } } (fun t => t.pwr.pwrEn && t.pwr.pending && !t.pwr.pwrGood) = true ∧
    after .inputEntersRange { State.reset with pwr := { standby := true, pwrEn := true, pending := true } } (fun t => t.pwr.pwrGood && !t.pwr.pending) = true ∧
    after .refclkLossTimeout { live with pwr := { live.pwr with refHeld := true } } (fun t => t.pwr.fatal) = true ∧
    after (.pllLockLoss 71) live (fun t => t.isLost 71) = true := by decide +kernel
/-- A part whose core clock has the ceiling of step 1 (CK_CEIL_DIV 10). -/
def slower : State := put .reset [(fusPartId, 0x0000000A_001E_A0_02#64)]
theorem wit_ClockSteps : slower.ceilStep = 1 ∧ State.reset.ceilStep = 0 ∧ (put .reset [(ckgHalf 71 1, 0x100#64)]).bit (ckgHalf 71 1) 8 = true ∧ State.reset.bit (ckgHalf 71 1) 8 = false := by decide +kernel
/-- R1, R425: a slower request begins a change; the next waits for its end; one above the ceiling is counted. -/
theorem test_clockSteps : after (.ckgHalfWrite 71 1 2#64) .reset (fun t => t.fld (ckgHalf 71 1) 0 2 == 2 && t.fld (ckgHalf 71 1) 6 2 == 2 && t.bit (ckgHalf 71 1) 8 && t.stepOf 71 1 == 2) = true ∧
    after (.ckgHalfWrite 71 1 3#64) (put .reset [(ckgHalf 71 1, 0x102#64)]) (fun t => t.fld (ckgHalf 71 1) 0 2 == 3 && t.stepOf 71 1 == t.ceilStep) = true ∧
    after (.stepChangeDone 71 1) (put .reset [(ckgHalf 71 1, 0x103#64)]) (fun t => t.stepOf 71 1 == 3 && t.fld (ckgStat 71) 48 16 == 1) = true ∧
    after (.ckgHalfWrite 71 1 0#64) slower (fun t => t.fld (ckgHalf 71 1) 0 2 == 0 && t.fld (ckgHalf 71 1) 6 2 == 1 && t.fld (ckgStat 71) 0 16 == 1) = true := by decide +kernel
def deferredS : State := put (qOn 0 1 1 1 { cmds := [{ queued [(0x40, 0), (100, 192)] with deferred := true }] }) [(ldgCfg 0 0, 50#64), (ldgAcct 0 0, 70#64)]
theorem wit_LedgerFrames : live.pwr.pllLocked = true ∧ (deferredS.head q63).map (·.deferred) = some true ∧ live.head q63 = none ∧
    (deferredS.modCmd q63 { queued [(0x40, 0), (100, 192)] with deferred := true } fun c => { c with deferred := false }).ledgerAdmit q63 100 = none := by decide +kernel
/-- R431: USED gives up the budget of 50, and the head is deferred again. -/
theorem test_ledgerFrame : after (.ledgerFrameBoundary 71 15) (put live [(ldgCfg 71 15, 50#64), (ldgAcct 71 15, 70#64)]) (fun t => t.fld (ldgAcct 71 15) 0 32 == 20) = true := by decide +kernel
theorem wit_PowerMonitors : (List.replicate 12 100).length = 12 ∧ live.pwr.pwrGood = true ∧ live.pwr.standby = true ∧ live.envelope12 < 12 * 1000000 ∧
    1200 * 0 < 95 * live.envelope12 ∧ (List.replicate 8 105).length = 8 := by decide +kernel
/-- R418, R432, R433: a tab at 0.79 of the mean is out of service; the tenth hot poll lowers the step of the half. -/
theorem test_powerMonitors : after (.tabCheck (79 :: List.replicate 11 102)) live (fun t => t.pwr.tabs == 0xFFE#12 && t.fld pwrPanelIn 48 12 == 0xFFE) = true ∧
    after (.thermalPoll 71 1 [0, 0, 0, 0, 0, 0, 0, 105]) { live with pwr := { live.pwr with therm := [(143, 9, 0)] } } (fun t => t.fld (ckgHalf 71 1) 2 2 == 1 &&
      t.fld (ckgStat 71) 16 16 == 1) = true := by decide +kernel
/-- R434: a stack trips at 105 °C, a B-die at 114 °C does not. -/
theorem test_thermalTrips : (Sensor.stack 71 1).ok = true ∧ after (.thermalTrip (.stack 71 1) 105) live (fun t => t.tripped && !t.pwr.pwrGood && t.fld (mgmtB 3) 0 2 == 3 &&
      t.bit (mgmtB 3) 2 && t.fld (mgmtB 4) 0 7 == 71 && t.fld (mgmtB 5) 0 8 == 105) = true ∧
    after (.thermalTrip (.bdie 71) 114) live (fun t => !t.tripped && t.pwr.pwrGood) = true ∧
    after .tripClr (put live [(mgmtB 2, 8#64)]) (fun t => !t.tripped) = true ∧
    after .tripClr { put live [(mgmtB 2, 8#64)] with pwr := { live.pwr with temps := [(sensorKey (.stack 71 1), 96)] } } (fun t => t.tripped) = true := by decide +kernel
theorem wit_FlaskPins : State.reset.pwr.standby = false ∧ live.pwr.standby = true ∧ (put live [(mgmtB 0x20, 2#64)]).bit (mgmtB 0x20) 1 = true ∧
    (∃ c : W8, (some 0xB0#8 : Option W8) = some c ∧ c.toNat = pecOf [2 * live.smbAddr, 0xFF, 0]) ∧
    ({ live with pwr := { live.pwr with jtagReset := false } } : State).pwr.jtagReset = false ∧ live.bit fusSec 53 = true := by
  refine ⟨by decide +kernel, by decide +kernel, by decide +kernel, ⟨_, rfl, ?_⟩, by decide +kernel, by decide +kernel⟩
  decide +kernel
theorem test_flaskPins : after (.standbyUp true false) .reset (fun t => t.smbAddr == 0x3A && t.pwr.standby) = true ∧
    after (.smbusWrite 0x20 2#8 none) live (fun t => t.bit (mgmtB 0x20) 1 && !t.pwr.smbNack) = true ∧
    after (.smbusWrite 0x20 0#8 none) (put live [(mgmtB 0x20, 2#64)]) (fun t => t.bit (mgmtB 0x20) 1 && t.pwr.smbNack) = true ∧
    after .idcode { live with pwr := { live.pwr with jtagReset := false } } (fun t => t.pwr.tdo == 0xA724856B#32) = true ∧
    after .extest { live with pwr := { live.pwr with jtagReset := false } } (fun t => t.pwr.tdo == 0#32 && t.pwr.jtagIr == 0xFF) = true := by decide +kernel
theorem test_defaultPorts : secLen [] 4 = 0 ∧ ringRole [] 42 = 1 ∧ ringHost [] 42 = 7 ∧ ringRole [] 43 = 2 := by decide +kernel

/-! ### Steps -/

theorem wit_StepFront : ({ live with pending := [.libMbTailWrite 0#64, .imageVerified] } : State).pending = [.libMbTailWrite 0#64, .imageVerified] := rfl
theorem wit_IdleStep : State.reset.pending = [] ∧ State.reset.pwr.pllLocked = false ∧ live.pwr.pllLocked = true := by decide +kernel
/-- The state at reset meets the premise of StepKeepsSound, and a step from it answers a next state. -/
theorem wit_StepKeepsSound : State.reset.Sound ∧ step State.reset = .next State.reset := by
  refine ⟨⟨fun c h => ?_, by decide +kernel⟩, rfl⟩
  cases h
theorem wit_CommandsComplete : (Instr.mexClrDet 255 3).wf = true ∧ (Instr.mexClrDet 256 3).wf = false := by decide +kernel

/-! ### Ill-formed commands, one for each check -/

theorem smoke_illFormed : stops (.blockDispatch 256) .reset = true ∧ stops (.matmul { core := 256, eng := 0, q := 0 }) .reset = true ∧
    stops (.matmul { core := 0, eng := 7, q := 0 }) .reset = true ∧ stops (.matmul { core := 0, eng := 0, q := 4 }) .reset = true ∧
    stops (.waitcTimeout { core := 256, slot := 0 }) .reset = true ∧ stops (.waitcTimeout { core := 0, slot := 64 }) .reset = true ∧
    stops (.cdieFatalError 72) .reset = true ∧ stops (.riserFailure 8) .reset = true ∧ stops (.gangWindowClose 0 32) .reset = true ∧
    stops (.matrixDetection 0 4 0) .reset = true ∧ stops (.matrixDetection 0 0 3) .reset = true ∧ stops (.lsParityError 0 5 0) .reset = true ∧
    stops (.engineStopped 0 7) .reset = true ∧ stops (.mexClrDet 0 4) .reset = true ∧ stops (.blockRetire 0 16) .reset = true ∧
    stops (.l0ParityError 0 9) .reset = true ∧ stops (.teDetection 0 3) .reset = true := by decide +kernel
theorem smoke_opcode : stops (.addw g0 0x11#64 0#64) .reset = true ∧ (Instr.addw g0 0x10#64 0#64).wf = true ∧ (Instr.addw g0 0x06#64 0#64).wf = true := by decide +kernel
theorem smoke_messages : stops (.rdS { msg 71 with req := 72 }) .reset = true ∧ stops (.rdS { msg 71 with src := 72 }) .reset = true ∧ stops (.rdS (msg 72)) .reset = true ∧
    stops (.rdS { msg 71 with part := 16 }) .reset = true ∧ stops (.rdS { msg 71 with line := hi + 1 }) .reset = true ∧
    stops (.rdS { msg 71 with status := 0x77 }) .reset = true ∧ stops (.rdS { msg 71 with seq := 256 }) .reset = true ∧
    stops (.eventRecord { evt0 with addr := 0x0900_0000_0000 }) .reset = true ∧ stops (.windowRequest { win true 0 none with slot := 432 }) .reset = true ∧
    stops (.windowRequest (win true 0 (some 48))) .reset = true ∧ stops (.windowRequest { win true 0 none with len := 513 }) .reset = true ∧
    stops (.windowRequest { win true 0 none with part := 16 }) .reset = true ∧ stops (.incidentReport { rep1 with sev := 7 }) .reset = true ∧
    stops (.incidentReport { rep1 with cls := 256 }) .reset = true ∧ stops (.incidentReport { rep1 with site := 128 }) .reset = true ∧
    stops (.echoWindowEnd 72 rep1) .reset = true := by decide +kernel
theorem smoke_fabric : stops (.idleInsert { lk with site := 72 }) .reset = true ∧ stops (.idleInsert { lk with d := 4 }) .reset = true ∧
    stops (.idleInsert { lk with g := 16 }) .reset = true ∧ stops (.lanemap lk 64) .reset = true ∧ stops (.reducePacket 71 5 0#1408) .reset = true ∧
    stops (.mrd 48 0#128) .reset = true ∧ stops (.retransmitTimer 24 0) .reset = true ∧ stops (.svcResume 16 0) .reset = true ∧ stops (.svcResume 0 4) .reset = true ∧
    stops (.svcAbort 0 0 0x100000000) .reset = true ∧ stops (.queCrHeadWrite (.svc 16 0) 0#64) .reset = true ∧ stops (.tlbiContext 0 0x10000) .reset = true ∧
    stops (.hbmTempPoll 0 2 0) .reset = true := by decide +kernel
theorem smoke_panel : stops (.ping 256) .reset = true ∧ stops (.partDrained 16) .reset = true ∧ stops (.tabCheck []) .reset = true ∧ stops (.thermalPoll 0 0 []) .reset = true ∧
    stops (.thermalTrip (.ringDie 24) 0) .reset = true ∧ stops (.thermalTrip (.cdie 0 2) 0) .reset = true ∧ stops (.ckgHalfWrite 0 2 0#64) .reset = true ∧
    stops (.siteHeartbeat 0 4) .reset = true ∧ stops (.presenceOpen 2) .reset = true ∧ stops (.smbusWrite 256 0#8 none) .reset = true ∧
    stops (.lossReport 72 0 0) .reset = true ∧ stops (.startReady [.stack 0 2]) .reset = true ∧ stops (.startReady [.die 0 6]) .reset = true ∧
    stops (.panelResetRise [.lanes lk [64]]) .reset = true ∧ stops (.panelResetRise [.port 48]) .reset = true ∧ stops (.selftestPartDone 256 true) .reset = true := by decide +kernel

end Sys2Proof.Machine.Tests
end

/-!
PROOFS. Thread faults at decode (04_thread_engine R92, 05_folio_instructions R164-R166): what TEX_FAULT records, the words
by which each Folio command issues, and the mask that a group-matrix instruction needs.
-/

namespace Sys2Proof.Machine

/-! ### The record of a thread fault (R115, R116) -/

/-- A field of a small number written to a register. -/
theorem fldOf_ofNat64 (n lo w : Nat) (h : n < 2 ^ 64) : fldOf (BitVec.ofNat 64 n) lo w = n / 2 ^ lo % 2 ^ w := by
  simp only [fldOf, nbits, BitVec.toNat_ofNat, Nat.mod_eq_of_lt h, Nat.shiftRight_eq_div_pow]

theorem State.reg_sat_same (s : State) (k lo w n : Nat) :
    (s.sat k lo w n).reg k = putFld (s.reg k) lo w (min (2 ^ w - 1) (s.fld k lo w + n)) := s.reg_setFld_same ..

theorem State.reg_sat_ne (s : State) {k j : Nat} (lo w n : Nat) (h : j ≠ k) : (s.sat k lo w n).reg j = s.reg j :=
  s.reg_setFld_ne _ _ _ h

theorem State.sat_rest (s : State) (k lo w n : Nat) : { s.sat k lo w n with regs := s.regs } = s := rfl

/-- Registers written in turn leave the rest of the state. -/
theorem State.setReg_three_rest (s : State) (i j k : Nat) (x y z : W64) :
    { ((s.setReg i x).setReg j y).setReg k z with regs := s.regs } = s := rfl

/-- The registers of TEX_FAULT, its address among them, as the first fault sets them (R115). -/
def State.recordFault (s : State) (k slot blk lane code : Nat) (pc : W64) (addr : W64) : State :=
  ((s.setReg k (BitVec.ofNat 64 (code + 2 ^ 8 + slot % 64 * 2 ^ 9 + lane % 64 * 2 ^ 15 + blk % 16 * 2 ^ 21))).setReg (k + 8)
    (BitVec.ofNat 64 (pc.toNat % 2 ^ 55))).setReg (k + 16) addr

section
variable (s : State) (k slot blk lane code : Nat) (pc addr : W64)

theorem State.recordFault_rest : { s.recordFault k slot blk lane code pc addr with regs := s.regs } = s :=
  State.setReg_three_rest ..

theorem State.recordFault_reg_addr : (s.recordFault k slot blk lane code pc addr).reg (k + 16) = addr :=
  State.reg_setReg_same ..

theorem State.recordFault_reg_pc :
    (s.recordFault k slot blk lane code pc addr).reg (k + 8) = BitVec.ofNat 64 (pc.toNat % 2 ^ 55) := by
  unfold State.recordFault
  rw [State.reg_setReg_ne _ _ (by omega), State.reg_setReg_same]

theorem State.recordFault_reg : (s.recordFault k slot blk lane code pc addr).reg k =
    BitVec.ofNat 64 (code + 2 ^ 8 + slot % 64 * 2 ^ 9 + lane % 64 * 2 ^ 15 + blk % 16 * 2 ^ 21) := by
  unfold State.recordFault
  rw [State.reg_setReg_ne _ _ (by omega), State.reg_setReg_ne _ _ (by omega), State.reg_setReg_same]

theorem State.recordFault_reg_ne {j : Nat} (h : j ≠ k ∧ j ≠ k + 8 ∧ j ≠ k + 16) :
    (s.recordFault k slot blk lane code pc addr).reg j = s.reg j := by
  obtain ⟨h0, h8, h16⟩ := h
  unfold State.recordFault
  rw [State.reg_setReg_ne _ _ h16, State.reg_setReg_ne _ _ h8, State.reg_setReg_ne _ _ h0]

/-- The fields of TEX_FAULT after the first fault. -/
theorem State.recordFault_fields (hc : code < 256) :
    let u := s.recordFault k slot blk lane code pc addr
    u.fld k 0 8 = code ∧ u.bit k 8 = true ∧ u.fld k 9 6 = slot % 64 ∧ u.fld k 15 6 = lane % 64 ∧
      u.fld k 21 4 = blk % 16 ∧ u.fld k 32 16 = 0 ∧ u.fld (k + 8) 0 55 = pc.toNat % 2 ^ 55 := by
  have hpc : pc.toNat % 2 ^ 55 < 2 ^ 64 := by omega
  have hn : code + 2 ^ 8 + slot % 64 * 2 ^ 9 + lane % 64 * 2 ^ 15 + blk % 16 * 2 ^ 21 < 2 ^ 64 := by omega
  simp only [State.bit, State.fld, State.recordFault_reg, State.recordFault_reg_pc, fldOf_ofNat64 _ _ _ hn,
    fldOf_ofNat64 _ _ _ hpc, decide_eq_true_eq]
  omega

end

/-- The register of the fault address. -/
def faultAddr : Option (Nat × Bool) → W64
  | some a => BitVec.ofNat 64 (a.1 % 2 ^ 55 + 2 ^ 63)
  | none => 0#64

theorem State.threadFault_again (s : State) (core slot blk : Nat) (pc : W64) (lane : Nat) {code : Nat} (addr : Option (Nat × Bool))
    (hk : killsContext code = true) (hb : s.bit (texB core + 0x38) 8 = true) :
    s.threadFault core slot blk pc lane code addr =
      (s.sat (texB core + 0x38) 32 16 1).failLaunch core { code := code, detail := addr } := by
  simp [State.threadFault, hk, hb]

theorem State.threadFault_first (s : State) (core slot blk : Nat) (pc : W64) (lane : Nat) {code : Nat} (addr : Option (Nat × Bool))
    (hk : killsContext code = true) (hb : s.bit (texB core + 0x38) 8 = false) :
    s.threadFault core slot blk pc lane code addr =
      (s.recordFault (texB core + 0x38) slot blk lane code pc (faultAddr addr)).failLaunch core { code := code, detail := addr } := by
  cases addr <;> simp [State.threadFault, hk, hb, State.recordFault, faultAddr]

/-- A fault that kills the context is recorded as R115 says and fails the launch. -/
theorem State.threadFault_faultsWith (s : State) (core slot blk : Nat) (pc : W64) (lane : Nat) {code : Nat}
    (addr : Option (Nat × Bool)) (hk : killsContext code = true) :
    FaultsWith s (s.threadFault core slot blk pc lane code addr) core slot blk lane pc code addr := by
  have hc : code < 256 := by
    simp only [killsContext, List.contains_eq_mem, List.mem_cons, List.not_mem_nil, or_false, decide_eq_true_eq] at hk
    omega
  cases hb : s.bit (texB core + 0x38) 8 with
  | true =>
    refine ⟨_, s.threadFault_again core slot blk pc lane addr hk hb, s.sat_rest .., fun k hn => s.reg_sat_ne _ _ _ hn.1, ?_⟩
    rw [if_pos hb]
    exact ⟨s.reg_sat_ne _ _ _ (by omega), s.reg_sat_ne _ _ _ (by omega), s.reg_sat_same ..⟩
  | false =>
    refine ⟨_, s.threadFault_first core slot blk pc lane addr hk hb, State.recordFault_rest .., fun k hn =>
      s.recordFault_reg_ne _ _ _ _ _ _ _ hn, ?_⟩
    rw [if_neg (by simp [hb])]
    obtain ⟨hcode, hfirst, hslot, hlane, hblk, hcount, hpc⟩ :=
      s.recordFault_fields (texB core + 0x38) slot blk lane code pc (faultAddr addr) hc
    refine ⟨hcode, hfirst, hslot, hlane, hblk, hcount, hpc, ?_⟩
    cases addr with
    | none => exact State.recordFault_reg_addr ..
    | some a =>
      have ha : a.1 % 2 ^ 55 + 2 ^ 63 < 2 ^ 64 := by omega
      simp only [State.bit, State.fld, State.recordFault_reg_addr, faultAddr, fldOf_ofNat64 _ _ _ ha, decide_eq_true_eq]
      omega

theorem carryOut_of {ok : Bool} {t : State} (h : ok = true) : carryOut ok t = .next t := if_pos h

/-! ### Commands that fault at decode (R92, R164-R166) -/

/-- A word of a reserved opcode raises the fault at decode, whatever command carries it. -/
theorem State.issue_reserved {s : State} {g : GRef} {w : W64} {s1 : State} {l : Launch} {b : Block} {grp : Group}
    (h : Issues s g w s1 l b grp) (hop : folioOpcodes.contains (fOpc w) = false)
    (k : State → Launch → Block → Group → State) : s.issue g w k = s1.decodeFault g grp stIllegal := by
  obtain ⟨hf, hs⟩ := h.fetch
  have hact : (grp.active == 0#64) = false := by simpa using h.active
  unfold State.issue
  simp only [h.launch, h.group, h.block, h.waits, h.await, hact, Option.isSome_none, ne_eq, not_true_eq_false, decide_false,
    Bool.or_self, Bool.false_eq_true, if_false, hf, hop, Bool.not_false, if_true, ← hs]

theorem opcodeOk_of (w : W64) (op : Nat) (h : fOpc w = op ∨ folioOpcodes.contains (fOpc w) = false) : opcodeOk w op = true := by
  have e : fOpc w = w.toNat % 256 := by simp [fOpc, fldOf, nbits]
  rw [e] at h
  unfold opcodeOk
  rcases h with h | h
  · rw [decide_eq_true h, Bool.true_or]
  · rw [h, Bool.not_false, Bool.or_true]

/-- A command that takes effect by a fault at decode raises it at the lowest-numbered active lane. -/
theorem exec_decodeFault {c : Instr} {s t s1 : State} {g : GRef} {w : W64} {op : Nat} {grp : Group} {code : Nat}
    (hc : exec c s = carryOut (g.ok && opcodeOk w op) t) (ht : t = s1.decodeFault g grp code) (hg : g.ok = true)
    (hop : opcodeOk w op = true) (hk : killsContext code = true) :
    ∃ t, exec c s = .next t ∧ FaultsWith s1 t g.core g.slot grp.blk (firstLane grp.active) grp.pc code none :=
  ⟨t, hc.trans (carryOut_of (by rw [hg, hop]; rfl)), ht ▸ s1.threadFault_faultsWith _ _ _ _ _ none hk⟩

/-- A row of the Folio table. -/
abbrev FolioLegalRow := (GRef → W64 → W64 → Instr) × Nat × FolioLegal

/-- The command of a row issues, and then raises ILLEGAL_INSTRUCTION for a word that is not legal (R165). -/
def DecodesBy (c : FolioLegalRow) : Prop :=
  ∀ (s : State) (g : GRef) (w w1 : W64), ∃ k : State → Launch → Block → Group → State,
    exec (c.1 g w w1) s = carryOut (g.ok && opcodeOk w c.2.1) (s.issue g w k) ∧
    ∀ s1 l b grp, c.2.2 l.vregs w w1 = false → k s1 l b grp = s1.decodeFault g grp stIllegal

theorem DecodesBy.faults {c : FolioLegalRow} (hd : DecodesBy c) (hr : folioOpcodes.contains c.2.1 = true)
    {s s1 : State} {g : GRef} {w w1 : W64} {l : Launch} {b : Block} {grp : Group}
    (hg : g.ok = true) (h : Issues s g w s1 l b grp)
    (hw : (fOpc w = c.2.1 ∧ c.2.2 l.vregs w w1 = false) ∨ folioOpcodes.contains (fOpc w) = false) :
    ∃ t, exec (c.1 g w w1) s = .next t ∧ FaultsWith s1 t g.core g.slot grp.blk (firstLane grp.active) grp.pc stIllegal none := by
  obtain ⟨k, hc, hk⟩ := hd s g w w1
  rcases hw with ⟨hop, hbad⟩ | hres
  · exact exec_decodeFault hc ((State.issue_of h (hop ▸ hr) k).trans (hk _ _ _ _ hbad)) hg (opcodeOk_of _ _ (.inl hop)) rfl
  · exact exec_decodeFault hc (State.issue_reserved h hres k) hg (opcodeOk_of _ _ (.inr hres)) rfl

/-- A command whose word is checked before it runs. -/
theorem DecodesBy.ctl {c : GRef → W64 → W64 → Instr} {op : Nat} {legal : FolioLegal} {ok : W64 → W64 → Nat → Bool}
    {k : State → GRef → W64 → W64 → State → Launch → Block → Group → State}
    (hc : ∀ s g w w1, exec (c g w w1) s = carryOut (g.ok && opcodeOk w op) (s.ctl g w (ok w w1) (k s g w w1)))
    (hok : ∀ v w w1, ok w w1 v = legal v w w1) : DecodesBy (c, op, legal) := fun s g w w1 =>
  ⟨_, hc s g w w1, fun _ l _ _ (h : legal l.vregs w w1 = false) => if_neg (by simp [hok, h])⟩

/-- A command on registers alone whose function refuses a word that is not legal. -/
theorem DecodesBy.alu {c : GRef → W64 → W64 → Instr} {op : Nat} {legal : FolioLegal} {f : FExec}
    (hc : ∀ s g w w1, exec (c g w w1) s = carryOut (g.ok && opcodeOk w op) (s.alu g w w1 f))
    (hf : ∀ w w1 x, legal x.vregs w w1 = false → f w w1 x = .error stIllegal) : DecodesBy (c, op, legal) := fun s g w w1 =>
  ⟨_, hc s g w w1, fun s1 l _ grp h => by
    have e := hf w w1 { g := grp, vregs := l.vregs, sr := s1.reg (texB g.core + 0x50), free := s1.free } h
    simp only [e]⟩

theorem RSpec.run_illegal {p : RSpec} (f : W64 → W64 → FX → FX) {w w1 : W64} {x : FX} (h : p.legal x.vregs w w1 = false) :
    RSpec.run p f w w1 x = .error stIllegal := if_neg (by simp [h])

/-- A command on registers alone with the words of a specification. -/
theorem DecodesBy.run {c : GRef → W64 → W64 → Instr} {op : Nat} (p : RSpec) {legal : FolioLegal} {f : W64 → W64 → FX → FX}
    (hc : ∀ s g w w1, exec (c g w w1) s = carryOut (g.ok && opcodeOk w op) (s.alu g w w1 (p.run f)))
    (hp : ∀ v w w1, p.legal v w w1 = legal v w w1) : DecodesBy (c, op, legal) :=
  .alu hc fun w w1 _ h => RSpec.run_illegal f ((hp _ w w1).trans h)

/-! ### The words of each row (R165) -/

/-- Only the MOD test of a specification is written in another way. -/
theorem RSpec.legal_mods {p : RSpec} {m : Nat → Bool} (h : ∀ x, p.mods x = m x) (v : Nat) (w w1 : W64) :
    p.legal v w w1 = legalR { p with mods := m } v w w1 := by
  simp [RSpec.legal, legalR, h]

theorem rmOk_eq_takesRm (m lo : Nat) : rmOk (nbits m lo 2) = takesRm m lo := by
  simp [rmOk, takesRm, nbits, Nat.shiftRight_eq_div_pow]

theorem nbit_eq_decide (m i : Nat) : nbit m i = decide (m / 2 ^ i % 2 = 1) := by
  simp [nbit, Nat.testBit_eq_decide_div_mod_eq]

theorem modMask_seven (m : Nat) : modMask 7 m = decide (m < 8) := by
  have h : m &&& 7 = m % 8 := Nat.and_two_pow_sub_one_eq_mod m 3
  simp only [modMask, h]
  exact decide_eq_decide.2 (by omega)

theorem cpyLegal_eq (v : Nat) (w w1 : W64) : cpyLegal v w w1 =
    legalR { d := .num 32, a := .uni 2, b := .uni 1, c := .uni (if fMod w % 2 = 1 then 4 else 1), mods := modMask 7 } v w w1 := by
  simp only [cpyLegal, nbit_eq_decide, Nat.pow_zero, Nat.div_one, decide_eq_true_eq]
  exact RSpec.legal_mods (fun m => (modMask_seven m).symm) v w w1

theorem loadSub_eq (sub size : Nat) : loadSub sub size = decide (sub = 0 ∨ sub = 1 ∧ size ≤ 1) := by
  simp [loadSub]

theorem fxPoll_illegal {w w1 : W64} {x : FX} (h : (if fU w = true then legalR { u := 2, d := .uni 2, a := .num 8 } x.vregs w w1
    else legalR { d := .num 8, a := .num 8, mods := fun m => decide (m = 1 ∨ m = 2) } x.vregs w w1) = false) :
    fxPoll w w1 x = .error stIllegal := by
  unfold fxPoll
  by_cases hu : fU w = true
  · rw [if_pos hu] at h ⊢
    exact RSpec.run_illegal _ h
  · rw [if_neg hu] at h ⊢
    exact RSpec.run_illegal _ h

theorem folioControlRows_decode : ∀ c ∈ folioControlRows, DecodesBy c := by
  simp only [folioControlRows, List.forall_mem_cons, List.not_mem_nil, false_implies, implies_true, and_true]
  refine ⟨?nop, ?quit, ?jump, ?call, ?ret, ?meet, ?tally, ?specr, ?cinv, ?fence, ?cpy, ?waitc, ?rdc⟩
  case cpy => exact .ctl (fun _ _ _ _ => rfl) cpyLegal_eq
  all_goals exact .ctl (fun _ _ _ _ => rfl) fun _ _ _ => rfl

theorem folioIntegerRows_decode : ∀ c ∈ folioIntegerRows, DecodesBy c := by
  simp only [folioIntegerRows, List.forall_mem_cons, List.not_mem_nil, false_implies, implies_true, and_true]
  refine ⟨?addw, ?subw, ?mulw, ?mulwh, ?madw, ?minw, ?maxw, ?andw, ?orw, ?xorw, ?shlw, ?shrw, ?ones, ?lzero, ?field, ?place,
    ?choose, ?setr, ?testw, ?testf, ?pcomb, ?lanex, ?poll, ?laneu⟩
  case testw => exact .run _ (fun _ _ _ _ => rfl) (RSpec.legal_mods fun _ => (Bool.decide_and ..).symm)
  case poll => exact .alu (fun _ _ _ _ => rfl) fun _ _ _ => fxPoll_illegal
  all_goals exact .run _ (fun _ _ _ _ => rfl) fun _ _ _ => rfl

theorem fxQblk_illegal {w w1 : W64} {x : FX} (h : legalR
    { d := .vec 2, a := .reg, b := .regImm, c := if fMod w / 64 % 2 = 1 then .reg else .unused
      mods := fun m => decide (m < 256) && takesFmt m && takesRm m 4 } x.vregs w w1 = false) :
    fxQblk w w1 x = .error stIllegal := by
  have hc : qblkC w = if fMod w / 64 % 2 = 1 then .reg else .unused := by simp [qblkC, nbit_eq_decide]
  refine RSpec.run_illegal _ ((RSpec.legal_mods (fun m => ?_) x.vregs w w1).trans (hc ▸ h))
  exact congrArg (decide (m < 256) && takesFmt m && ·) (rmOk_eq_takesRm m 4)

theorem folioFloatRows_decode : ∀ c ∈ folioFloatRows, DecodesBy c := by
  simp only [folioFloatRows, List.forall_mem_cons, List.not_mem_nil, false_implies, implies_true, and_true]
  refine ⟨?addf, ?mulf, ?madf, ?minf, ?maxf, ?addb2, ?mulb2, ?madb2, ?recip, ?rroot, ?pow2, ?log2, ?wtof, ?ftow, ?ftob, ?btof,
    ?cvte, ?dcde, ?qblk, ?dqblk⟩
  case wtof => exact .run _ (fun _ _ _ _ => rfl) (RSpec.legal_mods fun m => congrArg (decide (m < 8) && ·) (rmOk_eq_takesRm m 1))
  case ftow => exact .run _ (fun _ _ _ _ => rfl) (RSpec.legal_mods fun m => congrArg (decide (m < 8) && ·) (rmOk_eq_takesRm m 1))
  case ftob => exact .run _ (fun _ _ _ _ => rfl) (RSpec.legal_mods fun m => by
    simp [rmOk_eq_takesRm, nbit_eq_decide, ← decide_not])
  case cvte =>
    exact .run _ (fun _ _ _ _ => rfl) (RSpec.legal_mods fun m => congrArg (decide (m < 64) && takesFmt m && ·) (rmOk_eq_takesRm m 4))
  case qblk => exact .alu (fun _ _ _ _ => rfl) fun _ _ _ => fxQblk_illegal
  all_goals exact .run _ (fun _ _ _ _ => rfl) fun _ _ _ => rfl

/-! ### The group-matrix rows (R164) -/

/-- A group-matrix command's function refuses a word that is not legal. -/
theorem gmRun_illegal {p : RSpec} (f : W64 → FX → FX) {w w1 : W64} {x : FX}
    (h : RSpec.legal { p with gen := false } x.vregs w w1 = false) : gmRun p f w w1 x = .error stIllegal :=
  if_pos (by simp [h])

/-- With an inactive thread it refuses a legal word (R164). -/
theorem gmRun_divergent {p : RSpec} (f : W64 → FX → FX) {w w1 : W64} {x : FX}
    (h : RSpec.legal { p with gen := false } x.vregs w w1 = true) (ha : x.g.active ≠ BitVec.allOnes 64) :
    gmRun p f w w1 x = .error stMatrixDivergent := by
  have hf : x.g.full = false := decide_eq_false ha
  simp [gmRun, h, hf]

/-- The rows of the group-matrix unit (R159). -/
def folioMatrixRows : List FolioLegalRow := folioMemoryRows.drop 8

/-- The command of a row works on registers alone, and its function checks the word first and then the mask (R164, R165). -/
def NeedsAllThreads (c : FolioLegalRow) : Prop :=
  ∃ (p : RSpec) (f : W64 → FX → FX),
    (∀ s g w w1, exec (c.1 g w w1) s = carryOut (g.ok && opcodeOk w c.2.1) (s.alu g w w1 (gmRun p f))) ∧
    ∀ v w w1, RSpec.legal { p with gen := false } v w w1 = c.2.2 v w w1

theorem folioMatrixRows_needAllThreads : ∀ c ∈ folioMatrixRows, NeedsAllThreads c := by
  simp only [folioMatrixRows, folioMemoryRows, List.drop_succ_cons, List.drop_zero, List.forall_mem_cons, List.not_mem_nil,
    false_implies, implies_true, and_true]
  refine ⟨?gmac, ?gmclr, ?gmget, ?gmput⟩
  case gmac =>
    have hm : ∀ m : Nat, nbits m 4 4 = m / 16 % 16 := fun m => by simp [nbits, Nat.shiftRight_eq_div_pow]
    exact ⟨_, _, fun _ _ _ _ => rfl, RSpec.legal_mods fun m => by simp only [hm]⟩
  all_goals exact ⟨_, _, fun _ _ _ _ => rfl, fun _ _ _ => rfl⟩

theorem NeedsAllThreads.decodesBy {c : FolioLegalRow} (h : NeedsAllThreads c) : DecodesBy c := by
  obtain ⟨p, f, hc, hp⟩ := h
  exact .alu hc fun w w1 x hb => gmRun_illegal f ((hp _ w w1).trans hb)

/-! ### All rows -/

theorem folioMemoryRows_decode : ∀ c ∈ folioMemoryRows, DecodesBy c := by
  have hl : loadSub = fun sub size => decide (sub = 0 ∨ sub = 1 ∧ size ≤ 1) := funext fun sub => funext (loadSub_eq sub)
  rw [← List.take_append_drop 8 folioMemoryRows, List.forall_mem_append]
  refine ⟨?_, fun c hc => (folioMatrixRows_needAllThreads c hc).decodesBy⟩
  simp only [folioMemoryRows, ← hl, List.take_succ_cons, List.take_zero, List.forall_mem_cons, List.not_mem_nil, false_implies,
    implies_true, and_true]
  refine ⟨?ldm, ?ldro, ?ldls, ?stm, ?stls, ?mopn, ?mopr, ?lopr⟩
  all_goals exact .ctl (fun _ _ _ _ => rfl) fun _ _ _ => rfl

theorem folioLegalRows_decode (c : FolioLegalRow) (hc : c ∈ folioLegalRows) : DecodesBy c := by
  simp only [folioLegalRows, List.mem_append] at hc
  rcases hc with ((hc | hc) | hc) | hc
  · exact folioControlRows_decode c hc
  · exact folioIntegerRows_decode c hc
  · exact folioFloatRows_decode c hc
  · exact folioMemoryRows_decode c hc

/-- The rows have the opcodes of the Folio table, and no other. -/
theorem folioLegalRows_opcodes : folioLegalRows.map (fun c => c.2.1) = folioOpcodes := rfl

theorem folioOpcodes_contains_eq_false {n : Nat} (h : ∀ d ∈ folioLegalRows, n ≠ d.2.1) : folioOpcodes.contains n = false := by
  rw [← folioLegalRows_opcodes]
  simp only [List.contains_eq_mem, List.mem_map, decide_eq_false_iff_not, not_exists, not_and]
  exact fun d hd e => h d hd e.symm

theorem mem_folioMatrixRows {c : FolioLegalRow} (hc : c ∈ folioLegalRows) (h : 0x60 ≤ c.2.1) : c ∈ folioMatrixRows := by
  have e : folioLegalRows.filter (fun c => decide (0x60 ≤ c.2.1)) = folioMatrixRows := rfl
  rw [← e]
  exact List.mem_filter.2 ⟨hc, decide_eq_true h⟩

theorem folioOpcodes_contains_of_mem {c : FolioLegalRow} (hc : c ∈ folioLegalRows) : folioOpcodes.contains c.2.1 = true := by
  rw [← folioLegalRows_opcodes]
  exact List.contains_iff_mem.2 (List.mem_map_of_mem hc)

/-- Settles O16: every row decodes by its legal words and a reserved opcode never comes to one; a group-matrix row then asks
for all threads. -/
theorem folioFaults : Obligations.FolioFaults := by
  intro s g w w1 s1 l b grp hg h
  refine ⟨fun c hc hw => ?illegal, fun c hc hmat hop hlegal hact => ?divergent⟩
  case illegal =>
    exact (folioLegalRows_decode c hc).faults (folioOpcodes_contains_of_mem hc) hg h (hw.imp_right folioOpcodes_contains_eq_false)
  case divergent =>
    obtain ⟨p, f, hexec, hp⟩ := folioMatrixRows_needAllThreads c (mem_folioMatrixRows hc hmat)
    refine exec_decodeFault (hexec s g w w1) ?_ hg (opcodeOk_of _ _ (.inl hop)) rfl
    have hf := gmRun_divergent f (w1 := w1) (x := { g := grp, vregs := l.vregs, sr := s1.reg (texB g.core + 0x50), free := s1.free })
      ((hp _ w w1).trans hlegal) hact
    rw [State.alu, State.issue_of h (hop ▸ folioOpcodes_contains_of_mem hc)]
    simp only [hf]
    rfl

end Sys2Proof.Machine

/-!
PROOFS. LAUNCH and BLOCK_DISPATCH (04_thread_engine R88-R91, R95): the launch that is captured, the slots that the groups of
a block take, and the registers of a group at its start.
-/

namespace Sys2Proof.Machine

/-! ### Free slots (R90, R95) -/

/-- A list that holds every number below `n` has `n` entries or more. -/
theorem le_length_of_forall_lt_mem (n : Nat) (used : List Nat) (h : ∀ i, i < n → i ∈ used) : n ≤ used.length := by
  induction n generalizing used with
  | zero => exact Nat.zero_le _
  | succ n ih =>
    have hmem := h n (Nat.lt_succ_self n)
    have hle := ih (used.erase n) fun i hi => (List.mem_erase_of_ne (Nat.ne_of_lt hi)).2 (h i (Nat.lt_succ_of_lt hi))
    have hpos := List.length_pos_of_mem hmem
    rw [List.length_erase_of_mem hmem] at hle
    omega

theorem lowestFree_spec (used : List Nat) : lowestFree used ∉ used ∧ lowestFree used ≤ used.length := by
  unfold lowestFree
  cases hf : (List.range (used.length + 1)).find? fun i => !used.contains i with
  | none =>
    have hall : ∀ i, i < used.length + 1 → i ∈ used := fun i hi => by
      have hc := List.find?_eq_none.1 hf i (List.mem_range.2 hi)
      rwa [Bool.not_eq_true', Bool.not_eq_false, List.contains_iff_mem] at hc
    have hle := le_length_of_forall_lt_mem _ used hall
    omega
  | some j =>
    have hlt := List.mem_range.1 (List.mem_of_find?_eq_some hf)
    have hc := List.find?_some hf
    rw [Bool.not_eq_true', ← Bool.not_eq_true, List.contains_iff_mem] at hc
    exact ⟨hc, Nat.le_of_lt_succ hlt⟩

/-- The pipe with the most free positions, the lowest of them (R95). -/
def freestPipe (taken : List Nat) : Nat :=
  (List.range 8).foldl (fun (b : Nat) p => if (usedOn taken p).length < (usedOn taken b).length then p else b) 0

theorem freestPipe_lt (taken : List Nat) : freestPipe taken < 8 := by
  refine List.foldlRecOn (motive := fun b => b < 8) _ _ (by omega) fun b hb p hp => ?_
  split
  · exact List.mem_range.1 hp
  · exact hb

/-- The slot that the next group takes. -/
def nextSlot (taken : List Nat) : Nat := freestPipe taken * 8 + lowestFree (usedOn taken (freestPipe taken))

theorem placeGroups_succ (gpp n : Nat) (taken : List Nat) : placeGroups gpp (n + 1) taken =
    if gpp ≤ (usedOn taken (freestPipe taken)).length then taken else placeGroups gpp n (taken ++ [nextSlot taken]) := rfl

/-- On a pipe with fewer than eight groups the next slot is one of the pipe's eight, and it is free. -/
theorem nextSlot_spec (taken : List Nat) (h : (usedOn taken (freestPipe taken)).length < 8) :
    nextSlot taken < 64 ∧ nextSlot taken ∉ taken := by
  obtain ⟨hfree, hle⟩ := lowestFree_spec (usedOn taken (freestPipe taken))
  have hp := freestPipe_lt taken
  refine ⟨by unfold nextSlot; omega, fun hm => hfree ?_⟩
  have hdiv : nextSlot taken / 8 = freestPipe taken := by unfold nextSlot; omega
  have hmod : nextSlot taken % 8 = lowestFree (usedOn taken (freestPipe taken)) := by unfold nextSlot; omega
  exact List.mem_map.2 ⟨_, List.mem_filter.2 ⟨hm, decide_eq_true hdiv⟩, hmod⟩

/-- Placing groups adds slots of the engine that are free and distinct. -/
theorem placeGroups_append {gpp : Nat} (hg : gpp ≤ 8) (n : Nat) (taken : List Nat) :
    ∃ new, placeGroups gpp n taken = taken ++ new ∧ new.Nodup ∧ ∀ p ∈ new, p < 64 ∧ p ∉ taken := by
  induction n generalizing taken with
  | zero => exact ⟨[], by simp [placeGroups], List.nodup_nil, by simp⟩
  | succ n ih =>
    rw [placeGroups_succ]
    split
    case isTrue => exact ⟨[], by simp, List.nodup_nil, by simp⟩
    case isFalse hroom =>
      obtain ⟨hlt, hfree⟩ := nextSlot_spec taken (by omega)
      obtain ⟨new, heq, hnodup, hnew⟩ := ih (taken ++ [nextSlot taken])
      simp only [List.mem_append, List.mem_singleton, not_or] at hnew
      refine ⟨nextSlot taken :: new, by simp [heq], List.nodup_cons.2 ⟨fun hm => (hnew _ hm).2.2 rfl, hnodup⟩, ?_⟩
      rintro p (_ | ⟨_, hp⟩)
      · exact ⟨hlt, hfree⟩
      · exact ⟨(hnew p hp).1, (hnew p hp).2.1⟩

theorem Launch.gpp_le (l : Launch) : l.gpp ≤ 8 := Nat.min_le_left ..

/-- A key that a table does not hold reads as the default. -/
theorem tget_of_not_mem {α : Type} (d : α) (t : List (Nat × α)) (k : Nat) (h : k ∉ t.map (·.1)) : tget d t k = d := by
  induction t with
  | nil => rfl
  | cons e r ih =>
    simp only [List.map_cons, List.mem_cons, not_or] at h
    rw [tget, if_neg (Ne.symm h.1), ih h.2]

/-! ### A group at its start (R91) -/

/-- Uniform registers written one after another from register `n` on. -/
def Group.wrUs (g : Group) (n : Nat) (us : List W32) : Group := (us.zipIdx n).foldl (fun (g : Group) e => g.wrU e.2 e.1) g

theorem Group.wrUs_cons (g : Group) (n : Nat) (x : W32) (us : List W32) : g.wrUs n (x :: us) = (g.wrU n x).wrUs (n + 1) us := by
  simp [Group.wrUs, List.zipIdx_cons]

theorem Group.wrUs_rest (g : Group) (n : Nat) (us : List W32) : { g.wrUs n us with u := g.u } = g := by
  induction us generalizing g n with
  | nil => rfl
  | cons x us ih =>
    rw [Group.wrUs_cons]
    exact congrArg (fun h : Group => { h with u := g.u }) (ih (g.wrU n x) (n + 1))

theorem Group.wrUs_v (g : Group) (n : Nat) (us : List W32) : (g.wrUs n us).v = g.v := by
  conv => rhs; rw [← g.wrUs_rest n us]

theorem Group.rdU_wrUs (g : Group) (n : Nat) (us : List W32) (k : Nat) :
    (g.wrUs n us).rdU k = if n ≤ k ∧ k < n + us.length then us.getD (k - n) 0#32 else g.rdU k := by
  induction us generalizing g n with
  | nil => rw [if_neg (by simp)]; rfl
  | cons x us ih =>
    rw [Group.wrUs_cons, ih, Group.rdU_wrU, List.length_cons]
    rcases Nat.lt_trichotomy k n with h | rfl | h
    · rw [if_neg (by omega), if_neg (by omega), if_neg (by omega)]
    · rw [if_neg (by omega), if_pos rfl, if_pos (by omega), Nat.sub_self, List.getD_cons_zero]
    · obtain ⟨j, rfl⟩ := Nat.exists_eq_add_of_lt h
      have e : n + j + 1 - n = (n + j + 1 - (n + 1)) + 1 := by omega
      rw [e, List.getD_cons_succ, if_neg (show ¬n + j + 1 = n by omega)]
      exact ite_congr (propext (by omega)) (fun _ => rfl) fun _ => rfl

/-- The uniform registers that a group starts with. -/
def startU (l : Launch) (core idx x y z off : Nat) : List W32 := [x, y, z, idx, l.rank, core, off, 0].map (BitVec.ofNat 32) ++ l.args

/-- A group with its place, its program and all its threads, and nothing in its registers. -/
def freshGroup (l : Launch) (blk idx slot : Nat) : Group :=
  { blk := blk, idx := idx, pipe := slot / 8, pc := BitVec.ofNat 64 l.prog, active := BitVec.allOnes 64 }

section
variable (l : Launch) (core blk idx slot x y z off : Nat)

theorem startGroup_eq : startGroup l core blk idx slot x y z off =
    ((freshGroup l blk idx slot).wrLanes 0 (BitVec.allOnes 64) fun t => BitVec.ofNat 32 (64 * idx + t)).wrUs 0
      (startU l core idx x y z off) := by
  have h : lanesOf (BitVec.allOnes 64) = List.range 64 := rfl
  rw [Group.wrLanes, h]
  rfl

/-- A start writes vector and uniform registers alone. -/
theorem startGroup_rest :
    { startGroup l core blk idx slot x y z off with v := [], u := [] } = freshGroup l blk idx slot := by
  have hv := (freshGroup l blk idx slot).wrLanes_rest 0 (BitVec.allOnes 64) fun t => BitVec.ofNat 32 (64 * idx + t)
  rw [startGroup_eq]
  generalize Group.wrLanes (freshGroup l blk idx slot) _ _ _ = a at hv
  have hu := a.wrUs_rest 0 (startU l core idx x y z off)
  generalize a.wrUs 0 _ = b at hu
  exact (congrArg (fun h : Group => { h with v := [], u := [] }) hu).trans
    (congrArg (fun h : Group => { h with v := [], u := [] }) hv)

theorem startGroup_fields (g : Group) (hg : g = startGroup l core blk idx slot x y z off) :
    g.blk = blk ∧ g.idx = idx ∧ g.active = BitVec.allOnes 64 ∧ g.exited = 0#64 ∧ g.pc = BitVec.ofNat 64 l.prog ∧
      g.pipe = slot / 8 ∧ g.p = [] ∧ g.acc = [] := by
  have h := startGroup_rest l core blk idx slot x y z off
  rw [← hg] at h
  simp only [freshGroup, Group.mk.injEq, true_and] at h
  obtain ⟨hblk, hidx, hpipe, hpc, hactive, hexited, hp, hacc, -⟩ := h
  exact ⟨hblk, hidx, hactive, hexited, hpc, hpipe, hp, hacc⟩

variable {l core blk idx slot x y z off}

/-- Register v0 of a lane is its thread number in the block, and the others read 0. -/
theorem startGroup_rdV (k : Nat) {lane : Nat} (h : lane < 64) : (startGroup l core blk idx slot x y z off).rdV k lane =
    if k = 0 then BitVec.ofNat 32 (64 * idx + lane) else 0#32 := by
  have hfresh : (freshGroup l blk idx slot).rdV k lane = 0#32 := rfl
  have hall : (BitVec.allOnes 64).getLsbD lane = true := by rw [BitVec.getLsbD_allOnes, decide_eq_true h]
  rw [startGroup_eq, Group.rdV, Group.wrUs_v, ← Group.rdV, Group.rdV_wrLanes _ _ _ _ _ _ h, hall]
  simp only [and_true, hfresh]

theorem startGroup_rdU (k : Nat) :
    (startGroup l core blk idx slot x y z off).rdU k = (startU l core idx x y z off).getD k 0#32 := by
  rw [startGroup_eq, Group.rdU_wrUs, Nat.zero_add, Nat.sub_zero]
  split
  case isTrue => rfl
  case isFalse h =>
    rw [List.getD_eq_getElem?_getD, List.getElem?_eq_none (by omega), Option.getD_none, Group.rdU, Group.wrLanes_u]
    rfl

/-- After the eight registers of R91 come the argument words. -/
theorem startGroup_rdU_args (k : Nat) : (startGroup l core blk idx slot x y z off).rdU (8 + k) = l.args.getD k 0#32 := by
  rw [startGroup_rdU, Nat.add_comm]
  rfl

end

/-! ### The groups of a block -/

/-- Groups put into the slots of a list, `f i p` being the group at slot `p`, the `i`-th of the list counted from `n`. -/
def State.putGroups (s : State) (core n : Nat) (ps : List Nat) (f : Nat → Nat → Group) : State :=
  (ps.zipIdx n).foldl (fun (s : State) (p, i) => s.setGrp { core := core, slot := p } (some (f i p))) s

section
variable (s : State) (core n : Nat) (ps : List Nat) (f : Nat → Nat → Group)

theorem State.putGroups_cons (p : Nat) : s.putGroups core n (p :: ps) f =
    (s.setGrp { core := core, slot := p } (some (f n p))).putGroups core (n + 1) ps f := by
  simp [State.putGroups, List.zipIdx_cons]

theorem State.putGroups_rest : { s.putGroups core n ps f with tes := s.tes } = s := by
  induction ps generalizing s n with
  | nil => rfl
  | cons p ps ih =>
    rw [State.putGroups_cons]
    exact congrArg (fun t : State => { t with tes := s.tes }) (ih (s.setGrp { core := core, slot := p } (some (f n p))) (n + 1))

theorem State.putGroups_regs : (s.putGroups core n ps f).regs = s.regs := by
  conv => rhs; rw [← s.putGroups_rest core n ps f]

theorem State.blk?_setGrp (g : GRef) (x : Option Group) (c b : Nat) : (s.setGrp g x).blk? c b = s.blk? c b := by
  unfold State.blk? State.setGrp
  by_cases hc : c = g.core
  · rw [hc, State.te_setTe_same]
  · rw [State.te_setTe_ne _ _ hc]

theorem State.blk?_putGroups (c b : Nat) : (s.putGroups core n ps f).blk? c b = s.blk? c b := by
  induction ps generalizing s n with
  | nil => rfl
  | cons p ps ih => rw [State.putGroups_cons, ih, State.blk?_setGrp]

theorem State.launch_putGroups (c : Nat) : ((s.putGroups core n ps f).te c).launch = (s.te c).launch := by
  induction ps generalizing s n with
  | nil => rfl
  | cons p ps ih => rw [State.putGroups_cons, ih, State.launch_setGrp]

variable {s core n ps f}

theorem State.grp?_putGroups_of_not_mem {p : Nat} (hp : p ∉ ps) :
    (s.putGroups core n ps f).grp? { core := core, slot := p } = s.grp? { core := core, slot := p } := by
  induction ps generalizing s n with
  | nil => rfl
  | cons q ps ih =>
    rw [List.mem_cons, not_or] at hp
    rw [State.putGroups_cons, ih hp.2, State.grp?_setGrp_ne _ _ (by simp [hp.1])]

theorem State.grp?_putGroups (hps : ps.Nodup) {i : Nat} (hi : i < ps.length) :
    (s.putGroups core n ps f).grp? { core := core, slot := ps.getD i 0 } = some (f (n + i) (ps.getD i 0)) := by
  induction ps generalizing s n i with
  | nil => simp at hi
  | cons q ps ih =>
    obtain ⟨hq, hps⟩ := List.nodup_cons.1 hps
    rw [State.putGroups_cons]
    cases i with
    | zero => rw [List.getD_cons_zero, State.grp?_putGroups_of_not_mem hq, State.grp?_setGrp_same, Nat.add_zero]
    | succ i =>
      rw [List.getD_cons_succ, ih hps (by simpa using hi)]
      congr 2
      omega

end

/-! ### BLOCK_DISPATCH -/

theorem State.setFld_setFld_rest (s : State) (j k lo lo' w w' v v' : Nat) :
    { (s.setFld j lo w v).setFld k lo' w' v' with regs := s.regs } = s := rfl

theorem State.countResident_rest (s : State) (core : Nat) : { s.countResident core with regs := s.regs } = s :=
  s.setFld_setFld_rest ..

@[simp] theorem State.countResident_tes (s : State) (core : Nat) : (s.countResident core).tes = s.tes := by
  unfold State.countResident
  rw [State.setFld_tes, State.setFld_tes]

theorem State.reg_countResident_ne (s : State) (core : Nat) {k : Nat} (h : k ≠ texB core) :
    (s.countResident core).reg k = s.reg k := by
  unfold State.countResident
  rw [State.reg_setFld_ne _ _ _ _ h, State.reg_setFld_ne _ _ _ _ h]

theorem State.blk?_congr {s t : State} (h : t.tes = s.tes) (c b : Nat) : t.blk? c b = s.blk? c b := by
  unfold State.blk?; rw [State.te_congr h]

/-- The lowest block slot and the lowest arena slot that are free. -/
def TeX.freeBlk (t : TeX) : Nat := lowestFree (t.blocks.map (·.1))
def TeX.freeArena (t : TeX) (l : Launch) : Nat :=
  if l.lsBlock = 0 then 0 else lowestFree (t.blocks.filterMap fun e => e.2.map (·.arena))

/-- The next block of a launch in linear order, with an arena slot. -/
def Launch.nextBlock (l : Launch) (j : Nat) : Block :=
  { x := l.next % l.gridX, y := l.next / l.gridX % l.gridY, z := l.next / l.gridX / l.gridY, arena := j }

/-- The group of the next block that starts at a slot. -/
def Launch.nextGroup (l : Launch) (core blk j idx slot : Nat) : Group :=
  startGroup l core blk idx slot (l.next % l.gridX) (l.next / l.gridX % l.gridY) (l.next / l.gridX / l.gridY)
    (l.arenaBase + j * l.lsBlock * 4096)

/-- The slots that the groups of the next block take. -/
def TeX.nextSlots (t : TeX) (l : Launch) : List Nat :=
  (placeGroups l.gpp l.groups (t.groups.map (·.1))).drop (t.groups.map (·.1)).length

/-- The state after the next block of a launch has been put into block slot `blk`, arena slot `j` and group slots `ps`. -/
def State.withBlock (s : State) (core : Nat) (l : Launch) (blk j : Nat) (ps : List Nat) : State :=
  (((s.setTe core { s.te core with launch := some { l with next := l.next + 1 } }).setBlk core blk (some (l.nextBlock j))).putGroups
    core 0 ps (l.nextGroup core blk j)).countResident core

theorem TeX.nextSlots_spec {t : TeX} {l : Launch} (h : (placeGroups l.gpp l.groups (t.groups.map (·.1))).length =
    t.groups.length + l.groups) :
    (t.nextSlots l).length = l.groups ∧ (t.nextSlots l).Nodup ∧ ∀ p ∈ t.nextSlots l, p < 64 ∧ tget none t.groups p = none := by
  obtain ⟨new, heq, hnodup, hnew⟩ := placeGroups_append l.gpp_le l.groups (t.groups.map (·.1))
  have hs : t.nextSlots l = new := by rw [TeX.nextSlots, heq, List.drop_left]
  rw [heq, List.length_append, List.length_map] at h
  rw [hs]
  exact ⟨by omega, hnodup, fun p hp => ⟨(hnew p hp).1, tget_of_not_mem _ _ _ (hnew p hp).2⟩⟩

theorem effBlockDispatch_eq {s : State} {core : Nat} {l : Launch} (hl : (s.te core).launch = some l) (hn : l.next < l.total)
    (hr : (s.te core).blocks.length < l.maxResident) (hp : ((s.te core).nextSlots l).length = l.groups) :
    effBlockDispatch core s =
      s.withBlock core l (s.te core).freeBlk ((s.te core).freeArena l) ((s.te core).nextSlots l) := by
  unfold effBlockDispatch
  simp only [hl]
  rw [if_neg (by omega), if_neg (by rw [← TeX.nextSlots, hp]; omega)]
  rfl

section
variable (s : State) (core : Nat) (l : Launch) (blk j : Nat) (ps : List Nat)

theorem State.withBlock_rest : { s.withBlock core l blk j ps with tes := s.tes, regs := s.regs } = s := by
  generalize hu : (s.setTe core { s.te core with launch := some { l with next := l.next + 1 } }).setBlk core blk
    (some (l.nextBlock j)) = u
  have h0 : { u with tes := s.tes } = s := by rw [← hu]; rfl
  have h1 := u.putGroups_rest core 0 ps (l.nextGroup core blk j)
  have h2 := (u.putGroups core 0 ps (l.nextGroup core blk j)).countResident_rest core
  rw [State.withBlock, hu]
  generalize u.putGroups core 0 ps _ = v at h1 h2
  generalize v.countResident core = t at h2
  rw [← h0, ← h1, ← h2]

variable {s core l blk j ps}

theorem State.reg_withBlock_ne {k : Nat} (h : k ≠ texB core) : (s.withBlock core l blk j ps).reg k = s.reg k := by
  rw [State.withBlock, State.reg_countResident_ne _ _ h]
  exact State.reg_congr ((State.putGroups_regs ..).trans rfl) k

theorem State.launch_withBlock : ((s.withBlock core l blk j ps).te core).launch = some { l with next := l.next + 1 } := by
  rw [State.withBlock, State.te_congr (State.countResident_tes ..), State.launch_putGroups]
  simp [State.setBlk]

theorem State.blk?_withBlock : (s.withBlock core l blk j ps).blk? core blk = some (l.nextBlock j) := by
  rw [State.withBlock, State.blk?_congr (State.countResident_tes ..), State.blk?_putGroups, State.blk?_setBlk_same]

theorem State.blk?_withBlock_ne {b : Nat} (h : b ≠ blk) : (s.withBlock core l blk j ps).blk? core b = s.blk? core b := by
  rw [State.withBlock, State.blk?_congr (State.countResident_tes ..), State.blk?_putGroups]
  simp [State.blk?, State.setBlk, tget_tset_ne _ _ _ h]

theorem State.grp?_withBlock_of_not_mem {p : Nat} (h : p ∉ ps) :
    (s.withBlock core l blk j ps).grp? { core := core, slot := p } = s.grp? { core := core, slot := p } := by
  rw [State.withBlock, State.grp?_congr (State.countResident_tes ..), State.grp?_putGroups_of_not_mem h]
  simp [State.grp?, State.setBlk]

theorem State.grp?_withBlock (hps : ps.Nodup) {i : Nat} (hi : i < ps.length) :
    (s.withBlock core l blk j ps).grp? { core := core, slot := ps.getD i 0 } =
      some (l.nextGroup core blk j i (ps.getD i 0)) := by
  rw [State.withBlock, State.grp?_congr (State.countResident_tes ..), State.grp?_putGroups hps hi, Nat.zero_add]

end

/-! ### LAUNCH (R88, R89) -/

/-- The state from which a LAUNCH reads its argument words, and the read. -/
def State.launchArgs (s : State) (q : QRef) (c : Cmd) : State × MRes Bytes :=
  let s := if tPool c.eff = 0 then s else s.setPool q.core (tPool c.eff - 1)
  if tArgWords c.eff = 0 then (s, .ok []) else s.readVa (s.runWho q c.run) .read (tArg c.eff) (4 * tArgWords c.eff) 0

/-- The launch that a command describes, with the bytes of its argument words and the rank of its queue. -/
def Cmd.launchOf (c : Cmd) (q : QRef) (bs : Bytes) (rank : Nat) : Launch :=
  { run := c.run, q := q, prog := tProg c.eff, gridX := tGridX c.eff, gridY := tGridY c.eff, gridZ := tGridZ c.eff
    groups := tGroups c.eff, vregs := tVregs c.eff, lsBlock := tLsBlock c.eff, arenaBase := tArenaBase c.eff
    arenaSize := tArenaSize c.eff, maxBlocks := tMaxBlocks c.eff, args := (words4 (tArgWords c.eff) bs).map (BitVec.ofNat 32)
    rank := rank }

theorem effLaunch_eq {s u : State} {q : QRef} {c : Cmd} {bs : Bytes} (hc : s.ready q opLaunch = some c)
    (hu : s.launchArgs q c = (u, .ok bs)) (hgrid : tGridX c.eff * tGridY c.eff * tGridZ c.eff ≠ 0) :
    effLaunch q s = (u.beginWork q c).setTe q.core
      { launch := some (c.launchOf q bs ((u.beginWork q c).fld (queBcast q) 8 8)) } := by
  unfold State.launchArgs at hu
  unfold effLaunch
  simp only [hc]
  simp only at hu
  simp only [hu, if_neg hgrid]
  rfl

/-- Settles O25: the launch is the one its command describes, and the groups of the next block start at the slots that
`placeGroups` adds. That slots 8p to 8p + 7 are those of pipe p is the model's choice of log entry 10. -/
theorem groupStart : Obligations.GroupStart := by
  refine ⟨fun s u q c bs hq hc => ?launch, fun s core l hcore hl hnext hroom hplaces => ?dispatch⟩
  case launch =>
    intro d s' hu hgrid _
    have hargs : s.launchArgs q c = (u, .ok bs) := by
      by_cases h : tArgWords d = 0
      · rw [if_pos h] at hu
        rw [State.launchArgs, if_pos h, hu.1, hu.2]
      · rw [if_neg h] at hu
        rw [State.launchArgs, if_neg h, hu]
    change carryOut q.ok (effLaunch q s) = _
    rw [effLaunch_eq hc hargs hgrid, carryOut_of hq]
    rfl
  case dispatch =>
    obtain ⟨hlen, hnodup, hfree⟩ := TeX.nextSlots_spec hplaces
    refine ⟨_, (s.te core).freeBlk, (s.te core).freeArena l, (s.te core).nextSlots l, ?next, State.withBlock_rest ..,
      fun k => State.reg_withBlock_ne, State.launch_withBlock, tget_of_not_mem _ _ _ (lowestFree_spec _).1, State.blk?_withBlock,
      fun b => State.blk?_withBlock_ne, hlen, hnodup, hfree, fun p => State.grp?_withBlock_of_not_mem,
      fun i hi => ⟨_, State.grp?_withBlock hnodup (hlen.symm ▸ hi), ?group⟩⟩
    case next =>
      have hcore : core < Config.cores := hcore
      change carryOut (decide (core < Config.cores)) (effBlockDispatch core s) = _
      rw [effBlockDispatch_eq hl hnext hroom hlen, carryOut_of (decide_eq_true hcore)]
    case group =>
      obtain ⟨hblk, hidx, hactive, hexited, hpc, hpipe, hp, hacc⟩ := startGroup_fields l core _ i _ _ _ _ _ _ rfl
      refine ⟨hblk, hidx, hactive, hexited, hpc, hpipe, fun lane hlane => ?_, fun k lane hk hlane => ?_,
        startGroup_rdU _, startGroup_rdU _, startGroup_rdU _, startGroup_rdU _, startGroup_rdU _, startGroup_rdU _,
        startGroup_rdU _, startGroup_rdU _, startGroup_rdU_args, fun k => ?_, fun h r c => ?_⟩
      · exact (startGroup_rdV 0 hlane).trans (if_pos rfl)
      · exact (startGroup_rdV k hlane).trans (if_neg hk)
      · exact congrArg (tget 0#64 · k) hp
      · exact congrArg (tget 0#32 · (h * 256 + r * 16 + c)) hacc

end Sys2Proof.Machine

/-!
PROOFS. NOP, QUIT, JUMP, CALL and RET (05_folio_instructions R136, R137; 04_thread_engine R99, R100): the group that each leaves,
and where JUMP, CALL and RET fault.
-/

namespace Sys2Proof.Machine

/-! ### Instructions that change their group alone -/

/-- Putting a group back, with its next path, changes that group alone. -/
theorem OnlyGroup.putGrp (s1 : State) (g : GRef) (x : Group) : OnlyGroup s1 (s1.putGrp g x) g where
  rest := rfl
  regs _ := rfl
  runs _ := rfl
  groups _ hn := State.grp?_setGrp_ne _ _ hn
  engine c := by
    unfold State.putGrp State.setGrp
    by_cases hc : c = g.core
    · rw [hc, State.te_setTe_same]
    · rw [State.te_setTe_ne _ _ hc]

theorem RunsGroup.of_putGrp {c : Instr} {s s1 : State} {g : GRef} {x : Group} (h : exec c s = .next (s1.putGrp g x)) :
    RunsGroup c s s1 g x :=
  ⟨_, h, OnlyGroup.putGrp .., State.grp?_setGrp_same ..⟩

/-- An instruction that raises ILLEGAL_INSTRUCTION at the lowest-numbered active lane. -/
theorem exec_faultsWith_of_instrFault {c : Instr} {s s1 : State} {g : GRef} {grp : Group}
    (h : exec c s = .next (s1.instrFault g grp (firstLane grp.active) stIllegal none)) :
    ∃ t, exec c s = .next t ∧ FaultsWith s1 t g.core g.slot grp.blk (firstLane grp.active) grp.pc stIllegal none :=
  ⟨_, h, s1.threadFault_faultsWith _ _ _ _ _ none rfl⟩

/-- The word of an opcode that takes no B has 8 bytes (R125). -/
theorem fLen_of_legal {p : RSpec} (hb : p.b = .unused) {v : Nat} {w w1 : W64} (h : p.legal v w w1 = true) : fLen w = 8#64 := by
  simp only [RSpec.legal, hb, SrcUse.okFor, Bool.and_eq_true, Bool.or_eq_true, Bool.not_eq_true', decide_eq_true_eq] at h
  obtain ⟨⟨⟨⟨-, hkind, -⟩, -⟩, -⟩, hlong⟩ := h
  have hl : fL w = false := hlong.resolve_right fun ⟨⟨himm, _⟩, _⟩ => by omega
  rw [fLen, hl]
  rfl

/-! ### The group after a branch (R99) -/

theorem Group.branch_none (g : Group) (w : W64) : g.branch w 0#64 = { g with pc := g.pc + 8#64 } := rfl

theorem Group.branch_all {g : Group} (h : g.active ≠ 0#64) (w : W64) :
    g.branch w g.active = { g with pc := pcPlus g.pc (fTgt w) } := by
  simp [Group.branch, h]

theorem Group.branch_divergent {g : Group} {t : W64} (h0 : t ≠ 0#64) (hall : t ≠ g.active) (w : W64) :
    g.branch w t =
      { g with pc := g.pc + 8#64, active := g.active &&& ~~~t, under := g.nextId, nextId := g.nextId + 1, recon := g.recon ++
        [{ id := g.nextId, parent := g.under, rcv := pcPlus g.pc (fRcv w), tgt := pcPlus g.pc (fTgt w), tgtMask := t, joined := 0#64 }] } := by
  simp [Group.branch, h0, hall]

/-! ### The control instructions where they issue -/

section
variable {s s1 : State} {g : GRef} {w w1 : W64} {l : Launch} {b : Block} {grp : Group}

/-- A Folio command of its own opcode at a group of the panel takes effect. -/
theorem carryOut_folio {op : Nat} (hg : g.ok = true) (hop : fOpc w = op) (t : State) :
    carryOut (g.ok && opcodeOk w op) t = .next t :=
  carryOut_of (by rw [hg, opcodeOk_of _ _ (.inl hop)]; rfl)

/-- A command whose word is checked, of a legal word that can issue. -/
theorem exec_ctl_of {c : Instr} {op : Nat} {ok : Nat → Bool} {k : State → Launch → Block → Group → State}
    (hc : exec c s = carryOut (g.ok && opcodeOk w op) (s.ctl g w ok k)) (hg : g.ok = true) (h : Issues s g w s1 l b grp)
    (hop : fOpc w = op) (hm : folioOpcodes.contains op = true) (hok : ok l.vregs = true) : exec c s = .next (k s1 l b grp) := by
  rw [hc, State.ctl_of h (hop ▸ hm) hok]
  exact carryOut_folio hg hop _

variable (hg : g.ok = true) (h : Issues s g w s1 l b grp)
include hg h

theorem exec_folioNop (hop : fOpc w = 0x00) (hlegal : RSpec.legal { d := .unused } l.vregs w w1 = true) :
    exec (.folioNop g w w1) s = .next (s1.putGrp g { grp with pc := grp.pc + 8#64 }) := by
  rw [← fLen_of_legal rfl hlegal]
  exact exec_ctl_of (c := .folioNop g w w1) rfl hg h hop rfl hlegal

theorem exec_quit (hop : fOpc w = 0x01) (hlegal : RSpec.legal { d := .unused } l.vregs w w1 = true) :
    exec (.quit g w w1) s = .next (s1.putGrp g
      { grp with pc := grp.pc + 8#64, exited := grp.exited ||| grp.takes w, active := grp.active &&& ~~~grp.takes w }) := by
  rw [← fLen_of_legal rfl hlegal]
  exact exec_ctl_of (c := .quit g w w1) rfl hg h hop rfl hlegal

/-- A JUMP that does not need a 33rd reconvergence entry branches (R99). -/
theorem exec_jump (hop : fOpc w = 0x02) (hlegal : legalC true w = true)
    (hroom : grp.takes w = 0#64 ∨ grp.takes w = grp.active ∨ grp.recon.length < 32) :
    exec (.jump g w w1) s = .next (s1.putGrp g (grp.branch w (grp.takes w))) := by
  refine (exec_ctl_of rfl hg h hop rfl hlegal).trans (congrArg _ (if_neg ?_))
  simp only [Bool.and_eq_true, bne_iff_ne, decide_eq_true_eq]
  rintro ⟨⟨hsome, hdiverges⟩, hfull⟩
  exact hroom.elim hsome fun hroom => hroom.elim hdiverges fun hlt => absurd hfull (Nat.not_le.2 hlt)

theorem exec_jump_fault (hop : fOpc w = 0x02) (hlegal : legalC true w = true) (hsome : grp.takes w ≠ 0#64)
    (hdiverges : grp.takes w ≠ grp.active) (hfull : 32 ≤ grp.recon.length) :
    exec (.jump g w w1) s = .next (s1.instrFault g grp (firstLane grp.active) stIllegal none) :=
  (exec_ctl_of rfl hg h hop rfl hlegal).trans (congrArg _ (if_pos (by simp [hsome, hdiverges, hfull])))

theorem exec_call (hop : fOpc w = 0x03) (hlegal : legalC false w = true) (hroom : grp.calls.length < 8) :
    exec (.call g w w1) s =
      .next (s1.putGrp g { grp with pc := pcPlus grp.pc (fTgt w), calls := (grp.pc + 8#64, grp.nextId) :: grp.calls }) :=
  (exec_ctl_of rfl hg h hop rfl hlegal).trans (congrArg _ (if_neg (Nat.not_le.2 hroom)))

theorem exec_call_fault (hop : fOpc w = 0x03) (hlegal : legalC false w = true) (hfull : 8 ≤ grp.calls.length) :
    exec (.call g w w1) s = .next (s1.instrFault g grp (firstLane grp.active) stIllegal none) :=
  (exec_ctl_of rfl hg h hop rfl hlegal).trans (congrArg _ (if_pos hfull))

/-- A RET returns when every entry held was pushed before the matching CALL (R137). -/
theorem exec_ret {pc : W64} {n : Nat} {r : List (W64 × Nat)} (hop : fOpc w = 0x04)
    (hlegal : RSpec.legal { d := .unused, gen := false } l.vregs w w1 = true) (hcalls : grp.calls = (pc, n) :: r)
    (hold : ∀ e ∈ grp.recon, e.id < n) :
    exec (.ret g w w1) s = .next (s1.putGrp g { grp with pc := pc, calls := r }) := by
  refine (exec_ctl_of rfl hg h hop rfl hlegal).trans (congrArg _ ?_)
  simp only [hcalls]
  exact if_neg (by simpa using hold)

theorem exec_ret_fault (hop : fOpc w = 0x04) (hlegal : RSpec.legal { d := .unused, gen := false } l.vregs w w1 = true)
    (hbad : ∀ c ∈ grp.calls.head?, ∃ e ∈ grp.recon, c.2 ≤ e.id) :
    exec (.ret g w w1) s = .next (s1.instrFault g grp (firstLane grp.active) stIllegal none) := by
  refine (exec_ctl_of rfl hg h hop rfl hlegal).trans (congrArg _ ?_)
  cases hcalls : grp.calls with
  | nil => rfl
  | cons c r =>
    obtain ⟨e, he, hle⟩ := hbad c (by rw [hcalls]; rfl)
    exact if_pos (List.any_eq_true.2 ⟨e, he, decide_eq_true hle⟩)

end

/-- Settles O15: each command comes to its branch of the model, and the group it puts back, or the fault, is the one stated. -/
theorem folioControl : Obligations.FolioControl := by
  refine ⟨fun s g w w1 s1 l b grp hg h => ⟨?nop, ?quit, ?jump, ?call, ?ret⟩,
    fun s g w w1 s1 l b grp hg h => ⟨?jumpFault, ?callFault, ?retFault⟩⟩
  case nop => exact fun hop hlegal => .of_putGrp (exec_folioNop hg h hop hlegal)
  case quit => exact fun hop hlegal => .of_putGrp (exec_quit hg h hop hlegal)
  case jump =>
    intro hop hlegal
    refine ⟨fun hnone => .of_putGrp ?_, fun hall => .of_putGrp ?_, fun hsome hdiverges hroom => .of_putGrp ?_⟩
    · rw [exec_jump hg h hop hlegal (.inl hnone), hnone, Group.branch_none]
    · rw [exec_jump hg h hop hlegal (.inr (.inl hall)), hall, Group.branch_all h.active]
      rfl
    · rw [exec_jump hg h hop hlegal (.inr (.inr hroom)), Group.branch_divergent hsome hdiverges]
      rfl
  case call => exact fun hop hlegal hroom => .of_putGrp (exec_call hg h hop hlegal hroom)
  case ret => exact fun hop hlegal pc n r hcalls hold => .of_putGrp (exec_ret hg h hop hlegal hcalls hold)
  case jumpFault =>
    rintro ⟨hop, hlegal, hsome, hdiverges, hfull⟩
    exact exec_faultsWith_of_instrFault (exec_jump_fault hg h hop hlegal hsome hdiverges hfull)
  case callFault =>
    rintro ⟨hop, hlegal, hfull⟩
    exact exec_faultsWith_of_instrFault (exec_call_fault hg h hop hlegal hfull)
  case retFault =>
    rintro ⟨hop, hlegal, hbad⟩
    exact exec_faultsWith_of_instrFault (exec_ret_fault hg h hop hlegal hbad)

end Sys2Proof.Machine

/-!
PROOFS. GMAC, GMCLR, GMGET and GMPUT (05_folio_instructions R160-R163): how a handle or a row of vector registers reads after
256 elements have been written, and what an instruction that counts events leaves of the state.
-/

namespace Sys2Proof.Machine

/-! ### Tables with many entries written -/

/-- For each `i` of a list in turn, the value `val i` written at the key `key i`. -/
def tsets {α : Type} [DecidableEq α] (d : α) (t : List (Nat × α)) (key : Nat → Nat) (val : Nat → α) (is : List Nat) : List (Nat × α) :=
  is.foldl (fun t i => tset d t (key i) (val i)) t

section
variable {α : Type} [DecidableEq α] {d : α} {t : List (Nat × α)} {key : Nat → Nat} {val : Nat → α} {is : List Nat}

theorem tget_tsets_of_ne {k : Nat} (h : ∀ i ∈ is, key i ≠ k) : tget d (tsets d t key val is) k = tget d t k := by
  induction is generalizing t with
  | nil => rfl
  | cons i is ih =>
    obtain ⟨hi, his⟩ := List.forall_mem_cons.1 h
    exact (ih his).trans (tget_tset_ne _ _ _ hi.symm)

/-- A key that one place of the list alone has reads as written there. -/
theorem tget_tsets_of_mem {k i : Nat} (hi : i ∈ is) (hk : key i = k) (hinj : ∀ j ∈ is, key j = k → j = i) :
    tget d (tsets d t key val is) k = val i := by
  induction is generalizing t with
  | nil => cases hi
  | cons j is ih =>
    obtain ⟨hj, his⟩ := List.forall_mem_cons.1 hinj
    by_cases hmem : i ∈ is
    · exact ih hmem his
    · obtain rfl : i = j := (List.mem_cons.1 hi).resolve_right hmem
      have hne : ∀ x ∈ is, key x ≠ k := fun x hx e => hmem (his x hx e ▸ hx)
      exact (tget_tsets_of_ne hne).trans (hk ▸ tget_tset_same ..)

end

/-! ### The elements of a handle, and the vector registers that hold them (R163) -/

theorem Group.rdAcc_congr {x y : Group} (e : x.acc = y.acc) (h r c : Nat) : x.rdAcc h r c = y.rdAcc h r c := by
  unfold Group.rdAcc; rw [e]

theorem Group.rdV_congr {x y : Group} (e : x.v = y.v) (k lane : Nat) : x.rdV k lane = y.rdV k lane := by
  unfold Group.rdV; rw [e]

/-- Elements written one after another are entries written one after another. -/
theorem Group.foldl_wrAcc (g : Group) (h : Nat) (f : Nat → Nat → W32) (is : List Nat) :
    is.foldl (fun g i => g.wrAcc h (i / 16) (i % 16) (f (i / 16) (i % 16))) g =
      { g with acc := tsets 0#32 g.acc (fun i => h * 256 + i / 16 * 16 + i % 16) (fun i => f (i / 16) (i % 16)) is } :=
  List.foldl_hom (fun acc => { g with acc := acc }) fun _ _ => rfl

section
variable (g : Group) (h : Nat) (f : Nat → Nat → W32)

theorem Group.setAcc_acc : (g.setAcc h f).acc =
    tsets 0#32 g.acc (fun i => h * 256 + i / 16 * 16 + i % 16) (fun i => f (i / 16) (i % 16)) (List.range 256) := by
  rw [Group.setAcc, Group.foldl_wrAcc]

/-- Outside the register files, writing a handle changes nothing of a group. -/
theorem Group.rest_of_setAcc : ({ g.setAcc h f with v := g.v, u := g.u, p := g.p, acc := g.acc } : Group) = g := by
  rw [Group.setAcc, Group.foldl_wrAcc]

theorem Group.setAcc_files : (g.setAcc h f).v = g.v ∧ (g.setAcc h f).u = g.u ∧ (g.setAcc h f).p = g.p := by
  rw [Group.setAcc, Group.foldl_wrAcc]
  exact ⟨rfl, rfl, rfl⟩

theorem Group.rdAcc_setAcc (h' : Nat) {r c : Nat} (hr : r < 16) (hc : c < 16) :
    (g.setAcc h f).rdAcc h' r c = if h' = h then f r c else g.rdAcc h' r c := by
  rw [Group.rdAcc, Group.setAcc_acc]
  split
  case isTrue e =>
    have hrow : (r * 16 + c) / 16 = r := by omega
    have hcol : (r * 16 + c) % 16 = c := by omega
    refine (tget_tsets_of_mem (i := r * 16 + c) (List.mem_range.2 (by omega)) (by omega) fun j _ _ => by omega).trans ?_
    rw [hrow, hcol]
  case isFalse e =>
    refine tget_tsets_of_ne fun i hi => ?_
    have := List.mem_range.1 hi
    omega

end

/-- Element (r, c) of a 16 × 16 array in lane 4r + floor(c / 4) of register d + (c mod 4). -/
def Group.spread (g : Group) (d : Nat) (f : Nat → Nat → W32) : Group :=
  (List.range 256).foldl (fun g i => g.wrV (d + i % 4) (4 * (i / 16) + i % 16 / 4) (f (i / 16) (i % 16))) g

theorem Group.foldl_wrV (g : Group) (d : Nat) (f : Nat → Nat → W32) (is : List Nat) :
    is.foldl (fun g i => g.wrV (d + i % 4) (4 * (i / 16) + i % 16 / 4) (f (i / 16) (i % 16))) g =
      { g with v := tsets 0#32 g.v (fun i => (d + i % 4) * 64 + (4 * (i / 16) + i % 16 / 4)) (fun i => f (i / 16) (i % 16)) is } :=
  List.foldl_hom (fun v => { g with v := v }) fun _ _ => rfl

/-- The lane that holds element `i` of the 256. -/
theorem laneOf_eq (i : Nat) : 4 * (i / 16) + i % 16 / 4 = i / 4 := by omega

section
variable (g : Group) (d : Nat) (f : Nat → Nat → W32)

theorem Group.spread_v : (g.spread d f).v =
    tsets 0#32 g.v (fun i => (d + i % 4) * 64 + i / 4) (fun i => f (i / 16) (i % 16)) (List.range 256) := by
  rw [Group.spread, Group.foldl_wrV]
  simp only [laneOf_eq]

theorem Group.rest_of_spread : ({ g.spread d f with v := g.v, u := g.u, p := g.p, acc := g.acc } : Group) = g := by
  rw [Group.spread, Group.foldl_wrV]

theorem Group.spread_files : (g.spread d f).u = g.u ∧ (g.spread d f).p = g.p ∧ (g.spread d f).acc = g.acc := by
  rw [Group.spread, Group.foldl_wrV]
  exact ⟨rfl, rfl, rfl⟩

theorem Group.rdV_spread {r c : Nat} (hr : r < 16) (hc : c < 16) : (g.spread d f).rdV (d + c % 4) (4 * r + c / 4) = f r c := by
  have hrow : (r * 16 + c) / 16 = r := by omega
  have hcol : (r * 16 + c) % 16 = c := by omega
  rw [Group.rdV, Group.spread_v]
  refine (tget_tsets_of_mem (i := r * 16 + c) (List.mem_range.2 (by omega)) (by omega) fun j hj e => ?_).trans ?_
  · have := List.mem_range.1 hj
    omega
  · rw [hrow, hcol]

theorem Group.rdV_spread_of_ne {k lane : Nat} (hl : lane < 64) (hk : k < d ∨ d + 4 ≤ k) :
    (g.spread d f).rdV k lane = g.rdV k lane := by
  rw [Group.rdV, Group.spread_v]
  refine tget_tsets_of_ne fun i hi => ?_
  have := List.mem_range.1 hi
  omega

end

/-! ### Instructions on registers alone that count events (R57, R118) -/

theorem State.run?_modRun (s : State) (k : Nat) (f : Run → Run) (id : Nat) :
    (s.modRun k f).run? id = if id = k then (s.run? id).map f else s.run? id := by
  unfold State.modRun
  by_cases hk : id = k
  · subst hk
    rw [if_pos rfl]
    split
    next r e => rw [State.run?_setRun_same, e]; rfl
    next e => rw [e]; rfl
  · rw [if_neg hk]
    split
    next => exact State.run?_setRun_ne _ _ hk
    next => rfl

/-- The state in which an instruction on registers alone puts its group back: the generator in register `k` and the free
values have moved on, and run `id` has counted. -/
def State.counted (s : State) (k id : Nat) (y : FX) : State :=
  (({ s with free := y.free } : State).setReg k y.sr).modRun id fun r =>
    { r with sat := r.sat + y.sat, flushed := r.flushed + y.flushed, inclOvf := r.inclOvf + y.inclOvf, invalid := r.invalid + y.invalid }

section
variable (s : State) (k id : Nat) (y : FX)

theorem State.counted_tes : (s.counted k id y).tes = s.tes := State.modRun_tes ..

theorem State.counted_reg (j : Nat) : (s.counted k id y).reg j = if j = k then y.sr else s.reg j := by
  refine (State.reg_congr (State.modRun_regs ..) j).trans ?_
  split
  case isTrue e => rw [e, State.reg_setReg_same]
  case isFalse e => exact State.reg_setReg_ne _ _ e

theorem State.counted_run? (j : Nat) : (s.counted k id y).run? j = if j = id then (s.run? j).map fun r =>
    { r with sat := r.sat + y.sat, flushed := r.flushed + y.flushed, inclOvf := r.inclOvf + y.inclOvf, invalid := r.invalid + y.invalid }
    else s.run? j :=
  State.run?_modRun ..

theorem State.counted_rest : { s.counted k id y with tes := s.tes, regs := s.regs, runs := s.runs, free := s.free } = s :=
  congrArg (fun t : State => { t with tes := s.tes, regs := s.regs, runs := s.runs, free := s.free })
    (State.modRun_rest (({ s with free := y.free } : State).setReg k y.sr) id _)

/-- A group put back then: only it, the generator and the counts of the run have changed. -/
theorem GroupAndRun.of_counted (g : GRef) (x : Group) :
    GroupAndRun s ((s.counted (texB g.core + 0x50) id y).putGrp g x) g id y.sr y.sat y.flushed y.inclOvf y.invalid := by
  have hput := OnlyGroup.putGrp (s.counted (texB g.core + 0x50) id y) g x
  have htes := s.counted_tes (texB g.core + 0x50) id y
  refine ⟨s.counted_rest (texB g.core + 0x50) id y, s.counted_reg (texB g.core + 0x50) id y,
    fun j => s.counted_run? (texB g.core + 0x50) id y j,
    fun h hn => (hput.groups h hn).trans (State.grp?_congr htes h), fun c => ?_⟩
  have hc := hput.engine c
  rwa [State.te_congr htes] at hc

end

/-- An instruction that draws nothing and counts nothing changes its group alone. -/
theorem GroupAndRun.onlyGroup {s1 t : State} {g : GRef} {run : Nat}
    (h : GroupAndRun s1 t g run (s1.reg (texB g.core + 0x50)) 0 0 0 0) : OnlyGroup s1 t g where
  rest := h.rest
  regs k := (h.regs k).trans (ite_eq_right_iff.2 fun e => e ▸ rfl)
  runs id := (h.runs id).trans (ite_eq_right_iff.2 fun _ => Option.map_id')
  groups := h.groups
  engine := h.engine

/-- What an instruction on registers alone begins with. -/
def fxOf (s1 : State) (g : GRef) (l : Launch) (grp : Group) : FX :=
  { g := grp, vregs := l.vregs, sr := s1.reg (texB g.core + 0x50), free := s1.free }

/-- Where its function does not fault, the group goes on after what it drew and counted. -/
theorem State.alu_eq_nextPc {s s1 : State} {g : GRef} {w w1 : W64} {l : Launch} {b : Block} {grp : Group}
    (h : Issues s g w s1 l b grp) (hop : folioOpcodes.contains (fOpc w) = true) {f : FExec} {y : FX}
    (hf : f w w1 (fxOf s1 g l grp) = .ok y) :
    s.alu g w w1 f = (s1.counted (texB g.core + 0x50) l.run y).nextPc g y.g w := by
  rw [fxOf] at hf
  simp only [State.alu, State.issue_of h hop, hf]
  rfl

/-! ### Group-matrix instructions with all threads active (R164) -/

theorem RSpec.mods_of_legal {p : RSpec} {v : Nat} {w w1 : W64} (h : p.legal v w w1 = true) : p.mods (fMod w) = true := by
  simp only [RSpec.legal, Bool.and_eq_true] at h
  obtain ⟨⟨-, hmods⟩, -⟩ := h
  exact hmods

theorem nbits_four_four (m : Nat) : nbits m 4 4 = m / 16 % 16 := by simp [nbits, Nat.shiftRight_eq_div_pow]

section
variable {s s1 : State} {g : GRef} {w w1 : W64} {l : Launch} {b : Block} {grp : Group}
  {c : Instr} {op : Nat} {p : RSpec} {f : W64 → FX → FX}
  (hc : exec c s = carryOut (g.ok && opcodeOk w op) (s.alu g w w1 (gmRun p f))) (hm : folioOpcodes.contains op = true)
  (hg : g.ok = true) (h : Issues s g w s1 l b grp) (hact : grp.active = BitVec.allOnes 64) (hop : fOpc w = op)
  (hlegal : RSpec.legal { p with gen := false } l.vregs w w1 = true)
include hc hm hg h hact hop hlegal

/-- A group-matrix instruction of a legal word does what its function says. -/
theorem gmRun_runs {z : Group} {n : Nat} (hf : f w (fxOf s1 g l grp) = { fxOf s1 g l grp with g := z, invalid := n })
    (hrest : ({ z with v := grp.v, u := grp.u, p := grp.p, acc := grp.acc } : Group) = grp) :
    ∃ t x, exec c s = .next t ∧ GroupAndRun s1 t g l.run (s1.reg (texB g.core + 0x50)) 0 0 0 n ∧ RanTo t g w grp x ∧
      x.v = z.v ∧ x.u = z.u ∧ x.p = z.p ∧ x.acc = z.acc := by
  have hrun : gmRun p f w w1 (fxOf s1 g l grp) = .ok { fxOf s1 g l grp with g := z, invalid := n } := by
    rw [← hf]
    simp [gmRun, fxOf, hlegal, Group.full, hact]
  refine ⟨(s1.counted (texB g.core + 0x50) l.run { fxOf s1 g l grp with g := z, invalid := n }).nextPc g z w, _, ?_,
    .of_counted .., .intro (State.grp?_setGrp_same ..) hrest, rfl, rfl, rfl, rfl⟩
  rw [hc, State.alu_eq_nextPc h (hop ▸ hm) hrun]
  exact carryOut_folio hg hop _

/-- One whose function writes handle D changes that handle alone among the register files. -/
theorem gmRun_writesHandle {el : Nat → Nat → W32} {n : Nat}
    (hf : f w (fxOf s1 g l grp) = { fxOf s1 g l grp with g := grp.setAcc (fD w) el, invalid := n }) :
    ∃ t x, exec c s = .next t ∧ GroupAndRun s1 t g l.run (s1.reg (texB g.core + 0x50)) 0 0 0 n ∧ RanTo t g w grp x ∧
      x.v = grp.v ∧ x.u = grp.u ∧ x.p = grp.p ∧ ∀ h r c, r < 16 → c < 16 →
        x.rdAcc h r c = if h = fD w then el r c else grp.rdAcc h r c := by
  obtain ⟨t, x, hx, hrun, hran, hv, hu, hp, hacc⟩ := gmRun_runs hc hm hg h hact hop hlegal hf (grp.rest_of_setAcc (fD w) el)
  obtain ⟨hv', hu', hp'⟩ := grp.setAcc_files (fD w) el
  exact ⟨t, x, hx, hrun, hran, hv.trans hv', hu.trans hu', hp.trans hp', fun h' r c hr hc =>
    (Group.rdAcc_congr hacc h' r c).trans (grp.rdAcc_setAcc (fD w) el h' hr hc)⟩

end

/-- Settles O14: the function of each row writes its handle, or its four vector registers, element by element. -/
theorem folioMatrix : Obligations.FolioMatrix := by
  intro s g w w1 s1 l b grp hg h hact
  refine ⟨fun hop hlegal => ?gmac, fun hop hlegal => ?gmclr, fun hop hlegal => ?gmget, fun hop hlegal => ?gmput⟩
  case gmac =>
    obtain ⟨k, hk⟩ := Option.isSome_iff_exists.1 (Bool.and_eq_true_iff.1 (RSpec.mods_of_legal hlegal)).2
    simp only [← nbits_four_four] at hlegal
    obtain ⟨t, x, hx, hrun, hran, hfiles⟩ := gmRun_writesHandle (c := .gmac g w w1) (el := gmacAcc grp w k) (n := gmacInvalid grp w k)
      rfl rfl hg h hact hop hlegal (by simp only [nbits_four_four, hk, fxOf, Option.getD_some, Nat.zero_add])
    exact ⟨t, x, k, hx, hk, hrun, hran, hfiles⟩
  case gmclr =>
    obtain ⟨t, x, hx, hrun, hfiles⟩ := gmRun_writesHandle (c := .gmclr g w w1) rfl rfl hg h hact hop hlegal rfl
    exact ⟨t, x, hx, hrun.onlyGroup, hfiles⟩
  case gmget =>
    obtain ⟨t, x, hx, hrun, hran, hv, hu, hp, hacc⟩ := gmRun_runs (c := .gmget g w w1) rfl rfl hg h hact hop hlegal
      (z := grp.spread (fD w) (grp.rdAcc (fA w))) rfl (grp.rest_of_spread (fD w) (grp.rdAcc (fA w)))
    obtain ⟨hu', hp', hacc'⟩ := grp.spread_files (fD w) (grp.rdAcc (fA w))
    exact ⟨t, x, hx, hrun.onlyGroup, hran, hu.trans hu', hp.trans hp', hacc.trans hacc',
      fun r c hr hc => (Group.rdV_congr hv _ _).trans (grp.rdV_spread (fD w) _ hr hc),
      fun k lane hl hk => (Group.rdV_congr hv k lane).trans (grp.rdV_spread_of_ne (fD w) _ hl hk)⟩
  case gmput =>
    obtain ⟨t, x, hx, hrun, hfiles⟩ := gmRun_writesHandle (c := .gmput g w w1) rfl rfl hg h hact hop hlegal rfl
    exact ⟨t, x, hx, hrun.onlyGroup, hfiles⟩

end Sys2Proof.Machine

/-!
PROOFS. The default RING section (13_ring_links R336; 01_panel R17): the record that a port has when RING lists none, and
the role and host number it holds.
-/

namespace Sys2Proof.Machine

/-! ### RNG_PORT[4:0] of a host port -/

/-- The role stands below the host number. -/
theorem nbits_role_of_host (h : Nat) : nbits (1 + h * 4) 0 2 = 1 := by
  simp only [nbits, Nat.shiftRight_zero]
  omega

/-- Role 2 is FABRIC. -/
theorem nbits_role_of_fabric : nbits 2 0 2 = 2 := rfl

/-- Three bits hold the host number. -/
theorem nbits_host_of_host (h : Nat) : nbits (1 + h * 4) 2 3 = h % 8 := by
  simp only [nbits, Nat.shiftRight_eq_div_pow]
  omega

/-! ### The defaults of R336 -/

section
variable {t : Image} (hnone : secLen t 4 = 0) {port : Nat}
include hnone

theorem ringRec_default : ringRec t port = if port % 6 = 0 then 1 + port / 6 * 4 else 2 :=
  if_pos (decide_eq_true hnone)

theorem ringRole_default_host (hport : port % 6 = 0) : ringRole t port = 1 := by
  rw [ringRole, ringRec_default hnone, if_pos hport, nbits_role_of_host]

theorem ringRole_default_fabric (hport : port % 6 ≠ 0) : ringRole t port = 2 := by
  rw [ringRole, ringRec_default hnone, if_neg hport, nbits_role_of_fabric]

/-- Only the 48 ports of the panel have a host number that fits its field. -/
theorem ringHost_default (hlt : port < 48) (hport : port % 6 = 0) : ringHost t port = port / 6 := by
  rw [ringHost, ringRec_default hnone, if_pos hport, nbits_host_of_host, Nat.mod_eq_of_lt (Nat.div_lt_of_lt_mul hlt)]

end

/-- Settles O50: each port by whether 6 divides its number; the ring dies and sites of the eight hosts by evaluation. -/
theorem defaultPorts : Obligations.DefaultPorts := by
  refine ⟨fun t port hlt hnone => ⟨fun hport => ?host, fun hport => ?fabric⟩, ?dies, ?sites⟩
  case host => exact ⟨ringRole_default_host hnone hport, ringHost_default hnone hlt hport⟩
  case fabric => exact ringRole_default_fabric hnone hport
  case dies => rfl
  case sites => rfl

end Sys2Proof.Machine

/-!
PROOFS. Steps (00_scope): what a step does with the queue of waiting commands, and that every step keeps the machine sound.
-/

namespace Sys2Proof.Machine

/-- Each row does what its own lemma says. -/
theorem exec_does (c : Instr) (s : State) : Does c.wf s (exec c s) :=
  match c with
  | .registerWrite .. => does_registerWrite | .cdieFatalError .. => does_cdieFatalError
  | .cdieHeartbeatTimeout .. => does_cdieHeartbeatTimeout | .substitutionDone .. => does_substitutionDone
  | .riserFailure .. => does_riserFailure | .matmul .. => does_matmul | .gangWindowClose .. => does_gangWindowClose
  | .matrixDetection .. => does_matrixDetection | .lsParityError .. => does_lsParityError
  | .engineStopped .. => does_engineStopped | .mexClrFlash .. => does_mexClrFlash | .mexClrDet .. => does_mexClrDet
  | .mexClrPerf .. => does_mexClrPerf | .launch .. => does_launch | .blockDispatch .. => does_blockDispatch
  | .blockRetire .. => does_blockRetire | .meetComplete .. => does_meetComplete | .barrierTimeout .. => does_barrierTimeout
  | .waitcTimeout .. => does_waitcTimeout | .copyComplete .. => does_copyComplete | .teDetection .. => does_teDetection
  | .l0ParityError .. => does_l0ParityError | .texClrFlash .. => does_texClrFlash | .texClrFault .. => does_texClrFault
  | .texClrPerf .. => does_texClrPerf | .folioNop .. => does_folioNop | .quit .. => does_quit | .jump .. => does_jump
  | .call .. => does_call | .ret .. => does_ret | .meet .. => does_meet | .tally .. => does_tally | .specr .. => does_specr
  | .cinv .. => does_cinv | .fence .. => does_fence | .cpy .. => does_cpy | .waitc .. => does_waitc | .rdc .. => does_rdc
  | .addw .. => does_addw | .subw .. => does_subw | .mulw .. => does_mulw | .mulwh .. => does_mulwh | .madw .. => does_madw
  | .minw .. => does_minw | .maxw .. => does_maxw | .andw .. => does_andw | .orw .. => does_orw | .xorw .. => does_xorw
  | .shlw .. => does_shlw | .shrw .. => does_shrw | .ones .. => does_ones | .lzero .. => does_lzero | .field .. => does_field
  | .place .. => does_place | .choose .. => does_choose | .setr .. => does_setr | .testw .. => does_testw
  | .testf .. => does_testf | .pcomb .. => does_pcomb | .lanex .. => does_lanex | .poll .. => does_poll
  | .laneu .. => does_laneu | .addf .. => does_addf | .mulf .. => does_mulf | .madf .. => does_madf | .minf .. => does_minf
  | .maxf .. => does_maxf | .addb2 .. => does_addb2 | .mulb2 .. => does_mulb2 | .madb2 .. => does_madb2
  | .recip .. => does_recip | .rroot .. => does_rroot | .pow2 .. => does_pow2 | .log2 .. => does_log2 | .wtof .. => does_wtof
  | .ftow .. => does_ftow | .ftob .. => does_ftob | .btof .. => does_btof | .cvte .. => does_cvte | .dcde .. => does_dcde
  | .qblk .. => does_qblk | .dqblk .. => does_dqblk | .ldm .. => does_ldm | .ldro .. => does_ldro | .ldls .. => does_ldls
  | .stm .. => does_stm | .stls .. => does_stls | .mopn .. => does_mopn | .mopr .. => does_mopr | .lopr .. => does_lopr
  | .gmac .. => does_gmac | .gmclr .. => does_gmclr | .gmget .. => does_gmget | .gmput .. => does_gmput
  | .queTailDoorbell .. => does_queTailDoorbell | .queSop15Doorbell .. => does_queSop15Doorbell
  | .bcastTail .. => does_bcastTail | .bcastSop15 .. => does_bcastSop15 | .queCfgWrite .. => does_queCfgWrite
  | .queBcastWrite .. => does_queBcastWrite | .queResume .. => does_queResume | .queResumeSkip .. => does_queResumeSkip
  | .queAbort .. => does_queAbort | .queAbortAll .. => does_queAbortAll | .abortReachesEngine .. => does_abortReachesEngine
  | .submissionEntryReturn .. => does_submissionEntryReturn | .descriptorBlockReturn .. => does_descriptorBlockReturn
  | .commandReady .. => does_commandReady | .waitTimeout .. => does_waitTimeout
  | .indirectReadReturn .. => does_indirectReadReturn | .eventRecord .. => does_eventRecord | .eventWake .. => does_eventWake
  | .armDelivery .. => does_armDelivery | .nop .. => does_nop | .spawn .. => does_spawn
  | .spawnRoomGranted .. => does_spawnRoomGranted | .spawnRoomTimeout .. => does_spawnRoomTimeout
  | .callPattern .. => does_callPattern | .pourBlockReturn .. => does_pourBlockReturn
  | .pourLockTimeout .. => does_pourLockTimeout | .patch .. => does_patch | .patchLiveDrained .. => does_patchLiveDrained
  | .patchWaitTimeout .. => does_patchWaitTimeout | .notifyHoldoffExpiry .. => does_notifyHoldoffExpiry
  | .runCommitPoint .. => does_runCommitPoint | .discardComplete .. => does_discardComplete
  | .reservationGranted .. => does_reservationGranted | .tentativeSetWaitExpiry .. => does_tentativeSetWaitExpiry
  | .tentativeParityError .. => does_tentativeParityError | .pinnedOverrun .. => does_pinnedOverrun
  | .calendarWindowBoundary .. => does_calendarWindowBoundary | .maintBegin .. => does_maintBegin
  | .commandWatchdog .. => does_commandWatchdog | .collectiveArrival .. => does_collectiveArrival
  | .collectivePrepared .. => does_collectivePrepared | .collectiveKill .. => does_collectiveKill
  | .windowRequest .. => does_windowRequest | .wcbAgeExpiry .. => does_wcbAgeExpiry | .wcbParityError .. => does_wcbParityError
  | .archiveParityError .. => does_archiveParityError | .hbmTempPoll .. => does_hbmTempPoll | .scrubRead .. => does_scrubRead
  | .copy .. => does_copy | .fill .. => does_fill | .gather .. => does_gather | .scatter .. => does_scatter
  | .prefetch .. => does_prefetch | .flushRange .. => does_flushRange | .allreduce .. => does_allreduce
  | .reduceScatter .. => does_reduceScatter | .allgather .. => does_allgather | .alltoall .. => does_alltoall
  | .rdS .. => does_rdS | .own .. => does_own | .upgr .. => does_upgr | .atom .. => does_atom | .flush .. => does_flush
  | .wb .. => does_wb | .preWb .. => does_preWb | .cmt .. => does_cmt | .log .. => does_log | .mir .. => does_mir
  | .snpS .. => does_snpS | .snpX .. => does_snpX | .inv .. => does_inv | .recall .. => does_recall | .clean .. => does_clean
  | .data .. => does_data | .grant .. => does_grant | .ackInv .. => does_ackInv | .miss .. => does_miss
  | .fwdAck .. => does_fwdAck | .rclData .. => does_rclData | .wbAck .. => does_wbAck | .cmtAck .. => does_cmtAck
  | .mirAck .. => does_mirAck | .atomRsp .. => does_atomRsp | .dirProbe .. => does_dirProbe | .tlbiRange .. => does_tlbiRange
  | .tlbiContext .. => does_tlbiContext | .tlbiPartition .. => does_tlbiPartition | .tlbiComplete .. => does_tlbiComplete
  | .coreCtxBaseWrite .. => does_coreCtxBaseWrite | .meshFlit .. => does_meshFlit | .idleFlit .. => does_idleFlit
  | .idleInsert .. => does_idleInsert | .lanemap .. => does_lanemap | .groupTestDone .. => does_groupTestDone
  | .pastReplayError .. => does_pastReplayError | .reducePacket .. => does_reducePacket
  | .combineWindowExpiry .. => does_combineWindowExpiry | .mopnAck .. => does_mopnAck | .ringMsgFlit .. => does_ringMsgFlit
  | .ringLinkFlit .. => does_ringLinkFlit | .ringIdleFlit .. => does_ringIdleFlit | .mrd .. => does_mrd | .mwr .. => does_mwr
  | .msg .. => does_msg | .cpl .. => does_cpl | .registerReadDeadline .. => does_registerReadDeadline
  | .memoryReadDeadline .. => does_memoryReadDeadline | .hostAccessTimeout .. => does_hostAccessTimeout
  | .openFlow .. => does_openFlow | .openAck .. => does_openAck | .ack .. => does_ack | .close .. => does_close
  | .rd .. => does_rd | .wr .. => does_wr | .atOp .. => does_atOp | .rdRsp .. => does_rdRsp | .wrDone .. => does_wrDone
  | .atRsp .. => does_atRsp | .objGet .. => does_objGet | .objPut .. => does_objPut | .objData .. => does_objData
  | .objEnd .. => does_objEnd | .retransmitTimer .. => does_retransmitTimer | .flowGiveup .. => does_flowGiveup
  | .ackDelayExpiry .. => does_ackDelayExpiry | .flowIdleExpiry .. => does_flowIdleExpiry | .svcTail .. => does_svcTail
  | .svcCfgWrite .. => does_svcCfgWrite | .svcResume .. => does_svcResume | .svcAbort .. => does_svcAbort
  | .svcAbortAll .. => does_svcAbortAll | .svcWaitTimeout .. => does_svcWaitTimeout | .fAllreduce .. => does_fAllreduce
  | .fReduceScatter .. => does_fReduceScatter | .fAllgather .. => does_fAllgather | .fAlltoall .. => does_fAlltoall
  | .checkpoint .. => does_checkpoint | .stage .. => does_stage | .stageBatchStart .. => does_stageBatchStart
  | .stageBatchLanded .. => does_stageBatchLanded | .partCreate .. => does_partCreate | .partGrow .. => does_partGrow
  | .partSetHost .. => does_partSetHost | .frameAssign .. => does_frameAssign | .partRegulate .. => does_partRegulate
  | .partStop .. => does_partStop | .partDrain .. => does_partDrain | .partDrainTimeout .. => does_partDrainTimeout
  | .partDrained .. => does_partDrained | .partFlush .. => does_partFlush | .partRelease .. => does_partRelease
  | .partScrubDone .. => does_partScrubDone | .partResume .. => does_partResume | .ping .. => does_ping
  | .rollbackAdvance .. => does_rollbackAdvance | .attest .. => does_attest | .s2RootSet .. => does_s2RootSet
  | .s2Invalidate .. => does_s2Invalidate | .routeSet .. => does_routeSet | .admitSet .. => does_admitSet
  | .mailboxBadCode .. => does_mailboxBadCode | .loadWindowWrite .. => does_loadWindowWrite | .loadLib .. => does_loadLib
  | .loadMould .. => does_loadMould | .imageVerified .. => does_imageVerified | .startReady .. => does_startReady
  | .supervisorRestart .. => does_supervisorRestart | .libRestartDone .. => does_libRestartDone
  | .incidentReport .. => does_incidentReport | .echoWindowEnd .. => does_echoWindowEnd | .pwrEnRise .. => does_pwrEnRise
  | .inputEntersRange .. => does_inputEntersRange | .powerDown .. => does_powerDown | .panelResetRise .. => does_panelResetRise
  | .panelResetFall .. => does_panelResetFall | .refclkLoss .. => does_refclkLoss | .refclkReturn .. => does_refclkReturn
  | .refclkLossTimeout .. => does_refclkLossTimeout | .pllLockLoss .. => does_pllLockLoss | .tabCheck .. => does_tabCheck
  | .ckgHalfWrite .. => does_ckgHalfWrite | .stepChangeDone .. => does_stepChangeDone | .envelopeTick .. => does_envelopeTick
  | .thermalPoll .. => does_thermalPoll | .thermalTrip .. => does_thermalTrip
  | .ledgerFrameBoundary .. => does_ledgerFrameBoundary | .siteHeartbeatTimeout .. => does_siteHeartbeatTimeout
  | .lossReport .. => does_lossReport | .bDieFatalError .. => does_bDieFatalError | .siteLossReroute .. => does_siteLossReroute
  | .coreSelftestReq .. => does_coreSelftestReq | .selftestPartDone .. => does_selftestPartDone
  | .presenceOpen .. => does_presenceOpen | .standbyUp .. => does_standbyUp | .smbusWrite .. => does_smbusWrite
  | .tripClr .. => does_tripClr | .smbusSclTimeout .. => does_smbusSclTimeout | .idcode .. => does_idcode
  | .bypass .. => does_bypass | .extest .. => does_extest | .samplePreload .. => does_samplePreload | .trst .. => does_trst
  | .queCrHeadWrite .. => does_queCrHeadWrite | .libMbTailWrite .. => does_libMbTailWrite
  | .libIncHeadWrite .. => does_libIncHeadWrite | .siteHeartbeat .. => does_siteHeartbeat
  | .cdieHeartbeat .. => does_cdieHeartbeat | .librarianHeartbeat .. => does_librarianHeartbeat
  | .standbyLoss .. => does_standbyLoss | .pinnedWritesDone .. => does_pinnedWritesDone

/-- Settles O1. -/
theorem stepFront : Obligations.StepFront := fun c r s h => by rw [step, h]

/-- Settles O4: at reset no command waits, and the tables are empty. -/
theorem resetSound : Obligations.ResetSound := ⟨fun _ h => (nomatch h), rfl⟩

/-- Settles O6: a row answers `carryOut` of its own check. -/
theorem commandsComplete : Obligations.CommandsComplete := by
  refine ⟨fun c s hc => ?next, fun c s hc => (exec_does c s).stop hc, fun s hs => ?steps⟩
  case next =>
    obtain ⟨t, ht, hk⟩ := (exec_does c s).next hc
    exact ⟨t, ht, hk.pending⟩
  case steps =>
    cases hp : s.pending with
    | nil => exact ⟨s.tick, by rw [step, hp]⟩
    | cons c r =>
      obtain ⟨t, ht, -⟩ := (exec_does c { s with pending := r }).next (hs.1 c (hp ▸ List.mem_cons_self))
      exact ⟨t, (stepFront c r s hp).trans ht⟩

/-- From a state with well-formed commands waiting, what keeps its tables and its queue is sound. -/
theorem Keeps.sound {s t : State} (h : Keeps s t) (hs : s.Sound) : t.Sound := ⟨h.pending ▸ hs.1, h.canon hs.2⟩

/-- Settles O5: the command at the front keeps the tables and the rest of the queue, and so does a slice cycle. -/
theorem stepKeepsSound : Obligations.StepKeepsSound := by
  intro s t hs ht
  cases hp : s.pending with
  | nil =>
    have hst : step s = .next s.tick := by rw [step, hp]
    obtain rfl : s.tick = t := Host.Outcome.next.inj (hst.symm.trans ht)
    exact (keeps_tick Keeps.rfl').sound hs
  | cons c r =>
    have hfront := stepFront c r s hp
    have hwf : ∀ d ∈ c :: r, d.wf = true := hp ▸ hs.1
    have hrest : ({ s with pending := r } : State).Sound := ⟨fun d hd => hwf d (List.mem_cons_of_mem _ hd), hs.2⟩
    obtain ⟨u, hu, hk⟩ := (exec_does c { s with pending := r }).next (hwf c List.mem_cons_self)
    obtain rfl : u = t := Host.Outcome.next.inj (hu.symm.trans (hfront.symm.trans ht))
    exact hk.sound hrest

end Sys2Proof.Machine

/-!
PROOFS. What stands at reset (R171, R361, R398, R406, R431, R466): the reset column of the registers that the statement names.
-/

namespace Sys2Proof.Machine

/-! ### Reset values by register -/

theorem regReset_ldgFactor {x p : Nat} (hx : x < 72) (hp : p < 16) : regReset (ldgAcct x p + 8) = 0x0000_0100_0100_0100#64 := by
  unfold regReset ldgAcct ldgB siteB coreB
  rw [if_neg (by omega), if_pos (by omega), if_pos (by omega)]

theorem QRef.bounds_of_ok {q : QRef} (hq : q.ok = true) : q.core < 256 ∧ q.eng < 7 ∧ q.q < 4 := by
  simp only [QRef.ok, Bool.and_eq_true, decide_eq_true_eq, and_assoc] at hq
  exact hq

/-- The registers of a queue's page: QUE_CFG has both ring sizes at 4, and the others read 0. -/
theorem regReset_queue {q : QRef} (hq : q.ok = true) {off : Nat} (ho : off < 0x1000) :
    regReset (queB q + off) = if off = 0 then 0x40400#64 else 0#64 := by
  obtain ⟨hcore, heng, hqn⟩ := QRef.bounds_of_ok hq
  have hoff : (queB q + off - coreB 0) % 0x200000 = 0x80000 + (4 * q.eng + q.q) * 0x1000 + off := by unfold queB coreB; omega
  have hin : coreB 0 ≤ queB q + off ∧ queB q + off < coreB 256 := by unfold queB coreB; omega
  unfold regReset
  rw [if_pos hin, hoff, if_neg (by omega), if_neg (by omega)]
  exact ite_congr (propext (by omega)) (fun _ => rfl) fun _ => rfl

theorem regReset_svcCfg {p k : Nat} (hp : p < 16) (hk : k < 4) : regReset (svcB p k) = 0x40400#64 := by
  unfold regReset svcB partB siteB coreB
  rw [if_neg (by omega), if_neg (by omega), if_pos (by omega), if_pos (by omega)]

theorem regReset_libPartState {p : Nat} (hp : p < 16) : regReset (libPartState p) = 0#64 := by
  unfold regReset libPartState libB partB siteB coreB fusPartId fusRiserCol fusSec fusB mgmtB
  rw [if_neg (by omega), if_neg (by omega), if_neg (by omega), if_neg (by omega), if_neg (by omega), if_neg (by omega),
    if_neg (by omega), if_neg (by omega), if_neg (by omega)]

/-- A field at reset is one of the register's reset value. -/
theorem State.reset_fld (k lo w : Nat) : State.reset.fld k lo w = fldOf (regReset k) lo w := rfl

/-- Settles O3: each register by its reset value, and what is no register by the empty state. -/
theorem resetValues : Obligations.ResetValues := by
  refine ⟨fun x p hx hp => ?ledger, fun q hq => ?queue, fun p k hp hk => ?service, fun p hp => ?part, rfl, rfl, rfl, rfl,
    fun _ => ⟨rfl, rfl⟩, rfl, rfl, rfl, rfl, rfl⟩
  case ledger =>
    simp only [State.reset_fld, regReset_ldgFactor hx hp]
    decide
  case queue =>
    have hcfg : regReset (queB q) = 0x40400#64 := regReset_queue hq (off := 0) (by omega)
    have hstatus : regReset (queB q + 0x48) = 0#64 := regReset_queue hq (by omega)
    simp only [State.bit, State.reset_fld, hcfg, hstatus]
    exact ⟨rfl, rfl, rfl, rfl, rfl⟩
  case service =>
    simp only [State.reset_fld, regReset_svcCfg hp hk]
    decide
  case part =>
    rw [State.partState, State.reset_fld, regReset_libPartState hp]
    rfl

end Sys2Proof.Machine

/-!
PROOFS. A slice cycle (17_power_and_clocks R424, log entry 5): what the mesh and the ring carry, and the busy counters.
-/

namespace Sys2Proof.Machine

/-- What each step of a fold leaves, the fold leaves. -/
theorem foldl_leaves {α β γ : Type} {f : β → γ} {F : β → α → β} (h : ∀ b a, f (F b a) = f b) (b : β) (l : List α) :
    f (l.foldl F b) = f b := by
  induction l generalizing b with
  | nil => rfl
  | cons a l ih => rw [List.foldl_cons, ih, h]

/-! ### What the mesh and the ring carry -/

/-- The state without what a slice cycle carries: the ends of links, the headers and payloads on their way, and the packets
that go out. -/
def State.still (s : State) : State :=
  { s with
    mesh := { s.mesh with links := [] }
    net := { s.net with parcels := [] }
    host := { s.host with out := [] }
    fab := { s.fab with out := [] } }

/-- States that differ in what a slice cycle carries alone. -/
theorem State.still_eq_iff {s t : State} : t.still = s.still ↔
    { t with mesh := { t.mesh with links := s.mesh.links }, net := { t.net with parcels := s.net.parcels }
             host := { t.host with out := s.host.out }, fab := { t.fab with out := s.fab.out } } = s :=
  ⟨fun h => by
    have e := congrArg (fun u : State =>
      { u with mesh := { u.mesh with links := s.mesh.links }, net := { u.net with parcels := s.net.parcels }
               host := { u.host with out := s.host.out }, fab := { u.fab with out := s.fab.out } }) h
    exact e,
  fun h => by
    have e := congrArg State.still h
    exact e⟩

theorem State.still_setLink (s : State) (k : Nat) (x : LinkX) : (s.setLink k x).still = s.still := rfl

theorem State.still_handOver (s : State) (x d pick : Nat) (m : TxMsg) : (s.handOver x d pick m).still = s.still := by
  unfold State.handOver
  extract_lets
  split <;> rfl

theorem State.still_hop (s : State) (p : Parcel) : (s.hop p).still = s.still := by
  unfold State.hop
  extract_lets
  split
  case h_1 => rfl
  case h_2 y _ =>
    split
    · exact s.still_handOver _ _ _ { role := p.role, vc := p.vc, dst := p.dst, d := s.parcelBytes p }
    · rfl

theorem State.still_hops (s : State) : s.hops.still = s.still := foldl_leaves State.still_hop _ _

theorem State.still_strand (s : State) (l : LinkRef) : (s.strand l).still = s.still := by
  unfold State.strand
  extract_lets
  split
  · rfl
  · exact foldl_leaves (fun (s : State) m => s.still_handOver _ _ m.dst m) _ _

theorem State.still_linkCycle (s : State) (k : Nat) : (s.linkCycle k).still = s.still := by
  unfold State.linkCycle
  dsimp only
  split
  · exact s.still_strand _
  · split <;> rfl

theorem State.still_givePort (s : State) (port cls data : Nat) (bs : Bytes) : (s.givePort port cls data bs).still = s.still := rfl

theorem State.still_feedHost (s : State) (port : Nat) : (s.feedHost port).still = s.still := by
  refine foldl_leaves (fun s c => ?_) _ _
  split
  · rfl
  · dsimp only
    split <;> rfl

theorem State.still_feedFabric (s : State) (port : Nat) : (s.feedFabric port).still = s.still := by
  refine foldl_leaves (fun s c => ?_) _ _
  split
  · rfl
  · dsimp only
    split <;> rfl

theorem State.still_portCycle (s : State) (port : Nat) : (s.portCycle port).still = s.still := by
  unfold State.portCycle
  split
  · rfl
  · refine (State.still_setLink ..).trans ?_
    split
    · exact s.still_feedHost port
    · exact s.still_feedFabric port

/-- A slice cycle of the mesh and the ring changes what it carries alone. -/
theorem State.still_carry (s : State) : s.carry.still = s.still := by
  unfold State.carry
  refine (foldl_leaves State.still_portCycle _ _).trans ((foldl_leaves (fun s e => ?_) _ _).trans s.still_hops)
  split
  · exact s.still_linkCycle _
  · rfl

/-- With nothing at the links nothing is carried. -/
theorem State.carry_nothing {s : State} (hl : s.mesh.links = []) (hp : s.net.parcels = []) (hh : s.host.out = [])
    (hf : s.fab.out = []) : s.carry = s := by
  have hhops : s.hops = s := by
    unfold State.hops
    simp only [hp, List.filter_nil, List.foldl_nil]
    rw [← hp]
  unfold State.carry
  simp only [hhops, hl, hh, hf, List.foldl_nil, List.filter_nil, List.map_nil, List.append_nil, List.eraseDups_nil]

/-! ### The busy counters -/

theorem State.bit_iff (s : State) (k lo : Nat) : s.bit k lo = true ↔ s.fld k lo 1 = 1 := decide_eq_true_iff

/-- The state without its registers. -/
def State.noRegs (s : State) : State := { s with regs := [] }

/-- States that differ in their registers alone. -/
theorem State.noRegs_eq_iff {s t : State} : t.noRegs = s.noRegs ↔ { t with regs := s.regs } = s :=
  ⟨fun h => by
    have e := congrArg (fun u : State => { u with regs := s.regs }) h
    exact e,
  fun h => by
    have e := congrArg State.noRegs h
    exact e⟩

theorem State.noRegs_setFld (s : State) (k lo w v : Nat) : (s.setFld k lo w v).noRegs = s.noRegs := rfl

/-- A busy counter after a slice cycle: `b` is the register with the BUSY bit. -/
def busyCount (b v : W64) : W64 := if fldOf b 0 1 = 1 then putFld v 0 48 (fldOf v 0 48 + 1) else v

theorem State.busyCount_eq (s : State) (b k : Nat) : busyCount (s.reg b) (s.reg k) =
    if s.bit b 0 = true then putFld (s.reg k) 0 48 (s.fld k 0 48 + 1) else s.reg k :=
  ite_congr (propext (s.bit_iff b 0).symm) (fun _ => rfl) fun _ => rfl

theorem State.noRegs_tickBusy (s : State) (b off : Nat) (stall : Bool) : (s.tickBusy b off stall).noRegs = s.noRegs := by
  unfold State.tickBusy
  extract_lets
  split
  · split <;> rfl
  · rfl

theorem State.reg_tickBusy_ne (s : State) {b off k : Nat} (stall : Bool) (h : k ≠ b + off) (h8 : stall = true → k ≠ b + off + 8) :
    (s.tickBusy b off stall).reg k = s.reg k := by
  unfold State.tickBusy State.bump
  extract_lets
  split
  · split
    case isTrue hs => rw [State.reg_setFld_ne _ _ _ _ (h8 hs), State.reg_setFld_ne _ _ _ _ h]
    case isFalse => rw [State.reg_setFld_ne _ _ _ _ h]
  · rfl

theorem State.reg_tickBusy_same (s : State) (b off : Nat) (stall : Bool) :
    (s.tickBusy b off stall).reg (b + off) = busyCount (s.reg b) (s.reg (b + off)) := by
  rw [State.busyCount_eq]
  unfold State.tickBusy State.bump
  extract_lets
  split
  · split
    · exact (State.reg_setFld_ne _ _ _ _ (by omega)).trans (State.reg_setFld_same ..)
    · exact State.reg_setFld_same ..
  · rfl

/-- A register that one element of a list changes alone, as a function of itself and of a register that stays. -/
theorem State.reg_foldl_once {α : Type} [DecidableEq α] {F : State → α → State} {b k : Nat} {f : W64 → W64 → W64} {a0 : α}
    {l : List α} (hl : l.Nodup) (hmem : a0 ∈ l) (hb : ∀ s a, (F s a).reg b = s.reg b)
    (hk : ∀ s a, (F s a).reg k = if a = a0 then f (s.reg b) (s.reg k) else s.reg k) (s : State) :
    (l.foldl F s).reg k = f (s.reg b) (s.reg k) := by
  induction l generalizing s with
  | nil => cases hmem
  | cons a l ih =>
    obtain ⟨ha, hl⟩ := List.nodup_cons.1 hl
    rw [List.foldl_cons]
    by_cases he : a = a0
    · have hother : ∀ l : List α, a0 ∉ l → ∀ s, (l.foldl F s).reg k = s.reg k := by
        intro l hn
        induction l with
        | nil => exact fun s => rfl
        | cons c l ih =>
          intro s
          rw [List.mem_cons, not_or] at hn
          rw [List.foldl_cons, ih hn.2, hk, if_neg (Ne.symm hn.1)]
      rw [hother l (he ▸ ha), hk, if_pos he]
    · rw [ih hl ((List.mem_cons.1 hmem).resolve_left (Ne.symm he)), hb, hk, if_neg he]

/-- The matrix engines of a core count. -/
def State.tickMex (s : State) (c : Nat) : State :=
  (List.range 4).foldl (fun s me => s.tickBusy (mexB c me) 0x48 (s.formingOn c me)) s

theorem State.tickCore_eq (s : State) (c : Nat) : s.tickCore c = (s.tickMex c).tickBusy (texB c) 0x58 false := rfl

theorem State.noRegs_tickCore (s : State) (c : Nat) : (s.tickCore c).noRegs = s.noRegs := by
  rw [State.tickCore_eq, State.noRegs_tickBusy]
  exact foldl_leaves (fun s me => s.noRegs_tickBusy ..) _ _

/-- Registers that are no counter of a core's engines stay. -/
theorem State.reg_tickCore_ne (s : State) {c k : Nat} (hm : ∀ me, me < 4 → k ≠ mexB c me + 0x48 ∧ k ≠ mexB c me + 0x50)
    (ht : k ≠ texB c + 0x58) : (s.tickCore c).reg k = s.reg k := by
  rw [State.tickCore_eq, State.reg_tickBusy_ne _ false ht nofun]
  refine List.foldlRecOn (motive := fun t : State => t.reg k = s.reg k) _ _ rfl fun t ih me hme => ?_
  obtain ⟨h48, h50⟩ := hm me (List.mem_range.1 hme)
  exact (t.reg_tickBusy_ne _ h48 fun _ => h50).trans ih

theorem State.reg_tickCore_mex (s : State) (c : Nat) {me : Nat} (h : me < 4) :
    (s.tickCore c).reg (mexB c me + 0x48) = busyCount (s.reg (mexB c me)) (s.reg (mexB c me + 0x48)) := by
  rw [State.tickCore_eq, State.reg_tickBusy_ne _ false (by unfold mexB texB; omega) nofun]
  refine State.reg_foldl_once (a0 := me) List.nodup_range (List.mem_range.2 h) (fun s a => ?_) (fun s a => ?_) s
  · exact s.reg_tickBusy_ne _ (by unfold mexB; omega) fun _ => by unfold mexB; omega
  · split
    case isTrue e => exact e ▸ s.reg_tickBusy_same ..
    case isFalse e => exact s.reg_tickBusy_ne _ (by unfold mexB; omega) fun _ => by unfold mexB; omega

theorem State.reg_tickCore_tex (s : State) (c : Nat) :
    (s.tickCore c).reg (texB c + 0x58) = busyCount (s.reg (texB c)) (s.reg (texB c + 0x58)) := by
  have hm : ∀ k, (∀ me, me < 4 → k ≠ mexB c me + 0x48 ∧ k ≠ mexB c me + 0x50) → (s.tickMex c).reg k = s.reg k := fun k hk =>
    List.foldlRecOn (motive := fun t : State => t.reg k = s.reg k) _ _ rfl fun t ih me hme =>
      (t.reg_tickBusy_ne _ (hk me (List.mem_range.1 hme)).1 fun _ => (hk me (List.mem_range.1 hme)).2).trans ih
  rw [State.tickCore_eq, State.reg_tickBusy_same, hm _ fun me _ => by unfold mexB texB; omega,
    hm _ fun me _ => by unfold mexB texB; omega]

/-! ### The engines of all cores -/

/-- The engines of all cores count. -/
def State.tickCores (s : State) : State := (List.range 256).foldl (fun s c => s.tickCore c) s

theorem State.noRegs_tickCores (s : State) : s.tickCores.noRegs = s.noRegs := by
  unfold State.tickCores
  exact foldl_leaves State.noRegs_tickCore s _

theorem State.reg_tickCores_mex (s : State) {c me : Nat} (hc : c < 256) (hm : me < 4) :
    s.tickCores.reg (mexB c me + 0x48) = busyCount (s.reg (mexB c me)) (s.reg (mexB c me + 0x48)) := by
  unfold State.tickCores
  refine State.reg_foldl_once (a0 := c) List.nodup_range (List.mem_range.2 hc) (fun s a => ?_) (fun s a => ?_) s
  · exact s.reg_tickCore_ne (fun n _ => by unfold mexB coreB; omega) (by unfold mexB texB coreB; omega)
  · split
    case isTrue e => exact e ▸ s.reg_tickCore_mex _ hm
    case isFalse e => exact s.reg_tickCore_ne (fun n _ => by unfold mexB coreB; omega) (by unfold mexB texB coreB; omega)

theorem State.reg_tickCores_tex (s : State) {c : Nat} (hc : c < 256) :
    s.tickCores.reg (texB c + 0x58) = busyCount (s.reg (texB c)) (s.reg (texB c + 0x58)) := by
  unfold State.tickCores
  refine State.reg_foldl_once (a0 := c) List.nodup_range (List.mem_range.2 hc) (fun s a => ?_) (fun s a => ?_) s
  · exact s.reg_tickCore_ne (fun n _ => by unfold mexB texB coreB; omega) (by unfold texB coreB; omega)
  · split
    case isTrue e => exact e ▸ s.reg_tickCore_tex _
    case isFalse e => exact s.reg_tickCore_ne (fun n _ => by unfold mexB texB coreB; omega) (by unfold texB coreB; omega)

theorem State.reg_tickCores_ne (s : State) {k : Nat}
    (hm : ∀ c me, c < 256 → me < 4 → k ≠ mexB c me + 0x48 ∧ k ≠ mexB c me + 0x50) (ht : ∀ c, c < 256 → k ≠ texB c + 0x58) :
    s.tickCores.reg k = s.reg k := by
  unfold State.tickCores
  exact List.foldlRecOn (motive := fun t : State => t.reg k = s.reg k) _ _ rfl fun t ih c hc =>
    (t.reg_tickCore_ne (fun me hme => hm c me (List.mem_range.1 hc) hme) (ht c (List.mem_range.1 hc))).trans ih

/-! ### The slice cycle -/

/-- What is carried when the panel has not failed. -/
def State.carryUnlessFatal (s : State) : State := if s.pwr.fatal then s else s.carry

theorem State.still_carryUnlessFatal (s : State) : s.carryUnlessFatal.still = s.still := by
  unfold State.carryUnlessFatal
  split
  · rfl
  · exact s.still_carry

theorem State.carryUnlessFatal_nothing {s : State} (hl : s.mesh.links = []) (hp : s.net.parcels = []) (hh : s.host.out = [])
    (hf : s.fab.out = []) : s.carryUnlessFatal = s := by
  unfold State.carryUnlessFatal
  split
  · rfl
  · exact s.carry_nothing hl hp hh hf

theorem State.drainPorts_nothing {s : State} (h : s.host.hold = []) : s.drainPorts = s := by
  simp only [State.drainPorts, h, List.map_nil, List.eraseDups_nil, List.foldl_nil]

/-- With no host request held, nothing passes until the site roots have locked. -/
theorem State.tick_of_unlocked {s : State} (hh : s.host.hold = []) (hl : s.pwr.pllLocked = false) : s.tick = s := by
  unfold State.tick
  rw [State.drainPorts_nothing hh]
  exact if_neg (by simp [hl])

/-- A cycle after they have counts the engines, carries, and counts itself. -/
theorem State.tick_of_locked {s : State} (hh : s.host.hold = []) (hl : s.pwr.pllLocked = true) :
    s.tick = { s.tickCores.carryUnlessFatal with cyc := s.tickCores.carryUnlessFatal.cyc + 1 } := by
  unfold State.tick State.carryUnlessFatal State.tickCores
  rw [State.drainPorts_nothing hh]
  exact if_pos hl

/-- Registers counted, traffic carried and the cycle counted: the rest stays. -/
theorem State.rest_of_cycle {s u t : State} {n : Nat} (hcores : u.noRegs = s.noRegs) (hcarry : t.still = u.still) :
    { ({ t with cyc := n } : State) with
      regs := s.regs, cyc := s.cyc, mesh := { t.mesh with links := s.mesh.links }, net := { t.net with parcels := s.net.parcels }
      host := { t.host with out := s.host.out }, fab := { t.fab with out := s.fab.out } } = s := by
  have ht := State.still_eq_iff.1 hcarry
  have hu := State.noRegs_eq_iff.1 hcores
  rw [← hu, ← ht]

theorem State.cyc_of_cycle {s u t : State} (hcores : u.noRegs = s.noRegs) (hcarry : t.still = u.still) : t.cyc = s.cyc :=
  (congrArg State.cyc hcarry :).trans (congrArg State.cyc hcores :)

/-- What a slice cycle carries is none of the registers. -/
theorem State.traffic_of_noRegs {s u : State} (hcores : u.noRegs = s.noRegs) :
    u.mesh = s.mesh ∧ u.net = s.net ∧ u.host = s.host ∧ u.fab = s.fab :=
  ⟨(congrArg State.mesh hcores :), (congrArg State.net hcores :), (congrArg State.host hcores :), (congrArg State.fab hcores :)⟩

/-- The registers after a cycle are those that the engines have counted. -/
theorem State.reg_of_still {u t : State} (hcarry : t.still = u.still) (n k : Nat) : ({ t with cyc := n } : State).reg k = u.reg k :=
  State.reg_congr (congrArg State.regs hcarry :) k

/-- Settles O2: the cycle is the engines' counts, then what is carried, which leaves the registers. -/
theorem idleStep : Obligations.IdleStep := by
  intro s hp hh
  have hstep : step s = .next s.tick := by rw [step, hp]
  refine ⟨fun hoff => hstep.trans (congrArg _ (State.tick_of_unlocked hh hoff)), fun hon => ?locked⟩
  have htick := hstep.trans (congrArg _ (State.tick_of_locked hh hon))
  obtain ⟨u, hu⟩ : ∃ u, u = s.tickCores := ⟨_, rfl⟩
  rw [← hu] at htick
  have hcores : u.noRegs = s.noRegs := hu ▸ s.noRegs_tickCores
  have hcarry := u.still_carryUnlessFatal
  have hreg := State.reg_of_still hcarry (u.carryUnlessFatal.cyc + 1)
  refine ⟨_, htick, congrArg (· + 1) (State.cyc_of_cycle hcores hcarry), State.rest_of_cycle hcores hcarry,
    fun h1 h2 h3 h4 => ?quiet, fun c me hc hm => ?mex, fun c hc => ?tex, fun k hm ht => ?other⟩
  case quiet =>
    obtain ⟨hmesh, hnet, hhost, hfab⟩ := State.traffic_of_noRegs hcores
    have e := State.carryUnlessFatal_nothing (hmesh ▸ h1) (hnet ▸ h2) (hhost ▸ h3) (hfab ▸ h4)
    rw [e]
    exact ⟨hmesh, hnet, hhost, hfab⟩
  all_goals rw [hreg, hu]
  case mex => exact (s.reg_tickCores_mex hc hm).trans (s.busyCount_eq ..)
  case tex => exact (s.reg_tickCores_tex hc).trans (s.busyCount_eq ..)
  case other => exact s.reg_tickCores_ne hm ht

end Sys2Proof.Machine

/-!
PROOFS. Folio instructions on registers alone with a register result (05_folio_instructions R129-R133): one lemma for each
operation that the statements write in another way, and one for all rows.
-/

namespace Sys2Proof.Machine

/-! ### Rows with a register result -/

/-- The command of a row runs, of a legal word, a function that writes the row's result where D names it. -/
def FolioRow.Runs (r : FolioRow) : Prop :=
  ∃ (p : RSpec) (f : W64 → W64 → FX → FX),
    (∀ s g w w1, exec (r.cmd g w w1) s = carryOut (g.ok && opcodeOk w r.opcode) (s.alu g w w1 (p.run f))) ∧
    (∀ v w w1, r.spec.legal v w w1 = true → p.legal v w w1 = true) ∧ folioOpcodes.contains r.opcode = true ∧
    ∀ w w1 x, r.spec.legal x.vregs w w1 = true → f w w1 x = x.putReg w (r.result x.g w w1)

section
variable {cmd : GRef → W64 → W64 → Instr} {op : Nat} {p : RSpec} {f : W64 → W64 → FX → FX}
  {val result : Group → W64 → W64 → Nat → W32}
  (hc : ∀ s g w w1, exec (cmd g w w1) s = carryOut (g.ok && opcodeOk w op) (s.alu g w w1 (p.run f)))
  (hm : folioOpcodes.contains op = true) (hf : ∀ w w1 x, f w w1 x = x.putReg w (val x.g w w1))
include hc hm hf

/-- The legal words may be written in another way than the model writes them. -/
theorem FolioRow.Runs.of_legal {q : RSpec} (hq : ∀ v w w1, q.legal v w w1 = p.legal v w w1)
    (hval : ∀ g v w w1 lane, q.legal v w w1 = true → val g w w1 lane = result g w w1 lane) :
    FolioRow.Runs ⟨cmd, op, q, result⟩ :=
  ⟨p, f, hc, fun v w w1 h => hq v w w1 ▸ h, hm, fun w w1 x h =>
    (hf w w1 x).trans (congrArg (x.putReg w) (funext fun lane => hval x.g x.vregs w w1 lane h))⟩

theorem FolioRow.Runs.of_eq (hval : ∀ g v w w1 lane, p.legal v w w1 = true → val g w w1 lane = result g w w1 lane) :
    FolioRow.Runs ⟨cmd, op, p, result⟩ :=
  .of_legal hc hm hf (fun _ _ _ => rfl) hval

end

/-- Where each row of a table runs, each writes its result. -/
theorem folioWritesReg_of {rows : List FolioRow} (h : ∀ r ∈ rows, r.Runs) : FolioWritesReg rows := by
  intro r hr s g w w1 s1 l b grp hg hop hi hlegal
  obtain ⟨p, f, hc, hp, hm, hf⟩ := h r hr
  refine folio_reg (hc s g w w1) hg hop hm hi s1.free fun x hv hx hfree => ?_
  subst hx
  rw [← hv] at hlegal
  rw [RSpec.run, if_pos (hp _ _ _ hlegal), hf w w1 x hlegal, ← hfree]
  have e := x.putReg_free w (r.result x.g w w1)
  rw [e]

/-! ### Integer operations (R129) -/

theorem ofInt_shiftRight (z : Int) : BitVec.ofInt 32 (z / (2 ^ 32 : Nat)) = ((BitVec.ofInt 64 z) >>> 32).setWidth 32 := by
  apply BitVec.eq_of_toNat_eq
  simp only [BitVec.toNat_ofInt, BitVec.toNat_setWidth, BitVec.toNat_ushiftRight, Nat.shiftRight_eq_div_pow]
  omega

theorem mulHigh_signed (a b : W32) :
    mulHigh true a b = ((a.signExtend 64 * b.signExtend 64) >>> 32).setWidth 32 := by
  rw [BitVec.signExtend, BitVec.signExtend, ← BitVec.ofInt_mul]
  exact ofInt_shiftRight _

theorem mulHigh_unsigned (a b : W32) :
    mulHigh false a b = ((a.setWidth 64 * b.setWidth 64) >>> 32).setWidth 32 := by
  have ha : a.toNat < 2 ^ 32 := a.isLt
  have hb : b.toNat < 2 ^ 32 := b.isLt
  have hlt : a.toNat * b.toNat < 2 ^ 64 := Nat.lt_of_lt_of_eq (Nat.mul_lt_mul'' ha hb) (Nat.pow_add 2 32 32).symm
  apply BitVec.eq_of_toNat_eq
  rw [mulHigh, if_neg Bool.false_ne_true]
  simp only [BitVec.toNat_ofNat, BitVec.toNat_setWidth, BitVec.toNat_ushiftRight, BitVec.toNat_mul, Nat.shiftRight_eq_div_pow,
    Nat.mod_eq_of_lt (Nat.lt_trans ha (by decide : 2 ^ 32 < 2 ^ 64)), Nat.mod_eq_of_lt (Nat.lt_trans hb (by decide : 2 ^ 32 < 2 ^ 64)),
    Nat.mod_eq_of_lt hlt]

theorem popcount_eq_countP (w n : Nat) : popcount w n = (List.range w).countP n.testBit := by
  induction w generalizing n with
  | zero => rfl
  | succ w ih =>
    rw [List.range_succ_eq_map, List.countP_cons, List.countP_map, popcount, ih, Nat.add_comm]
    congr 1
    · exact List.countP_congr fun i _ => by simp [Nat.testBit_succ]
    · rcases Nat.mod_two_eq_zero_or_one n with h | h <;> simp [Nat.testBit_zero, h]

theorem countLeadingZeros_eq_find (a : W32) :
    countLeadingZeros a = ((List.range 32).find? fun i => a.getLsbD (31 - i)).getD 32 := by
  unfold countLeadingZeros
  split
  case isTrue h => subst h; decide
  case isFalse h =>
    have h0 : a.toNat ≠ 0 := fun e => h (BitVec.eq_of_toNat_eq e)
    have hlog : a.toNat.log2 < 32 := (Nat.log2_lt h0).2 a.isLt
    have hfind : ((List.range 32).find? fun i => a.getLsbD (31 - i)) = some (31 - a.toNat.log2) := by
      rw [List.find?_range_eq_some]
      refine ⟨?_, by simp; omega, fun j hj => ?_⟩
      · rw [BitVec.getLsbD, show 31 - (31 - a.toNat.log2) = a.toNat.log2 by omega]
        exact Nat.testBit_log2 h0
      · rw [BitVec.getLsbD, Bool.not_eq_true']
        exact Nat.testBit_lt_two_pow (Nat.lt_of_lt_of_le Nat.lt_log2_self (Nat.pow_le_pow_right (by omega) (by omega)))
    rw [hfind, Option.getD_some]

theorem fldOf_width (c : W32) : min (fldOf c 8 6) (32 - fldOf c 0 5) = fieldWidth c := by
  simp [fieldWidth, fieldPos, fldOf, nbits, Nat.shiftRight_eq_div_pow]

theorem fieldPos_add_fieldWidth_le (c : W32) : fieldPos c + fieldWidth c ≤ 32 := by
  unfold fieldWidth fieldPos
  omega

theorem sext_eq_toInt (x w : Nat) (hw : 0 < w) : sext x w = (BitVec.ofNat w x).toInt := by
  rw [BitVec.toInt_eq_msb_cond, BitVec.msb_eq_getLsbD_last, BitVec.getLsbD_ofNat, BitVec.toNat_ofNat]
  have hlast : w - 1 < w := by omega
  simp only [sext, nbit, decide_eq_true hlast, Bool.true_and]
  rfl
theorem fieldOp_eq (m : Nat) (a c : W32) : fieldOp m a c =
    if nbit m 0 then ((a >>> fieldPos c) <<< (32 - fieldWidth c)).sshiftRight (32 - fieldWidth c)
    else ((a >>> fieldPos c) <<< (32 - fieldWidth c)) >>> (32 - fieldWidth c) := by
  have hle := fieldPos_add_fieldWidth_le c
  unfold fieldOp
  have hp : fldOf c 0 5 = fieldPos c := rfl
  dsimp only
  rw [fldOf_width, hp]
  generalize fieldPos c = p at *
  generalize fieldWidth c = n at *
  rcases Nat.eq_zero_or_pos n with rfl | hn
  · simp
  · rw [if_neg (by omega)]
    refine ite_congr rfl (fun _ => ?_) fun _ => ?_
    · rw [sext_eq_toInt _ _ hn, ← BitVec.signExtend]
      apply BitVec.eq_of_getLsbD_eq
      intro i hi
      simp only [BitVec.getLsbD_signExtend, BitVec.getLsbD_sshiftRight, BitVec.msb_eq_getLsbD_last, BitVec.getLsbD_ofNat, fldOf, testBit_nbits, hi,
        BitVec.getLsbD_shiftLeft, BitVec.getLsbD_ushiftRight]
      grind
    · apply BitVec.eq_of_getLsbD_eq
      intro i hi
      simp only [BitVec.getLsbD_ofNat, fldOf, testBit_nbits, hi, BitVec.getLsbD_shiftLeft, BitVec.getLsbD_ushiftRight]
      grind

theorem placeOp_eq (a b c : W32) : placeOp a b c =
    (a &&& ~~~((BitVec.allOnes 32 >>> (32 - fieldWidth c)) <<< fieldPos c)) |||
      ((b <<< fieldPos c) &&& ((BitVec.allOnes 32 >>> (32 - fieldWidth c)) <<< fieldPos c)) := by
  have hle := fieldPos_add_fieldWidth_le c
  unfold placeOp
  have hp : fldOf c 0 5 = fieldPos c := rfl
  dsimp only
  rw [fldOf_width, hp]
  generalize fieldPos c = p at *
  generalize fieldWidth c = n at *
  apply BitVec.eq_of_getLsbD_eq
  intro i hi
  simp only [BitVec.getLsbD_ofNat, testBit_nput, hi, BitVec.getLsbD_or, BitVec.getLsbD_and, BitVec.getLsbD_not, BitVec.getLsbD_shiftLeft,
    BitVec.getLsbD_ushiftRight, BitVec.getLsbD_allOnes]
  grind

/-- A choice by a flag of MOD is one by the flag's value. -/
theorem minW_eq (signed : Bool) (a b : W32) : minW signed a b =
    if signed then (if b.slt a then b else a) else (if b.ult a then b else a) := by
  cases signed <;> rfl

theorem maxW_eq (signed : Bool) (a b : W32) : maxW signed a b =
    if signed then (if a.slt b then b else a) else (if a.ult b then b else a) := by
  cases signed <;> rfl

theorem mulHigh_eq (signed : Bool) (a b : W32) : mulHigh signed a b =
    if signed then ((a.signExtend 64 * b.signExtend 64) >>> 32).setWidth 32
    else ((a.setWidth 64 * b.setWidth 64) >>> 32).setWidth 32 := by
  cases signed
  · exact mulHigh_unsigned a b
  · exact mulHigh_signed a b

/-- Settles O7: each row's function by its own equation. -/
theorem folioIntegerTwo : Obligations.FolioIntegerTwo := by
  refine folioWritesReg_of ?_
  simp only [List.forall_mem_cons, List.not_mem_nil, false_implies, implies_true, and_true]
  refine ⟨?addw, ?subw, ?mulw, ?mulwh, ?minw, ?maxw, ?andw, ?orw, ?xorw, ?shlw, ?shrw⟩
  case mulwh => exact .of_eq (fun _ _ _ _ => rfl) rfl (fun _ _ _ => rfl) fun _ _ _ _ _ _ => mulHigh_eq ..
  case minw => exact .of_eq (fun _ _ _ _ => rfl) rfl (fun _ _ _ => rfl) fun _ _ _ _ _ _ => minW_eq ..
  case maxw => exact .of_eq (fun _ _ _ _ => rfl) rfl (fun _ _ _ => rfl) fun _ _ _ _ _ _ => maxW_eq ..
  all_goals exact .of_eq (fun _ _ _ _ => rfl) rfl (fun _ _ _ => rfl) fun _ _ _ _ _ _ => rfl

/-! ### One source, moves and exact conversions (R129, R132, R133) -/

/-- The source lane of LANEX by the value of MOD. -/
theorem lanexFrom_eq (m l b : Nat) : lanexFrom m l b =
    if m = 0 then b % 64 else if m = 1 then (if b ≤ l then l - b else l)
    else if m = 2 then (if l + b ≤ 63 then l + b else l) else l ^^^ (b % 64) := by
  match m with
  | 0 | 1 | 2 | _ + 3 => rfl

theorem lt_two_of_modMask_one {m : Nat} (h : modMask 1 m = true) : m < 2 := by
  have e : m &&& 1 = m % 2 := Nat.and_two_pow_sub_one_eq_mod m 1
  simp only [modMask, e, decide_eq_true_eq] at h
  omega

theorem btofHalf_eq (a : W32) {m : Nat} (h : m < 2) : fldOf a (16 * (m % 2)) 16 = a.toNat / 2 ^ (16 * m) % 65536 := by
  simp only [Nat.mod_eq_of_lt h, fldOf, nbits, Nat.shiftRight_eq_div_pow, Nat.reducePow]

theorem fldOf_low {n : Nat} (a : BitVec n) (k : Nat) : fldOf a 0 k = a.toNat % 2 ^ k := rfl

theorem fmtBlock_eq_fmtOk (m : Nat) : (decide (m < 16) && fmtBlock m) = (decide (m < 16) && fmtOk m) := by
  by_cases h : m < 16
  · rw [fmtOk, Nat.mod_eq_of_lt h]
  · simp [h]

/-- Settles O8: each row's function by its own equation; MOD of BTOF is 0 or 1. -/
theorem folioOneSource : Obligations.FolioOneSource := by
  constructor <;> refine folioWritesReg_of ?_ <;>
    simp only [List.forall_mem_cons, List.not_mem_nil, false_implies, implies_true, and_true]
  · refine ⟨?madw, ?ones, ?lzero, ?field, ?place, ?choose, ?setr⟩
    case ones =>
      exact .of_eq (val := fun g w _ l => BitVec.ofNat 32 (popcount 32 (g.srcA w l).toNat)) (fun _ _ _ _ => rfl) rfl
        (fun _ _ _ => rfl) fun g _ w _ lane _ =>
        congrArg (BitVec.ofNat 32) (popcount_eq_countP 32 (g.srcA w lane).toNat)
    case lzero =>
      exact .of_eq (val := fun g w _ l => BitVec.ofNat 32 (countLeadingZeros (g.srcA w l))) (fun _ _ _ _ => rfl) rfl
        (fun _ _ _ => rfl) fun g _ w _ lane _ =>
        congrArg (BitVec.ofNat 32) (countLeadingZeros_eq_find (g.srcA w lane))
    case field => exact .of_eq (fun _ _ _ _ => rfl) rfl (fun _ _ _ => rfl) fun _ _ _ _ _ _ => fieldOp_eq ..
    case place => exact .of_eq (fun _ _ _ _ => rfl) rfl (fun _ _ _ => rfl) fun _ _ _ _ _ _ => placeOp_eq ..
    all_goals exact .of_eq (fun _ _ _ _ => rfl) rfl (fun _ _ _ => rfl) fun _ _ _ _ _ _ => rfl
  · refine ⟨?lanex, ?laneu, ?btof, ?dcde⟩
    case lanex =>
      exact .of_eq (val := fun g w w1 l => g.srcA w (lanexFrom (fMod w) l (g.srcB .int w w1 l).toNat)) (fun _ _ _ _ => rfl) rfl
        (fun _ _ _ => rfl) fun g _ w w1 lane _ =>
        congrArg (g.srcA w) (lanexFrom_eq (fMod w) lane (g.srcB .int w w1 lane).toNat)
    case laneu => exact .of_eq (fun _ _ _ _ => rfl) rfl (fun _ _ _ => rfl) fun _ _ _ _ _ _ => rfl
    case btof =>
      exact .of_eq (val := fun g w _ l => toF32 .rne (bf16 (fldOf (g.srcA w l) (16 * (fMod w % 2)) 16))) (fun _ _ _ _ => rfl) rfl
        (fun _ _ _ => rfl) fun g _ w _ lane h =>
        congrArg (fun n => toF32 .rne (bf16 n)) (btofHalf_eq (g.srcA w lane) (lt_two_of_modMask_one (RSpec.mods_of_legal h)))
    case dcde =>
      exact .of_legal (val := fun g w _ l => toF32 .rne (elemVal (fMod w) (fldOf (g.srcA w l) 0 (fmtBits (fMod w)))))
        (fun _ _ _ _ => rfl) rfl (fun _ _ _ => rfl) (RSpec.legal_mods fmtBlock_eq_fmtOk) fun g _ w _ lane _ =>
        congrArg (fun n => toF32 .rne (elemVal (fMod w) n)) (fldOf_low (g.srcA w lane) (fmtBits (fMod w)))

/-! ### FP32 and BF16 pairs (R129, R130) -/

theorem bf16_fldOf (a : W32) (k : Nat) : bf16 (fldOf a (16 * k) 16) = half16 k a := by
  simp only [half16, fldOf, nbits, Nat.shiftRight_eq_div_pow, Nat.reducePow]

/-- A pair is what its halves give, each rounded once. -/
theorem perHalf_eq (op : Num → Num → Num → Num) (a b c : W32) :
    (perHalf (fun x y z => op (bf16 x) (bf16 y) (bf16 z)) a b c).1 =
      halves fun k => (toBf16 .rne (op (half16 k a) (half16 k b) (half16 k c))).1 := by
  simp only [perHalf, halves, bf16_fldOf]

/-- Settles O9: the FP32 rows as they stand, the pairs by their halves. -/
theorem folioFloat : Obligations.FolioFloat := by
  refine folioWritesReg_of ?_
  simp only [List.forall_mem_cons, List.not_mem_nil, false_implies, implies_true, and_true]
  refine ⟨?addf, ?mulf, ?madf, ?minf, ?maxf, ?addb2, ?mulb2, ?madb2⟩
  case addb2 =>
    exact .of_eq (fun _ _ _ _ => rfl) rfl (fun _ _ _ => rfl) fun _ _ _ _ _ _ => perHalf_eq (fun x y _ => x.add y) ..
  case mulb2 =>
    exact .of_eq (fun _ _ _ _ => rfl) rfl (fun _ _ _ => rfl) fun _ _ _ _ _ _ => perHalf_eq (fun x y _ => x.mul y) ..
  case madb2 =>
    exact .of_eq (fun _ _ _ _ => rfl) rfl (fun _ _ _ => rfl) fun _ _ _ _ _ _ => perHalf_eq (fun x y z => (x.mul y).add z) ..
  all_goals exact .of_eq (fun _ _ _ _ => rfl) rfl (fun _ _ _ => rfl) fun _ _ _ _ _ _ => rfl

end Sys2Proof.Machine

/-!
PROOFS. RECIP, RROOT, POW2 and LOG2 (05_folio_instructions R131, R60), and the Folio tests, PCOMB and POLL (R124, R126, R132).
-/

namespace Sys2Proof.Machine

/-! ### Special cases, whatever the free choice (R131) -/

/-- What RECIP gives for NaN, infinities and zeros. -/
def RecipSpecial (a v : W32) : Prop :=
  match f32 a with
  | .nan => v = 0x7FC00000#32
  | .inf n => v = if n then 0x80000000#32 else 0#32
  | .fin n m => m.n = 0 → v = if n then 0xFF800000#32 else 0x7F800000#32

def RrootSpecial (a v : W32) : Prop :=
  match f32 a with
  | .nan => v = 0x7FC00000#32
  | .inf n => v = if n then 0x7FC00000#32 else 0#32
  | .fin n m => (m.n = 0 → v = if n then 0xFF800000#32 else 0x7F800000#32) ∧ (m.n ≠ 0 ∧ n = true → v = 0x7FC00000#32)

def Pow2Special (a v : W32) : Prop :=
  match f32 a with
  | .nan => v = 0x7FC00000#32
  | .inf n => v = if n then 0#32 else 0x7F800000#32
  | .fin n m => n = false ∧ Mag.lt m { n := 256 } = false → v = 0x7F800000#32

def Log2Special (a v : W32) : Prop :=
  match f32 a with
  | .nan => v = 0x7FC00000#32
  | .inf n => v = if n then 0x7FC00000#32 else 0x7F800000#32
  | .fin n m => (m.n = 0 → v = 0xFF800000#32) ∧ (m.n ≠ 0 ∧ n = true → v = 0x7FC00000#32)

section
variable (pick : Nat) (a : W32)

theorem recip32_special : RecipSpecial a (recip32 pick a) := by
  unfold RecipSpecial recip32
  cases f32 a with
  | nan => rfl
  | inf n => rfl
  | fin n m => exact fun h => if_pos h

theorem rroot32_special : RrootSpecial a (rroot32 pick a) := by
  unfold RrootSpecial rroot32
  cases f32 a with
  | nan => rfl
  | inf n => rfl
  | fin n m => exact ⟨fun h => if_pos h, fun ⟨hm, hn⟩ => (if_neg hm).trans (if_pos hn)⟩

theorem pow232_special : Pow2Special a (pow232 pick a) := by
  unfold Pow2Special pow232
  cases f32 a with
  | nan => rfl
  | inf n => rfl
  | fin n m =>
    rintro ⟨rfl, hbig⟩
    simp only [hbig]
    rfl

theorem log232_special : Log2Special a (log232 pick a) := by
  unfold Log2Special log232
  cases f32 a with
  | nan => rfl
  | inf n => rfl
  | fin n m => exact ⟨fun h => if_pos h, fun ⟨hm, hn⟩ => (if_neg hm).trans (if_pos hn)⟩

end

/-- A special row of a legal word writes its function's value of each lane's operand. -/
theorem folioSpecial_row {c : GRef → W64 → W64 → Instr} {op : Nat} {f : Nat → W32 → W32} {P : W32 → W32 → Prop}
    (hc : ∀ s g w w1, exec (c g w w1) s = carryOut (g.ok && opcodeOk w op) (s.alu g w w1 (special op f)))
    (hm : folioOpcodes.contains op = true) (hf : ∀ pick a, P a (f pick a))
    {s : State} {g : GRef} {w w1 : W64} {s1 : State} {l : Launch} {b : Block} {grp : Group} (hg : g.ok = true) (hop : fOpc w = op)
    (h : Issues s g w s1 l b grp) (hlegal : RSpec.legal { a := .reg, mods := modMask 3 } l.vregs w w1 = true) :
    ∃ (t : State) (x : Group) (val : Nat → W32), exec (c g w w1) s = .next t ∧ OnlyGroup s1 t g ∧ RanTo t g w grp x ∧
      WritesReg w grp x val ∧ ∀ lane, val lane = f (Config.elementary op (modA sgn32 (fMod w) (grp.srcA w lane)))
          (modA sgn32 (fMod w) (grp.srcA w lane)) ∧ P (modA sgn32 (fMod w) (grp.srcA w lane)) (val lane) := by
  have hrow : FolioWritesReg [⟨c, op, { a := .reg, mods := modMask 3 }, fun g w _ lane =>
      f (Config.elementary op (modA sgn32 (fMod w) (g.srcA w lane))) (modA sgn32 (fMod w) (g.srcA w lane))⟩] := by
    refine folioWritesReg_of (List.forall_mem_singleton.2 ?_)
    exact .of_eq hc hm (fun _ _ _ => rfl) fun _ _ _ _ _ _ => rfl
  obtain ⟨t, x, hx, honly, hran, hw⟩ := hrow _ (List.mem_singleton_self _) s g w w1 s1 l b grp hg hop h hlegal
  exact ⟨t, x, _, hx, honly, hran, hw, fun lane => ⟨rfl, hf _ _⟩⟩

/-- Settles O11: one row after the other. -/
theorem folioSpecial : Obligations.FolioSpecial := by
  unfold Obligations.FolioSpecial
  simp only [List.forall_mem_cons, List.not_mem_nil, false_implies, implies_true, and_true]
  refine ⟨?recip, ?rroot, ?pow2, ?log2⟩
  case recip =>
    intro s g w w1 s1 l b grp hg hop h hlegal
    exact folioSpecial_row (P := RecipSpecial) (fun _ _ _ _ => rfl) rfl recip32_special hg hop h hlegal
  case rroot =>
    intro s g w w1 s1 l b grp hg hop h hlegal
    exact folioSpecial_row (P := RrootSpecial) (fun _ _ _ _ => rfl) rfl rroot32_special hg hop h hlegal
  case pow2 =>
    intro s g w w1 s1 l b grp hg hop h hlegal
    exact folioSpecial_row (P := Pow2Special) (fun _ _ _ _ => rfl) rfl pow232_special hg hop h hlegal
  case log2 =>
    intro s g w w1 s1 l b grp hg hop h hlegal
    exact folioSpecial_row (P := Log2Special) (fun _ _ _ _ => rfl) rfl log232_special hg hop h hlegal

/-! ### Predicate results (R124, R126) -/

/-- The number that a mask is built from, bit by bit. -/
theorem maskSum_lt_and_testBit (f : Nat → Bool) (n : Nat) :
    (List.range n).foldl (fun a l => a + b2n (f l) * 2 ^ l) 0 < 2 ^ n ∧
      ∀ i, ((List.range n).foldl (fun a l => a + b2n (f l) * 2 ^ l) 0).testBit i = (decide (i < n) && f i) := by
  induction n with
  | zero => simp
  | succ n ih =>
    obtain ⟨hlt, hbit⟩ := ih
    rw [List.range_succ, List.foldl_append, List.foldl_cons, List.foldl_nil]
    generalize (List.range n).foldl (fun a l => a + b2n (f l) * 2 ^ l) 0 = m at hlt hbit
    constructor
    · cases f n <;> simp [b2n, Nat.pow_succ] <;> omega
    · intro i
      rw [Nat.add_comm, Nat.mul_comm, Nat.testBit_two_pow_mul_add _ hlt, hbit]
      rcases Nat.lt_trichotomy i n with h | rfl | h
      · simp [h, Nat.lt_succ_of_lt h]
      · cases f i <;> simp [b2n]
      · have hpos : i - n ≠ 0 := by omega
        have hb : b2n (f n) < 2 := by cases f n <;> simp [b2n]
        have hbig : b2n (f n) < 2 ^ (i - n) := Nat.lt_of_lt_of_le hb (Nat.le_self_pow hpos 2)
        have h1 : ¬ i < n := by omega
        have h2 : ¬ i < n + 1 := by omega
        simp [h1, h2, Nat.testBit_lt_two_pow hbig]

theorem maskOf_getLsbD (f : Nat → Bool) {i : Nat} (h : i < 64) : (maskOf f).getLsbD i = f i := by
  rw [maskOf, BitVec.getLsbD_ofNat, (maskSum_lt_and_testBit f 64).2]
  simp [h]

theorem Group.rdP_wrPred (g : Group) (p : Nat) (m v : W64) (k i : Nat) (h : i < 64) :
    ((g.wrPred p m v).rdP k).getLsbD i =
      if k = p ∧ m.getLsbD i = true then v.getLsbD i else (g.rdP k).getLsbD i := by
  rw [Group.wrPred, Group.rdP_wrP]
  by_cases hk : k = p
  · subst hk
    rw [if_pos rfl, BitVec.getLsbD_or, BitVec.getLsbD_and, BitVec.getLsbD_and, BitVec.getLsbD_not]
    cases m.getLsbD i <;> simp [h]
  · simp [hk]

theorem FX.putPred_free (x : FX) (w : W64) (f : Nat → Bool) : x.putPred w f = { x with g := (x.putPred w f).g } := by
  unfold FX.putPred
  split
  · split <;> rfl
  · rfl

theorem FX.putPred_group (x : FX) (w : W64) (f : Nat → Bool) :
    ({ (x.putPred w f).g with v := x.g.v, u := x.g.u, p := x.g.p, acc := x.g.acc } : Group) = x.g := by
  unfold FX.putPred
  split
  · split <;> rfl
  · rfl

theorem allOnes_or_zero_getLsbD (b : Bool) {i : Nat} (h : i < 64) : (if b then BitVec.allOnes 64 else 0#64).getLsbD i = b := by
  cases b
  · exact BitVec.getLsbD_zero
  · exact (BitVec.getLsbD_allOnes).trans (decide_eq_true h)

theorem FX.putPred_writes (x : FX) (w : W64) (f : Nat → Bool) (pc : W64) :
    WritesPred w x.g { (x.putPred w f).g with pc := pc } f := by
  unfold WritesPred FX.putPred
  by_cases hU : fU w = true
  · simp only [hU, if_true]
    by_cases ht : x.g.takesU w = true
    · simp only [ht, if_true, Bool.true_and]
      refine ⟨rfl, rfl, rfl, fun k i hi => ?_⟩
      refine (x.g.rdP_wrPred (fD w) x.g.active _ k i hi).trans ?_
      rw [allOnes_or_zero_getLsbD _ hi]
    · simp only [ht]
      exact ⟨rfl, rfl, rfl, fun k i _ => by simp [Group.rdP]⟩
  · simp only [hU]
    refine ⟨rfl, rfl, rfl, fun k i hi => ?_⟩
    refine (x.g.rdP_wrPred (fD w) (x.g.takes w) (maskOf f) k i hi).trans ?_
    rw [maskOf_getLsbD f hi]
    rfl

/-- The command of a row runs, of a legal word, a function that writes the row's predicate. -/
def FolioPredRow.Runs (r : FolioPredRow) : Prop :=
  ∃ f : FExec, (∀ s g w w1, exec (r.cmd g w w1) s = carryOut (g.ok && opcodeOk w r.opcode) (s.alu g w w1 f)) ∧
    folioOpcodes.contains r.opcode = true ∧
    ∀ w w1 x, r.spec.legal x.vregs w w1 = true → f w w1 x = .ok (x.putPred w (r.test x.g w w1))

/-- Where each row of a table runs, each writes its predicate. -/
theorem folioWritesPred_of {rows : List FolioPredRow} (h : ∀ r ∈ rows, r.Runs) : FolioWritesPred rows := by
  intro r hr s g w w1 s1 l b grp hg hop hi hlegal
  obtain ⟨f, hc, hm, hf⟩ := h r hr
  have hrun := State.alu_of hi (hop ▸ hm) ((hf w w1 (fxOf s1 g l grp) hlegal).trans (congrArg _ (FX.putPred_free ..)))
  refine ⟨_, _, ?_, hrun.2, .intro hrun.1 (FX.putPred_group (fxOf s1 g l grp) w _), FX.putPred_writes (fxOf s1 g l grp) w _ _⟩
  rw [hc]
  exact carryOut_folio hg hop _

theorem FolioPredRow.Runs.of_eq {cmd : GRef → W64 → W64 → Instr} {op : Nat} {p : RSpec} {f : W64 → W64 → FX → FX}
    {test : Group → W64 → W64 → Nat → Bool}
    (hc : ∀ s g w w1, exec (cmd g w w1) s = carryOut (g.ok && opcodeOk w op) (s.alu g w w1 (p.run f)))
    (hm : folioOpcodes.contains op = true) {val : Group → W64 → W64 → Nat → Bool}
    (hf : ∀ w w1 x, f w w1 x = x.putPred w (val x.g w w1))
    (hval : ∀ g v w w1 lane, p.legal v w w1 = true → val g w w1 lane = test g w w1 lane) : FolioPredRow.Runs ⟨cmd, op, p, test⟩ :=
  ⟨p.run f, hc, hm, fun w w1 x h => (if_pos h).trans (congrArg Except.ok ((hf w w1 x).trans
    (congrArg (x.putPred w) (funext fun lane => hval x.g x.vregs w w1 lane h))))⟩

/-! ### TESTW, TESTF, PCOMB and POLL -/

theorem combPred_eq (m : Nat) (a b : Bool) (h : m < 4) : combPred m a b =
    if m = 0 then a && b else if m = 1 then a || b else if m = 2 then a != b else a && !b := by
  match m, h with
  | 0, _ | 1, _ | 2, _ | 3, _ => rfl

theorem lt_four_of_modMask_three {m : Nat} (h : modMask 3 m = true) : m < 4 := by
  have e : m &&& 3 = m % 4 := Nat.and_two_pow_sub_one_eq_mod m 2
  simp only [modMask, e, decide_eq_true_eq] at h
  omega

theorem nbit_three_of_lt {m : Nat} (h : m < 16) : nbit m 3 = decide (8 ≤ m) := by
  rw [nbit_eq_decide]
  exact decide_eq_decide.2 (by omega)

/-- An opcode that does not take U has U = 0 in a legal word. -/
theorem RSpec.fU_of_legal {p : RSpec} {v : Nat} {w w1 : W64} (h : p.legal v w w1 = true) (hu : p.u = 0) : fU w = false := by
  simp only [RSpec.legal, commonOk, Bool.and_eq_true, hu] at h
  cases e : fU w with
  | false => rfl
  | true => simp [e] at h

/-- One that takes nothing else has U = 1. -/
theorem RSpec.fU_of_legal_two {p : RSpec} {v : Nat} {w w1 : W64} (h : p.legal v w w1 = true) (hu : p.u = 2) : fU w = true := by
  simp only [RSpec.legal, commonOk, Bool.and_eq_true, hu] at h
  cases e : fU w with
  | true => rfl
  | false => simp [e] at h

/-- Every lane of a mask is in another where none lies outside it. -/
theorem and_beq_self (t p : W64) : (t &&& p == t) = decide (t &&& ~~~p = 0#64) := by
  have h : t &&& p = t ↔ t &&& ~~~p = 0#64 := by
    simp only [BitVec.eq_of_getLsbD_eq_iff, BitVec.getLsbD_and, BitVec.getLsbD_not, BitVec.getLsbD_zero]
    refine forall₂_congr fun i hi => ?_
    cases t.getLsbD i <;> cases p.getLsbD i <;> simp [hi]
  rw [← decide_eq_decide.2 h]
  rfl

theorem poll_runs : FolioPredRow.Runs ⟨.poll, 0x26, { d := .num 8, a := .num 8, mods := fun m => decide (m = 1 ∨ m = 2) },
    fun g w _ _ => if fMod w = 1 then decide (g.takes w &&& g.rdP (fA w) ≠ 0#64)
      else decide (g.takes w &&& ~~~g.rdP (fA w) = 0#64)⟩ := by
  refine ⟨fxPoll, fun _ _ _ _ => rfl, rfl, fun w w1 x h => ?_⟩
  have hU := RSpec.fU_of_legal h rfl
  simp only [fxPoll, hU, RSpec.run]
  rw [if_neg Bool.false_ne_true, if_pos h, and_beq_self]
  refine congrArg (fun b => Except.ok (x.putPred w fun _ => b)) ?_
  refine ite_congr rfl (fun _ => ?_) fun _ => rfl
  exact (decide_not (p := x.g.takes w &&& x.g.rdP (fA w) = 0#64)).symm

theorem testInt_eq {m : Nat} (h : m < 16) (a b : W32) :
    testInt m a b = condHolds (m % 8) (a == b) (if 8 ≤ m then a.slt b else a.ult b) := by
  simp only [testInt, nbit_three_of_lt h, decide_eq_true_eq]

theorem testF32_eq {m : Nat} (h : m < 6) (a b : W32) : testF32 m a b =
    if (f32 a).isNan || (f32 b).isNan then decide (m = 1)
    else condHolds m (!((f32 a).lt (f32 b)) && !((f32 b).lt (f32 a))) ((f32 a).lt (f32 b)) := by
  rw [testF32, Nat.mod_eq_of_lt (by omega)]

/-- The two halves of a mask written to a pair of uniform registers. -/
def Group.wrU2 (g : Group) (d : Nat) (m : W64) : Group :=
  (g.wrU d (BitVec.ofNat 32 m.toNat)).wrU (d + 1) (BitVec.ofNat 32 (m.toNat >>> 32))

section
variable (g : Group) (d : Nat) (m : W64)

theorem Group.rdU_wrU2 : (g.wrU2 d m).rdU (d + 1) ++ (g.wrU2 d m).rdU d = m := by
  have hd : d ≠ d + 1 := by omega
  rw [Group.wrU2, Group.rdU_wrU, Group.rdU_wrU _ _ d, if_pos rfl, if_neg hd, Group.rdU_wrU, if_pos rfl]
  apply BitVec.eq_of_toNat_eq
  have hm : m.toNat < 2 ^ 64 := m.isLt
  rw [BitVec.toNat_append, ← Nat.shiftLeft_add_eq_or_of_lt (BitVec.isLt _)]
  simp only [BitVec.toNat_ofNat, Nat.shiftLeft_eq, Nat.shiftRight_eq_div_pow]
  omega

theorem Group.rdU_wrU2_of_ne {k : Nat} (h : k ≠ d ∧ k ≠ d + 1) : (g.wrU2 d m).rdU k = g.rdU k := by
  rw [Group.wrU2, Group.rdU_wrU, if_neg h.2, Group.rdU_wrU, if_neg h.1]

end

/-- What POLL MASK does to its group. -/
def Group.pollMask (g : Group) (w : W64) : Group :=
  if g.takesU w then g.wrU2 (fD w) (g.takes w &&& g.rdP (fA w)) else g

theorem fxPoll_mask {w w1 : W64} {x : FX}
    (h : RSpec.legal { u := 2, d := .uni 2, a := .num 8, mods := modMask 0 } x.vregs w w1 = true) :
    fxPoll w w1 x = .ok { x with g := x.g.pollMask w } := by
  have hU := RSpec.fU_of_legal_two h rfl
  have hmods : ∀ m, modMask 0 m = decide (m = 0) := fun m => by
    simp only [modMask, Nat.and_zero, eq_comm (a := 0)]
  have hl : RSpec.legal { u := 2, d := .uni 2, a := .num 8, mods := fun m => decide (m = 0) } x.vregs w w1 = true :=
    (RSpec.legal_mods (p := { u := 2, d := .uni 2, a := .num 8, mods := modMask 0 }) hmods x.vregs w w1).symm.trans h
  simp only [fxPoll, hU, if_true, RSpec.run, hl, Group.pollMask]
  split <;> rfl

theorem Group.pollMask_rest (g : Group) (w : W64) :
    ({ g.pollMask w with v := g.v, u := g.u, p := g.p, acc := g.acc } : Group) = g := by
  unfold Group.pollMask
  split <;> rfl

theorem Group.pollMask_files (g : Group) (w : W64) :
    (g.pollMask w).v = g.v ∧ (g.pollMask w).p = g.p ∧ (g.pollMask w).acc = g.acc := by
  unfold Group.pollMask
  split <;> exact ⟨rfl, rfl, rfl⟩

/-- Settles O10: TESTW, TESTF and PCOMB by their equations, POLL by U. -/
theorem folioPredicates : Obligations.FolioPredicates := by
  constructor
  · refine folioWritesPred_of ?_
    simp only [List.forall_mem_cons, List.not_mem_nil, false_implies, implies_true, and_true]
    refine ⟨?testw, ?testf, ?pcomb, poll_runs⟩
    case testw =>
      refine .of_eq (val := fun g w w1 lane => testInt (fMod w) (g.srcA w lane) (g.srcB .int w w1 lane)) (fun _ _ _ _ => rfl) rfl
        (fun _ _ _ => rfl) fun _ _ _ _ _ h => testInt_eq ?_ _ _
      exact of_decide_eq_true (Bool.and_eq_true_iff.1 (RSpec.mods_of_legal h)).1
    case testf =>
      refine .of_eq (val := fun g w w1 lane => testF32 (fMod w) (g.srcA w lane) (g.srcB .f32 w w1 lane)) (fun _ _ _ _ => rfl) rfl
        (fun _ _ _ => rfl) fun _ _ _ _ _ h => testF32_eq ?_ _ _
      exact of_decide_eq_true (RSpec.mods_of_legal h)
    case pcomb =>
      exact .of_eq (val := fun g w _ lane => combPred (fMod w) ((g.rdP (fA w)).getLsbD lane) ((g.rdP (fB w)).getLsbD lane))
        (fun _ _ _ _ => rfl) rfl (fun _ _ _ => rfl) fun _ _ _ _ _ h =>
          combPred_eq _ _ _ (lt_four_of_modMask_three (RSpec.mods_of_legal h))
  · intro s g w w1 s1 l b grp hg hop h hlegal
    have hrun := State.alu_of h (hop ▸ rfl) (fxPoll_mask (x := fxOf s1 g l grp) hlegal)
    obtain ⟨hv, hp, hacc⟩ := grp.pollMask_files w
    refine ⟨_, _, carryOut_folio hg hop _, hrun.2, .intro hrun.1 (grp.pollMask_rest w), hv, hp, hacc, fun k hk => ?_, fun ht => ?_⟩
    · show (grp.pollMask w).rdU k = grp.rdU k
      unfold Group.pollMask
      split
      case isTrue ht => exact grp.rdU_wrU2_of_ne _ _ (hk.resolve_left (by simp [ht]))
      case isFalse => rfl
    · have e : (grp.pollMask w).rdU (fD w + 1) ++ (grp.pollMask w).rdU (fD w) = grp.takes w &&& grp.rdP (fA w) := by
        rw [Group.pollMask, if_pos ht]
        exact grp.rdU_wrU2 ..
      exact e

end Sys2Proof.Machine

/-!
PROOFS. Folio conversions (05_folio_instructions R133-R135; 02_narrow_formats R46-R52): what the draws of an instruction
are, and what each lane's conversion writes and counts.
-/

namespace Sys2Proof.Machine

/-! ### Draws (R47, R48) -/

theorem drawsSr_length (k : Nat) (sr : W64) : (drawsSr k sr).2.length = k := by
  induction k generalizing sr with
  | zero => rfl
  | succ k ih => exact congrArg (· + 1) (ih _)

/-- Each draw dealt is one of those there are, while they last. -/
theorem dealDraws_getD_mem {k : Nat} (free : Nat) {ds : List Nat} (hk : k ≤ ds.length) {i : Nat} (hi : i < k) :
    (dealDraws k free ds).getD i 0 ∈ ds := by
  induction k generalizing free ds i with
  | zero => omega
  | succ k ih =>
    have hpos : 0 < ds.length := by omega
    have hmod : Config.freeNat free % ds.length < ds.length := Nat.mod_lt _ hpos
    rw [dealDraws]
    cases i with
    | zero =>
      rw [List.getD_cons_zero, List.getD_eq_getElem?_getD, List.getElem?_eq_getElem hmod, Option.getD_some]
      exact List.getElem_mem hmod
    | succ i =>
      rw [List.getD_cons_succ]
      have hlen := List.length_eraseIdx_of_lt hmod
      exact List.mem_of_mem_eraseIdx (ih (free + 1) (by omega) (by omega))

section
variable (x : FX) (rm k : Nat)

/-- Draws move on the generator and the free values alone. -/
theorem FX.draws_fst : (x.draws rm k).1 =
    { x with sr := srAfter rm k x.sr, free := if rm = 2 then x.free + k else x.free } := by
  unfold FX.draws srAfter
  split <;> rfl

/-- Draws given to lanes by places below their number. -/
theorem FX.draws_drawn {lanes : List Nat} {rank : Nat → Nat} (h : ∀ l ∈ lanes, rank l < k) :
    Drawn rm k x.sr lanes fun l => (x.draws rm k).2 (rank l) := by
  intro hrm l hl
  simp only [FX.draws, if_pos hrm]
  exact dealDraws_getD_mem x.free (Nat.le_of_eq (drawsSr_length k x.sr).symm) (h l hl)

end

section
variable (x : FX) (rm k : Nat) (w : W64) (f : Nat → W32)

/-- Neither draws nor a register result count an event. -/
theorem FX.drawn_sat : ((x.draws rm k).1.putReg w f).sat = x.sat := by rw [FX.putReg_free, FX.draws_fst]

theorem FX.drawn_flushed : ((x.draws rm k).1.putReg w f).flushed = x.flushed := by rw [FX.putReg_free, FX.draws_fst]

theorem FX.drawn_invalid : ((x.draws rm k).1.putReg w f).invalid = x.invalid := by rw [FX.putReg_free, FX.draws_fst]

end

theorem rankIn_lt {m : W64} {l : Nat} (h : l ∈ lanesOf m) : rankIn m l < (lanesOf m).length := by
  have hne : (lanesOf m).takeWhile (fun k => decide (k < l)) ≠ lanesOf m := fun e => by
    have hall := List.all_takeWhile (p := fun k => decide (k < l)) (l := lanesOf m)
    rw [e] at hall
    exact absurd (of_decide_eq_true (List.all_eq_true.1 hall l h)) (Nat.lt_irrefl l)
  exact Nat.lt_of_le_of_ne (List.takeWhile_prefix _).length_le fun e => hne ((List.takeWhile_prefix _).eq_of_length e)

/-! ### Instructions that draw and count -/

section
variable {s s1 : State} {g : GRef} {w w1 : W64} {l : Launch} {b : Block} {grp : Group} {c : Instr} {op : Nat} {f : FExec}
  (hc : exec c s = carryOut (g.ok && opcodeOk w op) (s.alu g w w1 f)) (hm : folioOpcodes.contains op = true)
  (hg : g.ok = true) (h : Issues s g w s1 l b grp) (hop : fOpc w = op)
include hc hm hg h hop

/-- An instruction on registers alone leaves what its function does. -/
theorem folio_counted {y : FX} (hf : f w w1 (fxOf s1 g l grp) = .ok y)
    (hrest : ({ y.g with v := grp.v, u := grp.u, p := grp.p, acc := grp.acc } : Group) = grp) :
    ∃ t, exec c s = .next t ∧ GroupAndRun s1 t g l.run y.sr y.sat y.flushed y.inclOvf y.invalid ∧
      RanTo t g w grp { y.g with pc := y.g.pc + fLen w } := by
  refine ⟨(s1.counted (texB g.core + 0x50) l.run y).nextPc g y.g w, ?_, .of_counted .., .intro (State.grp?_setGrp_same ..) hrest⟩
  rw [hc, State.alu_eq_nextPc h (hop ▸ hm) hf]
  exact carryOut_folio hg hop _

/-- One that draws and writes a register. -/
theorem folio_draws {rm k : Nat} {val : (Nat → Nat) → Nat → W32} {sat flushed invalid : Nat}
    (hf : f w w1 (fxOf s1 g l grp) = .ok
      { ((fxOf s1 g l grp).draws rm k).1.putReg w (val ((fxOf s1 g l grp).draws rm k).2) with
        sat := sat, flushed := flushed, invalid := invalid }) :
    ∃ t x, exec c s = .next t ∧
      GroupAndRun s1 t g l.run (srAfter rm k (s1.reg (texB g.core + 0x50))) sat flushed 0 invalid ∧ RanTo t g w grp x ∧
      WritesReg w grp x (val ((fxOf s1 g l grp).draws rm k).2) := by
  have hd := (fxOf s1 g l grp).draws_fst rm k
  generalize (fxOf s1 g l grp).draws rm k = d at hd hf
  obtain ⟨z, draw⟩ := d
  simp only at hd hf
  have hzg : z.g = grp := congrArg FX.g hd
  have hsr : (z.putReg w (val draw)).sr = srAfter rm k (s1.reg (texB g.core + 0x50)) :=
    (congrArg FX.sr (FX.putReg_free ..)).trans (congrArg FX.sr hd)
  have hincl : (z.putReg w (val draw)).inclOvf = 0 := (congrArg FX.inclOvf (FX.putReg_free ..)).trans (congrArg FX.inclOvf hd)
  obtain ⟨t, hx, hrun, hran⟩ := folio_counted hc hm hg h hop hf (hzg ▸ FX.putReg_group z w (val draw))
  exact ⟨t, _, hx, hsr ▸ hincl ▸ hrun, hran, hzg ▸ FX.putReg_writes z w (val draw) _⟩

/-- One that draws, counts nothing and writes a register. -/
theorem folio_drawsOnly {rm k : Nat} {val : (Nat → Nat) → Nat → W32}
    (hf : f w w1 (fxOf s1 g l grp) = .ok
      (((fxOf s1 g l grp).draws rm k).1.putReg w (val ((fxOf s1 g l grp).draws rm k).2))) :
    ∃ t x, exec c s = .next t ∧
      GroupAndRun s1 t g l.run (srAfter rm k (s1.reg (texB g.core + 0x50))) 0 0 0 0 ∧ RanTo t g w grp x ∧
      WritesReg w grp x (val ((fxOf s1 g l grp).draws rm k).2) := by
  refine folio_draws hc hm hg h hop (hf.trans (congrArg Except.ok ?_))
  rw [FX.putReg_free, FX.draws_fst]
  rfl

end

/-! ### WTOF, FTOW, FTOB and CVTE (R133) -/

theorem nbits_one_two {m : Nat} (h : m < 6) : nbits m 1 2 = m / 2 := by
  simp only [nbits, Nat.shiftRight_eq_div_pow]
  omega

theorem nbits_four_two {m : Nat} (h : m < 48) : nbits m 4 2 = m / 16 := by
  simp only [nbits, Nat.shiftRight_eq_div_pow]
  omega

theorem nbit_zero (m : Nat) : nbit m 0 = decide (m % 2 = 1) := by
  rw [nbit_eq_decide, Nat.pow_zero, Nat.div_one]

/-- MOD[2:1] is a rounding code. -/
theorem rounds_of_lt_six (m : Nat) : decide (m < 6) = (decide (m < 8) && rmOk (nbits m 1 2)) := by
  rw [rmOk, nbits, Nat.shiftRight_eq_div_pow, ← Bool.decide_and]
  exact decide_eq_decide.2 (by omega)

theorem roundsEven_of_lt_six (m : Nat) :
    (decide (m < 6) && decide (m % 2 = 0)) = (decide (m < 8) && !nbit m 0 && rmOk (nbits m 1 2)) := by
  rw [rounds_of_lt_six, Bool.and_right_comm, nbit_zero, ← decide_not]
  exact congrArg (decide (m < 8) && · && rmOk (nbits m 1 2)) (decide_eq_decide.2 (by omega))

/-- MOD[5:4] is a rounding code and MOD[3:0] a format. -/
theorem converts_of_lt (m : Nat) :
    (decide (m < 48) && fmtBlock (m % 16)) = (decide (m < 64) && fmtOk m && rmOk (nbits m 4 2)) := by
  have e : decide (m < 48) = (decide (m < 64) && rmOk (nbits m 4 2)) := by
    rw [rmOk, nbits, Nat.shiftRight_eq_div_pow, ← Bool.decide_and]
    exact decide_eq_decide.2 (by omega)
  rw [e, fmtOk, Bool.and_right_comm]

theorem foldl_add_two (f h : Nat → Nat) (ls : List Nat) (n : Nat) :
    ls.foldl (fun a l => a + f l + h l) n = n + (ls.map fun l => f l + h l).sum := by
  induction ls generalizing n with
  | nil => rfl
  | cons l ls ih => rw [List.foldl_cons, ih, List.map_cons, List.sum_cons]; omega

theorem foldl_counts (q : Nat → QRes) (ls : List Nat) (y : FX) :
    ls.foldl (fun y l => { y with sat := y.sat + (q l).sat, flushed := y.flushed + (q l).flushed, invalid := y.invalid + (q l).invalid }) y =
      { y with sat := y.sat + (ls.map fun l => (q l).sat).sum, flushed := y.flushed + (ls.map fun l => (q l).flushed).sum,
               invalid := y.invalid + (ls.map fun l => (q l).invalid).sum } := by
  induction ls generalizing y with
  | nil => rfl
  | cons l ls ih => simp only [List.foldl_cons, ih, List.map_cons, List.sum_cons, Nat.add_assoc]

/-- Settles O12: each row by what it draws and what it writes of the draws. -/
theorem folioConversions : Obligations.FolioConversions := by
  refine ⟨fun s g w w1 s1 l b grp hg h => ⟨fun hop hlegal => ?wtof, fun hop hlegal => ?ftow, fun hop hlegal => ?ftob⟩,
    fun s g w w1 s1 l b grp hg hop h hlegal => ?cvte⟩
  case wtof =>
    have hm : fMod w < 6 := of_decide_eq_true (RSpec.mods_of_legal hlegal)
    have hl := (RSpec.legal_mods rounds_of_lt_six _ _ _).symm.trans hlegal
    have hf : fxWtof w w1 (fxOf s1 g l grp) = _ := if_pos hl
    simp only [nbits_one_two hm, nbit_zero, decide_eq_true_eq] at hf
    obtain ⟨t, x, hx, hrun, hran, hw⟩ := folio_drawsOnly (c := .wtof g w w1) (val := fun draw lane =>
      toF32 (modeOf (fMod w / 2) (draw (rankIn (grp.takes w) lane)))
        (Num.ofInt (if fMod w % 2 = 1 then (grp.srcA w lane).toInt else (grp.srcA w lane).toNat))) rfl rfl hg h hop hf
    exact ⟨t, x, _, hx, FX.draws_drawn _ _ _ fun _ => rankIn_lt, hrun, hran, hw⟩
  case ftow =>
    have hm : fMod w < 6 := of_decide_eq_true (RSpec.mods_of_legal hlegal)
    have hl := (RSpec.legal_mods rounds_of_lt_six _ _ _).symm.trans hlegal
    have hf : fxFtow w w1 (fxOf s1 g l grp) = _ := if_pos hl
    simp only [nbits_one_two hm, nbit_zero] at hf
    obtain ⟨t, x, hx, hrun, hran, hw⟩ := folio_drawsOnly (c := .ftow g w w1) (val := fun draw lane =>
      ftow (decide (fMod w % 2 = 1)) (modeOf (fMod w / 2) (draw (rankIn (grp.takes w) lane))) (grp.srcA w lane)) rfl rfl hg h hop hf
    exact ⟨t, x, _, hx, FX.draws_drawn _ _ _ fun _ => rankIn_lt, hrun, hran, hw⟩
  case ftob =>
    obtain ⟨hm, -⟩ := Bool.and_eq_true_iff.1 (RSpec.mods_of_legal hlegal)
    have hm : fMod w < 6 := of_decide_eq_true hm
    have hl := (RSpec.legal_mods roundsEven_of_lt_six _ _ _).symm.trans hlegal
    have hf : fxFtob w w1 (fxOf s1 g l grp) = _ := if_pos hl
    simp only [nbits_one_two hm, if_pos, Nat.add_zero, Nat.one_ne_zero, if_false, foldl_add_two, FX.drawn_sat, FX.drawn_invalid] at hf
    obtain ⟨t, x, hx, hrun, hran, hw⟩ := folio_draws (c := .ftob g w w1) (val := fun draw lane =>
      BitVec.ofNat 32 ((toBf16 (modeOf (fMod w / 2) (draw (2 * rankIn (grp.takes w) lane + 1))) (f32 (grp.srcB .f32 w w1 lane))).1 * 65536 +
        (toBf16 (modeOf (fMod w / 2) (draw (2 * rankIn (grp.takes w) lane))) (f32 (grp.srcA w lane))).1)) rfl rfl hg h hop hf
    refine ⟨t, x, _, _, hx, FX.draws_drawn (fxOf s1 g l grp) (fMod w / 2) _ (rank := fun lane => 2 * rankIn (grp.takes w) lane) ?_,
      FX.draws_drawn (fxOf s1 g l grp) (fMod w / 2) _ (rank := fun lane => 2 * rankIn (grp.takes w) lane + 1) ?_, ?_, hran, hw⟩
    · intro lane hlane
      have := rankIn_lt hlane
      omega
    · intro lane hlane
      have := rankIn_lt hlane
      omega
    · simpa only [fxOf, Nat.zero_add] using hrun
  case cvte =>
    obtain ⟨hm, -⟩ := Bool.and_eq_true_iff.1 (RSpec.mods_of_legal hlegal)
    have hm : fMod w < 48 := of_decide_eq_true hm
    have hl := (RSpec.legal_mods converts_of_lt _ _ _).symm.trans hlegal
    have hf : fxCvte w w1 (fxOf s1 g l grp) = _ := if_pos hl
    simp only [nbits_four_two hm, foldl_counts, FX.drawn_sat, FX.drawn_invalid, FX.drawn_flushed] at hf
    obtain ⟨t, x, hx, hrun, hran, hw⟩ := folio_draws (c := .cvte g w w1) (val := fun draw lane =>
      BitVec.ofNat 32 ((quantiseOne (grp.srcA w lane) (fMod w % 16) (modeOf (fMod w / 16) (draw (rankIn (grp.takes w) lane)))).codes.headD 0))
      rfl rfl hg h hop hf
    refine ⟨t, x, _, hx, FX.draws_drawn _ _ _ fun _ => rankIn_lt, ?_, hran, hw⟩
    simpa only [fxOf, Nat.zero_add] using hrun

end Sys2Proof.Machine

/-!
PROOFS. QBLK and DQBLK (05_folio_instructions R134, R135): what one half of a group writes and counts, and both halves in turn.
-/

namespace Sys2Proof.Machine

/-! ### The halves of a group -/

theorem halvesOf_cases (t : W64) : halvesOf t = [] ∨ halvesOf t = [0] ∨ halvesOf t = [32] ∨ halvesOf t = [0, 32] := by
  unfold halvesOf
  simp only [List.filter_cons, List.filter_nil]
  split <;> split <;> simp

theorem halvesOf_nodup (t : W64) : (halvesOf t).Nodup := List.Pairwise.filter _ (by decide)

theorem mem_halvesOf_le {t : W64} {h : Nat} (hh : h ∈ halvesOf t) : h = 0 ∨ h = 32 := by
  have e := (List.mem_filter.1 hh).1
  simpa using e

/-- A lane that takes part lies in a half that does. -/
theorem half_mem_halvesOf {t : W64} {lane : Nat} (hl : lane < 64) (ht : t.getLsbD lane = true) : lane / 32 * 32 ∈ halvesOf t := by
  refine List.mem_filter.2 ⟨?_, List.any_eq_true.2 ⟨lane % 32, List.mem_range.2 (Nat.mod_lt _ (by decide)), ?_⟩⟩
  · have : lane / 32 = 0 ∨ lane / 32 = 1 := by omega
    rcases this with e | e <;> simp [e]
  · rw [Nat.div_add_mod']
    exact ht

/-- What the halves of a list write, each in its own lanes, and each once. -/
theorem rdV_foldl_halves {F : FX → Nat → FX} {U : Nat → Nat → W32 → W32} {hs : List Nat}
    (hF : ∀ b ∈ hs, ∀ y k lane, lane < 64 →
      (F y b).g.rdV k lane = if lane / 32 * 32 = b then U k lane (y.g.rdV k lane) else y.g.rdV k lane)
    (hnd : hs.Nodup) (y : FX) (k : Nat) {lane : Nat} (hl : lane < 64) :
    (hs.foldl F y).g.rdV k lane = if lane / 32 * 32 ∈ hs then U k lane (y.g.rdV k lane) else y.g.rdV k lane := by
  induction hs generalizing y with
  | nil => rfl
  | cons b hs ih =>
    obtain ⟨hb, hnd⟩ := List.nodup_cons.1 hnd
    obtain ⟨hFb, hFhs⟩ := List.forall_mem_cons.1 hF
    rw [List.foldl_cons, ih hFhs hnd, hFb y k lane hl]
    by_cases e : lane / 32 * 32 = b
    · rw [if_neg (e ▸ hb), if_pos e, if_pos (e ▸ List.mem_cons_self)]
    · rw [if_neg e]
      simp only [List.mem_cons, e, false_or]

/-- A number to which each step adds. -/
theorem foldl_adds {α β : Type} {F : β → α → β} {p : β → Nat} {n : α → Nat} (hF : ∀ y b, p (F y b) = p y + n b) (y : β) (bs : List α) :
    p (bs.foldl F y) = p y + (bs.map n).sum := by
  induction bs generalizing y with
  | nil => rfl
  | cons b bs ih => rw [List.foldl_cons, ih, hF, List.map_cons, List.sum_cons, Nat.add_assoc]

theorem halfMask_getLsbD (t : W64) (b : Nat) {lane : Nat} (hl : lane < 64) :
    (t &&& maskOf fun l => decide (b ≤ l) && decide (l < b + 32)).getLsbD lane =
      (t.getLsbD lane && (decide (b ≤ lane) && decide (lane < b + 32))) := by
  rw [BitVec.getLsbD_and, maskOf_getLsbD _ hl]

/-- Writes of a vector register in lanes that follow each other. -/
theorem Group.rdV_foldl_wrV (g : Group) (r b n : Nat) (f : Nat → W32) (hb : b + n ≤ 64) (k : Nat) {lane : Nat} (hl : lane < 64) :
    ((List.range n).foldl (fun g i => g.wrV r (b + i) (f i)) g).rdV k lane =
      if k = r ∧ b ≤ lane ∧ lane < b + n then f (lane - b) else g.rdV k lane := by
  induction n with
  | zero =>
    have : ¬(k = r ∧ b ≤ lane ∧ lane < b + 0) := by omega
    rw [if_neg this]
    rfl
  | succ n ih =>
    rw [List.range_succ, List.foldl_append, List.foldl_cons, List.foldl_nil, Group.rdV_wrV _ _ _ _ _ _ (by omega) hl, ih (by omega)]
    by_cases e : k = r ∧ lane = b + n
    · obtain ⟨rfl, rfl⟩ := e
      rw [if_pos ⟨rfl, rfl⟩, if_pos ⟨rfl, by omega, by omega⟩]
      congr 1
      omega
    · rw [if_neg e]
      refine ite_congr (propext ?_) (fun _ => rfl) fun _ => rfl
      omega

/-- A group without its vector registers. -/
def Group.noV (g : Group) : Group := { g with v := [] }

theorem Group.noV_wrLanes (g : Group) (r : Nat) (m : W64) (f : Nat → W32) : (g.wrLanes r m f).noV = g.noV :=
  foldl_leaves (f := Group.noV) (F := fun g l => g.wrV r l (f l)) (fun _ _ => rfl) g (lanesOf m)

theorem Group.noV_foldl_wrV (g : Group) (r b n : Nat) (f : Nat → W32) :
    ((List.range n).foldl (fun g i => g.wrV r (b + i) (f i)) g).noV = g.noV :=
  foldl_leaves (f := Group.noV) (F := fun g i => g.wrV r (b + i) (f i)) (fun _ _ => rfl) g (List.range n)

theorem Group.rest_of_noV {x g : Group} (h : x.noV = g.noV) :
    ({ x with v := g.v, u := g.u, p := g.p, acc := g.acc } : Group) = g :=
  congrArg (fun y : Group => { y with v := g.v, u := g.u, p := g.p, acc := g.acc }) h

theorem Group.files_of_noV {x g : Group} (h : x.noV = g.noV) : x.u = g.u ∧ x.p = g.p ∧ x.acc = g.acc :=
  ⟨(congrArg Group.u h :), (congrArg Group.p h :), (congrArg Group.acc h :)⟩

/-! ### QBLK (R134) -/

/-- The quantised block of the half from lane `h`. -/
def qblkOf (w w1 : W64) (t : W64) (g : Group) (draw : Nat → Nat) (h : Nat) : QRes :=
  quantiseBlock ((List.range 32).map fun i => if t.getLsbD (h + i) then g.srcA w (h + i) else 0#32) (g.srcB .f32 w w1 h) (fMod w % 16)
    (fun i => modeOf (fMod w / 16 % 4) (draw (h + i))) (if nbit (fMod w) 6 then some ((g.srcC w h).toNat % 256) else none) (nbit (fMod w) 7)

/-- What QBLK writes to a register of a lane of a half in which a lane takes part. -/
def qblkWord (w : W64) (t : W64) (q : Nat → QRes) (k lane : Nat) (old : W32) : W32 :=
  let h := lane / 32 * 32
  if k = fD w then (if t.getLsbD lane then BitVec.ofNat 32 ((q h).codes.getD (lane % 32) 0) else old)
  else if k = fD w + 1 then
    BitVec.ofNat 32 (if lane % 32 = 0 then (q h).sc else if lane % 32 = 1 ∧ nbit (fMod w) 7 then (q h).incl else 0)
  else old

theorem nbits_four_two_eq (m : Nat) : nbits m 4 2 = m / 16 % 4 := by
  simp only [nbits, Nat.shiftRight_eq_div_pow, Nat.reducePow]

section
variable (w w1 t : W64) (g0 : Group) (draw : Nat → Nat) (b : Nat) (y : FX)

/-- The two registers that QBLK writes in the half from lane `b`. -/
def Group.putQblk (g : Group) (w t : W64) (b : Nat) (q : QRes) : Group :=
  (List.range 32).foldl (fun g i =>
      g.wrV (fD w + 1) (b + i) (BitVec.ofNat 32 (if i = 0 then q.sc else if i = 1 ∧ nbit (fMod w) 7 then q.incl else 0)))
    (g.wrLanes (fD w) (t &&& maskOf fun l => decide (b ≤ l) && decide (l < b + 32)) fun l => BitVec.ofNat 32 (q.codes.getD (l - b) 0))

theorem qblkHalf_eq : qblkHalf w w1 t g0 b (fun i => draw (b + i)) y =
    { y with g := y.g.putQblk w t b (qblkOf w w1 t g0 draw b)
             sat := y.sat + (qblkOf w w1 t g0 draw b).sat, flushed := y.flushed + (qblkOf w w1 t g0 draw b).flushed
             inclOvf := y.inclOvf + (qblkOf w w1 t g0 draw b).inclOvf, invalid := y.invalid + (qblkOf w w1 t g0 draw b).invalid } := by
  simp only [qblkHalf, nbits_four_two_eq]
  rfl

theorem Group.noV_putQblk (g : Group) (q : QRes) : (g.putQblk w t b q).noV = g.noV :=
  (Group.noV_foldl_wrV ..).trans (Group.noV_wrLanes ..)

theorem Group.rdV_putQblk (g : Group) (q : Nat → QRes) (hb : b = 0 ∨ b = 32) (k : Nat) {lane : Nat} (hl : lane < 64) :
    (g.putQblk w t b (q b)).rdV k lane = if lane / 32 * 32 = b then qblkWord w t q k lane (g.rdV k lane) else g.rdV k lane := by
  have hle : b + 32 ≤ 64 := by omega
  rw [Group.putQblk, Group.rdV_foldl_wrV _ _ _ _ _ hle k hl, Group.rdV_wrLanes _ _ _ _ _ _ hl, halfMask_getLsbD _ _ hl]
  by_cases hh : lane / 32 * 32 = b
  · have hlo : b ≤ lane := by omega
    have hhi : lane < b + 32 := by omega
    have hsub : lane - b = lane % 32 := by omega
    simp only [hlo, hhi, hsub, and_true, decide_true, Bool.and_true, qblkWord, hh, if_true]
    by_cases hk : k = fD w
    · have hk1 : ¬ k = fD w + 1 := by omega
      simp only [hk, if_true, true_and]
      rw [if_neg (by omega)]
    · simp only [hk, false_and, if_false]
  · have hout : ¬(b ≤ lane ∧ lane < b + 32) := by omega
    have hout' : (decide (b ≤ lane) && decide (lane < b + 32)) = false := by
      rw [← Bool.decide_and]
      exact decide_eq_false hout
    rw [if_neg hh, if_neg fun e => hout e.2, hout', Bool.and_false, if_neg fun e => Bool.false_ne_true e.2]

end

/-- What QBLK draws for each lane: the halves in turn. -/
theorem qblk_foldl (w w1 t : W64) (g0 : Group) (r : Nat → Nat) (y : FX) :
    (halvesOf t).zipIdx.foldl (fun y (b, k) => qblkHalf w w1 t g0 b (fun i => r (32 * k + i)) y) y =
      (halvesOf t).foldl (fun y b => qblkHalf w w1 t g0 b (fun i => r (b + i - (halvesOf t).headD 0)) y) y := by
  rcases halvesOf_cases t with e | e | e | e <;> simp [e]

theorem qblk_drawn (t : W64) (x : FX) (rm : Nat) :
    Drawn rm (32 * (halvesOf t).length) x.sr ((halvesOf t).flatMap fun h => (List.range 32).map (h + ·))
      fun lane => (x.draws rm (32 * (halvesOf t).length)).2 (lane - (halvesOf t).headD 0) := by
  refine x.draws_drawn rm _ fun lane hlane => ?_
  obtain ⟨h, hh, hlane⟩ := List.mem_flatMap.1 hlane
  obtain ⟨i, hi, rfl⟩ := List.mem_map.1 hlane
  have hi := List.mem_range.1 hi
  rcases halvesOf_cases t with e | e | e | e <;> rw [e] at hh ⊢ <;> simp at hh ⊢ <;> omega

/-- What QBLK leaves, half after half. -/
theorem qblk_halves (w w1 t : W64) (g0 : Group) (draw : Nat → Nat) (y : FX) :
    let z := (halvesOf t).foldl (fun y b => qblkHalf w w1 t g0 b (fun i => draw (b + i)) y) y
    let q := qblkOf w w1 t g0 draw
    z.sr = y.sr ∧ z.sat = y.sat + ((halvesOf t).map fun h => (q h).sat).sum ∧
      z.flushed = y.flushed + ((halvesOf t).map fun h => (q h).flushed).sum ∧
      z.inclOvf = y.inclOvf + ((halvesOf t).map fun h => (q h).inclOvf).sum ∧
      z.invalid = y.invalid + ((halvesOf t).map fun h => (q h).invalid).sum ∧ z.g.noV = y.g.noV ∧
      ∀ k lane, lane < 64 → z.g.rdV k lane =
        if lane / 32 * 32 ∈ halvesOf t then qblkWord w t q k lane (y.g.rdV k lane) else y.g.rdV k lane := by
  intro z q
  refine ⟨foldl_leaves (f := FX.sr) (fun y b => ?_) y _, foldl_adds (p := FX.sat) (fun y b => ?_) y _,
    foldl_adds (p := FX.flushed) (fun y b => ?_) y _, foldl_adds (p := FX.inclOvf) (fun y b => ?_) y _,
    foldl_adds (p := FX.invalid) (fun y b => ?_) y _, foldl_leaves (f := fun y : FX => y.g.noV) (fun y b => ?_) y _,
    fun k lane hl => ?_⟩
  case refine_6 =>
    rw [qblkHalf_eq]
    exact Group.noV_putQblk ..
  case refine_7 =>
    refine rdV_foldl_halves (fun b hb y k lane hl => ?_) (halvesOf_nodup t) y k hl
    rw [qblkHalf_eq]
    exact Group.rdV_putQblk w t b y.g q (mem_halvesOf_le hb) k hl
  all_goals rw [qblkHalf_eq]

theorem qblk_mods (m : Nat) : (decide (m < 256) && fmtBlock (m % 16) && decide (m / 16 % 4 < 3)) =
    (decide (m < 256) && fmtOk m && rmOk (nbits m 4 2)) := by
  rw [rmOk, nbits_four_two_eq, fmtOk]

/-! ### DQBLK (R135) -/

/-- The block that DQBLK reads in the half from lane `h`. -/
def dqblkOf (w t : W64) (g : Group) (h : Nat) : OpBlk :=
  readBlock (fMod w) ((List.range 32).map fun i => if t.getLsbD (h + i) then (g.srcA w (h + i)).toNat % 2 ^ fmtBits (fMod w) else 0)
    ((g.rdV (fB w) h).toNat % 256) (g.rdV (fB w) (h + 1)).toNat (f32posNormal (g.srcC w h))

/-- The value that DQBLK gives a lane. -/
def dqblkVal (w t : W64) (g : Group) (lane : Nat) : W32 :=
  let h := lane / 32 * 32
  toF32 .rne ((((dqblkOf w t g h).vals.getD (lane % 32) .nan).mul (dqblkOf w t g h).s).mul (f32 (g.srcC w h)))

/-- The register that DQBLK writes in the half from lane `b`, of sources in `g0`. -/
def Group.putDqblk (g : Group) (w t : W64) (g0 : Group) (b : Nat) : Group :=
  g.wrLanes (fD w) (t &&& maskOf fun l => decide (b ≤ l) && decide (l < b + 32)) fun l =>
    toF32 .rne ((((dqblkOf w t g0 b).vals.getD (l - b) .nan).mul (dqblkOf w t g0 b).s).mul (f32 (g0.srcC w b)))

section
variable (w t : W64) (g0 : Group) (b : Nat) (y : FX)

theorem dqblkHalf_eq : dqblkHalf w t g0 b y =
    { y with g := y.g.putDqblk w t g0 b, invalid := y.invalid + b2n (dqblkOf w t g0 b).invalid } := rfl

theorem Group.rdV_putDqblk (g : Group) (hb : b = 0 ∨ b = 32) (k : Nat) {lane : Nat} (hl : lane < 64) :
    (g.putDqblk w t g0 b).rdV k lane = if lane / 32 * 32 = b then
      (if k = fD w ∧ t.getLsbD lane = true then dqblkVal w t g0 lane else g.rdV k lane) else g.rdV k lane := by
  rw [Group.putDqblk, Group.rdV_wrLanes _ _ _ _ _ _ hl, halfMask_getLsbD _ _ hl]
  by_cases hh : lane / 32 * 32 = b
  · have hlo : b ≤ lane := by omega
    have hhi : lane < b + 32 := by omega
    have hsub : lane - b = lane % 32 := by omega
    simp only [hlo, hhi, hsub, decide_true, Bool.and_true, dqblkVal, hh, if_true]
  · have hout : (decide (b ≤ lane) && decide (lane < b + 32)) = false := by
      rw [← Bool.decide_and]
      exact decide_eq_false (by omega)
    rw [if_neg hh, hout, Bool.and_false, if_neg fun e => Bool.false_ne_true e.2]

end

theorem dqblk_rdV (w t : W64) (g0 : Group) (y : FX) (k : Nat) {lane : Nat} (hl : lane < 64) :
    ((halvesOf t).foldl (fun y b => dqblkHalf w t g0 b y) y).g.rdV k lane =
      if k = fD w ∧ t.getLsbD lane = true then dqblkVal w t g0 lane else y.g.rdV k lane := by
  refine (rdV_foldl_halves (fun b hb y k lane hl => Group.rdV_putDqblk w t g0 b y.g (mem_halvesOf_le hb) k hl)
    (halvesOf_nodup t) y k hl).trans ?_
  by_cases ht : t.getLsbD lane = true
  · rw [if_pos (half_mem_halvesOf hl ht)]
  · rw [if_neg fun e : k = fD w ∧ t.getLsbD lane = true => ht e.2]
    exact ite_self _

/-- What DQBLK leaves, half after half. -/
theorem dqblk_halves (w t : W64) (g0 : Group) (y : FX) :
    let z := (halvesOf t).foldl (fun y b => dqblkHalf w t g0 b y) y
    z.sr = y.sr ∧ z.sat = y.sat ∧ z.flushed = y.flushed ∧ z.inclOvf = y.inclOvf ∧
      z.invalid = y.invalid + ((halvesOf t).map fun h => b2n (dqblkOf w t g0 h).invalid).sum ∧ z.g.noV = y.g.noV ∧
      ∀ k lane, lane < 64 → z.g.rdV k lane = if k = fD w ∧ t.getLsbD lane = true then dqblkVal w t g0 lane else y.g.rdV k lane := by
  intro z
  refine ⟨foldl_leaves (f := FX.sr) (fun _ _ => ?_) y _, foldl_leaves (f := FX.sat) (fun _ _ => ?_) y _,
    foldl_leaves (f := FX.flushed) (fun _ _ => ?_) y _, foldl_leaves (f := FX.inclOvf) (fun _ _ => ?_) y _,
    foldl_adds (p := FX.invalid) (fun _ _ => ?_) y _,
    foldl_leaves (f := fun y : FX => y.g.noV) (fun _ _ => ?_) y _, fun k lane hl => ?_⟩
  case refine_6 => exact Group.noV_wrLanes ..
  case refine_7 => exact dqblk_rdV w t g0 y k hl
  all_goals rfl

/-- Settles O13: half after half. -/
theorem folioBlocks : Obligations.FolioBlocks := by
  refine ⟨fun s g w w1 s1 l b grp hg hop h hlegal => ?qblk, fun s g w w1 s1 l b grp hg hop h hlegal => ?dqblk⟩
  case qblk =>
    intro rm take hs sr
    have hl := (RSpec.legal_mods qblk_mods _ _ _).symm.trans hlegal
    have hf : fxQblk w w1 (fxOf s1 g l grp) = _ := if_pos hl
    simp only [nbits_four_two_eq] at hf
    have hdraw := qblk_drawn (grp.takes w) (fxOf s1 g l grp) (fMod w / 16 % 4)
    have hfst := (fxOf s1 g l grp).draws_fst (fMod w / 16 % 4) (32 * (halvesOf (grp.takes w)).length)
    generalize hd : (fxOf s1 g l grp).draws (fMod w / 16 % 4) (32 * (halvesOf (grp.takes w)).length) = d at hdraw hfst
    have hz := qblk_halves w w1 (grp.takes w) grp (fun lane => d.2 (lane - (halvesOf (grp.takes w)).headD 0)) d.1
    have hfold := qblk_foldl w w1 (grp.takes w) grp d.2 d.1
    have hf' := hf.trans (congrArg Except.ok ((by rw [← hd]; rfl : _ = _).trans hfold))
    obtain ⟨hsr, hsat, hflu, hovf, hinv, hrest, hv⟩ := hz
    have hg1 : d.1.g = grp := congrArg FX.g hfst
    obtain ⟨t, hx, hrun, hran⟩ := folio_counted (c := .qblk g w w1) rfl rfl hg h hop hf' (Group.rest_of_noV (hg1 ▸ hrest))
    obtain ⟨hu, hp, hacc⟩ := Group.files_of_noV hrest
    refine ⟨t, _, _, hx, hdraw, ?_, hran, hu.trans (congrArg Group.u hg1), hp.trans (congrArg Group.p hg1),
      hacc.trans (congrArg Group.acc hg1), fun k lane hl => ?_⟩
    · rw [hsr, hsat, hflu, hovf, hinv, hfst] at hrun
      simp only [fxOf, Nat.zero_add] at hrun
      exact hrun
    · refine (hv k lane hl).trans ?_
      rw [hg1, ← ite_not]
      rfl
  case dqblk =>
    intro take hs blk
    have hl := (RSpec.legal_mods fmtBlock_eq_fmtOk _ _ _).symm.trans hlegal
    have hf : fxDqblk w w1 (fxOf s1 g l grp) = .ok
      ((halvesOf (grp.takes w)).foldl (fun y b => dqblkHalf w (grp.takes w) grp b y) (fxOf s1 g l grp)) := if_pos hl
    obtain ⟨hsr, hsat, hflu, hovf, hinv, hrest, hv⟩ := dqblk_halves w (grp.takes w) grp (fxOf s1 g l grp)
    obtain ⟨t, hx, hrun, hran⟩ := folio_counted (c := .dqblk g w w1) rfl rfl hg h hop hf (Group.rest_of_noV hrest)
    obtain ⟨hu, hp, hacc⟩ := Group.files_of_noV hrest
    refine ⟨t, _, hx, ?_, hran, hp, hacc, ?_⟩
    · rw [hsr, hsat, hflu, hovf, hinv] at hrun
      simp only [fxOf, Nat.zero_add] at hrun
      exact hrun
    · rw [if_neg (by simp [RSpec.fU_of_legal hlegal rfl])]
      exact ⟨hu, fun k lane hl => hv k lane hl⟩

end Sys2Proof.Machine

/-!
PROOFS. The launches, groups and blocks of the thread engines, and the operations that leave them alone: reports, reads and evictions of
lines, translations, and the fetch of an instruction (R128, R305).
-/

namespace Sys2Proof.Machine

/-- A launch, the groups and the blocks of a thread engine. -/
abbrev Threads := Option Launch × List (Nat × Option Group) × List (Nat × Option Block)

def TeX.threads (t : TeX) : Threads := (t.launch, t.groups, t.blocks)

def State.threads (s : State) (c : Nat) : Threads := (s.te c).threads

theorem State.threads_congr {s t : State} (h : t.tes = s.tes) : t.threads = s.threads := by
  funext c
  rw [State.threads, State.te_congr h, State.threads]

theorem State.blk?_of_threads {s t : State} (h : t.threads = s.threads) (c b : Nat) : t.blk? c b = s.blk? c b :=
  congrArg (fun x : Threads => tget none x.2.2 b) (congrFun h c)

theorem State.grp?_of_threads {s t : State} (h : t.threads = s.threads) (g : GRef) : t.grp? g = s.grp? g :=
  congrArg (fun x : Threads => tget none x.2.1 g.slot) (congrFun h g.core)

theorem State.launch_of_threads {s t : State} (h : t.threads = s.threads) (c : Nat) : (t.te c).launch = (s.te c).launch :=
  congrArg (fun x : Threads => x.1) (congrFun h c)

/-! ### Former values of bytes (R112) -/

theorem TeX.note_threads (t : TeX) (old : List (Nat × W8)) : (t.note old).threads = t.threads := by
  unfold TeX.note
  split <;> rfl

theorem State.noteOld_threads (s : State) (p : Nat → Bool) (old : List (Nat × W8)) : (s.noteOld p old).threads = s.threads := by
  funext c
  have key : ∀ t : List (Nat × TeX),
      (tget {} (t.map fun e => if p e.1 && e.2.launch.isSome then (e.1, e.2.note old) else e) c).threads = (tget {} t c).threads := by
    intro t
    induction t with
    | nil => rfl
    | cons e r ih =>
      obtain ⟨k, x⟩ := e
      rw [List.map_cons]
      by_cases hk : k = c
      · split
        · simp only [tget, hk, if_true, TeX.note_threads]
        · simp only [tget, hk, if_true]
      · split <;> simpa only [tget, hk, if_false] using ih
  exact key s.tes

theorem State.noteOut_threads (s : State) (site line : Nat) : (s.noteOut site line).threads = s.threads := by
  unfold State.noteOut
  split
  · split
    · exact State.noteOld_threads ..
    · rfl
  · rfl

/-! ### Reports and requests -/

theorem State.tes_with_errs (s : State) (e : List (Nat × Report × Nat)) : ({ s with errs := e } : State).tes = s.tes := rfl

theorem State.tes_with_reports (s : State) (e : List (Nat × Report × Nat)) (n : Net) : ({ s with errs := e, net := n } : State).tes = s.tes := rfl

theorem State.sendReport_tes (s : State) (r : Report) : (s.sendReport r).tes = s.tes := by
  unfold State.sendReport
  exact (State.tes_with_reports ..).trans (State.sat_tes ..)

theorem State.report_tes (s : State) (r : Report) : (s.report r).tes = s.tes := by
  unfold State.report
  generalize ({ r with time := s.siteCycle r.reporter } : Report) = q
  dsimp only
  split
  · exact (State.tes_with_errs ..).trans (State.sat_tes ..)
  · split
    · exact State.sendReport_tes ..
    · split
      · exact State.sat_tes ..
      · rfl

theorem State.nOut_tes (s : State) (die : Nat) (p : NPkt) : (s.nOut die p).tes = s.tes := by
  unfold State.nOut
  split <;> rfl

theorem State.flowPush_tes (s : State) (die fl : Nat) (f : Flow) (pkt : NF) (d : Bytes) (use : FabUse) :
    (s.flowPush die fl f pkt d use).tes = s.tes := State.nOut_tes ..

theorem State.fabRequest_tes (s : State) (site dev : Nat) (pkt : NF) (d : Bytes) (use : FabUse) :
    (s.fabRequest site dev pkt d use).1.tes = s.tes := by
  unfold State.fabRequest State.flowGive
  split
  · dsimp only
    split
    · rfl
    · split
      · split
        all_goals
          split
          · exact State.flowPush_tes ..
          · rfl
      · exact State.nOut_tes ..
  · rfl

theorem State.hostReqM_tes (s : State) (masked : Bool) (h ty off len : Nat) (d : Bytes) (use : HostUse) :
    (s.hostReqM masked h ty off len d use).tes = s.tes := by
  unfold State.hostReqM
  split <;> rfl

theorem State.request_tes (s : State) (t : MsgTy) (site line part cid sectors : Nat) (wmask : BitVec 512) (hint : Nat) :
    (s.request t site line part cid sectors wmask hint).tes = s.tes := by
  unfold State.request
  split <;> rfl

/-! ### Lines of a slice -/

theorem State.wbSector_tes (s : State) (site pa : Nat) (q : Option QRef) : (s.wbSector site pa q).1.tes = s.tes := by
  unfold State.wbSector
  split
  · rfl
  · dsimp only
    split
    · rfl
    · split
      · exact State.fabRequest_tes ..
      · split
        · rfl
        · exact State.hostReqM_tes ..

theorem State.dropLine_threads (s : State) (site line : Nat) : (s.dropLine site line).threads = s.threads := by
  unfold State.dropLine
  dsimp only
  split <;> exact State.noteOut_threads ..

theorem State.evictLine_threads (s : State) (l : ALine) : (s.evictLine l).threads = s.threads := by
  unfold State.evictLine
  split
  · rw [State.dropLine_threads]
    refine foldl_leaves (f := State.threads) (fun t k => ?_) s _
    dsimp only
    split
    · exact State.threads_congr (State.wbSector_tes ..)
    · exact State.threads_congr ((State.report_tes ..).trans (State.wbSector_tes ..))
  · dsimp only
    split <;> exact State.dropLine_threads ..

theorem State.freeWay_threads (s : State) (site line : Nat) : (s.freeWay site line).threads = s.threads := by
  unfold State.freeWay
  dsimp only
  split
  · rfl
  · split
    · exact State.evictLine_threads ..
    · rfl

theorem State.allocLine_threads (s : State) (l : ALine) (hint : Nat) : (s.allocLine l hint).threads = s.threads := by
  unfold State.allocLine
  split
  · rfl
  · extract_lets cls u v
    have hu : u.threads = s.threads := State.threads_congr (by
      unfold u
      split
      · exact State.sat_tes ..
      · rfl)
    have hv : v.threads = u.threads := by
      unfold v
      split
      · exact State.evictLine_threads ..
      · exact State.freeWay_threads ..
    exact hv.trans hu

theorem State.touchLine_threads (s : State) (l : ALine) (hint : Nat) : (s.touchLine l hint).threads = s.threads := by
  unfold State.touchLine
  split
  · split
    · rfl
    · exact State.allocLine_threads ..
  · split
    · rfl
    · extract_lets up cls u
      refine State.threads_congr (t := u) ?_
      unfold u
      split
      · exact State.sat_tes ..
      · rfl

theorem State.readTouch_threads (s : State) (site line part cid : Nat) (need : BitVec 512) (hint : Nat) :
    (s.readTouch site line part cid need hint).threads = s.threads := by
  unfold State.readTouch
  split
  · dsimp only
    split
    · exact State.touchLine_threads ..
    · exact (State.threads_congr (State.request_tes ..)).trans (State.touchLine_threads ..)
  · exact State.threads_congr (State.request_tes ..)

/-! ### Translations (R305) -/

theorem State.tableTouch_threads (s : State) (w : Who) (reads : List WalkE) : (s.tableTouch w reads).threads = s.threads :=
  foldl_leaves (f := State.threads) (fun _ _ => State.readTouch_threads ..) s _

theorem State.recordXlat_tes (s : State) (w : Who) (k : Acc) (va : Nat) (x : XErr) : (s.recordXlat w k va x).tes = s.tes := by
  unfold State.recordXlat
  extract_lets key
  split
  · rfl
  · split
    · exact State.sat_tes ..
    · rename_i v t u _ _
      have hu : u.tes = s.tes := (State.setReg_tes t _ _).trans (State.setReg_tes s _ _)
      clear_value v u
      split <;> exact (State.setReg_tes ..).trans hu

theorem State.fetchTag_tes (s : State) (site pa : Nat) : (s.fetchTag site pa).tes = s.tes := by
  unfold State.fetchTag
  split <;> rfl

theorem State.cacheXlat_tes (s : State) (w : Who) (va : Nat) (o : XAddr) : (s.cacheXlat w va o).tes = s.tes := by
  unfold State.cacheXlat
  extract_lets c page e tlb t u
  exact (State.modRun_tes ..).trans (State.fetchTag_tes ..)

theorem State.xlat_threads (s : State) (w : Who) (k : Acc) (va : Nat) : (s.xlat w k va).1.threads = s.threads := by
  unfold State.xlat
  split
  · refine (State.threads_congr (State.cacheXlat_tes ..)).trans ?_
    split
    · rfl
    · exact State.tableTouch_threads ..
  · dsimp only
    split
    · exact (State.threads_congr (State.recordXlat_tes ..)).trans (State.tableTouch_threads ..)
    · exact State.tableTouch_threads ..

theorem State.refuse_tes (s : State) (w : Who) (k : Acc) (va code : Nat) (x : XAddr) : (s.refuse w k va code x).tes = s.tes := by
  unfold State.refuse
  split
  · exact State.recordXlat_tes ..
  · rfl

theorem State.pagesOk_threads (s : State) (w : Who) (l : Launch) (b : Block) (k : Acc) (fuel va n : Nat) (acc : List Piece) :
    (s.pagesOk w l b k fuel va n acc).1.threads = s.threads := by
  induction fuel generalizing s va n acc with
  | zero => rfl
  | succ fuel ih =>
    rw [State.pagesOk]
    split
    · rfl
    · extract_lets m t
      split
      · exact State.xlat_threads ..
      · split
        · exact (State.threads_congr (State.refuse_tes ..)).trans (State.xlat_threads ..)
        · exact (ih ..).trans (State.xlat_threads ..)

theorem State.gpieces_threads (s : State) (w : Who) (l : Launch) (b : Block) (k : Acc) (va n : Nat) :
    (s.gpieces w l b k va n).1.threads = s.threads := by
  unfold State.gpieces
  split
  · exact State.xlat_threads ..
  · exact State.pagesOk_threads ..

/-! ### The fetch of an instruction (R128) -/

theorem State.poisonRead_tes (s : State) (w : Who) (pa n : Nat) : (s.poisonRead w pa n).1.tes = s.tes := by
  unfold State.poisonRead
  dsimp only
  split
  · exact (State.report_tes ..).trans (State.sat_tes ..)
  · rfl

theorem State.fetchAt_threads (s : State) (w : Who) (l : Launch) (b : Block) (va : Nat) : (s.fetchAt w l b va).1.threads = s.threads := by
  unfold State.fetchAt
  dsimp only
  split
  · exact State.gpieces_threads ..
  · refine (foldl_leaves (f := fun x : State × Option Nat => x.1.threads) (fun x p => ?_) _ _).trans (State.gpieces_threads ..)
    split
    · rfl
    · exact State.threads_congr (State.poisonRead_tes ..)

theorem State.fetchWords_threads (s : State) (w : Who) (l : Launch) (b : Block) (va : Nat) (x : W64) :
    (s.fetchWords w l b va x).1.threads = s.threads := by
  unfold State.fetchWords
  dsimp only
  split
  · exact (State.fetchAt_threads ..).trans (State.fetchAt_threads ..)
  · exact State.fetchAt_threads ..

/-- The state in which an instruction works has the launches, groups and blocks as they stood. -/
theorem Issues.threads {s : State} {g : GRef} {w : W64} {s1 : State} {l : Launch} {b : Block} {grp : Group}
    (h : Issues s g w s1 l b grp) : s1.threads = s.threads := by
  rw [h.fetch.2]
  exact (State.threads_congr (State.bump_tes ..)).trans (State.fetchWords_threads ..)

end Sys2Proof.Machine

/-!
PROOFS. Folio synchronisation and copies (04_thread_engine R101-R106; 05_folio_instructions R138, R152-R158): MEET, TALLY, WAITC, RDC, SPECR,
CINV and CPY.
-/

namespace Sys2Proof.Machine

/-! ### A part of the state written twice -/

section
variable {α : Type} (d : α) (t : List (Nat × α)) (k : Nat)

theorem terase_of_not_mem (h : ∀ e ∈ t, e.1 ≠ k) : terase t k = t := by
  induction t with
  | nil => rfl
  | cons e r ih =>
    obtain ⟨he, hr⟩ := List.forall_mem_cons.1 h
    rw [terase, if_neg he, ih hr]

theorem terase_tinsert (v : α) (h : ∀ e ∈ t, e.1 ≠ k) : terase (tinsert t k v) k = t := by
  induction t with
  | nil => exact if_pos rfl
  | cons e r ih =>
    obtain ⟨he, hr⟩ := List.forall_mem_cons.1 h
    rw [tinsert]
    split
    · rw [terase, if_pos rfl]
      exact terase_of_not_mem _ k h
    · rw [terase, if_neg he, ih hr]

/-- The last value written at a key is what stands there. -/
theorem tset_tset [DecidableEq α] (v v' : α) : tset d (tset d t k v) k v' = tset d t k v' := by
  have e : terase (tset d t k v) k = terase t k := by
    rw [tset]
    split
    · exact terase_of_not_mem _ _ (not_mem_terase t k)
    · exact terase_tinsert _ _ _ (not_mem_terase t k)
  rw [tset, e, tset]

end

theorem State.setTe_setTe (s : State) (c : Nat) (x y : TeX) : (s.setTe c x).setTe c y = s.setTe c y :=
  congrArg (fun z : List (Nat × TeX) => { s with tes := z }) (tset_tset {} s.tes c x y)

theorem State.setBlk_setBlk (s : State) (c b : Nat) (x y : Option Block) : (s.setBlk c b x).setBlk c b y = s.setBlk c b y := by
  unfold State.setBlk
  rw [State.te_setTe_same, State.setTe_setTe, tset_tset]

/-! ### Waits for counters (R105) -/

/-- An end of waits changes groups alone: no block, and nothing outside the thread engines. -/
theorem State.endWaits_rest (s : State) (core blk : Nat) : { s.endWaits core blk with tes := s.tes } = s := by
  unfold State.endWaits
  split
  · rfl
  · refine foldl_leaves (f := fun t : State => ({ t with tes := s.tes } : State)) (fun t e => ?_) s _
    dsimp only
    split
    · split <;> rfl
    · rfl

theorem State.blk?_endWaits (s : State) (core blk c b : Nat) : (s.endWaits core blk).blk? c b = s.blk? c b := by
  unfold State.endWaits
  split
  · rfl
  · refine foldl_leaves (f := fun t : State => t.blk? c b) (fun t e => ?_) s _
    dsimp only
    split
    · split
      · exact State.blk?_setGrp ..
      · rfl
    · rfl

theorem waitOver_iff (c v : W32) : waitOver c v = true ↔ 0 ≤ (c - v).toInt := by
  rw [waitOver, BitVec.msb_eq_toInt, Bool.not_eq_true', decide_eq_false_iff_not, Int.not_lt]

theorem State.lsDone_raiseCtr {s : State} {core blk : Nat} {b : Block} (pipe k : Nat) (h : s.blk? core blk = some b) :
    (s.lsDone core blk pipe).raiseCtr core blk k =
      (s.setBlk core blk (some { b with ctrs := tset 0#32 b.ctrs k (b.ctr k + 1#32), races := b.races.filter fun e => e.2.1 ≠ pipe })).endWaits
        core blk := by
  unfold State.lsDone State.raiseCtr
  simp only [h]
  by_cases hr : b.races.isEmpty = true
  · rw [if_pos hr]
    have hr : b.races = [] := List.isEmpty_iff.1 hr
    simp only [h, hr, List.filter_nil]
  · rw [if_neg hr]
    simp only [State.blk?_setBlk_same, State.setBlk_setBlk]
    rfl

/-! ### MEET, TALLY, WAITC, RDC, SPECR and CINV where they issue -/

section
variable {s s1 : State} {g : GRef} {w w1 : W64} {l : Launch} {b : Block} {grp : Group}
  (hg : g.ok = true) (h : Issues s g w s1 l b grp)
include hg h

theorem exec_meet (hop : fOpc w = 0x05) (hlegal : RSpec.legal { d := .unused } l.vregs w w1 = true) (ht : grp.takes w ≠ 0#64)
    (hl : ((((s1.flushLaunch g.core l).lsDone g.core grp.blk grp.pipe).te g.core).launch.isSome = true)) :
    exec (.meet g w w1) s = .next (((s1.flushLaunch g.core l).lsDone g.core grp.blk grp.pipe).putGrp g
      { grp with pc := grp.pc + fLen w, meets := grp.meets ++ [{ pc := grp.pc, mask := grp.takes w, under := grp.under }]
                 active := grp.active &&& ~~~grp.takes w }) := by
  refine (exec_ctl_of (c := .meet g w w1) rfl hg h hop rfl hlegal).trans (congrArg _ ?_)
  have ht' : ¬(grp.takes w == 0#64) = true := by simpa using ht
  have hl' : ¬((((s1.flushLaunch g.core l).lsDone g.core grp.blk grp.pipe).te g.core).launch.isNone = true) := by
    simpa using Option.isSome_iff_ne_none.1 hl
  exact (if_neg ht').trans (if_neg hl')

theorem exec_tally (hop : fOpc w = 0x08) (hlegal : RSpec.legal { d := .num 32 } l.vregs w w1 = true) :
    exec (.tally g w w1) s = .next (if grp.takes w == 0#64 then s1.nextPc g grp w
      else ((s1.nextPc g grp w).lsDone g.core grp.blk grp.pipe).raiseCtr g.core grp.blk (fD w)) :=
  exec_ctl_of (c := .tally g w w1) rfl hg h hop rfl hlegal

theorem exec_waitc (hop : fOpc w = 0x0E) (hlegal : RSpec.legal { d := .num 32, b := .uniImm } l.vregs w w1 = true) :
    exec (.waitc g w w1) s = .next (if grp.takes w == 0#64 || waitOver (b.ctr (fD w)) (grp.srcB .int w w1 0) then s1.nextPc g grp w
      else s1.setGrp g (some { grp with waitc := some (fD w, grp.srcB .int w w1 0, grp.takes w, grp.pc + fLen w) })) :=
  exec_ctl_of (c := .waitc g w w1) rfl hg h hop rfl hlegal

theorem exec_rdc (hop : fOpc w = 0x0F) (hlegal : RSpec.legal { u := 2, a := .num 32 } l.vregs w w1 = true) :
    exec (.rdc g w w1) s = .next (s1.nextPc g (if grp.takesU w then grp.wrU (fD w) (b.ctr (fA w)) else grp) w) :=
  exec_ctl_of (c := .rdc g w w1) rfl hg h hop rfl hlegal

theorem exec_cinv (hop : fOpc w = 0x0A) (hlegal : RSpec.legal { d := .unused } l.vregs w w1 = true) :
    exec (.cinv g w w1) s =
      .next ((if grp.takes w == 0#64 then s1 else s1.setTe g.core (s1.te g.core).dropCarrel).nextPc g grp w) :=
  exec_ctl_of (c := .cinv g w w1) rfl hg h hop rfl hlegal

/-- SPECR of a uniform register, and of the lane number. -/
theorem exec_specr (hop : fOpc w = 0x09) (hlegal : RSpec.legal { u := if fA w = 6 then 0 else 2, a := .num 7 } l.vregs w w1 = true) :
    exec (.specr g w w1) s = .next (
      if fU w then
        if grp.takesU w then
          s1.nextPc g (if fA w = 0
            then { grp.wrU (fD w) (s1.special g grp 0 (fA w)) with cycHi := BitVec.ofNat 32 ((s1.siteCycle (s1.coreSite g.core)).toNat / 2 ^ 32) }
            else grp.wrU (fD w) (s1.special g grp 0 (fA w))) w
        else s1.nextPc g grp w
      else s1.nextPc g (grp.wrLanes (fD w) (grp.takes w) fun l => s1.special g grp l (fA w)) w) :=
  exec_ctl_of (c := .specr g w w1) rfl hg h hop rfl hlegal

/-- CYC_LO is the cycle count's low half, and leaves the high half for CYC_HI. -/
theorem exec_specr_cycLo (hop : fOpc w = 0x09)
    (hlegal : RSpec.legal { u := if fA w = 6 then 0 else 2, a := .num 7 } l.vregs w w1 = true) (ha : fA w = 0) (ht : grp.takesU w = true) :
    exec (.specr g w w1) s = .next (s1.putGrp g { grp with
      pc := grp.pc + fLen w, u := tset 0#32 grp.u (fD w) (BitVec.ofNat 32 (s1.siteCycle (s1.coreSite g.core)).toNat)
      cycHi := BitVec.ofNat 32 ((s1.siteCycle (s1.coreSite g.core)).toNat / 2 ^ 32) }) := by
  have hU : fU w = true := by
    rw [ha] at hlegal
    exact RSpec.fU_of_legal_two hlegal rfl
  have hlo : s1.special g grp 0 0 = BitVec.ofNat 32 (s1.siteCycle (s1.coreSite g.core)).toNat := rfl
  have hx := exec_specr hg h hop hlegal
  rw [if_pos hU, if_pos ht, if_pos ha, ha, hlo, Group.wrU, State.nextPc] at hx
  dsimp only at hx
  exact hx

end

/-- The block of a group stands in the state in which its instruction works. -/
theorem Issues.blk?_eq {s : State} {g : GRef} {w : W64} {s1 : State} {l : Launch} {b : Block} {grp : Group}
    (h : Issues s g w s1 l b grp) : s1.blk? g.core grp.blk = some b :=
  (State.blk?_of_threads h.threads ..).trans h.block

theorem FX.putReg_of_uniform (x : FX) {w : W64} (f : Nat → W32) (hU : fU w = true) :
    (x.putReg w f).g = if x.g.takesU w then x.g.wrU (fD w) (f (firstLane x.g.active)) else x.g := by
  rw [FX.putReg, if_pos hU]
  exact apply_ite FX.g _ _ _

theorem FX.putReg_of_lanes (x : FX) {w : W64} (f : Nat → W32) (hU : fU w = false) :
    (x.putReg w f).g = x.g.wrLanes (fD w) (x.g.takes w) f := by
  rw [FX.putReg, if_neg (Bool.eq_false_iff.1 hU)]

/-- A group that has written a register as an instruction on registers alone would goes on. -/
theorem runs_writesReg {c : Instr} {s s1 : State} {g : GRef} {w : W64} {grp x : Group} {val : Nat → W32} (f : FX) (hf : f.g = grp)
    (hx : x = (f.putReg w val).g) (h : exec c s = .next (s1.nextPc g x w)) :
    ∃ (u : State) (x : Group), exec c s = .next u ∧ OnlyGroup s1 u g ∧ RanTo u g w grp x ∧ WritesReg w grp x val := by
  subst hx hf
  exact ⟨_, _, h, OnlyGroup.nextPc .., .intro (State.grp?_setGrp_same ..) (FX.putReg_group f w val), FX.putReg_writes f w val _⟩

/-- The values of SPECR other than CYC_LO (R138). -/
theorem State.special_eq (s : State) (g : GRef) (grp : Group) (lane : Nat) {k : Nat} (h : k ≠ 0) (hk : k < 7) :
    s.special g grp lane k = if k = 1 then grp.cycHi else BitVec.ofNat 32 (if k = 2 then s.coreSite g.core else if k = 3 then grp.pipe
      else if k = 4 then g.slot else if k = 5 then grp.blk else lane) := by
  match k, h, hk with
  | 1, _, _ | 2, _, _ | 3, _, _ | 4, _, _ | 5, _, _ | 6, _, _ => rfl

/-- Only SPECR 6 depends on the lane. -/
theorem State.special_eq_of_ne_six (s : State) (g : GRef) (grp : Group) (lane : Nat) {k : Nat} (h : k ≠ 0) (h6 : k ≠ 6) (hk : k < 7) :
    (if k = 1 then grp.cycHi else BitVec.ofNat 32 (if k = 2 then s.coreSite g.core else if k = 3 then grp.pipe
      else if k = 4 then g.slot else if k = 5 then grp.blk else lane)) = s.special g grp 0 k := by
  match k, h, h6, hk with
  | 1, _, _, _ | 2, _, _, _ | 3, _, _, _ | 4, _, _, _ | 5, _, _, _ => rfl
  | 6, _, h6, _ => exact absurd rfl h6

/-- A source field that names one of a few things. -/
theorem RSpec.fA_lt_of_legal {p : RSpec} {n v : Nat} {w w1 : W64} (h : p.legal v w w1 = true) (hp : p.a = .num n) : fA w < n := by
  simp only [RSpec.legal, Bool.and_eq_true, hp, SrcUse.okFor, decide_eq_true_eq] at h
  obtain ⟨⟨⟨⟨⟨-, -, ha⟩, -⟩, -⟩, -⟩, -⟩ := h
  exact ha

/-- Settles O17: each instruction as it issues. -/
theorem folioSync : Obligations.FolioSync := by
  intro s g w w1 s1 l b grp hg h t next
  refine ⟨fun hop hlegal => ⟨fun ht => ?meetNone, fun ht => ?meet⟩, fun hop hlegal => ⟨fun ht => ?tallyNone, fun ht => ?tally⟩,
    fun hop hlegal => ⟨fun ht => ?waitcOn, fun ht => ?waitc⟩, fun hop hlegal => ?rdc,
    fun hop hlegal => ⟨fun ht => ?cycLo, fun ht => ?specr⟩, fun hop hlegal => ⟨fun ht => ?cinvNone, fun ht => ?cinv⟩⟩
  case meetNone =>
    refine .of_putGrp ((exec_ctl_of (c := .meet g w w1) rfl hg h hop rfl hlegal).trans (congrArg _ ?_))
    exact if_pos (beq_iff_eq.2 ht)
  case meet =>
    intro u hl
    exact .of_putGrp (exec_meet hg h hop hlegal ht hl)
  case tallyNone =>
    refine .of_putGrp ((exec_tally hg h hop hlegal).trans (congrArg _ ?_))
    exact if_pos (beq_iff_eq.2 ht)
  case tally =>
    have hb : (s1.nextPc g grp w).blk? g.core grp.blk = some b := (State.blk?_setGrp ..).trans h.blk?_eq
    refine ⟨_, (exec_tally hg h hop hlegal).trans (congrArg _ ((if_neg fun e => ht (beq_iff_eq.1 e)).trans
      (State.lsDone_raiseCtr grp.pipe (fD w) hb))), ?_, rfl, _, (State.blk?_endWaits ..).trans (State.blk?_setBlk_same ..),
      tget_tset_same .., fun k hk => tget_tset_ne _ _ _ hk⟩
    exact congrArg (fun t : State => { t with tes := s1.tes }) (State.endWaits_rest _ g.core grp.blk)
  case waitcOn =>
    refine .of_putGrp ((exec_waitc hg h hop hlegal).trans (congrArg _ (if_pos ?_)))
    rw [Bool.or_eq_true, beq_iff_eq, waitOver_iff]
    exact ht
  case waitc =>
    refine (exec_waitc hg h hop hlegal).trans (congrArg _ (if_neg ?_))
    rw [Bool.or_eq_true, beq_iff_eq, waitOver_iff, not_or, Int.not_le]
    exact ht
  case rdc =>
    refine runs_writesReg (fxOf s1 g l grp) rfl ?_ (exec_rdc hg h hop hlegal)
    exact (FX.putReg_of_uniform (fxOf s1 g l grp) (fun _ => b.ctr (fA w)) (RSpec.fU_of_legal_two hlegal rfl)).symm
  case cycLo => exact .of_putGrp (exec_specr_cycLo hg h hop hlegal ht.1 ht.2)
  case specr =>
    have hk : fA w < 7 := RSpec.fA_lt_of_legal hlegal rfl
    have hx := exec_specr hg h hop hlegal
    cases hU : fU w with
    | false =>
      have ha : fA w = 6 := by
        refine Decidable.byContradiction fun ha => ?_
        rw [if_neg ha] at hlegal
        exact Bool.false_ne_true (hU.symm.trans (RSpec.fU_of_legal_two hlegal rfl))
      rw [hU, ha] at hx
      refine runs_writesReg (fxOf s1 g l grp) rfl ?_ hx
      rw [FX.putReg_of_lanes _ _ hU, ha]
      rfl
    | true =>
      have ha : fA w ≠ 6 := fun ha => by
        rw [if_pos ha] at hlegal
        exact Bool.false_ne_true ((RSpec.fU_of_legal hlegal rfl).symm.trans hU)
      cases hT : grp.takesU w with
      | false =>
        rw [hU, hT] at hx
        refine runs_writesReg (fxOf s1 g l grp) rfl ?_ hx
        exact ((FX.putReg_of_uniform (fxOf s1 g l grp) _ hU).trans (if_neg (Bool.eq_false_iff.1 hT))).symm
      | true =>
        have ha0 : fA w ≠ 0 := ht.resolve_right (by simp [hT])
        rw [hU, hT, if_neg ha0] at hx
        refine runs_writesReg (fxOf s1 g l grp) rfl ?_ hx
        refine Eq.symm ((FX.putReg_of_uniform (fxOf s1 g l grp) _ hU).trans ((if_pos hT).trans ?_))
        exact congrArg (grp.wrU (fD w)) (State.special_eq_of_ne_six s1 g grp _ ha0 ha hk)
  case cinvNone =>
    refine .of_putGrp ((exec_cinv hg h hop hlegal).trans (congrArg _ ?_))
    rw [if_pos (beq_iff_eq.2 ht)]
    rfl
  case cinv =>
    refine (exec_cinv hg h hop hlegal).trans (congrArg _ ?_)
    rw [if_neg (fun e => ht (beq_iff_eq.1 e))]
    rfl

end Sys2Proof.Machine

/-!
PROOFS. CPY (04_thread_engine R104, R106; 05_folio_instructions R156-R158).
-/

namespace Sys2Proof.Machine

/-! ### The source rows of a copy (R106) -/

/-- One source row of a copy is translated and checked, unless one before it has faulted. -/
def Copy.checkRow (who : Who) (l : Launch) (b : Block) (c : Copy) (acc : State × Copy) (j : Nat) : State × Copy :=
  if acc.2.fault.isSome then acc
  else
    let k := acc.1.gpieces who l b .read (c.src + j * c.srcPitch) c.rowBytes
    (k.1, match k.2 with
      | .error f => { acc.2 with fault := some f }
      | .ok ps => { acc.2 with pieces := acc.2.pieces ++ [ps] })

theorem State.issueCopy_eq (s : State) (who : Who) (l : Launch) (b : Block) (c : Copy) :
    s.issueCopy who l b c = (List.range c.rows).foldl (Copy.checkRow who l b c) (s, c) := rfl

theorem Copy.foldl_checkRow_of_fault (who : Who) (l : Launch) (b : Block) (c : Copy) {acc : State × Copy} (h : acc.2.fault.isSome = true)
    (js : List Nat) : js.foldl (Copy.checkRow who l b c) acc = acc := by
  induction js with
  | nil => rfl
  | cons j js ih => rw [List.foldl_cons, Copy.checkRow, if_pos h, ih]

/-- What the checks of the rows of a list find is what the copy keeps. -/
theorem RowsChecked.foldl_checkRow {w : Who} {l : Launch} {b : Block} {c : Copy} {s t : State} {js : List Nat} {pieces : List (List Piece)}
    {x : Option (Nat × Nat)} (h : RowsChecked w l b c s js t pieces x) (before : List (List Piece)) :
    js.foldl (Copy.checkRow w l b c) (s, { c with pieces := before, fault := none }) =
      (t, { c with pieces := before ++ pieces, fault := x }) := by
  induction h generalizing before with
  | nil s => simp
  | fault s t j r x hp =>
    rw [List.foldl_cons, Copy.checkRow, if_neg (by simp)]
    simp only [hp, List.append_nil]
    exact Copy.foldl_checkRow_of_fault w l b c (acc := (t, { c with pieces := before, fault := some x })) rfl r
  | cons s u t j r ps rest x hp _ ih =>
    rw [List.foldl_cons, Copy.checkRow, if_neg (by simp)]
    simp only [hp]
    rw [ih, List.append_assoc, List.singleton_append]

/-! ### CPY where it issues -/

theorem nbits_one_two_eq (m : Nat) : nbits m 1 2 = m / 2 % 4 := by
  simp only [nbits, Nat.shiftRight_eq_div_pow, Nat.pow_one, Nat.reducePow]

theorem Copy.outside_eq_none {c : Copy} {l : Launch} {b : Block} :
    c.outside l b = none ↔ ∀ j, j < c.rows → inAlloc l b (c.dst + j * c.dstPitch) c.rowBytes = true := by
  rw [Copy.outside, Option.map_eq_none_iff, List.find?_eq_none]
  simp only [List.mem_range, Bool.not_eq_true, Bool.not_eq_false', Copy.dstOf]

section
variable {s s1 : State} {g : GRef} {w w1 : W64} {l : Launch} {b : Block} {grp : Group}
  (hg : g.ok = true) (h : Issues s g w s1 l b grp) (hop : fOpc w = 0x0C) (hlegal : cpyLegal l.vregs w w1 = true)
include hg h hop hlegal

theorem exec_cpy : exec (.cpy g w w1) s = .next (
    if grp.takes w == 0#64 then s1.nextPc g grp w
    else if !(s1.copyOf g grp w).ok (nbit (fMod w) 0) then s1.instrFault g grp (s1.copyOf g grp w).lane stIllegal none
    else if (s1.copyOf g grp w).rowBytes = 0 ∨ (s1.copyOf g grp w).rows = 0 then
      (s1.nextPc g grp w).raiseCtr g.core grp.blk (s1.copyOf g grp w).ctr
    else match (s1.copyOf g grp w).outside l b with
      | some a => s1.instrFault g grp (s1.copyOf g grp w).lane stProtection (some (a, true))
      | none =>
        if 64 ≤ b.copies.length then s
        else ((s1.issueCopy (s1.runWho l.q l.run) l b (s1.copyOf g grp w)).1.setBlk g.core grp.blk
          (some { b with copies := b.copies ++ [(s1.issueCopy (s1.runWho l.q l.run) l b (s1.copyOf g grp w)).2] })).nextPc g grp w) :=
  exec_ctl_of (c := .cpy g w w1) rfl hg h hop rfl hlegal

end

/-- Settles O18: a case for each thing that may end a CPY before its copy is issued. -/
theorem folioCpy : Obligations.FolioCpy := by
  intro s g w w1 s1 l b grp hg hop h hlegal u rows src n sp dp fits next
  have hx := exec_cpy hg h hop hlegal
  have hn : nbit (fMod w) 0 = decide rows := nbit_zero _
  have hc : s1.copyOf g grp w =
      { src := src, dst := u (fB w), rowBytes := u (fC w), rows := n, srcPitch := sp, dstPitch := dp, ctr := fD w
        hint := fMod w / 2 % 4, lane := firstLane (grp.takes w), slot := g.slot, pc := grp.pc, issued := (s1.te g.core).now
        l0 := (s1.te g.core).l0.filter fun e => e.1 % 8 = grp.pipe, own := (s1.te g.core).l0Own.filter fun e => e.1 % 8 = grp.pipe } := by
    simp only [State.copyOf, nbits_one_two_eq, hn, decide_eq_true_eq]
    rfl
  have hfits : (s1.copyOf g grp w).ok (nbit (fMod w) 0) = true ↔ fits := by
    rw [hc, hn]
    by_cases hr : rows <;> simp [Copy.ok, fits, hr, and_assoc]
  rw [hc] at hx hfits
  refine ⟨fun ht => ?none, fun ht hf => ?illegal, fun ht hf h0 => ?nothing, fun ht hf h0 hout => ?outside, fun ht hf h0 hroom hin => ?issue⟩
  case none => exact .of_putGrp (hx.trans (congrArg _ (if_pos (beq_iff_eq.2 ht))))
  all_goals have ht' : ¬(grp.takes w == 0#64) = true := fun e => ht (beq_iff_eq.1 e)
  case illegal =>
    refine ⟨_, hx.trans (congrArg _ ((if_neg ht').trans (if_pos ?_))), s1.threadFault_faultsWith _ _ _ _ _ none rfl⟩
    rw [Bool.not_eq_true', ← Bool.not_eq_true]
    exact fun e => hf (hfits.1 e)
  all_goals have hf' : ¬(!(s1.copyOf g grp w).ok (nbit (fMod w) 0)) = true := by simp [hc, hfits.2 hf]
  all_goals rw [hc] at hf'
  case nothing => exact hx.trans (congrArg _ ((if_neg ht').trans ((if_neg hf').trans (if_pos h0))))
  all_goals have h0' : ¬(u (fC w) = 0 ∨ n = 0) := not_or.2 h0
  all_goals rw [if_neg ht', if_neg hf', if_neg h0'] at hx
  case outside =>
    obtain ⟨j, hj, hout⟩ := hout
    split at hx
    case h_1 a _ => exact ⟨_, a, hx, s1.threadFault_faultsWith _ _ _ _ _ _ rfl⟩
    case h_2 e => exact absurd (Copy.outside_eq_none.1 e j hj) (by simp [hout])
  case issue =>
    intro c t pieces x hrows
    have hissue : s1.issueCopy (s1.runWho l.q l.run) l b c = (t, { c with pieces := pieces, fault := x }) := by
      rw [State.issueCopy_eq]
      exact hrows.foldl_checkRow []
    rw [Copy.outside_eq_none.2 hin, hissue] at hx
    exact hx.trans (congrArg _ (if_neg (Nat.not_le.2 hroom)))

end Sys2Proof.Machine

/-!
PROOFS. Data registers of the Folio memory instructions (05_folio_instructions R120, R126, R139-R142): the words that a load gives
its lanes, and what the register files hold after them.
-/

namespace Sys2Proof.Machine

/-! ### The words of a value (R142) -/

theorem words4_eq (n : Nat) (bs : Bytes) : words4 n bs = (List.range n).map fun j => ofBytes ((bs.drop (4 * j)).take 4) := by
  induction n generalizing bs with
  | zero => rfl
  | succ n ih =>
    rw [words4, ih, List.range_succ_eq_map, List.map_cons, List.map_map]
    refine List.cons_eq_cons.2 ⟨rfl, List.map_congr_left fun j _ => ?_⟩
    rw [Function.comp, List.drop_drop, Nat.mul_succ, Nat.add_comm]

theorem MSpec.fSize_of_legal {p : MSpec} {v : Nat} {w w1 : W64} (h : p.legal v w w1 = true) : fSize w ≤ 4 := by
  simp only [MSpec.legal, Bool.and_eq_true, decide_eq_true_eq] at h
  obtain ⟨⟨⟨⟨⟨⟨⟨⟨⟨⟨⟨-, h⟩, -⟩, -⟩, -⟩, -⟩, -⟩, -⟩, -⟩, -⟩, -⟩, -⟩ := h
  exact h

theorem wordsOf_length (w : W64) (bs : Bytes) : (wordsOf w bs).length = szRegs w := by
  unfold wordsOf
  split
  next h => simp only [List.length_singleton, szRegs, if_pos (by omega : fSize w ≤ 2)]
  next => rw [List.length_map, List.length_range]

theorem loadWords_eq {w : W64} (h : fSize w ≤ 4) (bs : Bytes) : loadWords w bs = wordsOf w bs := by
  unfold loadWords wordsOf szBytes szRegs
  generalize fSize w = k at h
  match k, h with
  | 0, _ | 1, _ => rfl
  | 2, _ | 3, _ | 4, _ => simp [words4_eq]

/-! ### Registers written word by word -/

/-- Numbers added to the places of a list are where its places begin. -/
theorem foldl_zipIdx_add {α β : Type} (F : β → α → Nat → β) (l : List α) (b : β) (d n : Nat) :
    (l.zipIdx n).foldl (fun b e => F b e.1 (d + e.2)) b = (l.zipIdx (d + n)).foldl (fun b e => F b e.1 e.2) b := by
  induction l generalizing b n with
  | nil => rfl
  | cons x l ih => exact ih (F b x (d + n)) (n + 1)

/-- Registers of a lane from `n` on. -/
def Group.wrVs (g : Group) (lane : Nat) (ws : List W32) (n : Nat) : Group :=
  (ws.zipIdx n).foldl (fun (g : Group) e => g.wrV e.2 lane e.1) g

section
variable (g : Group) (w : W64) (lane : Nat) (ws : List W32)

theorem Group.putWords_of_lanes (hU : fU w = false) : g.putWords w lane ws = g.wrVs lane ws (fD w) := by
  rw [Group.putWords]
  simp only [hU, Bool.false_eq_true, if_false]
  exact foldl_zipIdx_add (fun g x k => g.wrV k lane x) ws g (fD w) 0

theorem Group.putWords_of_uniform (hU : fU w = true) : g.putWords w lane ws = g.wrUs (fD w) ws := by
  rw [Group.putWords]
  simp only [hU, if_true]
  exact foldl_zipIdx_add (fun g x k => g.wrU k x) ws g (fD w) 0

theorem Group.noV_wrVs (n : Nat) : (g.wrVs lane ws n).noV = g.noV :=
  foldl_leaves (f := Group.noV) (F := fun g (e : W32 × Nat) => g.wrV e.2 lane e.1) (fun _ _ => rfl) g (ws.zipIdx n)

theorem Group.rdV_wrVs (n k : Nat) {l : Nat} (hlane : lane < 64) (hl : l < 64) :
    (g.wrVs lane ws n).rdV k l = if l = lane ∧ n ≤ k ∧ k < n + ws.length then ws.getD (k - n) 0#32 else g.rdV k l := by
  induction ws generalizing g n with
  | nil =>
    have : ¬(l = lane ∧ n ≤ k ∧ k < n + 0) := by omega
    rw [List.length_nil, if_neg this]
    rfl
  | cons x ws ih =>
    have e : g.wrVs lane (x :: ws) n = (g.wrV n lane x).wrVs lane ws (n + 1) := rfl
    rw [e, ih, Group.rdV_wrV _ _ _ _ _ _ hlane hl, List.length_cons]
    by_cases hll : l = lane
    · rcases Nat.lt_trichotomy k n with h | rfl | h
      · rw [if_neg (by omega), if_neg (by omega), if_neg (by omega)]
      · rw [if_neg (by omega), if_pos ⟨rfl, hll⟩, if_pos (by omega), Nat.sub_self, List.getD_cons_zero]
      · have e : k - n = (k - (n + 1)) + 1 := by omega
        rw [e, List.getD_cons_succ, if_neg (show ¬(k = n ∧ l = lane) by omega)]
        exact ite_congr (propext (by omega)) (fun _ => rfl) fun _ => rfl
    · rw [if_neg (by omega), if_neg (by omega), if_neg (by omega)]

end

/-- The registers of the lanes of a list, each with its words. -/
def Group.putLanes (g : Group) (w : W64) (words : List (Nat × List W32)) : Group :=
  words.foldl (fun g e => g.putWords w e.1 e.2) g

/-- A group without its vector and uniform registers. -/
def Group.noVU (g : Group) : Group := { g with v := [], u := [] }

theorem Group.noVU_putLanes (g : Group) (w : W64) (words : List (Nat × List W32)) : (g.putLanes w words).noVU = g.noVU := by
  refine foldl_leaves (f := Group.noVU) (F := fun g (e : Nat × List W32) => g.putWords w e.1 e.2) (fun g e => ?_) g words
  cases hU : fU w with
  | true =>
    rw [Group.putWords_of_uniform _ _ _ _ hU]
    exact (congrArg Group.noVU (g.wrUs_rest (fD w) e.2) :)
  | false =>
    rw [Group.putWords_of_lanes _ _ _ _ hU]
    exact (congrArg Group.noVU (g.noV_wrVs e.1 e.2 (fD w)) :)

theorem Group.rest_of_noVU {x g : Group} (h : x.noVU = g.noVU) :
    ({ x with v := g.v, u := g.u, p := g.p, acc := g.acc } : Group) = g :=
  congrArg (fun y : Group => { y with v := g.v, u := g.u, p := g.p, acc := g.acc }) h

section
variable {w : W64} {n : Nat} {words : List (Nat × List W32)} (hn : ∀ e ∈ words, e.2.length = n) (g : Group)
include hn

theorem Group.putLanes_of_lanes (hU : fU w = false) (h64 : ∀ e ∈ words, e.1 < 64) (hnd : (words.map (·.1)).Nodup) :
    (g.putLanes w words).u = g.u ∧ ∀ k lane, lane < 64 → (g.putLanes w words).rdV k lane = match words.find? fun e => e.1 = lane with
      | none => g.rdV k lane
      | some e => if fD w ≤ k ∧ k < fD w + n then e.2.getD (k - fD w) 0#32 else g.rdV k lane := by
  induction words generalizing g with
  | nil => exact ⟨rfl, fun _ _ _ => rfl⟩
  | cons e words ih =>
    obtain ⟨hne, hnr⟩ := List.forall_mem_cons.1 hn
    obtain ⟨he, hr⟩ := List.forall_mem_cons.1 h64
    obtain ⟨hnot, hnd⟩ := List.nodup_cons.1 hnd
    obtain ⟨hu, hv⟩ := ih hnr (g.putWords w e.1 e.2) hr hnd
    have hput := g.putWords_of_lanes w e.1 e.2 hU
    refine ⟨hu.trans (hput ▸ (congrArg Group.u (g.noV_wrVs e.1 e.2 (fD w)) :)), fun k lane hl => (hv k lane hl).trans ?_⟩
    have hold := g.rdV_wrVs e.1 e.2 (fD w) k he hl
    rw [hput, hne] at *
    by_cases hlane : e.1 = lane
    · have hnone : words.find? (fun e => e.1 = lane) = none := by
        rw [List.find?_eq_none]
        intro x hx hxl
        exact hnot (List.mem_map.2 ⟨x, hx, (of_decide_eq_true hxl).trans hlane.symm⟩)
      rw [hnone, List.find?_cons_of_pos (by simpa using hlane)]
      simpa [hlane] using hold
    · rw [List.find?_cons_of_neg (by simpa using hlane)]
      have hlane' : ¬ lane = e.1 := fun h => hlane h.symm
      simp only [hlane', false_and, if_false] at hold
      rw [hold]

/-- Under U there is one lane at most, and its words go to uniform registers. -/
theorem Group.putLanes_of_uniform (hU : fU w = true) (h1 : words.length ≤ 1) :
    (g.putLanes w words).v = g.v ∧ ∀ k, (g.putLanes w words).rdU k = match (generalizing := false) words with
      | [] => g.rdU k
      | e :: _ => if fD w ≤ k ∧ k < fD w + n then e.2.getD (k - fD w) 0#32 else g.rdU k := by
  match words, h1 with
  | [], _ => exact ⟨rfl, fun _ => rfl⟩
  | [e], _ =>
    have hne := hn e List.mem_cons_self
    have e : g.putLanes w [e] = g.wrUs (fD w) e.2 := g.putWords_of_uniform w e.1 e.2 hU
    rw [e]
    exact ⟨g.wrUs_v .., fun k => hne ▸ g.rdU_wrUs ..⟩

end

/-- The lanes of an access. -/
theorem Group.accLanes_nodup (g : Group) (w : W64) : (g.accLanes w).Nodup := by
  unfold Group.accLanes
  split
  · split
    · exact List.pairwise_singleton _ _
    · exact List.nodup_nil
  · exact List.nodup_range.filter _

theorem firstLane_lt (m : W64) : firstLane m < 64 := by
  unfold firstLane
  cases h : (List.range 64).find? fun l => m.getLsbD l with
  | none => decide
  | some l => exact List.mem_range.1 (List.mem_of_find?_eq_some h)

theorem Group.accLanes_lt {g : Group} {w : W64} {lane : Nat} (h : lane ∈ g.accLanes w) : lane < 64 := by
  unfold Group.accLanes at h
  split at h
  · split at h
    · exact (List.mem_singleton.1 h) ▸ firstLane_lt _
    · cases h
  · exact BitVec.lt_of_getLsbD ((mem_lanesOf _ _).1 h)

theorem Group.accLanes_length_le {g : Group} {w : W64} (hU : fU w = true) : (g.accLanes w).length ≤ 1 := by
  unfold Group.accLanes
  rw [if_pos hU]
  split
  · exact Nat.le_refl 1
  · exact Nat.zero_le 1

/-- Words given to the lanes of an access are what `LoadsInto` says. -/
theorem Group.putLanes_loadsInto {g : Group} {w : W64} {words : List (Nat × List W32)} {n : Nat} (hn : ∀ e ∈ words, e.2.length = n)
    (hlanes : (words.map (·.1)).Perm (g.accLanes w)) (pc : W64) (rw_ : Bool) :
    LoadsInto w g { g.putLanes w words with pc := pc, relWait := rw_ } n words := by
  have hrest := g.noVU_putLanes w words
  refine ⟨(congrArg Group.p hrest :), (congrArg Group.acc hrest :), ?_⟩
  cases hU : fU w with
  | true =>
    have h1 : words.length ≤ 1 := by
      rw [← List.length_map (f := (·.1)), hlanes.length_eq]
      exact Group.accLanes_length_le hU
    rw [if_pos rfl]
    exact Group.putLanes_of_uniform hn g hU h1
  | false =>
    have h64 : ∀ e ∈ words, e.1 < 64 := fun e he => Group.accLanes_lt (hlanes.mem_iff.1 (List.mem_map_of_mem he))
    rw [if_neg Bool.false_ne_true]
    exact Group.putLanes_of_lanes hn g hU h64 (hlanes.nodup_iff.2 (g.accLanes_nodup w))

end Sys2Proof.Machine

/-!
PROOFS. Folio loads (05_folio_instructions R139-R145, R158): LDM, LDRO and LDLS.
-/

namespace Sys2Proof.Machine

/-! ### Global loads -/

theorem loadSub_funext : loadSub = fun sub size => decide (sub = 0 ∨ sub = 1 ∧ size ≤ 1) := funext fun sub => funext fun size => loadSub_eq sub size

/-- The lanes of the pieces of an access are those of its addresses. -/
theorem State.glanes_lanes {s t : State} {w : Who} {l : Launch} {b : Block} {k : Acc} {mis : Bool} {n : Nat} {as : List (Nat × Nat)}
    {acc ps : List (Nat × List Piece)} (h : s.glanes w l b k mis n as acc = (t, .ok ps)) :
    ps.map (·.1) = acc.map (·.1) ++ as.map (·.1) := by
  induction as generalizing s acc with
  | nil =>
    rw [State.glanes, Prod.mk.injEq, Except.ok.injEq] at h
    rw [← h.2, List.map_nil, List.append_nil]
  | cons a as ih =>
    obtain ⟨lane, va⟩ := a
    rw [State.glanes] at h
    split at h
    · cases h
    · dsimp only at h
      split at h
      · cases h
      · rw [ih h, List.map_append, List.append_assoc]
        rfl

theorem LanesRead.lanes {w : Who} {b : Block} {pipe hint : Nat} {ro : Bool} {s t : State} {ps : List (Nat × List Piece)}
    {vals : List (Nat × Bytes)} (h : LanesRead w b pipe hint ro s ps t vals) : vals.map (·.1) = ps.map (·.1) := by
  induction h with
  | nil => rfl
  | cons s u t lane ps bs r rs _ _ ih => rw [List.map_cons, List.map_cons, ih]

/-- A fold that gives each lane that reads its words gives them to all. -/
theorem LanesRead.foldl_eq {who : Who} {b : Block} {pipe hint : Nat} {ro : Bool} {s t : State} {ps : List (Nat × List Piece)}
    {vals : List (Nat × Bytes)} (h : LanesRead who b pipe hint ro s ps t vals) {w : W64}
    {F : State × Group × Option Nat → Nat × List Piece → State × Group × Option Nat}
    (hF : ∀ s u g lane ps bs, State.readPieces s who b pipe hint ro ps = (u, .ok bs) →
      F (s, g, none) (lane, ps) = (u, g.putWords w lane (wordsOf w bs), none)) (g : Group) :
    ps.foldl F (s, g, none) = (t, g.putLanes w (vals.map fun e => (e.1, wordsOf w e.2)), none) := by
  induction h generalizing g with
  | nil => rfl
  | cons s u t lane ps bs r rs hread _ ih =>
    rw [List.foldl_cons, hF _ _ _ _ _ _ hread, ih]
    rfl

section
variable {s s1 : State} {g : GRef} {w w1 : W64} {l : Launch} {b : Block} {grp : Group} (h : Issues s g w s1 l b grp)
  (hop : folioOpcodes.contains (fOpc w) = true)
include h hop

/-- A load whose lanes all read goes on with its registers. -/
theorem State.gload_of {ro : Bool} {k u : State} {ps : List (Nat × List Piece)} {vals : List (Nat × Bytes)}
    (hlegal : MSpec.legal { u := true, ords := if ro then [0] else [0, 1], sub := fun sub size => decide (sub = 0 ∨ sub = 1 ∧ size ≤ 1) }
      l.vregs w w1 = true)
    (hacq : s1.acquireWaits l w = false)
    (hk : s1.glanes (s1.runWho l.q l.run) l b .read false (szBytes w) ((grp.accLanes w).map fun x => (x, grp.gaddr w w1 x)) [] = (k, .ok ps))
    (hheld : ∀ e ∈ ps, ∀ p ∈ e.2, s1.mopnHeld (s1.runWho l.q l.run) p.1 p.2 = false)
    (hfetch : (s.fetchPieces (s1.runWho l.q l.run) grp.pipe (fHint w) ro (ps.flatMap fun e => e.2)).2 = true)
    (hread : LanesRead (s1.runWho l.q l.run) b grp.pipe (fHint w) ro k ps u vals) :
    s.gload g w w1 ro = (u.acquire g.core grp.pipe (if fOrd w % 2 = 1 then fScope w else 0)).nextPc g
      (grp.putLanes w (vals.map fun e => (e.1, wordsOf w e.2))) w := by
  have hheld' : (ps.any fun e => e.2.any fun p => s1.mopnHeld (s1.runWho l.q l.run) p.1 p.2) = false := by
    simpa only [List.any_eq_false, Bool.not_eq_true] using hheld
  have hsize := MSpec.fSize_of_legal hlegal
  rw [← loadSub_funext] at hlegal
  rw [State.gload, State.ctl_of h hop hlegal]
  simp only [hacq, hk, hheld', hfetch, acqOf, decide_eq_true_eq]
  rw [hread.foldl_eq (w := w) fun s u g lane ps bs hr => by simp [hr, loadWords_eq hsize]]
  rfl

end

/-! ### The cache action of an acquire does not look at the free values (R145) -/

/-- The state at another place of the free values. -/
def State.withFree (s : State) (n : Nat) : State := { s with free := n }

theorem State.ite_withFree {c : Prop} [Decidable c] (s t : State) (n : Nat) :
    (if c then s else t).withFree n = if c then s.withFree n else t.withFree n :=
  apply_ite (fun t : State => t.withFree n) ..

section
variable (s : State) (n : Nat)

theorem State.noteOut_withFree (site line : Nat) : (s.withFree n).noteOut site line = (s.noteOut site line).withFree n := by
  have hl : (s.withFree n).line? site line = s.line? site line := rfl
  unfold State.noteOut
  rw [hl]
  cases s.line? site line with
  | none => rfl
  | some l =>
    dsimp only
    rw [State.ite_withFree]
    rfl

theorem State.dropLine_withFree (site line : Nat) : (s.withFree n).dropLine site line = (s.dropLine site line).withFree n := by
  unfold State.dropLine
  rw [State.noteOut_withFree]
  by_cases ho : isOut (line * 512) = true
  · simp only [if_pos ho]
    rfl
  · simp only [if_neg ho]
    rfl

theorem State.dropOutSector_withFree (site sec : Nat) : (s.withFree n).dropOutSector site sec = (s.dropOutSector site sec).withFree n := by
  have hl : (s.withFree n).line? site (sec / 4) = s.line? site (sec / 4) := rfl
  unfold State.dropOutSector
  rw [hl]
  cases s.line? site (sec / 4) with
  | none => rfl
  | some l =>
    dsimp only
    rw [State.dropLine_withFree, State.noteOut_withFree, State.ite_withFree]
    rfl

theorem State.dropCleanOut_withFree (site : Nat) : (s.withFree n).dropCleanOut site = (s.dropCleanOut site).withFree n := by
  refine List.foldl_hom (fun t : State => t.withFree n) fun t l => ?_
  refine List.foldl_hom (fun t : State => t.withFree n) fun t k => ?_
  rw [State.dropOutSector_withFree, State.ite_withFree]

theorem State.acquire_withFree (core pipe scope : Nat) : (s.withFree n).acquire core pipe scope = (s.acquire core pipe scope).withFree n := by
  unfold State.acquire
  by_cases h0 : scope = 0
  · simp only [if_pos h0]
  · by_cases h4 : scope = 4
    · simp only [if_neg h0, if_pos h4]
      exact State.dropCleanOut_withFree (s.setTe core ((s.te core).dropL0 pipe)) n _
    · simp only [if_neg h0, if_neg h4]
      rfl

end

/-- A group that changes alone after the free values moved on changes alone. -/
theorem OnlyGroup.of_withFree {s t : State} {g : GRef} {n : Nat} (h : OnlyGroup (s.withFree n) t g) : OnlyGroup s t g where
  rest := congrArg (fun u : State => u.withFree s.free) h.rest
  regs := h.regs
  runs := h.runs
  groups := h.groups
  engine := h.engine

/-! ### Local loads -/

theorem State.runWho_q (s : State) (q : QRef) (id : Nat) : (s.runWho q id).q = q := by
  unfold State.runWho
  split <;> rfl

/-- A byte of the local store that no copy in flight writes is read as it stands (R158). -/
theorem State.lsByte_quiet (s : State) (who : Who) {b : Block} {off : Nat} (h : ∀ c ∈ b.copies, copySrcsOf c off = []) :
    s.lsByte who b off = (s, s.arc.rdLs (lsKey (s.coreSlotIx who.q.core) off)) := by
  have hnone : (b.copies.flatMap fun c => (copySrcsOf c off).flatMap fun a =>
      s.byteAt who a :: ((s.te who.q.core).hist.filter fun e => e.2.1 = a && decide (c.from_ a < e.1)).map (·.2.2)) = [] :=
    List.flatMap_eq_nil_iff.2 fun c hc => by rw [h c hc, List.flatMap_nil]
  rw [State.lsByte, hnone]
  rfl

/-- A read of the local store moves on the free values alone. -/
theorem State.lsByte_fst (s : State) (who : Who) (b : Block) (off : Nat) : ∃ n, (s.lsByte who b off).1 = s.withFree n := by
  unfold State.lsByte State.pickByte
  dsimp only
  split
  · exact ⟨s.free, rfl⟩
  · exact ⟨s.free + 1, rfl⟩

theorem getD_append_left {l r : List W8} {i : Nat} (h : i < l.length) : (l ++ r).getD i 0#8 = l.getD i 0#8 := by
  rw [List.getD_eq_getElem?_getD, List.getElem?_append_left h, List.getD_eq_getElem?_getD]

theorem getD_concat_length (l : List W8) (x : W8) : (l ++ [x]).getD l.length 0#8 = x := by
  rw [List.getD_eq_getElem?_getD, List.getElem?_concat_length, Option.getD_some]

/-- The bytes of the lanes, with those of one lane replaced. -/
def setBytes (f : Nat → Bytes) (k : Nat) (bs : Bytes) (j : Nat) : Bytes := if j = k then bs else f j

theorem setBytes_same (f : Nat → Bytes) (k : Nat) (bs : Bytes) : setBytes f k bs k = bs := if_pos rfl
theorem setBytes_ne (f : Nat → Bytes) {k j : Nat} (bs : Bytes) (h : j ≠ k) : setBytes f k bs j = f j := if_neg h

/-- What bytes of the local store read as: their number, and the values of those that no copy writes. -/
structure LocalBytes (s : State) (who : Who) (b : Block) (offs : List Nat) (t : State) (bs : Bytes) : Prop where
  free : ∃ n, t = s.withFree n
  length : bs.length = offs.length
  quiet : ∀ i (hi : i < offs.length), (∀ c ∈ b.copies, copySrcsOf c offs[i] = []) →
    bs.getD i 0#8 = s.arc.rdLs (lsKey (s.coreSlotIx who.q.core) offs[i])

theorem State.lsBytes_foldl (s u : State) (who : Who) (b : Block) (before : List Nat) (bs : Bytes) (offs : List Nat)
    (h : LocalBytes s who b before u bs) :
    LocalBytes s who b (before ++ offs)
      (offs.foldl (fun (acc : State × Bytes) a => let r := acc.1.lsByte who b a; (r.1, acc.2 ++ [r.2])) (u, bs)).1
      (offs.foldl (fun (acc : State × Bytes) a => let r := acc.1.lsByte who b a; (r.1, acc.2 ++ [r.2])) (u, bs)).2 := by
  induction offs generalizing u bs before with
  | nil => simpa using h
  | cons a offs ih =>
    rw [List.foldl_cons, ← List.singleton_append, ← List.append_assoc]
    refine ih _ _ _ ?_
    obtain ⟨⟨n, rfl⟩, hlen, hq⟩ := h
    obtain ⟨m, hm⟩ := (s.withFree n).lsByte_fst who b a
    refine ⟨⟨m, hm⟩, by simp [hlen], fun i hi hquiet => ?_⟩
    rw [List.length_append, List.length_singleton] at hi
    by_cases e : i < before.length
    · rw [List.getElem_append_left e] at hquiet ⊢
      rw [getD_append_left (hlen ▸ e)]
      exact hq i e hquiet
    · obtain rfl : i = before.length := by omega
      rw [List.getElem_append_right (Nat.le_refl _)] at hquiet ⊢
      simp only [Nat.sub_self, List.getElem_cons_zero] at hquiet ⊢
      rw [(s.withFree n).lsByte_quiet who hquiet, ← hlen, getD_concat_length]
      rfl

theorem State.lsBytes_spec (s : State) (who : Who) (b : Block) (off n : Nat) :
    LocalBytes s who b (addrs off n) (s.lsBytes who b off n).1 (s.lsBytes who b off n).2 :=
  s.lsBytes_foldl s who b [] [] (addrs off n) ⟨⟨s.free, rfl⟩, rfl, fun i hi => absurd hi (Nat.not_lt_zero i)⟩

/-- One lane of a load of the local store. -/
def State.lsLane (who : Who) (b : Block) (n : Nat) (w : W64) (acc : State × Group) (a : Nat × Nat) : State × Group :=
  let x := acc.1.lsBytes who b a.2 n
  (x.1, acc.2.putWords w a.1 (loadWords w x.2))

/-- The lanes of a load of the local store, one after another. -/
theorem State.foldl_lsLane (who : Who) (b : Block) (n : Nat) {w : W64} (hw : fSize w ≤ 4) (s u : State) (as : List (Nat × Nat)) (grp : Group)
    (hu : ∃ m, u = s.withFree m) (hnd : (as.map (·.1)).Nodup) :
    ∃ (m : Nat) (bytes : Nat → Bytes),
      as.foldl (State.lsLane who b n w) (u, grp) = (s.withFree m, grp.putLanes w (as.map fun a => (a.1, wordsOf w (bytes a.1)))) ∧
      ∀ a ∈ as, ∃ t m, LocalBytes (s.withFree m) who b (addrs a.2 n) t (bytes a.1) := by
  induction as generalizing u grp with
  | nil =>
    obtain ⟨m, rfl⟩ := hu
    exact ⟨m, fun _ => [], rfl, fun a ha => absurd ha (List.not_mem_nil)⟩
  | cons a as ih =>
    obtain ⟨m, rfl⟩ := hu
    obtain ⟨hnot, hnd⟩ := List.nodup_cons.1 hnd
    have hspec := (s.withFree m).lsBytes_spec who b a.2 n
    obtain ⟨⟨m', hm'⟩, -, -⟩ := id hspec
    obtain ⟨k, bytes, hfold, hbytes⟩ := ih ((s.withFree m).lsBytes who b a.2 n).1
      (grp.putWords w a.1 (wordsOf w ((s.withFree m).lsBytes who b a.2 n).2)) ⟨m', hm'⟩ hnd
    have hother : ∀ e ∈ as, setBytes bytes a.1 ((s.withFree m).lsBytes who b a.2 n).2 e.1 = bytes e.1 := fun e he =>
      setBytes_ne _ _ fun h : e.1 = a.1 => hnot (List.mem_map.2 ⟨e, he, h⟩)
    refine ⟨k, setBytes bytes a.1 ((s.withFree m).lsBytes who b a.2 n).2, ?_, ?_⟩
    · rw [List.foldl_cons, State.lsLane, loadWords_eq hw, hfold, List.map_cons, setBytes_same]
      refine congrArg (Prod.mk (s.withFree k)) (congrArg (Group.putLanes _ w) (List.map_congr_left fun e he => ?_))
      rw [hother e he]
    · intro e he
      rcases List.mem_cons.1 he with rfl | he
      · rw [setBytes_same]
        exact ⟨_, m, hspec⟩
      · rw [hother e he]
        exact hbytes e he

/-! ### LDM, LDRO and LDLS where they issue -/

theorem lsFault_eq_none {l : Launch} {b : Block} {n : Nat} {as : List (Nat × Nat)} (h : ∀ a ∈ as, inAlloc l b a.2 n = true) :
    lsFault l b false n as = none := by
  rw [lsFault, Option.map_eq_none_iff, List.find?_eq_none]
  intro a ha
  simp [h a ha]

/-- The first lane whose offset lies outside the allocation. -/
theorem lsFault_eq_some {l : Launch} {b : Block} {n : Nat} {lanes : List Nat} {f : Nat → Nat} {y : Nat}
    (h : lanes.find? (fun x => !inAlloc l b (f x) n) = some y) :
    lsFault l b false n (lanes.map fun x => (x, f x)) = some (y, stProtection, some (f y)) := by
  simp only [lsFault, Bool.false_and, Bool.false_or, List.find?_map, Function.comp_def, h, Option.map_some, Bool.false_eq_true,
    if_false]

section
variable {s s1 : State} {g : GRef} {w w1 : W64} {l : Launch} {b : Block} {grp : Group}

/-- A group whose lanes have been given words goes on with them. -/
theorem runs_loadsInto {c : Instr} {v : State} {words : List (Nat × List W32)} {n : Nat} (hn : ∀ e ∈ words, e.2.length = n)
    (hlanes : words.map (·.1) = grp.accLanes w) (hx : exec c s = .next (v.nextPc g (grp.putLanes w words) w)) :
    ∃ (t : State) (x : Group), exec c s = .next t ∧ OnlyGroup v t g ∧ RanTo t g w grp x ∧ LoadsInto w grp x n words :=
  ⟨_, _, hx, OnlyGroup.nextPc .., .intro (State.grp?_setGrp_same ..) (Group.rest_of_noVU (grp.noVU_putLanes w words)),
    Group.putLanes_loadsInto hn (List.Perm.of_eq hlanes) _ _⟩

variable (hg : g.ok = true) (h : Issues s g w s1 l b grp)
include hg h

/-- A global load, by LDM or by LDRO. -/
theorem runs_gload {c : Instr} {op : Nat} {ro : Bool} (hc : exec c s = carryOut (g.ok && opcodeOk w op) (s.gload g w w1 ro))
    (hm : folioOpcodes.contains op = true) (hop : fOpc w = op) {k u : State} {ps : List (Nat × List Piece)} {vals : List (Nat × Bytes)}
    (hlegal : MSpec.legal { u := true, ords := if ro then [0] else [0, 1], sub := fun sub size => decide (sub = 0 ∨ sub = 1 ∧ size ≤ 1) }
      l.vregs w w1 = true)
    (hacq : s1.acquireWaits l w = false)
    (hk : s1.glanes (s1.runWho l.q l.run) l b .read false (szBytes w) ((grp.accLanes w).map fun x => (x, grp.gaddr w w1 x)) [] = (k, .ok ps))
    (hheld : ∀ e ∈ ps, ∀ p ∈ e.2, s1.mopnHeld (s1.runWho l.q l.run) p.1 p.2 = false)
    (hfetch : (s.fetchPieces (s1.runWho l.q l.run) grp.pipe (fHint w) ro (ps.flatMap fun e => e.2)).2 = true)
    (hread : LanesRead (s1.runWho l.q l.run) b grp.pipe (fHint w) ro k ps u vals) :
    ∃ (t : State) (x : Group), exec c s = .next t ∧ OnlyGroup (u.acquire g.core grp.pipe (if fOrd w % 2 = 1 then fScope w else 0)) t g ∧
      RanTo t g w grp x ∧ LoadsInto w grp x (szRegs w) (vals.map fun e => (e.1, wordsOf w e.2)) := by
  have hx := State.gload_of h (hop ▸ hm) hlegal hacq hk hheld hfetch hread
  rw [hx] at hc
  refine runs_loadsInto (fun e he => ?_) ?_ (hc.trans (carryOut_folio hg hop _))
  · obtain ⟨e, -, rfl⟩ := List.mem_map.1 he
    exact wordsOf_length ..
  · rw [List.map_map]
    refine (hread.lanes.trans (State.glanes_lanes hk)).trans ?_
    rw [List.map_map]
    exact List.map_id _

section
variable (hop : fOpc w = 0x52)
  (hlegal : MSpec.legal { u := true, global := false, ords := [0, 1], sub := fun sub size => decide (sub = 0 ∨ sub = 1 ∧ size ≤ 1) }
    l.vregs w w1 = true)
  (hacq : s1.acquireWaits l w = false)
include hop hlegal hacq

/-- LDLS with every offset within the allocation. -/
theorem exec_ldls_of_in (hf : lsFault l b false (szBytes w) ((grp.accLanes w).map fun x => (x, grp.laddr w w1 x)) = none) {t : State} {x : Group}
    (hfold : ((grp.accLanes w).map fun x => (x, grp.laddr w w1 x)).foldl (State.lsLane (s1.runWho l.q l.run) b (szBytes w) w) (s1, grp) =
      (t, x)) :
    exec (.ldls g w w1) s = .next ((t.acquire g.core grp.pipe (if fOrd w % 2 = 1 then fScope w else 0)).nextPc g x w) := by
  rw [← loadSub_funext] at hlegal
  refine (exec_ctl_of (c := .ldls g w w1)
    (ok := fun v => MSpec.legal { u := true, global := false, ords := [0, 1], sub := loadSub } v w w1) rfl hg h hop rfl hlegal).trans
    (congrArg Host.Outcome.next ?_)
  simp only [hacq, hf, acqOf, decide_eq_true_eq]
  unfold State.lsLane at hfold
  simp only [hfold]
  rfl

/-- LDLS with an offset outside the allocation. -/
theorem exec_ldls_of_fault {f : Nat × Nat × Option Nat}
    (hf : lsFault l b false (szBytes w) ((grp.accLanes w).map fun x => (x, grp.laddr w w1 x)) = some f) :
    exec (.ldls g w w1) s = .next (s1.accessFault g grp f true) := by
  rw [← loadSub_funext] at hlegal
  refine (exec_ctl_of (c := .ldls g w w1)
    (ok := fun v => MSpec.legal { u := true, global := false, ords := [0, 1], sub := loadSub } v w w1) rfl hg h hop rfl hlegal).trans
    (congrArg Host.Outcome.next ?_)
  simp only [hacq, hf]
  rfl

end

end

/-- A fault of an access that kills the context is recorded at its lane (R127). -/
theorem State.accessFault_faultsWith (s : State) (g : GRef) (grp : Group) (lane : Nat) {code : Nat} (a : Nat) (ls : Bool)
    (hk : killsContext code = true) :
    FaultsWith s (s.accessFault g grp (lane, code, some a) ls) g.core g.slot grp.blk lane grp.pc code (some (a, ls)) := by
  rw [State.accessFault]
  dsimp only
  rw [if_pos hk]
  exact s.threadFault_faultsWith _ _ _ _ _ _ hk

/-- Settles O19: the loads of each lane, and the registers they give. -/
theorem folioLoads : Obligations.FolioLoads := by
  refine ⟨?memory, ?store⟩
  case memory =>
    simp only [List.forall_mem_cons, List.not_mem_nil, false_implies, implies_true, and_true]
    refine ⟨?ldm, ?ldro⟩
    case ldm =>
      intro s g w w1 s1 l b grp k u ps vals hg hop h hlegal hacq hk hheld hfetch hread
      exact runs_gload (c := .ldm g w w1) hg h rfl rfl hop (ro := false) hlegal hacq hk hheld hfetch hread
    case ldro =>
      intro s g w w1 s1 l b grp k u ps vals hg hop h hlegal hacq hk hheld hfetch hread
      exact runs_gload (c := .ldro g w w1) hg h rfl rfl hop (ro := true) hlegal hacq hk hheld hfetch hread
  case store =>
    intro s g w w1 s1 l b grp hg hop h hlegal hacq
    refine ⟨fun hin => ?_, fun y hy => ?_⟩
    · have hlanes : ((grp.accLanes w).map fun x => (x, grp.laddr w w1 x)).map (·.1) = grp.accLanes w := by
        rw [List.map_map]
        exact List.map_id _
      obtain ⟨m, bytes, hfold, hbytes⟩ := State.foldl_lsLane (s1.runWho l.q l.run) b (szBytes w) (MSpec.fSize_of_legal hlegal) s1 s1
        ((grp.accLanes w).map fun x => (x, grp.laddr w w1 x)) grp ⟨s1.free, rfl⟩ (by rw [hlanes]; exact grp.accLanes_nodup w)
      have hf := lsFault_eq_none (l := l) (b := b) (n := szBytes w) (as := (grp.accLanes w).map fun x => (x, grp.laddr w w1 x))
        fun a ha => by obtain ⟨x, hx, rfl⟩ := List.mem_map.1 ha; exact hin x hx
      have hx := exec_ldls_of_in hg h hop hlegal hacq hf hfold
      rw [State.acquire_withFree, List.map_map] at hx
      obtain ⟨t, x, ht, honly, hran, hloads⟩ := runs_loadsInto (n := szRegs w) (by simp [wordsOf_length]) (by simp [Function.comp_def]) hx
      refine ⟨t, x, bytes, ht, ?_, hran, hloads, fun y hy => ?_⟩
      · exact honly.of_withFree
      · obtain ⟨t, m, -, hlen, hq⟩ := hbytes _ (List.mem_map_of_mem hy)
        simp only [addrs, List.length_map, List.length_range, List.getElem_map, List.getElem_range, State.runWho_q] at hlen hq
        exact ⟨hlen, fun i hi hquiet => hq i hi hquiet⟩
    · have hx := exec_ldls_of_fault hg h hop hlegal hacq (lsFault_eq_some hy)
      exact ⟨_, hx, s1.accessFault_faultsWith _ _ _ _ _ rfl⟩

end Sys2Proof.Machine

/-!
PROOFS. Power and the reference clock (17_power_and_clocks R419, R420, R423), the core clock steps and the Ledger's frames
(R425, R426, R431).
-/

namespace Sys2Proof.Machine

/-! ### Registers over a fold -/

/-- A fold whose steps over a list's elements leave what `f` reads alone leaves it alone. -/
theorem foldl_leaves_of_mem {α β γ : Type} {f : β → γ} {F : β → α → β} {l : List α} (h : ∀ b, ∀ a ∈ l, f (F b a) = f b) (b : β) :
    f (l.foldl F b) = f b :=
  List.foldlRecOn (motive := fun x => f x = f b) l F rfl fun x hx a ha => (h x a ha).trans hx

/-- What `f` reads, where one element of a list changes it alone. -/
theorem foldl_changes_once {α β γ : Type} {f : β → γ} {F : β → α → β} {l : List α} (hl : l.Nodup) {a0 : α} (hmem : a0 ∈ l) {g : γ → γ}
    (hsame : ∀ b, f (F b a0) = g (f b)) (hne : ∀ b, ∀ a ∈ l, a ≠ a0 → f (F b a) = f b) (b : β) : f (l.foldl F b) = g (f b) := by
  obtain ⟨l1, l2, rfl⟩ := List.append_of_mem hmem
  obtain ⟨-, hright, hapart⟩ := List.nodup_append.1 hl
  have h1 : a0 ∉ l1 := fun h => hapart a0 h a0 List.mem_cons_self rfl
  have h2 : a0 ∉ l2 := (List.nodup_cons.1 hright).1
  rw [List.foldl_append, List.foldl_cons,
    foldl_leaves_of_mem (f := f) fun b a ha => hne b a (by simp [ha]) fun e => h2 (e ▸ ha), hsame,
    foldl_leaves_of_mem (f := f) fun b a ha => hne b a (by simp [ha]) fun e => h1 (e ▸ ha)]

theorem tget_filter {α : Type} (d : α) (p : Nat → Bool) (t : List (Nat × α)) (k : Nat) :
    tget d (t.filter fun e => p e.1) k = if p k = true then tget d t k else d := by
  induction t with
  | nil => simp [tget]
  | cons e t ih =>
    obtain ⟨j, v⟩ := e
    by_cases hp : p j = true
    · rw [List.filter_cons_of_pos (p := fun e : Nat × α => p e.1) hp, tget, tget, ih]
      by_cases hj : j = k
      · rw [if_pos hj, if_pos hj, if_pos (hj ▸ hp)]
      · rw [if_neg hj, if_neg hj]
    · rw [List.filter_cons_of_neg (p := fun e : Nat × α => p e.1) hp, ih, tget]
      by_cases hj : j = k
      · rw [if_neg (hj ▸ hp), if_neg (hj ▸ hp)]
      · rw [if_neg hj]

/-! ### The cold state (R406, R420) -/

theorem mem_allHalves {e : Nat × Nat} : e ∈ allHalves ↔ e.1 < 72 ∧ e.2 < 2 := by
  obtain ⟨x, h⟩ := e
  simp only [allHalves, List.mem_map, List.mem_range, Prod.mk.injEq]
  constructor
  · rintro ⟨i, hi, rfl, rfl⟩
    omega
  · intro ⟨hx, hh⟩
    exact ⟨2 * x + h, by omega, by omega, by omega⟩

theorem nodup_allHalves : allHalves.Nodup :=
  List.Pairwise.map _ (fun i j (h : i ≠ j) e => by
    rw [Prod.mk.injEq] at e
    omega) List.nodup_range

theorem ckgHalf_inj {a b : Nat × Nat} (ha : a ∈ allHalves) (hb : b ∈ allHalves) (h : ckgHalf a.1 a.2 = ckgHalf b.1 b.2) : a = b := by
  rw [mem_allHalves] at ha hb
  unfold ckgHalf ckgB siteB at h
  exact Prod.ext (by omega) (by omega)

theorem State.reg_coldRegs (s : State) (k : Nat) : s.coldRegs.reg k = if keptReg k = true then s.reg k else regReset k :=
  tget_filter ..

/-- The step codes of one half at the ceiling. -/
def State.ceilHalf (c : Nat) (s : State) (e : Nat × Nat) : State := (s.setFld (ckgHalf e.1 e.2) 0 2 c).setFld (ckgHalf e.1 e.2) 6 2 c

theorem State.cold_eq (s : State) : s.cold = allHalves.foldl (State.ceilHalf s.ceilStep) s.coldRegs := by
  unfold State.cold State.ceilHalf
  rfl

theorem State.noRegs_ceilHalf (c : Nat) (s : State) (e : Nat × Nat) : (State.ceilHalf c s e).noRegs = s.noRegs := by
  rw [State.ceilHalf, State.noRegs_setFld, State.noRegs_setFld]

theorem State.reg_ceilHalf_same (c : Nat) (s : State) (x h : Nat) :
    (State.ceilHalf c s (x, h)).reg (ckgHalf x h) = putFld (putFld (s.reg (ckgHalf x h)) 0 2 c) 6 2 c := by
  rw [State.ceilHalf, State.reg_setFld_same, State.reg_setFld_same]

theorem State.reg_ceilHalf_ne (c : Nat) (s : State) {e : Nat × Nat} {k : Nat} (h : k ≠ ckgHalf e.1 e.2) :
    (State.ceilHalf c s e).reg k = s.reg k := by
  rw [State.ceilHalf, State.reg_setFld_ne _ _ _ _ h, State.reg_setFld_ne _ _ _ _ h]

theorem State.noRegs_cold (s : State) : s.cold.noRegs = s.coldRegs.noRegs := by
  rw [State.cold_eq]
  exact foldl_leaves (State.noRegs_ceilHalf _) _ _

/-- What `cold` leaves beside the registers. -/
theorem State.cold_rest (s : State) : { s.cold with regs := s.coldRegs.regs } = s.coldRegs := State.noRegs_eq_iff.1 s.noRegs_cold

theorem State.reg_cold_of_ne (s : State) {k : Nat} (h : ∀ x h, x < 72 → h < 2 → k ≠ ckgHalf x h) : s.cold.reg k = s.coldRegs.reg k := by
  rw [State.cold_eq]
  exact foldl_leaves_of_mem (f := fun s : State => s.reg k) (F := State.ceilHalf s.ceilStep) (fun b a ha =>
    State.reg_ceilHalf_ne _ _ (h a.1 a.2 (mem_allHalves.1 ha).1 (mem_allHalves.1 ha).2)) _

theorem keptReg_ckgHalf {x h : Nat} (hx : x < 72) (hh : h < 2) : keptReg (ckgHalf x h) = false := by
  unfold keptReg ckgHalf ckgB siteB fusB mgmtB
  simp only [Bool.or_eq_false_iff, decide_eq_false_iff_not]
  omega

theorem State.reg_cold_half (s : State) {x h : Nat} (hx : x < 72) (hh : h < 2) :
    s.cold.reg (ckgHalf x h) = putFld (putFld (regReset (ckgHalf x h)) 0 2 s.ceilStep) 6 2 s.ceilStep := by
  have hmem : (x, h) ∈ allHalves := mem_allHalves.2 ⟨hx, hh⟩
  have hcold : s.coldRegs.reg (ckgHalf x h) = regReset (ckgHalf x h) := 
    (s.reg_coldRegs _).trans (if_neg (Bool.eq_false_iff.1 (keptReg_ckgHalf hx hh)))
  rw [State.cold_eq, ← hcold]
  exact foldl_changes_once (f := fun s : State => s.reg (ckgHalf x h)) (F := State.ceilHalf s.ceilStep) (g := fun v => putFld (putFld v 0 2 s.ceilStep) 6 2 s.ceilStep)
    nodup_allHalves hmem (fun b => State.reg_ceilHalf_same _ b x h)
    (fun b a ha hne => State.reg_ceilHalf_ne _ b fun e => hne (ckgHalf_inj hmem ha e).symm) _

/-- A command whose effect is `t` answers `t`. -/
theorem exec_of {c : Instr} {s t u : State} {ok : Bool} (hc : exec c s = carryOut ok t) (hok : ok = true) (ht : t = u) : exec c s = .next u := by
  rw [hc, carryOut_of hok, ht]

theorem keptReg_iff (k : Nat) : keptReg k = true ↔ (fusB ≤ k ∧ k < fusB + 0x10_0000) ∨ (mgmtB 0 ≤ k ∧ k < mgmtB 256) := by
  simp only [keptReg, Bool.or_eq_true, decide_eq_true_eq]

/-- What the rest of a cold state is: nothing but the power state. -/
theorem State.cold_empty (s : State) : s.cold.arc = {} ∧ s.cold.queues = [] ∧ s.cold.runs = [] ∧ s.cold.host = {} ∧ s.cold.fab = {} ∧
    s.cold.svc = {} ∧ s.cold.boot = {} ∧ s.cold.pwr.gatedDies = List.range 72 := by
  have h := s.cold_rest
  generalize s.cold = c at h ⊢
  exact ⟨congrArg State.arc h, congrArg State.queues h, congrArg State.runs h, congrArg State.host h, congrArg State.fab h,
    congrArg State.svc h, congrArg State.boot h, congrArg (fun u : State => u.pwr.gatedDies) h⟩

/-- Settles O57: each row of the power supply, and what stands when the panel is cold. -/
theorem powerSupply : Obligations.PowerSupply := by
  refine ⟨fun s hstandby => ?rise, fun s => ?fall, fun s href => ?loss, fun s => ?back⟩
  case rise =>
    have htrip : ∀ p : Power, ({ s with pwr := p } : State).tripped = s.tripped := fun _ => rfl
    refine ⟨fun hen => ⟨fun ht => ?_, fun ht hr => ?_, fun ht hr => ?_⟩, ?_⟩
    · exact exec_of rfl rfl (by simp [effPwrEnRise, hstandby, hen, htrip, ht])
    · exact exec_of rfl rfl (by simp [effPwrEnRise, hstandby, hen, htrip, ht, hr, State.powerUp])
    · exact exec_of rfl rfl (by simp [effPwrEnRise, hstandby, hen, htrip, ht, hr])
    · refine exec_of rfl rfl ?_
      rw [effInputEntersRange, hstandby]
      dsimp only [Bool.not_true, Bool.false_eq_true, if_false]
      by_cases hp : s.pwr.pending = true
      · simp [hp, State.powerUp]
      · simp [hp]
  case fall =>
    obtain ⟨harc, hqueues, hruns, hhost, hfab, hsvc, hboot, hgated⟩ := s.cold_empty
    refine ⟨exec_of rfl rfl rfl, exec_of rfl rfl rfl, exec_of rfl rfl rfl, harc, hqueues, hruns, hhost, hfab, hsvc, hboot, hgated,
      fun k hk => ?_, fun x h hx hh => s.reg_cold_half hx hh⟩
    rw [s.reg_cold_of_ne hk, State.reg_coldRegs]
  case loss =>
    refine ⟨exec_of rfl rfl (by simp [effRefclkLoss, href]), fun x hx hl => exec_of rfl (decide_eq_true hx) ?_⟩
    simp [effPllLockLoss, href, hl]
  case back =>
    refine ⟨exec_of rfl rfl rfl, fun hheld => exec_of rfl rfl ?_⟩
    rw [effRefclkLossTimeout, hheld]
    rfl

end Sys2Proof.Machine

/-!
PROOFS. The report of an incident (R436, R437) and the clock limits of a half (R425, R426), and the rows that use them: core clock steps
and Ledger frames (R431), tabs, envelope, thermal caps and trips (R418, R432-R434, R467).
-/

namespace Sys2Proof.Machine

/-! ### Reports (R436) -/

theorem State.sat_eq_withRegs (s : State) (k lo w n : Nat) : ∃ rs, s.sat k lo w n = { s with regs := rs } := ⟨_, rfl⟩

theorem State.setFld_eq_withRegs (s : State) (k lo w n : Nat) : ∃ rs, s.setFld k lo w n = { s with regs := rs } := ⟨_, rfl⟩

theorem State.setBit_eq_withRegs (s : State) (k lo : Nat) (b : Bool) : ∃ rs, s.setBit k lo b = { s with regs := rs } := ⟨_, rfl⟩

/-- A report changes the agent's registers, windows and messages alone. -/
theorem State.report_rest (s : State) (r : Report) :
    { s.report r with regs := s.regs, errs := s.errs, errWait := s.errWait, net := s.net } = s := by
  unfold State.report State.sendReport
  generalize ({ r with time := s.siteCycle r.reporter } : Report) = q
  dsimp only
  obtain ⟨rs, hrs⟩ := s.sat_eq_withRegs (errB q.reporter) 24 24 1
  obtain ⟨ts, hts⟩ := s.sat_eq_withRegs (errB q.reporter) 0 24 1
  obtain ⟨us, hus⟩ := s.sat_eq_withRegs (errB q.reporter) 48 16 1
  rw [hrs, hts, hus]
  split
  · rfl
  · split
    · rfl
    · split
      · rfl
      · rfl

theorem State.reg_with_errs (s : State) (e : List (Nat × Report × Nat)) (n : Net) (k : Nat) :
    ({ s with errs := e, net := n } : State).reg k = s.reg k := rfl

theorem State.reg_report_ne (s : State) (r : Report) {k : Nat} (h : k ≠ errB r.reporter) : (s.report r).reg k = s.reg k := by
  unfold State.report State.sendReport
  dsimp only
  split
  · exact (State.reg_with_errs _ _ _ k).trans (State.reg_sat_ne _ _ _ _ h)
  · split
    · exact (State.reg_with_errs _ _ _ k).trans (State.reg_sat_ne _ _ _ _ h)
    · split
      · exact State.reg_sat_ne _ _ _ _ h
      · rfl

/-! ### Clock limits (R425, R426) -/

theorem State.ceilStep_congr {s t : State} (h : t.reg fusPartId = s.reg fusPartId) : t.ceilStep = s.ceilStep := by
  unfold State.ceilStep State.fld
  rw [h]

theorem divStep_lt (d : Nat) : divStep d < 4 := by
  unfold divStep
  split <;> decide

theorem State.fld_lt (s : State) (k lo w : Nat) : s.fld k lo w < 2 ^ w := fldOf_lt ..

theorem State.effStep_lt (s : State) (x h : Nat) : s.effStep x h < 4 := by
  have h1 := s.fld_lt (ckgHalf x h) 0 2
  have h2 := s.fld_lt (ckgHalf x h) 2 2
  have h3 := s.fld_lt (ckgHalf x h) 4 2
  have h4 : s.ceilStep < 4 := divStep_lt _
  rw [State.effStep]
  omega

theorem fusPartId_ne_ckgHalf (x : Nat) {h : Nat} (hh : h < 2) : fusPartId ≠ ckgHalf x h := by
  unfold fusPartId fusB ckgHalf ckgB siteB
  omega

theorem fusPartId_ne_ckgStat (x : Nat) : fusPartId ≠ ckgStat x := by
  unfold fusPartId fusB ckgStat ckgB siteB
  omega

theorem ckgHalf_ne_ckgStat {x h y : Nat} (hh : h < 2) : ckgHalf x h ≠ ckgStat y := by
  unfold ckgHalf ckgStat ckgB siteB
  omega

/-- The step that `restep` leaves: a change in progress goes on; else the half steps to the slowest limit. -/
def State.nextStep (s : State) (x h : Nat) : Nat := if s.bit (ckgHalf x h) 8 = true then s.stepOf x h else s.effStep x h

section
variable (s : State) {x h : Nat}

theorem State.stepOf_setReg_of_ne {k : Nat} (v : W64) (hk : k ≠ fusPartId) : (s.setReg k v).stepOf x h = s.stepOf x h := by
  unfold State.stepOf
  rw [State.ceilStep_congr (s.reg_setReg_ne v hk.symm), State.setReg_pwr]

theorem State.bit_setFld_other {k lo w v b : Nat} (hb : b < 64) (h : b < lo ∨ lo + w ≤ b) : (s.setFld k lo w v).bit k b = s.bit k b := by
  unfold State.bit
  rw [s.fld_setFld_other k lo w v b 1 (by omega) (by omega)]

theorem State.reg_setStep (n k : Nat) : (s.setStep x h n).reg k = s.reg k := rfl

theorem State.fld_setStep (n k lo w : Nat) : (s.setStep x h n).fld k lo w = s.fld k lo w := rfl

theorem State.bit_setStep (n k b : Nat) : (s.setStep x h n).bit k b = s.bit k b := rfl

theorem State.stepOf_setStep (n : Nat) : (s.setStep x h n).stepOf x h = n := by
  have hc : (s.setStep x h n).ceilStep = s.ceilStep := State.ceilStep_congr rfl
  rw [State.stepOf, hc]
  exact tget_tset_same ..

variable (x h) in
/-- The half goes on: a change is in progress, or it runs at the slowest limit. -/
def State.halfStays : Prop := s.bit (ckgHalf x h) 8 = true ∨ s.stepOf x h = s.effStep x h

variable (hh : h < 2)
include hh

theorem State.restep_goes : ((s.setFld (ckgHalf x h) 6 2 (s.effStep x h)).bit (ckgHalf x h) 8 ||
    decide ((s.setFld (ckgHalf x h) 6 2 (s.effStep x h)).stepOf x h = s.effStep x h)) = true ↔ s.halfStays x h := by
  rw [s.bit_setFld_other (by omega) (by omega), State.setFld, s.stepOf_setReg_of_ne _ (fusPartId_ne_ckgHalf x hh).symm, Bool.or_eq_true,
    decide_eq_true_eq, State.halfStays]

theorem State.restep_of_stays (hs : s.halfStays x h) : s.restep x h = s.setFld (ckgHalf x h) 6 2 (s.effStep x h) :=
  if_pos ((s.restep_goes hh).2 hs)

theorem State.restep_of_changes (hs : ¬s.halfStays x h) :
    s.restep x h = ((s.setFld (ckgHalf x h) 6 2 (s.effStep x h)).setBit (ckgHalf x h) 8 true).setStep x h (s.effStep x h) :=
  if_neg fun e => hs ((s.restep_goes hh).1 e)

/-- A step change touches the register of the half and its step alone. -/
theorem State.restep_eq_withRegs : ∃ rs p, s.restep x h = { s with regs := rs, pwr := { s.pwr with steps := p } } := by
  by_cases hs : s.halfStays x h
  · rw [s.restep_of_stays hh hs]
    obtain ⟨rs, hrs⟩ := s.setFld_eq_withRegs (ckgHalf x h) 6 2 (s.effStep x h)
    exact ⟨rs, s.pwr.steps, hrs⟩
  · rw [s.restep_of_changes hh hs]
    obtain ⟨rs, hrs⟩ := s.setFld_eq_withRegs (ckgHalf x h) 6 2 (s.effStep x h)
    obtain ⟨ts, hts⟩ := (s.setFld (ckgHalf x h) 6 2 (s.effStep x h)).setBit_eq_withRegs (ckgHalf x h) 8 true
    rw [hts, hrs]
    exact ⟨ts, _, rfl⟩

theorem State.reg_restep_ne {k : Nat} (hk : k ≠ ckgHalf x h) : (s.restep x h).reg k = s.reg k := by
  by_cases hs : s.halfStays x h
  · rw [s.restep_of_stays hh hs, State.reg_setFld_ne _ _ _ _ hk]
  · rw [s.restep_of_changes hh hs, State.reg_setStep, State.setBit, State.reg_setFld_ne _ _ _ _ hk, State.reg_setFld_ne _ _ _ _ hk]

/-- The limits of a half stay. -/
theorem State.fld_restep_limit {lo w : Nat} (hlo : lo + w ≤ 6) : (s.restep x h).fld (ckgHalf x h) lo w = s.fld (ckgHalf x h) lo w := by
  by_cases hs : s.halfStays x h
  · rw [s.restep_of_stays hh hs, State.fld_setFld_other _ _ _ _ _ _ _ (by omega) (.inl hlo)]
  · rw [s.restep_of_changes hh hs, State.fld_setStep, State.setBit, State.fld_setFld_other _ _ _ _ _ _ _ (by omega) (by omega),
      State.fld_setFld_other _ _ _ _ _ _ _ (by omega) (.inl hlo)]

/-- EFF is the slowest limit. -/
theorem State.fld_restep_eff : (s.restep x h).fld (ckgHalf x h) 6 2 = s.effStep x h := by
  have hlt : s.effStep x h % 2 ^ 2 = s.effStep x h := Nat.mod_eq_of_lt (s.effStep_lt x h)
  by_cases hs : s.halfStays x h
  · rw [s.restep_of_stays hh hs, State.fld_setFld_same _ _ _ _ _ (by omega), hlt]
  · rw [s.restep_of_changes hh hs, State.fld_setStep, State.setBit, State.fld_setFld_other _ _ _ _ _ _ _ (by omega) (by omega),
      State.fld_setFld_same _ _ _ _ _ (by omega), hlt]

/-- CHANGING is set while a change is in progress, and where one begins. -/
theorem State.bit_restep : (s.restep x h).bit (ckgHalf x h) 8 = true ↔ s.bit (ckgHalf x h) 8 = true ∨ s.stepOf x h ≠ s.effStep x h := by
  by_cases hs : s.halfStays x h
  · rw [s.restep_of_stays hh hs, s.bit_setFld_other (by omega) (by omega)]
    exact ⟨.inl, fun e => e.elim id fun hne => hs.resolve_right hne⟩
  · have hbit : (s.restep x h).bit (ckgHalf x h) 8 = true := by
      rw [s.restep_of_changes hh hs, State.bit_setStep, State.bit_setBit_same _ _ _ _ (by omega)]
    exact iff_of_true hbit (.inr fun e => hs (.inr e))

theorem State.stepOf_restep : (s.restep x h).stepOf x h = s.nextStep x h := by
  unfold State.nextStep
  by_cases hs : s.halfStays x h
  · rw [s.restep_of_stays hh hs, State.setFld, s.stepOf_setReg_of_ne _ (fusPartId_ne_ckgHalf x hh).symm]
    by_cases hb : s.bit (ckgHalf x h) 8 = true
    · rw [if_pos hb]
    · rw [if_neg hb]
      exact hs.resolve_left hb
  · rw [s.restep_of_changes hh hs, State.stepOf_setStep, if_neg fun e => hs (.inl e)]

end

/-! ### Core clock steps (R425, R426) -/

/-- A count at a site's clock registers changes its own register alone. -/
theorem State.effStep_congr {s t : State} {x h : Nat} (hc : t.ceilStep = s.ceilStep) (hr : t.reg (ckgHalf x h) = s.reg (ckgHalf x h)) :
    t.effStep x h = s.effStep x h := by
  unfold State.effStep State.fld
  dsimp only
  rw [hc, hr]

theorem State.stepOf_congr {s t : State} {x h : Nat} (hc : t.ceilStep = s.ceilStep) (hp : t.pwr = s.pwr) : t.stepOf x h = s.stepOf x h := by
  unfold State.stepOf
  rw [hc, hp]

theorem State.ceilStep_sat_ckgStat (s : State) (x lo w n : Nat) : (s.sat (ckgStat x) lo w n).ceilStep = s.ceilStep :=
  State.ceilStep_congr (s.reg_sat_ne _ _ _ (fusPartId_ne_ckgStat x))

theorem State.ceilStep_setFld_ckgHalf (s : State) (x : Nat) {h : Nat} (hh : h < 2) (lo w n : Nat) :
    (s.setFld (ckgHalf x h) lo w n).ceilStep = s.ceilStep :=
  State.ceilStep_congr (s.reg_setFld_ne _ _ _ (fusPartId_ne_ckgHalf x hh))

theorem State.fld_sat_same (s : State) (k lo w n : Nat) (h : lo + w ≤ 64) :
    (s.sat k lo w n).fld k lo w = min (2 ^ w - 1) (s.fld k lo w + n) := by
  have hpos := Nat.two_pow_pos w
  rw [State.sat, State.fld_setFld_same _ _ _ _ _ h, Nat.mod_eq_of_lt (by omega)]

theorem State.fld_sat_ne (s : State) {k j : Nat} (lo w n lo' w' : Nat) (h : j ≠ k) : (s.sat k lo w n).fld j lo' w' = s.fld j lo' w' :=
  s.fld_setFld_ne _ _ _ _ _ h

/-- A write of REQ, and the count of one below the ceiling. -/
def State.reqWritten (s : State) (x h n : Nat) : State :=
  if n < s.ceilStep then (s.setFld (ckgHalf x h) 0 2 n).sat (ckgStat x) 0 16 1 else s.setFld (ckgHalf x h) 0 2 n

section
variable (s : State) {x h : Nat} (hh : h < 2) (n : Nat)

theorem State.reqWritten_eq_withRegs : ∃ rs, s.reqWritten x h n = { s with regs := rs } := by
  obtain ⟨rs, hrs⟩ := s.setFld_eq_withRegs (ckgHalf x h) 0 2 n
  obtain ⟨ts, hts⟩ := (s.setFld (ckgHalf x h) 0 2 n).sat_eq_withRegs (ckgStat x) 0 16 1
  rw [State.reqWritten, hts, hrs]
  split
  · exact ⟨ts, rfl⟩
  · exact ⟨rs, rfl⟩

theorem State.reg_reqWritten_ne {k : Nat} (h1 : k ≠ ckgHalf x h) (h2 : k ≠ ckgStat x) : (s.reqWritten x h n).reg k = s.reg k := by
  unfold State.reqWritten
  split
  · exact (State.reg_sat_ne _ _ _ _ h2).trans (State.reg_setFld_ne _ _ _ _ h1)
  · exact State.reg_setFld_ne _ _ _ _ h1

include hh

theorem effCkgHalfWrite_eq (v : W64) : effCkgHalfWrite x h v s = (s.reqWritten x h (fldOf v 0 2)).restep x h := by
  unfold effCkgHalfWrite State.reqWritten
  dsimp only
  rw [State.ceilStep_setFld_ckgHalf _ _ hh]

theorem State.ceilStep_reqWritten : (s.reqWritten x h n).ceilStep = s.ceilStep := by
  unfold State.reqWritten
  split
  · rw [State.ceilStep_sat_ckgStat, State.ceilStep_setFld_ckgHalf _ _ hh]
  · rw [State.ceilStep_setFld_ckgHalf _ _ hh]

theorem State.reg_reqWritten : (s.reqWritten x h n).reg (ckgHalf x h) = (s.setFld (ckgHalf x h) 0 2 n).reg (ckgHalf x h) := by
  unfold State.reqWritten
  split
  · exact State.reg_sat_ne _ _ _ _ (ckgHalf_ne_ckgStat hh)
  · rfl

theorem State.fld_reqWritten_stat : (s.reqWritten x h n).fld (ckgStat x) 0 16 =
    if n < s.ceilStep then min 0xFFFF (s.fld (ckgStat x) 0 16 + 1) else s.fld (ckgStat x) 0 16 := by
  have hne : ckgStat x ≠ ckgHalf x h := (ckgHalf_ne_ckgStat hh).symm
  unfold State.reqWritten
  split
  · rw [State.fld_sat_same _ _ _ _ _ (by omega), State.fld_setFld_ne _ _ _ _ _ _ hne] <;> rfl
  · rw [State.fld_setFld_ne _ _ _ _ _ _ hne]

end

theorem fldOf_zero_eq (v : W64) (w : Nat) : fldOf v 0 w = v.toNat % 2 ^ w := by
  simp [fldOf, nbits]

/-- The fields of a half after a write of REQ. -/
theorem State.reqWritten_fields (s : State) {x h n : Nat} (hh : h < 2) (hn : n < 4) :
    (s.reqWritten x h n).fld (ckgHalf x h) 0 2 = n ∧ (s.reqWritten x h n).fld (ckgHalf x h) 2 2 = s.fld (ckgHalf x h) 2 2 ∧
    (s.reqWritten x h n).fld (ckgHalf x h) 4 2 = s.fld (ckgHalf x h) 4 2 ∧ (s.reqWritten x h n).bit (ckgHalf x h) 8 = s.bit (ckgHalf x h) 8 := by
  have hreg : ∀ lo w, (s.reqWritten x h n).fld (ckgHalf x h) lo w = (s.setFld (ckgHalf x h) 0 2 n).fld (ckgHalf x h) lo w := fun lo w =>
    congrArg (fun v => fldOf v lo w) (s.reg_reqWritten hh n)
  rw [State.bit, State.bit, hreg, hreg, hreg, hreg, State.fld_setFld_same _ _ _ _ _ (by omega),
    State.fld_setFld_other _ _ _ _ _ _ _ (by omega) (by omega), State.fld_setFld_other _ _ _ _ _ _ _ (by omega) (by omega),
    State.fld_setFld_other _ _ _ _ _ _ _ (by omega) (by omega), Nat.mod_eq_of_lt (b := 2 ^ 2) hn]
  exact ⟨rfl, rfl, rfl, rfl⟩

/-- The change in progress ends and is counted. -/
def State.stepCounted (s : State) (x h : Nat) : State := (s.setBit (ckgHalf x h) 8 false).sat (ckgStat x) 48 16 1

section
variable (s : State) {x h : Nat}

theorem State.stepCounted_eq_withRegs : ∃ rs, s.stepCounted x h = { s with regs := rs } := by
  obtain ⟨rs, hrs⟩ := s.setBit_eq_withRegs (ckgHalf x h) 8 false
  obtain ⟨ts, hts⟩ := (s.setBit (ckgHalf x h) 8 false).sat_eq_withRegs (ckgStat x) 48 16 1
  rw [State.stepCounted, hts, hrs]
  exact ⟨ts, rfl⟩

theorem State.reg_stepCounted_ne {k : Nat} (h1 : k ≠ ckgHalf x h) (h2 : k ≠ ckgStat x) : (s.stepCounted x h).reg k = s.reg k :=
  (State.reg_sat_ne _ _ _ _ h2).trans (State.reg_setFld_ne _ _ _ _ h1)

variable (hh : h < 2)
include hh

theorem State.ceilStep_stepCounted : (s.stepCounted x h).ceilStep = s.ceilStep := by
  rw [State.stepCounted, State.ceilStep_sat_ckgStat, State.setBit, State.ceilStep_setFld_ckgHalf _ _ hh]

theorem State.stepCounted_fields : (∀ lo, lo + 2 ≤ 8 → (s.stepCounted x h).fld (ckgHalf x h) lo 2 = s.fld (ckgHalf x h) lo 2) ∧
    (s.stepCounted x h).bit (ckgHalf x h) 8 = false ∧
    (s.stepCounted x h).fld (ckgStat x) 48 16 = min 0xFFFF (s.fld (ckgStat x) 48 16 + 1) := by
  have hne := ckgHalf_ne_ckgStat (x := x) (y := x) hh
  refine ⟨fun lo hlo => ?_, ?_, ?_⟩
  · rw [State.stepCounted, State.fld_sat_ne _ _ _ _ _ _ hne, State.setBit, State.fld_setFld_other _ _ _ _ _ _ _ (by omega) (.inl hlo)]
  · rw [State.stepCounted, State.bit, State.fld_sat_ne _ _ _ _ _ _ hne]
    exact State.bit_setBit_same _ _ _ _ (by omega)
  · rw [State.stepCounted, State.fld_sat_same _ _ _ _ _ (by omega), State.setBit, State.fld_setFld_ne _ _ _ _ _ _ hne.symm] <;> rfl

end

/-- Settles O58: a step change follows the slowest limit, and a head deferred is judged again at the frame's end. -/
theorem clockSteps : Obligations.ClockSteps := by
  refine ⟨fun s x h hx hh => ⟨fun v => ?write, fun hb => ?done⟩, fun s x p hx hp hl => ?frame, fun s q => ⟨fun hq => ?none_, fun c hc => ?head⟩⟩
  case write =>
    have hok : (decide (x < Config.sites) && decide (h < 2)) = true := by simp [Config.sites, hx, hh]
    refine ⟨_, exec_of rfl hok (effCkgHalfWrite_eq s hh v), ?_⟩
    rw [fldOf_zero_eq, (rfl : 2 ^ 2 = 4)]
    have hn : v.toNat % 4 < 4 := Nat.mod_lt _ (by omega)
    generalize v.toNat % 4 = n at hn
    obtain ⟨hf0, hf2, hf4, hbit⟩ := s.reqWritten_fields (x := x) hh hn
    have hceil := s.ceilStep_reqWritten (x := x) hh n
    have hstat := s.fld_reqWritten_stat (x := x) hh n
    have hother := fun k (h1 : k ≠ ckgHalf x h) (h2 : k ≠ ckgStat x) => s.reg_reqWritten_ne n h1 h2
    obtain ⟨rs, hrs⟩ := s.reqWritten_eq_withRegs (x := x) (h := h) n
    have hstep : (s.reqWritten x h n).stepOf x h = s.stepOf x h := State.stepOf_congr hceil (by rw [hrs])
    obtain ⟨ts, p, hts⟩ := (s.reqWritten x h n).restep_eq_withRegs (x := x) hh
    have heff : (s.reqWritten x h n).effStep x h = max (max n s.ceilStep) (max (s.fld (ckgHalf x h) 2 2) (s.fld (ckgHalf x h) 4 2)) := by
      rw [State.effStep, hf0, hf2, hf4, hceil]
    generalize hu : s.reqWritten x h n = u at *
    refine ⟨(u.fld_restep_limit hh (by omega)).trans hf0, (u.fld_restep_eff hh).trans heff, (u.fld_restep_limit hh (by omega)).trans hf2,
      (u.fld_restep_limit hh (by omega)).trans hf4, ?_, fun hb => ?_, fun hb => ?_, fun j h1 h2 => ?_, ?_, ?_, ?_⟩
    · rw [State.fld, u.reg_restep_ne hh (ckgHalf_ne_ckgStat hh).symm]
      exact hstat
    · rw [hb] at hbit
      refine ⟨(u.bit_restep hh).2 (.inl hbit), ?_⟩
      rw [u.stepOf_restep hh, State.nextStep, if_pos hbit, hstep]
    · rw [hb] at hbit
      have hno : ¬u.bit (ckgHalf x h) 8 = true := by rw [hbit]; exact Bool.false_ne_true
      rw [u.stepOf_restep hh, State.nextStep, if_neg hno, u.bit_restep hh, hstep, heff]
      exact ⟨rfl, or_iff_right hno⟩
    · rw [u.reg_restep_ne hh h1, hother j h1 h2]
    all_goals rw [hts, hrs]
  case done =>
    have hok : (decide (x < Config.sites) && decide (h < 2)) = true := by simp [Config.sites, hx, hh]
    have heq : effStepChangeDone x h s = (s.stepCounted x h).restep x h := by
      unfold effStepChangeDone
      dsimp only
      exact if_neg (by rw [hb]; exact Bool.false_ne_true)
    refine ⟨_, exec_of rfl hok heq, ?_⟩
    obtain ⟨hlim, hbit, hstat⟩ := s.stepCounted_fields (x := x) hh
    have hceil := s.ceilStep_stepCounted (x := x) hh
    have hother := fun k (h1 : k ≠ ckgHalf x h) (h2 : k ≠ ckgStat x) => s.reg_stepCounted_ne h1 h2
    obtain ⟨rs, hrs⟩ := s.stepCounted_eq_withRegs (x := x) (h := h)
    have hstep : (s.stepCounted x h).stepOf x h = s.stepOf x h := State.stepOf_congr hceil (by rw [hrs])
    obtain ⟨ts, p, hts⟩ := (s.stepCounted x h).restep_eq_withRegs (x := x) hh
    have heff : (s.stepCounted x h).effStep x h =
        max (max (s.fld (ckgHalf x h) 0 2) s.ceilStep) (max (s.fld (ckgHalf x h) 2 2) (s.fld (ckgHalf x h) 4 2)) := by
      rw [State.effStep, hlim 0 (by omega), hlim 2 (by omega), hlim 4 (by omega), hceil]
    generalize s.stepCounted x h = u at *
    have hno : ¬u.bit (ckgHalf x h) 8 = true := by rw [hbit]; exact Bool.false_ne_true
    refine ⟨?_, ?_, ?_, fun j h1 h2 => ?_, ?_, ?_, ?_⟩
    · rw [State.fld, u.reg_restep_ne hh (ckgHalf_ne_ckgStat hh).symm]
      exact hstat
    · rw [u.stepOf_restep hh, State.nextStep, if_neg hno, heff]
    · rw [u.bit_restep hh, hstep, heff]
      exact or_iff_right hno
    · rw [u.reg_restep_ne hh h1, hother j h1 h2]
    all_goals rw [hts, hrs]
  case frame =>
    have hok : (decide (x < Config.sites) && decide (p < Config.partitions)) = true := by simp [Config.sites, Config.partitions, hx, hp]
    refine exec_of rfl hok ?_
    unfold effLedgerFrameBoundary
    dsimp only
    exact if_neg (by rw [hl]; exact Bool.false_ne_true)
  case none_ => rw [State.rejudge, hq]
  case head =>
    rw [State.rejudge, hc]
    dsimp only
    refine ⟨fun hd => if_neg (Bool.eq_false_iff.1 hd), fun hd => ⟨fun ha => ?_, fun ha => ?_⟩⟩
    · rw [if_pos hd, if_neg (by rw [Option.isNone_eq_false_iff.2 ha]; exact Bool.false_ne_true)]
    · rw [if_pos hd, if_pos (by rw [ha]; rfl)]

end Sys2Proof.Machine

/-!
PROOFS. Tabs, envelope, thermal caps and trips (17_power_and_clocks R418, R432-R434; 19_flask R467).
-/

namespace Sys2Proof.Machine

/-! ### Tabs (R418) -/

theorem sum_map_double {α : Type} (f : α → Nat) (l : List α) : (l.map fun e => 2 * f e).sum = 2 * (l.map f).sum := by
  induction l with
  | nil => rfl
  | cons a l ih => rw [List.map_cons, List.sum_cons, ih, List.map_cons, List.sum_cons, Nat.mul_add]

/-- The mask of a list's elements that pass a test, from a place up. -/
theorem testBit_maskSum {α : Type} (p : α → Bool) (l : List α) (i : Nat) :
    ((l.zipIdx.map fun e : α × Nat => if p e.1 = true then 2 ^ e.2 else 0).sum).testBit i = (l[i]?.any p) := by
  induction l generalizing i with
  | nil => simp
  | cons a l ih =>
    have hrest : (((l.zipIdx 1).map fun e : α × Nat => if p e.1 = true then 2 ^ e.2 else 0).sum) =
        2 * ((l.zipIdx.map fun e : α × Nat => if p e.1 = true then 2 ^ e.2 else 0).sum) := by
      rw [← sum_map_double, List.zipIdx_succ, List.map_map]
      refine congrArg List.sum (List.map_congr_left fun e _ => ?_)
      simp only [Function.comp_apply, Nat.pow_succ]
      split <;> omega
    rw [List.zipIdx_cons, List.map_cons, List.sum_cons, Nat.zero_add, hrest]
    cases i with
    | zero => by_cases h : p a = true <;> simp [h, Nat.testBit_zero, Nat.add_mod]
    | succ i =>
      rw [Nat.testBit_succ, List.getElem?_cons_succ, ← ih]
      congr 1
      dsimp only
      split <;> omega

/-- The tabs in service: those within a fifth of the mean. -/
theorem tabMask_getLsbD (cs : List Nat) {i : Nat} (hi : i < 12) (hc : cs.length = 12) :
    (BitVec.ofNat 12 (tabMask cs)).getLsbD i = true ↔ 5 * natDist (12 * cs.getD i 0) cs.sum ≤ cs.sum := by
  rw [BitVec.getLsbD_ofNat, tabMask, testBit_maskSum (inService cs.sum), List.getElem?_eq_getElem (by omega), List.getD_eq_getElem?_getD,
    List.getElem?_eq_getElem (by omega)]
  simp [hi, inService]

/-! ### Energy (R427) -/

theorem State.siteOwner_lt {s : State} {x p : Nat} (h : s.siteOwner x = some p) : p < 16 := List.mem_range.1 (List.mem_of_find?_eq_some h)

/-- From `s` to `t` registers of `P` alone change, and the free values move on. -/
structure OnlyRegs (P : Nat → Prop) (s t : State) : Prop where
  rest : { t with regs := s.regs, free := s.free } = s
  regs : ∀ k, ¬P k → t.reg k = s.reg k

section
variable {P : Nat → Prop} {s t u : State}

theorem OnlyRegs.refl (s : State) : OnlyRegs P s s := ⟨rfl, fun _ _ => rfl⟩

theorem OnlyRegs.trans (h : OnlyRegs P s t) (h' : OnlyRegs P t u) : OnlyRegs P s u where
  rest := (congrArg (fun v : State => { v with regs := s.regs, free := s.free }) h'.rest).trans h.rest
  regs k hk := (h'.regs k hk).trans (h.regs k hk)

theorem OnlyRegs.setReg (h : OnlyRegs P s t) {k : Nat} (hk : P k) (v : W64) : OnlyRegs P s (t.setReg k v) :=
  h.trans ⟨rfl, fun _ hj => t.reg_setReg_ne v fun e => hj (e ▸ hk)⟩

theorem OnlyRegs.setFld (h : OnlyRegs P s t) {k : Nat} (hk : P k) (lo w v : Nat) : OnlyRegs P s (t.setFld k lo w v) := h.setReg hk _

theorem OnlyRegs.sat (h : OnlyRegs P s t) {k : Nat} (hk : P k) (lo w n : Nat) : OnlyRegs P s (t.sat k lo w n) := h.setReg hk _

theorem OnlyRegs.withFree (h : OnlyRegs P s t) (n : Nat) : OnlyRegs P s { t with free := n } := h.trans ⟨rfl, fun _ _ => rfl⟩

theorem OnlyRegs.mono {Q : Nat → Prop} (h : OnlyRegs P s t) (hPQ : ∀ k, P k → Q k) : OnlyRegs Q s t :=
  ⟨h.rest, fun k hk => h.regs k fun e => hk (hPQ k e)⟩

theorem OnlyRegs.foldl {α : Type} {F : State → α → State} {l : List α} (h : ∀ s, ∀ a ∈ l, OnlyRegs P s (F s a)) (s : State) :
    OnlyRegs P s (l.foldl F s) :=
  List.foldlRecOn (motive := fun t => OnlyRegs P s t) l F (.refl s) fun t ht a ha => ht.trans (h t a ha)

theorem OnlyRegs.pwr (h : OnlyRegs P s t) : t.pwr = s.pwr := (congrArg State.pwr h.rest :)
theorem OnlyRegs.arc (h : OnlyRegs P s t) : t.arc = s.arc := (congrArg State.arc h.rest :)
theorem OnlyRegs.queues (h : OnlyRegs P s t) : t.queues = s.queues := (congrArg State.queues h.rest :)
theorem OnlyRegs.runs (h : OnlyRegs P s t) : t.runs = s.runs := (congrArg State.runs h.rest :)

end

theorem State.freeNum_onlyRegs {P : Nat → Prop} (s : State) : OnlyRegs P s s.freeNum.1 := ⟨rfl, fun _ _ => rfl⟩

/-- The energy counters of a site: its own, and one of each partition. -/
def energyReg (x k : Nat) : Prop := ldgB x ≤ k ∧ k < ldgB x + 0x180

theorem State.energyPart_lt {s t : State} {x p : Nat}
    (h : (if x = t.riserSite (siteRow x) then (s.coresAt x).head?.bind fun c => s.corePart c else s.siteOwner x) = some p) : p < 16 := by
  split at h
  · obtain ⟨c, -, hc⟩ := Option.bind_eq_some_iff.1 h
    exact State.siteOwner_lt hc
  · exact State.siteOwner_lt h

theorem State.siteEnergy_onlyRegs (s : State) (x : Nat) : OnlyRegs (energyReg x) s (s.siteEnergy x) := by
  unfold State.siteEnergy
  extract_lets a b u k v give w cp
  have hgive : ∀ (t : State) (p : Option Nat) (n : Nat), (∀ q, p = some q → q < 16) → OnlyRegs (energyReg x) s t →
      OnlyRegs (energyReg x) s (give t p n) := by
    intro t p n hp ht
    cases p with
    | none => exact ht
    | some q =>
      have hq := hp q rfl
      exact ht.setReg ⟨by omega, by omega⟩ _
  have hv : OnlyRegs (energyReg x) s v :=
    OnlyRegs.setReg (s.freeNum_onlyRegs.trans a.1.freeNum_onlyRegs) ⟨Nat.le_refl _, by omega⟩ _
  have hw : OnlyRegs (energyReg x) s w := hgive v (v.siteOwner x) a.2 (fun q hq => State.siteOwner_lt hq) hv
  exact hgive w cp b.2 (fun q hq => State.energyPart_lt hq) hw

/-! ### The envelope cap (R432) -/

/-- The envelope cap of one half. -/
def State.capHalf (n : Nat) (s : State) (e : Nat × Nat) : State := (s.setFld (ckgHalf e.1 e.2) 4 2 n).restep e.1 e.2

theorem State.setEnvCap_eq (s : State) (n : Nat) :
    s.setEnvCap n = allHalves.foldl (State.capHalf n) { s with pwr := { s.pwr with envCap := n } } := by
  unfold State.setEnvCap State.capHalf
  rfl

theorem State.capHalf_eq_withRegs (n : Nat) (s : State) {e : Nat × Nat} (he : e ∈ allHalves) :
    ∃ rs p, State.capHalf n s e = { s with regs := rs, pwr := { s.pwr with steps := p } } := by
  obtain ⟨rs, hrs⟩ := s.setFld_eq_withRegs (ckgHalf e.1 e.2) 4 2 n
  obtain ⟨ts, p, hts⟩ := (s.setFld (ckgHalf e.1 e.2) 4 2 n).restep_eq_withRegs (x := e.1) (mem_allHalves.1 he).2
  rw [State.capHalf, hts, hrs]
  exact ⟨ts, p, rfl⟩

theorem State.reg_capHalf_ne (n : Nat) (s : State) {e : Nat × Nat} (he : e ∈ allHalves) {k : Nat} (hk : k ≠ ckgHalf e.1 e.2) :
    (State.capHalf n s e).reg k = s.reg k := by
  rw [State.capHalf, State.reg_restep_ne _ (mem_allHalves.1 he).2 hk, State.reg_setFld_ne _ _ _ _ hk]

theorem State.fld_capHalf (n : Nat) (s : State) (x : Nat) {h : Nat} (hh : h < 2) : (State.capHalf n s (x, h)).fld (ckgHalf x h) 4 2 = n % 4 := by
  rw [State.capHalf, State.fld_restep_limit _ hh (by omega), State.fld_setFld_same _ _ _ _ _ (by omega)] <;> rfl

section
variable (s : State) (n : Nat)

theorem State.setEnvCap_eq_withRegs : ∃ rs p, s.setEnvCap n = { s with regs := rs, pwr := { s.pwr with envCap := n, steps := p } } := by
  rw [State.setEnvCap_eq]
  refine List.foldlRecOn (motive := fun t : State => ∃ rs p, t = { s with regs := rs, pwr := { s.pwr with envCap := n, steps := p } }) _ _
    ⟨s.regs, s.pwr.steps, rfl⟩ fun t ht e he => ?_
  obtain ⟨rs, p, rfl⟩ := ht
  obtain ⟨ts, q, hq⟩ := State.capHalf_eq_withRegs n { s with regs := rs, pwr := { s.pwr with envCap := n, steps := p } } he
  exact ⟨ts, q, hq⟩

theorem State.reg_setEnvCap_ne {k : Nat} (hk : ∀ x h, x < 72 → h < 2 → k ≠ ckgHalf x h) : (s.setEnvCap n).reg k = s.reg k := by
  rw [State.setEnvCap_eq]
  exact foldl_leaves_of_mem (f := fun s : State => s.reg k) (F := State.capHalf n) (fun b a ha =>
    State.reg_capHalf_ne _ _ ha (hk a.1 a.2 (mem_allHalves.1 ha).1 (mem_allHalves.1 ha).2)) _

theorem State.fld_setEnvCap {x h : Nat} (hx : x < 72) (hh : h < 2) : (s.setEnvCap n).fld (ckgHalf x h) 4 2 = n % 4 := by
  have hmem : (x, h) ∈ allHalves := mem_allHalves.2 ⟨hx, hh⟩
  rw [State.setEnvCap_eq]
  exact foldl_changes_once (f := fun s : State => s.fld (ckgHalf x h) 4 2) (F := State.capHalf n) (g := fun _ => n % 4)
    nodup_allHalves hmem (fun b => State.fld_capHalf _ b x hh)
    (fun b a ha hne => congrArg (fun v => fldOf v 4 2) (State.reg_capHalf_ne _ b ha fun e => hne (ckgHalf_inj hmem ha e).symm)) _

end

/-- The stalled steps of every site are counted. -/
def State.countStalls (s : State) : State := (List.range 72).foldl (fun s x => s.sat (ckgStat x) 32 16 2) s

/-- The cap rises: every half takes it, the steps are counted, and the first is reported. -/
def State.raiseCap (s : State) (cap : Nat) : State :=
  if cap = 0 then (s.setEnvCap (cap + 1)).countStalls.powerIncident 2 else (s.setEnvCap (cap + 1)).countStalls

theorem State.countStalls_onlyRegs (s : State) : OnlyRegs (fun k => ∃ x, k = ckgStat x) s s.countStalls :=
  OnlyRegs.foldl (fun s x _ => (OnlyRegs.refl s).sat ⟨x, rfl⟩ _ _ _) s

theorem State.powerIncident_rest (s : State) (n : Nat) :
    { s.powerIncident n with regs := s.regs, errs := s.errs, errWait := s.errWait, net := s.net } = s := s.report_rest _

theorem State.reg_powerIncident_ne (s : State) (n : Nat) {k : Nat} (h : k ≠ errB 0) : (s.powerIncident n).reg k = s.reg k := s.reg_report_ne _ h

/-- What a state keeps when its cap changes. -/
structure CapMoved (s t : State) (n : Nat) : Prop where
  arc : t.arc = s.arc
  queues : t.queues = s.queues
  runs : t.runs = s.runs
  cap : t.pwr.envCap = n
  low : t.pwr.envLow = s.pwr.envLow
  regs : ∀ k, (∀ x h, x < 72 → h < 2 → k ≠ ckgHalf x h) → (∀ x, k ≠ ckgStat x) → k ≠ errB 0 → t.reg k = s.reg k
  halves : ∀ x h, x < 72 → h < 2 → t.fld (ckgHalf x h) 4 2 = n % 4

theorem State.setEnvCap_moved (s : State) (n : Nat) : CapMoved s (s.setEnvCap n) n := by
  obtain ⟨rs, p, h⟩ := s.setEnvCap_eq_withRegs n
  refine ⟨?_, ?_, ?_, ?_, ?_, fun k hk _ _ => s.reg_setEnvCap_ne n hk, fun x h hx hh => s.fld_setEnvCap n hx hh⟩
  all_goals rw [h]

theorem ckgHalf_ne_errB {x h : Nat} (hh : h < 2) : ckgHalf x h ≠ errB 0 := by
  unfold ckgHalf ckgB errB siteB
  omega

theorem State.raiseCap_moved (s : State) (cap : Nat) : CapMoved s (s.raiseCap cap) (cap + 1) := by
  have hu := s.setEnvCap_moved (cap + 1)
  have hv := (s.setEnvCap (cap + 1)).countStalls_onlyRegs
  rw [State.raiseCap]
  generalize s.setEnvCap (cap + 1) = u at *
  generalize u.countStalls = v at *
  have hw : CapMoved s v (cap + 1) := by
    refine ⟨?_, ?_, ?_, ?_, ?_, fun k h1 h2 h3 => (hv.regs k fun ⟨x, e⟩ => h2 x e).trans (hu.regs k h1 h2 h3), fun x h hx hh =>
      (congrArg (fun v => fldOf v 4 2) (hv.regs _ fun ⟨y, e⟩ => ckgHalf_ne_ckgStat hh e)).trans (hu.halves x h hx hh)⟩
    · rw [hv.arc, hu.arc]
    · rw [hv.queues, hu.queues]
    · rw [hv.runs, hu.runs]
    · rw [hv.pwr, hu.cap]
    · rw [hv.pwr, hu.low]
  split
  · have hrep := v.powerIncident_rest 2
    refine ⟨?_, ?_, ?_, ?_, ?_, fun k h1 h2 h3 => (v.reg_powerIncident_ne 2 h3).trans (hw.regs k h1 h2 h3), fun x h hx hh =>
      (congrArg (fun v => fldOf v 4 2) (v.reg_powerIncident_ne 2 (ckgHalf_ne_errB hh))).trans (hw.halves x h hx hh)⟩
    · exact (congrArg State.arc hrep).trans hw.arc
    · exact (congrArg State.queues hrep).trans hw.queues
    · exact (congrArg State.runs hrep).trans hw.runs
    · exact (congrArg (fun u : State => u.pwr.envCap) hrep).trans hw.cap
    · exact (congrArg (fun u : State => u.pwr.envLow) hrep).trans hw.low
  · exact hw

/-! ### The envelope tick (R432) -/

/-- A tick's reading of the input: the monitors, the panel registers, and the energy of every site. -/
def State.metered (s : State) (watts : Nat) : State :=
  let a := s.freeNum
  let b := a.1.freeNum
  let c := b.1.freeNum
  let s := ((c.1.setReg (mgmtB 8) (BitVec.ofNat 64 (a.2 % 2 ^ 16))).setReg (mgmtB 6) (BitVec.ofNat 64 (b.2 % 2 ^ 8))).setReg
    (mgmtB 7) (BitVec.ofNat 64 (c.2 % 2 ^ 8))
  let s := (s.setFld pwrPanelIn 0 16 a.2).setFld pwrPanelIn 32 16 (min (watts / 10) 0xFFFF)
  let s := s.setReg pwrPanelUj (s.reg pwrPanelUj + BitVec.ofNat 64 (watts * 1000))
  (List.range 72).foldl (fun s x => s.siteEnergy x) s

theorem effEnvelopeTick_eq {s : State} (watts : Nat) (hs : s.pwr.standby = true) (hp : s.pwr.pwrGood = true) {u : State}
    (hu : s.metered watts = u) : effEnvelopeTick watts s =
      if u.envelope12 < 12 * watts then
        if 3 ≤ u.pwr.envCap then { u with pwr := { u.pwr with envLow := 0 } }
        else ({ u with pwr := { u.pwr with envLow := 0 } } : State).raiseCap u.pwr.envCap
      else if 12 * watts * 100 < 95 * u.envelope12 then
        if u.pwr.envLow + 1 < 10 then { u with pwr := { u.pwr with envLow := u.pwr.envLow + 1 } }
        else if u.pwr.envCap = 0 then { u with pwr := { u.pwr with envLow := 0 } }
        else ({ u with pwr := { u.pwr with envLow := 0 } } : State).setEnvCap (u.pwr.envCap - 1)
      else { u with pwr := { u.pwr with envLow := 0 } } := by
  unfold effEnvelopeTick
  rw [if_neg (by rw [hs]; exact Bool.false_ne_true)]
  extract_lets a b c v v1 v2 v3
  rw [if_neg (show ¬(!v.pwr.pwrGood) = true from (by rw [hp]; exact Bool.false_ne_true : ¬(!s.pwr.pwrGood) = true))]
  have h3 : v3 = u := hu
  clear_value v3
  subst h3
  unfold State.raiseCap State.countStalls
  rfl

/-- The registers of the monitors, of the panel input, and the energy counters of the sites. -/
def meterReg (k : Nat) : Prop :=
  k = mgmtB 6 ∨ k = mgmtB 7 ∨ k = mgmtB 8 ∨ k = pwrPanelIn ∨ k = pwrPanelUj ∨ ∃ x, x < 72 ∧ energyReg x k

theorem State.siteEnergies_onlyRegs (s : State) :
    OnlyRegs (fun k => ∃ x, x < 72 ∧ energyReg x k) s ((List.range 72).foldl (fun s x => s.siteEnergy x) s) :=
  OnlyRegs.foldl (fun s x hx => (s.siteEnergy_onlyRegs x).mono fun _ hk => ⟨x, List.mem_range.1 hx, hk⟩) s

theorem pwrPanelIn_not_energy : ¬∃ x, x < 72 ∧ energyReg x pwrPanelIn := by
  rintro ⟨x, hx, h1, h2⟩
  unfold pwrPanelIn pwrB ldgB siteB at h1
  omega

theorem pwrPanelUj_not_energy : ¬∃ x, x < 72 ∧ energyReg x pwrPanelUj := by
  rintro ⟨x, hx, h1, h2⟩
  unfold pwrPanelUj pwrB ldgB siteB at h1
  omega

theorem fusPartId_not_meter : ¬meterReg fusPartId := by
  unfold meterReg energyReg fusPartId fusB mgmtB pwrPanelIn pwrPanelUj pwrB ldgB siteB
  rintro (h | h | h | h | h | ⟨x, hx, h1, h2⟩) <;> omega

/-- The monitors' registers after a reading. -/
theorem State.monitors_onlyRegs (s : State) (x y z : W64) : OnlyRegs meterReg s (((s.setReg (mgmtB 8) x).setReg (mgmtB 6) y).setReg (mgmtB 7) z) :=
  (((OnlyRegs.refl s).setReg (.inr (.inr (.inl rfl))) _).setReg (.inl rfl) _).setReg (.inr (.inl rfl)) _

theorem State.metered_spec (s : State) (watts : Nat) : OnlyRegs meterReg s (s.metered watts) ∧
    (s.metered watts).fld pwrPanelIn 32 16 = min (watts / 10) 0xFFFF ∧
    (s.metered watts).reg pwrPanelUj = s.reg pwrPanelUj + BitVec.ofNat 64 (watts * 1000) := by
  have hne : pwrPanelIn ≠ pwrPanelUj := by unfold pwrPanelIn pwrPanelUj; omega
  have hmon : pwrPanelUj ≠ mgmtB 8 ∧ pwrPanelUj ≠ mgmtB 6 ∧ pwrPanelUj ≠ mgmtB 7 := by
    unfold pwrPanelUj pwrB siteB mgmtB
    omega
  unfold State.metered
  extract_lets a b c v v1 v2
  have hfree : OnlyRegs meterReg s c.1 := (s.freeNum_onlyRegs.trans a.1.freeNum_onlyRegs).trans b.1.freeNum_onlyRegs
  have hv : OnlyRegs meterReg s v := hfree.trans (c.1.monitors_onlyRegs ..)
  have hvuj : v.reg pwrPanelUj = s.reg pwrPanelUj :=
    (State.reg_setReg_ne _ _ hmon.2.2).trans ((State.reg_setReg_ne _ _ hmon.2.1).trans ((State.reg_setReg_ne _ _ hmon.1).trans rfl))
  clear_value v
  have hv1 : OnlyRegs meterReg s v1 := (hv.setFld (.inr (.inr (.inr (.inl rfl)))) _ _ _).setFld (.inr (.inr (.inr (.inl rfl)))) _ _ _
  have hv1in : v1.fld pwrPanelIn 32 16 = min (watts / 10) 0xFFFF := by
    refine (State.fld_setFld_same _ _ _ _ _ (by omega)).trans (Nat.mod_eq_of_lt ?_)
    omega
  have hv1uj : v1.reg pwrPanelUj = s.reg pwrPanelUj :=
    ((State.reg_setFld_ne _ _ _ _ hne.symm).trans (State.reg_setFld_ne _ _ _ _ hne.symm)).trans hvuj
  clear_value v1
  have hv2 : OnlyRegs meterReg s v2 := hv1.setReg (.inr (.inr (.inr (.inr (.inl rfl))))) _
  have hv2in : v2.fld pwrPanelIn 32 16 = min (watts / 10) 0xFFFF := (State.fld_setReg_ne _ _ _ _ hne).trans hv1in
  have hv2uj : v2.reg pwrPanelUj = s.reg pwrPanelUj + BitVec.ofNat 64 (watts * 1000) :=
    (State.reg_setReg_same ..).trans (by rw [hv1uj])
  clear_value v2
  have hsites := v2.siteEnergies_onlyRegs
  exact ⟨hv2.trans (hsites.mono fun k hk => .inr (.inr (.inr (.inr (.inr hk))))),
    (congrArg (fun v => fldOf v 32 16) (hsites.regs _ pwrPanelIn_not_energy)).trans hv2in,
    (hsites.regs _ pwrPanelUj_not_energy).trans hv2uj⟩

theorem State.envelope12_of_onlyRegs {s t : State} (h : OnlyRegs meterReg s t) : t.envelope12 = s.envelope12 := by
  have hreg := h.regs _ fusPartId_not_meter
  unfold State.envelope12 State.envelopeKw State.fld
  rw [hreg, h.pwr]

theorem pwrPanelIn_not_moved : (∀ x h, x < 72 → h < 2 → pwrPanelIn ≠ ckgHalf x h) ∧ (∀ x, pwrPanelIn ≠ ckgStat x) ∧ pwrPanelIn ≠ errB 0 := by
  unfold pwrPanelIn pwrB ckgHalf ckgStat ckgB errB siteB
  exact ⟨fun x h _ _ => by omega, fun x => by omega, by omega⟩

theorem pwrPanelUj_not_moved : (∀ x h, x < 72 → h < 2 → pwrPanelUj ≠ ckgHalf x h) ∧ (∀ x, pwrPanelUj ≠ ckgStat x) ∧ pwrPanelUj ≠ errB 0 := by
  unfold pwrPanelUj pwrB ckgHalf ckgStat ckgB errB siteB
  exact ⟨fun x h _ _ => by omega, fun x => by omega, by omega⟩

theorem CapMoved.fld_panelIn {s t : State} {n : Nat} (h : CapMoved s t n) (lo w : Nat) : t.fld pwrPanelIn lo w = s.fld pwrPanelIn lo w := by
  obtain ⟨h1, h2, h3⟩ := pwrPanelIn_not_moved
  rw [State.fld, h.regs _ h1 h2 h3, State.fld]

theorem CapMoved.reg_panelUj {s t : State} {n : Nat} (h : CapMoved s t n) : t.reg pwrPanelUj = s.reg pwrPanelUj := by
  obtain ⟨h1, h2, h3⟩ := pwrPanelUj_not_moved
  exact h.regs _ h1 h2 h3

/-- One tick of the envelope: the readings, and the cap. -/
theorem envelopeTick_spec {s : State} (watts : Nat) (hs : s.pwr.standby = true) (hp : s.pwr.pwrGood = true) :
    ∃ t : State, exec (.envelopeTick watts) s = .next t ∧
       let above := s.envelope12 < 12 * watts
       let under := 1200 * watts < 95 * s.envelope12
       t.fld pwrPanelIn 32 16 = min (watts / 10) 0xFFFF ∧ t.reg pwrPanelUj = s.reg pwrPanelUj + BitVec.ofNat 64 (watts * 1000) ∧
       (above → t.pwr.envCap = (if 3 ≤ s.pwr.envCap then s.pwr.envCap else s.pwr.envCap + 1) ∧ t.pwr.envLow = 0) ∧
       (¬above → ¬under → t.pwr.envCap = s.pwr.envCap ∧ t.pwr.envLow = 0) ∧
       (¬above → under → s.pwr.envLow + 1 < 10 → t.pwr.envCap = s.pwr.envCap ∧ t.pwr.envLow = s.pwr.envLow + 1) ∧
       (¬above → under → 10 ≤ s.pwr.envLow + 1 → t.pwr.envCap = s.pwr.envCap - 1 ∧ t.pwr.envLow = 0) ∧
       (t.pwr.envCap ≠ s.pwr.envCap → ∀ x h, x < 72 → h < 2 → t.fld (ckgHalf x h) 4 2 = t.pwr.envCap % 4) ∧
       t.arc = s.arc ∧ t.queues = s.queues ∧ t.runs = s.runs := by
  obtain ⟨hu, hin, huj⟩ := s.metered_spec watts
  have heq := effEnvelopeTick_eq watts hs hp (rfl : s.metered watts = _)
  have henv := State.envelope12_of_onlyRegs hu
  have hpwr := hu.pwr
  have harc := hu.arc
  have hqueues := hu.queues
  have hruns := hu.runs
  generalize s.metered watts = u at *
  rw [henv, hpwr] at heq
  rw [show 12 * watts * 100 = 1200 * watts from by omega] at heq
  refine ⟨_, exec_of rfl rfl heq, ?_⟩
  dsimp only
  have hlow : ∀ n, ({ u with pwr := { s.pwr with envLow := n } } : State).pwr.envCap = s.pwr.envCap := fun _ => rfl
  by_cases above : s.envelope12 < 12 * watts
  · rw [if_pos above]
    by_cases h3 : 3 ≤ s.pwr.envCap
    · rw [if_pos h3]
      exact ⟨hin, huj, fun _ => ⟨(if_pos h3).symm, rfl⟩, fun h => absurd above h, fun h => absurd above h, fun h => absurd above h,
        fun h => absurd rfl h, harc, hqueues, hruns⟩
    · rw [if_neg h3]
      have hm := State.raiseCap_moved { u with pwr := { s.pwr with envLow := 0 } } s.pwr.envCap
      exact ⟨(hm.fld_panelIn _ _).trans hin, hm.reg_panelUj.trans huj, fun _ => ⟨hm.cap.trans (if_neg h3).symm, hm.low⟩,
        fun h => absurd above h, fun h => absurd above h, fun h => absurd above h,
        fun _ x h hx hh => (hm.halves x h hx hh).trans (congrArg (· % 4) hm.cap.symm), hm.arc.trans harc, hm.queues.trans hqueues,
        hm.runs.trans hruns⟩
  · rw [if_neg above]
    by_cases under : 1200 * watts < 95 * s.envelope12
    · rw [if_pos under]
      by_cases h10 : s.pwr.envLow + 1 < 10
      · rw [if_pos h10]
        exact ⟨hin, huj, fun h => absurd h above, fun _ h => absurd under h, fun _ _ _ => ⟨rfl, rfl⟩, fun _ _ h => absurd h (by omega),
          fun h => absurd rfl h, harc, hqueues, hruns⟩
      · rw [if_neg h10]
        by_cases h0 : s.pwr.envCap = 0
        · rw [if_pos h0]
          exact ⟨hin, huj, fun h => absurd h above, fun _ h => absurd under h, fun _ _ h => absurd h h10,
            fun _ _ _ => ⟨by rw [hlow]; omega, rfl⟩, fun h => absurd rfl h, harc, hqueues, hruns⟩
        · rw [if_neg h0]
          have hm := State.setEnvCap_moved { u with pwr := { s.pwr with envLow := 0 } } (s.pwr.envCap - 1)
          exact ⟨(hm.fld_panelIn _ _).trans hin, hm.reg_panelUj.trans huj, fun h => absurd h above, fun _ h => absurd under h,
            fun _ _ h => absurd h h10, fun _ _ _ => ⟨hm.cap, hm.low⟩,
            fun _ x h hx hh => (hm.halves x h hx hh).trans (congrArg (· % 4) hm.cap.symm), hm.arc.trans harc, hm.queues.trans hqueues,
            hm.runs.trans hruns⟩
    · rw [if_neg under]
      exact ⟨hin, huj, fun h => absurd h above, fun _ _ => ⟨rfl, rfl⟩, fun _ h => absurd h under, fun _ h => absurd h under,
        fun h => absurd rfl h, harc, hqueues, hruns⟩

/-! ### Tab checks (R418) -/

/-- What a tab check leaves: the mask, and the panel register. -/
def State.tabsShown (s : State) (cs : List Nat) : State :=
  (({ s with pwr := { s.pwr with tabs := BitVec.ofNat 12 (tabMask cs) } } : State).setFld pwrPanelIn 48 12 (tabMask cs)).setFld pwrPanelIn 16 16
    (min cs.sum 0xFFFF)

theorem effTabCheck_eq {s : State} (cs : List Nat) (hp : s.pwr.pwrGood = true) : effTabCheck cs s =
    if popcount 12 (s.tabsShown cs).pwr.tabs.toNat = popcount 12 s.pwr.tabs.toNat then s.tabsShown cs else (s.tabsShown cs).powerIncident 0 := by
  unfold effTabCheck State.tabsShown
  rw [if_neg (by rw [hp]; exact Bool.false_ne_true)]

theorem State.tabsShown_spec (s : State) (cs : List Nat) : (s.tabsShown cs).pwr.tabs = BitVec.ofNat 12 (tabMask cs) ∧
    (s.tabsShown cs).fld pwrPanelIn 48 12 = (BitVec.ofNat 12 (tabMask cs)).toNat ∧
    (s.tabsShown cs).fld pwrPanelIn 16 16 = min cs.sum 0xFFFF ∧ (s.tabsShown cs).errs = s.errs ∧ (s.tabsShown cs).arc = s.arc ∧
    (s.tabsShown cs).queues = s.queues := by
  unfold State.tabsShown
  refine ⟨?_, ?_, ?_, ?_, ?_, ?_⟩
  · rw [State.setFld_pwr, State.setFld_pwr]
  · rw [State.fld_setFld_other _ _ _ _ _ _ _ (by omega) (by omega), State.fld_setFld_same _ _ _ _ _ (by omega), BitVec.toNat_ofNat]
  · rw [State.fld_setFld_same _ _ _ _ _ (by omega), Nat.mod_eq_of_lt (by omega)]
  · rw [State.setFld_errs, State.setFld_errs]
  · rw [State.setFld_arc, State.setFld_arc]
  · rw [State.setFld_queues, State.setFld_queues]

/-- A tab check: the mask of the tabs in service, and the panel register that shows it. -/
theorem tabCheck_spec {s : State} {cs : List Nat} (hc : cs.length = 12) (hp : s.pwr.pwrGood = true) :
    ∃ t : State, exec (.tabCheck cs) s = .next t ∧
       (∀ i, i < 12 → (t.pwr.tabs.getLsbD i = true ↔ 5 * natDist (12 * cs.getD i 0) cs.sum ≤ cs.sum)) ∧
       t.fld pwrPanelIn 48 12 = t.pwr.tabs.toNat ∧ t.fld pwrPanelIn 16 16 = min cs.sum 0xFFFF ∧
       (popcount 12 t.pwr.tabs.toNat = popcount 12 s.pwr.tabs.toNat → t.errs = s.errs) ∧ t.arc = s.arc ∧ t.queues = s.queues := by
  obtain ⟨htabs, hmask, hsum, herrs, harc, hqueues⟩ := s.tabsShown_spec cs
  have hbits := fun i hi => tabMask_getLsbD cs (i := i) hi hc
  rw [← htabs] at hmask hbits
  have heq := effTabCheck_eq cs hp
  generalize s.tabsShown cs = u at *
  refine ⟨_, exec_of rfl (decide_eq_true hc) heq, ?_⟩
  by_cases hpop : popcount 12 u.pwr.tabs.toNat = popcount 12 s.pwr.tabs.toNat
  · rw [if_pos hpop]
    exact ⟨hbits, hmask, hsum, fun _ => herrs, harc, hqueues⟩
  · rw [if_neg hpop]
    have hrest := u.powerIncident_rest 0
    have hpwr : (u.powerIncident 0).pwr = u.pwr := (congrArg State.pwr hrest :)
    have hreg := u.reg_powerIncident_ne 0 pwrPanelIn_not_moved.2.2
    have hfld : ∀ lo w, (u.powerIncident 0).fld pwrPanelIn lo w = u.fld pwrPanelIn lo w := fun lo w => congrArg (fun v => fldOf v lo w) hreg
    rw [hpwr, hfld, hfld]
    exact ⟨hbits, hmask, hsum, fun h => absurd h hpop, (congrArg State.arc hrest :).trans harc, (congrArg State.queues hrest :).trans hqueues⟩

/-! ### Thermal caps (R433) -/

theorem State.setThermCap_spec (s : State) (x : Nat) {h n : Nat} (hh : h < 2) (hn : n < 4) :
    (∃ rs p, s.setThermCap x h n = { s with regs := rs, pwr := { s.pwr with steps := p } }) ∧
    (s.setThermCap x h n).fld (ckgHalf x h) 2 2 = n ∧ ∀ k, k ≠ ckgHalf x h → (s.setThermCap x h n).reg k = s.reg k := by
  unfold State.setThermCap
  refine ⟨?_, ?_, fun k hk => ?_⟩
  · obtain ⟨rs, hrs⟩ := s.setFld_eq_withRegs (ckgHalf x h) 2 2 n
    obtain ⟨ts, p, hts⟩ := (s.setFld (ckgHalf x h) 2 2 n).restep_eq_withRegs (x := x) hh
    rw [hts, hrs]
    exact ⟨ts, p, rfl⟩
  · rw [State.fld_restep_limit _ hh (by omega), State.fld_setFld_same _ _ _ _ _ (by omega), Nat.mod_eq_of_lt (by omega)]
  · rw [State.reg_restep_ne _ hh hk, State.reg_setFld_ne _ _ _ _ hk]

/-- The counts of polls of a half. -/
def State.putTherm (s : State) (k : Nat) (v : Nat × Nat) : State := { s with pwr := { s.pwr with therm := tset (0, 0) s.pwr.therm k v } }

theorem State.therm_putTherm (s : State) (k : Nat) (v : Nat × Nat) : tget (0, 0) (s.putTherm k v).pwr.therm k = v := tget_tset_same ..

theorem effThermalPoll_eq {s u : State} {x h : Nat} {rs : List Nat} (hs : s.pwr.standby = true) (hu : s.showTemp (.cdie x h) (rs.foldl max 0) = u)
    (hl : u.pwr.pllLocked = true) : effThermalPoll x h rs s =
      if 105 ≤ rs.foldl max 0 then
        if (tget (0, 0) u.pwr.therm (halfKey x h)).1 + 1 < 10 then u.putTherm (halfKey x h) ((tget (0, 0) u.pwr.therm (halfKey x h)).1 + 1, 0)
        else if 3 ≤ u.fld (ckgHalf x h) 2 2 then u.putTherm (halfKey x h) (0, 0)
        else ((u.putTherm (halfKey x h) (0, 0)).setThermCap x h (u.fld (ckgHalf x h) 2 2 + 1)).sat (ckgStat x) 16 16 1
      else if rs.foldl max 0 ≤ 100 then
        if (tget (0, 0) u.pwr.therm (halfKey x h)).2 + 1 < 100 then u.putTherm (halfKey x h) (0, (tget (0, 0) u.pwr.therm (halfKey x h)).2 + 1)
        else if u.fld (ckgHalf x h) 2 2 = 0 then u.putTherm (halfKey x h) (0, 0)
        else (u.putTherm (halfKey x h) (0, 0)).setThermCap x h (u.fld (ckgHalf x h) 2 2 - 1)
      else u.putTherm (halfKey x h) (0, 0) := by
  unfold effThermalPoll
  extract_lets hot k v n put cap w
  rw [if_neg (by rw [hs]; exact Bool.false_ne_true)]
  have hv : v = u := hu
  clear_value v
  subst hv
  rw [if_neg (by rw [hl]; exact Bool.false_ne_true)]
  rfl

/-! ### Readings of a sensor (R434) -/

theorem State.showTemp_off {s : State} (n : Sensor) (t : Nat) (hp : s.pwr.pwrGood = false) : s.showTemp n t = s.setTemp (sensorKey n) t := by
  unfold State.showTemp
  exact if_pos (by rw [State.setTemp]; dsimp only; rw [hp]; rfl)

theorem State.showTemp_on {s : State} (n : Sensor) (t : Nat) (hp : s.pwr.pwrGood = true) : s.showTemp n t =
    match n with
    | .cdie x h => (s.setTemp (sensorKey (.cdie x h)) t).setFld (pwrB x) (8 * h) 8 (min 255 t)
    | .bdie x => (s.setTemp (sensorKey (.bdie x)) t).setFld (pwrB x) 16 8 (min 255 t)
    | .ringDie r => s.setTemp (sensorKey (.ringDie r)) t
    | .stack x c => (s.setTemp (sensorKey (.stack x c)) t).setFld (hbmStack x c) 0 8 (min 255 t) := by
  have hne : ¬(!(s.setTemp (sensorKey n) t).pwr.pwrGood) = true := by
    rw [State.setTemp]
    dsimp only
    rw [hp]
    exact Bool.false_ne_true
  unfold State.showTemp
  dsimp only
  rw [if_neg hne]
  cases n <;> rfl

/-- A reading changes the register of its die and the sensor's last reading. -/
theorem State.showTemp_spec (s : State) {n : Sensor} (hn : n.ok = true) (t : Nat) :
    (∃ rs, s.showTemp n t = { s.setTemp (sensorKey n) t with regs := rs }) ∧ ∀ k, siteB 72 ≤ k → (s.showTemp n t).reg k = s.reg k := by
  cases hp : s.pwr.pwrGood with
  | false =>
    rw [s.showTemp_off n t hp]
    exact ⟨⟨s.regs, rfl⟩, fun _ _ => rfl⟩
  | true =>
    rw [s.showTemp_on n t hp]
    cases n with
    | cdie x h =>
      have hx : x < 72 := of_decide_eq_true (Bool.and_eq_true_iff.1 hn).1
      have hc := of_decide_eq_true (Bool.and_eq_true_iff.1 hn).2
      refine ⟨State.setFld_eq_withRegs .., fun k hk => State.reg_setFld_ne _ _ _ _ ?_⟩
      unfold pwrB siteB at *
      omega
    | bdie x =>
      have hx : x < 72 := of_decide_eq_true hn
      refine ⟨State.setFld_eq_withRegs .., fun k hk => State.reg_setFld_ne _ _ _ _ ?_⟩
      unfold pwrB siteB at *
      omega
    | ringDie r => exact ⟨⟨s.regs, rfl⟩, fun _ _ => rfl⟩
    | stack x c =>
      have hx : x < 72 := of_decide_eq_true (Bool.and_eq_true_iff.1 hn).1
      have hc := of_decide_eq_true (Bool.and_eq_true_iff.1 hn).2
      refine ⟨State.setFld_eq_withRegs .., fun k hk => State.reg_setFld_ne _ _ _ _ ?_⟩
      unfold hbmStack hbmB siteB at *
      omega

/-- The reading of a half in PWR_TEMP. -/
theorem State.showTemp_half (s : State) (x : Nat) {h : Nat} (hh : h < 2) (t : Nat) :
    (s.pwr.pwrGood = true → (s.showTemp (.cdie x h) t).fld (pwrB x) (8 * h) 8 = min 255 t) ∧
    ∀ k, k ≠ pwrB x → (s.showTemp (.cdie x h) t).reg k = s.reg k := by
  refine ⟨fun hp => ?_, fun k hk => ?_⟩
  · rw [s.showTemp_on _ _ hp]
    refine (State.fld_setFld_same _ _ _ _ _ (by omega)).trans (Nat.mod_eq_of_lt ?_)
    omega
  · cases hp : s.pwr.pwrGood with
    | false => rw [s.showTemp_off _ _ hp]; rfl
    | true => rw [s.showTemp_on _ _ hp]; exact State.reg_setFld_ne _ _ _ _ hk

theorem ckgHalf_ne_pwrB {x h y : Nat} (hh : h < 2) : ckgHalf x h ≠ pwrB y := by
  unfold ckgHalf ckgB pwrB siteB
  omega

theorem ckgStat_ne_pwrB {x y : Nat} : ckgStat x ≠ pwrB y := by
  unfold ckgStat ckgB pwrB siteB
  omega

/-- One poll of a half's sensors: the reading, the count of polls, and the cap. -/
theorem thermalPoll_spec {s : State} {x h : Nat} {rs : List Nat} (hx : x < 72) (hh : h < 2) (hlen : rs.length = 8)
    (hs : s.pwr.standby = true) (hl : s.pwr.pllLocked = true) :
     let hot := rs.foldl max 0
     let n := tget (0, 0) s.pwr.therm (halfKey x h)
     let cap := s.fld (ckgHalf x h) 2 2
     ∃ t : State, exec (.thermalPoll x h rs) s = .next t ∧ tget 0 t.pwr.temps (2 * x + h) = hot ∧
       (s.pwr.pwrGood = true → t.fld (pwrB x) (8 * h) 8 = min 255 hot) ∧
       (105 ≤ hot → n.1 + 1 < 10 → tget (0, 0) t.pwr.therm (halfKey x h) = (n.1 + 1, 0) ∧ t.fld (ckgHalf x h) 2 2 = cap) ∧
       (105 ≤ hot → 10 ≤ n.1 + 1 → tget (0, 0) t.pwr.therm (halfKey x h) = (0, 0) ∧ t.fld (ckgHalf x h) 2 2 = min 3 (cap + 1) ∧
         t.fld (ckgStat x) 16 16 = (if 3 ≤ cap then s.fld (ckgStat x) 16 16 else min 0xFFFF (s.fld (ckgStat x) 16 16 + 1))) ∧
       (hot ≤ 100 → n.2 + 1 < 100 → tget (0, 0) t.pwr.therm (halfKey x h) = (0, n.2 + 1) ∧ t.fld (ckgHalf x h) 2 2 = cap) ∧
       (hot ≤ 100 → 100 ≤ n.2 + 1 → tget (0, 0) t.pwr.therm (halfKey x h) = (0, 0) ∧ t.fld (ckgHalf x h) 2 2 = cap - 1) ∧
       (100 < hot → hot < 105 → tget (0, 0) t.pwr.therm (halfKey x h) = (0, 0) ∧ t.fld (ckgHalf x h) 2 2 = cap) ∧
       t.arc = s.arc ∧ t.queues = s.queues ∧ t.runs = s.runs := by
  intro hot n cap
  have hok : (decide (x < Config.sites) && decide (h < 2) && decide (rs.length = 8)) = true := by simp [Config.sites, hx, hh, hlen]
  have hsens : (Sensor.cdie x h).ok = true := by simp [Sensor.ok, Config.sites, hx, hh]
  obtain ⟨⟨us, hus⟩, -⟩ := s.showTemp_spec hsens hot
  obtain ⟨hshown, hother⟩ := s.showTemp_half x hh hot
  have htemps : tget 0 (s.showTemp (.cdie x h) hot).pwr.temps (2 * x + h) = hot := by
    rw [hus]
    exact tget_tset_same ..
  have htherm : (s.showTemp (.cdie x h) hot).pwr.therm = s.pwr.therm := by rw [hus]; rfl
  have hlock : (s.showTemp (.cdie x h) hot).pwr.pllLocked = true := by rw [hus]; exact hl
  have hsame : (s.showTemp (.cdie x h) hot).arc = s.arc ∧ (s.showTemp (.cdie x h) hot).queues = s.queues ∧
      (s.showTemp (.cdie x h) hot).runs = s.runs := by rw [hus]; exact ⟨rfl, rfl, rfl⟩
  have hcap : (s.showTemp (.cdie x h) hot).fld (ckgHalf x h) 2 2 = cap :=
    congrArg (fun v => fldOf v 2 2) (hother _ (ckgHalf_ne_pwrB hh))
  have hstat : (s.showTemp (.cdie x h) hot).fld (ckgStat x) 16 16 = s.fld (ckgStat x) 16 16 :=
    congrArg (fun v => fldOf v 16 16) (hother _ ckgStat_ne_pwrB)
  have heq := effThermalPoll_eq hs (rfl : s.showTemp (.cdie x h) hot = _) hlock
  generalize s.showTemp (.cdie x h) hot = u at *
  rw [hcap, htherm] at heq
  change effThermalPoll x h rs s = if 105 ≤ hot then if n.1 + 1 < 10 then u.putTherm (halfKey x h) (n.1 + 1, 0) else _ else _ at heq
  obtain ⟨harc, hqueues, hruns⟩ := hsame
  have hcap4 : cap < 4 := s.fld_lt _ 2 2
  refine ⟨_, exec_of rfl hok heq, ?_⟩
  by_cases h105 : 105 ≤ hot
  · rw [if_pos h105]
    by_cases h10 : n.1 + 1 < 10
    · rw [if_pos h10]
      exact ⟨htemps, hshown, fun _ _ => ⟨u.therm_putTherm .., hcap⟩, fun _ h => absurd h (by omega), fun h => absurd h (by omega),
        fun h => absurd h (by omega), fun _ h => absurd h (by omega), harc, hqueues, hruns⟩
    · rw [if_neg h10]
      by_cases h3 : 3 ≤ cap
      · rw [if_pos h3]
        exact ⟨htemps, hshown, fun _ h => absurd h h10, fun _ _ => ⟨u.therm_putTherm .., hcap.trans (by omega), hstat.trans (if_pos h3).symm⟩,
          fun h => absurd h (by omega), fun h => absurd h (by omega), fun _ h => absurd h (by omega), harc, hqueues, hruns⟩
      · rw [if_neg h3]
        obtain ⟨⟨ws, p, hws⟩, hfld, hne⟩ := (u.putTherm (halfKey x h) (0, 0)).setThermCap_spec x hh (n := cap + 1) (by omega)
        generalize (u.putTherm (halfKey x h) (0, 0)).setThermCap x h (cap + 1) = w at *
        have hpwr : (w.sat (ckgStat x) 16 16 1).pwr.temps = u.pwr.temps ∧
            (w.sat (ckgStat x) 16 16 1).pwr.therm = (u.putTherm (halfKey x h) (0, 0)).pwr.therm := by
          rw [State.sat_pwr, hws]
          exact ⟨rfl, rfl⟩
        have hsame : (w.sat (ckgStat x) 16 16 1).arc = u.arc ∧ (w.sat (ckgStat x) 16 16 1).queues = u.queues ∧
            (w.sat (ckgStat x) 16 16 1).runs = u.runs := by
          rw [State.sat_arc, State.sat_queues, State.sat_runs, hws]
          exact ⟨rfl, rfl, rfl⟩
        obtain ⟨h1, h2, h3'⟩ := hsame
        have hshow : (w.sat (ckgStat x) 16 16 1).fld (pwrB x) (8 * h) 8 = u.fld (pwrB x) (8 * h) 8 := by
          rw [State.fld_sat_ne _ _ _ _ _ _ ckgStat_ne_pwrB.symm]
          exact congrArg (fun v => fldOf v (8 * h) 8) (hne _ (ckgHalf_ne_pwrB hh).symm)
        have hcount : (w.sat (ckgStat x) 16 16 1).fld (ckgStat x) 16 16 = min 0xFFFF (s.fld (ckgStat x) 16 16 + 1) := by
          have hw : w.fld (ckgStat x) 16 16 = u.fld (ckgStat x) 16 16 :=
            congrArg (fun v => fldOf v 16 16) (hne _ (ckgHalf_ne_ckgStat hh).symm)
          rw [State.fld_sat_same _ _ _ _ _ (by omega), hw, hstat] <;> rfl
        have hnew : (w.sat (ckgStat x) 16 16 1).fld (ckgHalf x h) 2 2 = cap + 1 := by
          rw [State.fld_sat_ne _ _ _ _ _ _ (ckgHalf_ne_ckgStat hh), hfld]
        exact ⟨hpwr.1 ▸ htemps, fun hp => hshow.trans (hshown hp), fun _ h => absurd h h10,
          fun _ _ => ⟨hpwr.2 ▸ u.therm_putTherm .., hnew.trans (by omega), hcount.trans (if_neg h3).symm⟩,
          fun h => absurd h (by omega), fun h => absurd h (by omega), fun _ h => absurd h (by omega), h1.trans harc, h2.trans hqueues,
          h3'.trans hruns⟩
  · rw [if_neg h105]
    by_cases h100 : hot ≤ 100
    · rw [if_pos h100]
      by_cases hc : n.2 + 1 < 100
      · rw [if_pos hc]
        exact ⟨htemps, hshown, fun h => absurd h h105, fun h => absurd h h105, fun _ _ => ⟨u.therm_putTherm .., hcap⟩,
          fun _ h => absurd h (by omega), fun h => absurd h (by omega), harc, hqueues, hruns⟩
      · rw [if_neg hc]
        by_cases h0 : cap = 0
        · rw [if_pos h0]
          exact ⟨htemps, hshown, fun h => absurd h h105, fun h => absurd h h105, fun _ h => absurd h hc,
            fun _ _ => ⟨u.therm_putTherm .., hcap.trans (by omega)⟩, fun h => absurd h (by omega), harc, hqueues, hruns⟩
        · rw [if_neg h0]
          obtain ⟨⟨ws, p, hws⟩, hfld, hne⟩ := (u.putTherm (halfKey x h) (0, 0)).setThermCap_spec x hh (n := cap - 1) (by omega)
          generalize (u.putTherm (halfKey x h) (0, 0)).setThermCap x h (cap - 1) = w at *
          have hpwr : w.pwr.temps = u.pwr.temps ∧ w.pwr.therm = (u.putTherm (halfKey x h) (0, 0)).pwr.therm := by
            rw [hws]
            exact ⟨rfl, rfl⟩
          have hsame : w.arc = u.arc ∧ w.queues = u.queues ∧ w.runs = u.runs := by
            rw [hws]
            exact ⟨rfl, rfl, rfl⟩
          obtain ⟨h1, h2, h3'⟩ := hsame
          have hshow : w.fld (pwrB x) (8 * h) 8 = u.fld (pwrB x) (8 * h) 8 :=
            congrArg (fun v => fldOf v (8 * h) 8) (hne _ (ckgHalf_ne_pwrB hh).symm)
          exact ⟨hpwr.1 ▸ htemps, fun hp => hshow.trans (hshown hp), fun h => absurd h h105, fun h => absurd h h105, fun _ h => absurd h hc,
            fun _ _ => ⟨hpwr.2 ▸ u.therm_putTherm .., hfld⟩, fun h => absurd h (by omega), h1.trans harc, h2.trans hqueues, h3'.trans hruns⟩
    · rw [if_neg h100]
      exact ⟨htemps, hshown, fun h => absurd h h105, fun h => absurd h h105, fun h => absurd h h100, fun h => absurd h h100,
        fun _ _ => ⟨u.therm_putTherm .., hcap⟩, harc, hqueues, hruns⟩

/-! ### Thermal trips (R434, R467) -/

theorem keptReg_mgmtB {k : Nat} (hk : k < 256) : keptReg (mgmtB k) = true := by
  rw [keptReg_iff]
  exact .inr ⟨by unfold mgmtB; omega, by unfold mgmtB; omega⟩

theorem mgmtB_ne_ckgHalf {k x h : Nat} (hx : x < 72) (hh : h < 2) : mgmtB k ≠ ckgHalf x h := by
  unfold mgmtB ckgHalf ckgB siteB
  omega

theorem siteB_le_mgmtB (k : Nat) : siteB 72 ≤ mgmtB k := by
  unfold siteB mgmtB
  omega

theorem State.powerOff_on {s : State} (hp : s.pwr.pwrGood = true) :
    s.powerOff = { s.cold with pwr := { s.cold.pwr with pwrGood := false, pllLocked := false } } := if_pos hp

theorem State.powerOff_off {s : State} (hp : s.pwr.pwrGood = false) : s.powerOff = s := if_neg (Bool.eq_false_iff.1 hp)

theorem State.reg_cold_mgmtB (s : State) {k : Nat} (hk : k < 256) : s.cold.reg (mgmtB k) = s.reg (mgmtB k) := by
  rw [s.reg_cold_of_ne fun x h hx hh => mgmtB_ne_ckgHalf hx hh, s.reg_coldRegs, if_pos (keptReg_mgmtB hk)]

theorem State.reg_with_pwr (s : State) (p : Power) (k : Nat) : ({ s with pwr := p } : State).reg k = s.reg k := rfl

/-- When the rails go off the standby domain alone keeps its registers. -/
theorem State.powerOff_spec (s : State) : s.powerOff.pwr.pwrGood = false ∧
    (s.pwr.pwrGood = true → s.powerOff.arc = {} ∧ s.powerOff.queues = [] ∧ s.powerOff.runs = []) ∧
    ∀ k, k < 256 → s.powerOff.reg (mgmtB k) = s.reg (mgmtB k) := by
  cases hp : s.pwr.pwrGood with
  | true =>
    rw [State.powerOff_on hp]
    obtain ⟨harc, hqueues, hruns, -⟩ := s.cold_empty
    have hregs := fun k hk => s.reg_cold_mgmtB (k := k) hk
    generalize s.cold = c at *
    exact ⟨rfl, fun _ => ⟨harc, hqueues, hruns⟩, hregs⟩
  | false =>
    rw [State.powerOff_off hp]
    exact ⟨hp, fun h => absurd h Bool.false_ne_true, fun _ _ => rfl⟩

theorem mgmtB_inj {a b : Nat} (h : a ≠ b) : mgmtB a ≠ mgmtB b := by
  unfold mgmtB
  omega

theorem State.latchTrip_tripped {s : State} (n : Sensor) (t : Nat) (h : s.tripped = true) : s.latchTrip n t = s := if_pos h

/-- What the first trip latches. -/
theorem State.latchTrip_first {s : State} (n : Sensor) (t : Nat) (h : s.tripped = false) : (s.latchTrip n t).tripped = true ∧
    (s.latchTrip n t).reg (mgmtB 3) = BitVec.ofNat 64 (tripCause n) ∧ (s.latchTrip n t).reg (mgmtB 4) = BitVec.ofNat 64 (tripUnit n) ∧
    (s.latchTrip n t).reg (mgmtB 5) = BitVec.ofNat 64 (min 255 t) := by
  have heq : s.latchTrip n t = (((s.setBit (mgmtB 2) 3 true).setReg (mgmtB 3) (BitVec.ofNat 64 (tripCause n))).setReg (mgmtB 4)
      (BitVec.ofNat 64 (tripUnit n))).setReg (mgmtB 5) (BitVec.ofNat 64 (min 255 t)) := if_neg (Bool.eq_false_iff.1 h)
  rw [heq]
  have h2 : ∀ k, k ≠ 2 → mgmtB 2 ≠ mgmtB k := fun k hk => mgmtB_inj (Ne.symm hk)
  refine ⟨?_, ?_, ?_, ?_⟩
  · have hreg : ∀ u v w, (((((s.setBit (mgmtB 2) 3 true).setReg (mgmtB 3) u).setReg (mgmtB 4) v).setReg (mgmtB 5) w).reg (mgmtB 2)) =
        (s.setBit (mgmtB 2) 3 true).reg (mgmtB 2) := fun u v w => by
      rw [State.reg_setReg_ne _ _ (h2 5 (by omega)), State.reg_setReg_ne _ _ (h2 4 (by omega)), State.reg_setReg_ne _ _ (h2 3 (by omega))]
    exact (congrArg (fun v => decide (fldOf v 3 1 = 1)) (hreg ..)).trans (State.bit_setBit_same _ _ _ _ (by omega))
  · rw [State.reg_setReg_ne _ _ (mgmtB_inj (by omega)), State.reg_setReg_ne _ _ (mgmtB_inj (by omega)), State.reg_setReg_same]
  · rw [State.reg_setReg_ne _ _ (mgmtB_inj (by omega)), State.reg_setReg_same]
  · rw [State.reg_setReg_same]

theorem State.latchTrip_eq_withRegs (s : State) (n : Sensor) (t : Nat) : ∃ rs, s.latchTrip n t = { s with regs := rs } := by
  unfold State.latchTrip
  split
  · exact ⟨s.regs, rfl⟩
  · exact ⟨_, rfl⟩

/-- A sensor at its threshold: the first one is latched, and the panel powers down. -/
theorem State.trip_spec (s : State) (n : Sensor) (temp : Nat) :
    ((s.latchTrip n temp).powerOff).tripped = true ∧ ((s.latchTrip n temp).powerOff).pwr.pwrGood = false ∧
    (s.pwr.pwrGood = true → ((s.latchTrip n temp).powerOff).arc = {} ∧ ((s.latchTrip n temp).powerOff).queues = [] ∧
      ((s.latchTrip n temp).powerOff).runs = []) ∧
    (s.tripped = false → ((s.latchTrip n temp).powerOff).reg (mgmtB 3) = BitVec.ofNat 64 (tripCause n) ∧
      ((s.latchTrip n temp).powerOff).reg (mgmtB 4) = BitVec.ofNat 64 (tripUnit n) ∧
      ((s.latchTrip n temp).powerOff).reg (mgmtB 5) = BitVec.ofNat 64 (min 255 temp)) ∧
    (s.tripped = true → ∀ k, k < 256 → ((s.latchTrip n temp).powerOff).reg (mgmtB k) = s.reg (mgmtB k)) := by
  obtain ⟨hgood, hoff, hregs⟩ := (s.latchTrip n temp).powerOff_spec
  obtain ⟨rs, hrs⟩ := s.latchTrip_eq_withRegs n temp
  have hpg : (s.latchTrip n temp).pwr.pwrGood = s.pwr.pwrGood := by rw [hrs]
  have htrip : (s.latchTrip n temp).powerOff.tripped = (s.latchTrip n temp).tripped :=
    congrArg (fun v => decide (fldOf v 3 1 = 1)) (hregs 2 (by omega))
  rw [hpg] at hoff
  refine ⟨htrip.trans ?_, hgood, hoff, fun h => ?_, fun h k hk => ?_⟩
  · cases h : s.tripped with
    | true => rw [State.latchTrip_tripped n temp h, h]
    | false => exact (State.latchTrip_first n temp h).1
  · obtain ⟨-, h3, h4, h5⟩ := State.latchTrip_first n temp h
    rw [hregs 3 (by omega), hregs 4 (by omega), hregs 5 (by omega)]
    exact ⟨h3, h4, h5⟩
  · rw [hregs k hk, State.latchTrip_tripped n temp h]

/-- A sensor's place fits its field of the trip registers. -/
theorem tripFields {n : Sensor} (hn : n.ok = true) :
    fldOf (BitVec.ofNat 64 (tripCause n)) 0 2 = (match (generalizing := false) n with | .cdie _ _ => 1 | .bdie _ => 2 | .ringDie _ => 2 | .stack _ _ => 3) ∧
    (decide (fldOf (BitVec.ofNat 64 (tripCause n)) 2 1 = 1)) = (match (generalizing := false) n with | .stack _ c => decide (c = 1) | _ => false) ∧
    fldOf (BitVec.ofNat 64 (tripUnit n)) 0 7 = (match (generalizing := false) n with | .cdie x _ => x | .bdie x => x | .ringDie r => r | .stack x _ => x) ∧
    (decide (fldOf (BitVec.ofNat 64 (tripUnit n)) 7 1 = 1)) = (match (generalizing := false) n with | .ringDie _ => true | _ => false) := by
  have hcause : tripCause n < 2 ^ 64 ∧ tripUnit n < 2 ^ 64 := by
    cases n with
    | cdie x h =>
      have hx : x < 72 := of_decide_eq_true (Bool.and_eq_true_iff.1 hn).1
      exact ⟨by rw [tripCause]; omega, by rw [tripUnit]; omega⟩
    | bdie x =>
      have hx : x < 72 := of_decide_eq_true hn
      exact ⟨by rw [tripCause]; omega, by rw [tripUnit]; omega⟩
    | ringDie r =>
      have hr : r < 24 := of_decide_eq_true hn
      exact ⟨by rw [tripCause]; omega, by rw [tripUnit]; omega⟩
    | stack x c =>
      have hx : x < 72 := of_decide_eq_true (Bool.and_eq_true_iff.1 hn).1
      have hc := of_decide_eq_true (Bool.and_eq_true_iff.1 hn).2
      exact ⟨by rw [tripCause]; omega, by rw [tripUnit]; omega⟩
  rw [fldOf_ofNat64 _ _ _ hcause.1, fldOf_ofNat64 _ _ _ hcause.1, fldOf_ofNat64 _ _ _ hcause.2, fldOf_ofNat64 _ _ _ hcause.2]
  cases n with
  | cdie x h =>
    have hx : x < 72 := of_decide_eq_true (Bool.and_eq_true_iff.1 hn).1
    rw [tripCause, tripUnit]
    exact ⟨rfl, rfl, by dsimp only; omega, decide_eq_false (by omega)⟩
  | bdie x =>
    have hx : x < 72 := of_decide_eq_true hn
    rw [tripCause, tripUnit]
    exact ⟨rfl, rfl, by dsimp only; omega, decide_eq_false (by omega)⟩
  | ringDie r =>
    have hr : r < 24 := of_decide_eq_true hn
    rw [tripCause, tripUnit]
    exact ⟨rfl, rfl, by dsimp only; omega, decide_eq_true (by omega)⟩
  | stack x c =>
    have hx : x < 72 := of_decide_eq_true (Bool.and_eq_true_iff.1 hn).1
    have hc := of_decide_eq_true (Bool.and_eq_true_iff.1 hn).2
    rw [tripCause, tripUnit]
    exact ⟨by dsimp only; omega, decide_eq_decide.2 (by omega), by dsimp only; omega, decide_eq_false (by omega)⟩

/-- Every sensor reads 10 °C below its threshold (R467). -/
theorem State.coolEnough_iff (s : State) : s.coolEnough = true ↔ ∀ n : Sensor, n.ok = true → tget 0 s.pwr.temps (sensorKey n) + 10 ≤ tripAt n := by
  unfold State.coolEnough
  simp only [Bool.and_eq_true, List.all_eq_true, decide_eq_true_eq]
  constructor
  · rintro ⟨⟨hhalf, hb⟩, hr⟩ n hn
    cases n with
    | cdie x h => exact (hhalf (x, h) (mem_allHalves.2 ⟨of_decide_eq_true (Bool.and_eq_true_iff.1 hn).1,
        of_decide_eq_true (Bool.and_eq_true_iff.1 hn).2⟩)).1
    | bdie x => exact hb x (List.mem_range.2 (of_decide_eq_true hn))
    | ringDie r => exact hr r (List.mem_range.2 (of_decide_eq_true hn))
    | stack x c => exact (hhalf (x, c) (mem_allHalves.2 ⟨of_decide_eq_true (Bool.and_eq_true_iff.1 hn).1,
        of_decide_eq_true (Bool.and_eq_true_iff.1 hn).2⟩)).2
  · intro h
    refine ⟨⟨fun e he => ?_, fun x hx => h (.bdie x) (decide_eq_true (List.mem_range.1 hx))⟩,
      fun r hr => h (.ringDie r) (decide_eq_true (List.mem_range.1 hr))⟩
    obtain ⟨hx, hh⟩ := mem_allHalves.1 he
    have hok : (decide (e.1 < Config.sites) && decide (e.2 < 2)) = true := by simp [Config.sites, hx, hh]
    exact ⟨h (.cdie e.1 e.2) hok, h (.stack e.1 e.2) hok⟩

/-- Settles O59: tabs, envelope and thermal caps by their rows, the trip by what it latches and what the power-down keeps. -/
theorem powerMonitors : Obligations.PowerMonitors := by
  refine ⟨⟨fun s cs hc hp => tabCheck_spec hc hp, fun s watts hs hp => envelopeTick_spec watts hs hp,
    fun s x h rs hx hh hlen hs hl => thermalPoll_spec hx hh hlen hs hl⟩, fun s n temp hn hs => ?trip, fun s hs => ?clear⟩
  case trip =>
    intro at_
    have hat : at_ = tripAt n := by cases n <;> rfl
    clear_value at_
    subst hat
    have heq : effThermalTrip n temp s = if temp < tripAt n then s.showTemp n temp else ((s.showTemp n temp).latchTrip n temp).powerOff := by
      unfold effThermalTrip
      exact if_neg (by rw [hs]; exact Bool.false_ne_true)
    obtain ⟨⟨rs, hrs⟩, hregs⟩ := s.showTemp_spec hn temp
    have hgood : (s.showTemp n temp).pwr.pwrGood = s.pwr.pwrGood := by rw [hrs]; rfl
    have htrip : (s.showTemp n temp).tripped = s.tripped :=
      congrArg (fun v => decide (fldOf v 3 1 = 1)) (hregs _ (siteB_le_mgmtB 2))
    obtain ⟨h1, h2, h3, h4, h5⟩ := (s.showTemp n temp).trip_spec n temp
    refine ⟨_, exec_of rfl hn heq, ?_⟩
    refine ⟨fun h => if_pos h, fun h => ?_⟩
    rw [if_neg (by omega)]
    rw [hgood] at h3
    rw [htrip] at h4 h5
    refine ⟨h1, h2, h3, fun hno => ?_, fun hyes k h2k h5k => (h5 hyes k (by omega)).trans (hregs _ (siteB_le_mgmtB k))⟩
    obtain ⟨r3, r4, r5⟩ := h4 hno
    obtain ⟨f1, f2, f3, f4⟩ := tripFields hn
    rw [State.fld, State.bit, State.fld, State.fld, State.bit, State.fld, State.fld, r3, r4, r5]
    refine ⟨f1, f2, f3, f4, ?_⟩
    rw [fldOf_ofNat64 _ _ _ (by omega)]
    omega
  case clear =>
    rw [← s.coolEnough_iff]
    have heq : effTripClr s = if (s.pwr.standby && s.coolEnough) = true then s.setBit (mgmtB 2) 3 false else s := rfl
    rw [hs, Bool.true_and] at heq
    refine ⟨fun hc => ⟨_, exec_of rfl rfl (heq.trans (if_pos hc)), rfl, fun e he => ?_, fun k hk => ?_⟩, fun hc => exec_of rfl rfl (heq.trans (if_neg hc))⟩
    · obtain rfl := List.mem_singleton.1 he
      exact State.reg_setFld_same ..
    · exact State.reg_setFld_ne _ _ _ _ fun h => hk (by simp [h])

end Sys2Proof.Machine

/-!
PROOFS. The flask (19_flask R458, R463, R465-R468): presence, standby, SMBus and the test port.
-/

namespace Sys2Proof.Machine

theorem fldOf_one_eq_b2n {n : Nat} (v : BitVec n) (i : Nat) : fldOf v i 1 = b2n (v.getLsbD i) := by
  rw [fldOf, nbits, Nat.shiftRight_eq_div_pow, BitVec.getLsbD, b2n, Nat.testBit_eq_decide_div_mod_eq]
  by_cases h : v.toNat / 2 ^ i % 2 = 1
  · simp [h]
  · simp only [h, decide_false, Bool.false_eq_true, if_false]
    omega

/-! ### Standby (R463, R465) -/

/-- The standby domain at its reset values. -/
def State.standbyReset (s : State) : State :=
  { s with
    regs := s.regs.filter fun e => !decide (mgmtB 0 ≤ e.1 ∧ e.1 < mgmtB 256)
    pwr := { s.pwr with standby := true, smbNack := false, jtagIr := 1, jtagReset := true, tdo := 0 } }

theorem State.reg_standbyReset (s : State) (k : Nat) :
    s.standbyReset.reg k = if mgmtB 0 ≤ k ∧ k < mgmtB 256 then regReset k else s.reg k := by
  have h := tget_filter (regReset k) (fun e => !decide (mgmtB 0 ≤ e ∧ e < mgmtB 256)) s.regs k
  refine h.trans ?_
  by_cases hk : mgmtB 0 ≤ k ∧ k < mgmtB 256
  · rw [if_pos hk, if_neg (by rw [decide_eq_true hk]; exact Bool.false_ne_true)]
  · rw [if_neg hk, if_pos (by rw [decide_eq_false hk]; rfl)]
    rfl

theorem mgmtB_bounds {k : Nat} (h : k < 256) : mgmtB 0 ≤ mgmtB k ∧ mgmtB k < mgmtB 256 := by
  unfold mgmtB
  omega

theorem effStandbyUp_eq {s : State} (a b : Bool) (h : s.pwr.standby = false) :
    effStandbyUp a b s = s.standbyReset.setFld (mgmtB 2) 6 2 (2 * b2n a + b2n b) := if_neg (Bool.eq_false_iff.1 h)

/-- Nothing is driven without the standby supply (R463). -/
theorem State.pins_of_standbyLoss {s : State} (h : s.pwr.standby = false) :
    s.pinAlertN = none ∧ s.pinThermTripN = none ∧ s.pinPwrGood = none := by
  have hd : s.drives = false := by rw [State.drives, h, Bool.false_and]
  simp [State.pinAlertN, State.pinThermTripN, State.pinPwrGood, hd]

/-! ### SMBus and the test port (R465-R468) -/

section
variable {s : State} (hs : s.pwr.standby = true)
include hs

theorem effSmbusWrite_eq (cmd : Nat) (v : W8) (pec : Option W8) : effSmbusWrite cmd v pec s =
    if (s.bit (mgmtB 0x20) 1 && decide (pec.map (·.toNat) ≠ some (pecOf [2 * s.smbAddr, cmd, v.toNat]))) = true then s.setNack true
    else if cmd ≠ 0x20 then s.setNack false
    else if fldOf v 0 1 = 1 then effTripClr ((s.setNack false).setBit (mgmtB 0x20) 1 (v.getLsbD 1))
    else (s.setNack false).setBit (mgmtB 0x20) 1 (v.getLsbD 1) := by
  unfold effSmbusWrite
  rw [if_neg (by rw [hs]; exact Bool.false_ne_true), fldOf_one_eq_b2n v 1]
  rfl

theorem State.tapRuns_of (hj : s.pwr.jtagReset = false) : s.tapRuns = true := by rw [State.tapRuns, hs, hj]; rfl

end

theorem goodPec_iff (pec : Option W8) (n : Nat) : pec.map (·.toNat) = some n ↔ ∃ c : W8, pec = some c ∧ c.toNat = n := Option.map_eq_some_iff

theorem b2n_le (b : Bool) : b2n b ≤ 1 := by cases b <;> decide

/-- Settles O60: each pin and port row by its definition. -/
theorem flaskPins : Obligations.FlaskPins := by
  refine ⟨fun s w hw => ?presence, fun s a b hs => ?standby, fun s => ?loss, fun s hs => ?bus⟩
  case presence =>
    change carryOut (decide (w < 2)) (effPresenceOpen w s) = carryOut true (effPowerDown .pwrEnFall s)
    rw [decide_eq_true hw]
    rfl
  case standby =>
    have ha := b2n_le a
    have hb := b2n_le b
    have h2 : s.standbyReset.reg (mgmtB 2) = regReset (mgmtB 2) := (s.reg_standbyReset _).trans (if_pos (mgmtB_bounds (by omega)))
    refine ⟨_, exec_of rfl rfl (effStandbyUp_eq a b hs), fun k hk hne => ?_, ?_, ?_, fun k hk => ?_, ?_⟩
    · rw [State.reg_setFld_ne _ _ _ _ (mgmtB_inj hne), State.reg_standbyReset, if_pos (mgmtB_bounds hk)]
    · rw [State.reg_setFld_same, h2]
    · rw [State.smbAddr, State.fld_setFld_same _ _ _ _ _ (by omega), Nat.mod_eq_of_lt (by omega), Nat.add_assoc]
    · have hout : ¬(mgmtB 0 ≤ k ∧ k < mgmtB 256) := by omega
      have hne : k ≠ mgmtB 2 := fun e => hout (e ▸ mgmtB_bounds (by omega))
      rw [State.reg_setFld_ne _ _ _ _ hne, State.reg_standbyReset, if_neg hout]
    · obtain ⟨rs, hrs⟩ := s.standbyReset.setFld_eq_withRegs (mgmtB 2) 6 2 (2 * b2n a + b2n b)
      rw [hrs]
      rfl
  case loss =>
    have hgood := ({ s with pwr := { s.pwr with inRange := false, pending := false } } : State).powerOff_spec.1
    refine ⟨_, exec_of rfl rfl rfl, ?_⟩
    unfold effStandbyLoss
    generalize ({ s with pwr := { s.pwr with inRange := false, pending := false } } : State).powerOff = u at *
    exact ⟨rfl, rfl, hgood, State.pins_of_standbyLoss rfl⟩
  case bus =>
    intro nack
    refine ⟨fun cmd v pec hcmd => ?_, exec_of rfl rfl rfl, exec_of rfl rfl ?_, exec_of rfl rfl ?_, fun hj => ?_⟩
    · have heq := effSmbusWrite_eq hs cmd v pec
      have hok : decide (cmd < 256) = true := decide_eq_true hcmd
      have h0 : fldOf v 0 1 = 1 ↔ v.getLsbD 0 = true := by
        rw [fldOf_one_eq_b2n]
        cases v.getLsbD 0 <;> decide
      intro good
      have hpec : pec.map (·.toNat) = some (pecOf [2 * s.smbAddr, cmd, v.toNat]) ↔ good := goodPec_iff ..
      refine ⟨fun hb hbad => exec_of rfl hok (heq.trans (if_pos ?_)), fun hgood => ?_⟩
      · rw [hb, Bool.true_and]
        exact decide_eq_true fun e => hbad (hpec.1 e)
      · rw [if_neg] at heq
        · refine ⟨fun hne => exec_of rfl hok (heq.trans (if_pos hne)), fun he => ?_⟩
          rw [if_neg (not_not_intro he)] at heq
          refine ⟨fun hv => exec_of rfl hok (heq.trans ?_), fun hv => ?_⟩
          · exact if_neg fun e => Bool.false_ne_true (hv ▸ h0.1 e)
          · rw [if_pos (h0.2 hv)] at heq
            exact exec_of rfl hok heq
        · rcases hgood with hb | hgood
          · rw [hb, Bool.false_and]
            exact Bool.false_ne_true
          · rw [hpec.2 hgood]
            simp
    · rw [effTrst, hs]
      rfl
    · rw [effTrst, hs]
      rfl
    · have ht := State.tapRuns_of hs hj
      have hnot : ¬(!s.tapRuns) = true := by rw [ht]; exact Bool.false_ne_true
      have hbypass : effBypass s = s.tapLoad 0xFF 0#32 := if_pos ht
      refine ⟨exec_of rfl rfl (if_pos ht), exec_of rfl rfl hbypass, fun hl => ⟨exec_of rfl rfl ?_, exec_of rfl rfl ?_⟩, fun hl => ⟨exec_of rfl rfl ?_,
        (Config.freeWord s.free).setWidth 48, exec_of rfl rfl ?_⟩⟩
      · exact (if_neg hnot).trans ((if_pos hl).trans hbypass)
      · exact (if_neg hnot).trans ((if_pos hl).trans hbypass)
      · exact (if_neg hnot).trans (if_neg (Bool.eq_false_iff.1 hl))
      · exact (if_neg hnot).trans (if_neg (Bool.eq_false_iff.1 hl))

end Sys2Proof.Machine

/-!
PROOFS. Loading and verifying images (16_mould_and_start R398, R399, R401, R412).
-/

namespace Sys2Proof.Machine

/-! ### The boot port (R398, R399) -/

/-- The port that loads is the boot port, or becomes it: the state with its number latched. -/
def State.mayLoad (s : State) (port : Nat) (u : State) : Prop :=
  if s.bit libBootStatus 22 then s.fld libBootStatus 16 6 = port ∧ u = s
  else s.bit fusSec port = true ∧ s.portUp port = true ∧ u = (s.setFld libBootStatus 16 6 port).setBit libBootStatus 22 true

theorem State.bootPort_of_may {s u : State} {port : Nat} (h : s.mayLoad port u) : s.bootPort port = some u := by
  unfold State.mayLoad at h
  unfold State.bootPort
  by_cases hb : s.bit libBootStatus 22 = true
  · rw [if_pos hb] at h ⊢
    rw [if_pos h.1, h.2]
  · rw [if_neg hb] at h ⊢
    obtain ⟨h1, h2, rfl⟩ := h
    rw [if_pos (by rw [h1, h2]; rfl)]

theorem State.bootPort_none {s : State} {port : Nat} (h : if s.bit libBootStatus 22 then s.fld libBootStatus 16 6 ≠ port
    else s.bit fusSec port = false ∨ s.portUp port = false) : s.bootPort port = none := by
  unfold State.bootPort
  by_cases hb : s.bit libBootStatus 22 = true
  · rw [if_pos hb] at h ⊢
    rw [if_neg h]
  · rw [if_neg hb] at h ⊢
    refine if_neg fun e => ?_
    obtain ⟨h1, h2⟩ := Bool.and_eq_true_iff.1 e
    rw [h1, h2] at h
    simp at h

/-- Latching the boot port leaves STATE and what has been loaded. -/
theorem State.mayLoad_same {s u : State} {port : Nat} (h : s.mayLoad port u) : u.bootState = s.bootState ∧ u.boot = s.boot := by
  unfold State.mayLoad at h
  split at h
  · rw [h.2]
    exact ⟨rfl, rfl⟩
  · obtain ⟨-, -, rfl⟩ := h
    refine ⟨?_, rfl⟩
    rw [State.bootState, State.setBit, State.fld_setFld_other _ _ _ _ _ _ _ (by omega) (by omega),
      State.fld_setFld_other _ _ _ _ _ _ _ (by omega) (by omega), State.bootState]

section
variable {s u : State} {port : Nat}

theorem State.loadCmd_none (h0 : s.bootState ≠ 0) (h : s.bootPort port = none) (next : Nat) (states : List Nat) :
    s.loadCmd port next states = s.refused port := by
  rw [State.loadCmd, if_neg h0, h]

theorem State.loadCmd_may (h0 : s.bootState ≠ 0) (h : s.mayLoad port u) (next : Nat) (states : List Nat) :
    s.loadCmd port next states = if states.contains s.bootState = true then
        ({ u with boot := { u.boot with image := s.windowCopy, from_ := s.bootState } } : State).setFld libBootStatus 0 4 next
      else u.setFld libBootStatus 4 4 10 := by
  obtain ⟨hstate, hboot⟩ := State.mayLoad_same h
  have hcopy : u.windowCopy = s.windowCopy := by rw [State.windowCopy, hboot, State.windowCopy]
  rw [State.loadCmd, if_neg h0, State.bootPort_of_may h]
  dsimp only
  rw [hstate, hcopy]

theorem effLoadWindowWrite_none (h0 : s.bootState ≠ 0) (h : s.bootPort port = none) (off : Nat) (d : Bytes) :
    effLoadWindowWrite port off d s = s.refused port := by
  rw [effLoadWindowWrite, if_neg h0, h]

theorem effLoadWindowWrite_may (h0 : s.bootState ≠ 0) (h : s.mayLoad port u) (off : Nat) (d : Bytes) :
    effLoadWindowWrite port off d s = if s.bootState = 2 ∨ s.bootState = 4 then u.refused port
      else u.mbxWr (0x80_0000 + off) (d.take (0x80_0000 - off)) := by
  rw [effLoadWindowWrite, if_neg h0, State.bootPort_of_may h]
  dsimp only
  rw [(State.mayLoad_same h).1]

end

/-! ### The verifier (R401) -/

theorem find?_range_eq_some {n i : Nat} {p : Nat → Bool} (hi : i < n) (h : p i = true) (hlt : ∀ j, j < i → p j = false) :
    (List.range n).find? p = some i := by
  rw [List.find?_range_eq_some]
  exact ⟨h, List.mem_range.2 hi, fun j hj => by rw [hlt j hj]; rfl⟩

/-- Settles O55: loading by the boot port, what an image's verification leaves, and the verifier's order. -/
theorem images : Obligations.Images := by
  refine ⟨⟨fun s u port off d hport h0 => ?load, fun s => ?verified⟩, fun s t kind => ?order⟩
  case load =>
    have hok : decide (port < Config.ports) = true := decide_eq_true hport
    intro may copy
    refine ⟨fun h => ?_, fun h => ?_⟩
    · have hm : s.mayLoad port u := h
      have hw := effLoadWindowWrite_may h0 hm off d
      refine ⟨fun h24 => exec_of rfl hok (hw.trans (if_pos h24)), fun h2 h4 => exec_of rfl hok (hw.trans (if_neg (not_or.2 ⟨h2, h4⟩))),
        exec_of rfl hok ((State.loadCmd_may h0 hm 2 [1, 7]).trans (ite_congr (propext ?_) (fun _ => rfl) fun _ => rfl)),
        exec_of rfl hok ((State.loadCmd_may h0 hm 4 [3]).trans (ite_congr (propext ?_) (fun _ => rfl) fun _ => rfl))⟩
      · simp
      · simp
    · have hn := State.bootPort_none h
      exact ⟨exec_of rfl hok (effLoadWindowWrite_none h0 hn off d), exec_of rfl hok (State.loadCmd_none h0 hn ..),
        exec_of rfl hok (State.loadCmd_none h0 hn ..)⟩
  case verified =>
    intro t refuse
    refine ⟨fun h2 => ⟨fun e he => exec_of rfl rfl ?_, fun he => exec_of rfl rfl ?_⟩, fun h4 => ⟨fun e he => exec_of rfl rfl ?_, fun he => exec_of rfl rfl ?_⟩⟩
    · unfold effImageVerified
      dsimp only
      rw [if_pos h2, he]
      rfl
    · unfold effImageVerified
      dsimp only
      rw [if_pos h2, he]
      rfl
    · unfold effImageVerified
      dsimp only
      rw [if_neg (by omega), if_pos h4, he]
      rfl
    · unfold effImageVerified
      dsimp only
      rw [if_neg (by omega), if_pos h4, he]
      rfl
  case order =>
    have hnot : ∀ b : Bool, b = true → ¬(!b) = true := fun b hb => by rw [hb]; exact Bool.false_ne_true
    have hyes : ∀ b : Bool, b = false → (!b) = true := fun b hb => by rw [hb]; rfl
    unfold State.verify
    refine ⟨fun h => if_pos (hyes _ h), fun hheader => ?_⟩
    rw [if_neg (hnot _ hheader)]
    refine ⟨fun h => if_pos (hyes _ h), fun htarget => ?_⟩
    rw [if_neg (hnot _ htarget)]
    refine ⟨fun h => if_pos (hyes _ h), fun hkeys => ?_⟩
    rw [if_neg (hnot _ hkeys)]
    refine ⟨fun h => if_pos (hyes _ h), fun hed => ?_⟩
    rw [if_neg (hnot _ hed)]
    refine ⟨fun h => if_pos (hyes _ h), fun hml => ?_⟩
    rw [if_neg (hnot _ hml)]
    refine ⟨fun h => if_pos h, fun hsvn => ?_⟩
    rw [if_neg (by omega)]
    refine ⟨fun hk => if_pos hk, fun hk i hi => ?_, fun hk hgood => ?_⟩
    · rw [if_neg hk, hi]
    · rw [if_neg hk, hgood]
      dsimp only
      refine ⟨fun i h1 h11 hbad hok => ?_, fun hok => ?_⟩
      · rw [find?_range_eq_some (i := i - 1) (by omega) (by rw [Nat.sub_add_cancel h1, hbad]; rfl)
          fun j hj => by rw [hok (j + 1) (by omega) (by omega)]; rfl]
        dsimp only
        rw [Nat.sub_add_cancel h1]
      · rw [List.find?_eq_none.2 fun j hj => by rw [hok (j + 1) (by omega) (by have := List.mem_range.1 hj; omega)]; exact Bool.false_ne_true]

end Sys2Proof.Machine

/-!
PROOFS. The start, the supervisor and reset (16_mould_and_start R406, R407, R412, R413; 18_faults_and_recovery R448).
-/

namespace Sys2Proof.Machine

/-! ### The boot ROM's state (R406 steps 1 to 3) -/

/-- Nothing but the fuses and the standby domain, with the PLLs locked. -/
def State.woken (s : State) : State :=
  let u : State := State.cold { s with pwr := { s.pwr with resetN := true } }
  { u with cyc := 0, pwr := { u.pwr with pllLocked := true } }

/-- A port of MGR_PORTS comes up as HOST. -/
def State.portOn (s : State) (k : Nat) : State := if s.bit fusSec k then (s.setFld (rngPort k) 0 2 1).setBit (rngPort k) 6 true else s

/-- The edges and the ports with the boot ROM's defaults. -/
def State.romWired (s : State) : State := (List.range 48).foldl State.portOn ((List.range 72).foldl State.trainSite s)

def State.romState (s : State) : State :=
  (s.woken.romWired.setFld libBootStatus 0 4 1).setFld libBootStatus 40 7 s.woken.romWired.floor

theorem effPanelResetRise_eq {s : State} (fails : List StartFail) (hr : s.pwr.resetN = false) (hp : s.pwr.pwrGood = true)
    (href : s.pwr.refPresent = true) : effPanelResetRise fails s = s.romState.trainFirst fails := by
  unfold effPanelResetRise
  rw [if_neg (Bool.eq_false_iff.1 hr)]
  have hon : ¬(!s.pwr.pwrGood || !s.pwr.refPresent) = true := by rw [hp, href]; exact Bool.false_ne_true
  unfold State.romState State.romWired State.portOn State.woken
  exact if_neg hon

theorem effPanelResetRise_off {s : State} (fails : List StartFail) (hr : s.pwr.resetN = false)
    (h : s.pwr.pwrGood = false ∨ s.pwr.refPresent = false) : effPanelResetRise fails s = { s with pwr := { s.pwr with resetN := true } } := by
  unfold effPanelResetRise
  rw [if_neg (Bool.eq_false_iff.1 hr)]
  dsimp only
  refine if_pos ?_
  rcases h with h | h
  · rw [h]
    rfl
  · rw [h]
    exact Bool.or_true _

theorem OnlyRegs.cyc {P : Nat → Prop} {s t : State} (h : OnlyRegs P s t) : t.cyc = s.cyc := (congrArg State.cyc h.rest :)
theorem OnlyRegs.boot {P : Nat → Prop} {s t : State} (h : OnlyRegs P s t) : t.boot = s.boot := (congrArg State.boot h.rest :)

/-- Registers that the boot ROM sets. -/
def romReg (k : Nat) : Prop :=
  (∃ x d, x < 72 ∧ d < 4 ∧ (k = lnkB x d ∨ k = lnkB x d + 8)) ∨ (∃ p, p < 48 ∧ k = rngPort p) ∨ k = libBootStatus

theorem State.trainSite_onlyRegs (s : State) {x : Nat} (hx : x < 72) : OnlyRegs romReg s (s.trainSite x) := by
  refine OnlyRegs.foldl (fun u d hd => ?_) s
  have hd := List.mem_range.1 hd
  have h0 : romReg (lnkB x d) := .inl ⟨x, d, hx, hd, .inl rfl⟩
  have h8 : romReg (lnkB x d + 8) := .inl ⟨x, d, hx, hd, .inr rfl⟩
  have hu := (((OnlyRegs.refl u).setFld h0 0 2 (attachOf x d).1).setFld h0 2 7 (attachOf x d).2).setFld h0 9 1 (b2n (decide ((attachOf x d).1 ≠ 2)))
  dsimp only
  split
  · exact hu.setReg h8 _
  · split
    · exact hu.setReg h8 _
    · exact hu

theorem State.portOn_onlyRegs (s : State) {k : Nat} (hk : k < 48) : OnlyRegs romReg s (s.portOn k) := by
  unfold State.portOn
  split
  · exact ((OnlyRegs.refl s).setFld (.inr (.inl ⟨k, hk, rfl⟩)) _ _ _).setFld (.inr (.inl ⟨k, hk, rfl⟩)) _ _ _
  · exact .refl s

theorem State.romWired_onlyRegs (s : State) : OnlyRegs romReg s s.romWired :=
  (OnlyRegs.foldl (fun _ _ hx => State.trainSite_onlyRegs _ (List.mem_range.1 hx)) s).trans
    (OnlyRegs.foldl (fun _ _ hk => State.portOn_onlyRegs _ (List.mem_range.1 hk)) _)

theorem State.romState_onlyRegs (s : State) : OnlyRegs romReg s.woken s.romState :=
  (s.woken.romWired_onlyRegs.setFld (.inr (.inr rfl)) _ _ _).setFld (.inr (.inr rfl)) _ _ _

theorem not_romReg_of_kept {k : Nat} (h : keptReg k = true) : ¬romReg k := by
  rw [keptReg_iff] at h
  unfold fusB mgmtB at h
  rintro (⟨x, d, hx, hd, he⟩ | ⟨p, hp, he⟩ | he)
  · unfold lnkB siteB at he
    omega
  · unfold rngPort ringB at he
    omega
  · unfold libBootStatus libB at he
    omega

theorem State.woken_rest (s : State) : s.woken.cyc = 0 ∧ s.woken.arc = {} ∧ s.woken.queues = [] ∧ s.woken.boot = {} ∧ s.woken.runs = [] ∧
    s.woken.pwr.resetN = true ∧ s.woken.pwr.pllLocked = true ∧ s.woken.pwr.fatal = false ∧ s.woken.pwr.gatedDies = List.range 72 := by
  have h := State.cold_rest { s with pwr := { s.pwr with resetN := true } }
  unfold State.woken
  generalize State.cold { s with pwr := { s.pwr with resetN := true } } = c at h ⊢
  exact ⟨rfl, congrArg State.arc h, congrArg State.queues h, congrArg State.boot h, congrArg State.runs h,
    congrArg (fun u : State => u.pwr.resetN) h, rfl, congrArg (fun u : State => u.pwr.fatal) h, congrArg (fun u : State => u.pwr.gatedDies) h⟩

theorem State.woken_regs (s : State) : s.woken.regs = (State.cold { s with pwr := { s.pwr with resetN := true } }).regs := by
  unfold State.woken
  generalize State.cold { s with pwr := { s.pwr with resetN := true } } = c
  rfl

theorem State.reg_woken (s : State) {k : Nat} (hk : ∀ x h, x < 72 → h < 2 → k ≠ ckgHalf x h) :
    s.woken.reg k = if keptReg k = true then s.reg k else regReset k := by
  rw [State.reg_congr s.woken_regs, State.reg_cold_of_ne _ hk, State.reg_coldRegs, State.reg_with_pwr]

theorem rngPort_inj {j k : Nat} (h : rngPort j = rngPort k) : j = k := by
  unfold rngPort ringB at h
  omega

theorem fusSec_ne_rngPort {k : Nat} (hk : k < 48) : fusSec ≠ rngPort k := by
  unfold fusSec fusB rngPort ringB
  omega

theorem rngPort_ne_ckgHalf {k x h : Nat} (hk : k < 48) (hx : x < 72) (hh : h < 2) : rngPort k ≠ ckgHalf x h := by
  unfold rngPort ringB ckgHalf ckgB siteB
  omega

theorem rngPort_not_edge {k x d : Nat} (hk : k < 48) (hx : x < 72) (hd : d < 4) : rngPort k ≠ lnkB x d ∧ rngPort k ≠ lnkB x d + 8 := by
  unfold rngPort ringB lnkB siteB
  omega

theorem regReset_rngPort {k : Nat} (hk : k < 48) : regReset (rngPort k) = 0#64 := by
  unfold regReset rngPort ringB coreB siteB partB fusPartId fusRiserCol fusSec fusB mgmtB
  rw [if_neg (by omega), if_neg (by omega), if_neg (by omega), if_neg (by omega), if_neg (by omega), if_neg (by omega), if_neg (by omega),
    if_neg (by omega), if_neg (by omega)]

theorem State.reg_trainSite_rngPort (s : State) {x k : Nat} (hx : x < 72) (hk : k < 48) : (s.trainSite x).reg (rngPort k) = s.reg (rngPort k) := by
  refine foldl_leaves_of_mem (f := fun u : State => u.reg (rngPort k)) (fun u d hd => ?_) s
  obtain ⟨h0, h8⟩ := rngPort_not_edge hk hx (List.mem_range.1 hd)
  have hu : ∀ p q r, (((u.setFld (lnkB x d) 0 2 p).setFld (lnkB x d) 2 7 q).setBit (lnkB x d) 9 r).reg (rngPort k) = u.reg (rngPort k) :=
    fun p q r => by rw [State.setBit, State.reg_setFld_ne _ _ _ _ h0, State.reg_setFld_ne _ _ _ _ h0, State.reg_setFld_ne _ _ _ _ h0]
  dsimp only
  split
  · exact (State.reg_setReg_ne _ _ h8).trans (hu ..)
  · split
    · exact (State.reg_setReg_ne _ _ h8).trans (hu ..)
    · exact hu ..

/-- A port's register once the boot ROM has brought it up. -/
def portUpReg (v : W64) : W64 := putFld (putFld v 0 2 1) 6 1 1

theorem State.reg_portOn_same (s : State) (k : Nat) :
    (s.portOn k).reg (rngPort k) = if s.bit fusSec k = true then portUpReg (s.reg (rngPort k)) else s.reg (rngPort k) := by
  unfold State.portOn
  split
  · rw [State.setBit, State.reg_setFld_same, State.reg_setFld_same]
    rfl
  · rfl

theorem State.reg_portOn_ne (s : State) {j k : Nat} (h : j ≠ rngPort k) : (s.portOn k).reg j = s.reg j := by
  unfold State.portOn
  split
  · rw [State.setBit, State.reg_setFld_ne _ _ _ _ h, State.reg_setFld_ne _ _ _ _ h]
  · rfl

/-- MGR_PORTS with the register of a port, and the two after the port's turn. -/
def portPair (k : Nat) (s : State) : W64 × W64 := (s.reg fusSec, s.reg (rngPort k))
def portPairOn (k : Nat) (e : W64 × W64) : W64 × W64 := (e.1, if decide (fldOf e.1 k 1 = 1) = true then portUpReg e.2 else e.2)

theorem State.portPair_portOn_same (s : State) {k : Nat} (hk : k < 48) : portPair k (s.portOn k) = portPairOn k (portPair k s) :=
  Prod.ext (s.reg_portOn_ne (fusSec_ne_rngPort hk)) (s.reg_portOn_same k)

theorem State.portPair_portOn_ne (s : State) {j k : Nat} (hj : j < 48) (hne : j ≠ k) : portPair k (s.portOn j) = portPair k s :=
  Prod.ext (s.reg_portOn_ne (fusSec_ne_rngPort hj)) (s.reg_portOn_ne fun e => hne (rngPort_inj e).symm)

/-- The registers of the ports after step 3: those that MGR_PORTS names are up as HOST, the others stand at reset. -/
theorem State.reg_romWired_port (s : State) {k : Nat} (hk : k < 48) :
    s.romWired.reg (rngPort k) = if s.bit fusSec k = true then portUpReg (s.reg (rngPort k)) else s.reg (rngPort k) := by
  have hedges : ∀ j, (∀ (u : State) x, x < 72 → (u.trainSite x).reg j = u.reg j) →
      ((List.range 72).foldl State.trainSite s).reg j = s.reg j := fun j h =>
    foldl_leaves_of_mem (f := fun u : State => u.reg j) (F := State.trainSite) (fun u x hx => h u x (List.mem_range.1 hx)) s
  have hport := hedges (rngPort k) fun u x hx => u.reg_trainSite_rngPort hx hk
  have hfus := hedges fusSec fun u x hx => (u.trainSite_onlyRegs hx).regs _ (not_romReg_of_kept (by decide))
  have hfold := foldl_changes_once (f := portPair k) (F := State.portOn) (l := List.range 48) List.nodup_range (List.mem_range.2 hk)
    (g := portPairOn k) (fun u => u.portPair_portOn_same hk) (fun u j hj hne => u.portPair_portOn_ne (List.mem_range.1 hj) hne)
    ((List.range 72).foldl State.trainSite s)
  have hbase : portPair k ((List.range 72).foldl State.trainSite s) = portPair k s := Prod.ext hfus hport
  exact congrArg Prod.snd (hfold.trans (congrArg (portPairOn k) hbase))

theorem keptReg_rngPort {k : Nat} (hk : k < 48) : keptReg (rngPort k) = false := by
  refine Bool.eq_false_iff.2 fun h => ?_
  rw [keptReg_iff] at h
  unfold rngPort ringB fusB mgmtB at h
  omega

theorem keptReg_fuse {k : Nat} (h1 : fusB ≤ k) (h2 : k < fusB + 0x10_0000) : keptReg k = true := (keptReg_iff k).2 (.inl ⟨h1, h2⟩)

theorem kept_ne_ckgHalf {k : Nat} (h : keptReg k = true) : ∀ x h, x < 72 → h < 2 → k ≠ ckgHalf x h := fun _ _ hx hh e =>
  Bool.false_ne_true ((keptReg_ckgHalf hx hh).symm.trans (e ▸ h))

theorem State.reg_romState_kept (s : State) {k : Nat} (h : keptReg k = true) : s.romState.reg k = s.reg k := by
  rw [s.romState_onlyRegs.regs k (not_romReg_of_kept h), s.reg_woken (kept_ne_ckgHalf h), if_pos h]

theorem rngPort_ne_libBootStatus {k : Nat} (hk : k < 48) : rngPort k ≠ libBootStatus := by
  unfold rngPort ringB libBootStatus libB
  omega

theorem State.reg_romState_port (s : State) {k : Nat} (hk : k < 48) :
    s.romState.reg (rngPort k) = if s.bit fusSec k = true then portUpReg 0#64 else 0#64 := by
  have hne := rngPort_ne_libBootStatus hk
  have hfus : s.woken.bit fusSec k = s.bit fusSec k := congrArg (fun v => decide (fldOf v k 1 = 1))
    ((s.reg_woken (kept_ne_ckgHalf (by decide))).trans (if_pos (by decide)))
  have hport : s.woken.reg (rngPort k) = 0#64 :=
    (s.reg_woken fun x h hx hh => rngPort_ne_ckgHalf hk hx hh).trans
      ((if_neg (Bool.eq_false_iff.1 (keptReg_rngPort hk))).trans (regReset_rngPort hk))
  rw [State.romState, State.reg_setFld_ne _ _ _ _ hne, State.reg_setFld_ne _ _ _ _ hne, State.reg_romWired_port _ hk, hfus, hport]

theorem floorOf_le (v : W64) : floorOf v ≤ 64 := by
  unfold floorOf
  refine List.foldlRecOn (motive := fun n => n ≤ 64) _ _ (Nat.zero_le _) fun n _ i hi => ?_
  have := List.mem_range.1 ((List.mem_filter.1 hi).1)
  omega

theorem State.floor_congr {s t : State} (h : t.reg fusRollback = s.reg fusRollback) : t.floor = s.floor := by
  unfold State.floor
  rw [h]

theorem State.floor_romWired (s : State) : s.woken.romWired.floor = s.floor :=
  State.floor_congr ((s.woken.romWired_onlyRegs.regs _ (not_romReg_of_kept (by decide))).trans
    ((s.reg_woken (kept_ne_ckgHalf (by decide))).trans (if_pos (by decide))))

theorem State.romState_boot (s : State) : s.romState.bootState = 1 ∧ s.romState.fld libBootStatus 40 7 = s.floor := by
  have hf : s.floor ≤ 64 := floorOf_le _
  unfold State.romState
  rw [s.floor_romWired]
  refine ⟨?_, ?_⟩
  · rw [State.bootState, State.fld_setFld_other _ _ _ _ _ _ _ (by omega) (by omega), State.fld_setFld_same _ _ _ _ _ (by omega)] <;> rfl
  · rw [State.fld_setFld_same _ _ _ _ _ (by omega), Nat.mod_eq_of_lt (by omega)]

/-! ### Training (R448) -/

/-- The ports that are up tell what they are. -/
def State.linksUp (s : State) : State := (List.range 48).foldl (fun s k => s.linkUp k) s

theorem State.linkUp_eq_withMesh (s : State) (k : Nat) : ∃ m, s.linkUp k = { s with mesh := m } := by
  unfold State.linkUp
  split
  · exact ⟨_, rfl⟩
  · exact ⟨s.mesh, rfl⟩

theorem State.linksUp_rest (s : State) : s.linksUp.regs = s.regs ∧ s.linksUp.arc = s.arc ∧ s.linksUp.queues = s.queues := by
  have h : ∃ m, s.linksUp = { s with mesh := m } := by
    refine List.foldlRecOn (motive := fun t : State => ∃ m, t = { s with mesh := m }) _ _ ⟨s.mesh, rfl⟩ fun t ht k _ => ?_
    obtain ⟨m, rfl⟩ := ht
    obtain ⟨n, hn⟩ := ({ s with mesh := m } : State).linkUp_eq_withMesh k
    exact ⟨n, hn⟩
  obtain ⟨m, h⟩ := h
  rw [h]
  exact ⟨rfl, rfl, rfl⟩

theorem eraseDups_of_nodup {l : List Nat} (h : l.Nodup) : l.eraseDups = l := by
  induction l with
  | nil => rfl
  | cons a l ih =>
    obtain ⟨ha, hl⟩ := List.nodup_cons.1 h
    have hf : l.filter (fun b => !b == a) = l := List.filter_eq_self.2 fun b hb => by
      have hne : b ≠ a := fun e => ha (e ▸ hb)
      simp [hne]
    rw [List.eraseDups_cons, hf, ih hl]

theorem State.trainLanes_eq {s : State} {l : LinkRef} {lanes : List Nat} (hnd : lanes.Nodup) (hne : lanes ≠ [])
    (hfar : (farEnd l.site l.d).isSome = true) (hlive : s.groupLive l = true) : s.trainLanes l lanes =
      if (s.trainReport l.site (groupUnit l) sevCorrected).fld (lnkGrp l) 0 2 + lanes.length ≤ 2 then
        lanes.foldl (fun s k => s.startSpare l k) (s.trainReport l.site (groupUnit l) sevCorrected)
      else ((s.trainReport l.site (groupUnit l) sevCorrected).trainRepair l (repairBits 4 l.site l.d l.g 0 0 0 0 0)).startOut l := by
  unfold State.trainLanes
  rw [eraseDups_of_nodup hnd]
  refine if_neg ?_
  rw [List.isEmpty_eq_false_iff.2 hne, Option.isNone_eq_false_iff.2 hfar, hlive]
  exact Bool.false_ne_true

theorem State.trainFirst_nil (s : State) : s.trainFirst [] = s.linksUp := rfl
theorem State.trainFirst_port (s : State) (k : Nat) : s.trainFirst [.port k] = (s.trainPort k).linksUp := rfl
theorem State.trainFirst_lanes (s : State) (l : LinkRef) (lanes : List Nat) : s.trainFirst [.lanes l lanes] = (s.trainLanes l lanes).linksUp := rfl

theorem State.trainPort_eq {s : State} {k : Nat} {p : Prop} [Decidable p] (h : s.portUp k = true ↔ p) :
    s.trainPort k = if p then (s.trainReport (ringSite (k / 2)) k sevCorrected).portDown k 3 else s := by
  unfold State.trainPort
  exact ite_congr (propext h) (fun _ => rfl) fun _ => rfl

/-! ### The supervisor (R412) -/

theorem State.restartsNear_iff (s : State) : s.restartsNear = true ↔
    3 ≤ s.boot.restarts.length ∧ s.cyc < s.boot.restarts[s.boot.restarts.length - 3]?.getD 0 + 10 * secCycles := by
  unfold State.restartsNear
  by_cases h : 3 ≤ s.boot.restarts.length
  · rw [List.getElem?_eq_getElem (by omega)]
    simp [h]
  · rw [iff_false_right fun e => h e.1]
    split
    · simp [h]
    · exact Bool.false_ne_true

/-- A supervisor that comes back within the limit: the restart is counted, noted and reported. -/
def State.restarted (s : State) : State :=
  let u : State := ({ s with boot := { s.boot with absent := true } } : State).sat libHealth 24 8 1
  { u with boot := { u.boot with restarts := u.boot.restarts ++ [u.cyc] } }

theorem effSupervisorRestart_eq {s : State} (h3 : 3 ≤ s.bootState) (h7 : s.bootState ≠ 7) : effSupervisorRestart s =
    if Config.sha384 (imgSigned s.boot.lib) ≠ s.boot.libDigest ∨ s.restartsNear = true then
      ({ s with boot := { s.boot with absent := true } } : State).setFld libBootStatus 0 4 7
    else s.restarted.report { cls := 0x12, site := s.restarted.libSite, unit := 0, status := 0, sev := sevCorrected
                              reporter := s.restarted.libSite, aux := BitVec.ofNat 64 (s.restarted.fld libHealth 24 8) } := by
  unfold effSupervisorRestart
  exact if_neg (by omega)

theorem State.libSite_le (s : State) : s.libSite ≤ 71 := by
  unfold State.libSite
  split <;> omega

theorem libRegs_ne_errB {x : Nat} (hx : x ≤ 71) : libHealth ≠ errB x ∧ libBootStatus ≠ errB x := by
  unfold libHealth libBootStatus libB errB siteB
  omega

theorem libBootStatus_ne_libHealth : libBootStatus ≠ libHealth := by
  unfold libHealth libBootStatus
  omega

theorem State.restarted_spec (s : State) : s.restarted.boot = { s.boot with absent := true, restarts := s.boot.restarts ++ [s.cyc] } ∧
    s.restarted.arc = s.arc ∧ s.restarted.queues = s.queues ∧ s.restarted.runs = s.runs ∧
    s.restarted.fld libHealth 24 8 = min 255 (s.fld libHealth 24 8 + 1) ∧ s.restarted.bootState = s.bootState := by
  have hreg : ∀ b : Boot, ({ s with boot := b } : State).fld libHealth 24 8 = s.fld libHealth 24 8 := fun _ => rfl
  have hreg' : ∀ b : Boot, ({ s with boot := b } : State).bootState = s.bootState := fun _ => rfl
  have hsat := State.fld_sat_same { s with boot := { s.boot with absent := true } } libHealth 24 8 1 (by omega)
  have hstate := State.fld_sat_ne { s with boot := { s.boot with absent := true } } 24 8 1 0 4 libBootStatus_ne_libHealth
  obtain ⟨rs, hrs⟩ := State.sat_eq_withRegs { s with boot := { s.boot with absent := true } } libHealth 24 8 1
  unfold State.restarted
  generalize State.sat { s with boot := { s.boot with absent := true } } libHealth 24 8 1 = u at *
  rw [hrs] at hsat hstate ⊢
  exact ⟨rfl, rfl, rfl, rfl, hsat, hstate⟩

/-- Settles O56: the boot ROM's state, training, STATE READY and the supervisor. -/
theorem starts : Obligations.Starts := by
  refine ⟨fun s hr => ⟨fun hp href => ?rise, fun hoff fails hf => ?dark⟩, fun s hr => ?fall, fun s fails h5 habs hfatal hf => ?ready,
    fun s x c hlost => ?stack, fun s h3 h7 => ?supervisor, fun s => exec_of rfl rfl rfl⟩
  case rise =>
    intro up
    have heq := fun fails => effPanelResetRise_eq fails hr hp href
    obtain ⟨hcyc, harc, hqueues, hboot, hruns, hreset, hpll, hfatal, hgated⟩ := s.woken_rest
    have hrom := s.romState_onlyRegs
    have hrest : s.romState.cyc = s.woken.cyc ∧ s.romState.boot = s.woken.boot :=
      ⟨hrom.cyc, hrom.boot⟩
    obtain ⟨hstate, hfloor⟩ := s.romState_boot
    have hports := fun k hk => s.reg_romState_port (k := k) hk
    have hkept := fun k hk => s.reg_romState_kept (k := k) hk
    have hromarc := hrom.arc
    have hromqueues := hrom.queues
    have hromruns := hrom.runs
    have hrompwr := hrom.pwr
    generalize s.romState = t at *
    have hup : ∀ k, k < 48 → (t.portUp k = true ↔ s.bit fusSec k = true) := fun k hk => by
      have he : t.portUp k = decide (fldOf (if s.bit fusSec k = true then portUpReg 0#64 else 0#64) 6 1 = 1) :=
        congrArg (fun v => decide (fldOf v 6 1 = 1)) (hports k hk)
      rw [he]
      by_cases hb : s.bit fusSec k = true
      · rw [if_pos hb]
        exact iff_of_true (by decide) hb
      · rw [if_neg hb]
        exact iff_of_false (by decide) hb
    refine ⟨t, exec_of rfl rfl ((heq []).trans t.trainFirst_nil), fun u => u.linksUp_rest, hstate, hrest.1.trans hcyc, hromarc.trans harc, hromqueues.trans hqueues,
      hrest.2.trans hboot, hromruns.trans hruns, by rw [hrompwr, hreset], by rw [hrompwr, hpll], by rw [hrompwr, hfatal],
      by rw [hrompwr, hgated], hfloor, hkept, fun k hk => ⟨hup k hk, fun hb => ?_⟩, fun fails hf => exec_of rfl hf (heq fails), fun k hk => ?_,
      fun l lanes hl hlanes hnd hne hfar hlive => ?_⟩
    · have he : t.fld (rngPort k) 0 2 = fldOf (if s.bit fusSec k = true then portUpReg 0#64 else 0#64) 0 2 :=
        congrArg (fun v => fldOf v 0 2) (hports k hk)
      rw [if_pos hb] at he
      exact he.trans (by decide)
    · have hok : [StartFail.port k].all StartFail.ok = true := by simp [StartFail.ok, Config.ports, hk]
      exact exec_of rfl hok (by rw [heq, State.trainFirst_port, State.trainPort_eq (hup k hk)]; rfl)
    · intro u
      have hok : [StartFail.lanes l lanes].all StartFail.ok = true := by simpa [StartFail.ok, hl] using hlanes
      have htrain : t.trainLanes l lanes = _ := State.trainLanes_eq hnd hne hfar hlive
      have hfirst := heq [.lanes l lanes]
      rw [State.trainFirst_lanes, htrain] at hfirst
      refine ⟨fun h => exec_of rfl hok (hfirst.trans (congrArg State.linksUp (if_pos ?_))), fun h => exec_of rfl hok (hfirst.trans
        (congrArg State.linksUp (if_neg ?_)))⟩
      · exact Nat.le_trans (Nat.le_of_eq (Nat.add_comm ..)) h
      · exact fun e => absurd (Nat.le_trans (Nat.le_of_eq (Nat.add_comm ..)) e) (Nat.not_le.2 h)
  case dark => exact exec_of rfl hf (effPanelResetRise_off fails hr hoff)
  case fall =>
    refine exec_of rfl rfl ?_
    unfold effPanelResetFall
    exact if_neg (by rw [hr]; exact Bool.false_ne_true)
  case ready =>
    intro t w d
    have hgo : ¬(s.bootState ≠ 5 || s.boot.absent || s.pwr.fatal) = true := by
      rw [habs, hfatal, h5]
      exact Bool.false_ne_true
    have heq : effStartReady fails s = if w.pwr.fatal = true then w
        else ((((((d.1.buildMap (disabledSites t ++ d.2 ++ failedDies fails)).reportDies fails).startCores).applyCal t).applyLedger t).applyParts
          t).setFld libBootStatus 0 4 6 := by
      unfold effStartReady
      exact if_neg hgo
    refine ⟨fun h => exec_of rfl hf (heq.trans (if_pos h)), fun h => ⟨_, exec_of rfl hf (heq.trans (if_neg (Bool.eq_false_iff.1 h))), ?_, rfl⟩⟩
    rw [State.bootState, State.fld_setFld_same _ _ _ _ _ (by omega)] <;> rfl
  case stack => exact if_neg (Bool.eq_false_iff.1 hlost)
  case supervisor =>
    intro u n fourth
    have hnear : s.restartsNear = true ↔ fourth := s.restartsNear_iff
    have heq := effSupervisorRestart_eq h3 h7
    refine ⟨fun h => exec_of rfl rfl (heq.trans (if_pos (h.imp_right hnear.2))), fun hd hn => ?_, fun habs => exec_of rfl rfl ?_⟩
    · rw [if_neg (not_or.2 ⟨not_not_intro hd, fun e => hn (hnear.1 e)⟩)] at heq
      obtain ⟨hboot, harc, hqueues, hruns, hhealth, hstate⟩ := s.restarted_spec
      refine ⟨_, exec_of rfl rfl heq, ?_⟩
      obtain ⟨hne1, hne2⟩ := libRegs_ne_errB s.restarted.libSite_le
      generalize s.restarted = v at *
      generalize hrep : ({ cls := 0x12, site := v.libSite, unit := 0, status := 0, sev := sevCorrected, reporter := v.libSite
                           aux := BitVec.ofNat 64 (v.fld libHealth 24 8) } : Report) = r
      have hreporter : r.reporter = v.libSite := by rw [← hrep]
      rw [← hreporter] at hne1 hne2
      have hrest := v.report_rest r
      refine ⟨(congrArg State.boot hrest :).trans hboot, (congrArg State.arc hrest :).trans harc, (congrArg State.queues hrest :).trans hqueues,
        (congrArg State.runs hrest :).trans hruns, ?_, ?_⟩
      · exact (congrArg (fun v => fldOf v 24 8) (v.reg_report_ne r hne1)).trans hhealth
      · exact (congrArg (fun v => fldOf v 0 4) (v.reg_report_ne r hne2)).trans hstate
    · have hgo : ¬(!s.boot.absent || decide (s.bootState < 3) || decide (s.bootState = 7)) = true := by
        rw [habs, decide_eq_false (by omega : ¬s.bootState < 3), decide_eq_false h7]
        exact Bool.false_ne_true
      unfold effLibRestartDone
      exact if_neg hgo

end Sys2Proof.Machine

/-!
PROOFS. What the mailbox does with a command that the Librarian takes, and the panel and partition commands
(15_partitions, 16_mould_and_start).
-/

namespace Sys2Proof.Machine

theorem nbits_eq (n lo w : Nat) : nbits n lo w = n / 2 ^ lo % 2 ^ w := by rw [nbits, Nat.shiftRight_eq_div_pow]

section
variable {s u v : State} {slot code n res data : Nat} {c : Instr} {f : State → Nat → State × Option (Nat × Nat)}

theorem Takes.mbNext (h : Takes s slot code n u) : (s.mbNext slot fun m => s.mbCode m = code && s.mbRsvOk m) = some n := by
  unfold State.mbNext
  rw [h.works, h.posted]
  simp [h.idle, h.mayTake, h.codeOf, h.rsv]

/-- A command that is taken and ends at once. -/
theorem Takes.done (h : Takes s slot code n u) (hc : exec c s = carryOut (slotOk slot) (s.mbRun slot code f))
    (hf : f u n = (v, some (res, data))) : exec c s = .next (v.mbDone n res data) := by
  refine exec_of hc (decide_eq_true h.inRange) ?_
  unfold State.mbRun
  rw [h.mbNext]
  dsimp only
  rw [← h.taken, hf]

/-- A command that is taken and goes on. -/
theorem Takes.goesOn (h : Takes s slot code n u) (hc : exec c s = carryOut (slotOk slot) (s.mbRun slot code f))
    (hf : f u n = (v, none)) : exec c s = .next v := by
  refine exec_of hc (decide_eq_true h.inRange) ?_
  unfold State.mbRun
  rw [h.mbNext]
  dsimp only
  rw [← h.taken, hf]

end

/-! ### Panel commands (R410) -/

theorem State.maskFabric_iff (s : State) (ports : Nat) :
    s.maskFabric ports = true ↔ ∀ k, k < 48 → nbit ports k = true → s.fld (rngPort k) 0 2 = 2 := by
  simp only [State.maskFabric, List.all_eq_true, List.mem_range, State.isFabric, Bool.or_eq_true, Bool.not_eq_true', decide_eq_true_eq]
  refine forall₂_congr fun k _ => ?_
  cases nbit ports k <;> simp

theorem libMbTailWrite_spec (s : State) (v : W64) : let n := wsub (v.toNat % 2 ^ 32) (s.fld libMbDone 0 32)
    (256 < n → SetsRegs (.libMbTailWrite v) s [(libHealth, putFld (s.reg libHealth) 32 16 (min 0xFFFF (s.fld libHealth 32 16 + 1)))]) ∧
    (n ≤ 256 → exec (.libMbTailWrite v) s = .next (s.setFld libMbTail 0 32 (v.toNat % 2 ^ 32)).shed) := by
  rw [← fldOf_zero_eq]
  refine ⟨fun h => ⟨s.sat libHealth 32 16 1, exec_of rfl rfl (if_pos h), rfl, ?_, ?_⟩, fun h => exec_of rfl rfl (if_neg (Nat.not_lt.2 h))⟩
  · intro e he
    cases List.mem_singleton.1 he
    exact s.reg_setReg_same _ _
  · intro k hk
    exact s.reg_setReg_ne _ fun e => hk (List.mem_singleton.2 e)

theorem mailboxBadCode_spec {s : State} {slot n : Nat} (hs : slot < 256) (hw : s.libWorks = true) (hat : s.mbAt slot = some n)
    (hb : s.mbBusy n = false) (hf : s.mbFree n = true) (hc : s.mbCode n ∉ mbCodes ∨ s.mbRsvOk n = false) :
    exec (.mailboxBadCode slot) s = .next ((s.mbTake n).mbDone n 4 0) := by
  have hok : (!mbCodes.contains (s.mbCode n) || !s.mbRsvOk n) = true := by
    rcases hc with h | h <;> simp [h]
  have hn : (s.mbNext slot fun m => !mbCodes.contains (s.mbCode m) || !s.mbRsvOk m) = some n := by
    unfold State.mbNext
    rw [hw, hat]
    simp only [hb, hf, hok]
    rfl
  refine exec_of rfl (decide_eq_true hs) ?_
  unfold effMailboxBadCode
  rw [hn]
  rfl

/-- Settles O53: each command's row, through `Takes.done`. -/
theorem panelCommands : Obligations.PanelCommands := by
  unfold Obligations.PanelCommands
  refine ⟨libMbTailWrite_spec, fun s slot n => mailboxBadCode_spec, fun s u slot n => ⟨fun h => h.done rfl rfl, ?_, fun h => h.done rfl rfl, ?_, ?_⟩⟩
  case _ =>
    intro h a
    refine ⟨fun hbad => h.done rfl (if_pos hbad), fun h1 h2 h3 => ?_⟩
    have hgood : ¬(64 < a ∨ u.libSvn < a ∨ u.mouldSvn < a) := by omega
    by_cases hfl : a ≤ u.floor
    · rw [if_pos hfl]
      exact h.done rfl ((if_neg hgood).trans (if_pos hfl))
    · rw [if_neg hfl]
      exact h.done rfl ((if_neg hgood).trans (if_neg hfl))
  case _ =>
    intro h dev ports ok
    have hiff : ok ↔ ¬(dev = 0xFFFF ∨ u.maskFabric ports = false) := by
      rw [not_or, Bool.not_eq_false, State.maskFabric_iff]
    refine ⟨fun ho => h.done rfl (if_neg (hiff.1 ho)), fun ho => h.done rfl (if_pos ?_)⟩
    exact Classical.not_not.1 (mt hiff.2 ho)
  case _ =>
    intro h e
    by_cases he : e < 2 ^ 45
    · rw [if_pos he]
      exact h.done rfl (if_neg (Nat.not_le.2 he))
    · rw [if_neg he]
      exact h.done rfl (if_pos (Nat.not_lt.1 he))

/-! ### The partition commands that give and set (R385) -/

section
variable {s u : State} {slot n : Nat}

theorem partCreate_spec (h : Takes s slot 0x100 n u) :
    let p := u.mbArg n 0 % 16
    let host := u.mbArg n 0 / 16 % 8
    (u.partState p ≠ 0 → exec (.partCreate slot) s = .next (u.mbDone n 2 0)) ∧
    (u.partState p = 0 → u.fld fusSec 48 5 ≤ p ∨ u.sitesFree (u.argSites n) = false ∨ u.hostPort host = none →
      exec (.partCreate slot) s = .next (u.mbDone n 1 0)) ∧
    (u.partState p = 0 → p < u.fld fusSec 48 5 → u.sitesFree (u.argSites n) = true → (u.hostPort host).isSome = true →
      exec (.partCreate slot) s = .next ((u.createPart p host (u.argSites n)).mbDone n 0 0)) := by
  intro p host
  have hh : nbits (u.mbArg n 0) 4 3 = host := nbits_eq ..
  clear_value host
  subst hh
  refine ⟨fun h1 => h.done rfl (if_pos h1), fun h1 h2 => h.done rfl ((if_neg (not_not_intro h1)).trans (if_pos ?_)),
    fun h1 h2 h3 h4 => h.done rfl ((if_neg (not_not_intro h1)).trans (if_neg ?_))⟩
  · have h2' : u.fld fusSec 48 5 ≤ u.mbArg n 0 % 16 ∨ u.sitesFree (u.argSites n) = false ∨ u.hostPort (nbits (u.mbArg n 0) 4 3) = none := h2
    rcases h2' with h2 | h2 | h2 <;> simp [h2]
  · simpa [h3] using ⟨h2, Option.isSome_iff_ne_none.1 h4⟩

theorem partGrow_spec (h : Takes s slot 0x101 n u) :
    let p := u.mbArg n 0 % 16
    (u.partState p ≠ 1 → exec (.partGrow slot) s = .next (u.mbDone n 2 0)) ∧
    (u.partState p = 1 → u.sitesFree (u.argSites n) = false → exec (.partGrow slot) s = .next (u.mbDone n 1 0)) ∧
    (u.partState p = 1 → u.sitesFree (u.argSites n) = true → exec (.partGrow slot) s = .next ((u.giveSites p (u.argSites n)).mbDone n 0 0)) :=
  ⟨fun h1 => h.done rfl (if_pos h1), fun h1 h2 => h.done rfl ((if_neg (not_not_intro h1)).trans (if_pos (by rw [h2]; rfl))),
    fun h1 h2 => h.done rfl ((if_neg (not_not_intro h1)).trans (if_neg (by rw [h2]; simp)))⟩

theorem partSetHost_spec (h : Takes s slot 0x102 n u) :
    let p := u.mbArg n 0 % 16
    let host := u.mbArg n 0 / 16 % 8
    (u.partState p = 0 → exec (.partSetHost slot) s = .next (u.mbDone n 2 0)) ∧
    (u.partState p ≠ 0 → u.hostPort host = none → exec (.partSetHost slot) s = .next (u.mbDone n 1 0)) ∧
    (u.partState p ≠ 0 → (u.hostPort host).isSome = true →
      exec (.partSetHost slot) s = .next ((u.setFld (libPartState p) 4 3 host).mbDone n 0 0)) := by
  intro p host
  have hh : nbits (u.mbArg n 0) 4 3 = host := nbits_eq ..
  clear_value host
  subst hh
  exact ⟨fun h1 => h.done rfl (if_pos h1), fun h1 h2 => h.done rfl ((if_neg h1).trans (if_pos (by rw [h2]; rfl))),
    fun h1 h2 => h.done rfl ((if_neg h1).trans (if_neg (by simpa using Option.isSome_iff_ne_none.1 h2)))⟩

theorem frameAssign_spec (h : Takes s slot 0x108 n u) :
    let p := u.mbArg n 0 % 16
    let pa := u.mbArg n 1
    let count := u.mbArg n 2
    let tag := u.mbArg n 3
    let frames := (List.range count).map fun i => ((pa / 0x20_0000 + i) / 65536, (pa / 0x20_0000 + i) % 65536)
    let ok := count ≠ 0 ∧ pa % 0x20_0000 = 0 ∧ pa + count * 0x20_0000 ≤ 0x0900_0000_0000 ∧ tag % 4 ≠ 0 ∧ tag / 4 % 16 = p ∧ tag < 2 ^ 26 ∧
      ∀ f ∈ frames, u.fld (arcFrame f.1 f.2) 0 2 = 0 ∧ u.ownsSite p f.1 = true
    (u.partState p ≠ 1 → exec (.frameAssign slot) s = .next (u.mbDone n 2 0)) ∧
    (u.partState p = 1 → ¬ok → exec (.frameAssign slot) s = .next (u.mbDone n 1 0)) ∧
    (u.partState p = 1 → ok → exec (.frameAssign slot) s = .next (((frames.foldl (fun s f => s.setFrame f.1 f.2 (BitVec.ofNat 64 tag)) u).bump
      (libPartState p) 32 32 count).mbDone n 0 0)) := by
  intro p pa count tag frames ok
  have hiff : ok ↔ ¬(count = 0 ∨ pa % 0x20_0000 ≠ 0 ∨ 0x0900_0000_0000 < pa + count * 0x20_0000 ∨ tag % 4 = 0 ∨ nbits tag 2 4 ≠ p ∨ 2 ^ 26 ≤ tag) ∧
      ¬(frames.any fun f => u.fld (arcFrame f.1 f.2) 0 2 ≠ 0 || !u.ownsSite p f.1) = true := by
    rw [nbits_eq]
    simp only [ok, not_or, Classical.not_not, Nat.not_lt, Nat.not_le, List.any_eq_true, not_exists, not_and, Bool.or_eq_true, decide_eq_true_eq,
      Bool.not_eq_true', Bool.not_eq_false, and_assoc, ne_eq] <;> rfl
  refine ⟨fun h1 => h.done rfl (if_pos h1), fun h1 h2 => ?_, fun h1 h2 => ?_⟩
  · by_cases hf : count = 0 ∨ pa % 0x20_0000 ≠ 0 ∨ 0x0900_0000_0000 < pa + count * 0x20_0000 ∨ tag % 4 = 0 ∨ nbits tag 2 4 ≠ p ∨ 2 ^ 26 ≤ tag
    · exact h.done rfl ((if_neg (not_not_intro h1)).trans (if_pos hf))
    · exact h.done rfl ((if_neg (not_not_intro h1)).trans ((if_neg hf).trans (if_pos (Classical.not_not.1 fun hn => h2 (hiff.2 ⟨hf, hn⟩)))))
  · obtain ⟨ha, hb⟩ := hiff.1 h2
    exact h.done rfl ((if_neg (not_not_intro h1)).trans ((if_neg ha).trans (if_neg hb)))

theorem State.mbArg_congr {s t : State} (h : t.boot = s.boot) (n i : Nat) : t.mbArg n i = s.mbArg n i := by
  unfold State.mbArg State.mbxNum State.mbxRd
  rw [h]

theorem State.mbArg_setRegulator (s : State) (x c p rate burst n i : Nat) : (s.setRegulator x c p rate burst).mbArg n i = s.mbArg n i :=
  State.mbArg_congr ((State.setFld_boot ..).trans (State.setFld_boot ..)) n i

/-- Setting regulators leaves the slot of a command as it stands, so each takes the burst that the slot held at first. -/
theorem State.setRegulators_eq (u : State) (x p rate n : Nat) (cs : List Nat) :
    cs.foldl (fun s c => s.setRegulator x c p rate (nbits (s.mbArg n 2) 16 16)) u =
      cs.foldl (fun s c => s.setRegulator x c p rate (nbits (u.mbArg n 2) 16 16)) u := by
  have hgen : ∀ v : State, v.mbArg n 2 = u.mbArg n 2 →
      cs.foldl (fun s c => s.setRegulator x c p rate (nbits (s.mbArg n 2) 16 16)) v =
        cs.foldl (fun s c => s.setRegulator x c p rate (nbits (u.mbArg n 2) 16 16)) v := by
    induction cs with
    | nil => intro v _; rw [List.foldl_nil, List.foldl_nil]
    | cons c cs ih =>
      intro v hv
      rw [List.foldl_cons, List.foldl_cons, hv]
      exact ih _ ((State.mbArg_setRegulator ..).trans hv)
  exact hgen u rfl

theorem partRegulate_spec (h : Takes s slot 0x110 n u) :
    let p := u.mbArg n 0 % 16
    let x := u.mbArg n 1 % 128
    let cs := (List.range 2).filter fun c => nbit (u.mbArg n 1) (8 + c)
    let rate := u.mbArg n 2 % 512
    (u.partState p ≠ 1 → exec (.partRegulate slot) s = .next (u.mbDone n 2 0)) ∧
    (u.partState p = 1 → 72 ≤ x ∨ u.ownsSite p x = false → exec (.partRegulate slot) s = .next (u.mbDone n 1 0)) ∧
    (u.partState p = 1 → x < 72 → u.ownsSite p x = true →
      ((∃ c ∈ cs, 256 < u.rateSum x c p rate) → exec (.partRegulate slot) s = .next (u.mbDone n 3 0)) ∧
      ((∀ c ∈ cs, u.rateSum x c p rate ≤ 256) → exec (.partRegulate slot) s = .next ((cs.foldl (fun s c =>
        (s.setFld (hbmReg x c p) 0 9 rate).setFld (hbmReg x c p) 16 16 (u.mbArg n 2 / 2 ^ 16 % 2 ^ 16)) u).mbDone n 0 0))) := by
  intro p x cs rate
  rw [← nbits_eq]
  have hx : nbits (u.mbArg n 1) 0 7 = x := by rw [nbits_eq, Nat.pow_zero, Nat.div_one] <;> rfl
  have hr : nbits (u.mbArg n 2) 0 9 = rate := by rw [nbits_eq, Nat.pow_zero, Nat.div_one] <;> rfl
  clear_value x rate
  subst hx hr
  refine ⟨fun h1 => h.done rfl (if_pos h1), fun h1 h2 => h.done rfl ((if_neg (not_not_intro h1)).trans (if_pos ?_)), fun h1 h2 h3 => ?_⟩
  · rcases h2 with h2 | h2
    · rw [decide_eq_true h2, Bool.true_or]
    · rw [h2, Bool.not_false, Bool.or_true]
  have hneg : ¬(decide (72 ≤ nbits (u.mbArg n 1) 0 7) || !u.ownsSite p (nbits (u.mbArg n 1) 0 7)) = true := by
    simp [h3, Nat.not_le.2 h2]
  refine ⟨fun h4 => h.done rfl ((if_neg (not_not_intro h1)).trans ((if_neg hneg).trans (if_pos ?_))),
    fun h4 => ?_⟩
  · simpa only [List.any_eq_true, decide_eq_true_eq] using h4
  · have hno : ¬(cs.any fun c => decide (256 < u.rateSum (nbits (u.mbArg n 1) 0 7) c p (nbits (u.mbArg n 2) 0 9))) = true := by
      simpa only [List.any_eq_true, decide_eq_true_eq, not_exists, not_and, Nat.not_lt] using h4
    refine h.done (v := cs.foldl (fun s c => s.setRegulator (nbits (u.mbArg n 1) 0 7) c p (nbits (u.mbArg n 2) 0 9)
      (nbits (u.mbArg n 2) 16 16)) u) rfl ?_
    refine (if_neg (not_not_intro h1)).trans ?_
    refine (if_neg hneg).trans ?_
    exact (if_neg hno).trans (congrArg (·, some (0, 0)) (State.setRegulators_eq ..))

end

end Sys2Proof.Machine

/-!
PROOFS. Stage-2 invalidations, quiesce and release of a partition (15_partitions R387-R391).
-/

namespace Sys2Proof.Machine

theorem tget_eq_or_mem {α : Type} (d : α) (t : List (Nat × α)) (k : Nat) : tget d t k = d ∨ ∃ e ∈ t, e.2 = tget d t k := by
  induction t with
  | nil => exact .inl rfl
  | cons e t ih =>
    obtain ⟨k', v⟩ := e
    by_cases h : k' = k
    · exact .inr ⟨(k', v), List.mem_cons_self, (if_pos h).symm⟩
    · rw [tget, if_neg h]
      exact ih.imp_right fun ⟨e, he, hv⟩ => ⟨e, List.mem_cons_of_mem _ he, hv⟩

theorem State.flush_of_idle {s : State} {n : Nat} (h : s.mbBusy n = false) (p : Nat) : (s.part p).flush ≠ some n := by
  intro hf
  rcases tget_eq_or_mem {} s.parts p with h0 | ⟨e, he, hv⟩
  · rw [State.part, h0] at hf
    cases hf
  · rw [State.mbBusy, List.any_eq_false] at h
    have hn := h e he
    rw [hv] at hn
    have hf' : (tget {} s.parts p : PartX).flush = some n := hf
    simp [hf'] at hn

section
variable {s u : State} {slot n code : Nat}

theorem State.s2Check_of_other (hat : s.mbAt slot = some n)
    (h : ∀ m, s.mbAt slot = some m → ∀ j, (s.part (s.mbArg m 0 % 16)).s2 ≠ some j) : s.s2Check slot code = s := by
  have hs2 : (s.part (s.mbArg n 0 % 16)).s2 = none := Option.eq_none_iff_forall_ne_some.2 (h n hat)
  unfold State.s2Check
  rw [hat]
  dsimp only
  by_cases hc : (decide (s.mbCode n ≠ code) || !s.libWorks) = true
  · exact if_pos hc
  rw [if_neg hc]
  cases hp : s.mbPart n with
  | none => rfl
  | some p =>
    have hpn : p = s.mbArg n 0 % 16 := by
      rw [State.mbPart] at hp
      obtain ⟨-, he⟩ := Option.ite_none_right_eq_some.1 hp
      exact (Option.some.inj he).symm
    dsimp only
    rw [hpn, hs2]

theorem State.flushCheck_of_idle (h : s.mbBusy n = false) (hat : s.mbAt slot = some n) : s.flushCheck slot = s := by
  unfold State.flushCheck
  rw [hat]
  refine if_neg ?_
  rw [decide_eq_false (State.flush_of_idle h _), Bool.and_false, Bool.false_and]
  exact Bool.false_ne_true

/-- An invalidation of stage 2 by a mailbox command, written as the statement has it. -/
theorem State.s2Inval_eq (u : State) (n p : Nat) :
    u.s2Inval n p = if (u.invalidate { part := p, cid := none, range := none, stage2 := true }).2 = [] then
      ((u.invalidate { part := p, cid := none, range := none, stage2 := true }).1, some (0, 0))
    else ((u.invalidate { part := p, cid := none, range := none, stage2 := true }).1.setPart p
      { (u.invalidate { part := p, cid := none, range := none, stage2 := true }).1.part p with
        s2 := some (n, (u.invalidate { part := p, cid := none, range := none, stage2 := true }).2) }, none) := by
  unfold State.s2Inval
  extract_lets x
  by_cases hx : x.2 = []
  · rw [if_pos hx]
    exact if_pos (List.isEmpty_iff.2 hx)
  · rw [if_neg hx]
    exact if_neg (mt List.isEmpty_iff.1 hx)

theorem Takes.s2 {c : Instr} {f : State → Nat → State × Option (Nat × Nat)} {v : State} {p : Nat} (h : Takes s slot code n u)
    (hc : exec c s = carryOut (slotOk slot) (s.mbRun slot code f)) (hf : f u n = v.s2Inval n p) :
    let r := v.invalidate { part := p, cid := none, range := none, stage2 := true }
    exec c s = .next (if r.2 = [] then r.1.mbDone n 0 0 else r.1.setPart p { r.1.part p with s2 := some (n, r.2) }) := by
  intro r
  rw [State.s2Inval_eq] at hf
  by_cases hr : r.2 = []
  · rw [if_pos hr] at hf ⊢
    exact h.done hc hf
  · rw [if_neg hr] at hf ⊢
    exact h.goesOn hc hf

theorem s2RootSet_spec (h : Takes s slot 0x30 n u)
    (hs : ∀ m, s.mbAt slot = some m → ∀ j, (s.part (s.mbArg m 0 % 16)).s2 ≠ some j) :
    let p := u.mbArg n 0 % 16
    let pa := u.mbArg n 1 / 2 ^ 16 % 2 ^ 30 * 65536
    (u.partState p ≠ 1 → exec (.s2RootSet slot) s = .next (u.mbDone n 2 0)) ∧
    (u.partState p = 1 → isHbm pa = false ∨ u.frameS2 (homeOf pa) pa p = false → exec (.s2RootSet slot) s = .next (u.mbDone n 1 0)) ∧
    (u.partState p = 1 → isHbm pa = true → u.frameS2 (homeOf pa) pa p = true →
      let r := (u.setFld (coreS2Root p) 16 30 (pa / 65536)).invalidate { part := p, cid := none, range := none, stage2 := true }
      exec (.s2RootSet slot) s = .next (if r.2 = [] then r.1.mbDone n 0 0 else r.1.setPart p { r.1.part p with s2 := some (n, r.2) })) := by
  rw [← nbits_eq]
  intro p pa
  have hc : exec (.s2RootSet slot) s = carryOut (slotOk slot) ((s.s2Check slot 0x30).mbRun slot 0x30 fun s n =>
    let p := s.mbArg n 0 % 16
    let pa := nbits (s.mbArg n 1) 16 30 * 65536
    if s.partState p ≠ 1 then (s, some (mbBadState, 0))
    else if !isHbm pa || !s.frameS2 (homeOf pa) pa p then (s, some (mbBadArg, 0))
    else (s.setFld (coreS2Root p) 16 30 (pa / 65536)).s2Inval n p) := rfl
  rw [State.s2Check_of_other h.posted hs] at hc
  refine ⟨fun h1 => h.done hc (if_pos h1), fun h1 h2 => h.done hc ((if_neg (not_not_intro h1)).trans (if_pos ?_)),
    fun h1 h2 h3 => h.s2 hc ((if_neg (not_not_intro h1)).trans (if_neg ?_))⟩
  · rcases h2 with h2 | h2
    · rw [h2, Bool.not_false, Bool.true_or]
    · rw [h2, Bool.not_false, Bool.or_true]
  · rw [h2, h3]
    exact Bool.false_ne_true

theorem s2Invalidate_spec (h : Takes s slot 0x31 n u)
    (hs : ∀ m, s.mbAt slot = some m → ∀ j, (s.part (s.mbArg m 0 % 16)).s2 ≠ some j) :
    let p := u.mbArg n 0 % 16
    (u.partState p = 0 → exec (.s2Invalidate slot) s = .next (u.mbDone n 2 0)) ∧
    (u.partState p ≠ 0 →
      let r := u.invalidate { part := p, cid := none, range := none, stage2 := true }
      exec (.s2Invalidate slot) s = .next (if r.2 = [] then r.1.mbDone n 0 0 else r.1.setPart p { r.1.part p with s2 := some (n, r.2) })) := by
  intro p
  have hc : exec (.s2Invalidate slot) s = carryOut (slotOk slot) ((s.s2Check slot 0x31).mbRun slot 0x31 fun s n =>
    let p := s.mbArg n 0 % 16
    if s.partState p = 0 then (s, some (mbBadState, 0)) else s.s2Inval n p) := rfl
  rw [State.s2Check_of_other h.posted hs] at hc
  exact ⟨fun h1 => h.done hc (if_pos h1), fun h1 => h.s2 hc (if_neg h1)⟩

theorem partStop_spec (h : Takes s slot 0x118 n u) :
    let p := u.mbArg n 0 % 16
    (u.partState p ≠ 1 → exec (.partStop slot) s = .next (u.mbDone n 2 0)) ∧
    (u.partState p = 1 → exec (.partStop slot) s = .next ((u.setFld (libPartState p) 0 3 2).mbDone n 0 0)) :=
  ⟨fun h1 => h.done rfl (if_pos h1), fun h1 => h.done rfl (if_neg (not_not_intro h1))⟩

theorem partDrain_spec (h : Takes s slot 0x119 n u) :
    let p := u.mbArg n 0 % 16
    (u.partState p ≠ 2 → exec (.partDrain slot) s = .next (u.mbDone n 2 0)) ∧
    (u.partState p = 2 →
      let v := u.setPart p { u.part p with drain := some n, kill := false }
      exec (.partDrain slot) s = .next (if nbit (v.mbArg n 1) 0 = true then v.drainKill p else v)) :=
  ⟨fun h1 => h.done rfl (if_pos h1), fun h1 => h.goesOn rfl (if_neg (not_not_intro h1))⟩

theorem partFlush_spec (h : Takes s slot 0x11A n u) :
    let p := u.mbArg n 0 % 16
    (u.partState p ≠ 3 → exec (.partFlush slot) s = .next (u.mbDone n 2 0)) ∧
    (u.partState p = 3 →
      let v := u.flushPart p
      exec (.partFlush slot) s = .next (if v.partWritesBack p = true then v.setPart p { v.part p with flush := some n }
        else (v.setFld (libPartState p) 0 3 4).mbDone n 0 0)) := by
  intro p
  have hc : exec (.partFlush slot) s = carryOut (slotOk slot) ((s.flushCheck slot).mbRun slot 0x11A fun s n =>
    let p := s.mbArg n 0 % 16
    if s.partState p ≠ 3 then (s, some (mbBadState, 0))
    else
      let s := s.flushPart p
      if s.partWritesBack p then (s.setPart p { s.part p with flush := some n }, none)
      else (s.setFld (libPartState p) 0 3 4, some (mbOk, 0))) := rfl
  rw [State.flushCheck_of_idle h.idle h.posted] at hc
  refine ⟨fun h1 => h.done hc (if_pos h1), fun h1 => ?_⟩
  intro v
  by_cases hv : v.partWritesBack p = true
  · rw [if_pos hv]
    exact h.goesOn hc ((if_neg (not_not_intro h1)).trans (if_pos hv))
  · rw [if_neg hv]
    exact h.done hc ((if_neg (not_not_intro h1)).trans (if_neg hv))

theorem partResume_spec (h : Takes s slot 0x11C n u) :
    let p := u.mbArg n 0 % 16
    let st := u.partState p
    (u.partFatal p = false → st = 2 ∨ st = 3 ∨ st = 4 →
      exec (.partResume slot) s = .next ((u.setFld (libPartState p) 0 3 1).mbDone n 0 0)) ∧
    (u.partFatal p = true ∨ (st ≠ 2 ∧ st ≠ 3 ∧ st ≠ 4) → exec (.partResume slot) s = .next (u.mbDone n 2 0)) := by
  refine ⟨fun h1 h2 => h.done rfl (if_pos ⟨h2, h1⟩), fun h1 => h.done rfl (if_neg ?_)⟩
  rintro ⟨h2, h3⟩
  rcases h1 with h1 | ⟨ha, hb, hd⟩
  · exact Bool.false_ne_true (h3.symm.trans h1)
  · rcases h2 with h2 | h2 | h2
    · exact ha h2
    · exact hb h2
    · exact hd h2

/-- What the drain of a partition and its scrub do when their events come. -/
theorem partEvents_spec {p : Nat} (hp : p < 16) (hw : s.libWorks = true) :
    ((s.part p).drain = some n →
      ((s.part p).kill = false → exec (.partDrainTimeout p) s = .next (s.drainKill p)) ∧
      (s.drained p = true → exec (.partDrained p) s =
        .next (((s.setPart p { s.part p with drain := none, kill := false }).setFld (libPartState p) 0 3 3).mbDone n 0 0))) ∧
    ((s.part p).release = some n → exec (.partScrubDone p) s =
      .next (((((s.scrubFrames (s.part p).freed).setPart p { s.part p with release := none, freed := [] }).setFld (libPartState p) 0 16 0).setReg
        (libPartSites p) 0#64).mbDone n 0 0)) := by
  have hok : decide (p < Config.partitions) = true := decide_eq_true hp
  refine ⟨fun hd => ⟨fun hk => exec_of rfl hok (if_pos ?_), fun hdr => exec_of rfl hok ?_⟩, fun hr => exec_of rfl hok ?_⟩
  · rw [hd, hk, hw]
    rfl
  · unfold effPartDrained
    rw [hd]
    exact if_pos (by rw [hdr, hw]; rfl)
  · unfold effPartScrubDone
    rw [hr]
    exact if_neg (by rw [hw]; exact Bool.false_ne_true)

end

end Sys2Proof.Machine

/-!
PROOFS. PART_RELEASE (R390) and the partition commands of the mailbox (15_partitions).
-/

namespace Sys2Proof.Machine

/-- A queue returns to its reset values, with the mode that the mould gives it. -/
def State.freshQueue (s : State) (q : QRef) : State := (s.setQ q {}).setMode q

/-- A core of a partition that is released: it enters MAINT, its local store and its queues return to reset. -/
def State.freeCore (s : State) (c : Nat) : State :=
  let s := (s.setBit (texB c) 15 true).setCoreX c { s.coreX c with maintWanted := false, inWindow := false }
  let ix := s.coreSlotIx c
  (s.withArc fun a => { a with ls := a.ls.filter fun e => e.1 / 0x200_0000 ≠ ix }).resetQueues c

/-- A frame, named by site times 65536 plus frame, becomes FREE. -/
def State.freeFrame (s : State) (f : Nat) : State := s.setFrame (f / 65536) (f % 65536) 0#64

/-- The translations of a core are dropped. -/
def State.dropTlb (s : State) (c : Nat) : State := s.setCoreX c { s.coreX c with tlb := [], walk := [], ipas := [] }

/-- The regulators of a partition at a controller, and at every one, let nothing pass. -/
def State.noRate (p x : Nat) (s : State) (c : Nat) : State := s.setRegulator x c p 0 0
def State.noRatesAt (p : Nat) (s : State) (x : Nat) : State := (List.range 2).foldl (State.noRate p x) s
def State.noRates (s : State) (p : Nat) : State := (List.range 72).foldl (State.noRatesAt p) s

/-- A line of the partition that was held for it is held no more. -/
def unhinted (p : Nat) (l : ALine) : ALine := if l.part = p ∧ l.hint = 1 then { l with hint := 0 } else l
def State.unhint (s : State) (p : Nat) : State := s.withArc fun a => { a with lines := a.lines.map (unhinted p) }

/-- What PART_RELEASE leaves before the state of the partition is set. -/
def State.emptied (s : State) (p : Nat) (fs : List Nat) : State :=
  ((((s.partCores p).foldl State.dropTlb (fs.foldl State.freeFrame ((s.partCores p).foldl State.freeCore s))).setCoreX (256 + p) {}).noRates
    p).unhint p

def State.released (s : State) (p n : Nat) (fs : List Nat) : State :=
  let t := ((s.emptied p fs).setFld (libPartState p) 0 3 5).setFld (libPartState p) 32 32 0
  t.setPart p { t.part p with release := some n, freed := fs, sops := [] }

/-- The bytes of the panel's memory. -/
def State.memories (s : State) : List (Nat × W8) × List (Nat × W8) := (s.arc.mem, s.arc.hbm)

theorem State.memories_congr {s t : State} (h : t.arc = s.arc) : t.memories = s.memories := by rw [State.memories, State.memories, h]

section
variable (s : State) (p n : Nat) (fs : List Nat)

theorem State.memories_freshQueue (q : QRef) : (s.freshQueue q).memories = s.memories := by
  unfold State.freshQueue State.setMode
  exact State.memories_congr ((State.setBit_arc ..).trans (State.setQ_arc ..))

theorem State.memories_withoutQueueRegs (rs : List (Nat × W64)) : ({ s with regs := rs } : State).memories = s.memories := rfl

theorem State.memories_withLs (f : List (Nat × W8) → List (Nat × W8)) : (s.withArc fun a => { a with ls := f a.ls }).memories = s.memories := rfl

theorem State.memories_withTags (f : Archive → List (Nat × Nat × W64)) : (s.withArc fun a => { a with tags := f a }).memories = s.memories := rfl

theorem State.memories_resetQueues (c : Nat) : (s.resetQueues c).memories = s.memories := by
  unfold State.resetQueues
  extract_lets lo s2
  exact (foldl_leaves_of_mem (f := State.memories) (F := State.freshQueue) (fun b q _ => b.memories_freshQueue q) s2).trans
    (State.memories_withoutQueueRegs ..)

theorem State.memories_freeCore (c : Nat) : (s.freeCore c).memories = s.memories := by
  unfold State.freeCore
  extract_lets _ s1 ix
  exact (State.memories_resetQueues ..).trans ((State.memories_withLs ..).trans
    (State.memories_congr ((State.setCoreX_arc ..).trans (State.setBit_arc ..))))

theorem State.memories_freeFrame (f : Nat) : (s.freeFrame f).memories = s.memories := by
  unfold State.freeFrame State.setFrame
  exact (State.memories_withTags ..).trans (State.memories_congr (State.setReg_arc ..))

theorem State.noRate_arc (x c : Nat) : (State.noRate p x s c).arc = s.arc := by
  unfold State.noRate State.setRegulator
  exact (State.setFld_arc ..).trans (State.setFld_arc ..)

theorem State.noRate_cores (x c : Nat) : (State.noRate p x s c).cores = s.cores := by
  unfold State.noRate State.setRegulator
  exact (State.setFld_cores ..).trans (State.setFld_cores ..)

theorem State.noRates_arc : (s.noRates p).arc = s.arc :=
  foldl_leaves_of_mem (f := State.arc) (F := State.noRatesAt p)
    (fun b x _ => foldl_leaves_of_mem (f := State.arc) (F := State.noRate p x) (fun d c _ => d.noRate_arc p x c) b) s

theorem State.noRates_cores : (s.noRates p).cores = s.cores :=
  foldl_leaves_of_mem (f := State.cores) (F := State.noRatesAt p)
    (fun b x _ => foldl_leaves_of_mem (f := State.cores) (F := State.noRate p x) (fun d c _ => d.noRate_cores p x c) b) s

theorem State.fld_unhint (k lo w : Nat) : (s.unhint p).fld k lo w = s.fld k lo w := rfl

theorem State.lines_unhint : (s.unhint p).arc.lines = s.arc.lines.map (unhinted p) := rfl

theorem State.memories_unhint : (s.unhint p).memories = s.memories := rfl

theorem State.memories_emptied : (s.emptied p fs).memories = s.memories := by
  have hcores := foldl_leaves_of_mem (f := State.memories) (F := State.freeCore) (l := s.partCores p) (fun b c _ => b.memories_freeCore c) s
  have hframes := fun b => foldl_leaves_of_mem (f := State.memories) (F := State.freeFrame) (l := fs) (fun b f _ => b.memories_freeFrame f) b
  have htlbs := fun b => foldl_leaves_of_mem (f := State.memories) (F := State.dropTlb) (l := s.partCores p) (fun b c _ => rfl) b
  unfold State.emptied
  rw [State.memories_unhint, State.memories_congr (State.noRates_arc ..), State.memories_congr (State.setCoreX_arc ..), htlbs, hframes, hcores]

/-- The rate of a regulator once one of the partition has been set to 0. -/
theorem State.fld_noRate {x c k : Nat} (h : s.fld k 0 9 = 0 ∨ k = hbmReg x c p) : (State.noRate p x s c).fld k 0 9 = 0 := by
  unfold State.noRate State.setRegulator
  by_cases hk : k = hbmReg x c p
  · rw [hk, State.fld_setFld_other _ _ _ _ _ _ _ (by decide) (by decide), State.fld_setFld_same _ _ _ _ _ (by decide)] <;> rfl
  · rw [State.fld_setFld_ne _ _ _ _ _ _ hk, State.fld_setFld_ne _ _ _ _ _ _ hk]
    exact h.resolve_right hk

/-- A property that every step of a fold keeps and one step brings about. -/
theorem foldl_brings_about {α β : Type} {P : β → Prop} {F : β → α → β} {l : List α} {a : α} (ha : a ∈ l)
    (hkeep : ∀ b x, P b → P (F b x)) (hbring : ∀ b, P (F b a)) (b : β) : P (l.foldl F b) := by
  obtain ⟨l1, l2, rfl⟩ := List.append_of_mem ha
  rw [List.foldl_append, List.foldl_cons]
  exact List.foldlRecOn (motive := P) l2 F (hbring _) fun y hy x _ => hkeep y x hy

/-- The regulator at a key lets nothing pass. -/
def State.Rateless (k : Nat) (s : State) : Prop := s.fld k 0 9 = 0

theorem State.rate_noRates {x c : Nat} (hx : x < 72) (hc : c < 2) : (s.noRates p).fld (hbmReg x c p) 0 9 = 0 := by
  have hkeep : ∀ (y : Nat) (b : State) (d : Nat), b.Rateless (hbmReg x c p) → (State.noRate p y b d).Rateless (hbmReg x c p) :=
    fun y b d hb => b.fld_noRate p (.inl hb)
  exact foldl_brings_about (P := State.Rateless (hbmReg x c p)) (F := State.noRatesAt p) (List.mem_range.2 hx)
    (fun b y hb => List.foldlRecOn (motive := State.Rateless (hbmReg x c p)) _ (State.noRate p y) hb fun t ht d _ => hkeep y t d ht)
    (fun b => foldl_brings_about (P := State.Rateless (hbmReg x c p)) (F := State.noRate p x) (List.mem_range.2 hc) (hkeep x)
      (fun t => t.fld_noRate p (.inr rfl)) b) s

theorem State.emptied_cores : (s.emptied p fs).coreX (256 + p) = {} := by
  unfold State.emptied
  generalize (s.partCores p).foldl State.dropTlb (fs.foldl State.freeFrame ((s.partCores p).foldl State.freeCore s)) = v
  have hc : ((v.setCoreX (256 + p) {}).noRates p).cores = tset {} v.cores (256 + p) {} := State.noRates_cores ..
  unfold State.coreX State.unhint
  rw [State.withArc_cores, hc]
  exact tget_tset_same ..

theorem State.rate_emptied {x c : Nat} (hx : x < 72) (hc : c < 2) : (s.emptied p fs).fld (hbmReg x c p) 0 9 = 0 := by
  unfold State.emptied
  rw [State.fld_unhint]
  exact State.rate_noRates _ p hx hc

theorem State.lines_emptied : ∀ l ∈ (s.emptied p fs).arc.lines, l.part = p → l.hint ≠ 1 := by
  unfold State.emptied
  rw [State.lines_unhint]
  intro l hl
  obtain ⟨l0, -, rfl⟩ := List.mem_map.1 hl
  unfold unhinted
  by_cases h : l0.part = p ∧ l0.hint = 1
  · rw [if_pos h]
    exact fun _ => Nat.zero_ne_one
  · rw [if_neg h]
    exact fun hp hh => h ⟨hp, hh⟩

theorem hbmReg_ne_libPartState {x c : Nat} (hx : x < 72) (hc : c < 2) : hbmReg x c p ≠ libPartState p := by
  simp only [hbmReg, hbmB, siteB, libPartState, libB]
  omega

theorem State.fld_congr_regs {s t : State} (h : t.regs = s.regs) (k lo w : Nat) : t.fld k lo w = s.fld k lo w := by
  unfold State.fld State.reg
  rw [h]

/-- What the registers of the partition then say, and that the regulators still let nothing pass. -/
theorem State.releasedRegs_spec (hr : ∀ x c, x < 72 → c < 2 → s.fld (hbmReg x c p) 0 9 = 0) :
    let t := (s.setFld (libPartState p) 0 3 5).setFld (libPartState p) 32 32 0
    t.fld (libPartState p) 0 3 = 5 ∧ t.fld (libPartState p) 32 32 = 0 ∧ ∀ x c, x < 72 → c < 2 → t.fld (hbmReg x c p) 0 9 = 0 := by
  intro t
  refine ⟨?_, State.fld_setFld_same _ _ _ _ _ (by decide), fun x c hx hc => ?_⟩
  · rw [State.fld_setFld_other _ _ _ _ _ _ _ (by decide) (by decide), State.fld_setFld_same _ _ _ _ _ (by decide)] <;> rfl
  · have hne := hbmReg_ne_libPartState p hx hc
    rw [State.fld_setFld_ne _ _ _ _ _ _ hne, State.fld_setFld_ne _ _ _ _ _ _ hne]
    exact hr x c hx hc

theorem State.released_spec : let t := s.released p n fs
    t.partState p = 5 ∧ (t.part p).release = some n ∧ (t.part p).sops = [] ∧ t.fld (libPartState p) 32 32 = 0 ∧ t.memories = s.memories ∧
      t.coreX (256 + p) = {} ∧ (∀ l ∈ t.arc.lines, l.part = p → l.hint ≠ 1) ∧ (∀ x c, x < 72 → c < 2 → t.fld (hbmReg x c p) 0 9 = 0) := by
  have hmem := s.memories_emptied p fs
  have hcore := s.emptied_cores p fs
  have hlines := s.lines_emptied p fs
  have hrate := fun x c hx hc => s.rate_emptied p fs (x := x) (c := c) hx hc
  unfold State.released
  generalize s.emptied p fs = v at *
  obtain ⟨h5, h0, hr⟩ := v.releasedRegs_spec p hrate
  have harc : ((v.setFld (libPartState p) 0 3 5).setFld (libPartState p) 32 32 0).arc = v.arc := (State.setFld_arc ..).trans (State.setFld_arc ..)
  have hcores : ((v.setFld (libPartState p) 0 3 5).setFld (libPartState p) 32 32 0).cores = v.cores :=
    (State.setFld_cores ..).trans (State.setFld_cores ..)
  generalize (v.setFld (libPartState p) 0 3 5).setFld (libPartState p) 32 32 0 = t at *
  rw [State.coreX, ← hcores] at hcore
  rw [← harc] at hlines
  have hpart : (t.setPart p { t.part p with release := some n, freed := fs, sops := [] }).part p =
      { t.part p with release := some n, freed := fs, sops := [] } := tget_tset_same ..
  exact ⟨h5, congrArg PartX.release hpart, congrArg PartX.sops hpart, h0, (State.memories_congr harc).trans hmem, hcore, hlines, hr⟩

/-- RESULT of a slot becomes PENDING. -/
def State.slotPending (h : Nat) (s : State) (j : Nat) : State := s.mbxWr (mbSlot (h + j) + 0x28) [0xFF#8]

theorem State.mbTake_arc : (s.mbTake n).arc = s.arc := by
  unfold State.mbTake
  extract_lets h k
  by_cases hk : 256 < k
  · rw [if_pos hk]
  · rw [if_neg hk, State.setFld_arc]
    exact foldl_leaves_of_mem (f := State.arc) (F := State.slotPending h) (fun b j _ => State.mbxWr_arc ..) s

end

theorem partRelease_spec {s u : State} {slot n : Nat} (h : Takes s slot 0x11B n u) :
    let p := u.mbArg n 0 % 16
    (u.partState p ≠ 4 → exec (.partRelease slot) s = .next (u.mbDone n 2 0)) ∧
    (u.partState p = 4 → ∃ t, exec (.partRelease slot) s = .next t ∧ t.partState p = 5 ∧ (t.part p).release = some n ∧ (t.part p).sops = [] ∧
      t.fld (libPartState p) 32 32 = 0 ∧ t.arc.mem = s.arc.mem ∧ t.arc.hbm = s.arc.hbm ∧ t.coreX (256 + p) = {} ∧
      (∀ l ∈ t.arc.lines, l.part = p → l.hint ≠ 1) ∧ (∀ x c, x < 72 → c < 2 → t.fld (hbmReg x c p) 0 9 = 0)) := by
  intro p
  refine ⟨fun h1 => h.done rfl (if_pos h1), fun h1 => ?_⟩
  obtain ⟨hst, hrel, hsops, hfr, hmem, hcore, hlines, hrate⟩ :=
    u.released_spec p n (((u.partCores p).foldl State.freeCore u).taggedFrames p)
  have hsame := hmem.trans (State.memories_congr ((congrArg State.arc h.taken).trans (s.mbTake_arc n)))
  have hex := h.goesOn (c := .partRelease slot) (v := u.released p n (((u.partCores p).foldl State.freeCore u).taggedFrames p)) rfl
    (if_neg (not_not_intro h1))
  generalize u.released p n (((u.partCores p).foldl State.freeCore u).taggedFrames p) = t at *
  have hmems : t.arc.mem = s.arc.mem := (congrArg Prod.fst hsame :)
  have hhbm : t.arc.hbm = s.arc.hbm := (congrArg Prod.snd hsame :)
  exact ⟨t, hex, hst, hrel, hsops, hfr, hmems, hhbm, hcore, hlines, hrate⟩

/-- Settles O54: each command's row of the table, as the lemmas of its name say it. -/
theorem partitionCommands : Obligations.PartitionCommands := by
  unfold Obligations.PartitionCommands
  refine ⟨fun s u slot n => ?_, fun s u slot n => ?_, fun s p n hp hw => partEvents_spec hp hw⟩
  · exact ⟨partCreate_spec, partGrow_spec, partSetHost_spec, frameAssign_spec, partRegulate_spec,
      fun hs => ⟨fun h => s2RootSet_spec h hs, fun h => s2Invalidate_spec h hs⟩⟩
  · exact ⟨partStop_spec, partDrain_spec, partFlush_spec, partRelease_spec, partResume_spec⟩

end Sys2Proof.Machine

/-!
PROOFS. The move engine (08_archive_and_memory R252-R254, 09_coherence R274).
-/

namespace Sys2Proof.Machine

section
variable {s i k p t r : State} {q : QRef} {c : Cmd} {op : Nat} {ix : List Nat}

/-- A transfer whose walk finds a fault ends before a byte is written. -/
theorem State.transfer_of_fault {f : Fail} (hc : s.ready q op = some c) (hi : s.readIdx (s.runWho q c.run) c.eff = (i, .ok ix))
    (hw : i.xferWalk (s.runWho q c.run) c.eff ix = (k, some f)) : s.transfer q op = k.fail q c f := by
  unfold State.transfer
  rw [hc]
  dsimp only
  rw [hi]
  dsimp only
  rw [hw]

/-- A transfer whose checks pass and that has what it needs does its work. -/
theorem State.transfer_of_work (hc : s.ready q op = some c) (hi : s.readIdx (s.runWho q c.run) c.eff = (i, .ok ix))
    (hw : i.xferWalk (s.runWho q c.run) c.eff ix = (k, none)) (hp : k.probeXfer (s.runWho q c.run) c.eff ix = (p, true))
    (ht : p.tentXfer (s.runWho q c.run) c.eff ix = (t, .ok ()))
    (hr : (t.beginWork q c).copyWork (s.runWho q c.run) c.eff ix = (r, .ok ())) :
    s.transfer q op = r.modRun c.run fun r => { r with phase := .workDone } := by
  unfold State.transfer
  rw [hc]
  dsimp only
  rw [hi]
  dsimp only
  rw [hw]
  dsimp only
  rw [hp]
  dsimp only
  rw [Bool.not_true, if_neg Bool.false_ne_true, ht]
  dsimp only
  rw [hr]
  rfl

theorem effPrefetch_of_pass (hc : s.ready q 0x48 = some c) (hw : s.xferWalk (s.runWho q c.run) c.eff [] = (k, none)) :
    effPrefetch q s = ((k.beginWork q c).prefetchWork (s.runWho q c.run) c.eff).commitRun q c := by
  unfold effPrefetch
  rw [hc]
  dsimp only
  rw [hw]

theorem effFlushRange_of_pass (hc : s.ready q 0x49 = some c) (hw : s.xferWalk (s.runWho q c.run) c.eff [] = (k, none)) :
    effFlushRange q s = ((k.beginWork q c).flushN (s.runWho q c.run) c.run (xRowBytes c.eff / 512 + 2) (xSrc c.eff)
      (xRowBytes c.eff)).modRun c.run fun r => { r with phase := .workDone } := by
  unfold effFlushRange
  rw [hc]
  dsimp only
  rw [hw]

end

/-- Settles O37: each transfer is `State.transfer` of its opcode. -/
theorem moves : Obligations.Moves := by
  unfold Obligations.Moves
  intro s q c hq w d done
  refine ⟨?_, fun v hv => ⟨fun hc => exec_of rfl hq (effPrefetch_of_pass hc hv), fun hc => exec_of rfl hq (effFlushRange_of_pass hc hv)⟩⟩
  intro e he hc i ix hi
  have hx : exec e.1 s = carryOut q.ok (s.transfer q e.2) := by
    simp only [List.mem_cons, List.not_mem_nil, or_false] at he
    rcases he with rfl | rfl | rfl | rfl <;> rfl
  exact ⟨fun k f hw => exec_of hx hq (State.transfer_of_fault hc hi hw),
    fun k p t r hw hp ht hr => exec_of hx hq (State.transfer_of_work hc hi hw hp ht hr)⟩

end Sys2Proof.Machine

/-!
PROOFS. Reduction packets of the mesh (12_site_mesh R324-R330).
-/

namespace Sys2Proof.Machine

theorem State.handOver_eq (s : State) (x d pick : Nat) (m : TxMsg) :
    ∃ ls, s.handOver x d pick m = { s with mesh := { s.mesh with links := ls } } := by
  unfold State.handOver
  extract_lets gs
  cases gs[pick % gs.length]? with
  | none => exact ⟨s.mesh.links, rfl⟩
  | some g => exact ⟨_, rfl⟩

/-- A packet that leaves towards a neighbour stands at the next router's output, or waits for a route where it is. -/
theorem State.redLeave_towards (s : State) {site out y : Nat} (p : RedPkt) (hy : neighbour site out = some y) :
    ∃ ls, s.redLeave site out p = { s with mesh := { s.mesh with
      links := ls
      redOut := s.mesh.redOut ++
        [if s.edgeLive site out then (y, s.nextHop y (rDest p), p) else (site, s.nextHop site (rDest p), p)] } } := by
  unfold State.redLeave
  rw [hy]
  dsimp only
  by_cases hl : s.edgeLive site out = true
  · obtain ⟨ls, hh⟩ := s.handOver_eq site out (rSrc p) { role := roleReduce, vc := 7, dst := rDest p, d := toBytes 176 p.toNat }
    rw [if_pos hl, if_pos hl, hh]
    exact ⟨ls, rfl⟩
  · rw [if_neg hl, if_neg hl]
    exact ⟨s.mesh.links, rfl⟩

section
variable (s : State) (site out : Nat) (p : RedPkt)

/-- The packet has left the output where it stood. -/
def State.redTaken : State := { s with mesh := { s.mesh with redOut := s.mesh.redOut.erase (site, out, p) } }

/-- The packet may wait at the output for one that it meets. -/
def State.redWaits : Prop := s.redWindow site out ≠ 0 ∧ (out < 4 → s.edgeLive site out = true)

theorem State.redWaits_iff : s.redWaits site out ↔
    ¬(decide ((s.redTaken site out p).redWindow site out = 0) || (decide (out < 4) && !(s.redTaken site out p).edgeLive site out)) = true := by
  have hw : (s.redTaken site out p).redWindow site out = s.redWindow site out := rfl
  have hl : (s.redTaken site out p).edgeLive site out = s.edgeLive site out := rfl
  rw [hw, hl, State.redWaits]
  simp

theorem effReducePacket_of_not_waits (h : ¬s.redWaits site out) : effReducePacket site out p s = (s.redTaken site out p).redLeave site out p :=
  if_pos (Classical.not_not.1 (mt (s.redWaits_iff site out p).2 h))

/-- The entries of an output's buffer. -/
def Comb.at_ (site out : Nat) (e : Comb) : Bool := e.site = site && e.out = out

theorem effReducePacket_of_waits (h : s.redWaits site out) : effReducePacket site out p s =
    match (generalizing := false) s.mesh.comb.find? fun e => Comb.at_ site out e && redMeet e.pkt p with
    | some e =>
      let v : State := { s.redTaken site out p with
        free := s.free + 32
        mesh := { (s.redTaken site out p).mesh with
          comb := s.mesh.comb.map fun x => if x == e then { x with pkt := redCombine s.free e.pkt p } else x } }
      if out < 4 then v.sat (lnkB site out + 0x18) 0 48 1 else v
    | none =>
      if (s.mesh.comb.filter (Comb.at_ site out)).length < 64 then
        { s.redTaken site out p with mesh := { (s.redTaken site out p).mesh with comb := s.mesh.comb ++ [{ site := site, out := out, pkt := p }] } }
      else (s.redTaken site out p).redLeave site out p := by
  refine (if_neg ((s.redWaits_iff site out p).1 h)).trans ?_
  cases hf : s.mesh.comb.find? fun e => Comb.at_ site out e && redMeet e.pkt p with
  | none =>
    have hf' : (s.mesh.comb.find? fun e => (decide (e.site = site) && decide (e.out = out)) && redMeet e.pkt p) = none := hf
    dsimp only
    rw [hf']
    rfl
  | some e =>
    have hf' : (s.mesh.comb.find? fun e => (decide (e.site = site) && decide (e.out = out)) && redMeet e.pkt p) = some e := hf
    dsimp only
    rw [hf']
    rfl

end

/-- Settles O43: a packet waits or leaves, and what leaves goes towards a neighbour or is delivered. -/
theorem reductions : Obligations.Reductions := by
  unfold Obligations.Reductions
  intro s site hsite
  refine ⟨fun out p hout => ?_, fun sector => exec_of rfl (decide_eq_true hsite) rfl⟩
  intro u here waits
  have hok : (decide (site < Config.sites) && decide (out < 5)) = true := by
    rw [decide_eq_true hout, Bool.and_true]
    exact decide_eq_true hsite
  refine ⟨fun hw => exec_of rfl hok (effReducePacket_of_not_waits s site out p hw), fun hw y hy => ?_, fun hw hf => ?_, fun hw e hf => ?_,
    fun idx e he => ?_⟩
  · obtain ⟨ls, hl⟩ := (s.redTaken site out p).redLeave_towards p hy
    exact ⟨_, exec_of rfl hok ((effReducePacket_of_not_waits s site out p hw).trans hl), rfl, rfl, rfl⟩
  · refine exec_of rfl hok ((effReducePacket_of_waits s site out p hw).trans ?_)
    have hf' : (s.mesh.comb.find? fun e => Comb.at_ site out e && redMeet e.pkt p) = none := hf
    rw [hf']
    rfl
  · intro v
    refine exec_of rfl hok ((effReducePacket_of_waits s site out p hw).trans ?_)
    have hf' : (s.mesh.comb.find? fun e => Comb.at_ site out e && redMeet e.pkt p) = some e := hf
    rw [hf']
    simp only [beq_iff_eq]
    rfl
  · refine exec_of rfl hok ?_
    unfold effCombineWindowExpiry
    have he' : (s.mesh.comb.filter fun e => decide (e.site = site) && decide (e.out = out))[idx]? = some e := he
    rw [he']

end Sys2Proof.Machine

/-!
PROOFS. SPAWN (06_submission R188, R189, R209).
-/

namespace Sys2Proof.Machine

section
variable {s u v : State} {q : QRef} {c : Cmd}

theorem effSpawn_of_ready (h : s.ready q 2 = some c) :
    effSpawn q s = (s.modCmd q c fun c => { c with phase := .running }).takeRoom q c.eff := by
  have h' : s.ready q opSpawn = some c := h
  unfold effSpawn
  rw [h']

theorem effSpawnRoomTimeout_of_wait (hh : s.head q = some c) (hp : c.phase = .running) (ho : hOpc c.raw = 2) (hr : s.roomAll q c.eff = false) :
    effSpawnRoomTimeout q s = s.fail q c { code := 0x27 } := by
  unfold effSpawnRoomTimeout
  rw [hh]
  refine if_pos ?_
  rw [hp, ho, hr]
  rfl

/-- The targets of a SPAWN. -/
def State.spawnTs (s : State) (q : QRef) (d : Desc) : List QRef := if spCount d = 0 then [] else s.spawnTargets q d

/-- A SPAWN with room in every target posts and completes. -/
theorem effSpawnRoomGranted_of_room {ds : List (Desc × Bool)} (hh : s.head q = some c) (hp : c.phase = .running) (ho : hOpc c.raw = 2)
    (hr : (s.takeRoom q c.eff).roomAll q c.eff = true)
    (hf : (s.takeRoom q c.eff).spawnEntryFault q ((s.takeRoom q c.eff).spawnTs q c.eff) = (u, none))
    (hd : if ∃ t ∈ (s.takeRoom q c.eff).spawnTs q c.eff, u.qSop t = true then u.readDescs q (spCount c.eff) (spSrc c.eff) [] = (v, .ok ds)
      else v = u ∧ ds = []) (hgood : ∀ d ∈ ds, d.2 = false) :
    let w := ((s.takeRoom q c.eff).spawnTs q c.eff).foldl (fun s t => s.spawnPost q c.eff ds t) (v.modQ q fun x => { x with room := [] })
    effSpawnRoomGranted q s = ((w.sendEvents q c).completeAt q c { code := okStatus c } (w.coreSite q.core)
      (w.siteCycle (w.coreSite q.core))).advance q := by
  have hno : ¬(c.phase != .running || decide (hOpc c.raw ≠ opSpawn)) = true := by
    rw [hp, ho]
    exact Bool.false_ne_true
  have hread : (if ((s.takeRoom q c.eff).spawnTs q c.eff).any fun t => u.qSop t then u.readDescs q (spCount c.eff) (spSrc c.eff) []
      else (u, .ok [])) = (v, .ok ds) := by
    by_cases he : ∃ t ∈ (s.takeRoom q c.eff).spawnTs q c.eff, u.qSop t = true
    · rw [if_pos he] at hd
      rw [if_pos (List.any_eq_true.2 he), hd]
    · rw [if_neg he] at hd
      obtain ⟨rfl, rfl⟩ := hd
      rw [if_neg (mt List.any_eq_true.1 he)]
  have hclean : ¬(ds.any (·.2)) = true := by
    rw [List.any_eq_true]
    rintro ⟨d, hm, hb⟩
    exact Bool.false_ne_true ((hgood d hm).symm.trans hb)
  intro w
  unfold effSpawnRoomGranted
  rw [hh]
  dsimp only
  rw [if_neg hno, hr, Bool.not_true, if_neg Bool.false_ne_true, ← State.spawnTs, hf]
  dsimp only
  rw [hread]
  dsimp only
  rw [if_neg hclean]
  rfl

end

/-- Settles O32: the start, the post and the time-out of a SPAWN, each from what its row does. -/
theorem spawns : Obligations.Spawns := by
  unfold Obligations.Spawns
  exact fun s q c hq => ⟨fun h => exec_of rfl hq (effSpawn_of_ready h), fun hh hp ho =>
    ⟨fun hr => exec_of rfl hq (effSpawnRoomTimeout_of_wait hh hp ho hr), fun u v ds hr hf hd hgood =>
      exec_of rfl hq (effSpawnRoomGranted_of_room hh hp ho hr hf hd hgood)⟩⟩

end Sys2Proof.Machine

/-!
PROOFS. The incident log (18_faults_and_recovery R436-R439, 16_mould_and_start R411, R413).
-/

namespace Sys2Proof.Machine

/-- TAIL and HEAD of the incident log. -/
def State.logEnds (s : State) : W64 × W64 := (s.reg libIncTail, s.reg libIncHead)

section
variable (s : State)

theorem State.logEnds_congr {s t : State} (h : t.regs = s.regs) : t.logEnds = s.logEnds := by
  rw [State.logEnds, State.logEnds, State.reg_congr h, State.reg_congr h]

theorem State.logEnds_setReg {k : Nat} (v : W64) (ht : libIncTail ≠ k) (hh : libIncHead ≠ k) : (s.setReg k v).logEnds = s.logEnds := by
  rw [State.logEnds, State.reg_setReg_ne _ _ ht, State.reg_setReg_ne _ _ hh, State.logEnds]

theorem State.logEnds_setFld {k : Nat} (lo w v : Nat) (ht : libIncTail ≠ k) (hh : libIncHead ≠ k) : (s.setFld k lo w v).logEnds = s.logEnds :=
  s.logEnds_setReg _ ht hh

theorem State.logEnds_setBit {k : Nat} (lo : Nat) (b : Bool) (ht : libIncTail ≠ k) (hh : libIncHead ≠ k) : (s.setBit k lo b).logEnds = s.logEnds :=
  s.logEnds_setReg _ ht hh

theorem State.logEnds_sat {k : Nat} (lo w v : Nat) (ht : libIncTail ≠ k) (hh : libIncHead ≠ k) : (s.sat k lo w v).logEnds = s.logEnds :=
  s.logEnds_setReg _ ht hh

theorem State.fld_of_logEnds {s t : State} (h : t.logEnds = s.logEnds) (lo w : Nat) :
    t.fld libIncTail lo w = s.fld libIncTail lo w ∧ t.fld libIncHead lo w = s.fld libIncHead lo w :=
  ⟨(congrArg (fun e : W64 × W64 => fldOf e.1 lo w) h :), (congrArg (fun e : W64 × W64 => fldOf e.2 lo w) h :)⟩

theorem State.logEnds_shed : s.shed.logEnds = s.logEnds := by
  unfold State.shed
  extract_lets n t old two one v
  have hv : v.logEnds = s.logEnds := (State.logEnds_setFld _ _ _ _ (by decide) (by decide)).trans (State.logEnds_setFld _ _ _ _ (by decide) (by decide))
  exact hv

theorem State.logEnds_addRepair (e : Nat) : (s.addRepair e).logEnds = s.logEnds := by
  unfold State.addRepair
  extract_lets n
  split
  · rfl
  · exact (State.logEnds_setFld _ _ _ _ (by decide) (by decide)).trans (State.logEnds_congr (State.mbxWr_regs ..))

theorem State.logEnds_spareRepairs (seq : Nat) (r : Report) (first : List Nat) : (s.spareRepairs seq r first).logEnds = s.logEnds := by
  unfold State.spareRepairs
  dsimp only
  exact (foldl_leaves_of_mem (f := State.logEnds) (fun b n _ => b.logEnds_addRepair _) _).trans (State.logEnds_congr rfl)

theorem State.logEnds_repairsOf (seq : Nat) (r : Report) : (s.repairsOf seq r).logEnds = s.logEnds := by
  unfold State.repairsOf
  dsimp only
  split
  · exact s.logEnds_spareRepairs ..
  split
  · split
    next c _ => exact (State.logEnds_addRepair ..).trans ((State.logEnds_addRepair ..).trans (State.logEnds_congr rfl))
    next => rfl
  split
  · split
    · exact s.logEnds_addRepair _
    · exact s.logEnds_addRepair _
  split
  · exact (foldl_leaves_of_mem (f := State.logEnds) (fun b e _ => b.logEnds_addRepair _) _).trans (State.logEnds_congr rfl)
  · rfl

theorem State.hostReqM_regs (masked : Bool) (h ty off len : Nat) (d : Bytes) (use : HostUse) :
    (s.hostReqM masked h ty off len d use).regs = s.regs := by
  unfold State.hostReqM
  split <;> rfl

theorem State.logEnds_incNotify (seq : Nat) (r : Report) : (s.incNotify seq r).logEnds = s.logEnds := by
  unfold State.incNotify
  refine List.foldlRecOn (motive := fun t : State => t.logEnds = s.logEnds) _ _ rfl fun b hb i _ => ?_
  dsimp only
  split
  · split
    · exact (State.logEnds_congr (State.hostReqM_regs ..)).trans hb
    · exact hb
  · exact hb

theorem coreSelftest_ne (c : Nat) : libIncTail ≠ coreSelftest c ∧ libIncHead ≠ coreSelftest c := by
  unfold libIncTail libIncHead coreSelftest coreB libB
  exact ⟨by omega, by omega⟩

theorem State.logEnds_askTest (c : Nat) : (s.askTest c).logEnds = s.logEnds := by
  obtain ⟨ht, hh⟩ := coreSelftest_ne c
  unfold State.askTest
  extract_lets k
  split
  · exact s.logEnds_setBit _ _ ht hh
  · exact (State.logEnds_setFld _ _ _ _ ht hh).trans ((State.logEnds_setBit _ _ _ ht hh).trans (s.logEnds_setBit _ _ ht hh))

theorem State.logEnds_countDetect (r : Report) : (s.countDetect r).logEnds = s.logEnds := by
  unfold State.countDetect
  split
  · rfl
  split
  next => rfl
  next c hc =>
    extract_lets ts
    split
    · exact (State.logEnds_askTest ..).trans (State.logEnds_congr (State.setCoreX_regs ..))
    · exact State.logEnds_congr (State.setCoreX_regs ..)

theorem State.raiseEcho_regs (i n : Nat) : (s.raiseEcho i n).regs = s.regs := by
  unfold State.raiseEcho
  split <;> rfl

theorem State.logEnds_noteLost (i site : Nat) : (s.noteLost i site).logEnds = s.logEnds := by
  unfold State.noteLost
  extract_lets n
  exact (State.logEnds_congr (State.raiseEcho_regs ..)).trans (State.logEnds_congr rfl)

end

section
variable {s : State} {r : Report}

/-- HEAD has given way to a new entry where the log is full. -/
def State.roomForEntry (s : State) : State :=
  if 1024 ≤ wsub (s.fld libIncTail 0 32) (s.fld libIncHead 0 32) then (s.bump libIncHead 0 32 1).sat libIncStat 0 32 1 else s

theorem State.roomForEntry_ends : s.roomForEntry.fld libIncTail 0 32 = s.fld libIncTail 0 32 ∧
    s.roomForEntry.fld libIncHead 0 32 =
      if 1024 ≤ wsub (s.fld libIncTail 0 32) (s.fld libIncHead 0 32) then (s.fld libIncHead 0 32 + 1) % 2 ^ 32 else s.fld libIncHead 0 32 := by
  unfold State.roomForEntry
  split
  · obtain ⟨ht, hh⟩ := State.fld_of_logEnds ((s.bump libIncHead 0 32 1).logEnds_sat (k := libIncStat) 0 32 1 (by decide) (by decide)) 0 32
    rw [ht, hh]
    exact ⟨State.fld_setFld_ne _ _ _ _ _ _ (by decide), State.fld_setFld_same _ _ _ _ _ (by decide)⟩
  · exact ⟨rfl, rfl⟩

/-- A new entry raises TAIL, and HEAD where the log is full. -/
theorem State.logReport_new (h : s.boot.openEntries.find? (fun e => sameSig e.2 r) = none) :
    (s.logReport r).fld libIncTail 0 32 = (s.fld libIncTail 0 32 + 1) % 2 ^ 32 ∧
    (s.logReport r).fld libIncHead 0 32 =
      if 1024 ≤ wsub (s.fld libIncTail 0 32) (s.fld libIncHead 0 32) then (s.fld libIncHead 0 32 + 1) % 2 ^ 32 else s.fld libIncHead 0 32 := by
  have hends : ∃ t : State, t.logEnds = s.roomForEntry.logEnds ∧ (s.logReport r).logEnds = (t.setFld libIncTail 0 32 (s.fld libIncTail 0 32 + 1)).logEnds := by
    unfold State.logReport
    rw [h]
    dsimp only
    rw [← State.roomForEntry]
    generalize s.roomForEntry = v
    refine ⟨(if decide (v.fld libHealth 16 2 < 2) = true then v else v.sat libIncStat 32 32 1).mbxWr (incOff (s.fld libIncTail 0 32))
      (toBytes 64 (incBits (s.fld libIncTail 0 32 + 1) (decide (v.fld libHealth 16 2 < 2)) r)), ?_, ?_⟩
    · refine (State.logEnds_congr (State.mbxWr_regs ..)).trans ?_
      split
      · rfl
      · exact v.logEnds_sat _ _ _ (by decide) (by decide)
    · refine (State.logEnds_countDetect ..).trans ((State.logEnds_incNotify ..).trans ((State.logEnds_repairsOf ..).trans ?_))
      split
      · exact (State.logEnds_noteLost ..).trans (State.logEnds_congr rfl)
      · exact State.logEnds_congr rfl
  obtain ⟨t, ht, hr⟩ := hends
  obtain ⟨h1, h2⟩ := State.fld_of_logEnds hr 0 32
  obtain ⟨-, h3⟩ := State.fld_of_logEnds ht 0 32
  obtain ⟨-, hh⟩ := s.roomForEntry_ends
  rw [h1, h2, ← hh, ← h3]
  exact ⟨State.fld_setFld_same _ _ _ _ _ (by decide), State.fld_setFld_ne _ _ _ _ _ _ (by decide)⟩

/-- A report whose signature is open moves neither end. -/
theorem State.logReport_open {e : Nat × Report} (h : s.boot.openEntries.find? (fun e => sameSig e.2 r) = some e) :
    (s.logReport r).logEnds = s.logEnds := by
  unfold State.logReport
  rw [h]
  dsimp only
  split
  · rfl
  · exact (State.logEnds_congr (State.mbxWr_regs ..)).trans (State.logEnds_congr (State.mbxWr_regs ..))

/-- The state once a report has reached the Librarian. -/
def State.reported (s : State) (r : Report) : State := { s.shed with net := { s.shed.net with reports := s.shed.net.reports.erase r } }

theorem State.reported_openEntries : (s.reported r).boot.openEntries = s.boot.openEntries := rfl

theorem State.reported_ends (lo w : Nat) : (s.reported r).fld libIncTail lo w = s.fld libIncTail lo w ∧
    (s.reported r).fld libIncHead lo w = s.fld libIncHead lo w :=
  State.fld_of_logEnds ((State.logEnds_congr rfl).trans s.logEnds_shed) lo w

theorem effIncidentReport_held (h : s.boot.absent = true ∨ r ∉ s.net.reports) : effIncidentReport r s = s := by
  refine if_pos ?_
  rcases h with h | h
  · rw [h, Bool.true_or]
  · rw [List.contains_eq_mem, decide_eq_false h, Bool.not_false, Bool.or_true]

theorem effIncidentReport_logged (ha : s.boot.absent = false) (hr : r ∈ s.net.reports) :
    effIncidentReport r s = ((s.reported r).logReport r).shed := by
  refine if_neg ?_
  rw [ha, List.contains_eq_mem, decide_eq_true hr]
  exact Bool.false_ne_true

/-- What the end of a window of a signature does once its first report has arrived. -/
theorem effEchoWindowEnd_of {site : Nat} {e : Nat × Report × Nat} (ha : s.boot.absent = false)
    (he : s.errs.find? (fun e => e.1 = site && sameSig e.2.1 r) = some e) (hn : e.2.1 ∉ s.net.reports) :
    let v : State := { s with errs := s.errs.erase e }
    let w := if e.2.2 = 0 then v else v.addEcho r e.2.2
    let y := if w.errs.any fun x => sameSig x.2.1 r then w
      else { w with boot := { w.boot with openEntries := w.boot.openEntries.filter fun x => !sameSig x.2 r } }
    effEchoWindowEnd site r s = match (generalizing := false) y.errWait.find? fun x => x.reporter = site with
      | some x => ({ y with errWait := y.errWait.erase x } : State).sendReport x
      | none => y := by
  intro v w y
  have hc : ¬s.net.reports.contains e.2.1 = true := by
    rw [List.contains_eq_mem, decide_eq_false hn]
    exact Bool.false_ne_true
  unfold effEchoWindowEnd
  rw [he]
  dsimp only
  rw [if_neg (Bool.eq_false_iff.1 ha), if_neg hc]
  rfl

theorem State.errWait_raiseEcho (s : State) (i n : Nat) : (s.raiseEcho i n).errWait = s.errWait := by
  unfold State.raiseEcho
  split <;> rfl

theorem State.errWait_addRepair (s : State) (e : Nat) : (s.addRepair e).errWait = s.errWait := by
  unfold State.addRepair
  extract_lets n
  split
  · rfl
  · exact (State.setFld_errWait ..).trans (State.mbxWr_errWait ..)

theorem State.errWait_addEcho (s : State) (r : Report) (n : Nat) : (s.addEcho r n).errWait = s.errWait := by
  unfold State.addEcho
  split
  next e _ =>
    dsimp only
    split
    · unfold State.spareRepairs
      dsimp only
      exact (foldl_leaves_of_mem (f := State.errWait) (fun b n _ => b.errWait_addRepair _) _).trans (State.errWait_raiseEcho ..)
    · exact State.errWait_raiseEcho ..
  next => rfl

end

/-- Settles O45: a new entry raises TAIL, an echo raises neither end, and the window's end is the row of its name. -/
theorem incidentLog : Obligations.IncidentLog := by
  unfold Obligations.IncidentLog
  intro s r hr u
  have hur : u = s.reported r := rfl
  clear_value u
  subst hur
  have hu := s.reported_ends (r := r) 0 32
  refine ⟨fun h => exec_of rfl hr (effIncidentReport_held h), fun ha hm => ⟨exec_of rfl hr (effIncidentReport_logged ha hm), fun hn => ?_,
    fun e he => ?_⟩, fun site e hs ha he hn => ?_, fun v => ⟨fun ha => ?_, fun ha => exec_of rfl rfl (if_pos ha)⟩⟩
  · intro i full
    obtain ⟨h1, h2⟩ := State.logReport_new (s := s.reported r) (r := r) hn
    rw [hu.1] at h1
    rw [hu.1, hu.2] at h2
    exact ⟨h1, fun hf => h2.trans (if_pos hf), fun hf => h2.trans (if_neg hf)⟩
  · obtain ⟨h1, h2⟩ := State.fld_of_logEnds (State.logReport_open (s := s.reported r) (r := r) he) 0 32
    exact ⟨h1.trans hu.1, h2.trans hu.2⟩
  · intro v w y
    have hy : (if w.errs.any fun x => sameSig x.2.1 r then w
        else { w with boot := { w.boot with openEntries := w.boot.openEntries.filter fun x => !sameSig x.2 r } }) = y :=
      ite_congr (propext List.any_eq_true) (fun _ => rfl) fun _ => rfl
    have hw : w.errWait = s.errWait := by
      by_cases h0 : e.2.2 = 0
      · have hwv : w = v := if_pos h0
        rw [hwv]
      · have hwv : w = v.addEcho r e.2.2 := if_neg h0
        rw [hwv]
        exact State.errWait_addEcho ..
    have hwait : y.errWait = s.errWait := by
      rw [← hw, ← hy]
      split <;> rfl
    have hok : (decide (site < Config.sites) && r.ok) = true := by
      rw [hr, Bool.and_true]
      exact decide_eq_true hs
    refine exec_of rfl hok ((effEchoWindowEnd_of ha he hn).trans ?_)
    dsimp only
    rw [hy, hwait] <;> rfl
  · refine ⟨s.setReg libIncHead (BitVec.ofNat 64 (v.toNat % 2 ^ 32)), exec_of rfl rfl ?_, rfl, ?_, fun k hk => ?_⟩
    · rw [← fldOf_zero_eq]
      exact if_neg (Bool.eq_false_iff.1 ha)
    · intro e he
      cases List.mem_singleton.1 he
      exact s.reg_setReg_same _ _
    · exact s.reg_setReg_ne _ fun e => hk (List.mem_singleton.2 e)

end Sys2Proof.Machine

/-!
PROOFS. The commit point, the kills and the budgets of a run (07_commit_and_rerun R206-R210, R213-R215, R221).
-/

namespace Sys2Proof.Machine

theorem headOf_not_committed {x : QueX} {c : Cmd} (h : headOf x = some c) : c.phase ≠ .committed := by
  have hp := List.find?_some h
  intro hc
  simp [hc] at hp

section
variable {s : State} {q : QRef} {c : Cmd} {r : Run}

theorem State.flushWaits_iff : s.flushWaits q c r = true ↔ hOpc c.raw = 0x49 ∧ (r.unackedLines ≠ [] ∨ s.releasePending q = true) := by
  simp [State.flushWaits]

theorem commitHeld_iff (hp : c.phase = .running) (hw : r.phase = .workDone) (h0 : r.cls = 0) :
    (c.phase != .running || r.phase != .workDone || r.cls != 0 || s.flushWaits q c r) = s.flushWaits q c r := by
  rw [hp, hw, h0]
  rfl

section
variable (hh : s.head q = some c) (hr : s.run? c.run = some r) (hp : c.phase = .running) (hw : r.phase = .workDone) (h0 : r.cls = 0)
include hh hr hp hw h0

theorem effRunCommitPoint_waits (hf : s.flushWaits q c r = true) : effRunCommitPoint q s = s := by
  unfold effRunCommitPoint
  rw [hh]
  dsimp only
  rw [hr]
  exact if_pos ((commitHeld_iff hp hw h0).trans hf)

theorem effRunCommitPoint_commits (hf : s.flushWaits q c r = false) :
    let k := engB q.core r.onEng
    let d := if hOpc c.raw = 0x49 then s.dropOutN (s.runWho q c.run) (xRowBytes c.eff / 512 + 2) (xSrc c.eff) (xRowBytes c.eff) else s
    let u := if r.onEng < 5 then d.addFlash k r else d
    let v := if r.onEng < 4 then u.setFld (k + 0x30) 0 32 r.amax.toNat else u
    effRunCommitPoint q s = (v.countMoved q c).commitRun q c := by
  intro k d u v
  unfold effRunCommitPoint
  rw [hh]
  dsimp only
  rw [hr]
  exact if_neg (Bool.eq_false_iff.1 ((commitHeld_iff hp hw h0).trans hf))

end

theorem effTentativeSetWaitExpiry_full (hh : s.head q = some c) (hp : c.phase = .running ∨ c.phase = .checked) (hr : c.run ≠ 0)
    (ho : isQueueOp (hOpc c.raw) = false) (hc : hClass c.raw ≠ 1) (hf : s.setFull (s.coreSite q.core) = true) :
    effTentativeSetWaitExpiry q s = (((s.killRun c.run).requeue q c).sat (arcTentStat (s.coreSite q.core)) 16 16 1).refreshQ q := by
  unfold effTentativeSetWaitExpiry
  rw [hh]
  refine if_pos ?_
  rw [decide_eq_true hr, ho, hf]
  have hcl : (hClass c.raw != 1) = true := bne_iff_ne.2 hc
  rcases hp with hp | hp <;> simp [hp, hc]

/-- The command that a watchdog watches once no free choice is left. -/
theorem State.watched_head (hh : s.head q = some c) (hc : s.callCmd q = none) : s.watched q = (s, some c) := by
  unfold State.watched
  rw [hh, hc]

theorem State.watched_call (hc : s.callCmd q = some c) (hh : ∀ h, s.head q = some h → h.phase = .queued) : s.watched q = (s, some c) := by
  unfold State.watched
  rw [hc]
  cases hd : s.head q with
  | none => rfl
  | some h => exact if_pos (beq_iff_eq.2 (hh h hd))

theorem effCommandWatchdog_of {P : State} (hw : s.watched q = (s, some c)) (hr : s.run? c.run = some r) (hn : c.phase ≠ .queued) (h1 : r.cls ≠ 1)
    (hP : (if r.cls = 2 && r.arrived then
        if recInst s r.coord = r.inst ∧ recState s r.coord = 1 ∧ recPrepared s r.coord < recMembers s r.coord then
          ((s.qReport q 0x10 0x27 0 0 (hTag c.raw)).putRec r.coord 8 1 5).endMembers r.coord r.inst { code := 0x27 }
        else s
      else (s.qReport q 0x10 0x01 0 0 (hTag c.raw)).judgeAbort q c) = P) : effCommandWatchdog q s = P := by
  unfold effCommandWatchdog
  rw [hw]
  dsimp only
  rw [hr]
  dsimp only
  rw [if_neg (by simp [hn, h1])]
  exact hP

theorem State.judgeAbort_of_start (ho : hOpc c.raw ≠ 3) (hc : hClass c.raw = 0) (hn : c.phase ≠ .queued) (hm : c.phase ≠ .committed) :
    s.judgeAbort q c = s.fail q c { code := 0x01 } := by
  have hno : ¬(decide (hOpc c.raw = opCall) && c.phase != .queued) = true := by
    rw [Bool.and_eq_true, decide_eq_true_eq]
    exact fun h => ho h.1
  unfold State.judgeAbort State.judgeOne
  rw [if_neg hno, if_neg (by simpa using hn), if_neg (by simp [hm, hc]), if_neg (by rw [hc]; decide)]
  rfl

theorem effDiscardComplete_of {id : Nat} (hr : s.run? id = some r) (hp : r.phase = .discarding) :
    effDiscardComplete id s = (s.setFld (arcTent r.site r.part) 16 16 (s.fld (arcTent r.site r.part) 16 16 - r.res)).setRun id none := by
  unfold effDiscardComplete
  rw [hr]
  refine (if_pos (beq_iff_eq.2 hp)).trans ?_
  unfold State.endRun
  rw [hr]
  rfl

section
variable {id addr : Nat} {isLog : Bool} (hr : s.run? id = some r) (hc : s.cmdOfRun id = some (q, c))
  (hold : if isLog then ∃ l ∈ r.logs, l.op.addr = addr else addr / 512 ∈ r.tlines)
include hr hc hold

theorem effTentativeParityError_of {P : State} (hP : (if r.phase == .running || r.phase == .workDone then
      (((s.qReport q 0x01 0x11 1 3 (hTag c.raw)).killRun id).requeue q c).refreshQ q
    else if r.phase == .committed then
      if s.net.msgs.map (poisonMsg id addr isLog) = s.net.msgs then s
      else ({ s with net := { s.net with msgs := s.net.msgs.map (poisonMsg id addr isLog) } } : State).modRun id fun r => { r with poisoned := true }
    else s) = P) : effTentativeParityError id addr isLog s = P := by
  have hh : (if isLog then r.logs.any fun l => decide (l.op.addr = addr) else r.tlines.contains (addr / 512)) = true := by
    cases isLog with
    | false => exact List.contains_iff_mem.2 hold
    | true =>
      obtain ⟨l, hl, ha⟩ := hold
      exact List.any_eq_true.2 ⟨l, hl, decide_eq_true ha⟩
  unfold effTentativeParityError
  rw [hr, hc]
  dsimp only
  rw [hh, Bool.not_true, if_neg Bool.false_ne_true]
  exact hP

end

/-- The launch of a thread engine overruns its budget: its first live thread faults, or the program where there is none. -/
theorem State.launchOverrun_group {core slot : Nat} {l : Launch} {g : Group}
    (h : (s.te core).groups.findSome? (fun e => e.2.map fun g => (e.1, g)) = some (slot, g)) :
    s.launchOverrun core l = s.threadFault core slot g.blk (g.pcOf (firstLane g.live)) (firstLane g.live) 0x28 none := by
  unfold State.launchOverrun
  rw [h]
  rfl

theorem State.launchOverrun_none {core : Nat} {l : Launch} (h : (s.te core).groups.findSome? (fun e => e.2.map fun g => (e.1, g)) = none) :
    s.launchOverrun core l = s.threadFault core 0 0 (BitVec.ofNat 64 l.prog) 0 0x28 none := by
  unfold State.launchOverrun
  rw [h]
  rfl

/-- The pinned command whose budget runs. -/
def State.budgeted (s : State) (q : QRef) : Option Cmd :=
  s.active q fun c => hClass c.raw = 1 && c.phase == .committed && (match s.run? c.run with
    | some r => r.cls == 1 && (r.phase == .workDone || (r.phase == .running && decide (hOpc c.raw ≠ opPatch)))
    | none => false)

theorem effPinnedOverrun_fail (h : s.budgeted q = some c) (hl : ∀ l, (s.te q.core).launch = some l → l.run ≠ c.run) :
    effPinnedOverrun q s = s.fail q c { code := 0x28 } := by
  unfold effPinnedOverrun
  extract_lets prior
  have hprior : prior = some c := h
  rw [hprior]
  dsimp only
  cases hk : (s.te q.core).launch with
  | none => rfl
  | some l => exact if_neg (hl l hk)

theorem effPinnedOverrun_launch {l : Launch} (h : s.budgeted q = some c) (hl : (s.te q.core).launch = some l) (hr : l.run = c.run) :
    effPinnedOverrun q s = s.launchOverrun q.core l := by
  unfold effPinnedOverrun
  extract_lets prior
  have hprior : prior = some c := h
  rw [hprior]
  dsimp only
  rw [hl]
  exact if_pos hr

end

/-- Settles O34: each event of a run, from what its row does. -/
theorem commits : Obligations.Commits := by
  unfold Obligations.Commits
  intro s q c r hq
  refine ⟨fun hh hr => ⟨fun hp hw h0 ho hf => ?_, fun hp hw h0 hf => ?_, fun hp hr0 ho hc hf => ?_, fun h0 hc ho hn hcall => ?_,
      fun h2 ha hn hcall hi hst hm => ?_⟩, fun hcall hh hr h0 => ?_, fun id hr hp => ?_, fun id addr isLog hr hc hold => ⟨fun hp => ?_, fun hp hm => ?_⟩,
    fun hb => ⟨fun hl => ?_, fun l hl hr => ⟨fun slot g hg => ?_, fun hg => ?_⟩⟩⟩
  · exact exec_of rfl hq (effRunCommitPoint_waits hh hr hp hw h0 (State.flushWaits_iff.2 ⟨ho, hf⟩))
  · refine exec_of rfl hq (effRunCommitPoint_commits hh hr hp hw h0 (Bool.eq_false_iff.2 fun hw => ?_))
    obtain ⟨ho, hor⟩ := State.flushWaits_iff.1 hw
    obtain ⟨h1, h2⟩ := hf ho
    rcases hor with hor | hor
    · exact hor h1
    · exact Bool.false_ne_true (h2.symm.trans hor)
  · exact exec_of rfl hq (effTentativeSetWaitExpiry_full hh hp hr0 ho hc hf)
  · refine exec_of rfl hq (effCommandWatchdog_of (State.watched_head hh hcall) hr hn (by rw [h0]; decide) ?_)
    rw [if_neg (by rw [h0]; exact Bool.false_ne_true)]
    exact State.judgeAbort_of_start ho hc hn (headOf_not_committed hh)
  · refine exec_of rfl hq (effCommandWatchdog_of (State.watched_head hh hcall) hr hn (by rw [h2]; decide) ?_)
    rw [if_pos (by rw [h2, ha]; rfl), if_pos ⟨hi, hst, hm⟩]
  · have hrun : c.phase = .running := by
      have hp := List.find?_some hcall
      exact beq_iff_eq.1 (Bool.and_eq_true_iff.1 hp).2
    refine exec_of rfl hq (effCommandWatchdog_of (State.watched_call hcall hh) hr (by rw [hrun]; decide) (by rw [h0]; decide) ?_)
    rw [if_neg (by rw [h0]; exact Bool.false_ne_true)]
  · exact exec_of rfl rfl (effDiscardComplete_of hr hp)
  · refine exec_of rfl rfl (effTentativeParityError_of hr hc hold (if_pos ?_))
    rcases hp with hp | hp <;> rw [hp] <;> rfl
  · refine exec_of rfl rfl (effTentativeParityError_of hr hc hold ?_)
    rw [hp, if_neg (by decide), if_pos (by decide), if_neg hm]
  · exact exec_of rfl hq (effPinnedOverrun_fail hb hl)
  · exact ⟨_, exec_of rfl hq ((effPinnedOverrun_launch hb hl hr).trans (State.launchOverrun_group hg)), s.threadFault_faultsWith _ _ _ _ _ none rfl⟩
  · exact ⟨_, exec_of rfl hq ((effPinnedOverrun_launch hb hl hr).trans (State.launchOverrun_none hg)), s.threadFault_faultsWith _ _ _ _ _ none rfl⟩

end Sys2Proof.Machine

/-!
PROOFS. Write combining, parity, refresh and scrub (08_archive_and_memory R236, R237, R245-R251).
-/

namespace Sys2Proof.Machine

/-! ### The write-combining buffer and the slice's sectors -/

section
variable {s : State} {site : Nat}

/-- An entry of the buffer is gone. -/
def State.withoutWcb (s : State) (e : Wcb) : State := s.withArc fun a => { a with wcb := eraseFirst (fun x => x == e) a.wcb }

theorem effWcbAgeExpiry_of {idx : Nat} {e : Wcb} (he : s.wcbAt site idx = some e) :
    effWcbAgeExpiry site idx s = (s.sat (arcWcbStat site) 32 32 1).flushWcb e := by
  unfold effWcbAgeExpiry
  rw [he]

theorem effWcbParityError_of {idx : Nat} {e : Wcb} {q : QRef} {c : Cmd} (he : s.wcbAt site idx = some e)
    (hc : (s.withoutWcb e).cmdOfRun e.run = some (q, c)) :
    effWcbParityError site idx s = if e.pinned then (((s.withoutWcb e).qReport q 0x01 0x10 2 3 (hTag c.raw)).fail q c { code := 0x10 })
      else ((((s.withoutWcb e).qReport q 0x01 0x11 1 3 (hTag c.raw)).killRun e.run).requeue q c).refreshQ q := by
  have hc' : (s.withArc fun a => { a with wcb := eraseFirst (fun x => x == e) a.wcb }).cmdOfRun e.run = some (q, c) := hc
  unfold effWcbParityError
  rw [he]
  dsimp only
  rw [hc']
  rfl

section
variable {sector : Nat} {l : ALine} (hl : s.line? site (sector / 4) = some l)
  (hs : (l.valid ||| l.dirty) &&& (1 <<< (sector % 4)) ≠ 0)
include hl hs

theorem effArchiveParityError_clean (hd : l.dirty &&& (1 <<< (sector % 4)) = 0) :
    let bit := 1 <<< (sector % 4)
    let y := { l with valid := l.valid &&& (15 - bit), poison := l.poison &&& (15 - bit) }
    let u := ((if y.valid = 0 ∧ y.dirty = 0 then s.dropLine site l.line else s.withArc fun a => a.modLine site l.line fun _ => y).sat
      (arcErrStat site) 0 16 1).archiveReport site sector 0 l.part
    effArchiveParityError site sector s = if isOut (sector * 128) then u else u.request .rdS site l.line l.part 0 bit 0#512 l.hint := by
  intro bit y u
  have hu : ((if decide (y.valid = 0) && decide (y.dirty = 0) then s.dropLine site l.line
      else s.withArc fun a => a.modLine site l.line fun _ => y).sat (arcErrStat site) 0 16 1).archiveReport site sector 0 l.part = u := by
    simp only [Bool.and_eq_true, decide_eq_true_eq]
    rfl
  unfold effArchiveParityError
  rw [hl]
  dsimp only
  rw [if_neg hs, if_pos hd]
  clear_value u
  subst hu
  rfl

theorem effArchiveParityError_dirty (hd : l.dirty &&& (1 <<< (sector % 4)) ≠ 0) :
    let bit := 1 <<< (sector % 4)
    let u := if l.poison.testBit (sector % 4) then s
      else (s.withArc fun a => a.modLine site (sector / 4) fun x => { x with poison := x.poison ||| bit }).sat (arcErrStat site) 16 16 1
    effArchiveParityError site sector s = u.archiveReport site sector 2 l.part := by
  intro bit u
  have hu : s.poisonTag site sector = u := by
    unfold State.poisonTag
    rw [hl]
    rfl
  rw [← hu]
  unfold effArchiveParityError
  rw [hl]
  dsimp only
  rw [if_neg hs, if_neg hd]
  rfl

end
end

/-! ### The refresh band -/

theorem refreshBand_hot {old t : Nat} (h : 95 ≤ t) : refreshBand old t = 2 := if_pos h

theorem refreshBand_cool {old t : Nat} (h : t ≤ 83) : refreshBand old t = 0 := by
  unfold refreshBand
  rw [if_neg (by omega), if_neg (by omega), if_neg (by omega)]

theorem refreshBand_lt (old t : Nat) : refreshBand old t < 4 := by
  unfold refreshBand
  repeat' split
  all_goals decide

/-- A poll of a stack's temperature, before what a throttled controller adds: the temperature and the band are shown. -/
def State.bandShown (s : State) (k j temp band : Nat) : State := ((s.setFld k 0 8 (min 255 temp)).setTemp j temp).setFld k 8 2 band

section
variable (s : State) (k j temp band : Nat)

theorem State.bandShown_rest : { s.bandShown k j temp band with
    regs := s.regs, pwr := { (s.bandShown k j temp band).pwr with temps := s.pwr.temps } } = s := rfl

theorem State.reg_bandShown_ne {i : Nat} (h : i ≠ k) : (s.bandShown k j temp band).reg i = s.reg i :=
  (State.reg_setFld_ne _ _ _ _ h).trans (State.reg_setFld_ne _ _ _ _ h)

theorem State.bandShown_fields (hb : band < 4) : (s.bandShown k j temp band).fld k 0 8 = min 255 temp ∧ (s.bandShown k j temp band).fld k 8 2 = band ∧
    ∀ b, b < 64 → 10 ≤ b → (s.bandShown k j temp band).bit k b = s.bit k b := by
  unfold State.bandShown
  have h0 : ((s.setFld k 0 8 (min 255 temp)).setTemp j temp).fld k 0 8 = min 255 temp :=
    (State.fld_setFld_same s k 0 8 (min 255 temp) (by decide)).trans (Nat.mod_eq_of_lt (by omega))
  have hbit : ∀ b, ((s.setFld k 0 8 (min 255 temp)).setTemp j temp).bit k b = (s.setFld k 0 8 (min 255 temp)).bit k b := fun _ => rfl
  refine ⟨?_, ?_, fun b h64 h10 => ?_⟩
  · rw [State.fld_setFld_other _ _ _ _ _ _ _ (by decide) (by decide), h0]
  · rw [State.fld_setFld_same _ _ _ _ _ (by decide)]
    exact Nat.mod_eq_of_lt (b := 2 ^ 2) hb
  · rw [State.bit_setFld_other _ h64 (.inr (by omega)), hbit, State.bit_setFld_other _ h64 (.inr (by omega))]

theorem State.setBit11_bandShown (b : Bool) (hb : band < 4) :
    ((s.bandShown k j temp band).setBit k 11 b).fld k 0 8 = min 255 temp ∧ ((s.bandShown k j temp band).setBit k 11 b).fld k 8 2 = band ∧
      ((s.bandShown k j temp band).setBit k 11 b).bit k 11 = b := by
  obtain ⟨h0, h8, -⟩ := s.bandShown_fields k j temp band hb
  refine ⟨?_, ?_, State.bit_setBit_same _ _ _ _ (by decide)⟩
  · rw [State.setBit, State.fld_setFld_other _ _ _ _ _ _ _ (by decide) (by decide), h0]
  · rw [State.setBit, State.fld_setFld_other _ _ _ _ _ _ _ (by decide) (by decide), h8]

theorem State.setBit11_bandShown_rest (b : Bool) : { (s.bandShown k j temp band).setBit k 11 b with
    regs := s.regs, pwr := { ((s.bandShown k j temp band).setBit k 11 b).pwr with temps := s.pwr.temps } } = s := rfl

theorem State.reg_setBit11_bandShown_ne (b : Bool) {i : Nat} (h : i ≠ k) : ((s.bandShown k j temp band).setBit k 11 b).reg i = s.reg i :=
  (State.reg_setFld_ne _ _ _ _ h).trans (s.reg_bandShown_ne k j temp band h)

end

/-- What a poll of a stack's temperature leaves. -/
structure BandPolled (s t : State) (k temp band : Nat) (hot : Bool) : Prop where
  rest : { t with regs := s.regs, pwr := { t.pwr with temps := s.pwr.temps } } = s
  others : ∀ j, j ≠ k → t.reg j = s.reg j
  temp : t.fld k 0 8 = min 255 temp
  band : t.fld k 8 2 = band
  hot : t.bit k 11 = hot

theorem State.bandShown_polled (s : State) (k j temp : Nat) {band : Nat} (hb : band < 4) :
    BandPolled s (s.bandShown k j temp band) k temp band (s.bit k 11) := by
  obtain ⟨h0, h8, hbit⟩ := s.bandShown_fields k j temp band hb
  exact ⟨s.bandShown_rest .., fun _ h => s.reg_bandShown_ne _ _ _ _ h, h0, h8, hbit 11 (by decide) (by decide)⟩

theorem State.setBit11_polled (s : State) (k j temp : Nat) {band : Nat} (b : Bool) (hb : band < 4) :
    BandPolled s ((s.bandShown k j temp band).setBit k 11 b) k temp band b := by
  obtain ⟨h0, h8, hbit⟩ := s.setBit11_bandShown k j temp band b hb
  exact ⟨s.setBit11_bandShown_rest .., fun _ h => s.reg_setBit11_bandShown_ne _ _ _ _ b h, h0, h8, hbit⟩

/-- The band that a poll shows: without the bit that holds it back the one of R245, else the hottest alone. -/
def State.polledBand (s : State) (k temp : Nat) : Nat :=
  if s.bit k 10 then (if 95 ≤ temp then refreshBand (s.fld k 8 2) temp else 0) else refreshBand (s.fld k 8 2) temp

/-- The throttle bit after a poll. -/
def State.polledHot (s : State) (k temp : Nat) : Bool :=
  if s.bit k 10 then (if 85 ≤ temp then true else if temp < 83 then false else s.bit k 11) else s.bit k 11

/-- HBM_TEMP_POLL, of a register key and a sensor key. -/
def State.tempPolled (s : State) (k j temp : Nat) : State :=
  let s := (s.setFld k 0 8 (min 255 temp)).setTemp j temp
  if s.bit k 10 then
    let s := s.setFld k 8 2 (if 95 ≤ temp then refreshBand (s.fld k 8 2) temp else 0)
    if 85 ≤ temp then s.setBit k 11 true else if temp < 83 then s.setBit k 11 false else s
  else s.setFld k 8 2 (refreshBand (s.fld k 8 2) temp)

theorem effHbmTempPoll_eq (s : State) (site ctl temp : Nat) :
    effHbmTempPoll site ctl temp s = s.tempPolled (hbmStack site ctl) (sensorKey (.stack site ctl)) temp := rfl

theorem State.tempPolled_polled (s : State) (k j temp : Nat) :
    BandPolled s (s.tempPolled k j temp) k temp (s.polledBand k temp) (s.polledHot k temp) := by
  unfold State.tempPolled State.polledBand State.polledHot
  extract_lets s1 s2
  have h10 : s1.bit k 10 = s.bit k 10 := State.bit_setFld_other s (by decide) (.inr (by decide))
  have h8 : s1.fld k 8 2 = s.fld k 8 2 := State.fld_setFld_other s _ _ _ _ _ _ (by decide) (by decide)
  have hlt : ∀ old, (if 95 ≤ temp then refreshBand old temp else 0) < 4 := fun old => by
    split
    · exact refreshBand_lt ..
    · decide
  by_cases hb : s.bit k 10 = true
  · rw [if_pos (h10.trans hb), if_pos hb, if_pos hb]
    have hs2 : s2 = s.bandShown k j temp (if 95 ≤ temp then refreshBand (s.fld k 8 2) temp else 0) := by
      rw [← h8]
      rfl
    rw [hs2]
    by_cases h85 : 85 ≤ temp
    · rw [if_pos h85, if_pos h85]
      exact s.setBit11_polled _ _ _ true (hlt _)
    · rw [if_neg h85, if_neg h85]
      by_cases h83 : temp < 83
      · rw [if_pos h83, if_pos h83]
        exact s.setBit11_polled _ _ _ false (hlt _)
      · rw [if_neg h83, if_neg h83]
        exact s.bandShown_polled _ _ _ (hlt _)
  · rw [if_neg (fun h => hb (h10.symm.trans h)), if_neg hb, if_neg hb, h8]
    exact s.bandShown_polled _ _ _ (refreshBand_lt ..)

theorem hbmTempPoll_spec {s : State} {site ctl : Nat} (temp : Nat) (hs : site < 72) (hc : ctl < 2) : ∃ t, exec (.hbmTempPoll site ctl temp) s = .next t ∧
    let k := hbmStack site ctl
    { t with regs := s.regs, pwr := { t.pwr with temps := s.pwr.temps } } = s ∧ (∀ j, j ≠ k → t.reg j = s.reg j) ∧
    t.fld k 0 8 = min 255 temp ∧ (95 ≤ temp → t.fld k 8 2 = 2) ∧ (temp ≤ 83 → t.fld k 8 2 = 0) ∧
    (s.bit k 10 = false → t.fld k 8 2 = refreshBand (s.fld k 8 2) temp ∧ t.bit k 11 = s.bit k 11) ∧
    (s.bit k 10 = true → (85 ≤ temp → t.bit k 11 = true) ∧ (temp < 83 → t.bit k 11 = false) ∧
      (83 ≤ temp → temp < 85 → t.bit k 11 = s.bit k 11)) := by
  have hok : (decide (site < Config.sites) && decide (ctl < 2)) = true := by
    rw [decide_eq_true hc, Bool.and_true]
    exact decide_eq_true hs
  refine ⟨_, exec_of rfl hok (effHbmTempPoll_eq ..), ?_⟩
  have hp := s.tempPolled_polled (hbmStack site ctl) (sensorKey (.stack site ctl)) temp
  generalize s.tempPolled (hbmStack site ctl) (sensorKey (.stack site ctl)) temp = t at *
  generalize hbmStack site ctl = k at *
  intro k
  refine ⟨hp.rest, hp.others, hp.temp, fun h => hp.band.trans ?_, fun h => hp.band.trans ?_, fun h => ⟨hp.band.trans ?_, hp.hot.trans ?_⟩,
    fun h => ⟨fun h1 => hp.hot.trans ?_, fun h1 => hp.hot.trans ?_, fun h1 h2 => hp.hot.trans ?_⟩⟩
  · unfold State.polledBand
    rw [if_pos h, refreshBand_hot h]
    exact ite_self _
  · unfold State.polledBand
    rw [if_neg (show ¬95 ≤ temp by omega), refreshBand_cool h]
    exact ite_self _
  · exact if_neg (Bool.eq_false_iff.1 h)
  · exact if_neg (Bool.eq_false_iff.1 h)
  · exact (if_pos h).trans (if_pos h1)
  · exact (if_pos h).trans ((if_neg (by omega)).trans (if_pos h1))
  · exact (if_pos h).trans ((if_neg (by omega)).trans (if_neg (by omega)))

end Sys2Proof.Machine

/-!
PROOFS. Scrub reads of the stacks, and the settled statement on the memory's events (08_archive_and_memory R247, R250, R251).
-/

namespace Sys2Proof.Machine

section
variable (s : State) (line : Nat)

/-- The scrub count of a stack at the end of its round. -/
def State.scrubCounted : State :=
  if (line * 512 + 512) % 2 ^ 36 = 0 then s.sat (hbmErr (homeOf (line * 512)) (stackOf (line * 512))) 32 16 1 else s

theorem State.scrubCounted_arc : (s.scrubCounted line).arc = s.arc := by
  unfold State.scrubCounted
  split
  · exact State.sat_arc ..
  · rfl

/-- How many of three reads of a line fail when `n` are said to. -/
def State.failedReads (n l : Nat) : Nat := if s.arc.lineOk l then min 3 n else 3

theorem State.max_failsOf (n l : Nat) : max (min 3 n) (s.failsOf l) = s.failedReads n l := by
  unfold State.failsOf State.failedReads
  split <;> omega

theorem State.failedReads_congr {s t : State} (h : t.arc = s.arc) (n l : Nat) : t.failedReads n l = s.failedReads n l := by
  rw [State.failedReads, State.failedReads, h]

theorem State.otherCopy_congr {s t : State} (h : t.arc.mirrors = s.arc.mirrors) (line : Nat) : t.otherCopy line = s.otherCopy line := by
  unfold State.otherCopy
  rw [h]

/-- The stored check of a line no longer fits its bytes: a free other value (log entry 117). -/
def State.checkSpoiled (f : Nat) : State :=
  ({ s with free := s.free + 1 } : State).withArc fun a =>
    { a with checks := tset none a.checks line (some ((a.checkOf line + 1 + f % (2 ^ 32 - 1)) % 2 ^ 32)) }

theorem Archive.checkOf_withChecks (a : Archive) (cs : List (Nat × Option Nat)) (l : Nat) :
    ({ a with checks := cs } : Archive).checkOf l = a.checkOf l := rfl

/-- A check that moves by a step from 1 to 2^32 - 1 is another one. -/
theorem spoiled_ne (x f : Nat) : (x + 1 + f % (2 ^ 32 - 1)) % 2 ^ 32 ≠ x := by omega

theorem Archive.lineOk_tset_same (a : Archive) {c : Nat} (h : c ≠ a.checkOf line) :
    ({ a with checks := tset none a.checks line (some c) } : Archive).lineOk line = false := by
  unfold Archive.lineOk
  dsimp only
  rw [tget_tset_same]
  exact beq_eq_false_iff_ne.2 h

theorem Archive.lineOk_tset_ne (a : Archive) (c : Option Nat) {l : Nat} (h : l ≠ line) :
    ({ a with checks := tset none a.checks line c } : Archive).lineOk l = a.lineOk l := by
  unfold Archive.lineOk
  dsimp only
  rw [tget_tset_ne _ _ _ h]
  rfl

/-- The line after three failed reads: it does not pass its check. -/
def State.checkFailed : State := if s.arc.lineOk line then s.checkSpoiled line (Config.freeNat s.free) else s

theorem State.checkFailed_spec : { s.checkFailed line with free := s.free, arc := { (s.checkFailed line).arc with checks := s.arc.checks } } = s ∧
    (s.checkFailed line).arc.lineOk line = false ∧ ∀ l, l ≠ line → (s.checkFailed line).arc.lineOk l = s.arc.lineOk l := by
  unfold State.checkFailed
  by_cases h : s.arc.lineOk line = true
  · rw [if_pos h]
    exact ⟨rfl, s.arc.lineOk_tset_same line (spoiled_ne _ _), fun l hl => s.arc.lineOk_tset_ne line _ hl⟩
  · rw [if_neg h]
    exact ⟨rfl, Bool.eq_false_iff.2 h, fun _ _ => rfl⟩

theorem State.checkFailed_mirrors : (s.checkFailed line).arc.mirrors = s.arc.mirrors := by
  unfold State.checkFailed
  split <;> rfl

/-- A scrub read is a check of the stacks with the failing reads of the line and of its other copy. -/
theorem effScrubRead_eq (fails other : Nat) (h : isHbm (line * 512) = true) :
    effScrubRead line fails other s =
      (if s.failedReads fails line < 3 then s.scrubCounted line else (s.scrubCounted line).checkFailed line).stackCheck line
        (s.failedReads fails line) (max (min 3 other) (((s.otherCopy line).map s.failsOf).getD 0)) := by
  unfold effScrubRead
  extract_lets pa k u n m f t
  rw [if_neg (by rw [h]; exact Bool.false_ne_true)]
  have hu : u = s.scrubCounted line := rfl
  have hn : n = s.failedReads fails line := (State.max_failsOf ..).trans (State.failedReads_congr (s.scrubCounted_arc line) ..)
  have hof : u.failsOf = s.failsOf := by
    funext l
    rw [hu, State.failsOf, State.failsOf, State.scrubCounted_arc]
  have hm : m = max (min 3 other) (((s.otherCopy line).map s.failsOf).getD 0) := by
    have hoc : u.otherCopy line = s.otherCopy line := by
      rw [hu]
      exact State.otherCopy_congr (congrArg Archive.mirrors (s.scrubCounted_arc line)) line
    rw [← hof, ← hoc]
  have ht : t = if s.failedReads fails line < 3 then s.scrubCounted line else (s.scrubCounted line).checkFailed line := by
    rw [← hn, ← hu]
    by_cases hlt : n < 3
    · rw [if_pos hlt]
      exact if_pos (by rw [decide_eq_true hlt, Bool.true_or])
    · rw [if_neg hlt]
      unfold State.checkFailed
      by_cases hok : u.arc.lineOk line = true
      · rw [if_pos hok]
        exact if_neg (by rw [decide_eq_false hlt, hok]; exact Bool.false_ne_true)
      · rw [if_neg hok]
        exact if_pos (by rw [Bool.eq_false_iff.2 hok, Bool.not_false, Bool.or_true])
  rw [ht, hn, hm]

end

section
variable {s : State} {line fails other : Nat} (h : isHbm (line * 512) = true)
include h

theorem scrubRead_clean (hn : s.failedReads fails line = 0) : effScrubRead line fails other s = s.scrubCounted line := by
  rw [effScrubRead_eq _ _ _ _ h, hn, if_pos (by decide)]
  unfold State.stackCheck
  rw [if_pos rfl]

theorem scrubRead_some (h0 : 0 < s.failedReads fails line) (h3 : s.failedReads fails line < 3) : effScrubRead line fails other s =
    ((s.scrubCounted line).sat (hbmErr (homeOf (line * 512)) (stackOf (line * 512))) 0 16 (s.failedReads fails line)).hbmReport line 0
      (s.failedReads fails line + 8) := by
  rw [effScrubRead_eq _ _ _ _ h, if_pos h3]
  unfold State.stackCheck
  rw [if_neg (by omega), if_pos h3]
  rfl

section
variable (h3 : s.failedReads fails line = 3)
include h3

theorem scrubRead_all : effScrubRead line fails other s =
    ((s.scrubCounted line).checkFailed line).stackCheck line 3 (max (min 3 other) (((s.otherCopy line).map s.failsOf).getD 0)) := by
  rw [effScrubRead_eq _ _ _ _ h, h3, if_neg (by decide)]

end
end

section
variable (w : State) (line m : Nat)

/-- A line whose reads have all failed is counted. -/
def State.lineBad : State := w.sat (hbmErr (homeOf (line * 512)) (stackOf (line * 512))) 16 16 1

theorem State.lineBad_otherCopy : (w.lineBad line).otherCopy line = w.otherCopy line :=
  State.otherCopy_congr (congrArg Archive.mirrors (State.sat_arc ..)) line

theorem State.stackCheck_alone (ho : w.otherCopy line = none) :
    w.stackCheck line 3 m = ((w.lineBad line).poisonLine line).hbmReport line 2 11 := by
  have ho' := (w.lineBad_otherCopy line).trans ho
  unfold State.stackCheck
  extract_lets pa k v
  have hv : v = w.lineBad line := rfl
  rw [if_neg (by decide), if_neg (by decide), hv, ho']
  rfl

section
variable {o : Nat} (ho : w.otherCopy line = some o)
include ho

/-- The other copy mends the line. -/
theorem State.stackCheck_mended (hm : m < 3) :
    let ko := hbmErr (homeOf (o * 512)) (stackOf (o * 512))
    let z := (if m = 0 then w.lineBad line else (w.lineBad line).sat ko 0 16 m).withArc fun a => (List.range 512).foldl
      (fun a i => a.wrHbm (line * 512 + i) (a.rdHbm (o * 512 + i))) a
    w.stackCheck line 3 m = ((z.withArc fun a => { a with checks := tset none a.checks line none }).sat
      (arcErrStat (homeOf (line * 512))) 32 16 1).hbmReport line 0 15 := by
  intro ko z
  have ho' := (w.lineBad_otherCopy line).trans ho
  unfold State.stackCheck
  extract_lets pa k v
  have hv : v = w.lineBad line := rfl
  rw [if_neg (by decide), if_neg (by decide), hv, ho']
  exact if_pos hm

theorem State.stackCheck_lost : w.stackCheck line 3 3 =
    ((((w.lineBad line).sat (hbmErr (homeOf (o * 512)) (stackOf (o * 512))) 16 16 1).poisonLine line).poisonLine o).hbmReport line 2 11 := by
  have ho' := (w.lineBad_otherCopy line).trans ho
  unfold State.stackCheck
  extract_lets pa k v
  have hv : v = w.lineBad line := rfl
  rw [if_neg (by decide), if_neg (by decide), hv, ho']
  exact if_neg (by decide)

end
end

theorem scrubRead_spec {s : State} {line : Nat} (fails other : Nat) (h : isHbm (line * 512) = true) :
    let k := hbmErr (homeOf (line * 512)) (stackOf (line * 512))
    let u := if (line * 512 + 512) % 2 ^ 36 = 0 then s.sat k 32 16 1 else s
    let failed := fun (n : Nat) (l : Nat) => if s.arc.lineOk l then min 3 n else 3
    let n := failed fails line
    (n = 0 → exec (.scrubRead line fails other) s = .next u) ∧
    (0 < n → n < 3 → exec (.scrubRead line fails other) s = .next ((u.sat k 0 16 n).hbmReport line 0 (n + 8))) ∧
    (n = 3 → ∃ w : State, { w with free := u.free, arc := { w.arc with checks := u.arc.checks } } = u ∧ w.arc.lineOk line = false ∧
      (∀ l, l ≠ line → w.arc.lineOk l = u.arc.lineOk l) ∧
      let v := w.sat k 16 16 1
      (s.otherCopy line = none → exec (.scrubRead line fails other) s = .next ((v.poisonLine line).hbmReport line 2 11)) ∧
      ∀ o, s.otherCopy line = some o →
        let ko := hbmErr (homeOf (o * 512)) (stackOf (o * 512))
        let m := failed other o
        (m < 3 →
          let z := (if m = 0 then v else v.sat ko 0 16 m).withArc fun a => (List.range 512).foldl
            (fun a i => a.wrHbm (line * 512 + i) (a.rdHbm (o * 512 + i))) a
          exec (.scrubRead line fails other) s = .next (((z.withArc fun a => { a with checks := tset none a.checks line none }).sat
            (arcErrStat (homeOf (line * 512))) 32 16 1).hbmReport line 0 15)) ∧
        (m = 3 → exec (.scrubRead line fails other) s =
          .next ((((v.sat ko 16 16 1).poisonLine line).poisonLine o).hbmReport line 2 11))) := by
  intro k u failed n
  have hu : s.scrubCounted line = u := rfl
  have hf : s.failedReads = failed := rfl
  clear_value u failed
  subst hu hf
  refine ⟨fun hn => exec_of rfl rfl (scrubRead_clean h hn), fun h0 h3 => exec_of rfl rfl (scrubRead_some h h0 h3), fun h3 => ?_⟩
  obtain ⟨hrest, hbad, hother⟩ := (s.scrubCounted line).checkFailed_spec line
  have hcopy : ((s.scrubCounted line).checkFailed line).otherCopy line = s.otherCopy line :=
    State.otherCopy_congr ((State.checkFailed_mirrors ..).trans (congrArg Archive.mirrors (s.scrubCounted_arc line))) line
  have hm : ∀ o, s.otherCopy line = some o → max (min 3 other) (((s.otherCopy line).map s.failsOf).getD 0) = s.failedReads other o := fun o ho => by
    rw [ho]
    exact s.max_failsOf other o
  refine ⟨(s.scrubCounted line).checkFailed line, hrest, hbad, hother, fun ho => ?_, fun o ho => ⟨fun hlt => ?_, fun heq => ?_⟩⟩
  · exact exec_of rfl rfl ((scrubRead_all h h3).trans (State.stackCheck_alone _ _ _ (hcopy.trans ho)))
  · refine exec_of rfl rfl ((scrubRead_all h h3).trans ?_)
    rw [hm o ho]
    exact State.stackCheck_mended _ _ _ (hcopy.trans ho) hlt
  · refine exec_of rfl rfl ((scrubRead_all h h3).trans ?_)
    have heq' : s.failedReads other o = 3 := heq
    rw [hm o ho, heq']
    exact State.stackCheck_lost _ _ (hcopy.trans ho)

/-- Settles O41: the buffer's entries, the slice's sectors, the refresh band and the scrub reads. -/
theorem memoryEvents : Obligations.MemoryEvents := by
  unfold Obligations.MemoryEvents
  intro s site hs
  have hok : decide (site < Config.sites) = true := decide_eq_true hs
  refine ⟨fun idx e he => ⟨exec_of rfl hok (effWcbAgeExpiry_of he), fun q c hc => ?_⟩, fun sector l hl hv => ?_,
    fun ctl temp hc => hbmTempPoll_spec temp hs hc, fun line fails other h => scrubRead_spec fails other h⟩
  · have hp := effWcbParityError_of he hc
    exact ⟨fun hb => exec_of rfl hok (hp.trans (if_pos hb)), fun hb => exec_of rfl hok (hp.trans (if_neg (Bool.eq_false_iff.1 hb)))⟩
  · exact ⟨fun hd => exec_of rfl hok (effArchiveParityError_clean hl hv hd), fun hd => exec_of rfl hok (effArchiveParityError_dirty hl hv hd)⟩

end Sys2Proof.Machine

/-!
PROOFS. Block retirement, barriers, waits and copies of the thread engine (04_thread_engine R90, R93, R101-R106).
-/

namespace Sys2Proof.Machine

theorem State.grp?_setBlk (s : State) (c b : Nat) (x : Option Block) (g : GRef) : (s.setBlk c b x).grp? g = s.grp? g := by
  unfold State.grp? State.setBlk
  by_cases hc : g.core = c
  · rw [hc, State.te_setTe_same]
  · rw [State.te_setTe_ne _ _ hc]

theorem State.launch_setBlk (s : State) (c b : Nat) (x : Option Block) (d : Nat) : ((s.setBlk c b x).te d).launch = (s.te d).launch := by
  unfold State.setBlk
  by_cases hc : d = c
  · rw [hc, State.te_setTe_same]
  · rw [State.te_setTe_ne _ _ hc]

theorem State.blk?_setBlk_ne (s : State) (c : Nat) {b d : Nat} (x : Option Block) (h : d ≠ b) : (s.setBlk c b x).blk? c d = s.blk? c d := by
  unfold State.blk? State.setBlk
  rw [State.te_setTe_same]
  exact tget_tset_ne _ _ _ h

section
variable {s : State} {core blk : Nat}

theorem State.mem_groupsOf_of_grp? {slot : Nat} {g : Group} (h : s.grp? { core := core, slot := slot } = some g) (hb : g.blk = blk) :
    (slot, g) ∈ s.groupsOf core blk := by
  have hmem : ∀ t : List (Nat × Option Group), tget none t slot = some g → (slot, some g) ∈ t := by
    intro t
    induction t with
    | nil => exact fun h => by cases h
    | cons e t ih =>
      obtain ⟨k, v⟩ := e
      rw [tget]
      split
      next hk =>
        intro hv
        rw [hk, hv]
        exact List.mem_cons_self
      next => exact fun hv => List.mem_cons_of_mem _ (ih hv)
  unfold State.groupsOf
  rw [List.mem_filterMap]
  exact ⟨(slot, some g), hmem _ h, if_pos hb⟩

/-! ### BLOCK_RETIRE -/

/-- The groups of some slots of a core are gone. -/
def State.dropGrp (core : Nat) (s : State) (e : Nat × Group) : State := s.setGrp { core := core, slot := e.1 } none

theorem State.dropGrps_rest (s : State) (gs : List (Nat × Group)) : { gs.foldl (State.dropGrp core) s with tes := s.tes } = s :=
  List.foldlRecOn (motive := fun t : State => { t with tes := s.tes } = s) gs _ rfl fun _ ht _ _ =>
    (congrArg (fun u : State => { u with tes := s.tes }) ht : _)

theorem State.dropGrps_blk? (s : State) (gs : List (Nat × Group)) (c b : Nat) : (gs.foldl (State.dropGrp core) s).blk? c b = s.blk? c b :=
  foldl_leaves_of_mem (f := fun t : State => t.blk? c b) (F := State.dropGrp core) (fun t _ _ => t.blk?_setGrp _ _ c b) s

theorem State.dropGrps_launch (s : State) (gs : List (Nat × Group)) (c : Nat) :
    ((gs.foldl (State.dropGrp core) s).te c).launch = (s.te c).launch :=
  foldl_leaves_of_mem (f := fun t : State => (t.te c).launch) (F := State.dropGrp core) (fun t _ _ => t.launch_setGrp _ _ c) s

/-- No group stands at a slot. -/
def State.NoGrp (g : GRef) (s : State) : Prop := s.grp? g = none

theorem State.dropGrps_grp? (s : State) {gs : List (Nat × Group)} {e : Nat × Group} (he : e ∈ gs) :
    (gs.foldl (State.dropGrp core) s).grp? { core := core, slot := e.1 } = none := by
  refine foldl_brings_about (P := State.NoGrp { core := core, slot := e.1 }) (F := State.dropGrp core) he (fun t x ht => ?_) (fun t => ?_) s
  · unfold State.NoGrp State.dropGrp
    by_cases hx : e.1 = x.1
    · rw [hx]
      exact State.grp?_setGrp_same ..
    · exact (State.grp?_setGrp_ne t none fun h => hx (congrArg GRef.slot h)).trans ht
  · exact State.grp?_setGrp_same ..

/-- The block is gone, and the launch counts it. -/
def State.retired (s : State) (core blk : Nat) (l : Launch) : State :=
  let v := ((s.groupsOf core blk).foldl (State.dropGrp core) s).setBlk core blk none
  (v.setTe core { v.te core with launch := some { l with retired := l.retired + 1 } }).countResident core

theorem State.retired_spec (s : State) (core blk : Nat) (l : Launch) : let u := s.retired core blk l
    { u with tes := s.tes, regs := s.regs } = s ∧ (∀ k, k ≠ texB core → u.reg k = s.reg k) ∧
    (u.te core).launch = some { l with retired := l.retired + 1 } ∧ u.blk? core blk = none ∧ (∀ x, x ≠ blk → u.blk? core x = s.blk? core x) ∧
    ∀ slot g, s.grp? { core := core, slot := slot } = some g → g.blk = blk → u.grp? { core := core, slot := slot } = none := by
  intro u
  have hrest := s.dropGrps_rest (core := core) (s.groupsOf core blk)
  have hblk := s.dropGrps_blk? (core := core) (s.groupsOf core blk) core
  have hgrp := fun e he => s.dropGrps_grp? (core := core) (gs := s.groupsOf core blk) (e := e) he
  have hu : u = s.retired core blk l := rfl
  clear_value u
  unfold State.retired at hu
  generalize (s.groupsOf core blk).foldl (State.dropGrp core) s = d at *
  dsimp only at hu
  have hv : { d.setBlk core blk none with tes := s.tes } = s := hrest
  have hvb := d.blk?_setBlk_same core blk none
  have hvo := fun x hx => d.blk?_setBlk_ne core (b := blk) (d := x) none hx
  have hvg := fun g => d.grp?_setBlk core blk none g
  generalize d.setBlk core blk none = v at *
  have htes : u.tes = (v.setTe core { v.te core with launch := some { l with retired := l.retired + 1 } }).tes := by
    rw [hu]
    exact State.countResident_tes ..
  have hte : u.te core = { v.te core with launch := some { l with retired := l.retired + 1 } } :=
    (State.te_congr htes core).trans (State.te_setTe_same ..)
  have hregs : ∀ k, k ≠ texB core → u.reg k = s.reg k := fun k hk => by
    rw [hu, State.reg_countResident_ne _ _ hk, ← hv]
    rfl
  have hr : { u with tes := s.tes, regs := s.regs } = s := by
    have h1 := (v.setTe core { v.te core with launch := some { l with retired := l.retired + 1 } }).countResident_rest core
    rw [← hu] at h1
    have h2 : { u with tes := s.tes, regs := v.regs } = { v with tes := s.tes } := congrArg (fun t : State => { t with tes := s.tes }) h1
    have h3 : v.regs = s.regs := (congrArg State.regs hv :)
    rw [← h3, h2, hv]
  refine ⟨hr, hregs, by rw [hte], ?_, fun x hx => ?_, fun slot g hg hb => ?_⟩
  · unfold State.blk? at hvb ⊢
    rw [hte]
    exact hvb
  · refine Eq.trans ?_ ((hvo x hx).trans (hblk x))
    unfold State.blk?
    rw [hte]
  · refine Eq.trans ?_ ((hvg { core := core, slot := slot }).trans (hgrp (slot, g) (State.mem_groupsOf_of_grp? hg hb)))
    unfold State.grp?
    rw [hte]

theorem effBlockRetire_of {l : Launch} {b : Block} (hl : (s.te core).launch = some l) (hb : s.blk? core blk = some b) (hc : b.copies = [])
    (he : ∀ e ∈ s.groupsOf core blk, e.2.exited = BitVec.allOnes 64)
    (hlast : l.retired + 1 = l.total → (s.flushLaunch core l).writesPending core l = false ∧
      ((s.run? l.run).any (fun r => r.cls == 1) = true → ((s.flushLaunch core l).te core).launch.isSome = true)) :
    effBlockRetire core blk s = if l.retired + 1 = l.total then (s.retired core blk l).launchDone core { l with retired := l.retired + 1 }
      else s.retired core blk l := by
  have hlive : ((s.groupsOf core blk).any fun g => g.2.live != 0#64) = false := by
    rw [List.any_eq_false]
    intro e hm
    have h0 : e.2.live = 0#64 := by
      rw [Group.live, he e hm]
      exact BitVec.not_allOnes
    rw [h0]
    exact Bool.false_ne_true
  have hc1 : ¬(!b.copies.isEmpty || (s.groupsOf core blk).any fun g => g.2.live != 0#64) = true := by
    rw [hc, hlive]
    exact Bool.false_ne_true
  have hc2 : ¬(l.retired + 1 = l.total ∧ (s.run? l.run).any (fun r => r.cls == 1) ∧ ((s.flushLaunch core l).te core).launch.isNone = true) := by
    rintro ⟨h1, h2, h3⟩
    have h4 := (hlast h1).2 h2
    rw [← Option.not_isSome, h4] at h3
    exact Bool.false_ne_true h3
  have hc3 : ¬(l.retired + 1 = l.total ∧ (s.flushLaunch core l).writesPending core l = true) := fun ⟨h1, h2⟩ =>
    Bool.false_ne_true ((hlast h1).1.symm.trans h2)
  unfold effBlockRetire
  rw [hl, hb]
  dsimp only
  rw [if_neg hc1, if_neg hc2, if_neg hc3]
  rfl

end

/-! ### MEET_COMPLETE -/

theorem insertPath_perm (p : MeetPath) (l : List MeetPath) : (insertPath p l).Perm (p :: l) := by
  induction l with
  | nil => exact List.Perm.refl _
  | cons q r ih =>
    rw [insertPath]
    split
    · exact List.Perm.refl _
    · exact (ih.cons q).trans (List.Perm.swap ..)

/-- Induction over a list from its end. -/
theorem list_concat_induction {α : Type} {P : List α → Prop} (nil : P []) (concat : ∀ l a, P l → P (l ++ [a])) (l : List α) : P l := by
  have h : P l.reverse.reverse := by
    induction l.reverse with
    | nil => exact nil
    | cons a r ih =>
      rw [List.reverse_cons]
      exact concat _ _ ih
  rwa [List.reverse_reverse] at h

/-- Paths in the order of their addresses. -/
def PathsSorted (l : List MeetPath) : Prop := l.Pairwise fun p q => p.pc.toNat ≤ q.pc.toNat

theorem insertPath_sorted (p : MeetPath) {l : List MeetPath} (h : PathsSorted l) : PathsSorted (insertPath p l) := by
  unfold PathsSorted at h ⊢
  induction l with
  | nil => exact List.pairwise_singleton ..
  | cons q r ih =>
    obtain ⟨hq, hr⟩ := List.pairwise_cons.1 h
    rw [insertPath]
    split
    next hlt =>
      refine List.pairwise_cons.2 ⟨fun x hx => ?_, h⟩
      rcases List.mem_cons.1 hx with rfl | hx
      · exact Nat.le_of_lt hlt
      · exact Nat.le_trans (Nat.le_of_lt hlt) (hq x hx)
    next hge =>
      refine List.pairwise_cons.2 ⟨fun x hx => ?_, ih hr⟩
      rcases List.mem_cons.1 ((insertPath_perm p r).mem_iff.1 hx) with rfl | hx
      · exact Nat.not_lt.1 hge
      · exact hq x hx

/-- The paths of a meeting, lowest address first. -/
def sortedPaths (ps : List MeetPath) : List MeetPath := ps.foldl (fun l p => insertPath p l) []

theorem sortedPaths_spec (ps : List MeetPath) : (sortedPaths ps).Perm ps ∧ PathsSorted (sortedPaths ps) := by
  have hgen : ∀ l, PathsSorted l → (ps.foldl (fun l p => insertPath p l) l).Perm (ps ++ l) ∧ PathsSorted (ps.foldl (fun l p => insertPath p l) l) := by
    induction ps with
    | nil => exact fun l h => ⟨List.Perm.refl _, h⟩
    | cons p ps ih =>
      intro l h
      obtain ⟨h1, h2⟩ := ih _ (insertPath_sorted p h)
      exact ⟨h1.trans (((insertPath_perm p l).append_left ps).trans List.perm_middle), h2⟩
  have h := hgen [] List.Pairwise.nil
  rw [List.append_nil] at h
  exact h

/-- A group goes on behind its barrier. -/
def Group.met (g : Group) : Group := { g with resume := (sortedPaths g.meets).map (fun p => { p with pc := p.pc + 8#64 }), meets := [] }

/-- A group of a block goes on, and its pipe's L0 is emptied. -/
def State.meetGrp (core : Nat) (s : State) (e : Nat × Group) : State :=
  let s := s.putGrp { core := core, slot := e.1 } e.2.met
  s.setTe core ((s.te core).dropL0 e.2.pipe)

section
variable (s : State) (core : Nat) (gs : List (Nat × Group))

theorem State.meetGrp_te (e : Nat × Group) : (State.meetGrp core s e).te core =
    { s.te core with groups := tset none (s.te core).groups e.1 (some e.2.met.settle), l0 := (s.te core).l0.filter fun x => x.1 % 8 ≠ e.2.pipe } := by
  unfold State.meetGrp State.putGrp State.setGrp
  dsimp only
  rw [State.te_setTe_same, State.te_setTe_same]
  rfl

theorem State.meetGrps_rest : { gs.foldl (State.meetGrp core) s with tes := s.tes } = s :=
  List.foldlRecOn (motive := fun t : State => { t with tes := s.tes } = s) gs _ rfl fun _ ht _ _ =>
    (congrArg (fun u : State => { u with tes := s.tes }) ht : _)

theorem State.meetGrps_blk? (b : Nat) : (gs.foldl (State.meetGrp core) s).blk? core b = s.blk? core b := by
  refine foldl_leaves_of_mem (f := fun t : State => t.blk? core b) (F := State.meetGrp core) (fun t e _ => ?_) s
  unfold State.blk?
  rw [State.meetGrp_te]

theorem State.meetGrp_grp?_same (e : Nat × Group) : (State.meetGrp core s e).grp? { core := core, slot := e.1 } = some e.2.met.settle := by
  unfold State.grp?
  rw [State.meetGrp_te]
  exact tget_tset_same none (s.te core).groups e.1 (some e.2.met.settle)

theorem State.meetGrp_grp?_ne (e : Nat × Group) {slot : Nat} (h : slot ≠ e.1) :
    (State.meetGrp core s e).grp? { core := core, slot := slot } = s.grp? { core := core, slot := slot } := by
  unfold State.grp?
  rw [State.meetGrp_te]
  exact tget_tset_ne none (s.te core).groups (some e.2.met.settle) h

/-- The L0 of a pipe holds no line. -/
def State.L0Empty (core pipe : Nat) (s : State) : Prop := ∀ x ∈ (s.te core).l0, x.1 % 8 ≠ pipe

/-- Every slot of the list takes the group that one of its elements gives. -/
theorem State.meetGrps_grp? {e : Nat × Group} (he : e ∈ gs) : ∃ g, (e.1, g) ∈ gs ∧
    (gs.foldl (State.meetGrp core) s).grp? { core := core, slot := e.1 } = some g.met.settle := by
  induction gs using list_concat_induction with
  | nil => cases he
  | concat gs x ih =>
    rw [List.foldl_append, List.foldl_cons, List.foldl_nil]
    by_cases hx : e.1 = x.1
    · refine ⟨x.2, ?_, ?_⟩
      · rw [hx]
        exact List.mem_append_right _ List.mem_cons_self
      · rw [hx]
        exact State.meetGrp_grp?_same ..
    · have hm : e ∈ gs := by
        rcases List.mem_append.1 he with h | h
        · exact h
        · exact absurd (congrArg Prod.fst (List.mem_singleton.1 h)) hx
      obtain ⟨g, hg, ht⟩ := ih hm
      exact ⟨g, List.mem_append_left _ hg, (State.meetGrp_grp?_ne _ _ _ hx).trans ht⟩

theorem State.meetGrps_l0 {e : Nat × Group} (he : e ∈ gs) : State.L0Empty core e.2.pipe (gs.foldl (State.meetGrp core) s) := by
  refine foldl_brings_about (P := State.L0Empty core e.2.pipe) (F := State.meetGrp core) he (fun t x ht => ?_) (fun t => ?_) s
  · unfold State.L0Empty
    rw [State.meetGrp_te]
    exact fun y hy => ht y (List.mem_filter.1 hy).1
  · unfold State.L0Empty
    rw [State.meetGrp_te]
    exact fun y hy => of_decide_eq_true (List.mem_filter.1 hy).2

theorem stampAt_of_l0Empty {pipe : Nat} (h : State.L0Empty core pipe s) (hp : pipe < 8) (line : Nat) :
    stampAt (s.te core).l0 (ownKey pipe line) = none := by
  unfold stampAt
  rw [Option.map_eq_none_iff, List.find?_eq_none]
  intro x hx he
  have h1 := h x hx
  rw [of_decide_eq_true he, ownKey] at h1
  omega

end

theorem meetComplete_spec {s : State} {core blk : Nat} {b : Block} (hcore : core < 256) (hblk : blk < 16) (hb : s.blk? core blk = some b)
    (hall : ∀ e ∈ s.groupsOf core blk, ~~~e.2.exited &&& ~~~e.2.arrived = 0#64) (hsome : ∃ e ∈ s.groupsOf core blk, e.2.arrived ≠ 0#64)
    (hl : ∃ l, (s.te core).launch = some l ∧ s.writesPending core l = false) :
    ∃ t, exec (.meetComplete core blk) s = .next t ∧ { t with tes := s.tes } = s ∧
      t.blk? core blk = some { b with gen := b.gen + 1, races := [] } ∧
      ∀ e ∈ s.groupsOf core blk, ∃ (g : Group) (order : List MeetPath), (e.1, g) ∈ s.groupsOf core blk ∧ order.Perm g.meets ∧
        order.Pairwise (fun p q => p.pc.toNat ≤ q.pc.toNat) ∧
        t.grp? { core := core, slot := e.1 } = some ({ g with meets := [], resume := order.map fun p => { p with pc := p.pc + 8#64 } } : Group).settle ∧
        (g.pipe < 8 → ∀ line, stampAt (t.te core).l0 (ownKey g.pipe line) = none) := by
  obtain ⟨l, hl, hw⟩ := hl
  have hgo : ((s.groupsOf core blk).all (fun g => g.2.live &&& ~~~g.2.arrived == 0#64) && (s.groupsOf core blk).any (fun g => g.2.arrived != 0#64)) = true := by
    rw [Bool.and_eq_true, List.all_eq_true, List.any_eq_true]
    obtain ⟨e, he, ha⟩ := hsome
    exact ⟨fun e he => beq_iff_eq.2 (hall e he), e, he, bne_iff_ne.2 ha⟩
  have heff : effMeetComplete core blk s =
      (s.groupsOf core blk).foldl (State.meetGrp core) (s.setBlk core blk (some { b with gen := b.gen + 1, races := [] })) := by
    unfold effMeetComplete
    rw [hb, hl]
    dsimp only
    rw [if_neg (Bool.eq_false_iff.1 hw), if_pos hgo]
    rfl
  have hok : (decide (core < Config.cores) && decide (blk < 16)) = true := by
    rw [decide_eq_true hblk, Bool.and_true]
    exact decide_eq_true hcore
  refine ⟨_, exec_of rfl hok heff, ?_, ?_, fun e he => ?_⟩
  · exact (congrArg (fun u : State => { u with tes := s.tes }) (State.meetGrps_rest
      (s.setBlk core blk (some { b with gen := b.gen + 1, races := [] })) core (s.groupsOf core blk)) : _)
  · exact (State.meetGrps_blk? ..).trans (State.blk?_setBlk_same ..)
  · obtain ⟨g, hg, ht⟩ := State.meetGrps_grp? (s.setBlk core blk (some { b with gen := b.gen + 1, races := [] })) core (s.groupsOf core blk) he
    obtain ⟨hperm, hsorted⟩ := sortedPaths_spec g.meets
    exact ⟨g, sortedPaths g.meets, hg, hperm, hsorted, ht, fun hp line => stampAt_of_l0Empty _ core (State.meetGrps_l0 _ core _ hg) hp line⟩

/-! ### Timeouts and copies -/

section
variable {s : State} {core blk : Nat}

theorem effBarrierTimeout_of {slot : Nat} {g : Group} (hsome : ∃ e ∈ s.groupsOf core blk, e.2.arrived ≠ 0#64)
    (hf : (s.groupsOf core blk).find? (fun e => e.2.live &&& ~~~e.2.arrived != 0#64) = some (slot, g)) :
    effBarrierTimeout core blk s = s.threadFault core slot blk (g.pcOf (firstLane (g.live &&& ~~~g.arrived)))
      (firstLane (g.live &&& ~~~g.arrived)) 0x23 none := by
  have hany : ((s.groupsOf core blk).any fun g => g.2.arrived != 0#64) = true := by
    obtain ⟨e, he, ha⟩ := hsome
    exact List.any_eq_true.2 ⟨e, he, bne_iff_ne.2 ha⟩
  unfold effBarrierTimeout
  dsimp only
  rw [if_pos hany, hf]
  rfl

theorem effWaitcTimeout_of {g : GRef} {grp : Group} {k : Nat} {v : W32} {m pc : W64} (hg : s.grp? g = some grp) (hw : grp.waitc = some (k, v, m, pc)) :
    effWaitcTimeout g s = s.threadFault g.core g.slot grp.blk grp.pc (firstLane m) 0x23 none := by
  unfold effWaitcTimeout
  rw [hg]
  dsimp only
  rw [hw]
  rfl

section
variable {idx : Nat} {l : Launch} {b : Block} {c : Copy} {u : State} (hl : (s.te core).launch = some l) (hb : s.blk? core blk = some b)
  (hc : b.copies[idx]? = some c) (hm : ∀ p ∈ c.pieces.flatten, s.mopnHeld (s.runWho l.q l.run) p.1 p.2 = false)
  (hf : (s.fetchMissing (s.runWho l.q l.run) c.hint (fun _ => none) false c.pieces.flatten).2 = true)
include hl hb hc hm hf

theorem effCopyComplete_done (ha : s.asyncAll (s.runWho l.q l.run) b core c c.pieces 0 = (u, none)) :
    effCopyComplete core blk idx s = (u.setBlk core blk (some { b with copies := b.copies.eraseIdx idx })).raiseCtr core blk c.ctr := by
  have hno : ¬(c.pieces.flatten.any fun p => s.mopnHeld (s.runWho l.q l.run) p.1 p.2) = true := by
    rw [List.any_eq_true]
    rintro ⟨p, hp, hh⟩
    exact Bool.false_ne_true ((hm p hp).symm.trans hh)
  unfold effCopyComplete
  rw [hl, hb]
  dsimp only
  rw [hc]
  dsimp only
  rw [if_neg hno, hf, Bool.not_true, if_neg Bool.false_ne_true, ha]

theorem effCopyComplete_fault {code a : Nat} (ha : s.asyncAll (s.runWho l.q l.run) b core c c.pieces 0 = (u, some (code, a)))
    (hk : killsContext code = true) : effCopyComplete core blk idx s = u.threadFault core c.slot blk c.pc c.lane code (some (a, false)) := by
  have hno : ¬(c.pieces.flatten.any fun p => s.mopnHeld (s.runWho l.q l.run) p.1 p.2) = true := by
    rw [List.any_eq_true]
    rintro ⟨p, hp, hh⟩
    exact Bool.false_ne_true ((hm p hp).symm.trans hh)
  unfold effCopyComplete
  rw [hl, hb]
  dsimp only
  rw [hc]
  dsimp only
  rw [if_neg hno, hf, Bool.not_true, if_neg Bool.false_ne_true, ha]
  cases code with
  | zero => exact absurd hk (by decide)
  | succ n => exact if_pos hk

end
end

/-- Settles O26: the row of each event, with the groups, the paths and the L0 that a barrier leaves. -/
theorem blockProgress : Obligations.BlockProgress := by
  unfold Obligations.BlockProgress
  have hok : ∀ {core blk : Nat}, core < 256 → blk < 16 → (decide (core < Config.cores) && decide (blk < 16)) = true := by
    intro core blk hcore hblk
    rw [decide_eq_true hblk, Bool.and_true]
    exact decide_eq_true hcore
  refine ⟨fun s core blk b hcore hblk hb => ⟨fun l hl hc he hlast => ?_, fun hall hsome hl => meetComplete_spec hcore hblk hb hall hsome hl⟩,
    fun s core blk hcore hblk => ⟨fun slot g hsome hf => ?_, fun g grp k v m pc hg hgrp hw => ?_, fun l b idx c hl hb hc => ?_⟩⟩
  · exact ⟨s.retired core blk l, exec_of rfl (hok hcore hblk) (effBlockRetire_of hl hb hc he hlast), s.retired_spec core blk l⟩
  · exact ⟨_, exec_of rfl (hok hcore hblk) (effBarrierTimeout_of hsome hf), s.threadFault_faultsWith _ _ _ _ _ none rfl⟩
  · exact ⟨_, exec_of rfl hg (effWaitcTimeout_of hgrp hw), s.threadFault_faultsWith _ _ _ _ _ none rfl⟩
  · intro who hm hf
    exact ⟨fun u ha => exec_of rfl (hok hcore hblk) (effCopyComplete_done hl hb hc hm hf ha), fun u code a ha hk =>
      ⟨_, exec_of rfl (hok hcore hblk) (effCopyComplete_fault hl hb hc hm hf ha hk), u.threadFault_faultsWith _ _ _ _ _ (some (a, false)) hk⟩⟩

end Sys2Proof.Machine

/-!
PROOFS. Requests at a home (09_coherence R258-R262, R265, R269, R272).
-/

namespace Sys2Proof.Machine

section
variable {s : State} {t : MsgTy} {m : CMsg} {f : State → State}

theorem State.onArrival_not (h : s.arrives t m = false) : s.onArrival t m f = s := if_neg (Bool.eq_false_iff.1 h)

theorem State.onArrival_of (h : s.arrives t m = true) : s.onArrival t m f = f (s.unsend t m) := if_pos h

/-! ### A message that leaves the mesh changes nothing that a home looks at -/

theorem State.dir?_unsend (l : Nat) : (s.unsend t m).dir? l = s.dir? l := rfl
theorem State.lineHeld_unsend (l : Nat) : (s.unsend t m).lineHeld l = s.lineHeld l := rfl
theorem State.dirFull_unsend (l : Nat) : (s.unsend t m).dirFull l = s.dirFull l := rfl
theorem State.isLost_unsend (x : Nat) : (s.unsend t m).isLost x = s.isLost x := rfl
theorem State.sharersOf_unsend (e : DirE) (x : Nat) : (s.unsend t m).sharersOf e x = s.sharersOf e x := rfl

/-! ### What a home does with a message -/

theorem State.homeMsg_lost (h : s.isLost (homeL m) = true) : s.homeMsg t m = s := if_pos h

theorem State.homeMsg_held (hl : s.isLost (homeL m) = false) (h : s.lineHeld m.line = true) :
    s.homeMsg t m = s.withArc fun a => { a with waitq := a.waitq ++ [(t, m)] } :=
  (if_neg (Bool.eq_false_iff.1 hl)).trans (if_pos h)

theorem State.homeMsg_begins (hl : s.isLost (homeL m) = false) (h : s.lineHeld m.line = false) : s.homeMsg t m = s.beginHome t m :=
  (if_neg (Bool.eq_false_iff.1 hl)).trans (if_neg (Bool.eq_false_iff.1 h))

theorem State.beginHome_waits (ht : t.takesEntry = true) (hd : s.dir? m.line = none) (hf : s.dirFull m.line = true) :
    s.beginHome t m = s.awaitEntry t m := by
  refine if_pos ?_
  rw [ht, hd, hf]
  rfl

theorem State.beginHome_starts (h : t.takesEntry = false ∨ s.dir? m.line ≠ none ∨ s.dirFull m.line = false) : s.beginHome t m = s.startHome t m := by
  refine if_neg ?_
  rcases h with h | h | h
  · rw [h, Bool.false_and, Bool.false_and]
    exact Bool.false_ne_true
  · rw [Option.isNone_eq_false_iff.2 (Option.isSome_iff_ne_none.2 h), Bool.and_false, Bool.false_and]
    exact Bool.false_ne_true
  · rw [h, Bool.and_false]
    exact Bool.false_ne_true

/-- The request of a lost slice for a copy. -/
def MsgTy.forCopy (t : MsgTy) : Bool := [MsgTy.rdS, .own, .upgr].contains t

theorem State.startHome_lost (ht : t.forCopy = true) (h : s.isLost m.req = true) : s.startHome t m = s := by
  have hc : (s.isLost m.req && [MsgTy.rdS, .own, .upgr].contains t) = true := by
    rw [h]
    exact ht
  exact if_pos hc

theorem State.startHome_live (h : t.forCopy = false ∨ s.isLost m.req = false) :
    ¬(s.isLost m.req && [MsgTy.rdS, .own, .upgr].contains t) = true := by
  rcases h with h | h
  · have h' : [MsgTy.rdS, .own, .upgr].contains t = false := h
    rw [h', Bool.and_false]
    exact Bool.false_ne_true
  · rw [h, Bool.false_and]
    exact Bool.false_ne_true

/-! ### RD_S -/

theorem State.homeRead_new (hd : s.dir? m.line = none) :
    s.homeRead m = (s.setDir m.line { sharers := 0#72, owner := some m.req }).grantLine m .E 0 := by
  unfold State.homeRead
  rw [hd]

theorem State.homeRead_shared {d : DirE} (hd : s.dir? m.line = some d) (ho : d.owner = none) :
    s.homeRead m = (s.setDir m.line { d with sharers := d.sharers ||| (1#72 <<< m.req) }).grantLine m .S 0 := by
  unfold State.homeRead
  rw [hd]
  dsimp only
  rw [ho]
  dsimp only [addSharer]
  rw [ho]

theorem State.homeRead_own {d : DirE} (hd : s.dir? m.line = some d) (ho : d.owner = some m.req) :
    s.homeRead m = s.grantLine m (if d.sharers = 0#72 then .E else .S) 0 := by
  unfold State.homeRead
  rw [hd]
  dsimp only
  rw [ho]
  dsimp only
  rw [if_pos rfl]
  simp only [beq_iff_eq]

theorem State.homeRead_owned {d : DirE} {o : Nat} (hd : s.dir? m.line = some d) (ho : d.owner = some o) (hne : o ≠ m.req) :
    s.homeRead m = (s.send .snpS { m with src := homeL m, dst := o }).addTxn .read .rdS m 1 := by
  unfold State.homeRead
  rw [hd]
  dsimp only
  rw [ho]
  exact if_neg hne

/-! ### OWN and UPGR -/

/-- The entry of a line at its home: none is an entry without holders. -/
def State.entryOf (s : State) (line : Nat) : DirE := (s.dir? line).getD { sharers := 0#72, owner := none }

/-- An UPGR of a slice that the directory does not name asks for every sector. -/
def upgraded (e : DirE) (m : CMsg) : CMsg := if e.sharers.getLsbD m.req = true ∨ e.owner = some m.req then m else { m with sectors := 15 }

theorem upgraded_same (e : DirE) (m : CMsg) : (upgraded e m).line = m.line ∧ (upgraded e m).req = m.req := by
  unfold upgraded
  split <;> exact ⟨rfl, rfl⟩

theorem homeL_congr {m n : CMsg} (h : m.line = n.line) : homeL m = homeL n := by rw [homeL, homeL, h]

/-- What a home does for ownership of a line, the requester's message and the slice that gets no INV being given. -/
theorem State.homeOwn_eq (s : State) (up : Bool) (m0 m : CMsg) (but : Nat)
    (hm : (if up && !((s.entryOf m0.line).sharers.getLsbD m0.req || (s.entryOf m0.line).owner = some m0.req) then { m0 with sectors := 15 } else m0) = m)
    (hb : (if up then m.req else 72) = but) (hl : m.line = m0.line) (hr : m.req = m0.req) :
    let xs := s.sharersOf (s.entryOf m0.line) but
    let u := s.sendInvs m xs m0.req false
    ((s.entryOf m0.line).owner = none ∨ (s.entryOf m0.line).owner = some m0.req →
      s.homeOwn up m0 = (u.setDir m0.line { sharers := 0#72, owner := some m0.req }).grantLine m .M xs.length) ∧
    ∀ o, (s.entryOf m0.line).owner = some o → o ≠ m0.req →
      s.homeOwn up m0 = (u.send .snpX { m with src := homeL m0, dst := o, count := xs.length }).addTxn .own .own { m with count := xs.length } 1 := by
  intro xs u
  unfold State.homeOwn
  extract_lets e named m' xs' v
  have hm' : m' = m := hm
  have hxs : xs' = xs := by
    have hb' : (if up = true then m'.req else 72) = but := by rw [hm', hb]
    exact congrArg (s.sharersOf e) hb'
  have hv : v = u := by
    have : v = s.sendInvs m' xs' m'.req false := rfl
    rw [this, hm', hxs, hr]
  rw [hm', hxs, hv, hl, hr]
  constructor
  · rintro (h | h)
    · have he : e.owner = none := h
      rw [he]
    · have he : e.owner = some m0.req := h
      rw [he]
      exact if_pos rfl
  · intro o ho hne
    have he : e.owner = some o := ho
    rw [he]
    dsimp only
    rw [if_neg hne, homeL_congr hl]

/-! ### Operations and merges -/

theorem State.sendInvs_nil (s : State) (m : CMsg) (x : Nat) (b : Bool) : s.sendInvs m [] x b = s := rfl

/-- The slice other than the home that owns a line. -/
def DirE.otherOwner (e : DirE) (h : Nat) : Option Nat :=
  match e.owner with
  | some o => if o = h then none else some o
  | none => none

theorem DirE.otherOwner_none {e : DirE} {h : Nat} (ho : e.owner = none ∨ e.owner = some h) : e.otherOwner h = none := by
  unfold DirE.otherOwner
  rcases ho with ho | ho
  · rw [ho]
  · rw [ho]
    exact if_pos rfl

theorem DirE.otherOwner_some {e : DirE} {h o : Nat} (ho : e.owner = some o) (hne : o ≠ h) : e.otherOwner h = some o := by
  unfold DirE.otherOwner
  rw [ho]
  exact if_neg hne

/-- A home makes itself the only holder: it waits for the sharers and for the slice that owns the line. -/
def State.soleWith (s : State) (t : MsgTy) (m : CMsg) (xs : List Nat) (o : Option Nat) : State :=
  let s := s.sendInvs m xs (homeL m) true
  let s := match o with
    | some o => s.send .recall { line := m.line, req := m.req, src := homeL m, dst := o, part := m.part, cid := m.cid }
    | none => s
  let need := xs.length + b2n o.isSome
  if need = 0 then s.applySole t m 0#512 0 else s.addTxn .sole t m need

theorem State.homeSole_eq (s : State) (t : MsgTy) (m : CMsg) :
    s.homeSole t m = s.soleWith t m (s.sharersOf (s.entryOf m.line) (homeL m)) ((s.entryOf m.line).otherOwner (homeL m)) := rfl

theorem State.soleWith_none (s : State) (t : MsgTy) (m : CMsg) (xs : List Nat) : s.soleWith t m xs none =
    if xs = [] then s.applySole t m 0#512 0 else (s.sendInvs m xs (homeL m) true).addTxn .sole t m xs.length := by
  unfold State.soleWith
  extract_lets u v need
  have hn : need = xs.length := Nat.add_zero _
  have hv : v = u := rfl
  rw [hn, hv]
  by_cases hx : xs = []
  · have hu : u = s := by
      have : u = s.sendInvs m xs (homeL m) true := rfl
      rw [this, hx, State.sendInvs_nil]
    rw [if_pos hx, if_pos (List.length_eq_zero_iff.2 hx), hu]
  · rw [if_neg hx, if_neg (mt List.length_eq_zero_iff.1 hx)]

theorem State.soleWith_some (s : State) (t : MsgTy) (m : CMsg) (xs : List Nat) (o : Nat) : s.soleWith t m xs (some o) =
    ((s.sendInvs m xs (homeL m) true).send .recall
      { line := m.line, req := m.req, src := homeL m, dst := o, part := m.part, cid := m.cid }).addTxn .sole t m (xs.length + 1) := by
  unfold State.soleWith
  extract_lets u v need
  have hn : need = xs.length + 1 := rfl
  rw [hn]
  exact if_neg (Nat.succ_ne_zero _)

theorem State.homeSole_sole (ho : (s.entryOf m.line).owner = none ∨ (s.entryOf m.line).owner = some (homeL m)) :
    s.homeSole t m = if s.sharersOf (s.entryOf m.line) (homeL m) = [] then s.applySole t m 0#512 0
      else (s.sendInvs m (s.sharersOf (s.entryOf m.line) (homeL m)) (homeL m) true).addTxn .sole t m
        (s.sharersOf (s.entryOf m.line) (homeL m)).length := by
  rw [State.homeSole_eq, DirE.otherOwner_none ho, State.soleWith_none]

theorem State.homeSole_owned {o : Nat} (ho : (s.entryOf m.line).owner = some o) (hne : o ≠ homeL m) :
    s.homeSole t m = ((s.sendInvs m (s.sharersOf (s.entryOf m.line) (homeL m)) (homeL m) true).send .recall
      { line := m.line, req := m.req, src := homeL m, dst := o, part := m.part, cid := m.cid }).addTxn .sole t m
        ((s.sharersOf (s.entryOf m.line) (homeL m)).length + 1) := by
  rw [State.homeSole_eq, DirE.otherOwner_some ho hne, State.soleWith_some]

end

/-- A request of a slice reaches its line's home. -/
def homeRows (m : CMsg) : List (Instr × MsgTy) :=
  [(Instr.rdS m, MsgTy.rdS), (.own m, .own), (.upgr m, .upgr), (.flush m, .flush), (.atom m, .atom), (.cmt m, .cmt), (.log m, .log), (.mir m, .mir)]

theorem exec_homeRow {s : State} {m : CMsg} {r : Instr × MsgTy} (h : r ∈ homeRows m) :
    exec r.1 s = carryOut m.ok (s.onArrival r.2 m fun s => s.homeMsg r.2 m) := by
  simp only [homeRows, List.mem_cons, List.not_mem_nil, or_false] at h
  rcases h with rfl | rfl | rfl | rfl | rfl | rfl | rfl | rfl <;> rfl

section
variable {s : State} {m : CMsg} {r : Instr × MsgTy} (hr : r ∈ homeRows m) (hok : m.ok = true)
include hr hok

theorem homeRow_not (ha : s.arrives r.2 m = false) : exec r.1 s = .next s := exec_of (exec_homeRow hr) hok (State.onArrival_not ha)

theorem homeRow_of {t : State} (ha : s.arrives r.2 m = true) (ht : (s.unsend r.2 m).homeMsg r.2 m = t) : exec r.1 s = .next t :=
  exec_of (exec_homeRow hr) hok ((State.onArrival_of ha).trans ht)

/-- A request that finds a live home, a free line and room in the directory begins. -/
theorem homeRow_starts {t : State} (ha : s.arrives r.2 m = true) (hl : s.isLost (homeL m) = false) (hh : s.lineHeld m.line = false)
    (hd : r.2.takesEntry = false ∨ s.dir? m.line ≠ none ∨ s.dirFull m.line = false)
    (ht : (s.unsend r.2 m).startHome r.2 m = t) : exec r.1 s = .next t :=
  homeRow_of hr hok ha ((State.homeMsg_begins (s := s.unsend r.2 m) hl hh).trans ((State.beginHome_starts (s := s.unsend r.2 m) hd).trans ht))

end

theorem takesEntry_of_ne_flush {m : CMsg} {r : Instr × MsgTy} (h : r ∈ homeRows m) (hf : r.2 ≠ .flush) : r.2.takesEntry = true := by
  simp only [homeRows, List.mem_cons, List.not_mem_nil, or_false] at h
  rcases h with rfl | rfl | rfl | rfl | rfl | rfl | rfl | rfl
  case inr.inr.inr.inl => exact absurd rfl hf
  all_goals rfl

section
variable {s : State} {m : CMsg} (hok : m.ok = true) (hl : s.isLost (homeL m) = false) (hh : s.lineHeld m.line = false)
include hok hl hh

theorem flush_spec (ha : s.arrives .flush m = true) :
    ((s.entryOf m.line).owner = none →
      exec (.flush m) s = .next ((s.unsend .flush m).send .fwdAck { m with src := homeL m, dst := m.req, alt := true })) ∧
    ∀ o, (s.entryOf m.line).owner = some o →
      exec (.flush m) s = .next (((s.unsend .flush m).send .clean { m with src := homeL m, dst := o }).addTxn .flush .flush m 1) := by
  have hmem : (Instr.flush m, MsgTy.flush) ∈ homeRows m := by simp [homeRows]
  have hstart : (s.unsend .flush m).startHome .flush m = (s.unsend .flush m).homeFlush m := if_neg (State.startHome_live (.inl rfl))
  have hown : (((s.unsend .flush m).dir? m.line).bind (·.owner)) = (s.entryOf m.line).owner := by
    rw [State.dir?_unsend, State.entryOf]
    cases s.dir? m.line <;> rfl
  refine ⟨fun ho => homeRow_starts hmem hok ha hl hh (.inl rfl) (hstart.trans ?_), fun o ho =>
    homeRow_starts hmem hok ha hl hh (.inl rfl) (hstart.trans ?_)⟩
  · unfold State.homeFlush
    rw [hown, ho]
  · unfold State.homeFlush
    rw [hown, ho]

variable (hd : s.dir? m.line ≠ none ∨ s.dirFull m.line = false)
include hd

theorem lostRequester_spec (hq : s.isLost m.req = true) :
    ∀ r ∈ [(Instr.rdS m, MsgTy.rdS), (.own m, .own), (.upgr m, .upgr)], s.arrives r.2 m = true → exec r.1 s = .next (s.unsend r.2 m) := by
  intro r hr ha
  have hmem : r ∈ homeRows m := 
    List.mem_append_left [(Instr.flush m, MsgTy.flush), (.atom m, .atom), (.cmt m, .cmt), (.log m, .log), (.mir m, .mir)] hr
  have hc : r.2.forCopy = true := by
    simp only [List.mem_cons, List.not_mem_nil, or_false] at hr
    rcases hr with rfl | rfl | rfl <;> rfl
  exact homeRow_starts hmem hok ha hl hh (.inr hd) (State.startHome_lost hc hq)

theorem rdS_spec (hq : s.isLost m.req = false) (ha : s.arrives .rdS m = true) :
    let u := s.unsend .rdS m
    (s.dir? m.line = none → exec (.rdS m) s = .next ((u.setDir m.line { sharers := 0#72, owner := some m.req }).grantLine m .E 0)) ∧
    ∀ d, s.dir? m.line = some d →
      (d.owner = none → exec (.rdS m) s = .next ((u.setDir m.line { d with sharers := d.sharers ||| (1#72 <<< m.req) }).grantLine m .S 0)) ∧
      (d.owner = some m.req → exec (.rdS m) s = .next (u.grantLine m (if d.sharers = 0#72 then .E else .S) 0)) ∧
      ∀ o, d.owner = some o → o ≠ m.req →
        exec (.rdS m) s = .next ((u.send .snpS { m with src := homeL m, dst := o }).addTxn .read .rdS m 1) := by
  intro u
  have hmem : (Instr.rdS m, MsgTy.rdS) ∈ homeRows m := by simp [homeRows]
  have hgo : ∀ {t}, u.homeRead m = t → exec (.rdS m) s = .next t := fun ht =>
    homeRow_starts hmem hok ha hl hh (.inr hd) ((if_neg (State.startHome_live (s := u) (.inr hq))).trans ht)
  exact ⟨fun h => hgo (State.homeRead_new (s := u) h), fun d h => ⟨fun ho => hgo (State.homeRead_shared (s := u) h ho),
    fun ho => hgo (State.homeRead_own (s := u) h ho), fun o ho hne => hgo (State.homeRead_owned (s := u) h ho hne)⟩⟩

theorem own_spec (hq : s.isLost m.req = false) (ha : s.arrives .own m = true) :
    let xs := s.sharersOf (s.entryOf m.line) 72
    let u := (s.unsend .own m).sendInvs m xs m.req false
    ((s.entryOf m.line).owner = none ∨ (s.entryOf m.line).owner = some m.req →
      exec (.own m) s = .next ((u.setDir m.line { sharers := 0#72, owner := some m.req }).grantLine m .M xs.length)) ∧
    ∀ o, (s.entryOf m.line).owner = some o → o ≠ m.req →
      exec (.own m) s = .next ((u.send .snpX { m with src := homeL m, dst := o, count := xs.length }).addTxn
        .own .own { m with count := xs.length } 1) := by
  have hmem : (Instr.own m, MsgTy.own) ∈ homeRows m := by simp [homeRows]
  have hgo : ∀ {t}, (s.unsend .own m).homeOwn false m = t → exec (.own m) s = .next t := fun ht =>
    homeRow_starts hmem hok ha hl hh (.inr hd) ((if_neg (State.startHome_live (s := s.unsend .own m) (.inr hq))).trans ht)
  obtain ⟨h1, h2⟩ := (s.unsend .own m).homeOwn_eq false m m 72 rfl rfl rfl rfl
  exact ⟨fun ho => hgo (h1 ho), fun o ho hne => hgo (h2 o ho hne)⟩

theorem upgr_spec (hq : s.isLost m.req = false) (ha : s.arrives .upgr m = true) :
    let n := upgraded (s.entryOf m.line) m
    let xs := s.sharersOf (s.entryOf m.line) m.req
    let u := (s.unsend .upgr m).sendInvs n xs m.req false
    ((s.entryOf m.line).owner = none ∨ (s.entryOf m.line).owner = some m.req →
      exec (.upgr m) s = .next ((u.setDir m.line { sharers := 0#72, owner := some m.req }).grantLine n .M xs.length)) ∧
    ∀ o, (s.entryOf m.line).owner = some o → o ≠ m.req →
      exec (.upgr m) s = .next ((u.send .snpX { n with src := homeL m, dst := o, count := xs.length }).addTxn
        .own .own { n with count := xs.length } 1) := by
  intro n xs u
  have hmem : (Instr.upgr m, MsgTy.upgr) ∈ homeRows m := by simp [homeRows]
  have hgo : ∀ {t}, (s.unsend .upgr m).homeOwn true m = t → exec (.upgr m) s = .next t := fun ht =>
    homeRow_starts hmem hok ha hl hh (.inr hd) ((if_neg (State.startHome_live (s := s.unsend .upgr m) (.inr hq))).trans ht)
  obtain ⟨hnl, hnr⟩ := upgraded_same (s.entryOf m.line) m
  have hn : (if true && !((s.entryOf m.line).sharers.getLsbD m.req || decide ((s.entryOf m.line).owner = some m.req)) then { m with sectors := 15 } else m) = n := by
    show _ = upgraded (s.entryOf m.line) m
    unfold upgraded
    by_cases h : (s.entryOf m.line).sharers.getLsbD m.req = true ∨ (s.entryOf m.line).owner = some m.req
    · rw [if_pos h]
      refine if_neg ?_
      simpa using fun h1 => h.resolve_left (Bool.eq_false_iff.1 h1)
    · rw [if_neg h]
      refine if_pos ?_
      simpa using h
  obtain ⟨h1, h2⟩ := (s.unsend .upgr m).homeOwn_eq true m n m.req hn hnr hnl hnr
  exact ⟨fun ho => hgo (h1 ho), fun o ho hne => hgo (h2 o ho hne)⟩

theorem sole_spec {r : Instr × MsgTy} (hr : r ∈ [(Instr.atom m, MsgTy.atom), (.cmt m, .cmt), (.log m, .log), (.mir m, .mir)]) (ha : s.arrives r.2 m = true) :
    let xs := s.sharersOf (s.entryOf m.line) (homeL m)
    let u := (s.unsend r.2 m).sendInvs m xs (homeL m) true
    ((s.entryOf m.line).owner = none ∨ (s.entryOf m.line).owner = some (homeL m) →
      exec r.1 s = .next (if xs = [] then (s.unsend r.2 m).applySole r.2 m 0#512 0 else u.addTxn .sole r.2 m xs.length)) ∧
    ∀ o, (s.entryOf m.line).owner = some o → o ≠ homeL m →
      exec r.1 s = .next ((u.send .recall { line := m.line, req := m.req, src := homeL m, dst := o, part := m.part, cid := m.cid }).addTxn .sole r.2 m
        (xs.length + 1)) := by
  have hmem : r ∈ homeRows m :=
    List.mem_append_right [(Instr.rdS m, MsgTy.rdS), (.own m, .own), (.upgr m, .upgr), (.flush m, .flush)] hr
  have hstart : (s.unsend r.2 m).startHome r.2 m = (s.unsend r.2 m).homeSole r.2 m := by
    simp only [List.mem_cons, List.not_mem_nil, or_false] at hr
    rcases hr with rfl | rfl | rfl | rfl <;> exact if_neg (State.startHome_live (.inl rfl))
  have hgo : ∀ {t}, (s.unsend r.2 m).homeSole r.2 m = t → exec r.1 s = .next t := fun ht =>
    homeRow_starts hmem hok ha hl hh (.inr hd) (hstart.trans ht)
  exact ⟨fun ho => hgo (State.homeSole_sole (s := s.unsend r.2 m) ho), fun o ho hne => hgo (State.homeSole_owned (s := s.unsend r.2 m) ho hne)⟩

end

/-- Settles O38: every request arrives by the same way, and begins by the row of its kind. -/
theorem homeRequests : Obligations.HomeRequests := by
  unfold Obligations.HomeRequests
  intro s m hok h none0 mine e all
  refine ⟨fun r hr => ?_, fun hl hh ha => flush_spec hok hl hh ha, fun hl hh hd => ⟨fun hq => lostRequester_spec hok hl hh hd hq,
    fun hq ha => rdS_spec hok hl hh hd hq ha, fun r hr hq ha => ?_, fun r hr ha => sole_spec hok hl hh hd hr ha⟩⟩
  · have hr' : r ∈ homeRows m := hr
    exact ⟨homeRow_not hr' hok, fun ha hl => homeRow_of hr' hok ha (State.homeMsg_lost hl),
      fun ha hl hh => homeRow_of hr' hok ha (State.homeMsg_held hl hh), fun ha hl hh hd hf hne => homeRow_of hr' hok ha
        ((State.homeMsg_begins (s := s.unsend r.2 m) hl hh).trans (State.beginHome_waits (s := s.unsend r.2 m) (takesEntry_of_ne_flush hr' hne) hd hf))⟩
  · rcases List.mem_cons.1 hr with rfl | hr
    · exact own_spec hok hl hh hd hq ha
    · cases List.mem_singleton.1 hr
      exact upgr_spec hok hl hh hd hq ha

end Sys2Proof.Machine

/-!
PROOFS. What slices and homes do with acknowledgements, grants, answers and snoops (09_coherence R261-R267, R272).
-/

namespace Sys2Proof.Machine

section
variable {s u : State} {t : MsgTy} {m : CMsg} {f : State → State} {c : Instr}

/-- A command of a message that arrives does its work once the message has left the mesh. -/
theorem arrival (hc : exec c s = carryOut m.ok (s.onArrival t m f)) (hok : m.ok = true) (ha : s.arrives t m = true)
    (hu : f (s.unsend t m) = u) : exec c s = .next u :=
  exec_of hc hok ((State.onArrival_of ha).trans hu)

/-! ### Write-backs and the acknowledgements of a home -/

theorem State.homeWb_lost {after : DirE → DirE} (h : s.isLost (homeL m) = true) : s.homeWb t m after = s := if_pos h

theorem State.homeWb_other {after : DirE → DirE} (hl : s.isLost (homeL m) = false) (h : ∀ e, s.dir? m.line = some e → e.owner ≠ some m.src) :
    s.homeWb t m after = s.homeAck t m := by
  unfold State.homeWb
  rw [if_neg (Bool.eq_false_iff.1 hl)]
  cases hd : s.dir? m.line with
  | none => rfl
  | some e => exact if_neg (h e hd)

theorem State.homeWb_owner {after : DirE → DirE} {e : DirE} (hl : s.isLost (homeL m) = false) (hd : s.dir? m.line = some e)
    (ho : e.owner = some m.src) :
    s.homeWb t m after = ((s.stackWrite m.line m.mask m.poison m.tag).setDir m.line (after e)).mirrorThenAck t m m.mask := by
  unfold State.homeWb
  rw [if_neg (Bool.eq_false_iff.1 hl), hd]
  exact if_pos ho

/-- The entry that a PRE_WB of the owner leaves. -/
theorem preWb_entry (e : DirE) (x : Nat) : (if e.sharers == 0#72 then e else addSharer { e with owner := none } x) =
    if e.sharers = 0#72 then e else { sharers := e.sharers ||| (1#72 <<< x), owner := none } := by
  simp only [beq_iff_eq]
  rfl

theorem wbAck_run (hok : m.ok = true) (ha : s.arrives .wbAck m = true) (hr : m.run ≠ 0) :
    let v := (s.unsend .wbAck m).modRun m.run fun r => { r with preWait := r.preWait.filter (· != m.line), preimages := r.preimages ++ [m.line] }
    (s.line? m.dst m.line = none → exec (.wbAck m) s = .next v) ∧
    ∀ l, s.line? m.dst m.line = some l →
      let y := l.afterPreWb m.mask
      exec (.wbAck m) s = .next (if y.valid = 0 ∧ y.dirty = 0 then v.dropLine m.dst m.line
        else v.withArc fun a => a.modLine m.dst m.line fun _ => y) := by
  intro v
  have harc : v.arc = s.arc := by
    show (State.modRun ..).arc = _
    unfold State.modRun
    split <;> rfl
  have hline : v.line? m.dst m.line = s.line? m.dst m.line := by
    unfold State.line?
    rw [harc]
  refine ⟨fun hn => arrival rfl hok ha ((if_neg hr).trans ?_), fun l hl => arrival rfl hok ha ((if_neg hr).trans ?_)⟩
  · dsimp only
    rw [hline, hn]
  · dsimp only
    rw [hline, hl]
    simp only [Bool.and_eq_true, decide_eq_true_eq]
    rfl

theorem cmtAck_committed (hok : m.ok = true) (ha : s.arrives .cmtAck m = true) {r : Run} (hr : s.run? m.run = some r) (hp : r.phase = .committed) :
    let v := if m.alt then { r with unackedLogs := r.unackedLogs - 1 }
      else { r with unackedLines := r.unackedLines.filter (· != m.line), tent := r.tent.filter fun e => e.1 / 512 ≠ m.line
                    tlines := r.tlines.filter (· != m.line) }
    exec (.cmtAck m) s = .next (((s.unsend .cmtAck m).setRun m.run (some
      { v with poisoned := v.poisoned || decide (m.status = 0x10), siteLost := v.siteLost || decide (m.status = 0x31) })).commitCheck m.run) := by
  intro v
  have hr' : (s.unsend .cmtAck m).run? m.run = some r := hr
  refine arrival rfl hok ha ?_
  rw [hr']
  exact if_neg (by rw [hp]; decide)

theorem mirAck_answers (hok : m.ok = true) (ha : s.arrives .mirAck m = true) {t : Txn}
    (ht : s.arc.txns.find? (fun t => t.line = m.line && t.kind == .mirror) = some t) :
    exec (.mirAck m) s = .next (((s.unsend .mirAck m).homeAck t.ty t.m).endTxn t) := by
  have ht' : (s.unsend .mirAck m).arc.txns.find? (fun t => decide (t.line = m.line) && t.kind == .mirror) = some t := ht
  refine arrival rfl hok ha ?_
  rw [ht']

/-! ### Answers of slices to a transaction -/

theorem State.txn?_unsend (l : Nat) : (s.unsend t m).txn? l = s.txn? l := rfl

theorem State.line_of_txn? {l : Nat} {x : Txn} (h : s.txn? l = some x) : x.line = l := by
  have hp := List.find?_some h
  exact of_decide_eq_true (Bool.and_eq_true_iff.1 hp).1

section
variable {x : Txn} (hok : m.ok = true) (hx : s.txn? m.line = some x)
include hok hx

theorem miss_serves (ha : s.arrives .miss m = true) :
    exec (.miss m) s = .next (((s.unsend .miss m).sat (arcDirStat (homeL m)) 0 32 1).serveMissed x m) := by
  refine arrival rfl hok ha ?_
  unfold State.takeMiss
  rw [State.txn?_unsend, hx]

theorem miss_spec (ha : s.arrives .miss m = true) : let u := (s.unsend .miss m).sat (arcDirStat (homeL m)) 0 32 1
    (x.kind = .read → exec (.miss m) s = .next (((u.dropOwner m.line).homeRead x.m).endTxn x)) ∧
    (x.kind = .own → exec (.miss m) s = .next (((u.setDir m.line { sharers := 0#72, owner := some x.m.req }).grantLine x.m .M x.m.count).endTxn x)) ∧
    (x.kind = .flush → exec (.miss m) s = .next (((u.dropOwner m.line).send .fwdAck
      { x.m with src := homeOf (x.m.line * 512), dst := x.m.req, alt := true }).endTxn x)) ∧
    (x.kind = .sole ∨ x.kind = .evict → exec (.miss m) s = .next (u.answered x { m with mask := 0#512, poison := 0, sectors := 0 })) := by
  intro u
  have hgo := miss_serves hok hx ha
  have hl := State.line_of_txn? hx
  refine ⟨fun hk => hgo.trans ?_, fun hk => hgo.trans ?_, fun hk => hgo.trans ?_, fun hk => hgo.trans ?_⟩
  · unfold State.serveMissed
    rw [hk, hl]
  · unfold State.serveMissed
    rw [hk, hl]
  · unfold State.serveMissed
    rw [hk, hl]
    rfl
  · unfold State.serveMissed
    rcases hk with hk | hk <;> rw [hk] <;> rfl

theorem fwdAck_spec (ha : s.arrives .fwdAck m = true) (hm : m.alt = false) :
    (x.kind = .read → exec (.fwdAck m) s = .next (((s.unsend .fwdAck m).setDir m.line
      (if m.dirty then addSharer (s.entryOf m.line) x.m.req
       else addSharer { addSharer (s.entryOf m.line) x.m.req with owner := none } m.src)).endTxn x)) ∧
    (x.kind = .own → s.isLost x.m.req = false →
      exec (.fwdAck m) s = .next (((s.unsend .fwdAck m).setDir m.line { sharers := 0#72, owner := some x.m.req }).endTxn x)) ∧
    (x.kind = .own → s.isLost x.m.req = true → exec (.fwdAck m) s = .next ((((s.unsend .fwdAck m).setDir m.line
      { sharers := 0#72, owner := none }).poisonOwnedLine m.line).endTxn x)) := by
  have hx' : (s.unsend .fwdAck m).txn? m.line = some x := hx
  refine ⟨fun hk => arrival rfl hok ha ((if_neg (Bool.eq_false_iff.1 hm)).trans ?_), fun hk hl =>
    arrival rfl hok ha ((if_neg (Bool.eq_false_iff.1 hm)).trans ?_), fun hk hl => arrival rfl hok ha ((if_neg (Bool.eq_false_iff.1 hm)).trans ?_)⟩
  · rw [hx']
    dsimp only
    rw [hk]
    rfl
  · rw [hx']
    dsimp only
    rw [hk]
    exact congrArg (fun v : State => v.endTxn x) (if_neg (Bool.eq_false_iff.1 hl))
  · rw [hx']
    dsimp only
    rw [hk]
    exact congrArg (fun v : State => v.endTxn x) (if_pos hl)

theorem rclData_flush (ha : s.arrives .rclData m = true) (hk : x.kind = .flush) :
    exec (.rclData m) s = .next ((s.unsend .rclData m).homeCleaned x m) := by
  have hx' : (s.unsend .rclData m).txn? m.line = some x := hx
  refine arrival rfl hok ha ?_
  rw [hx']
  dsimp only
  rw [hk]

theorem rclData_answered (ha : s.arrives .rclData m = true) (hk : x.kind = .sole ∨ x.kind = .evict) :
    exec (.rclData m) s = .next ((s.unsend .rclData m).answered x m) := by
  have hx' : (s.unsend .rclData m).txn? m.line = some x := hx
  refine arrival rfl hok ha ?_
  rw [hx']
  dsimp only
  rcases hk with hk | hk <;> rw [hk]

theorem ackInv_answered (ha : s.arrives .ackInv m = true) (hm : m.alt = true) (hk : x.kind = .sole ∨ x.kind = .evict) :
    exec (.ackInv m) s = .next ((s.unsend .ackInv m).answered x { m with mask := 0#512, poison := 0, sectors := 0 }) := by
  refine arrival rfl hok ha ((if_pos hm).trans ?_)
  rw [State.txn?_unsend, hx]
  refine if_pos ?_
  rcases hk with hk | hk <;> rw [hk] <;> rfl

end

/-! ### Snoops -/

theorem any_erase_of_neg {α : Type} [BEq α] [LawfulBEq α] {p : α → Bool} {l : List α} {a : α} (h : p a = false) : (l.erase a).any p = l.any p := by
  induction l with
  | nil => rfl
  | cons b l ih =>
    by_cases hb : b = a
    · rw [hb, List.erase_cons_head, List.any_cons, h, Bool.false_or]
    · rw [List.erase_cons_tail (by simpa using hb), List.any_cons, List.any_cons, ih]

theorem State.awaitsGrant_unsend (ht : (t == .data || t == .grant) = false) (x l : Nat) : (s.unsend t m).awaitsGrant x l = s.awaitsGrant x l := by
  have hany : (s.unsend t m).net.msgs.any (fun e => (e.1 == .data || e.1 == .grant) && e.2.dst == x && e.2.line == l) =
      s.net.msgs.any (fun e => (e.1 == .data || e.1 == .grant) && e.2.dst == x && e.2.line == l) :=
    any_erase_of_neg (by rw [ht]; rfl)
  unfold State.awaitsGrant
  rw [hany]
  rfl

/-- The snoops of a slice. -/
def snoopRows (m : CMsg) : List (Instr × MsgTy) := [(Instr.snpS m, MsgTy.snpS), (.snpX m, .snpX), (.recall m, .recall), (.clean m, .clean)]

section
variable {r : Instr × MsgTy} (hr : r ∈ snoopRows m)
include hr

theorem exec_snoopRow : exec r.1 s = carryOut m.ok (s.onArrival r.2 m fun s => s.snoop r.2 m) := by
  simp only [snoopRows, List.mem_cons, List.not_mem_nil, or_false] at hr
  rcases hr with rfl | rfl | rfl | rfl <;> rfl

theorem snoopRow_notGrant : (r.2 == .data || r.2 == .grant) = false := by
  simp only [snoopRows, List.mem_cons, List.not_mem_nil, or_false] at hr
  rcases hr with rfl | rfl | rfl | rfl <;> rfl

end

section
variable {l : ALine}

theorem State.snoop_evicting (h : s.evicting? m.dst m.line = some l) : s.snoop t m = (s.answerSnoop t m { l with st := .M }).1 := by
  unfold State.snoop
  dsimp only
  rw [h]

variable (h : s.evicting? m.dst m.line = none)
include h

theorem State.snoop_held (ha : s.awaitsGrant m.dst m.line = true) :
    s.snoop t m = s.withArc fun a => { a with mshrs := a.mshrs.map fun y =>
      if y.site == m.dst && y.line == m.line then { y with held := y.held ++ [(t, m)] } else y } := by
  unfold State.snoop
  dsimp only
  rw [h]
  exact if_pos ha

theorem State.snoop_copy (ha : s.awaitsGrant m.dst m.line = false) (hl : s.line? m.dst m.line = some l) :
    s.snoop t m = if (s.answerSnoop t m l).2.st = .I ∨ ((s.answerSnoop t m l).2.valid = 0 ∧ (s.answerSnoop t m l).2.dirty = 0) then
        (s.answerSnoop t m l).1.dropLine m.dst m.line
      else (s.answerSnoop t m l).1.withArc fun a => a.modLine m.dst m.line fun _ => (s.answerSnoop t m l).2 := by
  unfold State.snoop
  dsimp only
  rw [h]
  dsimp only
  rw [if_neg (Bool.eq_false_iff.1 ha), hl]
  simp only [Bool.or_eq_true, Bool.and_eq_true, decide_eq_true_eq]

theorem State.snoop_nothing (ha : s.awaitsGrant m.dst m.line = false) (hl : s.line? m.dst m.line = none) :
    s.snoop t m = s.toHome .miss m none .I false := by
  unfold State.snoop
  dsimp only
  rw [h]
  dsimp only
  rw [if_neg (Bool.eq_false_iff.1 ha), hl]

end

theorem isDirty_iff (l : ALine) : (decide (l.st = .M) || decide (l.st = .O)) = decide (l.st = .M ∨ l.st = .O) := by
  rw [Bool.decide_or]

/-- The answers of the statement are those that the model gives. -/
theorem snoopAnswers_eq {l : ALine} {dirty : Bool} (hd : (decide (l.st = .M) || decide (l.st = .O)) = dirty)
    {r : Instr × MsgTy × State × ALine} (hr : r ∈ snoopAnswers s m l dirty) :
    (r.1, r.2.1) ∈ snoopRows m ∧ (s.unsend r.2.1 m).answerSnoop r.2.1 m l = (r.2.2.1, r.2.2.2) := by
  subst hd
  simp only [snoopAnswers, List.mem_cons, List.not_mem_nil, or_false] at hr
  rcases hr with rfl | rfl | rfl | rfl
  · refine ⟨by simp [snoopRows], ?_⟩
    unfold State.answerSnoop State.ownerData
    simp only [Nat.or_zero, reduceIte, beq_iff_eq, reduceCtorEq]
    rfl
  · exact ⟨by simp [snoopRows], rfl⟩
  · exact ⟨by simp [snoopRows], rfl⟩
  · refine ⟨by simp [snoopRows], ?_⟩
    unfold State.answerSnoop
    simp only [Bool.or_eq_true, decide_eq_true_eq]
    rfl

theorem snoop_spec (hok : m.ok = true) : let x := m.dst
    (∀ l, s.evicting? x m.line = some l → ∀ r ∈ snoopAnswers s m { l with st := .M } true, s.arrives r.2.1 m = true →
      exec r.1 s = .next r.2.2.1) ∧
    (s.evicting? x m.line = none →
      (s.awaitsGrant x m.line = true → ∀ r ∈ snoopRows m,
        s.arrives r.2 m = true → exec r.1 s = .next ((s.unsend r.2 m).withArc fun a => { a with mshrs := a.mshrs.map fun y =>
          if y.site == x && y.line == m.line then { y with held := y.held ++ [(r.2, m)] } else y })) ∧
      (s.awaitsGrant x m.line = false →
        (∀ l, s.line? x m.line = some l → ∀ r ∈ snoopAnswers s m l (decide (l.st = .M ∨ l.st = .O)), s.arrives r.2.1 m = true →
          let y := r.2.2.2
          exec r.1 s = .next (if y.st = .I ∨ (y.valid = 0 ∧ y.dirty = 0) then r.2.2.1.dropLine x m.line
            else r.2.2.1.withArc fun a => a.modLine x m.line fun _ => y)) ∧
        (s.line? x m.line = none → ∀ r ∈ snoopRows m,
          s.arrives r.2 m = true → exec r.1 s = .next ((s.unsend r.2 m).send .miss
            { m with src := x, dst := homeOf (m.line * 512), alt := false, sectors := 0, mask := 0#512, poison := 0, granted := .I
                     dirty := false })))) := by
  intro x
  refine ⟨fun l hl r hr ha => ?_, fun he => ⟨fun hw r hr ha => ?_, fun hw => ⟨fun l hl r hr ha => ?_, fun hl r hr ha => ?_⟩⟩⟩
  · obtain ⟨hrow, hans⟩ := snoopAnswers_eq rfl hr
    refine arrival (exec_snoopRow hrow) hok ha ((State.snoop_evicting (s := s.unsend r.2.1 m) hl).trans ?_)
    exact congrArg Prod.fst hans
  · have hw' := (s.awaitsGrant_unsend (m := m) (snoopRow_notGrant hr) x m.line).trans hw
    exact arrival (exec_snoopRow hr) hok ha (State.snoop_held (s := s.unsend r.2 m) he hw')
  · obtain ⟨hrow, hans⟩ := snoopAnswers_eq (isDirty_iff l) hr
    have hw' := (s.awaitsGrant_unsend (m := m) (snoopRow_notGrant hrow) x m.line).trans hw
    intro y
    refine arrival (exec_snoopRow hrow) hok ha ((State.snoop_copy (s := s.unsend r.2.1 m) he hw' hl).trans ?_)
    have hans' : (s.unsend r.2.1 m).answerSnoop r.2.1 m l = (r.2.2.1, y) := hans
    dsimp only
    rw [hans']
  · have hw' := (s.awaitsGrant_unsend (m := m) (snoopRow_notGrant hr) x m.line).trans hw
    exact arrival (exec_snoopRow hr) hok ha (State.snoop_nothing (s := s.unsend r.2 m) he hw' hl)

end

/-- Settles O39: every message arrives by the same way, and does what the lemma of its kind says. -/
theorem sliceMessages : Obligations.SliceMessages := by
  unfold Obligations.SliceMessages
  refine ⟨fun s m hok => ?_, fun s m hok => ?_, fun s m hok => ?_⟩
  · intro h
    refine ⟨fun r hr ha => ?_, fun ha => ⟨fun hl => ?_, fun hl ho => ?_, fun hl e hd ho => ?_⟩, fun ha => ⟨fun hl => ?_, fun hl ho => ?_, fun hl e hd ho => ?_⟩,
      fun ha => ⟨fun hr => ?_, fun hr => wbAck_run hok ha hr⟩, fun ha r hr hp => cmtAck_committed hok ha hr hp, fun ha t ht => mirAck_answers hok ha ht⟩
    · simp only [List.mem_cons, List.not_mem_nil, or_false] at hr
      rcases hr with rfl | rfl | rfl | rfl | rfl | rfl | rfl | rfl | rfl | rfl | rfl | rfl | rfl | rfl | rfl | rfl <;>
        exact exec_of rfl hok (State.onArrival_not ha)
    · exact arrival rfl hok ha (congrArg State.drainDir (State.homeWb_lost (s := s.unsend .wb m) hl))
    · exact arrival rfl hok ha (congrArg State.drainDir (State.homeWb_other (s := s.unsend .wb m) hl ho))
    · exact arrival rfl hok ha (congrArg State.drainDir (State.homeWb_owner (s := s.unsend .wb m) hl hd ho))
    · exact arrival rfl hok ha (State.homeWb_lost (s := s.unsend .preWb m) hl)
    · exact arrival rfl hok ha (State.homeWb_other (s := s.unsend .preWb m) hl ho)
    · rw [← preWb_entry]
      exact arrival rfl hok ha (State.homeWb_owner (s := s.unsend .preWb m) hl hd ho)
    · exact arrival rfl hok ha (if_pos hr)
  · intro h mshr
    refine ⟨fun ha => arrival rfl hok ha rfl, fun ha => arrival rfl hok ha rfl, fun ha hm => arrival rfl hok ha (if_neg (Bool.eq_false_iff.1 hm)),
      fun ha hm => arrival rfl hok ha (if_pos hm), fun x hx => ⟨fun ha => miss_spec hok hx ha, fun ha hm => fwdAck_spec hok hx ha hm,
        fun ha => ⟨fun hk => ?_, fun hk => rclData_answered hok hx ha hk⟩, fun ha hm hk => ackInv_answered hok hx ha hm hk⟩⟩
    refine (rclData_flush hok hx ha hk).trans ?_
    unfold State.homeCleaned
    rfl
  · intro x
    obtain ⟨h1, h2⟩ := snoop_spec (s := s) hok
    exact ⟨h1, h2, fun ha => arrival rfl hok ha rfl⟩

end Sys2Proof.Machine

/-!
PROOFS. The requests of hosts and their answers (10_visibility R285, 13_ring_links R344-R348, R227).
-/

namespace Sys2Proof.Machine

/-! ### What a read of the stacks leaves of the mesh -/

theorem State.mesh_report (s : State) (r : Report) : (s.report r).mesh = s.mesh := (congrArg State.mesh (s.report_rest r) :)
theorem State.arc_report (s : State) (r : Report) : (s.report r).arc = s.arc := (congrArg State.arc (s.report_rest r) :)
theorem State.host_report (s : State) (r : Report) : (s.report r).host = s.host := (congrArg State.host (s.report_rest r) :)
theorem State.mesh_setMarks (s : State) (line m : Nat) : (s.setMarks line m).mesh = s.mesh := rfl

theorem State.mesh_poisonMark (s : State) (sec : Nat) : (s.poisonMark sec).mesh = s.mesh := by
  unfold State.poisonMark
  split
  · rfl
  · exact (State.sat_mesh ..).trans (State.mesh_setMarks ..)

theorem State.mesh_poisonLine (s : State) (line : Nat) : (s.poisonLine line).mesh = s.mesh := by
  unfold State.poisonLine
  generalize List.range 4 = ks
  induction ks generalizing s with
  | nil => rfl
  | cons k ks ih => exact (ih _).trans (s.mesh_poisonMark _)

theorem State.mesh_stackCheck (s : State) (line fails other : Nat) : (s.stackCheck line fails other).mesh = s.mesh := by
  unfold State.stackCheck
  dsimp only
  split
  · rfl
  · split
    · exact (State.mesh_report _ _).trans (State.sat_mesh ..)
    · split
      · exact (State.mesh_report _ _).trans ((State.mesh_poisonLine _ _).trans (State.sat_mesh ..))
      · split
        · refine (State.mesh_report _ _).trans ((State.sat_mesh ..).trans ((State.withArc_mesh _ _).trans ((State.withArc_mesh _ _).trans ?_)))
          split
          · exact State.sat_mesh ..
          · exact (State.sat_mesh ..).trans (State.sat_mesh ..)
        · exact (State.mesh_report _ _).trans ((State.mesh_poisonLine _ _).trans ((State.mesh_poisonLine _ _).trans
            ((State.sat_mesh ..).trans (State.sat_mesh ..))))

theorem State.mesh_coarse (s : State) (k lo w unit n : Nat) (hold : Bool) : (s.coarse k lo w unit n hold).mesh = s.mesh := by
  unfold State.coarse
  dsimp only
  split
  · exact State.sat_mesh ..
  · exact State.bump_mesh ..

theorem State.mesh_countSectors (s : State) (pa part n : Nat) : (s.countSectors pa part n).mesh = s.mesh :=
  (State.mesh_coarse ..).trans (State.withArc_mesh _ _)

theorem State.mesh_stackRead (s : State) (line sectors part : Nat) : (s.stackRead line sectors part).mesh = s.mesh := by
  unfold State.stackRead
  split
  · rfl
  · exact (State.mesh_stackCheck _ _ _ _).trans (State.mesh_countSectors _ _ _ _)

theorem State.isLost_homeServe (s : State) (pa n part x : Nat) : (s.homeServe pa n part).isLost x = s.isLost x := by
  have hmesh : (s.homeServe pa n part).mesh = s.mesh := by
    unfold State.homeServe
    dsimp only
    split
    · rfl
    · exact State.mesh_stackRead _ _ _ _
  unfold State.isLost
  rw [hmesh]

/-! ### Regions of the address map -/

theorem isHbm_of_isRegion {pa : Nat} (h : isRegion pa = true) : isHbm pa = false ∧ isWin pa = false := by
  simp only [isRegion, isHbm, isWin, Bool.and_eq_true, Bool.and_eq_false_iff, decide_eq_true_eq, decide_eq_false_iff_not] at *
  omega

theorem isRegion_of_isHbm {pa : Nat} (h : isHbm pa = true) : isRegion pa = false ∧ isWin pa = false := by
  simp only [isRegion, isHbm, isWin, Bool.and_eq_false_iff, decide_eq_true_eq, decide_eq_false_iff_not] at *
  omega

theorem isRegion_of_isWin {pa : Nat} (h : isWin pa = true) : isRegion pa = false ∧ isHbm pa = false := by
  simp only [isRegion, isHbm, isWin, Bool.and_eq_true, Bool.and_eq_false_iff, decide_eq_true_eq, decide_eq_false_iff_not] at *
  omega

/-! ### The order of a port's requests -/

section
variable {s u : State} {port : Nat} {h : QHdr} {d : Bytes}

theorem holds_none (hn : ∀ p ∈ s.host.hold, p.port ≠ port) : (s.host.hold.any fun p => p.port == port) = false :=
  List.any_eq_false.2 fun p hp => by simpa using hn p hp

theorem holds_some (hn : ∃ p ∈ s.host.hold, p.port = port) : (s.host.hold.any fun p => p.port == port) = true := by
  obtain ⟨p, hp, he⟩ := hn
  exact List.any_eq_true.2 ⟨p, hp, by simpa using he⟩

theorem reads_none (hn : ∀ p ∈ s.host.reads, p.port ≠ port) : (s.host.reads.any fun p => p.port == port) = false :=
  List.any_eq_false.2 fun p hp => by simpa using hn p hp

theorem reads_some (hn : ∃ p ∈ s.host.reads, p.port = port) : (s.host.reads.any fun p => p.port == port) = true := by
  obtain ⟨p, hp, he⟩ := hn
  exact List.any_eq_true.2 ⟨p, hp, by simpa using he⟩

theorem State.drainPort_none (hn : ∀ p ∈ s.host.hold, p.port ≠ port) : s.drainPort port = s := by
  have hf : s.host.hold.find? (fun p => p.port == port) = none := List.find?_eq_none.2 fun p hp => by simpa using hn p hp
  unfold State.drainPort
  cases s.host.hold.length with
  | zero => rfl
  | succ n =>
    unfold State.drainPortN
    rw [hf]

theorem badPacket_of {ty : Nat} (hq : qRsvOk h = true) (ht : fldOf h 0 4 = ty) : badPacket h ty = false := by
  unfold badPacket qTy
  rw [hq, ht]
  simp

theorem badPacket_not {ty : Nat} (hq : qRsvOk h = false ∨ fldOf h 0 4 ≠ ty) : badPacket h ty = true := by
  unfold badPacket qTy
  rcases hq with hq | hq
  · rw [hq]
    rfl
  · simp [hq]

theorem qMasked_eq (b : Bool) (hm : h.getLsbD 26 = b) : qMasked h = b := hm

theorem State.hostRequest_waits {isWrite : Bool} (hu : (s.drainPort port).hostUp port = true)
    (hw : (∃ p ∈ (s.drainPort port).host.hold, p.port = port) ∨ (s.drainPort port).hostWaits port isWrite = true) :
    s.hostRequest port h d isWrite = { s.drainPort port with host := { (s.drainPort port).host with
      hold := (s.drainPort port).host.hold ++ [{ port := port, h := h, d := d }] } } := by
  refine if_pos ?_
  rw [hu]
  rcases hw with hw | hw
  · rw [holds_some hw]
    rfl
  · rw [hw]
    simp

theorem State.hostRequest_goes {isWrite : Bool} (hn : ∀ p ∈ (s.drainPort port).host.hold, p.port ≠ port)
    (hw : (s.drainPort port).hostWaits port isWrite = false) :
    s.hostRequest port h d isWrite = if isWrite then (s.drainPort port).doMwr port h d else (s.drainPort port).doMrd port h := by
  refine if_neg ?_
  rw [holds_none hn, hw]
  simp

theorem State.hostWaits_read (hw : s.hostWriting port = false) : s.hostWaits port false = false := by
  unfold State.hostWaits
  rw [hw]
  rfl

theorem State.hostWaits_write (hw : s.hostWriting port = false) (hn : ∀ p ∈ s.host.reads, p.port ≠ port) : s.hostWaits port true = false := by
  unfold State.hostWaits
  rw [hw, reads_none hn]
  rfl

theorem State.hostWaits_of_writing {isWrite : Bool} (hw : s.hostWriting port = true) : s.hostWaits port isWrite = true := by
  unfold State.hostWaits
  rw [hw]
  rfl

theorem State.hostWaits_of_reads (hn : ∃ p ∈ s.host.reads, p.port = port) : s.hostWaits port true = true := by
  unfold State.hostWaits
  rw [reads_some hn, Bool.and_true, Bool.or_true]

/-! ### Reads -/

theorem laneBytes_eq (pa n : Nat) (v : W64) : laneBytes pa n v = toBytes n (v.toNat / 2 ^ (8 * (pa % 8))) := by
  unfold laneBytes
  rw [Nat.shiftRight_eq_div_pow]

theorem regForm_of {pa n : Nat} (hn : n = 4 ∨ n = 8) (hp : pa % n = 0) : regForm pa n = true := by
  unfold regForm
  rw [decide_eq_true hn, decide_eq_true hp]
  rfl

theorem State.setFld_withFree_rest (s : State) (n k lo w v : Nat) :
    { ({ s with free := n } : State).setFld k lo w v with regs := s.regs, free := s.free } = s := rfl

/-- A read of a register that is answered changes the count of its port alone before its answer. -/
theorem State.regData_spec (s : State) (port : Nat) (h : QHdr) (v : W64) : ∃ t : State,
    s.regData port h v = t.cplSend port h 0 (toBytes (qLen h) (v.toNat / 2 ^ (8 * (qAddr h % 8)))) ∧
    { t with regs := s.regs, free := s.free } = s ∧ ∀ k, k ≠ qhlStat port → t.reg k = s.reg k := by
  rw [← laneBytes_eq]
  exact ⟨_, rfl, State.setFld_withFree_rest .., fun k hk => State.reg_setFld_ne _ _ _ _ hk⟩

/-- A read that no earlier request of its port holds up. -/
structure Reads (s : State) (port : Nat) (h : QHdr) : Prop where
  up : s.hostUp port = true
  form : badPacket h 0 = false
  whole : qMasked h = false

theorem State.doMrd_region (r : Reads s port h) (hr : isRegion (qAddr h) = true) (hf : regForm (qAddr h) (qLen h) = true) :
    s.doMrd port h = s.readRegion port h := by
  obtain ⟨hu, hb, hm⟩ := r
  unfold State.doMrd
  simp only [hu, hb, hm, hr, hf, Bool.not_true, Bool.false_eq_true, if_false, if_true]

theorem State.doMrd_hbm (r : Reads s port h) (hr : isHbm (qAddr h) = true) (hf : oneLine (qAddr h) (qLen h) = true) :
    s.doMrd port h = if !s.hostFrame port (qAddr h) false then (s.refused port).cplSend port h 3 []
      else if s.lineBusy (qAddr h / 512) && !s.isLost (homeOf (qAddr h)) then s.hold port h else s.readHbm port h := by
  obtain ⟨hu, hb, hm⟩ := r
  unfold State.doMrd State.readMemory
  simp only [hu, hb, hm, hr, hf, (isRegion_of_isHbm hr).1, Bool.not_true, Bool.and_false, Bool.false_eq_true, if_false, if_true]

theorem oneLine_of {pa n : Nat} (hn : 0 < n) (hl : pa % 512 + n ≤ 512) : oneLine pa n = true := by
  unfold oneLine
  rw [decide_eq_true hn, decide_eq_true hl]
  rfl

/-- The reader that a host's read of memory is at the line's home. -/
def State.hostReader (s : State) (pa : Nat) : Who :=
  { q := { core := 0, eng := 0, q := 0 }, part := fldOf (s.frame pa) 2 4, cid := 0, site := homeOf pa }

theorem State.poisonRead_clean {w : Who} {pa n : Nat} (hl : s.isLost (homeOf pa) = false) (hc : ∀ x ∈ sectorsOf pa n, s.secPoison w.site x = false) :
    s.poisonRead w pa n = (s, none) := by
  have hany : ((sectorsOf pa n).any fun x => s.secPoison w.site x) = false := List.any_eq_false.2 fun x hx => by simp [hc x hx]
  unfold State.poisonRead
  simp only [hl, hany, Bool.or_false, Bool.false_eq_true, if_false]

/-- A read that finds poison or a lost home reports it and changes nothing of the memories or of the hosts. -/
theorem State.poisonRead_found {w : Who} {pa n : Nat} (hp : s.isLost (homeOf pa) = true ∨ ∃ x ∈ sectorsOf pa n, s.secPoison w.site x = true) :
    ∃ t : State, s.poisonRead w pa n = (t, some (if s.isLost (homeOf pa) then stSiteLost else stDataPoison)) ∧ t.arc = s.arc ∧ t.host = s.host := by
  have hc : (s.isLost (homeOf pa) || (sectorsOf pa n).any fun x => s.secPoison w.site x) = true := by
    rcases hp with hp | hp
    · rw [hp]
      rfl
    · rw [Bool.or_eq_true, List.any_eq_true]
      exact Or.inr hp
  exact ⟨_, if_pos hc, (State.arc_report _ _).trans (State.sat_arc ..), (State.host_report _ _).trans (State.sat_host ..)⟩

theorem State.readHbm_clean (hl : s.isLost (homeOf (qAddr h)) = false)
    (hc : ∀ x ∈ sectorsOf (qAddr h) (qLen h), (s.homeServe (qAddr h) (qLen h) (fldOf (s.frame (qAddr h)) 2 4)).secPoison (homeOf (qAddr h)) x = false) :
    s.readHbm port h = (s.homeServe (qAddr h) (qLen h) (fldOf (s.frame (qAddr h)) 2 4)).cplSend port h 0
      ((s.homeServe (qAddr h) (qLen h) (fldOf (s.frame (qAddr h)) 2 4)).rdMem (qAddr h) (qLen h)) := by
  have hp := State.poisonRead_clean (w := s.hostReader (qAddr h)) ((s.isLost_homeServe ..).trans hl) hc
  unfold State.readHbm
  unfold State.hostReader at hp
  dsimp only at hp ⊢
  rw [hp]

theorem State.readHbm_found (hf : s.isLost (homeOf (qAddr h)) = true ∨ ∃ x ∈ sectorsOf (qAddr h) (qLen h),
      (s.homeServe (qAddr h) (qLen h) (fldOf (s.frame (qAddr h)) 2 4)).secPoison (homeOf (qAddr h)) x = true) :
    let v := s.homeServe (qAddr h) (qLen h) (fldOf (s.frame (qAddr h)) 2 4)
    ∃ t : State, s.readHbm port h = t.cplSend port h (if s.isLost (homeOf (qAddr h)) then 5 else 4) [] ∧ t.arc = v.arc ∧ t.host = v.host := by
  intro v
  have hv : v.isLost (homeOf (qAddr h)) = s.isLost (homeOf (qAddr h)) := s.isLost_homeServe ..
  obtain ⟨t, ht, harc, hhost⟩ := State.poisonRead_found (s := v) (w := s.hostReader (qAddr h)) (pa := qAddr h) (n := qLen h)
    (hf.imp (fun hl => hv.trans hl) id)
  refine ⟨t, ?_, harc, hhost⟩
  unfold State.readHbm
  unfold State.hostReader at ht
  dsimp only at ht ⊢
  rw [ht, hv]
  cases s.isLost (homeOf (qAddr h)) <;> rfl

/-- A read that its port's earlier requests let through. -/
theorem exec_mrd_goes (hp : port < 48) (hq : qRsvOk h = true) (ht : fldOf h 0 4 = 0) (hn : ∀ p ∈ (s.drainPort port).host.hold, p.port ≠ port)
    (hw : (s.drainPort port).hostWriting port = false) : exec (.mrd port h) s = .next ((s.drainPort port).doMrd port h) := by
  refine exec_of rfl (decide_eq_true hp) ((if_neg (Bool.eq_false_iff.1 (badPacket_of hq ht))).trans ?_)
  exact (State.hostRequest_goes hn (State.hostWaits_read hw)).trans (if_neg Bool.false_ne_true)

theorem State.retry_eq (s : State) (port : Nat) (h : QHdr) : s.retry port h = (s.sat (qhlStat port) 0 16 1).cplSend port h 1 [] := rfl

theorem readRegion_spec : (s.regAns port (qAddr h) = .refused → s.readRegion port h = (s.refused port).cplSend port h 3 []) ∧
    (s.regAns port (qAddr h) = .held → s.readRegion port h = (s.sat (qhlStat port) 0 16 1).cplSend port h 1 []) ∧
    (∀ v, s.regAns port (qAddr h) = .hw v → s.readRegion port h = s.regData port h v) ∧
    ∀ v, s.regAns port (qAddr h) = .backed v →
      (s.libBusy = true → s.readRegion port h = (s.sat (qhlStat port) 0 16 1).cplSend port h 1 []) ∧
      (s.libBusy = false → s.readRegion port h = if s.freeBit.2 then s.freeBit.1.regData port h v else (s.freeBit.1.hold port h).shed) := by
  unfold State.readRegion
  refine ⟨fun ha => ?_, fun ha => ?_, fun v ha => ?_, fun v ha => ⟨fun hb => ?_, fun hb => ?_⟩⟩
  · rw [ha]
  · rw [ha, State.retry_eq]
  · rw [ha]
  · rw [ha]
    exact if_pos hb
  · rw [ha]
    exact if_neg (Bool.eq_false_iff.1 hb)

end

/-- Settles O46: a read that is let through is a read of a register or of memory, and each answer is that of its lemma. -/
theorem hostReads : Obligations.HostReads := by
  unfold Obligations.HostReads
  intro s port tag h hp
  refine ⟨State.drainPort_none, fun hq ht hu => ⟨fun hw => ?_, fun hn hw hm => ⟨fun hr hlen hal => ?_, fun hr hpos hlen => ?_⟩⟩, fun p hh => ?_,
    fun p hh => ⟨fun hb hl => ?_, fun hb => ?_⟩⟩
  · refine exec_of rfl (decide_eq_true hp) ((if_neg (Bool.eq_false_iff.1 (badPacket_of hq ht))).trans ?_)
    exact State.hostRequest_waits hu (hw.imp id State.hostWaits_of_writing)
  · have hgo : exec (.mrd port h) s = .next ((s.drainPort port).readRegion port h) := (exec_mrd_goes hp hq ht hn hw).trans
      (congrArg _ (State.doMrd_region ⟨hu, badPacket_of hq ht, hm⟩ hr (regForm_of hlen hal)))
    obtain ⟨href, hheld, hhw, hbacked⟩ := readRegion_spec (s := s.drainPort port) (port := port) (h := h)
    refine ⟨fun ha => hgo.trans (congrArg _ (href ha)), fun ha => hgo.trans (congrArg _ (hheld ha)), fun v ha => ?_,
      fun v ha => ⟨fun hb => hgo.trans (congrArg _ ((hbacked v ha).1 hb)), fun hb => ?_⟩⟩
    · obtain ⟨t, hd, hrest, hregs⟩ := (s.drainPort port).regData_spec port h v
      exact ⟨t, hgo.trans (congrArg _ ((hhw v ha).trans hd)), hrest, hregs⟩
    · have hback := (hbacked v ha).2 hb
      cases hf : (s.drainPort port).freeBit.2 with
      | true =>
        rw [hf, if_pos rfl] at hback
        obtain ⟨t, hd, hrest, hregs⟩ := (s.drainPort port).freeBit.1.regData_spec port h v
        exact ⟨t, congrArg (fun x : State => { x with free := (s.drainPort port).free }) hrest, hregs, Or.inl (hgo.trans (congrArg _ (hback.trans hd)))⟩
      | false =>
        rw [hf, if_neg Bool.false_ne_true] at hback
        exact ⟨(s.drainPort port).freeBit.1, rfl, fun _ _ => rfl, Or.inr (hgo.trans (congrArg _ hback))⟩
  · have hgo := (exec_mrd_goes hp hq ht hn hw).trans (congrArg _ (State.doMrd_hbm ⟨hu, badPacket_of hq ht, hm⟩ hr (oneLine_of hpos hlen)))
    refine ⟨fun hf => hgo.trans (congrArg _ (if_pos ?_)), fun hf hb hl => hgo.trans (congrArg _ ((if_neg ?_).trans (if_pos ?_))), fun hf hb => ?_⟩
    · rw [show (s.drainPort port).hostFrame port (qAddr h) false = false from hf]
      rfl
    · rw [show (s.drainPort port).hostFrame port (qAddr h) false = true from hf]
      exact Bool.false_ne_true
    · rw [show (s.drainPort port).lineBusy (qAddr h / 512) = true from hb, show (s.drainPort port).isLost (homeOf (qAddr h)) = false from hl]
      rfl
    · have hread : exec (.mrd port h) s = .next ((s.drainPort port).readHbm port h) := by
        refine hgo.trans (congrArg _ ((if_neg ?_).trans (if_neg ?_)))
        · rw [show (s.drainPort port).hostFrame port (qAddr h) false = true from hf]
          exact Bool.false_ne_true
        · rcases hb with hb | hb
          · rw [show (s.drainPort port).lineBusy (qAddr h / 512) = false from hb]
            exact Bool.false_ne_true
          · rw [show (s.drainPort port).isLost (homeOf (qAddr h)) = true from hb, Bool.not_true, Bool.and_false]
            exact Bool.false_ne_true
      refine ⟨fun hl hc => hread.trans (congrArg _ (State.readHbm_clean hl hc)), fun hl hc => ?_, fun hl => ?_⟩
      · obtain ⟨t, hd, harc, hhost⟩ := State.readHbm_found (s := s.drainPort port) (port := port) (h := h) (Or.inr hc)
        rw [show (s.drainPort port).isLost (homeOf (qAddr h)) = false from hl, if_neg Bool.false_ne_true] at hd
        exact ⟨t, hread.trans (congrArg _ hd), harc, hhost⟩
      · obtain ⟨t, hd, harc, hhost⟩ := State.readHbm_found (s := s.drainPort port) (port := port) (h := h) (Or.inl hl)
        rw [show (s.drainPort port).isLost (homeOf (qAddr h)) = true from hl, if_pos rfl] at hd
        exact ⟨t, hread.trans (congrArg _ hd), harc, hhost⟩
  · refine exec_of rfl (decide_eq_true hp) ?_
    unfold effRegisterReadDeadline
    dsimp only
    rw [hh, ← State.retry_eq]
  · refine exec_of rfl (decide_eq_true hp) ?_
    unfold effMemoryReadDeadline
    dsimp only
    rw [hh]
    rw [← State.retry_eq]
    refine congrArg (State.drainPort · port) (if_pos ?_)
    rw [show ((s.drainPort port).unhold p).lineBusy (qAddr p.h / 512) = true from hb, show ((s.drainPort port).unhold p).isLost (homeOf (qAddr p.h)) = false from hl]
    rfl
  · refine exec_of rfl (decide_eq_true hp) ?_
    unfold effMemoryReadDeadline
    dsimp only
    rw [hh]
    refine congrArg (State.drainPort · port) (if_neg ?_)
    rw [show ((s.drainPort port).unhold p).lineBusy (qAddr p.h / 512) = false from hb]
    exact Bool.false_ne_true

end Sys2Proof.Machine

/-!
PROOFS. The writes of hosts and what they answer (10_visibility R285, 13_ring_links R341-R347, R227).
-/

namespace Sys2Proof.Machine

section
variable {s u : State} {port : Nat} {h : QHdr} {d : Bytes} {c : Instr}

/-- A request that is dropped and counted changes the count of its port alone. -/
theorem State.refused_spec (s : State) (port : Nat) : { s.refused port with regs := s.regs } = s ∧
    (s.refused port).reg (qhlStat port) = putFld (s.reg (qhlStat port)) 16 16 (min 0xFFFF (s.fld (qhlStat port) 16 16 + 1)) ∧
    ∀ k, k ≠ qhlStat port → (s.refused port).reg k = s.reg k :=
  ⟨s.sat_rest .., s.reg_sat_same .., fun _ hk => s.reg_sat_ne _ _ _ hk⟩

theorem setsRegs_refused (he : exec c s = .next (s.refused port)) :
    SetsRegs c s [(qhlStat port, putFld (s.reg (qhlStat port)) 16 16 (min 0xFFFF (s.fld (qhlStat port) 16 16 + 1)))] := by
  obtain ⟨hrest, hsame, hne⟩ := s.refused_spec port
  refine ⟨_, he, hrest, fun e hm => ?_, fun k hk => hne k fun hk' => hk (List.mem_singleton.2 hk')⟩
  cases List.mem_singleton.1 hm
  exact hsame

/-! ### Writes -/

theorem payload_eq (h : QHdr) (d : Bytes) : payload h d =
    if h.getLsbD 26 = true then unmask (fldOf h 64 46) (List.range (fldOf h 16 10 / 128)) d else (addrs (fldOf h 64 46) d.length).zip d := rfl

theorem State.doMwr_bad (hu : s.hostUp port = true) (hb : badPacket h 1 = true ∨ payloadOk h d = false) : s.doMwr port h d = s.refused port := by
  refine (if_neg (by rw [hu]; exact Bool.false_ne_true)).trans (if_pos ?_)
  rcases hb with hb | hb <;> rw [hb] <;> simp

/-- A write of good form that no earlier request of its port holds up. -/
structure Writes (s : State) (port : Nat) (h : QHdr) (d : Bytes) : Prop where
  up : s.hostUp port = true
  form : badPacket h 1 = false
  whole : payloadOk h d = true

theorem State.doMwr_memory (w : Writes s port h d) (hr : isRegion (qAddr h) = false) (hf : oneLine (qAddr h) (qLen h) = true) :
    s.doMwr port h d = s.writeMemory port (qAddr h) (qLen h) (payload h d) := by
  obtain ⟨hu, hb, hm⟩ := w
  unfold State.doMwr
  simp only [hu, hb, hm, hr, hf, Bool.not_true, Bool.and_false, Bool.or_false, Bool.false_eq_true, if_false]

theorem State.doMwr_region (w : Writes s port h d) (hr : isRegion (qAddr h) = true) (hm : qMasked h = false) (hf : regForm (qAddr h) (qLen h) = true) :
    s.doMwr port h d = s.writeRegion port (qAddr h) (qLen h) (ofBytes d) := by
  obtain ⟨hu, hb, hp⟩ := w
  unfold State.doMwr
  simp only [hu, hb, hp, hr, hm, hf, Bool.not_true, Bool.not_false, Bool.and_true, Bool.or_false, Bool.false_eq_true, if_false, if_true]

theorem State.writeMemory_hbm_refused {pa n : Nat} {t : List (Nat × W8)} (hr : isHbm pa = true) (hf : s.hostFrame port pa true = false) :
    s.writeMemory port pa n t = s.refused port := by
  refine (if_pos hr).trans (if_pos ?_)
  rw [hf]
  rfl

theorem State.writeMemory_hbm {pa n : Nat} {b : Nat × W8} {r : List (Nat × W8)} (hr : isHbm pa = true) (hf : s.hostFrame port pa true = true) :
    s.writeMemory port pa n (b :: r) = s.homeMsg .cmt
      { line := b.1 / 512, req := homeOf pa, src := homeOf pa, dst := homeOf b.1, part := fldOf (s.frame pa) 2 4, cid := 0
        data := b :: r, dest := .host port, mask := lineMask (b.1 / 512) (b :: r), sectors := secsOf (lineMask (b.1 / 512) (b :: r)) } := by
  refine (if_pos hr).trans (if_neg ?_)
  rw [hf]
  exact Bool.false_ne_true

theorem State.writeMemory_win {pa n : Nat} {t : List (Nat × W8)} (hr : isWin pa = true) :
    (s.winJudge port (winSlot pa) (winOffset pa) n = .refused → s.writeMemory port pa n t = s.refused port) ∧
    (s.winJudge port (winSlot pa) (winOffset pa) n = .done → s.writeMemory port pa n t =
      (t.map fun e => (winOffset e.1, e.2)).foldl (fun s e => s.wrLs (winSlot pa) e.1 [e.2]) s) := by
  have hgo : s.writeMemory port pa n t = (let r := s.winWrite port (winSlot pa) (winOffset pa) n (t.map fun e => (winOffset e.1, e.2))
      if r.2 then r.1 else r.1.refused port) :=
    (if_neg (Bool.eq_false_iff.1 (isRegion_of_isWin hr).2)).trans (if_pos hr)
  rw [hgo]
  unfold State.winWrite
  refine ⟨fun hj => ?_, fun hj => ?_⟩ <;> rw [hj]
  · exact if_neg Bool.false_ne_true
  · exact if_pos rfl

/-- Outside the Librarian's blocks a write of a register that its port may write is a REGISTER_WRITE. -/
theorem State.writeRegion_managed {pa n x : Nat} (hl : pa < libB ∨ libB + 0x200_0000 ≤ pa) (hm : s.isManager port = true) :
    s.writeRegion port pa n x = effRegisterWrite pa n (BitVec.ofNat 64 x) s := by
  have hfus : ¬ (fusB ≤ pa ∧ pa < fusB + 0x10_0000) := by
    simp only [libB, fusB] at *
    omega
  have hlib : ¬ (libB ≤ pa ∧ pa < libB + 0x100_0000) := by omega
  unfold State.writeRegion
  simp only [hm, if_neg hlib, if_neg hfus, Bool.true_or, Bool.true_eq_false, and_false, if_false]

theorem part_of_partB {p pa : Nat} (hlo : partB p ≤ pa) (hhi : pa < partB (p + 1)) : (pa - partB 0) / 0x1000000 = p := by
  simp only [partB] at *
  omega

theorem State.writeRegion_owned {p pa n x : Nat} (hm : s.isManager port = false) (hp : p < 16) (hlo : partB p ≤ pa) (hhi : pa < partB (p + 1)) :
    s.writeRegion port pa n x = if s.portOwns port p then effRegisterWrite pa n (BitVec.ofNat 64 x) s else s.refused port := by
  have hin : partB 0 ≤ pa ∧ pa < partB 16 := by
    simp only [partB] at *
    omega
  have hlib : ¬ (libB ≤ pa ∧ pa < libB + 0x100_0000) := by
    simp only [libB, partB] at *
    omega
  have hfus : ¬ (fusB ≤ pa ∧ pa < fusB + 0x10_0000) := by
    simp only [fusB, partB] at *
    omega
  have hsite : ¬ ((siteB 0 ≤ pa ∧ pa < siteB 72) ∨ (ringB 0 ≤ pa ∧ pa < ringB 24)) := by
    simp only [siteB, ringB, partB] at *
    omega
  unfold State.writeRegion
  simp only [hm, if_neg hlib, if_neg hfus, hsite, false_and, if_false, hin, true_and, and_self, part_of_partB hlo hhi, Bool.false_or]
  cases s.portOwns port p <;> simp only [if_true, Bool.false_eq_true, Bool.true_eq_false, if_false]

theorem exec_mwr (hp : port < 48) : exec (.mwr port h d) s = .next (effMwr port h d s) := exec_of rfl (decide_eq_true hp) rfl

/-- A write that its port's earlier requests let through. -/
theorem effMwr_goes (hb : badPacket h 1 = false) (hn : ∀ p ∈ (s.drainPort port).host.hold, p.port ≠ port)
    (hw : (s.drainPort port).hostWriting port = false) (hr : ∀ p ∈ (s.drainPort port).host.reads, p.port ≠ port) :
    effMwr port h d s = (s.drainPort port).doMwr port h d :=
  (if_neg (Bool.eq_false_iff.1 hb)).trans ((State.hostRequest_goes hn (State.hostWaits_write hw hr)).trans (if_pos rfl))

theorem exec_registerWrite (pa n : Nat) (v : W64) (s : State) : exec (.registerWrite pa n v) s = .next (effRegisterWrite pa n v s) :=
  exec_of rfl rfl rfl

/-! ### Completions and window requests -/

theorem effCpl_bad (hb : qRsvOk h = false ∨ 6 ≤ fldOf h 27 3) : effCpl port h d s = s.refused port := by
  refine if_pos ?_
  rcases hb with hb | hb
  · rw [hb]
    rfl
  · rw [Bool.or_eq_true]
    exact Or.inr (decide_eq_true hb)

theorem effCpl_settles {e : Nat × Nat × HostUse} (hq : qRsvOk h = true) (hs : fldOf h 27 3 < 6) (he : s.hostPend port (fldOf h 4 12) = some e) :
    effCpl port h d s = if fldOf h 27 3 = 0 then (s.dropPend e).hostOk e.2.2 d else (s.dropPend e).hostFail e.2.2 := by
  have hst : qStatus h < 6 := hs
  have he' : s.hostPend port (qTag h) = some e := he
  unfold effCpl
  rw [hq, decide_eq_false (by omega), he']
  rfl

section
variable {r : WinReq}

/-- The counter of a core in MAINT, or of an offset beyond its local store. -/
theorem State.winCount_eq {j : WinJudge} {c : Nat} (hj : j = .maint c ∨ j = .beyond c) :
    s.winCount j = s.sat (coreLsStat c) (if j = .maint c then 16 else 0) 16 1 := by
  rcases hj with rfl | rfl
  · rw [if_pos rfl]
    rfl
  · rw [if_neg WinJudge.noConfusion]
    rfl

theorem windowRequest_host (hh : r.host = some port) :
    let j := s.winJudge port r.slot r.off r.len
    let hd : QHdr := qHdr 0 r.tag r.len false 0 0 0
    (j = .done → r.isWrite = false → effWindowRequest r s = s.cplSend port hd 0 (s.rdLs r.slot r.off r.len)) ∧
    (j = .done → r.isWrite = true → effWindowRequest r s = ((addrs r.off r.len).zip r.data).foldl (fun s e => s.wrLs r.slot e.1 [e.2]) s) ∧
    (∀ c, (j = .maint c ∨ j = .beyond c) →
      effWindowRequest r s = if r.isWrite then s.winCount j else (s.winCount j).cplSend port hd 0 (toBytes r.len 0)) ∧
    (j = .refused → effWindowRequest r s = if r.isWrite then s.refused port else (s.refused port).cplSend port hd 3 []) := by
  intro j hd
  unfold effWindowRequest State.winWrite State.winRead
  rw [hh]
  have hj : s.winJudge port r.slot r.off r.len = j := rfl
  dsimp only
  rw [hj]
  refine ⟨fun he hw => ?_, fun he hw => ?_, fun c he => ?_, fun he => ?_⟩
  · rw [he, hw]
    exact if_neg Bool.false_ne_true
  · rw [he, hw]
    exact (if_pos rfl).trans (if_pos rfl)
  · cases r.isWrite <;> rcases he with he | he <;> rw [he]
    · exact if_neg Bool.false_ne_true
    · exact if_neg Bool.false_ne_true
    · exact (if_pos rfl).trans (if_pos rfl)
    · exact (if_pos rfl).trans (if_pos rfl)
  · cases r.isWrite <;> rw [he]
    · exact if_neg Bool.false_ne_true
    · exact (if_pos rfl).trans (if_neg Bool.false_ne_true)

theorem windowRequest_command (hh : r.host = none) :
    (s.winRefuse r.part r.cid r.slot r.off r.len = none →
      effWindowRequest r s = if r.isWrite then s.wrLs r.slot r.off (r.data.take r.len) else s) ∧
    ∀ code c, s.winRefuse r.part r.cid r.slot r.off r.len = some code → s.active r.q (fun c => c.phase != .committed || hClass c.raw = 1) = some c →
      effWindowRequest r s = s.fail r.q c (failOf code r.va false) := by
  unfold effWindowRequest
  rw [hh]
  dsimp only
  refine ⟨fun hn => ?_, fun code c hs ha => ?_⟩
  · rw [hn]
  · rw [hs]
    dsimp only
    rw [ha]

end
end

/-- Settles O47: a write that is let through goes to memory, a window or a register; the other requests follow their rows. -/
theorem hostWrites : Obligations.HostWrites := by
  unfold Obligations.HostWrites
  refine ⟨fun s port h d hp => ?_, fun s port tag h d hp => ?_⟩
  · have drop : ∀ v : State, effMwr port h d s = v.refused port → ∃ t : State, exec (.mwr port h d) s = .next t ∧ { t with regs := v.regs } = v ∧
        t.reg (qhlStat port) = putFld (v.reg (qhlStat port)) 16 16 (min 0xFFFF (v.fld (qhlStat port) 16 16 + 1)) ∧
        ∀ k, k ≠ qhlStat port → t.reg k = v.reg k :=
      fun v he => ⟨_, (exec_mwr hp).trans (congrArg _ he), v.refused_spec port⟩
    refine ⟨fun hu hb => drop s ((if_pos (badPacket_not hb)).trans (State.doMwr_bad hu (Or.inl (badPacket_not hb)))), fun hq ht hu => ⟨fun hw => ?_,
      fun hn hw hr => ?_⟩⟩
    · refine (exec_mwr hp).trans (congrArg _ ((if_neg (Bool.eq_false_iff.1 (badPacket_of hq ht))).trans (State.hostRequest_waits hu ?_)))
      exact hw.imp id fun hw => hw.elim State.hostWaits_of_writing State.hostWaits_of_reads
    · have hform := badPacket_of hq ht
      have hgo : effMwr port h d s = (s.drainPort port).doMwr port h d := effMwr_goes hform hn hw hr
      refine ⟨fun hpay => drop _ (hgo.trans (State.doMwr_bad hu (Or.inr hpay))), fun hpay => ?_⟩
      have w : Writes (s.drainPort port) port h d := ⟨hu, hform, hpay⟩
      refine ⟨fun hr hpos hlen => ?_, fun hr hpos hlen => ?_, fun hr hm hlen hal hlib => ?_⟩
      · have hmem := hgo.trans (State.doMwr_memory w (isRegion_of_isHbm hr).1 (oneLine_of hpos hlen))
        refine ⟨fun hf => drop _ (hmem.trans (State.writeMemory_hbm_refused hr hf)), fun hf b r hbytes => ?_⟩
        have hbytes' : payload h d = b :: r := hbytes
        rw [hbytes'] at hmem
        rw [hbytes]
        exact (exec_mwr hp).trans (congrArg _ (hmem.trans (State.writeMemory_hbm hr hf)))
      · have hmem := hgo.trans (State.doMwr_memory w (isRegion_of_isWin hr).1 (oneLine_of hpos hlen))
        obtain ⟨href, hdone⟩ := State.writeMemory_win (s := s.drainPort port) (port := port) (n := qLen h) (t := payload h d) hr
        exact ⟨fun hj => drop _ (hmem.trans (href hj)), fun hj => (exec_mwr hp).trans (congrArg _ (hmem.trans (hdone hj)))⟩
      · have hreg := hgo.trans (State.doMwr_region w hr hm (regForm_of hlen hal))
        refine ⟨fun hm => ?_, fun hm p hp16 hlo hhi => ?_⟩
        · rw [exec_registerWrite]
          exact (exec_mwr hp).trans (congrArg _ (hreg.trans (State.writeRegion_managed hlib hm)))
        · have hown := hreg.trans (State.writeRegion_owned hm hp16 hlo hhi)
          refine ⟨fun ho => ?_, fun ho => drop _ (hown.trans (if_neg (Bool.eq_false_iff.1 ho)))⟩
          rw [exec_registerWrite]
          exact (exec_mwr hp).trans (congrArg _ (hown.trans (if_pos ho)))
  · refine ⟨fun hb => setsRegs_refused (exec_of rfl (decide_eq_true hp) (effCpl_bad hb)),
      fun e hq hs he => exec_of rfl (decide_eq_true hp) (effCpl_settles hq hs he), fun e he => exec_of rfl (decide_eq_true hp) ?_,
      setsRegs_refused (exec_of rfl (decide_eq_true hp) rfl), fun r hok => ⟨fun hh => ?_, fun hh hn => ?_, fun code c hh hs ha => ?_⟩⟩
    · unfold effHostAccessTimeout
      rw [he]
    · obtain ⟨hread, hwrite, hcount, href⟩ := windowRequest_host (s := s) hh
      refine ⟨fun hj hw => exec_of rfl hok (hread hj hw), fun hj hw => exec_of rfl hok (hwrite hj hw), fun c hj => ?_, fun hj => exec_of rfl hok (href hj)⟩
      rw [← State.winCount_eq hj]
      exact exec_of rfl hok (hcount c hj)
    · exact exec_of rfl hok ((windowRequest_command hh).1 hn)
    · exact exec_of rfl hok ((windowRequest_command hh).2 code c hs ha)

end Sys2Proof.Machine

/-!
PROOFS. What happens at an engine beside its commands (03_matrix_engines R67, R73, R81-R84, 04_thread_engine R113-R118).
-/

namespace Sys2Proof.Machine

/-! ### Registers that are cleared -/

/-- Registers that read 0 from now on. -/
def State.clearRegs (s : State) (ks : List Nat) : State := ks.foldl (fun s k => s.setReg k 0#64) s

theorem State.clearRegs_rest (s : State) (ks : List Nat) : { s.clearRegs ks with regs := s.regs } = s := by
  induction ks generalizing s with
  | nil => rfl
  | cons k ks ih => exact congrArg (fun t : State => { t with regs := s.regs }) (ih (s.setReg k 0#64))

theorem State.reg_clearRegs_ne (s : State) {ks : List Nat} {j : Nat} (h : j ∉ ks) : (s.clearRegs ks).reg j = s.reg j := by
  induction ks generalizing s with
  | nil => rfl
  | cons k ks ih =>
    obtain ⟨hk, hks⟩ := List.ne_and_not_mem_of_not_mem_cons h
    exact (ih _ hks).trans (s.reg_setReg_ne _ hk)

theorem State.reg_clearRegs (s : State) {ks : List Nat} {j : Nat} (h : j ∈ ks) : (s.clearRegs ks).reg j = 0#64 := by
  induction ks generalizing s with
  | nil => cases h
  | cons k ks ih =>
    by_cases hj : j ∈ ks
    · exact ih _ hj
    · obtain rfl | hjk := List.mem_cons.1 h
      · exact (State.reg_clearRegs_ne (s.setReg j 0#64) hj).trans (s.reg_setReg_same ..)
      · exact absurd hjk hj

theorem setsRegs_clear {c : Instr} {s : State} {ks : List Nat} (he : exec c s = .next (s.clearRegs ks)) : SetsRegs c s (ks.map fun k => (k, 0#64)) := by
  refine ⟨_, he, s.clearRegs_rest ks, fun e hm => ?_, fun k hk => s.reg_clearRegs_ne fun hm => hk ?_⟩
  · obtain ⟨k, hk, rfl⟩ := List.mem_map.1 hm
    exact s.reg_clearRegs hk
  · exact List.mem_map.2 ⟨_, List.mem_map.2 ⟨k, hm, rfl⟩, rfl⟩

/-! ### The maps of cores and partitions -/

section
variable {s t : State} (h : ∀ k, k < partB 0 → t.reg k = s.reg k)
include h

theorem State.fld_of_low {k : Nat} (hk : k < partB 0) (lo w : Nat) : t.fld k lo w = s.fld k lo w := by
  unfold State.fld
  rw [h k hk]

theorem State.coreSite_of_low {c : Nat} (hc : c < 256) : t.coreSite c = s.coreSite c :=
  State.fld_of_low h (by simp only [libCoreMap, libB, partB]; omega) _ _

theorem State.coreSlot_of_low {c : Nat} (hc : c < 256) : t.coreSlot c = s.coreSlot c :=
  State.fld_of_low h (by simp only [libCoreMap, libB, partB]; omega) _ _

theorem State.ownsSite_of_low {p : Nat} (hp : p < 16) (x : Nat) : t.ownsSite p x = s.ownsSite p x := by
  have hstate : libPartState p < partB 0 := by
    simp only [libPartState, libB, partB]
    omega
  have hsites : libPartSites p < partB 0 := by
    simp only [libPartSites, libB, partB]
    omega
  unfold State.ownsSite State.partState State.bit
  rw [State.fld_of_low h hstate, State.fld_of_low h hstate, State.fld_of_low h hsites]

omit h in
theorem find?_congr_mem {α : Type} {p q : α → Bool} {l : List α} (h : ∀ a ∈ l, p a = q a) : l.find? p = l.find? q := by
  induction l with
  | nil => rfl
  | cons a l ih =>
    rw [List.find?_cons, List.find?_cons, h a List.mem_cons_self, ih fun b hb => h b (List.mem_cons_of_mem _ hb)]

theorem State.corePart_of_low (c : Nat) : t.corePart c = s.corePart c := by
  have hrow : fusRiserCol < partB 0 := by decide
  have hpos : t.posSite c = s.posSite c := by
    unfold State.posSite State.riserCol
    dsimp only
    rw [State.fld_of_low h hrow]
  have hown : ∀ x, t.siteOwner x = s.siteOwner x := fun x =>
    find?_congr_mem fun p hp => State.ownsSite_of_low h (List.mem_range.1 hp) x
  unfold State.corePart
  rw [hpos, hown]

end

/-! ### L0s, stopped engines and gangs -/

/-- From `s` to `t` queues are judged again: the commands keep their work. -/
structure Refreshed (s t : State) : Prop where
  engs : t.engs = s.engs
  arc : t.arc = s.arc
  runs : t.runs = s.runs
  tes : t.tes = s.tes
  cmds : ∀ q, ((t.q q).cmds.map fun c => (c.raw, c.phase, c.run)) = ((s.q q).cmds.map fun c => (c.raw, c.phase, c.run))

theorem Refreshed.refl (s : State) : Refreshed s s := ⟨rfl, rfl, rfl, rfl, fun _ => rfl⟩

theorem Refreshed.trans {s t u : State} (h : Refreshed s t) (k : Refreshed t u) : Refreshed s u :=
  ⟨k.engs.trans h.engs, k.arc.trans h.arc, k.runs.trans h.runs, k.tes.trans h.tes, fun q => (k.cmds q).trans (h.cmds q)⟩

theorem Refreshed.setFld (s : State) (k lo w v : Nat) : Refreshed s (s.setFld k lo w v) := ⟨rfl, rfl, rfl, rfl, fun _ => rfl⟩

theorem Refreshed.setQState (s : State) (q : QRef) (st : Nat) : Refreshed s (s.setQState q st) := .setFld ..

theorem State.q_setQ (s : State) (q p : QRef) (x : QueX) : (s.setQ q x).q p = if qKey p = qKey q then x else s.q p := by
  unfold State.setQ State.q
  dsimp only
  split
  · rename_i hk
    rw [hk, tget_tset_same]
  · rename_i hk
    exact tget_tset_ne _ _ _ hk

theorem Refreshed.modCmd (s : State) (q : QRef) (c : Cmd) (f : Cmd → Cmd) (hf : ∀ c, ((f c).raw, (f c).phase, (f c).run) = (c.raw, c.phase, c.run)) :
    Refreshed s (s.modCmd q c f) := by
  refine ⟨rfl, rfl, rfl, rfl, fun p => ?_⟩
  unfold State.modCmd State.modQ
  rw [State.q_setQ]
  split
  · rename_i hk
    have hq : s.q p = s.q q := by
      unfold State.q
      rw [hk]
    rw [hq, List.map_map]
    refine List.map_congr_left fun e _ => ?_
    dsimp only [Function.comp]
    split
    · exact hf e
    · rfl
  · rfl

theorem Refreshed.headUpdate (s : State) (q : QRef) : Refreshed s (s.headUpdate q) := by
  unfold State.headUpdate
  split
  · exact .refl s
  · dsimp only
    split
    · exact .refl s
    · exact .modCmd s q _ _ fun _ => rfl

theorem Refreshed.refreshQ (s : State) (q : QRef) : Refreshed s (s.refreshQ q) := by
  refine (Refreshed.headUpdate s q).trans ?_
  unfold State.refreshQ
  dsimp only
  split
  · exact .refl _
  · split
    · exact .setQState ..
    · split
      · split <;> exact .setQState ..
      · exact .setQState ..

theorem Refreshed.foldl (qs : List QRef) (s : State) : Refreshed s (qs.foldl (fun s q => s.refreshQ q) s) := by
  induction qs generalizing s with
  | nil => exact .refl s
  | cons q qs ih => exact (Refreshed.refreshQ s q).trans (ih _)

theorem effEngineStopped_of {s : State} {core eng : Nat} (hs : (s.eng core eng).stopping = true) :
    Refreshed (s.setEng core eng { s.eng core eng with stopping := false }) (effEngineStopped core eng s) := by
  unfold effEngineStopped
  rw [if_pos hs]
  exact .foldl ..

theorem effL0ParityError_eq (s : State) (core unit : Nat) : effL0ParityError core unit s = (s.setTe core
    (if unit < 8 then { s.te core with l0 := (s.te core).l0.filter fun e => e.1 % 8 ≠ unit } else { s.te core with carrel := [] })).report
      { cls := 2, site := s.coreSite core, unit := s.coreSlot core * 8 + 4, status := 0, sev := 0, reporter := s.coreSite core
        part := s.corePart core } := rfl

theorem exec_gangWindowClose {s : State} {core gang : Nat} {g : Gang} (hc : core < 256) (hg : gang < 32)
    (hf : s.gangs.find? (fun g => g.core = core && g.gang = gang) = some g) :
    exec (.gangWindowClose core gang) s = .next (g.members.foldl (fun s e =>
      match s.engCmd core e with
      | some (id, q, c) => if (s.run? id).any (fun r => r.phase == .running) then s.matRun q c else s
      | none => s)
      { s with gangs := s.gangs.map fun x => if x.core = core && x.gang = gang then { x with formed := true } else x }) := by
  refine exec_of rfl (by simp [Config.cores, hc, hg]) ?_
  unfold effGangWindowClose State.runGang
  rw [hf] <;> rfl

/-- Settles O23: a clear sets its registers to 0; the other events change what their rows name. -/
theorem engineEvents : Obligations.EngineEvents := by
  unfold Obligations.EngineEvents
  refine ⟨fun s core me hc hm => ?_, fun s core hc => ⟨fun unit hu => ?_, fun eng he hs => ?_, fun gang g hg hf => exec_gangWindowClose hc hg hf⟩⟩
  · have hok : (decide (core < Config.cores) && decide (me < 4)) = true := by simp [Config.cores, hc, hm]
    have hok' : decide (core < Config.cores) = true := decide_eq_true hc
    exact ⟨setsRegs_clear (exec_of rfl hok rfl), setsRegs_clear (exec_of rfl hok rfl), setsRegs_clear (exec_of rfl hok rfl),
      setsRegs_clear (exec_of rfl hok' rfl), setsRegs_clear (exec_of rfl hok' rfl), setsRegs_clear (exec_of rfl hok' rfl)⟩
  · exact exec_of rfl (by simp [Config.cores, hc, hu]) (effL0ParityError_eq ..)
  · obtain ⟨hengs, harc, hruns, htes, hcmds⟩ := effEngineStopped_of hs
    refine ⟨_, exec_of rfl (by simp [Config.cores, hc, he]) rfl, ?_, harc, hruns, htes, hcmds⟩
    unfold State.eng
    rw [hengs]
    exact tget_tset_same ..

end Sys2Proof.Machine

/-!
PROOFS. Detections and local-store parity (03_matrix_engines R81, R82, 04_thread_engine R113, R116), and how MATMUL begins (R67, R73).
-/

namespace Sys2Proof.Machine

/-! ### Detections -/

/-- The report of a detection or of a parity error of the command that an engine runs. -/
def State.engReport (s : State) (core eng : Nat) (q : QRef) (c : Cmd) (cls st sev aux : Nat) : Report :=
  { cls := cls, site := s.coreSite core, unit := s.coreSlot core * 8 + eng, status := st, sev := sev, reporter := s.coreSite core
    part := s.corePart core, cid := s.qCid q, tag := hTag c.raw, eng := q.eng, q := q.q, aux := BitVec.ofNat 64 aux }

theorem State.engReport_sat (s : State) {core eng : Nat} {q : QRef} (c : Cmd) (cls st sev aux lo w n : Nat) (hc : core < 256) (he : eng < 4)
    (hq : q.ok = true) :
    (s.sat (mexB core eng + 0x38) lo w n).engReport core eng q c cls st sev aux = s.engReport core eng q c cls st sev aux := by
  have hlow : ∀ k, k < partB 0 → (s.sat (mexB core eng + 0x38) lo w n).reg k = s.reg k := fun k hk => by
    refine s.reg_sat_ne _ _ _ ?_
    simp only [mexB, coreB, partB] at *
    omega
  have hne : queCfg q ≠ mexB core eng + 0x38 := by
    obtain ⟨hqce, hqq⟩ := Bool.and_eq_true_iff.1 hq
    have hqe : q.eng < 7 := of_decide_eq_true (Bool.and_eq_true_iff.1 hqce).2
    have hqn : q.q < 4 := of_decide_eq_true hqq
    simp only [queCfg, queB, mexB, coreB]
    omega
  have hcid : (s.sat (mexB core eng + 0x38) lo w n).qCid q = s.qCid q := s.fld_sat_ne _ _ _ _ _ hne
  unfold State.engReport
  rw [State.coreSite_of_low hlow hc, State.coreSlot_of_low hlow hc, State.corePart_of_low hlow, hcid]

section
variable {s : State} {core eng id : Nat} {q : QRef} {c : Cmd} (he : s.engCmd core eng = some (id, q, c))
include he

theorem effMatrixDetection_of (hc : core < 256) (hm : eng < 4) (hq : q.ok = true) (hp : c.phase ≠ .committed) (kind : Nat) :
    let u := (((s.sat (mexB core eng + 0x38) (16 * kind) 16 1).report (s.engReport core eng q c 1 0x11 1 kind)).killRun id).requeue q c
    effMatrixDetection core eng kind s =
      if c.handed then u.cdieLost (s.coreSite core) 2 (u.coreSlot core)
      else if c.detections = 0 then (u.modCmd q c fun c => { c with detections := 1 }).refreshQ q
      else ((u.sat (mexB core eng + 0x38) 48 16 1).modCmd q c fun c => { c with detections := c.detections + 1, handed := true }).refreshQ q := by
  have hlow : ∀ k, k < partB 0 → (s.sat (mexB core eng + 0x38) (16 * kind) 16 1).reg k = s.reg k := fun k hk => by
    refine s.reg_sat_ne _ _ _ ?_
    simp only [mexB, coreB, partB] at *
    omega
  intro u
  have hu : u = (((s.sat (mexB core eng + 0x38) (16 * kind) 16 1).report
      ((s.sat (mexB core eng + 0x38) (16 * kind) 16 1).engReport core eng q c 1 0x11 1 kind)).killRun id).requeue q c := by
    rw [s.engReport_sat c 1 0x11 1 kind _ _ _ hc hm hq]
  rw [← State.coreSite_of_low hlow hc]
  clear_value u
  subst hu
  unfold effMatrixDetection
  rw [he]
  exact if_neg (by simpa using hp)

theorem effTeDetection_pinned (hm : eng = 4) (hq : q.eng = 4) (hp : hClass c.raw = 1) (kind : Nat) :
    effTeDetection core kind s = (s.report (s.engReport core eng q c 1 0x10 2 kind)).fail q c { code := 0x10 } := by
  subst hm
  unfold effTeDetection State.engReport
  rw [he, hq]
  exact if_pos hp

theorem effTeDetection_repeatable (hm : eng = 4) (hq : q.eng = 4) (hp : hClass c.raw ≠ 1) (hn : c.phase ≠ .committed) (kind : Nat) :
    let u := ((s.report (s.engReport core eng q c 1 0x11 1 kind)).killRun id).requeue q c
    effTeDetection core kind s = if c.detections = 0 then (u.modCmd q c fun c => { c with detections := 1 }).refreshQ q
      else u.cdieLost (s.coreSite core) 2 (u.coreSlot core) := by
  subst hm
  unfold effTeDetection State.engReport
  rw [he, hq]
  exact (if_neg hp).trans (if_neg (by simpa using hn))

theorem effLsParityError_of (hp : c.phase ≠ .committed ∨ hClass c.raw = 1) (off : Nat) :
    effLsParityError core eng off s =
      (s.report { s.engReport core eng q c 2 0x10 2 0 with addr := BitVec.ofNat 64 off }).fail q c { code := 0x10 } := by
  unfold effLsParityError
  rw [he]
  refine if_neg ?_
  rcases hp with hp | hp <;> simp [hp]

end

/-- Settles O24: each detection reports, and then does what its lemma says. -/
theorem detections : Obligations.Detections := by
  unfold Obligations.Detections
  intro s core eng id q c hc he hq
  refine ⟨fun hm hp kind hk => exec_of rfl (by simp [Config.cores, hc, hm, hk]) (effMatrixDetection_of he hc hm hq hp kind),
    fun hm hqe kind hk => ⟨fun hp => exec_of rfl (by simp [Config.cores, hc, hk]) (effTeDetection_pinned he hm hqe hp kind),
      fun hp hn => exec_of rfl (by simp [Config.cores, hc, hk]) (effTeDetection_repeatable he hm hqe hp hn kind)⟩,
    fun hm hp off => exec_of rfl (by simp [Config.cores, hc, hm]) (effLsParityError_of he hp off)⟩

/-! ### MATMUL -/

section
variable {s : State} {q : QRef} {c : Cmd} {r : Run} (hc : s.ready q 0x20 = some c) (hr : s.run? c.run = some r)
include hc hr

theorem effMatmul_alone (h : mGang c.eff = 0 ∨ c.reruns ≠ 0) : effMatmul q s = (s.beginWork q c).matRun q c := by
  have hc' : s.ready q opMatmul = some c := hc
  unfold effMatmul
  rw [hc']
  dsimp only
  rw [hr]
  exact if_pos h

variable (hg : mGang c.eff ≠ 0) (hn : c.reruns = 0)
include hg hn

theorem effMatmul_opens (hf : (s.beginWork q c).gangs.find? (fun g => g.core = q.core && g.gang = mGang c.eff) = none) :
    effMatmul q s = ({ s.beginWork q c with gangs := (s.beginWork q c).gangs ++ [
      ({ core := q.core, gang := mGang c.eff, members := [r.onEng], m := mM c.eff, k := mK c.eff, n := mN c.eff,
         share := mShareSet c.eff, opA := (mA c.eff).raw, opB := (mB c.eff).raw, formed := false } : Gang)] }).setFld (mexB q.core r.onEng) 3 1 1 := by
  have hc' : s.ready q opMatmul = some c := hc
  unfold effMatmul
  rw [hc']
  dsimp only
  rw [hr]
  refine (if_neg fun h => h.elim hg fun h => h hn).trans ?_
  rw [hf]

variable {g : Gang} (hf : (s.beginWork q c).gangs.find? (fun g => g.core = q.core && g.gang = mGang c.eff) = some g)
include hf

theorem effMatmul_late (h : g.formed = true ∨ g.matches c.eff = false) : effMatmul q s = (s.beginWork q c).matRun q c := by
  have hc' : s.ready q opMatmul = some c := hc
  unfold effMatmul
  rw [hc']
  dsimp only
  rw [hr]
  refine (if_neg fun h => h.elim hg fun h => h hn).trans ?_
  rw [hf]
  refine if_neg ?_
  rcases h with h | h <;> simp [h]

theorem effMatmul_joins (h : g.formed = false) (hm : g.matches c.eff = true) :
    let join := fun x : Gang => if x.core = q.core && x.gang = mGang c.eff then { x with members := x.members ++ [r.onEng] } else x
    let v := ({ s.beginWork q c with gangs := (s.beginWork q c).gangs.map join } : State).setFld (mexB q.core r.onEng) 3 1 1
    effMatmul q s = if g.members.length = 3 then v.runGang q.core (mGang c.eff) else v := by
  have hc' : s.ready q opMatmul = some c := hc
  unfold effMatmul
  rw [hc']
  dsimp only
  rw [hr]
  refine (if_neg fun h => h.elim hg fun h => h hn).trans ?_
  rw [hf]
  refine if_pos ?_
  simp [h, hm]

end

/-- Settles O27: the gang that the command finds decides how it begins. -/
theorem matmulBegins : Obligations.MatmulBegins := by
  unfold Obligations.MatmulBegins
  intro s q c r hq hc hr
  refine ⟨fun h => exec_of rfl hq (effMatmul_alone hc hr h), fun hg hn hf => exec_of rfl hq (effMatmul_opens hc hr hg hn hf),
    fun hg hn g hf => ⟨fun h => exec_of rfl hq (effMatmul_late hc hr hg hn hf h), fun h hm => exec_of rfl hq (effMatmul_joins hc hr hg hn hf h hm)⟩⟩

end Sys2Proof.Machine

/-!
PROOFS. The doorbells of queues and the writes of QUE_CFG, QUE_BCAST and the CR_HEADs (06_submission R172, R175, R194, R195, R197, R387, R472).
-/

namespace Sys2Proof.Machine

/-! ### Fields of a register -/

theorem putFld_mod {n : Nat} (x : BitVec n) (lo w v : Nat) : putFld x lo w (v % 2 ^ w) = putFld x lo w v := by
  simp only [putFld, nput, Nat.mod_mod]

/-- A field takes the low bits of what it is given. -/
theorem putFld_fldOf {n m : Nat} (x : BitVec n) (v : BitVec m) (lo lo' w : Nat) : putFld x lo w (fldOf v lo' w) = putFld x lo w (v.toNat / 2 ^ lo') := by
  rw [fldOf, nbits, Nat.shiftRight_eq_div_pow, putFld_mod]

theorem State.setFld_mod (s : State) (k lo w v : Nat) : s.setFld k lo w (v % 2 ^ w) = s.setFld k lo w v := congrArg (s.setReg k) (putFld_mod ..)

theorem State.setFld_fldOf (s : State) (k : Nat) (v : W64) (w : Nat) : s.setFld k 0 w (fldOf v 0 w) = s.setFld k 0 w v.toNat := by
  rw [fldOf_zero_eq, State.setFld_mod]

/-- The low part of a field. -/
theorem fldOf_narrow {n : Nat} (x : BitVec n) (lo : Nat) {w w' : Nat} (h : w' ≤ w) : fldOf x lo w' = fldOf x lo w % 2 ^ w' :=
  (Nat.mod_mod_of_dvd _ (Nat.pow_dvd_pow 2 h)).symm

theorem State.fld_narrow (s : State) (k lo : Nat) {w w' : Nat} (h : w' ≤ w) : s.fld k lo w' = s.fld k lo w % 2 ^ w' := fldOf_narrow _ lo h

/-! ### Doorbells that are dropped -/

section
variable {s t u : State} {q : QRef} {v : W64} {c : Instr}

theorem ctStatus_que (q : QRef) : ctStatus (.que q) = queStatus q := rfl

theorem State.dbErr_eq (s : State) (t : CrTarget) : s.dbErr t = (s.setFld (ctStatus t) 16 1 1).sat (ctStatus t) 32 16 1 := rfl

/-- An error bit that is set, with its count. -/
theorem State.errCounted_spec (s : State) (k : Nat) : { (s.setFld k 16 1 1).sat k 32 16 1 with regs := s.regs } = s ∧
    ((s.setFld k 16 1 1).sat k 32 16 1).reg k = putFld (putFld (s.reg k) 16 1 1) 32 16 (min 0xFFFF (s.fld k 32 16 + 1)) ∧
    ∀ j, j ≠ k → ((s.setFld k 16 1 1).sat k 32 16 1).reg j = s.reg j := by
  refine ⟨rfl, ?_, fun j hj => (State.reg_sat_ne _ _ _ _ hj).trans (State.reg_setFld_ne _ _ _ _ hj)⟩
  rw [State.reg_sat_same, State.reg_setFld_same, State.fld_setFld_other _ _ _ _ _ _ _ (by omega) (by omega)] <;> rfl

theorem State.dbErr_spec (s : State) (q : QRef) : { s.dbErr (.que q) with regs := s.regs } = s ∧
    (s.dbErr (.que q)).reg (queStatus q) = putFld (putFld (s.reg (queStatus q)) 16 1 1) 32 16 (min 0xFFFF (s.fld (queStatus q) 32 16 + 1)) ∧
    ∀ k, k ≠ queStatus q → (s.dbErr (.que q)).reg k = s.reg k := by
  rw [State.dbErr_eq, ctStatus_que]
  exact s.errCounted_spec _

theorem dropsDoorbell_of (he : exec c s = .next (s.dbErr (.que q))) : DropsDoorbell c s q := by
  obtain ⟨hrest, hsame, hne⟩ := s.dbErr_spec q
  refine ⟨_, he, hrest, fun e hm => ?_, fun k hk => hne k fun hk' => hk (List.mem_singleton.2 hk')⟩
  cases List.mem_singleton.1 hm
  exact hsame

theorem State.raiseEcho_rest (s : State) (i n : Nat) : { s.raiseEcho i n with boot := s.boot } = s := by
  unfold State.raiseEcho
  split <;> rfl

/-- A doorbell of a LOST core's queue is counted for the core. -/
theorem State.lostDoorbells_spec (s : State) (core : Nat) : { s.lostDoorbells core 1 with cores := s.cores, boot := s.boot } = s ∧
    ((s.lostDoorbells core 1).coreX core).dropped = (s.coreX core).dropped + 1 := by
  have hset : ((s.setCoreX core { s.coreX core with dropped := (s.coreX core).dropped + 1 }).coreX core).dropped = (s.coreX core).dropped + 1 :=
    congrArg CoreX.dropped (tget_tset_same ..)
  have hcores : ∀ (t : State) (i : Nat), (t.raiseEcho i 1).cores = t.cores := fun t i => (congrArg State.cores (t.raiseEcho_rest i 1) :)
  unfold State.lostDoorbells
  rw [if_neg Nat.one_ne_zero]
  dsimp only
  split
  · next e _ =>
    refine ⟨congrArg (fun t : State => { t with cores := s.cores }) (State.raiseEcho_rest _ _ _), ?_⟩
    unfold State.coreX at hset ⊢
    rw [hcores]
    exact hset
  · exact ⟨rfl, hset⟩

theorem lost_of (he : exec c s = .next (u.lostDoorbells q.core 1)) : ∃ t, exec c s = .next t ∧ { t with cores := u.cores, boot := u.boot } = u ∧
    (t.coreX q.core).dropped = (u.coreX q.core).dropped + 1 := ⟨_, he, u.lostDoorbells_spec q.core⟩

/-! ### TAIL and the single-op window -/

/-- The ring has room for a TAIL that moves forward (R172). -/
def State.tailFits (s : State) (q : QRef) (new : Nat) : Prop :=
  wsub new (s.fld (queHead q) 0 32) ≤ 2 ^ s.fld (queCfg q) 8 5 ∧ wsub new (s.fld (queTail q) 0 32) < 2 ^ 31

theorem State.tailWrite_lost (h : s.qState q = 9) : s.tailWrite q v = s.lostDoorbells q.core 1 := if_pos h

theorem State.tailWrite_sop (h : s.qState q ≠ 9) (hs : s.qSop q = true) : s.tailWrite q v = s.setFld (queTail q) 0 32 (v.toNat % 2 ^ 32) :=
  (if_neg h).trans (if_pos hs)

theorem State.tailWrite_buffer (h : s.qState q ≠ 9) (hs : s.qSop q = false) :
    (s.qEnabled q = true ∧ s.partActive q = true → s.tailFits q (v.toNat % 2 ^ 32) →
      s.tailWrite q v = ((s.setFld (queTail q) 0 32 (v.toNat % 2 ^ 32)).holdDb q).refreshQ q) ∧
    (¬ ((s.qEnabled q = true ∧ s.partActive q = true) ∧ s.tailFits q (v.toNat % 2 ^ 32)) → s.tailWrite q v = s.dbErr (.que q)) := by
  have hgo : ∀ x, (if !s.qEnabled q || !s.partActive q || decide (2 ^ s.fld (queCfg q) 8 5 < wsub (fldOf v 0 32) (s.fld (queHead q) 0 32))
      || decide (2 ^ 31 ≤ wsub (fldOf v 0 32) (s.fld (queTail q) 0 32)) then s.dbErr (.que q)
      else ((s.setFld (queTail q) 0 32 (fldOf v 0 32)).holdDb q).refreshQ q) = x → s.tailWrite q v = x :=
    fun x hx => (if_neg h).trans ((if_neg (Bool.eq_false_iff.1 hs)).trans hx)
  refine ⟨fun ⟨he, hp⟩ ⟨hr, ht⟩ => hgo _ (if_neg ?_), fun hn => hgo _ (if_pos ?_)⟩
  · rw [← fldOf_zero_eq] at hr ht
    simp only [he, hp, Bool.or_eq_true, Bool.not_true, Bool.false_eq_true, decide_eq_true_eq, false_or]
    omega
  · unfold State.tailFits at hn
    rw [← fldOf_zero_eq] at hn
    refine Decidable.byContradiction fun hc => ?_
    simp only [Bool.or_eq_true, Bool.not_eq_true', decide_eq_true_eq, not_or, Bool.not_eq_false, Nat.not_lt, Nat.not_le] at hc
    obtain ⟨⟨⟨he, hp⟩, hr⟩, ht⟩ := hc
    exact hn ⟨⟨he, hp⟩, hr, ht⟩

theorem State.holdDb_refresh (q : QRef) (u : State) :
    (u.holdDb q).refreshQ q = (if u.qState q = 7 then u.modQ q fun x => { x with heldDb := x.heldDb + 1 } else u).refreshQ q := rfl

/-- The FIFO has no room for a descriptor. -/
def State.fifoFull (s : State) (q : QRef) : Prop := 8 ≤ wsub (s.fld (queHead q) 0 32) (s.fld (queDone q) 0 32) + s.roomIn q

theorem State.sopPush_lost {d : Desc} (h : s.qState q = 9) : s.sopPush q d = s.lostDoorbells q.core 1 := if_pos h

theorem State.sopPush_queue {d : Desc} (h : s.qState q ≠ 9) :
    (s.qEnabled q = true ∧ s.partActive q = true → ¬ s.fifoFull q → s.sopPush q d = (((s.modQ q fun x => { x with cmds := x.cmds ++
      [{ raw := d, submit := s.fld (queHead q) 0 32 }] }).bump (queHead q) 0 32 1).holdDb q).refreshQ q) ∧
    (¬ ((s.qEnabled q = true ∧ s.partActive q = true) ∧ ¬ s.fifoFull q) → s.sopPush q d = s.dbErr (.que q)) := by
  unfold State.fifoFull
  refine ⟨fun ⟨he, hp⟩ hr => (if_neg h).trans (if_neg ?_), fun hn => (if_neg h).trans (if_pos ?_)⟩
  · simp only [he, hp, Bool.or_eq_true, Bool.not_true, Bool.false_eq_true, decide_eq_true_eq, false_or]
    exact hr
  · refine Decidable.byContradiction fun hc => ?_
    simp only [Bool.or_eq_true, Bool.not_eq_true', decide_eq_true_eq, not_or, Bool.not_eq_false] at hc
    obtain ⟨⟨he, hp⟩, hr⟩ := hc
    exact hn ⟨⟨he, hp⟩, hr⟩

theorem State.q_modQ_same (s : State) (q : QRef) (f : QueX → QueX) : (s.modQ q f).q q = f (s.q q) := by
  unfold State.modQ
  rw [State.q_setQ, if_pos rfl]

/-- A queue's single-op window with its last qword. -/
def State.sopWindow (s : State) (q : QRef) (v : W64) : State := s.modQ q fun x => { x with sop := putFld (s.q q).sop 960 64 v.toNat }

theorem setQword_last (d : Desc) (v : W64) : setQword d 15 v = putFld d 960 64 v.toNat := rfl

theorem effQueSop15Doorbell_eq : effQueSop15Doorbell q v s =
    if s.qSop q then (s.sopWindow q v).sopPush q (putFld (s.q q).sop 960 64 v.toNat) else s.sopWindow q v := by
  have hwin : s.modQ q (fun x => { x with sop := setQword x.sop 15 v }) = s.sopWindow q v := by
    unfold State.sopWindow State.modQ
    dsimp only
    rw [setQword_last]
  have hsop : ((s.sopWindow q v).q q).sop = putFld (s.q q).sop 960 64 v.toNat := congrArg QueX.sop (State.q_modQ_same ..)
  unfold effQueSop15Doorbell
  dsimp only
  rw [hwin, hsop]
  rfl

theorem sop15_spec (hq : q.ok = true) :
    let d := putFld (s.q q).sop 960 64 v.toNat
    let u := s.sopWindow q v
    let live := s.qEnabled q = true ∧ s.partActive q = true
    (s.qSop q = false → exec (.queSop15Doorbell q v) s = .next u) ∧
    (s.qSop q = true → s.qState q = 9 → exec (.queSop15Doorbell q v) s = .next (u.lostDoorbells q.core 1)) ∧
    (s.qSop q = true → s.qState q ≠ 9 → live → ¬ u.fifoFull q → exec (.queSop15Doorbell q v) s = .next ((((u.modQ q fun x => { x with cmds :=
      x.cmds ++ [{ raw := d, submit := u.fld (queHead q) 0 32 }] }).bump (queHead q) 0 32 1).holdDb q).refreshQ q)) ∧
    (s.qSop q = true → s.qState q ≠ 9 → ¬ (live ∧ ¬ u.fifoFull q) → exec (.queSop15Doorbell q v) s = .next (u.dbErr (.que q))) := by
  intro d u live
  have hgo : exec (.queSop15Doorbell q v) s = .next (if s.qSop q then u.sopPush q d else u) := exec_of rfl hq effQueSop15Doorbell_eq
  refine ⟨fun hs => hgo.trans ?_, fun hs h => hgo.trans ?_, fun hs h hl hf => hgo.trans ?_, fun hs h hn => hgo.trans ?_⟩
  · rw [if_neg (Bool.eq_false_iff.1 hs)]
  · rw [if_pos hs, State.sopPush_lost (s := u) h]
  · rw [if_pos hs, (State.sopPush_queue (s := u) h).1 hl hf]
  · rw [if_pos hs, (State.sopPush_queue (s := u) h).2 hn]

section
variable {p grp : Nat} (hp : p < 16) (hg : grp < 16) (n : Nat)
include hp hg

theorem State.fld_setGroup_core {k : Nat} (hk : coreB 0 ≤ k) (lo w : Nat) : (s.setFld (bcastB p grp) 0 32 n).fld k lo w = s.fld k lo w := by
  refine State.fld_setFld_ne _ _ _ _ _ _ ?_
  simp only [bcastB, partB, coreB] at *
  omega

omit hp hg in
theorem coreB_le_queB (q : QRef) (n : Nat) : coreB 0 ≤ queB q + n := by
  simp only [queB, coreB]
  omega

theorem State.bcastMembers_setGroup (x : Nat) : (s.setFld (bcastB p grp) 0 32 n).bcastMembers x grp = s.bcastMembers x grp := by
  have hlow : ∀ k, k < partB 0 → (s.setFld (bcastB p grp) 0 32 n).reg k = s.reg k := fun k hk => by
    refine s.reg_setFld_ne _ _ _ ?_
    simp only [bcastB, partB] at *
    omega
  have hcores : (s.setFld (bcastB p grp) 0 32 n).partCores x = s.partCores x := by
    unfold State.partCores
    exact List.filter_congr fun c _ => by rw [State.corePart_of_low hlow]
  unfold State.bcastMembers State.partQueues State.bit
  rw [hcores]
  refine List.filter_congr fun q _ => ?_
  rw [State.fld_setGroup_core hp hg n (k := queBcast q) (coreB_le_queB q 0x070), State.fld_setGroup_core hp hg n (k := queBcast q) (coreB_le_queB q 0x070)]

theorem State.qSop_setGroup (q : QRef) : (s.setFld (bcastB p grp) 0 32 n).qSop q = s.qSop q := by
  unfold State.qSop State.bit
  rw [State.fld_setGroup_core hp hg n (k := queCfg q) (coreB_le_queB q 0)]

end

/-! ### The writes of QUE_CFG, QUE_BCAST and CR_HEAD -/

theorem State.qEnabled_setMode (s : State) (q : QRef) (v : W64) : (s.setFld (queCfg q) 1 3 (fldOf v 1 3)).qEnabled q = v.getLsbD 1 := by
  have hfld : (s.setFld (queCfg q) 1 3 (fldOf v 1 3)).fld (queCfg q) 1 1 = b2n (v.getLsbD 1) := by
    rw [State.fld_narrow _ _ 1 (w := 3) (by omega), State.fld_setFld_same _ _ _ _ _ (by omega), ← fldOf_one_eq_b2n, fldOf_narrow v 1 (w := 3) (w' := 1) (by omega)]
    unfold fldOf nbits
    exact congrArg (· % 2 ^ 1) (Nat.mod_mod _ _)
  unfold State.qEnabled State.bit
  rw [hfld]
  cases v.getLsbD 1 <;> rfl

theorem queStatus_ne_queCfg (q : QRef) : queStatus q ≠ queCfg q := by
  unfold queStatus queCfg
  omega

/-- The held fields of QUE_CFG, taken while ENABLE was 0. -/
def State.heldCfg (s : State) (q : QRef) (v : W64) : State :=
  ((s.setFld (queCfg q) 8 5 (max 4 (min 16 (fldOf v 8 5)))).setFld (queCfg q) 16 5 (max 4 (min 16 (fldOf v 16 5)))).setFld (queCfg q) 32 16 (fldOf v 32 16)

theorem State.qState_heldCfg (s : State) (q : QRef) (v : W64) : (s.heldCfg q v).qState q = s.qState q := by
  have hne := queStatus_ne_queCfg q
  unfold State.heldCfg State.qState
  rw [State.fld_setFld_ne _ _ _ _ _ _ hne, State.fld_setFld_ne _ _ _ _ _ _ hne, State.fld_setFld_ne _ _ _ _ _ _ hne]

theorem effQueCfgWrite_eq (s : State) (q : QRef) (v : W64) :
    let u := (if s.qEnabled q then s else s.heldCfg q v).setFld (queCfg q) 1 3 (fldOf v 1 3)
    effQueCfgWrite q v s = (if v.getLsbD 1 = false ∧ s.qState q = 8 then u.setQState q 0 else u).refreshQ q := by
  intro u
  have hen : u.qEnabled q = v.getLsbD 1 := State.qEnabled_setMode ..
  have hst : u.qState q = s.qState q := by
    refine (State.fld_setFld_ne _ _ _ _ _ _ (queStatus_ne_queCfg q)).trans ?_
    split
    · rfl
    · exact s.qState_heldCfg q v
  have hgo : effQueCfgWrite q v s = (if !u.qEnabled q && decide (u.qState q = 8) then u.setQState q 0 else u).refreshQ q := rfl
  rw [hgo, hen, hst]
  simp only [Bool.and_eq_true, Bool.not_eq_true', decide_eq_true_eq]

theorem State.setFld_three_rest (s : State) (k a b c d e f x y z : Nat) :
    { ((s.setFld k a b x).setFld k c d y).setFld k e f z with regs := s.regs } = s := rfl

theorem bcastWrite_spec (s : State) (k : Nat) (v : W64) :
    let t := ((s.setFld k 0 5 (fldOf v 0 5)).setFld k 8 8 (fldOf v 8 8)).setFld k 16 16 (fldOf v 16 16)
    { t with regs := s.regs } = s ∧ t.reg k = putFld (putFld (putFld (s.reg k) 0 5 v.toNat) 8 8 (v.toNat / 2 ^ 8)) 16 16 (v.toNat / 2 ^ 16) ∧
      ∀ j, j ≠ k → t.reg j = s.reg j := by
  refine ⟨s.setFld_three_rest .., ?_, fun j hj => ?_⟩
  · rw [State.reg_setFld_same, State.reg_setFld_same, State.reg_setFld_same, putFld_fldOf, putFld_fldOf, fldOf_zero_eq, putFld_mod]
  · rw [State.reg_setFld_ne _ _ _ _ hj, State.reg_setFld_ne _ _ _ _ hj, State.reg_setFld_ne _ _ _ _ hj]

theorem queBcastWrite_spec (hq : q.ok = true) (he : s.qEnabled q = false) :
    let others := (s.bcastMembers ((s.corePart q.core).getD 0) (fldOf v 1 4)).filter fun x => x ≠ q
    (v.getLsbD 0 = true ∧ 256 ≤ others.length → DropsDoorbell (.queBcastWrite q v) s q) ∧
    (v.getLsbD 0 = false ∨ others.length < 256 → SetsRegs (.queBcastWrite q v) s [(queBcast q,
      putFld (putFld (putFld (s.reg (queBcast q)) 0 5 v.toNat) 8 8 (v.toNat / 2 ^ 8)) 16 16 (v.toNat / 2 ^ 16))]) := by
  intro others
  have hbit : fldOf v 0 1 = 1 ↔ v.getLsbD 0 = true := by
    rw [fldOf_one_eq_b2n]
    cases v.getLsbD 0 <;> decide
  refine ⟨fun ⟨hv, hn⟩ => dropsDoorbell_of (exec_of rfl hq ((if_neg (Bool.eq_false_iff.1 he)).trans (if_pos ⟨hbit.2 hv, hn⟩))), fun h => ?_⟩
  obtain ⟨hrest, hsame, hne⟩ := bcastWrite_spec s (queBcast q) v
  refine ⟨_, exec_of rfl hq ((if_neg (Bool.eq_false_iff.1 he)).trans (if_neg ?_)), hrest, fun e hm => ?_, fun k hk =>
    hne k fun hk' => hk (List.mem_singleton.2 hk')⟩
  · rintro ⟨hv, hn⟩
    rcases h with h | h
    · exact Bool.false_ne_true (h.symm.trans (hbit.1 hv))
    · exact Nat.not_le.2 h hn
  · cases List.mem_singleton.1 hm
    exact hsame

theorem crHead_que (s : State) (q : QRef) (v : W64) : effQueCrHeadWrite (.que q) v s = (s.setFld (queCrHead q) 0 32 v.toNat).refreshQ q := by
  rw [← State.setFld_fldOf]
  rfl

theorem crHead_svc (s : State) (p n : Nat) (v : W64) : effQueCrHeadWrite (.svc p n) v s =
    if s.fld (svcB p n + 0x48) 0 4 = 4 then (s.setFld (svcB p n + 0x40) 0 32 v.toNat).setFld (svcB p n + 0x48) 0 4 2
    else s.setFld (svcB p n + 0x40) 0 32 v.toNat := by
  have hst : (s.setFld (svcB p n + 0x40) 0 32 v.toNat).fld (svcB p n + 0x48) 0 4 = s.fld (svcB p n + 0x48) 0 4 :=
    State.fld_setFld_ne _ _ _ _ _ _ (by omega)
  rw [← hst, ← State.setFld_fldOf]
  rfl

end

/-- Settles O28: each write of a queue's page does what its lemma says. -/
theorem queueDoorbells : Obligations.QueueDoorbells := by
  unfold Obligations.QueueDoorbells
  refine ⟨fun s q v hq => ?_, fun s q v hq => ⟨exec_of rfl hq (effQueCfgWrite_eq s q v), fun he => exec_of rfl hq (if_pos he), fun he =>
    queBcastWrite_spec hq he, exec_of rfl hq (crHead_que s q v), fun p n hp hn => exec_of rfl (by simp [CrTarget.ok, Config.partitions, hp, hn]) (crHead_svc s p n v)⟩⟩
  obtain ⟨hbuf, hlost, htook, hdrop⟩ := sop15_spec (s := s) (v := v) hq
  refine ⟨fun h => lost_of (exec_of rfl hq (State.tailWrite_lost h)), fun h hs => exec_of rfl hq (State.tailWrite_sop h hs),
    fun h hs hl hf => exec_of rfl hq ((State.tailWrite_buffer h hs).1 hl hf), fun h hs hn => dropsDoorbell_of (exec_of rfl hq ((State.tailWrite_buffer h hs).2 hn)),
    ⟨hbuf, fun hs h => lost_of (hlost hs h), htook, hdrop⟩, fun p grp hp hg => ?_⟩
  have hok : (decide (p < Config.partitions) && decide (grp < 16)) = true := by simp [Config.partitions, hp, hg]
  refine ⟨exec_of rfl hok ?_, exec_of rfl hok rfl⟩
  unfold effBcastTail
  dsimp only
  rw [State.bcastMembers_setGroup hp hg, fldOf_zero_eq]
  exact congrArg (List.foldl _ _) (List.filter_congr fun q _ => by rw [State.qSop_setGroup hp hg])

end Sys2Proof.Machine

/-!
PROOFS. RESUME and the aborts of a queue (06_submission R198, 07_commit_and_rerun R220, R225).
-/

namespace Sys2Proof.Machine

section
variable {s u : State} {q : QRef} {c : Cmd}

/-! ### Resume -/

theorem State.resumeQ_other (h5 : s.qState q ≠ 5) (h6 : s.qState q ≠ 6) : s.resumeQ q = s := (if_neg h5).trans (if_neg h6)

theorem State.resumeQ_halted (h : s.qState q = 5) : s.resumeQ q = ((s.setQState q 1).setFld (queStatus q) 8 8 0).advance q := if_pos h

theorem State.resumeQ_blocked (h : s.qState q = 6) : s.resumeQ q = (s.retryRecords (.que q)).refreshQ q :=
  (if_neg (by omega)).trans (if_pos h)

theorem effQueResumeSkip_skips (h : s.qState q = 5) (hs : s.qSop q = false) : effQueResumeSkip q s = (s.skipEntry q).resumeQ q :=
  if_pos ⟨h, by rw [hs]; rfl⟩

theorem effQueResumeSkip_resumes (h : s.qState q ≠ 5 ∨ s.qSop q = true) : effQueResumeSkip q s = s.resumeQ q := by
  refine if_neg ?_
  rintro ⟨h5, hs⟩
  rcases h with h | h
  · exact h h5
  · rw [h] at hs
    exact Bool.false_ne_true hs

theorem exec_queResumeSkip (hq : q.ok = true) (h : s.qState q ≠ 5 ∨ s.qSop q = true) : exec (.queResumeSkip q) s = exec (.queResume q) s :=
  (exec_of rfl hq (effQueResumeSkip_resumes h)).trans (exec_of (c := .queResume q) rfl hq rfl).symm

/-! ### QUE_ABORT -/

section
variable {n i : Nat}

theorem effQueAbort_fetched (h : ((s.q q).cmds.any fun c => !c.pour && c.submit = n && c.index = i) = true) :
    effQueAbort q n i s = s.modQ q fun x => { x with aborts := x.aborts ++ [(n, i)] } := if_pos h

/-- A descriptor that is accepted and not fetched. -/
def State.posted (s : State) (q : QRef) (n i : Nat) : Prop :=
  s.qSop q = false ∧ (between (s.fld (queHead q) 0 32) (s.fld (queTail q) 0 32) n = true ∨ ∃ e ∈ (s.q q).ents, e.submit = n ∧ e.next ≤ i ∧ i < e.count)

theorem State.posted_iff : (!s.qSop q && (between (s.fld (queHead q) 0 32) (s.fld (queTail q) 0 32) n
    || (s.q q).ents.any fun e => e.submit = n && decide (e.next ≤ i) && decide (i < e.count))) = true ↔ s.posted q n i := by
  simp only [State.posted, Bool.and_eq_true, Bool.not_eq_true', Bool.or_eq_true, List.any_eq_true, decide_eq_true_eq, and_assoc]

theorem effQueAbort_unfetched (h : ((s.q q).cmds.any fun c => !c.pour && c.submit = n && c.index = i) = false) :
    (¬ s.posted q n i → effQueAbort q n i s = s) ∧
    (s.posted q n i → (s.q q).pend.length < 16 → effQueAbort q n i s = s.modQ q fun x => { x with pend := x.pend ++ [(n, i)] }) ∧
    (s.posted q n i → 16 ≤ (s.q q).pend.length → effQueAbort q n i s = s.dbErr (.que q)) := by
  have hgo := (if_neg (Bool.eq_false_iff.1 h) : effQueAbort q n i s = _)
  have hun : ¬ s.posted q n i → (!(!s.qSop q && (between (s.fld (queHead q) 0 32) (s.fld (queTail q) 0 32) n
      || (s.q q).ents.any fun e => e.submit = n && decide (e.next ≤ i) && decide (i < e.count)))) = true := fun hn => by
    rw [Bool.not_eq_true', Bool.eq_false_iff]
    exact fun hp => hn (State.posted_iff.1 hp)
  have hpost : s.posted q n i → ¬ (!(!s.qSop q && (between (s.fld (queHead q) 0 32) (s.fld (queTail q) 0 32) n
      || (s.q q).ents.any fun e => e.submit = n && decide (e.next ≤ i) && decide (i < e.count)))) = true := fun hp => by
    rw [State.posted_iff.2 hp]
    exact Bool.false_ne_true
  exact ⟨fun hn => hgo.trans (if_pos (hun hn)), fun hp hl => hgo.trans ((if_neg (hpost hp)).trans (if_neg (Nat.not_le.2 hl))),
    fun hp hl => hgo.trans ((if_neg (hpost hp)).trans (if_pos hl))⟩

end

/-! ### An abort that reaches the engine -/

theorem State.judgeOne_queued (h : c.phase = .queued) : s.judgeOne q c =
    if s.mayRecord q then s.fail q c { code := 1 } else s.modCmd q c fun c => { c with abortSeen := true } := by
  unfold State.judgeOne
  rw [h]
  rfl

section
variable (h : c.phase ≠ .queued)
include h

theorem State.judgeOne_late (hc : c.phase = .committed ∨ hClass c.raw = 1) : s.judgeOne q c = s.modCmd q c fun c => { c with abortSeen := true } := by
  refine (if_neg (by simpa using h)).trans (if_pos ?_)
  rcases hc with hc | hc <;> simp [hc]

variable (hn : c.phase ≠ .committed)
include hn

theorem State.judgeOne_running (hk : hClass c.raw ≠ 1) (hr : hClass c.raw ≠ 2 ∨ s.run? c.run = none) : s.judgeOne q c = s.fail q c { code := 1 } := by
  refine (if_neg (by simpa using h)).trans ((if_neg (by simp [hn, hk])).trans ?_)
  rcases hr with hr | hr
  · exact if_neg hr
  · split
    · rw [hr]
      rfl
    · rfl

theorem State.judgeOne_member (hk : hClass c.raw = 2) {r : Run} (hr : s.run? c.run = some r) :
    (r.arrived = true → s.judgeOne q c = s.coordAbort r.coord r.inst (lMembers c.raw)) ∧
    (r.arrived = false → ∀ a k, s.xlat (s.who q) .write (lCoord c.raw) = (a, .ok k) →
      s.judgeOne q c = (a.coordAbort k.pa (lInst c.raw) (lMembers c.raw)).fail q c { code := 1 }) := by
  refine ⟨fun ha => ?_, fun ha a k hx => ?_⟩ <;>
    refine (if_neg (by simpa using h)).trans ((if_neg (by simp [hn, hk])).trans ((if_pos hk).trans ?_)) <;> rw [hr]
  · exact if_pos ha
  · refine (if_neg (Bool.eq_false_iff.1 ha)).trans ?_
    dsimp only
    rw [hx]
    rfl

end

theorem State.judgeAbort_call (h : c.phase ≠ .queued) (hc : hOpc c.raw = 3) : s.judgeAbort q c =
    ((((s.q q).cmds.filter fun e => e.pour && e.phase != .queued).foldl (fun s e => s.judgeOne q e) s).endPour q).fail q c { code := 1 } := by
  have hcall : hOpc c.raw = opCall := hc
  refine if_pos ?_
  rw [hcall]
  simpa using h

theorem State.judgeAbort_one (h : c.phase = .queued ∨ hOpc c.raw ≠ 3) : s.judgeAbort q c = s.judgeOne q c := by
  refine if_neg ?_
  rcases h with h | h
  · rw [h]
    simp
  · have hcall : hOpc c.raw ≠ opCall := h
    simp [hcall]

theorem effAbortReachesEngine_of {n i : Nat} {r : List (Nat × Nat)} (ha : (s.q q).aborts = (n, i) :: r) :
    let u := s.modQ q fun x => { x with aborts := r }
    ((u.q q).cmds.find? (fun c => !c.pour && c.submit = n && c.index = i) = none → effAbortReachesEngine q s = u) ∧
    ∀ c, (u.q q).cmds.find? (fun c => !c.pour && c.submit = n && c.index = i) = some c → effAbortReachesEngine q s = u.judgeAbort q c := by
  intro u
  unfold effAbortReachesEngine
  rw [ha]
  refine ⟨fun hn => ?_, fun c hs => ?_⟩
  · dsimp only
    rw [hn]
  · dsimp only
    rw [hs]

end

/-- Settles O29: the state of the queue, or of the command that an abort names, decides. -/
theorem queueResumes : Obligations.QueueResumes := by
  unfold Obligations.QueueResumes
  refine ⟨fun s q hq => ⟨fun h5 h6 => ?_, fun h => ⟨exec_of rfl hq (State.resumeQ_halted h), fun hs => exec_queResumeSkip hq (Or.inr hs), fun hs =>
    exec_of rfl hq (effQueResumeSkip_skips h hs)⟩, fun h => ⟨exec_of rfl hq (State.resumeQ_blocked h), exec_queResumeSkip hq (Or.inl (by omega))⟩⟩,
    fun s q hq => ⟨fun n i hn hi => ?_, exec_of rfl hq rfl, fun ha => ?_, fun n i r ha => ?_⟩⟩
  · have hstay := exec_of (c := .queResume q) rfl hq (State.resumeQ_other h5 h6)
    exact ⟨hstay, (exec_queResumeSkip hq (Or.inl h5)).trans hstay⟩
  · have hok : (q.ok && decide (n < 2 ^ 32) && decide (i < 2 ^ 16)) = true := by
      rw [hq, decide_eq_true hn, decide_eq_true hi]
      rfl
    exact ⟨fun hf => exec_of rfl hok (effQueAbort_fetched hf), fun hf hp => exec_of rfl hok ((effQueAbort_unfetched hf).1 hp),
      fun hf hp hl => exec_of rfl hok ((effQueAbort_unfetched hf).2.1 hp hl), fun hf hp hl => dropsDoorbell_of (exec_of rfl hok ((effQueAbort_unfetched hf).2.2 hp hl))⟩
  · refine exec_of rfl hq ?_
    unfold effAbortReachesEngine
    rw [ha]
  · obtain ⟨hnone, hsome⟩ := effAbortReachesEngine_of ha
    refine ⟨fun hf => exec_of rfl hq (hnone hf), fun c hf => ?_⟩
    have hgo : exec (.abortReachesEngine q) s = .next (State.judgeAbort _ q c) := exec_of rfl hq (hsome c hf)
    refine ⟨fun hp => hgo.trans (congrArg _ ((State.judgeAbort_one (Or.inl hp)).trans (State.judgeOne_queued hp))),
      fun hp hc => hgo.trans (congrArg _ (State.judgeAbort_call hp hc)), fun hp hc => ?_⟩
    have hone := hgo.trans (congrArg _ (State.judgeAbort_one (Or.inr hc)))
    refine ⟨fun hl => hone.trans (congrArg _ (State.judgeOne_late hp hl)), fun hn hk hr => hone.trans (congrArg _ (State.judgeOne_running hp hn hk hr)),
      fun hn hk r hr => ⟨fun hm => hone.trans (congrArg _ ((State.judgeOne_member hp hn hk hr).1 hm)), fun hm a k hx =>
        hone.trans (congrArg _ ((State.judgeOne_member hp hn hk hr).2 hm a k hx))⟩⟩

end Sys2Proof.Machine

/-!
PROOFS. How queues fetch, and how their commands start (06_submission R170-R173, R180-R183, R186, R199, 07_commit_and_rerun R206, R209).
-/

namespace Sys2Proof.Machine

section
variable {s u : State} {q : QRef}

/-! ### Fetch -/

section
variable (hf : s.fetches q = true)
include hf

/-- An entry that has been read (R173). -/
theorem effSubmissionEntryReturn_read {bs : Bytes} (hh : s.fld (queHead q) 0 32 ≠ s.fld (queTail q) 0 32)
    (hr : s.readVa (s.who q) .read (s.fld (queRingBase q) 0 55 + 16 * (s.fld (queHead q) 0 32 % 2 ^ s.fld (queCfg q) 8 5)) 16 0 = (u, .ok bs)) :
    let head := s.fld (queHead q) 0 32
    let e := ofBytes bs
    let count := e / 2 ^ 64 % 2 ^ 16
    let h := u.bump (queHead q) 0 32 1
    let k := h.modQ q fun x => { x with pend := x.pend.filter fun a => !(a.1 = head && decide (count ≤ a.2)) }
    effSubmissionEntryReturn q s =
      if e / 2 ^ 55 % 2 ^ 9 ≠ 0 ∨ e / 2 ^ 80 % 2 ^ 48 ≠ 0 then h.fetchFault q head 0 { code := 0x24 }
      else if count = 0 then (k.bump (queDone q) 0 32 1).refreshQ q
      else (k.modQ q fun x => { x with ents := x.ents ++ [{ submit := head, buf := e % 2 ^ 55 / 128 * 128, count := count, next := 0 }] }).refreshQ q := by
  intro head e count h k
  have hgo : ¬ ((!s.fetches q || decide (s.fld (queHead q) 0 32 = s.fld (queTail q) 0 32)) = true) := by
    rw [hf, decide_eq_false hh]
    exact Bool.false_ne_true
  have hbuf : alignDown (nbits e 0 55) 128 = e % 2 ^ 55 / 128 * 128 := rfl
  unfold effSubmissionEntryReturn
  refine (if_neg hgo).trans ?_
  dsimp only
  rw [hr]
  dsimp only
  rw [hbuf]
  simp only [nbits_eq]
  rfl

theorem effDescriptorBlockReturn_read {e : Ent} {rest : List Ent} {ds : List (Desc × Bool)} (ha : s.aheadFull q false = false)
    (he : (s.q q).ents = e :: rest) (hr : s.readDescs q (min 16 (e.count - e.next)) (e.buf + 128 * e.next) [] = (u, .ok ds)) :
    let n := min 16 (e.count - e.next)
    effDescriptorBlockReturn q s = (u.modQ q fun x =>
      { x with cmds := x.cmds ++ ds.mapIdx fun i d => mkCmd x e.submit (e.next + i) false d
               pend := x.pend.filter fun a => !(a.1 = e.submit && decide (e.next ≤ a.2) && decide (a.2 < e.next + n))
               ents := if e.next + n < e.count then { e with next := e.next + n } :: rest else rest }).refreshQ q := by
  intro n
  have hgo : ¬ ((!s.fetches q || s.aheadFull q false) = true) := by
    rw [hf, ha]
    exact Bool.false_ne_true
  unfold effDescriptorBlockReturn
  refine (if_neg hgo).trans ?_
  rw [he]
  dsimp only
  rw [hr]

end
end

/-- Settles O30: what has been read decides between a fault, a completion and an entry, and a block joins the queue. -/
theorem queueFetch : Obligations.QueueFetch := by
  unfold Obligations.QueueFetch
  intro s u q hq hf
  refine ⟨fun hh bs hr => ?_, fun ha e rest ds he hr => exec_of rfl hq (effDescriptorBlockReturn_read hf ha he hr)⟩
  have hgo := exec_of (c := .submissionEntryReturn q) rfl hq (effSubmissionEntryReturn_read hf hh hr)
  have hok : ofBytes bs / 2 ^ 55 % 2 ^ 9 = 0 → ofBytes bs / 2 ^ 80 % 2 ^ 48 = 0 →
      ¬ (ofBytes bs / 2 ^ 55 % 2 ^ 9 ≠ 0 ∨ ofBytes bs / 2 ^ 80 % 2 ^ 48 ≠ 0) := fun h1 h2 hn => hn.elim (fun hn => hn h1) fun hn => hn h2
  dsimp only
  refine ⟨fun hi => ?_, fun h1 h2 hc => ?_, fun h1 h2 hc => ?_⟩
  · rw [hgo, if_pos hi]
  · rw [hgo, if_neg (hok h1 h2), if_pos hc]
  · rw [hgo, if_neg (hok h1 h2), if_neg hc]

end Sys2Proof.Machine

/-!
PROOFS. How the commands of queues start, and what wakes, arms and notifications do (06_submission R170, R171, R180-R183, R186, R199).
-/

namespace Sys2Proof.Machine

section
variable {s g u v k : State} {q : QRef} {c : Cmd} {cost : Nat}

/-! ### A head command that passes its gates -/

/-- A head that nothing keeps from its gates. -/
structure Startable (s : State) (q : QRef) (c : Cmd) : Prop where
  head : s.head q = some c
  queued : c.phase = .queued
  may : s.mayStart q = true
  form : hdrBad q.eng c.pour c.raw = false
  kept : c.abortSeen = false
  whole : c.poisoned = false

theorem effCommandReady_admitted (hs : Startable (s.headUpdate q) q c) (hg : (s.headUpdate q).gates q c = (g, .pass)) (hr : g.crFree q ≠ 0)
    (hl : g.ledgerAdmit q (hEnergy c.raw) = some cost) (hc : g.calAdmits q = true) :
    (isQueueOp (hOpc c.raw) = true → effCommandReady q s = g.startCmd q c cost q.eng) ∧
    (isQueueOp (hOpc c.raw) = false →
      let e := if c.handed then partnerOf q.eng else q.eng
      (g.eng q.core e).run = 0 → (g.eng q.core e).stopping = false → g.outranked q c.handed e = false →
        effCommandReady q s = g.startCmd q c cost e) := by
  obtain ⟨hhead, hq, hm, hf, ha, hp⟩ := hs
  have hstart : ¬ ((c.phase != .queued || !(s.headUpdate q).mayStart q) = true) := by
    rw [hq, hm]
    decide
  have hrec : ¬ (((c.abortSeen || c.poisoned || hdrBad q.eng c.pour c.raw) && !(s.headUpdate q).mayRecord q) = true) := by
    rw [ha, hp, hf]
    exact Bool.false_ne_true
  have hcal : ¬ ((!g.calAdmits q) = true) := by
    rw [hc]
    exact Bool.false_ne_true
  unfold effCommandReady
  dsimp only
  rw [hhead]
  dsimp only
  rw [if_neg hstart, if_neg hrec, if_neg (Bool.eq_false_iff.1 ha), if_neg (Bool.eq_false_iff.1 hp), if_neg (Bool.eq_false_iff.1 hf), hg]
  dsimp only
  rw [if_neg hr, hl]
  dsimp only
  rw [if_neg hcal]
  exact ⟨fun ho => if_pos ho, fun ho hrun hstop hrank => (if_neg (Bool.eq_false_iff.1 ho)).trans ((if_neg (fun hn => hn hrun)).trans
    ((if_neg (Bool.eq_false_iff.1 hstop)).trans (if_neg (Bool.eq_false_iff.1 hrank))))⟩

/-! ### Indirect reads and reservations -/

theorem State.reserveFor_room (hr : s.roomFor (s.coreSite q.core) ((s.corePart q.core).getD 0) (hFoot c.raw) = true) (id : Nat) :
    s.reserveFor q c id = ((s.reserve (s.coreSite q.core) ((s.corePart q.core).getD 0) (hFoot c.raw)).modRun id fun r => { r with res := hFoot c.raw }).modCmd q c
      fun c => { c with phase := .checked } := by
  obtain ⟨hquota, hslice⟩ := Bool.and_eq_true_iff.1 hr
  have hno : ¬ (s.fld (arcTent (s.coreSite q.core) ((s.corePart q.core).getD 0)) 0 16 < hFoot c.raw ∨ 1536 < hFoot c.raw) := by
    have h1 := of_decide_eq_true hquota
    have h2 := of_decide_eq_true hslice
    omega
  exact (if_neg hno).trans (if_pos hr)

theorem effReservationGranted_of (hh : s.head q = some c) (hp : c.phase = .waiting)
    (hr : s.roomFor (s.coreSite q.core) ((s.corePart q.core).getD 0) (hFoot c.raw) = true) : effReservationGranted q s = s.reserveFor q c c.run := by
  unfold effReservationGranted
  rw [hh]
  refine if_pos ?_
  rw [hp, hr]
  rfl

/-- The indirect reads are done, and the checks of the opcode pass. -/
theorem effIndirectReadReturn_checked {d : Desc} {pa : Nat} (hh : s.head q = some c) (hp : c.phase = .started)
    (hi : s.indirect q c.raw (indFields (hOpc c.raw)).zipIdx c.raw = (u, .ok d))
    (hrec : if hRecEn c.raw then u.slotPa q (u.substSlot q (hRsEvt c.raw) (hRecSlot c.raw)) .atomic = (v, .ok pa) ∧ v.mirrorB pa = false
      else v = u ∧ pa = 0)
    (hk : (v.modCmd q c fun c => { c with eff := d, recPa := pa }).opCheck q
      ((v.modCmd q c fun c => { c with eff := d, recPa := pa }).runWho q c.run) d = (k, none)) :
    effIndirectReadReturn q s = if hClass c.raw = 1 then k.modCmd q c fun c => { c with phase := .checked } else k.reserveFor q c c.run := by
  unfold effIndirectReadReturn
  rw [hh]
  refine (if_neg (by rw [hp]; decide)).trans ?_
  rw [hi]
  dsimp only
  by_cases he : hRecEn c.raw = true
  · rw [if_pos he] at hrec ⊢
    obtain ⟨hs, hm⟩ := hrec
    rw [hs]
    dsimp only
    rw [if_neg (Bool.eq_false_iff.1 hm)]
    dsimp only
    rw [hk]
  · rw [if_neg he] at hrec ⊢
    obtain ⟨rfl, rfl⟩ := hrec
    dsimp only
    rw [hk]

theorem effWaitTimeout_of (hh : s.head q = some c) (hp : c.phase = .queued) (ha : c.atHead = true) (hg : c.gates = false)
    (hw : hWaitEn c.raw = true ∨ hArmed c.raw = true) (hm : s.mayStart q = true) (hr : s.mayRecord q = true) :
    effWaitTimeout q s = s.fail q c { code := 0x27 } := by
  unfold effWaitTimeout
  rw [hh]
  refine if_pos ?_
  rw [hp, ha, hg, hm, hr]
  rcases hw with hw | hw <;> rw [hw] <;> simp

theorem effNop_of (h : s.ready q 0 = some c) : effNop q s =
    ((s.sendEvents q c).completeAt q c { code := okStatus c } (s.coreSite q.core) (s.siteCycle (s.coreSite q.core))).advance q := by
  have h' : s.ready q opNop = some c := h
  unfold effNop
  rw [h']

/-! ### Wakes and arms -/

theorem effEventWake_of (hw : q ∈ s.net.wakes) :
    let u : State := { s with net := { s.net with wakes := s.net.wakes.erase q, watches := s.net.watches.filter fun w => w.2 ≠ q } }
    (u.head q = none → effEventWake q s = u) ∧
    (∀ c, u.head q = some c → c.phase = .queued → u.mayStart q = true →
      (∀ g f, u.gates q c = (g, .fail f) → effEventWake q s = g.fail q c f) ∧
      (∀ g, (u.gates q c = (g, .pass) ∨ u.gates q c = (g, .wait)) → effEventWake q s = g.refreshQ q)) := by
  intro u
  have hin : ¬ ((!s.net.wakes.contains q) = true) := by
    rw [List.contains_iff_mem.2 hw]
    exact Bool.false_ne_true
  unfold effEventWake
  rw [if_neg hin]
  dsimp only
  refine ⟨fun hh => ?_, fun c hh hp hm => ?_⟩
  · rw [hh]
  · have hgo : (c.phase == .queued && u.mayStart q) = true := by
      rw [hp, hm]
      rfl
    rw [hh]
    refine ⟨fun g f hg => (if_pos hgo).trans ?_, fun g hg => (if_pos hgo).trans ?_⟩
    · rw [hg]
    · rcases hg with hg | hg <;> rw [hg]

/-- An arm that has been delivered is no longer on its way. -/
def State.armTaken (s : State) (q : QRef) (id : Nat) : State := { s with net := { s.net with arms := s.net.arms.erase (q, id) } }

theorem effArmDelivery_eq {id : Nat} (hm : (q, id) ∈ s.net.arms) : effArmDelivery q id s =
    if s.bit (queArm q (id / 64)) (id % 64) || s.qState q = 9 || !s.qEnabled q then (s.armTaken q id).sat (queStatus q) 32 16 1
    else (s.armTaken q id).setFld (queArm q (id / 64)) (id % 64) 1 1 := by
  refine if_neg ?_
  rw [List.contains_iff_mem.2 hm]
  exact Bool.false_ne_true

theorem queArm_ne_queStatus (q : QRef) (j : Nat) : queArm q j ≠ queStatus q := by
  unfold queArm queStatus
  omega

theorem getLsbD_putFld_one (x : W64) {i j : Nat} (hj : j < 64) : (putFld x i 1 1).getLsbD j = (decide (j = i) || x.getLsbD j) := by
  have hbit : (putFld x i 1 1).getLsbD j = (nput x.toNat i 1 1).testBit j := by
    rw [putFld, BitVec.getLsbD_ofNat, decide_eq_true hj, Bool.true_and]
  rw [hbit, testBit_nput]
  by_cases hlt : j < i
  · rw [if_pos hlt, decide_eq_false (by omega)]
    rfl
  · by_cases he : j = i
    · subst he
      simp
    · rw [if_neg hlt, if_neg (by omega), decide_eq_false he]
      rfl

theorem effNotifyHoldoffExpiry_eq (s : State) (t : CrTarget) : effNotifyHoldoffExpiry t s = if (s.recX t).holdoff then
    (if (s.recX t).notifyDue then (s.setRecX t { s.recX t with holdoff := false, notifyDue := false }).sendNotify t
      else s.setRecX t { s.recX t with holdoff := false, notifyDue := false }) else s := by
  unfold effNotifyHoldoffExpiry
  dsimp only
  cases (s.recX t).holdoff <;> rfl

theorem State.setFld_armTaken_rest (s : State) (q : QRef) (id k lo w n : Nat) :
    { (s.armTaken q id).setFld k lo w n with
      regs := s.regs, net := { ((s.armTaken q id).setFld k lo w n).net with arms := s.net.arms } } = s ∧
    ((s.armTaken q id).setFld k lo w n).net.arms = s.net.arms.erase (q, id) ∧ ∀ j, j ≠ k → ((s.armTaken q id).setFld k lo w n).reg j = s.reg j :=
  ⟨rfl, rfl, fun _ hj => (State.reg_setFld_ne _ _ _ _ hj).trans rfl⟩

theorem State.sat_armTaken_rest (s : State) (q : QRef) (id k lo w n : Nat) :
    { (s.armTaken q id).sat k lo w n with regs := s.regs, net := { ((s.armTaken q id).sat k lo w n).net with arms := s.net.arms } } = s ∧
    ((s.armTaken q id).sat k lo w n).net.arms = s.net.arms.erase (q, id) ∧ ∀ j, j ≠ k → ((s.armTaken q id).sat k lo w n).reg j = s.reg j :=
  State.setFld_armTaken_rest ..

theorem State.reg_sat_armTaken (s : State) (q : QRef) (id k lo w n : Nat) :
    ((s.armTaken q id).sat k lo w n).reg k = putFld (s.reg k) lo w (min (2 ^ w - 1) (s.fld k lo w + n)) := State.reg_sat_same ..

theorem armDelivery_spec {id : Nat} (hq : q.ok = true) (hid : id < 256) (hm : (q, id) ∈ s.net.arms) :
    let key := queArm q (id / 64)
    let lost := s.bit key (id % 64) = true ∨ s.qState q = 9 ∨ s.qEnabled q = false
    ∃ t, exec (.armDelivery q id) s = .next t ∧ { t with regs := s.regs, net := { t.net with arms := s.net.arms } } = s ∧
      t.net.arms = s.net.arms.erase (q, id) ∧ (∀ k, k ≠ key → k ≠ queStatus q → t.reg k = s.reg k) ∧
      (lost → t.reg key = s.reg key ∧
        t.reg (queStatus q) = putFld (s.reg (queStatus q)) 32 16 (min 0xFFFF (s.fld (queStatus q) 32 16 + 1))) ∧
      (¬lost → t.reg (queStatus q) = s.reg (queStatus q) ∧
        ∀ j, j < 64 → (t.reg key).getLsbD j = (decide (j = id % 64) || (s.reg key).getLsbD j)) := by
  intro key lost
  have hne : key ≠ queStatus q := queArm_ne_queStatus q _
  have hok : (q.ok && decide (id < 256)) = true := by rw [hq, decide_eq_true hid]; rfl
  have hiff : (s.bit key (id % 64) || decide (s.qState q = 9) || !s.qEnabled q) = true ↔ lost := by
    simp only [Bool.or_eq_true, decide_eq_true_eq, Bool.not_eq_true', or_assoc, lost]
  by_cases hl : lost
  · obtain ⟨hrest, harms, hne'⟩ := s.sat_armTaken_rest q id (queStatus q) 32 16 1
    exact ⟨_, exec_of rfl hok ((effArmDelivery_eq hm).trans (if_pos (hiff.2 hl))), hrest, harms, fun k _ hk => hne' k hk,
      fun _ => ⟨hne' key hne, s.reg_sat_armTaken ..⟩, fun hn => absurd hl hn⟩
  · obtain ⟨hrest, harms, hne'⟩ := s.setFld_armTaken_rest q id key (id % 64) 1 1
    refine ⟨_, exec_of rfl hok ((effArmDelivery_eq hm).trans (if_neg fun h => hl (hiff.1 h))), hrest, harms, fun k hk _ => hne' k hk,
      fun h => absurd h hl, fun _ => ⟨hne' _ hne.symm, fun j hj => ?_⟩⟩
    rw [State.reg_setFld_same]
    exact getLsbD_putFld_one _ hj

end

/-- Settles O31: each command of a queue's head, and each delivery to a queue, does what its lemma says. -/
theorem queueStarts : Obligations.QueueStarts := by
  unfold Obligations.QueueStarts
  refine ⟨fun s q c hq => ?_, fun s q hq => ⟨fun e he => exec_of rfl he rfl, fun hw c => ?_, fun id hid hm => armDelivery_spec hq hid hm, fun t ht => ?_⟩⟩
  · refine ⟨fun g cost hh hp hm hf ha hw hg hr hl hc => ?_, fun u v k d pa hh hp hi hrec hk => ?_, fun hh hp hr => ?_,
      fun hh hp ha hg hw hm hr => exec_of rfl hq (effWaitTimeout_of hh hp ha hg hw hm hr), fun h => exec_of rfl hq (effNop_of h)⟩
    · obtain ⟨hque, heng⟩ := effCommandReady_admitted ⟨hh, hp, hm, hf, ha, hw⟩ hg hr hl hc
      exact ⟨fun ho => exec_of rfl hq (hque ho), fun ho hrun hstop hrank => exec_of rfl hq (heng ho hrun hstop hrank)⟩
    · have hgo := exec_of (c := .indirectReadReturn q) rfl hq (effIndirectReadReturn_checked hh hp hi hrec hk)
      exact ⟨fun hc => hgo.trans (congrArg _ (if_pos hc)), fun hc => hgo.trans (congrArg _ (if_neg hc))⟩
    · exact exec_of rfl hq ((effReservationGranted_of hh hp hr).trans (State.reserveFor_room hr c.run))
  · obtain ⟨hnone, hsome⟩ := effEventWake_of hw
    refine ⟨fun hh => exec_of rfl hq (hnone hh), fun hh hp hm => ?_⟩
    obtain ⟨hfail, hon⟩ := hsome c hh hp hm
    exact ⟨fun g f hg => exec_of rfl hq (hfail g f hg), fun g hg => exec_of rfl hq (hon g hg)⟩
  · have hgo := exec_of (c := .notifyHoldoffExpiry t) rfl ht (effNotifyHoldoffExpiry_eq s t)
    exact ⟨fun hn => hgo.trans (congrArg _ (if_neg (Bool.eq_false_iff.1 hn))), fun hh => hgo.trans (congrArg _ (if_pos hh))⟩

end Sys2Proof.Machine

/-!
PROOFS. How a pour and a PATCH go on (06_submission R190-R193, 07_commit_and_rerun R209, R215).
-/

namespace Sys2Proof.Machine

theorem patLocked_eq (v : Nat) : patLocked v = decide (v / 2 ^ 32 % 2 = 1) := Nat.testBit_eq_decide_div_mod_eq

theorem patLive_eq (v : Nat) : patLive v = v % 2 ^ 32 := rfl

section
variable {s u v : State} {q : QRef} {c : Cmd} {pa n : Nat}

/-! ### The pour -/

section
variable (hc : s.ready q 3 = some c)
include hc

theorem effCallPattern_of (hw : s.patWord q (patAddr c.eff) = (u, .ok (pa, n))) :
    let p : Pour := { pat := patAddr c.eff, expect := patExpect c.eff }
    (n / 2 ^ 32 % 2 = 1 → effCallPattern q s = u.modQ q fun x => { x with pour := some { p with locked := true } }) ∧
    (n / 2 ^ 32 % 2 = 0 → effCallPattern q s = (((u.writePa (u.who q) pa (toBytes 8 ((n + 1) % 2 ^ 64)) 0).1.modCmd q c
      fun c => { c with phase := .running }).modQ q fun x => { x with pour := some { p with live := true } }).pourHeader q { p with live := true }) := by
  intro p
  have hc' : s.ready q opCall = some c := hc
  unfold effCallPattern
  rw [hc']
  dsimp only
  rw [hw]
  dsimp only
  rw [patLocked_eq]
  refine ⟨fun h => if_pos (decide_eq_true h), fun h => if_neg ?_⟩
  rw [decide_eq_false (by omega)]
  exact Bool.false_ne_true

theorem effPourLockTimeout_of {p : Pour} (hp : (s.q q).pour = some p) (hl : p.locked = true) :
    effPourLockTimeout q s = (s.modQ q fun x => { x with pour := none }).fail q c { code := 0x27 } := by
  have hc' : s.ready q opCall = some c := hc
  unfold effPourLockTimeout
  rw [hc', hp]
  exact if_pos hl

end

theorem effPourBlockReturn_of {p : Pour} {hb bs : Bytes} (hp : (s.q q).pour = some p) (hc : s.callCmd q = some c) (hl : p.live = true)
    (hn : p.count ≠ 0) (hk : 16 * p.nextBlock < p.count) (ha : s.aheadFull q true = false) (hh : s.readVa (s.who q) .read p.pat 64 0 = (u, .ok hb))
    (hr : u.readVa (s.who q) .read (p.pat + 0x800 + 2048 * p.nextBlock) (128 * min 16 (p.count - 16 * p.nextBlock)) 0 = (v, .ok bs)) :
    let n := min 16 (p.count - 16 * p.nextBlock)
    let same := ofBytes ((hb.drop 4).take 4) = p.gen ∧ ofBytes ((hb.drop 16).take 4) = p.hcrc ∧ crc32c bs = p.table.getD p.nextBlock 0
    (¬ same → effPourBlockReturn q s = v.tearPour q) ∧
    (same → effPourBlockReturn q s = (v.modQ q fun x =>
      { x with cmds := insertBefore c ((descsOf n bs).mapIdx fun i d => mkCmd {} c.submit (16 * p.nextBlock + i) true (d, false)) x.cmds
               pour := some { p with nextBlock := p.nextBlock + 1 } }).refreshQ q) := by
  intro n same
  have hlive : ¬ ((!p.live) = true) := by
    rw [hl]
    exact Bool.false_ne_true
  have hahead : ¬ (p.count ≤ 16 * p.nextBlock ∨ s.aheadFull q true = true) := by
    rw [ha]
    rintro (h | h)
    · omega
    · exact Bool.false_ne_true h
  have hr' : u.readVa (s.who q) .read (p.pat + 0x800 + 2048 * p.nextBlock) (128 * patBlockLen p.count p.nextBlock) 0 = (v, .ok bs) := hr
  unfold effPourBlockReturn
  rw [hp, hc]
  dsimp only
  rw [if_neg hlive, if_neg hn, if_neg hahead, hh]
  dsimp only
  rw [hr']
  dsimp only
  refine ⟨fun hs => if_pos ?_, fun ⟨hg, hcrc, ht⟩ => if_neg ?_⟩
  · refine Decidable.byContradiction fun hn => ?_
    simp only [ne_eq, not_or, Decidable.not_not] at hn
    exact hs hn
  · rintro (h | h | h)
    · exact h hg
    · exact h hcrc
    · exact h ht

/-! ### PATCH -/

section
variable (hw : s.patWord q (patAddr c.eff) = (u, .ok (pa, n)))
include hw

theorem effPatch_of (hc : s.ready q 4 = some c) :
    let w := (u.writePa (u.who q) pa (toBytes 8 (nput n 32 1 1)) 0).1.beginWork q c
    (n / 2 ^ 32 % 2 = 1 → effPatch q s = u) ∧
    (n / 2 ^ 32 % 2 = 0 → effPatch q s = if n % 2 ^ 32 = 0 then w.patchWrites q c else w) := by
  intro w
  have hc' : s.ready q opPatch = some c := hc
  unfold effPatch
  rw [hc']
  dsimp only
  rw [hw]
  dsimp only
  rw [patLocked_eq]
  refine ⟨fun h => if_pos (decide_eq_true h), fun h => if_neg ?_⟩
  rw [decide_eq_false (by omega)]
  exact Bool.false_ne_true

theorem effPatchWaitTimeout_locked (hc : s.ready q 4 = some c) (hh : s.patchHeld q = none) (hl : n / 2 ^ 32 % 2 = 1) :
    effPatchWaitTimeout q s = u.fail q c { code := 0x27 } := by
  have hc' : s.ready q opPatch = some c := hc
  unfold effPatchWaitTimeout
  rw [hh]
  dsimp only
  rw [hc']
  dsimp only
  rw [hw]
  dsimp only
  rw [patLocked_eq]
  exact if_pos (decide_eq_true hl)

theorem effPatchWaitTimeout_held (hh : s.patchHeld q = some c) :
    effPatchWaitTimeout q s = if n % 2 ^ 32 = 0 then u else (u.patUnlock q (patAddr c.eff)).fail q c { code := 0x27 } := by
  unfold effPatchWaitTimeout
  rw [hh]
  dsimp only
  rw [hw]
  rfl

theorem effPatchLiveDrained_of (hh : s.patchHeld q = some c) : effPatchLiveDrained q s = if n % 2 ^ 32 = 0 then u.patchWrites q c else u := by
  unfold effPatchLiveDrained
  rw [hh]
  dsimp only
  rw [hw]
  rfl

end

theorem effPinnedWritesDone_of {r : Run} (hc : s.active q (fun c => hOpc c.raw ≠ 0x30 && hClass c.raw = 1 && c.phase == .committed &&
      (match s.run? c.run with
        | some r => r.phase == .workDone
        | none => false)) = some c) (hr : s.run? c.run = some r) :
    let w := if hOpc c.raw = 4 then s.patUnlock q (patAddr c.eff) else s.countMoved q c
    effPinnedWritesDone q s = ((w.sendEvents q c).completeAt q c
      { code := if r.poisoned then 0x10 else if r.siteLost then 0x31 else okStatus c } r.timeSite r.time).advance q := by
  intro w
  unfold effPinnedWritesDone
  extract_lets done
  have hdone : done = some c := hc
  clear_value done
  subst hdone
  dsimp only
  rw [hr]
  rfl

end

/-- Settles O33: the word of the pattern, and what its reads bring, decide. -/
theorem patternCommands : Obligations.PatternCommands := by
  unfold Obligations.PatternCommands
  refine ⟨fun s q c hq => ⟨fun hc u pa v hw => ?_, fun p hp => ⟨fun hc hl => exec_of rfl hq (effPourLockTimeout_of hc hp hl),
    fun hc hl hn hk ha u v hb bs => ?_⟩⟩, fun s u q c pa v hq => ⟨fun hc hw => ?_, fun hh hw => ⟨exec_of rfl hq (effPatchLiveDrained_of hw hh),
      exec_of rfl hq (effPatchWaitTimeout_held hw hh)⟩, fun r hc hr => exec_of rfl hq (effPinnedWritesDone_of hc hr)⟩⟩
  · obtain ⟨hlock, hlive⟩ := effCallPattern_of hc hw
    exact ⟨fun h => exec_of rfl hq (hlock h), fun h => exec_of rfl hq (hlive h)⟩
  · intro n hh hr same
    obtain ⟨htear, hgo⟩ := effPourBlockReturn_of hp hc hl hn hk ha hh hr
    exact ⟨fun h => exec_of rfl hq (htear h), fun h => exec_of rfl hq (hgo h)⟩
  · obtain ⟨hlock, hfree⟩ := effPatch_of hw hc
    exact ⟨fun h => exec_of rfl hq (hlock h), fun h => exec_of rfl hq (hfree h), fun hh hl => exec_of rfl hq (effPatchWaitTimeout_locked hw hc hh hl)⟩

end Sys2Proof.Machine

/-!
PROOFS. Calendar windows, maintenance, self-tests and collectives (07_commit_and_rerun R218, R219, R222-R225, 18_faults_and_recovery R446).
-/

namespace Sys2Proof.Machine

section
variable {s u : State} {core : Nat}

/-! ### Windows and maintenance -/

/-- The window number rises, and wraps at the calendar's length with the frame count. -/
def State.nextWindow (s : State) (core len : Nat) : State :=
  if len ≤ s.fld (calB core + 8) 0 12 + 1 then (s.setFld (calB core + 8) 0 12 0).bump (calB core + 8) 16 32 1
  else s.setFld (calB core + 8) 0 12 (s.fld (calB core + 8) 0 12 + 1)

theorem effCalendarWindowBoundary_quiet (hon : s.bit (calB core) 16 = true) (hlen : s.fld (calB core) 0 13 ≠ 0) (hw : (s.coreX core).maintWanted = false)
    (hu : u = (if (s.coreX core).inWindow then s.leaveMaint core else s).nextWindow core (s.fld (calB core) 0 13))
    (hadm : ∀ m ∈ u.runsOf core, u.calAdmits m.2.1 = true) (hrel : u.inReleased core = false) :
    effCalendarWindowBoundary core s = (coreQueues core).foldl (fun s q => s.refreshQ q) u := by
  have hgo : ¬ ((!s.bit (calB core) 16 || decide (s.fld (calB core) 0 13 = 0)) = true) := by
    rw [hon, decide_eq_false hlen]
    exact Bool.false_ne_true
  have hlate : (u.runsOf core).filter (fun m => !u.calAdmits m.2.1) = [] :=
    List.filter_eq_nil_iff.2 fun m hm => by rw [hadm m hm]; exact Bool.false_ne_true
  unfold effCalendarWindowBoundary
  refine (if_neg hgo).trans ?_
  unfold State.nextWindow at hu
  dsimp only
  rw [hw, if_neg Bool.false_ne_true]
  rw [← hu, hlate, List.filter_nil, List.filter_nil, List.foldl_nil, List.isEmpty_nil, if_pos rfl, hrel, if_neg Bool.false_ne_true]

/-- A core in MAINT, before the test that waits for it begins. -/
def State.inMaint (s : State) (core : Nat) : State :=
  (s.setCoreX core { s.coreX core with maintWanted := false, inWindow := true }).setBit (texB core) 15 true

theorem effMaintBegin_of (hw : (s.coreX core).maintWanted = true) (hr : ∀ e, e < 7 → (s.eng core e).run = 0) :
    effMaintBegin core s = (s.inMaint core).beginTest core := by
  refine if_pos ?_
  rw [hw, Bool.true_and, List.all_eq_true]
  exact fun e he => decide_eq_true (hr e (List.mem_range.1 he))

theorem State.beginTest_none (h : s.bit (coreSelftest core) 1 = false ∨ s.boot.absent = true) : s.beginTest core = s := by
  refine if_neg ?_
  rcases h with h | h <;> rw [h] <;> simp

theorem State.freeNum_rest (s : State) : { s.freeNum.1 with free := s.free } = s := rfl

theorem State.beginTest_begins (h : s.bit (coreSelftest core) 1 = true) (ha : s.boot.absent = false) :
    let v := (s.setBit (coreSelftest core) 1 false).setBit (coreSelftest core) 2 true
    ∃ (a : State) (n : Nat), n < 9 ∧ s.beginTest core = a.setPool core n ∧ { a with free := v.free } = v := by
  intro v
  refine ⟨v.freeNum.1, v.freeNum.2 % 9, Nat.mod_lt _ (by decide), if_pos ?_, v.freeNum_rest⟩
  rw [h, ha]
  rfl

/-! ### Self-tests -/

/-- A step changes the register at `k` alone. -/
theorem State.setFld_onlyAt (s : State) (k lo w v : Nat) : { s.setFld k lo w v with regs := s.regs } = s ∧ ∀ j, j ≠ k → (s.setFld k lo w v).reg j = s.reg j :=
  ⟨rfl, fun _ hj => s.reg_setFld_ne _ _ _ hj⟩

/-- From `s` to `t` the register at `k` alone may change. -/
structure OnlyAt (k : Nat) (s t : State) : Prop where
  rest : { t with regs := s.regs } = s
  reg : ∀ j, j ≠ k → t.reg j = s.reg j

theorem OnlyAt.setFld {k : Nat} {s t : State} (h : OnlyAt k s t) (lo w v : Nat) : OnlyAt k s (t.setFld k lo w v) :=
  ⟨h.rest, fun j hj => (State.reg_setFld_ne _ _ _ _ hj).trans (h.reg j hj)⟩

theorem OnlyAt.refl (k : Nat) (s : State) : OnlyAt k s s := ⟨rfl, fun _ _ => rfl⟩

/-- A test register after a request. -/
def State.testAsked (s : State) (k : Nat) : State :=
  if s.bit k 1 || s.bit k 2 then s.setFld k 0 1 1 else ((s.setFld k 0 1 1).setFld k 1 1 1).setFld k 8 7 0

theorem State.askTest_eq (s : State) (core : Nat) : s.askTest core = s.testAsked (coreSelftest core) := rfl

theorem State.testAsked_spec (s : State) (k : Nat) : let t := s.testAsked k
    OnlyAt k s t ∧ t.bit k 0 = true ∧ (t.bit k 1 = true ∨ t.bit k 2 = true) ∧ t.bit k 2 = s.bit k 2 ∧ t.fld k 16 16 = s.fld k 16 16 ∧
      (s.bit k 1 = true ∨ s.bit k 2 = true → t.bit k 1 = s.bit k 1 ∧ t.fld k 8 7 = s.fld k 8 7) ∧
      (s.bit k 1 = false → s.bit k 2 = false → t.fld k 8 7 = 0) := by
  unfold State.testAsked
  by_cases h : s.bit k 1 = true ∨ s.bit k 2 = true
  · have hc : (s.bit k 1 || s.bit k 2) = true := by rwa [Bool.or_eq_true]
    rw [if_pos hc]
    unfold State.bit at h ⊢
    simp (disch := omega) only [State.fld_setFld_same, State.fld_setFld_other]
    refine ⟨(OnlyAt.refl k s).setFld .., rfl, h, trivial, trivial, fun _ => ⟨trivial, trivial⟩, fun h1 h2 => ?_⟩
    rw [h1, h2] at h
    exact absurd h (by simp)
  · have hc : ¬ ((s.bit k 1 || s.bit k 2) = true) := by rwa [Bool.or_eq_true]
    rw [if_neg hc]
    unfold State.bit at h ⊢
    simp (disch := omega) only [State.fld_setFld_same, State.fld_setFld_other]
    exact ⟨(((OnlyAt.refl k s).setFld ..).setFld ..).setFld .., rfl, Or.inl rfl, trivial, trivial, fun hn => absurd hn h, fun _ _ => by trivial⟩

/-- A test register after a part that has passed. -/
def State.partPassed (s : State) (k : Nat) : State :=
  if s.fld k 8 7 + 1 < 64 then ((s.setFld k 2 1 0).setFld k 8 7 (s.fld k 8 7 + 1)).setFld k 1 1 1
  else (((s.setFld k 2 1 0).setFld k 8 7 (s.fld k 8 7 + 1)).setFld k 0 1 0).sat k 16 16 1

theorem effSelftestPartDone_passed (h : s.bit (coreSelftest core) 2 = true) : effSelftestPartDone core true s = s.partPassed (coreSelftest core) := by
  have hgo : ¬ ((!s.bit (coreSelftest core) 2) = true) := by
    rw [h]
    exact Bool.false_ne_true
  have hfld : (s.setBit (coreSelftest core) 2 false).fld (coreSelftest core) 8 7 = s.fld (coreSelftest core) 8 7 :=
    State.fld_setFld_other _ _ _ _ _ _ _ (by omega) (by omega)
  refine (if_neg hgo).trans ((if_pos rfl).trans ?_)
  dsimp only
  rw [hfld]
  rfl

theorem effSelftestPartDone_failed (h : s.bit (coreSelftest core) 2 = true) : effSelftestPartDone core false s =
    (s.setBit (coreSelftest core) 2 false).cdieLost (s.coreSite core) 3 (s.coreSlot core) := by
  have hgo : ¬ ((!s.bit (coreSelftest core) 2) = true) := by
    rw [h]
    exact Bool.false_ne_true
  exact (if_neg hgo).trans (if_neg Bool.false_ne_true)

theorem State.partPassed_spec (s : State) (k : Nat) : let t := s.partPassed k
    OnlyAt k s t ∧ t.bit k 2 = false ∧ t.fld k 8 7 = (s.fld k 8 7 + 1) % 128 ∧
      (s.fld k 8 7 + 1 < 64 → t.bit k 1 = true ∧ t.bit k 0 = s.bit k 0 ∧ t.fld k 16 16 = s.fld k 16 16) ∧
      (64 ≤ s.fld k 8 7 + 1 → t.bit k 0 = false ∧ t.bit k 1 = s.bit k 1 ∧ t.fld k 16 16 = min 0xFFFF (s.fld k 16 16 + 1)) := by
  unfold State.partPassed State.bit
  have hsat : min (2 ^ 16 - 1) (s.fld k 16 16 + 1) % 2 ^ 16 = min 0xFFFF (s.fld k 16 16 + 1) := Nat.mod_eq_of_lt (by omega)
  split
  · rename_i hn
    simp (disch := omega) only [State.fld_setFld_same, State.fld_setFld_other]
    exact ⟨(((OnlyAt.refl k s).setFld ..).setFld ..).setFld .., by trivial, by trivial, fun _ => ⟨by trivial, trivial, trivial⟩, fun hl => absurd hn (Nat.not_lt.2 hl)⟩
  · rename_i hn
    simp (disch := omega) only [State.sat, State.fld_setFld_same, State.fld_setFld_other]
    exact ⟨((((OnlyAt.refl k s).setFld ..).setFld ..).setFld ..).setFld .., by trivial, by trivial, fun hl => absurd hl hn, fun _ => ⟨by trivial, trivial, hsat⟩⟩

end

/-- Settles O35: windows, maintenance and self-tests do what their lemmas say. -/
theorem calendars : Obligations.Calendars := by
  unfold Obligations.Calendars
  refine ⟨fun s core hc => ⟨fun hon hlen hw => ?_, fun hw hr => ?_⟩, fun s core hc => ⟨?_, fun h => ⟨exec_of rfl (decide_eq_true hc) (effSelftestPartDone_failed h), ?_⟩⟩⟩
  · intro k a w u hadm hrel
    exact exec_of rfl (decide_eq_true hc) (effCalendarWindowBoundary_quiet hon hlen hw rfl hadm hrel)
  · have hgo := exec_of (c := .maintBegin core) rfl (decide_eq_true hc) (effMaintBegin_of hw hr)
    refine ⟨fun h => hgo.trans (congrArg _ (State.beginTest_none h)), fun h ha => ?_⟩
    obtain ⟨a, n, hn, he, hrest⟩ := State.beginTest_begins (s := s.inMaint core) h ha
    exact ⟨a, n, hn, hgo.trans (congrArg _ he), hrest⟩
  · obtain ⟨⟨hrest, hreg⟩, hspec⟩ := s.testAsked_spec (coreSelftest core)
    exact ⟨_, exec_of rfl (decide_eq_true hc) (s.askTest_eq core), hrest, hreg, hspec⟩
  · obtain ⟨⟨hrest, hreg⟩, hspec⟩ := s.partPassed_spec (coreSelftest core)
    exact ⟨_, exec_of rfl (decide_eq_true hc) (effSelftestPartDone_passed h), hrest, hreg, hspec⟩

end Sys2Proof.Machine

/-!
PROOFS. What a coordinator does with the members of a collective (07_commit_and_rerun R222-R225).
-/

namespace Sys2Proof.Machine

section
variable {s u : State} {q : QRef} {c : Cmd} {r : Run}

theorem State.collStart_of {a : XAddr} {op : Nat} (hx : s.xlat (s.who q) .write (lCoord c.eff) = (u, .ok a)) (hc : s.ready q op = some c) :
    s.collStart q op = (u.beginWork q c).modRun c.run fun r => { r with coord := a.pa, inst := lInst c.eff } := by
  unfold State.collStart
  rw [hc]
  dsimp only
  rw [hx]

/-! ### Arrivals -/

section
variable (hh : s.collHead q = some (c, r))
include hh

/-- An arrival that the coordinator judges by its record. -/
theorem effCollectiveArrival_judged (ha : r.arrived = false) (hi : r.inst ≠ 0) (hl : s.isLost (homeOf r.coord) = false) :
    effCollectiveArrival q s =
      if recInst s r.coord ≠ r.inst ∨ recState s r.coord = 0 then
        if recState s r.coord = 1 ∨ recState s r.coord = 3 then s else (s.openRec r.coord r.inst (lMembers c.eff) 0).collJoin c r.coord r.inst
      else if recState s r.coord = 3 then (s.openRec r.coord r.inst (lMembers c.eff) (recRun s r.coord + 1)).collJoin c r.coord r.inst
      else if recState s r.coord = 1 then
        if recMembers s r.coord ≠ lMembers c.eff then
          (s.modRun c.run fun r => { r with arrived := true }).endMembers r.coord r.inst { code := 0x24 }
        else s.collJoin c r.coord r.inst
      else if recState s r.coord = 2 then s.fail q c { code := 0x02 }
      else if recState s r.coord = 4 then s.fail q c { code := 0x01 }
      else s.fail q c { code := 0x27 } := by
  have hgo : ¬ ((r.arrived || decide (r.inst = 0)) = true) := by
    rw [ha, decide_eq_false hi]
    exact Bool.false_ne_true
  unfold effCollectiveArrival
  rw [hh]
  exact (if_neg hgo).trans (if_neg (Bool.eq_false_iff.1 hl))

theorem effCollectiveArrival_other (ha : r.arrived = false) (hi : r.inst ≠ 0) (hl : s.isLost (homeOf r.coord) = false)
    (ho : recInst s r.coord ≠ r.inst ∨ recState s r.coord = 0) (h1 : recState s r.coord ≠ 1) (h3 : recState s r.coord ≠ 3) :
    effCollectiveArrival q s = (s.openRec r.coord r.inst (lMembers c.eff) 0).collJoin c r.coord r.inst := by
  rw [effCollectiveArrival_judged hh ha hi hl, if_pos ho, if_neg (by omega)]

theorem effCollectiveArrival_same (ha : r.arrived = false) (hi : r.inst ≠ 0) (hl : s.isLost (homeOf r.coord) = false) (hs : recInst s r.coord = r.inst) :
    let pa := r.coord
    let mem := lMembers c.eff
    (recState s pa = 1 → recMembers s pa ≠ mem →
      effCollectiveArrival q s = (s.modRun c.run fun r => { r with arrived := true }).endMembers pa r.inst { code := 0x24 }) ∧
    (recState s pa = 1 → recMembers s pa = mem → effCollectiveArrival q s = s.collJoin c pa r.inst) ∧
    (recState s pa = 3 → effCollectiveArrival q s = (s.openRec pa r.inst mem (recRun s pa + 1)).collJoin c pa r.inst) ∧
    (recState s pa = 2 → effCollectiveArrival q s = s.fail q c { code := 0x02 }) ∧
    (recState s pa = 4 → effCollectiveArrival q s = s.fail q c { code := 0x01 }) ∧
    (4 < recState s pa → effCollectiveArrival q s = s.fail q c { code := 0x27 }) := by
  intro pa mem
  rw [effCollectiveArrival_judged hh ha hi hl]
  generalize recState s r.coord = st
  have hown : st ≠ 0 → ¬ (recInst s r.coord ≠ r.inst ∨ st = 0) := fun h0 hn => hn.elim (fun hn => hn hs) h0
  refine ⟨fun h hm => ?_, fun h hm => ?_, fun h => ?_, fun h => ?_, fun h => ?_, fun h => ?_⟩ <;> rw [if_neg (hown (by omega))]
  · rw [if_neg (by omega), if_pos h, if_pos hm]
  · rw [if_neg (by omega), if_pos h, if_neg (not_not_intro hm)]
  · rw [if_pos h]
  · rw [if_neg (by omega), if_neg (by omega), if_pos h]
  · rw [if_neg (by omega), if_neg (by omega), if_neg (by omega), if_pos h]
  · rw [if_neg (by omega), if_neg (by omega), if_neg (by omega), if_neg (by omega)]

/-! ### The group commit point -/

theorem State.collAgain_none (hd : r.dstTodo = none) : s.collAgain q = s := by
  unfold State.collAgain
  rw [hh]
  dsimp only
  rw [hd]

theorem effCollectivePrepared_of (hp : r.phase = .workDone) (hd : r.dstTodo = none) (hn : r.prepared = false) (ha : r.arrived = true)
    (hi : recInst s r.coord = r.inst) (ho : recState s r.coord = 1) :
    let u := (s.modRun c.run fun r => { r with prepared := true }).putRec r.coord 6 2 (recPrepared s r.coord + 1)
    effCollectivePrepared q s = if recPrepared s r.coord + 1 < recMembers u r.coord then u
      else (u.membersOf r.coord r.inst).foldl (fun s m => (s.countMoved m.2.1 m.2.2).commitRun m.2.1 m.2.2) (u.putRec r.coord 8 1 2) := by
  intro u
  have hgo : ¬ ((r.phase != .workDone || r.prepared || !r.arrived || decide (recInst s r.coord ≠ r.inst) || decide (recState s r.coord ≠ 1)) = true) := by
    rw [hp, hn, ha, hi, ho]
    simp
  unfold effCollectivePrepared
  dsimp only
  rw [State.collAgain_none hh hd, hh]
  exact if_neg hgo

end

theorem effCollectiveKill_of {k : QRef × Nat × Nat × Nat} (hk : s.net.kills.find? (fun k => k.1 = q) = some k) :
    effCollectiveKill q s = ({ s with net := { s.net with kills := s.net.kills.erase k } } : State).coordKill k.2.1 k.2.2.1 k.2.2.2 := by
  unfold effCollectiveKill
  rw [hk]

end

/-- Settles O36: the coordinator's record decides what becomes of a member. -/
theorem collectives : Obligations.Collectives := by
  unfold Obligations.Collectives
  refine ⟨fun s u q c a hq hx e he hc => ?_, fun s q c r hq => ⟨fun hh => ⟨fun ha hi hl => ⟨fun ho h1 h3 => ?_, fun hs => ?_⟩, fun hp hd hn ha hi ho => ?_⟩,
    fun k hk => exec_of rfl hq (effCollectiveKill_of hk)⟩⟩
  · simp only [List.mem_cons, List.not_mem_nil, or_false] at he
    rcases he with rfl | rfl | rfl | rfl <;> exact exec_of rfl hq (State.collStart_of hx hc)
  · exact exec_of rfl hq (effCollectiveArrival_other hh ha hi hl ho h1 h3)
  · obtain ⟨hmis, hjoin, hkilled, hcom, hab, hexp⟩ := effCollectiveArrival_same hh ha hi hl hs
    exact ⟨fun h hm => exec_of rfl hq (hmis h hm), fun h hm => exec_of rfl hq (hjoin h hm), fun h => exec_of rfl hq (hkilled h),
      fun h => exec_of rfl hq (hcom h), fun h => exec_of rfl hq (hab h), fun h => exec_of rfl hq (hexp h)⟩
  · exact exec_of rfl hq (effCollectivePrepared_of hh hp hd hn ha hi ho)

end Sys2Proof.Machine

/-!
PROOFS. Directory probes and translation invalidations (09_coherence R259, 11_translation R305-R307).
-/

namespace Sys2Proof.Machine

/-! ### The probe register -/

theorem probeWord (line : Nat) (h : line < 2 ^ 37) : putFld (putFld 0#64 9 37 line) 63 1 1 = BitVec.ofNat 64 (line * 2 ^ 9 + 2 ^ 63) := by
  have hinner : (putFld 0#64 9 37 line).toNat = line * 2 ^ 9 := by
    have hput : nput (0#64).toNat 9 37 line = line * 2 ^ 9 := by
      have hm : line % 2 ^ 37 = line := Nat.mod_eq_of_lt h
      rw [nput, hm]
      simp [Nat.shiftLeft_eq]
    rw [putFld, hput, BitVec.toNat_ofNat, Nat.mod_eq_of_lt (by omega)]
  have hx : line * 2 ^ 9 < 2 ^ 63 := by omega
  have hhigh : (line * 2 ^ 9) >>> 64 = 0 := by
    rw [Nat.shiftRight_eq_div_pow]
    exact Nat.div_eq_of_lt (by omega)
  have hor : 2 ^ 63 ||| line * 2 ^ 9 = line * 2 ^ 9 + 2 ^ 63 := by
    rw [Nat.add_comm]
    exact (Nat.two_pow_add_eq_or_of_lt hx 1).symm
  rw [putFld, hinner, nput, hhigh, Nat.mod_eq_of_lt hx, ← hor]
  rfl

section
variable {s u : State}

/-- What a probe latches: the line, and both halves of its entry. -/
def State.latched (s : State) (site line : Nat) (lo hi : W64) : State :=
  ((s.setReg (arcDirProbe site) (BitVec.ofNat 64 (line * 2 ^ 9 + 2 ^ 63))).setReg (arcDirData site 0) lo).setReg (arcDirData site 1) hi

theorem State.latched_spec (s : State) (site line : Nat) (lo hi : W64) : { s.latched site line lo hi with regs := s.regs } = s ∧
    (s.latched site line lo hi).reg (arcDirProbe site) = BitVec.ofNat 64 (line * 2 ^ 9 + 2 ^ 63) ∧ (s.latched site line lo hi).reg (arcDirData site 0) = lo ∧
    (s.latched site line lo hi).reg (arcDirData site 1) = hi ∧
    ∀ k, k ≠ arcDirProbe site → k ≠ arcDirData site 0 → k ≠ arcDirData site 1 → (s.latched site line lo hi).reg k = s.reg k := by
  have hp0 : arcDirProbe site ≠ arcDirData site 0 := by
    unfold arcDirProbe arcDirData
    omega
  have hp1 : arcDirProbe site ≠ arcDirData site 1 := by
    unfold arcDirProbe arcDirData
    omega
  have h01 : arcDirData site 0 ≠ arcDirData site 1 := by
    unfold arcDirData
    omega
  unfold State.latched
  refine ⟨s.setReg_three_rest .., ?_, ?_, State.reg_setReg_same .., fun k hp h0 h1 => ?_⟩
  · rw [State.reg_setReg_ne _ _ hp1, State.reg_setReg_ne _ _ hp0, State.reg_setReg_same]
  · rw [State.reg_setReg_ne _ _ h01, State.reg_setReg_same]
  · rw [State.reg_setReg_ne _ _ h1, State.reg_setReg_ne _ _ h0, State.reg_setReg_ne _ _ hp]

theorem setsRegs_latched {c : Instr} {site line : Nat} {lo hi : W64} (he : exec c s = .next (s.latched site line lo hi)) :
    SetsRegs c s [(arcDirProbe site, BitVec.ofNat 64 (line * 2 ^ 9 + 2 ^ 63)), (arcDirData site 0, lo), (arcDirData site 1, hi)] := by
  obtain ⟨hrest, hp, h0, h1, hne⟩ := s.latched_spec site line lo hi
  refine ⟨_, he, hrest, fun e hm => ?_, fun k hk => ?_⟩
  · simp only [List.mem_cons, List.not_mem_nil, or_false] at hm
    rcases hm with rfl | rfl | rfl
    · exact hp
    · exact h0
    · exact h1
  · simp only [List.map_cons, List.map_nil, List.mem_cons, List.not_mem_nil, or_false, not_or] at hk
    obtain ⟨hkp, hk0, hk1⟩ := hk
    exact hne k hkp hk0 hk1

section
variable {site : Nat} {v : W64}

theorem State.dir?_setReg (s : State) (k : Nat) (v : W64) (line : Nat) : (s.setReg k v).dir? line = s.dir? line := rfl

theorem effDirProbe_none (h : homeOf (fldOf v 9 37 * 512) ≠ site ∨ s.dir? (fldOf v 9 37) = none) : effDirProbe site v s = s.latched site (fldOf v 9 37) 0 0 := by
  have hd : (if homeOf (fldOf v 9 37 * 512) = site then s.dir? (fldOf v 9 37) else none) = none := by
    rcases h with h | h
    · exact if_neg h
    · rw [h, ite_self]
  unfold effDirProbe State.latched
  dsimp only
  rw [probeWord _ (fldOf_lt v 9 37), State.dir?_setReg, hd]
  rfl

theorem effDirProbe_some {e : DirE} (hh : homeOf (fldOf v 9 37 * 512) = site) (hd : s.dir? (fldOf v 9 37) = some e) :
    effDirProbe site v s = s.latched site (fldOf v 9 37) (BitVec.ofNat 64 (dirBits e)) (BitVec.ofNat 64 (dirBits e / 2 ^ 64 + 2 ^ 32)) := by
  unfold effDirProbe State.latched
  dsimp only
  rw [probeWord _ (fldOf_lt v 9 37), State.dir?_setReg, if_pos hh, hd]

theorem fldOf_line (v : W64) : fldOf v 9 37 = v.toNat / 2 ^ 9 % 2 ^ 37 := nbits_eq ..

end

/-! ### Invalidations -/

section
variable {p : Nat}

theorem State.tlbi_full {r : InvReq} (h : 16 ≤ (s.part p).tlbis.length) : s.tlbi p r = s := if_pos h

theorem State.tlbi_taken {r : InvReq} (h : (s.part p).tlbis.length < 16) :
    let u := (s.invalidate r).1.bump (coreTlbiStatus p) 0 32 1
    s.tlbi p r = u.setPart p { u.part p with tlbis := (u.part p).tlbis ++ [(s.invalidate r).2] } := if_neg (Nat.not_le.2 h)

theorem effTlbiComplete_of {ids : List Nat} {rest : List (List Nat)} (ht : (s.part p).tlbis = ids :: rest) :
    ((∃ id ∈ ids, s.stillRuns id = true) → effTlbiComplete p s = s) ∧
    ((∀ id ∈ ids, s.stillRuns id = false) →
      effTlbiComplete p s = (s.setPart p { s.part p with tlbis := rest }).bump (coreTlbiStatus p) 32 32 1) := by
  unfold effTlbiComplete
  rw [ht]
  refine ⟨fun h => if_pos (List.any_eq_true.2 h), fun h => if_neg ?_⟩
  rw [List.any_eq_true]
  rintro ⟨id, hid, hr⟩
  exact Bool.false_ne_true ((h id hid).symm.trans hr)

theorem effCoreCtxBaseWrite_held {v : W64} (h : ∃ q ∈ s.partQueues p, s.qEnabled q = true) : effCoreCtxBaseWrite p v s = s := if_pos (List.any_eq_true.2 h)

theorem effCoreCtxBaseWrite_taken {v : W64} (h : ∀ q ∈ s.partQueues p, s.qEnabled q = false) :
    effCoreCtxBaseWrite p v s = s.setFld (coreCtxBase p) 16 39 (fldOf v 16 39) := by
  refine if_neg ?_
  rw [List.any_eq_true]
  rintro ⟨q, hq, he⟩
  exact Bool.false_ne_true ((h q hq).symm.trans he)

theorem setsRegs_setFld {c : Instr} {k lo w n : Nat} {x : W64} (he : exec c s = .next (s.setFld k lo w n)) (hx : putFld (s.reg k) lo w n = x) :
    SetsRegs c s [(k, x)] := by
  obtain ⟨hrest, hne⟩ := s.setFld_onlyAt k lo w n
  refine ⟨_, he, hrest, fun e hm => ?_, fun j hj => hne j fun hk => hj (List.mem_singleton.2 hk)⟩
  cases List.mem_singleton.1 hm
  exact (s.reg_setFld_same ..).trans hx

end
end

/-- Settles O40: the probe latches its registers, and an invalidation is taken, waits or is ignored. -/
theorem translations : Obligations.Translations := by
  unfold Obligations.Translations
  refine ⟨fun s site v hs => ?_, fun s p cid v hp hc => ⟨fun r hr => ?_, fun ids rest ht => ?_, fun h => ?_, fun h => ?_⟩⟩
  · rw [← fldOf_line]
    exact ⟨fun h => setsRegs_latched (exec_of rfl (decide_eq_true hs) (effDirProbe_none h)),
      fun e hh hd => setsRegs_latched (exec_of rfl (decide_eq_true hs) (effDirProbe_some hh hd))⟩
  · have hok : (decide (p < Config.partitions) && decide (cid < 2 ^ 16)) = true := by
      rw [decide_eq_true hc, Bool.and_true]
      exact decide_eq_true hp
    simp only [List.mem_cons, List.not_mem_nil, or_false] at hr
    rcases hr with rfl | rfl | rfl
    · exact ⟨fun h => exec_of rfl hok (State.tlbi_full h), fun h => exec_of rfl hok (State.tlbi_taken h)⟩
    · exact ⟨fun h => exec_of rfl hok (State.tlbi_full h), fun h => exec_of rfl hok (State.tlbi_taken h)⟩
    · exact ⟨fun h => exec_of rfl (decide_eq_true hp) (State.tlbi_full h), fun h => exec_of rfl (decide_eq_true hp) (State.tlbi_taken h)⟩
  · obtain ⟨hwait, hdone⟩ := effTlbiComplete_of ht
    exact ⟨fun h => exec_of rfl (decide_eq_true hp) (hwait h), fun h => exec_of rfl (decide_eq_true hp) (hdone h)⟩
  · exact exec_of rfl (decide_eq_true hp) (effCoreCtxBaseWrite_held h)
  · exact setsRegs_setFld (exec_of rfl (decide_eq_true hp) (effCoreCtxBaseWrite_taken h)) (putFld_fldOf ..)

end Sys2Proof.Machine

/-!
PROOFS. MSG flits of lane groups and ring ports (12_site_mesh R313-R324, 13_ring_links R339, R340).
-/

namespace Sys2Proof.Machine

/-! ### Ends of links -/

theorem State.link_setLink (s : State) (k j : Nat) (x : LinkX) : (s.setLink k x).link j = if j = k then x else s.link j := by
  unfold State.setLink State.link
  dsimp only
  split
  · rename_i hk
    rw [hk, tget_tset_same]
  · rename_i hk
    exact tget_tset_ne _ _ _ hk

theorem LinkSet.again {s t : State} {k : Nat} {y : LinkX} (h : LinkSet s t k y) (z : LinkX) : LinkSet s (t.setLink k z) k z := by
  obtain ⟨hrest, -, hothers⟩ := h
  refine ⟨hrest, ?_, fun j hj => ?_⟩
  · rw [State.link_setLink, if_pos rfl]
  · rw [State.link_setLink, if_neg hj]
    exact hothers j hj

theorem LinkSet.setLink (s : State) (k : Nat) (z : LinkX) : LinkSet s (s.setLink k z) k z :=
  LinkSet.again (y := s.link k) ⟨rfl, rfl, fun _ _ => rfl⟩ z

theorem setsLink_of {c : Instr} {s : State} {k : Nat} {z : LinkX} (he : exec c s = .next (s.setLink k z)) : SetsLink c s k z := ⟨_, he, .setLink s k z⟩

/-! ### The receiver's progress (R320) -/

section
variable {x : LinkX} {f : Flit} {seq m : Nat}

/-- The link after a flit in sequence. -/
def LinkX.advanced (x : LinkX) (m : Nat) : LinkX := { x with rxSeq := (x.rxSeq + 1) % m, nakSent := false, badFlit := none, fails := 0 }

theorem LinkX.take_next (h : seq = x.rxSeq) : x.take f seq m true = (x.advanced m, true, x.nakSent) := (if_neg Bool.false_ne_true).trans (if_pos h)

theorem LinkX.take_gap (h : seq ≠ x.rxSeq) (hn : x.nakSent = false) :
    x.take f seq m true = ({ x with nakSent := true, badFlit := none, fails := 0 }, false, false) := by
  refine (if_neg Bool.false_ne_true).trans ((if_neg h).trans (if_pos ?_))
  rw [hn]
  rfl

theorem LinkX.take_gap_again (h : seq ≠ x.rxSeq) (hn : x.nakSent = true) : x.take f seq m true = (x, false, false) := by
  refine (if_neg Bool.false_ne_true).trans ((if_neg h).trans (if_neg ?_))
  rw [hn]
  exact Bool.false_ne_true

theorem LinkX.take_bad (hn : x.nakSent = false) : x.take f seq m false = ({ x with nakSent := true, badFlit := some f, fails := 0 }, false, false) := by
  refine (if_pos rfl).trans (if_pos ?_)
  rw [hn]
  rfl

theorem LinkX.take_bad_again (h : seq = x.rxSeq) (hn : x.nakSent = true) : x.take f seq m false = ({ x with fails := x.fails + 1 }, false, false) := by
  refine (if_pos rfl).trans ((if_neg ?_).trans (if_pos h))
  rw [hn]
  exact Bool.false_ne_true

theorem LinkX.take_bad_other (h : seq ≠ x.rxSeq) (hn : x.nakSent = true) : x.take f seq m false = (x, false, false) := by
  refine (if_pos rfl).trans ((if_neg ?_).trans (if_neg h))
  rw [hn]
  exact Bool.false_ne_true

end

theorem flitGood_iff (f : Flit) : flitGood f = true ↔ fldOf f 2016 32 = crc32c (toBytes 252 f.toNat) := decide_eq_true_iff

theorem flitGood_not {f : Flit} (h : ¬ fldOf f 2016 32 = crc32c (toBytes 252 f.toNat)) : flitGood f = false := decide_eq_false h

set_option exponentiation.threshold 2048 in
theorem flitPayload_toNat (f : Flit) : (flitPayload f).toNat = fldOf f 96 1920 := by
  unfold flitPayload
  rw [BitVec.toNat_ofNat]
  exact Nat.mod_eq_of_lt (fldOf_lt f 96 1920)

/-! ### MSG flits of a lane group -/

section
variable {s : State} {l : LinkRef} {f : Flit}

section
variable (hup : s.bit (lnkB l.site l.d) 9 = true) (hin : s.bit (lnkGrp l) 14 = false)
include hup hin

theorem State.groupLive_of : s.groupLive l = true := by
  have hup' : s.edgeUp l.site l.d = true := hup
  unfold State.groupLive
  rw [hup', hin]
  rfl

omit hup hin in
theorem effMeshFlit_ignored (h : (s.link (linkKey l)).suspect = true ∨ flitGood f = true ∧ s.carriesVc l (fldOf f 12 3) = false) : effMeshFlit l f s = s := by
  refine if_pos ?_
  rcases h with h | ⟨hg, hc⟩
  · rw [h]
    simp
  · have hc' : s.carriesVc l (fF f 0 12 3) = false := hc
    rw [hg, hc']
    simp

section
variable (hty : fldOf f 10 2 = 0) (hs : (s.link (linkKey l)).suspect = false) (hc : flitGood f = true → s.carriesVc l (fldOf f 12 3) = true)
include hty hs hc

theorem meshFlit_heeded : ¬ ((!s.groupLive l || (s.link (linkKey l)).suspect || decide (fF f 0 10 2 ≠ 0) ||
    (flitGood f && !s.carriesVc l (fF f 0 12 3))) = true) := by
  have hty' : fF f 0 10 2 = 0 := hty
  rw [State.groupLive_of hup hin, hs, hty']
  cases hg : flitGood f with
  | false => simp
  | true =>
    have hc' : s.carriesVc l (fF f 0 12 3) = true := hc hg
    rw [hc']
    simp

/-- A flit that is not accepted: the receiver's state is that of R320, and enough failures make the group suspect. -/
theorem effMeshFlit_kept {z : LinkX} (ht : (s.link (linkKey l)).take f (fldOf f 0 10) 1024 (flitGood f) = (z, false, false)) :
    let y := if flitGood f then z.heed f else { z with ackDue := true }
    effMeshFlit l f s = if 8 ≤ y.fails then (s.setLink (linkKey l) y).suspect l else s.setLink (linkKey l) y := by
  have ht' : (s.link (linkKey l)).take f (fF f 0 0 10) 1024 (flitGood f) = (z, false, false) := ht
  refine (if_neg (meshFlit_heeded hup hin hty hs hc)).trans ?_
  dsimp only
  rw [ht', if_neg Bool.false_ne_true, if_neg Bool.false_ne_true]

theorem effMeshFlit_accepted {z : LinkX} {nak : Bool} (hg : flitGood f = true)
    (ht : (s.link (linkKey l)).take f (fldOf f 0 10) 1024 true = (z, true, nak)) :
    let u := (s.setLink (linkKey l) (z.heed f)).acceptMesh l f
    (nak = false → z.fails < 8 → effMeshFlit l f s = u) ∧
    (nak = true → ((s.link (linkKey l)).badFlit = none → effMeshFlit l f s = u.sat (lnkGrp l) 16 16 1) ∧
      ∀ b, (s.link (linkKey l)).badFlit = some b →
        effMeshFlit l f s = (u.sat (lnkGrp l) 16 16 1).chargeMesh l (laneCounts ((flitDiff b f).map meshLane))) := by
  intro u
  have ht' : (s.link (linkKey l)).take f (fF f 0 0 10) 1024 (flitGood f) = (z, true, nak) := (congrArg _ hg).trans ht
  refine ⟨fun hn hf => ?_, fun hn => ⟨fun hb => ?_, fun b hb => ?_⟩⟩ <;> refine (if_neg (meshFlit_heeded hup hin hty hs hc)).trans ?_ <;> dsimp only <;>
    rw [ht', hg, if_pos rfl, if_pos rfl]
  · rw [hn, if_neg Bool.false_ne_true]
    exact if_neg (Nat.not_le.2 hf)
  · rw [hn, if_pos rfl, hb]
  · rw [hn, if_pos rfl, hb]

end
end

/-- The messages of a payload, taken out of a link's stream. -/
def LinkX.unpacked (x : LinkX) (vc first : Nat) (payload part : Bytes) (len : Bytes → Nat) (owed : List Bytes → List (Nat × Nat × Nat)) : LinkX :=
  let bs := streamOf part first payload
  let r := unpackStream len (bs.length / 16 + 1) bs
  { x with parts := tset [] x.parts vc r.2, rx := x.rx ++ r.1.map fun m => (vc, m), owed := x.owed ++ owed r.1, ackDue := true }

theorem State.partOf_setLink {y : LinkX} (hp : y.parts = (s.link (linkKey l)).parts) (hs : y.suspect = (s.link (linkKey l)).suspect) (vc first : Nat) :
    (s.setLink (linkKey l) y).partOf l vc first = s.partOf l vc first := by
  have hparts : ∀ j, ((s.setLink (linkKey l) y).link j).parts = (s.link j).parts := fun j => by
    rw [State.link_setLink]
    split
    · rename_i hj
      rw [hj, hp]
    · rfl
  have hsus : ∀ j, ((s.setLink (linkKey l) y).link j).suspect = (s.link j).suspect := fun j => by
    rw [State.link_setLink]
    split
    · rename_i hj
      rw [hj, hs]
    · rfl
  have hbit : ∀ k b, (s.setLink (linkKey l) y).bit k b = s.bit k b := fun _ _ => rfl
  unfold State.partOf
  simp only [hparts, hsus, hbit]

theorem State.acceptMesh_setLink {y : LinkX} (hp : y.parts = (s.link (linkKey l)).parts) (hs : y.suspect = (s.link (linkKey l)).suspect) :
    LinkSet s ((s.setLink (linkKey l) y).acceptMesh l f) (linkKey l) (y.unpacked (fldOf f 12 3) (fldOf f 64 8) (toBytes 240 (fldOf f 96 1920))
      (s.partOf l (fldOf f 12 3) (fldOf f 64 8)) (meshLen (s.role l.site l.d l.g) (fldOf f 12 3)) fun _ => [(fldOf f 12 3, 15, 0)]) := by
  have hlink : (s.setLink (linkKey l) y).link (linkKey l) = y := by rw [State.link_setLink, if_pos rfl]
  have hrole : (s.setLink (linkKey l) y).role l.site l.d l.g = s.role l.site l.d l.g := rfl
  have hz := (LinkSet.setLink s (linkKey l) y).again (y.unpacked (fldOf f 12 3) (fldOf f 64 8) (toBytes 240 (fldOf f 96 1920))
      (s.partOf l (fldOf f 12 3) (fldOf f 64 8)) (meshLen (s.role l.site l.d l.g) (fldOf f 12 3)) fun _ => [(fldOf f 12 3, 15, 0)])
  have hacc : (s.setLink (linkKey l) y).acceptMesh l f = (s.setLink (linkKey l) y).setLink (linkKey l)
      (y.unpacked (fldOf f 12 3) (fldOf f 64 8) (toBytes 240 (fldOf f 96 1920))
      (s.partOf l (fldOf f 12 3) (fldOf f 64 8)) (meshLen (s.role l.site l.d l.g) (fldOf f 12 3)) fun _ => [(fldOf f 12 3, 15, 0)]) := by
    unfold State.acceptMesh LinkX.accept LinkX.unpacked
    dsimp only
    rw [hlink, hrole, State.partOf_setLink hp hs, flitPayload_toNat, List.flatMap_eq_nil_iff.2 fun _ _ => rfl, List.append_nil]
    rfl
  rw [hacc]
  exact hz

section
variable (hup : s.bit (lnkB l.site l.d) 9 = true) (hin : s.bit (lnkGrp l) 14 = false) (hty : fldOf f 10 2 = 0)
  (hs : (s.link (linkKey l)).suspect = false) (hok : l.ok = true)
include hup hin hty hs hok

theorem meshFlit_good (hg : flitGood f = true) (hc : s.carriesVc l (fldOf f 12 3) = true) :
    let k := linkKey l
    let x := s.link k
    let seq := fldOf f 0 10
    let taken := ((x.advanced 1024).heed f).unpacked (fldOf f 12 3) (fldOf f 64 8) (toBytes 240 (fldOf f 96 1920))
      (s.partOf l (fldOf f 12 3) (fldOf f 64 8)) (meshLen (s.role l.site l.d l.g) (fldOf f 12 3)) fun _ => [(fldOf f 12 3, 15, 0)]
    (seq = x.rxSeq → x.nakSent = false → SetsLink (.meshFlit l f) s k taken) ∧
    (seq = x.rxSeq → x.nakSent = true → ∃ u, LinkSet s u k taken ∧
      (x.badFlit = none → exec (.meshFlit l f) s = .next (u.sat (lnkGrp l) 16 16 1)) ∧
      ∀ b, x.badFlit = some b → exec (.meshFlit l f) s = .next ((u.sat (lnkGrp l) 16 16 1).chargeMesh l (laneCounts ((flitDiff b f).map meshLane)))) ∧
    (seq ≠ x.rxSeq → x.nakSent = false →
      SetsLink (.meshFlit l f) s k (({ x with nakSent := true, badFlit := none, fails := 0 } : LinkX).heed f)) ∧
    (seq ≠ x.rxSeq → x.nakSent = true → x.fails < 8 → SetsLink (.meshFlit l f) s k (x.heed f)) := by
  intro k x seq taken
  have hset : LinkSet s ((s.setLink k ((x.advanced 1024).heed f)).acceptMesh l f) k taken := State.acceptMesh_setLink rfl rfl
  refine ⟨fun hseq hn => ?_, fun hseq hn => ?_, fun hseq hn => ?_, fun hseq hn hf => ?_⟩
  · exact ⟨_, exec_of rfl hok ((effMeshFlit_accepted hup hin hty hs (fun _ => hc) hg (LinkX.take_next hseq)).1 hn (Nat.succ_pos 7)), hset⟩
  · obtain ⟨hnone, hsome⟩ := (effMeshFlit_accepted hup hin hty hs (fun _ => hc) hg (LinkX.take_next hseq)).2 hn
    exact ⟨_, hset, fun hb => exec_of rfl hok (hnone hb), fun b hb => exec_of rfl hok (hsome b hb)⟩
  · have hk := effMeshFlit_kept hup hin hty hs (fun _ => hc) ((congrArg _ hg).trans (LinkX.take_gap (f := f) hseq hn))
    rw [hg, if_pos rfl] at hk
    exact setsLink_of (exec_of rfl hok (hk.trans (if_neg (Nat.not_le.2 (Nat.succ_pos 7)))))
  · have hk := effMeshFlit_kept hup hin hty hs (fun _ => hc) ((congrArg _ hg).trans (LinkX.take_gap_again (f := f) hseq hn))
    rw [hg, if_pos rfl] at hk
    exact setsLink_of (exec_of rfl hok (hk.trans (if_neg (Nat.not_le.2 hf))))

theorem meshFlit_bad (hg : flitGood f = false) :
    let k := linkKey l
    let x := s.link k
    let seq := fldOf f 0 10
    (x.nakSent = false → SetsLink (.meshFlit l f) s k { x with nakSent := true, badFlit := some f, fails := 0, ackDue := true }) ∧
    (x.nakSent = true → seq = x.rxSeq → ∃ u, LinkSet s u k { x with fails := x.fails + 1, ackDue := true } ∧
      exec (.meshFlit l f) s = .next (if 8 ≤ x.fails + 1 then u.suspect l else u)) ∧
    (x.nakSent = true → seq ≠ x.rxSeq → x.fails < 8 → SetsLink (.meshFlit l f) s k { x with ackDue := true }) := by
  intro k x seq
  have hno : flitGood f = true → s.carriesVc l (fldOf f 12 3) = true := fun h => absurd (hg.symm.trans h) Bool.false_ne_true
  have kept : ∀ z, x.take f seq 1024 false = (z, false, false) → effMeshFlit l f s =
      if 8 ≤ z.fails then (s.setLink k { z with ackDue := true }).suspect l else s.setLink k { z with ackDue := true } := fun z hz => by
    have hk := effMeshFlit_kept hup hin hty hs hno ((congrArg _ hg).trans hz)
    rwa [hg, if_neg Bool.false_ne_true] at hk
  refine ⟨fun hn => ?_, fun hn hseq => ?_, fun hn hseq hf => ?_⟩
  · exact setsLink_of (exec_of rfl hok ((kept _ (LinkX.take_bad hn)).trans (if_neg (Nat.not_le.2 (Nat.succ_pos 7)))))
  · exact ⟨_, LinkSet.setLink .., exec_of rfl hok (kept _ (LinkX.take_bad_again hseq hn))⟩
  · exact setsLink_of (exec_of rfl hok ((kept _ (LinkX.take_bad_other hseq hn)).trans (if_neg (Nat.not_le.2 hf))))

end
end

/-! ### MSG flits of a ring port -/

section
variable {s : State} {port : Nat} {f : Flit}

theorem State.acceptRing_setLink {y : LinkX} (hp : y.parts = (s.link (ringKey port)).parts) :
    LinkSet s ((s.setLink (ringKey port) y).acceptRing port f) (ringKey port) (y.unpacked 0 (fldOf f 40 8) (toBytes 240 (fldOf f 96 1920))
      (tget [] (s.link (ringKey port)).parts 0) (packetLen (decide (s.fld (rngPort port) 0 2 = 1)))
      fun ms => ms.flatMap (packetOwes (decide (s.fld (rngPort port) 0 2 = 1)))) := by
  have hlink : (s.setLink (ringKey port) y).link (ringKey port) = y := by rw [State.link_setLink, if_pos rfl]
  have hfld : (s.setLink (ringKey port) y).fld (rngPort port) 0 2 = s.fld (rngPort port) 0 2 := rfl
  have hacc : (s.setLink (ringKey port) y).acceptRing port f = (s.setLink (ringKey port) y).setLink (ringKey port)
      (y.unpacked 0 (fldOf f 40 8) (toBytes 240 (fldOf f 96 1920))
      (tget [] (s.link (ringKey port)).parts 0) (packetLen (decide (s.fld (rngPort port) 0 2 = 1)))
      fun ms => ms.flatMap (packetOwes (decide (s.fld (rngPort port) 0 2 = 1)))) := by
    unfold State.acceptRing LinkX.accept LinkX.unpacked
    dsimp only
    rw [hlink, hfld, hp, flitPayload_toNat]
    rfl
  rw [hacc]
  exact (LinkSet.setLink s (ringKey port) y).again _

section
variable (hport : port < 48) (hup : s.portUp port = true) (hty : fldOf f 32 2 = 0)
include hup hty

theorem ringFlit_heeded : ¬ ((!s.portUp port || decide (fF f 4 0 2 ≠ 0)) = true) := by
  have hty' : fF f 4 0 2 = 0 := hty
  rw [hup, hty']
  simp

theorem effRingMsgFlit_kept {z : LinkX} (ht : (s.link (ringKey port)).take f (fldOf f 0 16) 65536 (flitGood f) = (z, false, false)) :
    let y := if flitGood f then z.heedRing f else { z with ackDue := true }
    effRingMsgFlit port f s = if 16 ≤ y.fails then (s.setLink (ringKey port) y).portDown port 2 else s.setLink (ringKey port) y := by
  have ht' : (s.link (ringKey port)).take f (fF f 0 0 16) 65536 (flitGood f) = (z, false, false) := ht
  refine (if_neg (ringFlit_heeded hup hty)).trans ?_
  dsimp only
  rw [ht', if_neg Bool.false_ne_true, if_neg Bool.false_ne_true]

theorem effRingMsgFlit_accepted {z : LinkX} {nak : Bool} (hg : flitGood f = true)
    (ht : (s.link (ringKey port)).take f (fldOf f 0 16) 65536 true = (z, true, nak)) :
    let u := (s.setLink (ringKey port) (z.heedRing f)).acceptRing port f
    (nak = false → z.fails < 16 → effRingMsgFlit port f s = u) ∧
    (nak = true → ((s.link (ringKey port)).badFlit = none → effRingMsgFlit port f s = u.sat (rngPort port) 16 16 1) ∧
      ∀ b, (s.link (ringKey port)).badFlit = some b →
        effRingMsgFlit port f s = (u.sat (rngPort port) 16 16 1).chargeRing port (laneCounts ((flitDiff b f).map ringLane))) := by
  intro u
  have ht' : (s.link (ringKey port)).take f (fF f 0 0 16) 65536 (flitGood f) = (z, true, nak) := (congrArg _ hg).trans ht
  refine ⟨fun hn hf => ?_, fun hn => ⟨fun hb => ?_, fun b hb => ?_⟩⟩ <;> refine (if_neg (ringFlit_heeded hup hty)).trans ?_ <;> dsimp only <;>
    rw [ht', hg, if_pos rfl, if_pos rfl]
  · rw [hn, if_neg Bool.false_ne_true]
    exact if_neg (Nat.not_le.2 hf)
  · rw [hn, if_pos rfl, hb]
  · rw [hn, if_pos rfl, hb]

include hport

theorem ringFlit_good (hg : flitGood f = true) :
    let k := ringKey port
    let x := s.link k
    let seq := fldOf f 0 16
    let host := decide (s.fld (rngPort port) 0 2 = 1)
    let taken := ((x.advanced 65536).heedRing f).unpacked 0 (fldOf f 40 8) (toBytes 240 (fldOf f 96 1920)) (tget [] x.parts 0) (packetLen host)
      fun ms => ms.flatMap (packetOwes host)
    (seq = x.rxSeq → x.nakSent = false → SetsLink (.ringMsgFlit port f) s k taken) ∧
    (seq = x.rxSeq → x.nakSent = true → ∃ u, LinkSet s u k taken ∧
      (x.badFlit = none → exec (.ringMsgFlit port f) s = .next (u.sat (rngPort port) 16 16 1)) ∧
      ∀ b, x.badFlit = some b →
        exec (.ringMsgFlit port f) s = .next ((u.sat (rngPort port) 16 16 1).chargeRing port (laneCounts ((flitDiff b f).map ringLane)))) ∧
    (seq ≠ x.rxSeq → x.nakSent = false →
      SetsLink (.ringMsgFlit port f) s k (({ x with nakSent := true, badFlit := none, fails := 0 } : LinkX).heedRing f)) ∧
    (seq ≠ x.rxSeq → x.nakSent = true → x.fails < 16 → SetsLink (.ringMsgFlit port f) s k (x.heedRing f)) := by
  intro k x seq host taken
  have hok : decide (port < Config.ports) = true := decide_eq_true hport
  have hset : LinkSet s ((s.setLink k ((x.advanced 65536).heedRing f)).acceptRing port f) k taken := State.acceptRing_setLink rfl
  refine ⟨fun hseq hn => ?_, fun hseq hn => ?_, fun hseq hn => ?_, fun hseq hn hf => ?_⟩
  · exact ⟨_, exec_of rfl hok ((effRingMsgFlit_accepted hup hty hg (LinkX.take_next hseq)).1 hn (Nat.succ_pos 15)), hset⟩
  · obtain ⟨hnone, hsome⟩ := (effRingMsgFlit_accepted hup hty hg (LinkX.take_next hseq)).2 hn
    exact ⟨_, hset, fun hb => exec_of rfl hok (hnone hb), fun b hb => exec_of rfl hok (hsome b hb)⟩
  · have hk := effRingMsgFlit_kept hup hty ((congrArg _ hg).trans (LinkX.take_gap (f := f) hseq hn))
    rw [hg, if_pos rfl] at hk
    exact setsLink_of (exec_of rfl hok (hk.trans (if_neg (Nat.not_le.2 (Nat.succ_pos 15)))))
  · have hk := effRingMsgFlit_kept hup hty ((congrArg _ hg).trans (LinkX.take_gap_again (f := f) hseq hn))
    rw [hg, if_pos rfl] at hk
    exact setsLink_of (exec_of rfl hok (hk.trans (if_neg (Nat.not_le.2 hf))))

theorem ringFlit_bad (hg : flitGood f = false) :
    let k := ringKey port
    let x := s.link k
    let seq := fldOf f 0 16
    (x.nakSent = false → SetsLink (.ringMsgFlit port f) s k { x with nakSent := true, badFlit := some f, fails := 0, ackDue := true }) ∧
    (x.nakSent = true → seq = x.rxSeq → ∃ u, LinkSet s u k { x with fails := x.fails + 1, ackDue := true } ∧
      exec (.ringMsgFlit port f) s = .next (if 16 ≤ x.fails + 1 then u.portDown port 2 else u)) ∧
    (x.nakSent = true → seq ≠ x.rxSeq → x.fails < 16 → SetsLink (.ringMsgFlit port f) s k { x with ackDue := true }) := by
  intro k x seq
  have hok : decide (port < Config.ports) = true := decide_eq_true hport
  have kept : ∀ z, x.take f seq 65536 false = (z, false, false) → effRingMsgFlit port f s =
      if 16 ≤ z.fails then (s.setLink k { z with ackDue := true }).portDown port 2 else s.setLink k { z with ackDue := true } := fun z hz => by
    have hk := effRingMsgFlit_kept hup hty ((congrArg _ hg).trans hz)
    rwa [hg, if_neg Bool.false_ne_true] at hk
  refine ⟨fun hn => ?_, fun hn hseq => ?_, fun hn hseq hf => ?_⟩
  · exact setsLink_of (exec_of rfl hok ((kept _ (LinkX.take_bad hn)).trans (if_neg (Nat.not_le.2 (Nat.succ_pos 15)))))
  · exact ⟨_, LinkSet.setLink .., exec_of rfl hok (kept _ (LinkX.take_bad_again hseq hn))⟩
  · exact setsLink_of (exec_of rfl hok ((kept _ (LinkX.take_bad_other hseq hn)).trans (if_neg (Nat.not_le.2 hf))))

end
end

end Sys2Proof.Machine

/-!
PROOFS. IDLE, TEST and LINK flits, LANEMAP and the group test (12_site_mesh R321-R324, 13_ring_links R338-R342), and errors
that replay cannot mend (R325).
-/

namespace Sys2Proof.Machine

/-! ### IDLE flits, lanes and group tests -/

theorem LinkX.sendIdle_eq (x : LinkX) (key : Nat) :
    { x.sendPrbs key 1 with idlesSent := (x.sendPrbs key 1).idlesSent + 1 } =
    (let p := prbsPayload 64 (fun j => j % 64) (x.prbsRegs key 64)
    ({ x with
      txPrbs := p.2, out := some (meshBits x 1 x.txSeq 0 0xFF p.1), owed := x.owed.drop 1, ackDue := false
      idlesSent := x.idlesSent + 1 } : LinkX)) := by
  have hlane : meshLane = fun j => j % 64 := rfl
  unfold LinkX.sendPrbs LinkX.sends
  rw [hlane]

section
variable {s : State} {l : LinkRef} {f : Flit} (hok : l.ok = true) (hup : s.bit (lnkB l.site l.d) 9 = true) (hin : s.bit (lnkGrp l) 14 = false)
include hok hup hin

theorem idleFlit_counts (hty : fldOf f 10 2 = 1) :
    let x := s.link (linkKey l)
    let y := if flitGood f = true then x.heed f else x
    let r := ({ y with calibrations := y.calibrations + 1 } : LinkX).prbsCheck f 64 meshLane
    exec (.idleFlit l f) s = .next ((s.setLink (linkKey l) r.1).chargeMesh l r.2) := by
  have hty' : fF f 0 10 2 = 1 := hty
  refine exec_of rfl hok ((if_neg ?_).trans ((if_neg ?_).trans (if_neg ?_)))
  · rw [State.groupLive_of hup hin]
    exact Bool.false_ne_true
  · rw [hty']
    simp
  · exact not_not_intro hty'

theorem idleFlit_tests (hty : fldOf f 10 2 = 3) (hs : (s.link (linkKey l)).suspect = true) :
    let r := (s.link (linkKey l)).prbsCheck f 64 meshLane
    exec (.idleFlit l f) s = .next (s.setLink (linkKey l) { r.1 with testBad := (r.1.testBad ++ r.2.map (·.1)).eraseDups }) := by
  have hty' : fF f 0 10 2 = 3 := hty
  refine exec_of rfl hok ((if_neg ?_).trans (if_pos ?_))
  · rw [State.groupLive_of hup hin]
    exact Bool.false_ne_true
  · rw [hty', hs]
    rfl

theorem idleInsert_sends : let x := s.link (linkKey l)
    let p := prbsPayload 64 (fun j => j % 64) (x.prbsRegs (linkKey l) 64)
    exec (.idleInsert l) s = .next (s.setLink (linkKey l)
      { x with
        txPrbs := p.2, out := some (meshBits x 1 x.txSeq 0 0xFF p.1), owed := x.owed.drop 1, ackDue := false
        idlesSent := x.idlesSent + 1 }) :=
  exec_of rfl hok ((if_pos (State.groupLive_of hup hin)).trans (congrArg (s.setLink (linkKey l)) (LinkX.sendIdle_eq _ _)))

theorem lanemap_spares {lane : Nat} (hl : lane < 64) (hfree : s.fld (lnkGrp l) 0 2 < 2) : exec (.lanemap l lane) s = .next (s.spareLane l lane) := by
  refine exec_of rfl (Bool.and_eq_true_iff.2 ⟨hok, decide_eq_true hl⟩) (if_pos ?_)
  rw [State.groupLive_of hup hin, decide_eq_true hfree]
  rfl

section
variable (hs : (s.link (linkKey l)).suspect = true)
include hs

omit hok in
theorem groupTest_heeded : ¬ ((!(s.link (linkKey l)).suspect || !s.groupLive l) = true) := by
  rw [State.groupLive_of hup hin, hs]
  exact Bool.false_ne_true

theorem groupTestDone_out {failing : List Nat} (h : ∀ lane, failing = [lane] → 64 ≤ lane ∨ 2 ≤ s.fld (lnkGrp l) 0 2) :
    exec (.groupTestDone l failing) s = .next (s.groupOut l) := by
  refine exec_of rfl hok ((if_neg (groupTest_heeded hup hin hs)).trans ?_)
  split
  · rename_i lane
    refine if_neg fun hc => ?_
    obtain ⟨hl, hu⟩ := Bool.and_eq_true_iff.1 hc
    have hl := of_decide_eq_true hl
    have hu := of_decide_eq_true hu
    have := h lane rfl
    omega
  · rfl

theorem groupTestDone_spares {lane : Nat} (hl : lane < 64) (hfree : s.fld (lnkGrp l) 0 2 < 2) :
    let u := s.spareLane l lane
    exec (.groupTestDone l [lane]) s =
      .next (u.setLink (linkKey l) { u.link (linkKey l) with suspect := false, nakSent := false, badFlit := none, fails := 0 }) := by
  refine exec_of rfl hok ((if_neg (groupTest_heeded hup hin hs)).trans (if_pos ?_))
  rw [decide_eq_true hl, decide_eq_true hfree]
  rfl

end
end

/-! ### IDLE, TEST and LINK flits of a ring port -/

section
variable {s : State} {port : Nat} {f : Flit} (hport : port < 48) (hup : s.portUp port = true)
include hport hup

theorem ringIdleFlit_counts (hty : fldOf f 32 2 = 1) :
    let x := s.link (ringKey port)
    let y := if flitGood f = true then x.heedRing f else x
    let r := ({ y with calibrations := y.calibrations + 1 } : LinkX).prbsCheck f 8 ringLane
    exec (.ringIdleFlit port f) s = .next ((s.setLink (ringKey port) r.1).chargeRing port r.2) := by
  have hty' : fF f 4 0 2 = 1 := hty
  refine exec_of rfl (decide_eq_true (show port < Config.ports from hport)) ((if_neg ?_).trans (if_neg ?_)) <;>
    rw [hup, hty'] <;> simp

theorem ringIdleFlit_tests (hty : fldOf f 32 2 = 3) :
    exec (.ringIdleFlit port f) s = .next (s.setLink (ringKey port) ((s.link (ringKey port)).prbsCheck f 8 ringLane).1) := by
  have hty' : fF f 4 0 2 = 3 := hty
  refine exec_of rfl (decide_eq_true (show port < Config.ports from hport)) (if_pos ?_)
  rw [hup, hty']
  rfl

/-- The credits of the classes that a LINK flit advertises. -/
def LinkX.advertise (x : LinkX) (f : Flit) (cs : List Nat) : LinkX :=
  cs.foldl (fun x c => { x with credits := tset 0 x.credits c (fldOf f (128 + 32 * c) 12), dataCredits := tset 0 x.dataCredits c (fldOf f (140 + 32 * c) 20) }) x

omit hport hup in
theorem LinkX.advertise_concat (x : LinkX) (cs : List Nat) (c : Nat) : x.advertise f (cs ++ [c]) =
    { x.advertise f cs with
      credits := tset 0 (x.advertise f cs).credits c (fldOf f (128 + 32 * c) 12)
      dataCredits := tset 0 (x.advertise f cs).dataCredits c (fldOf f (140 + 32 * c) 20) } := by
  unfold LinkX.advertise
  rw [List.foldl_append, List.foldl_cons, List.foldl_nil]

omit hport hup in
theorem LinkX.advertise_spec (x : LinkX) (n : Nat) :
    { x.advertise f (List.range n) with credits := x.credits, dataCredits := x.dataCredits } = x ∧
    ∀ c, c < n → tget 0 (x.advertise f (List.range n)).credits c = fldOf f (128 + 32 * c) 12 ∧
      tget 0 (x.advertise f (List.range n)).dataCredits c = fldOf f (140 + 32 * c) 20 := by
  induction n with
  | zero => exact ⟨rfl, fun c hc => absurd hc (Nat.not_lt_zero c)⟩
  | succ n ih =>
    obtain ⟨hrest, hval⟩ := ih
    rw [List.range_succ, LinkX.advertise_concat]
    refine ⟨hrest, fun c hc => ?_⟩
    dsimp only
    by_cases hcn : c = n
    · rw [hcn, tget_tset_same, tget_tset_same]
      exact ⟨rfl, rfl⟩
    · rw [tget_tset_ne _ _ _ hcn, tget_tset_ne _ _ _ hcn]
      exact hval c (by omega)

theorem ringLinkFlit_sets (hty : fldOf f 32 2 = 2) (hg : flitGood f = true) :
    exec (.ringLinkFlit port f) s = .next (s.setLink (ringKey port)
      (({ (s.link (ringKey port)).heedRing f with peer := fldOf f 96 8 + fldOf f 112 16 * 256 } : LinkX).advertise f (List.range 8))) := by
  have hty' : fF f 4 0 2 = 2 := hty
  have hadv : ∀ c, fF f (16 + 4 * c) 0 12 = fldOf f (128 + 32 * c) 12 ∧ fF f (16 + 4 * c) 12 20 = fldOf f (140 + 32 * c) 20 := fun c => by
    unfold fF
    constructor <;> congr 1 <;> omega
  refine exec_of rfl (decide_eq_true (show port < Config.ports from hport)) ((if_neg ?_).trans ?_)
  · rw [hup, hty', hg]
    simp
  · simp only [(hadv _).1, (hadv _).2]
    rfl

theorem ringLinkFlit_spec (hty : fldOf f 32 2 = 2) (hg : flitGood f = true) :
    let x := s.link (ringKey port)
    ∃ y, SetsLink (.ringLinkFlit port f) s (ringKey port) y ∧
      y.peer = fldOf f 96 8 + fldOf f 112 16 * 256 ∧
      { y with peer := x.peer, credits := x.credits, dataCredits := x.dataCredits } = x.heedAck (fldOf f 16 16) (f.getLsbD 34) ∧
      ∀ c, c < 8 → tget 0 y.credits c = fldOf f (128 + 32 * c) 12 ∧ tget 0 y.dataCredits c = fldOf f (140 + 32 * c) 20 := by
  intro x
  obtain ⟨hrest, hval⟩ := LinkX.advertise_spec (f := f) { x.heedRing f with peer := fldOf f 96 8 + fldOf f 112 16 * 256 } 8
  refine ⟨_, setsLink_of (ringLinkFlit_sets hport hup hty hg), congrArg LinkX.peer hrest, ?_, hval⟩
  exact congrArg (fun z : LinkX => { z with peer := x.peer, credits := x.credits, dataCredits := x.dataCredits }) hrest

end

/-! ### Errors past replay (R325) -/

theorem State.run?_sat (s : State) (k lo w n run : Nat) : (s.sat k lo w n).run? run = s.run? run := rfl
theorem State.cmdOfRun_sat (s : State) (k lo w n run : Nat) : (s.sat k lo w n).cmdOfRun run = s.cmdOfRun run := rfl
theorem State.net_sat (s : State) (k lo w n : Nat) : (s.sat k lo w n).net = s.net := rfl

theorem any_of_msg {ms : List (MsgTy × CMsg)} {ty : MsgTy} {p : MsgTy × CMsg → Bool} {P : CMsg → Prop} (h : ∃ m, (ty, m) ∈ ms ∧ P m)
    (hp : ∀ m, P m → p (ty, m) = true) : ms.any p = true := by
  obtain ⟨m, hm, hP⟩ := h
  exact List.any_eq_true.2 ⟨_, hm, hp m hP⟩

section
variable {s : State} {l : LinkRef} (hok : l.ok = true)
include hok

theorem pastReplay_run {run : Nat} {r : Run} {q : QRef} {c : Cmd} (hr : s.run? run = some r) (hc : s.cmdOfRun run = some (q, c)) (hcls : r.cls ≠ 1)
    (hph : r.phase = .running ∨ r.phase = .workDone) : exec (.pastReplayError l (.runPayload run)) s =
      .next (((((s.sat (lnkB l.site l.d + 0x10) 32 16 1).pastReport l 1).killRun run).requeue q c).refreshQ q) := by
  have hph' : (r.phase == .running || r.phase == .workDone) = true := by
    rcases hph with h | h <;> rw [h] <;> rfl
  refine exec_of rfl hok ?_
  unfold effPastReplayError
  dsimp only
  rw [State.run?_sat, State.cmdOfRun_sat, hr, hc]
  refine if_pos ?_
  rw [hph', decide_eq_true hcls]
  rfl

theorem pastReplay_commit {run line sectors : Nat} (h : ∃ m, (MsgTy.cmt, m) ∈ s.net.msgs ∧ m.run = run ∧ m.line = line) :
    exec (.pastReplayError l (.commitPayload run line sectors)) s =
      .next (((s.sat (lnkB l.site l.d + 0x10) 32 16 1).pastReport l 2).poisonFlight run (poisonWrite run line sectors)) := by
  refine exec_of rfl hok (if_pos ?_)
  rw [State.net_sat]
  exact any_of_msg h fun m ⟨hrun, hline⟩ => by simp [hrun, hline]

theorem pastReplay_log {run addr : Nat} (h : ∃ m, (MsgTy.log, m) ∈ s.net.msgs ∧ m.run = run ∧ m.op.addr = addr) :
    exec (.pastReplayError l (.logPayload run addr)) s =
      .next (((s.sat (lnkB l.site l.d + 0x10) 32 16 1).pastReport l 2).poisonFlight run (poisonMsg run addr true)) := by
  refine exec_of rfl hok (if_pos ?_)
  rw [State.net_sat]
  exact any_of_msg h fun m ⟨hrun, haddr⟩ => by simp [hrun, haddr]

theorem pastReplay_other (line sectors : Nat) : exec (.pastReplayError l (.otherPayload line sectors)) s =
    .next (((List.range 4).filter fun k => nbit sectors k).foldl (fun s k =>
      if line * 512 < 0x0900_0000_0000 then s.poisonSector (line * 4 + k) else s.poisonOut (line * 4 + k))
        ((s.sat (lnkB l.site l.d + 0x10) 32 16 1).pastReport l 2)) := by
  refine exec_of rfl hok ?_
  by_cases h : line * 512 < 0x0900_0000_0000
  · refine (if_pos (decide_eq_true h)).trans ?_
    simp only [if_pos h]
    rfl
  · refine (if_neg (fun hc => h (of_decide_eq_true hc))).trans ?_
    simp only [if_neg h]
    rfl

theorem pastReplay_reduce (addr mask : Nat) : exec (.pastReplayError l (.reduceMopn addr mask)) s =
    .next (if addr < 0x0900_0000_0000 ∧ mask % 2 ^ 32 ≠ 0
      then ((s.sat (lnkB l.site l.d + 0x10) 32 16 1).pastReport l 2).poisonSector (addr / 128) else (s.sat (lnkB l.site l.d + 0x10) 32 16 1).pastReport l 2) := by
  refine exec_of rfl hok ?_
  by_cases h : addr < 0x0900_0000_0000 ∧ mask % 2 ^ 32 ≠ 0
  · rw [if_pos h]
    exact if_pos (Bool.and_eq_true_iff.2 ⟨decide_eq_true h.1, decide_eq_true h.2⟩)
  · rw [if_neg h]
    refine if_neg fun hc => h ?_
    obtain ⟨ha, hm⟩ := Bool.and_eq_true_iff.1 hc
    exact ⟨of_decide_eq_true ha, of_decide_eq_true hm⟩

end

/-- Settles O42. The receiver's progress (`LinkX.take`) is read case by case from the CRC, the FSEQ and the NAK in force;
what the row then does is said once for a kept and once for an accepted flit. -/
theorem meshFlits : Obligations.MeshFlits := by
  unfold Obligations.MeshFlits
  refine ⟨fun s f => ?_, ⟨fun s l f hok hup hin => ?_, fun s port f hport hup => ?_⟩, fun s l hok => ?_⟩
  · dsimp only
    refine ⟨fun l hok hup hin hty => ⟨fun h => ?_, fun hs hg hc => ?_, fun hs hg => meshFlit_bad hup hin hty hs hok (flitGood_not hg)⟩,
      fun port hport hup hty => ⟨fun hg => ?_, fun hg => ringFlit_bad hport hup hty (flitGood_not hg)⟩⟩
    · refine exec_of rfl hok (effMeshFlit_ignored ?_)
      exact h.imp id fun ⟨hg, hc⟩ => ⟨(flitGood_iff f).2 hg, hc⟩
    · obtain ⟨hnew, hagain, hgap, hgap'⟩ := meshFlit_good hup hin hty hs hok ((flitGood_iff f).2 hg) hc
      refine ⟨hnew, fun hseq hn => ?_, hgap, hgap'⟩
      obtain ⟨u, hu, hnone, hsome⟩ := hagain hseq hn
      refine ⟨u, hu, ?_⟩
      cases hb : (s.link (linkKey l)).badFlit with
      | none => exact hnone hb
      | some b => exact hsome b hb
    · obtain ⟨hnew, hagain, hgap, hgap'⟩ := ringFlit_good hport hup hty ((flitGood_iff f).2 hg)
      refine ⟨hnew, fun hseq hn => ?_, hgap, hgap'⟩
      obtain ⟨u, hu, hnone, hsome⟩ := hagain hseq hn
      refine ⟨u, hu, ?_⟩
      cases hb : (s.link (ringKey port)).badFlit with
      | none => exact hnone hb
      | some b => exact hsome b hb
  · exact ⟨fun hty => ⟨_, .setLink .., idleFlit_counts hok hup hin hty⟩, fun hty hs => setsLink_of (idleFlit_tests hok hup hin hty hs),
      setsLink_of (idleInsert_sends hok hup hin), fun _ hl hfree => lanemap_spares hok hup hin hl hfree,
      fun hs => ⟨fun _ h => groupTestDone_out hok hup hin hs h, fun _ hl hfree => groupTestDone_spares hok hup hin hs hl hfree⟩⟩
  · exact ⟨fun hty => ⟨_, .setLink .., ringIdleFlit_counts hport hup hty⟩, fun hty => setsLink_of (ringIdleFlit_tests hport hup hty),
      ringLinkFlit_spec hport hup⟩
  · exact ⟨exec_of rfl hok rfl, exec_of rfl hok rfl, fun _ _ _ _ => pastReplay_run hok, fun _ _ _ => pastReplay_commit hok,
      fun _ _ => pastReplay_log hok, pastReplay_other hok, pastReplay_reduce hok⟩

end Sys2Proof.Machine

/-!
PROOFS. What stays while memory is written, records and reports leave, and commands end: the Librarian's state and, in an engine whose
launch goes on, the threads.
-/

namespace Sys2Proof.Machine

/-- The Librarian's state and the threads of all thread engines. -/
def State.calm (s : State) : Boot × (Nat → Threads) := (s.boot, s.threads)

theorem State.calm_of {s t : State} (hb : t.boot = s.boot) (ht : t.threads = s.threads) : t.calm = s.calm := Prod.ext hb ht

theorem State.calm_congr {s t : State} (hb : t.boot = s.boot) (ht : t.tes = s.tes) : t.calm = s.calm :=
  State.calm_of hb (State.threads_congr ht)

/-! ### Operations on the state -/

section
variable (s : State)

@[simp] theorem State.setReg_calm (k : Nat) (v : W64) : (s.setReg k v).calm = s.calm := rfl
@[simp] theorem State.setFld_calm (k lo w v : Nat) : (s.setFld k lo w v).calm = s.calm := rfl
@[simp] theorem State.setBit_calm (k lo : Nat) (b : Bool) : (s.setBit k lo b).calm = s.calm := rfl
@[simp] theorem State.sat_calm (k lo w n : Nat) : (s.sat k lo w n).calm = s.calm := rfl
@[simp] theorem State.bump_calm (k lo w n : Nat) : (s.bump k lo w n).calm = s.calm := rfl
@[simp] theorem State.modQ_calm (q : QRef) (f : QueX → QueX) : (s.modQ q f).calm = s.calm := rfl
@[simp] theorem State.setEng_calm (c e : Nat) (x : EngX) : (s.setEng c e x).calm = s.calm := rfl
@[simp] theorem State.setCoreX_calm (c : Nat) (x : CoreX) : (s.setCoreX c x).calm = s.calm := rfl
@[simp] theorem State.setRun_calm (id : Nat) (r : Option Run) : (s.setRun id r).calm = s.calm := rfl
@[simp] theorem State.setSvcX_calm (p k : Nat) (x : SvcX) : (s.setSvcX p k x).calm = s.calm := rfl
@[simp] theorem State.withArc_calm (f : Archive → Archive) : (s.withArc f).calm = s.calm := rfl
@[simp] theorem State.send_calm (t : MsgTy) (m : CMsg) : (s.send t m).calm = s.calm := rfl
@[simp] theorem State.freeBit_calm : s.freeBit.1.calm = s.calm := rfl
@[simp] theorem State.freeNum_calm : s.freeNum.1.calm = s.calm := rfl
@[simp] theorem State.wakeWatches_calm (pa n : Nat) : (s.wakeWatches pa n).calm = s.calm := rfl
@[simp] theorem State.wrLs_calm (ix off : Nat) (bs : Bytes) : (s.wrLs ix off bs).calm = s.calm := rfl
@[simp] theorem State.modCmd_calm (q : QRef) (c : Cmd) (f : Cmd → Cmd) : (s.modCmd q c f).calm = s.calm := rfl
@[simp] theorem State.dropCmd_calm (q : QRef) (c : Cmd) : (s.dropCmd q c).calm = s.calm := rfl
@[simp] theorem State.setQState_calm (q : QRef) (st : Nat) : (s.setQState q st).calm = s.calm := State.setFld_calm ..
@[simp] theorem State.leaveGang_calm (c e : Nat) : (s.leaveGang c e).calm = s.calm := rfl

@[simp] theorem State.modRun_calm (id : Nat) (f : Run → Run) : (s.modRun id f).calm = s.calm := by
  unfold State.modRun
  split <;> rfl

@[simp] theorem State.coarse_calm (k lo w unit n : Nat) (hold : Bool) : (s.coarse k lo w unit n hold).calm = s.calm := by
  unfold State.coarse
  dsimp only
  split <;> rfl

@[simp] theorem State.noteOld_calm (p : Nat → Bool) (old : List (Nat × W8)) : (s.noteOld p old).calm = s.calm :=
  State.calm_of rfl (State.noteOld_threads ..)

@[simp] theorem State.noteOut_calm (site line : Nat) : (s.noteOut site line).calm = s.calm := by
  unfold State.noteOut
  split
  · split
    · exact State.noteOld_calm ..
    · rfl
  · rfl

/-! ### Reports and requests to other sites -/

theorem State.calm_with_svc (x : Clerks) : ({ s with svc := x } : State).calm = s.calm := rfl
theorem State.calm_with_errs (e : List (Nat × Report × Nat)) : ({ s with errs := e } : State).calm = s.calm := rfl
theorem State.calm_with_reports (e : List (Nat × Report × Nat)) (n : Net) : ({ s with errs := e, net := n } : State).calm = s.calm := rfl

@[simp] theorem State.sendReport_calm (r : Report) : (s.sendReport r).calm = s.calm :=
  (State.calm_with_reports ..).trans (State.sat_calm ..)

@[simp] theorem State.report_calm (r : Report) : (s.report r).calm = s.calm := by
  unfold State.report
  generalize ({ r with time := s.siteCycle r.reporter } : Report) = q
  dsimp only
  split
  · exact (State.calm_with_errs ..).trans (State.sat_calm ..)
  · split
    · exact State.sendReport_calm ..
    · split
      · exact State.sat_calm ..
      · rfl

theorem State.nOut_boot (die : Nat) (p : NPkt) : (s.nOut die p).boot = s.boot := by
  unfold State.nOut
  split <;> rfl

theorem State.flowPush_boot (die fl : Nat) (f : Flow) (pkt : NF) (d : Bytes) (use : FabUse) :
    (s.flowPush die fl f pkt d use).boot = s.boot := State.nOut_boot ..

@[simp] theorem State.fabRequest_calm (site dev : Nat) (pkt : NF) (d : Bytes) (use : FabUse) :
    (s.fabRequest site dev pkt d use).1.calm = s.calm := by
  refine State.calm_congr ?_ (State.fabRequest_tes ..)
  unfold State.fabRequest State.flowGive
  split
  · dsimp only
    split
    · rfl
    · split
      · split
        all_goals
          split
          · exact State.flowPush_boot ..
          · rfl
      · exact State.nOut_boot ..
  · rfl

@[simp] theorem State.hostReqM_calm (masked : Bool) (h ty off len : Nat) (d : Bytes) (use : HostUse) :
    (s.hostReqM masked h ty off len d use).calm = s.calm := by
  unfold State.hostReqM
  split <;> rfl

@[simp] theorem State.hostReq_calm (h ty off len : Nat) (d : Bytes) (use : HostUse) : (s.hostReq h ty off len d use).calm = s.calm :=
  State.hostReqM_calm ..

@[simp] theorem State.request_calm (t : MsgTy) (site line part cid sectors : Nat) (wmask : BitVec 512) (hint : Nat) :
    (s.request t site line part cid sectors wmask hint).calm = s.calm := by
  unfold State.request
  split <;> rfl

/-! ### Lines of a slice -/

@[simp] theorem State.wbSector_calm (site pa : Nat) (q : Option QRef) : (s.wbSector site pa q).1.calm = s.calm := by
  unfold State.wbSector
  split
  · rfl
  · dsimp only
    split
    · rfl
    · split
      · exact State.fabRequest_calm ..
      · split
        · rfl
        · exact State.hostReqM_calm ..

@[simp] theorem State.dropLine_calm (site line : Nat) : (s.dropLine site line).calm = s.calm := by
  unfold State.dropLine
  dsimp only
  split <;> exact State.noteOut_calm ..

@[simp] theorem State.evictLine_calm (l : ALine) : (s.evictLine l).calm = s.calm := by
  unfold State.evictLine
  split
  · rw [State.dropLine_calm]
    refine foldl_leaves (f := State.calm) (fun t k => ?_) s _
    dsimp only
    split
    · exact State.wbSector_calm ..
    · exact (State.report_calm ..).trans (State.wbSector_calm ..)
  · dsimp only
    split <;> exact State.dropLine_calm ..

@[simp] theorem State.freeWay_calm (site line : Nat) : (s.freeWay site line).calm = s.calm := by
  unfold State.freeWay
  dsimp only
  split
  · rfl
  · split
    · exact State.evictLine_calm ..
    · rfl

@[simp] theorem State.allocLine_calm (l : ALine) (hint : Nat) : (s.allocLine l hint).calm = s.calm := by
  unfold State.allocLine
  split
  · rfl
  · extract_lets cls u v
    have hu : u.calm = s.calm := by
      unfold u
      split
      · exact State.sat_calm ..
      · rfl
    have hv : v.calm = u.calm := by
      unfold v
      split
      · exact State.evictLine_calm ..
      · exact State.freeWay_calm ..
    exact hv.trans hu

@[simp] theorem State.touchLine_calm (l : ALine) (hint : Nat) : (s.touchLine l hint).calm = s.calm := by
  unfold State.touchLine
  split
  · split
    · rfl
    · exact State.allocLine_calm ..
  · split
    · rfl
    · extract_lets up cls u
      refine (State.withArc_calm ..).trans ?_
      unfold u
      split
      · exact State.sat_calm ..
      · rfl

@[simp] theorem State.readTouch_calm (site line part cid : Nat) (need : BitVec 512) (hint : Nat) :
    (s.readTouch site line part cid need hint).calm = s.calm := by
  unfold State.readTouch
  split
  · dsimp only
    split
    · exact State.touchLine_calm ..
    · exact (State.request_calm ..).trans (State.touchLine_calm ..)
  · exact State.request_calm ..

@[simp] theorem State.writeTouch_calm (site line part cid : Nat) (m : BitVec 512) (hint : Nat) :
    (s.writeTouch site line part cid m hint).calm = s.calm := by
  unfold State.writeTouch
  split
  · dsimp only
    split
    · exact State.touchLine_calm ..
    · exact State.touchLine_calm ..
    · exact (State.request_calm ..).trans (State.touchLine_calm ..)
    · exact (State.request_calm ..).trans (State.touchLine_calm ..)
    · exact (State.request_calm ..).trans (State.touchLine_calm ..)
  · exact State.request_calm ..

/-! ### Translations -/

theorem State.tableTouch_calm (w : Who) (reads : List WalkE) : (s.tableTouch w reads).calm = s.calm :=
  foldl_leaves (f := State.calm) (fun _ _ => State.readTouch_calm ..) s _

theorem State.fetchTag_calm (site pa : Nat) : (s.fetchTag site pa).calm = s.calm := by
  unfold State.fetchTag
  split <;> rfl

theorem State.cacheXlat_calm (w : Who) (va : Nat) (o : XAddr) : (s.cacheXlat w va o).calm = s.calm := by
  unfold State.cacheXlat
  extract_lets c page e tlb t u
  exact (State.modRun_calm ..).trans (State.fetchTag_calm ..)

theorem State.recordXlat_calm (w : Who) (k : Acc) (va : Nat) (x : XErr) : (s.recordXlat w k va x).calm = s.calm := by
  unfold State.recordXlat
  extract_lets key
  split
  · rfl
  · split
    · exact State.sat_calm ..
    · rename_i v t u _ _
      have hu : u.calm = s.calm := (State.setReg_calm t _ _).trans (State.setReg_calm s _ _)
      clear_value v u
      split <;> exact (State.setReg_calm ..).trans hu

@[simp] theorem State.xlat_calm (w : Who) (k : Acc) (va : Nat) : (s.xlat w k va).1.calm = s.calm := by
  unfold State.xlat
  split
  · refine (State.cacheXlat_calm ..).trans ?_
    split
    · rfl
    · exact State.tableTouch_calm ..
  · dsimp only
    split
    · exact (State.recordXlat_calm ..).trans (State.tableTouch_calm ..)
    · exact State.tableTouch_calm ..

/-! ### Writes -/

@[simp] theorem State.writeOut_calm (site part pa : Nat) (bs : Bytes) (hint : Nat) : (s.writeOut site part pa bs hint).calm = s.calm := by
  refine (foldl_leaves (f := State.calm) (fun t l => ?_) (s.noteOld _ _) (linesOf pa bs.length)).trans (State.noteOld_calm ..)
  dsimp only
  split
  · exact State.touchLine_calm ..
  · exact State.allocLine_calm ..

@[simp] theorem State.mergeBytes_calm (pa : Nat) (bs : Bytes) : (s.mergeBytes pa bs).calm = s.calm :=
  (State.wakeWatches_calm ..).trans ((State.withArc_calm ..).trans (State.noteOld_calm ..))

@[simp] theorem State.writePa_calm (w : Who) (pa : Nat) (bs : Bytes) (hint : Nat) : (s.writePa w pa bs hint).1.calm = s.calm := by
  unfold State.writePa
  extract_lets h
  split
  · exact State.writeOut_calm ..
  · split
    · split <;> rfl
    · split
      · rfl
      · split
        · rfl
        · exact (foldl_leaves (f := State.calm) (fun _ _ => State.writeTouch_calm ..) _ _).trans (State.mergeBytes_calm ..)

theorem State.sendPreWb_calm (w : Who) (line : Nat) : (s.sendPreWb w line).calm = s.calm := by
  unfold State.sendPreWb
  split
  · split
    · rfl
    · exact (State.modRun_calm ..).trans (State.coarse_calm ..)
  · rfl

theorem State.tentWay_calm (site line : Nat) : (s.tentWay site line).calm = s.calm := by
  unfold State.tentWay
  dsimp only
  split
  · split
    · exact State.evictLine_calm ..
    · rfl
  · exact State.freeWay_calm ..

theorem State.tentLine_calm (w : Who) (line : Nat) : (s.tentLine w line).1.calm = s.calm := by
  unfold State.tentLine
  split
  · rfl
  · split
    · rfl
    · split
      · rfl
      · dsimp only
        split
        · rfl
        · split
          · exact State.sendPreWb_calm ..
          · exact (State.modRun_calm ..).trans (State.tentWay_calm ..)

theorem State.tentRoom_calm (w : Who) (ls : List Nat) : (s.tentRoom w ls).1.calm = s.calm := by
  refine foldl_leaves (f := fun x : State × MRes Unit => x.1.calm) (fun x l => ?_) (s, .ok ()) ls
  split
  · rfl
  · exact State.tentLine_calm ..
  · exact State.tentLine_calm ..

@[simp] theorem State.writeTent_calm (w : Who) (pa : Nat) (bs : Bytes) (hint : Nat) : (s.writeTent w pa bs hint).1.calm = s.calm := by
  unfold State.writeTent
  split
  · rfl
  · dsimp only
    split
    · exact (State.modRun_calm ..).trans ((State.noteOld_calm ..).trans (State.tentRoom_calm ..))
    · exact State.tentRoom_calm ..

/-! ### Notifications and completion records -/

@[simp] theorem State.setRecX_calm (t : CrTarget) (r : RecX) : (s.setRecX t r).calm = s.calm := by
  cases t <;> rfl

theorem State.sendNotify_calm (t : CrTarget) : (s.sendNotify t).calm = s.calm := by
  unfold State.sendNotify
  dsimp only
  split
  · split
    · exact State.hostReq_calm ..
    · exact (State.setRecX_calm ..).trans (State.hostReq_calm ..)
  · rfl

@[simp] theorem State.notify_calm (t : CrTarget) : (s.notify t).calm = s.calm := by
  unfold State.notify
  split
  · split
    · exact State.setRecX_calm ..
    · exact State.sendNotify_calm ..
  · rfl

@[simp] theorem State.notifyAfter_calm (t : CrTarget) : (s.notifyAfter t).calm = s.calm := by
  unfold State.notifyAfter
  dsimp only
  split
  · exact State.setRecX_calm ..
  · exact State.notify_calm ..

theorem State.showHeld_calm (t : CrTarget) : (s.showHeld t).calm = s.calm := by
  unfold State.showHeld
  split
  · exact foldl_leaves (f := State.calm) (fun u _ => State.setReg_calm u _ _) s _
  · rfl

theorem State.block_calm (t : CrTarget) (recs : List (BitVec 256 × Bool)) (addr : Nat) : (s.block t recs addr).calm = s.calm := by
  unfold State.block
  extract_lets r u v
  have hv : v.calm = u.calm := by
    unfold v
    split
    · rfl
    · exact (State.setFld_calm ..).trans (State.setFld_calm ..)
  exact (State.notify_calm ..).trans ((State.showHeld_calm ..).trans (hv.trans (State.setRecX_calm ..)))

theorem State.recordDone_calm (t : CrTarget) (note : Bool) : (s.recordDone t note).calm = s.calm := by
  unfold State.recordDone
  dsimp only
  split
  · exact (State.notify_calm ..).trans (State.bump_calm ..)
  · exact State.bump_calm ..

@[simp] theorem State.emitRecord_calm (t : CrTarget) (b : BitVec 256) (note : Bool) : (s.emitRecord t b note).calm = s.calm := by
  unfold State.emitRecord
  dsimp only
  split
  · exact State.setRecX_calm ..
  · split
    · exact (State.block_calm ..).trans (State.xlat_calm ..)
    · split
      · split
        · exact (State.block_calm ..).trans (State.xlat_calm ..)
        · exact (State.hostReq_calm ..).trans ((State.setRecX_calm ..).trans (State.xlat_calm ..))
      · split
        · exact (State.recordDone_calm ..).trans ((State.writePa_calm ..).trans (State.xlat_calm ..))
        · exact (State.block_calm ..).trans ((State.writePa_calm ..).trans (State.xlat_calm ..))

/-! ### Queues and engines -/

@[simp] theorem State.ledgerEnd_calm (q : QRef) (c : Cmd) : (s.ledgerEnd q c).calm = s.calm := by
  unfold State.ledgerEnd
  split
  · rfl
  · extract_lets x p u m v e f lo w
    have hv : v.calm = s.calm := (State.sat_calm ..).trans ((State.freeNum_calm ..).trans (State.setFld_calm ..))
    have hw : w.calm = v.calm := by
      unfold w
      split
      · rfl
      · exact (State.setFld_calm ..).trans (State.freeBit_calm ..)
    exact (State.modCmd_calm ..).trans (hw.trans hv)

@[simp] theorem State.headUpdate_calm (q : QRef) : (s.headUpdate q).calm = s.calm := by
  unfold State.headUpdate
  split
  · rfl
  · split <;> rfl

@[simp] theorem State.refreshQ_calm (q : QRef) : (s.refreshQ q).calm = s.calm := by
  unfold State.refreshQ
  dsimp only
  split
  · exact State.headUpdate_calm ..
  · split
    · exact (State.setQState_calm ..).trans (State.headUpdate_calm ..)
    · split
      · split <;> exact (State.setQState_calm ..).trans (State.headUpdate_calm ..)
      · exact (State.setQState_calm ..).trans (State.headUpdate_calm ..)

@[simp] theorem State.clearBusy_calm (c e : Nat) : (s.clearBusy c e).calm = s.calm := by
  unfold State.clearBusy
  dsimp only
  split
  · split <;> simp only [State.setFld_calm]
  · exact State.setFld_calm ..

@[simp] theorem State.endRun_calm (id : Nat) : (s.endRun id).calm = s.calm := by
  unfold State.endRun State.releaseRes
  split
  · rfl
  · exact (State.setRun_calm ..).trans (State.setFld_calm ..)

@[simp] theorem State.freeEngine_calm (r : Run) (id : Nat) : (s.freeEngine r id).calm = s.calm := by
  unfold State.freeEngine
  split
  · refine (State.clearBusy_calm ..).trans ((State.setEng_calm ..).trans ?_)
    split
    · exact State.leaveGang_calm ..
    · rfl
  · rfl

@[simp] theorem State.sendKill_calm (r : Run) : (s.sendKill r).calm = s.calm := by
  unfold State.sendKill
  dsimp only
  split <;> rfl

@[simp] theorem State.requeue_calm (q : QRef) (c : Cmd) : (s.requeue q c).calm = s.calm := by
  unfold State.requeue
  split
  · rfl
  · refine (State.modCmd_calm ..).trans ?_
    split
    · exact State.ledgerEnd_calm ..
    · rfl

@[simp] theorem State.lowerLive_calm (q : QRef) : (s.lowerLive q).calm = s.calm := by
  unfold State.lowerLive
  split
  · refine (State.modQ_calm ..).trans ?_
    split
    · dsimp only
      split
      · exact (State.writePa_calm ..).trans (State.xlat_calm ..)
      · exact State.xlat_calm ..
    · rfl
  · rfl

@[simp] theorem State.sendEvents_calm (q : QRef) (c : Cmd) : (s.sendEvents q c).calm = s.calm := by
  unfold State.sendEvents
  dsimp only
  split
  · split <;> rfl
  · split <;> rfl

end

/-! ### The end of commands -/

/-- From `s` to `t` the Librarian's state stays and, in every engine whose launch has not ended, the threads. -/
structure Steady (s t : State) : Prop where
  boot : t.boot = s.boot
  threads : ∀ c, (t.te c).launch = none ∨ t.threads c = s.threads c

theorem Steady.of_calm {s t : State} (h : t.calm = s.calm) : Steady s t :=
  ⟨congrArg Prod.fst h, fun c => .inr (congrFun (congrArg Prod.snd h) c)⟩

theorem Steady.refl (s : State) : Steady s s := .of_calm rfl

theorem Steady.trans {s t u : State} (h : Steady s t) (h' : Steady t u) : Steady s u := by
  refine ⟨h'.boot.trans h.boot, fun c => ?_⟩
  rcases h'.threads c with hl | hu
  · exact .inl hl
  · rcases h.threads c with hl | ht
    · exact .inl ((congrArg (fun x : Threads => x.1) hu).trans hl)
    · exact .inr (hu.trans ht)

theorem Steady.calm {s t u : State} (h : Steady s t) (h' : u.calm = t.calm) : Steady s u := h.trans (.of_calm h')

theorem steady_foldl {α : Type} {F : State → α → State} (h : ∀ t a, Steady t (F t a)) (s : State) (l : List α) : Steady s (l.foldl F s) :=
  List.foldlRecOn (motive := Steady s) l F (.refl s) fun _ ht a _ => ht.trans (h _ a)

section
variable (s : State)

theorem State.endThreads_steady (c : Nat) : Steady s (s.setTe c { s.te c with launch := none, blocks := [], groups := [] }) := by
  refine ⟨rfl, fun j => ?_⟩
  by_cases h : j = c
  · refine .inl ?_
    rw [h]
    exact congrArg TeX.launch (te_setTe_same ..)
  · exact .inr (congrArg TeX.threads (te_setTe_ne _ _ h))

theorem State.stopEngine_steady (core eng : Nat) : Steady s (s.stopEngine core eng) := by
  have hc : ((s.setEng core eng { s.eng core eng with run := 0, stopping := true }).clearBusy core eng).calm = s.calm :=
    (State.clearBusy_calm ..).trans (State.setEng_calm ..)
  unfold State.stopEngine
  dsimp only
  split
  · exact .of_calm ((State.leaveGang_calm ..).trans hc)
  · split
    · exact ((Steady.of_calm hc).trans (State.endThreads_steady ..)).calm ((State.setFld_calm ..).trans (State.setFld_calm ..))
    · exact .of_calm hc

theorem State.discardRun_steady (id : Nat) : Steady s (s.discardRun id) := by
  unfold State.discardRun
  split
  · exact .refl s
  · split
    · exact .of_calm ((State.endRun_calm ..).trans (State.freeEngine_calm ..))
    · extract_lets u v w
      have hu : Steady s u := .of_calm (State.withArc_calm ..)
      have hv : Steady s v := by
        unfold v
        split
        · exact hu.trans (State.stopEngine_steady ..)
        · exact hu
      clear_value v
      split
      · exact hv.calm (State.setRun_calm ..)
      · refine hv.calm ((State.setRun_calm ..).trans ?_)
        unfold w
        split
        · rfl
        · exact State.sat_calm ..

theorem State.dropRun_steady (id : Nat) : Steady s (s.dropRun id) := by
  unfold State.dropRun
  split
  · exact .refl s
  · exact (Steady.of_calm (State.sendKill_calm ..)).trans (State.discardRun_steady ..)

theorem State.killRun_steady (id : Nat) : Steady s (s.killRun id) := by
  unfold State.killRun
  split
  · exact .refl s
  · split
    · exact .of_calm (State.sendKill_calm ..)
    · exact (Steady.of_calm (State.sendKill_calm ..)).trans (State.discardRun_steady ..)

/-- A command of a killed queue. -/
theorem State.endCmd_steady (q : QRef) (c : Cmd) : Steady s (((if c.run = 0 then s.ledgerEnd q c else (s.ledgerEnd q c).dropRun c.run)).dropCmd q c) := by
  have h := Steady.of_calm (State.ledgerEnd_calm s q c)
  split
  · exact h.calm (State.dropCmd_calm ..)
  · exact (h.trans (State.dropRun_steady ..)).calm (State.dropCmd_calm ..)

theorem State.killQueue_steady (q : QRef) (cause : Nat) (silent : Bool) : Steady s (s.killQueue q cause silent) := by
  unfold State.killQueue
  extract_lets u v w z
  have hu : Steady s u := by
    refine steady_foldl (fun t c => ?_) s _
    split
    · split
      · exact .of_calm (State.modCmd_calm ..)
      · exact .refl t
    · dsimp only
      exact State.endCmd_steady ..
  have hw : w.calm = u.calm := (State.modQ_calm ..).trans (State.lowerLive_calm ..)
  have hz : z.calm = w.calm := (State.setFld_calm ..).trans (State.setQState_calm ..)
  exact hu.calm ((State.notifyAfter_calm ..).trans (hz.trans hw))

theorem State.killContext_steady (p cid cause : Nat) (self : Option CrTarget) : Steady s (s.killContext p cid cause self) := by
  refine (steady_foldl (fun t q => ?_) s _).trans (steady_foldl (fun t k => ?_) _ _)
  · split
    · exact State.killQueue_steady ..
    · exact .refl t
  · split
    · extract_lets u x v c w
      have hu : u.calm = t.calm := (State.setFld_calm ..).trans (State.setFld_calm ..)
      have hw : w.calm = v.calm := State.calm_with_svc ..
      exact .of_calm ((State.notifyAfter_calm ..).trans (hw.trans ((State.setSvcX_calm ..).trans hu)))
    · exact .refl t

theorem State.afterStatus_steady (q : QRef) (c : Cmd) (st : Nat) : Steady s (s.afterStatus q c st) := by
  unfold State.afterStatus
  split
  · extract_lets u v
    have hv : Steady s v := (Steady.of_calm (State.report_calm ..)).trans (State.killContext_steady ..)
    split
    · exact hv
    · exact hv.trans (State.killQueue_steady ..)
  · split
    · split
      · exact .refl s
      · exact .of_calm ((State.modQ_calm ..).trans ((State.setFld_calm ..).trans (State.setQState_calm ..)))
    · exact .refl s

theorem State.leaveAt_calm (q : QRef) (c : Cmd) (f : Fail) (site : Nat) (time : W64) : (s.leaveAt q c f site time).calm = s.calm := by
  unfold State.leaveAt
  extract_lets u1 u2 u3 u4 x doneNow u5 note write u6
  have h2 : u2.calm = s.calm := by
    refine Eq.trans ?_ (State.ledgerEnd_calm s q c)
    unfold u2
    split
    · split
      · rfl
      · exact (State.endRun_calm ..).trans (State.freeEngine_calm ..)
    · rfl
  have h4 : u4.calm = s.calm := by
    refine Eq.trans ?_ h2
    unfold u4
    split
    · exact State.modQ_calm ..
    · rfl
  have h5 : u5.calm = s.calm := by
    refine Eq.trans ?_ h4
    unfold u5
    split
    · exact State.bump_calm ..
    · rfl
  have h6 : u6.calm = s.calm := by
    refine Eq.trans ?_ h5
    unfold u6
    split
    · exact State.sat_calm ..
    · rfl
  split
  · exact (State.sat_calm ..).trans h6
  · split
    · exact (State.emitRecord_calm ..).trans h6
    · exact h6

theorem State.completeAt_steady (q : QRef) (c : Cmd) (f : Fail) (site : Nat) (time : W64) : Steady s (s.completeAt q c f site time) := by
  unfold State.completeAt
  split
  · exact .refl s
  · dsimp only
    split
    · exact .of_calm (State.leaveAt_calm ..)
    · exact (Steady.of_calm (State.leaveAt_calm ..)).trans (State.afterStatus_steady ..)

theorem State.completeNow_steady (q : QRef) (c : Cmd) (f : Fail) : Steady s (s.completeNow q c f) := by
  unfold State.completeNow
  refine Steady.trans ?_ (State.completeAt_steady ..)
  split
  · split
    · exact .refl s
    · exact State.dropRun_steady ..
  · exact .refl s

theorem State.pourDone_steady (q : QRef) : Steady s (s.pourDone q) := by
  unfold State.pourDone
  split
  · split
    · exact (Steady.of_calm ((State.sendEvents_calm ..).trans (State.lowerLive_calm ..))).trans (State.completeAt_steady ..)
    · exact .refl s
  · exact .refl s

theorem State.fail_steady (q : QRef) (c : Cmd) (f : Fail) : Steady s (s.fail q c f) :=
  ((State.completeNow_steady ..).trans (State.pourDone_steady ..)).calm (State.refreshQ_calm ..)

end

end Sys2Proof.Machine

/-!
PROOFS. Heartbeats, and the losses of C-dies, risers and sites (01_panel R26-R29, 18_faults_and_recovery R441-R445).
-/

namespace Sys2Proof.Machine

/-! ### The gating of a C-die leaves the Librarian as it is -/

theorem State.interruptQueue_steady (s : State) (q : QRef) : Steady s (s.interruptQueue q).1 := by
  unfold State.interruptQueue
  extract_lets pinned
  clear_value pinned
  by_cases hp : pinned = true
  · rw [if_pos hp]
    dsimp only
    exact State.killContext_steady s _ _ _ _
  · rw [if_neg hp]
    refine steady_foldl (fun t c => ?_) s _
    split
    · exact .refl t
    · split
      · exact .of_calm (State.requeue_calm ..)
      · exact (State.killRun_steady ..).calm (State.requeue_calm ..)

theorem steady_foldl_fst {α β : Type} {F : State × β → α → State × β} (h : ∀ x a, Steady x.1 (F x a).1) (x : State × β) (l : List α) :
    Steady x.1 (l.foldl F x).1 :=
  List.foldlRecOn (motive := fun y => Steady x.1 y.1) l F (.refl x.1) fun _ hy a _ => hy.trans (h _ a)

theorem State.interruptCore_steady (s : State) (c : Nat) : Steady s (s.interruptCore c).1 :=
  steady_foldl_fst (β := List (QRef × Option Cmd) × Bool) (fun x q => State.interruptQueue_steady x.1 q) (s, [], false) (coreQueues c)

theorem State.gateOff_calm (s : State) (x : Nat) : (s.gateOff x).calm = s.calm := rfl

theorem State.gateDie_steady (s : State) (x : Nat) (cores : List Nat) : Steady s (s.gateDie x cores).1 := by
  have h : Steady s ((s.gateOff x).setBit (errB x + 8) 4 false) := .of_calm ((State.setBit_calm ..).trans (State.gateOff_calm ..))
  refine h.trans (steady_foldl_fst (β := List (QRef × Option Cmd) × Bool) (fun y c => ?_) (_, [], false) cores)
  exact (State.interruptCore_steady ..).trans (steady_foldl (fun _ _ => .of_calm (State.setEng_calm ..)) _ _)

theorem State.dieGate_absent (s : State) (x cause slot : Nat) : (s.dieGate x cause slot).boot.absent = s.boot.absent := by
  unfold State.dieGate
  split
  · rfl
  · have h := congrArg Boot.absent (State.gateDie_steady s x (s.coresAt x)).boot
    exact h

/-! ### C-dies and risers -/

section
variable {s : State} {site : Nat}

theorem State.dieOn_iff : s.dieOn site = true ↔ s.mapBuilt = true ∧ s.isLost site = false ∧ s.coresAt site ≠ [] ∧ site ∉ s.pwr.lostDies := by
  unfold State.dieOn
  simp only [Bool.and_eq_true, Bool.not_eq_true', List.isEmpty_eq_false_iff, List.contains_eq_mem, decide_eq_false_iff_not, and_assoc]

section
variable (hsite : site < 72)
include hsite

section
variable (hon : s.dieOn site = true)
include hon

theorem cdieHeartbeat_sets : SetsRegs (.cdieHeartbeat site) s [(errB site + 8, putFld (s.reg (errB site + 8)) 4 1 1)] :=
  setsRegs_setFld (exec_of rfl (decide_eq_true (show site < Config.sites from hsite)) (if_pos hon)) rfl

theorem cdieFatalError_loses : exec (.cdieFatalError site) s =
    .next (if s.boot.absent then s.dieGate site 0 0 else (s.dieGate site 0 0).settleLosses) := by
  rw [← State.dieGate_absent s site 0 0]
  exact exec_of rfl (decide_eq_true (show site < Config.sites from hsite)) (if_pos hon)

theorem cdieHeartbeatTimeout_loses : exec (.cdieHeartbeatTimeout site) s =
    .next (if s.boot.absent then s.dieGate site 1 0 else (s.dieGate site 1 0).settleLosses) := by
  rw [← State.dieGate_absent s site 1 0]
  exact exec_of rfl (decide_eq_true (show site < Config.sites from hsite)) (if_pos hon)

end

theorem cdieRows_idle (hoff : ¬ s.dieOn site = true) :
    ∀ c ∈ [Instr.cdieHeartbeat site, .cdieFatalError site, .cdieHeartbeatTimeout site], exec c s = .next s := by
  have hok : decide (site < Config.sites) = true := decide_eq_true hsite
  intro c hc
  simp only [List.mem_cons, List.not_mem_nil, or_false] at hc
  rcases hc with rfl | rfl | rfl
  · exact exec_of rfl hok (if_neg hoff)
  · exact exec_of rfl hok (if_neg hoff)
  · exact exec_of rfl hok (if_neg hoff)

end
end

section
variable {s : State} {row : Nat}

/-- The cores of a row that move onto its riser. -/
def State.movingCores (s : State) (row : Nat) : List Nat := (List.range 256).filter fun c => c / 32 = row && s.coreState c = 1

variable (hrow : row < 8)
include hrow

theorem substitutionDone_waits (h : s.boot.absent = true ∨ s.isLost (s.riserSite row) = true ∨ s.movingCores row = []) :
    exec (.substitutionDone row) s = .next s := by
  refine exec_of rfl (decide_eq_true hrow) ?_
  by_cases hw : (s.boot.absent || s.isLost (s.riserSite row)) = true
  · exact if_pos hw
  · refine (if_neg hw).trans (if_pos ?_)
    rw [Bool.or_eq_true] at hw
    have hm : s.movingCores row = [] :=
      (h.resolve_left fun ha => hw (.inl ha)).resolve_left fun hl => hw (.inr hl)
    exact List.isEmpty_iff.2 hm

theorem substitutionDone_finishes (ha : s.boot.absent = false) (hl : s.isLost (s.riserSite row) = false) :
    exec (.substitutionDone row) s = .next (s.finishMove row) := by
  refine exec_of rfl (decide_eq_true hrow) (if_neg ?_)
  rw [ha, hl]
  exact Bool.false_ne_true

theorem riserFailure_idle (h : s.riserState row ≠ 1) : exec (.riserFailure row) s = .next s :=
  exec_of rfl (decide_eq_true hrow) ((if_neg fun hc => h hc.1).trans (if_neg h))

theorem riserFailure_inUse (h : s.riserState row = 1) (hm : s.movingCores row = []) : exec (.riserFailure row) s =
    .next (if s.boot.absent then s.dieGate (s.riserSite row) 0 0 else (s.dieGate (s.riserSite row) 0 0).settleLosses) := by
  have hm' : (!(s.movingCores row).isEmpty) ≠ true := by rw [hm]; decide
  rw [← State.dieGate_absent s (s.riserSite row) 0 0]
  exact exec_of rfl (decide_eq_true hrow) ((if_neg fun hc => hm' hc.2).trans (if_pos h))

theorem riserFailure_moving (h : s.riserState row = 1) (hm : s.movingCores row ≠ []) :
    let moving := s.movingCores row
    let u := (moving.foldl (fun s c => s.setFld (libCoreMap c) 12 4 2) (s.genOdd.setRiser row 2)).genEven.gateOff (s.riserSite row)
    let v := moving.foldl (fun s c => (coreQueues c).foldl (fun s q => s.loseQueue q) s) u
    exec (.riserFailure row) s = .next (v.endSubst row (moving.head?.bind fun c => v.corePart c) true) := by
  have hm' : (!(s.movingCores row).isEmpty) = true := by
    rw [Bool.not_eq_true', List.isEmpty_eq_false_iff]
    exact hm
  exact exec_of rfl (decide_eq_true hrow) (if_pos ⟨h, hm'⟩)

end

/-! ### Contact and the declarations that reports make due (R442, R443) -/

/-- Of each site that a report or the loss of a neighbour speaks of, every live agent lacks the report of a live
neighbour. -/
def State.Undecided (s : State) : Prop :=
  ∀ z ∈ (s.mesh.reports.map fun e => e.2.2) ++ s.mesh.lost.flatMap neighbours, s.isLost z = false →
    ∀ a, a < 72 → a ≠ z → s.isLost a = false → ∃ n ∈ neighbours z, s.isLost n = false ∧ (a, n, z) ∉ s.mesh.reports

theorem State.judgeSites_undecided {s : State} (h : s.Undecided) (fuel : Nat) : s.judgeSites fuel = s := by
  cases fuel with
  | zero => rfl
  | succ fuel =>
    have hnone : (((s.mesh.reports.map fun e => e.2.2) ++ s.mesh.lost.flatMap neighbours).eraseDups.find? fun z =>
        !s.isLost z && (List.range 72).any fun a => a ≠ z && !s.isLost a && s.agentDeclares a z) = none := by
      refine List.find?_eq_none.2 fun z hz hdue => ?_
      obtain ⟨hz', hany⟩ := Bool.and_eq_true_iff.1 hdue
      obtain ⟨a, ha, hdecl⟩ := List.any_eq_true.1 hany
      obtain ⟨⟨hne, hlive⟩, hall⟩ := Bool.and_eq_true_iff.1 hdecl |>.imp_left Bool.and_eq_true_iff.1
      obtain ⟨n, hn, hnl, hno⟩ := h z (List.mem_eraseDups.1 hz) ((Bool.not_eq_true' _).mp hz') a (List.mem_range.1 ha) (of_decide_eq_true hne)
        ((Bool.not_eq_true' _).mp hlive)
      have hhas := List.all_eq_true.1 hall n hn
      rw [hnl, Bool.false_or] at hhas
      exact hno (List.contains_iff_mem.1 hhas)
    unfold State.judgeSites
    dsimp only
    rw [hnone]

theorem State.loseContact_none {s : State} {site d : Nat} (h : s.bit (errB site + 8) d = false) : s.loseContact site d = s := by
  refine if_pos ?_
  have h' : s.contact site d = false := h
  rw [h']
  rfl

theorem mem_contains_concat {α : Type} [BEq α] [LawfulBEq α] (xs : List α) (x : α) : x ∈ if xs.contains x then xs else xs ++ [x] := by
  split
  · exact List.contains_iff_mem.1 ‹_›
  · exact List.mem_append_right _ (List.mem_singleton.2 rfl)

/-- The report of a lost contact, held by the agent itself and broadcast. -/
def State.reportedLoss (s : State) (x y : Nat) : State :=
  { s with mesh := { s.mesh with
      broadcast := if s.mesh.broadcast.contains (x, y) then s.mesh.broadcast else s.mesh.broadcast ++ [(x, y)]
      reports := if s.mesh.reports.contains (x, x, y) then s.mesh.reports else s.mesh.reports ++ [(x, x, y)] } }

theorem State.setBit_rest (s : State) (k lo : Nat) (b : Bool) : { s.setBit k lo b with regs := s.regs, mesh := s.mesh } = s := rfl

theorem State.reportedLoss_spec {s v : State} {k d x y : Nat} (hbit : v.bit k d = false) (hreg : ∀ j, j ≠ k → v.reg j = s.reg j)
    (hmesh : v.mesh = s.mesh) (hrest : { v with regs := s.regs, mesh := s.mesh } = s) :
    let u := v.reportedLoss x y
    { u with regs := s.regs, mesh := s.mesh } = s ∧ u.bit k d = false ∧ (∀ j, j ≠ k → u.reg j = s.reg j) ∧
      { u.mesh with broadcast := s.mesh.broadcast, reports := s.mesh.reports } = s.mesh ∧
      (x, y) ∈ u.mesh.broadcast ∧ (x, x, y) ∈ u.mesh.reports := by
  rw [← hmesh] at hrest ⊢
  exact ⟨hrest, hbit, hreg, rfl, mem_contains_concat _ _, mem_contains_concat _ _⟩

theorem State.loseContact_some {s : State} {site d y : Nat} (h : s.bit (errB site + 8) d = true) (hy : neighbour site d = some y) :
    s.loseContact site d = (s.setBit (errB site + 8) d false).reportedLoss site y := by
  have hc : ¬ (!s.contact site d) = true := by
    have h' : s.contact site d = true := h
    rw [h']
    exact Bool.false_ne_true
  unfold State.loseContact
  rw [if_neg hc, hy]
  generalize s.setBit (errB site + 8) d false = v
  rfl

theorem State.loseContact_spec {s : State} {site d y : Nat} (hd : d < 4) (h : s.bit (errB site + 8) d = true) (hy : neighbour site d = some y) :
    let u := s.loseContact site d
    { u with regs := s.regs, mesh := s.mesh } = s ∧ u.bit (errB site + 8) d = false ∧ (∀ k, k ≠ errB site + 8 → u.reg k = s.reg k) ∧
      { u.mesh with broadcast := s.mesh.broadcast, reports := s.mesh.reports } = s.mesh ∧
      (site, y) ∈ u.mesh.broadcast ∧ (site, site, y) ∈ u.mesh.reports := by
  rw [State.loseContact_some h hy]
  exact State.reportedLoss_spec (State.bit_setBit_same _ _ _ _ (by omega)) (fun k hk => reg_setFld_ne _ _ _ _ hk) (State.setBit_mesh ..) (State.setBit_rest ..)

section
variable {s : State} {site d agent reporter : Nat}

section
variable (hsite : site < 72) (hd : d < 4)
include hsite hd

theorem siteRow_ok : (decide (site < Config.sites) && decide (d < 4)) = true :=
  Bool.and_eq_true_iff.2 ⟨decide_eq_true hsite, decide_eq_true hd⟩

theorem siteHeartbeat_sets (hup : s.edgeUp site d = true) (hlive : s.edgeLive site d = true) :
    SetsRegs (.siteHeartbeat site d) s [(errB site + 8, putFld (s.reg (errB site + 8)) d 1 1)] :=
  setsRegs_setFld (exec_of rfl (siteRow_ok hsite hd) (if_pos (Bool.and_eq_true_iff.2 ⟨hup, hlive⟩))) rfl

theorem siteHeartbeat_idle (h : s.edgeUp site d = false ∨ s.edgeLive site d = false) : exec (.siteHeartbeat site d) s = .next s := by
  refine exec_of rfl (siteRow_ok hsite hd) (if_neg fun hc => ?_)
  obtain ⟨hup, hlive⟩ := Bool.and_eq_true_iff.1 hc
  rcases h with h | h
  · exact Bool.false_ne_true (h.symm.trans hup)
  · exact Bool.false_ne_true (h.symm.trans hlive)

theorem siteHeartbeatTimeout_lost (h : s.isLost site = true) : exec (.siteHeartbeatTimeout site d) s = .next s :=
  exec_of rfl (siteRow_ok hsite hd) (if_pos h)

theorem siteHeartbeatTimeout_live (h : s.isLost site = false) :
    exec (.siteHeartbeatTimeout site d) s = .next ((s.loseContact site d).judgeSites 72) :=
  exec_of rfl (siteRow_ok hsite hd) (if_neg (ne_true_of_eq_false h))

end

section
variable (hsite : site < 72) (hagent : agent < 72) (hreporter : reporter < 72)
include hsite hagent hreporter

theorem lossReport_ok : (decide (agent < Config.sites) && decide (reporter < Config.sites) && decide (site < Config.sites)) = true := by
  rw [decide_eq_true (show agent < Config.sites from hagent), decide_eq_true (show reporter < Config.sites from hreporter),
    decide_eq_true (show site < Config.sites from hsite)]
  rfl

theorem lossReport_held (hb : (reporter, site) ∈ s.mesh.broadcast) (hl : s.isLost agent = false) (hr : (agent, reporter, site) ∉ s.mesh.reports) :
    exec (.lossReport agent reporter site) s =
      .next (({ s with mesh := { s.mesh with reports := s.mesh.reports ++ [(agent, reporter, site)] } } : State).judgeSites 72) := by
  refine exec_of rfl (lossReport_ok hsite hagent hreporter) (if_neg ?_)
  rw [List.contains_iff_mem.2 hb, hl]
  simp [hr]

theorem lossReport_idle (h : (reporter, site) ∉ s.mesh.broadcast ∨ s.isLost agent = true ∨ (agent, reporter, site) ∈ s.mesh.reports) :
    exec (.lossReport agent reporter site) s = .next s := by
  refine exec_of rfl (lossReport_ok hsite hagent hreporter) (if_pos ?_)
  rw [Bool.or_eq_true, Bool.or_eq_true, Bool.not_eq_true', List.contains_iff_mem, or_assoc]
  refine h.imp_left fun hb => ?_
  rw [List.contains_eq_mem]
  exact decide_eq_false hb

end

theorem bDieFatalError_declares (hsite : site < 72) :
    exec (.bDieFatalError site) s = .next ((if s.isLost site then s else s.declareOne site 1).judgeSites 72) := by
  refine exec_of rfl (decide_eq_true (show site < Config.sites from hsite)) ?_
  by_cases h : s.isLost site = true
  · rw [if_pos h]
    exact congrArg (State.judgeSites · 72) (if_pos h)
  · rw [if_neg h]
    rfl

theorem siteLossReroute_idle (hsite : site < 72) (h : s.isLost site = false ∨ s.boot.absent = true) :
    exec (.siteLossReroute site) s = .next s := by
  refine exec_of rfl (decide_eq_true (show site < Config.sites from hsite)) (if_pos ?_)
  rcases h with h | h <;> rw [h] <;> simp

theorem siteLossReroute_reroutes (hsite : site < 72) (hl : s.isLost site = true) (ha : s.boot.absent = false) :
    exec (.siteLossReroute site) s = .next
      ((((List.range 16).foldl (fun s p => if s.ownsSite p site then s.partFatalize p 0 site else s) s.reroute).settleLosses).riserSiteLost site) := by
  refine exec_of rfl (decide_eq_true (show site < Config.sites from hsite)) (if_neg ?_)
  rw [hl, ha]
  exact Bool.false_ne_true

end

/-- Settles O44. A declaration is due only where one agent holds the reports of all live neighbours of a site
(`State.judgeSites_undecided`); the other clauses are the branches of the rows. -/
theorem losses : Obligations.Losses := by
  unfold Obligations.Losses
  intro s site row d agent reporter hsite hrow hd hagent hreporter
  dsimp only
  refine ⟨fun h => ?_, fun h => cdieRows_idle hsite fun hon => h (State.dieOn_iff.1 hon), substitutionDone_waits hrow,
    fun ha hl _ => substitutionDone_finishes hrow ha hl, riserFailure_idle hrow, riserFailure_inUse hrow, riserFailure_moving hrow,
    siteHeartbeat_sets hsite hd, siteHeartbeat_idle hsite hd, siteHeartbeatTimeout_lost hsite hd, fun h => ?_, fun hb hl hr => ?_,
    lossReport_idle hsite hagent hreporter, bDieFatalError_declares hsite, siteLossReroute_idle hsite, siteLossReroute_reroutes hsite⟩
  · have hon := State.dieOn_iff.2 h
    exact ⟨cdieHeartbeat_sets hsite hon, cdieFatalError_loses hsite hon, cdieHeartbeatTimeout_loses hsite hon⟩
  · have he := siteHeartbeatTimeout_live hsite hd h
    refine ⟨s.loseContact site d, he, State.loseContact_none, fun hbit y hy => State.loseContact_spec hd hbit hy, fun hq => ?_⟩
    exact he.trans (congrArg Host.Outcome.next (State.judgeSites_undecided hq 72))
  · have he := lossReport_held hsite hagent hreporter hb hl hr
    exact ⟨he, fun hq => he.trans (congrArg Host.Outcome.next (State.judgeSites_undecided
      (s := { s with mesh := { s.mesh with reports := s.mesh.reports ++ [(agent, reporter, site)] } }) hq 72))⟩

end Sys2Proof.Machine

/-!
PROOFS. LOPR (05_folio_instructions R139, R149, R150) where its launch belongs to a queue of another core than its thread engine: the model
reads the local store of the queue's core and writes that of the engine's core.
-/

namespace Sys2Proof.Machine

/-! ### What a LOPR of one lane does -/

theorem State.anyOrder_one (s : State) (a : Nat × Nat) : s.anyOrder [a] = (s.withFree (s.free + 1), [a]) := by
  have hdeal : dealDraws 1 s.free [0] = [0] := by
    have hd : [0].getD (Config.freeNat s.free % 1) 0 = 0 := by
      rw [Nat.mod_one]
      rfl
    exact congrArg (fun d => [d]) hd
  exact congrArg (fun ix : List Nat => (s.withFree (s.free + 1), ix.map fun i => [a].getD i (0, 0))) hdeal

/-- A group with a running path and no reconvergence entry stands where it is. -/
theorem Group.settle_of_flat {g : Group} (ha : g.active ≠ 0#64) (hr : g.recon = []) : g.settle = g := by
  have he : g.entry g.under = none := by
    unfold Group.entry
    rw [hr]
    rfl
  unfold Group.settle
  rw [Group.settleN, if_pos (bne_iff_ne.2 ha), he]

section
variable {s s1 : State} {g : GRef} {w w1 : W64} {l : Launch} {b : Block} {grp : Group}

/-- The bytes that a LOPR of one lane reads. -/
def State.oneOld (s1 : State) (g : GRef) (w w1 : W64) (l : Launch) (b : Block) (grp : Group) (lane : Nat) : Bytes :=
  let u := s1.withFree (s1.free + 1)
  (u.loprBytes (s1.runWho l.q l.run) ((u.blk? g.core grp.blk).getD b) grp.pipe (grp.laddr w w1 lane) (szBytes w)).2

theorem exec_lopr_one (hg : g.ok = true) (h : Issues s g w s1 l b grp) (hop : fOpc w = 0x57)
    (hlegal : MSpec.legal { global := false, ords := [0, 1, 2, 3], sub := subOk false false true, regs := atomRegs } l.vregs w w1 = true)
    (hord : fOrd w = 0) {lane : Nat} (hlanes : grp.accLanes w = [lane])
    (hin : grp.laddr w w1 lane % szBytes w = 0 ∧ inAlloc l b (grp.laddr w w1 lane) (szBytes w) = true) :
    ∃ u : State, exec (.lopr g w w1) s = .next (u.nextPc g { grp.putWords w lane
      ((words4 (szRegs w) (toBytes (szBytes w) (ofBytes (s1.oneOld g w w1 l b grp lane)))).map (BitVec.ofNat 32)) with relWait := false } w) := by
  have hfault : lsFault l b true (szBytes w) [(lane, grp.laddr w w1 lane)] = none := by
    rw [lsFault, Option.map_eq_none_iff, List.find?_eq_none]
    intro a ha
    rw [List.mem_singleton.1 ha]
    simp [hin.1, hin.2]
  have hacq : s1.acquireWaits l w = false := by
    unfold State.acquireWaits acqOf
    rw [hord]
    rfl
  have hrel : State.releaseGate s s1 g l grp w = (s1, none) := by
    unfold State.releaseGate relOf
    rw [hord]
    rfl
  have hx := exec_ctl_of (c := .lopr g w w1)
    (ok := fun v => MSpec.legal { global := false, ords := [0, 1, 2, 3], sub := subOk false false true, regs := atomRegs } v w w1)
    rfl hg h hop rfl hlegal
  dsimp only at hx
  rw [hlanes, List.map_singleton, if_neg (ne_true_of_eq_false hacq), hfault] at hx
  dsimp only at hx
  rw [hrel] at hx
  dsimp only at hx
  rw [State.anyOrder_one] at hx
  exact ⟨_, hx⟩

end

/-! ### The launch of a queue of core 1 on the thread engine of core 0 -/

/-- A panel whose partition 0 owns site 0; addresses below 512 MiB of its context 0 translate to themselves. -/
def strayPanel : State :=
  { regs := [(arcFrame 0 0, 3#64), (arcFrame 0 1, 0x400001#64), (arcFrame 0 2, 0x400001#64), (libPartState 0, 1#64), (libPartSites 0, 1#64), (libBootStatus, 6#64),
             (libCoreMapGen, 2#64), (libCoreMap 1, 0x100#64), (coreCtxBase 0, 0x200000#64), (coreS2Root 0, 0x10000#64)]
    arc := { mem := [(0x10000, 1#8), (0x10002, 2#8), (0x20000, 31#8), (0x200000, 1#8), (0x200002, 0x21#8), (0x210000, 1#8), (0x210002, 0x22#8),
                     (0x220000, 31#8)]
             ls := [(lsKey 1 0, 9#8)] } }

def strayLaunch : Launch :=
  { run := 1, q := { core := 1, eng := 4, q := 0 }, prog := 0x400000, gridX := 1, gridY := 1, gridZ := 1, groups := 1, vregs := 16, lsBlock := 1
    arenaBase := 0, arenaSize := 4096, maxBlocks := 0, args := [], rank := 0, next := 1 }

def strayBlock : Block := { x := 0, y := 0, z := 0, arena := 0 }

def strayGroup : Group := { blk := 0, idx := 0, pipe := 0, pc := 0x400000#64, active := 1#64 }

def strayRef : GRef := { core := 0, slot := 0 }

/-- LOPR ADD of 4 bytes at offset 0, into v5. -/
def strayWord : W64 := BitVec.ofNat 64 (0x57 + 5 * 2 ^ 16 + 2 ^ 38 + 4 * 2 ^ 32 + 2 * 2 ^ 47)

def strayState : State := { strayPanel with tes := [(0, { launch := some strayLaunch, blocks := [(0, some strayBlock)], groups := [(0, some strayGroup)] })] }

/-- The state in which the instruction issues. -/
def strayIssued : State :=
  (strayState.fetchWords (strayState.runWho strayLaunch.q 1) strayLaunch strayBlock 0x400000 strayWord).1.bump (texB 0 + 0x60) 0 48 1

theorem strayState_issues : Issues strayState strayRef strayWord strayIssued strayLaunch strayBlock strayGroup where
  launch := rfl
  group := rfl
  block := rfl
  active := by decide
  waits := rfl
  await := rfl
  fetch := ⟨by decide +kernel, rfl⟩

theorem strayWord_legal :
    MSpec.legal { global := false, ords := [0, 1, 2, 3], sub := subOk false false true, regs := atomRegs } strayLaunch.vregs strayWord 0 = true := by
  decide +kernel

theorem strayGroup_lanes : strayGroup.accLanes strayWord = [0] := by decide +kernel

theorem strayGroup_in : strayGroup.laddr strayWord 0 0 % szBytes strayWord = 0 ∧
    inAlloc strayLaunch strayBlock (strayGroup.laddr strayWord 0 0) (szBytes strayWord) = true := by decide +kernel

/-- The model reads the byte 9 of the local store of core 1. -/
theorem strayIssued_reads : strayIssued.oneOld strayRef strayWord 0 strayLaunch strayBlock strayGroup 0 = [9#8, 0#8, 0#8, 0#8] := by decide +kernel

/-- The local store of core 0, which the statement reads, holds 0. -/
theorem strayIssued_holds : ∀ i, i < 4 →
    strayIssued.arc.rdLs (lsKey (strayIssued.coreSlotIx strayRef.core) (strayGroup.laddr strayWord 0 0 + i)) = 0#8 := by decide +kernel

theorem strayBlock_quiet (off : Nat) : Quiet strayBlock strayGroup.pipe off :=
  ⟨fun _ hc => absurd hc List.not_mem_nil, fun _ he => absurd he List.not_mem_nil⟩

theorem ofBytes_zeros {bs : Bytes} {n : Nat} (hlen : bs.length = n) (h : ∀ i, i < n → bs.getD i 0#8 = 0#8) : ofBytes bs = 0 := by
  induction bs generalizing n with
  | nil => rfl
  | cons b bs ih =>
    have hb : b = 0#8 := h 0 (hlen ▸ Nat.succ_pos _)
    rw [ofBytes, hb, ih rfl fun i hi => h (i + 1) (hlen ▸ Nat.succ_lt_succ hi)]
    rfl

/-- The group of the model after the instruction holds the byte 9. -/
theorem strayGroup_putWords : (strayGroup.putWords strayWord 0
    ((words4 (szRegs strayWord) (toBytes (szBytes strayWord) (ofBytes [9#8, 0#8, 0#8, 0#8]))).map (BitVec.ofNat 32))).rdV 5 0 = 9#32 := by
  decide +kernel

/-- What the statement gives the lane of the stray launch: an old value of 0. -/
theorem strayLoads_zero {x : Group} {bs : Bytes} (hbs : ofBytes bs = 0)
    (h : LoadsInto strayWord { strayGroup with relWait := false } x (szRegs strayWord)
      [(0, (List.range (szRegs strayWord)).map fun j => BitVec.ofNat 32 (ofBytes bs / 2 ^ (32 * j)))]) : x.rdV 5 0 = 0#32 := by
  obtain ⟨-, -, h⟩ := h
  have hU : ¬ fU strayWord = true := by decide
  rw [if_neg hU] at h
  obtain ⟨-, hv⟩ := h
  rw [hbs] at hv
  exact (hv 5 0 (by decide)).trans (by decide +kernel)

/-- Refutes O21: no hypothesis of the LOPR clause ties the queue of a launch to the core of its thread engine. The launch of a queue of core 1 that
runs on core 0 reads the local store of core 1, where the byte 9 stands, and the statement gives its lane the 0 of core 0. -/
theorem not_folioAtomics : ¬ Obligations.FolioAtomics := by
  unfold Obligations.FolioAtomics
  rintro ⟨-, -, hlopr⟩
  have hrel : State.releaseGate strayState strayIssued strayRef strayLaunch strayGroup strayWord = (strayIssued, none) := rfl
  obtain ⟨t, x, order, u, vals, hexec, horder, hops, -, hran, hloads⟩ := hlopr strayState strayRef strayWord 0 strayIssued strayLaunch strayBlock
    strayGroup strayIssued rfl (by decide) strayState_issues strayWord_legal rfl
    (fun y hy => by
      rw [strayGroup_lanes] at hy
      rw [List.mem_singleton.1 hy]
      exact strayGroup_in) hrel
  obtain ⟨v, hv⟩ := exec_lopr_one (g := strayRef) rfl strayState_issues (by decide) strayWord_legal (by decide) strayGroup_lanes strayGroup_in
  have ht : t = _ := Host.Outcome.next.inj (hexec.symm.trans hv)
  rw [strayGroup_lanes] at horder
  obtain rfl := List.perm_singleton.1 horder
  have hblk : (strayIssued.blk? strayRef.core strayGroup.blk).getD strayBlock = strayBlock := by
    rw [strayState_issues.blk?_eq]
    rfl
  rw [hblk] at hops
  cases hops with
  | cons _ _ _ bs _ rest hlen hquiet hrest =>
    cases hrest with
    | nil =>
      have hzero : ofBytes bs = 0 := ofBytes_zeros (n := 4) hlen fun i hi =>
        (hquiet i hi (strayBlock_quiet _)).trans (strayIssued_holds i hi)
      have hx := strayLoads_zero hzero hloads
      obtain ⟨hgrp, -, hrest⟩ := hran
      have hactive : x.active = 1#64 := congrArg Group.active hrest
      have hrecon : x.recon = [] := congrArg Group.recon hrest
      rw [ht, State.nextPc, State.putGrp, State.grp?_setGrp_same, strayIssued_reads] at hgrp
      rw [Group.settle_of_flat (g := x) (by rw [hactive]; decide) hrecon, Group.settle_of_flat (by decide +kernel) (by decide +kernel)] at hgrp
      have hsame := congrArg Group.v (Option.some.inj hgrp)
      have hread : x.rdV 5 0 = 9#32 := Eq.trans (congrArg (fun v => ({ x with v := v } : Group).rdV 5 0) hsame.symm) strayGroup_putWords
      rw [hx] at hread
      exact absurd hread (by decide)

end Sys2Proof.Machine

/-!
PROOFS. Register writes (00_scope R6, R7, R10, 06_submission R167, R172, R175): the register of a queue's page that a write of 8 bytes reaches.
-/

namespace Sys2Proof.Machine

/-! ### The value of a write of 8 bytes -/

theorem merge_allOnes (old v : W64) : merge old v (BitVec.allOnes 64) = v := by
  unfold merge
  rw [BitVec.not_allOnes, BitVec.and_zero, BitVec.zero_or, BitVec.and_allOnes]

theorem fldOf_div {n : Nat} (x : BitVec n) (lo w : Nat) : fldOf x lo w = x.toNat / 2 ^ lo % 2 ^ w := nbits_eq ..

theorem laneVal_eight {pa : Nat} (hpa : pa % 8 = 0) (v : W64) : laneVal pa 8 v.toNat = v := by
  have hv : v.toNat % 2 ^ (8 * 8) = v.toNat := Nat.mod_eq_of_lt v.isLt
  unfold laneVal
  rw [hpa, hv, Nat.mul_zero, Nat.pow_zero, Nat.mul_one, BitVec.ofNat_toNat, BitVec.setWidth_eq]

theorem laneMask_eight {pa : Nat} (hpa : pa % 8 = 0) : laneMask pa 8 = BitVec.allOnes 64 := by
  unfold laneMask
  rw [hpa]
  rfl

theorem lowHalf_allOnes : lowHalf (BitVec.allOnes 64) = true := rfl

theorem regForm_not {pa n : Nat} (h : (n ≠ 4 ∧ n ≠ 8) ∨ pa % n ≠ 0) : regForm pa n = false := by
  unfold regForm
  rcases h with ⟨h4, h8⟩ | hp
  · rw [decide_eq_false (not_or.2 ⟨h4, h8⟩), Bool.false_and]
  · rw [decide_eq_false hp, Bool.and_false]

/-! ### The register that a key names -/

theorem State.regWrite_core (s : State) {c off : Nat} (hc : c < 256) (hoff : off < 0x200000) (v m : W64) :
    s.regWrite (coreB c + off) v m = s.coreWrite c off v m := by
  have hsub : coreB c + off - coreB 0 = c * 0x200000 + off := by
    unfold coreB
    omega
  have hin : coreB 0 ≤ coreB c + off ∧ coreB c + off < coreB 256 := by
    unfold coreB
    omega
  have hdiv : (c * 0x200000 + off) / 0x200000 = c := by omega
  have hmod : (c * 0x200000 + off) % 0x200000 = off := by omega
  unfold State.regWrite
  rw [if_pos hin, hsub, hdiv, hmod]

theorem State.coreWrite_queue (s : State) {c e n w : Nat} (he : e < 7) (hn : n < 4) (hw : w < 0x1000) (v m : W64) :
    s.coreWrite c (0x80000 + (4 * e + n) * 0x1000 + w) v m = s.queWrite { core := c, eng := e, q := n } w v m := by
  have hin : 0x80000 ≤ 0x80000 + (4 * e + n) * 0x1000 + w ∧ 0x80000 + (4 * e + n) * 0x1000 + w < 0x9C000 := by omega
  have hdiv : (0x80000 + (4 * e + n) * 0x1000 + w - 0x80000) / 0x1000 = 4 * e + n := by omega
  have hmod : (0x80000 + (4 * e + n) * 0x1000 + w) % 0x1000 = w := by omega
  have hq : (4 * e + n) / 4 = e := by omega
  have hr : (4 * e + n) % 4 = n := by omega
  unfold State.coreWrite
  dsimp only
  rw [if_neg (by omega), if_neg (by omega), if_neg (by omega), if_neg (by omega), if_pos hin, hdiv, hmod, hq, hr]

theorem State.regWrite_queue (s : State) {q : QRef} (hq : q.ok = true) {w : Nat} (hw : w < 0x1000) (v m : W64) :
    s.regWrite (queB q + w) v m = s.queWrite q w v m := by
  obtain ⟨⟨hc, he⟩, hn⟩ : (q.core < Config.cores ∧ q.eng < 7) ∧ q.q < 4 := by
    unfold QRef.ok at hq
    simpa only [Bool.and_eq_true, decide_eq_true_eq] using hq
  have hkey : queB q + w = coreB q.core + (0x80000 + (4 * q.eng + q.q) * 0x1000 + w) := by
    unfold queB
    omega
  rw [hkey, s.regWrite_core hc (by omega), s.coreWrite_queue he hn hw]

/-! ### Writes of 8 bytes that are let through -/

section
variable {s : State} {pa : Nat} {v : W64} {q : QRef}

theorem exec_registerWrite_malformed {n : Nat} (h : (n ≠ 4 ∧ n ≠ 8) ∨ pa % n ≠ 0) : exec (.registerWrite pa n v) s = .next s := by
  refine exec_of rfl rfl (if_pos ?_)
  rw [regForm_not h]
  rfl

section
variable (hpa : pa % 8 = 0) (hlib : pa < libB ∨ libB + 0x100_0000 ≤ pa)
include hpa hlib

theorem effRegisterWrite_key : effRegisterWrite pa 8 v s = match regKey s pa with
    | some k => s.regWrite k v (BitVec.allOnes 64)
    | none => s := by
  have hform : ¬ (!regForm pa 8) = true := by
    rw [regForm_of (.inr rfl) hpa]
    exact Bool.false_ne_true
  have hnot : ¬ (libB ≤ pa ∧ pa < libB + 0x100_0000) := by omega
  unfold effRegisterWrite
  rw [if_neg hform, if_neg hnot, laneVal_eight hpa, laneMask_eight hpa] <;> rfl

theorem exec_registerWrite_none (hk : regKey s pa = none) : exec (.registerWrite pa 8 v) s = .next s := by
  refine exec_of rfl rfl ((effRegisterWrite_key hpa hlib).trans ?_)
  rw [hk]

/-- A write that reaches a register of a queue's page. -/
theorem exec_registerWrite_queue (hq : q.ok = true) {off : Nat} (hoff : off < 0x1000) (hk : regKey s pa = some (queB q + off)) :
    exec (.registerWrite pa 8 v) s = .next (s.queWrite q off v (BitVec.allOnes 64)) := by
  refine exec_of rfl rfl ((effRegisterWrite_key hpa hlib).trans ?_)
  rw [hk]
  exact s.regWrite_queue hq hoff ..

end

/-! ### The registers of a queue's page -/

/-- A register written whole. -/
theorem setsRegs_setReg {c : Instr} {k : Nat} {x : W64} (he : exec c s = .next (s.setReg k x)) : SetsRegs c s [(k, x)] := by
  refine ⟨_, he, rfl, fun e hm => ?_, fun j hj => s.reg_setReg_ne _ fun hk => hj (List.mem_singleton.2 hk)⟩
  cases List.mem_singleton.1 hm
  exact s.reg_setReg_same ..

theorem State.queWrite_base {off : Nat} (hoff : off = 0x08 ∨ off = 0x10 ∨ off = 0x18) :
    s.queWrite q off v (BitVec.allOnes 64) = s.writeBase (s.qEnabled q) (queB q + off) v := by
  have h0 : off ≠ 0x00 := by omega
  unfold State.queWrite
  dsimp only
  rw [if_neg h0, if_pos hoff, merge_allOnes]

theorem State.queWrite_readOnly {off : Nat} (hoff : off = 0x28 ∨ off = 0x30 ∨ off = 0x38) : s.queWrite q off v (BitVec.allOnes 64) = s := by
  rcases hoff with rfl | rfl | rfl <;> rfl

theorem State.queWrite_sop {j : Nat} (hj : j < 15) : s.queWrite q (0x80 + 8 * j) v (BitVec.allOnes 64) =
    s.modQ q fun x => { x with sop := putFld x.sop (64 * j) 64 v.toNat } := by
  have hdiv : (0x80 + 8 * j - 0x80) / 8 = j := by omega
  unfold State.queWrite
  dsimp only
  rw [if_neg (by omega), if_neg (by omega), if_neg (by omega), if_neg (by omega), if_neg (by omega), if_neg (by omega), if_neg (by omega),
    if_neg (by omega), if_neg (by omega), if_neg (by omega), if_pos (by omega), hdiv, if_neg (by omega), merge_allOnes]
  unfold State.modQ setQword
  rfl

theorem State.queWrite_cfg : s.queWrite q 0x00 v (BitVec.allOnes 64) = effQueCfgWrite q v s := by
  unfold State.queWrite
  dsimp only
  rw [if_pos rfl, merge_allOnes]

theorem State.queWrite_tail : s.queWrite q 0x20 v (BitVec.allOnes 64) = s.tailWrite q v := by
  unfold State.queWrite
  dsimp only
  rw [if_neg (by decide), if_neg (by decide), if_pos rfl, if_pos lowHalf_allOnes]

theorem State.queWrite_crHead : s.queWrite q 0x40 v (BitVec.allOnes 64) = effQueCrHeadWrite (.que q) v s := by
  unfold State.queWrite
  dsimp only
  rw [if_neg (by decide), if_neg (by decide), if_neg (by decide), if_pos rfl, if_pos lowHalf_allOnes]

theorem State.queWrite_status : s.queWrite q 0x48 v (BitVec.allOnes 64) = s.clearStatus (queB q + 0x48) v := by
  unfold State.queWrite
  dsimp only
  rw [if_neg (by decide), if_neg (by decide), if_neg (by decide), if_neg (by decide), if_pos rfl, BitVec.and_allOnes]

theorem State.queWrite_notifyAddr : s.queWrite q 0x60 v (BitVec.allOnes 64) = s.writeNotifyAddr (queB q + 0x60) v := by
  unfold State.queWrite
  dsimp only
  rw [if_neg (by decide), if_neg (by decide), if_neg (by decide), if_neg (by decide), if_neg (by decide), if_neg (by decide), if_neg (by decide),
    if_pos rfl, merge_allOnes]

theorem State.queWrite_notifyCtrl :
    s.queWrite q 0x68 v (BitVec.allOnes 64) = s.setReg (queB q + 0x68) (BitVec.ofNat 64 (fldOf v 0 48)) := by
  unfold State.queWrite
  dsimp only
  rw [if_neg (by decide), if_neg (by decide), if_neg (by decide), if_neg (by decide), if_neg (by decide), if_neg (by decide), if_neg (by decide),
    if_neg (by decide), if_pos rfl, merge_allOnes]

theorem State.queWrite_bcast : s.queWrite q 0x70 v (BitVec.allOnes 64) = effQueBcastWrite q v s := by
  unfold State.queWrite
  dsimp only
  rw [if_neg (by decide), if_neg (by decide), if_neg (by decide), if_neg (by decide), if_neg (by decide), if_neg (by decide), if_neg (by decide),
    if_neg (by decide), if_neg (by decide), if_pos rfl, merge_allOnes]

theorem State.queWrite_sop15 : s.queWrite q 0xF8 v (BitVec.allOnes 64) = effQueSop15Doorbell q v s := by
  unfold State.queWrite
  dsimp only
  rw [if_neg (by decide), if_neg (by decide), if_neg (by decide), if_neg (by decide), if_neg (by decide), if_neg (by decide), if_neg (by decide),
    if_neg (by decide), if_neg (by decide), if_neg (by decide), if_pos (by decide), if_pos (by decide), merge_allOnes]

theorem State.queWrite_resume : s.queWrite q 0x50 v (BitVec.allOnes 64) =
    if v.getLsbD 0 = false then s else if v.getLsbD 1 = true then effQueResumeSkip q s else s.resumeQ q := by
  unfold State.queWrite
  dsimp only
  rw [if_neg (by decide), if_neg (by decide), if_neg (by decide), if_neg (by decide), if_neg (by decide), if_pos rfl, BitVec.and_allOnes, fldOf_one_eq_b2n, fldOf_one_eq_b2n]
  cases v.getLsbD 0 <;> cases v.getLsbD 1 <;> rfl

theorem State.queWrite_abort : s.queWrite q 0x58 v (BitVec.allOnes 64) =
    if v.getLsbD 63 = true then s.abortAll q else effQueAbort q (v.toNat % 2 ^ 32) (v.toNat / 2 ^ 32 % 2 ^ 16) s := by
  unfold State.queWrite
  dsimp only
  rw [if_neg (by decide), if_neg (by decide), if_neg (by decide), if_neg (by decide), if_neg (by decide), if_neg (by decide), if_pos rfl, BitVec.and_allOnes, fldOf_one_eq_b2n, if_pos lowHalf_allOnes, fldOf_zero_eq, fldOf_div]
  cases v.getLsbD 63 <;> rfl

/-- Settles O48: what a register write does, and in a queue's page which command it is. -/
theorem registerWrites : Obligations.RegisterWrites := by
  intro s pa v q hq
  refine ⟨fun n hn => exec_registerWrite_malformed hn, fun hpa hlib => ?_⟩
  have hque : ∀ off, off < 0x1000 → regKey s pa = some (queB q + off) →
      exec (.registerWrite pa 8 v) s = .next (s.queWrite q off v (BitVec.allOnes 64)) := fun _ => exec_registerWrite_queue hpa hlib hq
  refine ⟨exec_registerWrite_none hpa hlib, fun hk => ?cfg, fun off hoff hk => ?base, fun hk => ?tail, fun off hoff hk => ?readOnly, fun hk => ?crHead,
    fun hk => ?status, fun hk => ?resume, fun hk => ?abort, fun hk => ?notifyAddr, fun hk => ?notifyCtrl, fun hk => ?bcast, fun hk => ?sop15,
    fun j hj hk => ?sop⟩
  case cfg =>
    exact (hque _ (by decide) hk).trans (exec_of rfl hq State.queWrite_cfg.symm).symm
  case base =>
    have hoff : off = 0x08 ∨ off = 0x10 ∨ off = 0x18 := by simpa only [List.mem_cons, List.not_mem_nil, or_false] using hoff
    have hx := (hque off (by omega) hk).trans (congrArg Host.Outcome.next (State.queWrite_base hoff))
    refine ⟨fun hon => hx.trans (congrArg Host.Outcome.next (if_pos hon)), fun hoff' => setsRegs_setReg (hx.trans (congrArg Host.Outcome.next ?_))⟩
    exact (if_neg (ne_true_of_eq_false hoff')).trans
      (congrArg (fun x => s.setReg (queB q + off) (BitVec.ofNat 64 (x * 2 ^ 12))) (fldOf_div v 12 43))
  case tail => exact (hque _ (by decide) hk).trans (exec_of rfl hq State.queWrite_tail.symm).symm
  case readOnly =>
    have hoff : off = 0x28 ∨ off = 0x30 ∨ off = 0x38 := by simpa only [List.mem_cons, List.not_mem_nil, or_false] using hoff
    exact (hque off (by omega) hk).trans (congrArg Host.Outcome.next (State.queWrite_readOnly hoff))
  case crHead => exact (hque _ (by decide) hk).trans (exec_of rfl hq State.queWrite_crHead.symm).symm
  case status =>
    exact setsRegs_setReg ((hque _ (by decide) hk).trans (congrArg Host.Outcome.next State.queWrite_status))
  case resume =>
    refine (hque _ (by decide) hk).trans ((congrArg Host.Outcome.next State.queWrite_resume).trans ?_)
    split
    · rfl
    · split
      · exact (exec_of rfl hq rfl).symm
      · exact (exec_of rfl hq rfl).symm
  case abort =>
    refine (hque _ (by decide) hk).trans ((congrArg Host.Outcome.next State.queWrite_abort).trans ?_)
    split
    · exact (exec_of rfl hq rfl).symm
    · refine (exec_of (ok := q.ok && decide (v.toNat % 2 ^ 32 < 2 ^ 32) && decide (v.toNat / 2 ^ 32 % 2 ^ 16 < 2 ^ 16)) rfl ?_ rfl).symm
      rw [hq, decide_eq_true (Nat.mod_lt _ (by decide)), decide_eq_true (Nat.mod_lt _ (by decide))]
      rfl
  case notifyAddr =>
    refine setsRegs_setReg ((hque _ (by decide) hk).trans (congrArg Host.Outcome.next (State.queWrite_notifyAddr.trans ?_)))
    exact congrArg (fun x => s.setReg (queB q + 0x60) (BitVec.ofNat 64 (x * 2 ^ 2))) (fldOf_div v 2 53)
  case notifyCtrl =>
    exact setsRegs_setReg ((hque _ (by decide) hk).trans (congrArg Host.Outcome.next State.queWrite_notifyCtrl))
  case bcast =>
    exact (hque _ (by decide) hk).trans (exec_of rfl hq State.queWrite_bcast.symm).symm
  case sop15 =>
    exact (hque _ (by decide) hk).trans (exec_of rfl hq State.queWrite_sop15.symm).symm
  case sop => exact (hque _ (by omega) hk).trans (congrArg Host.Outcome.next (State.queWrite_sop hj))

end

end Sys2Proof.Machine

/-!
PROOFS. Flows and packets of the fabric (13_ring_links R304, R353-R360).
-/

namespace Sys2Proof.Machine

/-! ### Packets that are taken -/

section
variable {s u : State} {die at_ : Nat} {h : NHdr} {d : Bytes} {crc : W32}

theorem State.nTake_of (hcrc : crc.toNat = crc32c (toBytes 32 h.toNat ++ d)) (hdst : (nfOf h).dst = s.panelNo) (k : NF → State) :
    s.nTake die h d crc k = k (nfOf h) := (if_neg (not_not_intro hcrc)).trans (if_neg (not_not_intro hdst))

theorem Arrives.nTake (ha : Arrives s die h d crc u at_) (k : NF → State) : s.nTake die h d crc k = k (nfOf h) := State.nTake_of ha.crc ha.dst k

theorem Arrives.nSeq (ha : Arrives s die h d crc u at_) (k : State → Nat → State) : s.nSeq die (nfOf h) k = k u at_ := by
  obtain ⟨-, -, rfl, r, hr, he, hn, rfl⟩ := ha
  unfold State.nSeq
  dsimp only
  rw [hr]
  dsimp only
  rw [if_neg (not_not_intro he), if_pos hn]

/-- A packet in sequence does what its row says in the state that has taken it. -/
theorem Arrives.row (ha : Arrives s die h d crc u at_) (k : NF → State → Nat → State) :
    (s.nTake die h d crc fun f => s.nSeq die f (k f)) = k (nfOf h) u at_ := (ha.nTake _).trans (ha.nSeq _)

end

/-! ### Packets that leave -/

theorem State.foldl_nOut (die : Nat) (l : List (NPkt × FabUse)) (s : State) :
    l.foldl (fun s u => s.nOut die u.1) s = { s with fab := { s.fab with out := s.fab.out ++
      (l.filterMap fun w => (s.exitPort die (fldOf w.1.h 0 16)).map fun port => { w.1 with port := port }) } } := by
  induction l generalizing s with
  | nil => rw [List.filterMap_nil, List.append_nil] <;> rfl
  | cons w l ih =>
    rw [List.foldl_cons, List.filterMap_cons, ih]
    unfold State.nOut
    cases s.exitPort die (fldOf w.1.h 0 16) with
    | none => rfl
    | some port =>
      dsimp only [Option.map_some]
      rw [List.append_assoc]
      rfl

/-! ### Rows of the flow layer (R356-R358) -/

section
variable {s : State} {die : Nat} {h : NHdr} {d : Bytes} {crc : W32} (hdie : die < 24) (hcrc : crc.toNat = crc32c (toBytes 32 h.toNat ++ d))
  (hdst : (nfOf h).dst = s.panelNo)
include hdie hcrc hdst

/-- The OPEN_ACK of a receiver context. -/
def State.openAcked (s : State) (die : Nat) (f : NF) : State :=
  s.nSend die { dst := f.src, src := s.panelNo, ty := 2, keeper := die, flow := f.flow, epoch := f.epoch } []

theorem exec_openFlow : exec (.openFlow die h d crc) s = .next (match s.recv? (recvKey die (nfOf h).src (nfOf h).flow) with
    | some r => if cntDiff 16 (nfOf h).epoch r.epoch < 0 then s
      else if cntDiff 16 (nfOf h).epoch r.epoch = 0 then s.openAcked die (nfOf h)
      else (s.setRecv (recvKey die (nfOf h).src (nfOf h).flow) (some { epoch := (nfOf h).epoch, next := 0, unacked := 0 })).openAcked die (nfOf h)
    | none => if 8192 ≤ (s.fab.recvs.filter fun e => e.1 / 0x100000000 = die).length then s
      else (s.setRecv (recvKey die (nfOf h).src (nfOf h).flow) (some { epoch := (nfOf h).epoch, next := 0, unacked := 0 })).openAcked die (nfOf h)) :=
  exec_of rfl (decide_eq_true hdie) (State.nTake_of hcrc hdst _)

section
variable {k : Nat} {fl : Flow} (hfl : s.myFlow (nfOf h).flow (nfOf h).src = some (k, fl)) (he : fl.epoch = (nfOf h).epoch)
include hfl he

theorem exec_openAck (ho : fl.state = .opening) : exec (.openAck die h d crc) s = .next (fl.waiting.foldl (fun (u : State) w => match u.flow? k with
    | some x => u.flowPush (k / 65536) (nfOf h).flow x (nfOf w.1.h) w.1.d w.2
    | none => u) (s.setFlow k (some { fl with state := .opened, keeper := (nfOf h).keeper, psn := 0, waiting := [] }))) := by
  refine exec_of rfl (decide_eq_true hdie) ((State.nTake_of hcrc hdst _).trans ?_)
  rw [hfl]
  exact if_pos ⟨ho, he⟩

theorem exec_ack : exec (.ack die h d crc) s = .next (s.setFlow k (some
    { fl with unacked := fl.unacked.filter fun u => decide (0 < cntDiff 32 (nfOf u.1.h).psn (nfOf h).psn) })) := by
  refine exec_of rfl (decide_eq_true hdie) ((State.nTake_of hcrc hdst _).trans ?_)
  rw [hfl]
  exact if_pos he

end

theorem exec_close {r : Recv} (hr : s.recv? (recvKey (if (nfOf h).keeper < 24 then (nfOf h).keeper else die) (nfOf h).src (nfOf h).flow) = some r)
    (he : r.epoch = (nfOf h).epoch) : exec (.close die h d crc) s =
      .next (s.setRecv (recvKey (if (nfOf h).keeper < 24 then (nfOf h).keeper else die) (nfOf h).src (nfOf h).flow) none) := by
  refine exec_of rfl (decide_eq_true hdie) ((State.nTake_of hcrc hdst _).trans ?_)
  dsimp only
  rw [hr]
  exact if_pos he

end

section
variable {s : State} {die flow : Nat} (hdie : die < 24)
include hdie

section
variable {f : Flow} (hf : s.flow? (flowKey die flow) = some f)
include hf

theorem exec_retransmit_opening (ho : f.state = .opening) : exec (.retransmitTimer die flow) s = .next ((s.sat (nfbStat die) 0 16 1).nSend die
    { dst := f.dev, src := s.panelNo, ty := 1, keeper := 31, flow := flow, epoch := f.epoch } []) := by
  refine exec_of rfl (decide_eq_true hdie) ?_
  unfold effRetransmitTimer
  rw [hf]
  exact if_pos ho

theorem exec_retransmit (ho : f.state ≠ .opening) (hu : f.unacked ≠ []) : exec (.retransmitTimer die flow) s =
    .next (f.unacked.foldl (fun s u => s.nOut die u.1) (s.sat (nfbStat die) 0 16 1)) := by
  refine exec_of rfl (decide_eq_true hdie) ?_
  unfold effRetransmitTimer
  rw [hf]
  refine (if_neg ho).trans (if_neg fun he => hu (List.isEmpty_iff.1 he))

/-- The state in which the requests of a flow that was given up take their outcomes. -/
def State.givenUp (s : State) (die flow : Nat) (f : Flow) (sev addr : Nat) : State :=
  ((s.closeFlow (flowKey die flow) f).sat (nfbStat die) 16 16 1).flowReport die f.dev flow sev none addr

/-- The severity and the address of the incident of a flow that was given up: those of its logged operations and of its writes back. -/
def lostSev (us : List FabUse) : Nat := if us.any fun u => match u with | .log _ => true | _ => false then sevPartition else sevPoison

def lostAddr (us : List FabUse) : Nat := (us.findSome? fun u => match u with | .writeBack _ pa _ => some (pa - 2 ^ 58) | _ => none).getD 0

theorem exec_flowGiveup (hg : f.unacked ≠ [] ∨ f.state = .opening) : ∃ sev addr, exec (.flowGiveup die flow) s =
    .next ((((f.unacked ++ f.waiting).map (·.2)).foldl State.requestLost (s.givenUp die flow f sev addr)).flowFreed die) := by
  have hgo : ¬ (f.unacked.isEmpty && f.state != .opening) = true := by
    intro hc
    obtain ⟨hu, hs⟩ := (Bool.and_eq_true _ _).mp hc
    exact hg.elim (fun h => h (List.isEmpty_iff.1 hu)) fun h => bne_iff_ne.1 hs h
  refine ⟨lostSev ((f.unacked ++ f.waiting).map (·.2)), lostAddr ((f.unacked ++ f.waiting).map (·.2)), exec_of rfl (decide_eq_true hdie) ?_⟩
  unfold effFlowGiveup
  rw [hf]
  exact if_neg hgo

theorem exec_flowIdle (ho : f.state = .opened) (hu : f.unacked = []) (hw : f.waiting = []) : exec (.flowIdleExpiry die flow) s =
    .next (((s.nSend die { dst := f.dev, src := s.panelNo, ty := 4, keeper := f.keeper, flow := flow, epoch := f.epoch } []).closeFlow
      (flowKey die flow) f).flowFreed die) := by
  refine exec_of rfl (decide_eq_true hdie) ?_
  unfold effFlowIdleExpiry
  rw [hf]
  refine if_pos ?_
  rw [ho, hu, hw]
  rfl

end

theorem exec_ackDelay {dev : Nat} {r : Recv} (hr : s.recv? (recvKey die dev flow) = some r) : exec (.ackDelayExpiry die dev flow) s =
    .next (if r.unacked = 0 then s else (s.setRecv (recvKey die dev flow) (some { r with unacked := 0 })).nSend die
      { dst := dev, src := s.panelNo, ty := 3, flow := flow, epoch := r.epoch, psn := wsub r.next 1 } []) := by
  refine exec_of rfl (decide_eq_true hdie) ?_
  unfold effAckDelayExpiry State.sendAck
  rw [hr]
  rfl

end

/-- A flow without unacknowledged packets keeps all its answers to come. -/
theorem State.closeFlow_of_acked (s : State) (k : Nat) {f : Flow} (hu : f.unacked = []) : s.closeFlow k f =
    { s.setFlow k none with fab := { (s.setFlow k none).fab with orphans := (s.setFlow k none).fab.orphans ++
      (f.answers.map fun a => (f.dev, a.1, a.2)) } } := by
  have hlate : (f.answers.filter fun a => !f.unacked.any fun u => decide (fldOf u.1.h 64 32 = a.1)) = f.answers := by
    rw [hu]
    exact List.filter_eq_self.2 fun _ _ => rfl
  unfold State.closeFlow
  rw [hlate]

theorem errB_ne_nfbStat {x die : Nat} (hx : x < 72) : nfbStat die ≠ errB x := by
  unfold nfbStat errB ringB siteB
  omega

theorem ringSite_lt (die : Nat) : ringSite die < 72 := by
  unfold ringSite
  rw [List.getD_eq_getElem?_getD]
  cases hx : ([0, 2, 3, 5, 6, 8, 17, 26, 35, 44, 53, 62, 71, 69, 68, 66, 65, 63, 54, 45, 36, 27, 18, 9] : List Nat)[die]? with
  | none => decide
  | some x =>
    have hmem := List.mem_of_getElem? hx
    have hall : ∀ y ∈ ([0, 2, 3, 5, 6, 8, 17, 26, 35, 44, 53, 62, 71, 69, 68, 66, 65, 63, 54, 45, 36, 27, 18, 9] : List Nat), y < 72 := by decide
    exact hall x hmem

theorem State.fab_report (s : State) (r : Report) : (s.report r).fab = s.fab := (congrArg State.fab (s.report_rest r) :)

/-- A report from a state that differs in the fabric and the registers alone. -/
theorem State.reported_rest {s t u : State} (hu : { u with regs := t.regs } = t) (ht : { t with fab := s.fab } = s) (r : Report) :
    { u.report r with fab := s.fab, regs := s.regs, net := s.net, errs := s.errs, errWait := s.errWait } = s :=
  (congrArg (fun x : State => { x with fab := s.fab, regs := s.regs, net := s.net, errs := s.errs, errWait := s.errWait }) (u.report_rest r)).trans
    ((congrArg (fun x : State => { x with fab := s.fab, regs := s.regs, net := s.net, errs := s.errs, errWait := s.errWait }) hu).trans
      (congrArg (fun x : State => { x with regs := s.regs, net := s.net, errs := s.errs, errWait := s.errWait }) ht))

section
variable (s : State) (die flow : Nat) (f : Flow) (sev addr : Nat)

theorem State.givenUp_fab : (s.givenUp die flow f sev addr).fab = (s.closeFlow (flowKey die flow) f).fab := by
  unfold State.givenUp State.flowReport
  exact (State.fab_report ..).trans (State.sat_fab ..)

theorem State.givenUp_rest :
    { s.givenUp die flow f sev addr with fab := s.fab, regs := s.regs, net := s.net, errs := s.errs, errWait := s.errWait } = s := by
  unfold State.givenUp State.flowReport
  exact State.reported_rest (State.sat_rest ..) rfl _

theorem State.givenUp_flow?_same : (s.givenUp die flow f sev addr).flow? (flowKey die flow) = none := by
  unfold State.flow?
  rw [State.givenUp_fab]
  exact tget_tset_same (none : Option Flow) s.fab.flows _ none

theorem State.givenUp_flow?_ne {j : Nat} (hj : j ≠ flowKey die flow) : (s.givenUp die flow f sev addr).flow? j = s.flow? j := by
  unfold State.flow?
  rw [State.givenUp_fab]
  exact tget_tset_ne (none : Option Flow) s.fab.flows none hj

theorem State.givenUp_orphans : (s.givenUp die flow f sev addr).fab.orphans = s.fab.orphans ++
    (f.answers.filter fun a => !f.unacked.any fun w => decide ((nfOf w.1.h).psn = a.1)).map fun a => (f.dev, a.1, a.2) := by
  rw [State.givenUp_fab]
  rfl

theorem State.givenUp_count : (s.givenUp die flow f sev addr).fld (nfbStat die) 16 16 = min 0xFFFF (s.fld (nfbStat die) 16 16 + 1) := by
  have hreg := State.reg_report_ne ((s.closeFlow (flowKey die flow) f).sat (nfbStat die) 16 16 1)
    { cls := 0x0A, site := ringSite die, unit := die, status := 0, sev := sev, reporter := ringSite die, part := none
      addr := BitVec.ofNat 64 addr, aux := BitVec.ofNat 64 (f.dev + flow * 65536) } (errB_ne_nfbStat (die := die) (ringSite_lt die))
  exact (congrArg (fun x : W64 => fldOf x 16 16) hreg).trans (State.fld_sat_same _ _ _ _ _ (by decide))

end

end Sys2Proof.Machine

/-!
PROOFS. Requests and answers of other panels (13_ring_links R304, R355, R358-R360) and ATOM_RSP (R263, R365).
-/

namespace Sys2Proof.Machine

/-! ### The sectors that an RD reads (R248, R304) -/

theorem maskSecs_lt {m k : Nat} (h : k ∈ maskSecs m) : k < 4 := List.mem_range.1 (List.mem_filter.1 h).1

/-- A sector of a line. -/
theorem sectorsOf_sector {pa : Nat} (hpa : pa % 512 = 0) (k : Nat) : sectorsOf (pa + 128 * k) 128 = [pa / 128 + k] := by
  have hone : (pa + 128 * k + 128 - 1) / 128 - (pa + 128 * k) / 128 + 1 = 1 := by omega
  have hsec : (pa + 128 * k) / 128 = pa / 128 + k := by omega
  unfold sectorsOf
  rw [if_neg (by decide), hone, hsec]
  rfl

theorem homeOf_sector {pa k : Nat} (hpa : pa % 512 = 0) (hk : k < 4) : homeOf (pa + 128 * k) = homeOf pa := by
  unfold homeOf
  omega

/-- One sector is read for poison, unless an earlier one had it. -/
def State.readSec (w : Who) (pa : Nat) (a : State × Option Nat) (k : Nat) : State × Option Nat :=
  match a.2 with
  | some c => (a.1, some c)
  | none => a.1.poisonRead w (pa + 128 * k) 128

theorem State.foldl_readSec_some (w : Who) (pa : Nat) (l : List Nat) (t : State) (c : Nat) : l.foldl (State.readSec w pa) (t, some c) = (t, some c) := by
  induction l with
  | nil => rfl
  | cons k l ih => exact ih

section
variable {v : State} {w : Who} {pa : Nat} (hpa : pa % 512 = 0) (hl : v.isLost (homeOf pa) = false)
include hpa hl

theorem State.readSec_clean {k : Nat} (hk : k < 4) (hc : v.secPoison w.site (pa / 128 + k) = false) : State.readSec w pa (v, none) k = (v, none) := by
  refine State.poisonRead_clean ?_ ?_
  · rw [homeOf_sector hpa hk]
    exact hl
  · rw [sectorsOf_sector hpa]
    intro x hx
    rw [List.mem_singleton.1 hx]
    exact hc

theorem State.foldl_readSec_clean {l : List Nat} (h4 : ∀ k ∈ l, k < 4) (hc : ∀ k ∈ l, v.secPoison w.site (pa / 128 + k) = false) :
    l.foldl (State.readSec w pa) (v, none) = (v, none) := by
  induction l with
  | nil => rfl
  | cons k l ih =>
    rw [List.foldl_cons, State.readSec_clean hpa hl (h4 k List.mem_cons_self) (hc k List.mem_cons_self)]
    exact ih (fun j hj => h4 j (List.mem_cons_of_mem _ hj)) fun j hj => hc j (List.mem_cons_of_mem _ hj)

theorem State.foldl_readSec_found {l : List Nat} (h4 : ∀ k ∈ l, k < 4) (hp : ∃ k ∈ l, v.secPoison w.site (pa / 128 + k) = true) :
    ∃ t : State, l.foldl (State.readSec w pa) (v, none) = (t, some stDataPoison) ∧ t.arc = v.arc := by
  induction l with
  | nil =>
    obtain ⟨k, hk, -⟩ := hp
    exact absurd hk List.not_mem_nil
  | cons k l ih =>
    have hk := h4 k List.mem_cons_self
    rw [List.foldl_cons]
    by_cases hc : v.secPoison w.site (pa / 128 + k) = true
    · obtain ⟨t, ht, harc, -⟩ := State.poisonRead_found (s := v) (w := w) (pa := pa + 128 * k) (n := 128)
        (.inr ⟨pa / 128 + k, by rw [sectorsOf_sector hpa]; exact List.mem_singleton.2 rfl, hc⟩)
      rw [homeOf_sector hpa hk, hl] at ht
      refine ⟨t, ?_, harc⟩
      have hfirst : State.readSec w pa (v, none) k = (t, some stDataPoison) := ht
      rw [hfirst, State.foldl_readSec_some]
    · rw [State.readSec_clean hpa hl hk (Bool.eq_false_iff.2 hc)]
      obtain ⟨j, hj, hjp⟩ := hp
      rcases List.mem_cons.1 hj with rfl | hj
      · exact absurd hjp hc
      · exact ih (fun j hj => h4 j (List.mem_cons_of_mem _ hj)) ⟨j, hj, hjp⟩

end

/-- An address that the checks of a request pass has a live home. -/
theorem State.isLost_of_nJudge {u : State} {at_ right n : Nat} {f : NF} (h : u.nJudge at_ f right n = 0) : u.isLost (homeOf f.addr) = false := by
  unfold State.nJudge at h
  dsimp only at h
  split at h
  · exact absurd h (by decide)
  · split at h
    · exact absurd h (by decide)
    · split at h
      · exact absurd h (by decide)
      · split at h
        · exact absurd h (by decide)
        · split at h
          · exact absurd h (by decide)
          · next hl => exact Bool.eq_false_iff.2 hl

theorem State.isLost_foldl_homeServe (u : State) (pa part x : Nat) (l : List Nat) :
    (l.foldl (fun s k => s.homeServe (pa + 128 * k) 128 part) u).isLost x = u.isLost x :=
  foldl_leaves (f := fun s : State => s.isLost x) (fun s k => s.isLost_homeServe ..) u l

/-! ### Requests of other panels (R304, R355) -/

section
variable {s u : State} {die at_ : Nat} {h : NHdr} {d : Bytes} {crc : W32} (hdie : die < 24) (ha : Arrives s die h d crc u at_)
include hdie ha

/-- The status that an RD is answered with. -/
def State.rdStatus (u : State) (at_ : Nat) (f : NF) : Nat := if f.addr % 512 ≠ 0 then 4 else u.nJudge at_ f 0 512

/-- The state in which the home has served the sectors of an RD. -/
def State.rdServed (u : State) (f : NF) : State := (maskSecs f.sub).foldl (fun s k => s.homeServe (f.addr + 128 * k) 128 f.part) u

/-- The reader that an RD is at its home. -/
def rdWho (f : NF) : Who := { q := { core := 0, eng := 0, q := 0 }, part := f.part, cid := f.cid, site := homeOf f.addr }

theorem exec_rd_refused (hst : u.rdStatus at_ (nfOf h) ≠ 0) : exec (.rd die h d crc) s = .next (u.nRefuse at_ (nfOf h) 0x18 (u.rdStatus at_ (nfOf h))) :=
  exec_of rfl (decide_eq_true hdie) ((ha.row _).trans (if_pos hst))

theorem exec_rd_served (hst : u.rdStatus at_ (nfOf h) = 0) {r : State × Option Nat}
    (hr : (maskSecs (nfOf h).sub).foldl (State.readSec (rdWho (nfOf h)) (nfOf h).addr) (u.rdServed (nfOf h), none) = r) :
    exec (.rd die h d crc) s = .next (match r.2 with
      | some c => r.1.nAnswer (nfOf h) 0x18 (nfStatus c) []
      | none => r.1.nAnswer (nfOf h) 0x18 0 ((maskSecs (nfOf h).sub).flatMap fun k => r.1.rdMem ((nfOf h).addr + 128 * k) 128)) := by
  subst hr
  exact exec_of rfl (decide_eq_true hdie) ((ha.row _).trans (if_neg (not_not_intro hst)))

omit hdie ha in
theorem State.rdStatus_zero (hst : u.rdStatus at_ (nfOf h) = 0) :
    (nfOf h).addr % 512 = 0 ∧ (u.rdServed (nfOf h)).isLost (homeOf (nfOf h).addr) = false := by
  unfold State.rdStatus at hst
  split at hst
  · exact absurd hst (by decide)
  · next hpa => exact ⟨Classical.not_not.1 hpa, (State.isLost_foldl_homeServe ..).trans (State.isLost_of_nJudge hst)⟩

theorem exec_rd_clean (hst : u.rdStatus at_ (nfOf h) = 0)
    (hc : ∀ k ∈ maskSecs (nfOf h).sub, (u.rdServed (nfOf h)).secPoison (homeOf (nfOf h).addr) ((nfOf h).addr / 128 + k) = false) :
    exec (.rd die h d crc) s = .next ((u.rdServed (nfOf h)).nAnswer (nfOf h) 0x18 0
      ((maskSecs (nfOf h).sub).flatMap fun k => (u.rdServed (nfOf h)).rdMem ((nfOf h).addr + 128 * k) 128)) := by
  obtain ⟨hpa, hl⟩ := State.rdStatus_zero hst
  exact exec_rd_served hdie ha hst (State.foldl_readSec_clean (w := rdWho (nfOf h)) hpa hl (fun k hk => maskSecs_lt hk) hc)

theorem exec_rd_poisoned (hst : u.rdStatus at_ (nfOf h) = 0)
    (hp : ∃ k ∈ maskSecs (nfOf h).sub, (u.rdServed (nfOf h)).secPoison (homeOf (nfOf h).addr) ((nfOf h).addr / 128 + k) = true) :
    ∃ t : State, t.arc = (u.rdServed (nfOf h)).arc ∧ exec (.rd die h d crc) s = .next (t.nAnswer (nfOf h) 0x18 2 []) := by
  obtain ⟨hpa, hl⟩ := State.rdStatus_zero hst
  obtain ⟨t, ht, harc⟩ := State.foldl_readSec_found (w := rdWho (nfOf h)) hpa hl (fun k hk => maskSecs_lt hk) hp
  exact ⟨t, harc, exec_rd_served hdie ha hst ht⟩

/-- The status that a WR is answered with. -/
def State.wrStatus (u : State) (at_ : Nat) (f : NF) (d : Bytes) : Nat :=
  if f.addr % 512 ≠ 0 ∨ d.length ≠ 144 * (maskSecs f.sub).length then 4 else u.nJudge at_ f 1 512

theorem exec_wr (st : Nat) (hst : u.wrStatus at_ (nfOf h) d = st) : exec (.wr die h d crc) s = .next (if st ≠ 0 then u.nRefuse at_ (nfOf h) 0x19 st
    else if (unmask (nfOf h).addr (maskSecs (nfOf h).sub) d).isEmpty then u.nAnswer (nfOf h) 0x19 0 []
    else u.homeWrite (ringSite at_) (nfOf h).part (nfOf h).cid (.remote at_ (nfOf h).src (nfOf h).flow (nfOf h).psn)
      (unmask (nfOf h).addr (maskSecs (nfOf h).sub) d)) := by
  subst hst
  exact exec_of rfl (decide_eq_true hdie) (ha.row _)

/-- The status that an AT is answered with. -/
def State.atStatus (u : State) (at_ : Nat) (f : NF) (d : Bytes) : Nat :=
  if 12 < f.sub ∨ f.addr % 4 ≠ 0 ∨ d.length ≠ (if f.sub = 9 then 16 else 8) then 4 else u.nJudge at_ f 2 (remoteSize f.sub f.addr)

/-- The ATOM that an AT becomes at its ring die. -/
def atMsg (at_ : Nat) (f : NF) (d : Bytes) : CMsg :=
  { line := f.addr / 512, req := ringSite at_, src := ringSite at_, dst := homeOf f.addr, part := f.part, cid := f.cid
    op := { sub := f.sub, size := remoteSize f.sub f.addr, addr := f.addr, val := BitVec.ofNat 64 (ofBytes (d.take 8))
            cmp := BitVec.ofNat 64 (ofBytes ((d.drop 8).take 8)) }
    dest := .remote at_ f.src f.flow f.psn }

theorem exec_atOp (st : Nat) (hst : u.atStatus at_ (nfOf h) d = st) : exec (.atOp die h d crc) s =
    .next (if st ≠ 0 then u.nRefuse at_ (nfOf h) 0x1A st else u.homeMsg .atom (atMsg at_ (nfOf h) d)) := by
  subst hst
  exact exec_of rfl (decide_eq_true hdie) (ha.row _)

/-! ### Objects (R360) -/

theorem exec_objData_dropped (hdrop : u.getFor (nfOf h) d.length = none ∨ ∃ g, u.getFor (nfOf h) d.length = some g ∧
    (u.frameOk (homeOf (nfOf h).addr) (nfOf h).addr g.part g.cid 2 1 = false ∨ u.mirrorB (nfOf h).addr = true)) :
    exec (.objData die h d crc) s = .next (u.sat (nfbStat at_) 48 16 1) := by
  refine exec_of rfl (decide_eq_true hdie) ((ha.row _).trans ?_)
  rcases hdrop with hg | ⟨g, hg, hbad⟩
  · rw [hg]
    rfl
  · rw [hg]
    refine if_pos ?_
    rcases hbad with hf | hm
    · rw [hf, Bool.not_false, Bool.or_true, Bool.true_or]
    · rw [hm, Bool.or_true]

theorem exec_objData_merged {g : ObjGet} (hg : u.getFor (nfOf h) d.length = some g) (h0 : 0 < d.length) (h512 : d.length ≤ 512)
    (hhbm : isHbm (nfOf h).addr = true) (hf : u.frameOk (homeOf (nfOf h).addr) (nfOf h).addr g.part g.cid 2 1 = true)
    (hm : u.mirrorB (nfOf h).addr = false) :
    exec (.objData die h d crc) s = .next ((linesOf (nfOf h).addr d.length).foldl (fun s l =>
      s.homeWrite (ringSite at_) g.part g.cid .none (((addrs (nfOf h).addr d.length).zip d).filter fun e => e.1 / 512 = l))
      { u with fab := { u.fab with gets := u.fab.gets.map fun x =>
        if x = g then { x with got := x.got ++ [((nfOf h).addr, d.length)] } else x } }) := by
  have hne : d.isEmpty = false := Bool.eq_false_iff.2 fun he => by
    rw [List.isEmpty_iff.1 he] at h0
    exact Nat.lt_irrefl 0 h0
  have hgo : ¬ (d.isEmpty || decide (512 < d.length) || !isHbm (nfOf h).addr || !u.frameOk (homeOf (nfOf h).addr) (nfOf h).addr g.part g.cid 2 1 ||
      u.mirrorB (nfOf h).addr) = true := by
    rw [hne, decide_eq_false (Nat.not_lt.2 h512), hhbm, hf, hm]
    exact Bool.false_ne_true
  have hgets : (u.fab.gets.map fun x => if x == g then { x with got := x.got ++ [((nfOf h).addr, d.length)] } else x) =
      u.fab.gets.map fun x => if x = g then { x with got := x.got ++ [((nfOf h).addr, d.length)] } else x :=
    List.map_congr_left fun x _ => ite_congr (propext beq_iff_eq) (fun _ => rfl) fun _ => rfl
  refine exec_of rfl (decide_eq_true hdie) ((ha.row _).trans ?_)
  rw [hg]
  refine (if_neg hgo).trans ?_
  rw [hgets]

end

/-! ### ATOM_RSP (R263, R365) -/

section
variable {s : State} {m : CMsg} (hok : m.ok = true) (ha : s.arrives .atomRsp m = true)
include hok ha

/-- What ATOM_RSP does for the destination of its operation. -/
def State.atomAnswered (u : State) (m : CMsg) : State := match m.dest with
  | .lane core slot lane reg run => u.deliverLane core slot lane reg run m.op.size m.old m.status
  | .mopn run => if m.status = 0 then u else u.modRun run fun r => if m.status = stSiteLost then { r with siteLost := true } else { r with poisoned := true }
  | .remote _ dev _ psn => u.fabAnswer (homeOf (m.line * 512)) dev m.part m.cid 0x1A (nfStatus m.status) psn (if m.status = 0 then toBytes 8 m.old.toNat else [])
  | .clerk p k n => u.modOp p k n fun o => if m.status = 0 then { o with adds := o.adds - 1 } else ({ o with adds := o.adds - 1 } : ClerkOp).fail m.status
  | .host _ => u
  | .none => u

theorem exec_atomRsp {t : State} (ht : (s.unsend .atomRsp m).atomAnswered m = t) : exec (.atomRsp m) s = .next t :=
  arrival rfl hok ha (Eq.trans rfl ht)

end

end Sys2Proof.Machine

/-!
PROOFS. Flows and packets of the fabric (13_ring_links R353-R360): the statement.
-/

namespace Sys2Proof.Machine

theorem retransmitted_eq (s : State) (die : Nat) (l : List (NPkt × FabUse)) :
    l.foldl (fun s u => s.nOut die u.1) (s.sat (nfbStat die) 0 16 1) =
      (let u := s.sat (nfbStat die) 0 16 1
       { u with fab := { u.fab with out := u.fab.out ++
         (l.filterMap fun w => (u.exitPort die (fldOf w.1.h 0 16)).map fun port => { w.1 with port := port }) } }) :=
  State.foldl_nOut ..

/-- Settles O49: each row of the flow layer, of the requests and answers of other panels, and of ATOM_RSP. -/
theorem fabricPackets : Obligations.FabricPackets := by
  refine ⟨⟨?packets, ?timers⟩, ?sequenced, ?gone, ?atomRsp⟩
  case packets =>
    intro s die h d crc hdie hcrc f hdst key fresh ack
    have hopen := exec_openFlow hdie hcrc hdst
    refine ⟨fun hr hroom => ?new, fun r hr => ⟨fun hc => ?older, fun hc => ?same, fun hc => ?newer⟩,
      fun k fl hfl he => ⟨exec_openAck hdie hcrc hdst hfl he, exec_ack hdie hcrc hdst hfl he⟩, fun r hr he => exec_close hdie hcrc hdst hr he⟩
    case new =>
      have hr : s.recv? (recvKey die (nfOf h).src (nfOf h).flow) = none := hr
      rw [hr] at hopen
      exact hopen.trans (congrArg Host.Outcome.next (if_neg (Nat.not_le.2 hroom)))
    all_goals
      have hr : s.recv? (recvKey die (nfOf h).src (nfOf h).flow) = some r := hr
      rw [hr] at hopen
    case older => exact hopen.trans (congrArg Host.Outcome.next (if_pos hc))
    case same =>
      exact hopen.trans (congrArg Host.Outcome.next ((if_neg (Int.not_lt.2 (Int.le_of_eq hc.symm))).trans (if_pos hc)))
    case newer =>
      exact hopen.trans (congrArg Host.Outcome.next ((if_neg (Int.not_lt.2 (Int.le_of_lt hc))).trans (if_neg (Int.ne_of_gt hc))))
  case timers =>
    intro s die flow hdie k
    refine ⟨fun f hf => ⟨exec_retransmit_opening hdie hf, fun ho hu => ?_, fun hg => ?_, fun ho hu hw => ?_⟩, fun dev r hr => exec_ackDelay hdie hr⟩
    · exact (exec_retransmit hdie hf ho hu).trans (congrArg Host.Outcome.next (retransmitted_eq ..))
    · obtain ⟨sev, addr, hx⟩ := exec_flowGiveup hdie hf hg
      exact ⟨s.givenUp die flow f sev addr, s.givenUp_rest .., s.givenUp_flow?_same .., fun j hj => s.givenUp_flow?_ne _ _ _ _ _ hj,
        s.givenUp_orphans .., s.givenUp_count .., hx⟩
    · refine (exec_flowIdle hdie hf ho hu hw).trans (congrArg Host.Outcome.next (congrArg (fun x : State => x.flowFreed die) ?_))
      exact State.closeFlow_of_acked _ _ hu
  case sequenced =>
    intro s u die at_ h d crc hdie ha f
    refine ⟨⟨exec_rd_refused hdie ha, fun hst => ⟨exec_rd_clean hdie ha hst, exec_rd_poisoned hdie ha hst⟩⟩,
      ⟨fun hst => ?wrRefused, fun hst ht => ?wrNone, fun hst ht => ?wr⟩, ⟨fun hst => ?atRefused, fun hst => ?at_⟩,
      ⟨exec_of rfl (decide_eq_true hdie) (ha.row _), exec_of rfl (decide_eq_true hdie) (ha.row _), exec_of rfl (decide_eq_true hdie) (ha.row _)⟩,
      exec_of rfl (decide_eq_true hdie) (ha.row _), exec_of rfl (decide_eq_true hdie) (ha.row _),
      fun hg => exec_objData_dropped hdie ha (.inl hg), fun g hg hbad => exec_objData_dropped hdie ha (.inr ⟨g, hg, hbad⟩),
      fun g hg h0 h512 hhbm hf hm => exec_objData_merged hdie ha hg h0 h512 hhbm hf hm, exec_of rfl (decide_eq_true hdie) (ha.row _)⟩
    case wrRefused => exact (exec_wr hdie ha _ rfl).trans (congrArg Host.Outcome.next (if_pos hst))
    case wrNone =>
      exact (exec_wr hdie ha 0 hst).trans (congrArg Host.Outcome.next ((if_neg (not_not_intro rfl)).trans (if_pos (List.isEmpty_iff.2 ht))))
    case wr =>
      exact (exec_wr hdie ha 0 hst).trans
        (congrArg Host.Outcome.next ((if_neg (not_not_intro rfl)).trans (if_neg fun he => ht (List.isEmpty_iff.1 he))))
    case atRefused => exact (exec_atOp hdie ha _ rfl).trans (congrArg Host.Outcome.next (if_pos hst))
    case at_ => exact (exec_atOp hdie ha 0 hst).trans (congrArg Host.Outcome.next (if_neg (not_not_intro rfl)))
  case gone => exact fun s m hok hn => exec_of rfl hok (State.onArrival_not hn)
  case atomRsp =>
    intro s m hok ha u
    refine ⟨fun core slot lane reg run hd => ?lane, fun run hd => ?mopn, fun at_ dev flow psn hd => ?remote, fun p k n hd => ?clerk, fun hd => ?none⟩
    all_goals refine exec_atomRsp hok ha ?_
    case lane =>
      unfold State.atomAnswered
      rw [hd]
    case mopn =>
      unfold State.atomAnswered
      rw [hd]
      dsimp only
      by_cases h0 : m.status = 0
      · rw [if_pos h0, if_pos h0]
      · rw [if_neg h0, if_neg h0]
        by_cases h1 : m.status = 0x31
        · rw [if_pos h1]
          exact congrArg (fun f => u.modRun run f) (funext fun r => if_pos h1)
        · rw [if_neg h1]
          exact congrArg (fun f => u.modRun run f) (funext fun r => if_neg h1)
    case remote =>
      unfold State.atomAnswered
      rw [hd]
    case clerk =>
      unfold State.atomAnswered
      rw [hd]
    case none =>
      unfold State.atomAnswered
      rcases hd with hd | ⟨port, hd⟩
      · rw [hd]
      · rw [hd]

end Sys2Proof.Machine

/-!
PROOFS. Service rings (14_clerk_services R361-R367, R387, R388, R472).
-/

namespace Sys2Proof.Machine

section
variable {s : State} {p k n : Nat} {v : W64} {c : Instr}

theorem svcOk_of (hp : p < 16) (hk : k < 4) : svcOk p k = true := by
  unfold svcOk
  rw [decide_eq_true hk, Bool.and_true]
  exact decide_eq_true hp

/-- A doorbell or abort of a service ring is dropped. -/
theorem setsRegs_dbErr_svc (he : exec c s = .next (s.dbErr (.svc p k))) : SetsRegs c s
    [(svcB p k + 0x48, putFld (putFld (s.reg (svcB p k + 0x48)) 16 1 1) 32 16 (min 0xFFFF (s.fld (svcB p k + 0x48) 32 16 + 1)))] := by
  obtain ⟨hrest, hsame, hne⟩ := s.errCounted_spec (svcB p k + 0x48)
  refine ⟨_, he, hrest, fun e hm => ?_, fun j hj => hne j fun hk' => hj (List.mem_singleton.2 hk')⟩
  cases List.mem_singleton.1 hm
  exact hsame

/-! ### SVC_TAIL and SVC_CFG (R361, R172, R472) -/

/-- A new tail of a service ring is taken. -/
def State.svcFits (s : State) (p k new : Nat) : Prop :=
  s.svcEnabled p k = true ∧ s.partState p = 1 ∧ wsub new (s.fld (svcB p k + 0x28) 0 32) ≤ 2 ^ s.fld (svcB p k) 8 5 ∧
    wsub new (s.fld (svcB p k + 0x20) 0 32) < 2 ^ 31

theorem effSvcTail_fits (h : s.svcFits p k (v.toNat % 2 ^ 32)) :
    effSvcTail p k v s = (s.setFld (svcB p k + 0x20) 0 32 (v.toNat % 2 ^ 32)).svcFetch p k := by
  obtain ⟨he, hp, hr, ht⟩ := h
  refine if_neg ?_
  rw [← fldOf_zero_eq] at hr ht
  simp only [he, hp, Bool.or_eq_true, Bool.not_true, Bool.false_eq_true, decide_eq_true_eq, false_or, ne_eq, not_true_eq_false]
  omega

theorem effSvcTail_not (h : ¬ s.svcFits p k (v.toNat % 2 ^ 32)) : effSvcTail p k v s = s.dbErr (.svc p k) := by
  refine if_pos (Decidable.byContradiction fun hc => h ?_)
  simp only [Bool.or_eq_true, Bool.not_eq_true', decide_eq_true_eq, not_or, Bool.not_eq_false, Nat.not_lt, Nat.not_le, ne_eq,
    Classical.not_not] at hc
  obtain ⟨⟨⟨he, hp⟩, hr⟩, ht⟩ := hc
  exact ⟨he, hp, hr, ht⟩

/-- The held fields of SVC_CFG, taken while ENABLE was 0. -/
def State.svcHeldCfg (s : State) (p k : Nat) (v : W64) : State :=
  ((s.setFld (svcB p k) 8 5 (max 4 (min 12 (fldOf v 8 5)))).setFld (svcB p k) 16 5 (max 4 (min 16 (fldOf v 16 5)))).setFld (svcB p k) 32 16 (fldOf v 32 16)

theorem svcStatus_ne (p k : Nat) : svcB p k + 0x48 ≠ svcB p k := by omega

theorem State.svcState_setCfg (s : State) (lo w x : Nat) : (s.setFld (svcB p k) lo w x).svcState p k = s.svcState p k :=
  State.fld_setFld_ne _ _ _ _ _ _ (svcStatus_ne p k)

theorem State.svcState_heldCfg (s : State) (p k : Nat) (v : W64) : (s.svcHeldCfg p k v).svcState p k = s.svcState p k := by
  unfold State.svcHeldCfg
  rw [State.svcState_setCfg, State.svcState_setCfg, State.svcState_setCfg]

theorem State.svcEnabled_setCfg (s : State) (p k : Nat) (v : W64) :
    ((s.setFld (svcB p k) 0 1 (fldOf v 0 1)).setFld (svcB p k) 3 1 (fldOf v 3 1)).svcEnabled p k = v.getLsbD 0 := by
  unfold State.svcEnabled State.bit
  rw [State.fld_setFld_other _ _ _ _ _ _ _ (by omega) (by omega), State.fld_setFld_same _ _ _ _ _ (by omega), fldOf_one_eq_b2n]
  cases v.getLsbD 0 <;> rfl

theorem effSvcCfgWrite_eq (s : State) (p k : Nat) (v : W64) :
    let u := ((if s.svcEnabled p k then s else s.svcHeldCfg p k v).setFld (svcB p k) 0 1 (fldOf v 0 1)).setFld (svcB p k) 3 1 (fldOf v 3 1)
    effSvcCfgWrite p k v s = (if v.getLsbD 0 = false ∧ s.svcState p k = 8 then u.setFld (svcB p k + 0x48) 0 4 0 else u).svcFetch p k := by
  intro u
  have hen : u.svcEnabled p k = v.getLsbD 0 := State.svcEnabled_setCfg ..
  have hst : u.svcState p k = s.svcState p k := by
    refine (State.svcState_setCfg ..).trans ((State.svcState_setCfg ..).trans ?_)
    split
    · rfl
    · exact s.svcState_heldCfg p k v
  have hgo : effSvcCfgWrite p k v s = (if !u.svcEnabled p k && decide (u.svcState p k = 8) then u.setFld (svcB p k + 0x48) 0 4 0 else u).svcFetch p k := rfl
  rw [hgo, hen, hst]
  simp only [Bool.and_eq_true, Bool.not_eq_true', decide_eq_true_eq]

/-! ### Aborts (R366) -/

/-- The operations of a ring, those named by `f`, learn of an abort. -/
theorem State.abortOps_eq (s : State) (p k : Nat) {f : Nat → Bool} {P : ClerkOp → Prop} [DecidablePred P]
    (h : ∀ o : ClerkOp, (o.p = p ∧ o.k = k ∧ f o.submit = true) ↔ P o) :
    s.abortOps p k f = { s with svc := { s.svc with ops := s.svc.ops.map fun o => if P o then { o with abortSeen := true } else o } } := by
  have hmap : (s.svc.ops.map fun o => if o.p = p ∧ o.k = k ∧ f o.submit = true then { o with abortSeen := true } else o) =
      s.svc.ops.map fun o => if P o then { o with abortSeen := true } else o :=
    List.map_congr_left fun o _ => ite_congr (propext (h o)) (fun _ => rfl) fun _ => rfl
  unfold State.abortOps
  rw [hmap]

theorem State.svcRuns_iff : ((s.svcOps p k).any fun o => decide (o.submit = n)) = true ↔ ∃ o ∈ s.svc.ops, o.p = p ∧ o.k = k ∧ o.submit = n := by
  unfold State.svcOps
  simp only [List.any_eq_true, List.mem_filter, Bool.and_eq_true, decide_eq_true_eq]
  exact ⟨fun ⟨o, ⟨hm, hp, hk⟩, hn⟩ => ⟨o, hm, hp, hk, hn⟩, fun ⟨o, hm, hp, hk, hn⟩ => ⟨o, ⟨hm, hp, hk⟩, hn⟩⟩

theorem State.svcHolds_iff : ((s.svcX p k).reqs.any fun r => decide (r.1 = n)) = true ↔ ∃ r ∈ (s.svcX p k).reqs, r.1 = n := by
  simp only [List.any_eq_true, decide_eq_true_eq]

section
variable (hruns : ¬ ∃ o ∈ s.svc.ops, o.p = p ∧ o.k = k ∧ o.submit = n)
include hruns

theorem effSvcAbort_held (hholds : ∃ r ∈ (s.svcX p k).reqs, r.1 = n) : effSvcAbort p k n s = s.abortHeld p k :=
  (if_neg fun h => hruns (State.svcRuns_iff.1 h)).trans (if_pos (State.svcHolds_iff.2 hholds))

variable (hholds : ¬ ∃ r ∈ (s.svcX p k).reqs, r.1 = n)
include hholds

theorem effSvcAbort_absent
    (hposted : ¬ wsub n (s.fld (svcB p k + 0x28) 0 32) < wsub (s.fld (svcB p k + 0x20) 0 32) (s.fld (svcB p k + 0x28) 0 32)) :
    effSvcAbort p k n s = s := by
  refine (if_neg fun h => hruns (State.svcRuns_iff.1 h)).trans ((if_neg fun h => hholds (State.svcHolds_iff.1 h)).trans (if_pos ?_))
  unfold between
  rw [decide_eq_false hposted]
  rfl

theorem effSvcAbort_posted
    (hposted : wsub n (s.fld (svcB p k + 0x28) 0 32) < wsub (s.fld (svcB p k + 0x20) 0 32) (s.fld (svcB p k + 0x28) 0 32)) :
    effSvcAbort p k n s = if 16 ≤ (s.svcX p k).aborts.length then s.dbErr (.svc p k)
      else s.setSvcX p k { s.svcX p k with aborts := (s.svcX p k).aborts ++ [n] } := by
  refine (if_neg fun h => hruns (State.svcRuns_iff.1 h)).trans ((if_neg fun h => hholds (State.svcHolds_iff.1 h)).trans (if_neg ?_))
  unfold between
  rw [decide_eq_true hposted]
  exact Bool.false_ne_true

end

/-! ### SVC_WAIT_TIMEOUT (R362, R370) -/

theorem effSvcWaitTimeout_held {d : Desc} (hreqs : (s.svcX p k).reqs = [(n, d)]) (hw : d.getLsbD 10 = true) (he : s.svcEnabled p k = true)
    (hst : s.svcState p k < 5) (hfree : s.svcFree p k ≠ 0) : effSvcWaitTimeout p k s = s.svcReject p k n d { code := stWaitTimeout } := by
  have hfind : ((s.svcX p k).reqs.find? fun r => vWaitEn r.2) = some (n, d) := by
    rw [hreqs]
    exact List.find?_cons_of_pos hw
  have hgo : (s.svcEnabled p k && !stuckState (s.svcState p k) && s.svcMayRecord p k) = true := by
    unfold stuckState State.svcMayRecord
    rw [he, decide_eq_false (Nat.not_le.2 hst), decide_eq_true hfree, Bool.true_or]
    rfl
  unfold effSvcWaitTimeout
  rw [hfind]
  exact if_pos hgo

end

/-- Settles O51: each register write and time-out of a service ring, by the branches of its row. -/
theorem serviceRings : Obligations.ServiceRings := by
  intro s p k v hp hk b x drop
  have hok := svcOk_of hp hk
  refine ⟨⟨fun hf => exec_of rfl hok (effSvcTail_fits hf), fun hf => setsRegs_dbErr_svc (exec_of rfl hok (effSvcTail_not hf))⟩,
    exec_of rfl hok (effSvcCfgWrite_eq s p k v), fun h => exec_of rfl hok (if_pos h), fun h => ?blocked, fun h5 h6 => ?other,
    fun n hn => ?abort, ?abortAll, fun n d hreqs hw he hst hfree => exec_of rfl hok (effSvcWaitTimeout_held hreqs hw he hst hfree)⟩
  case blocked =>
    have h5 : ¬ s.svcState p k = 5 := by omega
    exact exec_of rfl hok ((if_neg h5).trans (if_pos h))
  case other => exact exec_of rfl hok ((if_neg h5).trans (if_neg h6))
  case abort =>
    intro runs holds posted
    have hok' : (svcOk p k && decide (n < 2 ^ 32)) = true := by
      rw [hok, decide_eq_true hn]
      rfl
    refine ⟨fun hr => ?_, fun hr hh => exec_of rfl hok' (effSvcAbort_held hr hh), fun hr hh hpo => exec_of rfl hok' (effSvcAbort_absent hr hh hpo),
      fun hr hh hpo hl => ?_, fun hr hh hpo hl => ?_⟩
    · refine exec_of rfl hok' ((if_pos (State.svcRuns_iff.2 hr)).trans (s.abortOps_eq p k fun o => ?_))
      rw [decide_eq_true_eq]
    · exact exec_of rfl hok' ((effSvcAbort_posted hr hh hpo).trans (if_neg (Nat.not_le.2 hl)))
    · exact setsRegs_dbErr_svc (exec_of rfl hok' ((effSvcAbort_posted hr hh hpo).trans (if_pos hl)))
  case abortAll =>
    intro u
    have hops : (s.abortOps p k fun _ => true) = u := s.abortOps_eq p k fun o => ⟨fun ⟨hp, hk, _⟩ => ⟨hp, hk⟩, fun ⟨hp, hk⟩ => ⟨hp, hk, rfl⟩⟩
    refine exec_of rfl hok ?_
    unfold State.svcAbortAll
    rw [hops]
    rfl

end Sys2Proof.Machine

/-!
PROOFS. Service operations (14_clerk_services R362-R375).
-/

namespace Sys2Proof.Machine

/-! ### The rows of the clerks (R362-R364) -/

/-- A row of the clerks: its command, its opcode, how a request starts and how a running operation goes on. -/
abbrev ClerkRow := Instr × Nat × (State → Nat → Desc → Nat × Nat → State) × (State → ClerkOp → State)

def clerkRows (p k : Nat) : List ClerkRow :=
  [(Instr.fAllreduce p k, 0x70, State.startColl p k, State.collGo), (.fReduceScatter p k, 0x71, State.startColl p k, State.collGo),
    (.fAllgather p k, 0x72, State.startColl p k, State.collGo), (.fAlltoall p k, 0x73, State.startColl p k, State.collGo),
    (.checkpoint p k, 0x78, State.startCheckpoint p k, State.checkpointGo), (.stage p k, 0x7A, State.startStage p k, State.stageGo)]

section
variable {s : State} {p k : Nat}

theorem exec_clerkRow {e : ClerkRow} (he : e ∈ clerkRows p k) : exec e.1 s = carryOut (svcOk p k) (s.clerkRow p k e.2.1 e.2.2.1 e.2.2.2) := by
  simp only [clerkRows, List.mem_cons, List.not_mem_nil, or_false] at he
  rcases he with rfl | rfl | rfl | rfl | rfl | rfl <;> rfl

section
variable {op n : Nat} {d : Desc} {lead : Nat × Nat} {v : State} {start : State → Nat → Desc → Nat × Nat → State} {go : State → ClerkOp → State}

/-- A held request that may start, and whose wait has ended, starts. -/
theorem State.clerkRow_starts (hheld : (s.svcFetch p k).svcHeld p k op = some (n, d)) (hmay : (s.svcFetch p k).svcMayStart p k = true)
    (hlead : (s.svcFetch p k).findLead = some lead)
    (hwait : (s.svcFetch p k).svcWait ((s.svcFetch p k).clerkWho p k lead.1) d = (v, .ready)) :
    s.clerkRow p k op start go = (start v n d lead).svcFetch p k := by
  have hnot : ¬ (!(s.svcFetch p k).svcMayStart p k) = true := by
    rw [hmay]
    exact Bool.false_ne_true
  have htry : s.svcTry p k op start = ((start v n d lead).svcFetch p k, true) := by
    unfold State.svcTry
    dsimp only
    rw [hheld]
    dsimp only
    rw [if_neg hnot, hlead]
    dsimp only
    rw [hwait]
  unfold State.clerkRow
  rw [htry]
  exact if_pos rfl

/-- Without a held request of the opcode its running operations go on. -/
theorem State.clerkRow_goes (hheld : (s.svcFetch p k).svcHeld p k op = none) : s.clerkRow p k op start go =
    (((s.svcFetch p k).svcOps p k).foldl (fun s o => if hOpc o.req = op then (match s.op? o with | some o => go s o | none => s) else s)
      (s.svcFetch p k)).svcFetch p k := by
  have htry : s.svcTry p k op start = (s.svcFetch p k, false) := by
    unfold State.svcTry
    dsimp only
    rw [hheld]
  unfold State.clerkRow
  rw [htry]
  exact if_neg Bool.false_ne_true

end

/-! ### The starts (R364, R374) -/

theorem State.startStage_begins {v w : State} {n : Nat} {d : Desc} {lead : Nat × Nat}
    (h : v.clerkRanges (v.clerkWho p k lead.1) (stageRanges d) = (w, none)) : State.startStage p k v n d lead =
      (w.svcBegin p k n d lead [ckDev d] (stageRanges d) .batches (w.recPaOf (v.clerkWho p k lead.1) d) [] 0).1 := by
  unfold State.startStage
  dsimp only
  rw [h]

theorem State.startColl_refused {v w : State} {n : Nat} {d : Desc} {lead : Nat × Nat} {f : Fail}
    (h : v.clerkRanges (v.clerkWho p k lead.1) (collRanges d) = (w, some f)) :
    State.startColl p k v n d lead = w.svcRefuse p k n d lead (collRanges d) f := by
  unfold State.startColl
  dsimp only
  rw [h]

end

/-! ### The steps of running operations (R365, R368-R373) -/

section
variable {v : State} {o : ClerkOp}

theorem State.collGo_failed (hc : o.code ≠ 0) : v.collGo o = v.opDone o o.code 0 := if_pos hc

theorem State.checkpointGo_failed (hc : o.code ≠ 0) : v.checkpointGo o = v.opDone o o.code 0 := if_pos hc

section
variable (hc : o.code = 0)
include hc

/-- What a collective without a failure does in each of its steps. -/
theorem State.collGo_of : v.collGo o = match o.step with
    | .sum => if o.adds = 0 ∧ o.writes = 0 then v.setOp { o with step := .credit } else v
    | .credit => v.collSend o
    | .data => if o.writes ≠ 0 then v
      else (v.sendTag o (fTo o.req o.stage) (0x1000 + 8 * fSlot o.req o.stage) (fTag (fInst o.req) (fUse o.req o.stage))).setOp { o with step := .receive }
    | .receive => v.collReceive o
    | .added => v.collAdded o
    | _ => if o.writes = 0 then v.opDone o stOk 0 else v := if_neg (not_not_intro hc)

theorem State.collGo_finish (hs : o.step = .finish) (hw : o.writes = 0) : v.collGo o = v.opDone o 0 0 := by
  rw [State.collGo_of hc, hs]
  exact if_pos hw

theorem State.collGo_adding (hs : o.step = .sum ∨ o.step = .added) (ha : o.adds ≠ 0) : v.collGo o = v := by
  rcases hs with hs | hs
  · rw [State.collGo_of hc, hs]
    exact if_neg fun h => ha h.1
  · rw [State.collGo_of hc, hs]
    exact if_pos ha

theorem State.collGo_sum (hs : o.step = .sum) (ha : o.adds = 0) (hw : o.writes = 0) : v.collGo o = v.setOp { o with step := .credit } := by
  rw [State.collGo_of hc, hs]
  exact if_pos ⟨ha, hw⟩

theorem State.collGo_added (hs : o.step = .added) (ha : o.adds = 0) (hl : o.stage + 2 ≠ fMembers o.req) : v.collGo o = v.collNext o := by
  rw [State.collGo_of hc, hs]
  exact (if_neg (not_not_intro ha)).trans (if_neg hl)

theorem State.collGo_data (hs : o.step = .data) (hw : o.writes = 0) : v.collGo o =
    (v.sendTag o (fTo o.req o.stage) (0x1000 + 8 * fSlot o.req o.stage) (fInst o.req * 2 ^ 32 + fUse o.req o.stage)).setOp { o with step := .receive } := by
  rw [State.collGo_of hc, hs]
  exact if_neg (not_not_intro hw)

theorem State.checkpointGo_finish (hs : o.step = .finish) (hp : o.puts = 0) : v.checkpointGo o = v.opDone o 0 0 := by
  unfold State.checkpointGo
  rw [hs]
  exact (if_neg (not_not_intro hc)).trans ((if_neg (by decide)).trans (if_pos hp))

theorem State.stageGo_finish (hs : o.started = []) (hb : o.bad = none) (ha : o.abortSeen = false) (hn : o.next = sgBatches o.req) :
    v.stageGo o = v.opDone o 0 o.filled := by
  have hstart : ¬ (!o.started.isEmpty) = true := by
    rw [hs]
    exact Bool.false_ne_true
  unfold State.stageGo
  rw [if_neg hstart, if_neg (not_not_intro hc), hb]
  exact (if_neg (ne_true_of_eq_false ha)).trans (if_pos hn)

end
end

/-! ### The batches of a STAGE (R375) -/

section
variable {s u : State} {p k n freed : Nat} {o : ClerkOp}

theorem ClerkOp.stopped_of (ha : o.abortSeen = false) (hb : o.bad = none) (hc : o.code = 0) : o.stopped = false := by
  unfold ClerkOp.stopped
  rw [ha, hb, decide_eq_false (not_not_intro hc)]
  rfl

section
variable (ho : s.stageOp p k n = some o) (hstop : o.stopped = false) (hb : o.next < sgBatches o.req) (hl : o.started.length < 4)
  (hfreed : s.readNum (s.clerkWho p k o.lead) (sgFreed o.req) 8 = (u, .ok freed))
include ho hstop hb hl hfreed

omit ho hfreed in
theorem batch_mayStart : ¬ (o.stopped || decide (sgBatches o.req ≤ o.next) || decide (4 ≤ o.started.length)) = true := by
  rw [hstop, decide_eq_false (Nat.not_le.2 hb), decide_eq_false (Nat.not_le.2 hl)]
  exact Bool.false_ne_true

theorem effStageBatchStart_waits (hfull : freed + sgSlots o.req < o.next + 1) : effStageBatchStart p k n s = u := by
  have hgo := batch_mayStart hstop hb hl
  unfold effStageBatchStart
  rw [ho]
  dsimp only
  rw [if_neg hgo, hfreed]
  exact if_pos hfull

/-- A number of 8 bytes of a batch's list entry. -/
def entryWord (bs : Bytes) (j : Nat) : Nat := ofBytes ((bs.drop (8 * j)).take 8)

theorem effStageBatchStart_gets (hroom : o.next + 1 ≤ freed + sgSlots o.req) {v y : State} {bs : Bytes} {runs : List (Nat × Nat)}
    (hentry : u.readVa (s.clerkWho p k o.lead) .read (sgList o.req + 32 * o.next) 32 0 = (v, .ok bs))
    (hsize : entryWord bs 2 ≤ sgSlotBytes o.req) (hrsv : entryWord bs 3 = 0)
    (hkeep : (v.keeperFor (ringSite (o.dieOf o.next (sgBatches o.req))) (ckDev o.req)).isSome = true)
    (hruns : v.physRuns (s.clerkWho p k o.lead) .write (entryWord bs 2 / 65536 + 2)
      (sgRing o.req + o.next % sgSlots o.req * sgSlotBytes o.req) (entryWord bs 2) [] = (y, .ok runs)) :
    effStageBatchStart p k n s = (y.modOp p k n fun x => { x with next := o.next + 1, started := x.started ++ [o.next] }).sendGets o o.next
      (entryWord bs 0) (entryWord bs 1) runs := by
  have hgo := batch_mayStart hstop hb hl
  have hok : ¬ (sgSlotBytes o.req < entryWord bs 2 ∨ entryWord bs 3 ≠ 0) := fun h => h.elim (Nat.not_lt.2 hsize) fun h => h hrsv
  have hkeep' : ¬ (v.keeperFor (ringSite (o.dieOf o.next (sgBatches o.req))) (ckDev o.req)).isNone = true := fun h => by
    rw [Option.isNone_iff_eq_none.1 h] at hkeep
    exact Bool.false_ne_true hkeep
  unfold effStageBatchStart
  rw [ho]
  dsimp only
  rw [if_neg hgo, hfreed]
  dsimp only
  rw [if_neg (Nat.not_lt.2 hroom), hentry]
  refine (if_neg hok).trans ((if_neg hkeep').trans ?_)
  unfold entryWord at hruns
  dsimp only
  rw [hruns]
  rfl

end

section
variable {batch : Nat} (ho : s.stageOp p k n = some o) (hbatch : batch ∈ o.started)
  (hgets : ∀ g ∈ s.fab.gets, ¬ (g.p = p ∧ g.k = k ∧ g.submit = n ∧ g.batch = batch))
include ho hbatch hgets

/-- The operation once a batch has landed, with FILLED over the batches without a gap. -/
def ClerkOp.land (o : ClerkOp) (batch : Nat) : ClerkOp :=
  ClerkOp.fill { o with started := o.started.erase batch, landed := o.landed ++ [batch] } (o.landed.length + 2)

theorem effStageBatchLanded_ok {x : State}
    (hx : (if (o.land batch).filled = o.filled then (s, MRes.ok ()) else
      s.writeVa (s.clerkWho p k o.lead) (sgFilled o.req) (toBytes 8 (o.land batch).filled) 0) = (x, .ok ())) :
    effStageBatchLanded p k n batch s = (((x.modOp p k n fun _ => o.land batch).stageGo (o.land batch)).svcFetch p k) := by
  have hin : o.started.contains batch = true := List.contains_iff_mem.2 hbatch
  have hnone : (s.fab.gets.any fun g => g.p = p && g.k = k && g.submit = n && g.batch = batch) = false := by
    refine List.any_eq_false.2 fun g hg => ?_
    have hnot := hgets g hg
    simp only [Bool.and_eq_true, decide_eq_true_eq]
    exact fun ⟨⟨⟨hp, hk⟩, hn⟩, hb⟩ => hnot ⟨hp, hk, hn, hb⟩
  have hgo : ¬ (!o.started.contains batch || s.fab.gets.any fun g => g.p = p && g.k = k && g.submit = n && g.batch = batch) = true := by
    rw [hin, hnone]
    exact Bool.false_ne_true
  unfold ClerkOp.land at hx
  unfold effStageBatchLanded
  rw [ho]
  dsimp only
  rw [if_neg hgo, hx]
  rfl

end
end

/-- Settles O52: the rows of the clerks, the steps of their operations and the batches of a STAGE. -/
theorem serviceOperations : Obligations.ServiceOperations := by
  refine ⟨?rows, ?batches⟩
  case rows =>
    intro s p k hp hk u
    have hok := svcOk_of hp hk
    refine ⟨fun e he => ?_, fun v w n d lead => ⟨State.startStage_begins, fun f => State.startColl_refused⟩, fun v o => ?_⟩
    · have hc := exec_clerkRow (s := s) (e := e) he
      exact ⟨fun n d lead v hheld hmay hlead hwait => exec_of hc hok (State.clerkRow_starts hheld hmay hlead hwait),
        fun hheld => exec_of hc hok (State.clerkRow_goes hheld)⟩
    · exact ⟨fun hc => ⟨State.collGo_failed hc, State.checkpointGo_failed hc⟩, State.collGo_finish, State.collGo_adding, State.collGo_sum,
        State.collGo_added, State.checkpointGo_finish, State.collGo_data, fun hs hc hb ha hn => State.stageGo_finish hc hs hb ha hn⟩
  case batches =>
    intro s p k n o hp hk hn ho d w b
    have hok : (svcOk p k && decide (n < 2 ^ 32)) = true := by
      rw [svcOk_of hp hk, decide_eq_true hn]
      rfl
    refine ⟨fun ha hbad hc hb hl u freed hfreed => ?_, fun batch hbatch hgets => ⟨fun hsame => ?_, fun hne u hu => ?_⟩⟩
    · have hstop := ClerkOp.stopped_of ha hbad hc
      exact ⟨fun hfull => exec_of rfl hok (effStageBatchStart_waits ho hstop hb hl hfreed hfull),
        fun hroom v bs hentry hsize hrsv hkeep y runs hruns =>
          exec_of rfl hok (effStageBatchStart_gets ho hstop hb hl hfreed hroom hentry hsize hrsv hkeep hruns)⟩
    · exact exec_of rfl hok (effStageBatchLanded_ok ho hbatch hgets (if_pos hsame))
    · exact exec_of rfl hok (effStageBatchLanded_ok ho hbatch hgets ((if_neg hne).trans hu))

end Sys2Proof.Machine
